-- ==== Sys2Proof/Word.lean ====
section
/-! DEFINITION. The word types of the M7400 and their plainest arithmetic. -/

namespace Sys2Proof

/-- A scalar register, an address operand or a program counter (R161). -/
abbrev W64 := BitVec 64
/-- An instruction word (R145), a vector lane (R191) or a side band (R53). -/
abbrev W32 := BitVec 32
/-- One byte of memory. -/
abbrev Byte := BitVec 8

/-- A scalar register number s0-s31 (R147). -/
abbrev SReg := Fin 32
/-- A vector register name v0-v31 (R147). -/
abbrev VReg := Fin 32
/-- An accumulator tile a0-a31 (R147). -/
abbrev TReg := Fin 32
/-- A predicate p0-p15, ring q0-q15, semaphore or gang barrier number (R147). -/
abbrev Reg16 := Fin 16

/-- The field of n bits of w that begins at bit lo (R3). -/
def fld (w lo n : Nat) : Nat := w / 2 ^ lo % 2 ^ n

theorem fld_lt (w lo n : Nat) : fld w lo n < 2 ^ n := Nat.mod_lt _ (Nat.two_pow_pos n)

/-- A number read as an index below n. -/
def idx (n : Nat) [NeZero n] (x : Nat) : Fin n := Fin.ofNat n x

end Sys2Proof
end

