-- ==== Sys2Proof/Syntax.lean ====
section
/-! DEFINITION. The instructions and steps of the M7400: one constructor for each row of the opcode table.
The words come from the groups of R155; the rows without a word are the steps of spec/95, whose arguments are
what the scheduler or the outside world chooses. -/

namespace Sys2Proof

/-- The four sequencers of a core (R11). -/
inductive SeqKind where
  | K | L | C | S
  deriving DecidableEq, Repr, Inhabited

/-- A sequencer of the device: of compute core g = CID * 128 + COR (R11), or of a hearth core (R284). -/
inductive Who where
  | core (g : Nat) (q : SeqKind)
  | hearth (h : Nat)
  deriving DecidableEq, Repr, Inhabited

/-- The three engine queues of a core (R214). -/
inductive Queue where
  | l | s | m
  deriving DecidableEq, Repr, Inhabited

/-- Who posted a near-memory operation: K of a core, a hearth core, or a bank-unit routine (R136). -/
inductive Poster where
  | core (g : Nat)
  | hearth (h : Nat)
  | routine (entry : Nat)
  deriving DecidableEq, Repr, Inhabited

/-- A translation unit: of a cluster or of a hearth core (R299). -/
inductive Unit1 where
  | cluster (c : Nat)
  | hearth (h : Nat)
  deriving DecidableEq, Repr, Inhabited

/-- A link whose lanes retrain (R314): a memory link (R323), a fabric port (R328) or a UCIe link. -/
inductive LinkId where
  | memory (n : Nat)
  | port (p : Nat)
  | ucie (l : Nat)
  deriving DecidableEq, Repr, Inhabited

/-- The resources that carry a leaky bucket (R314). -/
inductive Bucket where
  | bank (g bank : Nat)
  | lane (link lane : Nat)
  | port (p lane : Nat)
  | ucie (l lane : Nat)
  | unit (u : Nat)
  | cluster (c : Nat)
  deriving DecidableEq, Repr, Inhabited

/-- The register files in which an uncorrectable error can arise (R311). -/
inductive RegSite where
  | scalar (r : Fin 32)
  | pred (r : Fin 16)
  | vector (r : Fin 32)
  deriving DecidableEq, Repr, Inhabited

/-- Where an uncorrectable error arises (R311): a line of memory, named by the key of its first byte
(Machine/State.lean), an accumulator tile, an engine's buffer, or a register. -/
inductive ErrSite where
  | line (key : Nat)
  | tile (g : Nat) (t : Fin 32) (row : Fin 32)
  | buffer (g : Nat) (q : Queue)
  | reg (w : Who) (r : RegSite)
  deriving DecidableEq, Repr, Inhabited

/-- A request from a fabric peer (R118, R122, R124): the partition it addresses, whether the address is a
chunk-buffer offset, and what it does there. -/
inductive PeerReq where
  | write (part : Nat) (chb : Bool) (addr : W64) (data : List Byte) (sides : List W32)
  | add64 (part : Nat) (addr : W64) (n : W64)
  | reduce (part : Nat) (chb : Bool) (addr : W64) (wide : Bool) (opm : Nat) (x : W64)
  | mergeExp (part : Nat) (chb : Bool) (addr : W64) (e : BitVec 16)
  | sketch (part : Nat) (addr : W64) (desc : W64) (pairs : List W64) (counters : List W32)
  | read (part : Nat) (chb : Bool) (addr : W64) (size : Nat)
  deriving DecidableEq, Repr, Inhabited

/-- What a debugger names in a core beside the scalars and the scratchpad (R340, R11): a predicate, PC, event bit or loop
of a sequencer, a special register, a vector lane, a tile's value, tag or flags, a word of a ring, a semaphore, a line's
side band. -/
inductive CoreSite where
  | pred (q : SeqKind) (r : Fin 16)
  | pc (q : SeqKind)
  | event (q : SeqKind)
  | loopActive (q : SeqKind)
  | seen (q : SeqKind) (b : Fin 16)
  | loopFirst (q : SeqKind)
  | loopEnd (q : SeqKind)
  | loopCount (q : SeqKind)
  | special (q : SeqKind) (n : Fin 5)
  | lane (r : Fin 32) (e : Fin 1024)
  | value (t : Fin 32) (e : Fin 4096)
  | tag (t : Fin 32) (row : Fin 32)
  | flags (t : Fin 32)
  | ring (q : Fin 16) (word : Fin 3)
  | sem (a : Fin 16)
  | side (line : Fin 4096)
  | identity (n : Fin 6)
  | command (q : Queue) (i : Nat) (field : Fin 4)
  | flight (i : Nat) (field : Fin 4)
  | result (i : Nat) (e : Fin 1024)
  deriving DecidableEq, Repr, Inhabited

/-- What a full-debug token lets read of the hub and of the root core (R340). -/
inductive HubSite where
  | pc (h : Fin 16)
  | pred (h : Fin 16) (r : Fin 16)
  | register (h : Fin 16) (n : BitVec 12)
  | counter (n : Fin 4096)
  | pair (n : Fin 1024)
  | entry (n : Fin 4096)
  | decisions
  | chunk (line : Nat)
  | seq (h : Fin 16) (field : Fin 7)
  | work (n : Fin 1024) (i : Nat)
  | startRecord
  | identity
  | minVersion
  | config
  | bootStep
  deriving DecidableEq, Repr, Inhabited

/-- A debugger's request (R340). -/
inductive DebugReq where
  | halt (g : Nat)
  | resume (g : Nat)
  | singleStep (g : Nat) (q : SeqKind)
  | readReg (g : Nat) (q : SeqKind) (r : Fin 32)
  | writeReg (g : Nat) (q : SeqKind) (r : Fin 32) (v : W64)
  | readSpad (g off : Nat)
  | writeSpad (g off : Nat) (b : Byte)
  | readSave (part slot off : Nat)
  | writeSave (part slot off : Nat) (b : Byte)
  | readHub (h : Nat) (r : Fin 32)
  | readCore (g : Nat) (site : CoreSite)
  | writeCore (g : Nat) (site : CoreSite) (v : W64)
  | readDevice (site : HubSite)
  | telemetry
  deriving DecidableEq, Repr, Inhabited

/-- The instructions and steps, in the order of the opcode table. -/
inductive Instr where
  /-- R167. s[d] := s[a] + s[b], wrapping modulo 2^64. -/
  | iopAdd (d : Fin 32) (a : Fin 32) (b : Fin 32)
  /-- R167. s[d] := s[a] - s[b]. -/
  | iopSub (d : Fin 32) (a : Fin 32) (b : Fin 32)
  /-- R167. Bitwise and of two scalars. -/
  | iopAnd (d : Fin 32) (a : Fin 32) (b : Fin 32)
  /-- R167. Bitwise or of two scalars. -/
  | iopOr (d : Fin 32) (a : Fin 32) (b : Fin 32)
  /-- R167. Bitwise xor of two scalars. -/
  | iopXor (d : Fin 32) (a : Fin 32) (b : Fin 32)
  /-- R167. Left shift by b[5:0]. -/
  | iopShl (d : Fin 32) (a : Fin 32) (b : Fin 32)
  /-- R167. Logical right shift by b[5:0]. -/
  | iopShr (d : Fin 32) (a : Fin 32) (b : Fin 32)
  /-- R167. Arithmetic right shift by b[5:0]. -/
  | iopSra (d : Fin 32) (a : Fin 32) (b : Fin 32)
  /-- R167. Signed minimum. -/
  | iopMin (d : Fin 32) (a : Fin 32) (b : Fin 32)
  /-- R167. Signed maximum. -/
  | iopMax (d : Fin 32) (a : Fin 32) (b : Fin 32)
  /-- R167. Unsigned minimum. -/
  | iopMinu (d : Fin 32) (a : Fin 32) (b : Fin 32)
  /-- R167. Unsigned maximum. -/
  | iopMaxu (d : Fin 32) (a : Fin 32) (b : Fin 32)
  /-- R167. 32-bit add, sign-extended. -/
  | iopAddw (d : Fin 32) (a : Fin 32) (b : Fin 32)
  /-- R167. 32-bit subtract, sign-extended. -/
  | iopSubw (d : Fin 32) (a : Fin 32) (b : Fin 32)
  /-- R167. 1 if a < b signed, else 0. -/
  | iopSlt (d : Fin 32) (a : Fin 32) (b : Fin 32)
  /-- R167. 1 if a < b unsigned, else 0. -/
  | iopSltu (d : Fin 32) (a : Fin 32) (b : Fin 32)
  /-- R168. s[d] := s[a] + sign-extended IMM12. -/
  | iopiAdd (d : Fin 32) (a : Fin 32) (i : BitVec 12)
  /-- R168. And with immediate. -/
  | iopiAnd (d : Fin 32) (a : Fin 32) (i : BitVec 12)
  /-- R168. Or with immediate. -/
  | iopiOr (d : Fin 32) (a : Fin 32) (i : BitVec 12)
  /-- R168. Xor with immediate. -/
  | iopiXor (d : Fin 32) (a : Fin 32) (i : BitVec 12)
  /-- R168. Left shift by IMM12[5:0]. -/
  | iopiShl (d : Fin 32) (a : Fin 32) (i : Fin 64)
  /-- R168. Logical right shift by IMM12[5:0]. -/
  | iopiShr (d : Fin 32) (a : Fin 32) (i : Fin 64)
  /-- R168. Arithmetic right shift by IMM12[5:0]. -/
  | iopiSra (d : Fin 32) (a : Fin 32) (i : Fin 64)
  /-- R168. 32-bit add of immediate, sign-extended. -/
  | iopiAddw (d : Fin 32) (a : Fin 32) (i : BitVec 12)
  /-- R169. s[d] := sext(IMM16). -/
  | ihiLo (d : Fin 32) (i : BitVec 16)
  /-- R169. s[d][31:16] := IMM16, other bits kept. -/
  | ihiH1 (d : Fin 32) (i : BitVec 16)
  /-- R169. s[d][47:32] := IMM16, other bits kept. -/
  | ihiH2 (d : Fin 32) (i : BitVec 16)
  /-- R169. s[d][63:48] := IMM16, other bits kept. -/
  | ihiH3 (d : Fin 32) (i : BitVec 16)
  /-- R169. s[d] := zext(IMM16). -/
  | ihiLou (d : Fin 32) (i : BitVec 16)
  /-- R172. p[d] := a = b. -/
  | cmpEq (d : Fin 16) (a : Fin 32) (b : Fin 32)
  /-- R172. p[d] := a != b. -/
  | cmpNe (d : Fin 16) (a : Fin 32) (b : Fin 32)
  /-- R172. p[d] := a < b signed. -/
  | cmpLt (d : Fin 16) (a : Fin 32) (b : Fin 32)
  /-- R172. p[d] := a >= b signed. -/
  | cmpGe (d : Fin 16) (a : Fin 32) (b : Fin 32)
  /-- R172. p[d] := a < b unsigned. -/
  | cmpLtu (d : Fin 16) (a : Fin 32) (b : Fin 32)
  /-- R172. p[d] := a >= b unsigned. -/
  | cmpGeu (d : Fin 16) (a : Fin 32) (b : Fin 32)
  /-- R172. p[d] := (a and b) != 0. -/
  | cmpTst (d : Fin 16) (a : Fin 32) (b : Fin 32)
  /-- R173. p[d] := p[a] and p[b]. -/
  | prdAnd (d : Fin 16) (a : Fin 16) (b : Fin 16)
  /-- R173. p[d] := p[a] or p[b]. -/
  | prdOr (d : Fin 16) (a : Fin 16) (b : Fin 16)
  /-- R173. p[d] := p[a] xor p[b]. -/
  | prdXor (d : Fin 16) (a : Fin 16) (b : Fin 16)
  /-- R173. p[d] := p[a] and not p[b]. -/
  | prdAndn (d : Fin 16) (a : Fin 16) (b : Fin 16)
  /-- R173. p[d] := p[a] or not p[b]. -/
  | prdOrn (d : Fin 16) (a : Fin 16) (b : Fin 16)
  /-- R173. p[d] := not (p[a] or p[b]). -/
  | prdNor (d : Fin 16) (a : Fin 16) (b : Fin 16)
  /-- R173. p[d] := s[a] != 0. -/
  | prdFrs (d : Fin 16) (a : Fin 32)
  /-- R173. s[d] := 1 if p[a] else 0. -/
  | prdTos (d : Fin 32) (a : Fin 16)
  /-- R173. s[d] := all predicates as a bit mask. -/
  | prdRds (d : Fin 32)
  /-- R173. p1-p15 := bits 1-15 of s[a]. -/
  | prdWrs (a : Fin 32)
  /-- R154. Branches by OFF21 words when p[P] xor INV is true. -/
  | br (n : Bool) (p : Fin 16) (o : BitVec 21)
  /-- R175. Jumps to the address in s[a]. -/
  | jmpR (a : Fin 32)
  /-- R175. Writes the return address to s[d] and jumps to s[a]. -/
  | jmpLink (d : Fin 32) (a : Fin 32)
  /-- R30. Starts a software-pipelined loop, setting LC, ESC and the body end. -/
  | loopSp (c : Fin 8) (a : Fin 32) (i : BitVec 12)
  /-- R178. Loads one byte, zero-extended. -/
  | ldsB8 (d : Fin 32) (a : Fin 32) (g : Bool) (i : BitVec 12)
  /-- R178. Loads one byte, sign-extended. -/
  | ldsI8 (d : Fin 32) (a : Fin 32) (g : Bool) (i : BitVec 12)
  /-- R178. Loads two bytes, zero-extended. -/
  | ldsB16 (d : Fin 32) (a : Fin 32) (g : Bool) (i : BitVec 12)
  /-- R178. Loads two bytes, sign-extended. -/
  | ldsI16 (d : Fin 32) (a : Fin 32) (g : Bool) (i : BitVec 12)
  /-- R178. Loads four bytes, zero-extended. -/
  | ldsB32 (d : Fin 32) (a : Fin 32) (g : Bool) (i : BitVec 12)
  /-- R178. Loads four bytes, sign-extended. -/
  | ldsI32 (d : Fin 32) (a : Fin 32) (g : Bool) (i : BitVec 12)
  /-- R178. Loads eight bytes. -/
  | ldsB64 (d : Fin 32) (a : Fin 32) (g : Bool) (i : BitVec 12)
  /-- R178. Stores s[d][7:0]. -/
  | stsB8 (d : Fin 32) (a : Fin 32) (g : Bool) (i : BitVec 12)
  /-- R178. Stores s[d][15:0]. -/
  | stsB16 (d : Fin 32) (a : Fin 32) (g : Bool) (i : BitVec 12)
  /-- R178. Stores s[d][31:0]. -/
  | stsB32 (d : Fin 32) (a : Fin 32) (g : Bool) (i : BitVec 12)
  /-- R178. Stores s[d]. -/
  | stsB64 (d : Fin 32) (a : Fin 32) (g : Bool) (i : BitVec 12)
  /-- R180. Reads a special register into s[d]. -/
  | csrRd (d : Fin 32) (c : BitVec 12)
  /-- R180. Writes s[a] into a special register. -/
  | csrWr (a : Fin 32) (c : BitVec 12)
  /-- R180. Returns the old value and sets the mask bits. -/
  | csrSet (d : Fin 32) (a : Fin 32) (c : BitVec 12)
  /-- R180. Returns the old value and clears the mask bits. -/
  | csrClr (d : Fin 32) (a : Fin 32) (c : BitVec 12)
  /-- R171. Counts the set bits. -/
  | bitfPopc (d : Fin 32) (a : Fin 32)
  /-- R171. Counts the leading zeros. -/
  | bitfClz (d : Fin 32) (a : Fin 32)
  /-- R171. Counts the trailing zeros. -/
  | bitfCtz (d : Fin 32) (a : Fin 32)
  /-- R171. Reverses the 64 bits. -/
  | bitfBrev (d : Fin 32) (a : Fin 32)
  /-- R171. Reverses the 8 bytes. -/
  | bitfBswap (d : Fin 32) (a : Fin 32)
  /-- R171. Extracts a bit field, zero-extended. -/
  | bitfExtu (d : Fin 32) (a : Fin 32) (b : Fin 32)
  /-- R171. Extracts a bit field, sign-extended. -/
  | bitfExts (d : Fin 32) (a : Fin 32) (b : Fin 32)
  /-- R171. Inserts a bit field into s[d]. -/
  | bitfIns (d : Fin 32) (a : Fin 32) (b : Fin 32)
  /-- R170. Low 64 bits of the product. -/
  | muldivMul (d : Fin 32) (a : Fin 32) (b : Fin 32)
  /-- R170. High 64 bits of the signed product. -/
  | muldivMulh (d : Fin 32) (a : Fin 32) (b : Fin 32)
  /-- R170. High 64 bits of the unsigned product. -/
  | muldivMulhu (d : Fin 32) (a : Fin 32) (b : Fin 32)
  /-- R170. Signed quotient with the fixed results for division by zero and overflow. -/
  | muldivDiv (d : Fin 32) (a : Fin 32) (b : Fin 32)
  /-- R170. Unsigned quotient. -/
  | muldivDivu (d : Fin 32) (a : Fin 32) (b : Fin 32)
  /-- R170. Signed remainder. -/
  | muldivRem (d : Fin 32) (a : Fin 32) (b : Fin 32)
  /-- R170. Unsigned remainder. -/
  | muldivRemu (d : Fin 32) (a : Fin 32) (b : Fin 32)
  /-- R181. Does nothing. -/
  | sysNop
  /-- R16. Stops the sequencer, or with GANG the whole gang. -/
  | sysEnd (g : Bool)
  /-- R181. Synchronous trap n with operand s[a]; stops the node or enters a handler. -/
  | sysTrap (a : Fin 32) (n : Fin 32)
  /-- R182. Consumes the event bit, or stalls until it is set. -/
  | sysWev
  /-- R183. Reads a privileged register. -/
  | privRd (d : Fin 32) (a : Fin 32)
  /-- R183. Writes a privileged register. -/
  | privWr (a : Fin 32) (b : Fin 32)
  /-- R284. Returns to the level and address saved at entry. -/
  | privRet
  /-- R284. Enters level H with a call number. -/
  | privHcall (x : Fin 32)
  /-- R286. Stalls until an unmasked interrupt is pending. -/
  | privWfi
  /-- R302. Sends a translation invalidation and stalls for every TU's reply. -/
  | privTinv (a : Fin 32) (b : Fin 32)
  /-- R59. Claims m slots once free, returning a ticket. -/
  | ringClaim (d : Fin 32) (a : Fin 16) (b : Fin 32) (m : Bool)
  /-- R59. Commits m slots from a ticket and advances TAIL. -/
  | ringCommit (d : Fin 32) (a : Fin 16) (b : Fin 32) (m : Bool)
  /-- R59. Waits for filled >= m and acquires the slots. -/
  | ringWaitf (a : Fin 16) (b : Fin 32) (m : Bool)
  /-- R59. Waits for free >= m. -/
  | ringWaitr (a : Fin 16) (b : Fin 32) (m : Bool)
  /-- R59. Advances HEAD by m. -/
  | ringPop (a : Fin 16) (b : Fin 32) (m : Bool)
  /-- R58. Configures ring word 0 and resets the counters. -/
  | ringCfg (a : Fin 16) (b : Fin 32)
  /-- R184. Reads ring word 1. -/
  | ringRd (d : Fin 32) (a : Fin 16)
  /-- R61. Adds to a local or remote semaphore, releasing. -/
  | semAdd (d : Fin 32) (a : Fin 16) (b : Fin 32) (m : Bool)
  /-- R61. Stalls until the semaphore is unsigned-greater-or-equal to the operand. -/
  | semWaitge (a : Fin 16) (b : Fin 32)
  /-- R185. Reads a semaphore. -/
  | semRd (d : Fin 32) (a : Fin 16)
  /-- R186. Arrives at a gang barrier and records the seen phase. -/
  | gbarArr (a : Fin 16)
  /-- R186. Stalls until the barrier phase differs from the seen phase. -/
  | gbarWait (a : Fin 16)
  /-- R186. Arrives, then waits for the phase to change. -/
  | gbarSync (a : Fin 16)
  /-- R74. Release fence at a scope. -/
  | ordRel (s : Fin 8)
  /-- R74. Acquire fence at a scope. -/
  | ordAcq (s : Fin 8)
  /-- R75. Full fence at a scope, totally ordered with its peers. -/
  | ordFull (s : Fin 8)
  /-- R219. Issues a copy from memory into one ring slot. -/
  | copyIn (d : Fin 16) (a : Fin 32) (b : Fin 32) (g : Bool) (m : Bool)
  /-- R219. Issues a copy from one ring slot to memory. -/
  | copyOut (d : Fin 32) (a : Fin 16) (b : Fin 32) (k : Bool) (g : Bool)
  /-- R220. Issues a weight-set shard fetch into a slot, speculative under spec. -/
  | copyWt (d : Fin 16) (a : Fin 32) (b : Fin 32) (x : Bool) (g : Bool) (m : Bool)
  /-- R219. Issues a memory-to-memory copy. -/
  | copyMm (d : Fin 32) (a : Fin 32) (b : Fin 32) (g : Bool)
  /-- R222. Issues a gather of indexed rows into one ring slot. -/
  | gathFill (d : Fin 16) (a : Fin 32) (g : Bool)
  /-- R223. Reads a line's side band. -/
  | lineRd (d : Fin 32) (a : Fin 32)
  /-- R223. Writes a line's side band. -/
  | lineWr (a : Fin 32) (b : Fin 32)
  /-- R223. Issues a command writing the side bands of consecutive lines. -/
  | lineSet (d : Fin 32) (a : Fin 32) (b : Fin 32) (g : Bool)
  /-- R216. Tile-start marker of the copy queue. -/
  | markTile
  /-- R224. Stalls until every earlier command of the sequencer has retired. -/
  | markDrain
  /-- R226. Issues an RN8 by RN8 matrix product into a tile. -/
  | mmaRn8 (d : Fin 32) (a : Fin 16) (b : Fin 16) (i : Bool) (j : Bool) (k : Bool) (o : Bool) (r : Bool)
  /-- R226. Issues an RN4 by RN4 matrix product. -/
  | mmaRn4 (d : Fin 32) (a : Fin 16) (b : Fin 16) (i : Bool) (j : Bool) (k : Bool) (o : Bool) (r : Bool)
  /-- R226. Issues an RN8 by RN4 matrix product. -/
  | mmaRnx (d : Fin 32) (a : Fin 16) (b : Fin 16) (i : Bool) (j : Bool) (k : Bool) (o : Bool) (r : Bool)
  /-- R226. Issues an RN4 by RN8 matrix product. -/
  | mmaRny (d : Fin 32) (a : Fin 16) (b : Fin 16) (i : Bool) (j : Bool) (k : Bool) (o : Bool) (r : Bool)
  /-- R226. Issues a BF16 matrix product. -/
  | mmaBf16 (d : Fin 32) (a : Fin 16) (b : Fin 16) (i : Bool) (j : Bool) (k : Bool) (o : Bool) (r : Bool)
  /-- R228. Reads tile elements into a vector register. -/
  | accRd (d : Fin 32) (a : Fin 32) (b : Fin 32)
  /-- R229. Reads a tile's flags word. -/
  | accFlg (d : Fin 32) (a : Fin 32)
  /-- R230. Issues a store of a tile into a ring slot. -/
  | accSt (d : Fin 16) (a : Fin 32) (x : Bool) (y : Bool)
  /-- R231. Issues an element-wise tile addition. -/
  | accAdd (d : Fin 32) (a : Fin 32) (b : Fin 32)
  /-- R231. Issues a tile clear. -/
  | accZero (d : Fin 32)
  /-- R232. Issues a command making a tile tentative with row tags. -/
  | tentMark (d : Fin 32) (a : Fin 32)
  /-- R94. Issues a resolve of a tentative tile against a decision list. -/
  | rslv (d : Fin 32) (a : Fin 32) (f : Bool) (g : Bool)
  /-- R234. Issues a known-answer product test. -/
  | mkat (a : Fin 32) (b : Fin 32)
  /-- R196. Lane-wise floating add. -/
  | vfpAdd (d : Fin 32) (a : Fin 32) (b : Fin 32) (t : Fin 8)
  /-- R196. Lane-wise floating subtract. -/
  | vfpSub (d : Fin 32) (a : Fin 32) (b : Fin 32) (t : Fin 8)
  /-- R196. Lane-wise floating multiply. -/
  | vfpMul (d : Fin 32) (a : Fin 32) (b : Fin 32) (t : Fin 8)
  /-- R196. Lane-wise floating minimum. -/
  | vfpMin (d : Fin 32) (a : Fin 32) (b : Fin 32) (t : Fin 8)
  /-- R196. Lane-wise floating maximum. -/
  | vfpMax (d : Fin 32) (a : Fin 32) (b : Fin 32) (t : Fin 8)
  /-- R196. Lane-wise absolute value. -/
  | vfpAbs (d : Fin 32) (a : Fin 32) (t : Fin 8)
  /-- R196. Lane-wise negation. -/
  | vfpNeg (d : Fin 32) (a : Fin 32) (t : Fin 8)
  /-- R196. Magnitude of a with the sign of b. -/
  | vfpCpsgn (d : Fin 32) (a : Fin 32) (b : Fin 32) (t : Fin 8)
  /-- R197. a x b + d with one rounding. -/
  | vfmaFma (d : Fin 32) (a : Fin 32) (b : Fin 32) (t : Fin 8)
  /-- R197. a x b - d with one rounding. -/
  | vfmaFms (d : Fin 32) (a : Fin 32) (b : Fin 32) (t : Fin 8)
  /-- R197. -(a x b) + d with one rounding. -/
  | vfmaFnma (d : Fin 32) (a : Fin 32) (b : Fin 32) (t : Fin 8)
  /-- R197. -(a x b) - d with one rounding. -/
  | vfmaFnms (d : Fin 32) (a : Fin 32) (b : Fin 32) (t : Fin 8)
  /-- R198. Lane-wise wrapping integer add. -/
  | vintAdd (d : Fin 32) (a : Fin 32) (b : Fin 32) (t : Fin 8)
  /-- R198. Lane-wise wrapping integer subtract. -/
  | vintSub (d : Fin 32) (a : Fin 32) (b : Fin 32) (t : Fin 8)
  /-- R198. Low w bits of the lane product. -/
  | vintMul (d : Fin 32) (a : Fin 32) (b : Fin 32) (t : Fin 8)
  /-- R198. Lane-wise and. -/
  | vintAnd (d : Fin 32) (a : Fin 32) (b : Fin 32) (t : Fin 8)
  /-- R198. Lane-wise or. -/
  | vintOr (d : Fin 32) (a : Fin 32) (b : Fin 32) (t : Fin 8)
  /-- R198. Lane-wise xor. -/
  | vintXor (d : Fin 32) (a : Fin 32) (b : Fin 32) (t : Fin 8)
  /-- R198. Lane-wise a and not b. -/
  | vintAndn (d : Fin 32) (a : Fin 32) (b : Fin 32) (t : Fin 8)
  /-- R198. Lane-wise left shift. -/
  | vintShl (d : Fin 32) (a : Fin 32) (b : Fin 32) (t : Fin 8)
  /-- R198. Lane-wise logical right shift. -/
  | vintShr (d : Fin 32) (a : Fin 32) (b : Fin 32) (t : Fin 8)
  /-- R198. Lane-wise arithmetic right shift. -/
  | vintSra (d : Fin 32) (a : Fin 32) (b : Fin 32) (t : Fin 8)
  /-- R198. Lane-wise minimum by the type's signedness. -/
  | vintMin (d : Fin 32) (a : Fin 32) (b : Fin 32) (t : Fin 8)
  /-- R198. Lane-wise maximum. -/
  | vintMax (d : Fin 32) (a : Fin 32) (b : Fin 32) (t : Fin 8)
  /-- R198. Lane-wise saturating add. -/
  | vintAdds (d : Fin 32) (a : Fin 32) (b : Fin 32) (t : Fin 8)
  /-- R198. Lane-wise saturating subtract. -/
  | vintSubs (d : Fin 32) (a : Fin 32) (b : Fin 32) (t : Fin 8)
  /-- R198. Lane-wise saturating absolute value. -/
  | vintAbs (d : Fin 32) (a : Fin 32) (t : Fin 8)
  /-- R198. High w bits of the lane product. -/
  | vintMulh (d : Fin 32) (a : Fin 32) (b : Fin 32) (t : Fin 8)
  /-- R199. Lane mask where a = b. -/
  | vcmpEq (d : Fin 32) (a : Fin 32) (b : Fin 32) (t : Fin 8)
  /-- R199. Lane mask where a != b. -/
  | vcmpNe (d : Fin 32) (a : Fin 32) (b : Fin 32) (t : Fin 8)
  /-- R199. Lane mask where a < b. -/
  | vcmpLt (d : Fin 32) (a : Fin 32) (b : Fin 32) (t : Fin 8)
  /-- R199. Lane mask where a <= b. -/
  | vcmpLe (d : Fin 32) (a : Fin 32) (b : Fin 32) (t : Fin 8)
  /-- R199. Lane mask where a > b. -/
  | vcmpGt (d : Fin 32) (a : Fin 32) (b : Fin 32) (t : Fin 8)
  /-- R199. Lane mask where a >= b. -/
  | vcmpGe (d : Fin 32) (a : Fin 32) (b : Fin 32) (t : Fin 8)
  /-- R199. Lane mask where a or b is NaN. -/
  | vcmpUn (d : Fin 32) (a : Fin 32) (b : Fin 32) (t : Fin 8)
  /-- R205. FP32 lanes to integers under RM. -/
  | vcvtF2i (d : Fin 32) (a : Fin 32) (t : Fin 8)
  /-- R205. Integer lanes to FP32 under RM. -/
  | vcvtI2f (d : Fin 32) (a : Fin 32) (t : Fin 8)
  /-- R205. FP32 lanes to BF16 under RM. -/
  | vcvtF2h (d : Fin 32) (a : Fin 32)
  /-- R205. BF16 lanes to FP32, exactly. -/
  | vcvtH2f (d : Fin 32) (a : Fin 32)
  /-- R205. Rounds lanes to integral values under RM. -/
  | vcvtRint (d : Fin 32) (a : Fin 32) (t : Fin 8)
  /-- R206. Converts FP32 lanes to residue lines with outlier lists. -/
  | vcvtQf (d : Fin 32) (a : Fin 32) (b : Fin 32) (t : Fin 8)
  /-- R206. Converts BF16 lanes to residue lines with outlier lists. -/
  | vcvtQh (d : Fin 32) (a : Fin 32) (b : Fin 32) (t : Fin 8)
  /-- R204. Per-row fixed-tree sum. -/
  | vredSum (d : Fin 32) (a : Fin 32) (t : Fin 8)
  /-- R204. Per-row fixed-tree maximum. -/
  | vredMax (d : Fin 32) (a : Fin 32) (t : Fin 8)
  /-- R204. Per-row fixed-tree minimum. -/
  | vredMin (d : Fin 32) (a : Fin 32) (t : Fin 8)
  /-- R203. Per-row and. -/
  | vredAnd (d : Fin 32) (a : Fin 32) (t : Fin 8)
  /-- R203. Per-row or. -/
  | vredOr (d : Fin 32) (a : Fin 32) (t : Fin 8)
  /-- R203. Per-row xor. -/
  | vredXor (d : Fin 32) (a : Fin 32) (t : Fin 8)
  /-- R204. Inclusive prefix sum along each row. -/
  | vredSadd (d : Fin 32) (a : Fin 32) (t : Fin 8)
  /-- R204. Inclusive prefix maximum along each row. -/
  | vredSmax (d : Fin 32) (a : Fin 32) (t : Fin 8)
  /-- R203. p[d] := some lane is non-zero. -/
  | vredAnyp (d : Fin 16) (a : Fin 32)
  /-- R203. p[d] := every lane is non-zero. -/
  | vredAllp (d : Fin 16) (a : Fin 32)
  /-- R202. Lane permutation by index vector. -/
  | vpermSel (d : Fin 32) (a : Fin 32) (b : Fin 32)
  /-- R202. Shifts elements along columns within each row. -/
  | vpermShift (d : Fin 32) (a : Fin 32) (b : Fin 32)
  /-- R202. Transposes the shape. -/
  | vpermTr (d : Fin 32) (a : Fin 32)
  /-- R207. Strided load into a vector register, or residue load. -/
  | vmemLd (d : Fin 32) (a : Fin 32) (b : Fin 32) (t : Fin 8)
  /-- R207. Strided store from a vector register. -/
  | vmemSt (d : Fin 32) (a : Fin 32) (b : Fin 32) (t : Fin 8)
  /-- R207. Indexed load. -/
  | vmemGat (d : Fin 32) (a : Fin 32) (b : Fin 32) (t : Fin 8)
  /-- R207. Indexed store. -/
  | vmemSct (d : Fin 32) (a : Fin 32) (b : Fin 32) (t : Fin 8)
  /-- R212. Correctly rounded reciprocal. -/
  | vsfuRcp (d : Fin 32) (a : Fin 32) (t : Fin 8)
  /-- R212. Correctly rounded reciprocal square root. -/
  | vsfuRsqrt (d : Fin 32) (a : Fin 32) (t : Fin 8)
  /-- R212. Correctly rounded square root. -/
  | vsfuSqrt (d : Fin 32) (a : Fin 32) (t : Fin 8)
  /-- R212. Correctly rounded division. -/
  | vsfuDiv (d : Fin 32) (a : Fin 32) (b : Fin 32) (t : Fin 8)
  /-- R212. Correctly rounded e^a. -/
  | vsfuExp (d : Fin 32) (a : Fin 32) (t : Fin 8)
  /-- R212. Correctly rounded 2^a. -/
  | vsfuExp2 (d : Fin 32) (a : Fin 32) (t : Fin 8)
  /-- R212. Correctly rounded natural logarithm. -/
  | vsfuLn (d : Fin 32) (a : Fin 32) (t : Fin 8)
  /-- R212. Correctly rounded base-2 logarithm. -/
  | vsfuLog2 (d : Fin 32) (a : Fin 32) (t : Fin 8)
  /-- R212. Correctly rounded sine. -/
  | vsfuSin (d : Fin 32) (a : Fin 32) (t : Fin 8)
  /-- R212. Correctly rounded cosine. -/
  | vsfuCos (d : Fin 32) (a : Fin 32) (t : Fin 8)
  /-- R212. Correctly rounded hyperbolic tangent. -/
  | vsfuTanh (d : Fin 32) (a : Fin 32) (t : Fin 8)
  /-- R212. Correctly rounded logistic sigmoid. -/
  | vsfuSigm (d : Fin 32) (a : Fin 32) (t : Fin 8)
  /-- R211. Low half of the carry-less product. -/
  | vclmLo (d : Fin 32) (a : Fin 32) (b : Fin 32)
  /-- R211. High half of the carry-less product. -/
  | vclmHi (d : Fin 32) (a : Fin 32) (b : Fin 32)
  /-- R211. d xor low half of the carry-less product. -/
  | vclmXlo (d : Fin 32) (a : Fin 32) (b : Fin 32)
  /-- R211. d xor high half of the carry-less product. -/
  | vclmXhi (d : Fin 32) (a : Fin 32) (b : Fin 32)
  /-- R211. Reverses the 32 bits of each lane. -/
  | vclmBrev (d : Fin 32) (a : Fin 32)
  /-- R200. Selects a or b per lane by the mask in d. -/
  | vselSel (d : Fin 32) (a : Fin 32) (b : Fin 32)
  /-- R200. Selects a or zero per lane by the mask in d. -/
  | vselSelz (d : Fin 32) (a : Fin 32)
  /-- R201. Broadcasts a scalar to every lane. -/
  | vsetBcast (d : Fin 32) (a : Fin 32) (t : Fin 8)
  /-- R201. Lane e := e. -/
  | vsetIota (d : Fin 32) (t : Fin 8)
  /-- R201. Lane e := row index. -/
  | vsetIrow (d : Fin 32) (t : Fin 8)
  /-- R201. Lane e := column index. -/
  | vsetIcol (d : Fin 32) (t : Fin 8)
  /-- R201. Reads one physical lane into a scalar. -/
  | vsetGet (d : Fin 32) (a : Fin 32) (b : Fin 32)
  /-- R201. Writes a scalar into one physical lane. -/
  | vsetPut (d : Fin 32) (a : Fin 32) (b : Fin 32)
  /-- R241. Copies a proofer command block into the cluster's proofer queue. -/
  | proofRun (a : Fin 32) (g : Bool)
  /-- R244. Returns a predictor-table expert entry. -/
  | ptabRd (d : Fin 32) (a : Fin 32) (b : Fin 32)
  /-- R244. Posts a raw write of a PT expert entry. -/
  | ptabWr (d : Fin 32) (a : Fin 32) (b : Fin 32)
  /-- R244. Returns PT layer-header bits 63:0. -/
  | ptabHrd (d : Fin 32) (a : Fin 32) (b : Fin 32)
  /-- R244. Posts a checked write of PT layer-header bits 63:0. -/
  | ptabHwr (d : Fin 32) (a : Fin 32) (b : Fin 32)
  /-- R244. Returns the layer's CONFD and DISC counters. -/
  | ptabCrd (d : Fin 32) (a : Fin 32) (b : Fin 32)
  /-- R244. Clears the layer's held entries, counters and HOVF. -/
  | ptabClr (a : Fin 32) (b : Fin 32)
  /-- R90. Configures and empties a creel. -/
  | creelCfg (a : Fin 32) (b : Fin 32)
  /-- R245. Sets a creel's bias register. -/
  | creelBias (a : Fin 32) (b : Fin 32)
  /-- R91. Offers a (token, score, weight) to a creel and returns the result. -/
  | creelOffer (d : Fin 32) (a : Fin 32) (b : Fin 32)
  /-- R93. Writes held entries to a decision list, empties the creel, returns the count. -/
  | creelDrain (d : Fin 32) (a : Fin 32) (b : Fin 32)
  /-- R245. Returns a creel's bias, count and configuration. -/
  | creelRd (d : Fin 32) (a : Fin 32)
  /-- R239. Selects each token's top-k experts with biased scores and computes weights. -/
  | routeTopk (d : Fin 32) (a : Fin 32) (b : Fin 32) (n : Fin 4) (k : Fin 8)
  /-- R250. Atomic i32 add at a shared-memory location. -/
  | nmaAddI32 (d : Fin 32) (a : Fin 32) (b : Fin 32)
  /-- R250. Atomic i32 minimum, unsigned under u. -/
  | nmaMinI32 (d : Fin 32) (a : Fin 32) (b : Fin 32) (u : Bool)
  /-- R250. Atomic i32 maximum, unsigned under u. -/
  | nmaMaxI32 (d : Fin 32) (a : Fin 32) (b : Fin 32) (u : Bool)
  /-- R250. Atomic i32 and. -/
  | nmaAndI32 (d : Fin 32) (a : Fin 32) (b : Fin 32)
  /-- R250. Atomic i32 or. -/
  | nmaOrI32 (d : Fin 32) (a : Fin 32) (b : Fin 32)
  /-- R250. Atomic i32 xor. -/
  | nmaXorI32 (d : Fin 32) (a : Fin 32) (b : Fin 32)
  /-- R250. Atomic i32 swap. -/
  | nmaSwapI32 (d : Fin 32) (a : Fin 32) (b : Fin 32)
  /-- R250. Atomic i32 compare-and-swap. -/
  | nmaCasI32 (d : Fin 32) (a : Fin 32) (b : Fin 32)
  /-- R250. Atomic i64 add. -/
  | nmaAddI64 (d : Fin 32) (a : Fin 32) (b : Fin 32)
  /-- R250. Atomic i64 minimum, unsigned under u. -/
  | nmaMinI64 (d : Fin 32) (a : Fin 32) (b : Fin 32) (u : Bool)
  /-- R250. Atomic i64 maximum, unsigned under u. -/
  | nmaMaxI64 (d : Fin 32) (a : Fin 32) (b : Fin 32) (u : Bool)
  /-- R250. Atomic i64 and. -/
  | nmaAndI64 (d : Fin 32) (a : Fin 32) (b : Fin 32)
  /-- R250. Atomic i64 or. -/
  | nmaOrI64 (d : Fin 32) (a : Fin 32) (b : Fin 32)
  /-- R250. Atomic i64 xor. -/
  | nmaXorI64 (d : Fin 32) (a : Fin 32) (b : Fin 32)
  /-- R250. Atomic i64 swap. -/
  | nmaSwapI64 (d : Fin 32) (a : Fin 32) (b : Fin 32)
  /-- R250. Atomic i64 compare-and-swap. -/
  | nmaCasI64 (d : Fin 32) (a : Fin 32) (b : Fin 32)
  /-- R250. Atomic FP32 add. -/
  | nmaAddF32 (d : Fin 32) (a : Fin 32) (b : Fin 32)
  /-- R250. Atomic FP32 minimum. -/
  | nmaMinF32 (d : Fin 32) (a : Fin 32) (b : Fin 32)
  /-- R250. Atomic FP32 maximum. -/
  | nmaMaxF32 (d : Fin 32) (a : Fin 32) (b : Fin 32)
  /-- R250. Atomic FP32 swap. -/
  | nmaSwapF32 (d : Fin 32) (a : Fin 32) (b : Fin 32)
  /-- R250. Atomic bitwise compare-and-swap on an FP32 location. -/
  | nmaCasF32 (d : Fin 32) (a : Fin 32) (b : Fin 32)
  /-- R251. Posts a list of FP32 atomic additions. -/
  | nmaLaddF32 (d : Fin 32) (a : Fin 32) (b : Fin 32) (g : Bool)
  /-- R251. Posts a list of i32 atomic additions. -/
  | nmaLaddI32 (d : Fin 32) (a : Fin 32) (b : Fin 32) (g : Bool)
  /-- R251. Posts a list of FP32 atomic maxima. -/
  | nmaLmaxF32 (d : Fin 32) (a : Fin 32) (b : Fin 32) (g : Bool)
  /-- R101. Posts the seeding of a sketch's hash pairs. -/
  | skSeed (a : Fin 32) (b : Fin 32)
  /-- R104. Posts a sketch update at one index. -/
  | skUpd (d : Fin 32) (a : Fin 32) (b : Fin 32)
  /-- R253. Posts a list of sketch updates. -/
  | skUpdl (a : Fin 32) (b : Fin 32) (g : Bool)
  /-- R105. Returns the median estimate at one index. -/
  | skQry (d : Fin 32) (a : Fin 32) (b : Fin 32)
  /-- R253. Posts a list of sketch queries writing a result list. -/
  | skQryl (a : Fin 32) (b : Fin 32) (g : Bool)
  /-- R106. Posts the addition of one sketch into another. -/
  | skAdd (a : Fin 32) (b : Fin 32)
  /-- R107. Posts the clearing of a sketch's counters, side bands and SAT. -/
  | skClr (a : Fin 32)
  /-- R114. Posts the initialisation of an order cell. -/
  | ocInit (d : Fin 32) (a : Fin 32) (b : Fin 32) (i : Bool)
  /-- R113. Posts a stamped insertion into an order cell. -/
  | ocIns (d : Fin 32) (a : Fin 32) (b : Fin 32)
  /-- R114. Returns the tentative value of an order cell. -/
  | ocLdt (d : Fin 32) (a : Fin 32) (b : Fin 32)
  /-- R114. Returns the settled value at a step once the watermark reaches it. -/
  | ocLds (d : Fin 32) (a : Fin 32) (b : Fin 32)
  /-- R114. Posts a source's settled step, releasing. -/
  | ocSettle (a : Fin 32) (b : Fin 32)
  /-- R114. Advances the region's fold floor up to the watermark and returns it. -/
  | ocFold (d : Fin 32) (b : Fin 32)
  /-- R131. Copies a record into the partition's record queue. -/
  | postTask (a : Fin 32)
  /-- R118. Appends a work entry to a queue pair. -/
  | postQp (a : Fin 32) (b : Fin 32)
  /-- R120. Adds to a trigger counter. -/
  | postTcadd (d : Fin 32) (a : Fin 32) (b : Fin 32) (h : Fin 4) (n : Bool)
  /-- R120. Sets a trigger counter. -/
  | postTcset (d : Fin 32) (a : Fin 32) (b : Fin 32) (h : Fin 4) (n : Bool)
  /-- R254. Returns a trigger counter. -/
  | postTcrd (d : Fin 32) (a : Fin 32) (b : Fin 32) (h : Fin 4) (n : Bool)
  /-- R254. Stalls until a trigger counter reaches a threshold. -/
  | postTcwait (d : Fin 32) (a : Fin 32) (b : Fin 32) (h : Fin 4) (n : Bool)
  /-- R256. Begins building a weight-set slot. -/
  | postWbeg (a : Fin 32) (b : Fin 32)
  /-- R256. Commits a weight-set slot as CURRENT. -/
  | postWcom (b : Fin 32)
  /-- R256. Abandons a building weight-set slot. -/
  | postWabn (b : Fin 32)
  /-- R256. Returns a weight-set slot's state and bound count. -/
  | postWst (d : Fin 32) (b : Fin 32)
  /-- R21. An issued C-stream operation lands its result and flags at t + L. -/
  | cStreamLanding (g : Nat)
  /-- R23. A late result becomes ready and a frozen core resumes. -/
  | lateResultReady (g : Nat)
  /-- R24. A freeze reaches 2^20 cycles and the core raises WATCHDOG. -/
  | watchdog (g : Nat)
  /-- R177. A sequencer reaches END of an active loop, steps VROT and starts the next iteration or exits. -/
  | loopIterationEnd (w : Who)
  /-- R188. A stalled ring, semaphore, barrier, event, queue-room or counter wait finds its condition and completes. -/
  | waitSatisfied (w : Who)
  /-- R215. A queued engine command starts once its input and output ring slots are available. -/
  | engineCommandStart (g : Nat) (q : Queue)
  /-- R215. An engine command retires: commits, pops, signals and ORs VOID. -/
  | engineCommandRetire (g : Nat) (q : Queue)
  /-- R216. An uncorrectable error in an engine discards and replays the replay window, or poisons if unreplayable. -/
  | engineReplay (g : Nat) (q : Queue)
  /-- R234. A queued known-answer test runs in idle matrix cycles and compares its signature. -/
  | katTestRun (g : Nat)
  /-- R144. An idle sibling core takes a relocatable command from an owner's queue. -/
  | commandSteal (g sib : Nat)
  /-- R242. The proofer takes the next command from its queue and computes predictions. -/
  | prooferCommandStart (c : Nat)
  /-- R242. A proofer command retires after writing every row and signals. -/
  | prooferCommandRetire (c : Nat)
  /-- R116. A bank unit applies a posted near-memory, creel, PT, sketch or cell operation, faulting imprecisely. -/
  | postedOpApply (src : Poster) (n : Nat)
  /-- R134. The dispatcher reads, checks and admits or rejects a node record. -/
  | nodeRecordAdmit (part : Nat)
  /-- R137. The dispatcher reads, checks and admits or rejects a tile record. -/
  | tileRecordAdmit (part : Nat)
  /-- R137. A run tile of a correction expansion is dispatched when a pool entry is free. -/
  | runTileDispatch (entry : Nat)
  /-- R138. A dispatcher decision places a ready node, checks its descriptor and copies its image. -/
  | dispatch
  /-- R142. A dispatcher decision preloads a confined node into the idle scratchpad half. -/
  | preload (c : Nat)
  /-- R139. A node at priority 3 that has waited 2^18 decisions becomes reserving. -/
  | reserving (stage : Nat)
  /-- R135. A node retires: ends its binding, unbinds barriers, releases successors, frees its entry. -/
  | nodeRetire (entry : Nat)
  /-- R134. A release held back for want of a pool entry completes when one frees. -/
  | heldRelease
  /-- R141. A node reaches its cycle budget and is stopped and halted. -/
  | budget (entry : Nat)
  /-- R293. The peel saves a stopped gang's cores into save slots and frees them. -/
  | peelSave (entry : Nat)
  /-- R298. A TU walks both translation stages for a TLB miss. -/
  | translationWalk (u : Unit1) (part : Nat) (va : W64)
  /-- R302. A TU processes an invalidation request and replies once affected accesses are performed. -/
  | tuInvalidation (u : Unit1) (h : Nat)
  /-- R121. The CSQ takes a posted work entry from its QP ring and checks it. -/
  | entryArm (qp : Nat)
  /-- R124. A fired PUT entry copies lines with side bands to the peer. -/
  | csqPut (qp n : Nat)
  /-- R126. A fired PUTRED SUM adds aligned integers, staging or sketch counters at the destination. -/
  | csqPutredSum (qp n : Nat)
  /-- R124. A fired PUTRED MAX applies atomic integer maxima at the destination. -/
  | csqPutredMax (qp n : Nat)
  /-- R124. A fired PUTRED MIN applies atomic integer minima at the destination. -/
  | csqPutredMin (qp n : Nat)
  /-- R125. A fired MAXEXP computes or merges exponent-table entries. -/
  | csqMaxexp (qp n : Nat)
  /-- R124. A fired NOTIFY moves no data and only signals the peer. -/
  | csqNotify (qp n : Nat)
  /-- R124. A fired LCOPY copy copies lines to this device. -/
  | lcopyCopy (qp n : Nat)
  /-- R127. A fired LCOPY convert writes reduced values or sketch counters from staging. -/
  | lcopyConvert (qp n : Nat)
  /-- R124. A fired LCOPY zero writes zero lines. -/
  | lcopyZero (qp n : Nat)
  /-- R123. An entry's writes are performed and it makes its local and remote counter additions. -/
  | entryComplete (qp n : Nat)
  /-- R129. An entry fails, posts a record and puts its QP in ERROR. -/
  | entryFail (qp n : Nat)
  /-- R120. A counter addition from a peer arrives and applies to a trigger counter. -/
  | remoteCounterAdd (part tc : Nat) (inc : W32)
  /-- R119. A QPCTL write of RESET enters RESETTING and discards unfired entries. -/
  | qpctlReset (h : Nat)
  /-- R119. A QPCTL write of EN = 1 takes an OFF QP to ON. -/
  | qpctlEnable (h : Nat)
  /-- R119. A QPCTL write of EN = 0 takes an empty ON QP to OFF. -/
  | qpctlDisable (h : Nat)
  /-- R119. Fired entries of a resetting QP end and it enters OFF. -/
  | qpResetDone (qp : Nat)
  /-- R286. A hearth core takes a pending unmasked interrupt and enters its level. -/
  | interruptEntry (h : Nat)
  /-- R288. PSTATE EMPTY to STOPPED: checks, then resets the partition's resources. -/
  | partitionCreate (h : Nat)
  /-- R288. PSTATE STOPPED to RUNNING: the dispatcher reads the record queue. -/
  | partitionStart (h : Nat)
  /-- R288. PSTATE RUNNING to STOPPED: admission and dispatch stop. -/
  | partitionStop (h : Nat)
  /-- R288. PSTATE STOPPED to EMPTY when no node holds an entry or slot. -/
  | partitionDestroy (h : Nat)
  /-- R291. Requests a peel save of a running node. -/
  | ncmdPreempt (h : Nat) (tile : Bool) (graph nid : Nat)
  /-- R291. Returns a halted node with a valid save to the pool with budget NBUD. -/
  | ncmdResume (h : Nat) (tile : Bool) (graph nid : Nat)
  /-- R291. Frees a halted node's saves and returns it for a fresh dispatch. -/
  | ncmdRerun (h : Nat) (tile : Bool) (graph nid : Nat)
  /-- R291. Frees a halted node's saves and pool entry without release. -/
  | ncmdDiscard (h : Nat) (tile : Bool) (graph nid : Nat)
  /-- R291. Clears every scratchpad of an unowned cluster and resets its barriers. -/
  | ncmdClear (h c : Nat)
  /-- R291. A node command completes: BUSY clears, RES is written, NC is raised. -/
  | nodeCommandComplete (h : Nat)
  /-- R289. A checked write of cluster stages. -/
  | cstgWrite (h : Nat) (v : W64)
  /-- R290. Sets the scrub interval and retimes the next pass. -/
  | scrbWrite (h : Nat) (v : W64)
  /-- R87. Sets the predictor table that receives held faults. -/
  | pptbWrite (h : Nat) (v : W64)
  /-- R285. A checked write of a privileged register that has no row of its own. -/
  | privilegedRegisterWrite (h num : Nat) (v : W64)
  /-- R290. The scrub interval expires and the scrubber re-checks shard digests. -/
  | scrubPass (part : Nat)
  /-- R326. Arms the ingest digest check of one shard. -/
  | ingtArm (h : Nat) (v : W64)
  /-- R326. Disarms a shard's ingest check. -/
  | ingtDisarm (h : Nat) (v : W64)
  /-- R326. Every line of an armed shard is written and its digest is checked. -/
  | ingestCheck (part : Nat)
  /-- R322. Clears the mailbox interrupt MB. -/
  | mbctlAck (h : Nat)
  /-- R322. Sends the partition's MSI-X vector to the host. -/
  | mbctlSig (h : Nat)
  /-- R322. A host write to DOORBELL sets MB on the mailbox core. -/
  | hostDoorbell (part : Nat)
  /-- R320. A host access to the mailbox area through BAR0. -/
  | hostBar0Access (part : Nat) (write : Bool) (off size : Nat) (data : W64)
  /-- R320. A host access to the partition's IPA space through BAR2, translated by stage 2. -/
  | hostBar2Access (part : Nat) (write : Bool) (ipa : W64) (size : Nat) (data : List Byte)
  /-- R329. A write of DRAIN = 1 takes an UP fabric port to DRAINING. -/
  | fpsDrain (h port : Nat)
  /-- R329. A write of DRAIN = 0 returns a port to service. -/
  | fpsReturn (h port : Nat)
  /-- R329. All started requests of a draining port complete and it sends a DRAIN flit. -/
  | drainFlitSend (port : Nat)
  /-- R329. A DRAIN flit from a peer arrives; requests to it complete and a confirmation is sent. -/
  | peerDrainRequest (port : Nat)
  /-- R329. The peer's confirming flit arrives and the port enters DRAINED. -/
  | drainConfirm (port : Nat)
  /-- R329. A fabric request outstanding or held past the timeout fails. -/
  | fabricTimeout (port : Nat)
  /-- R330. Starts the eviction millisecond count and clears LATE. -/
  | evcStart (h : Nat)
  /-- R330. Requests the unlatch-permitted signal. -/
  | evcUnlatchRequest (h : Nat)
  /-- R330. The count reaches 30,000 ms without UNL; LATE is set and a PLDM event sent. -/
  | evcLate
  /-- R330. All conditions hold with UNL set and the signal rises. -/
  | unlatchRaise
  /-- R330. A condition fails and the signal drops, UNL reading 0. -/
  | unlatchDrop
  /-- R337. An ISL write requests RUN for an island. -/
  | islandRequestRun (h island : Nat)
  /-- R337. An ISL write requests IDLE for an island. -/
  | islandRequestIdle (h island : Nat)
  /-- R337. An ISL write requests OFF for an island, checked against the conditions. -/
  | islandRequestOff (h island : Nat)
  /-- R338. An island starts from OFF in boot order, 200 us after the previous one. -/
  | islandStart
  /-- R338. A group of 16 cores of a starting cluster starts, 10 us after the previous. -/
  | coreGroupStart (c : Nat)
  /-- R337. A dispatch, access or event returns an IDLE island to RUN. -/
  | islandWake (island : Nat)
  /-- R311. A single-bit error is corrected and its bucket fills. -/
  | correctedError (r : Bucket)
  /-- R314. At each 1 ms boundary every bucket leaks and re-arms. -/
  | bucketLeak
  /-- R325. A memory link goes FAILED while in use. -/
  | memoryLinkFail (link : Nat)
  /-- R325. A lane of a memory link, fabric port or UCIe link retrains (R314); a memory link narrows to half width. -/
  | laneRetrain (link : LinkId) (lane : Nat)
  /-- R318. A class-2 or class-3 request waits 4,096 starts and is started next. -/
  | arbitrationAging (link : Nat)
  /-- R332. Power-on resets measurement and privileged state and starts the boot ROM. -/
  | powerOn
  /-- R335. The root core runs one start-record step, verifying and measuring its stage. -/
  | bootStep (image sig : List Byte) (passed : Bool)
  /-- R339. A full-debug token over MCTP is verified, applied and measured into M7. -/
  | debugToken (token : List Byte)
  /-- R335. A signed management command clears a step's ALT. -/
  | altClear (command : List Byte)
  /-- R341. Answers an SPDM GET_VERSION request. -/
  | spdmGetVersion
  /-- R341. Answers an SPDM GET_CAPABILITIES request. -/
  | spdmGetCapabilities
  /-- R341. Answers an SPDM NEGOTIATE_ALGORITHMS request. -/
  | spdmNegotiateAlgorithms
  /-- R341. Answers an SPDM GET_DIGESTS request. -/
  | spdmGetDigests
  /-- R341. Answers an SPDM GET_CERTIFICATE request. -/
  | spdmGetCertificate
  /-- R341. Answers an SPDM CHALLENGE request. -/
  | spdmChallenge (nonce : BitVec 256)
  /-- R341. Returns signed measurement blocks M0-M7 over a nonce. -/
  | spdmGetMeasurements (nonce : BitVec 256)
  /-- R342. Answers a PLDM sensor read of island temperature and power. -/
  | pldmSensorRead (island : Nat)
  /-- R152. C fetches a bundle header and its slot words and issues the bundle as a whole, after the header, class-count and destination checks. -/
  | bundleIssue (header : W32) (slots : List W32)
  /-- R155. A sequencer fetches a word with major 0x00, a reserved major, an unassigned minor code or a header outside C, and raises ILLEGAL. -/
  | unassignedOpcode (word : W32)
  /-- R132. The dispatcher reads a record whose KIND is 2 or 3, rejects it, frees its slot and posts a FORMAT record. -/
  | reservedKindRecord (part : Nat)
  /-- R118. A request from a fabric peer (PUT, PUTRED or aperture access) arrives at this device and is checked against the partition's chunk-buffer window and applied. -/
  | fabricPeerRequest (port : Nat) (req : PeerReq)
  /-- R328. A fabric port in TRAIN completes training and enters UP, and held requests proceed. -/
  | fabricPortUp (port : Nat)
  /-- R328. A fabric port loses its link and its state becomes DOWN. -/
  | fabricPortDown (port : Nat)
  /-- R330. The peer reopens a drained port, so the port leaves DRAINED and retrains. -/
  | peerPortReopen (port : Nat)
  /-- R311. An uncorrectable error arises in a store (scratchpad, shared memory, accumulator, register file, buffer or device memory) and stays pending until consumed or overwritten. -/
  | uncorrectableError (site : ErrSite)
  /-- R340. A debugger request to halt, single-step, or read or write a compute core, save slot or hub state is granted or refused by the debug, security and power state, and may wake an idle island. -/
  | debugAccess (req : DebugReq)
  deriving DecidableEq, Repr, Inhabited

end Sys2Proof
end

