-- ==== Sys2Proof/Config.lean ====
section
/-! DEFINITION. What the spec leaves to the implementation or to the outside: constants and free values without a
body, so that nothing can be proved of what they are (log 1, 9, 12, 15), and the fixed sizes of the M7400. -/

namespace Sys2Proof

/-- What a frozen core waits for (R23, R313): one of R313's late units, or room in a full matrix or proofer queue (R214,
R241). -/
inductive Late where
  | bank | memory | accumulator | specialFunction | pipe | walk | scalarUnit | matrixQueue | prooferQueue
  deriving DecidableEq, Repr, Inhabited

/-- The matrix engine is what a freeze waits for. -/
def Late.matrix : Late → Bool
  | .accumulator | .matrixQueue => true
  | _ => false
/-- The code of a late unit (R313); a full queue has none. -/
def Late.code : Late → Option Nat
  | .bank => some 0 | .memory => some 1 | .accumulator => some 2 | .specialFunction => some 3 | .pipe => some 4
  | .walk => some 5 | .scalarUnit => some 6 | .matrixQueue => none | .prooferQueue => none

/-- What tries a request of a fabric port again when the fabric timeout has passed (R329): a command of an engine queue, or the
replay of one that has started; a pool entry; a work entry. -/
inductive Retry where
  | command (g : Nat) (q : Queue) (started : Bool)
  | entry (n : Nat)
  | work (qp n : Nat)
  deriving DecidableEq, Repr, Inhabited

/-- Whose turn it is: a sequencer issues or lands, a step without a word happens, one arithmetic cycle of 800 MHz passes
(R2), a unit of a core is late with what C is about to need, which freezes the core (R23), or a request is tried again. -/
inductive Turn where
  | seq (w : Who)
  | event (i : Instr)
  | tick
  | late (g : Nat) (unit : Late)
  | retry (r : Retry)
  deriving DecidableEq, Repr, Inhabited

/-- Free value: which agent acts next when the agenda is empty (log 1). -/
opaque Config.nextTurn : Nat → Turn
/-- Free value: the late unit's code of a freeze on a full queue, for which R313 has none (log 24). -/
opaque Config.lateUnit : Nat → Nat
/-- Free value: the code of a PREDICT record, which R315 does not give (log 26). -/
opaque Config.predictCode : Nat → Nat
/-- Free value: UNIT and INDEX of a PREDICT record about a scratchpad bank or a cluster (log 26). -/
opaque Config.predictUnit : Nat → Nat × Nat
/-- Free value: whether a host memory request completes with an error (R321, log 15). -/
opaque Config.hostError : Nat → Nat → Bool
/-- Free value: a byte that an external target returns to a read (R298, log 15). -/
opaque Config.extByte : Nat → Nat → Byte
/-- Free value: what training a fabric port finds: the lanes that come up and the peer's node index (R328, log 28). -/
opaque Config.trained : Nat → Nat → Fin 8 × BitVec 16
/-- Free value: the link lane to which an error in device memory is counted, of which no rule says (R323, log 29). -/
opaque Config.errorLane : Nat → Nat → Nat
/-- Free value: a byte of the opaque region of a save slot (R292, log 12). -/
opaque Config.saveByte : Nat → Byte
/-- The signature check of a boot image, configuration record, token or management command (R331-R339, log 9). -/
opaque Config.signatureHolds : List Byte → List Byte → Bool
/-- The signature that the root core makes over a message with its attestation key (R341, log 9). -/
opaque Config.sign : List Byte → List Byte
/-- The certificate chain of the attestation key (R341, log 9). -/
opaque Config.certificates : List Byte
/-- Free value: a reading of an island's sensors (R342, log 9). -/
opaque Config.sensor : Nat → Nat → List Byte
/-- Free value: a nonce of the root core (R339, log 9). -/
opaque Config.nonce : Nat → BitVec 256
/-- Bytes of the device serial, the board serial and the identity key's digest (R342, log 9). -/
opaque Config.deviceSerial : Nat → Byte
opaque Config.boardSerial : Nat → Byte
opaque Config.identityKey : Nat → Byte
/-- The digest of the boot ROM (R331, log 9). -/
opaque Config.romDigest : List Byte
/-- Free value: whether a start unseals the identity key (R334, log 9). -/
opaque Config.unseals : Nat → Bool
/-- The check of a debug token: signed by the key of a DBGKEY digest, naming the device and a nonce (R339, log 9). -/
opaque Config.tokenOk : List Byte → BitVec 256 → List Byte → Bool
/-- The secure partitions that a debug token names (R340, log 9). -/
opaque Config.tokenNames : List Byte → Nat → Bool
/-- The step whose ALT a signed management command clears, if its signature holds (R335, log 9). -/
opaque Config.altCommand : List Byte → Option Nat
/-- What a memory channel holds (R323): no module, or one of the three sizes. -/
inductive Module where
  | none | gb64 | gb128 | gb256
  deriving DecidableEq, Repr, Inhabited

/-- Its capacity in GiB (R323, R324). -/
def Module.gib : Module → Nat
  | .none => 0 | .gb64 => 64 | .gb128 => 128 | .gb256 => 256

/-- The modules on the two channels of a memory link, and whether it trains at a rate (R323, R325, log 9). -/
opaque Config.modules : Nat → Nat → Module × Module × Bool
/-- The physical address at which the hypervisor is loaded and entered, which no rule gives (R331, log 90). -/
opaque Config.hypervisor : Nat
/-- The physical address at which a partition's system image is loaded, and the address at which it is entered at level S, which
no rule gives (R331, log 90). -/
opaque Config.systemImage : Nat → Nat × Nat
/-- Free value: whether a peer leaves a request to an UP port without an answer for now (R329, log 15). -/
opaque Config.peerSlow : Nat → Nat → Bool
/-- Free value: how a peer outside this device answers a work entry (R129, log 15): 0 performs it, others refuse. -/
opaque Config.peerAnswer : Nat → Nat

/-- Compute cores (R10). -/
def numCores : Nat := 2048
/-- Clusters (R10). -/
def numClusters : Nat := 16
/-- Hearth cores (R284). -/
def numHearths : Nat := 16
/-- Partitions (R285: PSEL is 4 bits). -/
def numParts : Nat := 16

end Sys2Proof
end

