-- ==== Sys2Proof/Machine/State.lean ====
section
/-! DEFINITION. The state of the M7400: every register, store, queue and pool that the spec names, as plain data.
Units that come in large numbers are kept in maps from their number, which list only the units written since
reset; an unlisted unit is in its reset state. -/

namespace Sys2Proof.Machine

/-- An error record (R305, R306): NID or the tile handle is in `nid`, the other DETAIL bits in `detail`. -/
structure Record where
  cls    : Nat := 0
  code   : Nat
  unit   : Nat
  index  : Nat := 0
  cid    : Nat := 0
  cor    : Nat := 0
  nv     : Bool := false
  graph  : Nat := 0
  nid    : Nat := 0
  addr   : Nat := 0
  caddr  : Nat := 0
  detail : Nat := 0
  deriving DecidableEq, Repr

/-- A record on its way to a fault queue (R309): partition and cluster, the cores whose posted accesses must complete
before it is written, and whether it arose in the current cycle. -/
structure Due where
  part    : Nat
  cluster : Nat
  record  : Record
  cores   : List Nat := []
  now     : Bool := true
  deriving DecidableEq, Repr

/-- A map from unit numbers, ordered by number. -/
abbrev Map (α : Type) := List (Nat × α)

/-- The entry of a number, or a default where none is listed. -/
def Map.getD {α : Type} (m : Map α) (k : Nat) (dflt : α) : α :=
  match m with
  | [] => dflt
  | (k', v) :: m => if k' = k then v else Map.getD m k dflt

/-- Writes the entry of a number, keeping the order. -/
def Map.set {α : Type} (m : Map α) (k : Nat) (v : α) : Map α :=
  match m with
  | [] => [(k, v)]
  | (k', v') :: m =>
    if k' = k then (k, v) :: m else if k < k' then (k, v) :: (k', v') :: m else (k', v') :: Map.set m k v

/-- Removes the entry of a number. -/
def Map.del {α : Type} (m : Map α) (k : Nat) : Map α := List.filter (fun e => !(e.1 == k)) m

/-- The entry of a number, if listed. -/
def Map.get? {α : Type} (m : Map α) (k : Nat) : Option α :=
  match m with
  | [] => none
  | (k', v) :: m => if k' = k then some v else Map.get? m k

/-- The instructions of the groups NMA (from its last forms on), NMX and POST, as what a sequencer waits to run again
(R189): a copy of their constructors in `Instr`, with the same operands. -/
inductive Near where
  | nmaMaxF32 (d : Fin 32) (a : Fin 32) (b : Fin 32)
  | nmaSwapF32 (d : Fin 32) (a : Fin 32) (b : Fin 32)
  | nmaCasF32 (d : Fin 32) (a : Fin 32) (b : Fin 32)
  | nmaLaddF32 (d : Fin 32) (a : Fin 32) (b : Fin 32) (g : Bool)
  | nmaLaddI32 (d : Fin 32) (a : Fin 32) (b : Fin 32) (g : Bool)
  | nmaLmaxF32 (d : Fin 32) (a : Fin 32) (b : Fin 32) (g : Bool)
  | skSeed (a : Fin 32) (b : Fin 32)
  | skUpd (d : Fin 32) (a : Fin 32) (b : Fin 32)
  | skUpdl (a : Fin 32) (b : Fin 32) (g : Bool)
  | skQry (d : Fin 32) (a : Fin 32) (b : Fin 32)
  | skQryl (a : Fin 32) (b : Fin 32) (g : Bool)
  | skAdd (a : Fin 32) (b : Fin 32)
  | skClr (a : Fin 32)
  | ocInit (d : Fin 32) (a : Fin 32) (b : Fin 32) (i : Bool)
  | ocIns (d : Fin 32) (a : Fin 32) (b : Fin 32)
  | ocLdt (d : Fin 32) (a : Fin 32) (b : Fin 32)
  | ocLds (d : Fin 32) (a : Fin 32) (b : Fin 32)
  | ocSettle (a : Fin 32) (b : Fin 32)
  | ocFold (d : Fin 32) (b : Fin 32)
  | postTask (a : Fin 32)
  | postQp (a : Fin 32) (b : Fin 32)
  | postTcadd (d : Fin 32) (a : Fin 32) (b : Fin 32) (h : Fin 4) (n : Bool)
  | postTcset (d : Fin 32) (a : Fin 32) (b : Fin 32) (h : Fin 4) (n : Bool)
  | postTcrd (d : Fin 32) (a : Fin 32) (b : Fin 32) (h : Fin 4) (n : Bool)
  | postTcwait (d : Fin 32) (a : Fin 32) (b : Fin 32) (h : Fin 4) (n : Bool)
  | postWbeg (a : Fin 32) (b : Fin 32)
  | postWcom (b : Fin 32)
  | postWabn (b : Fin 32)
  | postWst (d : Fin 32) (b : Fin 32)
  deriving DecidableEq, Repr

/-- What a sequencer waits at, to run again (R188, R189): a word, a bundle, or a word of `Near`. -/
inductive Wait where
  | word (i : Instr)
  | bundle (header : W32) (slots : List W32)
  | near (n : Near)
  deriving DecidableEq, Repr

/-- What a posted instruction hands to a bank unit, the dispatcher or the CSQ (R116, R237, R249-R256): `nma` with its
operation, type and `u`; the list forms with the source K has read and the semaphore of `sig`; the sketch lists
with their addresses and count. -/
inductive NearOp where
  | nma (op ty : Nat) (u : Bool)
  | list (op ty : Nat) (xs : List W32) (sig : Option Reg16)
  | ptWr
  | ptHwr
  | ptClr
  | creelCfg
  | creelBias
  | skSeed
  | skUpd
  | skUpdl (index val : W64) (count : Nat) (sig : Option Reg16)
  | skQryl (index res : W64) (count : Nat) (sig : Option Reg16)
  | skAdd
  | skClr
  | ocInit (i32 : Bool)
  | ocIns
  | ocSettle
  | tcAdd (n : Nat)
  | tcSet (n : Nat)
  | wsBeg
  | wsCom
  | wsAbn
  deriving DecidableEq, Repr

/-- The state of a `loop.sp` loop of one sequencer (R176, R177): first body instruction, END and the iteration. -/
structure Loop where
  active : Bool := false
  first  : W64 := 0
  fin    : W64 := 0
  t      : Nat := 0
  deriving DecidableEq, Repr, Inhabited

/-- A sequencer issues, has executed END (R16), or stands halted with its node (R18, R141); `stopping` is one whose node
has halted in the current cycle, before its own instruction of that cycle (R295, R307). -/
inductive Run where
  | ended | running | halted | stopping
  deriving DecidableEq, Repr, Inhabited

/-- A TLB entry (R299): partition, the block's VA and size, the IPA and PA of its start, rights X W Rd U, and the
level of the stage-2 leaf, and the stage-2 blocks, as IPA and size, through which the stage-1 tables were read (R302). -/
structure Tlb where
  part : Nat
  va   : Nat
  size : Nat
  ipa  : Nat
  pa   : Nat
  x    : Bool
  w    : Bool
  rd   : Bool
  u    : Bool
  lvl  : Nat := 4
  tables : List (Nat × Nat) := []
  deriving DecidableEq, Repr

/-- A request that a fabric port holds or has not answered (R329): its address and key, whether the port has started it,
the translation it was looked up by, none of a physical address (R303), and since when it has been asked. -/
structure Request where
  va    : W64
  key   : Nat
  begun : Bool
  via   : Option Tlb
  since : Nat
  deriving DecidableEq, Repr

/-- One sequencer: of a core (R11, R148, R177, R182, R186) or of a hearth core (R284). `wait` holds the instruction
or bundle at which it stalls (R188); `sync` the barrier of a `gbar.sync` that waits after its arrival (R186); `issued`
says that it has had its instruction of the current cycle, `held` is the request that a port holds while it waits (R329). -/
structure Seq where
  pc    : W64 := 0
  s     : Vector W64 32 := Vector.replicate 32 0
  p     : Vector Bool 16 := Vector.replicate 16 false
  lc    : W32 := 0
  esc   : BitVec 3 := 0
  loop  : Loop := {}
  event : Bool := false
  seen  : Vector (Option (BitVec 16)) 16 := Vector.replicate 16 none
  run   : Run := .ended
  wait  : Option Wait := none
  sync  : Option Reg16 := none
  issued : Bool := false
  held  : Option Request := none
  deriving DecidableEq, Repr, Inhabited

/-- What an operation in flight in C does when it lands (R21, R193, R210): write a scalar, a predicate, p1-p15, a
vector register's first lanes, a special register or nothing; or access memory or a tile then, a tile after the
matrix commands whose order is below `before`;
or set the stage predicates of a loop's first iteration (R30, R190). -/
inductive Landing where
  | sreg (d : SReg) (x : W64)
  | preg (d : Reg16) (b : Bool)
  | preds (x : W64)
  | vec (r : VReg) (lanes : List W32)
  | csr (num : Nat) (x : W64)
  | load (r : VReg) (t : Fin 8) (eas : List W64)
  | residue (r : VReg) (t : Fin 8) (n : Nat) (base : W64) (fpcr : W32)
  | store (t : Fin 8) (items : List (W64 × W32))
  | convert (t : Fin 8) (half : Bool) (lanes : List W32) (dst ctrl : W64) (fpcr : W32)
  | accRd (r : VReg) (tile : TReg) (part n before : Nat)
  | accFlg (d : SReg) (tile : TReg) (before : Nat)
  | stages
  deriving DecidableEq, Repr

/-- An operation in flight: C-stream cycles left, its slot, its bundle's address, its effect and its flags. -/
structure Flight where
  left  : Nat
  slot  : Nat
  pc    : W64
  op    : Landing
  flags : W32 := 0
  deriving DecidableEq, Repr

/-- An accumulator tile (R225, R88): 32 x 128 values row-major, 32 row tags, and the flags word's fields. An index
past the end of a list reads as 0. `err` lists the rows with an uncorrectable error pending (R311, R98). -/
structure Tile where
  vals   : List W32 := []
  tags   : List W64 := []
  cnt    : Nat := 0
  closed : Bool := false
  poison : Bool := false
  tent   : Bool := false
  err    : List Nat := []
  deriving DecidableEq, Repr, Inhabited

/-- A ring descriptor (R57). -/
structure Ring where
  cfg     : W64 := 0
  head    : Nat := 0
  tail    : Nat := 0
  claimed : Nat := 0
  done    : W64 := 0
  deriving DecidableEq, Repr, Inhabited

/-- An engine command with its operand values as captured at issue (R215, R219-R234). -/
inductive Cmd where
  | copyIn (d : Reg16) (g : Nat) (base cw : W64)
  | copyOut (a : Reg16) (keep : Bool) (base cw : W64)
  | copyWt (d : Reg16) (g : Nat) (ww cw : W64) (spec : Bool)
  | copyMm (src dst cw : W64)
  | gath (d : Reg16) (desc : W64)
  | lineSet (v : W32) (first : W64) (count : Nat)
  | mark
  | mma (kind : Fin 5) (d : TReg) (a b : Reg16) (init keepa keepb ol reloc : Bool) (kc np : Nat)
  | accSt (d : Reg16) (a : TReg) (bf clr : Bool)
  | accAdd (d a b : TReg)
  | accZero (d : TReg)
  | tent (d : TReg) (addr : W64)
  | rslv (d : TReg) (blk : W64) (final : Bool)
  | mkat (p : Nat) (expect : W32)
  deriving DecidableEq, Repr

/-- A resolve in progress (R94, R98, R233): its block, read at its start, its next row, and what it has counted. -/
structure Resolving where
  block    : BitVec 512
  row      : Nat := 0
  commits  : Nat := 0
  squashed : Nat := 0
  dups     : Nat := 0
  redo     : Nat := 0
  deriving DecidableEq, Repr

/-- A queued engine command and its progress (R215-R217): its place in command order, its address, the semaphore of
`sig`, whether it has started, the slot it claimed as (core, ring, ticket), the slots it reads as (ring, slot), the
VOID it collected, the sibling that took it (R144), for a started copy command the lines it writes as they were
before it (R216), a resolve's progress (R98), and the request that a port holds for it (R329). -/
structure QCmd where
  order   : Nat
  pc      : W64
  cmd     : Cmd
  sig     : Option Reg16 := none
  started : Bool := false
  claim   : Option (Nat × Reg16 × Nat) := none
  reads   : List (Reg16 × Nat) := []
  void    : Bool := false
  sibling : Option Nat := none
  undo    : List (Nat × List Byte × W32) := []
  resolve : Option Resolving := none
  held    : Option Request := none
  deriving DecidableEq, Repr

/-- A replay window (R216): the commands since the marker, whether it lost any by exceeding 64, whether a slot
read by one of its retired commands has been claimed again, and the tiles as they were at the marker. -/
structure Window where
  cmds    : List QCmd := []
  lost    : Bool := false
  reused  : Bool := false
  tiles   : Map Tile := []
  deriving DecidableEq, Repr, Inhabited

/-- An engine queue (R214): commands not yet retired, and the replay window. An error in its buffers is pending
until consumed (R311). -/
structure EQueue where
  cmds   : List QCmd := []
  window : Window := {}
  err    : Bool := false
  deriving DecidableEq, Repr, Inhabited

/-- A freeze in progress (R23, R24, R313): the sequencer that issued the late operation, what is late, the address of the
access and the arithmetic cycles so far. -/
structure Freeze where
  seq    : SeqKind
  unit   : Late
  addr   : W64
  cycles : Nat
  deriving DecidableEq, Repr

/-- What a dispatch gives each core of a node (R12, R20, R62, R65, R142, R144, R81, R260): partition, pool entry,
identity, assumed latencies in the order of R20's table by class, modes, the cluster counters bound to gb0 on with
their participant counts, the weight-set slot, and the kernel's confinement. -/
structure Ctx where
  part    : Nat := 0
  entry   : Nat := 0
  graph   : Nat := 0
  tile    : Bool := false
  grk     : Nat := 0
  gsz     : Nat := 0
  nid     : Nat := 0
  stg     : Nat := 0
  lat     : List Nat := []
  strict  : Bool := false
  confine : Option Bool := none
  reloc   : Bool := false
  bars    : List (Nat × Nat) := []
  ws      : Option Nat := none
  deriving DecidableEq, Repr, Inhabited

/-- A preload of a node into one half of a core (R142, R143): the pool entry, and the mark's node and ranges. -/
structure Mark where
  part   : Nat
  graph  : Nat
  nid    : Nat
  ranges : List (Nat × Nat) := []
  deriving DecidableEq, Repr

/-- An agent of the memory order (R68): a sequencer, an engine acting for a command of core g (0 copy, 1 matrix, 2
special-function unit), the proofer for its n-th command of a core, the CSQ for a work entry, or the bank units acting for
the list form that core g's K issued as its n-th event (R251, R253, R257). -/
inductive Agent where
  | seq (w : Who)
  | cmd (g eng order : Nat)
  | proof (g n : Nat)
  | entry (qp idx : Nat)
  | list (g n : Nat)
  deriving DecidableEq, Repr, Inhabited

/-- What carries an order (R76, R77, R257, R115): a semaphore, a ring slot, a barrier's phase, the retirements of a copy
queue, a trigger counter, an order-cell region, a record or work entry posted, a weight-set slot, a node's start, and the full
fences of a scope in one instance (R75). -/
inductive Obj where
  | sem (g : Nat) (a : Fin 16)
  | slot (g : Nat) (q : Fin 16) (slot : Nat)
  | bar (c b phase : Nat)
  | drain (g : Nat) (q : Queue)
  | tc (n : Nat)
  | region (addr : Nat)
  | task (part n : Nat)
  | work (qp n : Nat)
  | ws (part slot : Nat)
  | node (entry : Nat)
  | full (scope inst : Nat)
  deriving DecidableEq, Repr, Inhabited

/-- A release (R70): its agent, the agent's count of events then, its scope, whether it is an engine command's signal
(R71), for a settle, the steps it took its source from and to (R115), and whether it is a release fence that the operation
carries: only an acquire fence links to it (R74). -/
structure Src where
  who   : Agent
  n     : Nat
  scope : Nat
  cmd   : Bool := false
  lo    : Nat := 0
  hi    : Nat := 0
  fence : Bool := false
  deriving DecidableEq, Repr

/-- A link (R70, R71): from an agent's n-th event to another agent's m-th, at the narrower scope; through a command
that makes it reach what the command accesses; or, between full fences, reaching everything (R75). -/
structure Link where
  who   : Agent
  n     : Nat
  dst   : Agent
  m     : Nat
  scope : Nat
  cmd   : Option Agent := none
  all   : Bool := false
  deriving DecidableEq, Repr

/-- An access the hazard checker remembers (R81): its agent, the agent's count of events then, its bytes, whether it
writes, and the release fences of its agent before it (R74). -/
structure Access where
  who   : Agent
  n     : Nat
  base  : Nat
  len   : Nat
  write : Bool
  rel   : List Src
  deriving DecidableEq, Repr

/-- The linked-before relation while a STRICT node runs (R81, R71): each agent's count of events, the links in the
order they formed, what each object's releases are, each agent's release fences, the releases its reads have met, and
the accesses, the latest first. -/
structure Hazard where
  own   : List (Agent × Nat) := []
  links : List Link := []
  objs  : List (Obj × List Src) := []
  rel   : List (Agent × List Src) := []
  met   : List (Agent × List Src) := []
  log   : List Access := []
  deriving DecidableEq, Repr, Inhabited

/-- A posted operation that a bank unit has not applied (R116, R237): the operation with its captured operand
values, the partition and node it acts for, for a list form, the entries not yet applied, the release that issuing it was
(R115, R257), and the release fences before it (R74). -/
structure Posted where
  pc    : W64
  op    : NearOp
  d     : W64
  a     : W64
  b     : W64
  part  : Nat
  done  : Nat := 0
  src   : Option Src := none
  rel   : List Src := []
  deriving DecidableEq, Repr

/-- A compute core (R11): its four sequencers, C's registers and operations in flight, the flags that landed in C's
current cycle (R46), tiles, rings, semaphores, engine queues, posted operations and the context of its node; `last` is the
place, in R81's order of agents, of the latest that acted in the current cycle. -/
structure Core where
  k       : Seq := {}
  l       : Seq := {}
  c       : Seq := {}
  st      : Seq := {}
  v       : Vector (List W32) 32 := Vector.replicate 32 []
  fpcr    : W32 := 0
  vshape  : W32 := 0
  vrot    : BitVec 4 := 0
  flight  : List Flight := []
  landed  : W32 := 0
  tiles   : Map Tile := []
  rings   : Vector Ring 16 := Vector.replicate 16 {}
  sems    : Vector W32 16 := Vector.replicate 16 0
  lq      : EQueue := {}
  sq      : EQueue := {}
  mq      : EQueue := {}
  order   : Nat := 0
  posted  : List Posted := []
  freeze  : Option Freeze := none
  regErr  : List (SeqKind × RegSite) := []
  ctx     : Option Ctx := none
  marks   : Map Mark := []
  preload : Option (Bool × Nat) := none
  steal   : Option Nat := none
  debug   : Bool := false
  stepping : Option SeqKind := none
  last    : Nat := 0
  deriving DecidableEq, Repr, Inhabited

/-- A barrier counter (R62): arrivals in the phase, the phase, and the pool entry and participants it is bound to. -/
structure Barrier where
  count : Nat := 0
  phase : BitVec 16 := 0
  bound : Option Nat := none
  p     : Nat := 0
  deriving DecidableEq, Repr, Inhabited

/-- A proofer command (R241): the block's 64 bytes, who issued it (core and its command address, or a node), the
profile of its bundle, the issuer's count of events at issue, and the request that a port holds for it (R329). -/
structure PCmd where
  pc    : W64
  core  : Option Nat
  entry : Option Nat
  part  : Nat
  block : BitVec 512
  sig   : Option Reg16 := none
  np    : Nat := 1
  tag   : Nat := 0
  deriving DecidableEq, Repr

/-- A cluster (R10, R62, R241, R299, R288). -/
structure Cluster where
  bars    : Vector Barrier 16 := Vector.replicate 16 {}
  proofs  : List PCmd := []
  running : Option PCmd := none
  tlb     : List Tlb := []
  cleared : Bool := true
  deriving DecidableEq, Repr, Inhabited

/-- What a hearth core's invalidation waits for (R302): the units that have not replied. -/
structure Tinv where
  addr  : W64
  desc  : W64
  units : List Unit1
  deriving DecidableEq, Repr

/-- The registers of one level S or H that an entry saves into (R284, R285). -/
structure EntryRegs where
  epc    : W64 := 0
  ecause : W64 := 0
  einfo  : W64 := 0
  evec   : W64 := 0
  esave  : W64 := 0
  deriving DecidableEq, Repr, Inhabited

/-- A node command in progress (R291): OP, the partition it acts for, its fields, whether it has been accepted, and
its RES once known. -/
structure NCmd where
  op    : Nat
  part  : Nat
  tile  : Bool
  graph : Nat
  nid   : Nat
  cl    : Nat
  begun : Bool := false
  res   : Option Nat := none
  deriving DecidableEq, Repr

/-- A hearth core (R284-R286, R291): level 0 U, 1 S, 2 H. `ncPart` is the partition of its last node command. -/
structure Hearth where
  seq    : Seq := {}
  lv     : Nat := 2
  ie     : Bool := false
  es     : EntryRegs := {}
  eh     : EntryRegs := {}
  imaskS : BitVec 16 := 0
  imaskH : BitVec 16 := 0
  iroute : BitVec 16 := 0
  psel   : Nat := 0
  hpart  : Nat := 0
  nbud   : W32 := 1
  res    : Nat := 0
  ncmd   : Option NCmd := none
  ncPart : Nat := 0
  tlb    : List Tlb := []
  tinv   : Option Tinv := none
  posted : List Posted := []
  regErr : List RegSite := []
  debug  : Bool := false
  deriving DecidableEq, Repr, Inhabited

/-- The state of a weight-set slot (R64). -/
inductive WsState where
  | free | building | current | retiring
  deriving DecidableEq, Repr, Inhabited

/-- A weight-set slot (R64). -/
structure Ws where
  state   : WsState := .free
  table   : W64 := 0
  experts : Nat := 0
  shards  : Nat := 0
  bound   : Nat := 0
  deriving DecidableEq, Repr, Inhabited

/-- An armed ingest check (R326): partition, slot, expert and shard, and the addresses of the shard's lines that no
write has reached yet. -/
structure Ingest where
  part   : Nat
  slot   : Nat
  expert : Nat
  shard  : Nat
  left   : List Nat
  deriving DecidableEq, Repr

/-- A partition (R287, R289-R290, R296, R64, R131, R119, R87, R326, R286, R292): its registers as written, its
record queue with the posting address of each slot, its weight-set slots, the interrupts NC and MB, the count of its
last PREDICT record, and what the opaque region of each save slot stands for. -/
structure Part where
  pstate : Nat := 0
  pcl    : W64 := 0
  pslc   : W64 := 0
  pqp    : W64 := 0
  ptc    : W64 := 0
  pport  : W64 := 0
  pvf    : W64 := 0
  prq    : W64 := 0
  ppool  : W64 := 0
  psave  : W64 := 0
  psaven : W64 := 0
  pfqt   : W64 := 0
  pmbx   : W64 := 0
  pchb   : W64 := 0
  pdbg   : W64 := 0
  ttbS   : W64 := 0
  ttbH   : W64 := 0
  scrb   : W64 := 0
  pptb   : W64 := 0
  qpsel  : Nat := 0
  qhead  : Nat := 0
  qtail  : Nat := 0
  qpost  : Map W64 := []
  ws     : Vector Ws 8 := Vector.replicate 8 {}
  scrubAt : Nat := 0
  ingt   : W64 := 0
  nc     : Bool := false
  mb     : Bool := false
  pf     : Option Nat := none
  hidden : Map Core := []
  deriving DecidableEq, Repr, Inhabited

/-- What a pool entry is (R133, R134, R137). -/
inductive Kind where
  | node | tile | corr | runTile | placeholder
  deriving DecidableEq, Repr, Inhabited

/-- Where a pool entry stands (R134, R135, R138, R141, R142). -/
inductive Phase where
  | waiting | ready | preloaded | running | halted | retiring
  deriving DecidableEq, Repr, Inhabited

/-- A pool entry (R133-R141, R65, R292): identity, record, posting address, remaining count, phase, decisions
waited, order of readiness, placement by gang rank, weight-set slot, the inherited binding with the index of the
node that gave it, cycles used of the budget and its limit, save slots by rank, whether the saves may be resumed,
the hearth cores whose pre-emption is pending, whether a budget stop is, whether the peel has stopped its issue, a routine's next operation and its count, a correction record's
runs still to start (address and expert) and tiles still running, a run tile's parent and expert, the next successor to release, the cores it is preloaded on, the wait count from before its first start (R140), the entries
of its operand list as a dispatch read them (R262), and the read that a port holds for it (R329). -/
structure Entry where
  part     : Nat := 0
  kind     : Kind := .node
  graph    : Nat := 0
  nid      : Nat := 0
  record   : BitVec 512 := 0
  post     : W64 := 0
  remain   : Int := 0
  phase    : Phase := .waiting
  waited   : Nat := 0
  readyAt  : Nat := 0
  reserving : Bool := false
  cluster  : Nat := 0
  cores    : List Nat := []
  bars     : List (Nat × Nat) := []
  ws       : Option Nat := none
  inherit  : Option (Nat × Nat) := none
  used     : Nat := 0
  limit    : Nat := 0
  saves    : List Nat := []
  resume   : Bool := false
  valid    : Bool := false
  preempt  : List Nat := []
  overrun  : Bool := false
  stopped  : Bool := false
  next     : Nat := 0
  total    : Nat := 0
  runs     : List (Nat × Nat) := []
  kids     : Nat := 0
  parent   : Option Nat := none
  expert   : Nat := 0
  succ     : Nat := 0
  preloads : List Nat := []
  wait0    : Nat := 0
  ops      : List Nat := []
  held     : Option Request := none
  deriving DecidableEq, Repr, Inhabited

/-- A release held back for want of a pool entry (R134): the retiring entry, the identity it names and the binding it
confers. -/
structure Held where
  entry : Nat
  part  : Nat
  graph : Nat
  nid   : Nat
  bind  : Option (Nat × Nat)
  deriving DecidableEq, Repr

/-- The dispatcher (R131-R144): the pool, releases held for want of an entry, decisions made, the partition whose
turn is next and the order counter of readiness. -/
structure Disp where
  pool  : Map Entry := []
  held  : List Held := []
  count : Nat := 0
  turn  : Nat := 0
  ready : Nat := 0
  deriving DecidableEq, Repr, Inhabited

/-- A work entry that has been armed (R121-R123): its ring index, its 64 bytes, whether it has fired, performed
its writes or failed (with code, address and other DETAIL bits), and the request that a port holds for it (R329). -/
structure Work where
  idx   : Nat
  word  : BitVec 512
  fired : Bool := false
  done  : Bool := false
  fail  : Option (Nat × W64 × Nat) := none
  held  : Option Request := none
  deriving DecidableEq, Repr

/-- The state of a queue pair (R119). -/
inductive QpState where
  | off | on | error | resetting
  deriving DecidableEq, Repr, Inhabited

/-- A queue pair (R118-R121): configuration, state, counts of the oldest entry and of the next to be posted and to be
armed, the armed entries in posting order, the ended ones that an older entry still holds back, and the least that
failed. -/
structure Qp where
  cfg   : W64 := 0
  base  : W64 := 0
  state : QpState := .off
  head  : Nat := 0
  tail  : Nat := 0
  arm   : Nat := 0
  works : List Work := []
  free  : List Nat := []
  bad   : Option Nat := none
  deriving DecidableEq, Repr, Inhabited

/-- A creel (R90, R245): configuration, bias and held entries. -/
structure Creel where
  set     : Bool := false
  expert  : Nat := 0
  cap     : Nat := 0
  bias    : W32 := 0
  notice  : W64 := 0
  held    : List (W32 × W32 × W32) := []
  noticed : Bool := false
  deriving DecidableEq, Repr, Inhabited

/-- A fabric port (R328, R329): its register fields, and whether its DRAIN flit has been sent. -/
structure Port where
  peer    : Nat := 0
  state   : Nat := 0
  lanes   : Nat := 0
  drain   : Bool := false
  conf    : Bool := false
  flit    : Bool := false
  deriving DecidableEq, Repr, Inhabited

/-- A memory link (R324). -/
structure MLink where
  reg : W64 := 0
  deriving DecidableEq, Repr, Inhabited

/-- The eviction state (R330). -/
structure Evict where
  running : Bool := false
  start   : Nat := 0
  late    : Bool := false
  unl     : Bool := false
  signal  : Bool := false
  deriving DecidableEq, Repr, Inhabited

/-- An island (R336-R338): 0 OFF, 1 IDLE, 2 RUN, 3 starting; when it started last, and since when an access has asked
an idle one to run. -/
structure Island where
  state  : Nat := 0
  target : Nat := 0
  groups : Nat := 0
  at_    : Nat := 0
  asked  : Option Nat := none
  deriving DecidableEq, Repr, Inhabited

/-- A leaky bucket (R314). -/
structure Leak where
  level : Nat := 0
  armed : Bool := true
  deriving DecidableEq, Repr, Inhabited

/-- One entry of the start record (R335). -/
structure Boot where
  begun  : Bool := false
  done   : Bool := false
  alt    : Bool := false
  streak : Nat := 0
  deriving DecidableEq, Repr, Inhabited

/-- The identity element's fields that change (R342, R343). -/
structure Identity where
  gen     : Nat := 0
  gen2    : Nat := 0
  cfgd    : List Byte := List.replicate 32 0
  leftout : Nat := 0
  absent  : Nat := 0
  deriving DecidableEq, Repr, Inhabited

/-- The root core (R331-R343): measurement registers, the start record with the least version of a configuration
record, the next boot step, whether boot has stopped at a failed step or in recovery, whether the identity key is
unsealed, the applied configuration record, the debug token, the nonce of this start, the identity element, and of this
start the clusters left out and the form in which each step was run, true for the alternate (R335). -/
structure Root where
  meas     : Vector (List Byte) 8 := Vector.replicate 8 (List.replicate 32 0)
  boot     : Map Boot := []
  minVer   : Nat := 0
  step     : Nat := 0
  stopped  : Bool := false
  recovery : Bool := false
  unsealed : Bool := false
  config   : List Byte := []
  token    : Option (List Byte) := none
  nonce    : Option (BitVec 256) := none
  identity : Identity := {}
  left     : List Nat := []
  forms    : Map Bool := []
  deriving DecidableEq, Repr, Inhabited

/-- A message to the outside (R320-R329, R341, R342, log 1): interrupts to the host; requests to an external target
(fabric ports 0-15, or 16 for host memory) for a partition's function, or for level H's, at an offset, a whole line with
its side band (R53, R220), one that the host completes with an error (R321), or an operation that the target makes on what stands there (R125, R79);
data and operations for a peer's chunk buffers; completions of host accesses; counter additions, flits, answers on the management bus. -/
inductive Sent where
  | msix (part : Nat)
  | extWrite (fn : Option Nat) (target addr : Nat) (data : List Byte) (side : Option W32)
  | extRead (fn : Option Nat) (target addr n : Nat)
  | extFailed (fn : Option Nat) (target addr : Nat)
  | hostRead (part : Nat) (data : List Byte)
  | hostError (part : Nat)
  | completerAbort (part : Nat)
  | unsupportedRequest (part : Nat)
  | peerCounter (qp : Nat) (rcc : Nat) (inc : W32)
  | extMerge (fn : Option Nat) (target addr kind : Nat) (data : List Byte)
  | peerData (qp : Nat) (kind : Nat) (off : W64) (data : List Byte)
  | peerReply (port : Nat) (data : List Byte)
  | peerError (port : Nat) (code : Nat)
  | drain (port : Nat)
  | drainConf (port : Nat)
  | spdm (code : Nat) (data : List Byte)
  | pldm (data : List Byte)
  | debug (data : List Byte)
  | refused
  deriving DecidableEq, Repr

/-- Why a step stops the whole model. -/
inductive Fault where
  /-- Raised by `step` when the turn names a sequencer that the machine does not have (R10, R284). Safe: the spec
  gives such a sequencer no state and no step. -/
  | noSuchSequencer
  deriving DecidableEq, Repr

/-- Why a step has no meaning. -/
inductive Refusal where
  /-- Raised by an arm of `exec` whose instruction has no meaning in the model. Safe: nothing is said of it. -/
  | notModelled (mnemonic : String)
  deriving DecidableEq, Repr

/-- The state of the device. `agenda`, `free`, `cur`, `curSlot`, `curNp`, `curAddr`, `pos` and `asked` are the model's own:
whose turn is next, the free values drawn, the sequencer of the step, in C the slot, profile and bundle address, the place
in the order within a cycle that the cycle's events have reached (R190, R258), and the request that a port holds for what is
being tried again (R329). `due` holds the records posted and not yet written (R309), `fills` the bucket events of the cycle (R314).
`bad` lists the granules of 8 bytes with an uncorrectable error pending (R311).
`leakAt` is the last millisecond boundary at which the buckets leaked (R314). -/
structure State where
  agenda   : List Turn := []
  free     : Nat := 0
  cur      : Who := .hearth 0
  curSlot  : Nat := 0
  curNp    : Nat := 1
  curAddr  : W64 := 0
  pos      : Nat := 0
  asked    : Option Request := none
  due      : List Due := []
  clock    : Nat := 0
  cores    : Map Core := []
  clusters : Map Cluster := []
  hearths  : Map Hearth := []
  parts    : Map Part := []
  mem      : List Host.Cell := []
  side     : Map W32 := []
  bad      : List Nat := []
  ingest   : List Ingest := []
  cstg     : W64 := 0
  disp     : Disp := {}
  qps      : Map Qp := []
  tcs      : Map W64 := []
  creels   : Map Creel := []
  links    : Map MLink := []
  ports    : Map Port := []
  islands  : Map Island := []
  buckets  : List (Bucket × Leak) := []
  fills    : List (Bucket × Nat) := []
  leakAt   : Nat := 0
  evict    : Evict := {}
  hazard   : Hazard := {}
  root     : Root := {}
  sent     : List Sent := []
  deriving DecidableEq, Repr

/-- The machine at power-on (R285, R332, R337, R338): no node is dispatched, every island is OFF but the hub's, and
every register is at the value the spec or the log gives. -/
def State.reset : State := { islands := [(28, { state := 2, target := 2 })] }

end Sys2Proof.Machine
end

