-- ==== Sys2Proof/Machine/Mem.lean ====
section
/-! DEFINITION. Memory in its canonical form, its bytes, words and lines, and the keys that name them: a physical
address below 2^52, a scratchpad byte from 2^52, a shared-memory byte from 2^53, a chunk-buffer byte from 2^54, an
external target's byte as a partition names it from 2^60. -/

namespace Sys2Proof.Machine

/-- What a byte that nothing has written reads as: 0 for scratchpad and shared memory (R337), and by log 5 for
device memory. -/
def unlisted : Byte := 0

/-- One byte of memory. -/
def Mem.read : List Host.Cell → Nat → Byte
  | [], _ => unlisted
  | (k', b) :: m, k => if k' = k then b else Mem.read m k

/-- Writes one byte, keeping addresses rising and listing no byte that reads as unlisted. -/
def Mem.write : List Host.Cell → Nat → Byte → List Host.Cell
  | [], k, b => if b = unlisted then [] else [(k, b)]
  | (k', b') :: m, k, b =>
    if k' = k then (if b = unlisted then m else (k, b) :: m)
    else if k < k' then (if b = unlisted then (k', b') :: m else (k, b) :: (k', b') :: m)
    else (k', b') :: Mem.write m k b

/-- Addresses are above a bound and strictly rising, and no listed byte is the unlisted one. -/
def Mem.wfFrom : Nat → List Host.Cell → Bool
  | _, [] => true
  | lo, (k, b) :: m => decide (lo ≤ k) && !(b == unlisted) && Mem.wfFrom (k + 1) m

/-- The canonical form of memory. -/
def Memory.wf (m : List Host.Cell) : Bool := Mem.wfFrom 0 m

/-- n bytes from a key, the first the least significant (R3). -/
def Mem.readN (m : List Host.Cell) (k : Nat) : Nat → Nat
  | 0 => 0
  | n + 1 => (Mem.read m k).toNat + 256 * Mem.readN m (k + 1) n

/-- Writes the n low bytes of a number from a key, the least significant first (R3). -/
def Mem.writeN (m : List Host.Cell) (k : Nat) : Nat → Nat → List Host.Cell
  | 0, _ => m
  | n + 1, v => Mem.writeN (Mem.write m k (BitVec.ofNat 8 v)) (k + 1) n (v / 256)

/-- n bytes from a key, as a list. -/
def Mem.bytes (m : List Host.Cell) (k : Nat) : Nat → List Byte
  | 0 => []
  | n + 1 => Mem.read m k :: Mem.bytes m (k + 1) n

/-- Writes a list of bytes from a key. -/
def Mem.writeBytes (m : List Host.Cell) (k : Nat) : List Byte → List Host.Cell
  | [] => m
  | b :: bs => Mem.writeBytes (Mem.write m k b) (k + 1) bs

/-- A number of n bytes from a list, the first the least significant. -/
def ofBytes : List Byte → Nat
  | [] => 0
  | b :: bs => b.toNat + 256 * ofBytes bs

/-- The n low bytes of a number. -/
def toBytes : Nat → Nat → List Byte
  | 0, _ => []
  | n + 1, v => BitVec.ofNat 8 v :: toBytes n (v / 256)

/-- Drops every listed byte from lo up to hi, so that the range reads as zero. -/
def Mem.clearRange (m : List Host.Cell) (lo hi : Nat) : List Host.Cell :=
  m.filter fun e => !(decide (lo ≤ e.1) && decide (e.1 < hi))

/-- The key of byte x of core g's scratchpad (R51). -/
def spadKey (g x : Nat) : Nat := 2 ^ 52 + 2 ^ 20 * g + x
/-- The key of byte x of shared memory (R55). -/
def sharedKey (x : Nat) : Nat := 2 ^ 53 + x
/-- The key of byte x of the chunk buffers (R122). -/
def chunkKey (x : Nat) : Nat := 2 ^ 54 + x
/-- A scratchpad byte. -/
def isSpad (k : Nat) : Bool := decide (2 ^ 52 ≤ k) && decide (k < 2 ^ 53)
/-- A shared-memory byte. -/
def isShared (k : Nat) : Bool := decide (2 ^ 53 ≤ k) && decide (k < 2 ^ 54)
/-- A chunk-buffer byte, which has no side band (R53). -/
def isChunk (k : Nat) : Bool := decide (2 ^ 54 ≤ k) && decide (k < 2 ^ 55)
/-- The key of a physical address with bit 51 set as partition p names it: the request is its function's (R298, R321). -/
def extKey (p pa : Nat) : Nat := 2 ^ 60 * (p + 1) + pa
/-- A byte of an external target, named by a partition or, by its physical address alone, by level H (R298). -/
def isExt (k : Nat) : Bool := (decide (2 ^ 51 ≤ k) && decide (k < 2 ^ 52)) || decide (2 ^ 60 ≤ k)
/-- The function that makes the request: a partition's, or none for level H's, the physical function (R319, R321). -/
def extFn (k : Nat) : Option Nat := if k < 2 ^ 60 then none else some (k / 2 ^ 60 - 1)
/-- The target: a fabric port, or 16 for host memory (R298). -/
def extTarget (k : Nat) : Nat := fld k 46 5
/-- The offset at the target, or the PCIe address (R298, R321, R327). -/
def extAddr (k : Nat) : Nat := fld k 0 46
/-- A physical address of device memory. -/
def isDev (k : Nat) : Bool := decide (k < 2 ^ 51)
/-- The core of a scratchpad byte. -/
def spadCore (k : Nat) : Nat := (k - 2 ^ 52) / 2 ^ 20

/-- Core g (R11). -/
def State.core (s : State) (g : Nat) : Core := s.cores.getD g {}
/-- Replaces core g. -/
def State.setCore (s : State) (g : Nat) (c : Core) : State := { s with cores := s.cores.set g c }
/-- Cluster c (R10). -/
def State.cluster (s : State) (c : Nat) : Cluster := s.clusters.getD c {}
/-- Replaces cluster c. -/
def State.setCluster (s : State) (c : Nat) (x : Cluster) : State := { s with clusters := s.clusters.set c x }
/-- Hearth core h (R284). -/
def State.hearth (s : State) (h : Nat) : Hearth := s.hearths.getD h {}
/-- Replaces hearth core h. -/
def State.setHearth (s : State) (h : Nat) (x : Hearth) : State := { s with hearths := s.hearths.set h x }
/-- Partition p (R287). -/
def State.part (s : State) (p : Nat) : Part := s.parts.getD p {}
/-- Replaces partition p. -/
def State.setPart (s : State) (p : Nat) (x : Part) : State := { s with parts := s.parts.set p x }
/-- Memory link n (R324). -/
def State.link (s : State) (n : Nat) : MLink := s.links.getD n {}
/-- The field of len bits of a register that begins at bit lo (R3). -/
def bf {n : Nat} (w : BitVec n) (lo len : Nat) : Nat := fld w.toNat lo len

/-- Whether a partition is not EMPTY and owns a cluster (R287). -/
def State.owns (s : State) (p c : Nat) : Bool := !((s.part p).pstate == 0) && (s.part p).pcl.getLsbD c
/-- The partition that owns a cluster (R287). -/
def State.partOf (s : State) (c : Nat) : Option Nat := (List.range numParts).find? fun p => s.owns p c
/-- The lowest-numbered cluster of a partition (R344). -/
def State.lowCluster (s : State) (p : Nat) : Nat :=
  ((List.range numClusters).find? fun c => (s.part p).pcl.getLsbD c).getD 0

/-- Bits 1:0 of MLS: 3 is FAILED (R324). -/
def State.linkFailed (s : State) (n : Nat) : Bool := bf (s.link n).reg 0 2 == 3
/-- MODE of a link (R324). -/
def State.linkMode (s : State) (n : Nat) : Nat := bf (s.link n).reg 8 2
/-- The link that serves a physical address: PA[16:12], or its partner where it is ABSENT (R56, R325). -/
def State.linkOf (s : State) (pa : Nat) : Nat :=
  let n := fld pa 12 5
  if s.linkMode n == 2 then (if n % 2 == 0 then n + 1 else n - 1) else n
/-- A link's share in GiB (R325). -/
def State.share (s : State) (n : Nat) : Nat :=
  let g := bf (s.link n).reg 32 16
  if s.linkMode n == 1 || !(bf (s.link n).reg 10 2 == 3) then g / 2 else g
/-- Bytes of the applied configuration record, as a number (R333). -/
def State.cfgField (s : State) (off n : Nat) : Nat := ofBytes ((s.root.config.drop off).take n)
/-- The fabric timeout in arithmetic cycles: FTIME milliseconds (R329, R333). -/
def State.fabricLimit (s : State) : Nat := 800000 * s.cfgField 48 2
/-- The installed capacity in bytes (R325): 32 times the least share over the links that are not ABSENT. -/
def State.capacity (s : State) : Nat :=
  let shares := ((List.range 32).filter fun n => !(s.linkMode n == 2)).map s.share
  32 * shares.foldl Nat.min (shares.headD 0) * 2 ^ 30

/-- The side band of the line that holds a key (R53). -/
def State.sideOf (s : State) (k : Nat) : W32 := s.side.getD (k / 256) 0
/-- Writes a side band (R53); a clean untyped line is not listed. -/
def State.setSide (s : State) (k : Nat) (v : W32) : State :=
  { s with side := if v = 0 then s.side.del (k / 256) else s.side.set (k / 256) v }
/-- LFL.POISON of a line (R53). -/
def State.poisoned (s : State) (k : Nat) : Bool := (s.sideOf k).getLsbD 25
/-- A read of n bytes consumes an uncorrectable error: one is pending in a granule of 8 bytes that they touch (R311), or
their link has failed (R325). -/
def State.badIn (s : State) (k n : Nat) : Bool :=
  s.bad.any (fun w => decide (k / 8 ≤ w) && decide (8 * w < k + n)) || (isDev k && s.linkFailed (s.linkOf k))
/-- The first granule of 8 bytes with a pending error among n bytes, by its key; the key of their first byte where it is
their link that has failed. -/
def State.badKey (s : State) (k n : Nat) : Nat :=
  (((List.range ((k + n + 7) / 8 - k / 8)).find? fun i => s.bad.contains (k / 8 + i)).map fun i => (k / 8 + i) * 8).getD k
/-- A read of the whole line that holds a key consumes an uncorrectable error (R311). -/
def State.isBad (s : State) (k : Nat) : Bool := s.badIn (k / 256 * 256) 256
/-- A whole-line write removes a pending error (R311). -/
def State.mend (s : State) (k : Nat) : State := { s with bad := s.bad.filter fun w => !(w / 32 == k / 256) }

/-- The 256 bits of a record (R305), with SEQ from PROD. -/
def Record.bits (r : Record) (prod : Nat) : Nat :=
  r.index % 2 ^ 14 + r.cor % 2 ^ 7 * 2 ^ 14 + r.cid % 2 ^ 4 * 2 ^ 21 + r.unit % 2 ^ 4 * 2 ^ 25
    + r.nv.toNat * 2 ^ 29 + r.cls % 4 * 2 ^ 30 + prod % 2 ^ 8 * 2 ^ 32 + r.graph % 2 ^ 16 * 2 ^ 48
    + r.addr % 2 ^ 56 * 2 ^ 64 + r.caddr % 2 ^ 56 * 2 ^ 128
    + ((r.detail ||| (r.nid % 2 ^ 16 * 2 ^ 32) ||| (r.code % 2 ^ 8 * 2 ^ 56)) % 2 ^ 64) * 2 ^ 192

/-- The base of cluster c's fault queue in the save area of partition p (R308). -/
def State.faultQueue (s : State) (p c : Nat) : Nat :=
  (s.part p).psave.toNat + (s.part p).psaven.toNat * 0x200000 + c * 0x10000

end Sys2Proof.Machine
end

