-- ==== Sys2Proof/Machine/Translate.lean ====
section
/-! DEFINITION. The address map (R50) and address translation (R296-R299, R304). -/

namespace Sys2Proof.Machine

/-- What a fault comes of, beyond the operation that meets it: an uncorrectable error is consumed in the store of a key or
in a register of the executing core (R311), or the host completes the request for a key with an error (R321). -/
inductive Cause where
  | store (k : Nat)
  | register
  | host (k : Nat)
  deriving DecidableEq, Repr

/-- A fault: its code (R310), address and other DETAIL bits, and a cause that leaves a trace of its own; a trap (R181); or
no fault yet: a fabric port holds the request, and what made it waits (R329). -/
inductive Exc where
  | fault (code : Nat) (addr : W64) (detail : Nat)
  | caused (c : Cause) (code : Nat) (addr : W64) (detail : Nat)
  | trap (n : Fin 32) (x : W64)
  | hold (r : Request)
  deriving DecidableEq, Repr

/-- ILLEGAL (R310). -/
abbrev illegal : Exc := .fault 1 0 0
/-- PRIV (R310). -/
abbrev privExc : Exc := .fault 2 0 0
/-- ALIGN (R310). -/
abbrev align (a : W64) : Exc := .fault 3 a 0
/-- ACCESS (R310). -/
abbrev access (a : W64) : Exc := .fault 5 a 0
/-- FORMAT (R310). -/
abbrev format (a : W64) : Exc := .fault 6 a 0
/-- RING (R310). -/
abbrev ringExc : Exc := .fault 7 0 0
/-- POISON (R310). -/
abbrev poisonExc (a : W64) : Exc := .fault 8 a 0
/-- UNCORRECTABLE (R310), of an error consumed at a key. -/
abbrev uncorrectable (k : Nat) (a : W64) : Exc := .caused (.store k) 9 a 0
/-- UNCORRECTABLE of a register (R311). -/
abbrev registerExc : Exc := .caused .register 9 0 0

/-- A fault's code and address, for a record (R310). -/
def Exc.codeAddr : Exc → Nat × W64
  | .fault code a _ => (code, a)
  | .caused _ code a _ => (code, a)
  | _ => (5, 0)
/-- A fault's other DETAIL bits, for a record: those of a translation fault (R304, R305). -/
def Exc.more : Exc → Nat
  | .fault _ _ d => d
  | .caused _ _ _ d => d
  | _ => 0
/-- A fault reported at another address, or with other DETAIL bits. -/
def Exc.at_ (e : Exc) (f : W64 → Nat → W64 × Nat) : Exc :=
  match e with
  | .fault c a d => .fault c (f a d).1 (f a d).2
  | .caused k c a d => .caused k c (f a d).1 (f a d).2
  | e => e
/-- A request that a port holds, and no fault. -/
def Exc.holds : Exc → Option Request
  | .hold r => some r
  | _ => none

/-- Rights an access needs (R298). -/
structure Need where
  x  : Bool := false
  w  : Bool := false
  rd : Bool := false
  deriving DecidableEq, Repr

/-- A leaf met by a walk: the translated address, rights, level and page size in bits (R297). -/
structure Leaf where
  out   : Nat
  x     : Bool
  w     : Bool
  rd    : Bool
  u     : Bool
  level : Nat
  bits  : Nat
  deriving DecidableEq, Repr

/-- Why a walk fails (R304): REASON, LEVEL, STAGE, and the stage-1 level whose table was being translated; REASON 4 stands
for a table at or above the installed capacity, which R304 does not number (R325); `lost` is the table line whose error the
walk has consumed (R311). -/
structure WalkFail where
  reason : Nat
  level  : Nat
  stage  : Nat
  nested : Option Nat := none
  lost   : Option Nat := none
  deriving DecidableEq, Repr

/-- The low 11 bits of a translation fault's detail (R304); a table at or above the installed capacity has none (log 89). -/
def WalkFail.detail (f : WalkFail) : Nat :=
  if f.reason = 4 then 0
  else f.stage + f.level * 2 + f.reason * 16 + (match f.nested with | some l => 128 + l * 256 | none => 0)

/-- The code of a failed walk: ACCESS for a missing right or a class mismatch, and for a table at or above the installed
capacity (R325); else XLATE (R304). -/
def WalkFail.code (f : WalkFail) : Nat := if f.reason = 3 ∨ f.reason = 4 then 5 else 4

/-- The fault of a failed walk (R304). -/
def WalkFail.exc (f : WalkFail) (va : W64) : Exc :=
  match f.lost with
  | some k => .caused (.store k) f.code va f.detail
  | none => .fault f.code va f.detail

/-- A table line that a walk cannot use: its error, or its poison (R304). -/
def State.tableBad (s : State) (ea : Nat) : Option (Option Nat) :=
  if s.isBad ea then some (some ea) else if s.poisoned ea then some none else none

/-- Lowest bit of the index of a level (R297). -/
def lvlShift : Nat → Nat
  | 0 => 48 | 1 => 39 | 2 => 30 | 3 => 21 | _ => 16
/-- Index width of a level (R297). -/
def lvlBits : Nat → Nat
  | 0 => 8 | 1 => 9 | 2 => 9 | 3 => 9 | _ => 5

/-- An entry that R297 calls MALFORMED: stage2 forbids U; leaves and tables keep their alignment. -/
def malformed (stage2 : Bool) (lvl e : Nat) : Bool :=
  let ty := fld e 0 2
  !(fld e 52 12 == 0) || !(fld e 6 2 == 0) || ty == 3 || (stage2 && fld e 2 1 == 1)
    || (ty == 1 && (lvl == 4 || !(fld e 2 4 == 0) || (decide (lvl < 3) && !(fld e 8 4 == 0))))
    || (ty == 2 && (decide (lvl < 2) || !(fld e 8 (lvlShift lvl - 8) == 0)))

/-- The leaf of an entry. -/
def leafOf (lvl e ia : Nat) : Leaf :=
  { out := e / 2 ^ lvlShift lvl * 2 ^ lvlShift lvl % 2 ^ 52 + ia % 2 ^ lvlShift lvl
    x := fld e 5 1 == 1, w := fld e 4 1 == 1, rd := fld e 3 1 == 1, u := fld e 2 1 == 1
    level := lvl, bits := lvlShift lvl }

/-- A stage-2 walk from a table at a PA (R297, R304). -/
def State.walk2 (s : State) (ia : Nat) : Nat → Nat → Nat → Except WalkFail Leaf
  | 0, lvl, _ => .error { reason := 1, level := lvl, stage := 1 }
  | f + 1, lvl, base =>
    let ea := base + fld ia (lvlShift lvl) (lvlBits lvl) * 8
    if isExt ea then .error { reason := 1, level := lvl, stage := 1 }
    else if s.capacity ≤ ea then .error { reason := 4, level := lvl, stage := 1 }
    else
      match s.tableBad ea with
      | some l => .error { reason := 2, level := lvl, stage := 1, lost := l }
      | none =>
        let e := Mem.readN s.mem ea 8
        if fld e 0 2 = 0 then .error { reason := 0, level := lvl, stage := 1 }
        else if malformed true lvl e then .error { reason := 1, level := lvl, stage := 1 }
        else if fld e 0 2 = 2 then .ok (leafOf lvl e ia)
        else s.walk2 ia f (lvl + 1) (fld e 8 44 * 2 ^ 8)

/-- Stage 2 of a partition (R296, R298). -/
def State.stage2 (s : State) (part ipa : Nat) : Except WalkFail Leaf :=
  if bf (s.part part).ttbH 0 1 = 0 then .error { reason := 0, level := 0, stage := 1 }
  else s.walk2 ipa 5 0 (bf (s.part part).ttbH 11 41 * 2 ^ 11)

/-- The aligned block of a leaf around an address: base and size (R297, R302). -/
def Leaf.block (l : Leaf) (a : Nat) : Nat × Nat := (a / 2 ^ l.bits * 2 ^ l.bits, 2 ^ l.bits)

/-- A stage-1 walk from a table at an IPA, each table address translated through stage 2 with Rd (R297): the leaf, and the
stage-2 blocks its tables were read through. -/
def State.walk1 (s : State) (part va : Nat) : Nat → Nat → Nat → Except WalkFail (Leaf × List (Nat × Nat))
  | 0, lvl, _ => .error { reason := 1, level := lvl, stage := 0 }
  | f + 1, lvl, base =>
    let ea := base + fld va (lvlShift lvl) (lvlBits lvl) * 8
    match s.stage2 part ea with
    | .error e => .error { e with nested := some lvl }
    | .ok t =>
      if !t.rd then .error { reason := 3, level := t.level, stage := 1, nested := some lvl }
      else if isExt t.out then .error { reason := 1, level := lvl, stage := 0 }
      else if s.capacity ≤ t.out then .error { reason := 4, level := lvl, stage := 0 }
      else
        match s.tableBad t.out with
        | some l => .error { reason := 2, level := lvl, stage := 0, lost := l }
        | none =>
          let e := Mem.readN s.mem t.out 8
          if fld e 0 2 = 0 then .error { reason := 0, level := lvl, stage := 0 }
          else if malformed false lvl e then .error { reason := 1, level := lvl, stage := 0 }
          else if fld e 0 2 = 2 then .ok (leafOf lvl e va, [t.block ea])
          else
            match s.walk1 part va f (lvl + 1) (fld e 8 44 * 2 ^ 8) with
            | .error e => .error e
            | .ok r => .ok (r.1, t.block ea :: r.2)

/-- Stage 1 of a partition (R296, R298). -/
def State.stage1 (s : State) (part va : Nat) : Except WalkFail (Leaf × List (Nat × Nat)) :=
  if bf (s.part part).ttbS 0 1 = 0 then .error { reason := 0, level := 0, stage := 0 }
  else s.walk1 part va 5 0 (bf (s.part part).ttbS 11 41 * 2 ^ 11)

/-- The aperture range of R50. -/
def inAperture (va : Nat) : Bool := decide (2 ^ 55 ≤ va) && decide (va < 2 ^ 56)
/-- The device-memory range of R50. -/
def inDevice (va : Nat) : Bool := decide (2 ^ 40 ≤ va) && decide (va < 2 ^ 55)

/-- Whether both leaves give the rights an access needs; `user` access needs U of stage 1 (R298). -/
def rightsOk (n : Need) (user x w rd u : Bool) : Bool := (!n.x || x) && (!n.w || w) && (!n.rd || rd) && (!user || u)

/-- The combined translation of a VA by both walks (R298), as a TLB entry covering the smaller page (R299). -/
def State.walk (s : State) (part va : Nat) : Except WalkFail (Tlb × Leaf × Leaf) :=
  match s.stage1 part va with
  | .error e => .error e
  | .ok (l1, ts) =>
    match s.stage2 part l1.out with
    | .error e => .error e
    | .ok l2 =>
      let b := min l1.bits l2.bits
      .ok ({ part := part, va := va / 2 ^ b * 2 ^ b, size := 2 ^ b, ipa := l1.out / 2 ^ b * 2 ^ b,
             pa := l2.out / 2 ^ b * 2 ^ b, x := l1.x && l2.x, w := l1.w && l2.w, rd := l1.rd && l2.rd, u := l1.u,
             lvl := l2.level, tables := ts },
           l1, l2)

/-- A TLB entry of a partition that covers a VA with the rights needed (R299). -/
def tlbHit (tlb : List Tlb) (part va : Nat) (n : Need) (user : Bool) : Option Tlb :=
  tlb.find? fun e => e.part == part && decide (e.va ≤ va) && decide (va < e.va + e.size)
    && rightsOk n user e.x e.w e.rd e.u

/-- UNCORRECTABLE of n bytes of a line, at an address (R311). -/
def State.lost (s : State) (k n : Nat) (a : W64) : Exc := uncorrectable (s.badKey k n) a

/-- A fabric port (R328). -/
def State.port (s : State) (p : Nat) : Port := s.ports.getD p {}

/-- The request for a key that a port holds or has not answered, when it is tried again (R329). -/
def State.askedFor (s : State) (key : Nat) : Option Request := s.asked.filter fun q => q.key == key

/-- A request has been outstanding or held for longer than the fabric timeout (R329). -/
def State.timedOut (s : State) (q : Request) : Bool := decide (q.since + s.fabricLimit < s.clock)

/-- The requests that a core's sequencers and commands have made of fabric ports and wait for. -/
def Core.requests (c : Core) : List Request :=
  [c.k, c.l, c.c, c.st].filterMap (·.held) ++ (c.lq.cmds ++ c.sq.cmds ++ c.mq.cmds).filterMap (·.held)

/-- Every request that a fabric port holds or has not answered (R329). -/
def State.requests (s : State) : List Request :=
  s.cores.flatMap (fun e => e.2.requests) ++ s.hearths.filterMap (fun e => e.2.seq.held)
    ++ s.disp.pool.filterMap (fun e => e.2.held)
    ++ s.qps.flatMap (fun e => e.2.works.filterMap (·.held))

/-- A request to a fabric port (R327, R329): an UP port starts it, and its peer may leave it without an answer; a port that
is not UP holds it, but a DRAINING one completes what it had started; for longer than the fabric timeout it fails. -/
def State.portRequest (s : State) (n key : Nat) (v : W64) (via : Option Tlb) : Except Exc Unit :=
  let mine := s.askedFor key
  let begun := (s.port n).state == 2 || mine.any fun q => q.begun
  if mine.any s.timedOut then .error (access v)
  else if ((s.port n).state = 2 ∨ ((s.port n).state = 3 ∧ begun = true)) ∧ Config.peerSlow s.free key = false then .ok ()
  else .error (.hold { va := v, key := key, begun := begun, via := via, since := (mine.map fun q => q.since).getD s.clock })

/-- A request to an external target by its key (R298, R321, R327, R329): a host request may complete with an error. -/
def State.extRequest (s : State) (key : Nat) (v : W64) (via : Option Tlb) : Except Exc Nat :=
  let n := extTarget key
  if 16 < fld key 46 5 then .error (access v)
  else if n = 16 then (if Config.hostError s.free key then .error (.caused (.host key) 5 v 0) else .ok key)
  else
    match s.portRequest n key v via with
    | .ok () => .ok key
    | .error e => .error e

/-- The request that a port holds for an address, with the translation it was looked up by: it is in flight, and completes
under that translation (R303). -/
def State.inFlight (s : State) (part va : Nat) (n : Need) (user : Bool) : Option (Request × Tlb) :=
  match s.asked with
  | some q => (match q.via with
    | some e => if q.va.toNat = va ∧ e.part = part ∧ rightsOk n user e.x e.w e.rd e.u = true then some (q, e) else none
    | none => none)
  | none => none

/-- The physical address of a VA, from the unit's TLB or by a walk, checked for the rights, the address class and
the installed capacity (R298, R56). -/
def State.translate (s : State) (tlb : List Tlb) (part va : Nat) (n : Need) (user : Bool) : Except Exc Nat :=
  let v : W64 := BitVec.ofNat 64 va
  let check (e : Tlb) : Except Exc Nat :=
    let pa := e.pa + (va - e.va)
    if inAperture va != isExt pa then .error (WalkFail.exc { reason := 3, level := e.lvl, stage := 1 } v)
    else if isExt pa then s.extRequest (extKey part pa) v (some e)
    else if s.capacity ≤ pa then .error (access v)
    else .ok pa
  match s.inFlight part va n user, tlbHit tlb part va n user with
  | some (q, e), _ => s.extRequest q.key v (some e)
  | none, some e => check e
  | none, none =>
    match s.walk part va with
    | .error e => .error (e.exc v)
    | .ok (e, l1, l2) =>
      if !rightsOk n user l1.x l1.w l1.rd l1.u then
        .error (WalkFail.exc { reason := 3, level := l1.level, stage := 0 } v)
      else if !rightsOk n false l2.x l2.w l2.rd true then
        .error (WalkFail.exc { reason := 3, level := l2.level, stage := 1 } v)
      else check e

/-- The cluster of core g (R12). -/
def cidOf (g : Nat) : Nat := g / 128
/-- The number of core g within its cluster (R12). -/
def corOf (g : Nat) : Nat := g % 128

/-- The half of a core's scratchpad under preload (R142). -/
def State.underPreload (s : State) (g x : Nat) : Bool :=
  match (s.core g).preload with
  | some (half, _) => (decide (2 ^ 19 ≤ x)) == half
  | none => false

/-- The partition whose node runs on a core (R52). -/
def State.runsPart (s : State) (g : Nat) : Option Nat := (s.core g).ctx.map (·.part)

/-- Whether a confined kernel may touch byte x of its own scratchpad (R142). -/
def Ctx.confined (c : Ctx) (x : Nat) : Bool :=
  match c.confine with
  | some half => decide (2 ^ 19 ≤ x) == half
  | none => true

/-- Whether a partition owns the shared-memory slice of an offset (R55). -/
def State.ownsSlice (s : State) (part x : Nat) : Bool := (s.part part).pslc.getLsbD (x / 2 ^ 24)

/-- Where an agent of compute core g reaches an address, with the checks of R50, R52, R55, R142 and R298. -/
def State.resolve (s : State) (g : Nat) (va : W64) (n : Need) : Except Exc Nat :=
  let a := va.toNat
  let ctx := (s.core g).ctx.getD {}
  if a < 2 ^ 20 then
    if !ctx.confined a || s.underPreload g a then .error (access va) else .ok (spadKey g a)
  else if 0x1000000 ≤ a ∧ a < 0x9000000 then
    let g' := cidOf g * 128 + (a - 0x1000000) / 2 ^ 20
    let x := (a - 0x1000000) % 2 ^ 20
    if g' = g then
      if !ctx.confined x || s.underPreload g x then .error (access va) else .ok (spadKey g x)
    else
      match s.runsPart g' with
      | some p => if p = ctx.part ∧ s.underPreload g' x = false then .ok (spadKey g' x) else .error (access va)
      | none => if s.underPreload g' x then .error (access va) else .ok (spadKey g' x)
  else if 2 ^ 32 ≤ a ∧ a < 2 ^ 32 + 2 ^ 29 then
    if s.ownsSlice ctx.part (a - 2 ^ 32) then .ok (sharedKey (a - 2 ^ 32)) else .error (access va)
  else if inDevice a || inAperture a then s.translate (s.cluster (cidOf g)).tlb ctx.part a n true
  else .error (access va)

/-- Where a hearth core reaches an address: at H the address is physical (R298); at S and U the map of R50 for partition
HPART, which gives a hearth core no scratchpad or window. -/
def State.hresolve (s : State) (h : Nat) (va : W64) (n : Need) : Except Exc Nat :=
  let a := va.toNat
  let x := s.hearth h
  if x.lv = 2 then
    if 2 ^ 52 ≤ a then .error (access va)
    else if isExt a then s.extRequest a va none
    else if s.capacity ≤ a then .error (access va)
    else .ok a
  else if 2 ^ 32 ≤ a ∧ a < 2 ^ 32 + 2 ^ 29 then
    if s.ownsSlice x.hpart (a - 2 ^ 32) then .ok (sharedKey (a - 2 ^ 32)) else .error (access va)
  else if inDevice a || inAperture a then s.translate x.tlb x.hpart a n (x.lv == 0)
  else .error (access va)

/-- Where a sequencer reaches an address. -/
def State.resolveFor (s : State) (w : Who) (va : W64) (n : Need) : Except Exc Nat :=
  match w with
  | .core g _ => s.resolve g va n
  | .hearth h => s.hresolve h va n

/-- Where an agent that belongs to no core reaches an address for a partition: the dispatcher, the proofer, the CSQ
(R298). A cluster's TLB serves it where it has one. -/
def State.resolvePart (s : State) (part : Nat) (va : W64) (n : Need) : Except Exc Nat :=
  let a := va.toNat
  if 2 ^ 32 ≤ a ∧ a < 2 ^ 32 + 2 ^ 29 then
    if s.ownsSlice part (a - 2 ^ 32) then .ok (sharedKey (a - 2 ^ 32)) else .error (access va)
  else if inDevice a || inAperture a then s.translate [] part a n true
  else .error (access va)

end Sys2Proof.Machine
end

