-- ==== Sys2Proof/Machine/Access.lean ====
section
/-! DEFINITION. Reads and writes of memory by key: bytes, numbers and lines, the marks of armed ingest checks (R326), what
an idle island's accesses ask for (R337), and the posting of records (R308). -/

namespace Sys2Proof.Machine

/-! ### Islands and ingest marks -/

/-- The island of a cluster (R336). -/
def islandOf (c : Nat) : Nat := 7 * (c / 4) + c % 4
/-- An island (R336). -/
def State.island (s : State) (i : Nat) : Island := s.islands.getD i {}
/-- Replaces an island. -/
def State.setIsland (s : State) (i : Nat) (x : Island) : State := { s with islands := s.islands.set i x }

/-- An island that runs again. -/
def Island.woken (x : Island) : Island := { x with state := 2, target := 2, asked := none }

/-- The island that a key's byte stands on, or is reached through (R336). -/
def State.keyIsland (s : State) (k : Nat) : Nat :=
  if isExt k then (if extTarget k = 16 then 31 else 30)
  else if isSpad k then islandOf (cidOf (spadCore k))
  else if isShared k then 7 * ((k - 2 ^ 53) / 2 ^ 27) + 4
  else if isChunk k then 29
  else 7 * (s.linkOf k / 8) + 5

/-- A dispatch, an access or an event for an idle island asks it to run (R337). -/
def State.askIsland (s : State) (i : Nat) : State :=
  let x := s.island i
  if x.state = 1 ∧ x.asked.isNone = true then s.setIsland i { x with asked := some s.clock } else s
/-- An access to a byte, for the island it stands on. -/
def State.wakeKey (s : State) (k : Nat) : State := s.askIsland (s.keyIsland k)

/-- A line, by its address in a partition, is not the one that holds a key. -/
def State.unmarked (s : State) (part k va : Nat) : Bool :=
  match s.resolvePart part (BitVec.ofNat 64 va) { rd := true } with
  | .ok l => !(l / 256 == k / 256)
  | .error _ => true

/-- A write has reached a line: armed ingest checks mark it, at whatever address it now translates from (R326). -/
def State.marked (s : State) (k : Nat) : State :=
  if s.ingest.isEmpty then s
  else { s with ingest := s.ingest.map fun i => { i with left := i.left.filter (s.unmarked i.part k) } }

/-! ### Fault queues (R308, R309) -/

/-- A record is posted to cluster c's fault queue in partition p: it is written at the end of the cycle, in the order of
R309. -/
def State.postTo (s : State) (p c : Nat) (r : Record) : State :=
  { s with due := s.due ++ [{ part := p, cluster := c, record := r }] }

/-- A PREDICT record sets PF, which stands until the record, or the one before which it was lost, is drained (R286,
R315). -/
def State.markPf (s : State) (p : Nat) (r : Record) (seqNo : Nat) : State :=
  if r.cls = 3 then s.setPart p { s.part p with pf := some seqNo } else s

/-- Posts a record to the fault queue of a cluster, if a partition owns it (R308). -/
def State.post (s : State) (c : Nat) (r : Record) : State :=
  match s.partOf c with
  | some p => s.postTo p c r
  | none => s

/-- Posts a record to the lowest-numbered cluster of every partition that is not EMPTY (R315). -/
def State.postAll (s : State) (r : Record) : State :=
  (List.range numParts).foldl (fun s p => if (s.part p).pstate == 0 then s else s.postTo p (s.lowCluster p) r) s

/-- A write through a FAILED link is discarded, with a NOTE record (R325). -/
def State.lostWrite (s : State) (k : Nat) : State :=
  s.postAll { cls := 2, code := 9, unit := 12, index := s.linkOf k, addr := k }

/-! ### Accesses -/

/-- The faults of a load of n bytes of a line: UNCORRECTABLE and POISON (R179 item 5, R311). Of a poisoned line with an
error in those bytes UNCORRECTABLE is raised, the model's choice (log 91). -/
def State.loadFault (s : State) (k n : Nat) (va : W64) : Option Exc :=
  if s.badIn k n then some (s.lost k n va) else if s.poisoned k then some (poisonExc va) else none

/-- A request to an external target to read n bytes (R298, R321). -/
def State.askExt (s : State) (k n : Nat) : State :=
  { s with free := s.free + 1, sent := s.sent ++ [.extRead (extFn k) (extTarget k) (extAddr k) n] }
/-- A request to an external target to write bytes; a line carries its side band (R53, R220). -/
def State.sendExt (s : State) (k : Nat) (bs : List Byte) (side : Option W32) : State :=
  { s with sent := s.sent ++ [.extWrite (extFn k) (extTarget k) (extAddr k) bs side] }

/-- Loads n bytes; an external target answers with a free value (log 15). -/
def State.load (s : State) (k n : Nat) : Nat × State :=
  let t := s.wakeKey k
  if isExt k then (ofBytes ((List.range n).map fun i => Config.extByte s.free (k + i)), t.askExt k n)
  else (Mem.readN s.mem k n, t)

/-- Stores the n low bytes of a number; a store to an external target is sent there (R298). -/
def State.store (s : State) (k n v : Nat) : State :=
  let s := s.wakeKey k
  if isExt k then s.sendExt k (toBytes n v) none
  else if isDev k then
    if s.linkFailed (s.linkOf k) then s.lostWrite k
    else ({ s with mem := Mem.writeN s.mem k n v }).marked k
  else { s with mem := Mem.writeN s.mem k n v }

/-- The 256 bytes of a line. -/
def State.line (s : State) (k : Nat) : List Byte × State :=
  let t := s.wakeKey k
  if isExt k then ((List.range 256).map fun i => Config.extByte s.free (k + i), t.askExt k 256)
  else (Mem.bytes s.mem k 256, t)

/-- Writes a whole line with its side band (R54), which removes a pending error (R311). -/
def State.setLine (s : State) (k : Nat) (bs : List Byte) (sb : W32) : State :=
  let s := s.wakeKey k
  if isExt k then s.sendExt k bs (some sb)
  else if isDev k then
    if s.linkFailed (s.linkOf k) then s.lostWrite k
    else ((({ s with mem := Mem.writeBytes s.mem k bs }).setSide k sb).mend k).marked k
  else (({ s with mem := Mem.writeBytes s.mem k bs }).setSide k sb).mend k

/-- The same, where the line may lie in the chunk buffers, which have no side band. -/
def State.setAnyLine (s : State) (k : Nat) (bs : List Byte) (sb : W32) : State :=
  if isChunk k then ({ s.wakeKey k with mem := Mem.writeBytes s.mem k bs }).mend k else s.setLine k bs sb

end Sys2Proof.Machine
end

