-- ==== Sys2Proof/Machine/Bucket.lean ====
section
/-! DEFINITION. Leaky buckets and predictive-failure records (R314, R315), the parameters that the signed
configuration record sets (R333), and the writing of records to fault queues (R309). -/

namespace Sys2Proof.Machine

/-- The group of parameters of a resource: scratchpad bank, link lane, bank unit, cluster (R333). -/
def bucketGroup : Bucket → Nat
  | .bank _ _ => 0
  | .lane _ _ => 1
  | .port _ _ => 1
  | .ucie _ _ => 1
  | .unit _ => 2
  | .cluster _ => 3

/-- The event kinds of R314. -/
inductive Mishap where
  | corrected | uncorrectable | replay | kat | watchdog | retrain
  deriving DecidableEq, Repr

/-- Its place among the six FILL bytes (R333). -/
def Mishap.idx : Mishap → Nat
  | .corrected => 0 | .uncorrectable => 1 | .replay => 2 | .kat => 3 | .watchdog => 4 | .retrain => 5

/-- FILL of an event kind (R314, R333). -/
def State.fillOf (s : State) (b : Bucket) (k : Mishap) : Nat := s.cfgField (64 + 10 * bucketGroup b + k.idx) 1
/-- LEAK per millisecond. -/
def State.leakOf (s : State) (b : Bucket) : Nat := s.cfgField (64 + 10 * bucketGroup b + 6) 2
/-- MARK. -/
def State.markOf (s : State) (b : Bucket) : Nat := s.cfgField (64 + 10 * bucketGroup b + 8) 2

/-- The bucket of a resource: level 0 and armed until an event fills it (R314). -/
def State.bucket (s : State) (b : Bucket) : Leak := ((s.buckets.find? fun e => e.1 == b).map (·.2)).getD {}
/-- Replaces a bucket. -/
def State.setBucket (s : State) (b : Bucket) (x : Leak) : State :=
  { s with buckets := (b, x) :: s.buckets.filter fun e => !(e.1 == b) }

/-- UNIT, INDEX, CID and COR of the records about a resource (R305, R306); for a bank and a cluster UNIT and INDEX are
free values (log 26). -/
def bucketSource (free : Nat) : Bucket → Nat × Nat × Nat × Nat
  | .bank g _ => ((Config.predictUnit free).1 % 15, (Config.predictUnit free).2 % 2 ^ 14, cidOf g, corOf g)
  | .lane l _ => (12, l, 0, 0)
  | .port p _ => (14, p, 0, 0)
  | .ucie l _ => (14, 16 + l, 0, 0)
  | .unit u => (10, u, 0, 0)
  | .cluster c => ((Config.predictUnit free).1 % 15, (Config.predictUnit free).2 % 2 ^ 14, c, 0)

/-- Whether a partition owns a resource (R315); links, UCIe links and unowned ones report to every partition. -/
def State.ownsBucket (s : State) (p : Nat) : Bucket → Bool
  | .bank g _ => s.owns p (cidOf g)
  | .cluster c => s.owns p c
  | .unit u => !((s.part p).pstate == 0) && (List.range 32).any fun i => decide (i / 8 = u / 512) && (s.part p).pslc.getLsbD i
  | .port q _ => !((s.part p).pstate == 0) && (s.part p).pport.getLsbD q
  | .lane _ _ => false
  | .ucie _ _ => false

/-- Posts a PREDICT record where R315 routes it; its code is a free value among R310's but SPEC_HELD, which is
always of class NOTE (log 26). -/
def State.predict (s : State) (b : Bucket) (level mark : Nat) : State :=
  let (u, i, c, k) := bucketSource s.free b
  let code := Config.predictCode s.free % 18 + 1
  let r : Record := { cls := 3, code := code, unit := u, index := i, cid := c, cor := k, detail := level + mark * 2 ^ 16 }
  let live := (List.range numParts).filter fun p => !((s.part p).pstate == 0)
  let own := live.filter fun p => s.ownsBucket p b
  let s := (if own.isEmpty then live else own).foldl (fun s p => s.postTo p (s.lowCluster p) r) { s with free := s.free + 1 }
  if own.isEmpty then { s with sent := s.sent ++ [.pldm (toBytes 32 (r.bits 0))] } else s

/-- The tests of R314 after a change of the level. -/
def State.settleBucket (s : State) (b : Bucket) (level : Nat) : State :=
  let x := s.bucket b
  let m := s.markOf b
  if x.armed && decide (0 < m) && decide (m ≤ level) then
    let s := (s.setBucket b { level := level, armed := decide (level < m / 2) })
    s.predict b level m
  else s.setBucket b { level := level, armed := x.armed || decide (level < m / 2) }

/-- Adds to the sum of a bucket's events of the cycle. -/
def addFill (b : Bucket) (n : Nat) : List (Bucket × Nat) → List (Bucket × Nat)
  | [] => [(b, n)]
  | e :: es => if e.1 = b then (b, e.2 + n) :: es else e :: addFill b n es

/-- An event fills the bucket of a resource (R314): the events of one cycle are applied together, at its end. -/
def State.fill (s : State) (b : Bucket) (k : Mishap) : State := { s with fills := addFill b (s.fillOf b k) s.fills }

/-- The bucket of a store that holds a key: bank, bank unit, or the lane of its link (R51, R55, R56); the chunk buffers have
none (R314). -/
def State.keyBucket (s : State) (k : Nat) : Option Bucket :=
  if isSpad k then
    let x := (k - 2 ^ 52) % 2 ^ 20
    some (.bank (spadCore k) (fld x 19 1 * 32 + fld x 8 5))
  else if isShared k then some (.unit ((k - 2 ^ 53) / 2 ^ 27 * 512 + fld (k - 2 ^ 53) 8 9))
  else if isDev k then some (.lane (s.linkOf k) (Config.errorLane s.free (s.linkOf k)))
  else none

/-- An uncorrectable error in the store of a key is consumed: it fills the store's bucket (R311, R314). -/
def State.consume (s : State) (k : Nat) : State :=
  match s.keyBucket k with
  | some b => { s with free := s.free + 1 }.fill b .uncorrectable
  | none => s

/-- The trace of a fault's cause: an error consumed fills its bucket, of a register of a core its cluster's (R311, R314); a
request that the host has completed with an error was made (R321). -/
def State.traced (s : State) (e : Exc) : State :=
  match e with
  | .caused (.store k) _ _ _ => s.consume k
  | .caused .register _ _ _ =>
    (match s.cur with
      | .core g _ => s.fill (.cluster (cidOf g)) .uncorrectable
      | .hearth _ => s)
  | .caused (.host k) _ _ _ => { s with sent := s.sent ++ [.extFailed (extFn k) (extTarget k) (extAddr k)] }
  | _ => s

/-- The events of the cycle are applied (R314). -/
def State.settleFills (s : State) : State :=
  s.fills.foldl (fun s e => s.settleBucket e.1 (min 65535 ((s.bucket e.1).level + e.2))) { s with fills := [] }

/-- A millisecond boundary of one bucket (R314). -/
def State.leak (s : State) (b : Bucket) : State := s.settleBucket b ((s.bucket b).level - s.leakOf b)

/-! ### Writing a record (R309) -/

/-- Reads n bytes of a fault queue: a free value in place of what an error, or a failed link, gives (R311, R325, log 97). -/
def State.queueRead (s : State) (k n : Nat) : Nat × State :=
  if s.badIn k n then
    (ofBytes ((List.range n).map fun i => Config.extByte s.free (k + i)), { s.consume (s.badKey k n) with free := s.free + 2 })
  else (Mem.readN s.mem k n, s)

/-- The record of a write that a failed link has lost (R325). -/
def Record.ofLostWrite (r : Record) : Bool := r.cls == 2 && r.code == 9 && r.unit == 12

/-- Writes n bytes of a fault queue for a record: a mark for armed ingest checks (R326); on a failed link it is lost, with a
NOTE record, but for such a record itself (R325, log 97). -/
def State.queueWrite (s : State) (r : Record) (k n v : Nat) : State :=
  let s := s.wakeKey k
  if s.linkFailed (s.linkOf k) then (if r.ofLostWrite then s else s.lostWrite k)
  else ({ s with mem := Mem.writeN s.mem k n v }).marked k

/-- Writes a record to cluster c's fault queue in partition p: a full queue counts it in LOST (R309). -/
def State.writeRecord (s : State) (p c : Nat) (r : Record) : State :=
  let q := s.faultQueue p c
  let (prod, s) := s.queueRead q 8
  let (cons, s) := s.queueRead (q + 8) 8
  if 2040 ≤ (prod + 2 ^ 64 - cons) % 2 ^ 64 then
    let (lost, s) := s.queueRead (q + 16) 8
    (s.queueWrite r (q + 16) 8 (lost + 1)).markPf p r ((prod + 2 ^ 64 - 1) % 2 ^ 64)
  else ((s.queueWrite r (q + 256 + 32 * (prod % 2040)) 32 (r.bits prod)).queueWrite r q 8 (prod + 1)).markPf p r prod

end Sys2Proof.Machine
end

