-- ==== Sys2Proof/Machine/Fp.lean ====
section
/-! DEFINITION. Floating point: binary32 and BF16 values, rounding once to either with the IEEE 754 flags, exact
sums, products and quotients, and the arithmetic of the matrix path (R32, R33, R37, R43, R45, R195). -/

namespace Sys2Proof.Machine

/-- A floating value: NaN, signalling or not; an infinity; or (-1)^neg x m x 2^e. -/
inductive Num where
  | nan (signalling : Bool)
  | inf (neg : Bool)
  | fin (neg : Bool) (m : Nat) (e : Int)
  deriving DecidableEq, Repr

/-- How a vector operation rounds (R45): RM, FTZ, and whether the format is BF16. -/
structure Mode where
  rm  : Nat := 0
  ftz : Bool := false
  bf  : Bool := false
  deriving DecidableEq, Repr

/-- Round to nearest, ties to even, binary32 (R7). -/
def rneF32 : Mode := {}
/-- Round to nearest, ties to even, BF16 (R7). -/
def rneBf16 : Mode := { bf := true }

/-- Flag NV, in the order of FPCR bits 13:8 (R45). -/
abbrev fNV : Nat := 1
/-- Flag DZ. -/
abbrev fDZ : Nat := 2
/-- Flag OF. -/
abbrev fOF : Nat := 4
/-- Flag UF. -/
abbrev fUF : Nat := 8
/-- Flag NX. -/
abbrev fNX : Nat := 16
/-- Flag VOID. -/
abbrev fVOID : Nat := 32

/-- A result: the lane's bits (BF16 in bits 31:16, R191) and the flags raised. -/
structure Res where
  bits  : Nat
  flags : Nat := 0
  deriving DecidableEq, Repr

/-- Fraction bits of the format (R32). -/
def Mode.frac (m : Mode) : Nat := if m.bf then 7 else 23

/-- The value of a binary32 pattern (R32). -/
def ofBits (x : Nat) : Num :=
  let sgn := fld x 31 1 == 1
  let ex := fld x 23 8
  let fr := fld x 0 23
  if ex = 255 then (if fr = 0 then .inf sgn else .nan (fld fr 22 1 == 0))
  else if ex = 0 then .fin sgn fr (-149)
  else .fin sgn (2 ^ 23 + fr) ((ex : Int) - 150)

/-- A lane's value in a format: BF16 ignores bits 15:0 (R191). -/
def ofLane (bf : Bool) (x : W32) : Num := if bf then ofBits (x.toNat / 2 ^ 16 * 2 ^ 16) else ofBits x.toNat

/-- The canonical quiet NaN (R33). -/
abbrev canonNan : Nat := 0x7FC00000
/-- An infinity. -/
def infBits (neg : Bool) : Nat := neg.toNat * 2 ^ 31 + 0x7F800000
/-- A zero. -/
def zeroBits (neg : Bool) : Nat := neg.toNat * 2 ^ 31

/-- A subnormal input reads as zero of its sign under FTZ (R195). -/
def flushIn (ftz : Bool) (x : Num) : Num :=
  match x with
  | .fin n m e => if ftz && decide (m < 2 ^ 23) && decide (e = -149) then .fin n 0 e else x
  | _ => x

/-- `rd` of R195. -/
def Mode.rd (md : Mode) (x : W32) : Num := flushIn md.ftz (ofLane md.bf x)

/-- Whether a quotient n with a remainder is rounded away from zero. -/
def roundsUp (rm : Nat) (neg : Bool) (n rem half : Nat) (sticky : Bool) : Bool :=
  match rm with
  | 0 => decide (half < rem) || (rem == half && (sticky || n % 2 == 1))
  | 1 => false
  | 2 => !neg && (!(rem == 0) || sticky)
  | _ => neg && (!(rem == 0) || sticky)

/-- (m + d) x 2^e, with 0 < d < 1 when sticky and d = 0 otherwise, as a multiple of 2^q: the rounded multiple, and
whether it is inexact. -/
def roundAt (rm : Nat) (neg : Bool) (m : Nat) (e q : Int) (sticky : Bool) : Nat × Bool :=
  if q ≤ e then (m * 2 ^ (e - q).toNat, sticky)
  else
    let k := (q - e).toNat
    let n := m / 2 ^ k
    let rem := m % 2 ^ k
    (n + (roundsUp rm neg n rem (2 ^ (k - 1)) sticky).toNat, !(rem == 0) || sticky)

/-- `wr` of R195 for a non-zero finite value (m + d) x 2^e: rounded once to the format, with OF, UF (tiny after
rounding and inexact), NX and the flush of a subnormal result. -/
def Mode.round (md : Mode) (neg : Bool) (m : Nat) (e : Int) (sticky : Bool) : Res :=
  let fr := md.frac
  let top : Int := e + Nat.log2 m
  let q := max top (-126) - fr
  let r := roundAt md.rm neg m e q sticky
  let up := decide (2 ^ (fr + 1) ≤ r.1)
  let n := if up then r.1 / 2 else r.1
  let q := if up then q + 1 else q
  let sgn := neg.toNat * 2 ^ 31
  let nx := if r.2 then fNX else 0
  if 127 < q + fr ∧ 2 ^ fr ≤ n then
    let toInf := md.rm == 0 || (md.rm == 2 && !neg) || (md.rm == 3 && neg)
    { bits := if toInf then infBits neg else sgn + (254 * 2 ^ fr + (2 ^ fr - 1)) * 2 ^ (23 - fr), flags := fOF + fNX }
  else if n < 2 ^ fr then
    let tiny := !(decide (top = -127) &&
      decide (2 ^ (fr + 1) ≤ (roundAt md.rm neg m e (top - fr) sticky).1))
    if md.ftz && !(n == 0) then { bits := sgn, flags := fUF + fNX }
    else { bits := sgn + n * 2 ^ (23 - fr), flags := nx + (if r.2 && tiny then fUF else 0) }
  else
    let tiny := decide (top < -126) && !(decide (top = -127) &&
      decide (2 ^ (fr + 1) ≤ (roundAt md.rm neg m e (top - fr) sticky).1))
    { bits := sgn + ((q + fr + 127).toNat * 2 ^ fr + (n - 2 ^ fr)) * 2 ^ (23 - fr)
      flags := nx + (if r.2 && tiny then fUF else 0) }

/-- `wr` of R195 for an exact value; a zero keeps its sign. -/
def Mode.wr (md : Mode) (x : Num) : Res :=
  match x with
  | .nan _ => { bits := canonNan }
  | .inf n => { bits := infBits n }
  | .fin n m e => if m = 0 then { bits := zeroBits n } else md.round n m e false

/-- The invalid result. -/
def invalid : Res := { bits := canonNan, flags := fNV }

/-- Whether a value is a signalling NaN. -/
def Num.isSig : Num → Bool
  | .nan true => true
  | _ => false
/-- Whether a value is a NaN. -/
def Num.isNan : Num → Bool
  | .nan _ => true
  | _ => false
/-- NV for a signalling input. -/
def sigFlag (b : Bool) : Nat := if b then fNV else 0
/-- The result of an arithmetic operation with a NaN input (R195). -/
def nanRes (sig : Bool) : Res := { bits := canonNan, flags := sigFlag sig }

/-- The opposite value. -/
def Num.neg : Num → Num
  | .nan s => .nan s
  | .inf n => .inf !n
  | .fin n m e => .fin (!n) m e

/-- The signed integer of a finite value in units of 2^q, for q at most its exponent. -/
def scaled (neg : Bool) (m : Nat) (e q : Int) : Int :=
  let v : Int := (m * 2 ^ (e - q).toNat : Nat)
  if neg then -v else v

/-- An exact integer multiple of 2^q as a value; an exact zero takes the sign given. -/
def ofScaled (v : Int) (q : Int) (zeroNeg : Bool) : Num :=
  if v = 0 then .fin zeroNeg 0 q else .fin (decide (v < 0)) v.natAbs q

/-- The sign of an exact zero sum (R196). -/
def zeroSign (rm : Nat) (n1 n2 : Bool) : Bool := if n1 == n2 then n1 else rm == 3

/-- Exact sum; NaN when the infinities differ. -/
def Num.add (rm : Nat) : Num → Num → Num
  | .nan s, _ => .nan s
  | _, .nan s => .nan s
  | .inf n, .inf n' => if n == n' then .inf n else .nan false
  | .inf n, .fin _ _ _ => .inf n
  | .fin _ _ _, .inf n => .inf n
  | .fin n1 m1 e1, .fin n2 m2 e2 =>
    let q := min e1 e2
    ofScaled (scaled n1 m1 e1 q + scaled n2 m2 e2 q) q (zeroSign rm n1 n2)

/-- Exact product; NaN for an infinity times zero. -/
def Num.mul : Num → Num → Num
  | .nan s, _ => .nan s
  | _, .nan s => .nan s
  | .inf n, .inf n' => .inf (n != n')
  | .inf n, .fin n' m _ => if m = 0 then .nan false else .inf (n != n')
  | .fin n' m _, .inf n => if m = 0 then .nan false else .inf (n != n')
  | .fin n1 m1 e1, .fin n2 m2 e2 => .fin (n1 != n2) (m1 * m2) (e1 + e2)

/-- Writes an exact result of two inputs: a NaN result of inputs without a NaN is invalid (R195). -/
def Mode.wr2 (md : Mode) (a b r : Num) : Res :=
  if a.isNan || b.isNan then nanRes (a.isSig || b.isSig)
  else if r.isNan then invalid else md.wr r

/-- `vfp.add` (R196). -/
def fpAdd (md : Mode) (a b : Num) : Res := md.wr2 a b (a.add md.rm b)
/-- `vfp.sub` (R196). -/
def fpSub (md : Mode) (a b : Num) : Res := md.wr2 a b (a.add md.rm b.neg)
/-- `vfp.mul` (R196). -/
def fpMul (md : Mode) (a b : Num) : Res := md.wr2 a b (a.mul b)

/-- `vfma` (R197): a x b + c, rounded once; an infinity times zero is invalid even with a quiet NaN in c. -/
def fpFma (md : Mode) (a b c : Num) : Res :=
  let p := a.mul b
  if !a.isNan && !b.isNan && p.isNan then invalid
  else if a.isNan || b.isNan || c.isNan then nanRes (a.isSig || b.isSig || c.isSig)
  else
    let r := p.add md.rm c
    if r.isNan then invalid else md.wr r

/-- Whether a value without NaN is less than another; -0 and +0 are equal. -/
def Num.lt : Num → Num → Bool
  | .inf n, .inf n' => n && !n'
  | .inf n, .fin _ _ _ => n
  | .fin _ _ _, .inf n' => !n'
  | .fin n1 m1 e1, .fin n2 m2 e2 =>
    let q := min e1 e2
    decide (scaled n1 m1 e1 q < scaled n2 m2 e2 q)
  | _, _ => false

/-- Sign of a value. -/
def Num.sign : Num → Bool
  | .nan _ => false
  | .inf n => n
  | .fin n _ _ => n

/-- `vfp.min` (R196): -0 is less than +0. -/
def fpMin (md : Mode) (a b : Num) : Res :=
  if a.isNan || b.isNan then nanRes (a.isSig || b.isSig)
  else if a.lt b then md.wr a else if b.lt a then md.wr b else if a.sign then md.wr a else md.wr b
/-- `vfp.max` (R196). -/
def fpMax (md : Mode) (a b : Num) : Res :=
  if a.isNan || b.isNan then nanRes (a.isSig || b.isSig)
  else if a.lt b then md.wr b else if b.lt a then md.wr a else if a.sign then md.wr b else md.wr a

/-- The quotient of positive integers with 40 bits or more, its exponent, and whether it is inexact. -/
def quot (n d : Nat) : Nat × Int × Bool :=
  let k := Nat.log2 d + 41
  (n * 2 ^ k / d, -(k : Int), !(n * 2 ^ k % d == 0))

/-- IEEE 754 division (R212). -/
def fpDiv (md : Mode) (a b : Num) : Res :=
  if a.isNan || b.isNan then nanRes (a.isSig || b.isSig)
  else
    let n := a.sign != b.sign
    match a, b with
    | .inf _, .inf _ => invalid
    | .inf _, _ => { bits := infBits n }
    | _, .inf _ => { bits := zeroBits n }
    | .fin _ m1 e1, .fin _ m2 e2 =>
      if m2 = 0 then (if m1 = 0 then invalid else { bits := infBits n, flags := fDZ })
      else if m1 = 0 then { bits := zeroBits n }
      else
        let r := quot m1 m2
        md.round n r.1 (e1 - e2 + r.2.1) r.2.2
    | _, _ => invalid

/-- Integer square root, one bit a step. -/
def isqrtFrom (x : Nat) : Nat → Nat → Nat
  | 0, r => r
  | k + 1, r => let t := r + 2 ^ k; isqrtFrom x k (if t * t ≤ x then t else r)
/-- The integer square root of x. -/
def isqrt (x : Nat) : Nat := isqrtFrom x (Nat.log2 x / 2 + 1) 0

/-- `vsfu.sqrt` (R212). -/
def fpSqrt (md : Mode) (a : Num) : Res :=
  match a with
  | .nan s => nanRes s
  | .inf n => if n then invalid else { bits := infBits false }
  | .fin n m e =>
    if m = 0 then { bits := zeroBits n }
    else if n then invalid
    else
      let odd := (e % 2).toNat
      let x := m * 2 ^ (odd + 80)
      let r := isqrt x
      md.round false r ((e - odd - 80) / 2) (!(r * r == x))

/-- `vsfu.rsqrt` (R212): 1 / sqrt(m x 2^e) = sqrt(2^80 / m) x 2^(-(e + 80) / 2), taken for an even exponent. -/
def fpRsqrt (md : Mode) (a : Num) : Res :=
  match a with
  | .nan s => nanRes s
  | .inf n => if n then invalid else { bits := zeroBits false }
  | .fin n m e =>
    if m = 0 then { bits := infBits n, flags := fDZ }
    else if n then invalid
    else
      let odd := (e % 2).toNat
      let m := m * 2 ^ odd
      let x := 2 ^ 160 / m
      let r := isqrt x
      md.round false r (-((e - odd + 160) / 2)) (!(r * r * m == 2 ^ 160))

/-- `vsfu.rcp` (R212). -/
def fpRcp (md : Mode) (a : Num) : Res := fpDiv md (.fin false 1 0) a

/-! ### The matrix path (R37, R39, R43) -/

/-- `add_f32` of R43, on binary32 patterns. -/
def addF32 (x y : W32) : W32 := BitVec.ofNat 32 (fpAdd rneF32 (ofBits x.toNat) (ofBits y.toNat)).bits

/-- The sum of each span of 16 chunk results, in ascending chunk order (R43); at most n spans. -/
def spanSums : Nat → List W32 → List W32
  | 0, _ => []
  | _, [] => []
  | n + 1, c :: cs => (cs.take 15).foldl addF32 c :: spanSums n (cs.drop 15)

/-- One level of the span tree (R43): neighbours are added, and an unpaired span carries up unchanged. -/
def spanLevel : List W32 → List W32
  | a :: b :: r => addF32 a b :: spanLevel r
  | r => r

/-- The span tree over at most n levels (R43). -/
def spanTree : Nat → List W32 → W32
  | _, [] => 0
  | _, [x] => x
  | 0, x :: _ => x
  | n + 1, xs => spanTree n (spanLevel xs)

/-- The canonical sum of chunk results (R43). -/
def canonicalSum (cs : List W32) : W32 := spanTree cs.length (spanSums cs.length cs)

/-- `rne_f32` of an integer times 2^e (R7); zero gives +0. -/
def rneScaled (md : Mode) (v : Int) (e : Int) : W32 :=
  if v = 0 then 0 else BitVec.ofNat 32 (md.round (decide (v < 0)) v.natAbs e false).bits

/-- The signed value of the low n bits of a number (R3). -/
def sextN (n x : Nat) : Int := if fld x (n - 1) 1 = 1 then (fld x 0 n : Int) - 2 ^ n else fld x 0 n

/-- An element of a residue operand: void reads as 0 (R35). -/
def residueVal (n q : Nat) : Int := if fld q 0 n = 2 ^ (n - 1) then 0 else sextN n q

/-- A residue chunk (R37): the exact sum S scaled by 2^(ea + eb - 254). The three channels of R37 reconstruct S
exactly, which is what `S` is. -/
def residueChunk (a b : List Int) (ea eb : Nat) : W32 :=
  if ea = 255 ∨ eb = 255 then BitVec.ofNat 32 canonNan
  else rneScaled rneF32 ((List.zipWith (· * ·) a b).foldl (· + ·) 0) ((ea : Int) + eb - 254)

/-- A BF16 chunk with alignment width w (R39). -/
def bf16Chunk (w : Nat) (xs ys : List Num) : W32 :=
  let ps := List.zipWith Num.mul xs ys
  let pinf := ps.any fun p => p == .inf false
  let ninf := ps.any fun p => p == .inf true
  if ps.any Num.isNan || (pinf && ninf) then BitVec.ofNat 32 canonNan
  else if pinf || ninf then BitVec.ofNat 32 (infBits ninf)
  else
    let tops := ps.filterMap fun p => match p with
      | .fin _ m e => if m = 0 then none else some (e + (Nat.log2 m : Int))
      | _ => none
    match tops with
    | [] => 0
    | t :: ts =>
      let q := ts.foldl max t - w + 1
      let n (p : Num) : Int := match p with
        | .fin neg m e =>
          let v : Int := if q ≤ e then (m * 2 ^ (e - q).toNat : Nat) else (m / 2 ^ (q - e).toNat : Nat)
          if neg then -v else v
        | _ => 0
      rneScaled rneF32 ((ps.map n).foldl (· + ·) 0) q

/-! ### Lanes -/

/-- Flags as a mask over FPCR bits 13:8 (R45). -/
def flagMask (f : Nat) : W32 := BitVec.ofNat 32 (f * 2 ^ 8)

/-- The mode of an operation issued under an FPCR, for type T (R193, R191). -/
def modeOf (fpcr : W32) (bf : Bool) : Mode := { rm := fld fpcr.toNat 0 2, ftz := fpcr.getLsbD 2, bf := bf }

/-- The lanes and the flags ORed together of a list of results. -/
def collect (rs : List Res) : List W32 × W32 :=
  (rs.map fun r => BitVec.ofNat 32 r.bits, rs.foldl (fun f r => f ||| flagMask r.flags) 0)

end Sys2Proof.Machine
end

