-- ==== Sys2Proof/Machine/Ops.lean ====
section
/-! DEFINITION. The named operations over registers and sequencers; taking a fault or trap and returning from one;
and the frame in which an instruction word runs. -/

namespace Sys2Proof.Machine

/-! ### Sequencers and registers -/

/-- A core's sequencer (R11). -/
def Core.seq (c : Core) : SeqKind → Seq
  | .K => c.k | .L => c.l | .C => c.c | .S => c.st
/-- Replaces a core's sequencer. -/
def Core.setSeq (c : Core) (q : SeqKind) (x : Seq) : Core :=
  match q with
  | .K => { c with k := x } | .L => { c with l := x } | .C => { c with c := x } | .S => { c with st := x }
/-- Changes all four sequencers of a core. -/
def Core.mapSeqs (c : Core) (f : Seq → Seq) : Core :=
  { c with k := f c.k, l := f c.l, c := f c.c, st := f c.st }

/-- A sequencer of the device. -/
def State.seqOf (s : State) : Who → Seq
  | .core g q => (s.core g).seq q
  | .hearth h => (s.hearth h).seq
/-- Replaces a sequencer of the device. -/
def State.setSeq (s : State) (w : Who) (x : Seq) : State :=
  match w with
  | .core g q => s.setCore g ((s.core g).setSeq q x)
  | .hearth h => s.setHearth h { s.hearth h with seq := x }

/-- The sequencer that executes in this step. -/
def State.me (s : State) : Seq := s.seqOf s.cur
/-- Replaces the sequencer that executes in this step. -/
def State.setMe (s : State) (x : Seq) : State := s.setSeq s.cur x

/-- Reads a scalar register: s0 reads 0 (R11). -/
def Seq.rdS (q : Seq) (r : SReg) : W64 := if r = 0 then 0 else q.s.get r
/-- Writes a scalar register: a write to s0 is discarded (R11). -/
def Seq.wrS (q : Seq) (r : SReg) (x : W64) : Seq := if r = 0 then q else { q with s := q.s.set r.val x r.isLt }
/-- Reads a predicate: p0 reads true (R11). -/
def Seq.rdP (q : Seq) (r : Reg16) : Bool := if r = 0 then true else q.p.get r
/-- Writes a predicate: a write to p0 is discarded (R11). -/
def Seq.wrP (q : Seq) (r : Reg16) (b : Bool) : Seq := if r = 0 then q else { q with p := q.p.set r.val b r.isLt }
/-- p0-p15 as a bit mask, p0 reading 1 (R173). -/
def Seq.preds (q : Seq) : Nat :=
  ((List.finRange 16).map fun r => if q.rdP r then 2 ^ r.val else 0).sum
/-- Writes p1-p15 from a bit mask (R173). -/
def Seq.wrPreds (q : Seq) (x : W64) : Seq := { q with p := Vector.ofFn fun r : Fin 16 => x.getLsbD r.val }

/-- A scalar register of the executing sequencer. -/
def State.rs (s : State) (r : SReg) : W64 := s.me.rdS r
/-- A predicate of the executing sequencer. -/
def State.rp (s : State) (r : Reg16) : Bool := s.me.rdP r

/-- The thirteen latency classes (R20). -/
inductive Lat where
  | salu | pred | vfp | vfma | vint | vcvt | route | vred | vperm | vld | vsfu | vclm | accrd
  deriving DecidableEq, Repr

/-- A class's place in the kernel descriptor's list (R20, R260). -/
def Lat.idx : Lat → Nat
  | .salu => 0 | .pred => 1 | .vfp => 2 | .vfma => 3 | .vint => 4 | .vcvt => 5 | .route => 6 | .vred => 7
  | .vperm => 8 | .vld => 9 | .vsfu => 10 | .vclm => 11 | .accrd => 12

/-- The assumed latency of a class on a core (R20). -/
def Core.latency (c : Core) (k : Lat) : Nat := ((c.ctx.getD {}).lat)[k.idx]?.getD 1

/-- Puts an operation in flight in C (R21): it lands after `left` C-stream cycles. -/
def Core.launch (c : Core) (left slot : Nat) (pc : W64) (op : Landing) (flags : W32) : Core :=
  { c with flight := c.flight ++ [{ left := left, slot := slot, pc := pc, op := op, flags := flags }] }

/-- Puts an operation of a class in flight in C of core g, from the slot and bundle of this step. -/
def State.launch (s : State) (g : Nat) (k : Lat) (op : Landing) (flags : W32 := 0) : State :=
  s.setCore g ((s.core g).launch ((s.core g).latency k) s.curSlot s.curAddr op flags)

/-- Gives a scalar result: at once in an interlocked sequencer (R25), at the class's latency in C (R21, R162). -/
def State.putS (s : State) (k : Lat) (d : SReg) (x : W64) : State :=
  match s.cur with
  | .core g .C => if d = 0 then s else s.launch g k (.sreg d x)
  | w => s.setSeq w ((s.seqOf w).wrS d x)

/-- Gives a predicate result, as `putS`. -/
def State.putP (s : State) (k : Lat) (d : Reg16) (b : Bool) : State :=
  match s.cur with
  | .core g .C => if d = 0 then s else s.launch g k (.preg d b)
  | w => s.setSeq w ((s.seqOf w).wrP d b)

/-- Gives p1-p15, as `putS` (R173). -/
def State.putPreds (s : State) (x : W64) : State :=
  match s.cur with
  | .core g .C => s.launch g .pred (.preds x)
  | w => s.setSeq w ((s.seqOf w).wrPreds x)

/-- The loop stays active only when the target lies from its first body instruction to END (R177). -/
def Loop.after (l : Loop) (target : W64) : Loop :=
  if l.active && decide (l.first ≤ target) && decide (target ≤ l.fin) then l else { l with active := false }

/-- A taken branch or jump (R154, R175, R177). -/
def State.goto (s : State) (target : W64) : State :=
  s.setMe { s.me with pc := target, loop := s.me.loop.after target }

/-- Sets the event bits of a core's four sequencers (R182). -/
def State.raiseEvents (s : State) (g : Nat) : State :=
  s.setCore g ((s.core g).mapSeqs fun q => { q with event := true })

/-- The partition an agent acts for (R285, R131). -/
def State.partFor (s : State) : Who → Nat
  | .core g _ => ((s.core g).ctx.getD {}).part
  | .hearth h => (s.hearth h).hpart

/-! ### Faults, traps and the return from them -/

/-- The number of a sequencer in records and in R295's text: K 0, L 1, C 2, S 3 (R306). -/
def seqNum : SeqKind → Nat
  | .K => 0 | .L => 1 | .C => 2 | .S => 3

/-- Stops a sequencer: a pending wait is abandoned (R16, R18). -/
def Seq.stop (q : Seq) : Seq :=
  if q.run = .running ∨ q.run = .stopping then { q with run := .halted, wait := none, sync := none } else q

/-- Stops a core's sequencers and discards what is in flight in C (R16, R18). -/
def Core.stop (c : Core) : Core := { c.mapSeqs Seq.stop with flight := [], freeze := none }

/-- A sequencer whose node halts stops with the cycle (R295): it may still have its own instruction of the cycle. -/
def Seq.halt (q : Seq) : Seq :=
  if (q.run = .running ∨ q.run = .stopping) ∧ q.issued = false then { q with run := .stopping } else q.stop

/-- A core whose node halts: a frozen one stops at once. -/
def Core.halt (c : Core) : Core :=
  if c.freeze.isSome then c.stop
  else
    let d := c.mapSeqs Seq.halt
    if d.c.run = .stopping then d else { d with flight := [] }

/-- A sequencer of a halting core that has faulted stops at once. -/
def Core.stopSeq (c : Core) (q : SeqKind) : Core :=
  let d := c.setSeq q (c.seq q).stop
  if q = .C then { d with flight := [] } else d

/-- The cores of the node that runs on core g. -/
def State.gang (s : State) (g : Nat) : List Nat :=
  match (s.core g).ctx with
  | some x => match s.disp.pool.get? x.entry with
    | some e => if e.cores.contains g then e.cores else [g]
    | none => [g]
  | none => [g]

/-- Replaces a pool entry (R133). -/
def State.setEntry (s : State) (n : Nat) (e : Entry) : State :=
  { s with disp := { s.disp with pool := s.disp.pool.set n e } }

/-- Stops cores. -/
def State.stopCores (s : State) (gs : List Nat) : State := gs.foldl (fun s g => s.setCore g (s.core g).stop) s

/-- Halts cores. -/
def State.haltCores (s : State) (gs : List Nat) : State := gs.foldl (fun s g => s.setCore g (s.core g).halt) s

/-- Preloads onto cores whose node stops return to the pool; their marks are kept (R143). -/
def State.dropPreloads (s : State) (gs : List Nat) : State :=
  gs.foldl (fun s g =>
    match (s.core g).preload with
    | none => s
    | some (_, m) =>
      match s.disp.pool.get? m with
      | none => s.setCore g { s.core g with preload := none }
      | some e =>
        (e.preloads.foldl (fun s k => s.setCore k { s.core k with preload := none }) s).setEntry m
          { e with phase := .ready, preloads := [] }) s

/-- Halts the node of core g: every sequencer of its gang stops, and it does not retire (R18, R141). -/
def State.haltNode (s : State) (g : Nat) : State :=
  let s1 := (s.haltCores (s.gang g)).dropPreloads (s.gang g)
  match (s.core g).ctx with
  | some x => match s1.disp.pool.get? x.entry with
    | some e => s1.setEntry x.entry { e with phase := .halted, valid := false, overrun := false }
    | none => s1
  | none => s1

/-- The identity fields of a record about the node of core g (R305, R137). -/
def State.nodeRecord (s : State) (g : Nat) (r : Record) : Record :=
  let x := (s.core g).ctx.getD {}
  { r with cid := cidOf g, cor := corOf g, nv := !x.tile, graph := x.graph, nid := if x.tile then x.entry else x.nid }

/-- The record of a fault or trap of a sequencer (R305-R307, R156). -/
def State.excRecord (s : State) (g : Nat) (q : SeqKind) (e : Exc) : Record :=
  let r : Record :=
    match e with
    | .trap n x =>
      { cls := 1, code := n.val, unit := seqNum q, addr := x.toNat % 2 ^ 56, detail := x.toNat / 2 ^ 56 * 2 ^ 48 }
    | e =>
      { cls := 0, code := e.codeAddr.1, unit := seqNum q, addr := e.codeAddr.2.toNat
        detail := if q = .C ∧ e.codeAddr.1 = 1 then s.curSlot else e.more }
  s.nodeRecord g { r with index := ((s.core g).ctx.getD {}).grk, caddr := s.curAddr.toNat }

/-- A sequencer's place in the order C, K, L, S, by its UNIT (R295, R306). -/
def unitRank (u : Nat) : Nat := match u with | 2 => 0 | 0 => 1 | 1 => 2 | n => n
/-- A record of a fault or trap of a sequencer of core g that arose in this cycle. -/
def Due.ofSeq (d : Due) (g : Nat) : Bool :=
  d.now && decide (d.record.cls ≤ 1) && decide (d.record.unit ≤ 3) && d.record.cid == cidOf g && d.record.cor == corOf g

/-- Posts the record of a fault that stops the node of core g (R307, R309): it waits for the accesses of the gang; of one
core's sequencers that fault in one cycle the first in the order C, K, L, S names the record (R295). -/
def State.postStop (s : State) (g : Nat) (r : Record) : State :=
  match s.partOf (cidOf g) with
  | none => s
  | some p =>
    let x : Due := { part := p, cluster := cidOf g, record := r, cores := s.gang g }
    if r.unit ≤ 3 then
      match s.due.find? fun d => d.ofSeq g with
      | some d =>
        if unitRank d.record.unit ≤ unitRank r.unit then s
        else { s with due := (s.due.filter fun d => !d.ofSeq g) ++ [x] }
      | none => { s with due := s.due ++ [x] }
    else { s with due := s.due ++ [x] }

/-- A hearth core enters level L (R284). -/
def Hearth.enter (x : Hearth) (lvl cls code : Nat) (info pc : W64) : Hearth :=
  let cause : W64 := BitVec.ofNat 64 (cls + code * 2 ^ 8 + x.lv * 2 ^ 16 + x.ie.toNat * 2 ^ 18)
  let regs (r : EntryRegs) : EntryRegs := { r with epc := pc, einfo := info, ecause := cause }
  let vec := if lvl = 1 then x.es.evec else x.eh.evec
  let y := { x with lv := lvl, ie := false, seq := { x.seq with pc := vec + BitVec.ofNat 64 (64 * cls), wait := none } }
  if lvl = 1 then { y with es := regs x.es } else { y with eh := regs x.eh }

/-- The level a trap or fault enters: S from U, H from S or H (R284). -/
def Hearth.trapLevel (x : Hearth) : Nat := if x.lv = 0 then 1 else 2

/-- Taking a fault or trap at the instruction at `curAddr` (R18, R181, R284): on a compute core the node halts and
a record is posted to the cluster fault queue; a hearth core enters the next level, saving the next instruction's
address for a trap and the faulting instruction's for a fault. A held request is no fault. -/
def State.take (s : State) (e : Exc) : State :=
  match s.cur, e with
  | _, .hold _ => s
  | .core g q, e =>
    let t := (s.traced e).haltNode g
    (t.setCore g ((t.core g).stopSeq q)).postStop g (s.excRecord g q e)
  | .hearth h, .trap n v => s.setHearth h ((s.hearth h).enter (s.hearth h).trapLevel 0 n.val v (s.curAddr + 4))
  | .hearth h, e =>
    (s.traced e).setHearth h ((s.hearth h).enter (s.hearth h).trapLevel 2 e.codeAddr.1 e.codeAddr.2 s.curAddr)

/-- The return from an entry to level L (R284): the level, IE and address it saved. -/
def Hearth.ret (x : Hearth) : Except Exc Hearth :=
  let r := if x.lv = 1 then x.es else x.eh
  let lvl := bf r.ecause 16 2
  if x.lv < lvl ∨ lvl = 3 then .error illegal
  else .ok { x with lv := lvl, ie := r.ecause.getLsbD 18, seq := { x.seq with pc := r.epc } }

/-- The node of core g has been halted (R18, R141). -/
def State.nodeHalted (s : State) (g : Nat) : Bool :=
  match (s.core g).ctx with
  | some x => (match s.disp.pool.get? x.entry with
    | some e => e.phase == .halted
    | none => false)
  | none => false

/-- An imprecise fault of the node of core g, raised by unit `unit` (R215, R116, R243): the node stops, if it has not
yet, and the record is posted. -/
def State.imprecise (s : State) (g unit index : Nat) (pc : W64) (e : Exc) (more : Nat := 0) : State :=
  match e with
  | .trap _ _ => s
  | .hold _ => s
  | e =>
    let s := s.traced e
    (if s.nodeHalted g then s else s.haltNode g).postStop g
      (s.nodeRecord g { code := e.codeAddr.1, unit := unit, index := index, addr := e.codeAddr.2.toNat, caddr := pc.toNat
                        detail := e.more ||| more })

/-- A NOTE record of the node of core g, which stops nothing (R307). -/
def State.note (s : State) (g unit index code : Nat) (pc addr : W64) (detail : Nat := 0) : State :=
  s.post (cidOf g) (s.nodeRecord g
    { cls := 2, code := code, unit := unit, index := index, addr := addr.toNat, caddr := pc.toNat, detail := detail })

/-- A proofer command of core g has not retired (R243). -/
def State.proofBusy (s : State) (g : Nat) : Bool :=
  let x := s.cluster (cidOf g)
  (x.running.toList ++ x.proofs).any fun p => p.core == some g

/-! ### The frame of an instruction -/

/-- What the effect of an instruction comes to: a state, a fault or trap, a fault after a unit has changed its own
state (R113), a wait at the instruction (R17, R188), or a freeze of the core on a late unit (R23). -/
inductive Eff where
  | done (s : State)
  | trap (e : Exc)
  | fail (s : State) (e : Exc)
  | stall
  | freeze (unit : Late) (addr : W64)

/-- Sequences effects. -/
def Eff.bind (x : Eff) (f : State → Eff) : Eff :=
  match x with
  | .done s => f s
  | .trap e => .trap e
  | .fail s e => .fail s e
  | .stall => .stall
  | .freeze u a => .freeze u a

/-- Goes on with a value, or raises. -/
def Eff.need {α : Type} (x : Except Exc α) (f : α → Eff) : Eff :=
  match x with
  | .ok v => f v
  | .error e => .trap e

/-- The address of the instruction after a word: in C the word is a bundle of one slot (R160). -/
def State.nextPc (s : State) : W64 :=
  match s.cur with
  | .core _ .C => s.me.pc + 8
  | _ => s.me.pc + 4

/-- The state in which a word executes: its address is kept and the pc is already past it. -/
def State.enterWord (s : State) : State :=
  { s with curAddr := s.me.pc }.setMe { s.me with pc := s.nextPc, wait := none, held := none }

/-- The core freezes (R23). -/
def State.startFreeze (s : State) (unit : Late) (addr : W64) : State :=
  match s.cur with
  | .core g q => s.setCore g { s.core g with freeze := some { seq := q, unit := unit, addr := addr, cycles := 0 } }
  | .hearth _ => s

/-- What an effect makes of the machine, for what the state s stands before: its state; the trap it takes; or the same
place, waiting. -/
def settle (i : Wait) (s : State) : Eff → State
  | .done t => t
  | .trap (.hold r) => s.setMe { s.me with wait := some i, held := some r }
  | .trap e => { s with curAddr := s.me.pc }.take e
  | .fail t e => (t.setMe { t.me with pc := s.me.pc }).take e
  | .stall => s.setMe { s.me with wait := some i }
  | .freeze u a => (s.setMe { s.me with wait := some i }).startFreeze u a

end Sys2Proof.Machine
end

