-- ==== Sys2Proof/Machine/Flags.lean ====
section
/-! DEFINITION. FPCR and its sticky flags, and the values a special register accepts (R45, R46, R148, R192). -/

namespace Sys2Proof.Machine

/-- Flags land: they are ORed into FPCR and never cleared by an operation (R45, R46). -/
def Core.orFlags (c : Core) (f : W32) : Core := { c with fpcr := c.fpcr ||| f }

/-- A write of FPCR that has issued and stands before C's next cycle keeps a flag that arises after it (R45, R46). -/
def Flight.orFlags (f : Flight) (fl : W32) : Flight :=
  match f.op with
  | .csr 0 x => { f with op := .csr 0 (x ||| fl.setWidth 64) }
  | _ => f

/-- An engine command's VOID is ORed into FPCR at its retirement, and into a write of FPCR issued before it (R46 items 2
and 3). -/
def Core.orVoid (c : Core) (v : Bool) : Core :=
  if v then { c.orFlags (flagMask fVOID) with flight := c.flight.map fun f => f.orFlags (flagMask fVOID) } else c

/-- Bits of FPCR that its map makes writable (R45). -/
def fpcrMask : Nat := 0x3F07

/-- Whether a shape is legal (R192). -/
def shapeOk (x : Nat) : Bool :=
  fld x 22 10 == 0 && !(fld x 11 11 == 0) && !(fld x 0 11 == 0) && decide (fld x 11 11 * fld x 0 11 ≤ 1024)

/-- Whether a value fits a special register's width and map (R148, R45, R192). -/
def csrFits (n : Nat) (x : W64) : Bool :=
  match n with
  | 0 => decide (x.toNat < 2 ^ 32) && x.toNat &&& fpcrMask == x.toNat
  | 1 => decide (x.toNat < 2 ^ 32) && shapeOk x.toNat
  | 2 => decide (x.toNat < 2 ^ 32)
  | 3 => decide (x.toNat < 8)
  | 4 => decide (x.toNat < 16)
  | _ => false

/-- The value of a special register (R148, R12). -/
def csrRead (s : State) (n : Nat) : W64 :=
  match s.cur with
  | .core g _ =>
    let c := s.core g
    let x := c.ctx.getD {}
    match n with
    | 0 => c.fpcr.setWidth 64
    | 1 => c.vshape.setWidth 64
    | 2 => s.me.lc.setWidth 64
    | 3 => s.me.esc.setWidth 64
    | 4 => c.vrot.setWidth 64
    | 0x10 => BitVec.ofNat 64 (cidOf g)
    | 0x11 => BitVec.ofNat 64 (corOf g)
    | 0x12 => BitVec.ofNat 64 x.grk
    | 0x13 => BitVec.ofNat 64 x.gsz
    | 0x14 => BitVec.ofNat 64 x.stg
    | 0x15 => BitVec.ofNat 64 x.nid
    | _ => 0
  | .hearth _ => 0

/-- Writes a special register of a sequencer (R148). -/
def csrStore (s : State) (w : Who) (n : Nat) (x : W64) : State :=
  match w with
  | .core g q =>
    let c := s.core g
    match n with
    | 0 => s.setCore g { c with fpcr := x.setWidth 32 }
    | 1 => s.setCore g { c with vshape := x.setWidth 32 }
    | 2 => s.setCore g (c.setSeq q { c.seq q with lc := x.setWidth 32 })
    | 3 => s.setCore g (c.setSeq q { c.seq q with esc := x.setWidth 3 })
    | 4 => s.setCore g { c with vrot := x.setWidth 4 }
    | _ => s
  | .hearth _ => s

/-- The value a special-register write leaves: into FPCR, the flags that land in the cycle of the write are ORed after
it (R46). -/
def csrValue (n : Nat) (x : W64) (landed : W32) : W64 := if n = 0 then x ||| landed.setWidth 64 else x

/-- A special-register write of the executing sequencer: in C it governs the bundles from the next cycle on (R148). -/
def csrWrite (s : State) (n : Nat) (x : W64) : State :=
  match s.cur with
  | .core g .C => s.setCore g ((s.core g).launch 1 s.curSlot s.curAddr (.csr n (csrValue n x (s.core g).landed)) 0)
  | w => csrStore s w n x

end Sys2Proof.Machine
end

