-- ==== Sys2Proof/WellFormed.lean ====
section
/-! DEFINITION. Well-formed instructions: the types a vector entry accepts (R191), and the operand limits its
entry gives, which a word can break without being another word. A step without a word names units that exist. -/

namespace Sys2Proof

/-- FT of R191: f32 and bf16. -/
def fT (t : Fin 8) : Bool := t.val ≤ 1
/-- IT of R191: i32, b32, i16 and i8. -/
def iT (t : Fin 8) : Bool := 2 ≤ t.val && t.val ≤ 5
/-- RT of R191: rn8 and rn4. -/
def rT (t : Fin 8) : Bool := 6 ≤ t.val
/-- A sequencer that exists: 2,048 cores (R10) and 16 hearth cores (R284). -/
def whoOk : Who → Bool
  | .core g _ => g < 2048
  | .hearth h => h < 16

/-- The limits an entry sets on its own fields (R146, R149, R22, R226, R185, R250, R239, R254, R176), and unit
numbers within the machine for the steps. -/
def Instr.wf : Instr → Bool
  | .iopAdd _ _ _ => true
  | .iopSub _ _ _ => true
  | .iopAnd _ _ _ => true
  | .iopOr _ _ _ => true
  | .iopXor _ _ _ => true
  | .iopShl _ _ _ => true
  | .iopShr _ _ _ => true
  | .iopSra _ _ _ => true
  | .iopMin _ _ _ => true
  | .iopMax _ _ _ => true
  | .iopMinu _ _ _ => true
  | .iopMaxu _ _ _ => true
  | .iopAddw _ _ _ => true
  | .iopSubw _ _ _ => true
  | .iopSlt _ _ _ => true
  | .iopSltu _ _ _ => true
  | .iopiAdd _ _ _ => true
  | .iopiAnd _ _ _ => true
  | .iopiOr _ _ _ => true
  | .iopiXor _ _ _ => true
  | .iopiShl _ _ _ => true
  | .iopiShr _ _ _ => true
  | .iopiSra _ _ _ => true
  | .iopiAddw _ _ _ => true
  | .ihiLo _ _ => true
  | .ihiH1 _ _ => true
  | .ihiH2 _ _ => true
  | .ihiH3 _ _ => true
  | .ihiLou _ _ => true
  | .cmpEq _ _ _ => true
  | .cmpNe _ _ _ => true
  | .cmpLt _ _ _ => true
  | .cmpGe _ _ _ => true
  | .cmpLtu _ _ _ => true
  | .cmpGeu _ _ _ => true
  | .cmpTst _ _ _ => true
  | .prdAnd _ _ _ => true
  | .prdOr _ _ _ => true
  | .prdXor _ _ _ => true
  | .prdAndn _ _ _ => true
  | .prdOrn _ _ _ => true
  | .prdNor _ _ _ => true
  | .prdFrs _ _ => true
  | .prdTos _ _ => true
  | .prdRds _ => true
  | .prdWrs _ => true
  | .br _ _ _ => true
  | .jmpR _ => true
  | .jmpLink _ _ => true
  | .loopSp _ _ i => decide (2 ≤ i.toNat)
  | .ldsB8 _ _ _ _ => true
  | .ldsI8 _ _ _ _ => true
  | .ldsB16 _ _ _ _ => true
  | .ldsI16 _ _ _ _ => true
  | .ldsB32 _ _ _ _ => true
  | .ldsI32 _ _ _ _ => true
  | .ldsB64 _ _ _ _ => true
  | .stsB8 _ _ _ _ => true
  | .stsB16 _ _ _ _ => true
  | .stsB32 _ _ _ _ => true
  | .stsB64 _ _ _ _ => true
  | .csrRd _ _ => true
  | .csrWr _ _ => true
  | .csrSet _ _ _ => true
  | .csrClr _ _ _ => true
  | .bitfPopc _ _ => true
  | .bitfClz _ _ => true
  | .bitfCtz _ _ => true
  | .bitfBrev _ _ => true
  | .bitfBswap _ _ => true
  | .bitfExtu _ _ _ => true
  | .bitfExts _ _ _ => true
  | .bitfIns _ _ _ => true
  | .muldivMul _ _ _ => true
  | .muldivMulh _ _ _ => true
  | .muldivMulhu _ _ _ => true
  | .muldivDiv _ _ _ => true
  | .muldivDivu _ _ _ => true
  | .muldivRem _ _ _ => true
  | .muldivRemu _ _ _ => true
  | .sysNop => true
  | .sysEnd _ => true
  | .sysTrap _ _ => true
  | .sysWev => true
  | .privRd _ _ => true
  | .privWr _ _ => true
  | .privRet => true
  | .privHcall _ => true
  | .privWfi => true
  | .privTinv _ _ => true
  | .ringClaim _ _ _ _ => true
  | .ringCommit _ _ _ _ => true
  | .ringWaitf _ _ _ => true
  | .ringWaitr _ _ _ => true
  | .ringPop _ _ _ => true
  | .ringCfg _ _ => true
  | .ringRd _ _ => true
  | .semAdd d _ _ m => m || d == 0
  | .semWaitge _ _ => true
  | .semRd _ _ => true
  | .gbarArr _ => true
  | .gbarWait _ => true
  | .gbarSync _ => true
  | .ordRel s => decide (s.val ≤ 4)
  | .ordAcq s => decide (s.val ≤ 4)
  | .ordFull s => decide (s.val ≤ 4)
  | .copyIn _ _ _ _ _ => true
  | .copyOut _ _ _ _ _ => true
  | .copyWt _ _ _ _ _ _ => true
  | .copyMm _ _ _ _ => true
  | .gathFill _ _ _ => true
  | .lineRd _ _ => true
  | .lineWr _ _ => true
  | .lineSet _ _ _ _ => true
  | .markTile => true
  | .markDrain => true
  | .mmaRn8 _ a b _ j k _ _ => !(a == b) || j == k
  | .mmaRn4 _ a b _ j k _ _ => !(a == b) || j == k
  | .mmaRnx _ a b _ j k _ _ => !(a == b) || j == k
  | .mmaRny _ a b _ j k _ _ => !(a == b) || j == k
  | .mmaBf16 _ a b _ j k _ _ => !(a == b) || j == k
  | .accRd _ _ _ => true
  | .accFlg _ _ => true
  | .accSt _ _ _ _ => true
  | .accAdd _ _ _ => true
  | .accZero _ => true
  | .tentMark _ _ => true
  | .rslv _ _ _ _ => true
  | .mkat _ _ => true
  | .vfpAdd _ _ _ t => fT t
  | .vfpSub _ _ _ t => fT t
  | .vfpMul _ _ _ t => fT t
  | .vfpMin _ _ _ t => fT t
  | .vfpMax _ _ _ t => fT t
  | .vfpAbs _ _ t => fT t
  | .vfpNeg _ _ t => fT t
  | .vfpCpsgn _ _ _ t => fT t
  | .vfmaFma _ _ _ t => fT t
  | .vfmaFms _ _ _ t => fT t
  | .vfmaFnma _ _ _ t => fT t
  | .vfmaFnms _ _ _ t => fT t
  | .vintAdd _ _ _ t => iT t
  | .vintSub _ _ _ t => iT t
  | .vintMul _ _ _ t => iT t
  | .vintAnd _ _ _ t => iT t
  | .vintOr _ _ _ t => iT t
  | .vintXor _ _ _ t => iT t
  | .vintAndn _ _ _ t => iT t
  | .vintShl _ _ _ t => iT t
  | .vintShr _ _ _ t => iT t
  | .vintSra _ _ _ t => iT t
  | .vintMin _ _ _ t => iT t
  | .vintMax _ _ _ t => iT t
  | .vintAdds _ _ _ t => iT t
  | .vintSubs _ _ _ t => iT t
  | .vintAbs _ _ t => iT t && t != 3
  | .vintMulh _ _ _ t => iT t
  | .vcmpEq _ _ _ t => fT t || iT t
  | .vcmpNe _ _ _ t => fT t || iT t
  | .vcmpLt _ _ _ t => fT t || iT t
  | .vcmpLe _ _ _ t => fT t || iT t
  | .vcmpGt _ _ _ t => fT t || iT t
  | .vcmpGe _ _ _ t => fT t || iT t
  | .vcmpUn _ _ _ t => fT t
  | .vcvtF2i _ _ t => iT t
  | .vcvtI2f _ _ t => iT t
  | .vcvtF2h _ _ => true
  | .vcvtH2f _ _ => true
  | .vcvtRint _ _ t => fT t
  | .vcvtQf _ _ _ t => rT t
  | .vcvtQh _ _ _ t => rT t
  | .vredSum _ _ t => fT t || iT t
  | .vredMax _ _ t => fT t || iT t
  | .vredMin _ _ t => fT t || iT t
  | .vredAnd _ _ t => iT t
  | .vredOr _ _ t => iT t
  | .vredXor _ _ t => iT t
  | .vredSadd _ _ t => fT t || iT t
  | .vredSmax _ _ t => fT t || iT t
  | .vredAnyp _ _ => true
  | .vredAllp _ _ => true
  | .vpermSel _ _ _ => true
  | .vpermShift _ _ _ => true
  | .vpermTr _ _ => true
  | .vmemLd _ _ b t => fT t || iT t || (rT t && b == 0)
  | .vmemSt _ _ _ t => fT t || iT t
  | .vmemGat _ _ _ t => fT t || iT t
  | .vmemSct _ _ _ t => fT t || iT t
  | .vsfuRcp _ _ t => fT t
  | .vsfuRsqrt _ _ t => fT t
  | .vsfuSqrt _ _ t => fT t
  | .vsfuDiv _ _ _ t => fT t
  | .vsfuExp _ _ t => fT t
  | .vsfuExp2 _ _ t => fT t
  | .vsfuLn _ _ t => fT t
  | .vsfuLog2 _ _ t => fT t
  | .vsfuSin _ _ t => fT t
  | .vsfuCos _ _ t => fT t
  | .vsfuTanh _ _ t => fT t
  | .vsfuSigm _ _ t => fT t
  | .vclmLo _ _ _ => true
  | .vclmHi _ _ _ => true
  | .vclmXlo _ _ _ => true
  | .vclmXhi _ _ _ => true
  | .vclmBrev _ _ => true
  | .vselSel _ _ _ => true
  | .vselSelz _ _ => true
  | .vsetBcast _ _ t => fT t || iT t
  | .vsetIota _ t => t == 2 || t == 3
  | .vsetIrow _ t => t == 2 || t == 3
  | .vsetIcol _ t => t == 2 || t == 3
  | .vsetGet _ _ _ => true
  | .vsetPut _ _ _ => true
  | .proofRun _ _ => true
  | .ptabRd _ _ _ => true
  | .ptabWr _ _ _ => true
  | .ptabHrd _ _ _ => true
  | .ptabHwr _ _ _ => true
  | .ptabCrd _ _ _ => true
  | .ptabClr _ _ => true
  | .creelCfg _ _ => true
  | .creelBias _ _ => true
  | .creelOffer _ _ _ => true
  | .creelDrain _ _ _ => true
  | .creelRd _ _ => true
  | .routeTopk _ a b n _ => n != 3 && decide (a.val + 2 ^ n.val ≤ 32) && decide (b.val + 2 ^ n.val ≤ 32)
  | .nmaAddI32 _ _ _ => true
  | .nmaMinI32 _ _ _ _ => true
  | .nmaMaxI32 _ _ _ _ => true
  | .nmaAndI32 _ _ _ => true
  | .nmaOrI32 _ _ _ => true
  | .nmaXorI32 _ _ _ => true
  | .nmaSwapI32 _ _ _ => true
  | .nmaCasI32 d _ _ => d != 0
  | .nmaAddI64 _ _ _ => true
  | .nmaMinI64 _ _ _ _ => true
  | .nmaMaxI64 _ _ _ _ => true
  | .nmaAndI64 _ _ _ => true
  | .nmaOrI64 _ _ _ => true
  | .nmaXorI64 _ _ _ => true
  | .nmaSwapI64 _ _ _ => true
  | .nmaCasI64 d _ _ => d != 0
  | .nmaAddF32 _ _ _ => true
  | .nmaMinF32 _ _ _ => true
  | .nmaMaxF32 _ _ _ => true
  | .nmaSwapF32 _ _ _ => true
  | .nmaCasF32 d _ _ => d != 0
  | .nmaLaddF32 _ _ _ _ => true
  | .nmaLaddI32 _ _ _ _ => true
  | .nmaLmaxF32 _ _ _ _ => true
  | .skSeed _ _ => true
  | .skUpd _ _ _ => true
  | .skUpdl _ _ _ => true
  | .skQry _ _ _ => true
  | .skQryl _ _ _ => true
  | .skAdd _ _ => true
  | .skClr _ => true
  | .ocInit _ _ _ _ => true
  | .ocIns _ _ _ => true
  | .ocLdt _ _ _ => true
  | .ocLds _ _ _ => true
  | .ocSettle _ _ => true
  | .ocFold _ _ => true
  | .postTask _ => true
  | .postQp _ _ => true
  | .postTcadd _ _ b h n => !n || (b == 0 && h == 0)
  | .postTcset _ _ b h n => !n || (b == 0 && h == 0)
  | .postTcrd _ _ b h n => !n || (b == 0 && h == 0)
  | .postTcwait _ _ b h n => !n || (b == 0 && h == 0)
  | .postWbeg _ _ => true
  | .postWcom _ => true
  | .postWabn _ => true
  | .postWst _ _ => true
  | .cStreamLanding g => decide (g < 2048)
  | .lateResultReady g => decide (g < 2048)
  | .watchdog g => decide (g < 2048)
  | .loopIterationEnd w => whoOk w
  | .waitSatisfied w => whoOk w
  | .engineCommandStart g _ => decide (g < 2048)
  | .engineCommandRetire g _ => decide (g < 2048)
  | .engineReplay g _ => decide (g < 2048)
  | .katTestRun g => decide (g < 2048)
  | .commandSteal g sib => decide (g < 2048) && decide (sib < 2048)
  | .prooferCommandStart c => decide (c < 16)
  | .prooferCommandRetire c => decide (c < 16)
  | .postedOpApply _ _ => true
  | .nodeRecordAdmit part => decide (part < 16)
  | .tileRecordAdmit part => decide (part < 16)
  | .runTileDispatch entry => decide (entry < 4096)
  | .dispatch => true
  | .preload c => decide (c < 16)
  | .reserving stage => decide (stage < 16)
  | .nodeRetire entry => decide (entry < 4096)
  | .heldRelease => true
  | .budget entry => decide (entry < 4096)
  | .peelSave entry => decide (entry < 4096)
  | .translationWalk _ part _ => decide (part < 16)
  | .tuInvalidation _ h => decide (h < 16)
  | .entryArm qp => decide (qp < 1024)
  | .csqPut qp _ => decide (qp < 1024)
  | .csqPutredSum qp _ => decide (qp < 1024)
  | .csqPutredMax qp _ => decide (qp < 1024)
  | .csqPutredMin qp _ => decide (qp < 1024)
  | .csqMaxexp qp _ => decide (qp < 1024)
  | .csqNotify qp _ => decide (qp < 1024)
  | .lcopyCopy qp _ => decide (qp < 1024)
  | .lcopyConvert qp _ => decide (qp < 1024)
  | .lcopyZero qp _ => decide (qp < 1024)
  | .entryComplete qp _ => decide (qp < 1024)
  | .entryFail qp _ => decide (qp < 1024)
  | .remoteCounterAdd part _ _ => decide (part < 16)
  | .qpctlReset h => decide (h < 16)
  | .qpctlEnable h => decide (h < 16)
  | .qpctlDisable h => decide (h < 16)
  | .qpResetDone qp => decide (qp < 1024)
  | .interruptEntry h => decide (h < 16)
  | .partitionCreate h => decide (h < 16)
  | .partitionStart h => decide (h < 16)
  | .partitionStop h => decide (h < 16)
  | .partitionDestroy h => decide (h < 16)
  | .ncmdPreempt h _ _ _ => decide (h < 16)
  | .ncmdResume h _ _ _ => decide (h < 16)
  | .ncmdRerun h _ _ _ => decide (h < 16)
  | .ncmdDiscard h _ _ _ => decide (h < 16)
  | .ncmdClear h c => decide (h < 16) && decide (c < 16)
  | .nodeCommandComplete h => decide (h < 16)
  | .cstgWrite h _ => decide (h < 16)
  | .scrbWrite h _ => decide (h < 16)
  | .pptbWrite h _ => decide (h < 16)
  | .privilegedRegisterWrite h _ _ => decide (h < 16)
  | .scrubPass part => decide (part < 16)
  | .ingtArm h _ => decide (h < 16)
  | .ingtDisarm h _ => decide (h < 16)
  | .ingestCheck part => decide (part < 16)
  | .mbctlAck h => decide (h < 16)
  | .mbctlSig h => decide (h < 16)
  | .hostDoorbell part => decide (part < 16)
  | .hostBar0Access part _ _ _ _ => decide (part < 16)
  | .hostBar2Access part write _ size data => decide (part < 16) && (!write || data.length == size)
  | .fpsDrain h port => decide (h < 16) && decide (port < 16)
  | .fpsReturn h port => decide (h < 16) && decide (port < 16)
  | .drainFlitSend port => decide (port < 16)
  | .peerDrainRequest port => decide (port < 16)
  | .drainConfirm port => decide (port < 16)
  | .fabricTimeout port => decide (port < 16)
  | .evcStart h => decide (h < 16)
  | .evcUnlatchRequest h => decide (h < 16)
  | .evcLate => true
  | .unlatchRaise => true
  | .unlatchDrop => true
  | .islandRequestRun h island => decide (h < 16) && decide (island < 32)
  | .islandRequestIdle h island => decide (h < 16) && decide (island < 32)
  | .islandRequestOff h island => decide (h < 16) && decide (island < 32)
  | .islandStart => true
  | .coreGroupStart c => decide (c < 16)
  | .islandWake island => decide (island < 32)
  | .correctedError _ => true
  | .bucketLeak => true
  | .memoryLinkFail link => decide (link < 32)
  | .laneRetrain link _ => match link with
    | .memory n => decide (n < 32)
    | .port p => decide (p < 16)
    | .ucie _ => true
  | .arbitrationAging link => decide (link < 32)
  | .powerOn => true
  | .bootStep _ _ _ => true
  | .debugToken _ => true
  | .altClear _ => true
  | .spdmGetVersion => true
  | .spdmGetCapabilities => true
  | .spdmNegotiateAlgorithms => true
  | .spdmGetDigests => true
  | .spdmGetCertificate => true
  | .spdmChallenge _ => true
  | .spdmGetMeasurements _ => true
  | .pldmSensorRead island => decide (island < 32)
  | .bundleIssue header slots =>
    fld header.toNat 26 6 == 63 && slots.length == fld header.toNat 20 2 + 1
  | .unassignedOpcode _ => true
  | .reservedKindRecord part => decide (part < 16)
  | .fabricPeerRequest port _ => decide (port < 16)
  | .fabricPortUp port => decide (port < 16)
  | .fabricPortDown port => decide (port < 16)
  | .peerPortReopen port => decide (port < 16)
  | .uncorrectableError _ => true
  | .debugAccess _ => true

end Sys2Proof
end

