-- ==== Sys2Proof/Decode.lean ====
section
/-! DEFINITION. The decoder of the M7400's words and bundles (R145-R156), total on any word, and the encoder of
the same tables. A word that no row of the opcode map takes is rejected by name (R155, R146). Limits on operand
values that raise ILLEGAL without making the word another instruction (R149, R22) are checked when the
instruction executes (Machine/Checks.lean). -/

namespace Sys2Proof

noncomputable section

/-- Why a word is no instruction: every one of these raises ILLEGAL (R146, R150, R155). -/
inductive DecodeError where
  /-- Major 0x00 or a reserved major (R155). -/
  | reservedMajor (major : Nat)
  /-- A minor code that the group does not assign (R155). -/
  | unassignedMinor (major minor : Nat)
  /-- A non-zero reserved bit, or a field value 16-31 that names a file of sixteen (R146, R147). -/
  | reservedBits (major minor : Nat)
  /-- Too few words for the instruction. -/
  | short
  deriving DecidableEq, Repr

/-- The instruction, when the fixed bits outside the minor code are as the entry gives them (R146). -/
def takeIf (major minor : Nat) (ok : Bool) (i : Instr) : Except DecodeError Instr :=
  if ok then .ok i else .error (.reservedBits major minor)

/-- Group IOP, major 0x01 (R155). -/
def decIop (w : Nat) : Except DecodeError Instr :=
  match fld w 0 6 with
  | 0 => takeIf 1 0 (fld w 6 5 == 0) (.iopAdd (idx 32 (fld w 21 5)) (idx 32 (fld w 16 5)) (idx 32 (fld w 11 5)))
  | 1 => takeIf 1 1 (fld w 6 5 == 0) (.iopSub (idx 32 (fld w 21 5)) (idx 32 (fld w 16 5)) (idx 32 (fld w 11 5)))
  | 2 => takeIf 1 2 (fld w 6 5 == 0) (.iopAnd (idx 32 (fld w 21 5)) (idx 32 (fld w 16 5)) (idx 32 (fld w 11 5)))
  | 3 => takeIf 1 3 (fld w 6 5 == 0) (.iopOr (idx 32 (fld w 21 5)) (idx 32 (fld w 16 5)) (idx 32 (fld w 11 5)))
  | 4 => takeIf 1 4 (fld w 6 5 == 0) (.iopXor (idx 32 (fld w 21 5)) (idx 32 (fld w 16 5)) (idx 32 (fld w 11 5)))
  | 5 => takeIf 1 5 (fld w 6 5 == 0) (.iopShl (idx 32 (fld w 21 5)) (idx 32 (fld w 16 5)) (idx 32 (fld w 11 5)))
  | 6 => takeIf 1 6 (fld w 6 5 == 0) (.iopShr (idx 32 (fld w 21 5)) (idx 32 (fld w 16 5)) (idx 32 (fld w 11 5)))
  | 7 => takeIf 1 7 (fld w 6 5 == 0) (.iopSra (idx 32 (fld w 21 5)) (idx 32 (fld w 16 5)) (idx 32 (fld w 11 5)))
  | 8 => takeIf 1 8 (fld w 6 5 == 0) (.iopMin (idx 32 (fld w 21 5)) (idx 32 (fld w 16 5)) (idx 32 (fld w 11 5)))
  | 9 => takeIf 1 9 (fld w 6 5 == 0) (.iopMax (idx 32 (fld w 21 5)) (idx 32 (fld w 16 5)) (idx 32 (fld w 11 5)))
  | 10 => takeIf 1 10 (fld w 6 5 == 0) (.iopMinu (idx 32 (fld w 21 5)) (idx 32 (fld w 16 5)) (idx 32 (fld w 11 5)))
  | 11 => takeIf 1 11 (fld w 6 5 == 0) (.iopMaxu (idx 32 (fld w 21 5)) (idx 32 (fld w 16 5)) (idx 32 (fld w 11 5)))
  | 12 => takeIf 1 12 (fld w 6 5 == 0) (.iopAddw (idx 32 (fld w 21 5)) (idx 32 (fld w 16 5)) (idx 32 (fld w 11 5)))
  | 13 => takeIf 1 13 (fld w 6 5 == 0) (.iopSubw (idx 32 (fld w 21 5)) (idx 32 (fld w 16 5)) (idx 32 (fld w 11 5)))
  | 14 => takeIf 1 14 (fld w 6 5 == 0) (.iopSlt (idx 32 (fld w 21 5)) (idx 32 (fld w 16 5)) (idx 32 (fld w 11 5)))
  | 15 => takeIf 1 15 (fld w 6 5 == 0) (.iopSltu (idx 32 (fld w 21 5)) (idx 32 (fld w 16 5)) (idx 32 (fld w 11 5)))
  | n => .error (.unassignedMinor 1 n)

/-- Group IOPI, major 0x02 (R155). -/
def decIopi (w : Nat) : Except DecodeError Instr :=
  match fld w 12 4 with
  | 0 => takeIf 2 0 (true) (.iopiAdd (idx 32 (fld w 21 5)) (idx 32 (fld w 16 5)) (BitVec.ofNat 12 (fld w 0 12)))
  | 1 => takeIf 2 1 (true) (.iopiAnd (idx 32 (fld w 21 5)) (idx 32 (fld w 16 5)) (BitVec.ofNat 12 (fld w 0 12)))
  | 2 => takeIf 2 2 (true) (.iopiOr (idx 32 (fld w 21 5)) (idx 32 (fld w 16 5)) (BitVec.ofNat 12 (fld w 0 12)))
  | 3 => takeIf 2 3 (true) (.iopiXor (idx 32 (fld w 21 5)) (idx 32 (fld w 16 5)) (BitVec.ofNat 12 (fld w 0 12)))
  | 4 => takeIf 2 4 (fld w 6 6 == 0) (.iopiShl (idx 32 (fld w 21 5)) (idx 32 (fld w 16 5)) (idx 64 (fld w 0 6)))
  | 5 => takeIf 2 5 (fld w 6 6 == 0) (.iopiShr (idx 32 (fld w 21 5)) (idx 32 (fld w 16 5)) (idx 64 (fld w 0 6)))
  | 6 => takeIf 2 6 (fld w 6 6 == 0) (.iopiSra (idx 32 (fld w 21 5)) (idx 32 (fld w 16 5)) (idx 64 (fld w 0 6)))
  | 7 => takeIf 2 7 (true) (.iopiAddw (idx 32 (fld w 21 5)) (idx 32 (fld w 16 5)) (BitVec.ofNat 12 (fld w 0 12)))
  | n => .error (.unassignedMinor 2 n)

/-- Group IHI, major 0x03 (R155). -/
def decIhi (w : Nat) : Except DecodeError Instr :=
  match fld w 16 5 with
  | 0 => takeIf 3 0 (true) (.ihiLo (idx 32 (fld w 21 5)) (BitVec.ofNat 16 (fld w 0 16)))
  | 1 => takeIf 3 1 (true) (.ihiH1 (idx 32 (fld w 21 5)) (BitVec.ofNat 16 (fld w 0 16)))
  | 2 => takeIf 3 2 (true) (.ihiH2 (idx 32 (fld w 21 5)) (BitVec.ofNat 16 (fld w 0 16)))
  | 3 => takeIf 3 3 (true) (.ihiH3 (idx 32 (fld w 21 5)) (BitVec.ofNat 16 (fld w 0 16)))
  | 4 => takeIf 3 4 (true) (.ihiLou (idx 32 (fld w 21 5)) (BitVec.ofNat 16 (fld w 0 16)))
  | n => .error (.unassignedMinor 3 n)

/-- Group CMP, major 0x04 (R155). -/
def decCmp (w : Nat) : Except DecodeError Instr :=
  match fld w 0 6 with
  | 0 => takeIf 4 0 (fld w 6 5 == 0 && fld w 25 1 == 0) (.cmpEq (idx 16 (fld w 21 4)) (idx 32 (fld w 16 5)) (idx 32 (fld w 11 5)))
  | 1 => takeIf 4 1 (fld w 6 5 == 0 && fld w 25 1 == 0) (.cmpNe (idx 16 (fld w 21 4)) (idx 32 (fld w 16 5)) (idx 32 (fld w 11 5)))
  | 2 => takeIf 4 2 (fld w 6 5 == 0 && fld w 25 1 == 0) (.cmpLt (idx 16 (fld w 21 4)) (idx 32 (fld w 16 5)) (idx 32 (fld w 11 5)))
  | 3 => takeIf 4 3 (fld w 6 5 == 0 && fld w 25 1 == 0) (.cmpGe (idx 16 (fld w 21 4)) (idx 32 (fld w 16 5)) (idx 32 (fld w 11 5)))
  | 4 => takeIf 4 4 (fld w 6 5 == 0 && fld w 25 1 == 0) (.cmpLtu (idx 16 (fld w 21 4)) (idx 32 (fld w 16 5)) (idx 32 (fld w 11 5)))
  | 5 => takeIf 4 5 (fld w 6 5 == 0 && fld w 25 1 == 0) (.cmpGeu (idx 16 (fld w 21 4)) (idx 32 (fld w 16 5)) (idx 32 (fld w 11 5)))
  | 6 => takeIf 4 6 (fld w 6 5 == 0 && fld w 25 1 == 0) (.cmpTst (idx 16 (fld w 21 4)) (idx 32 (fld w 16 5)) (idx 32 (fld w 11 5)))
  | n => .error (.unassignedMinor 4 n)

/-- Group PRD, major 0x05 (R155). -/
def decPrd (w : Nat) : Except DecodeError Instr :=
  match fld w 0 6 with
  | 0 => takeIf 5 0 (fld w 6 5 == 0 && fld w 15 1 == 0 && fld w 20 1 == 0 && fld w 25 1 == 0) (.prdAnd (idx 16 (fld w 21 4)) (idx 16 (fld w 16 4)) (idx 16 (fld w 11 4)))
  | 1 => takeIf 5 1 (fld w 6 5 == 0 && fld w 15 1 == 0 && fld w 20 1 == 0 && fld w 25 1 == 0) (.prdOr (idx 16 (fld w 21 4)) (idx 16 (fld w 16 4)) (idx 16 (fld w 11 4)))
  | 2 => takeIf 5 2 (fld w 6 5 == 0 && fld w 15 1 == 0 && fld w 20 1 == 0 && fld w 25 1 == 0) (.prdXor (idx 16 (fld w 21 4)) (idx 16 (fld w 16 4)) (idx 16 (fld w 11 4)))
  | 3 => takeIf 5 3 (fld w 6 5 == 0 && fld w 15 1 == 0 && fld w 20 1 == 0 && fld w 25 1 == 0) (.prdAndn (idx 16 (fld w 21 4)) (idx 16 (fld w 16 4)) (idx 16 (fld w 11 4)))
  | 4 => takeIf 5 4 (fld w 6 5 == 0 && fld w 15 1 == 0 && fld w 20 1 == 0 && fld w 25 1 == 0) (.prdOrn (idx 16 (fld w 21 4)) (idx 16 (fld w 16 4)) (idx 16 (fld w 11 4)))
  | 5 => takeIf 5 5 (fld w 6 5 == 0 && fld w 15 1 == 0 && fld w 20 1 == 0 && fld w 25 1 == 0) (.prdNor (idx 16 (fld w 21 4)) (idx 16 (fld w 16 4)) (idx 16 (fld w 11 4)))
  | 6 => takeIf 5 6 (fld w 6 10 == 0 && fld w 25 1 == 0) (.prdFrs (idx 16 (fld w 21 4)) (idx 32 (fld w 16 5)))
  | 7 => takeIf 5 7 (fld w 6 10 == 0 && fld w 20 1 == 0) (.prdTos (idx 32 (fld w 21 5)) (idx 16 (fld w 16 4)))
  | 8 => takeIf 5 8 (fld w 6 15 == 0) (.prdRds (idx 32 (fld w 21 5)))
  | 9 => takeIf 5 9 (fld w 6 10 == 0 && fld w 21 5 == 0) (.prdWrs (idx 32 (fld w 16 5)))
  | n => .error (.unassignedMinor 5 n)

/-- Group BR, major 0x06 (R155). -/
def decBr (w : Nat) : Except DecodeError Instr :=
  takeIf 6 0 (true) (.br (fld w 25 1 == 1) (idx 16 (fld w 21 4)) (BitVec.ofNat 21 (fld w 0 21)))

/-- Group JMP, major 0x07 (R155). -/
def decJmp (w : Nat) : Except DecodeError Instr :=
  match fld w 0 6 with
  | 0 => takeIf 7 0 (fld w 6 10 == 0 && fld w 21 5 == 0) (.jmpR (idx 32 (fld w 16 5)))
  | 1 => takeIf 7 1 (fld w 6 10 == 0) (.jmpLink (idx 32 (fld w 21 5)) (idx 32 (fld w 16 5)))
  | n => .error (.unassignedMinor 7 n)

/-- Group LOOP, major 0x08 (R155). -/
def decLoop (w : Nat) : Except DecodeError Instr :=
  match fld w 12 4 with
  | 0 => takeIf 8 0 (fld w 24 2 == 0) (.loopSp (idx 8 (fld w 21 3)) (idx 32 (fld w 16 5)) (BitVec.ofNat 12 (fld w 0 12)))
  | n => .error (.unassignedMinor 8 n)

/-- Group LDS, major 0x09 (R155). -/
def decLds (w : Nat) : Except DecodeError Instr :=
  match fld w 12 3 with
  | 0 => takeIf 9 0 (true) (.ldsB8 (idx 32 (fld w 21 5)) (idx 32 (fld w 16 5)) (fld w 15 1 == 1) (BitVec.ofNat 12 (fld w 0 12)))
  | 1 => takeIf 9 1 (true) (.ldsI8 (idx 32 (fld w 21 5)) (idx 32 (fld w 16 5)) (fld w 15 1 == 1) (BitVec.ofNat 12 (fld w 0 12)))
  | 2 => takeIf 9 2 (true) (.ldsB16 (idx 32 (fld w 21 5)) (idx 32 (fld w 16 5)) (fld w 15 1 == 1) (BitVec.ofNat 12 (fld w 0 12)))
  | 3 => takeIf 9 3 (true) (.ldsI16 (idx 32 (fld w 21 5)) (idx 32 (fld w 16 5)) (fld w 15 1 == 1) (BitVec.ofNat 12 (fld w 0 12)))
  | 4 => takeIf 9 4 (true) (.ldsB32 (idx 32 (fld w 21 5)) (idx 32 (fld w 16 5)) (fld w 15 1 == 1) (BitVec.ofNat 12 (fld w 0 12)))
  | 5 => takeIf 9 5 (true) (.ldsI32 (idx 32 (fld w 21 5)) (idx 32 (fld w 16 5)) (fld w 15 1 == 1) (BitVec.ofNat 12 (fld w 0 12)))
  | 6 => takeIf 9 6 (true) (.ldsB64 (idx 32 (fld w 21 5)) (idx 32 (fld w 16 5)) (fld w 15 1 == 1) (BitVec.ofNat 12 (fld w 0 12)))
  | n => .error (.unassignedMinor 9 n)

/-- Group STS, major 0x0A (R155). -/
def decSts (w : Nat) : Except DecodeError Instr :=
  match fld w 12 3 with
  | 0 => takeIf 10 0 (true) (.stsB8 (idx 32 (fld w 21 5)) (idx 32 (fld w 16 5)) (fld w 15 1 == 1) (BitVec.ofNat 12 (fld w 0 12)))
  | 2 => takeIf 10 2 (true) (.stsB16 (idx 32 (fld w 21 5)) (idx 32 (fld w 16 5)) (fld w 15 1 == 1) (BitVec.ofNat 12 (fld w 0 12)))
  | 4 => takeIf 10 4 (true) (.stsB32 (idx 32 (fld w 21 5)) (idx 32 (fld w 16 5)) (fld w 15 1 == 1) (BitVec.ofNat 12 (fld w 0 12)))
  | 6 => takeIf 10 6 (true) (.stsB64 (idx 32 (fld w 21 5)) (idx 32 (fld w 16 5)) (fld w 15 1 == 1) (BitVec.ofNat 12 (fld w 0 12)))
  | n => .error (.unassignedMinor 10 n)

/-- Group CSR, major 0x0B (R155). -/
def decCsr (w : Nat) : Except DecodeError Instr :=
  match fld w 12 4 with
  | 0 => takeIf 11 0 (fld w 16 5 == 0) (.csrRd (idx 32 (fld w 21 5)) (BitVec.ofNat 12 (fld w 0 12)))
  | 1 => takeIf 11 1 (fld w 21 5 == 0) (.csrWr (idx 32 (fld w 16 5)) (BitVec.ofNat 12 (fld w 0 12)))
  | 2 => takeIf 11 2 (true) (.csrSet (idx 32 (fld w 21 5)) (idx 32 (fld w 16 5)) (BitVec.ofNat 12 (fld w 0 12)))
  | 3 => takeIf 11 3 (true) (.csrClr (idx 32 (fld w 21 5)) (idx 32 (fld w 16 5)) (BitVec.ofNat 12 (fld w 0 12)))
  | n => .error (.unassignedMinor 11 n)

/-- Group BITF, major 0x0C (R155). -/
def decBitf (w : Nat) : Except DecodeError Instr :=
  match fld w 0 6 with
  | 0 => takeIf 12 0 (fld w 6 10 == 0) (.bitfPopc (idx 32 (fld w 21 5)) (idx 32 (fld w 16 5)))
  | 1 => takeIf 12 1 (fld w 6 10 == 0) (.bitfClz (idx 32 (fld w 21 5)) (idx 32 (fld w 16 5)))
  | 2 => takeIf 12 2 (fld w 6 10 == 0) (.bitfCtz (idx 32 (fld w 21 5)) (idx 32 (fld w 16 5)))
  | 3 => takeIf 12 3 (fld w 6 10 == 0) (.bitfBrev (idx 32 (fld w 21 5)) (idx 32 (fld w 16 5)))
  | 4 => takeIf 12 4 (fld w 6 10 == 0) (.bitfBswap (idx 32 (fld w 21 5)) (idx 32 (fld w 16 5)))
  | 5 => takeIf 12 5 (fld w 6 5 == 0) (.bitfExtu (idx 32 (fld w 21 5)) (idx 32 (fld w 16 5)) (idx 32 (fld w 11 5)))
  | 6 => takeIf 12 6 (fld w 6 5 == 0) (.bitfExts (idx 32 (fld w 21 5)) (idx 32 (fld w 16 5)) (idx 32 (fld w 11 5)))
  | 7 => takeIf 12 7 (fld w 6 5 == 0) (.bitfIns (idx 32 (fld w 21 5)) (idx 32 (fld w 16 5)) (idx 32 (fld w 11 5)))
  | n => .error (.unassignedMinor 12 n)

/-- Group MULDIV, major 0x0D (R155). -/
def decMuldiv (w : Nat) : Except DecodeError Instr :=
  match fld w 0 6 with
  | 0 => takeIf 13 0 (fld w 6 5 == 0) (.muldivMul (idx 32 (fld w 21 5)) (idx 32 (fld w 16 5)) (idx 32 (fld w 11 5)))
  | 1 => takeIf 13 1 (fld w 6 5 == 0) (.muldivMulh (idx 32 (fld w 21 5)) (idx 32 (fld w 16 5)) (idx 32 (fld w 11 5)))
  | 2 => takeIf 13 2 (fld w 6 5 == 0) (.muldivMulhu (idx 32 (fld w 21 5)) (idx 32 (fld w 16 5)) (idx 32 (fld w 11 5)))
  | 3 => takeIf 13 3 (fld w 6 5 == 0) (.muldivDiv (idx 32 (fld w 21 5)) (idx 32 (fld w 16 5)) (idx 32 (fld w 11 5)))
  | 4 => takeIf 13 4 (fld w 6 5 == 0) (.muldivDivu (idx 32 (fld w 21 5)) (idx 32 (fld w 16 5)) (idx 32 (fld w 11 5)))
  | 5 => takeIf 13 5 (fld w 6 5 == 0) (.muldivRem (idx 32 (fld w 21 5)) (idx 32 (fld w 16 5)) (idx 32 (fld w 11 5)))
  | 6 => takeIf 13 6 (fld w 6 5 == 0) (.muldivRemu (idx 32 (fld w 21 5)) (idx 32 (fld w 16 5)) (idx 32 (fld w 11 5)))
  | n => .error (.unassignedMinor 13 n)

/-- Group SYS, major 0x0E (R155). -/
def decSys (w : Nat) : Except DecodeError Instr :=
  match fld w 0 6 with
  | 0 => takeIf 14 0 (fld w 6 20 == 0) (.sysNop)
  | 1 => takeIf 14 1 (fld w 7 19 == 0) (.sysEnd (fld w 6 1 == 1))
  | 2 => takeIf 14 2 (fld w 11 5 == 0 && fld w 21 5 == 0) (.sysTrap (idx 32 (fld w 16 5)) (idx 32 (fld w 6 5)))
  | 3 => takeIf 14 3 (fld w 6 20 == 0) (.sysWev)
  | n => .error (.unassignedMinor 14 n)

/-- Group PRIV, major 0x0F (R155). -/
def decPriv (w : Nat) : Except DecodeError Instr :=
  match fld w 0 6 with
  | 0 => takeIf 15 0 (fld w 6 10 == 0) (.privRd (idx 32 (fld w 21 5)) (idx 32 (fld w 16 5)))
  | 1 => takeIf 15 1 (fld w 6 5 == 0 && fld w 21 5 == 0) (.privWr (idx 32 (fld w 16 5)) (idx 32 (fld w 11 5)))
  | 2 => takeIf 15 2 (fld w 6 20 == 0) (.privRet)
  | 3 => takeIf 15 3 (fld w 11 15 == 0) (.privHcall (idx 32 (fld w 6 5)))
  | 4 => takeIf 15 4 (fld w 6 20 == 0) (.privWfi)
  | 5 => takeIf 15 5 (fld w 6 5 == 0 && fld w 21 5 == 0) (.privTinv (idx 32 (fld w 16 5)) (idx 32 (fld w 11 5)))
  | n => .error (.unassignedMinor 15 n)

/-- Group RING, major 0x10 (R155). -/
def decRing (w : Nat) : Except DecodeError Instr :=
  match fld w 0 5 with
  | 0 => takeIf 16 0 (fld w 6 5 == 0 && fld w 20 1 == 0) (.ringClaim (idx 32 (fld w 21 5)) (idx 16 (fld w 16 4)) (idx 32 (fld w 11 5)) (fld w 5 1 == 1))
  | 1 => takeIf 16 1 (fld w 6 5 == 0 && fld w 20 1 == 0) (.ringCommit (idx 32 (fld w 21 5)) (idx 16 (fld w 16 4)) (idx 32 (fld w 11 5)) (fld w 5 1 == 1))
  | 2 => takeIf 16 2 (fld w 6 5 == 0 && fld w 20 6 == 0) (.ringWaitf (idx 16 (fld w 16 4)) (idx 32 (fld w 11 5)) (fld w 5 1 == 1))
  | 3 => takeIf 16 3 (fld w 6 5 == 0 && fld w 20 6 == 0) (.ringWaitr (idx 16 (fld w 16 4)) (idx 32 (fld w 11 5)) (fld w 5 1 == 1))
  | 4 => takeIf 16 4 (fld w 6 5 == 0 && fld w 20 6 == 0) (.ringPop (idx 16 (fld w 16 4)) (idx 32 (fld w 11 5)) (fld w 5 1 == 1))
  | 5 => takeIf 16 5 (fld w 5 6 == 0 && fld w 20 6 == 0) (.ringCfg (idx 16 (fld w 16 4)) (idx 32 (fld w 11 5)))
  | 6 => takeIf 16 6 (fld w 5 11 == 0 && fld w 20 1 == 0) (.ringRd (idx 32 (fld w 21 5)) (idx 16 (fld w 16 4)))
  | n => .error (.unassignedMinor 16 n)

/-- Group SEM, major 0x11 (R155). -/
def decSem (w : Nat) : Except DecodeError Instr :=
  match fld w 0 5 with
  | 0 => takeIf 17 0 (fld w 6 5 == 0 && fld w 20 1 == 0) (.semAdd (idx 32 (fld w 21 5)) (idx 16 (fld w 16 4)) (idx 32 (fld w 11 5)) (fld w 5 1 == 1))
  | 1 => takeIf 17 1 (fld w 5 6 == 0 && fld w 20 6 == 0) (.semWaitge (idx 16 (fld w 16 4)) (idx 32 (fld w 11 5)))
  | 2 => takeIf 17 2 (fld w 5 11 == 0 && fld w 20 1 == 0) (.semRd (idx 32 (fld w 21 5)) (idx 16 (fld w 16 4)))
  | n => .error (.unassignedMinor 17 n)

/-- Group GBAR, major 0x12 (R155). -/
def decGbar (w : Nat) : Except DecodeError Instr :=
  match fld w 0 5 with
  | 0 => takeIf 18 0 (fld w 5 11 == 0 && fld w 20 6 == 0) (.gbarArr (idx 16 (fld w 16 4)))
  | 1 => takeIf 18 1 (fld w 5 11 == 0 && fld w 20 6 == 0) (.gbarWait (idx 16 (fld w 16 4)))
  | 2 => takeIf 18 2 (fld w 5 11 == 0 && fld w 20 6 == 0) (.gbarSync (idx 16 (fld w 16 4)))
  | n => .error (.unassignedMinor 18 n)

/-- Group ORD, major 0x13 (R155). -/
def decOrd (w : Nat) : Except DecodeError Instr :=
  match fld w 0 5 with
  | 0 => takeIf 19 0 (fld w 8 18 == 0) (.ordRel (idx 8 (fld w 5 3)))
  | 1 => takeIf 19 1 (fld w 8 18 == 0) (.ordAcq (idx 8 (fld w 5 3)))
  | 2 => takeIf 19 2 (fld w 8 18 == 0) (.ordFull (idx 8 (fld w 5 3)))
  | n => .error (.unassignedMinor 19 n)

/-- Group COPY, major 0x18 (R155). -/
def decCopy (w : Nat) : Except DecodeError Instr :=
  match fld w 0 5 with
  | 0 => takeIf 24 0 (fld w 5 2 == 0 && fld w 9 2 == 0 && fld w 25 1 == 0) (.copyIn (idx 16 (fld w 21 4)) (idx 32 (fld w 16 5)) (idx 32 (fld w 11 5)) (fld w 8 1 == 1) (fld w 7 1 == 1))
  | 1 => takeIf 24 1 (fld w 5 3 == 0 && fld w 10 1 == 0 && fld w 20 1 == 0) (.copyOut (idx 32 (fld w 21 5)) (idx 16 (fld w 16 4)) (idx 32 (fld w 11 5)) (fld w 9 1 == 1) (fld w 8 1 == 1))
  | 2 => takeIf 24 2 (fld w 5 2 == 0 && fld w 9 1 == 0 && fld w 25 1 == 0) (.copyWt (idx 16 (fld w 21 4)) (idx 32 (fld w 16 5)) (idx 32 (fld w 11 5)) (fld w 10 1 == 1) (fld w 8 1 == 1) (fld w 7 1 == 1))
  | 3 => takeIf 24 3 (fld w 5 3 == 0 && fld w 9 2 == 0) (.copyMm (idx 32 (fld w 21 5)) (idx 32 (fld w 16 5)) (idx 32 (fld w 11 5)) (fld w 8 1 == 1))
  | n => .error (.unassignedMinor 24 n)

/-- Group GATH, major 0x19 (R155). -/
def decGath (w : Nat) : Except DecodeError Instr :=
  match fld w 0 5 with
  | 0 => takeIf 25 0 (fld w 5 3 == 0 && fld w 9 7 == 0 && fld w 25 1 == 0) (.gathFill (idx 16 (fld w 21 4)) (idx 32 (fld w 16 5)) (fld w 8 1 == 1))
  | n => .error (.unassignedMinor 25 n)

/-- Group LINE, major 0x1A (R155). -/
def decLine (w : Nat) : Except DecodeError Instr :=
  match fld w 0 5 with
  | 0 => takeIf 26 0 (fld w 5 11 == 0) (.lineRd (idx 32 (fld w 21 5)) (idx 32 (fld w 16 5)))
  | 1 => takeIf 26 1 (fld w 5 6 == 0 && fld w 21 5 == 0) (.lineWr (idx 32 (fld w 16 5)) (idx 32 (fld w 11 5)))
  | 2 => takeIf 26 2 (fld w 5 3 == 0 && fld w 9 2 == 0) (.lineSet (idx 32 (fld w 21 5)) (idx 32 (fld w 16 5)) (idx 32 (fld w 11 5)) (fld w 8 1 == 1))
  | n => .error (.unassignedMinor 26 n)

/-- Group MARK, major 0x1B (R155). -/
def decMark (w : Nat) : Except DecodeError Instr :=
  match fld w 0 5 with
  | 0 => takeIf 27 0 (fld w 5 21 == 0) (.markTile)
  | 1 => takeIf 27 1 (fld w 5 21 == 0) (.markDrain)
  | n => .error (.unassignedMinor 27 n)

/-- Group MMA, major 0x30 (R155). -/
def decMma (w : Nat) : Except DecodeError Instr :=
  match fld w 0 5 with
  | 0 => takeIf 48 0 (fld w 5 1 == 0 && fld w 15 1 == 0 && fld w 20 1 == 0) (.mmaRn8 (idx 32 (fld w 21 5)) (idx 16 (fld w 16 4)) (idx 16 (fld w 11 4)) (fld w 10 1 == 1) (fld w 9 1 == 1) (fld w 8 1 == 1) (fld w 7 1 == 1) (fld w 6 1 == 1))
  | 1 => takeIf 48 1 (fld w 5 1 == 0 && fld w 15 1 == 0 && fld w 20 1 == 0) (.mmaRn4 (idx 32 (fld w 21 5)) (idx 16 (fld w 16 4)) (idx 16 (fld w 11 4)) (fld w 10 1 == 1) (fld w 9 1 == 1) (fld w 8 1 == 1) (fld w 7 1 == 1) (fld w 6 1 == 1))
  | 2 => takeIf 48 2 (fld w 5 1 == 0 && fld w 15 1 == 0 && fld w 20 1 == 0) (.mmaRnx (idx 32 (fld w 21 5)) (idx 16 (fld w 16 4)) (idx 16 (fld w 11 4)) (fld w 10 1 == 1) (fld w 9 1 == 1) (fld w 8 1 == 1) (fld w 7 1 == 1) (fld w 6 1 == 1))
  | 3 => takeIf 48 3 (fld w 5 1 == 0 && fld w 15 1 == 0 && fld w 20 1 == 0) (.mmaRny (idx 32 (fld w 21 5)) (idx 16 (fld w 16 4)) (idx 16 (fld w 11 4)) (fld w 10 1 == 1) (fld w 9 1 == 1) (fld w 8 1 == 1) (fld w 7 1 == 1) (fld w 6 1 == 1))
  | 4 => takeIf 48 4 (fld w 5 1 == 0 && fld w 15 1 == 0 && fld w 20 1 == 0) (.mmaBf16 (idx 32 (fld w 21 5)) (idx 16 (fld w 16 4)) (idx 16 (fld w 11 4)) (fld w 10 1 == 1) (fld w 9 1 == 1) (fld w 8 1 == 1) (fld w 7 1 == 1) (fld w 6 1 == 1))
  | n => .error (.unassignedMinor 48 n)

/-- Group ACC, major 0x31 (R155). -/
def decAcc (w : Nat) : Except DecodeError Instr :=
  match fld w 0 5 with
  | 0 => takeIf 49 0 (fld w 5 6 == 0) (.accRd (idx 32 (fld w 21 5)) (idx 32 (fld w 16 5)) (idx 32 (fld w 11 5)))
  | 1 => takeIf 49 1 (fld w 5 11 == 0) (.accFlg (idx 32 (fld w 21 5)) (idx 32 (fld w 16 5)))
  | 2 => takeIf 49 2 (fld w 5 4 == 0 && fld w 11 5 == 0 && fld w 25 1 == 0) (.accSt (idx 16 (fld w 21 4)) (idx 32 (fld w 16 5)) (fld w 10 1 == 1) (fld w 9 1 == 1))
  | 3 => takeIf 49 3 (fld w 5 6 == 0) (.accAdd (idx 32 (fld w 21 5)) (idx 32 (fld w 16 5)) (idx 32 (fld w 11 5)))
  | 4 => takeIf 49 4 (fld w 5 16 == 0) (.accZero (idx 32 (fld w 21 5)))
  | n => .error (.unassignedMinor 49 n)

/-- Group TENT, major 0x32 (R155). -/
def decTent (w : Nat) : Except DecodeError Instr :=
  match fld w 0 5 with
  | 0 => takeIf 50 0 (fld w 5 11 == 0) (.tentMark (idx 32 (fld w 21 5)) (idx 32 (fld w 16 5)))
  | n => .error (.unassignedMinor 50 n)

/-- Group RSLV, major 0x33 (R155). -/
def decRslv (w : Nat) : Except DecodeError Instr :=
  match fld w 0 5 with
  | 0 => takeIf 51 0 (fld w 5 4 == 0 && fld w 11 5 == 0) (.rslv (idx 32 (fld w 21 5)) (idx 32 (fld w 16 5)) (fld w 10 1 == 1) (fld w 9 1 == 1))
  | n => .error (.unassignedMinor 51 n)

/-- Group MKAT, major 0x34 (R155). -/
def decMkat (w : Nat) : Except DecodeError Instr :=
  match fld w 0 5 with
  | 0 => takeIf 52 0 (fld w 5 6 == 0 && fld w 21 5 == 0) (.mkat (idx 32 (fld w 16 5)) (idx 32 (fld w 11 5)))
  | n => .error (.unassignedMinor 52 n)

/-- Group VFP, major 0x20 (R155). -/
def decVfp (w : Nat) : Except DecodeError Instr :=
  match fld w 0 8 with
  | 0 => takeIf 32 0 (true) (.vfpAdd (idx 32 (fld w 21 5)) (idx 32 (fld w 16 5)) (idx 32 (fld w 11 5)) (idx 8 (fld w 8 3)))
  | 1 => takeIf 32 1 (true) (.vfpSub (idx 32 (fld w 21 5)) (idx 32 (fld w 16 5)) (idx 32 (fld w 11 5)) (idx 8 (fld w 8 3)))
  | 2 => takeIf 32 2 (true) (.vfpMul (idx 32 (fld w 21 5)) (idx 32 (fld w 16 5)) (idx 32 (fld w 11 5)) (idx 8 (fld w 8 3)))
  | 3 => takeIf 32 3 (true) (.vfpMin (idx 32 (fld w 21 5)) (idx 32 (fld w 16 5)) (idx 32 (fld w 11 5)) (idx 8 (fld w 8 3)))
  | 4 => takeIf 32 4 (true) (.vfpMax (idx 32 (fld w 21 5)) (idx 32 (fld w 16 5)) (idx 32 (fld w 11 5)) (idx 8 (fld w 8 3)))
  | 5 => takeIf 32 5 (fld w 11 5 == 0) (.vfpAbs (idx 32 (fld w 21 5)) (idx 32 (fld w 16 5)) (idx 8 (fld w 8 3)))
  | 6 => takeIf 32 6 (fld w 11 5 == 0) (.vfpNeg (idx 32 (fld w 21 5)) (idx 32 (fld w 16 5)) (idx 8 (fld w 8 3)))
  | 7 => takeIf 32 7 (true) (.vfpCpsgn (idx 32 (fld w 21 5)) (idx 32 (fld w 16 5)) (idx 32 (fld w 11 5)) (idx 8 (fld w 8 3)))
  | n => .error (.unassignedMinor 32 n)

/-- Group VFMA, major 0x21 (R155). -/
def decVfma (w : Nat) : Except DecodeError Instr :=
  match fld w 0 8 with
  | 0 => takeIf 33 0 (true) (.vfmaFma (idx 32 (fld w 21 5)) (idx 32 (fld w 16 5)) (idx 32 (fld w 11 5)) (idx 8 (fld w 8 3)))
  | 1 => takeIf 33 1 (true) (.vfmaFms (idx 32 (fld w 21 5)) (idx 32 (fld w 16 5)) (idx 32 (fld w 11 5)) (idx 8 (fld w 8 3)))
  | 2 => takeIf 33 2 (true) (.vfmaFnma (idx 32 (fld w 21 5)) (idx 32 (fld w 16 5)) (idx 32 (fld w 11 5)) (idx 8 (fld w 8 3)))
  | 3 => takeIf 33 3 (true) (.vfmaFnms (idx 32 (fld w 21 5)) (idx 32 (fld w 16 5)) (idx 32 (fld w 11 5)) (idx 8 (fld w 8 3)))
  | n => .error (.unassignedMinor 33 n)

/-- Group VINT, major 0x22 (R155). -/
def decVint (w : Nat) : Except DecodeError Instr :=
  match fld w 0 8 with
  | 0 => takeIf 34 0 (true) (.vintAdd (idx 32 (fld w 21 5)) (idx 32 (fld w 16 5)) (idx 32 (fld w 11 5)) (idx 8 (fld w 8 3)))
  | 1 => takeIf 34 1 (true) (.vintSub (idx 32 (fld w 21 5)) (idx 32 (fld w 16 5)) (idx 32 (fld w 11 5)) (idx 8 (fld w 8 3)))
  | 2 => takeIf 34 2 (true) (.vintMul (idx 32 (fld w 21 5)) (idx 32 (fld w 16 5)) (idx 32 (fld w 11 5)) (idx 8 (fld w 8 3)))
  | 3 => takeIf 34 3 (true) (.vintAnd (idx 32 (fld w 21 5)) (idx 32 (fld w 16 5)) (idx 32 (fld w 11 5)) (idx 8 (fld w 8 3)))
  | 4 => takeIf 34 4 (true) (.vintOr (idx 32 (fld w 21 5)) (idx 32 (fld w 16 5)) (idx 32 (fld w 11 5)) (idx 8 (fld w 8 3)))
  | 5 => takeIf 34 5 (true) (.vintXor (idx 32 (fld w 21 5)) (idx 32 (fld w 16 5)) (idx 32 (fld w 11 5)) (idx 8 (fld w 8 3)))
  | 6 => takeIf 34 6 (true) (.vintAndn (idx 32 (fld w 21 5)) (idx 32 (fld w 16 5)) (idx 32 (fld w 11 5)) (idx 8 (fld w 8 3)))
  | 7 => takeIf 34 7 (true) (.vintShl (idx 32 (fld w 21 5)) (idx 32 (fld w 16 5)) (idx 32 (fld w 11 5)) (idx 8 (fld w 8 3)))
  | 8 => takeIf 34 8 (true) (.vintShr (idx 32 (fld w 21 5)) (idx 32 (fld w 16 5)) (idx 32 (fld w 11 5)) (idx 8 (fld w 8 3)))
  | 9 => takeIf 34 9 (true) (.vintSra (idx 32 (fld w 21 5)) (idx 32 (fld w 16 5)) (idx 32 (fld w 11 5)) (idx 8 (fld w 8 3)))
  | 10 => takeIf 34 10 (true) (.vintMin (idx 32 (fld w 21 5)) (idx 32 (fld w 16 5)) (idx 32 (fld w 11 5)) (idx 8 (fld w 8 3)))
  | 11 => takeIf 34 11 (true) (.vintMax (idx 32 (fld w 21 5)) (idx 32 (fld w 16 5)) (idx 32 (fld w 11 5)) (idx 8 (fld w 8 3)))
  | 12 => takeIf 34 12 (true) (.vintAdds (idx 32 (fld w 21 5)) (idx 32 (fld w 16 5)) (idx 32 (fld w 11 5)) (idx 8 (fld w 8 3)))
  | 13 => takeIf 34 13 (true) (.vintSubs (idx 32 (fld w 21 5)) (idx 32 (fld w 16 5)) (idx 32 (fld w 11 5)) (idx 8 (fld w 8 3)))
  | 14 => takeIf 34 14 (fld w 11 5 == 0) (.vintAbs (idx 32 (fld w 21 5)) (idx 32 (fld w 16 5)) (idx 8 (fld w 8 3)))
  | 15 => takeIf 34 15 (true) (.vintMulh (idx 32 (fld w 21 5)) (idx 32 (fld w 16 5)) (idx 32 (fld w 11 5)) (idx 8 (fld w 8 3)))
  | n => .error (.unassignedMinor 34 n)

/-- Group VCMP, major 0x23 (R155). -/
def decVcmp (w : Nat) : Except DecodeError Instr :=
  match fld w 0 8 with
  | 0 => takeIf 35 0 (true) (.vcmpEq (idx 32 (fld w 21 5)) (idx 32 (fld w 16 5)) (idx 32 (fld w 11 5)) (idx 8 (fld w 8 3)))
  | 1 => takeIf 35 1 (true) (.vcmpNe (idx 32 (fld w 21 5)) (idx 32 (fld w 16 5)) (idx 32 (fld w 11 5)) (idx 8 (fld w 8 3)))
  | 2 => takeIf 35 2 (true) (.vcmpLt (idx 32 (fld w 21 5)) (idx 32 (fld w 16 5)) (idx 32 (fld w 11 5)) (idx 8 (fld w 8 3)))
  | 3 => takeIf 35 3 (true) (.vcmpLe (idx 32 (fld w 21 5)) (idx 32 (fld w 16 5)) (idx 32 (fld w 11 5)) (idx 8 (fld w 8 3)))
  | 4 => takeIf 35 4 (true) (.vcmpGt (idx 32 (fld w 21 5)) (idx 32 (fld w 16 5)) (idx 32 (fld w 11 5)) (idx 8 (fld w 8 3)))
  | 5 => takeIf 35 5 (true) (.vcmpGe (idx 32 (fld w 21 5)) (idx 32 (fld w 16 5)) (idx 32 (fld w 11 5)) (idx 8 (fld w 8 3)))
  | 6 => takeIf 35 6 (true) (.vcmpUn (idx 32 (fld w 21 5)) (idx 32 (fld w 16 5)) (idx 32 (fld w 11 5)) (idx 8 (fld w 8 3)))
  | n => .error (.unassignedMinor 35 n)

/-- Group VCVT, major 0x24 (R155). -/
def decVcvt (w : Nat) : Except DecodeError Instr :=
  match fld w 0 8 with
  | 0 => takeIf 36 0 (fld w 11 5 == 0) (.vcvtF2i (idx 32 (fld w 21 5)) (idx 32 (fld w 16 5)) (idx 8 (fld w 8 3)))
  | 1 => takeIf 36 1 (fld w 11 5 == 0) (.vcvtI2f (idx 32 (fld w 21 5)) (idx 32 (fld w 16 5)) (idx 8 (fld w 8 3)))
  | 2 => takeIf 36 2 (fld w 8 8 == 1) (.vcvtF2h (idx 32 (fld w 21 5)) (idx 32 (fld w 16 5)))
  | 3 => takeIf 36 3 (fld w 8 8 == 1) (.vcvtH2f (idx 32 (fld w 21 5)) (idx 32 (fld w 16 5)))
  | 4 => takeIf 36 4 (fld w 11 5 == 0) (.vcvtRint (idx 32 (fld w 21 5)) (idx 32 (fld w 16 5)) (idx 8 (fld w 8 3)))
  | 5 => takeIf 36 5 (true) (.vcvtQf (idx 32 (fld w 21 5)) (idx 32 (fld w 16 5)) (idx 32 (fld w 11 5)) (idx 8 (fld w 8 3)))
  | 6 => takeIf 36 6 (true) (.vcvtQh (idx 32 (fld w 21 5)) (idx 32 (fld w 16 5)) (idx 32 (fld w 11 5)) (idx 8 (fld w 8 3)))
  | n => .error (.unassignedMinor 36 n)

/-- Group VRED, major 0x25 (R155). -/
def decVred (w : Nat) : Except DecodeError Instr :=
  match fld w 0 8 with
  | 0 => takeIf 37 0 (fld w 11 5 == 0) (.vredSum (idx 32 (fld w 21 5)) (idx 32 (fld w 16 5)) (idx 8 (fld w 8 3)))
  | 1 => takeIf 37 1 (fld w 11 5 == 0) (.vredMax (idx 32 (fld w 21 5)) (idx 32 (fld w 16 5)) (idx 8 (fld w 8 3)))
  | 2 => takeIf 37 2 (fld w 11 5 == 0) (.vredMin (idx 32 (fld w 21 5)) (idx 32 (fld w 16 5)) (idx 8 (fld w 8 3)))
  | 3 => takeIf 37 3 (fld w 11 5 == 0) (.vredAnd (idx 32 (fld w 21 5)) (idx 32 (fld w 16 5)) (idx 8 (fld w 8 3)))
  | 4 => takeIf 37 4 (fld w 11 5 == 0) (.vredOr (idx 32 (fld w 21 5)) (idx 32 (fld w 16 5)) (idx 8 (fld w 8 3)))
  | 5 => takeIf 37 5 (fld w 11 5 == 0) (.vredXor (idx 32 (fld w 21 5)) (idx 32 (fld w 16 5)) (idx 8 (fld w 8 3)))
  | 6 => takeIf 37 6 (fld w 11 5 == 0) (.vredSadd (idx 32 (fld w 21 5)) (idx 32 (fld w 16 5)) (idx 8 (fld w 8 3)))
  | 7 => takeIf 37 7 (fld w 11 5 == 0) (.vredSmax (idx 32 (fld w 21 5)) (idx 32 (fld w 16 5)) (idx 8 (fld w 8 3)))
  | 8 => takeIf 37 8 (fld w 8 8 == 3 && fld w 25 1 == 0) (.vredAnyp (idx 16 (fld w 21 4)) (idx 32 (fld w 16 5)))
  | 9 => takeIf 37 9 (fld w 8 8 == 3 && fld w 25 1 == 0) (.vredAllp (idx 16 (fld w 21 4)) (idx 32 (fld w 16 5)))
  | n => .error (.unassignedMinor 37 n)

/-- Group VPERM, major 0x26 (R155). -/
def decVperm (w : Nat) : Except DecodeError Instr :=
  match fld w 0 8 with
  | 0 => takeIf 38 0 (fld w 8 3 == 3) (.vpermSel (idx 32 (fld w 21 5)) (idx 32 (fld w 16 5)) (idx 32 (fld w 11 5)))
  | 1 => takeIf 38 1 (fld w 8 3 == 3) (.vpermShift (idx 32 (fld w 21 5)) (idx 32 (fld w 16 5)) (idx 32 (fld w 11 5)))
  | 2 => takeIf 38 2 (fld w 8 8 == 3) (.vpermTr (idx 32 (fld w 21 5)) (idx 32 (fld w 16 5)))
  | n => .error (.unassignedMinor 38 n)

/-- Group VMEM, major 0x27 (R155). -/
def decVmem (w : Nat) : Except DecodeError Instr :=
  match fld w 0 8 with
  | 0 => takeIf 39 0 (true) (.vmemLd (idx 32 (fld w 21 5)) (idx 32 (fld w 16 5)) (idx 32 (fld w 11 5)) (idx 8 (fld w 8 3)))
  | 1 => takeIf 39 1 (true) (.vmemSt (idx 32 (fld w 21 5)) (idx 32 (fld w 16 5)) (idx 32 (fld w 11 5)) (idx 8 (fld w 8 3)))
  | 2 => takeIf 39 2 (true) (.vmemGat (idx 32 (fld w 21 5)) (idx 32 (fld w 16 5)) (idx 32 (fld w 11 5)) (idx 8 (fld w 8 3)))
  | 3 => takeIf 39 3 (true) (.vmemSct (idx 32 (fld w 21 5)) (idx 32 (fld w 16 5)) (idx 32 (fld w 11 5)) (idx 8 (fld w 8 3)))
  | n => .error (.unassignedMinor 39 n)

/-- Group VSFU, major 0x28 (R155). -/
def decVsfu (w : Nat) : Except DecodeError Instr :=
  match fld w 0 8 with
  | 0 => takeIf 40 0 (fld w 11 5 == 0) (.vsfuRcp (idx 32 (fld w 21 5)) (idx 32 (fld w 16 5)) (idx 8 (fld w 8 3)))
  | 1 => takeIf 40 1 (fld w 11 5 == 0) (.vsfuRsqrt (idx 32 (fld w 21 5)) (idx 32 (fld w 16 5)) (idx 8 (fld w 8 3)))
  | 2 => takeIf 40 2 (fld w 11 5 == 0) (.vsfuSqrt (idx 32 (fld w 21 5)) (idx 32 (fld w 16 5)) (idx 8 (fld w 8 3)))
  | 3 => takeIf 40 3 (true) (.vsfuDiv (idx 32 (fld w 21 5)) (idx 32 (fld w 16 5)) (idx 32 (fld w 11 5)) (idx 8 (fld w 8 3)))
  | 4 => takeIf 40 4 (fld w 11 5 == 0) (.vsfuExp (idx 32 (fld w 21 5)) (idx 32 (fld w 16 5)) (idx 8 (fld w 8 3)))
  | 5 => takeIf 40 5 (fld w 11 5 == 0) (.vsfuExp2 (idx 32 (fld w 21 5)) (idx 32 (fld w 16 5)) (idx 8 (fld w 8 3)))
  | 6 => takeIf 40 6 (fld w 11 5 == 0) (.vsfuLn (idx 32 (fld w 21 5)) (idx 32 (fld w 16 5)) (idx 8 (fld w 8 3)))
  | 7 => takeIf 40 7 (fld w 11 5 == 0) (.vsfuLog2 (idx 32 (fld w 21 5)) (idx 32 (fld w 16 5)) (idx 8 (fld w 8 3)))
  | 8 => takeIf 40 8 (fld w 11 5 == 0) (.vsfuSin (idx 32 (fld w 21 5)) (idx 32 (fld w 16 5)) (idx 8 (fld w 8 3)))
  | 9 => takeIf 40 9 (fld w 11 5 == 0) (.vsfuCos (idx 32 (fld w 21 5)) (idx 32 (fld w 16 5)) (idx 8 (fld w 8 3)))
  | 10 => takeIf 40 10 (fld w 11 5 == 0) (.vsfuTanh (idx 32 (fld w 21 5)) (idx 32 (fld w 16 5)) (idx 8 (fld w 8 3)))
  | 11 => takeIf 40 11 (fld w 11 5 == 0) (.vsfuSigm (idx 32 (fld w 21 5)) (idx 32 (fld w 16 5)) (idx 8 (fld w 8 3)))
  | n => .error (.unassignedMinor 40 n)

/-- Group VCLM, major 0x29 (R155). -/
def decVclm (w : Nat) : Except DecodeError Instr :=
  match fld w 0 8 with
  | 0 => takeIf 41 0 (fld w 8 3 == 3) (.vclmLo (idx 32 (fld w 21 5)) (idx 32 (fld w 16 5)) (idx 32 (fld w 11 5)))
  | 1 => takeIf 41 1 (fld w 8 3 == 3) (.vclmHi (idx 32 (fld w 21 5)) (idx 32 (fld w 16 5)) (idx 32 (fld w 11 5)))
  | 2 => takeIf 41 2 (fld w 8 3 == 3) (.vclmXlo (idx 32 (fld w 21 5)) (idx 32 (fld w 16 5)) (idx 32 (fld w 11 5)))
  | 3 => takeIf 41 3 (fld w 8 3 == 3) (.vclmXhi (idx 32 (fld w 21 5)) (idx 32 (fld w 16 5)) (idx 32 (fld w 11 5)))
  | 4 => takeIf 41 4 (fld w 8 8 == 3) (.vclmBrev (idx 32 (fld w 21 5)) (idx 32 (fld w 16 5)))
  | n => .error (.unassignedMinor 41 n)

/-- Group VSEL, major 0x2A (R155). -/
def decVsel (w : Nat) : Except DecodeError Instr :=
  match fld w 0 8 with
  | 0 => takeIf 42 0 (fld w 8 3 == 3) (.vselSel (idx 32 (fld w 21 5)) (idx 32 (fld w 16 5)) (idx 32 (fld w 11 5)))
  | 1 => takeIf 42 1 (fld w 8 8 == 3) (.vselSelz (idx 32 (fld w 21 5)) (idx 32 (fld w 16 5)))
  | n => .error (.unassignedMinor 42 n)

/-- Group VSET, major 0x2B (R155). -/
def decVset (w : Nat) : Except DecodeError Instr :=
  match fld w 0 8 with
  | 0 => takeIf 43 0 (fld w 11 5 == 0) (.vsetBcast (idx 32 (fld w 21 5)) (idx 32 (fld w 16 5)) (idx 8 (fld w 8 3)))
  | 1 => takeIf 43 1 (fld w 11 10 == 0) (.vsetIota (idx 32 (fld w 21 5)) (idx 8 (fld w 8 3)))
  | 2 => takeIf 43 2 (fld w 11 10 == 0) (.vsetIrow (idx 32 (fld w 21 5)) (idx 8 (fld w 8 3)))
  | 3 => takeIf 43 3 (fld w 11 10 == 0) (.vsetIcol (idx 32 (fld w 21 5)) (idx 8 (fld w 8 3)))
  | 4 => takeIf 43 4 (fld w 8 3 == 3) (.vsetGet (idx 32 (fld w 21 5)) (idx 32 (fld w 16 5)) (idx 32 (fld w 11 5)))
  | 5 => takeIf 43 5 (fld w 8 3 == 3) (.vsetPut (idx 32 (fld w 21 5)) (idx 32 (fld w 16 5)) (idx 32 (fld w 11 5)))
  | n => .error (.unassignedMinor 43 n)

/-- Group PROOF, major 0x38 (R155). -/
def decProof (w : Nat) : Except DecodeError Instr :=
  match fld w 0 5 with
  | 0 => takeIf 56 0 (fld w 5 3 == 0 && fld w 9 7 == 0 && fld w 21 5 == 0) (.proofRun (idx 32 (fld w 16 5)) (fld w 8 1 == 1))
  | n => .error (.unassignedMinor 56 n)

/-- Group PTAB, major 0x39 (R155). -/
def decPtab (w : Nat) : Except DecodeError Instr :=
  match fld w 0 5 with
  | 0 => takeIf 57 0 (fld w 5 6 == 0) (.ptabRd (idx 32 (fld w 21 5)) (idx 32 (fld w 16 5)) (idx 32 (fld w 11 5)))
  | 1 => takeIf 57 1 (fld w 5 6 == 0) (.ptabWr (idx 32 (fld w 21 5)) (idx 32 (fld w 16 5)) (idx 32 (fld w 11 5)))
  | 2 => takeIf 57 2 (fld w 5 6 == 0) (.ptabHrd (idx 32 (fld w 21 5)) (idx 32 (fld w 16 5)) (idx 32 (fld w 11 5)))
  | 3 => takeIf 57 3 (fld w 5 6 == 0) (.ptabHwr (idx 32 (fld w 21 5)) (idx 32 (fld w 16 5)) (idx 32 (fld w 11 5)))
  | 4 => takeIf 57 4 (fld w 5 6 == 0) (.ptabCrd (idx 32 (fld w 21 5)) (idx 32 (fld w 16 5)) (idx 32 (fld w 11 5)))
  | 5 => takeIf 57 5 (fld w 5 6 == 0 && fld w 21 5 == 0) (.ptabClr (idx 32 (fld w 16 5)) (idx 32 (fld w 11 5)))
  | n => .error (.unassignedMinor 57 n)

/-- Group CREEL, major 0x3A (R155). -/
def decCreel (w : Nat) : Except DecodeError Instr :=
  match fld w 0 5 with
  | 0 => takeIf 58 0 (fld w 5 6 == 0 && fld w 21 5 == 0) (.creelCfg (idx 32 (fld w 16 5)) (idx 32 (fld w 11 5)))
  | 1 => takeIf 58 1 (fld w 5 6 == 0 && fld w 21 5 == 0) (.creelBias (idx 32 (fld w 16 5)) (idx 32 (fld w 11 5)))
  | 2 => takeIf 58 2 (fld w 5 6 == 0) (.creelOffer (idx 32 (fld w 21 5)) (idx 32 (fld w 16 5)) (idx 32 (fld w 11 5)))
  | 3 => takeIf 58 3 (fld w 5 6 == 0) (.creelDrain (idx 32 (fld w 21 5)) (idx 32 (fld w 16 5)) (idx 32 (fld w 11 5)))
  | 4 => takeIf 58 4 (fld w 5 11 == 0) (.creelRd (idx 32 (fld w 21 5)) (idx 32 (fld w 16 5)))
  | n => .error (.unassignedMinor 58 n)

/-- Group ROUTE, major 0x3B (R155). -/
def decRoute (w : Nat) : Except DecodeError Instr :=
  match fld w 0 5 with
  | 0 => takeIf 59 0 (fld w 5 1 == 0) (.routeTopk (idx 32 (fld w 21 5)) (idx 32 (fld w 16 5)) (idx 32 (fld w 11 5)) (idx 4 (fld w 9 2)) (idx 8 (fld w 6 3)))
  | n => .error (.unassignedMinor 59 n)

/-- Group NMA, major 0x3C (R155). -/
def decNma (w : Nat) : Except DecodeError Instr :=
  match fld w 0 5 with
  | 0 => takeIf 60 0 (fld w 5 6 == 0) (.nmaAddI32 (idx 32 (fld w 21 5)) (idx 32 (fld w 16 5)) (idx 32 (fld w 11 5)))
  | 1 => takeIf 60 1 (fld w 5 1 == 0 && fld w 7 4 == 0) (.nmaMinI32 (idx 32 (fld w 21 5)) (idx 32 (fld w 16 5)) (idx 32 (fld w 11 5)) (fld w 6 1 == 1))
  | 2 => takeIf 60 2 (fld w 5 1 == 0 && fld w 7 4 == 0) (.nmaMaxI32 (idx 32 (fld w 21 5)) (idx 32 (fld w 16 5)) (idx 32 (fld w 11 5)) (fld w 6 1 == 1))
  | 3 => takeIf 60 3 (fld w 5 6 == 0) (.nmaAndI32 (idx 32 (fld w 21 5)) (idx 32 (fld w 16 5)) (idx 32 (fld w 11 5)))
  | 4 => takeIf 60 4 (fld w 5 6 == 0) (.nmaOrI32 (idx 32 (fld w 21 5)) (idx 32 (fld w 16 5)) (idx 32 (fld w 11 5)))
  | 5 => takeIf 60 5 (fld w 5 6 == 0) (.nmaXorI32 (idx 32 (fld w 21 5)) (idx 32 (fld w 16 5)) (idx 32 (fld w 11 5)))
  | 6 => takeIf 60 6 (fld w 5 6 == 0) (.nmaSwapI32 (idx 32 (fld w 21 5)) (idx 32 (fld w 16 5)) (idx 32 (fld w 11 5)))
  | 7 => takeIf 60 7 (fld w 5 6 == 0) (.nmaCasI32 (idx 32 (fld w 21 5)) (idx 32 (fld w 16 5)) (idx 32 (fld w 11 5)))
  | 8 => takeIf 60 8 (fld w 5 6 == 0) (.nmaAddI64 (idx 32 (fld w 21 5)) (idx 32 (fld w 16 5)) (idx 32 (fld w 11 5)))
  | 9 => takeIf 60 9 (fld w 5 1 == 0 && fld w 7 4 == 0) (.nmaMinI64 (idx 32 (fld w 21 5)) (idx 32 (fld w 16 5)) (idx 32 (fld w 11 5)) (fld w 6 1 == 1))
  | 10 => takeIf 60 10 (fld w 5 1 == 0 && fld w 7 4 == 0) (.nmaMaxI64 (idx 32 (fld w 21 5)) (idx 32 (fld w 16 5)) (idx 32 (fld w 11 5)) (fld w 6 1 == 1))
  | 11 => takeIf 60 11 (fld w 5 6 == 0) (.nmaAndI64 (idx 32 (fld w 21 5)) (idx 32 (fld w 16 5)) (idx 32 (fld w 11 5)))
  | 12 => takeIf 60 12 (fld w 5 6 == 0) (.nmaOrI64 (idx 32 (fld w 21 5)) (idx 32 (fld w 16 5)) (idx 32 (fld w 11 5)))
  | 13 => takeIf 60 13 (fld w 5 6 == 0) (.nmaXorI64 (idx 32 (fld w 21 5)) (idx 32 (fld w 16 5)) (idx 32 (fld w 11 5)))
  | 14 => takeIf 60 14 (fld w 5 6 == 0) (.nmaSwapI64 (idx 32 (fld w 21 5)) (idx 32 (fld w 16 5)) (idx 32 (fld w 11 5)))
  | 15 => takeIf 60 15 (fld w 5 6 == 0) (.nmaCasI64 (idx 32 (fld w 21 5)) (idx 32 (fld w 16 5)) (idx 32 (fld w 11 5)))
  | 16 => takeIf 60 16 (fld w 5 6 == 0) (.nmaAddF32 (idx 32 (fld w 21 5)) (idx 32 (fld w 16 5)) (idx 32 (fld w 11 5)))
  | 17 => takeIf 60 17 (fld w 5 6 == 0) (.nmaMinF32 (idx 32 (fld w 21 5)) (idx 32 (fld w 16 5)) (idx 32 (fld w 11 5)))
  | 18 => takeIf 60 18 (fld w 5 6 == 0) (.nmaMaxF32 (idx 32 (fld w 21 5)) (idx 32 (fld w 16 5)) (idx 32 (fld w 11 5)))
  | 22 => takeIf 60 22 (fld w 5 6 == 0) (.nmaSwapF32 (idx 32 (fld w 21 5)) (idx 32 (fld w 16 5)) (idx 32 (fld w 11 5)))
  | 23 => takeIf 60 23 (fld w 5 6 == 0) (.nmaCasF32 (idx 32 (fld w 21 5)) (idx 32 (fld w 16 5)) (idx 32 (fld w 11 5)))
  | 24 => takeIf 60 24 (fld w 5 3 == 0 && fld w 9 2 == 0) (.nmaLaddF32 (idx 32 (fld w 21 5)) (idx 32 (fld w 16 5)) (idx 32 (fld w 11 5)) (fld w 8 1 == 1))
  | 25 => takeIf 60 25 (fld w 5 3 == 0 && fld w 9 2 == 0) (.nmaLaddI32 (idx 32 (fld w 21 5)) (idx 32 (fld w 16 5)) (idx 32 (fld w 11 5)) (fld w 8 1 == 1))
  | 26 => takeIf 60 26 (fld w 5 3 == 0 && fld w 9 2 == 0) (.nmaLmaxF32 (idx 32 (fld w 21 5)) (idx 32 (fld w 16 5)) (idx 32 (fld w 11 5)) (fld w 8 1 == 1))
  | n => .error (.unassignedMinor 60 n)

/-- Group NMX, major 0x3D (R155). -/
def decNmx (w : Nat) : Except DecodeError Instr :=
  match fld w 0 5 with
  | 0 => takeIf 61 0 (fld w 5 6 == 0 && fld w 21 5 == 0) (.skSeed (idx 32 (fld w 16 5)) (idx 32 (fld w 11 5)))
  | 1 => takeIf 61 1 (fld w 5 6 == 0) (.skUpd (idx 32 (fld w 21 5)) (idx 32 (fld w 16 5)) (idx 32 (fld w 11 5)))
  | 2 => takeIf 61 2 (fld w 5 3 == 0 && fld w 9 2 == 0 && fld w 21 5 == 0) (.skUpdl (idx 32 (fld w 16 5)) (idx 32 (fld w 11 5)) (fld w 8 1 == 1))
  | 3 => takeIf 61 3 (fld w 5 6 == 0) (.skQry (idx 32 (fld w 21 5)) (idx 32 (fld w 16 5)) (idx 32 (fld w 11 5)))
  | 4 => takeIf 61 4 (fld w 5 3 == 0 && fld w 9 2 == 0 && fld w 21 5 == 0) (.skQryl (idx 32 (fld w 16 5)) (idx 32 (fld w 11 5)) (fld w 8 1 == 1))
  | 5 => takeIf 61 5 (fld w 5 6 == 0 && fld w 21 5 == 0) (.skAdd (idx 32 (fld w 16 5)) (idx 32 (fld w 11 5)))
  | 6 => takeIf 61 6 (fld w 5 11 == 0 && fld w 21 5 == 0) (.skClr (idx 32 (fld w 16 5)))
  | 8 => takeIf 61 8 (fld w 5 1 == 0 && fld w 7 4 == 0) (.ocInit (idx 32 (fld w 21 5)) (idx 32 (fld w 16 5)) (idx 32 (fld w 11 5)) (fld w 6 1 == 1))
  | 9 => takeIf 61 9 (fld w 5 6 == 0) (.ocIns (idx 32 (fld w 21 5)) (idx 32 (fld w 16 5)) (idx 32 (fld w 11 5)))
  | 10 => takeIf 61 10 (fld w 5 6 == 0) (.ocLdt (idx 32 (fld w 21 5)) (idx 32 (fld w 16 5)) (idx 32 (fld w 11 5)))
  | 11 => takeIf 61 11 (fld w 5 6 == 0) (.ocLds (idx 32 (fld w 21 5)) (idx 32 (fld w 16 5)) (idx 32 (fld w 11 5)))
  | 12 => takeIf 61 12 (fld w 5 6 == 0 && fld w 21 5 == 0) (.ocSettle (idx 32 (fld w 16 5)) (idx 32 (fld w 11 5)))
  | 13 => takeIf 61 13 (fld w 5 6 == 0 && fld w 16 5 == 0) (.ocFold (idx 32 (fld w 21 5)) (idx 32 (fld w 11 5)))
  | n => .error (.unassignedMinor 61 n)

/-- Group POST, major 0x3E (R155). -/
def decPost (w : Nat) : Except DecodeError Instr :=
  match fld w 0 5 with
  | 0 => takeIf 62 0 (fld w 5 11 == 0 && fld w 21 5 == 0) (.postTask (idx 32 (fld w 16 5)))
  | 1 => takeIf 62 1 (fld w 5 6 == 0 && fld w 21 5 == 0) (.postQp (idx 32 (fld w 16 5)) (idx 32 (fld w 11 5)))
  | 2 => takeIf 62 2 (fld w 5 3 == 0) (.postTcadd (idx 32 (fld w 21 5)) (idx 32 (fld w 16 5)) (idx 32 (fld w 11 5)) (idx 4 (fld w 9 2)) (fld w 8 1 == 1))
  | 3 => takeIf 62 3 (fld w 5 3 == 0) (.postTcset (idx 32 (fld w 21 5)) (idx 32 (fld w 16 5)) (idx 32 (fld w 11 5)) (idx 4 (fld w 9 2)) (fld w 8 1 == 1))
  | 4 => takeIf 62 4 (fld w 5 3 == 0) (.postTcrd (idx 32 (fld w 21 5)) (idx 32 (fld w 16 5)) (idx 32 (fld w 11 5)) (idx 4 (fld w 9 2)) (fld w 8 1 == 1))
  | 5 => takeIf 62 5 (fld w 5 3 == 0) (.postTcwait (idx 32 (fld w 21 5)) (idx 32 (fld w 16 5)) (idx 32 (fld w 11 5)) (idx 4 (fld w 9 2)) (fld w 8 1 == 1))
  | 8 => takeIf 62 8 (fld w 5 6 == 0 && fld w 21 5 == 0) (.postWbeg (idx 32 (fld w 16 5)) (idx 32 (fld w 11 5)))
  | 9 => takeIf 62 9 (fld w 5 6 == 0 && fld w 16 10 == 0) (.postWcom (idx 32 (fld w 11 5)))
  | 10 => takeIf 62 10 (fld w 5 6 == 0 && fld w 16 10 == 0) (.postWabn (idx 32 (fld w 11 5)))
  | 11 => takeIf 62 11 (fld w 5 6 == 0 && fld w 16 5 == 0) (.postWst (idx 32 (fld w 21 5)) (idx 32 (fld w 11 5)))
  | n => .error (.unassignedMinor 62 n)

/-- One 32-bit word as an instruction (R155); a bundle header is not one (R150). -/
def decodeWord (w : Nat) : Except DecodeError Instr :=
  match fld w 26 6 with
  | 1 => decIop w
  | 2 => decIopi w
  | 3 => decIhi w
  | 4 => decCmp w
  | 5 => decPrd w
  | 6 => decBr w
  | 7 => decJmp w
  | 8 => decLoop w
  | 9 => decLds w
  | 10 => decSts w
  | 11 => decCsr w
  | 12 => decBitf w
  | 13 => decMuldiv w
  | 14 => decSys w
  | 15 => decPriv w
  | 16 => decRing w
  | 17 => decSem w
  | 18 => decGbar w
  | 19 => decOrd w
  | 24 => decCopy w
  | 25 => decGath w
  | 26 => decLine w
  | 27 => decMark w
  | 48 => decMma w
  | 49 => decAcc w
  | 50 => decTent w
  | 51 => decRslv w
  | 52 => decMkat w
  | 32 => decVfp w
  | 33 => decVfma w
  | 34 => decVint w
  | 35 => decVcmp w
  | 36 => decVcvt w
  | 37 => decVred w
  | 38 => decVperm w
  | 39 => decVmem w
  | 40 => decVsfu w
  | 41 => decVclm w
  | 42 => decVsel w
  | 43 => decVset w
  | 56 => decProof w
  | 57 => decPtab w
  | 58 => decCreel w
  | 59 => decRoute w
  | 60 => decNma w
  | 61 => decNmx w
  | 62 => decPost w
  | m => .error (.reservedMajor m)

/-- Splits off n words. -/
def takeWords : Nat → List W32 → Option (List W32 × List W32)
  | 0, ws => some ([], ws)
  | _ + 1, [] => none
  | n + 1, w :: ws => (takeWords n ws).map fun r => (w :: r.1, r.2)

/-- An instruction at the head of a list of words, and the words that follow it. A header takes the N + 1 slot
words after it (R150). -/
def decodeWords : List W32 → Except DecodeError (Instr × List W32)
  | [] => .error .short
  | w :: ws =>
    if fld w.toNat 26 6 = 63 then
      match takeWords (fld w.toNat 20 2 + 1) ws with
      | some (slots, rest) => .ok (.bundleIssue w slots, rest)
      | none => .error .short
    else
      match decodeWord w.toNat with
      | .ok i => .ok (i, ws)
      | .error e => .error e

/-- The word of four bytes, the first the least significant (R3). -/
def wordOfBytes (b0 b1 b2 b3 : Byte) : W32 :=
  BitVec.ofNat 32 (b0.toNat + b1.toNat * 2 ^ 8 + b2.toNat * 2 ^ 16 + b3.toNat * 2 ^ 24)

/-- The four bytes of a word (R3). -/
def bytesOfWord (w : W32) : List Byte :=
  [BitVec.ofNat 8 w.toNat, BitVec.ofNat 8 (w.toNat / 2 ^ 8), BitVec.ofNat 8 (w.toNat / 2 ^ 16),
    BitVec.ofNat 8 (w.toNat / 2 ^ 24)]

/-- Whole words of a list of bytes (R145); bytes short of a word are dropped. -/
def wordsOfBytes : List Byte → List W32
  | b0 :: b1 :: b2 :: b3 :: bs => wordOfBytes b0 b1 b2 b3 :: wordsOfBytes bs
  | _ => []

/-- An instruction at the head of a list of bytes, and the words that follow it. -/
def decodeBytes (bs : List Byte) : Except DecodeError (Instr × List W32) :=
  decodeWords (wordsOfBytes bs)

/-- The n low bytes of a number, least significant first (R3). -/
def bytesOfNat : Nat → Nat → List Byte
  | 0, _ => []
  | n + 1, w => BitVec.ofNat 8 w :: bytesOfNat n (w / 2 ^ 8)

/-- The longest instruction is a bundle of a header and four slots (R150). -/
def maxInstrBytes : Nat := 20

/-- The instruction whose bits are w, bit 0 the least significant bit of its first word: its bytes are w's, the
lowest first, and every bit above nbits is 0. -/
def decodeTableWord (nbits w : Nat) : Option Instr :=
  match decodeBytes (bytesOfNat maxInstrBytes (w % 2 ^ nbits)) with
  | .ok (i, _) => some i
  | .error _ => none

/-- A word from its fixed bits and its fields, each a value and the bit it begins at (R145). -/
def pack (fixed : Nat) : List (Nat × Nat) → Nat
  | [] => fixed
  | (v, lo) :: fs => pack fixed fs + v * 2 ^ lo

set_option maxHeartbeats 2000000 in
/-- The word of an instruction, by the fixed bits and fields of its entry; 0 for the rows that have no word of
their own. -/
def encodeNat : Instr → Nat
  | .iopAdd d a b => pack 0x04000000 [(d.val, 21), (a.val, 16), (b.val, 11)]
  | .iopSub d a b => pack 0x04000001 [(d.val, 21), (a.val, 16), (b.val, 11)]
  | .iopAnd d a b => pack 0x04000002 [(d.val, 21), (a.val, 16), (b.val, 11)]
  | .iopOr d a b => pack 0x04000003 [(d.val, 21), (a.val, 16), (b.val, 11)]
  | .iopXor d a b => pack 0x04000004 [(d.val, 21), (a.val, 16), (b.val, 11)]
  | .iopShl d a b => pack 0x04000005 [(d.val, 21), (a.val, 16), (b.val, 11)]
  | .iopShr d a b => pack 0x04000006 [(d.val, 21), (a.val, 16), (b.val, 11)]
  | .iopSra d a b => pack 0x04000007 [(d.val, 21), (a.val, 16), (b.val, 11)]
  | .iopMin d a b => pack 0x04000008 [(d.val, 21), (a.val, 16), (b.val, 11)]
  | .iopMax d a b => pack 0x04000009 [(d.val, 21), (a.val, 16), (b.val, 11)]
  | .iopMinu d a b => pack 0x0400000A [(d.val, 21), (a.val, 16), (b.val, 11)]
  | .iopMaxu d a b => pack 0x0400000B [(d.val, 21), (a.val, 16), (b.val, 11)]
  | .iopAddw d a b => pack 0x0400000C [(d.val, 21), (a.val, 16), (b.val, 11)]
  | .iopSubw d a b => pack 0x0400000D [(d.val, 21), (a.val, 16), (b.val, 11)]
  | .iopSlt d a b => pack 0x0400000E [(d.val, 21), (a.val, 16), (b.val, 11)]
  | .iopSltu d a b => pack 0x0400000F [(d.val, 21), (a.val, 16), (b.val, 11)]
  | .iopiAdd d a i => pack 0x08000000 [(d.val, 21), (a.val, 16), (i.toNat, 0)]
  | .iopiAnd d a i => pack 0x08001000 [(d.val, 21), (a.val, 16), (i.toNat, 0)]
  | .iopiOr d a i => pack 0x08002000 [(d.val, 21), (a.val, 16), (i.toNat, 0)]
  | .iopiXor d a i => pack 0x08003000 [(d.val, 21), (a.val, 16), (i.toNat, 0)]
  | .iopiShl d a i => pack 0x08004000 [(d.val, 21), (a.val, 16), (i.val, 0)]
  | .iopiShr d a i => pack 0x08005000 [(d.val, 21), (a.val, 16), (i.val, 0)]
  | .iopiSra d a i => pack 0x08006000 [(d.val, 21), (a.val, 16), (i.val, 0)]
  | .iopiAddw d a i => pack 0x08007000 [(d.val, 21), (a.val, 16), (i.toNat, 0)]
  | .ihiLo d i => pack 0x0C000000 [(d.val, 21), (i.toNat, 0)]
  | .ihiH1 d i => pack 0x0C010000 [(d.val, 21), (i.toNat, 0)]
  | .ihiH2 d i => pack 0x0C020000 [(d.val, 21), (i.toNat, 0)]
  | .ihiH3 d i => pack 0x0C030000 [(d.val, 21), (i.toNat, 0)]
  | .ihiLou d i => pack 0x0C040000 [(d.val, 21), (i.toNat, 0)]
  | .cmpEq d a b => pack 0x10000000 [(d.val, 21), (a.val, 16), (b.val, 11)]
  | .cmpNe d a b => pack 0x10000001 [(d.val, 21), (a.val, 16), (b.val, 11)]
  | .cmpLt d a b => pack 0x10000002 [(d.val, 21), (a.val, 16), (b.val, 11)]
  | .cmpGe d a b => pack 0x10000003 [(d.val, 21), (a.val, 16), (b.val, 11)]
  | .cmpLtu d a b => pack 0x10000004 [(d.val, 21), (a.val, 16), (b.val, 11)]
  | .cmpGeu d a b => pack 0x10000005 [(d.val, 21), (a.val, 16), (b.val, 11)]
  | .cmpTst d a b => pack 0x10000006 [(d.val, 21), (a.val, 16), (b.val, 11)]
  | .prdAnd d a b => pack 0x14000000 [(d.val, 21), (a.val, 16), (b.val, 11)]
  | .prdOr d a b => pack 0x14000001 [(d.val, 21), (a.val, 16), (b.val, 11)]
  | .prdXor d a b => pack 0x14000002 [(d.val, 21), (a.val, 16), (b.val, 11)]
  | .prdAndn d a b => pack 0x14000003 [(d.val, 21), (a.val, 16), (b.val, 11)]
  | .prdOrn d a b => pack 0x14000004 [(d.val, 21), (a.val, 16), (b.val, 11)]
  | .prdNor d a b => pack 0x14000005 [(d.val, 21), (a.val, 16), (b.val, 11)]
  | .prdFrs d a => pack 0x14000006 [(d.val, 21), (a.val, 16)]
  | .prdTos d a => pack 0x14000007 [(d.val, 21), (a.val, 16)]
  | .prdRds d => pack 0x14000008 [(d.val, 21)]
  | .prdWrs a => pack 0x14000009 [(a.val, 16)]
  | .br n p o => pack 0x18000000 [(n.toNat, 25), (p.val, 21), (o.toNat, 0)]
  | .jmpR a => pack 0x1C000000 [(a.val, 16)]
  | .jmpLink d a => pack 0x1C000001 [(d.val, 21), (a.val, 16)]
  | .loopSp c a i => pack 0x20000000 [(c.val, 21), (a.val, 16), (i.toNat, 0)]
  | .ldsB8 d a g i => pack 0x24000000 [(d.val, 21), (a.val, 16), (g.toNat, 15), (i.toNat, 0)]
  | .ldsI8 d a g i => pack 0x24001000 [(d.val, 21), (a.val, 16), (g.toNat, 15), (i.toNat, 0)]
  | .ldsB16 d a g i => pack 0x24002000 [(d.val, 21), (a.val, 16), (g.toNat, 15), (i.toNat, 0)]
  | .ldsI16 d a g i => pack 0x24003000 [(d.val, 21), (a.val, 16), (g.toNat, 15), (i.toNat, 0)]
  | .ldsB32 d a g i => pack 0x24004000 [(d.val, 21), (a.val, 16), (g.toNat, 15), (i.toNat, 0)]
  | .ldsI32 d a g i => pack 0x24005000 [(d.val, 21), (a.val, 16), (g.toNat, 15), (i.toNat, 0)]
  | .ldsB64 d a g i => pack 0x24006000 [(d.val, 21), (a.val, 16), (g.toNat, 15), (i.toNat, 0)]
  | .stsB8 d a g i => pack 0x28000000 [(d.val, 21), (a.val, 16), (g.toNat, 15), (i.toNat, 0)]
  | .stsB16 d a g i => pack 0x28002000 [(d.val, 21), (a.val, 16), (g.toNat, 15), (i.toNat, 0)]
  | .stsB32 d a g i => pack 0x28004000 [(d.val, 21), (a.val, 16), (g.toNat, 15), (i.toNat, 0)]
  | .stsB64 d a g i => pack 0x28006000 [(d.val, 21), (a.val, 16), (g.toNat, 15), (i.toNat, 0)]
  | .csrRd d c => pack 0x2C000000 [(d.val, 21), (c.toNat, 0)]
  | .csrWr a c => pack 0x2C001000 [(a.val, 16), (c.toNat, 0)]
  | .csrSet d a c => pack 0x2C002000 [(d.val, 21), (a.val, 16), (c.toNat, 0)]
  | .csrClr d a c => pack 0x2C003000 [(d.val, 21), (a.val, 16), (c.toNat, 0)]
  | .bitfPopc d a => pack 0x30000000 [(d.val, 21), (a.val, 16)]
  | .bitfClz d a => pack 0x30000001 [(d.val, 21), (a.val, 16)]
  | .bitfCtz d a => pack 0x30000002 [(d.val, 21), (a.val, 16)]
  | .bitfBrev d a => pack 0x30000003 [(d.val, 21), (a.val, 16)]
  | .bitfBswap d a => pack 0x30000004 [(d.val, 21), (a.val, 16)]
  | .bitfExtu d a b => pack 0x30000005 [(d.val, 21), (a.val, 16), (b.val, 11)]
  | .bitfExts d a b => pack 0x30000006 [(d.val, 21), (a.val, 16), (b.val, 11)]
  | .bitfIns d a b => pack 0x30000007 [(d.val, 21), (a.val, 16), (b.val, 11)]
  | .muldivMul d a b => pack 0x34000000 [(d.val, 21), (a.val, 16), (b.val, 11)]
  | .muldivMulh d a b => pack 0x34000001 [(d.val, 21), (a.val, 16), (b.val, 11)]
  | .muldivMulhu d a b => pack 0x34000002 [(d.val, 21), (a.val, 16), (b.val, 11)]
  | .muldivDiv d a b => pack 0x34000003 [(d.val, 21), (a.val, 16), (b.val, 11)]
  | .muldivDivu d a b => pack 0x34000004 [(d.val, 21), (a.val, 16), (b.val, 11)]
  | .muldivRem d a b => pack 0x34000005 [(d.val, 21), (a.val, 16), (b.val, 11)]
  | .muldivRemu d a b => pack 0x34000006 [(d.val, 21), (a.val, 16), (b.val, 11)]
  | .sysNop => pack 0x38000000 []
  | .sysEnd g => pack 0x38000001 [(g.toNat, 6)]
  | .sysTrap a n => pack 0x38000002 [(a.val, 16), (n.val, 6)]
  | .sysWev => pack 0x38000003 []
  | .privRd d a => pack 0x3C000000 [(d.val, 21), (a.val, 16)]
  | .privWr a b => pack 0x3C000001 [(a.val, 16), (b.val, 11)]
  | .privRet => pack 0x3C000002 []
  | .privHcall x => pack 0x3C000003 [(x.val, 6)]
  | .privWfi => pack 0x3C000004 []
  | .privTinv a b => pack 0x3C000005 [(a.val, 16), (b.val, 11)]
  | .ringClaim d a b m => pack 0x40000000 [(d.val, 21), (a.val, 16), (b.val, 11), (m.toNat, 5)]
  | .ringCommit d a b m => pack 0x40000001 [(d.val, 21), (a.val, 16), (b.val, 11), (m.toNat, 5)]
  | .ringWaitf a b m => pack 0x40000002 [(a.val, 16), (b.val, 11), (m.toNat, 5)]
  | .ringWaitr a b m => pack 0x40000003 [(a.val, 16), (b.val, 11), (m.toNat, 5)]
  | .ringPop a b m => pack 0x40000004 [(a.val, 16), (b.val, 11), (m.toNat, 5)]
  | .ringCfg a b => pack 0x40000005 [(a.val, 16), (b.val, 11)]
  | .ringRd d a => pack 0x40000006 [(d.val, 21), (a.val, 16)]
  | .semAdd d a b m => pack 0x44000000 [(d.val, 21), (a.val, 16), (b.val, 11), (m.toNat, 5)]
  | .semWaitge a b => pack 0x44000001 [(a.val, 16), (b.val, 11)]
  | .semRd d a => pack 0x44000002 [(d.val, 21), (a.val, 16)]
  | .gbarArr a => pack 0x48000000 [(a.val, 16)]
  | .gbarWait a => pack 0x48000001 [(a.val, 16)]
  | .gbarSync a => pack 0x48000002 [(a.val, 16)]
  | .ordRel s => pack 0x4C000000 [(s.val, 5)]
  | .ordAcq s => pack 0x4C000001 [(s.val, 5)]
  | .ordFull s => pack 0x4C000002 [(s.val, 5)]
  | .copyIn d a b g m => pack 0x60000000 [(d.val, 21), (a.val, 16), (b.val, 11), (g.toNat, 8), (m.toNat, 7)]
  | .copyOut d a b k g => pack 0x60000001 [(d.val, 21), (a.val, 16), (b.val, 11), (k.toNat, 9), (g.toNat, 8)]
  | .copyWt d a b x g m => pack 0x60000002 [(d.val, 21), (a.val, 16), (b.val, 11), (x.toNat, 10), (g.toNat, 8), (m.toNat, 7)]
  | .copyMm d a b g => pack 0x60000003 [(d.val, 21), (a.val, 16), (b.val, 11), (g.toNat, 8)]
  | .gathFill d a g => pack 0x64000000 [(d.val, 21), (a.val, 16), (g.toNat, 8)]
  | .lineRd d a => pack 0x68000000 [(d.val, 21), (a.val, 16)]
  | .lineWr a b => pack 0x68000001 [(a.val, 16), (b.val, 11)]
  | .lineSet d a b g => pack 0x68000002 [(d.val, 21), (a.val, 16), (b.val, 11), (g.toNat, 8)]
  | .markTile => pack 0x6C000000 []
  | .markDrain => pack 0x6C000001 []
  | .mmaRn8 d a b i j k o r => pack 0xC0000000 [(d.val, 21), (a.val, 16), (b.val, 11), (i.toNat, 10), (j.toNat, 9), (k.toNat, 8), (o.toNat, 7), (r.toNat, 6)]
  | .mmaRn4 d a b i j k o r => pack 0xC0000001 [(d.val, 21), (a.val, 16), (b.val, 11), (i.toNat, 10), (j.toNat, 9), (k.toNat, 8), (o.toNat, 7), (r.toNat, 6)]
  | .mmaRnx d a b i j k o r => pack 0xC0000002 [(d.val, 21), (a.val, 16), (b.val, 11), (i.toNat, 10), (j.toNat, 9), (k.toNat, 8), (o.toNat, 7), (r.toNat, 6)]
  | .mmaRny d a b i j k o r => pack 0xC0000003 [(d.val, 21), (a.val, 16), (b.val, 11), (i.toNat, 10), (j.toNat, 9), (k.toNat, 8), (o.toNat, 7), (r.toNat, 6)]
  | .mmaBf16 d a b i j k o r => pack 0xC0000004 [(d.val, 21), (a.val, 16), (b.val, 11), (i.toNat, 10), (j.toNat, 9), (k.toNat, 8), (o.toNat, 7), (r.toNat, 6)]
  | .accRd d a b => pack 0xC4000000 [(d.val, 21), (a.val, 16), (b.val, 11)]
  | .accFlg d a => pack 0xC4000001 [(d.val, 21), (a.val, 16)]
  | .accSt d a x y => pack 0xC4000002 [(d.val, 21), (a.val, 16), (x.toNat, 10), (y.toNat, 9)]
  | .accAdd d a b => pack 0xC4000003 [(d.val, 21), (a.val, 16), (b.val, 11)]
  | .accZero d => pack 0xC4000004 [(d.val, 21)]
  | .tentMark d a => pack 0xC8000000 [(d.val, 21), (a.val, 16)]
  | .rslv d a f g => pack 0xCC000000 [(d.val, 21), (a.val, 16), (f.toNat, 10), (g.toNat, 9)]
  | .mkat a b => pack 0xD0000000 [(a.val, 16), (b.val, 11)]
  | .vfpAdd d a b t => pack 0x80000000 [(d.val, 21), (a.val, 16), (b.val, 11), (t.val, 8)]
  | .vfpSub d a b t => pack 0x80000001 [(d.val, 21), (a.val, 16), (b.val, 11), (t.val, 8)]
  | .vfpMul d a b t => pack 0x80000002 [(d.val, 21), (a.val, 16), (b.val, 11), (t.val, 8)]
  | .vfpMin d a b t => pack 0x80000003 [(d.val, 21), (a.val, 16), (b.val, 11), (t.val, 8)]
  | .vfpMax d a b t => pack 0x80000004 [(d.val, 21), (a.val, 16), (b.val, 11), (t.val, 8)]
  | .vfpAbs d a t => pack 0x80000005 [(d.val, 21), (a.val, 16), (t.val, 8)]
  | .vfpNeg d a t => pack 0x80000006 [(d.val, 21), (a.val, 16), (t.val, 8)]
  | .vfpCpsgn d a b t => pack 0x80000007 [(d.val, 21), (a.val, 16), (b.val, 11), (t.val, 8)]
  | .vfmaFma d a b t => pack 0x84000000 [(d.val, 21), (a.val, 16), (b.val, 11), (t.val, 8)]
  | .vfmaFms d a b t => pack 0x84000001 [(d.val, 21), (a.val, 16), (b.val, 11), (t.val, 8)]
  | .vfmaFnma d a b t => pack 0x84000002 [(d.val, 21), (a.val, 16), (b.val, 11), (t.val, 8)]
  | .vfmaFnms d a b t => pack 0x84000003 [(d.val, 21), (a.val, 16), (b.val, 11), (t.val, 8)]
  | .vintAdd d a b t => pack 0x88000000 [(d.val, 21), (a.val, 16), (b.val, 11), (t.val, 8)]
  | .vintSub d a b t => pack 0x88000001 [(d.val, 21), (a.val, 16), (b.val, 11), (t.val, 8)]
  | .vintMul d a b t => pack 0x88000002 [(d.val, 21), (a.val, 16), (b.val, 11), (t.val, 8)]
  | .vintAnd d a b t => pack 0x88000003 [(d.val, 21), (a.val, 16), (b.val, 11), (t.val, 8)]
  | .vintOr d a b t => pack 0x88000004 [(d.val, 21), (a.val, 16), (b.val, 11), (t.val, 8)]
  | .vintXor d a b t => pack 0x88000005 [(d.val, 21), (a.val, 16), (b.val, 11), (t.val, 8)]
  | .vintAndn d a b t => pack 0x88000006 [(d.val, 21), (a.val, 16), (b.val, 11), (t.val, 8)]
  | .vintShl d a b t => pack 0x88000007 [(d.val, 21), (a.val, 16), (b.val, 11), (t.val, 8)]
  | .vintShr d a b t => pack 0x88000008 [(d.val, 21), (a.val, 16), (b.val, 11), (t.val, 8)]
  | .vintSra d a b t => pack 0x88000009 [(d.val, 21), (a.val, 16), (b.val, 11), (t.val, 8)]
  | .vintMin d a b t => pack 0x8800000A [(d.val, 21), (a.val, 16), (b.val, 11), (t.val, 8)]
  | .vintMax d a b t => pack 0x8800000B [(d.val, 21), (a.val, 16), (b.val, 11), (t.val, 8)]
  | .vintAdds d a b t => pack 0x8800000C [(d.val, 21), (a.val, 16), (b.val, 11), (t.val, 8)]
  | .vintSubs d a b t => pack 0x8800000D [(d.val, 21), (a.val, 16), (b.val, 11), (t.val, 8)]
  | .vintAbs d a t => pack 0x8800000E [(d.val, 21), (a.val, 16), (t.val, 8)]
  | .vintMulh d a b t => pack 0x8800000F [(d.val, 21), (a.val, 16), (b.val, 11), (t.val, 8)]
  | .vcmpEq d a b t => pack 0x8C000000 [(d.val, 21), (a.val, 16), (b.val, 11), (t.val, 8)]
  | .vcmpNe d a b t => pack 0x8C000001 [(d.val, 21), (a.val, 16), (b.val, 11), (t.val, 8)]
  | .vcmpLt d a b t => pack 0x8C000002 [(d.val, 21), (a.val, 16), (b.val, 11), (t.val, 8)]
  | .vcmpLe d a b t => pack 0x8C000003 [(d.val, 21), (a.val, 16), (b.val, 11), (t.val, 8)]
  | .vcmpGt d a b t => pack 0x8C000004 [(d.val, 21), (a.val, 16), (b.val, 11), (t.val, 8)]
  | .vcmpGe d a b t => pack 0x8C000005 [(d.val, 21), (a.val, 16), (b.val, 11), (t.val, 8)]
  | .vcmpUn d a b t => pack 0x8C000006 [(d.val, 21), (a.val, 16), (b.val, 11), (t.val, 8)]
  | .vcvtF2i d a t => pack 0x90000000 [(d.val, 21), (a.val, 16), (t.val, 8)]
  | .vcvtI2f d a t => pack 0x90000001 [(d.val, 21), (a.val, 16), (t.val, 8)]
  | .vcvtF2h d a => pack 0x90000102 [(d.val, 21), (a.val, 16)]
  | .vcvtH2f d a => pack 0x90000103 [(d.val, 21), (a.val, 16)]
  | .vcvtRint d a t => pack 0x90000004 [(d.val, 21), (a.val, 16), (t.val, 8)]
  | .vcvtQf d a b t => pack 0x90000005 [(d.val, 21), (a.val, 16), (b.val, 11), (t.val, 8)]
  | .vcvtQh d a b t => pack 0x90000006 [(d.val, 21), (a.val, 16), (b.val, 11), (t.val, 8)]
  | .vredSum d a t => pack 0x94000000 [(d.val, 21), (a.val, 16), (t.val, 8)]
  | .vredMax d a t => pack 0x94000001 [(d.val, 21), (a.val, 16), (t.val, 8)]
  | .vredMin d a t => pack 0x94000002 [(d.val, 21), (a.val, 16), (t.val, 8)]
  | .vredAnd d a t => pack 0x94000003 [(d.val, 21), (a.val, 16), (t.val, 8)]
  | .vredOr d a t => pack 0x94000004 [(d.val, 21), (a.val, 16), (t.val, 8)]
  | .vredXor d a t => pack 0x94000005 [(d.val, 21), (a.val, 16), (t.val, 8)]
  | .vredSadd d a t => pack 0x94000006 [(d.val, 21), (a.val, 16), (t.val, 8)]
  | .vredSmax d a t => pack 0x94000007 [(d.val, 21), (a.val, 16), (t.val, 8)]
  | .vredAnyp d a => pack 0x94000308 [(d.val, 21), (a.val, 16)]
  | .vredAllp d a => pack 0x94000309 [(d.val, 21), (a.val, 16)]
  | .vpermSel d a b => pack 0x98000300 [(d.val, 21), (a.val, 16), (b.val, 11)]
  | .vpermShift d a b => pack 0x98000301 [(d.val, 21), (a.val, 16), (b.val, 11)]
  | .vpermTr d a => pack 0x98000302 [(d.val, 21), (a.val, 16)]
  | .vmemLd d a b t => pack 0x9C000000 [(d.val, 21), (a.val, 16), (b.val, 11), (t.val, 8)]
  | .vmemSt d a b t => pack 0x9C000001 [(d.val, 21), (a.val, 16), (b.val, 11), (t.val, 8)]
  | .vmemGat d a b t => pack 0x9C000002 [(d.val, 21), (a.val, 16), (b.val, 11), (t.val, 8)]
  | .vmemSct d a b t => pack 0x9C000003 [(d.val, 21), (a.val, 16), (b.val, 11), (t.val, 8)]
  | .vsfuRcp d a t => pack 0xA0000000 [(d.val, 21), (a.val, 16), (t.val, 8)]
  | .vsfuRsqrt d a t => pack 0xA0000001 [(d.val, 21), (a.val, 16), (t.val, 8)]
  | .vsfuSqrt d a t => pack 0xA0000002 [(d.val, 21), (a.val, 16), (t.val, 8)]
  | .vsfuDiv d a b t => pack 0xA0000003 [(d.val, 21), (a.val, 16), (b.val, 11), (t.val, 8)]
  | .vsfuExp d a t => pack 0xA0000004 [(d.val, 21), (a.val, 16), (t.val, 8)]
  | .vsfuExp2 d a t => pack 0xA0000005 [(d.val, 21), (a.val, 16), (t.val, 8)]
  | .vsfuLn d a t => pack 0xA0000006 [(d.val, 21), (a.val, 16), (t.val, 8)]
  | .vsfuLog2 d a t => pack 0xA0000007 [(d.val, 21), (a.val, 16), (t.val, 8)]
  | .vsfuSin d a t => pack 0xA0000008 [(d.val, 21), (a.val, 16), (t.val, 8)]
  | .vsfuCos d a t => pack 0xA0000009 [(d.val, 21), (a.val, 16), (t.val, 8)]
  | .vsfuTanh d a t => pack 0xA000000A [(d.val, 21), (a.val, 16), (t.val, 8)]
  | .vsfuSigm d a t => pack 0xA000000B [(d.val, 21), (a.val, 16), (t.val, 8)]
  | .vclmLo d a b => pack 0xA4000300 [(d.val, 21), (a.val, 16), (b.val, 11)]
  | .vclmHi d a b => pack 0xA4000301 [(d.val, 21), (a.val, 16), (b.val, 11)]
  | .vclmXlo d a b => pack 0xA4000302 [(d.val, 21), (a.val, 16), (b.val, 11)]
  | .vclmXhi d a b => pack 0xA4000303 [(d.val, 21), (a.val, 16), (b.val, 11)]
  | .vclmBrev d a => pack 0xA4000304 [(d.val, 21), (a.val, 16)]
  | .vselSel d a b => pack 0xA8000300 [(d.val, 21), (a.val, 16), (b.val, 11)]
  | .vselSelz d a => pack 0xA8000301 [(d.val, 21), (a.val, 16)]
  | .vsetBcast d a t => pack 0xAC000000 [(d.val, 21), (a.val, 16), (t.val, 8)]
  | .vsetIota d t => pack 0xAC000001 [(d.val, 21), (t.val, 8)]
  | .vsetIrow d t => pack 0xAC000002 [(d.val, 21), (t.val, 8)]
  | .vsetIcol d t => pack 0xAC000003 [(d.val, 21), (t.val, 8)]
  | .vsetGet d a b => pack 0xAC000304 [(d.val, 21), (a.val, 16), (b.val, 11)]
  | .vsetPut d a b => pack 0xAC000305 [(d.val, 21), (a.val, 16), (b.val, 11)]
  | .proofRun a g => pack 0xE0000000 [(a.val, 16), (g.toNat, 8)]
  | .ptabRd d a b => pack 0xE4000000 [(d.val, 21), (a.val, 16), (b.val, 11)]
  | .ptabWr d a b => pack 0xE4000001 [(d.val, 21), (a.val, 16), (b.val, 11)]
  | .ptabHrd d a b => pack 0xE4000002 [(d.val, 21), (a.val, 16), (b.val, 11)]
  | .ptabHwr d a b => pack 0xE4000003 [(d.val, 21), (a.val, 16), (b.val, 11)]
  | .ptabCrd d a b => pack 0xE4000004 [(d.val, 21), (a.val, 16), (b.val, 11)]
  | .ptabClr a b => pack 0xE4000005 [(a.val, 16), (b.val, 11)]
  | .creelCfg a b => pack 0xE8000000 [(a.val, 16), (b.val, 11)]
  | .creelBias a b => pack 0xE8000001 [(a.val, 16), (b.val, 11)]
  | .creelOffer d a b => pack 0xE8000002 [(d.val, 21), (a.val, 16), (b.val, 11)]
  | .creelDrain d a b => pack 0xE8000003 [(d.val, 21), (a.val, 16), (b.val, 11)]
  | .creelRd d a => pack 0xE8000004 [(d.val, 21), (a.val, 16)]
  | .routeTopk d a b n k => pack 0xEC000000 [(d.val, 21), (a.val, 16), (b.val, 11), (n.val, 9), (k.val, 6)]
  | .nmaAddI32 d a b => pack 0xF0000000 [(d.val, 21), (a.val, 16), (b.val, 11)]
  | .nmaMinI32 d a b u => pack 0xF0000001 [(d.val, 21), (a.val, 16), (b.val, 11), (u.toNat, 6)]
  | .nmaMaxI32 d a b u => pack 0xF0000002 [(d.val, 21), (a.val, 16), (b.val, 11), (u.toNat, 6)]
  | .nmaAndI32 d a b => pack 0xF0000003 [(d.val, 21), (a.val, 16), (b.val, 11)]
  | .nmaOrI32 d a b => pack 0xF0000004 [(d.val, 21), (a.val, 16), (b.val, 11)]
  | .nmaXorI32 d a b => pack 0xF0000005 [(d.val, 21), (a.val, 16), (b.val, 11)]
  | .nmaSwapI32 d a b => pack 0xF0000006 [(d.val, 21), (a.val, 16), (b.val, 11)]
  | .nmaCasI32 d a b => pack 0xF0000007 [(d.val, 21), (a.val, 16), (b.val, 11)]
  | .nmaAddI64 d a b => pack 0xF0000008 [(d.val, 21), (a.val, 16), (b.val, 11)]
  | .nmaMinI64 d a b u => pack 0xF0000009 [(d.val, 21), (a.val, 16), (b.val, 11), (u.toNat, 6)]
  | .nmaMaxI64 d a b u => pack 0xF000000A [(d.val, 21), (a.val, 16), (b.val, 11), (u.toNat, 6)]
  | .nmaAndI64 d a b => pack 0xF000000B [(d.val, 21), (a.val, 16), (b.val, 11)]
  | .nmaOrI64 d a b => pack 0xF000000C [(d.val, 21), (a.val, 16), (b.val, 11)]
  | .nmaXorI64 d a b => pack 0xF000000D [(d.val, 21), (a.val, 16), (b.val, 11)]
  | .nmaSwapI64 d a b => pack 0xF000000E [(d.val, 21), (a.val, 16), (b.val, 11)]
  | .nmaCasI64 d a b => pack 0xF000000F [(d.val, 21), (a.val, 16), (b.val, 11)]
  | .nmaAddF32 d a b => pack 0xF0000010 [(d.val, 21), (a.val, 16), (b.val, 11)]
  | .nmaMinF32 d a b => pack 0xF0000011 [(d.val, 21), (a.val, 16), (b.val, 11)]
  | .nmaMaxF32 d a b => pack 0xF0000012 [(d.val, 21), (a.val, 16), (b.val, 11)]
  | .nmaSwapF32 d a b => pack 0xF0000016 [(d.val, 21), (a.val, 16), (b.val, 11)]
  | .nmaCasF32 d a b => pack 0xF0000017 [(d.val, 21), (a.val, 16), (b.val, 11)]
  | .nmaLaddF32 d a b g => pack 0xF0000018 [(d.val, 21), (a.val, 16), (b.val, 11), (g.toNat, 8)]
  | .nmaLaddI32 d a b g => pack 0xF0000019 [(d.val, 21), (a.val, 16), (b.val, 11), (g.toNat, 8)]
  | .nmaLmaxF32 d a b g => pack 0xF000001A [(d.val, 21), (a.val, 16), (b.val, 11), (g.toNat, 8)]
  | .skSeed a b => pack 0xF4000000 [(a.val, 16), (b.val, 11)]
  | .skUpd d a b => pack 0xF4000001 [(d.val, 21), (a.val, 16), (b.val, 11)]
  | .skUpdl a b g => pack 0xF4000002 [(a.val, 16), (b.val, 11), (g.toNat, 8)]
  | .skQry d a b => pack 0xF4000003 [(d.val, 21), (a.val, 16), (b.val, 11)]
  | .skQryl a b g => pack 0xF4000004 [(a.val, 16), (b.val, 11), (g.toNat, 8)]
  | .skAdd a b => pack 0xF4000005 [(a.val, 16), (b.val, 11)]
  | .skClr a => pack 0xF4000006 [(a.val, 16)]
  | .ocInit d a b i => pack 0xF4000008 [(d.val, 21), (a.val, 16), (b.val, 11), (i.toNat, 6)]
  | .ocIns d a b => pack 0xF4000009 [(d.val, 21), (a.val, 16), (b.val, 11)]
  | .ocLdt d a b => pack 0xF400000A [(d.val, 21), (a.val, 16), (b.val, 11)]
  | .ocLds d a b => pack 0xF400000B [(d.val, 21), (a.val, 16), (b.val, 11)]
  | .ocSettle a b => pack 0xF400000C [(a.val, 16), (b.val, 11)]
  | .ocFold d b => pack 0xF400000D [(d.val, 21), (b.val, 11)]
  | .postTask a => pack 0xF8000000 [(a.val, 16)]
  | .postQp a b => pack 0xF8000001 [(a.val, 16), (b.val, 11)]
  | .postTcadd d a b h n => pack 0xF8000002 [(d.val, 21), (a.val, 16), (b.val, 11), (h.val, 9), (n.toNat, 8)]
  | .postTcset d a b h n => pack 0xF8000003 [(d.val, 21), (a.val, 16), (b.val, 11), (h.val, 9), (n.toNat, 8)]
  | .postTcrd d a b h n => pack 0xF8000004 [(d.val, 21), (a.val, 16), (b.val, 11), (h.val, 9), (n.toNat, 8)]
  | .postTcwait d a b h n => pack 0xF8000005 [(d.val, 21), (a.val, 16), (b.val, 11), (h.val, 9), (n.toNat, 8)]
  | .postWbeg a b => pack 0xF8000008 [(a.val, 16), (b.val, 11)]
  | .postWcom b => pack 0xF8000009 [(b.val, 11)]
  | .postWabn b => pack 0xF800000A [(b.val, 11)]
  | .postWst d b => pack 0xF800000B [(d.val, 21), (b.val, 11)]
  | .cStreamLanding _ => 0
  | .lateResultReady _ => 0
  | .watchdog _ => 0
  | .loopIterationEnd _ => 0
  | .waitSatisfied _ => 0
  | .engineCommandStart _ _ => 0
  | .engineCommandRetire _ _ => 0
  | .engineReplay _ _ => 0
  | .katTestRun _ => 0
  | .commandSteal _ _ => 0
  | .prooferCommandStart _ => 0
  | .prooferCommandRetire _ => 0
  | .postedOpApply _ _ => 0
  | .nodeRecordAdmit _ => 0
  | .tileRecordAdmit _ => 0
  | .runTileDispatch _ => 0
  | .dispatch => 0
  | .preload _ => 0
  | .reserving _ => 0
  | .nodeRetire _ => 0
  | .heldRelease => 0
  | .budget _ => 0
  | .peelSave _ => 0
  | .translationWalk _ _ _ => 0
  | .tuInvalidation _ _ => 0
  | .entryArm _ => 0
  | .csqPut _ _ => 0
  | .csqPutredSum _ _ => 0
  | .csqPutredMax _ _ => 0
  | .csqPutredMin _ _ => 0
  | .csqMaxexp _ _ => 0
  | .csqNotify _ _ => 0
  | .lcopyCopy _ _ => 0
  | .lcopyConvert _ _ => 0
  | .lcopyZero _ _ => 0
  | .entryComplete _ _ => 0
  | .entryFail _ _ => 0
  | .remoteCounterAdd _ _ _ => 0
  | .qpctlReset _ => 0
  | .qpctlEnable _ => 0
  | .qpctlDisable _ => 0
  | .qpResetDone _ => 0
  | .interruptEntry _ => 0
  | .partitionCreate _ => 0
  | .partitionStart _ => 0
  | .partitionStop _ => 0
  | .partitionDestroy _ => 0
  | .ncmdPreempt _ _ _ _ => 0
  | .ncmdResume _ _ _ _ => 0
  | .ncmdRerun _ _ _ _ => 0
  | .ncmdDiscard _ _ _ _ => 0
  | .ncmdClear _ _ => 0
  | .nodeCommandComplete _ => 0
  | .cstgWrite _ _ => 0
  | .scrbWrite _ _ => 0
  | .pptbWrite _ _ => 0
  | .privilegedRegisterWrite _ _ _ => 0
  | .scrubPass _ => 0
  | .ingtArm _ _ => 0
  | .ingtDisarm _ _ => 0
  | .ingestCheck _ => 0
  | .mbctlAck _ => 0
  | .mbctlSig _ => 0
  | .hostDoorbell _ => 0
  | .hostBar0Access _ _ _ _ _ => 0
  | .hostBar2Access _ _ _ _ _ => 0
  | .fpsDrain _ _ => 0
  | .fpsReturn _ _ => 0
  | .drainFlitSend _ => 0
  | .peerDrainRequest _ => 0
  | .drainConfirm _ => 0
  | .fabricTimeout _ => 0
  | .evcStart _ => 0
  | .evcUnlatchRequest _ => 0
  | .evcLate => 0
  | .unlatchRaise => 0
  | .unlatchDrop => 0
  | .islandRequestRun _ _ => 0
  | .islandRequestIdle _ _ => 0
  | .islandRequestOff _ _ => 0
  | .islandStart => 0
  | .coreGroupStart _ => 0
  | .islandWake _ => 0
  | .correctedError _ => 0
  | .bucketLeak => 0
  | .memoryLinkFail _ => 0
  | .laneRetrain _ _ => 0
  | .arbitrationAging _ => 0
  | .powerOn => 0
  | .bootStep _ _ _ => 0
  | .debugToken _ => 0
  | .altClear _ => 0
  | .spdmGetVersion => 0
  | .spdmGetCapabilities => 0
  | .spdmNegotiateAlgorithms => 0
  | .spdmGetDigests => 0
  | .spdmGetCertificate => 0
  | .spdmChallenge _ => 0
  | .spdmGetMeasurements _ => 0
  | .pldmSensorRead _ => 0
  | .bundleIssue _ _ => 0
  | .unassignedOpcode _ => 0
  | .reservedKindRecord _ => 0
  | .fabricPeerRequest _ _ => 0
  | .fabricPortUp _ => 0
  | .fabricPortDown _ => 0
  | .peerPortReopen _ => 0
  | .uncorrectableError _ => 0
  | .debugAccess _ => 0

/-- Whether an instruction has a word of its own: the rows of the groups of R155. -/
def hasWord : Instr → Bool
  | .iopAdd _ _ _ => true
  | .iopSub _ _ _ => true
  | .iopAnd _ _ _ => true
  | .iopOr _ _ _ => true
  | .iopXor _ _ _ => true
  | .iopShl _ _ _ => true
  | .iopShr _ _ _ => true
  | .iopSra _ _ _ => true
  | .iopMin _ _ _ => true
  | .iopMax _ _ _ => true
  | .iopMinu _ _ _ => true
  | .iopMaxu _ _ _ => true
  | .iopAddw _ _ _ => true
  | .iopSubw _ _ _ => true
  | .iopSlt _ _ _ => true
  | .iopSltu _ _ _ => true
  | .iopiAdd _ _ _ => true
  | .iopiAnd _ _ _ => true
  | .iopiOr _ _ _ => true
  | .iopiXor _ _ _ => true
  | .iopiShl _ _ _ => true
  | .iopiShr _ _ _ => true
  | .iopiSra _ _ _ => true
  | .iopiAddw _ _ _ => true
  | .ihiLo _ _ => true
  | .ihiH1 _ _ => true
  | .ihiH2 _ _ => true
  | .ihiH3 _ _ => true
  | .ihiLou _ _ => true
  | .cmpEq _ _ _ => true
  | .cmpNe _ _ _ => true
  | .cmpLt _ _ _ => true
  | .cmpGe _ _ _ => true
  | .cmpLtu _ _ _ => true
  | .cmpGeu _ _ _ => true
  | .cmpTst _ _ _ => true
  | .prdAnd _ _ _ => true
  | .prdOr _ _ _ => true
  | .prdXor _ _ _ => true
  | .prdAndn _ _ _ => true
  | .prdOrn _ _ _ => true
  | .prdNor _ _ _ => true
  | .prdFrs _ _ => true
  | .prdTos _ _ => true
  | .prdRds _ => true
  | .prdWrs _ => true
  | .br _ _ _ => true
  | .jmpR _ => true
  | .jmpLink _ _ => true
  | .loopSp _ _ _ => true
  | .ldsB8 _ _ _ _ => true
  | .ldsI8 _ _ _ _ => true
  | .ldsB16 _ _ _ _ => true
  | .ldsI16 _ _ _ _ => true
  | .ldsB32 _ _ _ _ => true
  | .ldsI32 _ _ _ _ => true
  | .ldsB64 _ _ _ _ => true
  | .stsB8 _ _ _ _ => true
  | .stsB16 _ _ _ _ => true
  | .stsB32 _ _ _ _ => true
  | .stsB64 _ _ _ _ => true
  | .csrRd _ _ => true
  | .csrWr _ _ => true
  | .csrSet _ _ _ => true
  | .csrClr _ _ _ => true
  | .bitfPopc _ _ => true
  | .bitfClz _ _ => true
  | .bitfCtz _ _ => true
  | .bitfBrev _ _ => true
  | .bitfBswap _ _ => true
  | .bitfExtu _ _ _ => true
  | .bitfExts _ _ _ => true
  | .bitfIns _ _ _ => true
  | .muldivMul _ _ _ => true
  | .muldivMulh _ _ _ => true
  | .muldivMulhu _ _ _ => true
  | .muldivDiv _ _ _ => true
  | .muldivDivu _ _ _ => true
  | .muldivRem _ _ _ => true
  | .muldivRemu _ _ _ => true
  | .sysNop => true
  | .sysEnd _ => true
  | .sysTrap _ _ => true
  | .sysWev => true
  | .privRd _ _ => true
  | .privWr _ _ => true
  | .privRet => true
  | .privHcall _ => true
  | .privWfi => true
  | .privTinv _ _ => true
  | .ringClaim _ _ _ _ => true
  | .ringCommit _ _ _ _ => true
  | .ringWaitf _ _ _ => true
  | .ringWaitr _ _ _ => true
  | .ringPop _ _ _ => true
  | .ringCfg _ _ => true
  | .ringRd _ _ => true
  | .semAdd _ _ _ _ => true
  | .semWaitge _ _ => true
  | .semRd _ _ => true
  | .gbarArr _ => true
  | .gbarWait _ => true
  | .gbarSync _ => true
  | .ordRel _ => true
  | .ordAcq _ => true
  | .ordFull _ => true
  | .copyIn _ _ _ _ _ => true
  | .copyOut _ _ _ _ _ => true
  | .copyWt _ _ _ _ _ _ => true
  | .copyMm _ _ _ _ => true
  | .gathFill _ _ _ => true
  | .lineRd _ _ => true
  | .lineWr _ _ => true
  | .lineSet _ _ _ _ => true
  | .markTile => true
  | .markDrain => true
  | .mmaRn8 _ _ _ _ _ _ _ _ => true
  | .mmaRn4 _ _ _ _ _ _ _ _ => true
  | .mmaRnx _ _ _ _ _ _ _ _ => true
  | .mmaRny _ _ _ _ _ _ _ _ => true
  | .mmaBf16 _ _ _ _ _ _ _ _ => true
  | .accRd _ _ _ => true
  | .accFlg _ _ => true
  | .accSt _ _ _ _ => true
  | .accAdd _ _ _ => true
  | .accZero _ => true
  | .tentMark _ _ => true
  | .rslv _ _ _ _ => true
  | .mkat _ _ => true
  | .vfpAdd _ _ _ _ => true
  | .vfpSub _ _ _ _ => true
  | .vfpMul _ _ _ _ => true
  | .vfpMin _ _ _ _ => true
  | .vfpMax _ _ _ _ => true
  | .vfpAbs _ _ _ => true
  | .vfpNeg _ _ _ => true
  | .vfpCpsgn _ _ _ _ => true
  | .vfmaFma _ _ _ _ => true
  | .vfmaFms _ _ _ _ => true
  | .vfmaFnma _ _ _ _ => true
  | .vfmaFnms _ _ _ _ => true
  | .vintAdd _ _ _ _ => true
  | .vintSub _ _ _ _ => true
  | .vintMul _ _ _ _ => true
  | .vintAnd _ _ _ _ => true
  | .vintOr _ _ _ _ => true
  | .vintXor _ _ _ _ => true
  | .vintAndn _ _ _ _ => true
  | .vintShl _ _ _ _ => true
  | .vintShr _ _ _ _ => true
  | .vintSra _ _ _ _ => true
  | .vintMin _ _ _ _ => true
  | .vintMax _ _ _ _ => true
  | .vintAdds _ _ _ _ => true
  | .vintSubs _ _ _ _ => true
  | .vintAbs _ _ _ => true
  | .vintMulh _ _ _ _ => true
  | .vcmpEq _ _ _ _ => true
  | .vcmpNe _ _ _ _ => true
  | .vcmpLt _ _ _ _ => true
  | .vcmpLe _ _ _ _ => true
  | .vcmpGt _ _ _ _ => true
  | .vcmpGe _ _ _ _ => true
  | .vcmpUn _ _ _ _ => true
  | .vcvtF2i _ _ _ => true
  | .vcvtI2f _ _ _ => true
  | .vcvtF2h _ _ => true
  | .vcvtH2f _ _ => true
  | .vcvtRint _ _ _ => true
  | .vcvtQf _ _ _ _ => true
  | .vcvtQh _ _ _ _ => true
  | .vredSum _ _ _ => true
  | .vredMax _ _ _ => true
  | .vredMin _ _ _ => true
  | .vredAnd _ _ _ => true
  | .vredOr _ _ _ => true
  | .vredXor _ _ _ => true
  | .vredSadd _ _ _ => true
  | .vredSmax _ _ _ => true
  | .vredAnyp _ _ => true
  | .vredAllp _ _ => true
  | .vpermSel _ _ _ => true
  | .vpermShift _ _ _ => true
  | .vpermTr _ _ => true
  | .vmemLd _ _ _ _ => true
  | .vmemSt _ _ _ _ => true
  | .vmemGat _ _ _ _ => true
  | .vmemSct _ _ _ _ => true
  | .vsfuRcp _ _ _ => true
  | .vsfuRsqrt _ _ _ => true
  | .vsfuSqrt _ _ _ => true
  | .vsfuDiv _ _ _ _ => true
  | .vsfuExp _ _ _ => true
  | .vsfuExp2 _ _ _ => true
  | .vsfuLn _ _ _ => true
  | .vsfuLog2 _ _ _ => true
  | .vsfuSin _ _ _ => true
  | .vsfuCos _ _ _ => true
  | .vsfuTanh _ _ _ => true
  | .vsfuSigm _ _ _ => true
  | .vclmLo _ _ _ => true
  | .vclmHi _ _ _ => true
  | .vclmXlo _ _ _ => true
  | .vclmXhi _ _ _ => true
  | .vclmBrev _ _ => true
  | .vselSel _ _ _ => true
  | .vselSelz _ _ => true
  | .vsetBcast _ _ _ => true
  | .vsetIota _ _ => true
  | .vsetIrow _ _ => true
  | .vsetIcol _ _ => true
  | .vsetGet _ _ _ => true
  | .vsetPut _ _ _ => true
  | .proofRun _ _ => true
  | .ptabRd _ _ _ => true
  | .ptabWr _ _ _ => true
  | .ptabHrd _ _ _ => true
  | .ptabHwr _ _ _ => true
  | .ptabCrd _ _ _ => true
  | .ptabClr _ _ => true
  | .creelCfg _ _ => true
  | .creelBias _ _ => true
  | .creelOffer _ _ _ => true
  | .creelDrain _ _ _ => true
  | .creelRd _ _ => true
  | .routeTopk _ _ _ _ _ => true
  | .nmaAddI32 _ _ _ => true
  | .nmaMinI32 _ _ _ _ => true
  | .nmaMaxI32 _ _ _ _ => true
  | .nmaAndI32 _ _ _ => true
  | .nmaOrI32 _ _ _ => true
  | .nmaXorI32 _ _ _ => true
  | .nmaSwapI32 _ _ _ => true
  | .nmaCasI32 _ _ _ => true
  | .nmaAddI64 _ _ _ => true
  | .nmaMinI64 _ _ _ _ => true
  | .nmaMaxI64 _ _ _ _ => true
  | .nmaAndI64 _ _ _ => true
  | .nmaOrI64 _ _ _ => true
  | .nmaXorI64 _ _ _ => true
  | .nmaSwapI64 _ _ _ => true
  | .nmaCasI64 _ _ _ => true
  | .nmaAddF32 _ _ _ => true
  | .nmaMinF32 _ _ _ => true
  | .nmaMaxF32 _ _ _ => true
  | .nmaSwapF32 _ _ _ => true
  | .nmaCasF32 _ _ _ => true
  | .nmaLaddF32 _ _ _ _ => true
  | .nmaLaddI32 _ _ _ _ => true
  | .nmaLmaxF32 _ _ _ _ => true
  | .skSeed _ _ => true
  | .skUpd _ _ _ => true
  | .skUpdl _ _ _ => true
  | .skQry _ _ _ => true
  | .skQryl _ _ _ => true
  | .skAdd _ _ => true
  | .skClr _ => true
  | .ocInit _ _ _ _ => true
  | .ocIns _ _ _ => true
  | .ocLdt _ _ _ => true
  | .ocLds _ _ _ => true
  | .ocSettle _ _ => true
  | .ocFold _ _ => true
  | .postTask _ => true
  | .postQp _ _ => true
  | .postTcadd _ _ _ _ _ => true
  | .postTcset _ _ _ _ _ => true
  | .postTcrd _ _ _ _ _ => true
  | .postTcwait _ _ _ _ _ => true
  | .postWbeg _ _ => true
  | .postWcom _ => true
  | .postWabn _ => true
  | .postWst _ _ => true
  | .cStreamLanding _ => false
  | .lateResultReady _ => false
  | .watchdog _ => false
  | .loopIterationEnd _ => false
  | .waitSatisfied _ => false
  | .engineCommandStart _ _ => false
  | .engineCommandRetire _ _ => false
  | .engineReplay _ _ => false
  | .katTestRun _ => false
  | .commandSteal _ _ => false
  | .prooferCommandStart _ => false
  | .prooferCommandRetire _ => false
  | .postedOpApply _ _ => false
  | .nodeRecordAdmit _ => false
  | .tileRecordAdmit _ => false
  | .runTileDispatch _ => false
  | .dispatch => false
  | .preload _ => false
  | .reserving _ => false
  | .nodeRetire _ => false
  | .heldRelease => false
  | .budget _ => false
  | .peelSave _ => false
  | .translationWalk _ _ _ => false
  | .tuInvalidation _ _ => false
  | .entryArm _ => false
  | .csqPut _ _ => false
  | .csqPutredSum _ _ => false
  | .csqPutredMax _ _ => false
  | .csqPutredMin _ _ => false
  | .csqMaxexp _ _ => false
  | .csqNotify _ _ => false
  | .lcopyCopy _ _ => false
  | .lcopyConvert _ _ => false
  | .lcopyZero _ _ => false
  | .entryComplete _ _ => false
  | .entryFail _ _ => false
  | .remoteCounterAdd _ _ _ => false
  | .qpctlReset _ => false
  | .qpctlEnable _ => false
  | .qpctlDisable _ => false
  | .qpResetDone _ => false
  | .interruptEntry _ => false
  | .partitionCreate _ => false
  | .partitionStart _ => false
  | .partitionStop _ => false
  | .partitionDestroy _ => false
  | .ncmdPreempt _ _ _ _ => false
  | .ncmdResume _ _ _ _ => false
  | .ncmdRerun _ _ _ _ => false
  | .ncmdDiscard _ _ _ _ => false
  | .ncmdClear _ _ => false
  | .nodeCommandComplete _ => false
  | .cstgWrite _ _ => false
  | .scrbWrite _ _ => false
  | .pptbWrite _ _ => false
  | .privilegedRegisterWrite _ _ _ => false
  | .scrubPass _ => false
  | .ingtArm _ _ => false
  | .ingtDisarm _ _ => false
  | .ingestCheck _ => false
  | .mbctlAck _ => false
  | .mbctlSig _ => false
  | .hostDoorbell _ => false
  | .hostBar0Access _ _ _ _ _ => false
  | .hostBar2Access _ _ _ _ _ => false
  | .fpsDrain _ _ => false
  | .fpsReturn _ _ => false
  | .drainFlitSend _ => false
  | .peerDrainRequest _ => false
  | .drainConfirm _ => false
  | .fabricTimeout _ => false
  | .evcStart _ => false
  | .evcUnlatchRequest _ => false
  | .evcLate => false
  | .unlatchRaise => false
  | .unlatchDrop => false
  | .islandRequestRun _ _ => false
  | .islandRequestIdle _ _ => false
  | .islandRequestOff _ _ => false
  | .islandStart => false
  | .coreGroupStart _ => false
  | .islandWake _ => false
  | .correctedError _ => false
  | .bucketLeak => false
  | .memoryLinkFail _ => false
  | .laneRetrain _ _ => false
  | .arbitrationAging _ => false
  | .powerOn => false
  | .bootStep _ _ _ => false
  | .debugToken _ => false
  | .altClear _ => false
  | .spdmGetVersion => false
  | .spdmGetCapabilities => false
  | .spdmNegotiateAlgorithms => false
  | .spdmGetDigests => false
  | .spdmGetCertificate => false
  | .spdmChallenge _ => false
  | .spdmGetMeasurements _ => false
  | .pldmSensorRead _ => false
  | .bundleIssue _ _ => false
  | .unassignedOpcode _ => false
  | .reservedKindRecord _ => false
  | .fabricPeerRequest _ _ => false
  | .fabricPortUp _ => false
  | .fabricPortDown _ => false
  | .peerPortReopen _ => false
  | .uncorrectableError _ => false
  | .debugAccess _ => false

/-- The words of an instruction: a bundle is its header and slots (R150); the steps that are fetched from nowhere
have none. -/
def encode : Instr → List W32
  | .bundleIssue h ws => h :: ws
  | i => if hasWord i then [BitVec.ofNat 32 (encodeNat i)] else []

end

end Sys2Proof
end

