-- ==== Sys2Proof/Machine/Checks.lean ====
section
/-! DEFINITION. The checks every word passes before it executes: the groups a sequencer accepts (R156), the fields'
limits (R146, R149), the destinations two slots of a bundle may not share (R22), the slot classes (R151), and the
registers an instruction reads, where an uncorrectable error is consumed (R311). -/

namespace Sys2Proof.Machine

/-- The major opcode of a word's group (R155); 0 for a step without a word. -/
def majorOf : Instr → Nat
  | .iopAdd _ _ _ => 0x01
  | .iopSub _ _ _ => 0x01
  | .iopAnd _ _ _ => 0x01
  | .iopOr _ _ _ => 0x01
  | .iopXor _ _ _ => 0x01
  | .iopShl _ _ _ => 0x01
  | .iopShr _ _ _ => 0x01
  | .iopSra _ _ _ => 0x01
  | .iopMin _ _ _ => 0x01
  | .iopMax _ _ _ => 0x01
  | .iopMinu _ _ _ => 0x01
  | .iopMaxu _ _ _ => 0x01
  | .iopAddw _ _ _ => 0x01
  | .iopSubw _ _ _ => 0x01
  | .iopSlt _ _ _ => 0x01
  | .iopSltu _ _ _ => 0x01
  | .iopiAdd _ _ _ => 0x02
  | .iopiAnd _ _ _ => 0x02
  | .iopiOr _ _ _ => 0x02
  | .iopiXor _ _ _ => 0x02
  | .iopiShl _ _ _ => 0x02
  | .iopiShr _ _ _ => 0x02
  | .iopiSra _ _ _ => 0x02
  | .iopiAddw _ _ _ => 0x02
  | .ihiLo _ _ => 0x03
  | .ihiH1 _ _ => 0x03
  | .ihiH2 _ _ => 0x03
  | .ihiH3 _ _ => 0x03
  | .ihiLou _ _ => 0x03
  | .cmpEq _ _ _ => 0x04
  | .cmpNe _ _ _ => 0x04
  | .cmpLt _ _ _ => 0x04
  | .cmpGe _ _ _ => 0x04
  | .cmpLtu _ _ _ => 0x04
  | .cmpGeu _ _ _ => 0x04
  | .cmpTst _ _ _ => 0x04
  | .prdAnd _ _ _ => 0x05
  | .prdOr _ _ _ => 0x05
  | .prdXor _ _ _ => 0x05
  | .prdAndn _ _ _ => 0x05
  | .prdOrn _ _ _ => 0x05
  | .prdNor _ _ _ => 0x05
  | .prdFrs _ _ => 0x05
  | .prdTos _ _ => 0x05
  | .prdRds _ => 0x05
  | .prdWrs _ => 0x05
  | .br _ _ _ => 0x06
  | .jmpR _ => 0x07
  | .jmpLink _ _ => 0x07
  | .loopSp _ _ _ => 0x08
  | .ldsB8 _ _ _ _ => 0x09
  | .ldsI8 _ _ _ _ => 0x09
  | .ldsB16 _ _ _ _ => 0x09
  | .ldsI16 _ _ _ _ => 0x09
  | .ldsB32 _ _ _ _ => 0x09
  | .ldsI32 _ _ _ _ => 0x09
  | .ldsB64 _ _ _ _ => 0x09
  | .stsB8 _ _ _ _ => 0x0A
  | .stsB16 _ _ _ _ => 0x0A
  | .stsB32 _ _ _ _ => 0x0A
  | .stsB64 _ _ _ _ => 0x0A
  | .csrRd _ _ => 0x0B
  | .csrWr _ _ => 0x0B
  | .csrSet _ _ _ => 0x0B
  | .csrClr _ _ _ => 0x0B
  | .bitfPopc _ _ => 0x0C
  | .bitfClz _ _ => 0x0C
  | .bitfCtz _ _ => 0x0C
  | .bitfBrev _ _ => 0x0C
  | .bitfBswap _ _ => 0x0C
  | .bitfExtu _ _ _ => 0x0C
  | .bitfExts _ _ _ => 0x0C
  | .bitfIns _ _ _ => 0x0C
  | .muldivMul _ _ _ => 0x0D
  | .muldivMulh _ _ _ => 0x0D
  | .muldivMulhu _ _ _ => 0x0D
  | .muldivDiv _ _ _ => 0x0D
  | .muldivDivu _ _ _ => 0x0D
  | .muldivRem _ _ _ => 0x0D
  | .muldivRemu _ _ _ => 0x0D
  | .sysNop => 0x0E
  | .sysEnd _ => 0x0E
  | .sysTrap _ _ => 0x0E
  | .sysWev => 0x0E
  | .privRd _ _ => 0x0F
  | .privWr _ _ => 0x0F
  | .privRet => 0x0F
  | .privHcall _ => 0x0F
  | .privWfi => 0x0F
  | .privTinv _ _ => 0x0F
  | .ringClaim _ _ _ _ => 0x10
  | .ringCommit _ _ _ _ => 0x10
  | .ringWaitf _ _ _ => 0x10
  | .ringWaitr _ _ _ => 0x10
  | .ringPop _ _ _ => 0x10
  | .ringCfg _ _ => 0x10
  | .ringRd _ _ => 0x10
  | .semAdd _ _ _ _ => 0x11
  | .semWaitge _ _ => 0x11
  | .semRd _ _ => 0x11
  | .gbarArr _ => 0x12
  | .gbarWait _ => 0x12
  | .gbarSync _ => 0x12
  | .ordRel _ => 0x13
  | .ordAcq _ => 0x13
  | .ordFull _ => 0x13
  | .copyIn _ _ _ _ _ => 0x18
  | .copyOut _ _ _ _ _ => 0x18
  | .copyWt _ _ _ _ _ _ => 0x18
  | .copyMm _ _ _ _ => 0x18
  | .gathFill _ _ _ => 0x19
  | .lineRd _ _ => 0x1A
  | .lineWr _ _ => 0x1A
  | .lineSet _ _ _ _ => 0x1A
  | .markTile => 0x1B
  | .markDrain => 0x1B
  | .mmaRn8 _ _ _ _ _ _ _ _ => 0x30
  | .mmaRn4 _ _ _ _ _ _ _ _ => 0x30
  | .mmaRnx _ _ _ _ _ _ _ _ => 0x30
  | .mmaRny _ _ _ _ _ _ _ _ => 0x30
  | .mmaBf16 _ _ _ _ _ _ _ _ => 0x30
  | .accRd _ _ _ => 0x31
  | .accFlg _ _ => 0x31
  | .accSt _ _ _ _ => 0x31
  | .accAdd _ _ _ => 0x31
  | .accZero _ => 0x31
  | .tentMark _ _ => 0x32
  | .rslv _ _ _ _ => 0x33
  | .mkat _ _ => 0x34
  | .vfpAdd _ _ _ _ => 0x20
  | .vfpSub _ _ _ _ => 0x20
  | .vfpMul _ _ _ _ => 0x20
  | .vfpMin _ _ _ _ => 0x20
  | .vfpMax _ _ _ _ => 0x20
  | .vfpAbs _ _ _ => 0x20
  | .vfpNeg _ _ _ => 0x20
  | .vfpCpsgn _ _ _ _ => 0x20
  | .vfmaFma _ _ _ _ => 0x21
  | .vfmaFms _ _ _ _ => 0x21
  | .vfmaFnma _ _ _ _ => 0x21
  | .vfmaFnms _ _ _ _ => 0x21
  | .vintAdd _ _ _ _ => 0x22
  | .vintSub _ _ _ _ => 0x22
  | .vintMul _ _ _ _ => 0x22
  | .vintAnd _ _ _ _ => 0x22
  | .vintOr _ _ _ _ => 0x22
  | .vintXor _ _ _ _ => 0x22
  | .vintAndn _ _ _ _ => 0x22
  | .vintShl _ _ _ _ => 0x22
  | .vintShr _ _ _ _ => 0x22
  | .vintSra _ _ _ _ => 0x22
  | .vintMin _ _ _ _ => 0x22
  | .vintMax _ _ _ _ => 0x22
  | .vintAdds _ _ _ _ => 0x22
  | .vintSubs _ _ _ _ => 0x22
  | .vintAbs _ _ _ => 0x22
  | .vintMulh _ _ _ _ => 0x22
  | .vcmpEq _ _ _ _ => 0x23
  | .vcmpNe _ _ _ _ => 0x23
  | .vcmpLt _ _ _ _ => 0x23
  | .vcmpLe _ _ _ _ => 0x23
  | .vcmpGt _ _ _ _ => 0x23
  | .vcmpGe _ _ _ _ => 0x23
  | .vcmpUn _ _ _ _ => 0x23
  | .vcvtF2i _ _ _ => 0x24
  | .vcvtI2f _ _ _ => 0x24
  | .vcvtF2h _ _ => 0x24
  | .vcvtH2f _ _ => 0x24
  | .vcvtRint _ _ _ => 0x24
  | .vcvtQf _ _ _ _ => 0x24
  | .vcvtQh _ _ _ _ => 0x24
  | .vredSum _ _ _ => 0x25
  | .vredMax _ _ _ => 0x25
  | .vredMin _ _ _ => 0x25
  | .vredAnd _ _ _ => 0x25
  | .vredOr _ _ _ => 0x25
  | .vredXor _ _ _ => 0x25
  | .vredSadd _ _ _ => 0x25
  | .vredSmax _ _ _ => 0x25
  | .vredAnyp _ _ => 0x25
  | .vredAllp _ _ => 0x25
  | .vpermSel _ _ _ => 0x26
  | .vpermShift _ _ _ => 0x26
  | .vpermTr _ _ => 0x26
  | .vmemLd _ _ _ _ => 0x27
  | .vmemSt _ _ _ _ => 0x27
  | .vmemGat _ _ _ _ => 0x27
  | .vmemSct _ _ _ _ => 0x27
  | .vsfuRcp _ _ _ => 0x28
  | .vsfuRsqrt _ _ _ => 0x28
  | .vsfuSqrt _ _ _ => 0x28
  | .vsfuDiv _ _ _ _ => 0x28
  | .vsfuExp _ _ _ => 0x28
  | .vsfuExp2 _ _ _ => 0x28
  | .vsfuLn _ _ _ => 0x28
  | .vsfuLog2 _ _ _ => 0x28
  | .vsfuSin _ _ _ => 0x28
  | .vsfuCos _ _ _ => 0x28
  | .vsfuTanh _ _ _ => 0x28
  | .vsfuSigm _ _ _ => 0x28
  | .vclmLo _ _ _ => 0x29
  | .vclmHi _ _ _ => 0x29
  | .vclmXlo _ _ _ => 0x29
  | .vclmXhi _ _ _ => 0x29
  | .vclmBrev _ _ => 0x29
  | .vselSel _ _ _ => 0x2A
  | .vselSelz _ _ => 0x2A
  | .vsetBcast _ _ _ => 0x2B
  | .vsetIota _ _ => 0x2B
  | .vsetIrow _ _ => 0x2B
  | .vsetIcol _ _ => 0x2B
  | .vsetGet _ _ _ => 0x2B
  | .vsetPut _ _ _ => 0x2B
  | .proofRun _ _ => 0x38
  | .ptabRd _ _ _ => 0x39
  | .ptabWr _ _ _ => 0x39
  | .ptabHrd _ _ _ => 0x39
  | .ptabHwr _ _ _ => 0x39
  | .ptabCrd _ _ _ => 0x39
  | .ptabClr _ _ => 0x39
  | .creelCfg _ _ => 0x3A
  | .creelBias _ _ => 0x3A
  | .creelOffer _ _ _ => 0x3A
  | .creelDrain _ _ _ => 0x3A
  | .creelRd _ _ => 0x3A
  | .routeTopk _ _ _ _ _ => 0x3B
  | .nmaAddI32 _ _ _ => 0x3C
  | .nmaMinI32 _ _ _ _ => 0x3C
  | .nmaMaxI32 _ _ _ _ => 0x3C
  | .nmaAndI32 _ _ _ => 0x3C
  | .nmaOrI32 _ _ _ => 0x3C
  | .nmaXorI32 _ _ _ => 0x3C
  | .nmaSwapI32 _ _ _ => 0x3C
  | .nmaCasI32 _ _ _ => 0x3C
  | .nmaAddI64 _ _ _ => 0x3C
  | .nmaMinI64 _ _ _ _ => 0x3C
  | .nmaMaxI64 _ _ _ _ => 0x3C
  | .nmaAndI64 _ _ _ => 0x3C
  | .nmaOrI64 _ _ _ => 0x3C
  | .nmaXorI64 _ _ _ => 0x3C
  | .nmaSwapI64 _ _ _ => 0x3C
  | .nmaCasI64 _ _ _ => 0x3C
  | .nmaAddF32 _ _ _ => 0x3C
  | .nmaMinF32 _ _ _ => 0x3C
  | .nmaMaxF32 _ _ _ => 0x3C
  | .nmaSwapF32 _ _ _ => 0x3C
  | .nmaCasF32 _ _ _ => 0x3C
  | .nmaLaddF32 _ _ _ _ => 0x3C
  | .nmaLaddI32 _ _ _ _ => 0x3C
  | .nmaLmaxF32 _ _ _ _ => 0x3C
  | .skSeed _ _ => 0x3D
  | .skUpd _ _ _ => 0x3D
  | .skUpdl _ _ _ => 0x3D
  | .skQry _ _ _ => 0x3D
  | .skQryl _ _ _ => 0x3D
  | .skAdd _ _ => 0x3D
  | .skClr _ => 0x3D
  | .ocInit _ _ _ _ => 0x3D
  | .ocIns _ _ _ => 0x3D
  | .ocLdt _ _ _ => 0x3D
  | .ocLds _ _ _ => 0x3D
  | .ocSettle _ _ => 0x3D
  | .ocFold _ _ => 0x3D
  | .postTask _ => 0x3E
  | .postQp _ _ => 0x3E
  | .postTcadd _ _ _ _ _ => 0x3E
  | .postTcset _ _ _ _ _ => 0x3E
  | .postTcrd _ _ _ _ _ => 0x3E
  | .postTcwait _ _ _ _ _ => 0x3E
  | .postWbeg _ _ => 0x3E
  | .postWcom _ => 0x3E
  | .postWabn _ => 0x3E
  | .postWst _ _ => 0x3E
  | .cStreamLanding _ => 0
  | .lateResultReady _ => 0
  | .watchdog _ => 0
  | .loopIterationEnd _ => 0
  | .waitSatisfied _ => 0
  | .engineCommandStart _ _ => 0
  | .engineCommandRetire _ _ => 0
  | .engineReplay _ _ => 0
  | .katTestRun _ => 0
  | .commandSteal _ _ => 0
  | .prooferCommandStart _ => 0
  | .prooferCommandRetire _ => 0
  | .postedOpApply _ _ => 0
  | .nodeRecordAdmit _ => 0
  | .tileRecordAdmit _ => 0
  | .runTileDispatch _ => 0
  | .dispatch => 0
  | .preload _ => 0
  | .reserving _ => 0
  | .nodeRetire _ => 0
  | .heldRelease => 0
  | .budget _ => 0
  | .peelSave _ => 0
  | .translationWalk _ _ _ => 0
  | .tuInvalidation _ _ => 0
  | .entryArm _ => 0
  | .csqPut _ _ => 0
  | .csqPutredSum _ _ => 0
  | .csqPutredMax _ _ => 0
  | .csqPutredMin _ _ => 0
  | .csqMaxexp _ _ => 0
  | .csqNotify _ _ => 0
  | .lcopyCopy _ _ => 0
  | .lcopyConvert _ _ => 0
  | .lcopyZero _ _ => 0
  | .entryComplete _ _ => 0
  | .entryFail _ _ => 0
  | .remoteCounterAdd _ _ _ => 0
  | .qpctlReset _ => 0
  | .qpctlEnable _ => 0
  | .qpctlDisable _ => 0
  | .qpResetDone _ => 0
  | .interruptEntry _ => 0
  | .partitionCreate _ => 0
  | .partitionStart _ => 0
  | .partitionStop _ => 0
  | .partitionDestroy _ => 0
  | .ncmdPreempt _ _ _ _ => 0
  | .ncmdResume _ _ _ _ => 0
  | .ncmdRerun _ _ _ _ => 0
  | .ncmdDiscard _ _ _ _ => 0
  | .ncmdClear _ _ => 0
  | .nodeCommandComplete _ => 0
  | .cstgWrite _ _ => 0
  | .scrbWrite _ _ => 0
  | .pptbWrite _ _ => 0
  | .privilegedRegisterWrite _ _ _ => 0
  | .scrubPass _ => 0
  | .ingtArm _ _ => 0
  | .ingtDisarm _ _ => 0
  | .ingestCheck _ => 0
  | .mbctlAck _ => 0
  | .mbctlSig _ => 0
  | .hostDoorbell _ => 0
  | .hostBar0Access _ _ _ _ _ => 0
  | .hostBar2Access _ _ _ _ _ => 0
  | .fpsDrain _ _ => 0
  | .fpsReturn _ _ => 0
  | .drainFlitSend _ => 0
  | .peerDrainRequest _ => 0
  | .drainConfirm _ => 0
  | .fabricTimeout _ => 0
  | .evcStart _ => 0
  | .evcUnlatchRequest _ => 0
  | .evcLate => 0
  | .unlatchRaise => 0
  | .unlatchDrop => 0
  | .islandRequestRun _ _ => 0
  | .islandRequestIdle _ _ => 0
  | .islandRequestOff _ _ => 0
  | .islandStart => 0
  | .coreGroupStart _ => 0
  | .islandWake _ => 0
  | .correctedError _ => 0
  | .bucketLeak => 0
  | .memoryLinkFail _ => 0
  | .laneRetrain _ _ => 0
  | .arbitrationAging _ => 0
  | .powerOn => 0
  | .bootStep _ _ _ => 0
  | .debugToken _ => 0
  | .altClear _ => 0
  | .spdmGetVersion => 0
  | .spdmGetCapabilities => 0
  | .spdmNegotiateAlgorithms => 0
  | .spdmGetDigests => 0
  | .spdmGetCertificate => 0
  | .spdmChallenge _ => 0
  | .spdmGetMeasurements _ => 0
  | .pldmSensorRead _ => 0
  | .bundleIssue _ _ => 0
  | .unassignedOpcode _ => 0
  | .reservedKindRecord _ => 0
  | .fabricPeerRequest _ _ => 0
  | .fabricPortUp _ => 0
  | .fabricPortDown _ => 0
  | .peerPortReopen _ => 0
  | .uncorrectableError _ => 0
  | .debugAccess _ => 0

/-- The groups of R156's table that a sequencer accepts. -/
def accepts (w : Who) (m : Nat) : Bool :=
  match w with
  | .core _ .K => (1 ≤ m && m ≤ 0x13 && m != 0x0F) || m == 0x39 || m == 0x3A || (0x3C ≤ m && m ≤ 0x3E)
  | .core _ .C =>
    (1 ≤ m && m ≤ 8) || (0x0B ≤ m && m ≤ 0x0E) || (0x10 ≤ m && m ≤ 0x13) || (0x20 ≤ m && m ≤ 0x2B)
      || (0x30 ≤ m && m ≤ 0x34) || m == 0x38 || m == 0x3B
  | .core _ _ => (1 ≤ m && m ≤ 0x0E) || (0x10 ≤ m && m ≤ 0x13) || (0x18 ≤ m && m ≤ 0x1B)
  | .hearth _ => (1 ≤ m && m ≤ 0x0F) || m == 0x13 || m == 0x39 || m == 0x3A || (0x3C ≤ m && m ≤ 0x3E)

/-- The slot classes of R151. -/
inductive SlotClass where
  | scalar | vector | special | matrix | control
  deriving DecidableEq, Repr

/-- The slot class of a group (R155). -/
def classOf (m : Nat) : SlotClass :=
  if m ≤ 5 ∨ (0x0B ≤ m ∧ m ≤ 0x0D) then .scalar
  else if m = 0x28 ∨ m = 0x3B then .special
  else if 0x20 ≤ m ∧ m ≤ 0x2B then .vector
  else if 0x30 ≤ m ∧ m ≤ 0x38 then .matrix
  else .control

/-- A destination of a slot (R22). -/
inductive Dest where
  | s (r : Nat)
  | p (r : Nat)
  | v (r : Nat)
  | csr (n : Nat)
  deriving DecidableEq, Repr

/-- A scalar destination. -/
def sdest (d : SReg) : List Dest := if d = 0 then [] else [.s d.val]
/-- A predicate destination. -/
def pdest (d : Reg16) : List Dest := if d = 0 then [] else [.p d.val]

/-- The destinations an instruction names; s0 and p0 name nothing (R22). -/
def dests : Instr → List Dest
  | .iopAdd d _ _ => sdest d
  | .iopSub d _ _ => sdest d
  | .iopAnd d _ _ => sdest d
  | .iopOr d _ _ => sdest d
  | .iopXor d _ _ => sdest d
  | .iopShl d _ _ => sdest d
  | .iopShr d _ _ => sdest d
  | .iopSra d _ _ => sdest d
  | .iopMin d _ _ => sdest d
  | .iopMax d _ _ => sdest d
  | .iopMinu d _ _ => sdest d
  | .iopMaxu d _ _ => sdest d
  | .iopAddw d _ _ => sdest d
  | .iopSubw d _ _ => sdest d
  | .iopSlt d _ _ => sdest d
  | .iopSltu d _ _ => sdest d
  | .iopiAdd d _ _ => sdest d
  | .iopiAnd d _ _ => sdest d
  | .iopiOr d _ _ => sdest d
  | .iopiXor d _ _ => sdest d
  | .iopiShl d _ _ => sdest d
  | .iopiShr d _ _ => sdest d
  | .iopiSra d _ _ => sdest d
  | .iopiAddw d _ _ => sdest d
  | .ihiLo d _ => sdest d
  | .ihiH1 d _ => sdest d
  | .ihiH2 d _ => sdest d
  | .ihiH3 d _ => sdest d
  | .ihiLou d _ => sdest d
  | .cmpEq d _ _ => pdest d
  | .cmpNe d _ _ => pdest d
  | .cmpLt d _ _ => pdest d
  | .cmpGe d _ _ => pdest d
  | .cmpLtu d _ _ => pdest d
  | .cmpGeu d _ _ => pdest d
  | .cmpTst d _ _ => pdest d
  | .prdAnd d _ _ => pdest d
  | .prdOr d _ _ => pdest d
  | .prdXor d _ _ => pdest d
  | .prdAndn d _ _ => pdest d
  | .prdOrn d _ _ => pdest d
  | .prdNor d _ _ => pdest d
  | .prdFrs d _ => pdest d
  | .prdTos d _ => sdest d
  | .prdRds d => sdest d
  | .prdWrs _ => (List.range 15).map fun i => .p (i + 1)
  | .br _ _ _ => []
  | .jmpR _ => []
  | .jmpLink d _ => sdest d
  | .loopSp _ _ _ => [.csr 2, .csr 3]
  | .ldsB8 d _ _ _ => sdest d
  | .ldsI8 d _ _ _ => sdest d
  | .ldsB16 d _ _ _ => sdest d
  | .ldsI16 d _ _ _ => sdest d
  | .ldsB32 d _ _ _ => sdest d
  | .ldsI32 d _ _ _ => sdest d
  | .ldsB64 d _ _ _ => sdest d
  | .stsB8 _ _ _ _ => []
  | .stsB16 _ _ _ _ => []
  | .stsB32 _ _ _ _ => []
  | .stsB64 _ _ _ _ => []
  | .csrRd d _ => sdest d
  | .csrWr _ c => [.csr c.toNat]
  | .csrSet d _ c => sdest d ++ [.csr c.toNat]
  | .csrClr d _ c => sdest d ++ [.csr c.toNat]
  | .bitfPopc d _ => sdest d
  | .bitfClz d _ => sdest d
  | .bitfCtz d _ => sdest d
  | .bitfBrev d _ => sdest d
  | .bitfBswap d _ => sdest d
  | .bitfExtu d _ _ => sdest d
  | .bitfExts d _ _ => sdest d
  | .bitfIns d _ _ => sdest d
  | .muldivMul d _ _ => sdest d
  | .muldivMulh d _ _ => sdest d
  | .muldivMulhu d _ _ => sdest d
  | .muldivDiv d _ _ => sdest d
  | .muldivDivu d _ _ => sdest d
  | .muldivRem d _ _ => sdest d
  | .muldivRemu d _ _ => sdest d
  | .sysNop => []
  | .sysEnd _ => []
  | .sysTrap _ _ => []
  | .sysWev => []
  | .privRd d _ => sdest d
  | .privWr _ _ => []
  | .privRet => []
  | .privHcall _ => []
  | .privWfi => []
  | .privTinv _ _ => []
  | .ringClaim d _ _ _ => sdest d
  | .ringCommit _ _ _ _ => []
  | .ringWaitf _ _ _ => []
  | .ringWaitr _ _ _ => []
  | .ringPop _ _ _ => []
  | .ringCfg _ _ => []
  | .ringRd d _ => sdest d
  | .semAdd _ _ _ _ => []
  | .semWaitge _ _ => []
  | .semRd d _ => sdest d
  | .gbarArr _ => []
  | .gbarWait _ => []
  | .gbarSync _ => []
  | .ordRel _ => []
  | .ordAcq _ => []
  | .ordFull _ => []
  | .copyIn _ _ _ _ _ => []
  | .copyOut _ _ _ _ _ => []
  | .copyWt _ _ _ _ _ _ => []
  | .copyMm _ _ _ _ => []
  | .gathFill _ _ _ => []
  | .lineRd d _ => sdest d
  | .lineWr _ _ => []
  | .lineSet _ _ _ _ => []
  | .markTile => []
  | .markDrain => []
  | .mmaRn8 _ _ _ _ _ _ _ _ => []
  | .mmaRn4 _ _ _ _ _ _ _ _ => []
  | .mmaRnx _ _ _ _ _ _ _ _ => []
  | .mmaRny _ _ _ _ _ _ _ _ => []
  | .mmaBf16 _ _ _ _ _ _ _ _ => []
  | .accRd d _ _ => [.v d.val]
  | .accFlg d _ => sdest d
  | .accSt _ _ _ _ => []
  | .accAdd _ _ _ => []
  | .accZero _ => []
  | .tentMark _ _ => []
  | .rslv _ _ _ _ => []
  | .mkat _ _ => []
  | .vfpAdd d _ _ _ => [.v d.val]
  | .vfpSub d _ _ _ => [.v d.val]
  | .vfpMul d _ _ _ => [.v d.val]
  | .vfpMin d _ _ _ => [.v d.val]
  | .vfpMax d _ _ _ => [.v d.val]
  | .vfpAbs d _ _ => [.v d.val]
  | .vfpNeg d _ _ => [.v d.val]
  | .vfpCpsgn d _ _ _ => [.v d.val]
  | .vfmaFma d _ _ _ => [.v d.val]
  | .vfmaFms d _ _ _ => [.v d.val]
  | .vfmaFnma d _ _ _ => [.v d.val]
  | .vfmaFnms d _ _ _ => [.v d.val]
  | .vintAdd d _ _ _ => [.v d.val]
  | .vintSub d _ _ _ => [.v d.val]
  | .vintMul d _ _ _ => [.v d.val]
  | .vintAnd d _ _ _ => [.v d.val]
  | .vintOr d _ _ _ => [.v d.val]
  | .vintXor d _ _ _ => [.v d.val]
  | .vintAndn d _ _ _ => [.v d.val]
  | .vintShl d _ _ _ => [.v d.val]
  | .vintShr d _ _ _ => [.v d.val]
  | .vintSra d _ _ _ => [.v d.val]
  | .vintMin d _ _ _ => [.v d.val]
  | .vintMax d _ _ _ => [.v d.val]
  | .vintAdds d _ _ _ => [.v d.val]
  | .vintSubs d _ _ _ => [.v d.val]
  | .vintAbs d _ _ => [.v d.val]
  | .vintMulh d _ _ _ => [.v d.val]
  | .vcmpEq d _ _ _ => [.v d.val]
  | .vcmpNe d _ _ _ => [.v d.val]
  | .vcmpLt d _ _ _ => [.v d.val]
  | .vcmpLe d _ _ _ => [.v d.val]
  | .vcmpGt d _ _ _ => [.v d.val]
  | .vcmpGe d _ _ _ => [.v d.val]
  | .vcmpUn d _ _ _ => [.v d.val]
  | .vcvtF2i d _ _ => [.v d.val]
  | .vcvtI2f d _ _ => [.v d.val]
  | .vcvtF2h d _ => [.v d.val]
  | .vcvtH2f d _ => [.v d.val]
  | .vcvtRint d _ _ => [.v d.val]
  | .vcvtQf _ _ _ _ => []
  | .vcvtQh _ _ _ _ => []
  | .vredSum d _ _ => [.v d.val]
  | .vredMax d _ _ => [.v d.val]
  | .vredMin d _ _ => [.v d.val]
  | .vredAnd d _ _ => [.v d.val]
  | .vredOr d _ _ => [.v d.val]
  | .vredXor d _ _ => [.v d.val]
  | .vredSadd d _ _ => [.v d.val]
  | .vredSmax d _ _ => [.v d.val]
  | .vredAnyp d _ => pdest d
  | .vredAllp d _ => pdest d
  | .vpermSel d _ _ => [.v d.val]
  | .vpermShift d _ _ => [.v d.val]
  | .vpermTr d _ => [.v d.val]
  | .vmemLd d _ _ _ => [.v d.val]
  | .vmemSt _ _ _ _ => []
  | .vmemGat d _ _ _ => [.v d.val]
  | .vmemSct _ _ _ _ => []
  | .vsfuRcp d _ _ => [.v d.val]
  | .vsfuRsqrt d _ _ => [.v d.val]
  | .vsfuSqrt d _ _ => [.v d.val]
  | .vsfuDiv d _ _ _ => [.v d.val]
  | .vsfuExp d _ _ => [.v d.val]
  | .vsfuExp2 d _ _ => [.v d.val]
  | .vsfuLn d _ _ => [.v d.val]
  | .vsfuLog2 d _ _ => [.v d.val]
  | .vsfuSin d _ _ => [.v d.val]
  | .vsfuCos d _ _ => [.v d.val]
  | .vsfuTanh d _ _ => [.v d.val]
  | .vsfuSigm d _ _ => [.v d.val]
  | .vclmLo d _ _ => [.v d.val]
  | .vclmHi d _ _ => [.v d.val]
  | .vclmXlo d _ _ => [.v d.val]
  | .vclmXhi d _ _ => [.v d.val]
  | .vclmBrev d _ => [.v d.val]
  | .vselSel d _ _ => [.v d.val]
  | .vselSelz d _ => [.v d.val]
  | .vsetBcast d _ _ => [.v d.val]
  | .vsetIota d _ => [.v d.val]
  | .vsetIrow d _ => [.v d.val]
  | .vsetIcol d _ => [.v d.val]
  | .vsetGet d _ _ => sdest d
  | .vsetPut d _ _ => [.v d.val]
  | .proofRun _ _ => []
  | .ptabRd d _ _ => sdest d
  | .ptabWr _ _ _ => []
  | .ptabHrd d _ _ => sdest d
  | .ptabHwr _ _ _ => []
  | .ptabCrd d _ _ => sdest d
  | .ptabClr _ _ => []
  | .creelCfg _ _ => []
  | .creelBias _ _ => []
  | .creelOffer d _ _ => sdest d
  | .creelDrain d _ _ => sdest d
  | .creelRd d _ => sdest d
  | .routeTopk d _ _ _ _ => [.v d.val]
  | .nmaAddI32 d _ _ => sdest d
  | .nmaMinI32 d _ _ _ => sdest d
  | .nmaMaxI32 d _ _ _ => sdest d
  | .nmaAndI32 d _ _ => sdest d
  | .nmaOrI32 d _ _ => sdest d
  | .nmaXorI32 d _ _ => sdest d
  | .nmaSwapI32 d _ _ => sdest d
  | .nmaCasI32 d _ _ => sdest d
  | .nmaAddI64 d _ _ => sdest d
  | .nmaMinI64 d _ _ _ => sdest d
  | .nmaMaxI64 d _ _ _ => sdest d
  | .nmaAndI64 d _ _ => sdest d
  | .nmaOrI64 d _ _ => sdest d
  | .nmaXorI64 d _ _ => sdest d
  | .nmaSwapI64 d _ _ => sdest d
  | .nmaCasI64 d _ _ => sdest d
  | .nmaAddF32 d _ _ => sdest d
  | .nmaMinF32 d _ _ => sdest d
  | .nmaMaxF32 d _ _ => sdest d
  | .nmaSwapF32 d _ _ => sdest d
  | .nmaCasF32 d _ _ => sdest d
  | .nmaLaddF32 _ _ _ _ => []
  | .nmaLaddI32 _ _ _ _ => []
  | .nmaLmaxF32 _ _ _ _ => []
  | .skSeed _ _ => []
  | .skUpd _ _ _ => []
  | .skUpdl _ _ _ => []
  | .skQry d _ _ => sdest d
  | .skQryl _ _ _ => []
  | .skAdd _ _ => []
  | .skClr _ => []
  | .ocInit _ _ _ _ => []
  | .ocIns _ _ _ => []
  | .ocLdt d _ _ => sdest d
  | .ocLds d _ _ => sdest d
  | .ocSettle _ _ => []
  | .ocFold d _ => sdest d
  | .postTask _ => []
  | .postQp _ _ => []
  | .postTcadd _ _ _ _ _ => []
  | .postTcset _ _ _ _ _ => []
  | .postTcrd d _ _ _ _ => sdest d
  | .postTcwait _ _ _ _ _ => []
  | .postWbeg _ _ => []
  | .postWcom _ => []
  | .postWabn _ => []
  | .postWst d _ => sdest d
  | .cStreamLanding _ => []
  | .lateResultReady _ => []
  | .watchdog _ => []
  | .loopIterationEnd _ => []
  | .waitSatisfied _ => []
  | .engineCommandStart _ _ => []
  | .engineCommandRetire _ _ => []
  | .engineReplay _ _ => []
  | .katTestRun _ => []
  | .commandSteal _ _ => []
  | .prooferCommandStart _ => []
  | .prooferCommandRetire _ => []
  | .postedOpApply _ _ => []
  | .nodeRecordAdmit _ => []
  | .tileRecordAdmit _ => []
  | .runTileDispatch _ => []
  | .dispatch => []
  | .preload _ => []
  | .reserving _ => []
  | .nodeRetire _ => []
  | .heldRelease => []
  | .budget _ => []
  | .peelSave _ => []
  | .translationWalk _ _ _ => []
  | .tuInvalidation _ _ => []
  | .entryArm _ => []
  | .csqPut _ _ => []
  | .csqPutredSum _ _ => []
  | .csqPutredMax _ _ => []
  | .csqPutredMin _ _ => []
  | .csqMaxexp _ _ => []
  | .csqNotify _ _ => []
  | .lcopyCopy _ _ => []
  | .lcopyConvert _ _ => []
  | .lcopyZero _ _ => []
  | .entryComplete _ _ => []
  | .entryFail _ _ => []
  | .remoteCounterAdd _ _ _ => []
  | .qpctlReset _ => []
  | .qpctlEnable _ => []
  | .qpctlDisable _ => []
  | .qpResetDone _ => []
  | .interruptEntry _ => []
  | .partitionCreate _ => []
  | .partitionStart _ => []
  | .partitionStop _ => []
  | .partitionDestroy _ => []
  | .ncmdPreempt _ _ _ _ => []
  | .ncmdResume _ _ _ _ => []
  | .ncmdRerun _ _ _ _ => []
  | .ncmdDiscard _ _ _ _ => []
  | .ncmdClear _ _ => []
  | .nodeCommandComplete _ => []
  | .cstgWrite _ _ => []
  | .scrbWrite _ _ => []
  | .pptbWrite _ _ => []
  | .privilegedRegisterWrite _ _ _ => []
  | .scrubPass _ => []
  | .ingtArm _ _ => []
  | .ingtDisarm _ _ => []
  | .ingestCheck _ => []
  | .mbctlAck _ => []
  | .mbctlSig _ => []
  | .hostDoorbell _ => []
  | .hostBar0Access _ _ _ _ _ => []
  | .hostBar2Access _ _ _ _ _ => []
  | .fpsDrain _ _ => []
  | .fpsReturn _ _ => []
  | .drainFlitSend _ => []
  | .peerDrainRequest _ => []
  | .drainConfirm _ => []
  | .fabricTimeout _ => []
  | .evcStart _ => []
  | .evcUnlatchRequest _ => []
  | .evcLate => []
  | .unlatchRaise => []
  | .unlatchDrop => []
  | .islandRequestRun _ _ => []
  | .islandRequestIdle _ _ => []
  | .islandRequestOff _ _ => []
  | .islandStart => []
  | .coreGroupStart _ => []
  | .islandWake _ => []
  | .correctedError _ => []
  | .bucketLeak => []
  | .memoryLinkFail _ => []
  | .laneRetrain _ _ => []
  | .arbitrationAging _ => []
  | .powerOn => []
  | .bootStep _ _ _ => []
  | .debugToken _ => []
  | .altClear _ => []
  | .spdmGetVersion => []
  | .spdmGetCapabilities => []
  | .spdmNegotiateAlgorithms => []
  | .spdmGetDigests => []
  | .spdmGetCertificate => []
  | .spdmChallenge _ => []
  | .spdmGetMeasurements _ => []
  | .pldmSensorRead _ => []
  | .bundleIssue _ _ => []
  | .unassignedOpcode _ => []
  | .reservedKindRecord _ => []
  | .fabricPeerRequest _ _ => []
  | .fabricPortUp _ => []
  | .fabricPortDown _ => []
  | .peerPortReopen _ => []
  | .uncorrectableError _ => []
  | .debugAccess _ => []

/-- The registers an instruction reads (R311). -/
def sources : Instr → List RegSite
  | .iopAdd _ a b => [.scalar a, .scalar b]
  | .iopSub _ a b => [.scalar a, .scalar b]
  | .iopAnd _ a b => [.scalar a, .scalar b]
  | .iopOr _ a b => [.scalar a, .scalar b]
  | .iopXor _ a b => [.scalar a, .scalar b]
  | .iopShl _ a b => [.scalar a, .scalar b]
  | .iopShr _ a b => [.scalar a, .scalar b]
  | .iopSra _ a b => [.scalar a, .scalar b]
  | .iopMin _ a b => [.scalar a, .scalar b]
  | .iopMax _ a b => [.scalar a, .scalar b]
  | .iopMinu _ a b => [.scalar a, .scalar b]
  | .iopMaxu _ a b => [.scalar a, .scalar b]
  | .iopAddw _ a b => [.scalar a, .scalar b]
  | .iopSubw _ a b => [.scalar a, .scalar b]
  | .iopSlt _ a b => [.scalar a, .scalar b]
  | .iopSltu _ a b => [.scalar a, .scalar b]
  | .iopiAdd _ a _ => [.scalar a]
  | .iopiAnd _ a _ => [.scalar a]
  | .iopiOr _ a _ => [.scalar a]
  | .iopiXor _ a _ => [.scalar a]
  | .iopiShl _ a _ => [.scalar a]
  | .iopiShr _ a _ => [.scalar a]
  | .iopiSra _ a _ => [.scalar a]
  | .iopiAddw _ a _ => [.scalar a]
  | .ihiLo _ _ => []
  | .ihiH1 d _ => [.scalar d]
  | .ihiH2 d _ => [.scalar d]
  | .ihiH3 d _ => [.scalar d]
  | .ihiLou _ _ => []
  | .cmpEq _ a b => [.scalar a, .scalar b]
  | .cmpNe _ a b => [.scalar a, .scalar b]
  | .cmpLt _ a b => [.scalar a, .scalar b]
  | .cmpGe _ a b => [.scalar a, .scalar b]
  | .cmpLtu _ a b => [.scalar a, .scalar b]
  | .cmpGeu _ a b => [.scalar a, .scalar b]
  | .cmpTst _ a b => [.scalar a, .scalar b]
  | .prdAnd _ a b => [.pred a, .pred b]
  | .prdOr _ a b => [.pred a, .pred b]
  | .prdXor _ a b => [.pred a, .pred b]
  | .prdAndn _ a b => [.pred a, .pred b]
  | .prdOrn _ a b => [.pred a, .pred b]
  | .prdNor _ a b => [.pred a, .pred b]
  | .prdFrs _ a => [.scalar a]
  | .prdTos _ a => [.pred a]
  | .prdRds _ => (List.finRange 16).map .pred
  | .prdWrs a => [.scalar a]
  | .br _ p _ => [.pred p]
  | .jmpR a => [.scalar a]
  | .jmpLink _ a => [.scalar a]
  | .loopSp _ a _ => [.scalar a]
  | .ldsB8 _ a _ _ => [.scalar a]
  | .ldsI8 _ a _ _ => [.scalar a]
  | .ldsB16 _ a _ _ => [.scalar a]
  | .ldsI16 _ a _ _ => [.scalar a]
  | .ldsB32 _ a _ _ => [.scalar a]
  | .ldsI32 _ a _ _ => [.scalar a]
  | .ldsB64 _ a _ _ => [.scalar a]
  | .stsB8 d a _ _ => [.scalar d, .scalar a]
  | .stsB16 d a _ _ => [.scalar d, .scalar a]
  | .stsB32 d a _ _ => [.scalar d, .scalar a]
  | .stsB64 d a _ _ => [.scalar d, .scalar a]
  | .csrRd _ _ => []
  | .csrWr a _ => [.scalar a]
  | .csrSet _ a _ => [.scalar a]
  | .csrClr _ a _ => [.scalar a]
  | .bitfPopc _ a => [.scalar a]
  | .bitfClz _ a => [.scalar a]
  | .bitfCtz _ a => [.scalar a]
  | .bitfBrev _ a => [.scalar a]
  | .bitfBswap _ a => [.scalar a]
  | .bitfExtu _ a b => [.scalar a, .scalar b]
  | .bitfExts _ a b => [.scalar a, .scalar b]
  | .bitfIns d a b => [.scalar d, .scalar a, .scalar b]
  | .muldivMul _ a b => [.scalar a, .scalar b]
  | .muldivMulh _ a b => [.scalar a, .scalar b]
  | .muldivMulhu _ a b => [.scalar a, .scalar b]
  | .muldivDiv _ a b => [.scalar a, .scalar b]
  | .muldivDivu _ a b => [.scalar a, .scalar b]
  | .muldivRem _ a b => [.scalar a, .scalar b]
  | .muldivRemu _ a b => [.scalar a, .scalar b]
  | .sysNop => []
  | .sysEnd _ => []
  | .sysTrap a _ => [.scalar a]
  | .sysWev => []
  | .privRd _ a => [.scalar a]
  | .privWr a b => [.scalar a, .scalar b]
  | .privRet => []
  | .privHcall _ => []
  | .privWfi => []
  | .privTinv a b => [.scalar a, .scalar b]
  | .ringClaim _ _ b _ => [.scalar b]
  | .ringCommit d _ b _ => [.scalar d, .scalar b]
  | .ringWaitf _ b _ => [.scalar b]
  | .ringWaitr _ b _ => [.scalar b]
  | .ringPop _ b _ => [.scalar b]
  | .ringCfg _ b => [.scalar b]
  | .ringRd _ _ => []
  | .semAdd d _ b _ => [.scalar d, .scalar b]
  | .semWaitge _ b => [.scalar b]
  | .semRd _ _ => []
  | .gbarArr _ => []
  | .gbarWait _ => []
  | .gbarSync _ => []
  | .ordRel _ => []
  | .ordAcq _ => []
  | .ordFull _ => []
  | .copyIn _ a b _ _ => [.scalar a, .scalar b]
  | .copyOut d _ b _ _ => [.scalar d, .scalar b]
  | .copyWt _ a b _ _ _ => [.scalar a, .scalar b]
  | .copyMm d a b _ => [.scalar d, .scalar a, .scalar b]
  | .gathFill _ a _ => [.scalar a]
  | .lineRd _ a => [.scalar a]
  | .lineWr a b => [.scalar a, .scalar b]
  | .lineSet d a b _ => [.scalar d, .scalar a, .scalar b]
  | .markTile => []
  | .markDrain => []
  | .mmaRn8 _ _ _ _ _ _ _ _ => []
  | .mmaRn4 _ _ _ _ _ _ _ _ => []
  | .mmaRnx _ _ _ _ _ _ _ _ => []
  | .mmaRny _ _ _ _ _ _ _ _ => []
  | .mmaBf16 _ _ _ _ _ _ _ _ => []
  | .accRd _ _ b => [.scalar b]
  | .accFlg _ _ => []
  | .accSt _ _ _ _ => []
  | .accAdd _ _ _ => []
  | .accZero _ => []
  | .tentMark _ a => [.scalar a]
  | .rslv _ a _ _ => [.scalar a]
  | .mkat a b => [.scalar a, .scalar b]
  | .vfpAdd _ a b _ => [.vector a, .vector b]
  | .vfpSub _ a b _ => [.vector a, .vector b]
  | .vfpMul _ a b _ => [.vector a, .vector b]
  | .vfpMin _ a b _ => [.vector a, .vector b]
  | .vfpMax _ a b _ => [.vector a, .vector b]
  | .vfpAbs _ a _ => [.vector a]
  | .vfpNeg _ a _ => [.vector a]
  | .vfpCpsgn _ a b _ => [.vector a, .vector b]
  | .vfmaFma d a b _ => [.vector d, .vector a, .vector b]
  | .vfmaFms d a b _ => [.vector d, .vector a, .vector b]
  | .vfmaFnma d a b _ => [.vector d, .vector a, .vector b]
  | .vfmaFnms d a b _ => [.vector d, .vector a, .vector b]
  | .vintAdd _ a b _ => [.vector a, .vector b]
  | .vintSub _ a b _ => [.vector a, .vector b]
  | .vintMul _ a b _ => [.vector a, .vector b]
  | .vintAnd _ a b _ => [.vector a, .vector b]
  | .vintOr _ a b _ => [.vector a, .vector b]
  | .vintXor _ a b _ => [.vector a, .vector b]
  | .vintAndn _ a b _ => [.vector a, .vector b]
  | .vintShl _ a b _ => [.vector a, .vector b]
  | .vintShr _ a b _ => [.vector a, .vector b]
  | .vintSra _ a b _ => [.vector a, .vector b]
  | .vintMin _ a b _ => [.vector a, .vector b]
  | .vintMax _ a b _ => [.vector a, .vector b]
  | .vintAdds _ a b _ => [.vector a, .vector b]
  | .vintSubs _ a b _ => [.vector a, .vector b]
  | .vintAbs _ a _ => [.vector a]
  | .vintMulh _ a b _ => [.vector a, .vector b]
  | .vcmpEq _ a b _ => [.vector a, .vector b]
  | .vcmpNe _ a b _ => [.vector a, .vector b]
  | .vcmpLt _ a b _ => [.vector a, .vector b]
  | .vcmpLe _ a b _ => [.vector a, .vector b]
  | .vcmpGt _ a b _ => [.vector a, .vector b]
  | .vcmpGe _ a b _ => [.vector a, .vector b]
  | .vcmpUn _ a b _ => [.vector a, .vector b]
  | .vcvtF2i _ a _ => [.vector a]
  | .vcvtI2f _ a _ => [.vector a]
  | .vcvtF2h _ a => [.vector a]
  | .vcvtH2f _ a => [.vector a]
  | .vcvtRint _ a _ => [.vector a]
  | .vcvtQf d a b _ => [.scalar d, .vector a, .scalar b]
  | .vcvtQh d a b _ => [.scalar d, .vector a, .scalar b]
  | .vredSum _ a _ => [.vector a]
  | .vredMax _ a _ => [.vector a]
  | .vredMin _ a _ => [.vector a]
  | .vredAnd _ a _ => [.vector a]
  | .vredOr _ a _ => [.vector a]
  | .vredXor _ a _ => [.vector a]
  | .vredSadd _ a _ => [.vector a]
  | .vredSmax _ a _ => [.vector a]
  | .vredAnyp _ a => [.vector a]
  | .vredAllp _ a => [.vector a]
  | .vpermSel _ a b => [.vector a, .vector b]
  | .vpermShift _ a b => [.vector a, .scalar b]
  | .vpermTr _ a => [.vector a]
  | .vmemLd _ a b _ => [.scalar a, .scalar b]
  | .vmemSt d a b _ => [.vector d, .scalar a, .scalar b]
  | .vmemGat _ a b _ => [.scalar a, .vector b]
  | .vmemSct d a b _ => [.vector d, .scalar a, .vector b]
  | .vsfuRcp _ a _ => [.vector a]
  | .vsfuRsqrt _ a _ => [.vector a]
  | .vsfuSqrt _ a _ => [.vector a]
  | .vsfuDiv _ a b _ => [.vector a, .vector b]
  | .vsfuExp _ a _ => [.vector a]
  | .vsfuExp2 _ a _ => [.vector a]
  | .vsfuLn _ a _ => [.vector a]
  | .vsfuLog2 _ a _ => [.vector a]
  | .vsfuSin _ a _ => [.vector a]
  | .vsfuCos _ a _ => [.vector a]
  | .vsfuTanh _ a _ => [.vector a]
  | .vsfuSigm _ a _ => [.vector a]
  | .vclmLo _ a b => [.vector a, .vector b]
  | .vclmHi _ a b => [.vector a, .vector b]
  | .vclmXlo d a b => [.vector d, .vector a, .vector b]
  | .vclmXhi d a b => [.vector d, .vector a, .vector b]
  | .vclmBrev _ a => [.vector a]
  | .vselSel d a b => [.vector d, .vector a, .vector b]
  | .vselSelz d a => [.vector d, .vector a]
  | .vsetBcast _ a _ => [.scalar a]
  | .vsetIota _ _ => []
  | .vsetIrow _ _ => []
  | .vsetIcol _ _ => []
  | .vsetGet _ a b => [.vector a, .scalar b]
  | .vsetPut d a b => [.vector d, .scalar a, .scalar b]
  | .proofRun a _ => [.scalar a]
  | .ptabRd _ a b => [.scalar a, .scalar b]
  | .ptabWr d a b => [.scalar d, .scalar a, .scalar b]
  | .ptabHrd _ a b => [.scalar a, .scalar b]
  | .ptabHwr d a b => [.scalar d, .scalar a, .scalar b]
  | .ptabCrd _ a b => [.scalar a, .scalar b]
  | .ptabClr a b => [.scalar a, .scalar b]
  | .creelCfg a b => [.scalar a, .scalar b]
  | .creelBias a b => [.scalar a, .scalar b]
  | .creelOffer _ a b => [.scalar a, .scalar b]
  | .creelDrain _ a b => [.scalar a, .scalar b]
  | .creelRd _ a => [.scalar a]
  | .routeTopk _ a b _ _ => [.vector a, .vector b]
  | .nmaAddI32 _ a b => [.scalar a, .scalar b]
  | .nmaMinI32 _ a b _ => [.scalar a, .scalar b]
  | .nmaMaxI32 _ a b _ => [.scalar a, .scalar b]
  | .nmaAndI32 _ a b => [.scalar a, .scalar b]
  | .nmaOrI32 _ a b => [.scalar a, .scalar b]
  | .nmaXorI32 _ a b => [.scalar a, .scalar b]
  | .nmaSwapI32 _ a b => [.scalar a, .scalar b]
  | .nmaCasI32 d a b => [.scalar d, .scalar a, .scalar b]
  | .nmaAddI64 _ a b => [.scalar a, .scalar b]
  | .nmaMinI64 _ a b _ => [.scalar a, .scalar b]
  | .nmaMaxI64 _ a b _ => [.scalar a, .scalar b]
  | .nmaAndI64 _ a b => [.scalar a, .scalar b]
  | .nmaOrI64 _ a b => [.scalar a, .scalar b]
  | .nmaXorI64 _ a b => [.scalar a, .scalar b]
  | .nmaSwapI64 _ a b => [.scalar a, .scalar b]
  | .nmaCasI64 d a b => [.scalar d, .scalar a, .scalar b]
  | .nmaAddF32 _ a b => [.scalar a, .scalar b]
  | .nmaMinF32 _ a b => [.scalar a, .scalar b]
  | .nmaMaxF32 _ a b => [.scalar a, .scalar b]
  | .nmaSwapF32 _ a b => [.scalar a, .scalar b]
  | .nmaCasF32 d a b => [.scalar d, .scalar a, .scalar b]
  | .nmaLaddF32 d a b _ => [.scalar d, .scalar a, .scalar b]
  | .nmaLaddI32 d a b _ => [.scalar d, .scalar a, .scalar b]
  | .nmaLmaxF32 d a b _ => [.scalar d, .scalar a, .scalar b]
  | .skSeed a b => [.scalar a, .scalar b]
  | .skUpd d a b => [.scalar d, .scalar a, .scalar b]
  | .skUpdl a b _ => [.scalar a, .scalar b]
  | .skQry _ a b => [.scalar a, .scalar b]
  | .skQryl a b _ => [.scalar a, .scalar b]
  | .skAdd a b => [.scalar a, .scalar b]
  | .skClr a => [.scalar a]
  | .ocInit d a b _ => [.scalar d, .scalar a, .scalar b]
  | .ocIns d a b => [.scalar d, .scalar a, .scalar b]
  | .ocLdt _ a b => [.scalar a, .scalar b]
  | .ocLds d a b => [.scalar d, .scalar a, .scalar b]
  | .ocSettle a b => [.scalar a, .scalar b]
  | .ocFold d b => [.scalar d, .scalar b]
  | .postTask a => [.scalar a]
  | .postQp a b => [.scalar a, .scalar b]
  | .postTcadd d a _ _ n => [.scalar d] ++ (if n then [.scalar a] else [])
  | .postTcset d a _ _ n => [.scalar d] ++ (if n then [.scalar a] else [])
  | .postTcrd _ a _ _ n => [] ++ (if n then [.scalar a] else [])
  | .postTcwait d a _ _ n => [.scalar d] ++ (if n then [.scalar a] else [])
  | .postWbeg a b => [.scalar a, .scalar b]
  | .postWcom b => [.scalar b]
  | .postWabn b => [.scalar b]
  | .postWst _ b => [.scalar b]
  | .cStreamLanding _ => []
  | .lateResultReady _ => []
  | .watchdog _ => []
  | .loopIterationEnd _ => []
  | .waitSatisfied _ => []
  | .engineCommandStart _ _ => []
  | .engineCommandRetire _ _ => []
  | .engineReplay _ _ => []
  | .katTestRun _ => []
  | .commandSteal _ _ => []
  | .prooferCommandStart _ => []
  | .prooferCommandRetire _ => []
  | .postedOpApply _ _ => []
  | .nodeRecordAdmit _ => []
  | .tileRecordAdmit _ => []
  | .runTileDispatch _ => []
  | .dispatch => []
  | .preload _ => []
  | .reserving _ => []
  | .nodeRetire _ => []
  | .heldRelease => []
  | .budget _ => []
  | .peelSave _ => []
  | .translationWalk _ _ _ => []
  | .tuInvalidation _ _ => []
  | .entryArm _ => []
  | .csqPut _ _ => []
  | .csqPutredSum _ _ => []
  | .csqPutredMax _ _ => []
  | .csqPutredMin _ _ => []
  | .csqMaxexp _ _ => []
  | .csqNotify _ _ => []
  | .lcopyCopy _ _ => []
  | .lcopyConvert _ _ => []
  | .lcopyZero _ _ => []
  | .entryComplete _ _ => []
  | .entryFail _ _ => []
  | .remoteCounterAdd _ _ _ => []
  | .qpctlReset _ => []
  | .qpctlEnable _ => []
  | .qpctlDisable _ => []
  | .qpResetDone _ => []
  | .interruptEntry _ => []
  | .partitionCreate _ => []
  | .partitionStart _ => []
  | .partitionStop _ => []
  | .partitionDestroy _ => []
  | .ncmdPreempt _ _ _ _ => []
  | .ncmdResume _ _ _ _ => []
  | .ncmdRerun _ _ _ _ => []
  | .ncmdDiscard _ _ _ _ => []
  | .ncmdClear _ _ => []
  | .nodeCommandComplete _ => []
  | .cstgWrite _ _ => []
  | .scrbWrite _ _ => []
  | .pptbWrite _ _ => []
  | .privilegedRegisterWrite _ _ _ => []
  | .scrubPass _ => []
  | .ingtArm _ _ => []
  | .ingtDisarm _ _ => []
  | .ingestCheck _ => []
  | .mbctlAck _ => []
  | .mbctlSig _ => []
  | .hostDoorbell _ => []
  | .hostBar0Access _ _ _ _ _ => []
  | .hostBar2Access _ _ _ _ _ => []
  | .fpsDrain _ _ => []
  | .fpsReturn _ _ => []
  | .drainFlitSend _ => []
  | .peerDrainRequest _ => []
  | .drainConfirm _ => []
  | .fabricTimeout _ => []
  | .evcStart _ => []
  | .evcUnlatchRequest _ => []
  | .evcLate => []
  | .unlatchRaise => []
  | .unlatchDrop => []
  | .islandRequestRun _ _ => []
  | .islandRequestIdle _ _ => []
  | .islandRequestOff _ _ => []
  | .islandStart => []
  | .coreGroupStart _ => []
  | .islandWake _ => []
  | .correctedError _ => []
  | .bucketLeak => []
  | .memoryLinkFail _ => []
  | .laneRetrain _ _ => []
  | .arbitrationAging _ => []
  | .powerOn => []
  | .bootStep _ _ _ => []
  | .debugToken _ => []
  | .altClear _ => []
  | .spdmGetVersion => []
  | .spdmGetCapabilities => []
  | .spdmNegotiateAlgorithms => []
  | .spdmGetDigests => []
  | .spdmGetCertificate => []
  | .spdmChallenge _ => []
  | .spdmGetMeasurements _ => []
  | .pldmSensorRead _ => []
  | .bundleIssue _ _ => []
  | .unassignedOpcode _ => []
  | .reservedKindRecord _ => []
  | .fabricPeerRequest _ _ => []
  | .fabricPortUp _ => []
  | .fabricPortDown _ => []
  | .peerPortReopen _ => []
  | .uncorrectableError _ => []
  | .debugAccess _ => []

/-- The number of elements n = ROWS x COLS of a shape (R192). -/
def shapeN (v : W32) : Nat := bf v 11 11 * bf v 0 11
/-- COLS (R192). -/
def shapeCols (v : W32) : Nat := bf v 0 11
/-- ROWS (R192). -/
def shapeRows (v : W32) : Nat := bf v 11 11

/-- The special registers of a compute core (R148): sequencers that may use them, and whether they may be written. A hearth
core, whose words R156 lets be of this group, has none of them, LC and ESC included: the model's choice (log 97). -/
def csrAllowed (w : Who) (n : Nat) (write : Bool) : Bool :=
  match w with
  | .hearth _ => false
  | .core _ q =>
    match n with
    | 0 | 1 | 4 => q == .C
    | 2 | 3 => true
    | 0x10 | 0x11 | 0x12 | 0x13 | 0x14 | 0x15 => !write
    | _ => false

/-- A write of LC, ESC or VROT is refused while the sequencer's loop is active (R148). -/
def csrLoopOk (s : State) (n : Nat) (write : Bool) : Bool :=
  !(write && s.me.loop.active && (n == 2 || n == 3 || n == 4))

/-- Whether the kernel declares a barrier (R62, R186). -/
def barDeclared (s : State) (a : Reg16) : Bool :=
  match s.cur with
  | .core g _ => decide (a.val < ((s.core g).ctx.getD {}).bars.length)
  | .hearth _ => false

/-- Limits that depend on the state and are checked at issue, whatever a guard reads (R152): special-register numbers
and access (R148), declared barriers (R186), the body of `loop.sp` given the bundle's N (R176), `sys.end gang` outside K
(R181), whole blocks of a residue conversion (R206), and 2k columns for `route.topk` (R238). -/
def stateOk (n : Nat) (i : Instr) (s : State) : Bool :=
  let shape := match s.cur with
    | .core g _ => (s.core g).vshape
    | .hearth _ => 0
  match i with
  | .csrRd _ c => csrAllowed s.cur c.toNat false
  | .csrWr _ c | .csrSet _ _ c | .csrClr _ _ c => csrAllowed s.cur c.toNat true && csrLoopOk s c.toNat true
  | .gbarArr a | .gbarWait a | .gbarSync a => barDeclared s a
  | .loopSp _ _ i => match s.cur with
    | .core _ .C => decide (n + 2 < i.toNat)
    | _ => decide (1 < i.toNat)
  | .sysEnd g => !g || (match s.cur with | .core _ .K => true | _ => false)
  | .vcvtQf _ _ _ t | .vcvtQh _ _ _ t =>
    decide (shapeN shape % (if t = 6 then 256 else 512) = 0)
  | .routeTopk _ _ _ _ k => decide (2 * (k.val + 1) ≤ shapeCols shape)
  | _ => true

/-- One of these registers of the executing sequencer holds an uncorrectable error (R311). -/
def readsError (srcs : List RegSite) (s : State) : Bool :=
  match s.cur with
  | .core g q => (s.core g).regErr.any fun e =>
      e.1 == q && srcs.any fun r => match r, e.2 with
        | .vector a, .vector b =>
          (if a.val < 16 then a.val else 16 + (a.val + (s.core g).vrot.toNat) % 16) == b.val
        | a, b => decide (a = b)
  | .hearth h => (s.hearth h).regErr.any fun e => srcs.contains e

/-- What stops a word of group m before it executes (R155, R156, R146, R183): PRIV for the PRIV group in K of a compute
core or at level U, ILLEGAL otherwise; `ok` tells that its fields and limits are as its entry gives them. -/
def groupCheck (m : Nat) (ok : Bool) (s : State) : Option Exc :=
  let kPriv : Bool := m == 0x0F && (match s.cur with
    | .core _ .K => true
    | .core _ _ => false
    | .hearth h => (s.hearth h).lv == 0)
  if kPriv then some privExc else if accepts s.cur m && ok then none else some illegal

/-- The check of an instruction; `n` is N of the bundle, 0 outside C. -/
def issueCheck (n : Nat) (i : Instr) (s : State) : Option Exc := groupCheck (majorOf i) (i.wf && stateOk n i s) s

/-- A write to a register removes a pending error from it (R311); in C the write is the landing. -/
def State.overwrite (s : State) (ds : List Dest) : State :=
  match s.cur with
  | .core _ .C => s
  | .core g q =>
    if (s.core g).regErr.isEmpty then s
    else s.setCore g { s.core g with regErr := (s.core g).regErr.filter fun e => !(e.1 == q && ds.any fun d =>
      match d, e.2 with
      | .s r, .scalar r' => r == r'.val
      | .p r, .pred r' => r == r'.val
      | _, _ => false) }
  | .hearth h =>
    if (s.hearth h).regErr.isEmpty then s
    else s.setHearth h { s.hearth h with regErr := (s.hearth h).regErr.filter fun e => !(ds.any fun d =>
      match d, e with
      | .s r, .scalar r' => r == r'.val
      | .p r, .pred r' => r == r'.val
      | _, _ => false) }

/-- What a word's execution comes to: the check, the consumption of register errors, then its effect. -/
def wordEff (chk : Option Exc) (srcs : List RegSite) (ds : List Dest) (x : State → Eff) (s : State) : Eff :=
  match chk with
  | some e => .trap e
  | none => if readsError srcs s then .trap registerExc else x (s.overwrite ds).enterWord

/-- Runs a word in its frame: the checks, its effect, and what comes of it. -/
def runWord (i : Instr) (x : State → Eff) (s : State) : Host.Outcome State Fault Refusal :=
  .next (settle (.word i) s (wordEff (issueCheck 0 i s) (sources i) (dests i) x s))

/-! ### The same for `Near` -/

/-- The group of a word of `Near` (R155). -/
def Near.major : Near → Nat
  | .nmaMaxF32 _ _ _ => 0x3C
  | .nmaSwapF32 _ _ _ => 0x3C
  | .nmaCasF32 _ _ _ => 0x3C
  | .nmaLaddF32 _ _ _ _ => 0x3C
  | .nmaLaddI32 _ _ _ _ => 0x3C
  | .nmaLmaxF32 _ _ _ _ => 0x3C
  | .skSeed _ _ => 0x3D
  | .skUpd _ _ _ => 0x3D
  | .skUpdl _ _ _ => 0x3D
  | .skQry _ _ _ => 0x3D
  | .skQryl _ _ _ => 0x3D
  | .skAdd _ _ => 0x3D
  | .skClr _ => 0x3D
  | .ocInit _ _ _ _ => 0x3D
  | .ocIns _ _ _ => 0x3D
  | .ocLdt _ _ _ => 0x3D
  | .ocLds _ _ _ => 0x3D
  | .ocSettle _ _ => 0x3D
  | .ocFold _ _ => 0x3D
  | .postTask _ => 0x3E
  | .postQp _ _ => 0x3E
  | .postTcadd _ _ _ _ _ => 0x3E
  | .postTcset _ _ _ _ _ => 0x3E
  | .postTcrd _ _ _ _ _ => 0x3E
  | .postTcwait _ _ _ _ _ => 0x3E
  | .postWbeg _ _ => 0x3E
  | .postWcom _ => 0x3E
  | .postWabn _ => 0x3E
  | .postWst _ _ => 0x3E

/-- Its destinations. -/
def Near.dests : Near → List Dest
  | .nmaMaxF32 d _ _ => sdest d
  | .nmaSwapF32 d _ _ => sdest d
  | .nmaCasF32 d _ _ => sdest d
  | .nmaLaddF32 _ _ _ _ => []
  | .nmaLaddI32 _ _ _ _ => []
  | .nmaLmaxF32 _ _ _ _ => []
  | .skSeed _ _ => []
  | .skUpd _ _ _ => []
  | .skUpdl _ _ _ => []
  | .skQry d _ _ => sdest d
  | .skQryl _ _ _ => []
  | .skAdd _ _ => []
  | .skClr _ => []
  | .ocInit _ _ _ _ => []
  | .ocIns _ _ _ => []
  | .ocLdt d _ _ => sdest d
  | .ocLds d _ _ => sdest d
  | .ocSettle _ _ => []
  | .ocFold d _ => sdest d
  | .postTask _ => []
  | .postQp _ _ => []
  | .postTcadd _ _ _ _ _ => []
  | .postTcset _ _ _ _ _ => []
  | .postTcrd d _ _ _ _ => sdest d
  | .postTcwait _ _ _ _ _ => []
  | .postWbeg _ _ => []
  | .postWcom _ => []
  | .postWabn _ => []
  | .postWst d _ => sdest d

/-- The registers it reads. -/
def Near.sources : Near → List RegSite
  | .nmaMaxF32 _ a b => [.scalar a, .scalar b]
  | .nmaSwapF32 _ a b => [.scalar a, .scalar b]
  | .nmaCasF32 d a b => [.scalar d, .scalar a, .scalar b]
  | .nmaLaddF32 d a b _ => [.scalar d, .scalar a, .scalar b]
  | .nmaLaddI32 d a b _ => [.scalar d, .scalar a, .scalar b]
  | .nmaLmaxF32 d a b _ => [.scalar d, .scalar a, .scalar b]
  | .skSeed a b => [.scalar a, .scalar b]
  | .skUpd d a b => [.scalar d, .scalar a, .scalar b]
  | .skUpdl a b _ => [.scalar a, .scalar b]
  | .skQry _ a b => [.scalar a, .scalar b]
  | .skQryl a b _ => [.scalar a, .scalar b]
  | .skAdd a b => [.scalar a, .scalar b]
  | .skClr a => [.scalar a]
  | .ocInit d a b _ => [.scalar d, .scalar a, .scalar b]
  | .ocIns d a b => [.scalar d, .scalar a, .scalar b]
  | .ocLdt _ a b => [.scalar a, .scalar b]
  | .ocLds d a b => [.scalar d, .scalar a, .scalar b]
  | .ocSettle a b => [.scalar a, .scalar b]
  | .ocFold d b => [.scalar d, .scalar b]
  | .postTask a => [.scalar a]
  | .postQp a b => [.scalar a, .scalar b]
  | .postTcadd d a _ _ n => [.scalar d] ++ (if n then [.scalar a] else [])
  | .postTcset d a _ _ n => [.scalar d] ++ (if n then [.scalar a] else [])
  | .postTcrd _ a _ _ n => [] ++ (if n then [.scalar a] else [])
  | .postTcwait d a _ _ n => [.scalar d] ++ (if n then [.scalar a] else [])
  | .postWbeg a b => [.scalar a, .scalar b]
  | .postWcom b => [.scalar b]
  | .postWabn b => [.scalar b]
  | .postWst _ b => [.scalar b]

/-- Its field limits, as `Instr.wf` has them. -/
def Near.wf : Near → Bool
  | .nmaMaxF32 _ _ _ => true
  | .nmaSwapF32 _ _ _ => true
  | .nmaCasF32 d _ _ => d != 0
  | .nmaLaddF32 _ _ _ _ => true
  | .nmaLaddI32 _ _ _ _ => true
  | .nmaLmaxF32 _ _ _ _ => true
  | .skSeed _ _ => true
  | .skUpd _ _ _ => true
  | .skUpdl _ _ _ => true
  | .skQry _ _ _ => true
  | .skQryl _ _ _ => true
  | .skAdd _ _ => true
  | .skClr _ => true
  | .ocInit _ _ _ _ => true
  | .ocIns _ _ _ => true
  | .ocLdt _ _ _ => true
  | .ocLds _ _ _ => true
  | .ocSettle _ _ => true
  | .ocFold _ _ => true
  | .postTask _ => true
  | .postQp _ _ => true
  | .postTcadd _ _ b h n => !n || (b == 0 && h == 0)
  | .postTcset _ _ b h n => !n || (b == 0 && h == 0)
  | .postTcrd _ _ b h n => !n || (b == 0 && h == 0)
  | .postTcwait _ _ b h n => !n || (b == 0 && h == 0)
  | .postWbeg _ _ => true
  | .postWcom _ => true
  | .postWabn _ => true
  | .postWst _ _ => true

/-- Runs a word of `Near` in its frame, as `runWord`. -/
def runNear (n : Near) (x : State → Eff) (s : State) : Host.Outcome State Fault Refusal :=
  .next (settle (.near n) s (wordEff (groupCheck n.major n.wf s) n.sources n.dests x s))

end Sys2Proof.Machine
end

