-- ==== Sys2Proof/Machine/Fetch.lean ====
section
/-! DEFINITION. Fetching an instruction or a bundle, and which sequencers and units may act (R150, R177, R265, R21). -/

namespace Sys2Proof.Machine

/-- Where a sequencer fetches from: device memory with the right X (R298, R265), which a hearth core at H names by its
physical address. -/
def State.fetchKey (s : State) (w : Who) (va : W64) : Except Exc Nat :=
  let a := va.toNat
  match w with
  | .core g _ =>
    if inDevice a then s.translate (s.cluster (cidOf g)).tlb ((s.core g).ctx.getD {}).part a { x := true } true
    else .error (access va)
  | .hearth h =>
    if (if (s.hearth h).lv = 2 then isDev a else inDevice a) then s.hresolve h va { x := true } else .error (access va)

/-- Fetches one word: a poisoned or uncorrectable line faults as a load of it does (R179, R311, log 18). -/
def State.fetchWord (s : State) (w : Who) (va : W64) : Except Exc W32 :=
  if va.toNat % 4 ≠ 0 then .error (align va)
  else
    match s.fetchKey w va with
    | .error e => .error e
    | .ok k =>
      match s.loadFault k 4 va with
      | some e => .error e
      | none => .ok (BitVec.ofNat 32 (s.load k 4).1)

/-- Fetches n words from an address. -/
def State.fetchWords (s : State) (w : Who) : Nat → W64 → Except Exc (List W32)
  | 0, _ => .ok []
  | n + 1, va =>
    match s.fetchWord w va with
    | .error e => .error e
    | .ok x =>
      match s.fetchWords w n (va + 4) with
      | .error e => .error e
      | .ok xs => .ok (x :: xs)

/-- The first slot of a bundle at pc whose word lies at or after END, for a bundle that spans END (R177, R156). -/
def spanSlot (pc fin : W64) (n : Nat) : Option Nat :=
  if pc < fin ∧ fin < pc + BitVec.ofNat 64 (4 * (n + 2)) then
    some ((fin - pc).toNat / 4 + (if (fin - pc).toNat % 4 = 0 then 0 else 1) - 1)
  else none

/-- What a turn of a sequencer comes to. -/
inductive Act where
  | idle
  | run (i : Instr)
  | fault (slot : Nat) (e : Exc)

noncomputable section

/-- The instruction or bundle at an address: a word outside the opcode map, and in C a word that is no header, is
the step `unassignedOpcode`. -/
def State.fetchInstr (s : State) (w : Who) (q : Seq) : Act :=
  match s.fetchWord w q.pc with
  | .error e => .fault 15 e
  | .ok x =>
    match w with
    | .core _ .C =>
      if fld x.toNat 26 6 = 63 then
        let n := fld x.toNat 20 2
        match (if q.loop.active then spanSlot q.pc q.loop.fin n else none) with
        | some k => .fault k illegal
        | none =>
          match s.fetchWords w (n + 1) (q.pc + 4) with
          | .error e => .fault 15 e
          | .ok xs =>
            match decodeWords (x :: xs) with
            | .ok (i, _) => .run i
            | .error _ => .run (.unassignedOpcode x)
      else .run (.unassignedOpcode x)
    | _ =>
      match decodeWords [x] with
      | .ok (i, _) => .run i
      | .error _ => .run (.unassignedOpcode x)

/-- The peel has stopped the issue of a core's gang (R293). -/
def State.peelStopped (s : State) (g : Nat) : Bool :=
  match (s.core g).ctx with
  | some x => match s.disp.pool.get? x.entry with
    | some e => e.stopped && e.cores.contains g
    | none => false
  | none => false

/-- A sequencer runs: one that is stopping still has its instruction of the cycle (R295). -/
def Seq.runs (q : Seq) : Bool := q.run == .running || (q.run == .stopping && !q.issued)

/-- Whether a sequencer may take a turn: it runs, its core is neither frozen (R23) nor stopped by the peel (R293), and
no debugger halts it, but for the one step it was asked for (R340). -/
def State.canRun (s : State) (w : Who) : Bool :=
  match w with
  | .core g q =>
    ((s.core g).seq q).runs && (s.core g).freeze.isNone && !s.peelStopped g
      && (!(s.core g).debug || decide ((s.core g).stepping = some q))
  | .hearth h => (s.hearth h).seq.run == .running && !(s.hearth h).debug

/-- A single step is used up by the turn it allows (R340). -/
def State.stepUsed (s : State) (w : Who) : State :=
  match w with
  | .core g q => if (s.core g).stepping = some q then s.setCore g { s.core g with stepping := none } else s
  | .hearth _ => s

/-- An operation in flight in C has come to its landing cycle (R21). -/
def State.landingDue (s : State) (w : Who) : Bool :=
  match w with
  | .core g .C => (s.core g).flight.any fun f => f.left == 0
  | _ => false

end

/-- A row of the opcode table that happens only within another step: in a sequencer's turn, or as the register write of
a `priv.wr`. -/
def inner : Instr → Bool
  | .waitSatisfied _ | .loopIterationEnd _ | .cStreamLanding _ | .bundleIssue _ _ | .unassignedOpcode _ => true
  | .qpctlReset _ | .qpctlEnable _ | .qpctlDisable _ | .partitionCreate _ | .partitionStart _ | .partitionStop _
  | .partitionDestroy _ | .cstgWrite _ _ | .scrbWrite _ _ | .pptbWrite _ _ | .privilegedRegisterWrite _ _ _
  | .ingtArm _ _ | .ingtDisarm _ _ | .mbctlAck _ | .mbctlSig _ | .fpsDrain _ _ | .fpsReturn _ _ | .evcStart _
  | .evcUnlatchRequest _ | .islandRequestRun _ _ | .islandRequestIdle _ _ | .islandRequestOff _ _ => true
  | _ => false

/-- A step without a word that may happen on its own, on a unit that the device has. -/
def eventOk (i : Instr) : Bool := i.wf && !hasWord i && !inner i

/-- The native latencies of the M7400 (R20). -/
def nativeLat : List Nat := [1, 1, 4, 4, 2, 4, 10, 6, 3, 6, 12, 3, 8]

/-- Every memory link UP, NORMAL, with two channels and 512 GiB (R324). -/
def linksUp : Map MLink := (List.range 32).map fun n => (n, { reg := 0x0000020000022C02 })

/-- A machine about to fetch given words with the sequencer of their group: a link-up device, a running partition 0
that owns cluster 0 and every slice, and on core 0 a one-core node, or hearth core 0 at level H (log 14). -/
def State.place (s : State) (hearth : Bool) (q : SeqKind) (words : List W32) : State :=
  let pa := 0x40000000
  let va : W64 := 0x10000000000
  let part : Part := { s.part 0 with
    pstate := 2, pcl := 1, pslc := 0xFFFFFFFF, pqp := 0x4000000, ptc := 0x10000000, ppool := 0x10000000,
    prq := 0x11F000000, psave := 0x100000000, psaven := 16 }
  let m := Mem.writeBytes s.mem pa (words.flatMap bytesOfWord)
  let s := { s with mem := m, links := linksUp, parts := s.parts.set 0 part, agenda := [] }
  if hearth then
    let h := s.hearth 0
    let x := { h.seq with pc := BitVec.ofNat 64 pa, run := .running, wait := none, sync := none, loop := {} }
    { s with agenda := [.seq (.hearth 0)], pos := 0 }.setHearth 0 { h with lv := 2, debug := false, seq := x }
  else
    let cl := s.cluster 0
    let e : Tlb := { part := 0, va := 0x10000000000, size := 2 ^ 30, ipa := pa, pa := pa, x := true, w := true, rd := true, u := true }
    let ctx : Ctx := { gsz := 1, lat := nativeLat, bars := [(0, 1)] }
    let entry : Entry := { phase := .running, cores := [0], limit := 2 ^ 40 }
    let c := { s.core 0 with ctx := some ctx, freeze := none, debug := false, vshape := 0x808, flight := [] }
    let c := { c.setSeq q { c.seq q with pc := va, run := .running, wait := none, sync := none, issued := false, loop := {} } with last := 0 }
    let s := { s with agenda := [.seq (.core 0 q)], pos := 0, disp := { s.disp with pool := s.disp.pool.set 0 entry } }
    (s.setCluster 0 { cl with tlb := e :: cl.tlb, bars := cl.bars.set 0 { bound := some 0, p := 1 } }).setCore 0 c

/-- The sequencer that accepts a group, and the words as it fetches them: a C slot stands in a bundle of one slot
under profile 1 (R156, R160). -/
def State.placeWord (s : State) (w : Nat) : State :=
  let m := fld w 26 6
  let x : W32 := BitVec.ofNat 32 w
  if m = 0x0F then s.place true .K [x]
  else if accepts (.core 0 .K) m then s.place false .K [x]
  else if accepts (.core 0 .L) m then s.place false .L [x]
  else if m = 63 then s.place false .C ((List.range 5).map fun k => BitVec.ofNat 32 (w / 2 ^ (32 * k)))
  else s.place false .C [0xFC400000, x]

end Sys2Proof.Machine
end

