-- ==== Sys2Proof/Machine/Hazard.lean ====
section
/-! DEFINITION. The scratchpad hazard checker of STRICT nodes (R81). While such a node runs it keeps the links between
agents (R70, R74-R78, R115, R257) and the accesses, and decides linked-before from them (R71, log 11). -/

namespace Sys2Proof.Machine

/-! ### Agents and their places -/

/-- The core an agent belongs to (R68, R69). -/
def Agent.core : Agent → Option Nat
  | .seq (.core g _) => some g
  | .cmd g _ _ => some g
  | .list g _ => some g
  | _ => none
/-- The cluster an agent belongs to (R69). -/
def Agent.cluster : Agent → Option Nat
  | .proof g _ => some (cidOf g)
  | a => a.core.map cidOf
/-- An engine, the proofer or the bank units acting for a command or list form: its completion is a signal (R77, R257). -/
def Agent.isCmd : Agent → Bool
  | .cmd _ _ _ => true
  | .proof _ _ => true
  | .list _ _ => true
  | _ => false
/-- The agents whose accesses the checker tests (R81): sequencers and engines. -/
def Agent.tested : Agent → Bool
  | .seq _ => true
  | .cmd _ _ _ => true
  | _ => false
/-- Two accesses of one sequencer, or of one engine of one core, are one agent's (R68). -/
def Agent.same (a b : Agent) : Bool :=
  match a, b with
  | .cmd g e _, .cmd h f _ => g == h && e == f
  | _, _ => decide (a = b)
/-- The sequencer of this step as an agent. -/
def State.agent (s : State) : Agent := .seq s.cur

/-- Two agents lie in one instance of a scope (R69, R70). -/
def oneInstance (scope : Nat) (a b : Agent) : Bool :=
  match scope with
  | 0 => decide (a = b)
  | 1 => a.core.isSome && a.core == b.core
  | 2 => a.cluster.isSome && a.cluster == b.cluster
  | _ => true

/-- The number of an agent's instance of a scope; a hearth core lies in no core and no cluster, and is alone (R69). -/
def instanceOf (scope : Nat) (a : Agent) : Nat :=
  let own := match a with
    | .seq (.hearth h) => numCores + 1 + h
    | _ => numCores
  match scope with
  | 1 => a.core.getD own
  | 2 => a.cluster.getD own
  | _ => 0

/-! ### Locations -/

/-- The side band of a line as a location of its own (R67). -/
def sideLoc (k : Nat) : Nat := 2 ^ 56 + k / 256 * 16
/-- The core whose scratchpad holds a location: a granule or a side band. -/
def locCore (k : Nat) : Option Nat :=
  if isSpad k then some (spadCore k)
  else if 2 ^ 56 ≤ k ∧ isSpad ((k - 2 ^ 56) * 16) = true then some (spadCore ((k - 2 ^ 56) * 16)) else none
/-- The granules of n bytes from a key (R67). -/
def granules (key n : Nat) : List Nat :=
  (List.range ((key + n + 15) / 16 - key / 16)).map fun i => (key / 16 + i) * 16
/-- An access covers a location. -/
def Access.covers (x : Access) (loc : Nat) : Bool := decide (x.base ≤ loc) && decide (loc < x.base + x.len)

/-- Whether two ranges of bytes meet. -/
def meet (b1 n1 b2 n2 : Nat) : Bool := decide (b1 < b2 + n2) && decide (b2 < b1 + n1)

/-! ### Linked-before (R71) -/

/-- A value listed for a key. -/
def lookupD {α β : Type} [DecidableEq α] (m : List (α × β)) (k : α) (dflt : β) : β :=
  match m with
  | [] => dflt
  | e :: m => if e.1 = k then e.2 else lookupD m k dflt
/-- Lists a value for a key. -/
def replace {α β : Type} [DecidableEq α] (m : List (α × β)) (k : α) (v : β) : List (α × β) :=
  match m with
  | [] => [(k, v)]
  | e :: m => if e.1 = k then (k, v) :: m else e :: replace m k v

/-- An agent's count of events. -/
def Hazard.count (z : Hazard) (a : Agent) : Nat := lookupD z.own a 1
/-- One more event of an agent. -/
def Hazard.next (z : Hazard) (a : Agent) : Hazard := { z with own := replace z.own a (z.count a + 1) }

/-- A command accesses a location. -/
def Hazard.touches (z : Hazard) (c : Agent) (loc : Nat) : Bool := z.log.any fun x => decide (x.who = c) && x.covers loc

/-- A link reaches a scratchpad location for an access of agent a: by its scope, or because the command that forms it
accesses the location (R69, R71). -/
def Link.reaches (l : Link) (z : Hazard) (a : Agent) (loc : Nat) : Bool :=
  l.all || decide (3 ≤ l.scope)
    || (match locCore loc with
      | none => false
      | some h => (l.scope == 2 && l.dst.cluster == some (cidOf h)) || (l.scope == 1 && l.dst.core == some h))
    || (match l.cmd with
      | some c => decide (c = a) || z.touches c loc
      | none => false)

/-- The agents that an access comes before in linked-before at a location, with the count from which it does: the links
are followed in the order they formed. -/
def Hazard.after (z : Hazard) (a : Agent) (loc : Nat) (x : Access) : List (Agent × Nat) :=
  z.links.foldl (fun m l =>
    match lookupD m l.who none with
    | some n => if decide (n ≤ l.n) && l.reaches z a loc && (lookupD m l.dst none).isNone then m ++ [(l.dst, some l.m)] else m
    | none => m) [(x.who, some x.n)] |>.filterMap fun e => e.2.map fun n => (e.1, n)

/-- An earlier access is linked-before the next access of agent a at a location. -/
def Hazard.linked (z : Hazard) (a : Agent) (loc : Nat) (x : Access) : Bool := (z.after a loc x).any fun e => decide (e.1 = a)

/-! ### Releases, acquires and fences (R70, R74-R78) -/

/-- A STRICT node is on some core: the checker keeps what it needs. -/
def State.strictRuns (s : State) : Bool := s.cores.any fun c => (c.2.ctx.getD {}).strict
/-- The checker watches a core: its node is STRICT (R81). -/
def State.watched (s : State) (g : Nat) : Bool := ((s.core g).ctx.getD {}).strict

/-- The next release of an agent. -/
def State.srcOf (s : State) (a : Agent) (scope : Nat) : Src := { who := a, n := s.hazard.count a, scope := scope, cmd := a.isCmd }

/-- The link that an acquire at a scope forms with a release, if their agents lie in one instance of the narrower scope
(R70); sequencer scope has no effect beyond R68 (R74). A command's signal also reaches what the command accesses (R71). -/
def Src.link (x : Src) (a : Agent) (m scope : Nat) : Option Link :=
  let z := min scope x.scope
  if x.who = a then none
  else if 1 ≤ z ∧ oneInstance z x.who a = true then
    some { who := x.who, n := x.n, dst := a, m := m, scope := z, cmd := if x.cmd then some x.who else none }
  else none

/-- Releases are added to an object. -/
def State.addSrcs (s : State) (o : Obj) (xs : List Src) : State :=
  { s with hazard := { s.hazard with objs := replace s.hazard.objs o (lookupD s.hazard.objs o [] ++ xs) } }
/-- The release fences that what an agent writes now carries (R74). -/
def State.fences (s : State) (a : Agent) : List Src := lookupD s.hazard.rel a []

/-- Agent a releases into an object at a scope; the object's new value carries its release fences too (R74). -/
def State.release (s : State) (a : Agent) (scope : Nat) (o : Obj) : State :=
  if s.strictRuns then
    let t := s.addSrcs o (s.srcOf a scope :: s.fences a)
    { t with hazard := t.hazard.next a }
  else s

/-- Agent a acquires at a scope from releases. -/
def State.acquireFrom (s : State) (a : Agent) (scope : Nat) (xs : List Src) : State :=
  if s.strictRuns then
    let z := s.hazard
    { s with hazard := Hazard.next { z with links := z.links ++ xs.filterMap fun (x : Src) => x.link a (z.count a) scope } a }
  else s

/-- The releases of an object, with the fences they carry. -/
def State.srcs (s : State) (o : Obj) : List Src := lookupD s.hazard.objs o []

/-- Agent a has read the value of releases: an acquire fence after it links to them (R74). -/
def State.meets (s : State) (a : Agent) (xs : List Src) : State :=
  if s.strictRuns then
    { s with hazard := { s.hazard with met := replace s.hazard.met a (lookupD s.hazard.met a [] ++ xs) } }
  else s

/-- Agent a has read releases and acquires at a scope from them; the fences they carry wait for an acquire fence (R74, R77). -/
def State.acquireRead (s : State) (a : Agent) (scope : Nat) (xs : List Src) : State :=
  (s.acquireFrom a scope (xs.filter fun x => !x.fence)).meets a xs
/-- Agent a acquires at a scope from an object. -/
def State.acquire (s : State) (a : Agent) (scope : Nat) (o : Obj) : State := s.acquireRead a scope (s.srcs o)

/-- A release fence (R74): what its agent writes from now on carries it. -/
def State.fenceRel (s : State) (a : Agent) (scope : Nat) : State :=
  if s.strictRuns && decide (1 ≤ scope) then
    let z := s.hazard
    { s with hazard := Hazard.next { z with rel := replace z.rel a (s.fences a ++ [{ s.srcOf a scope with fence := true }]) } a }
  else s

/-- An acquire fence (R74): it links to what its agent's reads have met. -/
def State.fenceAcq (s : State) (a : Agent) (scope : Nat) : State := s.acquireFrom a scope (lookupD s.hazard.met a [])

/-- A full fence (R74, R75): it comes after every full fence of its scope and instance, whatever a link would reach. -/
def State.fenceFull (s : State) (a : Agent) (scope : Nat) : State :=
  if s.strictRuns && decide (1 ≤ scope) then
    let s := (s.fenceAcq a scope).fenceRel a scope
    let z := s.hazard
    let o := Obj.full scope (instanceOf scope a)
    let ls := ((s.srcs o).filter fun x => !decide (x.who = a) && !x.fence).map fun x =>
      ({ who := x.who, n := x.n, dst := a, m := z.count a, scope := scope, all := true } : Link)
    ({ s with hazard := Hazard.next { z with links := z.links ++ ls } a }).release a scope o
  else s

/-- The issue of a command or list form by agent a (R77, R78 item 1, R257); the command's writes stand after the fences
before its issue, its place in program order (R68, R74). -/
def State.issueTo (s : State) (a c : Agent) (scope : Nat) : State :=
  if s.strictRuns then
    let z := s.hazard
    { s with hazard := Hazard.next { z with
      links := z.links ++ [{ who := a, n := z.count a, dst := c, m := 0, scope := scope, cmd := some c }]
      rel := if (s.fences a).isEmpty then z.rel else replace z.rel c (s.fences a) } a }
  else s

/-! ### Accesses (R81) -/

/-- Two agents' cores belong to one STRICT gang, and so does the scratchpad. -/
def State.sameGang (s : State) (g : Nat) (x : Agent) (loc : Nat) : Bool :=
  match x.core, locCore loc with
  | some h, some k => s.watched g && (s.gang g).contains h && (s.gang g).contains k
  | _, _ => false

/-- An access of agent a of core g meets an earlier one at a location, one of them writes, and they are not linked. -/
def State.overlaps (s : State) (g : Nat) (a : Agent) (write : Bool) (loc : Nat) : Bool :=
  s.hazard.log.any fun x =>
    x.covers loc && x.who.tested && (x.write || write) && !x.who.same a && s.sameGang g x.who loc && !s.hazard.linked a loc x

/-- The release fences that a read of a location meets: those before its latest write, by another agent (R74). -/
def Hazard.metAt (z : Hazard) (a : Agent) (loc : Nat) : List Src :=
  match z.log.find? fun x => x.write && x.covers loc with
  | some x => if x.who = a then [] else x.rel
  | none => []

/-- An access is remembered, and what it reads is met. -/
def State.logAccess (s : State) (a : Agent) (key n : Nat) (read write : Bool) (rel : List Src) : State :=
  if s.strictRuns then
    let z := s.hazard
    let s := if read then s.meets a ((granules key n).flatMap (z.metAt a)) else s
    let x : Access := { who := a, n := z.count a, base := key / 16 * 16, len := (key + n + 15) / 16 * 16 - key / 16 * 16
                        write := write, rel := rel }
    { s with hazard := Hazard.next { s.hazard with log := x :: s.hazard.log } a }
  else s

/-- An access of agent a of core g: UNORDERED_OVERLAP when a location of it meets an earlier access of the gang that is
not linked before it, on a scratchpad of the gang (R67, R81); else it is remembered. -/
def State.track (s : State) (g : Nat) (a : Agent) (key n : Nat) (write : Bool) (va : W64) : Except Exc State :=
  if s.strictRuns then
    if s.watched g && (granules key n).any (s.overlaps g a write) then .error (.fault 0x0B va 0)
    else .ok (s.logAccess a key n (!write) write (s.fences a))
  else .ok s

/-- An access to a whole line with its side band (R67). -/
def State.trackLine (s : State) (g : Nat) (a : Agent) (k : Nat) (write : Bool) (va : W64) : Except Exc State :=
  match s.track g a k 256 write va with
  | .error e => .error e
  | .ok s => s.track g a (sideLoc k) 16 write va

/-- An access of the executing sequencer. -/
def State.trackMe (s : State) (k n : Nat) (write : Bool) (va : W64) : Except Exc State :=
  match s.cur with
  | .core g _ => s.track g s.agent k n write va
  | .hearth _ => .ok (s.logAccess s.agent k n (!write) write (s.fences s.agent))

/-! ### Orders that the dispatcher carries (R76, R135, R257) -/

/-- An object's releases are dropped. -/
def State.clearObj (s : State) (o : Obj) : State :=
  { s with hazard := { s.hazard with objs := s.hazard.objs.filter fun x => !decide (x.1 = o) } }

/-- What one object has carried another carries too. -/
def State.copySrcs (s : State) (o o' : Obj) : State := s.addSrcs o' (s.srcs o)

/-- Every agent of some cores releases into an object: their accesses are complete. -/
def State.releaseCores (s : State) (gs : List Nat) (o : Obj) : State :=
  if s.strictRuns then
    ((s.hazard.own.map (·.1)).filter fun a => match a.core with | some g => gs.contains g | none => false).foldl
      (fun s a => s.release a 3 o) s
  else s

/-- The agents of a core: its sequencers, and its engines for the commands that wait in its queues. -/
def State.coreAgents (s : State) (g : Nat) : List Agent :=
  let c := s.core g
  ([SeqKind.K, .L, .C, .S].map fun q => .seq (.core g q))
    ++ (c.lq.cmds ++ c.sq.cmds ++ c.mq.cmds).flatMap fun x => (List.range 3).map fun eng => .cmd g eng x.order

/-- The agents of some cores acquire from an object, which has then done its work: the sequencers, and the commands that a
resume brought back (R76). -/
def State.acquireCores (s : State) (gs : List Nat) (o : Obj) : State :=
  (gs.foldl (fun s g => (s.coreAgents g).foldl (fun s a => s.acquire a 3 o) s) s).clearObj o

/-- The accesses of the cores a dispatch takes are forgotten; without a STRICT node left, everything is but the
counts of events. -/
def State.forget (s : State) (gs : List Nat) : State :=
  if s.strictRuns then
    { s with hazard := { s.hazard with log := s.hazard.log.filter fun x =>
        match x.who.core with
        | some g => !(gs.contains g)
        | none => true } }
  else { s with hazard := { own := s.hazard.own } }

end Sys2Proof.Machine
end

