-- ==== Sys2Proof/Machine/Operands.lean ====
section
/-! DEFINITION. Operand forms: immediates, effective addresses, bit fields, scalar loads and stores (R146, R154, R171,
R178, R179). -/

namespace Sys2Proof.Machine

/-- A signed 12-bit immediate (R168). -/
def imm12 (i : BitVec 12) : W64 := i.signExtend 64
/-- The target of a branch: base + 4 x OFF21, base being the word or in C the bundle's header (R154). -/
def branchTarget (base : W64) (o : BitVec 21) : W64 := base + 4 * o.signExtend 64
/-- END of `loop.sp`: base + 4 x IMM12, unsigned (R176). -/
def loopEnd (base : W64) (i : BitVec 12) : W64 := base + 4 * i.setWidth 64
/-- The effective address of a scalar access (R178). -/
def effAddr (a : W64) (i : BitVec 12) : W64 := a + imm12 i

/-- The low 32 bits, sign-extended (R167). -/
def word32 (x : W64) : W64 := (x.setWidth 32).signExtend 64

/-- pos of a field word (R171). -/
def fieldPos (b : W64) : Nat := bf b 0 6
/-- len of a field word, at most 64 (R171). -/
def fieldLen (b : W64) : Nat := min 64 (bf b 8 7)

/-- The bits of a number in reverse order. -/
def revBits : Nat → Nat → Nat
  | 0, _ => 0
  | n + 1, x => x % 2 * 2 ^ n + revBits n (x / 2)

/-- Set bits among the low n. -/
def popCount : Nat → Nat → Nat
  | 0, _ => 0
  | n + 1, x => x % 2 + popCount n (x / 2)

/-- Zeros below the lowest set bit, n if there is none. -/
def trailing : Nat → Nat → Nat
  | 0, _ => 0
  | n + 1, x => if x % 2 = 1 then 0 else 1 + trailing n (x / 2)

/-- Zeros above the highest set bit of 64. -/
def leading (x : W64) : Nat := if x = 0 then 64 else 63 - Nat.log2 x.toNat

/-- Posted operations of the executing sequencer that no bank unit has applied (R116). -/
def State.postedBy (s : State) : List Posted :=
  match s.cur with
  | .core g .K => (s.core g).posted
  | .core _ _ => []
  | .hearth h => (s.hearth h).posted

/-- An access to shared memory waits until the bank units have applied what its sequencer posted before, so that the
sequencer sees its own operations in program order (R68, R25). -/
def State.mustDrain (s : State) (va : W64) : Bool :=
  decide (2 ^ 32 ≤ va.toNat) && decide (va.toNat < 2 ^ 32 + 2 ^ 29) && !s.postedBy.isEmpty

/-- A scalar load of n bytes (R178, R179): the value and the state after it. -/
def State.scalarLoad (s : State) (ea : W64) (n : Nat) : Except Exc (Nat × State) :=
  if ea.toNat % n ≠ 0 then .error (align ea)
  else
    match s.resolveFor s.cur ea { rd := true } with
    | .error e => .error e
    | .ok k =>
      match s.trackMe k n false ea with
      | .error e => .error e
      | .ok s =>
        match s.loadFault k n ea with
        | some e => .error e
        | none => .ok (s.load k n)

/-- A scalar store of the n low bytes (R178, R179); a poisoned line keeps its side band (R54). -/
def State.scalarStore (s : State) (ea : W64) (n : Nat) (v : W64) : Except Exc State :=
  if ea.toNat % n ≠ 0 then .error (align ea)
  else
    match s.resolveFor s.cur ea { w := true } with
    | .error e => .error e
    | .ok k =>
      match s.trackMe k n true ea with
      | .error e => .error e
      | .ok s => .ok (s.store k n v.toNat)

/-- Where VMEM, the conversions and the reads of a core's own scratchpad reach an address: a scratchpad byte of this core or of the cluster window, with the
checks of R208. -/
def State.vreach (s : State) (g : Nat) (va : W64) (n : Need) : Except Exc Nat :=
  let a := va.toNat
  if a < 2 ^ 20 ∨ (0x1000000 ≤ a ∧ a < 0x9000000) then s.resolve g va n else .error (access va)

/-- The key of a scratchpad or window address already checked. -/
def vkey (g : Nat) (va : W64) : Nat :=
  let a := va.toNat
  if a < 2 ^ 20 then spadKey g a else spadKey (cidOf g * 128 + (a - 0x1000000) / 2 ^ 20) ((a - 0x1000000) % 2 ^ 20)

/-- The first failing check of a list of addresses. -/
def firstFault (f : W64 → Option Exc) : List W64 → Option Exc
  | [] => none
  | a :: as => match f a with
    | some e => some e
    | none => firstFault f as

/-- The error of a check, if it fails. -/
def excOf {α : Type} : Except Exc α → Option Exc
  | .error e => some e
  | .ok _ => none

/-- A range of this core's own scratchpad, reached locally or through its own window (R206). -/
def State.ownRange (s : State) (g : Nat) (va : W64) (len : Nat) (n : Need) : Option Exc :=
  match s.vreach g va n with
  | .error e => some e
  | .ok k =>
    if spadCore k = g ∧ (k - 2 ^ 52) % 2 ^ 20 + len ≤ 2 ^ 20 then excOf (s.vreach g (va + BitVec.ofNat 64 (len - 1)) n)
    else some (access va)

/-- The poison or uncorrectable error of the first such line of a range (R179, R311). -/
def State.rangeFault (s : State) (k len : Nat) (va : W64) : Option Exc :=
  ((List.range ((k + len - 1) / 256 - k / 256 + 1)).filterMap fun i =>
    let lo := max k ((k / 256 + i) * 256)
    s.loadFault lo (min (k + len) ((k / 256 + i + 1) * 256) - lo) va).head?

/-- K's read of its core's own scratchpad for an operand block (R237, R251, R253): a hearth core has none. -/
def State.readOwn (s : State) (va : W64) (len : Nat) : Except Exc (Nat × State) :=
  match s.cur with
  | .hearth _ => .error (access va)
  | .core g _ =>
    match s.ownRange g va len { rd := true } with
    | some e => .error e
    | none =>
      let k := vkey g va
      match s.trackMe k len false va with
      | .error e => .error e
      | .ok t =>
        match s.rangeFault k len va with
        | some e => .error e
        | none => .ok (Mem.readN s.mem k len, t)

/-- A load's register value: zero- or sign-extended from n bytes (R178). -/
def extended (sx : Bool) (n v : Nat) : W64 :=
  if sx then BitVec.ofInt 64 (sextN' n v) else BitVec.ofNat 64 v
where
  /-- The signed value of n bytes. -/
  sextN' (n v : Nat) : Int := if v / 2 ^ (8 * n - 1) % 2 = 1 then (v : Int) - 2 ^ (8 * n) else v

end Sys2Proof.Machine
end

