-- ==== Sys2Proof/Machine/Control.lean ====
section
/-! DEFINITION. The control groups BR, JMP, LOOP and SYS (R154, R174-R177, R181, R182, R16), and the loop's stage
predicates and iterations (R30). -/

namespace Sys2Proof.Machine

/-- p8-p15 for iteration t (R30); the rest keep. -/
def Seq.stages (q : Seq) : Seq :=
  let stage (r : Nat) : Bool :=
    let k := r - 8
    decide (k ≤ q.esc.toNat) && decide (k ≤ q.loop.t) && decide (q.loop.t < k + q.lc.toNat)
  { q with p := Vector.ofFn fun r : Fin 16 => if 8 ≤ r.val then stage r.val else q.p.get r }

/-- A transfer to a target (R265): a fault of its fetch is the transfer's, and the END of an active loop is not fetched,
since the iteration ends there (R177). -/
def transfer (target : W64) (k : State → State) (s : State) : Eff :=
  if s.me.loop.active && target == s.me.loop.fin then .done ((k s).goto target)
  else .need (s.fetchWord s.cur target) fun _ => .done ((k s).goto target)

/-- br (R154, R174): branches when p[P] xor INV is true. -/
def xBr (n : Bool) (p : Reg16) (o : BitVec 21) (s : State) : Eff :=
  if s.rp p != n then transfer (branchTarget s.curAddr o) id s else .done s

/-- A jump to an address in a scalar (R175): its alignment, its range and its fetch are checked first. -/
def jump (target : W64) (k : State → State) (s : State) : Eff :=
  if target.toNat % 4 ≠ 0 then .trap (align target)
  else if 2 ^ 56 ≤ target.toNat then .trap (access target)
  else transfer target k s

/-- jmp.r (R175). -/
def xJmpR (a : SReg) (s : State) : Eff := jump (s.rs a) id s
/-- jmp.link (R175): the return address is the next instruction's, in C the next bundle's. -/
def xJmpLink (d a : SReg) (s : State) : Eff := jump (s.rs a) (fun t => t.putS .salu d s.me.pc) s

/-- loop.sp (R30, R31, R176): with a trip count of 0 the body is passed by. In C the first iteration's predicates are
set in the next cycle, after what lands in it (R190). -/
def xLoopSp (c : Fin 8) (a : SReg) (i : BitVec 12) (s : State) : Eff :=
  if s.me.loop.active then .trap illegal
  else
    let lc : W32 := (s.rs a).setWidth 32
    let esc : BitVec 3 := BitVec.ofNat 3 c.val
    let fin := loopEnd s.curAddr i
    let q := { s.me with lc := lc, esc := esc }
    if lc = 0 then .done (s.setMe { q with pc := fin })
    else
      let q := { q with loop := { active := true, first := q.pc, fin := fin, t := 0 } }
      match s.cur with
      | .core g .C => .done ((s.setMe q).setCore g (((s.setMe q).core g).launch 1 s.curSlot s.curAddr .stages 0))
      | _ => .done (s.setMe q.stages)

/-- The end of an iteration (R177): VROT steps in C, and the next iteration starts or the loop becomes inactive. -/
def loopEndStep (s : State) (w : Who) : State :=
  let q := s.seqOf w
  let s1 := match w with
    | .core g .C => s.setCore g { s.core g with vrot := (s.core g).vrot + 1 }
    | _ => s
  let q1 :=
    if q.loop.t + 1 < q.lc.toNat + q.esc.toNat then
      Seq.stages { q with pc := q.loop.first, loop := { q.loop with t := q.loop.t + 1 } }
    else { q with loop := { q.loop with active := false } }
  s1.setSeq w q1

/-- sys.nop (R181). -/
def xSysNop (s : State) : Eff := .done s

/-- A sequencer executes END: it issues nothing more, and in C what is in flight is discarded (R16). An END in the cycle
in which the node halts is not executed (R295). -/
def State.endSeq (s : State) (w : Who) : State :=
  let t := s.setSeq w (if (s.seqOf w).run = .stopping then (s.seqOf w).stop else { s.seqOf w with run := .ended, wait := none })
  match w with
  | .core g .C => t.setCore g { t.core g with flight := [] }
  | _ => t

/-- The gang-end form: every sequencer of the gang ends, waits are abandoned and C's operations discarded (R16). -/
def State.endGang (s : State) (g : Nat) : State :=
  (s.gang g).foldl (fun s g =>
    s.setCore g { (s.core g).mapSeqs (fun q => { q with run := .ended, wait := none, sync := none }) with
      flight := [], freeze := none }) s

/-- sys.end (R16): on a hearth core, which has no node, it stops the sequencer alone. -/
def xSysEnd (g : Bool) (s : State) : Eff :=
  match s.cur with
  | .core n _ => if g && !(s.me.run == .stopping) then .done (s.endGang n) else .done (s.endSeq s.cur)
  | .hearth _ => .done (s.endSeq s.cur)

/-- sys.trap (R181, R307). -/
def xSysTrap (a : SReg) (n : Fin 32) (s : State) : Eff := .trap (.trap n (s.rs a))

/-- sys.wev (R182): consumes the event bit, or stalls until it is set. -/
def xSysWev (s : State) : Eff := if s.me.event then .done (s.setMe { s.me with event := false }) else .stall

/-! ### The meanings -/
/-- BR (R154), as one instruction. -/
def execBr (n : Bool) (p : Fin 16) (o : BitVec 21) (s : State) : Host.Outcome State Fault Refusal :=
  runWord (.br n p o) (xBr n p o) s
/-- JMP_R (R175), as one instruction. -/
def execJmpR (a : Fin 32) (s : State) : Host.Outcome State Fault Refusal :=
  runWord (.jmpR a) (xJmpR a) s
/-- JMP_LINK (R175), as one instruction. -/
def execJmpLink (d : Fin 32) (a : Fin 32) (s : State) : Host.Outcome State Fault Refusal :=
  runWord (.jmpLink d a) (xJmpLink d a) s
/-- LOOP_SP (R30), as one instruction. -/
def execLoopSp (c : Fin 8) (a : Fin 32) (i : BitVec 12) (s : State) : Host.Outcome State Fault Refusal :=
  runWord (.loopSp c a i) (xLoopSp c a i) s
/-- SYS_NOP (R181), as one instruction. -/
def execSysNop (s : State) : Host.Outcome State Fault Refusal :=
  runWord (.sysNop) (xSysNop) s
/-- SYS_END (R16), as one instruction. -/
def execSysEnd (g : Bool) (s : State) : Host.Outcome State Fault Refusal :=
  runWord (.sysEnd g) (xSysEnd g) s
/-- SYS_TRAP (R181), as one instruction. -/
def execSysTrap (a : Fin 32) (n : Fin 32) (s : State) : Host.Outcome State Fault Refusal :=
  runWord (.sysTrap a n) (xSysTrap a n) s
/-- SYS_WEV (R182), as one instruction. -/
def execSysWev (s : State) : Host.Outcome State Fault Refusal :=
  runWord (.sysWev) (xSysWev) s

end Sys2Proof.Machine
end

