-- ==== Sys2Proof/Machine/Sync.lean ====
section
/-! DEFINITION. Rings, semaphores, gang barriers and fences (R57-R62, R74, R77, R184-R187): the operations on a
descriptor, a semaphore and a barrier counter, and the groups RING, SEM, GBAR and ORD. -/

namespace Sys2Proof.Machine

/-! ### Ring descriptors -/

/-- Slots n = NSL + 1 (R57). -/
def Ring.n (r : Ring) : Nat := bf r.cfg 21 6 + 1
/-- Lines of a slot, SSZ + 1 (R57). -/
def Ring.ssz (r : Ring) : Nat := bf r.cfg 12 9 + 1
/-- W = n x floor(65,536 / n) (R57). -/
def Ring.w (r : Ring) : Nat := r.n * (65536 / r.n)
/-- How far a counter lies past HEAD, modulo W. -/
def Ring.past (r : Ring) (x : Nat) : Nat := (x + r.w - r.head) % r.w
/-- filled (R57). -/
def Ring.filled (r : Ring) : Nat := r.past r.tail
/-- free (R57). -/
def Ring.free (r : Ring) : Nat := r.n - r.past r.claimed
/-- The scratchpad offset of slot s (R57). -/
def Ring.slotAt (r : Ring) (slot : Nat) : Nat := (bf r.cfg 0 12 + slot * r.ssz) * 256
/-- Word 1 (R57). -/
def Ring.word1 (r : Ring) : Nat := r.head + r.tail * 2 ^ 16 + r.claimed * 2 ^ 32
/-- The counter m past x, modulo W. -/
def Ring.step (r : Ring) (x m : Nat) : Nat := (x + m) % r.w

/-- Claims m slots: the ticket is the old CLAIMED (R59). -/
def Ring.claim (r : Ring) (m : Nat) : Ring := { r with claimed := r.step r.claimed m }

/-- A slot that a ticket names is claimed, and not yet committed (R59). -/
def Ring.open_ (r : Ring) (t : Nat) : Bool :=
  decide (t < r.w) && decide (r.past t < r.past r.claimed) && decide (r.filled ≤ r.past t)
    && !(r.done.getLsbD (t % r.n))

/-- TAIL passes every slot committed in order, at most k (R59). -/
def Ring.advance : Nat → Ring → Ring
  | 0, r => r
  | k + 1, r =>
    if r.done.getLsbD (r.tail % r.n) then
      Ring.advance k { r with tail := r.step r.tail 1, done := r.done &&& ~~~(1#64 <<< (r.tail % r.n)) }
    else r

/-- Marks m slots from a ticket as committed. -/
def Ring.mark (r : Ring) (t m : Nat) : Ring :=
  { r with done := (List.range m).foldl (fun d i => d ||| (1#64 <<< ((t + i) % r.w % r.n))) r.done }

/-- Commits m slots from a ticket; none when one of them is not open (R59). -/
def Ring.commit (r : Ring) (t m : Nat) : Option Ring :=
  if (List.range (min m 65)).all fun i => r.open_ (if i = 0 then t else r.step t i) then
    some ((r.mark t m).advance 64)
  else none

/-- Pops m slots (R59). -/
def Ring.pop (r : Ring) (m : Nat) : Ring := { r with head := r.step r.head m }

/-- The rings an engine command consumes, with KEEP, in operand order (R60). -/
def Cmd.consumes : Cmd → List (Reg16 × Bool)
  | .copyOut a keep _ _ => [(a, keep)]
  | .mma _ _ a b _ keepa keepb _ _ _ _ => [(a, keepa), (b, keepb)]
  | _ => []

/-- The ring an engine command of core g produces into, as core and ring (R60, R220). -/
def Cmd.produces (g : Nat) : Cmd → Option (Nat × Reg16)
  | .copyIn d k _ _ => some (k, d)
  | .copyWt d k _ _ _ => some (k, d)
  | .gath d _ => some (g, d)
  | .accSt d _ _ _ => some (g, d)
  | _ => none

/-- An engine command of core g names ring q of core k. -/
def Cmd.names (c : Cmd) (g k : Nat) (q : Reg16) : Bool :=
  (g == k && c.consumes.any fun x => x.1 == q) || c.produces g == some (k, q)

/-- Every engine command of a core that has not retired. -/
def Core.commands (c : Core) : List QCmd := c.lq.cmds ++ c.sq.cmds ++ c.mq.cmds

/-- An engine command naming ring q of core k is outstanding (R58, R59). -/
def State.ringBusy (s : State) (k : Nat) (q : Reg16) : Bool :=
  s.cores.any fun e => e.2.commands.any fun x => x.cmd.names e.1 k q

/-- Ring q of core g. -/
def State.ring (s : State) (g : Nat) (q : Reg16) : Ring := (s.core g).rings.get q
/-- Replaces ring q of core g. -/
def State.setRing (s : State) (g : Nat) (q : Reg16) (r : Ring) : State :=
  s.setCore g { s.core g with rings := (s.core g).rings.set q.val r q.isLt }

/-! ### Reaching another core's rings and semaphores -/

/-- The executing core; a hearth core has none of these resources, and the groups are closed to it (R156). -/
def State.meCore (s : State) : Nat :=
  match s.cur with
  | .core g _ => g
  | .hearth _ => 0

/-- Core COR of the cluster, reached through the window (R52): one that runs another partition's node raises
ACCESS. -/
def State.windowCore (s : State) (cor : Nat) : Except Exc Nat :=
  let g := s.meCore
  let g' := cidOf g * 128 + cor
  if g' = g then .ok g
  else
    match s.runsPart g' with
    | some p => if p = s.partFor s.cur then .ok g' else .error (access (BitVec.ofNat 64 (0x1000000 + cor * 2 ^ 20)))
    | none => .ok g'

/-- A count word (R184): m, and the core it names. -/
def State.countWord (s : State) (b : W64) (rem : Bool) : Except Exc (Nat × Nat) :=
  if 2 ^ 23 ≤ b.toNat ∨ (rem = false ∧ 2 ^ 16 ≤ b.toNat) then .error ringExc
  else if rem then
    match s.windowCore (bf b 16 7) with
    | .ok g => .ok (bf b 0 16, g)
    | .error e => .error e
  else .ok (bf b 0 16, s.meCore)

/-! ### RING (R59, R58, R184) -/

/-- A slot that retired commands of a replay window read is claimed again: they cannot be replayed (R216). -/
def Window.claimed (w : Window) (q : Reg16) (slots : List Nat) : Window :=
  if w.cmds.any fun c => c.reads.any fun r => r.1 == q && slots.contains r.2 then { w with reused := true } else w

/-- Claims m slots of ring q of core g (R59). -/
def State.claimRing (s : State) (g : Nat) (q : Reg16) (m : Nat) : State :=
  let r := s.ring g q
  let slots := (List.range m).map fun i => r.step r.claimed i % r.n
  let s := s.setRing g q (r.claim m)
  let c := s.core g
  let f (x : EQueue) : EQueue := { x with window := x.window.claimed q slots }
  s.setCore g { c with lq := f c.lq, sq := f c.sq, mq := f c.mq }

/-- ring.claim. -/
def xRingClaim (d : SReg) (a : Reg16) (b : SReg) (m : Bool) (s : State) : Eff :=
  .need (s.countWord (s.rs b) m) fun (k, g) =>
    let r := s.ring g a
    if k = 0 ∨ r.n < k then .trap ringExc
    else if r.free < k then .stall
    else .done ((s.claimRing g a k).putS .salu d (BitVec.ofNat 64 r.claimed))

/-- The scope of a commit or addition to core g's ring or semaphore: core on an agent's own core, cluster through the
window, which REM uses even for the own core (R77, R184). -/
def Agent.scopeTo (a : Agent) (g : Nat) (rem : Bool) : Nat := if rem = false ∧ a.core = some g then 1 else 2

/-- A commit of m slots of ring q of core g by an agent: DONE, TAIL, the events and the release, which takes the place of
what earlier laps left in the slot (R77). -/
def State.commitRing (s : State) (agent : Agent) (g : Nat) (q : Reg16) (t m : Nat) (rem : Bool) : Option State :=
  match (s.ring g q).commit t m with
  | none => none
  | some r =>
    let n := (s.ring g q).n
    let slot (i : Nat) : Obj := .slot g q ((t + i) % (s.ring g q).w % n)
    let s := (List.range m).foldl (fun s i => (s.clearObj (slot i)).release agent (agent.scopeTo g rem) (slot i)) s
    some ((s.setRing g q r).raiseEvents g)

/-- ring.commit. -/
def xRingCommit (d : SReg) (a : Reg16) (b : SReg) (m : Bool) (s : State) : Eff :=
  .need (s.countWord (s.rs b) m) fun (k, g) =>
    if 2 ^ 16 ≤ (s.rs d).toNat then .trap ringExc
    else
      match s.commitRing s.agent g a (s.rs d).toNat k m with
      | some t => .done t
      | none => .trap ringExc

/-- ring.waitf: acquires the slots up to HEAD + m. -/
def xRingWaitf (a : Reg16) (b : SReg) (m : Bool) (s : State) : Eff :=
  if m then .trap ringExc
  else
    .need (s.countWord (s.rs b) false) fun (k, g) =>
      let r := s.ring g a
      if r.n < k then .trap ringExc
      else if r.filled < k then .stall
      else
        .done ((List.range k).foldl
          (fun s i => s.acquire s.agent 2 (.slot g a (r.step r.head i % r.n))) s)

/-- ring.waitr. -/
def xRingWaitr (a : Reg16) (b : SReg) (m : Bool) (s : State) : Eff :=
  .need (s.countWord (s.rs b) m) fun (k, g) =>
    let r := s.ring g a
    if r.n < k then .trap ringExc else if r.free < k then .stall else .done s

/-- ring.pop. -/
def xRingPop (a : Reg16) (b : SReg) (m : Bool) (s : State) : Eff :=
  if m then .trap ringExc
  else
    .need (s.countWord (s.rs b) false) fun (k, g) =>
      let r := s.ring g a
      if r.filled < k ∨ s.ringBusy g a then .trap ringExc
      else .done ((s.setRing g a (r.pop k)).raiseEvents g)

/-- ring.cfg (R58). -/
def xRingCfg (a : Reg16) (b : SReg) (s : State) : Eff :=
  let g := s.meCore
  let w := s.rs b
  let r : Ring := { cfg := w }
  if 2 ^ 27 ≤ w.toNat ∨ 2 ^ 20 < r.slotAt r.n ∨ (s.ring g a).claimed ≠ (s.ring g a).head ∨ s.ringBusy g a then
    .trap ringExc
  else .done (s.setRing g a r)

/-- The slots whose commits TAIL has passed. -/
def Ring.passed (r : Ring) : List Nat := (List.range r.n).filter fun i => !r.done.getLsbD i

/-- ring.rd (R184): it reads the value of the commits that TAIL has passed (R74). -/
def xRingRd (d : SReg) (a : Reg16) (s : State) : Eff :=
  let g := s.meCore
  .done ((s.meets s.agent ((s.ring g a).passed.flatMap fun i => s.srcs (.slot g a i))).putS .salu d (BitVec.ofNat 64 (s.ring s.meCore a).word1))

/-! ### SEM (R61, R185) -/

/-- An addition to semaphore a of core g (R61, R182), released by an agent (R77). -/
def State.semAddTo (s : State) (agent : Agent) (g : Nat) (a : Reg16) (x : W32) (rem : Bool) : State :=
  let s := s.release agent (agent.scopeTo g rem) (.sem g a)
  let c := s.core g
  (s.setCore g { c with sems := c.sems.set a.val (c.sems.get a + x) a.isLt }).raiseEvents g

/-- sem.add. -/
def xSemAdd (d : SReg) (a : Reg16) (b : SReg) (m : Bool) (s : State) : Eff :=
  if m then
    if 128 ≤ (s.rs d).toNat then .trap (access 0)
    else
      .need (s.windowCore (s.rs d).toNat) fun g =>
        .done (s.semAddTo s.agent g a ((s.rs b).setWidth 32) true)
  else .done (s.semAddTo s.agent s.meCore a ((s.rs b).setWidth 32) false)

/-- sem.waitge. -/
def xSemWaitge (a : Reg16) (b : SReg) (s : State) : Eff :=
  let g := s.meCore
  if (s.rs b).setWidth 32 ≤ (s.core g).sems.get a then .done (s.acquire s.agent 2 (.sem g a)) else .stall

/-- sem.rd: it reads the value of the additions so far (R74). -/
def xSemRd (d : SReg) (a : Reg16) (s : State) : Eff :=
  .done ((s.meets s.agent (s.srcs (.sem s.meCore a))).putS .salu d (((s.core s.meCore).sems.get a).setWidth 64))

/-! ### GBAR (R62, R186) -/

/-- The cluster counter bound to barrier gb[a] of core g's node (R62). -/
def State.barNo (s : State) (g : Nat) (a : Reg16) : Reg16 :=
  idx 16 ((((s.core g).ctx.getD {}).bars)[a.val]?.getD (0, 0)).1

/-- A barrier's phase as core g sees it. -/
def State.phase (s : State) (g : Nat) (a : Reg16) : BitVec 16 := ((s.cluster (cidOf g)).bars.get (s.barNo g a)).phase

/-- An arrival in a barrier (R62): the one that makes the count P completes the phase. -/
def Barrier.arrive (b : Barrier) : Barrier :=
  if b.p ≤ b.count + 1 then { b with count := 0, phase := b.phase + 1 } else { b with count := b.count + 1 }

/-- gbar.arr: seen := phase, then the arrival; a completed phase sets the gang's event bits (R182). -/
def State.arrive (s : State) (a : Reg16) : State :=
  let g := s.meCore
  let c := cidOf g
  let b := s.barNo g a
  let bar := (s.cluster c).bars.get b
  let s := s.release s.agent 2 (.bar c b.val bar.phase.toNat)
  let s := s.setMe { s.me with seen := s.me.seen.set a.val (some bar.phase) a.isLt }
  let s := s.setCluster c { s.cluster c with bars := (s.cluster c).bars.set b.val bar.arrive b.isLt }
  if bar.arrive.phase = bar.phase then s else (s.gang g).foldl State.raiseEvents s

/-- Whether a barrier wait is over: the phase differs from the one seen, or none was seen (R186). -/
def State.barDone (s : State) (a : Reg16) : Bool :=
  match s.me.seen.get a with
  | none => true
  | some ph => !(s.phase s.meCore a == ph)

/-- The acquire of a satisfied barrier wait (R77). -/
def State.barAcquire (s : State) (a : Reg16) : State :=
  let g := s.meCore
  match s.me.seen.get a with
  | none => s
  | some ph => s.acquire s.agent 2 (.bar (cidOf g) (s.barNo g a).val ph.toNat)

/-- gbar.arr. -/
def xGbarArr (a : Reg16) (s : State) : Eff := .done (s.arrive a)
/-- gbar.wait. -/
def xGbarWait (a : Reg16) (s : State) : Eff := if s.barDone a then .done (s.barAcquire a) else .stall
/-- gbar.sync: the arrival is made, and the sequencer then waits past the instruction (R186, R189). -/
def xGbarSync (a : Reg16) (s : State) : Eff :=
  let t := s.arrive a
  .done (if t.barDone a then t.barAcquire a else t.setMe { t.me with sync := some a })

/-! ### ORD (R74, R75, R187) -/

/-- A fence that orders earlier writes stalls until its sequencer's posted operations are performed, at every scope above
its own (R74, R75, R80). -/
def fenceRun (scope : Fin 8) (rel : Bool) (fence : State → Agent → Nat → State) (s : State) : Eff :=
  if rel && decide (1 ≤ scope.val) && !s.postedBy.isEmpty then .stall else .done (fence s s.agent scope.val)

/-- ord.rel. -/
def xOrdRel (sc : Fin 8) (s : State) : Eff := fenceRun sc true State.fenceRel s
/-- ord.acq: the reads it orders have returned when it runs. -/
def xOrdAcq (sc : Fin 8) (s : State) : Eff := fenceRun sc false State.fenceAcq s
/-- ord.full; full fences stand in the order in which they run (R75). -/
def xOrdFull (sc : Fin 8) (s : State) : Eff := fenceRun sc true State.fenceFull s

/-! ### The meanings -/
/-- RING_CLAIM (R59), as one instruction. -/
def execRingClaim (d : Fin 32) (a : Fin 16) (b : Fin 32) (m : Bool) (s : State) : Host.Outcome State Fault Refusal :=
  runWord (.ringClaim d a b m) (xRingClaim d a b m) s
/-- RING_COMMIT (R59), as one instruction. -/
def execRingCommit (d : Fin 32) (a : Fin 16) (b : Fin 32) (m : Bool) (s : State) : Host.Outcome State Fault Refusal :=
  runWord (.ringCommit d a b m) (xRingCommit d a b m) s
/-- RING_WAITF (R59), as one instruction. -/
def execRingWaitf (a : Fin 16) (b : Fin 32) (m : Bool) (s : State) : Host.Outcome State Fault Refusal :=
  runWord (.ringWaitf a b m) (xRingWaitf a b m) s
/-- RING_WAITR (R59), as one instruction. -/
def execRingWaitr (a : Fin 16) (b : Fin 32) (m : Bool) (s : State) : Host.Outcome State Fault Refusal :=
  runWord (.ringWaitr a b m) (xRingWaitr a b m) s
/-- RING_POP (R59), as one instruction. -/
def execRingPop (a : Fin 16) (b : Fin 32) (m : Bool) (s : State) : Host.Outcome State Fault Refusal :=
  runWord (.ringPop a b m) (xRingPop a b m) s
/-- RING_CFG (R58), as one instruction. -/
def execRingCfg (a : Fin 16) (b : Fin 32) (s : State) : Host.Outcome State Fault Refusal :=
  runWord (.ringCfg a b) (xRingCfg a b) s
/-- RING_RD (R184), as one instruction. -/
def execRingRd (d : Fin 32) (a : Fin 16) (s : State) : Host.Outcome State Fault Refusal :=
  runWord (.ringRd d a) (xRingRd d a) s
/-- SEM_ADD (R61), as one instruction. -/
def execSemAdd (d : Fin 32) (a : Fin 16) (b : Fin 32) (m : Bool) (s : State) : Host.Outcome State Fault Refusal :=
  runWord (.semAdd d a b m) (xSemAdd d a b m) s
/-- SEM_WAITGE (R61), as one instruction. -/
def execSemWaitge (a : Fin 16) (b : Fin 32) (s : State) : Host.Outcome State Fault Refusal :=
  runWord (.semWaitge a b) (xSemWaitge a b) s
/-- SEM_RD (R185), as one instruction. -/
def execSemRd (d : Fin 32) (a : Fin 16) (s : State) : Host.Outcome State Fault Refusal :=
  runWord (.semRd d a) (xSemRd d a) s
/-- GBAR_ARR (R186), as one instruction. -/
def execGbarArr (a : Fin 16) (s : State) : Host.Outcome State Fault Refusal :=
  runWord (.gbarArr a) (xGbarArr a) s
/-- GBAR_WAIT (R186), as one instruction. -/
def execGbarWait (a : Fin 16) (s : State) : Host.Outcome State Fault Refusal :=
  runWord (.gbarWait a) (xGbarWait a) s
/-- GBAR_SYNC (R186), as one instruction. -/
def execGbarSync (a : Fin 16) (s : State) : Host.Outcome State Fault Refusal :=
  runWord (.gbarSync a) (xGbarSync a) s
/-- ORD_REL (R74), as one instruction. -/
def execOrdRel (s : Fin 8) (st : State) : Host.Outcome State Fault Refusal :=
  runWord (.ordRel s) (xOrdRel s) st
/-- ORD_ACQ (R74), as one instruction. -/
def execOrdAcq (s : Fin 8) (st : State) : Host.Outcome State Fault Refusal :=
  runWord (.ordAcq s) (xOrdAcq s) st
/-- ORD_FULL (R75), as one instruction. -/
def execOrdFull (s : Fin 8) (st : State) : Host.Outcome State Fault Refusal :=
  runWord (.ordFull s) (xOrdFull s) st

end Sys2Proof.Machine
end

