-- ==== Sys2Proof/Machine/Bank.lean ====
section
/-! DEFINITION. What bank units do where shared memory lies: atomics, the predictor table, creels, count sketches and
order cells (R55, R79, R84, R85, R90-R93, R99-R114, R244-R253). -/

namespace Sys2Proof.Machine

/-- What an operation applied by a bank unit leaves: the state, and its result or fault. A rejected insertion may
still change its cell (R113). -/
structure Applied where
  s : State
  r : Except Exc W64 := .ok 0

/-- A fault without an effect. -/
def Applied.err (s : State) (e : Exc) : Applied := { s := s, r := .error e }

/-- Goes on with a checked value, or faults without an effect. -/
def Applied.with {α : Type} (s : State) (x : Except Exc α) (f : α → Applied) : Applied :=
  match x with
  | .ok v => f v
  | .error e => .err s e

/-! ### Shared memory -/

/-- A range lies in shared memory (R50, R55). -/
def inShared (a len : Nat) : Bool := decide (2 ^ 32 ≤ a) && decide (a + len ≤ 2 ^ 32 + 2 ^ 29)

/-- A range lies in shared-memory slices that a partition owns (R55). -/
def State.sharedOk (s : State) (part a len : Nat) : Bool :=
  inShared a len && (List.range ((a + len - 1) / 2 ^ 24 - a / 2 ^ 24 + 1)).all fun i =>
    (s.part part).pslc.getLsbD (a / 2 ^ 24 - 256 + i)

/-- The key of a shared-memory address. -/
def shKey (a : Nat) : Nat := sharedKey (a - 2 ^ 32)
/-- The device-wide bank unit of a shared-memory address (R55). -/
def bankUnit (a : Nat) : Nat := (a - 2 ^ 32) / 2 ^ 27 * 512 + fld (a - 2 ^ 32) 8 9
/-- n bytes at a shared-memory address. -/
def State.shRd (s : State) (a n : Nat) : Nat := Mem.readN s.mem (shKey a) n
/-- Writes n bytes at a shared-memory address. -/
def State.shWr (s : State) (a n v : Nat) : State := s.store (shKey a) n v
/-- An address as a 64-bit value. -/
def w64 (a : Nat) : W64 := BitVec.ofNat 64 a

/-- FMT of the line that holds a key (R53). -/
def State.fmtOf (s : State) (k : Nat) : Nat := fld (s.sideOf k).toNat 0 8
/-- The FMT codes that are not reserved (R53). -/
def fmtKnown (f : Nat) : Bool := [0, 1, 2, 0x10, 0x11, 0x20, 0x21, 0x30, 0x31].contains f

/-- A bank unit's read of n bytes of a line: UNCORRECTABLE (R311), or FORMAT for a reserved FMT (R54). -/
def State.bankErr (s : State) (a n : Nat) : Option Exc :=
  if s.badIn (shKey a) n then some (s.lost (shKey a) n (w64 a))
  else if !fmtKnown (s.fmtOf (shKey a)) then some (format (w64 a))
  else none

/-- What an engine may not read in a side band (R53, R54): a reserved FMT, or LFL bits 7:2 that are not zero. -/
def sideErr (sb : W32) (va : W64) : Option Exc :=
  if fmtKnown (fld sb.toNat 0 8) && fld sb.toNat 26 6 == 0 then none else some (format va)

/-- The first such side band of the lines that n bytes at a key touch. -/
def State.sidesErr (s : State) (k n : Nat) (va : W64) : Option Exc :=
  ((List.range ((k + n - 1) / 256 - k / 256 + 1)).filterMap fun i => sideErr (s.sideOf ((k / 256 + i) * 256)) va).head?

/-- An engine's read of n bytes of shared memory: UNCORRECTABLE (R311), or FORMAT for a side band (R53, R54). -/
def State.engineErrAt (s : State) (a n : Nat) : Option Exc :=
  if s.badIn (shKey a) n then some (s.lost (shKey a) n (w64 a)) else s.sidesErr (shKey a) n (w64 a)

/-! ### Atomics (R249-R251) -/

/-- The new value of a single-location operation of width w bits (R250). -/
def nmaNew (op ty : Nat) (u : Bool) (x y c : Nat) : Nat :=
  let w := if ty = 1 then 64 else 32
  let fp (f : Mode → Num → Num → Res) : Nat := (f rneF32 (ofBits x) (ofBits y)).bits
  let less : Bool := if u then decide (x < y) else decide (sextN w x < sextN w y)
  match op with
  | 0 => if ty = 2 then fp fpAdd else (x + y) % 2 ^ w
  | 1 => if ty = 2 then fp fpMin else if less then x else y
  | 2 => if ty = 2 then fp fpMax else if less then y else x
  | 3 => x &&& y
  | 4 => x ||| y
  | 5 => x ^^^ y
  | 6 => y
  | _ => if x = c then y else x

/-- The formats a single-location operation accepts (R250). -/
def nmaFmt (ty f : Nat) : Bool := f == 0 || (ty == 0 && f == 0x21) || (ty == 2 && f == 0x11)

/-- Applies a single-location operation: the result is the old value, sign-extended for i32 (R250). -/
def State.nmaApply (s : State) (op ty : Nat) (u : Bool) (ea y c : Nat) : Applied :=
  let n := if ty = 1 then 8 else 4
  let k := shKey ea
  if s.badIn k n then .err s (s.lost k n (w64 ea))
  else if s.poisoned k then .err s (poisonExc (w64 ea))
  else if !nmaFmt ty (s.fmtOf k) then .err s (format (w64 ea))
  else
    let x := s.shRd ea n
    { s := s.shWr ea n (nmaNew op ty u x (y % 2 ^ (8 * n)) (c % 2 ^ (8 * n)))
      r := .ok (if ty = 0 then BitVec.ofInt 64 (sextN 32 x) else w64 x) }

/-! ### The predictor table (R84, R85, R244) -/

/-- Bytes of a predictor table, 1,040 KiB (R84). -/
def ptSize : Nat := 1040 * 1024
/-- The header of a layer slot. -/
def ptHead (base l : Nat) : Nat := base + 16 * l
/-- A held-fault entry of a layer slot. -/
def ptHeld (base l h : Nat) : Nat := base + 0x400 + 128 * l + 16 * h
/-- An expert's entry in a layer slot. -/
def ptEntry (base l e : Nat) : Nat := base + 0x4000 + 0x4000 * l + 4 * e

/-- The limits of the header's low half (R84): K, S, NEXP and the reserved bits. -/
def ptHeadOk (h : Nat) : Bool :=
  fld h 50 14 == 0 && fld h 0 20 == 0 && decide (1 ≤ fld h 36 4) && decide (fld h 36 4 ≤ 8)
    && decide (fld h 33 3 ≤ 4) && decide (1 ≤ fld h 20 13) && decide (fld h 20 13 ≤ 4096)

/-- CONF of an entry recomputed (R85). -/
def ptConf (hits misses : Nat) : Nat := misses + hits * 2 ^ 12 + 255 * hits / (hits + misses) * 2 ^ 24

/-- pt_hit, or pt_miss (R85). -/
def State.ptCount (s : State) (base l e : Nat) (hit : Bool) : State :=
  let x := s.shRd (ptEntry base l e) 4
  let hits := fld x 12 12
  let misses := fld x 0 12
  s.shWr (ptEntry base l e) 4
    (if hit then ptConf (min 4095 (hits + 1)) misses else ptConf hits (min 4095 (misses + 1)))

/-- ptab.clr (R244). -/
def State.ptClear (s : State) (base l : Nat) : State :=
  let s := (List.range 8).foldl (fun s h =>
    s.shWr (ptHeld base l h) 1 (s.shRd (ptHeld base l h) 1 / 2 * 2)) s
  let h := s.shRd (ptHead base l) 8
  (s.shWr (ptHead base l) 8 (h - fld h 49 1 * 2 ^ 49)).shWr (ptHead base l + 8) 8 0

/-! ### Lists with a descriptor in the form of R48 -/

/-- A list descriptor: COUNT, CAP and BASE, none when a reserved field is set (R48). -/
def listDesc (v : Nat) : Option (Nat × Nat × Nat) :=
  if fld v 56 8 = 0 ∧ fld v 0 3 = 0 then some (fld v 96 32, fld v 64 32, fld v 0 56) else none

/-- Appends an 8-byte notice to a list in shared memory; a notice beyond CAP is counted only (R91). -/
def State.notice (s : State) (part desc entry : Nat) : Except Exc State :=
  if desc = 0 then .ok s
  else if !s.sharedOk part desc 16 then .error (access (w64 desc))
  else
    match s.bankErr desc 16 with
    | some e => .error e
    | none =>
      match listDesc (s.shRd desc 16) with
      | none => .error (format (w64 desc))
      | some (n, cap, base) =>
        let t := s.shWr (desc + 12) 4 (n + 1)
        if cap ≤ n then .ok t
        else if !s.sharedOk part (base + 8 * n) 8 then .error (access (w64 (base + 8 * n)))
        else .ok (t.shWr (base + 8 * n) 8 entry)

/-! ### Creels (R90-R93, R245-R248) -/

/-- A creel's key: its unit and index, as the low bits of a creel word give them (R245). -/
def creelKey (w : W64) : Nat := bf w 0 14
/-- The slice a creel belongs to (R245). -/
def creelSlice (k : Nat) : Nat := 8 * (k / 8 / 512) + k % 8
/-- A creel. -/
def State.creel (s : State) (k : Nat) : Creel := s.creels.getD k {}
/-- Replaces a creel. -/
def State.setCreel (s : State) (k : Nat) (c : Creel) : State := { s with creels := s.creels.set k c }

/-- Entry x = (token, score, weight) ranks above y (R91). -/
def ranksAbove (x y : W32 × W32 × W32) : Bool :=
  let a := ofBits x.2.1.toNat
  let b := ofBits y.2.1.toNat
  b.lt a || (!a.lt b && decide (x.1 < y.1))

/-- The lowest-ranked entry (R91). -/
def minEntry : List (W32 × W32 × W32) → Option (W32 × W32 × W32)
  | [] => none
  | x :: xs => match minEntry xs with
    | none => some x
    | some y => some (if ranksAbove x y then y else x)

/-- A notice's 64 bits (R91). -/
def noticeBits (token : W32) (expert code : Nat) : Nat := token.toNat + expert * 2 ^ 24 + code * 2 ^ 36

/-- An offer (R91, R246). -/
def State.offer (s : State) (part : Nat) (w b : W64) : Applied :=
  let k := creelKey w
  let c := s.creel k
  let e : W32 × W32 × W32 := (BitVec.ofNat 32 (bf w 32 24), BitVec.ofNat 32 (bf b 0 32), BitVec.ofNat 32 (bf b 32 32))
  if !c.set || !(c.expert == bf w 16 12) then .err s (format w)
  else if c.held.any fun x => x.1 == e.1 then { s := s, r := .ok 2 }
  else if c.held.length < c.cap then { s := s.setCreel k { c with held := e :: c.held }, r := .ok 0 }
  else
    match minEntry c.held with
    | none => { s := s, r := .ok 1 }
    | some m =>
      if ranksAbove e m then
        .with s (s.notice part c.notice.toNat (noticeBits m.1 c.expert 3)) fun t =>
          { s := t.setCreel k { c with held := e :: c.held.erase m }, r := .ok (w64 (3 + m.1.toNat * 2 ^ 12)) }
      else
        .with s (s.notice part c.notice.toNat (noticeBits e.1 c.expert 1)) fun t => { s := t, r := .ok 1 }

/-- Inserts an entry by ascending token. -/
def insertToken (e : W32 × W32 × W32) : List (W32 × W32 × W32) → List (W32 × W32 × W32)
  | [] => [e]
  | x :: xs => if e.1 ≤ x.1 then e :: x :: xs else x :: insertToken e xs

/-- A decision-list entry (R93). -/
def decisionBits (expert slot : Nat) (e : W32 × W32 × W32) : Nat :=
  e.1.toNat % 2 ^ 24 + expert * 2 ^ 24 + slot * 2 ^ 36 + e.2.2.toNat * 2 ^ 64

/-- A drain (R93, R247). -/
def State.drain (s : State) (part : Nat) (w b : W64) : Applied :=
  let k := creelKey w
  let c := s.creel k
  let es := c.held.foldr insertToken []
  let a := b.toNat
  if !c.set then .err s (format w)
  else if !(es.length == 0) && !s.sharedOk part a (16 * es.length) then .err s (access b)
  else
    let t := (es.zipIdx).foldl (fun s x => s.shWr (a + 16 * x.2) 16 (decisionBits c.expert x.2 x.1)) s
    { s := t.setCreel k { c with held := [] }, r := .ok (w64 es.length) }

/-- creel.rd (R245). -/
def State.creelWord (s : State) (w : W64) : Applied :=
  let c := s.creel (creelKey w)
  if !c.set then .err s (format w)
  else { s := s, r := .ok (w64 (c.bias.toNat + c.held.length * 2 ^ 32 + 2 ^ 45 + (c.cap - 1) * 2 ^ 48)) }

/-- creel.cfg: the bias is kept (R90, R245). -/
def State.creelConfig (s : State) (part : Nat) (w b : W64) : Applied :=
  let k := creelKey w
  let nd := bf b 12 52 * 16
  if !(nd == 0) && !s.sharedOk part nd 16 then .err s (access (w64 nd))
  else
    let c := s.creel k
    { s := s.setCreel k { set := true, expert := bf w 16 12, cap := bf b 0 12 + 1, bias := c.bias, notice := w64 nd } }

/-! ### Count sketches (R99-R107) -/

/-- A sketch as its descriptor gives it (R99). -/
structure Sketch where
  addr  : Nat
  d     : Nat
  k     : Nat
  es    : Int
  base  : Nat
  pairs : Nat
  deriving DecidableEq, Repr

/-- Bytes of a sketch's counters. -/
def Sketch.size (x : Sketch) : Nat := x.d * 2 ^ (x.k + 2)

/-- The descriptor's limits (R99). -/
def sketchOk (v : Nat) : Bool :=
  fld v 192 320 == 0 && fld v 47 17 == 0 && fld v 13 19 == 0 && fld v 3 5 == 0 && decide (10 ≤ fld v 8 5)
    && decide (fld v 8 5 ≤ 22) && [3, 5, 7].contains (fld v 0 3) && fld v 64 8 == 0 && fld v 128 7 == 0 && fld v 184 8 == 0

/-- The sketch of a descriptor for a partition, checked as every operation checks it (R99). -/
def State.sketch (s : State) (part addr : Nat) : Except Exc Sketch :=
  match s.bankErr addr 64 with
  | some e => .error e
  | none =>
    let v := s.shRd addr 64
    if !sketchOk v then .error (format (w64 addr))
    else
      let x : Sketch := { addr := addr, d := fld v 0 3, k := fld v 8 5, es := sextN 8 (fld v 32 8), base := fld v 64 64, pairs := fld v 128 64 }
      if !s.sharedOk part x.base x.size || !((x.base - 2 ^ 32) / 2 ^ 27 == (x.base + x.size - 1 - 2 ^ 32) / 2 ^ 27) then
        .error (access (w64 x.base))
      else if !s.sharedOk part x.pairs 128 then .error (access (w64 x.pairs))
      else .ok x

/-- a_j and c_j (R100). -/
def State.pair (s : State) (x : Sketch) (j : Nat) : Nat × Nat := (s.shRd (x.pairs + 16 * j) 8, s.shRd (x.pairs + 16 * j + 8) 8)

/-- Every a_j is odd, or FORMAT (R100). -/
def State.pairsOk (s : State) (x : Sketch) : Option Exc :=
  match s.bankErr x.pairs (16 * x.d) with
  | some e => some e
  | none => if (List.range x.d).all fun j => (s.pair x j).1 % 2 == 1 then none else some (format (w64 x.pairs))

/-- sk_hash (R102): the column, and whether the sign is minus. -/
def State.skHash (s : State) (x : Sketch) (j : Nat) (i : W64) : Nat × Bool :=
  let p := s.pair x j
  let h := (i.toNat ^^^ p.2) * p.1 % 2 ^ 64
  (h / 2 ^ (64 - x.k), fld h (63 - x.k) 1 == 1)

/-- The address of a counter (R99). -/
def Sketch.ctr (x : Sketch) (j col : Nat) : Nat := x.base + (j * 2 ^ x.k + col) * 4

/-- The largest counter value (R103). -/
def ctrMax : Int := 2 ^ 31 - 1

/-- A counter as it is read, and whether it held -2^31 (R103). -/
def State.ctrRead (s : State) (a : Nat) : Int × Bool :=
  let v := sextN 32 (s.shRd a 4)
  if v = -2 ^ 31 then (-ctrMax, true) else (v, false)

/-- sat_row: the clamped value, and whether it was clamped (R103). -/
def satRow (v : Int) : Int × Bool := (max (-ctrMax) (min ctrMax v), decide (v < -ctrMax) || decide (ctrMax < v))

/-- n bytes of a counter line that a sketch operation may use (R107, R116, R311). Where several conditions fail, the order
UNCORRECTABLE, FORMAT, POISON is the model's choice (log 97). -/
def State.ctrErr (s : State) (a n : Nat) : Option Exc :=
  if s.badIn (shKey a) n then some (s.lost (shKey a) n (w64 a))
  else if !(s.fmtOf (shKey a) == 0x30) then some (format (w64 a))
  else if s.poisoned (shKey a) then some (poisonExc (w64 a))
  else none

/-- Sets SAT bits of a sketch (R99, R103). -/
def State.setSat (s : State) (x : Sketch) (bits : Nat) : State :=
  if bits = 0 then s else s.shWr x.addr 8 (s.shRd x.addr 8 ||| bits * 2 ^ 40)

/-- Every row's bit. -/
def Sketch.allRows (x : Sketch) : Nat := 2 ^ x.d - 1

/-- The first error of the counters at one index. -/
def State.hashErr (s : State) (x : Sketch) (i : W64) : Option Exc :=
  ((List.range x.d).filterMap fun j => s.ctrErr (x.ctr j (s.skHash x j i).1) 4).head?

/-- The scaled, clamped value of an update and whether it sets every SAT bit (R104); none for a NaN. -/
def skScaled (es : Int) (v : W32) : Option (Int × Bool) :=
  match ofBits v.toNat with
  | .nan _ => none
  | .inf n => some (if n then -ctrMax else ctrMax, true)
  | .fin n m e =>
    let r := roundAt 0 n m (e + es) 0 false
    let x := satRow (if n then -(r.1 : Int) else r.1)
    some (x.1, x.2)

/-- sk.upd on a checked sketch (R104): a NaN touches no counter. -/
def State.skUpdate (s : State) (x : Sketch) (i : W64) (v : W32) : Applied :=
  match skScaled x.es v with
  | none => { s := s.setSat x x.allRows }
  | some (n, all) =>
    match s.hashErr x i with
    | some e => .err s e
    | none =>
      let step (s : State) (j : Nat) : State :=
        let h := s.skHash x j i
        let c := s.ctrRead (x.ctr j h.1)
        let r := satRow (c.1 + (if h.2 then -n else n))
        (s.shWr (x.ctr j h.1) 4 (r.1 % 2 ^ 32).toNat).setSat x (if c.2 || r.2 then 2 ^ j else 0)
      { s := ((List.range x.d).foldl step s).setSat x (if all then x.allRows else 0) }

/-- Inserts an integer in ascending order. -/
def insertInt (v : Int) : List Int → List Int
  | [] => [v]
  | x :: xs => if v ≤ x then v :: x :: xs else x :: insertInt v xs

/-- sk.qry on a checked sketch (R105). -/
def State.skEstimate (s : State) (x : Sketch) (i : W64) : Except Exc W32 :=
  match s.hashErr x i with
  | some e => .error e
  | none =>
    let est (j : Nat) : Int :=
      let h := s.skHash x j i
      let c := (s.ctrRead (x.ctr j h.1)).1
      if h.2 then -c else c
    let es := ((List.range x.d).map est).foldr insertInt []
    .ok (rneScaled rneF32 (es[x.d / 2]?.getD 0) (-x.es))

/-- mix64 (R101). -/
def mix64 (x : W64) : W64 :=
  let z := x + 0x9E3779B97F4A7C15
  let z := (z ^^^ (z >>> 30)) * 0xBF58476D1CE4E5B9
  let z := (z ^^^ (z >>> 27)) * 0x94D049BB133111EB
  z ^^^ (z >>> 31)

/-- sk.seed (R101). -/
def State.skSeed (s : State) (x : Sketch) (seed : W64) : State :=
  (List.range x.d).foldl (fun s j =>
    (s.shWr (x.pairs + 16 * j) 8 (mix64 (seed + w64 (2 * j + 1)) ||| 1).toNat).shWr
      (x.pairs + 16 * j + 8) 8 (mix64 (seed + w64 (2 * j + 2))).toNat) s

/-- sk.clr (R107). -/
def State.skClear (s : State) (x : Sketch) : State :=
  let k := shKey x.base
  let s := { s with mem := Mem.clearRange s.mem k (k + x.size) }
  let s := (List.range (x.size / 256)).foldl (fun s i => (s.setSide (k + 256 * i) 0x30).mend (k + 256 * i)) s
  let v := s.shRd x.addr 8
  s.shWr x.addr 8 (v - fld v 40 7 * 2 ^ 40)

/-- The addresses of a sketch's lines. -/
def Sketch.lines (x : Sketch) : List Nat := (List.range (x.size / 256)).map fun i => x.base + 256 * i

/-- sk.add (R106). A counter of 0x8000_0000 in either sketch sets the SAT bit of the destination's descriptor, and a counter
line that cannot be used, of either, leaves the destination as it was: the model's choices (log 96). -/
def State.skAddTo (s : State) (src dst : Sketch) : Applied :=
  let same := src.d == dst.d && src.k == dst.k && src.es == dst.es
    && (List.range src.d).all fun j => s.pair src j == s.pair dst j
  let overlap := !(src.base == dst.base) && meet src.base src.size dst.base dst.size
  if !same || overlap then .err s (.fault 0x0E (w64 dst.addr) 0)
  else
    match (src.lines ++ dst.lines).filterMap (s.ctrErr · 256) with
    | e :: _ => .err s e
    | [] =>
      let step (s : State) (n : Nat) : State :=
        let a := s.ctrRead (src.base + 4 * n)
        let b := s.ctrRead (dst.base + 4 * n)
        let r := satRow (a.1 + b.1)
        (s.shWr (dst.base + 4 * n) 4 (r.1 % 2 ^ 32).toNat).setSat dst
          (if a.2 || b.2 || r.2 then 2 ^ (n / 2 ^ dst.k) else 0)
      let t := (List.range (dst.d * 2 ^ dst.k)).foldl step s
      { s := t.setSat dst (fld (s.shRd src.addr 8) 40 7) }

/-! ### Order cells (R108-R114) -/

/-- A history entry (R108). -/
structure Hist where
  op   : Nat
  step : Nat
  src  : Nat
  x    : W32
  deriving DecidableEq, Repr

/-- A history entry's 64 bits. -/
def Hist.bits (h : Hist) : Nat := h.x.toNat + h.src * 2 ^ 32 + h.step * 2 ^ 44 + h.op * 2 ^ 60
/-- A history entry from its 64 bits. -/
def histOf (v : Nat) : Hist := { op := fld v 60 4, step := fld v 44 16, src := fld v 32 12, x := BitVec.ofNat 32 (fld v 0 32) }

/-- A cell as it is read (R108). -/
structure Cell where
  region : Nat
  cflx   : Nat
  poison : Bool
  ovf    : Bool
  i32    : Bool
  base   : W32
  hist   : List Hist
  deriving DecidableEq, Repr

/-- The 128 bytes of a cell. -/
def Cell.bits (c : Cell) : Nat :=
  let head := c.base.toNat + c.hist.length * 2 ^ 32 + c.i32.toNat * 2 ^ 36 + c.ovf.toNat * 2 ^ 37 + c.poison.toNat * 2 ^ 38
    + c.cflx * 2 ^ 64 + c.region * 2 ^ 112
  head + (c.hist.zipIdx.map fun e => e.1.bits * 2 ^ (128 + 64 * e.2)).sum

/-- A cell from its 128 bytes, with COUNT entries. -/
def cellOf (v : Nat) : Cell :=
  { region := fld v 112 16, cflx := fld v 64 48, poison := fld v 38 1 == 1, ovf := fld v 37 1 == 1, i32 := fld v 36 1 == 1
    base := BitVec.ofNat 32 (fld v 0 32), hist := (List.range (fld v 32 4)).map fun h => histOf (fld v (128 + 64 * h) 64) }

/-- A region as it is read (R109). -/
structure Region where
  addr   : Nat
  id     : Nat
  floorx : Nat
  srcs   : List (Nat × Nat)
  deriving DecidableEq, Repr

/-- Whether a list of numbers holds one twice. -/
def hasTwice : List Nat → Bool
  | [] => false
  | x :: xs => xs.contains x || hasTwice xs

/-- The region of a descriptor (R109). Entries from NSRC on are not looked at, their reserved bits included: the model's
choice (log 97). -/
def State.region (s : State) (addr : Nat) : Except Exc Region :=
  match s.bankErr addr 16 with
  | some e => .error e
  | none =>
    let v := s.shRd addr 16
    let n := fld v 96 7
    let e2 := (s.bankErr addr (16 + 4 * min n 60)).orElse fun _ => if 60 < n then s.bankErr (addr + 256) (4 * (n - 60)) else none
    if !(fld v 103 25 == 0) || !(fld v 16 32 == 0) || decide (64 < n) then .error (format (w64 addr))
    else if e2.isSome then .error (e2.getD (format (w64 addr)))
    else
      let es := (List.range n).map fun j => s.shRd (addr + 16 + 4 * j) 4
      if es.any (fun e => !(fld e 12 4 == 0)) || hasTwice (es.map fun e => fld e 0 12) then .error (format (w64 addr))
      else .ok { addr := addr, id := fld v 0 16, floorx := fld v 48 48, srcs := es.map fun e => (fld e 0 12, fld e 16 16) }

/-- FLOOR (R109). -/
def Region.floor (r : Region) : Nat := r.floorx % 2 ^ 16
/-- rel(x) (R110). -/
def Region.rel (r : Region) (x : Nat) : Nat := (x + 2 ^ 16 - r.floor) % 2 ^ 16
/-- The watermark (R110). -/
def Region.wm (r : Region) : Nat :=
  match r.srcs.map (fun e => e.2) with
  | [] => (r.floor + 2 ^ 15) % 2 ^ 16
  | x :: xs => xs.foldl (fun m y => if r.rel y < r.rel m then y else m) x
/-- SETTLED of a registered source. -/
def Region.settled (r : Region) (src : Nat) : Option Nat := (r.srcs.find? fun e => e.1 == src).map (·.2)

/-- An operation suits a cell's type (R108). -/
def opSuits (i32 : Bool) (op : Nat) : Bool := if i32 then op == 0 || op == 4 else decide (op ≤ 3)

/-- mul_f32 (R94). -/
def mulF32 (x y : W32) : W32 := BitVec.ofNat 32 (fpMul rneF32 (ofBits x.toNat) (ofBits y.toNat)).bits
/-- The FMAX of R111: as the maximum of R196, with the canonical NaN. -/
def maxF32 (x y : W32) : W32 := BitVec.ofNat 32 (fpMax rneF32 (ofBits x.toNat) (ofBits y.toNat)).bits

/-- apply (R111). -/
def histApply (v : W32) (h : Hist) : W32 :=
  match h.op with
  | 0 => h.x
  | 1 => addF32 v h.x
  | 2 => mulF32 v h.x
  | 3 => maxF32 v h.x
  | _ => v + h.x

/-- The value over all entries, or over those a test takes (R111), in the order in which they stand: a history that stores have
left out of stamp order raises nothing, the model's choice (log 97). -/
def Cell.value (c : Cell) (f : Hist → Bool) : W32 := (c.hist.filter f).foldl histApply c.base

/-- lazy_fold (R112). -/
def Cell.fold (c : Cell) (r : Region) : Cell :=
  let gap := (r.floorx + 2 ^ 48 - c.cflx) % 2 ^ 48
  let old (h : Hist) : Bool := decide (2 ^ 15 ≤ gap) || decide ((h.step + 2 ^ 16 - c.cflx % 2 ^ 16) % 2 ^ 16 ≤ gap)
  { c with base := c.value old, hist := c.hist.filter (fun h => !old h), cflx := r.floorx }

/-- The checks of a cell line that every cell operation makes, `oc.init` included (R108, R114). -/
def State.cellLine (s : State) (a : Nat) : Option Exc :=
  if !(s.fmtOf (shKey a) == 0x31) then some (format (w64 a)) else none

/-- The pending errors of the 128 bytes of a cell are gone (log 25). -/
def State.mendCell (s : State) (k : Nat) : State := { s with bad := s.bad.filter fun w => !(w / 16 == k / 128) }

/-- Reads a cell, checks it and folds it up to the region's floor; the fold is written (R108, R112). An uncorrectable
error in the cell sets its POISON, in place of the pending error (log 25). Where several conditions fail, the order FMT,
UNCORRECTABLE, POISON, the cell's own fields is the model's choice (log 97). -/
def State.openCell (s : State) (a : Nat) (r : Region) : State × Except Exc Cell :=
  match s.cellLine a with
  | some e => (s, .error e)
  | none =>
    let v := s.shRd a 128
    if s.badIn (shKey a) 128 then
      ((s.mendCell (shKey a)).shWr a 16 (fld v 0 128 ||| 2 ^ 38), .error (s.lost (shKey a) 128 (w64 a)))
    else if fld v 38 1 = 1 then (s, .error (poisonExc (w64 a)))
    else
      let c := cellOf v
      if !(fld v 39 25 == 0) || fld v 32 4 == 15 || !(c.region == r.id) || !(c.hist.all fun h => opSuits c.i32 h.op)
          || decide (2 ^ 47 < (r.floorx + 2 ^ 48 - c.cflx) % 2 ^ 48) then (s, .error (format (w64 a)))
      else
        let c := c.fold r
        (s.shWr a 128 c.bits, .ok c)

/-- Inserts an entry at its place in stamp order (R110). -/
def histInsert (r : Region) (h : Hist) : List Hist → List Hist
  | [] => [h]
  | x :: xs =>
    if r.rel h.step < r.rel x.step ∨ (r.rel h.step = r.rel x.step ∧ h.src < x.src) then h :: x :: xs
    else x :: histInsert r h xs

/-- oc_insert (R113). -/
def State.cellInsert (s : State) (a : Nat) (r : Region) (h : Hist) : Applied :=
  match s.openCell a r with
  | (t, .error e) => .err t e
  | (t, .ok c) =>
    if !opSuits c.i32 h.op then .err t (format (w64 a))
    else if r.rel h.step = 0 ∨ 2 ^ 15 < r.rel h.step then .err t (.fault 0x10 (w64 a) 0)
    else if (match r.settled h.src with | some x => decide (r.rel h.step ≤ r.rel x) | none => false) then
      .err t (.fault 0x10 (w64 a) 0)
    else if c.hist.any fun x => x.step == h.step && x.src == h.src then .err t (.fault 0x11 (w64 a) 0)
    else if c.hist.length = 14 then
      .err (t.shWr a 128 { c with ovf := true }.bits) (.fault 0x0F (w64 a) 0)
    else { s := t.shWr a 128 { c with hist := histInsert r h c.hist }.bits }

/-- A load's result word (R114). -/
def cellWord (c : Cell) (v : W32) : W64 :=
  w64 (v.toNat + c.hist.length * 2 ^ 32 + c.i32.toNat * 2 ^ 36 + c.ovf.toNat * 2 ^ 37)

/-- oc.init (R114). -/
def State.cellInit (s : State) (a : Nat) (r : Region) (i32 : Bool) (base : W32) : Applied :=
  match s.cellLine a with
  | some e => .err s e
  | none =>
    let c : Cell := { region := r.id, cflx := r.floorx, poison := false, ovf := false, i32 := i32, base := base, hist := [] }
    { s := s.shWr a 128 c.bits }

/-- oc.ldt (R114). -/
def State.cellLoad (s : State) (a : Nat) (r : Region) : Applied :=
  match s.openCell a r with
  | (t, .error e) => .err t e
  | (t, .ok c) => { s := t, r := .ok (cellWord c (c.value fun _ => true)) }

/-- oc.lds whose wait is over (R114). -/
def State.cellSettled (s : State) (a : Nat) (r : Region) (step : Nat) : Applied :=
  match s.openCell a r with
  | (t, .error e) => .err t e
  | (t, .ok c) => { s := t, r := .ok (cellWord c (c.value fun h => decide (r.rel h.step ≤ r.rel step))) }

/-- The index of a registered source. -/
def Region.index (r : Region) (src : Nat) : Option Nat :=
  (r.srcs.zipIdx.find? fun e => e.1.1 == src).map (·.2)

/-- oc.settle (R114). -/
def State.regionSettle (s : State) (r : Region) (src step : Nat) : Applied :=
  match r.index src, r.settled src with
  | some j, some old =>
    if r.rel step = 0 ∨ 2 ^ 15 < r.rel step then .err s (.fault 0x10 (w64 r.addr) 0)
    else if r.rel step ≤ r.rel old then { s := s }
    else { s := s.shWr (r.addr + 16 + 4 * j + 2) 2 step }
  | _, _ => .err s (format (w64 r.addr))

/-- oc.fold (R114). -/
def State.regionFold (s : State) (r : Region) (f : Nat) : Applied :=
  if 2 ^ 15 < r.rel f then .err s (.fault 0x10 (w64 r.addr) 0)
  else
    let f' := if r.rel f ≤ r.rel r.wm then f else r.wm
    { s := s.shWr (r.addr + 6) 6 ((r.floorx + r.rel f') % 2 ^ 48), r := .ok (w64 f') }

end Sys2Proof.Machine
end

