-- ==== Sys2Proof/Machine/Near.lean ====
section
/-! DEFINITION. The groups PTAB, CREEL and NMA (R244-R251): issue checks, posting and returning forms. -/

namespace Sys2Proof.Machine

/-- A posted operation that releases everything program-before it (R115, R257). -/
def NearOp.releases : NearOp → Bool
  | .ocSettle => true
  | .tcAdd _ => true
  | .tcSet _ => true
  | .wsCom => true
  | _ => false

/-- A list form: the bank units act for it as for a command, and `sig` is its completion signal (R251, R253, R257). -/
def NearOp.isList : NearOp → Bool
  | .list _ _ _ _ => true
  | .skUpdl _ _ _ _ => true
  | .skQryl _ _ _ _ => true
  | _ => false

/-- The agent of a list form that the executing sequencer issues: none of another operation, which is the sequencer's own
(R80), and none of a hearth core, which has no semaphores. -/
def State.listAgent (s : State) (op : NearOp) : Option Agent :=
  match s.cur with
  | .core g _ => if op.isList then some (.list g (s.hazard.count s.agent)) else none
  | .hearth _ => none

/-- The release that issuing an operation is, or for a list form what its signal will be, while the hazard checker keeps
links. -/
def State.opSrc (s : State) (op : NearOp) : Option Src :=
  if s.strictRuns then
    match s.listAgent op with
    | some a => some (s.srcOf a 1)
    | none => if op.releases then some (s.srcOf s.agent 3) else none
  else none

/-- The executing sequencer has had an event, while the hazard checker keeps links. -/
def State.countMe (s : State) : State :=
  if s.strictRuns then { s with hazard := s.hazard.next s.agent } else s

/-- An operation is issued: as a command, of a list form (R257). -/
def State.issueOp (s : State) (op : NearOp) : State :=
  match s.listAgent op with
  | some a => s.issueTo s.agent a 1
  | none => s.countMe

/-- A near-memory operation of the executing sequencer with a result, on some locations: a read and a write (R79). -/
def State.nearAccess (s : State) (xs : List (Nat × Nat)) : State :=
  xs.foldl (fun s x => (s.wakeKey x.1).logAccess s.agent x.1 x.2 true true (s.fences s.agent)) s
/-- What such an operation reads besides. -/
def State.nearRead (s : State) (key n : Nat) : State :=
  (s.wakeKey key).logAccess s.agent key n true false (s.fences s.agent)

/-- Hands an operation to its unit (R237): K issues its next instruction at once. -/
def State.postOp (s : State) (op : NearOp) (d a b : W64) : State :=
  let p : Posted := { pc := s.curAddr, op := op, d := d, a := a, b := b, part := s.partFor s.cur
                      src := s.opSrc op, rel := s.fences s.agent }
  let s := s.issueOp op
  match s.cur with
  | .core g _ => s.setCore g { s.core g with posted := (s.core g).posted ++ [p] }
  | .hearth h => s.setHearth h { s.hearth h with posted := (s.hearth h).posted ++ [p] }

/-- A posted form that passed its checks. -/
def posted (chk : Option Exc) (op : NearOp) (d a b : W64) (s : State) : Eff :=
  match chk with
  | some e => .trap e
  | none => .done (s.postOp op d a b)

/-- A returning form that passed its checks: after everything its sequencer posted before, the unit answers, and a
fault it finds is precise (R237, R25). -/
def returning (chk : Option Exc) (x : State → Applied) (d : SReg) (s : State) : Eff :=
  match chk with
  | some e => .trap e
  | none =>
    if !s.postedBy.isEmpty then .stall
    else
      let r := x s
      match r.r with
      | .ok v => .done (r.s.putS .salu d v)
      | .error e => .fail r.s e

/-- The slices of the partition the sequencer acts for hold a range (R237). -/
def State.mySlices (s : State) (a len : Nat) : Bool := s.sharedOk (s.partFor s.cur) a len

/-- The checks of an aligned address in a partition's shared memory. -/
def State.sharedChkIn (s : State) (part : Nat) (a : W64) (al len : Nat) : Option Exc :=
  if !(a.toNat % al == 0) then some (align a) else if !s.sharedOk part a.toNat len then some (access a) else none
/-- The same for the partition the sequencer acts for. -/
def State.sharedChk (s : State) (a : W64) (al len : Nat) : Option Exc := s.sharedChkIn (s.partFor s.cur) a al len

/-- The first failing check. -/
def orElse (a b : Option Exc) : Option Exc := if a.isSome then a else b
/-- A limit whose breach raises FORMAT. -/
def limit (ok : Bool) : Option Exc := if ok then none else some (format 0)

/-- Goes on where a check passes. -/
def guardChk (c : Option Exc) (x : Eff) : Eff :=
  match c with
  | some e => .trap e
  | none => x

/-! ### PTAB (R244) -/

/-- The checks of a PT base and a selector at issue. -/
def State.ptChkIn (s : State) (part : Nat) (a b : W64) (head : Bool) : Option Exc :=
  orElse (s.sharedChkIn part a 256 ptSize)
    (limit (bf b 22 42 == 0 && bf b 12 4 == 0 && (!head || bf b 0 12 == 0)))
/-- The same for the partition the sequencer acts for. -/
def State.ptChk (s : State) (a b : W64) (head : Bool) : Option Exc := s.ptChkIn (s.partFor s.cur) a b head

/-- LAYER of a selector. -/
def selLayer (b : W64) : Nat := bf b 16 6
/-- EXPERT of a selector. -/
def selExpert (b : W64) : Nat := bf b 0 12

/-- Reads n bytes of a predictor table. -/
def ptRead (a n : Nat) (s : State) : Applied :=
  match s.bankErr a n with
  | some e => .err s e
  | none => { s := s.nearAccess [(shKey a, n)], r := .ok (w64 (s.shRd a n)) }

/-- ptab.rd. -/
def xPtabRd (d a b : SReg) (s : State) : Eff :=
  returning (s.ptChk (s.rs a) (s.rs b) false) (ptRead (ptEntry (s.rs a).toNat (selLayer (s.rs b)) (selExpert (s.rs b))) 4) d s
/-- ptab.wr. -/
def xPtabWr (d a b : SReg) (s : State) : Eff :=
  posted (orElse (s.ptChk (s.rs a) (s.rs b) false) (limit (bf (s.rs d) 32 32 == 0))) .ptWr (s.rs d) (s.rs a) (s.rs b) s
/-- ptab.hrd. -/
def xPtabHrd (d a b : SReg) (s : State) : Eff :=
  returning (s.ptChk (s.rs a) (s.rs b) true) (ptRead (ptHead (s.rs a).toNat (selLayer (s.rs b))) 8) d s
/-- ptab.hwr. -/
def xPtabHwr (d a b : SReg) (s : State) : Eff :=
  posted (orElse (s.ptChk (s.rs a) (s.rs b) true) (limit (ptHeadOk (s.rs d).toNat))) .ptHwr (s.rs d) (s.rs a) (s.rs b) s
/-- ptab.crd. -/
def xPtabCrd (d a b : SReg) (s : State) : Eff :=
  returning (s.ptChk (s.rs a) (s.rs b) true) (ptRead (ptHead (s.rs a).toNat (selLayer (s.rs b)) + 8) 8) d s
/-- ptab.clr. -/
def xPtabClr (a b : SReg) (s : State) : Eff :=
  posted (s.ptChk (s.rs a) (s.rs b) true) .ptClr 0 (s.rs a) (s.rs b) s

/-! ### CREEL (R245-R247) -/

/-- The checks of a creel word at issue; TOKEN and EXPERT may be non-zero only where the form uses them. -/
def State.creelChkIn (s : State) (part : Nat) (w : W64) (token expert : Bool) : Option Exc :=
  orElse (limit (bf w 56 8 == 0 && bf w 28 4 == 0 && bf w 14 2 == 0 && (token || bf w 32 24 == 0) && (expert || bf w 16 12 == 0)))
    (if (s.part part).pslc.getLsbD (creelSlice (creelKey w)) then none else some (access w))
/-- The same for the partition the sequencer acts for. -/
def State.creelChk (s : State) (w : W64) (token expert : Bool) : Option Exc :=
  s.creelChkIn (s.partFor s.cur) w token expert

/-- A binary32 that is neither NaN nor infinite. -/
def isFinite (x : Nat) : Bool := !(fld x 23 8 == 255)
/-- A NaN. -/
def isNan (x : Nat) : Bool := (ofBits x).isNan

/-- creel.cfg. -/
def xCreelCfg (a b : SReg) (s : State) : Eff := posted (s.creelChk (s.rs a) false true) .creelCfg 0 (s.rs a) (s.rs b) s
/-- creel.bias. -/
def xCreelBias (a b : SReg) (s : State) : Eff :=
  posted (orElse (s.creelChk (s.rs a) false false) (limit (bf (s.rs b) 32 32 == 0 && isFinite (bf (s.rs b) 0 32))))
    .creelBias 0 (s.rs a) (s.rs b) s
/-- The locations of a notice that an offer of the creel appends (R91): COUNT, and the entry while there is room. -/
def State.noticePlaces (s : State) (w : W64) : List (Nat × Nat) :=
  let d := (s.creel (creelKey w)).notice.toNat
  if d = 0 then []
  else
    match listDesc (s.shRd d 16) with
    | some (n, cap, base) => (shKey d, 16) :: (if n < cap then [(shKey (base + 8 * n), 8)] else [])
    | none => []

/-- An operation's locations are accessed once it has succeeded, if a test of its result holds. -/
def Applied.on (x : Applied) (xs : List (Nat × Nat)) (f : W64 → Bool) : Applied :=
  match x.r with
  | .ok v => if f v then { x with s := x.s.nearAccess xs } else x
  | .error _ => x

/-- creel.offer. -/
def xCreelOffer (d a b : SReg) (s : State) : Eff :=
  returning (orElse (s.creelChk (s.rs a) true true) (limit (!isNan (bf (s.rs b) 0 32) && !isNan (bf (s.rs b) 32 32))))
    (fun t => (t.offer (t.partFor t.cur) (s.rs a) (s.rs b)).on (t.noticePlaces (s.rs a)) fun v => v.getLsbD 0) d s
/-- creel.drain. -/
def xCreelDrain (d a b : SReg) (s : State) : Eff :=
  returning (orElse (s.creelChk (s.rs a) false false) (if (s.rs b).toNat % 16 = 0 then none else some (align (s.rs b))))
    (fun t => (t.drain (t.partFor t.cur) (s.rs a) (s.rs b)).on
      [(shKey (s.rs b).toNat, 16 * (t.creel (creelKey (s.rs a))).held.length)] fun v => !(v == 0)) d s
/-- creel.rd. -/
def xCreelRd (d a : SReg) (s : State) : Eff :=
  returning (s.creelChk (s.rs a) false false) (fun t => t.creelWord (s.rs a)) d s

/-! ### NMA (R249-R251) -/

/-- A single-location form: posted when D is 0, else returning the old value (R249). -/
def nmaForm (op ty : Nat) (u : Bool) (d a b : SReg) (s : State) : Eff :=
  let n := if ty = 1 then 8 else 4
  let chk := s.sharedChk (s.rs a) n n
  if d = 0 then posted chk (.nma op ty u) (s.rs d) (s.rs a) (s.rs b) s
  else returning chk (fun t =>
    (t.nearAccess [(shKey (s.rs a).toNat, n)]).nmaApply op ty u (s.rs a).toNat (s.rs b).toNat (s.rs d).toNat) d s

/-- nma.add.i32. -/
def xNmaAddI32 (d a b : SReg) (s : State) : Eff := nmaForm 0 0 false d a b s
/-- nma.min.i32. -/
def xNmaMinI32 (d a b : SReg) (u : Bool) (s : State) : Eff := nmaForm 1 0 u d a b s
/-- nma.max.i32. -/
def xNmaMaxI32 (d a b : SReg) (u : Bool) (s : State) : Eff := nmaForm 2 0 u d a b s
/-- nma.and.i32. -/
def xNmaAndI32 (d a b : SReg) (s : State) : Eff := nmaForm 3 0 false d a b s
/-- nma.or.i32. -/
def xNmaOrI32 (d a b : SReg) (s : State) : Eff := nmaForm 4 0 false d a b s
/-- nma.xor.i32. -/
def xNmaXorI32 (d a b : SReg) (s : State) : Eff := nmaForm 5 0 false d a b s
/-- nma.swap.i32. -/
def xNmaSwapI32 (d a b : SReg) (s : State) : Eff := nmaForm 6 0 false d a b s
/-- nma.cas.i32. -/
def xNmaCasI32 (d a b : SReg) (s : State) : Eff := nmaForm 7 0 false d a b s
/-- nma.add.i64. -/
def xNmaAddI64 (d a b : SReg) (s : State) : Eff := nmaForm 0 1 false d a b s
/-- nma.min.i64. -/
def xNmaMinI64 (d a b : SReg) (u : Bool) (s : State) : Eff := nmaForm 1 1 u d a b s
/-- nma.max.i64. -/
def xNmaMaxI64 (d a b : SReg) (u : Bool) (s : State) : Eff := nmaForm 2 1 u d a b s
/-- nma.and.i64. -/
def xNmaAndI64 (d a b : SReg) (s : State) : Eff := nmaForm 3 1 false d a b s
/-- nma.or.i64. -/
def xNmaOrI64 (d a b : SReg) (s : State) : Eff := nmaForm 4 1 false d a b s
/-- nma.xor.i64. -/
def xNmaXorI64 (d a b : SReg) (s : State) : Eff := nmaForm 5 1 false d a b s
/-- nma.swap.i64. -/
def xNmaSwapI64 (d a b : SReg) (s : State) : Eff := nmaForm 6 1 false d a b s
/-- nma.cas.i64. -/
def xNmaCasI64 (d a b : SReg) (s : State) : Eff := nmaForm 7 1 false d a b s
/-- nma.add.f32. -/
def xNmaAddF32 (d a b : SReg) (s : State) : Eff := nmaForm 0 2 false d a b s
/-- nma.min.f32. -/
def xNmaMinF32 (d a b : SReg) (s : State) : Eff := nmaForm 1 2 false d a b s
/-- nma.max.f32. -/
def xNmaMaxF32 (d a b : SReg) (s : State) : Eff := nmaForm 2 2 false d a b s
/-- nma.swap.f32. -/
def xNmaSwapF32 (d a b : SReg) (s : State) : Eff := nmaForm 6 2 false d a b s
/-- nma.cas.f32. -/
def xNmaCasF32 (d a b : SReg) (s : State) : Eff := nmaForm 7 2 false d a b s

/-- The 32-bit words of a number of n words. -/
def words32 : Nat → Nat → List W32
  | 0, _ => []
  | n + 1, v => BitVec.ofNat 32 v :: words32 n (v / 2 ^ 32)

/-- The semaphore of `sig`, if it is named. -/
def sigSem (g : Bool) (n : Nat) : Option Reg16 := if g then some (idx 16 n) else none

/-- A list form (R251): K reads the whole source at issue. -/
def nmaList (op ty : Nat) (d a b : SReg) (g : Bool) (s : State) : Eff :=
  let n := bf (s.rs b) 0 16
  let chk := orElse (if (s.rs a).toNat % 4 = 0 then none else some (align (s.rs a)))
    (orElse (s.sharedChk (s.rs d) 4 (4 * n)) (limit (!(n == 0) && bf (s.rs b) 20 44 == 0)))
  match chk with
  | some e => .trap e
  | none => .need (s.readOwn (s.rs a) (4 * n)) fun (v, t) =>
      .done (t.postOp (.list op ty (words32 n v) (sigSem g (bf (s.rs b) 16 4))) (s.rs d) (s.rs a) (s.rs b))

/-- nma.ladd.f32. -/
def xNmaLaddF32 (d a b : SReg) (g : Bool) (s : State) : Eff := nmaList 0 2 d a b g s
/-- nma.ladd.i32. -/
def xNmaLaddI32 (d a b : SReg) (g : Bool) (s : State) : Eff := nmaList 0 0 d a b g s
/-- nma.lmax.f32. -/
def xNmaLmaxF32 (d a b : SReg) (g : Bool) (s : State) : Eff := nmaList 2 2 d a b g s

/-! ### The meanings -/
/-- PTAB_RD (R244), as one instruction. -/
def execPtabRd (d : Fin 32) (a : Fin 32) (b : Fin 32) (s : State) : Host.Outcome State Fault Refusal :=
  runWord (.ptabRd d a b) (xPtabRd d a b) s
/-- PTAB_WR (R244), as one instruction. -/
def execPtabWr (d : Fin 32) (a : Fin 32) (b : Fin 32) (s : State) : Host.Outcome State Fault Refusal :=
  runWord (.ptabWr d a b) (xPtabWr d a b) s
/-- PTAB_HRD (R244), as one instruction. -/
def execPtabHrd (d : Fin 32) (a : Fin 32) (b : Fin 32) (s : State) : Host.Outcome State Fault Refusal :=
  runWord (.ptabHrd d a b) (xPtabHrd d a b) s
/-- PTAB_HWR (R244), as one instruction. -/
def execPtabHwr (d : Fin 32) (a : Fin 32) (b : Fin 32) (s : State) : Host.Outcome State Fault Refusal :=
  runWord (.ptabHwr d a b) (xPtabHwr d a b) s
/-- PTAB_CRD (R244), as one instruction. -/
def execPtabCrd (d : Fin 32) (a : Fin 32) (b : Fin 32) (s : State) : Host.Outcome State Fault Refusal :=
  runWord (.ptabCrd d a b) (xPtabCrd d a b) s
/-- PTAB_CLR (R244), as one instruction. -/
def execPtabClr (a : Fin 32) (b : Fin 32) (s : State) : Host.Outcome State Fault Refusal :=
  runWord (.ptabClr a b) (xPtabClr a b) s
/-- CREEL_CFG (R90), as one instruction. -/
def execCreelCfg (a : Fin 32) (b : Fin 32) (s : State) : Host.Outcome State Fault Refusal :=
  runWord (.creelCfg a b) (xCreelCfg a b) s
/-- CREEL_BIAS (R245), as one instruction. -/
def execCreelBias (a : Fin 32) (b : Fin 32) (s : State) : Host.Outcome State Fault Refusal :=
  runWord (.creelBias a b) (xCreelBias a b) s
/-- CREEL_OFFER (R91), as one instruction. -/
def execCreelOffer (d : Fin 32) (a : Fin 32) (b : Fin 32) (s : State) : Host.Outcome State Fault Refusal :=
  runWord (.creelOffer d a b) (xCreelOffer d a b) s
/-- CREEL_DRAIN (R93), as one instruction. -/
def execCreelDrain (d : Fin 32) (a : Fin 32) (b : Fin 32) (s : State) : Host.Outcome State Fault Refusal :=
  runWord (.creelDrain d a b) (xCreelDrain d a b) s
/-- CREEL_RD (R245), as one instruction. -/
def execCreelRd (d : Fin 32) (a : Fin 32) (s : State) : Host.Outcome State Fault Refusal :=
  runWord (.creelRd d a) (xCreelRd d a) s
/-- NMA_ADD_I32 (R250), as one instruction. -/
def execNmaAddI32 (d : Fin 32) (a : Fin 32) (b : Fin 32) (s : State) : Host.Outcome State Fault Refusal :=
  runWord (.nmaAddI32 d a b) (xNmaAddI32 d a b) s
/-- NMA_MIN_I32 (R250), as one instruction. -/
def execNmaMinI32 (d : Fin 32) (a : Fin 32) (b : Fin 32) (u : Bool) (s : State) : Host.Outcome State Fault Refusal :=
  runWord (.nmaMinI32 d a b u) (xNmaMinI32 d a b u) s
/-- NMA_MAX_I32 (R250), as one instruction. -/
def execNmaMaxI32 (d : Fin 32) (a : Fin 32) (b : Fin 32) (u : Bool) (s : State) : Host.Outcome State Fault Refusal :=
  runWord (.nmaMaxI32 d a b u) (xNmaMaxI32 d a b u) s
/-- NMA_AND_I32 (R250), as one instruction. -/
def execNmaAndI32 (d : Fin 32) (a : Fin 32) (b : Fin 32) (s : State) : Host.Outcome State Fault Refusal :=
  runWord (.nmaAndI32 d a b) (xNmaAndI32 d a b) s
/-- NMA_OR_I32 (R250), as one instruction. -/
def execNmaOrI32 (d : Fin 32) (a : Fin 32) (b : Fin 32) (s : State) : Host.Outcome State Fault Refusal :=
  runWord (.nmaOrI32 d a b) (xNmaOrI32 d a b) s
/-- NMA_XOR_I32 (R250), as one instruction. -/
def execNmaXorI32 (d : Fin 32) (a : Fin 32) (b : Fin 32) (s : State) : Host.Outcome State Fault Refusal :=
  runWord (.nmaXorI32 d a b) (xNmaXorI32 d a b) s
/-- NMA_SWAP_I32 (R250), as one instruction. -/
def execNmaSwapI32 (d : Fin 32) (a : Fin 32) (b : Fin 32) (s : State) : Host.Outcome State Fault Refusal :=
  runWord (.nmaSwapI32 d a b) (xNmaSwapI32 d a b) s
/-- NMA_CAS_I32 (R250), as one instruction. -/
def execNmaCasI32 (d : Fin 32) (a : Fin 32) (b : Fin 32) (s : State) : Host.Outcome State Fault Refusal :=
  runWord (.nmaCasI32 d a b) (xNmaCasI32 d a b) s
/-- NMA_ADD_I64 (R250), as one instruction. -/
def execNmaAddI64 (d : Fin 32) (a : Fin 32) (b : Fin 32) (s : State) : Host.Outcome State Fault Refusal :=
  runWord (.nmaAddI64 d a b) (xNmaAddI64 d a b) s
/-- NMA_MIN_I64 (R250), as one instruction. -/
def execNmaMinI64 (d : Fin 32) (a : Fin 32) (b : Fin 32) (u : Bool) (s : State) : Host.Outcome State Fault Refusal :=
  runWord (.nmaMinI64 d a b u) (xNmaMinI64 d a b u) s
/-- NMA_MAX_I64 (R250), as one instruction. -/
def execNmaMaxI64 (d : Fin 32) (a : Fin 32) (b : Fin 32) (u : Bool) (s : State) : Host.Outcome State Fault Refusal :=
  runWord (.nmaMaxI64 d a b u) (xNmaMaxI64 d a b u) s
/-- NMA_AND_I64 (R250), as one instruction. -/
def execNmaAndI64 (d : Fin 32) (a : Fin 32) (b : Fin 32) (s : State) : Host.Outcome State Fault Refusal :=
  runWord (.nmaAndI64 d a b) (xNmaAndI64 d a b) s
/-- NMA_OR_I64 (R250), as one instruction. -/
def execNmaOrI64 (d : Fin 32) (a : Fin 32) (b : Fin 32) (s : State) : Host.Outcome State Fault Refusal :=
  runWord (.nmaOrI64 d a b) (xNmaOrI64 d a b) s
/-- NMA_XOR_I64 (R250), as one instruction. -/
def execNmaXorI64 (d : Fin 32) (a : Fin 32) (b : Fin 32) (s : State) : Host.Outcome State Fault Refusal :=
  runWord (.nmaXorI64 d a b) (xNmaXorI64 d a b) s
/-- NMA_SWAP_I64 (R250), as one instruction. -/
def execNmaSwapI64 (d : Fin 32) (a : Fin 32) (b : Fin 32) (s : State) : Host.Outcome State Fault Refusal :=
  runWord (.nmaSwapI64 d a b) (xNmaSwapI64 d a b) s
/-- NMA_CAS_I64 (R250), as one instruction. -/
def execNmaCasI64 (d : Fin 32) (a : Fin 32) (b : Fin 32) (s : State) : Host.Outcome State Fault Refusal :=
  runWord (.nmaCasI64 d a b) (xNmaCasI64 d a b) s
/-- NMA_ADD_F32 (R250), as one instruction. -/
def execNmaAddF32 (d : Fin 32) (a : Fin 32) (b : Fin 32) (s : State) : Host.Outcome State Fault Refusal :=
  runWord (.nmaAddF32 d a b) (xNmaAddF32 d a b) s
/-- NMA_MIN_F32 (R250), as one instruction. -/
def execNmaMinF32 (d : Fin 32) (a : Fin 32) (b : Fin 32) (s : State) : Host.Outcome State Fault Refusal :=
  runWord (.nmaMinF32 d a b) (xNmaMinF32 d a b) s
/-- NMA_MAX_F32 (R250), as one instruction. -/
def execNmaMaxF32 (d : Fin 32) (a : Fin 32) (b : Fin 32) (s : State) : Host.Outcome State Fault Refusal :=
  runNear (.nmaMaxF32 d a b) (xNmaMaxF32 d a b) s
/-- NMA_SWAP_F32 (R250), as one instruction. -/
def execNmaSwapF32 (d : Fin 32) (a : Fin 32) (b : Fin 32) (s : State) : Host.Outcome State Fault Refusal :=
  runNear (.nmaSwapF32 d a b) (xNmaSwapF32 d a b) s
/-- NMA_CAS_F32 (R250), as one instruction. -/
def execNmaCasF32 (d : Fin 32) (a : Fin 32) (b : Fin 32) (s : State) : Host.Outcome State Fault Refusal :=
  runNear (.nmaCasF32 d a b) (xNmaCasF32 d a b) s
/-- NMA_LADD_F32 (R251), as one instruction. -/
def execNmaLaddF32 (d : Fin 32) (a : Fin 32) (b : Fin 32) (g : Bool) (s : State) : Host.Outcome State Fault Refusal :=
  runNear (.nmaLaddF32 d a b g) (xNmaLaddF32 d a b g) s
/-- NMA_LADD_I32 (R251), as one instruction. -/
def execNmaLaddI32 (d : Fin 32) (a : Fin 32) (b : Fin 32) (g : Bool) (s : State) : Host.Outcome State Fault Refusal :=
  runNear (.nmaLaddI32 d a b g) (xNmaLaddI32 d a b g) s
/-- NMA_LMAX_F32 (R251), as one instruction. -/
def execNmaLmaxF32 (d : Fin 32) (a : Fin 32) (b : Fin 32) (g : Bool) (s : State) : Host.Outcome State Fault Refusal :=
  runNear (.nmaLmaxF32 d a b g) (xNmaLmaxF32 d a b g) s

end Sys2Proof.Machine
end

