-- ==== Sys2Proof/Machine/Copy.lean ====
section
/-! DEFINITION. The groups COPY, GATH, LINE and MARK as L and S issue them (R214, R215, R219-R224): the engine queues,
the checks at issue, and the scalar accesses to side bands. -/

namespace Sys2Proof.Machine

/-! ### Engine queues (R214) -/

/-- An engine queue of a core. -/
def Core.queue (c : Core) : Queue → EQueue
  | .l => c.lq | .s => c.sq | .m => c.mq
/-- Replaces an engine queue. -/
def Core.setQueue (c : Core) (q : Queue) (x : EQueue) : Core :=
  match q with
  | .l => { c with lq := x } | .s => { c with sq := x } | .m => { c with mq := x }

/-- The engine that acts for a command (R68): 0 copy, 1 matrix, 2 special-function unit. -/
def Cmd.engine : Cmd → Nat
  | .copyIn _ _ _ _ | .copyOut _ _ _ _ | .copyWt _ _ _ _ _ | .copyMm _ _ _ | .gath _ _ | .lineSet _ _ _ | .mark => 0
  | .rslv _ _ _ => 2
  | _ => 1

/-- Issues a command to a queue of the executing core: a full queue makes L or S wait and freezes C (R214); issue
releases (R77). -/
def State.enqueue (s : State) (q : Queue) (cmd : Cmd) (sig : Option Reg16) : Eff :=
  let g := s.meCore
  let c := s.core g
  let x : QCmd := { order := c.order, pc := s.curAddr, cmd := cmd, sig := sig }
  let e := c.queue q
  if 128 ≤ e.cmds.length then (match q with | .m => .freeze .matrixQueue 0 | _ => .stall)
  else
    .done ((s.setCore g ({ c with order := c.order + 1 }.setQueue q { e with cmds := e.cmds ++ [x] })).issueTo s.agent
      (.cmd g cmd.engine c.order) 1)

/-- The copy queue of the executing sequencer (R214). -/
def State.copyQueue (s : State) : Queue :=
  match s.cur with
  | .core _ .S => .s
  | _ => .l

/-! ### Checks at issue (R219, R220) -/

/-- W of a count word (R219). -/
def cwW (b : W64) : Nat := bf b 0 10
/-- ROWS of a count word. -/
def cwRows (b : W64) : Nat := bf b 10 10
/-- COR of a count word. -/
def cwCor (b : W64) : Nat := bf b 20 7
/-- STRIDE', modulo 2^64 (R220). -/
def cwStride (b : W64) : W64 :=
  if bf b 32 32 = 0 then w64 (cwW b * 256) else BitVec.ofInt 64 (sextN 32 (bf b 32 32))

/-- mem(i, j) (R220). -/
def memLine (base b : W64) (i j : Nat) : W64 := base + w64 i * cwStride b + w64 (j * 256)

/-- The lines of the memory side, in ascending order of i * W + j. -/
def memLines (base b : W64) : List W64 :=
  (List.range (cwRows b)).flatMap fun i => (List.range (cwW b)).map fun j => memLine base b i j
/-- n consecutive lines. -/
def packedLines (base : W64) (n : Nat) : List W64 := (List.range n).map fun i => base + w64 (i * 256)

/-- A line's check at issue: the ranges of R50, windows, preload halves and slices; device memory and apertures are
translated when the command starts (R220, R221). -/
def State.lineChk (s : State) (g : Nat) (va : W64) : Option Exc :=
  if inDevice va.toNat || inAperture va.toNat then none else excOf (s.resolve g va {})

/-- The core whose scratchpad a line lies in, if it lies in one. -/
def spadOf (g : Nat) (va : W64) : Option Nat :=
  let a := va.toNat
  if a < 2 ^ 20 then some g
  else if 0x1000000 ≤ a ∧ a < 0x9000000 then some (cidOf g * 128 + (a - 0x1000000) / 2 ^ 20) else none

/-- The checks of a range of lines at issue: a range that meets a scratchpad lies wholly in one (R220). -/
def State.linesChk (s : State) (g : Nat) (ls : List W64) : Option Exc :=
  match firstFault (s.lineChk g) ls with
  | some e => some e
  | none =>
    match ls with
    | [] => none
    | l :: _ => (ls.find? fun x => !(spadOf g x == spadOf g l)).map access

/-- The limits of a count word of a copy at the base a (R219); `lines` is the slot's line count, none for `copy.mm`. The
STRIDE is checked last (log 85). -/
def countChk (a b : W64) (rem : Bool) (lines : Option Nat) : Option Exc :=
  let big := match lines with
    | some n => decide (n < cwRows b * cwW b)
    | none => false
  if !(bf b 27 1 == 0) || (!rem && !(cwCor b == 0)) || cwRows b == 0 || decide (512 < cwRows b) || cwW b == 0
      || decide (512 < cwW b) || big then some ringExc
  else if bf b 32 8 ≠ 0 then some (align a)
  else none

/-- An address aligned to n bytes. -/
def alignChk (a : W64) (n : Nat) : Option Exc := if a.toNat % n = 0 then none else some (align a)

/-- The core whose ring a producing copy names (R219, R220). -/
def State.copyCore (s : State) (b : W64) (rem : Bool) : Except Exc Nat :=
  if rem then s.windowCore (cwCor b) else .ok s.meCore

/-- The semaphore of a count word, under `sig`. -/
def cwSig (b : W64) (sig : Bool) : Option Reg16 := if sig then some (idx 16 (bf b 28 4)) else none

/-! ### COPY (R219-R221) -/

/-- copy.in. -/
def xCopyIn (d : Reg16) (a b : SReg) (g m : Bool) (s : State) : Eff :=
  let w := s.rs b
  guardChk (countChk (s.rs a) w m none) <|
    .need (s.copyCore w m) fun k =>
      guardChk (countChk (s.rs a) w m (some (s.ring k d).ssz)) <|
        guardChk (alignChk (s.rs a) 256) <|
          guardChk (s.linesChk s.meCore (memLines (s.rs a) w)) <|
            s.enqueue s.copyQueue (.copyIn d k (s.rs a) w) (cwSig w g)

/-- copy.out. -/
def xCopyOut (d : SReg) (a : Reg16) (b : SReg) (k g : Bool) (s : State) : Eff :=
  let w := s.rs b
  guardChk (countChk (s.rs d) w false (some (s.ring s.meCore a).ssz)) <|
    guardChk (alignChk (s.rs d) 256) <|
      guardChk (s.linesChk s.meCore (memLines (s.rs d) w)) <|
        s.enqueue s.copyQueue (.copyOut a k (s.rs d) w) (cwSig w g)

/-- copy.wt. -/
def xCopyWt (d : Reg16) (a b : SReg) (x g m : Bool) (s : State) : Eff :=
  let w := s.rs b
  if bf (s.rs a) 24 8 ≠ 0 then .trap illegal
  else
    guardChk (countChk 0 w m none) <|
      .need (s.copyCore w m) fun k =>
        guardChk (countChk 0 w m (some (s.ring k d).ssz)) <|
          s.enqueue s.copyQueue (.copyWt d k (s.rs a) w x) (cwSig w g)

/-- copy.mm. -/
def xCopyMm (d a b : SReg) (g : Bool) (s : State) : Eff :=
  let w := s.rs b
  guardChk (countChk (s.rs a) w false none) <|
    guardChk (alignChk (s.rs a) 256) <|
      guardChk (alignChk (s.rs d) 256) <|
        guardChk (s.linesChk s.meCore (memLines (s.rs a) w)) <|
          guardChk (s.linesChk s.meCore (packedLines (s.rs d) (cwRows w * cwW w))) <|
            s.enqueue s.copyQueue (.copyMm (s.rs a) (s.rs d) w) (cwSig w g)

/-! ### GATH (R222) -/

/-- gath.fill: the semaphore of `sig` is named by the descriptor, read at start. -/
def xGathFill (d : Reg16) (a : SReg) (g : Bool) (s : State) : Eff :=
  guardChk (alignChk (s.rs a) 32) <|
    guardChk (s.ownRange s.meCore (s.rs a) 32 {}) <|
      s.enqueue s.copyQueue (.gath d (s.rs a)) (if g then some 0 else none)

/-! ### LINE (R223) -/

/-- Where a side band is reached: scratchpad, window, shared or device memory. -/
def State.sideAt (s : State) (va : W64) (n : Need) : Except Exc Nat :=
  if va.toNat % 256 ≠ 0 then .error (align va)
  else if inAperture va.toNat then .error (access va)
  else s.resolveFor s.cur va n

/-- A side band that `line.wr` and `line.set` may write. -/
def sideValueOk (v : W64) : Bool := fmtKnown (bf v 0 8) && bf v 26 38 == 0

/-- Writes a side band alone (R223): as any write, it is lost on a failed link and marks an ingest check's line. -/
def State.storeSide (s : State) (k : Nat) (v : W32) : State :=
  let s := s.wakeKey k
  if isDev k && s.linkFailed (s.linkOf k) then s.lostWrite k
  else if isDev k then (s.setSide k v).marked k else s.setSide k v

/-- line.rd: no data byte is read, so an error that is pending in one is not consumed (R67, R311). None stands in a side
band alone, the model's choice (log 97); a failed link gives none of the line (R325). -/
def xLineRd (d a : SReg) (s : State) : Eff :=
  .need (s.sideAt (s.rs a) { rd := true }) fun k =>
    .need (s.trackMe (sideLoc k) 16 false (s.rs a)) fun t =>
      if isDev k && s.linkFailed (s.linkOf k) then .trap (uncorrectable k (s.rs a))
      else .done ((t.wakeKey k).putS .salu d ((s.sideOf k).setWidth 64))

/-- line.wr. -/
def xLineWr (a b : SReg) (s : State) : Eff :=
  .need (s.sideAt (s.rs a) { w := true }) fun k =>
    if !sideValueOk (s.rs b) then .trap (format (s.rs a))
    else
      .need (s.trackMe (sideLoc k) 16 true (s.rs a)) fun t => .done (t.storeSide k ((s.rs b).setWidth 32))

/-- line.set: each line is checked by itself; R220's limit on a range within scratchpads is one of copies. -/
def xLineSet (d a b : SReg) (g : Bool) (s : State) : Eff :=
  let n := bf (s.rs b) 0 16
  if (s.rs a).toNat % 256 ≠ 0 then .trap (align (s.rs a))
  else if !sideValueOk (s.rs d) || !(bf (s.rs b) 20 44 == 0) || n == 0 then .trap (format (s.rs a))
  else if (packedLines (s.rs a) n).any fun l => inAperture l.toNat then .trap (access (s.rs a))
  else
    guardChk (firstFault (s.lineChk s.meCore) (packedLines (s.rs a) n)) <|
      s.enqueue s.copyQueue (.lineSet ((s.rs d).setWidth 32) (s.rs a) n) (if g then some (idx 16 (bf (s.rs b) 16 4)) else none)

/-! ### MARK (R224) -/

/-- mark.tile. -/
def xMarkTile (s : State) : Eff := s.enqueue s.copyQueue .mark none

/-- mark.drain: waits until every command that this sequencer issued has retired, and acquires from them. -/
def xMarkDrain (s : State) : Eff :=
  let g := s.meCore
  if ((s.core g).queue s.copyQueue).cmds.isEmpty then .done (s.acquire s.agent 1 (.drain g s.copyQueue))
  else .stall

/-! ### The meanings -/
/-- COPY_IN (R219), as one instruction. -/
def execCopyIn (d : Fin 16) (a : Fin 32) (b : Fin 32) (g : Bool) (m : Bool) (s : State) : Host.Outcome State Fault Refusal :=
  runWord (.copyIn d a b g m) (xCopyIn d a b g m) s
/-- COPY_OUT (R219), as one instruction. -/
def execCopyOut (d : Fin 32) (a : Fin 16) (b : Fin 32) (k : Bool) (g : Bool) (s : State) : Host.Outcome State Fault Refusal :=
  runWord (.copyOut d a b k g) (xCopyOut d a b k g) s
/-- COPY_WT (R220), as one instruction. -/
def execCopyWt (d : Fin 16) (a : Fin 32) (b : Fin 32) (x : Bool) (g : Bool) (m : Bool) (s : State) : Host.Outcome State Fault Refusal :=
  runWord (.copyWt d a b x g m) (xCopyWt d a b x g m) s
/-- COPY_MM (R219), as one instruction. -/
def execCopyMm (d : Fin 32) (a : Fin 32) (b : Fin 32) (g : Bool) (s : State) : Host.Outcome State Fault Refusal :=
  runWord (.copyMm d a b g) (xCopyMm d a b g) s
/-- GATH_FILL (R222), as one instruction. -/
def execGathFill (d : Fin 16) (a : Fin 32) (g : Bool) (s : State) : Host.Outcome State Fault Refusal :=
  runWord (.gathFill d a g) (xGathFill d a g) s
/-- LINE_RD (R223), as one instruction. -/
def execLineRd (d : Fin 32) (a : Fin 32) (s : State) : Host.Outcome State Fault Refusal :=
  runWord (.lineRd d a) (xLineRd d a) s
/-- LINE_WR (R223), as one instruction. -/
def execLineWr (a : Fin 32) (b : Fin 32) (s : State) : Host.Outcome State Fault Refusal :=
  runWord (.lineWr a b) (xLineWr a b) s
/-- LINE_SET (R223), as one instruction. -/
def execLineSet (d : Fin 32) (a : Fin 32) (b : Fin 32) (g : Bool) (s : State) : Host.Outcome State Fault Refusal :=
  runWord (.lineSet d a b g) (xLineSet d a b g) s
/-- MARK_TILE (R216), as one instruction. -/
def execMarkTile (s : State) : Host.Outcome State Fault Refusal :=
  runWord (.markTile) (xMarkTile) s
/-- MARK_DRAIN (R224), as one instruction. -/
def execMarkDrain (s : State) : Host.Outcome State Fault Refusal :=
  runWord (.markDrain) (xMarkDrain) s

end Sys2Proof.Machine
end

