-- ==== Sys2Proof/Machine/Transcend.lean ====
section
/-! DEFINITION. The special functions of R212, correctly rounded: each is computed in fixed point with 200 fraction
bits, far past where the exact value of any binary32 argument can lie from a rounding boundary (log 17), and
rounded once with the remainder known to be non-zero. -/

namespace Sys2Proof.Machine

/-- Fraction bits of the fixed-point values. -/
abbrev fpP : Nat := 200
/-- ln 2 in fixed point. -/
def ln2Fix : Int := 1113844574712631719546256151097547306333272293549090750737802
/-- pi / 2 in fixed point. -/
def halfPiFix : Int := 2524172377308996935986705070621218418107321710744331485767684
/-- 2 / pi with 448 fraction bits. -/
def twoOverPi : Nat := 462719903209012473739027189078321485821403533873818135563930763503717035047934237737986615051168199051314313825220491584285406701135678

/-- A finite value in fixed point, rounded down. -/
def toFix (neg : Bool) (m : Nat) (e : Int) : Int :=
  let v : Int := if 0 ≤ e + fpP then (m * 2 ^ (e + fpP).toNat : Nat) else (m / 2 ^ (-(e + fpP)).toNat : Nat)
  if neg then -v else v

/-- Product in fixed point. -/
def mulFix (x y : Int) : Int := x * y / 2 ^ fpP

/-- Taylor sum of e^r for a small r: 1 + r (1 + r / 2 (1 + r / 3 ( ... ))), from term k down. -/
def expTerms (r : Int) : Nat → Int → Int
  | 0, acc => acc
  | k + 1, acc => expTerms r k (2 ^ fpP + mulFix r acc / (k + 1 : Nat))

/-- e^x for x in fixed point: a fixed-point value in about [1/2, 2] and a power of two. -/
def expFix (x : Int) : Int × Int :=
  let k := (2 * x + ln2Fix) / (2 * ln2Fix)
  (expTerms (x - k * ln2Fix) 48 (2 ^ fpP), k)

/-- Terms of the series of atanh z / z in z^2, from term k down. -/
def atanhTerms (z2 : Int) : Nat → Int → Int
  | 0, acc => acc
  | k + 1, acc => atanhTerms z2 k (2 ^ fpP / (2 * k + 1 : Nat) + mulFix z2 acc)

/-- The natural logarithm of m x 2^e, m positive, in fixed point. -/
def lnFix (m : Nat) (e : Int) : Int :=
  let k := Nat.log2 (m * m * 2) / 2
  let y : Int := toFix false m (-(k : Int))
  let z := (y - 2 ^ fpP) * 2 ^ fpP / (y + 2 ^ fpP)
  2 * mulFix z (atanhTerms (mulFix z z) 48 0) + (e + k) * ln2Fix

/-- Terms of the alternating series of sin r / r (odd) or cos r (even), from term k down. -/
def trigTerms (r2 : Int) (odd : Bool) : Nat → Int → Int
  | 0, acc => acc
  | k + 1, acc =>
    let j : Nat := 2 * k + (if odd then 3 else 2)
    trigTerms r2 odd k (2 ^ fpP - mulFix r2 acc / (j * (j - 1) : Nat))

/-- sin and cos of |r| <= pi / 4 in fixed point. -/
def sinFix (r : Int) : Int := mulFix r (trigTerms (mulFix r r) true 28 (2 ^ fpP))
/-- The cosine. -/
def cosFix (r : Int) : Int := trigTerms (mulFix r r) false 28 (2 ^ fpP)

/-- A magnitude m x 2^e as a quadrant and a remainder of at most pi / 4 in fixed point. -/
def reduce (m : Nat) (e : Int) : Nat × Int :=
  -- the product m x 2^e x 2 / pi, with 448 fraction bits
  let y : Nat := if 0 ≤ e then m * 2 ^ e.toNat * twoOverPi else m * twoOverPi / 2 ^ (-e).toNat
  let n : Nat := (y + 2 ^ 447) / 2 ^ 448
  let f : Int := (y : Int) - n * 2 ^ 448
  (n % 4, f * halfPiFix / 2 ^ 448)

/-- Rounds a fixed-point value known not to be representable. -/
def roundFix (md : Mode) (v : Int) (k : Int) : Res :=
  if v = 0 then md.round false 1 (-400) true else md.round (decide (v < 0)) v.natAbs (k - fpP) true

/-- A value just above or below a dyadic value: (m x 2^100 +- 1) x 2^(e - 100), not representable. -/
def near (md : Mode) (neg : Bool) (m : Nat) (e : Int) (above : Bool) : Res :=
  md.round neg (if above then m * 2 ^ 100 else m * 2 ^ 100 - 1) (e - 100) true

/-- Whether |m x 2^e| is below 2^b. -/
def below (m : Nat) (e b : Int) : Bool := decide (e + Nat.log2 m < b)

/-- Whether m x 2^e is an integer, and that integer. -/
def asInt (neg : Bool) (m : Nat) (e : Int) : Option Int :=
  let v : Option Nat := if 0 ≤ e then some (m * 2 ^ e.toNat)
    else if m % 2 ^ (-e).toNat = 0 then some (m / 2 ^ (-e).toNat) else none
  v.map fun x => if neg then -(x : Int) else x

/-- e^x as a fixed-point value and a power of two, for |x| below 2^8. -/
def fpExp (md : Mode) (a : Num) : Res :=
  match a with
  | .nan s => nanRes s
  | .inf n => if n then { bits := 0 } else { bits := infBits false }
  | .fin n m e =>
    if m = 0 then md.wr (.fin false 1 0)
    else if below m e (-60) then near md false 1 0 (!n)
    else if !below m e 8 then (if n then md.round false 1 (-400) true else md.round false 1 400 true)
    else let r := expFix (toFix n m e); roundFix md r.1 r.2

/-- 2^x; exact for an integer x whose power the format holds (R212). -/
def fpExp2 (md : Mode) (a : Num) : Res :=
  match a with
  | .nan s => nanRes s
  | .inf n => if n then { bits := 0 } else { bits := infBits false }
  | .fin n m e =>
    if m = 0 then md.wr (.fin false 1 0)
    else if below m e (-60) then near md false 1 0 (!n)
    else if !below m e 9 then (if n then md.round false 1 (-600) true else md.round false 1 600 true)
    else match asInt n m e with
      | some k => md.round false 1 k false
      | none =>
        let x := toFix n m e
        let k := x / 2 ^ fpP
        let r := expFix (mulFix (x - k * 2 ^ fpP) ln2Fix)
        roundFix md r.1 (r.2 + k)

/-- ln x (R212): +0 at 1. -/
def fpLn (md : Mode) (a : Num) : Res :=
  match a with
  | .nan s => nanRes s
  | .inf n => if n then invalid else { bits := infBits false }
  | .fin n m e =>
    if m = 0 then { bits := infBits true, flags := fDZ }
    else if n then invalid
    else if asInt false m e = some 1 then { bits := 0 }
    else roundFix md (lnFix m e) 0

/-- log2 x (R212): exact for a power of two. -/
def fpLog2 (md : Mode) (a : Num) : Res :=
  match a with
  | .nan s => nanRes s
  | .inf n => if n then invalid else { bits := infBits false }
  | .fin n m e =>
    if m = 0 then { bits := infBits true, flags := fDZ }
    else if n then invalid
    else if 2 ^ Nat.log2 m = m then
      let k : Int := e + Nat.log2 m
      if k = 0 then { bits := 0 } else md.wr (ofScaled k 0 false)
    else
      let k := Nat.log2 (m * m * 2) / 2
      roundFix md ((e + k) * 2 ^ fpP + lnFix m (-(k : Int)) * 2 ^ fpP / ln2Fix) 0

/-- sin x (R212). -/
def fpSin (md : Mode) (a : Num) : Res :=
  match a with
  | .nan s => nanRes s
  | .inf _ => invalid
  | .fin n m e =>
    if m = 0 then { bits := zeroBits n }
    else if below m e (-60) then near md n m e false
    else
      let r := reduce m e
      let v := match r.1 with
        | 0 => sinFix r.2 | 1 => cosFix r.2 | 2 => -sinFix r.2 | _ => -cosFix r.2
      roundFix md (if n then -v else v) 0

/-- cos x (R212). -/
def fpCos (md : Mode) (a : Num) : Res :=
  match a with
  | .nan s => nanRes s
  | .inf _ => invalid
  | .fin _ m e =>
    if m = 0 then md.wr (.fin false 1 0)
    else if below m e (-60) then near md false 1 0 false
    else
      let r := reduce m e
      roundFix md (match r.1 with
        | 0 => cosFix r.2 | 1 => -sinFix r.2 | 2 => -cosFix r.2 | _ => sinFix r.2) 0

/-- tanh x (R212) = (e^2x - 1) / (e^2x + 1). -/
def fpTanh (md : Mode) (a : Num) : Res :=
  match a with
  | .nan s => nanRes s
  | .inf n => md.wr (.fin n 1 0)
  | .fin n m e =>
    if m = 0 then { bits := zeroBits n }
    else if below m e (-60) then near md n m e false
    else if !below m e 6 then near md n 1 0 false
    else
      let r := expFix (2 * toFix false m e)
      let x := r.1 * 2 ^ r.2.toNat
      roundFix md ((if n then -1 else 1) * ((x - 2 ^ fpP) * 2 ^ fpP / (x + 2 ^ fpP))) 0

/-- 1 / (1 + e^-x) (R212). -/
def fpSigm (md : Mode) (a : Num) : Res :=
  match a with
  | .nan s => nanRes s
  | .inf n => if n then { bits := 0 } else md.wr (.fin false 1 0)
  | .fin n m e =>
    if m = 0 then md.wr (.fin false 1 (-1))
    else if below m e (-60) then near md false 1 (-1) (!n)
    else if !below m e 8 then (if n then md.round false 1 (-400) true else near md false 1 0 false)
    else
      -- e^|x| = r.1 x 2^r.2: the value is E / (1 + E) for x > 0 and 1 / (1 + E) for x < 0
      let r := expFix (toFix false m e)
      let x := r.1 * 2 ^ r.2.toNat
      if n then
        -- 1 / (1 + E), kept to 200 bits below its leading bit
        roundFix md (2 ^ (2 * fpP + r.2.toNat) / (x + 2 ^ fpP)) (-r.2.toNat)
      else roundFix md (x * 2 ^ fpP / (x + 2 ^ fpP)) 0

end Sys2Proof.Machine
end

