-- ==== Sys2Proof/Machine/Vector.lean ====
section
/-! DEFINITION. The vector groups and the special-function unit (R191-R212). A slot reads its operands, the shape and
the mode at issue and lands at its class's latency; memory is accessed at landing (R210). -/

namespace Sys2Proof.Machine

/-! ### Lanes and registers -/

/-- The first n entries of a list, with zeros past its end. -/
def padTo : Nat → List W32 → List W32
  | 0, _ => []
  | n + 1, [] => 0 :: padTo n []
  | n + 1, x :: xs => x :: padTo n xs

/-- The physical register of a name under VROT (R29). -/
def physReg (vrot : BitVec 4) (r : VReg) : VReg :=
  if r.val < 16 then r else idx 32 (16 + (r.val + vrot.toNat) % 16)

/-- The physical register a name of the executing core selects. -/
def State.vphys (s : State) (r : VReg) : VReg := physReg (s.core s.meCore).vrot r

/-- The shape of the executing core (R192). -/
def State.shape (s : State) : W32 := (s.core s.meCore).vshape

/-- The first n lanes of a register of the executing core. -/
def State.lanesOf (s : State) (r : VReg) (n : Nat) : List W32 := padTo n ((s.core s.meCore).v.get (s.vphys r))

/-- Lanes 0 to n - 1 of a register. -/
def State.rv (s : State) (r : VReg) : List W32 := s.lanesOf r (shapeN s.shape)

/-- Lanes that land in a register, with the flags that go with them (R193). -/
def State.putV (s : State) (k : Lat) (d : VReg) (r : List W32 × W32) : State :=
  s.launch s.meCore k (.vec (s.vphys d) r.1) r.2

/-- The mode of a slot of type T (R193, R195). -/
def State.mode (s : State) (t : Fin 8) : Mode := modeOf (s.core s.meCore).fpcr (t == 1)

/-- Width of an integer type (R191). -/
def widthOf (t : Fin 8) : Nat := if t = 4 then 16 else if t = 5 then 8 else 32

/-- An integer lane as it is read (R191). -/
def ival (t : Fin 8) (x : W32) : Int :=
  if t = 3 then x.toNat else sextN (widthOf t) x.toNat

/-- An integer written to a lane: wrapped to w bits and sign-extended (R191). -/
def iwr (t : Fin 8) (v : Int) : W32 := BitVec.ofInt 32 (if t = 3 then v else sextN (widthOf t) (v % 2 ^ widthOf t).toNat)

/-- The least value of an integer type (R198). -/
def iMin (t : Fin 8) : Int := if t = 3 then 0 else -2 ^ (widthOf t - 1)
/-- The greatest value of an integer type (R198). -/
def iMax (t : Fin 8) : Int := if t = 3 then 2 ^ 32 - 1 else 2 ^ (widthOf t - 1) - 1
/-- Saturation to a type's range (R198). -/
def clamp (t : Fin 8) (v : Int) : Int := max (iMin t) (min (iMax t) v)

/-! ### VFP, VFMA, VSFU (R196, R197, R212) -/

/-- A floating operation of one operand, lane by lane. -/
def fp1 (k : Lat) (f : Mode → Num → Res) (d a : VReg) (t : Fin 8) (s : State) : Eff :=
  let md := s.mode t
  .done (s.putV k d (collect ((s.rv a).map fun x => f md (md.rd x))))

/-- A floating operation of two operands, lane by lane. -/
def fp2 (k : Lat) (f : Mode → Num → Num → Res) (d a b : VReg) (t : Fin 8) (s : State) : Eff :=
  let md := s.mode t
  .done (s.putV k d (collect (List.zipWith (fun x y => f md (md.rd x) (md.rd y)) (s.rv a) (s.rv b))))

/-- A value with a sign put on it, exactly; a NaN becomes the canonical one without a flag (R196). -/
def signed (md : Mode) (f : Bool → Bool) (x : Num) : Res :=
  match x with
  | .nan _ => { bits := canonNan }
  | .inf n => { bits := infBits (f n) }
  | .fin n m e => { bits := (md.wr (.fin (f n) m e)).bits }

/-- vfp.add. -/
def xVfpAdd (d a b : VReg) (t : Fin 8) (s : State) : Eff := fp2 .vfp fpAdd d a b t s
/-- vfp.sub. -/
def xVfpSub (d a b : VReg) (t : Fin 8) (s : State) : Eff := fp2 .vfp fpSub d a b t s
/-- vfp.mul. -/
def xVfpMul (d a b : VReg) (t : Fin 8) (s : State) : Eff := fp2 .vfp fpMul d a b t s
/-- vfp.min. -/
def xVfpMin (d a b : VReg) (t : Fin 8) (s : State) : Eff := fp2 .vfp fpMin d a b t s
/-- vfp.max. -/
def xVfpMax (d a b : VReg) (t : Fin 8) (s : State) : Eff := fp2 .vfp fpMax d a b t s
/-- vfp.abs. -/
def xVfpAbs (d a : VReg) (t : Fin 8) (s : State) : Eff := fp1 .vfp (fun md => signed md fun _ => false) d a t s
/-- vfp.neg. -/
def xVfpNeg (d a : VReg) (t : Fin 8) (s : State) : Eff := fp1 .vfp (fun md => signed md not) d a t s
/-- vfp.cpsgn: the sign bit of b, whatever b is. -/
def xVfpCpsgn (d a b : VReg) (t : Fin 8) (s : State) : Eff :=
  let md := s.mode t
  .done (s.putV .vfp d (collect (List.zipWith (fun x (y : W32) => signed md (fun _ => y.getLsbD 31) (md.rd x)) (s.rv a) (s.rv b))))

/-- A fused operation on a, b and the old destination (R197). -/
def fp3 (negP negC : Bool) (d a b : VReg) (t : Fin 8) (s : State) : Eff :=
  let md := s.mode t
  let one (x y z : W32) : Res :=
    let p := md.rd x
    let c := md.rd z
    fpFma md (if negP then p.neg else p) (md.rd y) (if negC then c.neg else c)
  .done (s.putV .vfma d (collect (List.zipWith (fun f z => f z) (List.zipWith one (s.rv a) (s.rv b)) (s.rv d))))

/-- vfma.fma. -/
def xVfmaFma (d a b : VReg) (t : Fin 8) (s : State) : Eff := fp3 false false d a b t s
/-- vfma.fms. -/
def xVfmaFms (d a b : VReg) (t : Fin 8) (s : State) : Eff := fp3 false true d a b t s
/-- vfma.fnma. -/
def xVfmaFnma (d a b : VReg) (t : Fin 8) (s : State) : Eff := fp3 true false d a b t s
/-- vfma.fnms. -/
def xVfmaFnms (d a b : VReg) (t : Fin 8) (s : State) : Eff := fp3 true true d a b t s

/-- vsfu.rcp. -/
def xVsfuRcp (d a : VReg) (t : Fin 8) (s : State) : Eff := fp1 .vsfu fpRcp d a t s
/-- vsfu.rsqrt. -/
def xVsfuRsqrt (d a : VReg) (t : Fin 8) (s : State) : Eff := fp1 .vsfu fpRsqrt d a t s
/-- vsfu.sqrt. -/
def xVsfuSqrt (d a : VReg) (t : Fin 8) (s : State) : Eff := fp1 .vsfu fpSqrt d a t s
/-- vsfu.div. -/
def xVsfuDiv (d a b : VReg) (t : Fin 8) (s : State) : Eff := fp2 .vsfu fpDiv d a b t s
/-- vsfu.exp. -/
def xVsfuExp (d a : VReg) (t : Fin 8) (s : State) : Eff := fp1 .vsfu fpExp d a t s
/-- vsfu.exp2. -/
def xVsfuExp2 (d a : VReg) (t : Fin 8) (s : State) : Eff := fp1 .vsfu fpExp2 d a t s
/-- vsfu.ln. -/
def xVsfuLn (d a : VReg) (t : Fin 8) (s : State) : Eff := fp1 .vsfu fpLn d a t s
/-- vsfu.log2. -/
def xVsfuLog2 (d a : VReg) (t : Fin 8) (s : State) : Eff := fp1 .vsfu fpLog2 d a t s
/-- vsfu.sin. -/
def xVsfuSin (d a : VReg) (t : Fin 8) (s : State) : Eff := fp1 .vsfu fpSin d a t s
/-- vsfu.cos. -/
def xVsfuCos (d a : VReg) (t : Fin 8) (s : State) : Eff := fp1 .vsfu fpCos d a t s
/-- vsfu.tanh. -/
def xVsfuTanh (d a : VReg) (t : Fin 8) (s : State) : Eff := fp1 .vsfu fpTanh d a t s
/-- vsfu.sigm. -/
def xVsfuSigm (d a : VReg) (t : Fin 8) (s : State) : Eff := fp1 .vsfu fpSigm d a t s

/-! ### VINT (R198) -/

/-- An integer operation of two operands on the values read, lane by lane. -/
def int2 (f : Int → Int → Int) (d a b : VReg) (t : Fin 8) (s : State) : Eff :=
  .done (s.putV .vint d (List.zipWith (fun x y => iwr t (f (ival t x) (ival t y))) (s.rv a) (s.rv b), 0))

/-- An operation on the bits of two lanes. -/
def bits2 (f : W32 → W32 → W32) (d a b : VReg) (t : Fin 8) (s : State) : Eff :=
  .done (s.putV .vint d (List.zipWith (fun x y => iwr t (f x y).toNat) (s.rv a) (s.rv b), 0))

/-- The low w bits of a lane. -/
def lowBits (t : Fin 8) (x : W32) : Nat := fld x.toNat 0 (widthOf t)
/-- A shift count (R198). -/
def shiftBy (t : Fin 8) (y : W32) : Nat := y.toNat % widthOf t

/-- vint.add. -/
def xVintAdd (d a b : VReg) (t : Fin 8) (s : State) : Eff := int2 (· + ·) d a b t s
/-- vint.sub. -/
def xVintSub (d a b : VReg) (t : Fin 8) (s : State) : Eff := int2 (· - ·) d a b t s
/-- vint.mul. -/
def xVintMul (d a b : VReg) (t : Fin 8) (s : State) : Eff := int2 (· * ·) d a b t s
/-- vint.and. -/
def xVintAnd (d a b : VReg) (t : Fin 8) (s : State) : Eff := bits2 (· &&& ·) d a b t s
/-- vint.or. -/
def xVintOr (d a b : VReg) (t : Fin 8) (s : State) : Eff := bits2 (· ||| ·) d a b t s
/-- vint.xor. -/
def xVintXor (d a b : VReg) (t : Fin 8) (s : State) : Eff := bits2 (· ^^^ ·) d a b t s
/-- vint.andn. -/
def xVintAndn (d a b : VReg) (t : Fin 8) (s : State) : Eff := bits2 (fun x y => x &&& ~~~y) d a b t s
/-- vint.shl. -/
def xVintShl (d a b : VReg) (t : Fin 8) (s : State) : Eff := bits2 (fun x y => x <<< shiftBy t y) d a b t s
/-- vint.shr: of the w-bit field, filled with 0. -/
def xVintShr (d a b : VReg) (t : Fin 8) (s : State) : Eff :=
  bits2 (fun x y => BitVec.ofNat 32 (lowBits t x / 2 ^ shiftBy t y)) d a b t s
/-- vint.sra: filled with bit w - 1 of the field, whatever the type's sign. -/
def xVintSra (d a b : VReg) (t : Fin 8) (s : State) : Eff :=
  bits2 (fun x y => BitVec.ofInt 32 (sextN (widthOf t) x.toNat / 2 ^ shiftBy t y)) d a b t s
/-- vint.min. -/
def xVintMin (d a b : VReg) (t : Fin 8) (s : State) : Eff := int2 min d a b t s
/-- vint.max. -/
def xVintMax (d a b : VReg) (t : Fin 8) (s : State) : Eff := int2 max d a b t s
/-- vint.adds. -/
def xVintAdds (d a b : VReg) (t : Fin 8) (s : State) : Eff := int2 (fun x y => clamp t (x + y)) d a b t s
/-- vint.subs. -/
def xVintSubs (d a b : VReg) (t : Fin 8) (s : State) : Eff := int2 (fun x y => clamp t (x - y)) d a b t s
/-- vint.abs. -/
def xVintAbs (d a : VReg) (t : Fin 8) (s : State) : Eff :=
  .done (s.putV .vint d ((s.rv a).map fun x => iwr t (clamp t (ival t x).natAbs), 0))
/-- vint.mulh: high w bits of the product. -/
def xVintMulh (d a b : VReg) (t : Fin 8) (s : State) : Eff := int2 (fun x y => x * y / 2 ^ widthOf t) d a b t s

/-! ### VCMP (R199) -/

/-- The lane of a comparison. -/
def mask32 (b : Bool) : W32 := if b then 0xFFFFFFFF else 0

/-- A comparison: of floating values with the outcome and the flag of a NaN operand, or of integers. -/
def cmpLanes (fp : Num → Num → Bool) (int : Int → Int → Bool) (onNan quietNv : Bool) (d a b : VReg) (t : Fin 8)
    (s : State) : Eff :=
  let md := s.mode t
  let one (x y : W32) : Res :=
    if t = 0 ∨ t = 1 then
      let p := md.rd x
      let q := md.rd y
      if p.isNan || q.isNan then
        { bits := (mask32 onNan).toNat, flags := sigFlag (quietNv || p.isSig || q.isSig) }
      else { bits := (mask32 (fp p q)).toNat }
    else { bits := (mask32 (int (ival t x) (ival t y))).toNat }
  .done (s.putV .vint d (collect (List.zipWith one (s.rv a) (s.rv b))))

/-- vcmp.eq. -/
def xVcmpEq (d a b : VReg) (t : Fin 8) (s : State) : Eff :=
  cmpLanes (fun x y => !x.lt y && !y.lt x) (fun x y => x == y) false false d a b t s
/-- vcmp.ne. -/
def xVcmpNe (d a b : VReg) (t : Fin 8) (s : State) : Eff :=
  cmpLanes (fun x y => x.lt y || y.lt x) (fun x y => x != y) true false d a b t s
/-- vcmp.lt. -/
def xVcmpLt (d a b : VReg) (t : Fin 8) (s : State) : Eff :=
  cmpLanes (fun x y => x.lt y) (fun x y => decide (x < y)) false true d a b t s
/-- vcmp.le. -/
def xVcmpLe (d a b : VReg) (t : Fin 8) (s : State) : Eff :=
  cmpLanes (fun x y => !y.lt x) (fun x y => decide (x ≤ y)) false true d a b t s
/-- vcmp.gt. -/
def xVcmpGt (d a b : VReg) (t : Fin 8) (s : State) : Eff :=
  cmpLanes (fun x y => y.lt x) (fun x y => decide (y < x)) false true d a b t s
/-- vcmp.ge. -/
def xVcmpGe (d a b : VReg) (t : Fin 8) (s : State) : Eff :=
  cmpLanes (fun x y => !x.lt y) (fun x y => decide (y ≤ x)) false true d a b t s
/-- vcmp.un. -/
def xVcmpUn (d a b : VReg) (t : Fin 8) (s : State) : Eff :=
  cmpLanes (fun _ _ => false) (fun _ _ => false) true false d a b t s

/-! ### VSEL, VSET, VPERM, VCLM (R200-R202, R211) -/

/-- vsel.sel. -/
def xVselSel (d a b : VReg) (s : State) : Eff :=
  let pick (m x y : W32) : W32 := if m = 0 then y else x
  .done (s.putV .vint d (List.zipWith (fun f y => f y) (List.zipWith pick (s.rv d) (s.rv a)) (s.rv b), 0))
/-- vsel.selz. -/
def xVselSelz (d a : VReg) (s : State) : Eff :=
  .done (s.putV .vint d (List.zipWith (fun (m x : W32) => if m = 0 then 0 else x) (s.rv d) (s.rv a), 0))

/-- A scalar written as a lane of type T (R201). -/
def laneOf (t : Fin 8) (x : W64) : W32 :=
  if t = 1 then BitVec.ofNat 32 (bf x 0 16 * 2 ^ 16) else if t = 0 then x.setWidth 32 else iwr t x.toNat

/-- vset.bcast. -/
def xVsetBcast (d : VReg) (a : SReg) (t : Fin 8) (s : State) : Eff :=
  .done (s.putV .vint d (List.replicate (shapeN s.shape) (laneOf t (s.rs a)), 0))
/-- A lane for each element number. -/
def eachLane (f : Nat → Nat) (d : VReg) (s : State) : Eff :=
  .done (s.putV .vint d ((List.range (shapeN s.shape)).map fun e => BitVec.ofNat 32 (f e), 0))
/-- vset.iota. -/
def xVsetIota (d : VReg) (_t : Fin 8) (s : State) : Eff := eachLane id d s
/-- vset.irow. -/
def xVsetIrow (d : VReg) (_t : Fin 8) (s : State) : Eff := eachLane (· / shapeCols s.shape) d s
/-- vset.icol. -/
def xVsetIcol (d : VReg) (_t : Fin 8) (s : State) : Eff := eachLane (· % shapeCols s.shape) d s
/-- vset.get: a physical lane. -/
def xVsetGet (d : SReg) (a : VReg) (b : SReg) (s : State) : Eff :=
  .done (s.putS .vint d (((s.lanesOf a 1024)[bf (s.rs b) 0 10]?.getD 0).setWidth 64))
/-- vset.put: the other lanes are those read at issue (R193). -/
def xVsetPut (d : VReg) (a b : SReg) (s : State) : Eff :=
  .done (s.putV .vint d ((s.lanesOf d 1024).set (bf (s.rs b) 0 10) ((s.rs a).setWidth 32), 0))

/-- vperm.sel. -/
def xVpermSel (d a b : VReg) (s : State) : Eff :=
  let xs := s.rv a
  .done (s.putV .vperm d ((s.rv b).map fun i => xs[i.toNat]?.getD 0, 0))
/-- vperm.shift. -/
def xVpermShift (d a : VReg) (b : SReg) (s : State) : Eff :=
  let xs := s.rv a
  let cols := shapeCols s.shape
  let k := sextN 32 (s.rs b).toNat
  let one (e : Nat) : W32 :=
    let c : Int := (e % cols : Nat) - k
    if 0 ≤ c ∧ c < cols then xs[e / cols * cols + c.toNat]?.getD 0 else 0
  .done (s.putV .vperm d ((List.range xs.length).map one, 0))
/-- vperm.tr: lane col x ROWS + row. -/
def xVpermTr (d a : VReg) (s : State) : Eff :=
  let xs := s.rv a
  let rows := shapeRows s.shape
  let cols := shapeCols s.shape
  .done (s.putV .vperm d ((List.range xs.length).map fun e => xs[e % rows * cols + e / rows]?.getD 0, 0))

/-- Carry-less product: x << i xored over the set bits i of y, from bit k down (R211). -/
def clmul (x y : Nat) : Nat → Nat
  | 0 => 0
  | k + 1 => clmul x y k ^^^ (if fld y k 1 = 1 then x * 2 ^ k else 0)

/-- A half of the carry-less product of two lanes. -/
def clmHalf (hi : Bool) (x y : W32) : W32 :=
  BitVec.ofNat 32 (if hi then clmul x.toNat y.toNat 32 / 2 ^ 32 else clmul x.toNat y.toNat 32)

/-- vclm.lo. -/
def xVclmLo (d a b : VReg) (s : State) : Eff :=
  .done (s.putV .vclm d (List.zipWith (clmHalf false) (s.rv a) (s.rv b), 0))
/-- vclm.hi. -/
def xVclmHi (d a b : VReg) (s : State) : Eff :=
  .done (s.putV .vclm d (List.zipWith (clmHalf true) (s.rv a) (s.rv b), 0))
/-- vclm.xlo. -/
def xVclmXlo (d a b : VReg) (s : State) : Eff :=
  .done (s.putV .vclm d (List.zipWith (· ^^^ ·) (s.rv d) (List.zipWith (clmHalf false) (s.rv a) (s.rv b)), 0))
/-- vclm.xhi. -/
def xVclmXhi (d a b : VReg) (s : State) : Eff :=
  .done (s.putV .vclm d (List.zipWith (· ^^^ ·) (s.rv d) (List.zipWith (clmHalf true) (s.rv a) (s.rv b)), 0))
/-- vclm.brev. -/
def xVclmBrev (d a : VReg) (s : State) : Eff :=
  .done (s.putV .vclm d ((s.rv a).map fun x => BitVec.ofNat 32 (revBits 32 x.toNat), 0))

/-! ### VRED (R203, R204) -/

/-- One level of the pairwise tree; an unpaired value carries up. -/
def pairUp {α : Type} (op : α → α → α) : List α → List α
  | x :: y :: r => op x y :: pairUp op r
  | r => r

/-- The fixed tree over k levels at most. -/
def treeOf {α : Type} (op : α → α → α) : Nat → List α → List α
  | 0, r => r
  | k + 1, r => treeOf op k (pairUp op r)

/-- The inclusive scan from the left. -/
def scanOf {α : Type} (op : α → α → α) : List α → List α
  | [] => []
  | x :: xs => go x xs
where
  /-- The scan after a first value. -/
  go (y : α) : List α → List α
    | [] => [y]
    | x :: xs => y :: go (op y x) xs

/-- The rows of a shape. -/
def rowsOf {α : Type} (cols : Nat) : Nat → List α → List (List α)
  | 0, _ => []
  | r + 1, xs => xs.take cols :: rowsOf cols r (xs.drop cols)

/-- A step of a floating reduction on binary32 values, collecting flags. -/
def redStep (f : Mode → Num → Num → Res) (md : Mode) (x y : Res) : Res :=
  let r := f md (flushIn md.ftz (ofBits x.bits)) (flushIn md.ftz (ofBits y.bits))
  { bits := r.bits, flags := x.flags ||| y.flags ||| r.flags }

/-- A lane as the first binary32 value of a reduction (R195). -/
def redRead (md : Mode) (x : W32) : Res :=
  let v := md.rd x
  { bits := ({ md with bf := false }.wr v).bits, flags := sigFlag v.isSig }

/-- A result of a floating reduction as it is written: for BF16 rounded once more (R204). -/
def redWrite (md : Mode) (x : Res) : Res :=
  if md.bf then
    let r := md.wr (ofBits x.bits)
    { bits := r.bits, flags := x.flags ||| r.flags }
  else x

/-- A reduction of each row, or a scan of it, by a floating step or by one on integers. -/
def reduceRows (scan : Bool) (f : Mode → Num → Num → Res) (i : Int → Int → Int) (d a : VReg) (t : Fin 8) (s : State) :
    Eff :=
  let md := s.mode t
  let cols := shapeCols s.shape
  let rows := shapeRows s.shape
  if t = 0 ∨ t = 1 then
    let op := redStep f { md with bf := false }
    let one (r : List Res) : List Res := if scan then scanOf op r else treeOf op r.length r
    .done (s.putV .vred d (collect (((rowsOf cols rows ((s.rv a).map (redRead md))).flatMap one).map (redWrite md))))
  else
    let op (x y : W32) : W32 := iwr t (i (ival t x) (ival t y))
    let one (r : List W32) : List W32 := if scan then scanOf op r else treeOf op r.length r
    .done (s.putV .vred d ((rowsOf cols rows ((s.rv a).map fun x => iwr t (ival t x))).flatMap one, 0))

/-- A reduction of each row on the bits of its lanes. -/
def reduceBits (f : W32 → W32 → W32) (d a : VReg) (t : Fin 8) (s : State) : Eff :=
  let rows := rowsOf (shapeCols s.shape) (shapeRows s.shape) ((s.rv a).map fun x => iwr t (ival t x))
  .done (s.putV .vred d (rows.flatMap fun r => treeOf f r.length r, 0))

/-- vred.sum. -/
def xVredSum (d a : VReg) (t : Fin 8) (s : State) : Eff := reduceRows false fpAdd (· + ·) d a t s
/-- vred.max. -/
def xVredMax (d a : VReg) (t : Fin 8) (s : State) : Eff := reduceRows false fpMax max d a t s
/-- vred.min. -/
def xVredMin (d a : VReg) (t : Fin 8) (s : State) : Eff := reduceRows false fpMin min d a t s
/-- vred.and. -/
def xVredAnd (d a : VReg) (t : Fin 8) (s : State) : Eff := reduceBits (· &&& ·) d a t s
/-- vred.or. -/
def xVredOr (d a : VReg) (t : Fin 8) (s : State) : Eff := reduceBits (· ||| ·) d a t s
/-- vred.xor. -/
def xVredXor (d a : VReg) (t : Fin 8) (s : State) : Eff := reduceBits (· ^^^ ·) d a t s
/-- vred.sadd. -/
def xVredSadd (d a : VReg) (t : Fin 8) (s : State) : Eff := reduceRows true fpAdd (· + ·) d a t s
/-- vred.smax. -/
def xVredSmax (d a : VReg) (t : Fin 8) (s : State) : Eff := reduceRows true fpMax max d a t s
/-- vred.anyp. -/
def xVredAnyp (d : Reg16) (a : VReg) (s : State) : Eff := .done (s.putP .vred d ((s.rv a).any fun x => !(x == 0)))
/-- vred.allp. -/
def xVredAllp (d : Reg16) (a : VReg) (s : State) : Eff := .done (s.putP .vred d ((s.rv a).all fun x => !(x == 0)))

/-! ### VCVT (R205, R206) -/

/-- A finite or special value as an integer of a type under RM (R205). -/
def toInt (rm : Nat) (t : Fin 8) (x : Num) : Res :=
  match x with
  | .nan _ => { bits := (iwr t 0).toNat, flags := fNV }
  | .inf n => { bits := (iwr t (if n then iMin t else iMax t)).toNat, flags := fNV }
  | .fin n m e =>
    let r := roundAt rm n m e 0 false
    let v : Int := if n then -(r.1 : Int) else r.1
    if iMin t ≤ v ∧ v ≤ iMax t then { bits := (iwr t v).toNat, flags := if r.2 then fNX else 0 }
    else { bits := (iwr t (if n then iMin t else iMax t)).toNat, flags := fNV }

/-- A value rounded to an integral value of its format under RM (R205). -/
def fpRint (md : Mode) (x : Num) : Res :=
  match x with
  | .nan s => nanRes s
  | .inf n => { bits := infBits n }
  | .fin n m e =>
    let r := roundAt md.rm n m e 0 false
    if r.2 then { bits := (md.wr (.fin n r.1 0)).bits, flags := fNX } else { bits := (md.wr x).bits }

/-- A value written in a format, a NaN as `nanRes` (R195). -/
def fpWrite (md : Mode) (x : Num) : Res :=
  match x with
  | .nan s => nanRes s
  | _ => md.wr x

/-- vcvt.f2i. -/
def xVcvtF2i (d a : VReg) (t : Fin 8) (s : State) : Eff :=
  let md := s.mode 0
  .done (s.putV .vcvt d (collect ((s.rv a).map fun x => toInt md.rm t (md.rd x))))
/-- vcvt.i2f. -/
def xVcvtI2f (d a : VReg) (t : Fin 8) (s : State) : Eff :=
  let md := s.mode 0
  .done (s.putV .vcvt d (collect ((s.rv a).map fun x => md.wr (ofScaled (ival t x) 0 false))))
/-- vcvt.f2h. -/
def xVcvtF2h (d a : VReg) (s : State) : Eff :=
  .done (s.putV .vcvt d (collect ((s.rv a).map fun x => fpWrite (s.mode 1) ((s.mode 0).rd x))))
/-- vcvt.h2f. -/
def xVcvtH2f (d a : VReg) (s : State) : Eff :=
  .done (s.putV .vcvt d (collect ((s.rv a).map fun x => fpWrite (s.mode 0) ((s.mode 1).rd x))))
/-- vcvt.rint. -/
def xVcvtRint (d a : VReg) (t : Fin 8) (s : State) : Eff := fp1 .vcvt fpRint d a t s

/-- A residue conversion (R206): the checks at issue; the rest happens at landing. -/
def convert (half : Bool) (d : SReg) (a : VReg) (b : SReg) (t : Fin 8) (s : State) : Eff :=
  let g := s.meCore
  let dst := s.rs d
  let ctrl := s.rs b
  let lines := shapeN s.shape / (if t = 6 then 256 else 512)
  if dst.toNat % 256 ≠ 0 then .trap (align dst)
  else if ctrl.toNat % 16 ≠ 0 then .trap (align ctrl)
  else
    match s.ownRange g dst (256 * lines) { w := true } with
    | some e => .trap e
    | none =>
      match s.ownRange g ctrl 16 { rd := true } with
      | some e => .trap e
      | none => .done (s.launch g .vcvt (.convert t half (s.rv a) dst ctrl (s.core g).fpcr) 0)

/-- vcvt.qf. -/
def xVcvtQf (d : SReg) (a : VReg) (b : SReg) (t : Fin 8) (s : State) : Eff := convert false d a b t s
/-- vcvt.qh. -/
def xVcvtQh (d : SReg) (a : VReg) (b : SReg) (t : Fin 8) (s : State) : Eff := convert true d a b t s

/-! ### VMEM (R207-R209) -/

/-- Element size (R207). -/
def sizeOfT (t : Fin 8) : Nat := if t = 1 ∨ t = 4 then 2 else if t = 5 then 1 else 4

/-- The stride of a strided access (R207). -/
def strideOf (b : W64) (cols z : Nat) : W64 := if b = 0 then BitVec.ofNat 64 (cols * z) else b

/-- Element addresses of a strided access (R207). -/
def strided (base stride : W64) (cols n z : Nat) : List W64 :=
  (List.range n).map fun e => base + BitVec.ofNat 64 (e / cols) * stride + BitVec.ofNat 64 (e % cols * z)

/-- Element addresses of an indexed access (R207). -/
def indexed (base : W64) (is : List W32) (z : Nat) : List W64 := is.map fun i => base + BitVec.ofNat 64 (i.toNat * z)

/-- The checks of R208 at issue on element addresses. -/
def State.vcheck (s : State) (z : Nat) (n : Need) (eas : List W64) : Option Exc :=
  match firstFault (fun a => if a.toNat % z = 0 then none else some (align a)) eas with
  | some e => some e
  | none => firstFault (fun a => excOf (s.vreach s.meCore a n)) eas

/-- What a store writes of a lane: the low z bytes of its value (R207). -/
def storeVal (t : Fin 8) (x : W32) : W32 := if t = 1 then x >>> 16 else x

/-- Issues the accesses of a slot that passed its checks. -/
def vmemIssue (z : Nat) (n : Need) (eas : List W64) (op : Landing) (s : State) : Eff :=
  match s.vcheck z n eas with
  | some e => .trap e
  | none => .done (s.launch s.meCore .vld op 0)

/-- Lines a residue load reads (R209). -/
def residueLines (t : Fin 8) (n : Nat) (base : W64) : List W64 :=
  let per := if t = 6 then 256 else 512
  (List.range ((n + per - 1) / per)).map fun i => base + BitVec.ofNat 64 (256 * i)

/-- vmem.ld. -/
def xVmemLd (d : VReg) (a b : SReg) (t : Fin 8) (s : State) : Eff :=
  let n := shapeN s.shape
  let z := sizeOfT t
  let base := s.rs a
  if t = 6 ∨ t = 7 then
    vmemIssue 256 { rd := true } (residueLines t n base) (.residue (s.vphys d) t n base (s.core s.meCore).fpcr) s
  else
    let stride := strideOf (s.rs b) (shapeCols s.shape) z
    if stride.toNat % z ≠ 0 then .trap (align base)
    else
      let eas := strided base stride (shapeCols s.shape) n z
      vmemIssue z { rd := true } eas (.load (s.vphys d) t eas) s

/-- vmem.st. -/
def xVmemSt (d : VReg) (a b : SReg) (t : Fin 8) (s : State) : Eff :=
  let n := shapeN s.shape
  let z := sizeOfT t
  let base := s.rs a
  let stride := strideOf (s.rs b) (shapeCols s.shape) z
  if stride.toNat % z ≠ 0 then .trap (align base)
  else
    let eas := strided base stride (shapeCols s.shape) n z
    vmemIssue z { w := true } eas (.store t (eas.zip ((s.rv d).map (storeVal t)))) s

/-- vmem.gat. -/
def xVmemGat (d : VReg) (a : SReg) (b : VReg) (t : Fin 8) (s : State) : Eff :=
  let eas := indexed (s.rs a) (s.rv b) (sizeOfT t)
  vmemIssue (sizeOfT t) { rd := true } eas (.load (s.vphys d) t eas) s

/-- vmem.sct: in ascending e, so that the highest stands. -/
def xVmemSct (d : VReg) (a : SReg) (b : VReg) (t : Fin 8) (s : State) : Eff :=
  let eas := indexed (s.rs a) (s.rv b) (sizeOfT t)
  vmemIssue (sizeOfT t) { w := true } eas (.store t (eas.zip ((s.rv d).map (storeVal t)))) s

/-! ### The meanings -/
/-- VFP_ADD (R196), as one instruction. -/
def execVfpAdd (d : Fin 32) (a : Fin 32) (b : Fin 32) (t : Fin 8) (s : State) : Host.Outcome State Fault Refusal :=
  runWord (.vfpAdd d a b t) (xVfpAdd d a b t) s
/-- VFP_SUB (R196), as one instruction. -/
def execVfpSub (d : Fin 32) (a : Fin 32) (b : Fin 32) (t : Fin 8) (s : State) : Host.Outcome State Fault Refusal :=
  runWord (.vfpSub d a b t) (xVfpSub d a b t) s
/-- VFP_MUL (R196), as one instruction. -/
def execVfpMul (d : Fin 32) (a : Fin 32) (b : Fin 32) (t : Fin 8) (s : State) : Host.Outcome State Fault Refusal :=
  runWord (.vfpMul d a b t) (xVfpMul d a b t) s
/-- VFP_MIN (R196), as one instruction. -/
def execVfpMin (d : Fin 32) (a : Fin 32) (b : Fin 32) (t : Fin 8) (s : State) : Host.Outcome State Fault Refusal :=
  runWord (.vfpMin d a b t) (xVfpMin d a b t) s
/-- VFP_MAX (R196), as one instruction. -/
def execVfpMax (d : Fin 32) (a : Fin 32) (b : Fin 32) (t : Fin 8) (s : State) : Host.Outcome State Fault Refusal :=
  runWord (.vfpMax d a b t) (xVfpMax d a b t) s
/-- VFP_ABS (R196), as one instruction. -/
def execVfpAbs (d : Fin 32) (a : Fin 32) (t : Fin 8) (s : State) : Host.Outcome State Fault Refusal :=
  runWord (.vfpAbs d a t) (xVfpAbs d a t) s
/-- VFP_NEG (R196), as one instruction. -/
def execVfpNeg (d : Fin 32) (a : Fin 32) (t : Fin 8) (s : State) : Host.Outcome State Fault Refusal :=
  runWord (.vfpNeg d a t) (xVfpNeg d a t) s
/-- VFP_CPSGN (R196), as one instruction. -/
def execVfpCpsgn (d : Fin 32) (a : Fin 32) (b : Fin 32) (t : Fin 8) (s : State) : Host.Outcome State Fault Refusal :=
  runWord (.vfpCpsgn d a b t) (xVfpCpsgn d a b t) s
/-- VFMA_FMA (R197), as one instruction. -/
def execVfmaFma (d : Fin 32) (a : Fin 32) (b : Fin 32) (t : Fin 8) (s : State) : Host.Outcome State Fault Refusal :=
  runWord (.vfmaFma d a b t) (xVfmaFma d a b t) s
/-- VFMA_FMS (R197), as one instruction. -/
def execVfmaFms (d : Fin 32) (a : Fin 32) (b : Fin 32) (t : Fin 8) (s : State) : Host.Outcome State Fault Refusal :=
  runWord (.vfmaFms d a b t) (xVfmaFms d a b t) s
/-- VFMA_FNMA (R197), as one instruction. -/
def execVfmaFnma (d : Fin 32) (a : Fin 32) (b : Fin 32) (t : Fin 8) (s : State) : Host.Outcome State Fault Refusal :=
  runWord (.vfmaFnma d a b t) (xVfmaFnma d a b t) s
/-- VFMA_FNMS (R197), as one instruction. -/
def execVfmaFnms (d : Fin 32) (a : Fin 32) (b : Fin 32) (t : Fin 8) (s : State) : Host.Outcome State Fault Refusal :=
  runWord (.vfmaFnms d a b t) (xVfmaFnms d a b t) s
/-- VSFU_RCP (R212), as one instruction. -/
def execVsfuRcp (d : Fin 32) (a : Fin 32) (t : Fin 8) (s : State) : Host.Outcome State Fault Refusal :=
  runWord (.vsfuRcp d a t) (xVsfuRcp d a t) s
/-- VSFU_RSQRT (R212), as one instruction. -/
def execVsfuRsqrt (d : Fin 32) (a : Fin 32) (t : Fin 8) (s : State) : Host.Outcome State Fault Refusal :=
  runWord (.vsfuRsqrt d a t) (xVsfuRsqrt d a t) s
/-- VSFU_SQRT (R212), as one instruction. -/
def execVsfuSqrt (d : Fin 32) (a : Fin 32) (t : Fin 8) (s : State) : Host.Outcome State Fault Refusal :=
  runWord (.vsfuSqrt d a t) (xVsfuSqrt d a t) s
/-- VSFU_DIV (R212), as one instruction. -/
def execVsfuDiv (d : Fin 32) (a : Fin 32) (b : Fin 32) (t : Fin 8) (s : State) : Host.Outcome State Fault Refusal :=
  runWord (.vsfuDiv d a b t) (xVsfuDiv d a b t) s
/-- VSFU_EXP (R212), as one instruction. -/
def execVsfuExp (d : Fin 32) (a : Fin 32) (t : Fin 8) (s : State) : Host.Outcome State Fault Refusal :=
  runWord (.vsfuExp d a t) (xVsfuExp d a t) s
/-- VSFU_EXP2 (R212), as one instruction. -/
def execVsfuExp2 (d : Fin 32) (a : Fin 32) (t : Fin 8) (s : State) : Host.Outcome State Fault Refusal :=
  runWord (.vsfuExp2 d a t) (xVsfuExp2 d a t) s
/-- VSFU_LN (R212), as one instruction. -/
def execVsfuLn (d : Fin 32) (a : Fin 32) (t : Fin 8) (s : State) : Host.Outcome State Fault Refusal :=
  runWord (.vsfuLn d a t) (xVsfuLn d a t) s
/-- VSFU_LOG2 (R212), as one instruction. -/
def execVsfuLog2 (d : Fin 32) (a : Fin 32) (t : Fin 8) (s : State) : Host.Outcome State Fault Refusal :=
  runWord (.vsfuLog2 d a t) (xVsfuLog2 d a t) s
/-- VSFU_SIN (R212), as one instruction. -/
def execVsfuSin (d : Fin 32) (a : Fin 32) (t : Fin 8) (s : State) : Host.Outcome State Fault Refusal :=
  runWord (.vsfuSin d a t) (xVsfuSin d a t) s
/-- VSFU_COS (R212), as one instruction. -/
def execVsfuCos (d : Fin 32) (a : Fin 32) (t : Fin 8) (s : State) : Host.Outcome State Fault Refusal :=
  runWord (.vsfuCos d a t) (xVsfuCos d a t) s
/-- VSFU_TANH (R212), as one instruction. -/
def execVsfuTanh (d : Fin 32) (a : Fin 32) (t : Fin 8) (s : State) : Host.Outcome State Fault Refusal :=
  runWord (.vsfuTanh d a t) (xVsfuTanh d a t) s
/-- VSFU_SIGM (R212), as one instruction. -/
def execVsfuSigm (d : Fin 32) (a : Fin 32) (t : Fin 8) (s : State) : Host.Outcome State Fault Refusal :=
  runWord (.vsfuSigm d a t) (xVsfuSigm d a t) s
/-- VINT_ADD (R198), as one instruction. -/
def execVintAdd (d : Fin 32) (a : Fin 32) (b : Fin 32) (t : Fin 8) (s : State) : Host.Outcome State Fault Refusal :=
  runWord (.vintAdd d a b t) (xVintAdd d a b t) s
/-- VINT_SUB (R198), as one instruction. -/
def execVintSub (d : Fin 32) (a : Fin 32) (b : Fin 32) (t : Fin 8) (s : State) : Host.Outcome State Fault Refusal :=
  runWord (.vintSub d a b t) (xVintSub d a b t) s
/-- VINT_MUL (R198), as one instruction. -/
def execVintMul (d : Fin 32) (a : Fin 32) (b : Fin 32) (t : Fin 8) (s : State) : Host.Outcome State Fault Refusal :=
  runWord (.vintMul d a b t) (xVintMul d a b t) s
/-- VINT_AND (R198), as one instruction. -/
def execVintAnd (d : Fin 32) (a : Fin 32) (b : Fin 32) (t : Fin 8) (s : State) : Host.Outcome State Fault Refusal :=
  runWord (.vintAnd d a b t) (xVintAnd d a b t) s
/-- VINT_OR (R198), as one instruction. -/
def execVintOr (d : Fin 32) (a : Fin 32) (b : Fin 32) (t : Fin 8) (s : State) : Host.Outcome State Fault Refusal :=
  runWord (.vintOr d a b t) (xVintOr d a b t) s
/-- VINT_XOR (R198), as one instruction. -/
def execVintXor (d : Fin 32) (a : Fin 32) (b : Fin 32) (t : Fin 8) (s : State) : Host.Outcome State Fault Refusal :=
  runWord (.vintXor d a b t) (xVintXor d a b t) s
/-- VINT_ANDN (R198), as one instruction. -/
def execVintAndn (d : Fin 32) (a : Fin 32) (b : Fin 32) (t : Fin 8) (s : State) : Host.Outcome State Fault Refusal :=
  runWord (.vintAndn d a b t) (xVintAndn d a b t) s
/-- VINT_SHL (R198), as one instruction. -/
def execVintShl (d : Fin 32) (a : Fin 32) (b : Fin 32) (t : Fin 8) (s : State) : Host.Outcome State Fault Refusal :=
  runWord (.vintShl d a b t) (xVintShl d a b t) s
/-- VINT_SHR (R198), as one instruction. -/
def execVintShr (d : Fin 32) (a : Fin 32) (b : Fin 32) (t : Fin 8) (s : State) : Host.Outcome State Fault Refusal :=
  runWord (.vintShr d a b t) (xVintShr d a b t) s
/-- VINT_SRA (R198), as one instruction. -/
def execVintSra (d : Fin 32) (a : Fin 32) (b : Fin 32) (t : Fin 8) (s : State) : Host.Outcome State Fault Refusal :=
  runWord (.vintSra d a b t) (xVintSra d a b t) s
/-- VINT_MIN (R198), as one instruction. -/
def execVintMin (d : Fin 32) (a : Fin 32) (b : Fin 32) (t : Fin 8) (s : State) : Host.Outcome State Fault Refusal :=
  runWord (.vintMin d a b t) (xVintMin d a b t) s
/-- VINT_MAX (R198), as one instruction. -/
def execVintMax (d : Fin 32) (a : Fin 32) (b : Fin 32) (t : Fin 8) (s : State) : Host.Outcome State Fault Refusal :=
  runWord (.vintMax d a b t) (xVintMax d a b t) s
/-- VINT_ADDS (R198), as one instruction. -/
def execVintAdds (d : Fin 32) (a : Fin 32) (b : Fin 32) (t : Fin 8) (s : State) : Host.Outcome State Fault Refusal :=
  runWord (.vintAdds d a b t) (xVintAdds d a b t) s
/-- VINT_SUBS (R198), as one instruction. -/
def execVintSubs (d : Fin 32) (a : Fin 32) (b : Fin 32) (t : Fin 8) (s : State) : Host.Outcome State Fault Refusal :=
  runWord (.vintSubs d a b t) (xVintSubs d a b t) s
/-- VINT_ABS (R198), as one instruction. -/
def execVintAbs (d : Fin 32) (a : Fin 32) (t : Fin 8) (s : State) : Host.Outcome State Fault Refusal :=
  runWord (.vintAbs d a t) (xVintAbs d a t) s
/-- VINT_MULH (R198), as one instruction. -/
def execVintMulh (d : Fin 32) (a : Fin 32) (b : Fin 32) (t : Fin 8) (s : State) : Host.Outcome State Fault Refusal :=
  runWord (.vintMulh d a b t) (xVintMulh d a b t) s
/-- VCMP_EQ (R199), as one instruction. -/
def execVcmpEq (d : Fin 32) (a : Fin 32) (b : Fin 32) (t : Fin 8) (s : State) : Host.Outcome State Fault Refusal :=
  runWord (.vcmpEq d a b t) (xVcmpEq d a b t) s
/-- VCMP_NE (R199), as one instruction. -/
def execVcmpNe (d : Fin 32) (a : Fin 32) (b : Fin 32) (t : Fin 8) (s : State) : Host.Outcome State Fault Refusal :=
  runWord (.vcmpNe d a b t) (xVcmpNe d a b t) s
/-- VCMP_LT (R199), as one instruction. -/
def execVcmpLt (d : Fin 32) (a : Fin 32) (b : Fin 32) (t : Fin 8) (s : State) : Host.Outcome State Fault Refusal :=
  runWord (.vcmpLt d a b t) (xVcmpLt d a b t) s
/-- VCMP_LE (R199), as one instruction. -/
def execVcmpLe (d : Fin 32) (a : Fin 32) (b : Fin 32) (t : Fin 8) (s : State) : Host.Outcome State Fault Refusal :=
  runWord (.vcmpLe d a b t) (xVcmpLe d a b t) s
/-- VCMP_GT (R199), as one instruction. -/
def execVcmpGt (d : Fin 32) (a : Fin 32) (b : Fin 32) (t : Fin 8) (s : State) : Host.Outcome State Fault Refusal :=
  runWord (.vcmpGt d a b t) (xVcmpGt d a b t) s
/-- VCMP_GE (R199), as one instruction. -/
def execVcmpGe (d : Fin 32) (a : Fin 32) (b : Fin 32) (t : Fin 8) (s : State) : Host.Outcome State Fault Refusal :=
  runWord (.vcmpGe d a b t) (xVcmpGe d a b t) s
/-- VCMP_UN (R199), as one instruction. -/
def execVcmpUn (d : Fin 32) (a : Fin 32) (b : Fin 32) (t : Fin 8) (s : State) : Host.Outcome State Fault Refusal :=
  runWord (.vcmpUn d a b t) (xVcmpUn d a b t) s
/-- VSEL_SEL (R200), as one instruction. -/
def execVselSel (d : Fin 32) (a : Fin 32) (b : Fin 32) (s : State) : Host.Outcome State Fault Refusal :=
  runWord (.vselSel d a b) (xVselSel d a b) s
/-- VSEL_SELZ (R200), as one instruction. -/
def execVselSelz (d : Fin 32) (a : Fin 32) (s : State) : Host.Outcome State Fault Refusal :=
  runWord (.vselSelz d a) (xVselSelz d a) s
/-- VSET_BCAST (R201), as one instruction. -/
def execVsetBcast (d : Fin 32) (a : Fin 32) (t : Fin 8) (s : State) : Host.Outcome State Fault Refusal :=
  runWord (.vsetBcast d a t) (xVsetBcast d a t) s
/-- VSET_IOTA (R201), as one instruction. -/
def execVsetIota (d : Fin 32) (t : Fin 8) (s : State) : Host.Outcome State Fault Refusal :=
  runWord (.vsetIota d t) (xVsetIota d t) s
/-- VSET_IROW (R201), as one instruction. -/
def execVsetIrow (d : Fin 32) (t : Fin 8) (s : State) : Host.Outcome State Fault Refusal :=
  runWord (.vsetIrow d t) (xVsetIrow d t) s
/-- VSET_ICOL (R201), as one instruction. -/
def execVsetIcol (d : Fin 32) (t : Fin 8) (s : State) : Host.Outcome State Fault Refusal :=
  runWord (.vsetIcol d t) (xVsetIcol d t) s
/-- VSET_GET (R201), as one instruction. -/
def execVsetGet (d : Fin 32) (a : Fin 32) (b : Fin 32) (s : State) : Host.Outcome State Fault Refusal :=
  runWord (.vsetGet d a b) (xVsetGet d a b) s
/-- VSET_PUT (R201), as one instruction. -/
def execVsetPut (d : Fin 32) (a : Fin 32) (b : Fin 32) (s : State) : Host.Outcome State Fault Refusal :=
  runWord (.vsetPut d a b) (xVsetPut d a b) s
/-- VPERM_SEL (R202), as one instruction. -/
def execVpermSel (d : Fin 32) (a : Fin 32) (b : Fin 32) (s : State) : Host.Outcome State Fault Refusal :=
  runWord (.vpermSel d a b) (xVpermSel d a b) s
/-- VPERM_SHIFT (R202), as one instruction. -/
def execVpermShift (d : Fin 32) (a : Fin 32) (b : Fin 32) (s : State) : Host.Outcome State Fault Refusal :=
  runWord (.vpermShift d a b) (xVpermShift d a b) s
/-- VPERM_TR (R202), as one instruction. -/
def execVpermTr (d : Fin 32) (a : Fin 32) (s : State) : Host.Outcome State Fault Refusal :=
  runWord (.vpermTr d a) (xVpermTr d a) s
/-- VCLM_LO (R211), as one instruction. -/
def execVclmLo (d : Fin 32) (a : Fin 32) (b : Fin 32) (s : State) : Host.Outcome State Fault Refusal :=
  runWord (.vclmLo d a b) (xVclmLo d a b) s
/-- VCLM_HI (R211), as one instruction. -/
def execVclmHi (d : Fin 32) (a : Fin 32) (b : Fin 32) (s : State) : Host.Outcome State Fault Refusal :=
  runWord (.vclmHi d a b) (xVclmHi d a b) s
/-- VCLM_XLO (R211), as one instruction. -/
def execVclmXlo (d : Fin 32) (a : Fin 32) (b : Fin 32) (s : State) : Host.Outcome State Fault Refusal :=
  runWord (.vclmXlo d a b) (xVclmXlo d a b) s
/-- VCLM_XHI (R211), as one instruction. -/
def execVclmXhi (d : Fin 32) (a : Fin 32) (b : Fin 32) (s : State) : Host.Outcome State Fault Refusal :=
  runWord (.vclmXhi d a b) (xVclmXhi d a b) s
/-- VCLM_BREV (R211), as one instruction. -/
def execVclmBrev (d : Fin 32) (a : Fin 32) (s : State) : Host.Outcome State Fault Refusal :=
  runWord (.vclmBrev d a) (xVclmBrev d a) s
/-- VRED_SUM (R204), as one instruction. -/
def execVredSum (d : Fin 32) (a : Fin 32) (t : Fin 8) (s : State) : Host.Outcome State Fault Refusal :=
  runWord (.vredSum d a t) (xVredSum d a t) s
/-- VRED_MAX (R204), as one instruction. -/
def execVredMax (d : Fin 32) (a : Fin 32) (t : Fin 8) (s : State) : Host.Outcome State Fault Refusal :=
  runWord (.vredMax d a t) (xVredMax d a t) s
/-- VRED_MIN (R204), as one instruction. -/
def execVredMin (d : Fin 32) (a : Fin 32) (t : Fin 8) (s : State) : Host.Outcome State Fault Refusal :=
  runWord (.vredMin d a t) (xVredMin d a t) s
/-- VRED_AND (R203), as one instruction. -/
def execVredAnd (d : Fin 32) (a : Fin 32) (t : Fin 8) (s : State) : Host.Outcome State Fault Refusal :=
  runWord (.vredAnd d a t) (xVredAnd d a t) s
/-- VRED_OR (R203), as one instruction. -/
def execVredOr (d : Fin 32) (a : Fin 32) (t : Fin 8) (s : State) : Host.Outcome State Fault Refusal :=
  runWord (.vredOr d a t) (xVredOr d a t) s
/-- VRED_XOR (R203), as one instruction. -/
def execVredXor (d : Fin 32) (a : Fin 32) (t : Fin 8) (s : State) : Host.Outcome State Fault Refusal :=
  runWord (.vredXor d a t) (xVredXor d a t) s
/-- VRED_SADD (R204), as one instruction. -/
def execVredSadd (d : Fin 32) (a : Fin 32) (t : Fin 8) (s : State) : Host.Outcome State Fault Refusal :=
  runWord (.vredSadd d a t) (xVredSadd d a t) s
/-- VRED_SMAX (R204), as one instruction. -/
def execVredSmax (d : Fin 32) (a : Fin 32) (t : Fin 8) (s : State) : Host.Outcome State Fault Refusal :=
  runWord (.vredSmax d a t) (xVredSmax d a t) s
/-- VRED_ANYP (R203), as one instruction. -/
def execVredAnyp (d : Fin 16) (a : Fin 32) (s : State) : Host.Outcome State Fault Refusal :=
  runWord (.vredAnyp d a) (xVredAnyp d a) s
/-- VRED_ALLP (R203), as one instruction. -/
def execVredAllp (d : Fin 16) (a : Fin 32) (s : State) : Host.Outcome State Fault Refusal :=
  runWord (.vredAllp d a) (xVredAllp d a) s
/-- VCVT_F2I (R205), as one instruction. -/
def execVcvtF2i (d : Fin 32) (a : Fin 32) (t : Fin 8) (s : State) : Host.Outcome State Fault Refusal :=
  runWord (.vcvtF2i d a t) (xVcvtF2i d a t) s
/-- VCVT_I2F (R205), as one instruction. -/
def execVcvtI2f (d : Fin 32) (a : Fin 32) (t : Fin 8) (s : State) : Host.Outcome State Fault Refusal :=
  runWord (.vcvtI2f d a t) (xVcvtI2f d a t) s
/-- VCVT_F2H (R205), as one instruction. -/
def execVcvtF2h (d : Fin 32) (a : Fin 32) (s : State) : Host.Outcome State Fault Refusal :=
  runWord (.vcvtF2h d a) (xVcvtF2h d a) s
/-- VCVT_H2F (R205), as one instruction. -/
def execVcvtH2f (d : Fin 32) (a : Fin 32) (s : State) : Host.Outcome State Fault Refusal :=
  runWord (.vcvtH2f d a) (xVcvtH2f d a) s
/-- VCVT_RINT (R205), as one instruction. -/
def execVcvtRint (d : Fin 32) (a : Fin 32) (t : Fin 8) (s : State) : Host.Outcome State Fault Refusal :=
  runWord (.vcvtRint d a t) (xVcvtRint d a t) s
/-- VCVT_QF (R206), as one instruction. -/
def execVcvtQf (d : Fin 32) (a : Fin 32) (b : Fin 32) (t : Fin 8) (s : State) : Host.Outcome State Fault Refusal :=
  runWord (.vcvtQf d a b t) (xVcvtQf d a b t) s
/-- VCVT_QH (R206), as one instruction. -/
def execVcvtQh (d : Fin 32) (a : Fin 32) (b : Fin 32) (t : Fin 8) (s : State) : Host.Outcome State Fault Refusal :=
  runWord (.vcvtQh d a b t) (xVcvtQh d a b t) s
/-- VMEM_LD (R207), as one instruction. -/
def execVmemLd (d : Fin 32) (a : Fin 32) (b : Fin 32) (t : Fin 8) (s : State) : Host.Outcome State Fault Refusal :=
  runWord (.vmemLd d a b t) (xVmemLd d a b t) s
/-- VMEM_ST (R207), as one instruction. -/
def execVmemSt (d : Fin 32) (a : Fin 32) (b : Fin 32) (t : Fin 8) (s : State) : Host.Outcome State Fault Refusal :=
  runWord (.vmemSt d a b t) (xVmemSt d a b t) s
/-- VMEM_GAT (R207), as one instruction. -/
def execVmemGat (d : Fin 32) (a : Fin 32) (b : Fin 32) (t : Fin 8) (s : State) : Host.Outcome State Fault Refusal :=
  runWord (.vmemGat d a b t) (xVmemGat d a b t) s
/-- VMEM_SCT (R207), as one instruction. -/
def execVmemSct (d : Fin 32) (a : Fin 32) (b : Fin 32) (t : Fin 8) (s : State) : Host.Outcome State Fault Refusal :=
  runWord (.vmemSct d a b t) (xVmemSct d a b t) s

end Sys2Proof.Machine
end

