-- ==== Sys2Proof/Machine/Matrix.lean ====
section
/-! DEFINITION. The groups MMA, ACC, TENT, RSLV, MKAT and PROOF as C issues them (R214, R226-R234, R241), and
`route.topk` (R89, R238, R239). -/

namespace Sys2Proof.Machine

/-! ### MMA (R226) -/

/-- RN8, RN4 or BF16 lines of an operand: of A for a kind of product, the minor code. -/
def aLines (kind : Fin 5) : Nat := if kind = 4 then 2 else if kind = 0 ∨ kind = 2 then 0 else 1
/-- The same of B. -/
def bLines (kind : Fin 5) : Nat := if kind = 4 then 2 else if kind = 0 ∨ kind = 3 then 0 else 1

/-- KC from the slot sizes, or RING (R226). -/
def mmaChunks (kind : Fin 5) (ol : Bool) (aSlot bSlot : Nat) : Option Nat :=
  let la := aSlot - ol.toNat
  let q := match aLines kind with | 0 => 32 | 1 => 16 | _ => 64
  let kc := la / q
  let per := match bLines kind with | 0 => 128 | 1 => 64 | _ => 256
  if la % q = 0 ∧ 1 ≤ kc ∧ kc ≤ 16 ∧ bSlot = per * kc ∧ ((aLines kind = 1 ∨ bLines kind = 1) → kc % 2 = 0) then some kc
  else none

/-- Issues a product (R226). -/
def mmaIssue (kind : Fin 5) (d : TReg) (a b : Reg16) (i j k o r : Bool) (s : State) : Eff :=
  let g := s.meCore
  match mmaChunks kind o (s.ring g a).ssz (s.ring g b).ssz with
  | none => .trap ringExc
  | some kc => s.enqueue .m (.mma kind d a b i j k o r kc s.curNp) none

/-- mma.rn8. -/
def xMmaRn8 (d : TReg) (a b : Reg16) (i j k o r : Bool) (s : State) : Eff := mmaIssue 0 d a b i j k o r s
/-- mma.rn4. -/
def xMmaRn4 (d : TReg) (a b : Reg16) (i j k o r : Bool) (s : State) : Eff := mmaIssue 1 d a b i j k o r s
/-- mma.rnx. -/
def xMmaRnx (d : TReg) (a b : Reg16) (i j k o r : Bool) (s : State) : Eff := mmaIssue 2 d a b i j k o r s
/-- mma.rny. -/
def xMmaRny (d : TReg) (a b : Reg16) (i j k o r : Bool) (s : State) : Eff := mmaIssue 3 d a b i j k o r s
/-- mma.bf16. -/
def xMmaBf16 (d : TReg) (a b : Reg16) (i j k o r : Bool) (s : State) : Eff := mmaIssue 4 d a b i j k o r s

/-! ### ACC (R228-R231) -/

/-- acc.rd: lands at the ACCRD latency (R229). -/
def xAccRd (d : VReg) (a : TReg) (b : SReg) (s : State) : Eff :=
  .done (s.launch s.meCore .accrd (.accRd (s.vphys d) a (bf (s.rs b) 0 2) (shapeN s.shape) (s.core s.meCore).order))
/-- acc.flg. -/
def xAccFlg (d : SReg) (a : TReg) (s : State) : Eff := .done (s.launch s.meCore .accrd (.accFlg d a (s.core s.meCore).order))
/-- acc.st: x is `bf`, y is `clr` (R230). -/
def xAccSt (d : Reg16) (a : TReg) (x y : Bool) (s : State) : Eff :=
  if (s.ring s.meCore d).ssz < (if x then 32 else 64) then .trap ringExc else s.enqueue .m (.accSt d a x y) none
/-- acc.add. -/
def xAccAdd (d a b : TReg) (s : State) : Eff := s.enqueue .m (.accAdd d a b) none
/-- acc.zero. -/
def xAccZero (d : TReg) (s : State) : Eff := s.enqueue .m (.accZero d) none

/-! ### TENT, RSLV, MKAT (R232-R234) -/

/-- A block of the executing core's own scratchpad, of n bytes aligned to al. -/
def State.ownChk (s : State) (a : W64) (al n : Nat) : Option Exc :=
  orElse (alignChk a al) (s.ownRange s.meCore a n {})

/-- tent.mark. -/
def xTentMark (d : TReg) (a : SReg) (s : State) : Eff :=
  guardChk (s.ownChk (s.rs a) 256 256) (s.enqueue .m (.tent d (s.rs a)) none)
/-- rslv: the semaphore of `sig` is named by the block, read at start (R233). -/
def xRslv (d : TReg) (a : SReg) (f g : Bool) (s : State) : Eff :=
  guardChk (s.ownChk (s.rs a) 64 64) (s.enqueue .m (.rslv d (s.rs a) f) (if g then some 0 else none))
/-- mkat. -/
def xMkat (a b : SReg) (s : State) : Eff :=
  if 256 ≤ (s.rs a).toNat then .trap illegal
  else s.enqueue .m (.mkat (s.rs a).toNat ((s.rs b).setWidth 32)) none

/-! ### PROOF (R241) -/

/-- proof.run: the block is copied at issue, with the profile of its bundle (R41); a full queue freezes the core; issue
releases to the command's reads (R257). -/
def xProofRun (a : SReg) (g : Bool) (s : State) : Eff :=
  guardChk (s.ownChk (s.rs a) 64 64) <|
    .need (s.readOwn (s.rs a) 64) fun (v, t) =>
      let k := s.meCore
      let c := cidOf k
      if 32 ≤ (s.cluster c).proofs.length then .freeze .prooferQueue 0
      else
        let x : PCmd := { pc := s.curAddr, core := some k, entry := none, part := s.partFor s.cur, block := BitVec.ofNat 512 v,
                          sig := if g then some (idx 16 (fld v 4 4)) else none
                          np := s.curNp, tag := t.hazard.count t.agent }
        .done ((t.setCluster c { t.cluster c with proofs := (t.cluster c).proofs ++ [x] }).issueTo t.agent (.proof k x.tag) 0)

/-! ### ROUTE (R89, R239) -/

/-- An expert of a row: its number, its logit and its biased score. -/
structure Choice where
  e     : Nat
  logit : Num
  score : Num

/-- x ranks above y: a greater biased score, ties to the lower expert (R89). -/
def Choice.above (x y : Choice) : Bool := y.score.lt x.score || (!x.score.lt y.score && decide (x.e < y.e))

/-- Inserts an expert by rank. -/
def insertChoice (x : Choice) : List Choice → List Choice
  | [] => [x]
  | y :: ys => if x.above y then x :: y :: ys else y :: insertChoice x ys

/-- The greatest of a list of values. -/
def maxNum : Num → List Num → Num
  | m, [] => m
  | m, x :: xs => maxNum (if m.lt x then x else m) xs

/-- Weights of the selected experts, with the flags raised (R89). -/
def routeWeights (md : Mode) (sel : List Choice) : List Nat × Nat :=
  let isInf (c : Choice) : Bool := c.logit == .inf false
  let m := (sel.filter isInf).length
  if 1 ≤ m then
    let q := fpDiv md (.fin false 1 0) (.fin false m 0)
    (sel.map fun c => if isInf c then q.bits else 0, q.flags)
  else
    match sel with
    | [] => ([], 0)
    | c :: _ =>
      let mx := maxNum c.logit (sel.map (·.logit))
      let val (x : Nat) : Num := md.rd (BitVec.ofNat 32 x)
      let ds := sel.map fun c => fpSub md c.logit mx
      let xs := ds.map fun r => fpExp md (val r.bits)
      let sum : Res := match xs with
        | [] => { bits := 0 }
        | x :: rest => rest.foldl (fun (a : Res) y =>
            let r := fpAdd md (val a.bits) (val y.bits)
            { bits := r.bits, flags := a.flags ||| r.flags }) { bits := x.bits, flags := 0 }
      let ws := xs.map fun x => fpDiv md (val x.bits) (val sum.bits)
      (ws.map (·.bits), (ds ++ xs ++ ws).foldl (fun f r => f ||| r.flags) sum.flags)

/-- One row: the lanes of its first 2k columns, and the flags (R89, R239). -/
def routeRow (md : Mode) (k : Nat) (logits biases : List W32) : List W32 × Nat :=
  let bfm : Mode := { md with bf := true }
  let ls := logits.map bfm.rd
  let anyNan := ls.any Num.isNan
  let rows := ((ls.zip (biases.map md.rd)).zipIdx).filterMap fun ((l, b), e) =>
    if l.isNan || l == .inf true then none else some (e, l, fpAdd md l b)
  let adds := rows.foldl (fun f r => f ||| r.2.2.flags) 0
  let ok := rows.filterMap fun (e, l, r) =>
    let v := ofBits r.bits
    if v.isNan then none else some { e := e, logit := l, score := v : Choice }
  let sel := (ok.foldr insertChoice []).take k
  let w := routeWeights md sel
  let mark := anyNan.toNat * 2 ^ 16 + sel.isEmpty.toNat * 2 ^ 17
  let pairs := (List.range k).flatMap fun j =>
    [BitVec.ofNat 32 (((sel[j]?).map (·.e)).getD 0xFFFF + mark), BitVec.ofNat 32 ((w.1[j]?).getD 0)]
  (pairs, adds ||| w.2)

/-- route.topk. -/
def xRouteTopk (d a b : VReg) (n : Fin 4) (k : Fin 8) (s : State) : Eff :=
  let md := s.mode 0
  let nr := 2 ^ n.val
  let cols := shapeCols s.shape
  let total := shapeN s.shape
  let regs (r : VReg) : List (List W32) := (List.range nr).map fun i => s.lanesOf (idx 32 (r.val + i)) total
  let bias := (regs b).flatMap fun x => x.take cols
  let la := regs a
  let rows := (List.range (shapeRows s.shape)).map fun r =>
    let x := routeRow md (k.val + 1) (la.flatMap fun y => (y.drop (r * cols)).take cols) bias
    (padTo cols x.1, x.2)
  .done (s.putV .route d (rows.flatMap (·.1), flagMask (rows.foldl (fun f r => f ||| r.2) 0)))

/-! ### The meanings -/
/-- MMA_RN8 (R226), as one instruction. -/
def execMmaRn8 (d : Fin 32) (a : Fin 16) (b : Fin 16) (i : Bool) (j : Bool) (k : Bool) (o : Bool) (r : Bool) (s : State) : Host.Outcome State Fault Refusal :=
  runWord (.mmaRn8 d a b i j k o r) (xMmaRn8 d a b i j k o r) s
/-- MMA_RN4 (R226), as one instruction. -/
def execMmaRn4 (d : Fin 32) (a : Fin 16) (b : Fin 16) (i : Bool) (j : Bool) (k : Bool) (o : Bool) (r : Bool) (s : State) : Host.Outcome State Fault Refusal :=
  runWord (.mmaRn4 d a b i j k o r) (xMmaRn4 d a b i j k o r) s
/-- MMA_RNX (R226), as one instruction. -/
def execMmaRnx (d : Fin 32) (a : Fin 16) (b : Fin 16) (i : Bool) (j : Bool) (k : Bool) (o : Bool) (r : Bool) (s : State) : Host.Outcome State Fault Refusal :=
  runWord (.mmaRnx d a b i j k o r) (xMmaRnx d a b i j k o r) s
/-- MMA_RNY (R226), as one instruction. -/
def execMmaRny (d : Fin 32) (a : Fin 16) (b : Fin 16) (i : Bool) (j : Bool) (k : Bool) (o : Bool) (r : Bool) (s : State) : Host.Outcome State Fault Refusal :=
  runWord (.mmaRny d a b i j k o r) (xMmaRny d a b i j k o r) s
/-- MMA_BF16 (R226), as one instruction. -/
def execMmaBf16 (d : Fin 32) (a : Fin 16) (b : Fin 16) (i : Bool) (j : Bool) (k : Bool) (o : Bool) (r : Bool) (s : State) : Host.Outcome State Fault Refusal :=
  runWord (.mmaBf16 d a b i j k o r) (xMmaBf16 d a b i j k o r) s
/-- ACC_RD (R228), as one instruction. -/
def execAccRd (d : Fin 32) (a : Fin 32) (b : Fin 32) (s : State) : Host.Outcome State Fault Refusal :=
  runWord (.accRd d a b) (xAccRd d a b) s
/-- ACC_FLG (R229), as one instruction. -/
def execAccFlg (d : Fin 32) (a : Fin 32) (s : State) : Host.Outcome State Fault Refusal :=
  runWord (.accFlg d a) (xAccFlg d a) s
/-- ACC_ST (R230), as one instruction. -/
def execAccSt (d : Fin 16) (a : Fin 32) (x : Bool) (y : Bool) (s : State) : Host.Outcome State Fault Refusal :=
  runWord (.accSt d a x y) (xAccSt d a x y) s
/-- ACC_ADD (R231), as one instruction. -/
def execAccAdd (d : Fin 32) (a : Fin 32) (b : Fin 32) (s : State) : Host.Outcome State Fault Refusal :=
  runWord (.accAdd d a b) (xAccAdd d a b) s
/-- ACC_ZERO (R231), as one instruction. -/
def execAccZero (d : Fin 32) (s : State) : Host.Outcome State Fault Refusal :=
  runWord (.accZero d) (xAccZero d) s
/-- TENT_MARK (R232), as one instruction. -/
def execTentMark (d : Fin 32) (a : Fin 32) (s : State) : Host.Outcome State Fault Refusal :=
  runWord (.tentMark d a) (xTentMark d a) s
/-- RSLV (R94), as one instruction. -/
def execRslv (d : Fin 32) (a : Fin 32) (f : Bool) (g : Bool) (s : State) : Host.Outcome State Fault Refusal :=
  runWord (.rslv d a f g) (xRslv d a f g) s
/-- MKAT (R234), as one instruction. -/
def execMkat (a : Fin 32) (b : Fin 32) (s : State) : Host.Outcome State Fault Refusal :=
  runWord (.mkat a b) (xMkat a b) s
/-- PROOF_RUN (R241), as one instruction. -/
def execProofRun (a : Fin 32) (g : Bool) (s : State) : Host.Outcome State Fault Refusal :=
  runWord (.proofRun a g) (xProofRun a g) s
/-- ROUTE_TOPK (R239), as one instruction. -/
def execRouteTopk (d : Fin 32) (a : Fin 32) (b : Fin 32) (n : Fin 4) (k : Fin 8) (s : State) : Host.Outcome State Fault Refusal :=
  runWord (.routeTopk d a b n k) (xRouteTopk d a b n k) s

end Sys2Proof.Machine
end

