-- ==== Sys2Proof/Machine/Nmx.lean ====
section
/-! DEFINITION. The group NMX: sketch and order-cell instructions (R101-R116, R252, R253). -/

namespace Sys2Proof.Machine

/-- The check of a sketch descriptor's address (R252). -/
def State.descChk (s : State) (a : W64) : Option Exc := s.sharedChk a 64 64
/-- The check of a cell's address. -/
def State.cellChk (s : State) (a : W64) : Option Exc := s.sharedChk a 128 128
/-- The check of a region's address. -/
def State.regionChk (s : State) (a : W64) : Option Exc := s.sharedChk a 256 512

/-- sk.seed. -/
def xSkSeed (a b : SReg) (s : State) : Eff := posted (s.descChk (s.rs a)) .skSeed 0 (s.rs a) (s.rs b) s
/-- sk.upd. -/
def xSkUpd (d a b : SReg) (s : State) : Eff :=
  posted (orElse (s.descChk (s.rs a)) (limit (bf (s.rs d) 32 32 == 0))) .skUpd (s.rs d) (s.rs a) (s.rs b) s
/-- The counters that an index selects, of a sketch (R102). -/
def State.ctrsAt (s : State) (x : Sketch) (i : W64) : List (Nat × Nat) :=
  (List.range x.d).map fun j => (shKey (x.ctr j (s.skHash x j i).1), 4)

/-- sk.qry. -/
def xSkQry (d a b : SReg) (s : State) : Eff :=
  returning (s.descChk (s.rs a)) (fun t =>
    .with t (t.sketch (t.partFor t.cur) (s.rs a).toNat) fun x =>
      match t.pairsOk x with
      | some e => .err t e
      | none => .with t (t.skEstimate x (s.rs b)) fun v => { s := t.nearAccess (t.ctrsAt x (s.rs b)), r := .ok (v.setWidth 64) }) d s

/-- A list of a list form lies in this core's scratchpad or the partition's shared memory, aligned (R253). -/
def State.listChk (s : State) (a : W64) (al len : Nat) : Option Exc :=
  if !(a.toNat % al == 0) then some (align a)
  else if s.mySlices a.toNat len then none
  else match s.cur with
    | .core g _ => s.ownRange g a len {}
    | .hearth _ => some (access a)

/-- A list form: the block is read at issue and its fields are checked (R253). -/
def skList (query : Bool) (a b : SReg) (g : Bool) (s : State) : Eff :=
  match orElse (s.descChk (s.rs a)) (if (s.rs b).toNat % 32 = 0 then none else some (align (s.rs b))) with
  | some e => .trap e
  | none =>
    .need (s.readOwn (s.rs b) 32) fun (v, t) =>
      let n := fld v 32 36
      let ok := fld v 192 8 == 0 && fld v 128 8 == 0 && fld v 0 32 == 0 && decide (1 ≤ n) && decide (n ≤ 2 ^ 20)
      let idx := w64 (fld v 72 56)
      let other := w64 (if query then fld v 200 56 else fld v 136 56)
      let sig := sigSem g (fld v 68 4)
      match orElse (if ok then none else some (format (s.rs b))) (orElse (s.listChk idx 8 (8 * n)) (s.listChk other 4 (4 * n))) with
      | some e => .trap e
      | none => .done (t.postOp (if query then .skQryl idx other n sig else .skUpdl idx other n sig) 0 (s.rs a) (s.rs b))

/-- sk.updl. -/
def xSkUpdl (a b : SReg) (g : Bool) (s : State) : Eff := skList false a b g s
/-- sk.qryl. -/
def xSkQryl (a b : SReg) (g : Bool) (s : State) : Eff := skList true a b g s
/-- sk.add. -/
def xSkAdd (a b : SReg) (s : State) : Eff :=
  posted (orElse (s.descChk (s.rs a)) (s.descChk (s.rs b))) .skAdd 0 (s.rs a) (s.rs b) s
/-- sk.clr. -/
def xSkClr (a : SReg) (s : State) : Eff := posted (s.descChk (s.rs a)) .skClr 0 (s.rs a) 0 s

/-- oc.init. -/
def xOcInit (d a b : SReg) (i : Bool) (s : State) : Eff :=
  posted (orElse (s.cellChk (s.rs a)) (orElse (s.regionChk (s.rs b)) (limit (bf (s.rs d) 32 32 == 0))))
    (.ocInit i) (s.rs d) (s.rs a) (s.rs b) s
/-- oc.ins. -/
def xOcIns (d a b : SReg) (s : State) : Eff :=
  posted (orElse (s.cellChk (s.rs a)) (orElse (s.regionChk (s.rs b)) (limit (decide (bf (s.rs d) 60 4 < 5)))))
    .ocIns (s.rs d) (s.rs a) (s.rs b) s
/-- The bytes of a region that its operations use (R109). -/
def Region.place (r : Region) : Nat × Nat := (shKey r.addr, 16 + 4 * r.srcs.length)
/-- A cell operation with a result: on the whole cell, with its region's state read (R115). -/
def State.cellAccess (s : State) (a : W64) (r : Region) : State :=
  (s.nearRead r.place.1 r.place.2).nearAccess [(shKey a.toNat, 128)]

/-- oc.ldt. -/
def xOcLdt (d a b : SReg) (s : State) : Eff :=
  returning (orElse (s.cellChk (s.rs a)) (s.regionChk (s.rs b))) (fun t =>
    .with t (t.region (s.rs b).toNat) fun r => (t.cellAccess (s.rs a) r).cellLoad (s.rs a).toNat r) d s

/-- A settle took its source to step s or beyond, from below it (R115): both steps measured from the floor, past which a
step is below every step in the window. -/
def Region.brought (r : Region) (st : Nat) (x : Src) : Bool :=
  (decide (2 ^ 15 < r.rel x.lo) || decide (r.rel x.lo < r.rel st)) && decide (r.rel x.hi ≤ 2 ^ 15) && decide (r.rel st ≤ r.rel x.hi)

/-- oc.lds: waits until the watermark reaches the step, and acquires from the settles that brought it there, each
source's own (R114, R115, log 11). -/
def xOcLds (d a b : SReg) (s : State) : Eff :=
  let st := (s.rs d).toNat
  match orElse (s.cellChk (s.rs a)) (orElse (s.regionChk (s.rs b)) (limit (decide (st < 2 ^ 16)))) with
  | some e => .trap e
  | none =>
    if !s.postedBy.isEmpty then .stall
    else
      match s.region (s.rs b).toNat with
      | .error e => .trap e
      | .ok r =>
        let x := s.cellSettled (s.rs a).toNat r st
        match x.r with
        | .error e => .fail x.s e
        | .ok v =>
          if 2 ^ 15 < r.rel st then .fail x.s (.fault 0x12 (s.rs a) 0)
          else if r.rel r.wm < r.rel st then .stall
          else
            let t := x.s.cellAccess (s.rs a) r
            .done ((t.acquireRead t.agent 3 ((t.srcs (.region r.addr)).filter (r.brought st))).putS .salu d v)

/-- oc.settle: it releases what is program-before it, from its application on (R115). -/
def xOcSettle (a b : SReg) (s : State) : Eff :=
  posted (orElse (s.regionChk (s.rs b)) (limit (bf (s.rs a) 28 36 == 0))) .ocSettle 0 (s.rs a) (s.rs b) s

/-- oc.fold. -/
def xOcFold (d b : SReg) (s : State) : Eff :=
  returning (orElse (s.regionChk (s.rs b)) (limit (decide ((s.rs d).toNat < 2 ^ 16)))) (fun t =>
    .with t (t.region (s.rs b).toNat) fun r => (t.regionFold r (s.rs d).toNat).on [r.place] fun _ => true) d s

/-! ### The meanings -/
/-- SK_SEED (R101), as one instruction. -/
def execSkSeed (a : Fin 32) (b : Fin 32) (s : State) : Host.Outcome State Fault Refusal :=
  runNear (.skSeed a b) (xSkSeed a b) s
/-- SK_UPD (R104), as one instruction. -/
def execSkUpd (d : Fin 32) (a : Fin 32) (b : Fin 32) (s : State) : Host.Outcome State Fault Refusal :=
  runNear (.skUpd d a b) (xSkUpd d a b) s
/-- SK_QRY (R105), as one instruction. -/
def execSkQry (d : Fin 32) (a : Fin 32) (b : Fin 32) (s : State) : Host.Outcome State Fault Refusal :=
  runNear (.skQry d a b) (xSkQry d a b) s
/-- SK_UPDL (R253), as one instruction. -/
def execSkUpdl (a : Fin 32) (b : Fin 32) (g : Bool) (s : State) : Host.Outcome State Fault Refusal :=
  runNear (.skUpdl a b g) (xSkUpdl a b g) s
/-- SK_QRYL (R253), as one instruction. -/
def execSkQryl (a : Fin 32) (b : Fin 32) (g : Bool) (s : State) : Host.Outcome State Fault Refusal :=
  runNear (.skQryl a b g) (xSkQryl a b g) s
/-- SK_ADD (R106), as one instruction. -/
def execSkAdd (a : Fin 32) (b : Fin 32) (s : State) : Host.Outcome State Fault Refusal :=
  runNear (.skAdd a b) (xSkAdd a b) s
/-- SK_CLR (R107), as one instruction. -/
def execSkClr (a : Fin 32) (s : State) : Host.Outcome State Fault Refusal :=
  runNear (.skClr a) (xSkClr a) s
/-- OC_INIT (R114), as one instruction. -/
def execOcInit (d : Fin 32) (a : Fin 32) (b : Fin 32) (i : Bool) (s : State) : Host.Outcome State Fault Refusal :=
  runNear (.ocInit d a b i) (xOcInit d a b i) s
/-- OC_INS (R113), as one instruction. -/
def execOcIns (d : Fin 32) (a : Fin 32) (b : Fin 32) (s : State) : Host.Outcome State Fault Refusal :=
  runNear (.ocIns d a b) (xOcIns d a b) s
/-- OC_LDT (R114), as one instruction. -/
def execOcLdt (d : Fin 32) (a : Fin 32) (b : Fin 32) (s : State) : Host.Outcome State Fault Refusal :=
  runNear (.ocLdt d a b) (xOcLdt d a b) s
/-- OC_LDS (R114), as one instruction. -/
def execOcLds (d : Fin 32) (a : Fin 32) (b : Fin 32) (s : State) : Host.Outcome State Fault Refusal :=
  runNear (.ocLds d a b) (xOcLds d a b) s
/-- OC_SETTLE (R114), as one instruction. -/
def execOcSettle (a : Fin 32) (b : Fin 32) (s : State) : Host.Outcome State Fault Refusal :=
  runNear (.ocSettle a b) (xOcSettle a b) s
/-- OC_FOLD (R114), as one instruction. -/
def execOcFold (d : Fin 32) (b : Fin 32) (s : State) : Host.Outcome State Fault Refusal :=
  runNear (.ocFold d b) (xOcFold d b) s

end Sys2Proof.Machine
end

