-- ==== Sys2Proof/Machine/Post.lean ====
section
/-! DEFINITION. The group POST (R117, R118, R120, R131, R254-R257): records, work entries, trigger counters and
weight-set slots. -/

namespace Sys2Proof.Machine

/-! ### Records and work entries (R131, R118, R254) -/

/-- Slots of a partition's record queue (R131, R287). -/
def Part.rqSlots (p : Part) : Nat := 2 ^ (bf p.prq 56 4 + 6)
/-- The address of the record-queue slot of a count (R131, R287). -/
def Part.rqSlot (p : Part) (n : Nat) : Nat := bf p.prq 12 44 * 2 ^ 12 + 64 * (n % p.rqSlots)
/-- Entries of a queue pair's ring (R119). -/
def Qp.size (q : Qp) : Nat := 2 ^ (bf q.cfg 30 4 + 4)
/-- The address of a ring place (R119). -/
def Qp.place (q : Qp) (n : Nat) : Nat := q.base.toNat + 64 * (n % q.size)
/-- A queue pair of the device (R117). -/
def State.qp (s : State) (n : Nat) : Qp := s.qps.getD n {}
/-- Replaces a queue pair. -/
def State.setQp (s : State) (n : Nat) (q : Qp) : State := { s with qps := s.qps.set n q }

/-- The check at issue of the address of a record or entry: aligned, in this core's scratchpad or the partition's shared
memory (R254). -/
def State.blockChk (s : State) (a : W64) : Option Exc :=
  if !(a.toNat % 64 == 0) then some (align a)
  else if s.mySlices a.toNat 64 then none
  else match s.cur with
    | .core g _ => s.ownRange g a 64 {}
    | .hearth _ => some (access a)

/-- K's read of its 64 bytes, when the instruction completes (R254). -/
def State.readBlock (s : State) (a : W64) : Except Exc (Nat × State) :=
  if s.mySlices a.toNat 64 then
    match s.loadFault (shKey a.toNat) 64 a with
    | some e => .error e
    | none => .ok (s.shRd a.toNat 64, s.nearRead (shKey a.toNat) 64)
  else s.readOwn a 64

/-- The device's queue pair of a partition-relative number: beyond the grant it raises ACCESS (R117, R287). -/
def State.qpNumber (s : State) (part : Nat) (n : Nat) : Except Exc Nat :=
  let g := (s.part part).pqp
  if n < bf g 16 11 then .ok (bf g 0 10 + n) else .error (access 0)

/-- The device's trigger counter of a partition-relative number (R117, R287). -/
def State.tcNumber (s : State) (part : Nat) (n : Nat) : Except Exc Nat :=
  let g := (s.part part).ptc
  if n < bf g 16 13 then .ok (bf g 0 12 + n) else .error (access 0)

/-- A trigger counter's value (R120). -/
def State.tc (s : State) (n : Nat) : W64 := s.tcs.getD n 0
/-- Sets a trigger counter. -/
def State.setTc (s : State) (n : Nat) (x : W64) : State := { s with tcs := s.tcs.set n x }

/-- post.task. -/
def xPostTask (a : SReg) (s : State) : Eff :=
  let p := s.partFor s.cur
  let q := s.part p
  let dst := q.rqSlot q.qtail
  guardChk (orElse (s.blockChk (s.rs a)) (if s.mySlices dst 64 then none else some (access (w64 dst)))) <|
    if !s.postedBy.isEmpty || decide (q.rqSlots ≤ q.qtail - q.qhead) then .stall
    else
     .need (s.readBlock (s.rs a)) fun (v, t) =>
      let t := (t.release t.agent 3 (.task p q.qtail)).shWr dst 64 v
      .done (t.setPart p { t.part p with qtail := q.qtail + 1, qpost := q.qpost.set (q.qtail % q.rqSlots) (s.rs a) })

/-- post.qp. -/
def xPostQp (a b : SReg) (s : State) : Eff :=
  .need (s.qpNumber (s.partFor s.cur) (s.rs b).toNat) fun n =>
    let q := s.qp n
    let dst := q.place q.tail
    if q.state = .error then .trap (access 0)
    else
      guardChk (orElse (s.blockChk (s.rs a)) (if s.mySlices dst 64 then none else some (access (w64 dst)))) <|
        if !s.postedBy.isEmpty || decide (q.size ≤ q.tail - q.head) then .stall
        else
          .need (s.readBlock (s.rs a)) fun (v, t) =>
            .done (((t.release t.agent 3 (.work n q.tail)).shWr dst 64 v).setQp n { q with tail := q.tail + 1 })

/-! ### Trigger counters (R255) -/

/-- The device's counter that a counter form names. -/
def State.tcOf (s : State) (a b : SReg) (h : Fin 4) (ind : Bool) : Except Exc Nat :=
  if ind then
    if 2 ^ 12 ≤ (s.rs a).toNat then .error (access 0) else s.tcNumber (s.partFor s.cur) (s.rs a).toNat
  else s.tcNumber (s.partFor s.cur) (h.val * 1024 + a.val * 32 + b.val)

/-- post.tcadd. -/
def xPostTcadd (d a b : SReg) (h : Fin 4) (n : Bool) (s : State) : Eff :=
  .need (s.tcOf a b h n) fun k => .done (s.postOp (.tcAdd k) (s.rs d) 0 0)
/-- post.tcset. -/
def xPostTcset (d a b : SReg) (h : Fin 4) (n : Bool) (s : State) : Eff :=
  .need (s.tcOf a b h n) fun k => .done (s.postOp (.tcSet k) (s.rs d) 0 0)
/-- post.tcrd. -/
def xPostTcrd (d a b : SReg) (h : Fin 4) (n : Bool) (s : State) : Eff :=
  .need (s.tcOf a b h n) fun k => returning none (fun t => { s := t.meets t.agent (t.srcs (.tc k)), r := .ok (t.tc k) }) d s
/-- post.tcwait: satisfied, it acquires (R77, R257). -/
def xPostTcwait (d a b : SReg) (h : Fin 4) (n : Bool) (s : State) : Eff :=
  .need (s.tcOf a b h n) fun k =>
    if !s.postedBy.isEmpty || decide (s.tc k < s.rs d) then .stall else .done (s.acquire s.agent 4 (.tc k))

/-! ### Weight-set slots (R64, R256) -/

/-- The limits of a slot word; EXM and SHM only where `post.wbeg` uses them. -/
def slotWord (w : W64) (beg : Bool) : Option Exc :=
  limit (bf w 38 26 == 0 && bf w 28 4 == 0 && bf w 3 13 == 0 && (beg || (bf w 32 6 == 0 && bf w 16 12 == 0)))

/-- A weight-set slot of a partition. -/
def Part.wsAt (p : Part) (n : Nat) : Ws := p.ws.get (idx 8 n)
/-- Replaces a weight-set slot. -/
def Part.setWs (p : Part) (n : Nat) (w : Ws) : Part := { p with ws := p.ws.set (idx 8 n).val w (idx 8 n).isLt }

/-- The state as `post.wst` codes it. -/
def WsState.code : WsState → Nat
  | .free => 0 | .building => 1 | .current => 2 | .retiring => 3

/-- post.wbeg. -/
def xPostWbeg (a b : SReg) (s : State) : Eff :=
  let t := s.rs a
  posted (orElse (slotWord (s.rs b) true)
    (if !(t.toNat % 256 == 0) then some (align t) else if inDevice t.toNat then none else some (access t)))
    .wsBeg 0 t (s.rs b) s
/-- post.wcom. -/
def xPostWcom (b : SReg) (s : State) : Eff := posted (slotWord (s.rs b) false) .wsCom 0 0 (s.rs b) s
/-- post.wabn. -/
def xPostWabn (b : SReg) (s : State) : Eff := posted (slotWord (s.rs b) false) .wsAbn 0 0 (s.rs b) s
/-- post.wst. -/
def xPostWst (d b : SReg) (s : State) : Eff :=
  returning (slotWord (s.rs b) false) (fun t =>
    let w := (t.part (t.partFor t.cur)).wsAt (bf (t.rs b) 0 3)
    { s := t, r := .ok (w64 (w.state.code + w.bound % 2 ^ 32 * 2 ^ 16)) }) d s

/-- A RETIRING slot that no node binds becomes FREE (R64). -/
def Ws.settleFree (w : Ws) : Ws := if w.state = .retiring ∧ w.bound = 0 then { w with state := .free } else w

/-- The transition of a weight-set form, none where it is refused (R64, R256). -/
def Part.wsForm (p : Part) (op : NearOp) (a b : W64) : Option Part :=
  let n := bf b 0 3
  let w := p.wsAt n
  match op, w.state with
  | .wsBeg, .free =>
    some (p.setWs n { state := .building, table := a, experts := bf b 16 12 + 1, shards := bf b 32 6 + 1, bound := 0 })
  | .wsCom, .building =>
    let retire (x : Ws) : Ws := if x.state = .current then ({ x with state := .retiring } : Ws).settleFree else x
    let q : Part := { p with ws := p.ws.map retire }
    some (q.setWs n { w with state := .current })
  | .wsAbn, .building => some (p.setWs n { w with state := .free })
  | _, _ => none

/-! ### The meanings -/
/-- POST_TASK (R131), as one instruction. -/
def execPostTask (a : Fin 32) (s : State) : Host.Outcome State Fault Refusal :=
  runNear (.postTask a) (xPostTask a) s
/-- POST_QP (R118), as one instruction. -/
def execPostQp (a : Fin 32) (b : Fin 32) (s : State) : Host.Outcome State Fault Refusal :=
  runNear (.postQp a b) (xPostQp a b) s
/-- POST_TCADD (R120), as one instruction. -/
def execPostTcadd (d : Fin 32) (a : Fin 32) (b : Fin 32) (h : Fin 4) (n : Bool) (s : State) : Host.Outcome State Fault Refusal :=
  runNear (.postTcadd d a b h n) (xPostTcadd d a b h n) s
/-- POST_TCSET (R120), as one instruction. -/
def execPostTcset (d : Fin 32) (a : Fin 32) (b : Fin 32) (h : Fin 4) (n : Bool) (s : State) : Host.Outcome State Fault Refusal :=
  runNear (.postTcset d a b h n) (xPostTcset d a b h n) s
/-- POST_TCRD (R254), as one instruction. -/
def execPostTcrd (d : Fin 32) (a : Fin 32) (b : Fin 32) (h : Fin 4) (n : Bool) (s : State) : Host.Outcome State Fault Refusal :=
  runNear (.postTcrd d a b h n) (xPostTcrd d a b h n) s
/-- POST_TCWAIT (R254), as one instruction. -/
def execPostTcwait (d : Fin 32) (a : Fin 32) (b : Fin 32) (h : Fin 4) (n : Bool) (s : State) : Host.Outcome State Fault Refusal :=
  runNear (.postTcwait d a b h n) (xPostTcwait d a b h n) s
/-- POST_WBEG (R256), as one instruction. -/
def execPostWbeg (a : Fin 32) (b : Fin 32) (s : State) : Host.Outcome State Fault Refusal :=
  runNear (.postWbeg a b) (xPostWbeg a b) s
/-- POST_WCOM (R256), as one instruction. -/
def execPostWcom (b : Fin 32) (s : State) : Host.Outcome State Fault Refusal :=
  runNear (.postWcom b) (xPostWcom b) s
/-- POST_WABN (R256), as one instruction. -/
def execPostWabn (b : Fin 32) (s : State) : Host.Outcome State Fault Refusal :=
  runNear (.postWabn b) (xPostWabn b) s
/-- POST_WST (R256), as one instruction. -/
def execPostWst (d : Fin 32) (b : Fin 32) (s : State) : Host.Outcome State Fault Refusal :=
  runNear (.postWst d b) (xPostWst d b) s

end Sys2Proof.Machine
end

