-- ==== Sys2Proof/Machine/Engine.lean ====
section
/-! DEFINITION. What engine commands do when they start: copies, gathers, side bands, products and accumulator
operations (R215, R220-R222, R223, R227, R230-R232, R43, R49, R63, R66, R86, R144). -/

namespace Sys2Proof.Machine

/-- What the run of a command leaves: the state, the fault that stopped it (R215), whether it met a void element
(R35). -/
structure Ran where
  s    : State
  err  : Option Exc := none
  void : Bool := false

/-- Goes on unless a fault has stopped the command. -/
def Ran.andThen (r : Ran) (f : State → Ran) : Ran :=
  match r.err with
  | some _ => r
  | none =>
    let t := f r.s
    { t with void := r.void || t.void }

/-- Goes on with a checked value, or stops. -/
def Ran.with {α : Type} (s : State) (x : Except Exc α) (f : α → Ran) : Ran :=
  match x with
  | .ok v => f v
  | .error e => { s := s, err := some e }

/-- Does one thing after another until a fault. -/
def Ran.each {α : Type} (f : α → State → Ran) : List α → State → Ran
  | [], s => { s := s }
  | x :: xs, s => (f x s).andThen (Ran.each f xs)

/-- Who runs a command: the core it belongs to, its engine (0 copy, 1 matrix, 2 special-function unit), its place in
command order, its unit's index for records (R306) and its address. -/
structure Job where
  g     : Nat
  eng   : Nat
  order : Nat
  index : Nat
  pc    : W64

/-- The agent of a command (R68). -/
def Job.agent (j : Job) : Agent := .cmd j.g j.eng j.order
/-- UNIT of the command's records (R306): the copy engine, or the matrix queue. -/
def Job.unit (j : Job) : Nat := if j.eng = 0 then 4 else 5
/-- A NOTE record of a command (R307). -/
def Job.note (j : Job) (s : State) (code : Nat) (va : W64) : State := s.note j.g j.unit j.index code j.pc va

/-! ### Lines -/

/-- POISON of a side band (R53). -/
def poisonBit : W32 := 0x02000000

/-- The side band of a line of an external target: a peer's is a free value, the host has none (R53, log 15). -/
def State.extSide (s : State) (k : Nat) : W32 :=
  if fld k 46 5 = 16 then 0
  else BitVec.ofNat 32 (ofBytes ((List.range 4).map fun i => Config.extByte s.free (2 ^ 56 + 4 * k + i)))

/-- A source line of a copy or gather (R221): its bytes and side band; zero data and POISON for a consumed error. -/
def State.srcLine (s : State) (j : Job) (va : W64) : Except Exc (List Byte × W32 × Bool × State) :=
  match s.resolve j.g va { rd := true } with
  | .error e => .error e
  | .ok k =>
    match s.trackLine j.g j.agent k false va with
    | .error e => .error e
    | .ok s =>
      if s.isBad k then .ok (List.replicate 256 0, s.sideOf k ||| poisonBit, true, s.consume k)
      else
        let sb := if isExt k then s.extSide k else s.sideOf k
        match sideErr sb va with
        | some e => .error e
        | none =>
          let r := s.line k
          .ok (r.1, sb, false, r.2)

/-- Writes a destination line of a copy: a poisoned line leaves no cluster (R221). -/
def State.dstLine (s : State) (j : Job) (va : W64) (bs : List Byte) (sb : W32) : Except Exc State :=
  match s.resolve j.g va { w := true } with
  | .error e => .error e
  | .ok k =>
    if !isSpad k && sb.getLsbD 25 then .error (poisonExc va)
    else
      match s.trackLine j.g j.agent k true va with
      | .error e => .error e
      | .ok s => .ok (s.setLine k bs sb)

/-- Copies one line; `quar` delivers it with POISON (R66). -/
def copyLine (j : Job) (quar : Bool) (p : W64 × W64) (s : State) : Ran :=
  .with s (s.srcLine j p.1) fun (bs, sb, lost, s) =>
    let s := if lost then j.note s 9 p.1 else s
    .with s (s.dstLine j p.2 bs (if quar then sb ||| poisonBit else sb)) fun s => { s := s }

/-- Where core g reaches byte x of core k's scratchpad (R50, R52). -/
def slotVa (g k x : Nat) : W64 := w64 (if k = g then x else 0x1000000 + corOf k * 2 ^ 20 + x)

/-- The lines of a ring slot, as the command's core reaches them. -/
def State.slotLines (s : State) (g k : Nat) (q : Reg16) (slot n : Nat) : List W64 :=
  packedLines (slotVa g k ((s.ring k q).slotAt slot)) n

/-! ### Weight fetches (R65, R66, R86, R220) -/

/-- The address of the table entry that a weight word names; ACCESS without a binding or beyond the slot's counts (R65). -/
def State.weightEntry (s : State) (g : Nat) (w : W64) : Except Exc W64 :=
  let ctx := (s.core g).ctx.getD {}
  match ctx.ws with
  | none => .error (access 0)
  | some n =>
    let x := (s.part ctx.part).wsAt n
    if x.experts ≤ bf w 0 12 ∨ x.shards ≤ bf w 12 6 then .error (access 0)
    else .ok (x.table + w64 (32 * (bf w 0 12 * x.shards + bf w 12 6)))

/-- The shard a weight word names: BASE, LEN in lines, and whether it is quarantined. The model's choice (log 86): a BASE or
LEN that breaks R64's multiples raises nothing here; BASE is used as it stands and LEN counts its whole lines. -/
def State.shardOf (s : State) (g : Nat) (w : W64) : Except Exc (W64 × Nat × Bool × State) :=
  match s.weightEntry g w with
  | .error e => .error e
  | .ok ea =>
    match s.resolve g ea { rd := true } with
    | .error e => .error e
    | .ok k =>
      match orElse (s.loadFault k 32 ea) (if isExt k then none else sideErr (s.sideOf k) ea) with
      | some e => .error e
      | none =>
        let r := s.load k 32
        .ok (w64 (fld r.1 0 64), fld r.1 64 64 / 256, !(fld r.1 192 64 == 0), r.2)

/-- Lines of a weight fetch: source, destination and position past the shard's start. -/
def weightLines (base : W64) (off : Nat) (cw : W64) (dst : List W64) : List (W64 × W64) :=
  (memLines (base + w64 (off * 256)) cw).zip dst

/-- A line past the shard's LEN (R220). -/
def pastShard (base : W64) (len : Nat) (va : W64) : Bool :=
  decide (w64 (len * 256) ≤ va - base)

/-- The code a held-fault entry records for a line that was read (R86): UNCORRECTABLE, or POISON for a quarantined
shard. A fault that R86 does not list (FORMAT, UNORDERED_OVERLAP) is held under its own code, the model's choice
(log 87). -/
def heldCode (quar lost : Bool) : Option Nat := if lost then some 9 else if quar then some 8 else none

/-- Records a held fault (R86, R87): the SPEC_HELD record, and the entry or HOVF in the table PPTB names. A line of that
table that the copy engine may not read stops the command (R53, R54, R311), which R86 does not hold: the model's choice
(log 87). -/
def State.hold (s : State) (j : Job) (w : W64) (code : Nat) (addr : W64) : Ran :=
  let p := s.part ((s.core j.g).ctx.getD {}).part
  let s := j.note s 0x20 addr
  if bf p.pptb 0 1 = 0 then { s := s }
  else
    let base := bf p.pptb 8 48 * 2 ^ 8
    let l := bf w 18 6
    let entry := 1 + bf w 0 12 * 2 ^ 36 + bf w 12 6 * 2 ^ 50 + code * 2 ^ 56 + addr.toNat % 2 ^ 56 * 2 ^ 64
    match s.engineErrAt (ptHeld base l 0) 128 with
    | some e => { s := s, err := some e }
    | none =>
      match (List.range 8).find? fun h => s.shRd (ptHeld base l h) 1 % 2 == 0 with
      | some h => { s := s.shWr (ptHeld base l h) 16 entry }
      | none =>
        match s.engineErrAt (ptHead base l) 8 with
        | some e => { s := s, err := some e }
        | none => { s := s.shWr (ptHead base l) 8 (s.shRd (ptHead base l) 8 ||| 2 ^ 49) }

/-- One line of a speculative fetch: a fault delivers zero data with FMT 0, SC0 0, SC1 0 and POISON (R86, R280); with
it, the first held fault so far. -/
def specLine (j : Job) (base : W64) (len : Nat) (quar : Bool) (held : Option (Nat × W64)) (p : W64 × W64) (s : State) :
    Ran × Option (Nat × W64) :=
  let r := if pastShard base len p.1 then .error (access p.1) else s.srcLine j p.1
  match r with
  | .error (.hold q) => ({ s := s, err := some (.hold q) }, held)
  | .error e =>
    let t := s.traced e
    (.with t (t.dstLine j p.2 (List.replicate 256 0) poisonBit) fun s => { s := s }, held.orElse fun _ => some (e.codeAddr.1, p.1))
  | .ok (bs, sb, lost, t) =>
    match heldCode quar lost with
    | none => (.with t (t.dstLine j p.2 bs sb) fun s => { s := s }, held)
    | some c =>
      (.with t (t.dstLine j p.2 (List.replicate 256 0) poisonBit) fun s => { s := s }, held.orElse fun _ => some (c, p.1))

/-- The lines of a speculative fetch, in ascending order, and the first held fault. -/
def specLines (j : Job) (base : W64) (len : Nat) (quar : Bool) (held : Option (Nat × W64)) :
    List (W64 × W64) → State → Ran × Option (Nat × W64)
  | [], s => ({ s := s }, held)
  | p :: ps, s =>
    let r := specLine j base len quar held p s
    match r.1.err with
    | some _ => r
    | none => specLines j base len quar r.2 ps r.1.s

/-- copy.wt (R220, R221, R66, R86). A speculative fetch whose table entry cannot be read, or whose node has no binding,
names no source line; its record and entry then hold address 0, the model's choice (log 87). -/
def runWeights (j : Job) (w cw : W64) (spec : Bool) (dst : List W64) (s : State) : Ran :=
  match s.shardOf j.g w with
  | .error (.hold q) => { s := s, err := some (.hold q) }
  | .error e =>
    if spec then
      (Ran.each (fun d s => .with s (s.dstLine j d (List.replicate 256 0) poisonBit) fun s => { s := s }) dst (s.traced e)).andThen
        fun s => s.hold j w e.codeAddr.1 0
    else { s := s, err := some e }
  | .ok (base, len, quar, s) =>
    let ls := weightLines base (bf w 32 32) cw dst
    if spec then
      let r := specLines j base len quar none ls s
      r.1.andThen fun s =>
        match r.2 with
        | some (c, va) => s.hold j w c va
        | none => { s := s }
    else
      match ls.find? fun p => pastShard base len p.1 with
      | some p => { s := s, err := some (access p.1) }
      | none => Ran.each (copyLine j quar) ls s

/-! ### Gather (R63, R222) -/

/-- A descriptor or operand block in the core's own scratchpad, read by an engine: POISON and UNCORRECTABLE stop
the command. -/
def State.readBlk (s : State) (j : Job) (va : W64) (n : Nat) : Except Exc (Nat × State) :=
  match s.ownRange j.g va n { rd := true } with
  | some e => .error e
  | none =>
    let k := vkey j.g va
    match s.track j.g j.agent k n false va with
    | .error e => .error e
    | .ok t =>
      match orElse (s.rangeFault k n va) (s.sidesErr k n va) with
      | some e => .error e
      | none => .ok (Mem.readN s.mem k n, t)

/-- The limits of a gather descriptor, and its alignments (R222). -/
def gatherErr (v : Nat) (va : W64) : Option Exc :=
  if fld v 128 4 ≠ 0 ∨ fld v 10 38 ≠ 0 ∨ fld v 0 10 = 0 ∨ 512 < fld v 0 10 ∨ fld v 192 32 = 0 ∨ 4096 < fld v 192 32
      ∨ fmtKnown (fld v 48 8) = false then some (format va)
  else if fld v 136 56 % 4 ≠ 0 then some (align (w64 (fld v 136 56)))
  else if fld v 72 56 % 256 ≠ 0 then some (align (w64 (fld v 72 56)))
  else none

/-- Copies one line whose source address is not reduced modulo 2^64: beyond it lies no range of R50 (R63). -/
def gatherLine (j : Job) (p : Nat × W64) (s : State) : Ran :=
  if 2 ^ 64 ≤ p.1 then { s := s, err := some (access (w64 p.1)) } else copyLine j false (w64 p.1, p.2) s

/-- One row of a gather: copied, or filled where it is masked. A masked row's SC1 is the descriptor's FSC1 whatever its
format: R222 and R63 say so, R36 has 0x00 for an RN8 line, and the model follows R222 (log 88). -/
def gatherRow (j : Job) (v : Nat) (lines : List W64) (row : Nat × Nat) (s : State) : Ran :=
  let n := fld v 0 10
  let dst := (lines.drop (row.1 * n)).take n
  if row.2 = 2 ^ 32 - 1 then
    Ran.each (fun d s => .with s (s.dstLine j d (List.replicate 256 0) (BitVec.ofNat 32 (fld v 48 24))) fun s => { s := s }) dst s
  else
    let src := (List.range n).map fun i => fld v 72 56 + row.2 * fld v 224 32 * 256 + 256 * i
    Ran.each (gatherLine j) (src.zip dst) s

/-- gath.fill, on the slot it has claimed (R63). -/
def runGather (j : Job) (desc : W64) (ssz : Nat) (lines : List W64) (s : State) : Ran :=
  .with s (s.readBlk j desc 32) fun (v, s) =>
    match gatherErr v desc with
    | some e => { s := s, err := some e }
    | none =>
      let c := fld v 192 32
      if ssz < c * fld v 0 10 then { s := s, err := some ringExc }
      else
        .with s (s.readBlk j (w64 (fld v 136 56)) (4 * c)) fun (l, s) =>
          Ran.each (gatherRow j v lines) ((List.range c).map fun i => (i, fld l (32 * i) 32)) s

/-- The semaphore that a gather descriptor names (R222). -/
def gatherSem (v : Nat) : Reg16 := idx 16 (fld v 132 4)

/-! ### Side bands (R223) -/

/-- line.set. -/
def runLineSet (j : Job) (v : W32) (first : W64) (n : Nat) (s : State) : Ran :=
  Ran.each (fun va s => .with s (s.resolve j.g va { w := true }) fun k =>
    .with s (s.track j.g j.agent (sideLoc k) 16 true va) fun s => { s := s.storeSide k v }) (packedLines first n) s

/-! ### Tiles (R225) -/

/-- A tile of core g. -/
def State.tile (s : State) (g : Nat) (t : TReg) : Tile := (s.core g).tiles.getD t.val {}
/-- Replaces a tile. -/
def State.setTile (s : State) (g : Nat) (t : TReg) (x : Tile) : State :=
  s.setCore g { s.core g with tiles := (s.core g).tiles.set t.val x }

/-- The values, row-major: +0 in every element of a tile whose flags are all clear (R225). -/
def Tile.values (x : Tile) : List W32 :=
  if x.cnt = 0 ∧ x.closed = false ∧ x.poison = false ∧ x.tent = false then [] else x.vals
/-- Element i, row-major. -/
def Tile.elem (x : Tile) (i : Nat) : W32 := x.values[i]?.getD 0
/-- Element (m, n). -/
def Tile.at_ (x : Tile) (m n : Nat) : W32 := x.elem (m * 128 + n)
/-- The tag of a row (R88). -/
def Tile.tag (x : Tile) (m : Nat) : W64 := x.tags[m]?.getD 0
/-- The flags word (R225). -/
def Tile.flags (x : Tile) : W64 :=
  w64 (x.cnt * 2 ^ 8 + x.closed.toNat * 4 + x.poison.toNat * 2 + x.tent.toNat)
/-- All 4,096 values, made by position. -/
def tileOf (f : Nat → Nat → W32) : List W32 :=
  (List.range 32).flatMap fun m => (List.range 128).map fun n => f m n

/-! ### Products (R227, R37, R39, R43, R49) -/

/-- A block of an operand: its integers and scale, or its BF16 values. -/
structure Block where
  ints  : List Int := []
  scale : Nat := 0
  nums  : List Num := []

/-- The value of an element as its format reads it (R49, R34). -/
def Block.value (b : Block) (bf16 : Bool) (i : Nat) : Num :=
  if bf16 then b.nums[i]?.getD (.fin false 0 0)
  else if b.scale = 255 then .nan false
  else
    let q := b.ints[i]?.getD 0
    .fin (decide (q < 0)) q.natAbs ((b.scale : Int) - 127)

/-- The integers of an RN8 line, or of a block of an RN4 line (R36), and whether one is void. -/
def residueInts (n : Nat) (raw : Nat) : List Int × Bool :=
  let qs := (List.range 256).map fun i => fld raw (n * i) n
  (qs.map (residueVal n), qs.any fun q => q == 2 ^ (n - 1))

/-- The BF16 values of a line, in order. -/
def bf16Nums (raw : Nat) : List Num := (List.range 128).map fun i => ofBits (fld raw (16 * i) 16 * 2 ^ 16)

/-- Chunk c of row x of an operand of type ty (0 RN8, 1 RN4, 2 BF16), from the key of its slot (R226), and whether
an element is void. -/
def State.block (s : State) (ty key kc x c : Nat) : Block × Bool :=
  match ty with
  | 0 =>
    let k := key + (x * kc + c) * 256
    let r := residueInts 8 (Mem.readN s.mem k 256)
    ({ ints := r.1, scale := fld (s.sideOf k).toNat 8 8 }, r.2)
  | 1 =>
    let k := key + (x * (kc / 2) + c / 2) * 256
    let r := residueInts 4 (Mem.readN s.mem (k + 128 * (c % 2)) 128)
    ({ ints := r.1, scale := fld (s.sideOf k).toNat (8 + 8 * (c % 2)) 8 }, r.2)
  | _ =>
    let k := key + (x * (2 * kc) + 2 * c) * 256
    ({ nums := bf16Nums (Mem.readN s.mem k 256) ++ bf16Nums (Mem.readN s.mem (k + 256) 256) }, false)

/-- The FMT a type requires (R226, R53). -/
def fmtOfType (ty : Nat) : Nat := match ty with | 0 => 1 | 1 => 2 | _ => 0x10

/-- The check of n bytes of an operand line: its error, or whether it counts as poisoned (R227, R311). -/
def State.operandLine (s : State) (fmt : Option Nat) (k n : Nat) (va : W64) : Except Exc Bool :=
  let sb := s.sideOf k
  if !(fld sb.toNat 26 6 == 0) then .error (format va)
  else if sb.getLsbD 25 || s.badIn k n then .ok true
  else
    match fmt with
    | some f => if fld sb.toNat 0 8 = f then .ok false else .error (format va)
    | none => if fmtKnown (fld sb.toNat 0 8) then .ok false else .error (format va)

/-- Checks the operand lines of a slot: the first poisoned one, if any. -/
def State.operandLines (s : State) (j : Job) (fmt : Option Nat) : List W64 → Except Exc (Option W64 × State)
  | [] => .ok (none, s)
  | va :: vs =>
    match s.resolve j.g va { rd := true } with
    | .error e => .error e
    | .ok k =>
      match s.trackLine j.g j.agent k false va with
      | .error e => .error e
      | .ok t =>
        match s.operandLine fmt k 256 va with
        | .error e => .error e
        | .ok p =>
          match State.operandLines (if s.badIn k 256 then t.consume k else t) j fmt vs with
          | .error e => .error e
          | .ok (q, u) => .ok (if p then some va else q, u)

/-- A place an outlier list may lie in (R48): a scratchpad of the partition in this cluster, or shared memory. -/
def State.listPlace (s : State) (g : Nat) (va : W64) (n : Need) : Except Exc Nat :=
  if inDevice va.toNat || inAperture va.toNat then .error (access va) else s.resolve g va n

/-- Reads n outlier entries from an address (R48, R49): index and value, and the first poisoned line met. -/
def State.entries (s : State) (j : Job) : Nat → W64 → Except Exc (List (Nat × Num) × Option W64 × State)
  | 0, _ => .ok ([], none, s)
  | n + 1, va =>
    match s.listPlace j.g va { rd := true } with
    | .error e => .error e
    | .ok k =>
      match s.track j.g j.agent k 8 false va with
      | .error e => .error e
      | .ok t =>
        match s.operandLine none k 8 va with
        | .error e => .error e
        | .ok p =>
          match State.entries (if s.badIn k 8 then t.consume k else t) j n (va + 8) with
          | .error e => .error e
          | .ok (es, q, u) =>
            let v := Mem.readN s.mem k 8
            .ok ((fld v 0 32, ofBits (fld v 32 32)) :: es, if p then some va else q, u)

/-- The outlier entries a product applies (R49), by the descriptor in the slot's last line. -/
def State.outliers (s : State) (j : Job) (desc : Nat) (va : W64) : Except Exc (List (Nat × Num) × Option W64 × State) :=
  match listDesc desc with
  | none => .error (format va)
  | some (count, cap, base) => s.entries j (min count cap) (w64 base)

/-- The chunk of row m, column n, with its outliers (R37, R39, R49). -/
def chunkAt (bf16 : Bool) (np k m c : Nat) (a b : Block) (outs : List (Nat × Num)) : W32 :=
  let v := if bf16 then bf16Chunk (if np = 2 then 24 else 40) a.nums b.nums else residueChunk a.ints b.ints a.scale b.scale
  (outs.filter fun o => o.1 / k == m && o.1 % k / 256 == c).foldl (fun (v : W32) o =>
    BitVec.ofNat 32 (fpFma rneF32 o.2 (b.value bf16 (o.1 % k % 256)) (ofBits v.toNat)).bits) v

/-- A list of blocks, by row and chunk, and whether one holds a void element. -/
def State.blocks (s : State) (ty key kc rows : Nat) : List (List Block) × Bool :=
  let bs := (List.range rows).map fun x => (List.range kc).map fun c => s.block ty key kc x c
  (bs.map fun r => r.map (·.1), bs.any fun r => r.any (·.2))

/-- A block of a table. -/
def blockAt (bs : List (List Block)) (x c : Nat) : Block := ((bs[x]?).getD [])[c]?.getD {}

/-- A product on the slots it reads (R227). -/
def runMma (j : Job) (kind : Fin 5) (d : TReg) (init ol : Bool) (kc np : Nat) (la lb : List W64) (s : State) : Ran :=
  let t := s.tile j.g d
  let first := init || (t.cnt == 0 && !t.closed)
  if !first && (t.closed || decide (16 < t.cnt + kc)) then { s := s, err := some (format 0) }
  else
    let na := la.length - ol.toNat
    .with s (s.operandLines j (some (fmtOfType (aLines kind))) (la.take na)) fun (pa, s) =>
      .with s (s.operandLines j none (la.drop na)) fun (po, s) =>
        .with s (s.operandLines j (some (fmtOfType (bLines kind))) lb) fun (pb, s) =>
          let ka := vkey j.g (la.headD 0)
          let kb := vkey j.g (lb.headD 0)
          .with s (if ol then s.outliers j (Mem.readN s.mem (ka + na * 256) 16) ((la.drop na).headD 0) else .ok ([], none, s)) fun (outs, pe, s) =>
            let a := s.blocks (aLines kind) ka kc 32
            let b := s.blocks (bLines kind) kb kc 128
            let bf16 : Bool := kind == 4
            let elem (m n : Nat) : W32 :=
              (List.range kc).foldl (fun (v : W32) c =>
                let x := chunkAt bf16 np (256 * kc) m c (blockAt a.1 m c) (blockAt b.1 n c) outs
                if first && c == 0 then x else addF32 v x) (t.at_ m n)
            let bad := ((pa.orElse fun _ => po).orElse fun _ => pe).orElse fun _ => pb
            let t' := { t with
              vals := tileOf elem
              cnt := (if first then 0 else t.cnt) + kc
              closed := if first then false else t.closed
              err := if first then [] else t.err
              poison := (if first then false else t.poison) || bad.isSome }
            let s := s.setTile j.g d t'
            { s := match bad with | some va => j.note s 8 va | none => s
              void := a.2 || b.2 }

/-! ### Accumulator operations (R230-R232) -/

/-- BF16 of a value, with the canonical NaN (R230, R33). -/
def toBf16 (x : W32) : Nat := (rneBf16.wr (ofBits x.toNat)).bits / 2 ^ 16

/-- A line of acc.st: its bytes (R230). -/
def tileLine (t : Tile) (bf16 : Bool) (i : Nat) : List Byte :=
  if bf16 then (List.range 128).flatMap fun n => toBytes 2 (toBf16 (t.at_ i n))
  else (List.range 64).flatMap fun n => toBytes 4 (t.at_ (i / 2) (64 * (i % 2) + n)).toNat

/-- acc.st into the lines of the slot it has claimed; `write` is off when a replay runs a retired one again. -/
def runAccSt (j : Job) (a : TReg) (bf16 clr write : Bool) (lines : List W64) (s : State) : Ran :=
  let t := s.tile j.g a
  if t.tent then { s := s, err := some (format 0) }
  else
    let sb : W32 := (if bf16 then 0x10 else 0x11) + (if t.poison then poisonBit else 0)
    let items := if write then (lines.take (if bf16 then 32 else 64)).zipIdx else []
    (Ran.each (fun (p : W64 × Nat) s => .with s (s.dstLine j p.1 (tileLine t bf16 p.2) sb) fun s => { s := s }) items s).andThen
      fun s => { s := if clr then s.setTile j.g a {} else s }

/-- acc.add (R231). -/
def runAccAdd (j : Job) (d a b : TReg) (s : State) : Ran :=
  let x := s.tile j.g a
  let y := s.tile j.g b
  if (s.tile j.g d).tent || x.tent || y.tent then { s := s, err := some (format 0) }
  else
    { s := s.setTile j.g d { s.tile j.g d with
        vals := tileOf fun m n => addF32 (x.at_ m n) (y.at_ m n)
        cnt := 16, closed := true, poison := x.poison || y.poison, tent := false, err := [] } }

/-- tent.mark (R232). -/
def runTent (j : Job) (d : TReg) (addr : W64) (s : State) : Ran :=
  .with s (s.readBlk j addr 256) fun (v, s) =>
    let tags := (List.range 32).map fun m => fld v (64 * m) 64
    if tags.any fun x => decide (2 ^ 37 ≤ x) then { s := s, err := some (format addr) }
    else { s := s.setTile j.g d { s.tile j.g d with vals := (s.tile j.g d).values, tags := tags.map w64, tent := true } }

end Sys2Proof.Machine
end

