-- ==== Sys2Proof/Machine/Resolve.lean ====
section
/-! DEFINITION. Resolve (R94-R98, R233): the block, the commit loop and the final pass. -/

namespace Sys2Proof.Machine

/-- A resolve block's fields (R233). -/
structure ResolveBlock where
  res    : Nat
  cdesc  : Nat
  regd   : Nat
  gbase  : Nat
  dbase  : Nat
  dcount : Nat
  step   : Nat
  layer  : Nat
  ptb    : Nat

/-- A resolve block from its 512 bits, none where a reserved bit is set. -/
def resolveBlock (v : Nat) : Option ResolveBlock :=
  if fld v 448 8 = 0 ∧ fld v 384 8 = 0 ∧ fld v 320 8 = 0 ∧ fld v 256 8 = 0 ∧ fld v 192 8 = 0 ∧ fld v 132 6 = 0 ∧ fld v 0 72 = 0 then
    some { res := fld v 456 56, cdesc := fld v 392 56, regd := fld v 328 56, gbase := fld v 264 56, dbase := fld v 200 56,
           dcount := fld v 160 32, step := fld v 144 16, layer := fld v 138 6, ptb := fld v 72 56 }
  else none

/-- SEM of a resolve block. -/
def resolveSem (v : Nat) : Reg16 := idx 16 (fld v 128 4)

/-- The alignments of a block's fields; CDESC only under `final`. -/
def ResolveBlock.aligned (b : ResolveBlock) (final : Bool) : Option Exc :=
  orElse (alignChk (w64 b.res) 16) <| orElse (if final then alignChk (w64 b.cdesc) 16 else none) <|
    orElse (alignChk (w64 b.regd) 256) <| orElse (alignChk (w64 b.gbase) 128) <|
      orElse (alignChk (w64 b.dbase) 16) (alignChk (w64 b.ptb) 256)

/-- A range lies in the partition's slices, or ACCESS. -/
def State.inSlices (s : State) (part a len : Nat) : Option Exc :=
  if s.sharedOk part a (max 1 len) then none else some (access (w64 a))

/-- The places of a block's fields; RES may lie in the core's scratchpad. -/
def State.resolvePlaces (s : State) (g part : Nat) (b : ResolveBlock) (final : Bool) : Option Exc :=
  orElse (if inShared b.res 16 then s.inSlices part b.res 16 else s.ownRange g (w64 b.res) 16 { w := true }) <|
    orElse (if final then s.inSlices part b.cdesc 16 else none) <|
      orElse (s.inSlices part b.regd 512) <| orElse (s.inSlices part b.gbase 128) <|
        orElse (s.inSlices part b.dbase (16 * b.dcount)) (s.inSlices part b.ptb ptSize)

/-- The header of a layer slot, as a proofer or a resolve uses it (R84). -/
def State.ptHeader (s : State) (base l : Nat) : Except Exc Nat :=
  let a := ptHead base l
  match s.bankErr a 16 with
  | some e => .error e
  | none =>
    let h := s.shRd a 16
    if fld h 48 1 = 0 then .error (access (w64 a))
    else if ptHeadOk (fld h 0 64) then .ok h else .error (format (w64 a))

/-- A decision-list entry (R93). -/
structure Decision where
  token  : Nat
  expert : Nat
  weight : W32
  conf   : Bool
  redo   : Bool

/-- The address of entry i. -/
def ResolveBlock.entry (b : ResolveBlock) (i : Nat) : Nat := b.dbase + 16 * i

/-- An entry of D as it is read: reserved bits raise FORMAT. A poisoned line of D raises POISON, where R312's list of readers
does not name it, and the predictor's, region's and correction descriptor's lines do not: the model's choice (log 95). -/
def State.decision (s : State) (a : Nat) : Except Exc Decision :=
  match s.engineErrAt a 16 with
  | some e => .error e
  | none =>
    if s.poisoned (shKey a) then .error (poisonExc (w64 a))
    else
      let v := s.shRd a 16
      if fld v 96 32 = 0 ∧ fld v 50 14 = 0 then
        .ok { token := fld v 0 24, expert := fld v 24 12, weight := BitVec.ofNat 32 (fld v 64 32)
              conf := fld v 48 1 == 1, redo := fld v 49 1 == 1 }
      else .error (format (w64 a))

/-- Whether a weight is +0 or -0. -/
def zeroWeight (w : W32) : Bool := fld w.toNat 0 31 == 0

/-- The first entry of D with a token and an expert: its position and contents. -/
def State.findDecision (s : State) (b : ResolveBlock) (token expert : Nat) : Nat → Nat → Except Exc (Option (Nat × Decision))
  | 0, _ => .ok none
  | n + 1, i =>
    match s.decision (b.entry i) with
    | .error e => .error e
    | .ok d => if d.token = token ∧ d.expert = expert then .ok (some (i, d)) else s.findDecision b token expert n (i + 1)

/-- Sets bits of an entry. -/
def State.setDecision (s : State) (a bit : Nat) : State := s.shWr a 8 (s.shRd a 8 ||| 2 ^ bit)

/-- A step of a resolve: the state, its progress, and the fault that stopped it. -/
structure RowStep where
  s   : State
  n   : Resolving
  err : Option Exc := none

/-- A near-memory update of a PT entry (R85) that the engine has its bank unit make: it faults as an engine's read of the
line does (R53, R97). -/
def State.ptUpdate (s : State) (b : ResolveBlock) (e : Nat) (hit : Bool) : Except Exc State :=
  match s.engineErrAt (ptEntry b.ptb b.layer e) 4 with
  | some x => .error x
  | none => .ok (s.ptCount b.ptb b.layer e hit)

/-- The insertions of a committed row, column by column. -/
def commitRow (part : Nat) (b : ResolveBlock) (r : Region) (token expert : Nat) (w : W32) (t : Tile) (row : Nat) :
    List Nat → State → State × Option Exc
  | [], s => (s, none)
  | c :: cs, s =>
    let a := b.gbase + (token * 128 + c) * 128
    if !s.sharedOk part a 128 then (s, some (access (w64 a)))
    else
      let x := s.cellInsert a r { op := 1, step := b.step, src := expert, x := mulF32 w (t.at_ row c) }
      match x.r with
      | .error e => (x.s, some e)
      | .ok _ => commitRow part b r token expert w t row cs x.s

/-- Reading a row consumes an error of it: the tile is poisoned from that row on (R98). No record is posted, for which R98
has no word: the model's choice (log 97). -/
def State.readRow (s : State) (g : Nat) (d : TReg) (row : Nat) : State :=
  let t := s.tile g d
  if t.err.contains row then
    (s.setTile g d { t with poison := true, err := t.err.filter fun r => !(r == row) }).fill (.cluster (cidOf g)) .uncorrectable
  else s

/-- The region as a resolve reads it (R94, R97): the checks of its descriptor, and the side bands of its lines (R53). -/
def State.engineRegion (s : State) (a : Nat) : Except Exc Region :=
  match s.region a with
  | .error e => .error e
  | .ok r =>
    match s.sidesErr (shKey a) (16 + 4 * r.srcs.length) (w64 a) with
    | some e => .error e
    | none => .ok r

/-- A layer's header as an engine reads it (R84, R97). -/
def State.engineHeader (s : State) (ptb layer : Nat) : Except Exc Nat :=
  match s.engineErrAt (ptHead ptb layer) 16 with
  | some e => .error e
  | none => s.ptHeader ptb layer

/-- The row that a resolve has come to (R94); a fault names it in its detail (R98). -/
def resolveRow (g part : Nat) (d : TReg) (b : ResolveBlock) (n : Resolving) (s : State) : RowStep :=
  let row := n.row
  let n := { n with row := row + 1 }
  let stop (s : State) (e : Exc) : RowStep :=
    { s := s, n := n, err := some (e.at_ fun a x => (a, x ||| row)) }
  let tag := ((s.tile g d).tag row).toNat
  let token := fld tag 0 24
  let expert := fld tag 24 12
  if fld tag 36 1 == 0 then { s := s, n := n }
  else
    match s.findDecision b token expert b.dcount 0 with
    | .error e => stop s e
    | .ok none =>
      match s.ptUpdate b expert false with
      | .error e => stop s e
      | .ok s => { s := s, n := { n with squashed := n.squashed + 1 } }
    | .ok (some (i, x)) =>
      match s.ptUpdate b expert true with
      | .error e => stop s e
      | .ok s =>
        let s := s.setDecision (b.entry i) 48
        if x.conf then { s := s, n := { n with squashed := n.squashed + 1, dups := n.dups + 1 } }
        else if zeroWeight x.weight then { s := s, n := { n with squashed := n.squashed + 1 } }
        else
          let s := s.readRow g d row
          if (s.tile g d).poison then { s := s.setDecision (b.entry i) 49, n := { n with redo := n.redo + 1 } }
          else
            match s.engineRegion b.regd with
            | .error e => stop s e
            | .ok r =>
              match commitRow part b r token expert x.weight (s.tile g d) row (List.range 128) s with
              | (s, some e) => stop s e
              | (s, none) => { s := s, n := { n with commits := n.commits + 1 } }

/-- A correction list's descriptor (R95): 16-byte entries, so BASE bit 3 is zero. -/
def State.corrList (s : State) (a : Nat) : Except Exc (Nat × Nat × Nat) :=
  match s.engineErrAt a 16 with
  | some e => .error e
  | none =>
    match listDesc (s.shRd a 16) with
    | none => .error (format (w64 a))
    | some (n, cap, base) => if fld base 3 1 = 1 then .error (format (w64 a)) else .ok (n, cap, base)

/-- Appends an entry to the correction list: beyond CAP it is counted only (R95). -/
def State.appendCorr (s : State) (part cdesc v : Nat) : Except Exc State :=
  match s.corrList cdesc with
  | .error e => .error e
  | .ok (n, cap, base) =>
    let t := s.shWr (cdesc + 12) 4 (n + 1)
    if cap ≤ n then .ok t
    else if !s.sharedOk part (base + 16 * n) 16 then .error (access (w64 (base + 16 * n)))
    else .ok (t.shWr (base + 16 * n) 16 v)

/-- The entries of D in a final pass (R95). -/
def finalEntries (part : Nat) (b : ResolveBlock) : List Nat → State → State × Option Exc
  | [], s => (s, none)
  | i :: is, s =>
    match s.decision (b.entry i) with
    | .error e => (s, some e)
    | .ok d =>
      if !zeroWeight d.weight && (!d.conf || d.redo) then
        match s.appendCorr part b.cdesc (s.shRd (b.entry i) 16) with
        | .error e => (s, some e)
        | .ok s =>
          if d.conf then finalEntries part b is s
          else
            match s.ptUpdate b d.expert false with
            | .error e => (s, some e)
            | .ok s => finalEntries part b is s
      else finalEntries part b is s

/-- Whether D holds an entry of an expert with a weight that is not zero. -/
def State.confirms (s : State) (b : ResolveBlock) (expert : Nat) : Bool :=
  (List.range b.dcount).any fun i => match s.decision (b.entry i) with
    | .ok d => d.expert == expert && !zeroWeight d.weight
    | .error _ => false

/-- The held faults of the layer in a final pass (R95). -/
def State.endHeld (s : State) (b : ResolveBlock) : Except Exc State :=
  match orElse (s.engineErrAt (ptHeld b.ptb b.layer 0) 128) (s.engineErrAt (ptHead b.ptb b.layer) 16) with
  | some e => .error e
  | none =>
    let s := (List.range 8).foldl (fun s h =>
      let a := ptHeld b.ptb b.layer h
      let v := s.shRd a 16
      if fld v 0 1 = 0 then s
      else
        let at_ := ptHead b.ptb b.layer + (if s.confirms b (fld v 36 12) then 8 else 12)
        (s.shWr at_ 4 (s.shRd at_ 4 + 1)).shWr a 1 (fld v 0 8 / 2 * 2)) s
    let h := s.shRd (ptHead b.ptb b.layer) 8
    .ok (s.shWr (ptHead b.ptb b.layer) 8 (h - fld h 49 1 * 2 ^ 49))

/-- The 16-byte result (R96). -/
def Resolving.bits (n : Resolving) (corr : Nat) : Nat :=
  n.commits + n.squashed * 2 ^ 32 + n.dups % 2 ^ 16 * 2 ^ 64 + n.redo % 2 ^ 16 * 2 ^ 80 + corr * 2 ^ 96

/-- Writes the result (R96). -/
def State.writeResult (s : State) (j : Job) (res v : Nat) : Ran :=
  if inShared res 16 then { s := s.shWr res 16 v }
  else
    .with s (s.track j.g j.agent (vkey j.g (w64 res)) 16 true (w64 res)) fun s => { s := s.store (vkey j.g (w64 res)) 16 v }

/-- The start of rslv (R233): its block is read once, and checked; its rows follow one by one (R98). -/
def startResolve (j : Job) (d : TReg) (blk : W64) (final : Bool) (s : State) : Ran :=
  let part := ((s.core j.g).ctx.getD {}).part
  .with s (s.readBlk j blk 64) fun (v, s) =>
    match resolveBlock v with
    | none => { s := s, err := some (format blk) }
    | some b =>
      match orElse (b.aligned final) (s.resolvePlaces j.g part b final) with
      | some e => { s := s, err := some e }
      | none =>
        if !(s.tile j.g d).tent then { s := s, err := some (format 0) }
        else
          .with s (s.engineHeader b.ptb b.layer) fun _ =>
            .with s (if final then s.corrList b.cdesc else .ok (0, 0, 0)) fun _ =>
              .with s (s.engineRegion b.regd) fun _ => { s := s }

/-- What follows the last row (R88, R95, R96): the final pass, the end of the tile, and the result. -/
def endResolve (j : Job) (part : Nat) (d : TReg) (final : Bool) (b : ResolveBlock) (n : Resolving) (s : State) : Ran :=
  match (if final then finalEntries part b (List.range b.dcount) s else (s, none)) with
  | (s, some e) => { s := s, err := some e }
  | (s, none) =>
    .with s (if final then s.endHeld b else .ok s) fun s =>
      let corr := if final then (match s.corrList b.cdesc with | .ok (n, _, _) => n | .error _ => 0) else 0
      (s.setTile j.g d {}).writeResult j b.res (n.bits corr)

/-! ### Known-answer test (R234) -/

/-- The rest of x modulo m as the A operand of a known-answer test. -/
def katA (p m k : Nat) : Int := ((37 * m + 11 * k + 101 * p) % 255 : Nat) - 127
/-- The same of the B operand. -/
def katB (p k n : Nat) : Int := ((53 * n + 7 * k + 13 * p) % 255 : Nat) - 127
/-- Element (m, n) of the product. -/
def katElem (p m n : Nat) : W32 :=
  residueChunk ((List.range 256).map fun k => katA p m k) ((List.range 256).map fun k => katB p k n) 127 127

/-- One bit of a reflected CRC with polynomial `poly`. -/
def crcBit (poly : Nat) (x : Nat) : Nat := if x % 2 = 1 then (x / 2) ^^^ poly else x / 2
/-- One byte of a reflected CRC. -/
def crcByte (poly : Nat) (crc : Nat) (b : Byte) : Nat := (List.range 8).foldl (fun x _ => crcBit poly x) (crc ^^^ b.toNat)
/-- CRC-32 of R234. -/
def crc32 (bs : List Byte) : Nat := (bs.foldl (crcByte 0xEDB88320) 0xFFFFFFFF) ^^^ 0xFFFFFFFF
/-- CRC-64 of R66. -/
def crc64 (bs : List Byte) : Nat := (bs.foldl (crcByte 0xC96C5795D7870F42) 0xFFFFFFFFFFFFFFFF) ^^^ 0xFFFFFFFFFFFFFFFF

/-- The signature of pattern p (R234). -/
def katSignature (p : Nat) : Nat :=
  crc32 ((List.range 32).flatMap fun m => (List.range 128).flatMap fun n => toBytes 4 (katElem p m n).toNat)

end Sys2Proof.Machine
end

