-- ==== Sys2Proof/Machine/EngineEvents.lean ====
section
/-! DEFINITION. The steps of engine commands: start, retirement, replay, known-answer tests and stealing (R60, R144,
R215, R216, R234, R235). -/

namespace Sys2Proof.Machine

/-! ### What a command waits for -/

/-- Slots of ring q that earlier commands in command order will pop (R60). -/
def Core.ahead (c : Core) (q : Reg16) (order : Nat) : Nat :=
  ((c.commands.filter fun x => decide (x.order < order)).map fun x =>
    (x.cmd.consumes.filter fun e => e.1 == q && !e.2).length).sum

/-- The rings a command consumes with the place, past HEAD, of the slot it reads (R60, R226). -/
def consumerPlaces (c : Core) (order : Nat) : List (Reg16 × Bool) → List (Reg16 × Bool) → List (Reg16 × Nat)
  | _, [] => []
  | before, (q, keep) :: rest =>
    (q, c.ahead q order + (before.filter fun e => e.1 == q && !e.2).length)
      :: consumerPlaces c order (before ++ [(q, keep)]) rest

/-- The same of a queued command. -/
def Core.places (c : Core) (x : QCmd) : List (Reg16 × Nat) := consumerPlaces c x.order [] x.cmd.consumes

/-- Its input slots are filled and its output ring has a free slot (R60, R215). -/
def State.ringsReady (s : State) (g : Nat) (x : QCmd) : Bool :=
  ((s.core g).places x).all (fun p => decide (p.2 < (s.ring g p.1).filled))
    && (match x.cmd.produces g with | some (k, q) => decide (1 ≤ (s.ring k q).free) | none => true)

/-- The tiles whose values a command reads. -/
def State.readsTiles (s : State) (g : Nat) : Cmd → List TReg
  | .mma _ d _ _ init _ _ _ _ _ _ => if init || ((s.tile g d).cnt == 0 && !(s.tile g d).closed) then [] else [d]
  | .accSt _ a _ _ => [a]
  | .accAdd _ a b => [a, b]
  | _ => []

/-- The tiles a command writes. -/
def Cmd.writesTiles : Cmd → List TReg
  | .mma _ d _ _ _ _ _ _ _ _ _ => [d]
  | .accSt _ a _ clr => if clr then [a] else []
  | .accAdd d _ _ => [d]
  | .accZero d => [d]
  | .tent d _ => [d]
  | .rslv d _ _ => [d]
  | _ => []

/-- An uncorrectable error that the command would consume in the engine: a replay comes first (R216). -/
def State.engineErr (s : State) (g : Nat) (q : Queue) (x : QCmd) : Bool :=
  ((s.core g).queue q).err || (s.readsTiles g x.cmd).any fun t => !(s.tile g t).err.isEmpty

/-- A line that a copy command accesses: its location, whether it writes it, and the ring whose slot it lies in. -/
structure Touch where
  key   : Nat
  write : Bool
  ring  : Option (Nat × Reg16) := none

/-- The location of an address as core g reaches it: its own window is its scratchpad (R50, R67). -/
def State.locOf (s : State) (g : Nat) (va : W64) : Nat :=
  match s.resolve g va {} with
  | .ok k => k / 256 * 256
  | .error _ => 2 ^ 66 + va.toNat / 256 * 256

/-- Lines at addresses. -/
def State.touchAll (s : State) (g : Nat) (write : Bool) (ring : Option (Nat × Reg16)) (vas : List W64) : List Touch :=
  vas.map fun va => { key := s.locOf g va, write := write, ring := ring }

/-- The lines from which a copy command takes the addresses of the others: a gather's descriptor and index list, a weight
fetch's table entry (R63, R65, R222). -/
def State.namingTouches (s : State) (g : Nat) : Cmd → List Touch
  | .gath _ desc =>
    let v := Mem.readN s.mem (vkey g desc) 32
    s.touchAll g false none (desc :: packedLines (w64 (fld v 136 56 / 256 * 256)) (min (fld v 192 32) 4096 / 64 + 2))
  | .copyWt _ _ w _ _ =>
    (match s.weightEntry g w with
      | .ok ea => s.touchAll g false none [ea]
      | .error _ => [])
  | _ => []

/-- The rows that a gather descriptor names as it stands (R63, R222). -/
def State.gatherRows (s : State) (g : Nat) (desc : W64) : List Touch :=
  let v := Mem.readN s.mem (vkey g desc) 32
  let list := vkey g (w64 (fld v 136 56))
  s.touchAll g false none ((List.range (min (fld v 192 32) 4096)).flatMap fun i =>
    let x := Mem.readN s.mem (list + 4 * i) 4
    if x = 2 ^ 32 - 1 then []
    else packedLines (w64 (fld v 72 56 + x * fld v 224 32 * 256)) (min (fld v 0 10) 512))

/-- The lines of the slot a command that has not started would claim next, and of those it would read (R60). -/
def State.slotTouches (s : State) (g : Nat) (x : QCmd) : List Touch :=
  let out := match x.cmd.produces g with
    | some (k, q) =>
      let before := ((s.core g).commands.filter fun y => decide (y.order < x.order) && !y.started && y.cmd.produces g == some (k, q)).length
      let r := s.ring k q
      s.touchAll g true (some (k, q)) (s.slotLines g k q (r.step r.claimed before % r.n) r.ssz)
    | none => []
  out ++ ((s.core g).places x).flatMap fun p =>
    let r := s.ring g p.1
    s.touchAll g false (some (g, p.1)) (s.slotLines g g p.1 (r.step r.head p.2 % r.n) r.ssz)

/-- The lines a copy command will access (R78 item 3): on its memory side, and in its slots. -/
def State.touches (s : State) (g : Nat) (x : QCmd) : List Touch :=
  (match x.cmd with
    | .copyIn _ _ base cw => s.touchAll g false none (memLines base cw)
    | .copyOut _ _ base cw => s.touchAll g true none (memLines base cw)
    | .copyWt _ _ w cw _ =>
      (match s.shardOf g w with
        | .ok (base, _, _, _) => s.touchAll g false none (memLines (base + w64 (bf w 32 32 * 256)) cw)
        | .error _ => [])
    | .copyMm src dst cw => s.touchAll g false none (memLines src cw) ++ s.touchAll g true none (packedLines dst (cwRows cw * cwW cw))
    | .gath _ desc => s.gatherRows g desc
    | .lineSet _ first n => s.touchAll g true none (packedLines first n)
    | _ => []) ++ s.namingTouches g x.cmd ++ s.slotTouches g x

/-- Two copy commands access a common location and one writes it; the slots of one ring are ordered by the ring's own
rules (R60, R235). -/
def touchesMeet (xs ys : List Touch) : Bool :=
  xs.any fun x => ys.any fun y => x.key == y.key && (x.write || y.write) && !(x.ring.isSome && x.ring == y.ring)

/-- The copy commands of a core that have not started and come before a place in command order. -/
def State.copiesBefore (s : State) (g order : Nat) : List QCmd :=
  ((s.core g).lq.cmds ++ (s.core g).sq.cmds).filter fun y => decide (y.order < order) && !y.started

/-- A command that has not started may still get other addresses than its naming lines hold now: an earlier one that has not
started either writes such a line. -/
def State.unnamed (s : State) (g : Nat) (y : QCmd) : Bool :=
  (s.copiesBefore g y.order).any fun z => touchesMeet (s.touches g z) (s.namingTouches g y.cmd)

/-- An earlier copy command that has not started accesses a location of this one, or may come to access one (R78 item 3). -/
def State.copyHeld (s : State) (g : Nat) (q : Queue) (x : QCmd) : Bool :=
  match q with
  | .m => false
  | _ => (s.copiesBefore g x.order).any fun y => touchesMeet (s.touches g y) (s.touches g x) || s.unnamed g y

/-- A known-answer test, which holds nothing back (R234). -/
def Cmd.isKat : Cmd → Bool
  | .mkat _ _ => true
  | _ => false

/-- The command a queue would start next: the first that has not started (R215). -/
def EQueue.next (e : EQueue) : Option QCmd := e.cmds.find? fun x => !x.started && !x.cmd.isKat

/-- A resolve in progress holds back its queue (R98). -/
def EQueue.resolving (e : EQueue) : Bool := e.cmds.any fun x => x.resolve.isSome

/-- Nothing but another queue's claim holds back the next command of a queue. -/
def State.couldStart (s : State) (g : Nat) (q : Queue) (x : QCmd) : Bool :=
  s.ringsReady g x && !s.engineErr g q x && !s.copyHeld g q x && !((s.core g).queue q).resolving

/-- Another queue's next command claims a slot of the same ring, was issued earlier, and could start now: it claims first
(R235). -/
def State.claimHeld (s : State) (g : Nat) (x : QCmd) : Bool :=
  [Queue.l, .s, .m].any fun r =>
    match ((s.core g).queue r).next with
    | some y => decide (y.order < x.order) && (y.cmd.produces g).isSome && y.cmd.produces g == x.cmd.produces g && s.couldStart g r y
    | none => false

/-- The next command of a queue can start. -/
def State.canStart (s : State) (g : Nat) (q : Queue) (x : QCmd) : Bool := s.couldStart g q x && !s.claimHeld g x

/-- The engine of a queue runs (R23): a freeze stops a core's engines, but for the matrix engine where the freeze waits for
it, and the copy engine where the matrix queue's next command lacks a slot (log 22). -/
def State.engineRuns (s : State) (g : Nat) (q : Queue) : Bool :=
  match (s.core g).freeze with
  | none => true
  | some f => f.unit.matrix && (match q, (s.core g).mq.next with
    | .m, _ => true
    | _, some x => !s.ringsReady g x
    | _, none => false)

/-! ### Start -/

/-- Changes one queued command, or removes it. -/
def EQueue.update (e : EQueue) (order : Nat) (f : QCmd → Option QCmd) : EQueue :=
  { e with cmds := e.cmds.filterMap fun x => if x.order = order then f x else some x }

/-- Replaces a queue of core g. -/
def State.setQueue (s : State) (g : Nat) (q : Queue) (e : EQueue) : State := s.setCore g ((s.core g).setQueue q e)

/-- Who runs a queued command, and its index for records (R306). -/
def State.job (s : State) (g : Nat) (q : Queue) (x : QCmd) : Job :=
  { g := g, eng := x.cmd.engine, order := x.order, pc := x.pc
    index := match q with
      | .l => 0
      | .s => 1
      | .m => ((s.core g).mq.cmds.findIdx? fun y => y.order == x.order).getD 0 }

/-- Claims the command's output slot (R60). -/
def State.claimFor (s : State) (g : Nat) (x : QCmd) : State × QCmd :=
  match x.cmd.produces g with
  | some (k, q) => (s.claimRing k q 1, { x with claim := some (k, q, (s.ring k q).claimed) })
  | none => (s, x)

/-- The lines of the slot a command has claimed. -/
def State.claimLines (s : State) (g : Nat) (x : QCmd) : List W64 :=
  match x.claim with
  | some (k, q, t) => s.slotLines g k q (t % (s.ring k q).n) (s.ring k q).ssz
  | none => []

/-- The lines of the n-th slot it reads. -/
def State.readLines (s : State) (g : Nat) (x : QCmd) (n : Nat) : List W64 :=
  match x.reads[n]? with
  | some (q, slot) => s.slotLines g g q slot (s.ring g q).ssz
  | none => []

/-- Runs a command on the slots it has; `write` is off for a retired command that a replay runs again. -/
def State.runCmd (s : State) (j : Job) (x : QCmd) (write : Bool) : Ran :=
  let out := s.claimLines j.g x
  match x.cmd with
  | .copyIn _ _ base cw => Ran.each (copyLine j false) ((memLines base cw).zip out) s
  | .copyOut _ _ base cw => Ran.each (copyLine j false) ((s.readLines j.g x 0).zip (memLines base cw)) s
  | .copyWt _ _ w cw spec => runWeights j w cw spec (out.take (cwRows cw * cwW cw)) s
  | .copyMm src dst cw => Ran.each (copyLine j false) ((memLines src cw).zip (packedLines dst (cwRows cw * cwW cw))) s
  | .gath _ desc => runGather j desc out.length out s
  | .lineSet v first n => runLineSet j v first n s
  | .mma kind d _ _ init _ _ ol _ kc np => runMma j kind d init ol kc np (s.readLines j.g x 0) (s.readLines j.g x 1) s
  | .accSt _ a bf16 clr => runAccSt j a bf16 clr write out s
  | .accAdd d a b => runAccAdd j d a b s
  | .accZero d => { s := s.setTile j.g d {} }
  | .tent d addr => runTent j d addr s
  | .rslv d blk final => startResolve j d blk final s
  | .mark => { s := s }
  | .mkat _ _ => { s := s }

/-- The semaphore of `sig`: for a gather and a resolve the one their block names (R222, R233). -/
def State.sigOf (s : State) (g : Nat) (x : QCmd) : Option Reg16 :=
  match x.sig, x.cmd with
  | none, _ => none
  | some _, .gath _ desc => some (gatherSem (Mem.readN s.mem (vkey g desc) 32))
  | some _, .rslv _ blk _ => some (resolveSem (Mem.readN s.mem (vkey g blk) 64))
  | some a, _ => some a

/-- A tile-start marker (R216, R98): the window restarts with it, or after a resolve. -/
def Cmd.isMarker : Cmd → Bool
  | .mma _ _ _ _ init _ _ _ _ _ _ => init
  | .accZero _ => true
  | .rslv _ _ _ => true
  | .mark => true
  | _ => false

/-- The replay window after a command starts (R216): it keeps the last 64 commands, and each tile as it was at the
marker. -/
def Window.add (w : Window) (tile : TReg → Tile) (x : QCmd) : Window :=
  let w := if x.cmd.isMarker then {} else w
  match x.cmd with
  | .rslv _ _ _ => {}
  | .mark => {}
  | _ =>
    let tiles := x.cmd.writesTiles.foldl (fun (m : Map Tile) t => if (m.get? t.val).isSome then m else m.set t.val (tile t)) w.tiles
    let cmds := w.cmds ++ [x]
    if 64 < cmds.length then { w with cmds := cmds.drop 1, lost := true, tiles := tiles } else { w with cmds := cmds, tiles := tiles }

/-- The lines a copy command writes, as they are now: a side band alone for `line.set` (R216, R223). -/
def State.undoOf (s : State) (g : Nat) (q : Queue) (x : QCmd) : List (Nat × List Byte × W32) :=
  match q with
  | .m => []
  | _ =>
    let vas := match x.cmd with
      | .copyOut _ _ base cw => memLines base cw
      | .copyMm _ dst cw => packedLines dst (cwRows cw * cwW cw)
      | .lineSet _ first n => packedLines first n
      | _ => s.claimLines g x
    (vas.map (s.locOf g)).filterMap fun k =>
      if k < 2 ^ 66 && !isExt k then
        some (k, match x.cmd with | .lineSet _ _ _ => [] | _ => Mem.bytes s.mem k 256, s.sideOf k)
      else none

/-- The sibling that took a command is free again (R144). -/
def State.endSteal (s : State) (g : Nat) (x : QCmd) : State :=
  match x.sibling with
  | some k => s.setCore (cidOf g * 128 + k) { s.core (cidOf g * 128 + k) with steal := none }
  | none => s

/-- A weight fetch acquires from the commits of the slot it reads (R257). -/
def State.acquireWs (s : State) (g : Nat) (a : Agent) (x : Cmd) : State :=
  match x with
  | .copyWt _ _ _ _ _ =>
    let ctx := (s.core g).ctx.getD {}
    (match ctx.ws with
      | some n => s.acquire a 3 (.ws ctx.part n)
      | none => s)
  | _ => s

/-- A resolve that starts has its block and no row behind it (R98). -/
def State.progress (s : State) (g : Nat) (x : Cmd) : Option Resolving :=
  match x with
  | .rslv _ blk _ => some { block := BitVec.ofNat 512 (Mem.readN s.mem (vkey g blk) 64) }
  | _ => none

/-- Starts a command: it acquires, claims, and performs its accesses (R60, R78, R215). A fault is imprecise and stops
the node; a request that a port holds leaves it unstarted. -/
def State.startCmd (s : State) (g : Nat) (q : Queue) (x : QCmd) : State :=
  let j := s.job g q x
  let places := (s.core g).places x
  let slot (p : Reg16 × Nat) : Reg16 × Nat := (p.1, (s.ring g p.1).step (s.ring g p.1).head p.2 % (s.ring g p.1).n)
  let s := { s with asked := x.held }
  let x : QCmd := { x with sig := s.sigOf g x, reads := places.map slot, resolve := s.progress g x.cmd }
  let s1 := x.reads.foldl (fun s r => s.acquire j.agent 2 (.slot g r.1 r.2)) (s.acquireWs g j.agent x.cmd)
  let (s1, x) := s1.claimFor g x
  let x : QCmd := { x with undo := s1.undoOf g q x }
  let e := (s1.core g).queue q
  let s1 := s1.setQueue g q { e with window := e.window.add (s1.tile g) x }
  let r := s1.runCmd j x true
  match r.err with
  | some (.hold r) => s.setQueue g q (((s.core g).queue q).update x.order fun y => some { y with held := some r })
  | some e =>
    let t := r.s.setQueue g q (((r.s.core g).queue q).update x.order fun _ => none)
    ((t.endSteal g x).imprecise g j.unit j.index x.pc e (x.sibling.getD 0))
  | none =>
    let e := (r.s.core g).queue q
    match x.cmd with
    | .mark => (r.s.setQueue g q (e.update x.order fun _ => none)).raiseEvents g
    | _ => r.s.setQueue g q (e.update x.order fun _ => some { x with started := true, void := r.void, held := none })

/-- engine command start: a command that cannot start holds back its queue (R215); a frozen engine starts none (R23). -/
def execEngineCommandStart (g : Nat) (q : Queue) (s : State) : Host.Outcome State Fault Refusal :=
  match ((s.core g).queue q).next with
  | some x => .next (if s.engineRuns g q && s.canStart g q x then s.startCmd g q x else s)
  | none => .next s

/-! ### Retirement -/

/-- No earlier command that consumes one of the rings this command consumes is outstanding (R60). -/
def State.ringTurn (s : State) (g : Nat) (x : QCmd) : Bool :=
  !((s.core g).commands.any fun y => decide (y.order < x.order) &&
    x.cmd.consumes.any fun r => y.cmd.consumes.any fun z => z.1 == r.1)

/-- Retires a command whose slot, if it claimed one, has been committed (R215): pops, signals, ORs VOID and sets the
event bits. -/
def State.finishCmd (s : State) (g : Nat) (q : Queue) (x : QCmd) : State :=
  let a := (s.job g q x).agent
  let s := (x.cmd.consumes.filter fun e => !e.2).foldl (fun s e => s.setRing g e.1 ((s.ring g e.1).pop 1)) s
  let s := match x.sig with
    | some k => s.semAddTo a g k 1 false
    | none => s
  let s := s.setCore g ((s.core g).orVoid x.void)
  let s := match q with
    | .m => s
    | _ => s.release a 1 (.drain g q)
  (s.endSteal g x).raiseEvents g

/-- Retires a command (R215): a slot that software has committed already is a RING fault of the command (R59). -/
def State.retireCmd (s : State) (g : Nat) (q : Queue) (x : QCmd) : State :=
  let j := s.job g q x
  let s := s.setQueue g q (((s.core g).queue q).update x.order fun _ => none)
  match x.claim with
  | none => s.finishCmd g q x
  | some (k, r, t) =>
    match s.commitRing j.agent k r t 1 false with
    | some u => u.finishCmd g q x
    | none => (s.endSteal g x).imprecise g j.unit j.index x.pc ringExc (x.sibling.getD 0)

/-- A command that has started ends with a fault. -/
def State.failCmd (s : State) (g : Nat) (q : Queue) (x : QCmd) (e : Exc) : State :=
  let j := s.job g q x
  ((s.setQueue g q (((s.core g).queue q).update x.order fun _ => none)).endSteal g x).imprecise g j.unit j.index x.pc e
    (x.sibling.getD 0)

/-- A resolve in progress goes on (R94, R98): its next row, or after the last one its end and retirement. -/
def State.stepResolve (s : State) (g : Nat) (q : Queue) (x : QCmd) (n : Resolving) : State :=
  let part := ((s.core g).ctx.getD {}).part
  match x.cmd, resolveBlock n.block.toNat with
  | .rslv d _ final, some b =>
    if n.row < 32 then
      let r := resolveRow g part d b n s
      match r.err with
      | some e => r.s.failCmd g q x e
      | none => r.s.setQueue g q (((r.s.core g).queue q).update x.order fun y => some { y with resolve := some r.n })
    else
      let r := endResolve (s.job g q x) part d final b n s
      match r.err with
      | some e => r.s.failCmd g q x e
      | none => r.s.retireCmd g q x
  | _, _ => s.retireCmd g q x

/-- engine command retirement: in the order of its queue, and of its rings; a frozen engine retires none (R23). A resolve
takes its rows first. -/
def execEngineCommandRetire (g : Nat) (q : Queue) (s : State) : Host.Outcome State Fault Refusal :=
  match ((s.core g).queue q).cmds.find? fun x => !x.cmd.isKat with
  | some x =>
    if s.engineRuns g q && x.started && s.ringTurn g x then
      .next (match x.resolve with
        | some n => s.stepResolve g q x n
        | none => s.retireCmd g q x)
    else .next s
  | none => .next s

/-! ### Replay (R216) -/

/-- The commands issued to a queue since its marker: those started, and those waiting before the next marker. -/
def EQueue.windowSize (e : EQueue) : Nat :=
  e.window.cmds.length + ((e.cmds.filter fun x => !x.started && !x.cmd.isKat).takeWhile fun x => !x.cmd.isMarker).length

/-- A window that cannot be replayed. -/
def EQueue.unreplayable (e : EQueue) : Bool := e.window.lost || e.window.reused || decide (64 < e.windowSize)

/-- A command of the window has not retired. -/
def EQueue.unretired (e : EQueue) (x : QCmd) : Bool := e.cmds.any fun y => y.order == x.order

/-- The lines that unretired commands of a copy queue wrote are discarded: they hold what they held before (R216). -/
def State.discard (s : State) (xs : List QCmd) : State :=
  xs.reverse.foldl (fun s x => x.undo.foldl (fun s u =>
    if u.2.1.isEmpty then s.storeSide u.1 u.2.2 else s.setLine u.1 u.2.1 u.2.2) s) s

/-- Commands run again one after another; the one that faults, or whose request a port holds, is named. -/
def State.runAgain (s : State) (g : Nat) (q : Queue) (e : EQueue) : List QCmd → State × Option (QCmd × Exc)
  | [] => (s, none)
  | x :: xs =>
    let asked := (e.cmds.find? fun y => y.order == x.order).bind (·.held)
    let r := { s with asked := asked }.runCmd (s.job g q x) x (e.unretired x)
    match r.err with
    | some y => (r.s, some (x, y))
    | none => State.runAgain { r.s with asked := none } g q e xs

/-- Runs the window's commands again, in command order and on the same slots: of a copy queue those that have not
retired, after what they wrote is discarded; of the matrix queue all, on the tiles as they were at the marker. A speculative
fetch that runs again records its held fault again, for which R86 and R216 have no word: the model's choice (log 97). -/
def State.rerun (s : State) (g : Nat) (q : Queue) : State × Option (QCmd × Exc) :=
  let e := (s.core g).queue q
  match q with
  | .m => s.runAgain g q e e.window.cmds
  | _ => (s.discard (e.window.cmds.filter e.unretired)).runAgain g q e (e.window.cmds.filter e.unretired)

/-- A tile poisoned because its error cannot be replayed away. -/
def Tile.spoil (t : Tile) : Tile := { t with vals := t.values, poison := true, err := [] }

/-- The tile that an operation in flight reads, and the command order before which it reads it. -/
def Landing.tileAt : Landing → Option (TReg × Nat)
  | .accRd _ t _ _ b => some (t, b)
  | .accFlg _ t b => some (t, b)
  | _ => none

/-- An earlier matrix command that writes the tile has not retired (R78 item 5). -/
def Core.tileBusy (c : Core) (tile : TReg) (before : Nat) : Bool :=
  c.mq.cmds.any fun x => decide (x.order < before) && x.cmd.writesTiles.contains tile

/-- What a landing reads of a tile. -/
def Landing.tile (x : Landing) : Option TReg := x.tileAt.map (·.1)

/-- An operation is about to consume an error of tile t: the matrix queue's next command, unless a resolve holds it back
(R98), or a read that lands with no earlier command on the tile before it (R311, R78 item 5). -/
def State.consumesTile (s : State) (g t : Nat) : Bool :=
  let c := s.core g
  (match c.mq.next with
    | some x => !c.mq.resolving && s.ringsReady g x && (s.readsTiles g x.cmd).any fun r => r.val == t
    | none => false)
    || c.flight.any fun f => f.left == 0 && (match f.op.tileAt with
      | some (r, before) => r.val == t && !c.tileBusy r before
      | none => false)

/-- The tiles of core g with an error that is consumed. -/
def State.badTiles (s : State) (g : Nat) : List Nat :=
  (((s.core g).tiles.filter fun t => !t.2.err.isEmpty).map (·.1)).filter fun t => s.consumesTile g t

/-- Poisons tiles of a core. -/
def State.spoilTiles (s : State) (g : Nat) (ts : List Nat) : State :=
  s.setCore g { s.core g with tiles := ts.foldl (fun m t => m.set t (m.getD t {}).spoil) (s.core g).tiles }

/-- The command that consumes the error: the first of the queue (R306). -/
def EQueue.consumer (e : EQueue) : Option QCmd := e.cmds.find? fun x => !x.cmd.isKat

/-- engine replay: an error in a tile or in the engine's buffers is consumed (R311). One whose commands a port comes to hold
has not been made, and is tried again (R329). -/
def State.replay (s : State) (g : Nat) (q : Queue) : State :=
  let c := s.core g
  let e := c.queue q
  let bad := match q with | .m => s.badTiles g | _ => []
  if (!e.err || e.cmds.isEmpty) && bad.isEmpty then s
  else
    let j : Job := match e.consumer with
      | some x => s.job g q x
      | none => { g := g, eng := match q with | .m => 1 | _ => 0, order := 0, index := match q with | .s => 1 | _ => 0, pc := 0 }
    let written := e.window.tiles.map (·.1)
    let s0 := s
    let s := ((s.setQueue g q { e with err := false }).fill (.cluster (cidOf g)) .uncorrectable).fill (.cluster (cidOf g)) .replay
    if e.unreplayable then j.note (s.spoilTiles g (written ++ bad.filter fun t => !written.contains t)) 9 0
    else
      let outside := bad.filter fun t => !written.contains t
      let s := if outside.isEmpty then s else j.note (s.spoilTiles g outside) 9 0
      let s := s.setCore g { s.core g with tiles := e.window.tiles.foldl (fun m t => m.set t.1 t.2) (s.core g).tiles }
      match s.rerun g q with
      | (_, some (x, .hold r)) => s0.setQueue g q (e.update x.order fun y => some { y with held := some r })
      | (t, some (x, y)) => let k := t.job g q x; t.imprecise g k.unit k.index x.pc y (x.sibling.getD 0)
      | (t, none) =>
        let f := (t.core g).queue q
        t.setQueue g q { f with cmds := f.cmds.map fun y => if y.started then { y with held := none } else y }

/-- engine replay. -/
def execEngineReplay (g : Nat) (q : Queue) (s : State) : Host.Outcome State Fault Refusal :=
  .next (if s.engineRuns g q then s.replay g q else s)

/-! ### Known-answer tests (R234, R316) -/

/-- The matrix engine has no started command and none ready to start. -/
def State.matrixIdle (s : State) (g : Nat) : Bool :=
  let e := (s.core g).mq
  !(e.cmds.any fun x => x.started) && (match e.next with | some x => !s.canStart g .m x | none => true)

/-- known-answer test run. -/
def execKatTestRun (g : Nat) (s : State) : Host.Outcome State Fault Refusal :=
  match (s.core g).mq.cmds.find? fun x => x.cmd.isKat with
  | some x =>
    match x.cmd with
    | .mkat p expect =>
      if !(s.engineRuns g .m && s.matrixIdle g) then .next s
      else
        let j := s.job g .m x
        let t := (s.setQueue g .m ((s.core g).mq.update x.order fun _ => none)).raiseEvents g
        if katSignature p = expect.toNat then .next t
        else
          .next ((t.imprecise g 5 j.index x.pc (.fault 0x0A (expect.setWidth 64) (katSignature p))).fill
            (.cluster (cidOf g)) .kat)
    | _ => .next s
  | none => .next s

/-! ### Stealing (R144) -/

/-- A command that its encoding marks relocatable (R227). -/
def Cmd.relocatable : Cmd → Bool
  | .mma _ _ _ _ _ _ _ _ reloc _ _ => reloc
  | _ => false

/-- A core that runs no node, holds no preload and executes no stolen command. -/
def Core.idle (c : Core) : Bool := c.ctx.isNone && c.preload.isNone && c.steal.isNone

/-- command steal: a sibling of the cluster takes the next relocatable command before it starts. -/
def execCommandSteal (g sib : Nat) (s : State) : Host.Outcome State Fault Refusal :=
  let c := s.core g
  match c.mq.next with
  | some x =>
    if (c.ctx.getD {}).reloc && x.cmd.relocatable && x.sibling.isNone && decide (cidOf sib = cidOf g) && !(sib == g)
        && (s.core sib).idle then
      let t := s.setQueue g .m (c.mq.update x.order fun y => some { y with sibling := some (corOf sib) })
      .next (t.setCore sib { t.core sib with steal := some g })
    else .next s
  | none => .next s

end Sys2Proof.Machine
end

