-- ==== Sys2Proof/Machine/Landing.lean ====
section
/-! DEFINITION. What lands in the C stream (R21, R22, R45, R46, R206-R210, R229): the accesses of loads, stores and
residue conversions, the reads of tiles, and the writes of registers and flags. -/

namespace Sys2Proof.Machine

/-! ### Loads and stores (R207, R208) -/

/-- The first n lanes of a register replaced, the others kept (R192). -/
def Core.setLanes (c : Core) (r : VReg) (xs : List W32) : Core :=
  { c with v := c.v.set r.val (xs ++ (c.v.get r).drop xs.length) r.isLt }

/-- A list of accesses to the hazard checker, one after another (R67, R81). -/
def State.trackAll (s : State) (g z : Nat) (write : Bool) : List W64 → Except Exc State
  | [] => .ok s
  | va :: vas =>
    match s.track g (.seq (.core g .C)) (vkey g va) z write va with
    | .error e => .error e
    | .ok s => s.trackAll g z write vas

/-- The same of whole lines with their side bands. -/
def State.trackLines (s : State) (g : Nat) (write : Bool) : List W64 → Except Exc State
  | [] => .ok s
  | va :: vas =>
    match s.trackLine g (.seq (.core g .C)) (vkey g va) write va with
    | .error e => .error e
    | .ok s => s.trackLines g write vas

/-- An element as it is written to a lane (R191, R207). -/
def laneLoad (t : Fin 8) (v : Nat) : W32 :=
  match t.val with
  | 1 => BitVec.ofNat 32 (v * 2 ^ 16)
  | 4 | 5 => iwr t (v : Int)
  | _ => BitVec.ofNat 32 v

/-- The lanes of a load (R207, R208). -/
def State.landLoad (s : State) (g : Nat) (t : Fin 8) (eas : List W64) : Except Exc (List W32 × State) :=
  match s.trackAll g (sizeOfT t) false eas with
  | .error e => .error e
  | .ok s =>
    match firstFault (fun a => s.loadFault (vkey g a) (sizeOfT t) a) eas with
    | some e => .error e
    | none => .ok (eas.map fun a => laneLoad t (Mem.readN s.mem (vkey g a) (sizeOfT t)), s)

/-- A store (R207): poison of a line stays as it is (R208). -/
def State.landStore (s : State) (g : Nat) (t : Fin 8) (items : List (W64 × W32)) : Except Exc State :=
  match s.trackAll g (sizeOfT t) true (items.map (·.1)) with
  | .error e => .error e
  | .ok s => .ok (items.foldl (fun s x => s.store (vkey g x.1) (sizeOfT t) x.2.toNat) s)

/-! ### Residue loads (R209) -/

/-- One element of a residue line: its integer on b bits with scale E (R209). -/
def residueElem (md : Mode) (b q E : Nat) : Res :=
  if E = 255 then { bits := canonNan }
  else if fld q 0 b = 2 ^ (b - 1) then { bits := 0, flags := fVOID }
  else
    let v := sextN b q
    if v = 0 then { bits := 0 } else md.round (decide (v < 0)) v.natAbs ((E : Int) - 127) false

/-- Element e of a residue array that begins at a key (R209). -/
def State.residueAt (s : State) (md : Mode) (t : Fin 8) (key e : Nat) : Res :=
  let k := e % 256
  if t = 6 then
    let line := key + 256 * (e / 256)
    residueElem md 8 (Mem.read s.mem (line + k)).toNat (fld (s.sideOf line).toNat 8 8)
  else
    let line := key + 256 * (e / 512)
    let h := e / 256 % 2
    residueElem md 4 (fld (Mem.read s.mem (line + 128 * h + k / 2)).toNat (4 * (k % 2)) 4)
      (fld (s.sideOf line).toNat (8 + 8 * h) 8)

/-- A residue load: its lanes and flags. -/
def State.landResidue (s : State) (g : Nat) (t : Fin 8) (n : Nat) (base : W64) (fpcr : W32) :
    Except Exc ((List W32 × W32) × State) :=
  let lines := residueLines t n base
  match s.trackLines g false lines with
  | .error e => .error e
  | .ok s =>
    match firstFault (fun a => s.loadFault (vkey g a) 256 a) lines with
    | some e => .error e
    | none => .ok (collect ((List.range n).map fun e => s.residueAt (modeOf fpcr false) t (vkey g base) e), s)

/-! ### Residue conversions (R47, R48, R206) -/

/-- A conversion's outlier list as it fills: COUNT, CAP, BASE, the entries written (address and 64 bits), and flags. -/
structure Converting where
  count   : Nat
  cap     : Nat
  base    : Nat
  entries : List (W64 × Nat) := []
  flags   : Nat := 0

/-- A magnitude scaled by 2^(127 - E) and rounded to nearest even, with whether that was inexact. -/
def scaledMag (m : Nat) (e : Int) (E : Nat) : Nat × Bool := roundAt 0 false m (e + 127 - E) 0 false

/-- The greatest magnitude of a block's finite elements, as an integer times 2^-149. -/
def blockMax (xs : List Num) : Nat :=
  xs.foldl (fun a x => match x with
    | .fin _ m e => max a (m * 2 ^ (e + 149).toNat)
    | _ => a) 0

/-- The chosen scale of a block (R47). Of a block with no finite element, whose maximum R47 does not give, the maximum is
taken as 0, so that E is 127: the model's choice (log 93). -/
def chosenScale (qmax : Nat) (xs : List Num) : Nat :=
  let a := blockMax xs
  if a = 0 then 127
  else ((List.range 255).find? fun E => decide ((scaledMag a (-149) E).1 ≤ qmax)).getD 254

/-- append_outlier (R48): the element's value in the line, and the list after it. -/
def Converting.append (c : Converting) (qmax : Nat) (neg : Bool) (bits index : Nat) : Int × Converting :=
  if c.count < c.cap then
    (0, { c with
      count := (c.count + 1) % 2 ^ 32
      entries := c.entries ++ [(w64 (c.base + 8 * c.count), bits * 2 ^ 32 + index % 2 ^ 32)] })
  else (if neg then -(qmax : Int) else qmax, { c with count := (c.count + 1) % 2 ^ 32, flags := c.flags ||| fOF })

/-- One element of a block (R47): its value and whether it is an outlier. -/
def Converting.elem (c : Converting) (qmax E : Nat) (x : Num) (bits index : Nat) : Int × Bool × Converting :=
  match x with
  | .fin neg m e =>
    let r := scaledMag m e E
    if r.1 ≤ qmax then
      (if neg then -(r.1 : Int) else r.1, false, { c with flags := c.flags ||| (if r.2 then fNX else 0) })
    else
      let a := c.append qmax neg bits index
      (a.1, true, a.2)
  | x =>
    let a := c.append qmax x.sign bits index
    (a.1, true, a.2)

/-- The elements of a block from an index on: their values, whether one is an outlier, and the list. -/
def Converting.elems (c : Converting) (qmax E : Nat) : Nat → List (Num × Nat) → List Int × Bool × Converting
  | _, [] => ([], false, c)
  | i, x :: xs =>
    let r := c.elem qmax E x.1 x.2 i
    let t := r.2.2.elems qmax E (i + 1) xs
    (r.1 :: t.1, r.2.1 || t.2.1, t.2.2)

/-- A block of a conversion (R47): its values, its scale, whether it has an outlier, and the list. -/
def Converting.block (c : Converting) (qmax : Nat) (given : Option Nat) (i : Nat) (xs : List (Num × Nat)) :
    (List Int × Nat × Bool) × Converting :=
  if xs.any fun x => x.1.isNan then
    ((xs.map fun _ => 0, 255, false),
      { c with flags := c.flags ||| (if xs.any fun x => x.1.isSig then fNV else 0) })
  else
    let E := given.getD (chosenScale qmax (xs.map (·.1)))
    let r := c.elems qmax E i xs
    ((r.1, E, r.2.1), r.2.2)

/-- The blocks of a conversion, in order. -/
def Converting.blocks (c : Converting) (qmax : Nat) (given : Option Nat) (origin : Nat) :
    Nat → List (Num × Nat) → List (List Int × Nat × Bool) × Converting
  | 0, _ => ([], c)
  | n + 1, xs =>
    let r := c.block qmax given origin (xs.take 256)
    let t := r.2.blocks qmax given (origin + 256) n (xs.drop 256)
    (r.1 :: t.1, t.2)

/-- An integer on b bits. -/
def onBits (b : Nat) (v : Int) : Nat := (v % 2 ^ b).toNat

/-- Pairs of 4-bit elements as bytes, the first in the low half (R32). -/
def pairNibbles : List Int → List Byte
  | x :: y :: r => BitVec.ofNat 8 (onBits 4 x + 16 * onBits 4 y) :: pairNibbles r
  | [x] => [BitVec.ofNat 8 (onBits 4 x)]
  | [] => []

/-- The lines of an RN8 conversion: bytes and side band (R206). -/
def rn8Lines (bs : List (List Int × Nat × Bool)) : List (List Byte × W32) :=
  bs.map fun b => (b.1.map fun v => BitVec.ofNat 8 (onBits 8 v), BitVec.ofNat 32 (1 + b.2.1 * 2 ^ 8 + b.2.2.toNat * 2 ^ 24))

/-- The lines of an RN4 conversion, two blocks each. -/
def rn4Lines : List (List Int × Nat × Bool) → List (List Byte × W32)
  | x :: y :: r =>
    (pairNibbles x.1 ++ pairNibbles y.1,
      BitVec.ofNat 32 (2 + x.2.1 * 2 ^ 8 + y.2.1 * 2 ^ 16 + (x.2.2 || y.2.2).toNat * 2 ^ 24)) :: rn4Lines r
  | _ => []

/-- The outlier list of a control word (R206): none named acts as a list with CAP 0. Its key, COUNT, CAP and BASE. -/
def State.convertList (s : State) (g desc : Nat) : Except Exc (Option Nat × Converting) :=
  if desc = 0 then .ok (none, { count := 0, cap := 0, base := 0 })
  else if desc % 16 ≠ 0 then .error (align (w64 desc))
  else
    match s.listPlace g (w64 desc) { rd := true, w := true } with
    | .error e => .error e
    | .ok k =>
      if s.badIn k 16 then .error (s.lost k 16 (w64 desc))
      else
        match listDesc (Mem.readN s.mem k 16) with
        | none => .error (format (w64 desc))
        | some (count, cap, base) => .ok (some k, { count := count, cap := cap, base := base })

/-- The keys of the entries a conversion writes. -/
def State.entryKeys (s : State) (g : Nat) : List (W64 × Nat) → Except Exc (List (Nat × W64 × Nat))
  | [] => .ok []
  | x :: xs =>
    match s.listPlace g x.1 { w := true } with
    | .error e => .error e
    | .ok k =>
      match s.entryKeys g xs with
      | .error e => .error e
      | .ok ks => .ok ((k, x) :: ks)

/-- The accesses of a conversion's list to the hazard checker. -/
def State.trackList (s : State) (g : Nat) (desc : Option Nat) (va : W64) (ks : List (Nat × W64 × Nat)) : Except Exc State :=
  let a : Agent := .seq (.core g .C)
  let first := match desc with
    | some k => s.track g a k 16 true va
    | none => .ok s
  ks.foldl (fun r x => match r with
    | .ok s => s.track g a x.1 8 true x.2.1
    | .error e => .error e) first

/-- Writes what a checked conversion comes to: entries, COUNT, lines. -/
def State.convertWrite (s : State) (g : Nat) (desc : Option Nat) (count : Nat) (ks : List (Nat × W64 × Nat))
    (lines : List (W64 × List Byte × W32)) : State :=
  let s := ks.foldl (fun s x => s.store x.1 8 x.2.2) s
  let s := match desc with
    | some k => s.store (k + 12) 4 count
    | none => s
  lines.foldl (fun s x => s.setLine (vkey g x.1) x.2.1 x.2.2) s

/-- A residue conversion at its landing (R206): every check precedes every write. -/
def State.landConvert (s : State) (g : Nat) (t : Fin 8) (half : Bool) (lanes : List W32) (dst ctrl : W64) (fpcr : W32) :
    Except Exc (W32 × State) :=
  match s.trackAll g 16 false [ctrl] with
  | .error e => .error e
  | .ok s =>
    if s.badIn (vkey g ctrl) 16 then .error (s.lost (vkey g ctrl) 16 ctrl)
    else
      let w := Mem.readN s.mem (vkey g ctrl) 16
      let chosen := fld w 8 1 == 1
      if fld w 88 8 ≠ 0 ∨ fld w 9 23 ≠ 0 ∨ (chosen = false ∧ fld w 0 8 = 255) then .error (format ctrl)
      else
        match s.convertList g (fld w 32 56) with
        | .error e => .error e
        | .ok (desc, c) =>
          let md := modeOf fpcr half
          let xs := lanes.map fun x => (md.rd x, if half then x.toNat / 2 ^ 16 * 2 ^ 16 else x.toNat)
          let r := c.blocks (if t = 6 then 127 else 7) (if chosen then none else some (fld w 0 8)) (fld w 96 32)
            (lanes.length / 256) xs
          let lines := if t = 6 then rn8Lines r.1 else rn4Lines r.1
          let dsts := packedLines dst lines.length
          match s.entryKeys g r.2.entries with
          | .error e => .error e
          | .ok ks =>
            match s.trackList g desc (w64 (fld w 32 56)) ks with
            | .error e => .error e
            | .ok s =>
              match s.trackLines g true dsts with
              | .error e => .error e
              | .ok s => .ok (flagMask r.2.flags, s.convertWrite g desc r.2.count ks (dsts.zip lines))

/-! ### A landing cycle -/

/-- An operation that lands and what it comes to: what it writes, its flags, and its fault. -/
structure Landed where
  flight : Flight
  lanes  : Option (VReg × List W32) := none
  sreg   : Option (SReg × W64) := none
  flags  : W32 := 0
  err    : Option Exc := none

/-- The 1,024-element part of a tile that `acc.rd` reads (R228). -/
def Tile.part (t : Tile) (p n : Nat) : List W32 := (List.range n).map fun e => t.elem (1024 * p + e)

/-- The access of one landing operation, if it makes one. -/
def State.landOne (s : State) (g : Nat) (f : Flight) : State × Landed :=
  match f.op with
  | .load r t eas =>
    match s.landLoad g t eas with
    | .ok (xs, s) => (s, { flight := f, lanes := some (r, xs), flags := f.flags })
    | .error e => (s, { flight := f, err := some e })
  | .residue r t n base fpcr =>
    match s.landResidue g t n base fpcr with
    | .ok ((xs, fl), s) => (s, { flight := f, lanes := some (r, xs), flags := fl })
    | .error e => (s, { flight := f, err := some e })
  | .store t items =>
    match s.landStore g t items with
    | .ok s => (s, { flight := f })
    | .error e => (s, { flight := f, err := some e })
  | .convert t half lanes dst ctrl fpcr =>
    match s.landConvert g t half lanes dst ctrl fpcr with
    | .ok (fl, s) => (s, { flight := f, flags := fl })
    | .error e => (s, { flight := f, err := some e })
  | .accRd r tile p n _ =>
    let t := s.tile g tile
    if t.tent then (s, { flight := f, err := some (format 0) })
    else if t.poison then (s, { flight := f, err := some (poisonExc 0) })
    else (s, { flight := f, lanes := some (r, t.part p n) })
  | .accFlg d tile _ => (s, { flight := f, sreg := some (d, (s.tile g tile).flags) })
  | .vec r lanes => (s, { flight := f, lanes := some (r, lanes), flags := f.flags })
  | .sreg d x => (s, { flight := f, sreg := some (d, x), flags := f.flags })
  | _ => (s, { flight := f, flags := f.flags })

/-- The accesses of what lands, in order. -/
def State.landEach (s : State) (g : Nat) : List Flight → State × List Landed
  | [] => (s, [])
  | f :: fs =>
    let r := s.landOne g f
    let t := r.1.landEach g fs
    (t.1, r.2 :: t.2)

/-- Inserts a flight after those of its slot and of lower ones (R210, R68). -/
def insertSlot (f : Flight) : List Flight → List Flight
  | [] => [f]
  | x :: xs => if x.slot ≤ f.slot then x :: insertSlot f xs else f :: x :: xs

/-- A register is written: a pending error in it is removed (R311). -/
def Core.clearErr (c : Core) (hit : RegSite → Bool) : Core :=
  if c.regErr.isEmpty then c else { c with regErr := c.regErr.filter fun e => !(e.1 == .C && hit e.2) }

/-- The register writes of one landed operation. -/
def Core.landWrite (c : Core) (l : Landed) : Core :=
  let c := match l.lanes with
    | some (r, xs) => (c.setLanes r xs).clearErr fun e => decide (e = RegSite.vector r)
    | none => c
  let c := match l.sreg with
    | some (d, x) => { c with c := c.c.wrS d x }.clearErr fun e => decide (e = RegSite.scalar d)
    | none => c
  match l.flight.op with
  | .preg d b => { c with c := c.c.wrP d b }.clearErr fun e => decide (e = RegSite.pred d)
  | .preds x => { c with c := c.c.wrPreds x }.clearErr fun e => match e with | .pred _ => true | _ => false
  | _ => c

/-- The landed operation that was issued at a flight's place, in issue order (R22). -/
def issueOrder (fs : List Flight) (ls : List Landed) : List Landed :=
  fs.filterMap fun f => ls.find? fun l => decide (l.flight = f)

/-- A landing read that an earlier matrix command, or an error in its tile, still holds back (R78 item 5, R216). -/
def Core.landHeld (c : Core) (f : Flight) : Bool :=
  f.left == 0 && (match f.op.tileAt with
    | some (t, b) => !(c.tiles.getD t.val {}).err.isEmpty || c.tileBusy t b
    | none => false)

/-- A landing cycle of C of core g (R21): accesses by slot, registers in issue order, special registers, flags, stage
predicates; a fault is its slot's (R208), and the other operations of the cycle land. -/
def State.land (s : State) (g : Nat) : State :=
  let c := s.core g
  let due := c.flight.filter fun f => f.left == 0
  let s := s.setCore g { c with flight := c.flight.filter fun f => !(f.left == 0) }
  let r := s.landEach g (due.foldl (fun fs f => insertSlot f fs) [])
  let c := (issueOrder due r.2).foldl Core.landWrite (r.1.core g)
  let s := r.1.setCore g c
  let s := due.foldl (fun s f => match f.op with | .csr n x => csrStore s (.core g .C) n x | _ => s) s
  let fl := r.2.foldl (fun fl l => fl ||| l.flags) 0
  let s := s.setCore g { (s.core g).orFlags fl with landed := fl }
  let stage := due.any fun f => match f.op with | .stages => true | _ => false
  let s := if stage then s.setCore g { s.core g with c := (s.core g).c.stages } else s
  match r.2.find? fun l => l.err.isSome with
  | some l => { s with curSlot := l.flight.slot, curAddr := l.flight.pc }.take (l.err.getD illegal)
  | none => s

/-- The first address of an operation in flight that accesses memory. -/
def Landing.addr : Landing → Option W64
  | .load _ _ eas => eas.head?
  | .residue _ _ _ base _ => some base
  | .store _ items => items.head?.map (·.1)
  | .convert _ _ _ dst _ _ => some dst
  | _ => none

/-- What is late at a landing cycle of C of core g: a tile that commands or a replay still hold (R78 item 5, R216). C reaches
no fabric port. -/
def State.landLate (s : State) (g : Nat) : Option (Late × W64) :=
  let c := s.core g
  if c.flight.any c.landHeld then some (.accumulator, 0) else none

/-- C-stream landing: a result that is late freezes the core (R23). -/
def execCStreamLanding (g : Nat) (s : State) : Host.Outcome State Fault Refusal :=
  let s := { s with cur := .core g .C }
  if (s.core g).flight.any fun f => f.left == 0 then
    match s.landLate g with
    | some (u, a) => .next (s.startFreeze u a)
    | none => .next (s.land g)
  else .next s

end Sys2Proof.Machine
end

