-- ==== Sys2Proof/Machine/Csq.lean ====
section
/-! DEFINITION. The collective sequencer: work entries, their arming and firing, what each kind does, their
completion and failure (R117-R129). -/

namespace Sys2Proof.Machine

/-! ### Work entries (R122) -/

/-- KIND. -/
def Work.kind (w : Work) : Nat := bf w.word 60 4
/-- DTYPE. -/
def Work.dtype (w : Work) : Nat := bf w.word 56 4
/-- OPM. -/
def Work.opm (w : Work) : Nat := bf w.word 52 4
/-- FENCE. -/
def Work.fence (w : Work) : Bool := w.word.getLsbD 51
/-- LEN. -/
def Work.len (w : Work) : Nat := bf w.word 256 32

/-- An address field: its CHB bit and address, by the bit at which it begins. -/
def Work.chb (w : Work) (lo : Nat) : Bool := w.word.getLsbD (lo + 63)
/-- The address or offset of a field. -/
def Work.addr (w : Work) (lo : Nat) : Nat := bf w.word lo 56
/-- SRC begins at bit 128. -/
abbrev fSrc : Nat := 128
/-- DST begins at bit 192. -/
abbrev fDst : Nat := 192
/-- AUX begins at bit 320. -/
abbrev fAux : Nat := 320

/-- The reserved bits of an address field are zero, an offset's upper bits included. -/
def Work.addrOk (w : Work) (lo : Nat) : Bool :=
  bf w.word (lo + 56) 7 == 0 && (!w.chb lo || bf w.word (lo + 26) 30 == 0)

/-- An address field is zero. -/
def Work.none (w : Work) (lo : Nat) : Bool := bf w.word lo 64 == 0

/-- A floating element type. -/
def Work.isFp (w : Work) : Bool := decide (w.dtype ≤ 1)

/-- The pairings of R124, with the fields each leaves zero and the places it allows. AUX must be 0 (else FORMAT) in every
pairing that is no floating PUTRED or convert: R122 has a table for PUTRED and convert, which the integer, staging and
sketch ones do not read; the model's choice (log 92). -/
def Work.pairOk (w : Work) : Bool :=
  let lines := w.len % 256 == 0
  let bytes := lines && !(w.len == 0)
  match w.kind with
  | 0 => w.dtype == 0 && w.opm == 0 && bytes && w.none fAux
  | 1 =>
    if w.isFp then w.opm == 0 && w.chb fDst
    else if w.dtype = 6 then w.opm == 0 && w.chb fSrc && w.chb fDst && w.none fAux
    else if w.dtype = 4 then w.opm == 0 && !w.chb fSrc && w.chb fDst && w.len == 0 && w.none fAux
    else (w.dtype == 2 || w.dtype == 3) && decide (w.opm ≤ 2) && w.none fAux
  | 2 => (w.isFp || w.dtype == 5) && w.opm == 0 && w.none fAux
  | 3 => w.dtype == 0 && w.opm == 0 && w.len == 0 && w.none fSrc && w.none fDst && w.none fAux && w.word.getLsbD 50
  | 4 =>
    match w.opm with
    | 0 => w.dtype == 0 && bytes && !w.chb fDst && w.none fAux
    | 1 =>
      if w.isFp then w.chb fSrc && !w.chb fDst
      else w.dtype == 4 && w.chb fSrc && !w.chb fDst && w.len == 0 && w.none fAux
    | 2 => w.dtype == 0 && lines && w.none fAux
    | _ => false
  | _ => false

/-- The limits of an entry's fields (R122). -/
def Work.fieldsOk (w : Work) : Bool :=
  bf w.word 448 64 == 0 && bf w.word 288 32 == 0 && bf w.word 48 1 == 0 && bf w.word 0 12 == 0
    && w.addrOk fSrc && w.addrOk fDst && w.addrOk fAux && w.pairOk

/-- The alignment of each address: 256 bytes for data, 8 for exponent tables, 64 for sketch descriptors. -/
def Work.aligns (w : Work) : List (Nat × Nat) :=
  let src := if w.kind = 2 ∧ w.dtype = 5 then 8 else if w.kind = 1 ∧ w.dtype = 4 then 64 else 256
  let dst := if w.kind = 2 then 8 else if w.kind = 4 ∧ w.dtype = 4 then 64 else 256
  (if w.kind = 4 ∧ w.opm = 2 then [] else [(w.addr fSrc, src)]) ++ [(w.addr fDst, dst), (w.addr fAux, 8)]

/-! ### Places -/

/-- The partition of a queue pair of the device, and its number there (R117, R287). -/
def State.qpPart (s : State) (qp : Nat) : Option (Nat × Nat) :=
  (List.range numParts).findSome? fun p =>
    let g := (s.part p).pqp
    if (s.part p).pstate ≠ 0 ∧ bf g 0 10 ≤ qp ∧ qp < bf g 0 10 + bf g 16 11 then some (p, qp - bf g 0 10) else none

/-- An offset of a partition's chunk-buffer window, n bytes of it (R122, R287). -/
def State.chunkAt (s : State) (part off n : Nat) : Except Exc Nat :=
  let g := (s.part part).pchb
  if off + n ≤ bf g 16 10 * 2 ^ 16 then .ok (chunkKey (bf g 0 10 * 2 ^ 16 + off)) else .error (access (w64 off))

/-- PKIND of a queue pair: 0 this partition, 1 a fabric peer, 2 the host. -/
def Qp.peer (q : Qp) : Nat := bf q.cfg 62 2
/-- The port to a fabric peer. -/
def Qp.port (q : Qp) : Nat := bf q.cfg 58 4

/-- A request to a peer: a port holds it until the fabric timeout (R129, R329). -/
def State.peerReach (s : State) (p : Nat) (q : Qp) : Except Exc Unit :=
  if q.peer = 1 then s.portRequest q.port (extKey p (2 ^ 51 + q.port * 2 ^ 46)) 0 none else .ok ()

/-- An entry that runs: its queue pair, partition and fields. -/
structure Running where
  n    : Nat
  q    : Qp
  part : Nat
  w    : Work

/-- Where an entry writes: here, or a peer's chunk buffers. -/
inductive Place where
  | here (key : Nat)
  | peer (off : Nat)

/-- The source of n bytes at an offset of an address field. -/
def State.fromField (s : State) (r : Running) (lo off n : Nat) : Except Exc Nat :=
  if r.w.chb lo then s.chunkAt r.part (r.w.addr lo + off) n
  else s.resolvePart r.part (w64 (r.w.addr lo + off)) { rd := true }

/-- The destination of n bytes at an offset of DST (R122): a chunk-buffer offset names the peer's, which the host has not
(log 92); the lines of an LCOPY stay on this device, and an aperture in its DST fails with ACCESS when the entry runs, a code
that R124 does not give: the model's choice (log 97). -/
def State.toField (s : State) (r : Running) (off n : Nat) : Except Exc Place :=
  let a := r.w.addr fDst + off
  if r.w.chb fDst && r.q.peer == 2 then .error (access (w64 a))
  else if r.w.chb fDst && r.q.peer == 1 then
    match s.peerReach r.part r.q with
    | .error e => .error e
    | .ok () => .ok (.peer a)
  else
    match (if r.w.chb fDst then s.chunkAt r.part a n else s.resolvePart r.part (w64 a) { w := true, rd := r.w.kind == 1 || r.w.kind == 2 }) with
    | .error e => .error e
    | .ok k => if r.w.kind = 4 ∧ isExt k then .error (access (w64 a)) else .ok (.here k)

/-- The side band of a line, wherever it lies; chunk buffers have none (R53). -/
def State.bandOf (s : State) (k : Nat) : W32 := if isChunk k then 0 else if isExt k then s.extSide k else s.sideOf k

/-- UNCORRECTABLE of n bytes of a store (R311, R129). -/
def State.sourceErr (s : State) (k n : Nat) (va : Nat) : Option Exc := if s.badIn k n then some (s.lost k n (w64 va)) else none

/-- n bytes of a source line that a reduction reads (R124): POISON, UNCORRECTABLE, and FORMAT for an FMT that is not `fmt`.
Chunk buffers have no FMT: data there is read without that check, the model's choice (log 92). -/
def State.reduceErr (s : State) (k n : Nat) (va : Nat) (fmt : Option Nat) : Option Exc :=
  if s.badIn k n then some (s.lost k n (w64 va))
  else if isChunk k then none
  else if (s.bandOf k).getLsbD 25 then some (poisonExc (w64 va))
  else
    match fmt with
    | some f => if fld (s.bandOf k).toNat 0 8 = f then none else some (format (w64 va))
    | none => sideErr (s.bandOf k) (w64 va)

/-! ### PUT and LCOPY copy, zero (R124) -/

/-- Sends a message to a peer's chunk buffers. -/
def State.sendPeer (s : State) (r : Running) (kind off : Nat) (bs : List Byte) : State :=
  { s with sent := s.sent ++ [.peerData r.n kind (w64 off) bs] }

/-- One line of a copy. -/
def putLine (r : Running) (i : Nat) (s : State) : Ran :=
  .with s (s.fromField r fSrc (256 * i) 256) fun k =>
    let va := w64 (r.w.addr fSrc + 256 * i)
    let bad := if s.isBad k then some (s.lost k 256 va) else sideErr (s.bandOf k) va
    match bad with
    | some e => { s := s, err := some e }
    | none =>
      .with s (s.toField r (256 * i) 256) fun p =>
        let sb := s.bandOf k
        let (bs, t) := s.line k
        match p with
        | .here d => { s := t.setAnyLine d bs sb }
        | .peer off => { s := t.sendPeer r 0 off bs }

/-- One zero line of LCOPY zero. -/
def zeroLine (r : Running) (i : Nat) (s : State) : Ran :=
  .with s (s.toField r (256 * i) 256) fun p =>
    match p with
    | .here d => { s := s.setAnyLine d (List.replicate 256 0) 0 }
    | .peer off => { s := s.sendPeer r 0 off (List.replicate 256 0) }

/-! ### Exponent tables (R125) -/

/-- An entry of an exponent table read at a field: a fabric peer's table is outside this device (log 15), and the host has
none (log 92). -/
def State.tableAt (s : State) (r : Running) (lo b : Nat) : Except Exc (Nat × State) :=
  if lo = fAux ∧ r.w.chb lo = true ∧ r.q.peer = 2 then .error (access (w64 (r.w.addr lo + 2 * b)))
  else if lo = fAux ∧ r.w.chb lo = true ∧ r.q.peer ≠ 0 then
    match s.peerReach r.part r.q with
    | .error e => .error e
    | .ok () =>
      .ok (ofBytes ((List.range 2).map fun i => Config.extByte s.free (chunkKey (r.w.addr lo + 2 * b + i))), { s with free := s.free + 1 })
  else
    match s.fromField r lo (2 * b) 2 with
    | .error e => .error e
    | .ok k =>
      match s.reduceErr k 2 (r.w.addr lo + 2 * b) none with
      | some e => .error e
      | none => .ok (s.load k 2)

/-- Whether the reserved bits of an entry are zero. -/
def tableOk (v : Nat) : Bool := fld v 9 4 == 0

/-- The merge of two entries: the greater EB, the class bits of both. -/
def mergeEntry (x y : Nat) : Nat := max (fld x 0 9) (fld y 0 9) + (fld x 13 3 ||| fld y 13 3) * 2 ^ 13

/-- floor(log2 |x|) of a finite non-zero value. -/
def expOf (m : Nat) (e : Int) : Int := e + Nat.log2 m

/-- The entry of a block's elements. -/
def blockEntry (xs : List Num) : Nat :=
  xs.foldl (fun v x => mergeEntry v (match x with
    | .nan _ => 2 ^ 15
    | .inf n => if n then 2 ^ 13 else 2 ^ 14
    | .fin _ m e => if m = 0 then 0 else (expOf m e + 150).toNat)) 0

/-- The size of an element of a type. -/
def dtypeSize : Nat → Nat
  | 1 => 2
  | 3 | 6 => 8
  | _ => 4

/-- Element i of a floating data source: its line is checked as it is read. -/
def State.fpElem (s : State) (r : Running) (i : Nat) : Except Exc (Num × State) :=
  let z := dtypeSize r.w.dtype
  match s.fromField r fSrc (z * i) z with
  | .error e => .error e
  | .ok k =>
    match s.reduceErr k z (r.w.addr fSrc + z * i) (some (if r.w.dtype = 1 then 0x10 else 0x11)) with
    | some e => .error e
    | none =>
      let x := s.load k z
      .ok (ofBits (if r.w.dtype = 1 then x.1 * 2 ^ 16 else x.1), x.2)

/-- The floating elements from i on, n of them. -/
def State.fpElems (s : State) (r : Running) (i : Nat) : Nat → Except Exc (List Num × State)
  | 0 => .ok ([], s)
  | n + 1 =>
    match s.fpElem r i with
    | .error e => .error e
    | .ok x =>
      match x.2.fpElems r (i + 1) n with
      | .error e => .error e
      | .ok y => .ok (x.1 :: y.1, y.2)

/-- Sends an operation on an address of an external target, of the partition's function (R125, R79, R321): the target merges
or reduces there. -/
def State.mergeExt (s : State) (k kind : Nat) (bs : List Byte) : State :=
  { s.wakeKey k with sent := s.sent ++ [.extMerge (extFn k) (extTarget k) (extAddr k) kind bs] }

/-- Merges an entry into DST at block b. -/
def mergeInto (r : Running) (b v : Nat) (s : State) : Ran :=
  .with s (s.toField r (2 * b) 2) fun p =>
    match p with
    | .peer off => { s := s.sendPeer r 2 off (toBytes 2 v) }
    | .here k =>
      match s.reduceErr k 2 (r.w.addr fDst + 2 * b) none with
      | some e => { s := s, err := some e }
      | none =>
        if isExt k then { s := s.mergeExt k 2 (toBytes 2 v) }
        else
          let old := Mem.readN s.mem k 2
          if !tableOk old then { s := s, err := some (format (w64 (r.w.addr fDst + 2 * b))) }
          else { s := s.store k 2 (mergeEntry old v) }

/-- One block of MAXEXP over data. -/
def maxexpBlock (r : Running) (b : Nat) (s : State) : Ran :=
  .with s (s.fpElems r (256 * b) (min 256 (r.w.len - 256 * b))) fun (xs, s) => mergeInto r b (blockEntry xs) s

/-- One entry of MAXEXP over a table. -/
def maxexpEntry (r : Running) (b : Nat) (s : State) : Ran :=
  .with s (s.tableAt r fSrc b) fun (v, s) =>
    if !tableOk v then { s := s, err := some (format (w64 (r.w.addr fSrc + 2 * b))) } else mergeInto r b v s

/-! ### PUTRED (R124, R126, R128) -/

/-- Adds to a 64-bit integer of a staging area, which it reads (R311). -/
def stageAdd (r : Running) (off : Nat) (n : Int) (s : State) : Ran :=
  .with s (s.toField r off 8) fun p =>
    match p with
    | .peer o => { s := s.sendPeer r 1 o (toBytes 8 (n % 2 ^ 64).toNat) }
    | .here k =>
      match s.sourceErr k 8 (r.w.addr fDst + off) with
      | some e => { s := s, err := some e }
      | none => { s := s.store k 8 (((Mem.readN s.mem k 8 : Int) + n) % 2 ^ 64).toNat }

/-- The aligned integer of an element under an agreed entry (R126): 0 under EB 0; none where the table does not cover it. -/
def alignedInt (v : Nat) (x : Num) : Option Int :=
  match x with
  | .fin neg m e =>
    if m = 0 ∨ fld v 0 9 = 0 then some 0
    else if (fld v 0 9 : Int) - 150 < expOf m e then none
    else
      let n := (roundAt 0 neg m (e + 188 - fld v 0 9) 0 false).1
      some (if neg then -(n : Int) else n)
  | _ => some 0

/-- The elements of one block, added from an index on. -/
def redElems (r : Running) (v : Nat) : Nat → List Num → State → Ran
  | _, [], s => { s := s }
  | i, x :: xs, s =>
    match alignedInt v x with
    | none => { s := s, err := some (format (w64 (r.w.addr fSrc + dtypeSize r.w.dtype * i))) }
    | some n => (stageAdd r (8 * i) n s).andThen (redElems r v (i + 1) xs)

/-- One block of a floating PUTRED. -/
def redBlock (r : Running) (b : Nat) (s : State) : Ran :=
  .with s (s.tableAt r fAux b) fun (v, s) =>
    if !tableOk v then { s := s, err := some (format (w64 (r.w.addr fAux + 2 * b))) }
    else
      .with s (s.fpElems r (256 * b) (min 256 (r.w.len - 256 * b))) fun (xs, s) => redElems r v (256 * b) xs s

/-- One integer of a staging-to-staging PUTRED. -/
def redStage (r : Running) (i : Nat) (s : State) : Ran :=
  .with s (s.fromField r fSrc (8 * i) 8) fun k =>
    match s.sourceErr k 8 (r.w.addr fSrc + 8 * i) with
    | some e => { s := s, err := some e }
    | none => stageAdd r (8 * i) (Mem.readN s.mem k 8) s

/-- SUM, MAX or MIN of two integers of n bytes, on their bits. -/
def intReduce (opm n x y : Nat) : Nat :=
  match opm with
  | 0 => (x + y) % 2 ^ (8 * n)
  | 1 => if sextN (8 * n) x < sextN (8 * n) y then y else x
  | _ => if sextN (8 * n) y < sextN (8 * n) x then y else x

/-- One element of an integer PUTRED. -/
def redInt (r : Running) (i : Nat) (s : State) : Ran :=
  let z := dtypeSize r.w.dtype
  .with s (s.fromField r fSrc (z * i) z) fun k =>
    match s.reduceErr k z (r.w.addr fSrc + z * i) none with
    | some e => { s := s, err := some e }
    | none =>
      let (x, s) := s.load k z
      .with s (s.toField r (z * i) z) fun p =>
        match p with
        | .peer o => { s := s.sendPeer r (4 + r.w.opm) o (toBytes z x) }
        | .here d =>
          if isExt d then { s := s.mergeExt d (4 + r.w.opm) (toBytes z x) }
          else
            match s.reduceErr d z (r.w.addr fDst + z * i) none with
            | some e => { s := s, err := some e }
            | none => { s := s.store d z (intReduce r.w.opm z (Mem.readN s.mem d z) x) }

/-- The header fields of a sketch that a staging area compares (R128): D, K, ES. -/
def headOf (v : Nat) : Nat := fld v 0 3 + fld v 8 5 * 2 ^ 8 + fld v 32 8 * 2 ^ 32

/-- A set header at a key names the same sketch (R106, R128). -/
def sameSketch (m : List Host.Cell) (h head : Nat) (pairs : List (Nat × Nat)) : Bool :=
  headOf (Mem.readN m h 8) == head
    && (List.range pairs.length).all fun j =>
      (Mem.readN m (h + 16 + 16 * j) 8, Mem.readN m (h + 16 + 16 * j + 8) 8) == pairs.getD j (0, 0)

/-- A sketch's pairs. -/
def State.pairs (s : State) (x : Sketch) : List (Nat × Nat) := (List.range x.d).map (s.pair x)

/-- Adds a sketch, given by its descriptor's first word, pairs and counters, into a staging area at a key (R128). -/
def State.sketchStage (s : State) (h desc : Nat) (pairs : List (Nat × Nat)) (ctrs : List Int) : Except Exc State :=
  let old := Mem.readN s.mem h 8
  let isSet := fld old 63 1 == 1
  if isSet && !sameSketch s.mem h (headOf desc) pairs then .error (.fault 0x0E 0 0)
  else
    let base := if isSet then old else headOf desc + 2 ^ 63
    let m := Mem.writeN s.mem h 8 (base ||| fld desc 40 7 * 2 ^ 40)
    let m := if isSet then m
      else (pairs.zipIdx).foldl (fun m p =>
        Mem.writeN (Mem.writeN m (h + 16 + 16 * p.2) 8 p.1.1) (h + 16 + 16 * p.2 + 8) 8 p.1.2) m
    let m := (ctrs.zipIdx).foldl (fun m c =>
      Mem.writeN m (h + 256 + 8 * c.2) 8 (((Mem.readN m (h + 256 + 8 * c.2) 8 : Int) + c.1) % 2 ^ 64).toNat) m
    .ok { s with mem := m }

/-- The counters of a checked sketch, as they are read. -/
def State.counters (s : State) (x : Sketch) : List Int :=
  (List.range (x.d * 2 ^ x.k)).map fun i => (s.ctrRead (x.base + 4 * i)).1

/-- A reduction reads a line that is poisoned (R124). -/
def State.poisonIn (s : State) (r : Running) (a : Nat) : Option Exc :=
  if r.w.kind = 1 ∧ s.poisoned (shKey a) = true then some (poisonExc (w64 a)) else none

/-- The source or destination sketch of an entry, with the checks of its descriptor, pairs and counter lines. -/
def State.entrySketch (s : State) (r : Running) (lo : Nat) : Except Exc Sketch :=
  if !s.sharedOk r.part (r.w.addr lo) 64 then .error (access (w64 (r.w.addr lo)))
  else
    match s.sketch r.part (r.w.addr lo) with
    | .error e => .error e
    | .ok x =>
      match orElse (s.poisonIn r x.addr) (orElse (s.pairsOk x) (s.poisonIn r x.pairs)) with
      | some e => .error e
      | none =>
        match x.lines.filterMap (s.ctrErr · 256) with
        | e :: _ => .error e
        | [] => .ok x

/-- The message of a sketch to a peer: descriptor word, pairs, counters. -/
def sketchBytes (desc : Nat) (pairs : List (Nat × Nat)) (ctrs : List Int) : List Byte :=
  toBytes 8 desc ++ pairs.flatMap (fun p => toBytes 8 p.1 ++ toBytes 8 p.2)
    ++ ctrs.flatMap fun c => toBytes 4 (c % 2 ^ 32).toNat

/-- A sketch PUTRED (R128). -/
def redSketch (r : Running) (s : State) : Ran :=
  .with s (s.entrySketch r fSrc) fun x =>
    let desc := s.shRd x.addr 8
    .with s (s.toField r 0 (256 + 8 * (x.d * 2 ^ x.k))) fun p =>
      match p with
      | .peer off => { s := s.sendPeer r 3 off (sketchBytes desc (s.pairs x) (s.counters x)) }
      | .here h =>
        match s.sourceErr h (256 + 8 * (x.d * 2 ^ x.k)) (r.w.addr fDst) with
        | some e => { s := s, err := some e }
        | none => .with s (s.sketchStage h desc (s.pairs x) (s.counters x)) fun s => { s := s }

/-! ### LCOPY convert (R127, R128) -/

/-- The value of a staging sum under an agreed entry (R127), as binary32 bits; a BF16 value in bits 31:16. -/
def agreedValue (bf16 : Bool) (v : Nat) (sum : Int) : Nat :=
  let md := if bf16 then rneBf16 else rneF32
  let nan := fld v 15 1 == 1
  let pinf := fld v 14 1 == 1
  let ninf := fld v 13 1 == 1
  if nan || (pinf && ninf) then canonNan
  else if pinf then infBits false
  else if ninf then infBits true
  else if sum = 0 then 0
  else (md.round (decide (sum < 0)) sum.natAbs ((fld v 0 9 : Int) - 188) false).bits

/-- One destination line of a floating convert: positions past LEN are +0. -/
def convertLine (r : Running) (i : Nat) (s : State) : Ran :=
  let bf16 := r.w.dtype == 1
  let per := if bf16 then 128 else 64
  .with s (s.tableAt r fAux (per * i / 256)) fun (v, s) =>
    if !tableOk v then { s := s, err := some (format (w64 (r.w.addr fAux + 2 * (per * i / 256)))) }
    else
      let n := min per (r.w.len - per * i)
      .with s (s.fromField r fSrc (8 * (per * i)) (8 * n)) fun k =>
        match s.sourceErr k (8 * n) (r.w.addr fSrc + 8 * (per * i)) with
        | some e => { s := s, err := some e }
        | none =>
        .with s (s.toField r (256 * i) 256) fun p =>
          let value (j : Nat) : List Byte :=
            let x := if j < n then agreedValue bf16 v (sextN 64 (Mem.readN s.mem (k + 8 * j) 8)) else 0
            if bf16 then toBytes 2 (x / 2 ^ 16) else toBytes 4 x
          match p with
          | .here d => { s := s.setLine d ((List.range per).flatMap value) (if bf16 then 0x10 else 0x11) }
          | .peer _ => { s := s }

/-- A sketch convert (R128). -/
def convertSketch (r : Running) (s : State) : Ran :=
  .with s (s.entrySketch r fDst) fun x =>
    .with s (s.fromField r fSrc 0 (256 + 8 * (x.d * 2 ^ x.k))) fun h =>
      match s.sourceErr h (256 + 8 * (x.d * 2 ^ x.k)) (r.w.addr fSrc) with
      | some e => { s := s, err := some e }
      | none =>
      if fld (Mem.readN s.mem h 8) 63 1 = 0 ∨ sameSketch s.mem h (headOf (s.shRd x.addr 8)) (s.pairs x) = false then
        { s := s, err := some (.fault 0x0E (w64 x.addr) 0) }
      else
        let sat := fld (Mem.readN s.mem h 8) 40 7
        let step (s : State) (n : Nat) : State :=
          let v := satRow ((s.ctrRead (x.base + 4 * n)).1 + sextN 64 (Mem.readN s.mem (h + 256 + 8 * n) 8))
          (s.shWr (x.base + 4 * n) 4 (v.1 % 2 ^ 32).toNat).setSat x (if v.2 then 2 ^ (n / 2 ^ x.k) else 0)
        { s := ((List.range (x.d * 2 ^ x.k)).foldl step s).setSat x sat }

/-! ### Arming and firing (R121) -/

/-- An armed entry's condition holds: its counter has reached the threshold, and under FENCE every earlier entry has
completed. -/
def State.mayFire (s : State) (part : Nat) (q : Qp) (w : Work) : Bool :=
  !w.fired && w.fail.isNone
    && (match s.tcNumber part (bf w.word 36 12) with
      | .ok k => decide (bf w.word 64 64 ≤ (s.tc k).toNat)
      | .error _ => false)
    && (!w.fence || (!(q.works.any fun y => decide (y.idx < w.idx))
      && (match q.bad with | some b => decide (w.idx < b) | none => true)))

/-- The entries that fire now: queue pair, index and counter. -/
def State.firing (s : State) : List (Nat × Nat × Nat) :=
  s.qps.flatMap fun e =>
    match s.qpPart e.1 with
    | some (p, _) => (e.2.works.filter (s.mayFire p e.2)).filterMap fun w =>
      (match s.tcNumber p (bf w.word 36 12) with | .ok k => some (e.1, w.idx, k) | .error _ => none)
    | none => []

/-- Every armed entry whose condition holds fires, at the first moment at which it does; it acquires from the additions to
its counter (R77). -/
def State.fireAll (s : State) : State :=
  let t := { s with qps := s.qps.map fun e =>
      match s.qpPart e.1 with
      | some (p, _) => (e.1, { e.2 with works := e.2.works.map fun w => if s.mayFire p e.2 w then { w with fired := true } else w })
      | none => e }
  s.firing.foldl (fun s x => s.acquire (.entry x.1 x.2.1) 3 (.tc x.2.2)) t

/-- An addition to a trigger counter (R120). -/
def State.addTc (s : State) (k : Nat) (x : W64) : State := (s.setTc k (s.tc k + x)).fireAll

/-- The first error of an entry as it is armed: its fields, alignment, and the counters it names here (R117, R122). -/
def State.armErr (s : State) (part : Nat) (w : Work) : Option Exc :=
  if !w.fieldsOk then some (format 0)
  else
    match w.aligns.find? fun a => !(a.1 % a.2 == 0) with
    | some a => some (align (w64 a.1))
    | none =>
      match s.tcNumber part (bf w.word 36 12) with
      | .error e => some e
      | .ok _ => if w.word.getLsbD 49 then excOf (s.tcNumber part (bf w.word 24 12)) else none

/-- The code, address and translation detail that a failure records (R304). -/
def Exc.failure (e : Exc) : Nat × W64 × Nat := (e.codeAddr.1, e.codeAddr.2, e.more)

/-- entry arm: the CSQ takes the next entry of an ON queue pair (R121, R129). -/
def execEntryArm (qp : Nat) (s : State) : Host.Outcome State Fault Refusal :=
  let q := s.qp qp
  match s.qpPart qp with
  | some (p, _) =>
    if q.state = .on ∧ q.arm < q.tail ∧ (q.works.any fun w => w.fail.isSome) = false then
      let k := shKey (q.place q.arm)
      let w : Work := { idx := q.arm, word := BitVec.ofNat 512 (Mem.readN s.mem k 64) }
      let a := w64 (q.place q.arm)
      let err := orElse (s.loadFault k 64 a) (orElse (sideErr (s.sideOf k) a) (s.armErr p w))
      let w := { w with fail := err.map Exc.failure }
      let s := (match err with | some e => s.traced e | none => s).wakeKey k
      let t := s.acquire (.entry qp q.arm) 3 (.work qp q.arm)
      .next (t.setQp qp { q with arm := q.arm + 1, works := q.works ++ [w] }).fireAll
    else .next s
  | none => .next s

/-! ### Running an entry -/

/-- Changes one armed entry, or removes it. -/
def Qp.update (q : Qp) (idx : Nat) (f : Work → Option Work) : Qp :=
  { q with works := q.works.filterMap fun w => if w.idx = idx then f w else some w }

/-- The entry of a count that has fired and still runs. -/
def Qp.running (q : Qp) (n : Nat) : Option Work := q.works.find? fun w => w.idx == n && w.fired && !w.done && w.fail.isNone

/-- A port holds an entry's request (R329). -/
def State.holdWork (s : State) (qp n : Nat) (r : Request) : State :=
  s.setQp qp ((s.qp qp).update n fun w => some { w with held := some r })

/-- An entry meets a fault, which its failure will record (R129). -/
def State.failWork (s : State) (qp n : Nat) (e : Exc) : State :=
  (s.traced e).setQp qp (((s.traced e).qp qp).update n fun w => some { w with fail := some e.failure, held := none })

/-- Runs a fired entry of the kind a step is for: it performs its writes or fails (R124, R129); a request that a port
holds leaves it as it was. -/
def runEntry (ok : Work → Bool) (f : Running → State → Ran) (qp n : Nat) (s : State) : Host.Outcome State Fault Refusal :=
  match s.qpPart qp, (s.qp qp).running n with
  | some (p, _), some w =>
    if ok w then
      let r := f { n := qp, q := s.qp qp, part := p, w := w } { s with asked := w.held }
      match r.err with
      | some (.hold q) => .next (s.holdWork qp n q)
      | some e => .next (r.s.failWork qp n e)
      | none => .next (r.s.setQp qp ((r.s.qp qp).update n fun w => some { w with done := true, held := none }))
    else .next s
  | _, _ => .next s

/-- For each index below n. -/
def eachTo (n : Nat) (f : Nat → State → Ran) (s : State) : Ran := Ran.each f (List.range n) s

/-- Blocks of 256 elements. -/
def blocksOf (n : Nat) : Nat := (n + 255) / 256

/-- CSQ PUT. -/
def execCsqPut (qp n : Nat) (s : State) : Host.Outcome State Fault Refusal :=
  runEntry (fun w => w.kind == 0) (fun r => eachTo (r.w.len / 256) (putLine r)) qp n s

/-- CSQ PUTRED SUM. -/
def execCsqPutredSum (qp n : Nat) (s : State) : Host.Outcome State Fault Refusal :=
  runEntry (fun w => w.kind == 1 && w.opm == 0) (fun r =>
    if r.w.isFp then eachTo (blocksOf r.w.len) (redBlock r)
    else if r.w.dtype = 6 then eachTo r.w.len (redStage r)
    else if r.w.dtype = 4 then redSketch r
    else eachTo r.w.len (redInt r)) qp n s

/-- CSQ PUTRED MAX. -/
def execCsqPutredMax (qp n : Nat) (s : State) : Host.Outcome State Fault Refusal :=
  runEntry (fun w => w.kind == 1 && w.opm == 1) (fun r => eachTo r.w.len (redInt r)) qp n s

/-- CSQ PUTRED MIN. -/
def execCsqPutredMin (qp n : Nat) (s : State) : Host.Outcome State Fault Refusal :=
  runEntry (fun w => w.kind == 1 && w.opm == 2) (fun r => eachTo r.w.len (redInt r)) qp n s

/-- CSQ MAXEXP. -/
def execCsqMaxexp (qp n : Nat) (s : State) : Host.Outcome State Fault Refusal :=
  runEntry (fun w => w.kind == 2) (fun r =>
    if r.w.dtype = 5 then eachTo r.w.len (maxexpEntry r) else eachTo (blocksOf r.w.len) (maxexpBlock r)) qp n s

/-- CSQ NOTIFY. -/
def execCsqNotify (qp n : Nat) (s : State) : Host.Outcome State Fault Refusal :=
  runEntry (fun w => w.kind == 3) (fun _ s => { s := s }) qp n s

/-- LCOPY copy. -/
def execLcopyCopy (qp n : Nat) (s : State) : Host.Outcome State Fault Refusal :=
  runEntry (fun w => w.kind == 4 && w.opm == 0) (fun r => eachTo (r.w.len / 256) (putLine r)) qp n s

/-- LCOPY convert. -/
def execLcopyConvert (qp n : Nat) (s : State) : Host.Outcome State Fault Refusal :=
  runEntry (fun w => w.kind == 4 && w.opm == 1) (fun r =>
    if r.w.dtype = 4 then convertSketch r
    else
      let per := if r.w.dtype = 1 then 128 else 64
      eachTo ((r.w.len + per - 1) / per) (convertLine r)) qp n s

/-- LCOPY zero. -/
def execLcopyZero (qp n : Nat) (s : State) : Host.Outcome State Fault Refusal :=
  runEntry (fun w => w.kind == 4 && w.opm == 2) (fun r => eachTo (r.w.len / 256) (zeroLine r)) qp n s

/-! ### Completion, failure, reset (R119, R123, R129) -/

/-- The oldest place moves past entries that have ended (R118). -/
def Qp.advance : Nat → Qp → Qp
  | 0, q => q
  | n + 1, q => if q.free.contains q.head then Qp.advance n { q with head := q.head + 1, free := q.free.filter (· != q.head) } else q

/-- An entry ends and frees its place. -/
def Qp.finish (q : Qp) (idx : Nat) : Qp :=
  let q := { q.update idx fun _ => none with free := q.free ++ [idx] }
  Qp.advance q.free.length q

/-- One addition of a completing entry to a counter of this device (R77, R123): it releases, and what it satisfies
fires. -/
def State.entryAdd (s : State) (p qp idx n : Nat) (x : W64) : State :=
  match s.tcNumber p n with
  | .ok k => (s.release (.entry qp idx) 3 (.tc k)).addTc k x
  | .error _ => s

/-- The additions of a completing entry, one after the other: LINC here, then RINC at the peer (R123). -/
def State.completeAdds (s : State) (p qp : Nat) (q : Qp) (w : Work) : State :=
  let s := if w.word.getLsbD 49 then s.entryAdd p qp w.idx (bf w.word 24 12) (w64 (bf w.word 384 32)) else s
  if w.word.getLsbD 50 then
    if q.peer = 0 then s.entryAdd p qp w.idx (bf w.word 12 12) (w64 (bf w.word 416 32))
    else { s with sent := s.sent ++ [.peerCounter qp (bf w.word 12 12) (BitVec.ofNat 32 (bf w.word 416 32))] }
  else s

/-- What stops an entry's addition at its peer: a counter beyond the grant, or a port that holds it (R118, R129). -/
def State.remoteErr (s : State) (p : Nat) (q : Qp) (w : Work) : Option Exc :=
  if !w.word.getLsbD 50 then none
  else if q.peer = 0 then excOf (s.tcNumber p (bf w.word 12 12))
  else excOf (s.peerReach p q)

/-- entry completion. -/
def execEntryComplete (qp n : Nat) (s : State) : Host.Outcome State Fault Refusal :=
  let q := s.qp qp
  match s.qpPart qp, q.works.find? fun w => w.idx == n && w.done && w.fail.isNone with
  | some (p, _), some w =>
    match { s with asked := w.held }.remoteErr p q w with
    | some (.hold r) => .next (s.holdWork qp n r)
    | some e => .next (s.failWork qp n e)
    | none =>
      let t := s.completeAdds p qp q w
      .next (t.setQp qp ((t.qp qp).finish n)).fireAll
  | _, _ => .next s

/-- The bytes that an entry accesses at an address field (R124); none at a field that its kind ignores. -/
def Work.span (w : Work) (lo : Nat) : Nat :=
  let z := dtypeSize w.dtype
  let table := 2 * ((w.len + 255) / 256)
  match w.kind with
  | 0 => if lo = fAux then 0 else w.len
  | 1 => if w.dtype = 4 then 0 else if lo = fAux then (if w.isFp then table else 0) else if lo = fDst && w.isFp then 8 * w.len else z * w.len
  | 2 => if lo = fAux then 0 else if w.dtype = 5 then 2 * w.len else if lo = fDst then table else z * w.len
  | 4 => if w.opm = 2 ∧ lo = fSrc then 0 else if lo = fAux then (if w.isFp && w.opm == 1 then table else 0) else w.len
  | _ => 0

/-- The external target behind an address, if there is one (R298). -/
def targetOf : Except Exc Nat → Option Nat
  | .ok k => if isExt k then some (extTarget k) else none
  | .error (.hold r) => some (extTarget r.key)
  | .error (.caused (.host k) _ _ _) => some (extTarget k)
  | .error _ => none

/-- The external targets that an entry reaches at an address field, line by line. -/
def State.targetsAt (s : State) (part : Nat) (w : Work) (lo : Nat) : List Nat :=
  if w.chb lo || !inAperture (w.addr lo) then []
  else (List.range ((w.span lo + 255) / 256)).filterMap fun i => targetOf (s.resolvePart part (w64 (w.addr lo + 256 * i)) {})

/-- The external targets that an entry reaches: fabric ports, or 16 for the host. Its peer is one where it reaches the peer's
chunk buffers or a counter there (R122, R123). -/
def State.targets (s : State) (part : Nat) (q : Qp) (w : Work) : List Nat :=
  let peer := if q.peer = 1 then [q.port] else if q.peer = 2 then [16] else []
  (if w.chb fDst || w.chb fAux || w.word.getLsbD 50 then peer else [])
    ++ s.targetsAt part w fSrc ++ s.targetsAt part w fDst ++ s.targetsAt part w fAux

/-- The codes with which what an entry reaches may refuse it: the host ACCESS (R321); a fabric peer (R118, R124-R129) ACCESS,
XLATE, FORMAT, POISON, UNCORRECTABLE, and SKETCH_MISMATCH for a sketch. -/
def State.refusals (s : State) (part : Nat) (q : Qp) (w : Work) : List Nat :=
  let ts := s.targets part q w
  if ts.any fun t => !(t == 16) then [5, 4, 6, 8, 9] ++ (if w.kind = 1 ∧ w.dtype = 4 then [0x0E] else [])
  else if ts.isEmpty then [] else [5]

/-- The failure of an entry of a partition: what it met, or a refusal outside this device, whose code is a free value (R118,
R129, log 15). -/
def State.failureOf (s : State) (part : Nat) (q : Qp) (w : Work) : Option (Nat × W64 × Nat) :=
  match w.fail with
  | some f => some f
  | none =>
    if w.fired then
      match Config.peerAnswer s.free with
      | 0 => none
      | n + 1 => ((s.refusals part q w)[n]?).map fun c => (c, 0, 0)
    else none

/-- entry failure: a record with the ring index, and the queue pair enters ERROR. -/
def execEntryFail (qp n : Nat) (s : State) : Host.Outcome State Fault Refusal :=
  let q := s.qp qp
  match s.qpPart qp, q.works.find? fun w => w.idx == n with
  | some (p, rel), some w =>
    match s.failureOf p q w with
    | some f =>
      let r : Record := { code := f.1, unit := 9, index := rel, cid := bf q.cfg 34 4, addr := f.2.1.toNat,
                          caddr := q.place n, detail := f.2.2 + n % q.size * 2 ^ 16 }
      let bad := match q.bad with | some b => min b n | none => n
      let q := { q.finish n with state := if q.state = .on then .error else q.state, bad := some bad }
      .next (({ s with free := s.free + 1 }.setQp qp q).postTo p (bf q.cfg 34 4) r)
    | none => .next s
  | _, _ => .next s

/-- remote counter addition: a counter beyond the partition's grant is refused (R117, R118, R120). -/
def execRemoteCounterAdd (part tc : Nat) (inc : W32) (s : State) : Host.Outcome State Fault Refusal :=
  if (s.part part).pstate = 0 then .next { s with sent := s.sent ++ [.refused] }
  else
    match s.tcNumber part tc with
    | .ok k => .next (s.addTc k (inc.setWidth 64))
    | .error _ => .next { s with sent := s.sent ++ [.refused] }

/-- A reset queue pair is empty and OFF. -/
def Qp.emptied (q : Qp) (st : QpState) : Qp :=
  { q with state := st, head := 0, tail := 0, arm := 0, works := [], free := [], bad := none }

/-- queue pair reset done: the entries that had fired have ended. -/
def execQpResetDone (qp : Nat) (s : State) : Host.Outcome State Fault Refusal :=
  let q := s.qp qp
  if q.state = .resetting ∧ q.works.isEmpty = true then .next (s.setQp qp (q.emptied .off)) else .next s

end Sys2Proof.Machine
end

