-- ==== Sys2Proof/Machine/Pool.lean ====
section
/-! DEFINITION. The fields of node and tile records, and what the ready pool's entries say (R132-R137, R344). -/

namespace Sys2Proof.Machine

/-! ### Record fields (R132) -/

/-- KIND of a record. -/
def recKind (r : BitVec 512) : Nat := bf r 0 2
/-- PRIO of a record of either kind. -/
def recPrio (r : BitVec 512) : Nat := bf r 26 2
/-- STG of a record of either kind. -/
def recStg (r : BitVec 512) : Nat := bf r 28 4

/-- The limits of a node record. -/
def nodeRecordOk (r : BitVec 512) : Bool :=
  bf r 504 8 == 0 && bf r 440 8 == 0 && bf r 376 8 == 0 && bf r 40 184 == 0 && bf r 7 17 == 0 && bf r 2 2 == 0
    && (bf r 272 16 == 0 || bf r 448 2 == 0) && bf r 320 8 == 0 && !(bf r 288 32 == 0) && decide (bf r 272 16 ≤ 4095)
    && decide (bf r 24 2 ≤ 2) && (if bf r 24 2 = 0 then decide (1 ≤ bf r 32 8) && decide (bf r 32 8 ≤ 128) else bf r 32 8 == 1)

/-- The limits of a tile record: its low 32 bytes. -/
def tileRecordOk (r : BitVec 512) : Bool :=
  bf r 248 8 == 0 && bf r 192 8 == 0 && bf r 184 8 == 0 && !(bf r 96 32 == 0) && bf r 64 2 == 0 && bf r 9 17 == 0
    && bf r 2 3 == 0 && decide (bf r 66 6 ≤ 32) && (bf r 8 1 == 1 || decide (bf r 72 12 + bf r 66 6 ≤ 4096))

/-! ### Pool entries (R133-R137) -/

/-- A pool entry (R133). -/
def State.entry (s : State) (n : Nat) : Option Entry := s.disp.pool.get? n

/-- An entry holds a tile or a correction record, which has no node identity (R137). -/
def Entry.isTile (e : Entry) : Bool := e.kind = .tile || e.kind = .runTile || e.kind = .corr
/-- TGT: 0 a gang, 1 the proofer, 2 a bank-unit routine; a tile is a gang. -/
def Entry.tgt (e : Entry) : Nat := if e.isTile then 0 else bf e.record 24 2
/-- GSZ: a tile is a gang of one. -/
def Entry.gsz (e : Entry) : Nat := if e.isTile then 1 else bf e.record 32 8
/-- KERN. -/
def Entry.kern (e : Entry) : Nat := if e.isTile then bf e.record 192 56 else bf e.record 320 56
/-- OPND. -/
def Entry.opnd (e : Entry) : Nat := if e.isTile then bf e.record 128 56 else bf e.record 384 56
/-- BUDGET. -/
def Entry.budget (e : Entry) : Nat := if e.isTile then bf e.record 96 32 else bf e.record 288 32
/-- JOIN of a tile record. -/
def Entry.join (e : Entry) : Nat := bf e.record 32 16
/-- WS of a tile record. -/
def Entry.wsField (e : Entry) : Nat := bf e.record 5 3
/-- What a node reads as NID: a tile reads its JOIN (R137). -/
def Entry.nidValue (e : Entry) : Nat := if e.isTile then e.join else e.nid

/-- The identity fields of a record about a pool entry (R305, R137). -/
def Entry.identify (e : Entry) (n : Nat) (r : Record) : Record :=
  { r with nv := !e.isTile, graph := e.graph, nid := if e.isTile then n else e.nid }

/-! ### Preload marks (R143) -/

/-- The identity a mark keeps: a tile's is its handle, apart from every NID. -/
def Entry.markId (e : Entry) (n : Nat) : Nat := if e.isTile then n + 2 ^ 16 else e.nid
/-- A mark is of an entry. -/
def Mark.isOf (m : Mark) (n : Nat) (e : Entry) : Bool := m.part == e.part && m.graph == e.graph && m.nid == e.markId n

/-- Forgets the marks of an entry. -/
def State.dropMarks (s : State) (n : Nat) (e : Entry) : State :=
  { s with cores := s.cores.map fun c => (c.1, { c.2 with marks := c.2.marks.filter fun m => !m.2.isOf n e }) }

/-! ### Records -/

/-- Where records about an entry go, and their CID and COR (R344): rank 0's core of a gang, a proofer node's cluster,
for the rest the partition's lowest-numbered cluster. -/
def State.entryPlace (s : State) (e : Entry) : Nat × Nat :=
  match e.tgt with
  | 0 => match e.cores with
    | g :: _ => (cidOf g, corOf g)
    | [] => (s.lowCluster e.part, 0)
  | 1 => (e.cluster, 0)
  | _ => (s.lowCluster e.part, 0)

/-- Posts a record of the dispatcher about an entry (R344). -/
def State.entryRecord (s : State) (n : Nat) (e : Entry) (r : Record) : State :=
  let (c, k) := s.entryPlace e
  s.postTo e.part c (e.identify n { r with cid := c, cor := k })

/-- The BUDGET record of an entry (R141, R344). -/
def State.budgetRecord (s : State) (n : Nat) (e : Entry) (unsaved : Bool) : State :=
  s.entryRecord n e { code := 0x0D, unit := 8, detail := unsaved.toNat }

/-- The BUDGET record of a gang that is halted with nothing saved: it waits for the gang's accesses (R309). -/
def State.budgetStop (s : State) (n : Nat) (e : Entry) : State :=
  let (c, k) := s.entryPlace e
  let r : Record := { code := 0x0D, unit := 8, detail := 1, cid := c, cor := k }
  { s with due := s.due ++ [{ part := e.part, cluster := c, record := e.identify n r, cores := e.cores }] }

/-- A read by the dispatcher for a partition: translation, and UNCORRECTABLE (R298, R311, R135, R137). -/
def State.dispRead (s : State) (part : Nat) (a n : Nat) : Except Exc (Nat × State) :=
  match s.resolvePart part (w64 a) { rd := true } with
  | .error e => .error e
  | .ok k =>
    if s.badIn k n then .error (s.lost k n (w64 a)) else .ok (s.load k n)

end Sys2Proof.Machine
end

