-- ==== Sys2Proof/Machine/Preg.lean ====
section
/-! DEFINITION. The privileged registers: what a read returns, and the checked write of each (R87, R119, R285-R291,
R296, R320, R322, R324, R326, R328-R330, R337). -/

namespace Sys2Proof.Machine

/-! ### What the checks ask of the machine -/

/-- Partitions that are not EMPTY. -/
def State.live (s : State) : List Nat := (List.range numParts).filter fun p => !((s.part p).pstate == 0)
/-- Another partition that is not EMPTY meets a test. -/
def State.another (s : State) (p : Nat) (f : Part → Bool) : Bool := s.live.any fun q => !(q == p) && f (s.part q)

/-- A dispatched node stands on a cluster. -/
def Entry.runsOn (e : Entry) (c : Nat) : Bool :=
  e.phase = .running && (match e.tgt with
    | 0 => e.cores.any fun g => cidOf g == c
    | 1 => e.cluster == c
    | _ => false)
/-- A dispatched node stands on a cluster, or one is preloaded there (R289). -/
def Entry.onCluster (e : Entry) (c : Nat) : Bool := e.runsOn c || e.preloads.any fun g => cidOf g == c

/-- A node is dispatched or preloaded on a cluster. -/
def State.clusterBusy (s : State) (c : Nat) : Bool := s.disp.pool.any fun e => e.2.onCluster c
/-- A node is dispatched. -/
def State.anyDispatched (s : State) : Bool := s.disp.pool.any fun e => e.2.phase == .running
/-- A peel save has been asked for and not made. -/
def State.savePending (s : State) (c : Option Nat) : Bool :=
  s.disp.pool.any fun e => !e.2.preempt.isEmpty && (match c with
    | none => true
    | some c => e.2.cores.any fun g => cidOf g == c)
/-- Every partition is STOPPED or EMPTY. -/
def State.allStopped (s : State) : Bool := (List.range numParts).all fun p => decide ((s.part p).pstate ≤ 1)

/-- A cluster that this start left out joins no partition (R335). -/
def State.leftOut (s : State) (c : Nat) : Bool := s.root.left.contains c
/-- Clusters of an owner mask. -/
def maskBits (n : Nat) (v : W64) : List Nat := (List.range n).filter fun i => v.getLsbD i

/-! ### Interrupts (R286) -/

/-- A fault queue of a partition's clusters holds a record. -/
def State.fqPending (s : State) (p : Nat) : Bool :=
  (maskBits numClusters (s.part p).pcl).any fun c =>
    !(Mem.readN s.mem (s.faultQueue p c) 8 == Mem.readN s.mem (s.faultQueue p c + 8) 8)

/-- A queue pair of a partition is in ERROR. -/
def State.qePending (s : State) (p : Nat) : Bool :=
  let g := (s.part p).pqp
  s.qps.any fun e => e.2.state == .error && decide (bf g 0 10 ≤ e.1) && decide (e.1 < bf g 0 10 + bf g 16 11)

/-- The record that raised PF has not been drained (R315). -/
def State.pfPending (s : State) (p : Nat) : Bool :=
  match (s.part p).pf with
  | none => false
  | some n => decide (2 ^ 63 ≤ (Mem.readN s.mem (s.faultQueue p (s.lowCluster p) + 8) 8 + 2 ^ 64 - n - 1) % 2 ^ 64)

/-- IPEND of a hearth core; a node command may have been for an EMPTY partition (R291). -/
def State.ipend (s : State) (h : Nat) : Nat :=
  let own := s.live.filter fun p => bf (s.part p).pfqt 0 4 == h
  let done := (List.range numParts).any fun p => bf (s.part p).pfqt 0 4 == h && (s.part p).nc
  let mail := s.live.filter fun p => bf (s.part p).pfqt 4 4 == h
  let bit (b n : Nat) (x : Bool) : Nat := if x then 2 ^ b * n else 0
  bit 0 1 (own.any s.fqPending) + bit 1 1 done + bit 2 1 (mail.any fun p => (s.part p).mb)
    + bit 3 1 (own.any s.qePending) + bit 4 1 (own.any s.pfPending)

/-- The level an interrupt is routed to. -/
def Hearth.routed (x : Hearth) (b : Nat) : Nat := if x.iroute.getLsbD b then 2 else 1
/-- An interrupt is clear in the mask of its level. -/
def Hearth.open_ (x : Hearth) (b : Nat) : Bool := if x.routed b = 2 then !x.imaskH.getLsbD b else !x.imaskS.getLsbD b
/-- The interrupts that are pending and unmasked, lowest first. -/
def State.pending (s : State) (h : Nat) : List Nat :=
  (List.range 16).filter fun b => fld (s.ipend h) b 1 == 1 && (s.hearth h).open_ b
/-- The interrupt taken next: its level is above the current one, or equal with IE set. -/
def State.takeable (s : State) (h : Nat) : Option Nat :=
  let x := s.hearth h
  (s.pending h).find? fun b => decide (x.lv < x.routed b) || (x.lv == x.routed b && x.ie)

/-! ### Partition registers (R287, R288) -/

/-- A partition register by its number. -/
def Part.reg (p : Part) : Nat → W64
  | 0x821 => BitVec.ofNat 64 p.pstate
  | 0x822 => p.pcl | 0x823 => p.pslc | 0x824 => p.pqp | 0x825 => p.ptc | 0x826 => p.pport | 0x827 => p.pvf
  | 0x828 => p.prq | 0x829 => p.ppool | 0x82A => p.psave | 0x82B => p.psaven | 0x82C => p.pfqt | 0x82D => p.pmbx
  | 0x82E => p.pchb | 0x82F => p.pdbg
  | _ => 0

/-- Replaces a partition register; PSTATE has its own rule. -/
def Part.setReg (p : Part) (num : Nat) (v : W64) : Part :=
  match num with
  | 0x822 => { p with pcl := v } | 0x823 => { p with pslc := v } | 0x824 => { p with pqp := v }
  | 0x825 => { p with ptc := v } | 0x826 => { p with pport := v } | 0x827 => { p with pvf := v }
  | 0x828 => { p with prq := v } | 0x829 => { p with ppool := v } | 0x82A => { p with psave := v }
  | 0x82B => { p with psaven := v } | 0x82C => { p with pfqt := v } | 0x82D => { p with pmbx := v }
  | 0x82E => { p with pchb := v } | 0x82F => { p with pdbg := v }
  | _ => p

/-- A base and count share a number with another partition's. -/
def State.rangeTaken (s : State) (p : Nat) (f : Part → Nat × Nat) (base n : Nat) : Bool :=
  s.another p fun q => meet (f q).1 (f q).2 base n && decide (0 < n) && decide (0 < (f q).2)

/-- PQP's base and count. -/
def Part.qpGrant (p : Part) : Nat × Nat := (bf p.pqp 0 10, bf p.pqp 16 11)
/-- PTC's base and count. -/
def Part.tcGrant (p : Part) : Nat × Nat := (bf p.ptc 0 12, bf p.ptc 16 13)
/-- PCHB's base and size. -/
def Part.chbGrant (p : Part) : Nat × Nat := (bf p.pchb 0 10, bf p.pchb 16 10)
/-- PPOOL's reservation. -/
def Part.reservation (p : Part) : Nat := bf p.ppool 0 13
/-- PPOOL's cap. -/
def Part.cap (p : Part) : Nat := bf p.ppool 16 13

/-- A value of a partition register keeps its fields' limits and takes nothing another partition holds. -/
def State.partRegOk (s : State) (p num : Nat) (v : W64) : Bool :=
  match num with
  | 0x822 => bf v 16 48 == 0 && !s.another p (fun q => !(q.pcl &&& v == 0)) && !((maskBits numClusters v).any s.leftOut)
  | 0x823 => bf v 32 32 == 0 && !s.another p (fun q => !(q.pslc &&& v == 0))
  | 0x824 =>
    bf v 10 6 == 0 && bf v 27 37 == 0 && decide (bf v 0 10 + bf v 16 11 ≤ 1024)
      && !s.rangeTaken p Part.qpGrant (bf v 0 10) (bf v 16 11)
  | 0x825 =>
    bf v 12 4 == 0 && bf v 29 35 == 0 && decide (bf v 0 12 + bf v 16 13 ≤ 4096)
      && !s.rangeTaken p Part.tcGrant (bf v 0 12) (bf v 16 13)
  | 0x826 => bf v 16 48 == 0 && !s.another p (fun q => !(q.pport &&& v == 0))
  | 0x827 => bf v 1 63 == 0
  | 0x828 => bf v 60 4 == 0 && decide (bf v 56 4 ≤ 10) && bf v 0 12 == 0
  | 0x829 =>
    bf v 13 3 == 0 && bf v 29 35 == 0 && decide (bf v 0 13 ≤ 4096) && decide (bf v 16 13 ≤ 4096)
      && decide (bf v 0 13 + ((s.live.filter fun q => !(q == p)).map fun q => (s.part q).reservation).sum ≤ 4096)
  | 0x82A => bf v 0 21 == 0 && bf v 51 13 == 0
  | 0x82B => decide (v.toNat ≤ 2048)
  | 0x82C => bf v 8 56 == 0
  | 0x82D => bf v 0 12 == 0 && bf v 56 8 == 0
  | 0x82E =>
    bf v 10 6 == 0 && bf v 26 38 == 0 && decide (bf v 0 10 + bf v 16 10 ≤ 1024)
      && !s.rangeTaken p Part.chbGrant (bf v 0 10) (bf v 16 10)
  | 0x82F => bf v 1 63 == 0
  | _ => false

/-- A cluster leaves a partition: it needs a CLEAR before it joins one, and its TU is emptied (R288, R299). -/
def State.leave (s : State) (c : Nat) (tu : Bool) : State :=
  let x := s.cluster c
  s.setCluster c { x with cleared := false, tlb := if tu then [] else x.tlb }

/-- A write of a partition register other than PSTATE. -/
def State.wrPartReg (s : State) (num : Nat) (p : Nat) (v : W64) : Except Exc State :=
  let x := s.part p
  let added := maskBits numClusters (v &&& ~~~x.pcl)
  if (x.pstate = 2 ∧ num ≠ 0x82F) ∨ s.partRegOk p num v = false
      ∨ (num = 0x822 ∧ (added.all fun c => (s.cluster c).cleared) = false) then .error illegal
  else
    let gone := if num = 0x822 then maskBits numClusters (x.pcl &&& ~~~v) else []
    let s := gone.foldl (fun s c => if x.pstate = 0 then s.setCluster c { s.cluster c with tlb := [] } else s.leave c true) s
    .ok (s.setPart p ((s.part p).setReg num v))

/-- EMPTY to STOPPED: the registers are checked again and the partition's resources reset (R288). -/
def State.create (s : State) (p : Nat) : Except Exc State :=
  let x := s.part p
  let ok := (List.range 14).all fun i => s.partRegOk p (0x822 + i) (x.reg (0x822 + i))
  if !ok || !((maskBits numClusters x.pcl).all fun c => (s.cluster c).cleared) then .error illegal
  else
    let (qb, qn) := x.qpGrant
    let (tb, tn) := x.tcGrant
    .ok ({ s with
      creels := s.creels.filter fun e => !(x.pslc.getLsbD (creelSlice e.1))
      tcs := s.tcs.filter fun e => !(decide (tb ≤ e.1) && decide (e.1 < tb + tn))
      qps := s.qps.filter fun e => !(decide (qb ≤ e.1) && decide (e.1 < qb + qn))
      ingest := s.ingest.filter fun e => !(e.part == p) }.setPart p { x with
        pstate := 1, ws := Vector.replicate 8 {}, scrb := 3600, scrubAt := s.clock, pptb := 0, qpsel := 0
        qhead := 0, qtail := 0, qpost := [], nc := false, mb := false, pf := none, hidden := [], ingt := 0 })

/-- No node of a partition holds a pool entry or a save slot. -/
def State.vacant (s : State) (p : Nat) : Bool := !(s.disp.pool.any fun e => e.2.part == p)

/-- STOPPED to EMPTY: its clusters leave it. -/
def State.destroy (s : State) (p : Nat) : Except Exc State :=
  if !s.vacant p then .error illegal
  else
    let t := (maskBits numClusters (s.part p).pcl).foldl (fun s c => s.leave c false) s
    .ok (t.setPart p { t.part p with pstate := 0 })

/-- A write of PSTATE. -/
def State.wrPstate (s : State) (p : Nat) (v : W64) : Except Exc State :=
  match (s.part p).pstate, v.toNat with
  | 0, 1 => s.create p
  | 1, 2 => .ok (s.setPart p { s.part p with pstate := 2 })
  | 2, 1 => .ok (s.setPart p { s.part p with pstate := 1 })
  | 1, 0 => s.destroy p
  | _, _ => .error illegal

/-! ### Stages, scrub interval, predictor table (R289, R290, R87) -/

/-- A write of CSTG. -/
def State.wrCstg (s : State) (h : Nat) (v : W64) : Except Exc State :=
  let x := s.hearth h
  let changed := (List.range numClusters).filter fun c => !(bf v (4 * c) 4 == bf s.cstg (4 * c) 4)
  let may (c : Nat) : Bool := (x.lv == 2 || (s.part x.hpart).pcl.getLsbD c) && !s.clusterBusy c
  if changed.all may then .ok { s with cstg := v } else .error illegal

/-- The stage of a cluster (R10). -/
def State.stageOf (s : State) (c : Nat) : Nat := bf s.cstg (4 * c) 4

/-- A write of SCRB: the next pass is timed from it. -/
def State.wrScrb (s : State) (p : Nat) (v : W64) : Except Exc State :=
  if v = 0 ∨ bf v 16 48 ≠ 0 then .error illegal
  else .ok (s.setPart p { s.part p with scrb := v, scrubAt := s.clock })

/-- A write of PPTB. -/
def State.wrPptb (s : State) (p : Nat) (v : W64) : Except Exc State :=
  if bf v 56 8 ≠ 0 ∨ bf v 1 7 ≠ 0 ∨ (bf v 0 1 = 1 ∧ s.sharedOk p (bf v 8 48 * 2 ^ 8) ptSize = false) then .error illegal
  else .ok (s.setPart p { s.part p with pptb := v })

/-! ### Queue pairs (R119) -/

/-- The queue pair that QPSEL names; with no such grant, no register is reached. -/
def State.selQp (s : State) (p : Nat) : Except Exc Nat :=
  let (b, n) := (s.part p).qpGrant
  if (s.part p).qpsel < n then .ok (b + (s.part p).qpsel) else .error illegal

/-- A write of QPSEL. -/
def State.wrQpsel (s : State) (p : Nat) (v : W64) : Except Exc State :=
  if v.toNat < (s.part p).qpGrant.2 then .ok (s.setPart p { s.part p with qpsel := v.toNat }) else .error illegal

/-- The limits of QPCFG for a partition. -/
def Part.qpcfgOk (x : Part) (v : W64) : Bool :=
  let kind := bf v 62 2
  decide (kind ≤ 2) && bf v 0 30 == 0 && decide (bf v 30 4 ≤ 8) && x.pcl.getLsbD (bf v 34 4)
    && (if kind = 1 then x.pport.getLsbD (bf v 58 4) else bf v 38 24 == 0)

/-- A write of QPCFG. -/
def State.wrQpcfg (s : State) (p : Nat) (v : W64) : Except Exc State :=
  match s.selQp p with
  | .error e => .error e
  | .ok n =>
    if (s.qp n).state ≠ .off ∨ (s.part p).qpcfgOk v = false then .error illegal else .ok (s.setQp n { s.qp n with cfg := v })

/-- A write of QPBASE. -/
def State.wrQpbase (s : State) (p : Nat) (v : W64) : Except Exc State :=
  match s.selQp p with
  | .error e => .error e
  | .ok n =>
    if (s.qp n).state ≠ .off ∨ bf v 56 8 ≠ 0 ∨ bf v 0 12 ≠ 0 then .error illegal else .ok (s.setQp n { s.qp n with base := v })

/-- EN = 1. -/
def State.qpEnable (s : State) (p n : Nat) : Except Exc State :=
  let q := s.qp n
  match q.state with
  | .on => .ok s
  | .off =>
    let bytes := 64 * q.size
    if s.sharedOk p q.base.toNat bytes ∧ q.base.toNat % max bytes 4096 = 0 then .ok (s.setQp n (q.emptied .on))
    else .error illegal
  | _ => .error illegal

/-- EN = 0. -/
def State.qpDisable (s : State) (n : Nat) : Except Exc State :=
  let q := s.qp n
  match q.state with
  | .off => .ok s
  | .on => if q.head = q.tail then .ok (s.setQp n (q.emptied .off)) else .error illegal
  | _ => .error illegal

/-- RESET: posted entries that have not fired are discarded; one that has failed stays until its record is posted (R129). -/
def State.qpReset (s : State) (n : Nat) : State :=
  let q := s.qp n
  s.setQp n { q with state := .resetting, works := q.works.filter fun w => w.fired || w.fail.isSome }

/-- A write of QPCTL. -/
def State.wrQpctl (s : State) (p : Nat) (v : W64) : Except Exc State :=
  match s.selQp p with
  | .error e => .error e
  | .ok n =>
    if bf v 4 60 ≠ 0 ∨ bf v 0 2 = 3 then .error illegal
    else if bf v 1 1 = 1 then .ok (s.qpReset n)
    else if bf v 0 1 = 1 then s.qpEnable p n
    else s.qpDisable n

/-- STATE as QPCTL codes it. -/
def QpState.code : QpState → Nat
  | .off => 0 | .on => 1 | .error => 2 | .resetting => 3

/-! ### Mailbox (R322) and ingest (R326) -/

/-- ACK clears MB. -/
def State.mbAck (s : State) (p : Nat) : State := s.setPart p { s.part p with mb := false }
/-- SIG sends the vector of the partition's virtual function (R319). -/
def State.mbSig (s : State) (p : Nat) : State :=
  if bf (s.part p).pvf 0 1 = 1 then { s with sent := s.sent ++ [.msix p] } else s

/-- A write of MBCTL. -/
def State.wrMbctl (s : State) (p : Nat) (v : W64) : Except Exc State :=
  if bf v 2 62 ≠ 0 then .error illegal
  else
    let s := if bf v 0 1 = 1 then s.mbAck p else s
    .ok (if bf v 1 1 = 1 then s.mbSig p else s)

/-- A weight-set table entry of a partition (R64): where it lies, BASE, LEN in lines, DIGEST and STATE. -/
def State.shardEntry (s : State) (p slot expert shard : Nat) : Except Exc (Nat × Nat × Nat × Nat × Nat) :=
  let w := (s.part p).wsAt slot
  match s.dispRead p (w.table.toNat + 32 * (expert * w.shards + shard)) 32, s.resolvePart p (w.table + w64 (32 * (expert * w.shards + shard))) { rd := true } with
  | .ok (v, _), .ok k => .ok (k, fld v 0 64, fld v 64 64 / 256, fld v 128 64, fld v 192 64)
  | .error e, _ => .error e
  | _, .error e => .error e

/-- The addresses of a shard's lines (R326). -/
def shardLines (base n : Nat) : List Nat := (List.range n).map fun i => base + 256 * i

/-- An armed check is the one INGT's fields name. -/
def Ingest.isFor (i : Ingest) (p : Nat) (v : W64) : Bool :=
  i.part == p && i.slot == bf v 0 3 && i.expert == bf v 16 12 && i.shard == bf v 32 6

/-- Arms a check. -/
def State.arm (s : State) (p : Nat) (v : W64) : Except Exc State :=
  let w := (s.part p).wsAt (bf v 0 3)
  let mine := s.ingest.filter fun i => i.part == p && !i.isFor p v
  if w.state = .free ∨ w.experts ≤ bf v 16 12 ∨ w.shards ≤ bf v 32 6 ∨ 16 ≤ mine.length then .error illegal
  else
    let lines := match s.shardEntry p (bf v 0 3) (bf v 16 12) (bf v 32 6) with
      | .ok (_, base, n, _, _) => shardLines base n
      | .error _ => []
    let i : Ingest := { part := p, slot := bf v 0 3, expert := bf v 16 12, shard := bf v 32 6, left := lines }
    .ok { s with ingest := (s.ingest.filter fun i => !i.isFor p v) ++ [i] }

/-- A write of INGT. -/
def State.wrIngt (s : State) (p : Nat) (v : W64) : Except Exc State :=
  if bf v 38 25 ≠ 0 ∨ bf v 28 4 ≠ 0 ∨ bf v 3 13 ≠ 0 then .error illegal
  else
    let keep (s : State) : State := s.setPart p { s.part p with ingt := v }
    if bf v 63 1 = 1 then
      match s.arm p v with
      | .ok t => .ok (keep t)
      | .error e => .error e
    else .ok (keep { s with ingest := s.ingest.filter fun i => !i.isFor p v })

/-- INGT as it reads. -/
def State.rdIngt (s : State) (p : Nat) : W64 :=
  let v := (s.part p).ingt
  let armed := s.ingest.any fun i => i.isFor p v
  (v &&& 0x7FFFFFFFFFFFFFFF) ||| (if armed then 0x8000000000000000 else 0)

/-! ### Ports (R328, R329) -/

/-- FPS as it reads. -/
def Port.word (x : Port) : W64 :=
  w64 (x.state + x.conf.toNat * 2 ^ 3 + x.drain.toNat * 2 ^ 8 + x.lanes * 2 ^ 12 + x.peer * 2 ^ 32)
/-- Replaces a port. -/
def State.setPort (s : State) (n : Nat) (x : Port) : State := { s with ports := s.ports.set n x }
/-- DRAIN = 1: an UP port becomes DRAINING. -/
def Port.drain1 (x : Port) : Port :=
  if x.state = 2 then { x with drain := true, state := 3, flit := false, conf := false } else { x with drain := true }
/-- DRAIN = 0: a draining or drained port returns to TRAIN. -/
def Port.drain0 (x : Port) : Port :=
  if x.state = 3 ∨ x.state = 4 then { x with drain := false, state := 1, flit := false, conf := false }
  else { x with drain := false }
/-- A write of FPS changes only DRAIN. -/
def State.wrFps (s : State) (n : Nat) (v : W64) : State :=
  s.setPort n (if bf v 8 1 = 1 then (s.port n).drain1 else (s.port n).drain0)

/-! ### Eviction (R330) -/

/-- The conditions of the signal. -/
def State.mayUnlatch (s : State) : Bool :=
  s.allStopped && !s.anyDispatched && !s.savePending none && (s.qps.all fun e => e.2.works.isEmpty)
    && (List.range 16).all fun n => let x := s.port n; (x.state == 4 && x.conf) || x.state == 0

/-- Milliseconds since START. -/
def State.evictMs (s : State) : Nat := if s.evict.running then (s.clock - s.evict.start) / 800000 % 2 ^ 32 else 0

/-- EVC as it reads: UNL reads 1 while the signal is raised. -/
def State.rdEvc (s : State) : W64 :=
  w64 (s.evict.running.toNat + (s.evict.signal && s.mayUnlatch).toNat * 2 + s.evict.late.toNat * 4 + s.evictMs * 2 ^ 32)

/-- LATE is set at 30,000 ms with UNL still 0, with a PLDM event. -/
def State.evcLate (s : State) : State :=
  let x := s.evict
  if x.running && s.clock - x.start == 30000 * 800000 && !x.late && !x.unl then
    { s with evict := { x with late := true }, sent := s.sent ++ [.pldm (toBytes 8 30000)] }
  else s

/-- The signal is raised exactly while UNL is 1 and its conditions hold; in the first cycle in which one fails it drops, and
UNL with it. -/
def State.settleSignal (s : State) : State :=
  if s.evict.unl then
    if s.mayUnlatch then { s with evict := { s.evict with signal := true } }
    else if s.evict.signal then { s with evict := { s.evict with signal := false, unl := false } }
    else s
  else s

/-- START = 1. -/
def Evict.begin (x : Evict) (now : Nat) : Evict := { x with running := true, start := now, late := false }
/-- UNL as written: with 0 the signal drops. -/
def Evict.request (x : Evict) (unl : Bool) : Evict := { x with unl := unl, signal := x.signal && unl }

/-- A write of EVC. -/
def State.wrEvc (s : State) (v : W64) : Except Exc State :=
  if bf v 3 29 ≠ 0 then .error illegal
  else
    let x := s.evict.request (bf v 1 1 == 1)
    .ok { s with evict := if bf v 0 1 = 1 then x.begin s.clock else x }

/-! ### Islands (R337) -/

/-- A state as ISL codes it: RUN 0, IDLE 1, OFF 2; an island that is starting still reads OFF. -/
def Island.code (x : Island) : Nat := match x.state with | 2 => 0 | 1 => 1 | _ => 2
/-- The state a code asks for. -/
def wantedState (code : Nat) : Nat := 2 - code
/-- ISL as it reads. -/
def State.rdIsl (s : State) : W64 := w64 (((List.range 32).map fun i => (s.island i).code * 2 ^ (2 * i)).sum)

/-- A cluster's island may go OFF: every partition whose PCL holds it is STOPPED, no node is dispatched there, and no save
is in progress. -/
def State.clusterOff (s : State) (c : Nat) : Bool :=
  (List.range numParts).all (fun p => !(s.part p).pcl.getLsbD c || (s.part p).pstate == 1)
    && !(s.disp.pool.any fun e => e.2.runsOn c) && !s.savePending (some c)

/-- The conditions for OFF, given the states a write asks for. -/
def State.mayOff (s : State) (v : W64) (i : Nat) : Bool :=
  if i = 28 then false
  else if i = 29 ∨ i = 31 then s.allStopped
  else if i = 30 then s.allStopped && (List.range 16).all fun n => (s.port n).state == 4 || (s.port n).state == 0
  else
    let d := i / 7
    match i % 7 with
    | 4 => !(s.live.any fun p => !(fld (s.part p).pslc.toNat (8 * d) 8 == 0))
    | 5 => s.allStopped
    | 6 => (List.range 6).all fun j => bf v (2 * (7 * d + j)) 2 == 2
    | j => s.clusterOff (4 * d + j)

/-- An island takes the state asked for: between RUN and IDLE at once; to OFF at once; from OFF it waits to start. -/
def Island.ask (x : Island) (want : Nat) : Island :=
  if want = 0 then { x with state := 0, target := 0, groups := 0, asked := none }
  else if x.state = 1 ∨ x.state = 2 then { x with state := want, target := want, asked := if want = 1 then x.asked else none }
  else { x with target := want }

/-- A write of ISL: an island that is OFF goes nowhere when OFF is asked of it again (log 30). -/
def State.wrIsl (s : State) (v : W64) : Except Exc State :=
  let ok := (List.range 32).all fun i => match bf v (2 * i) 2 with
    | 3 => false
    | 2 => (!(i == 28) && (s.island i).code == 2) || s.mayOff v i
    | _ => true
  if ok then .ok ((List.range 32).foldl (fun s i => s.setIsland i ((s.island i).ask (wantedState (bf v (2 * i) 2)))) s)
  else .error illegal

/-! ### Node commands (R291) -/

/-- A write of NCMD while no command is in progress. -/
def State.wrNcmd (s : State) (h : Nat) (v : W64) : Except Exc State :=
  let x := s.hearth h
  let op := bf v 0 3
  let tile := v.getLsbD 3
  if bf v 52 12 ≠ 0 ∨ bf v 4 12 ≠ 0 ∨ op = 0 ∨ 6 ≤ op ∨ (op ≠ 5 ∧ bf v 48 4 ≠ 0) ∨ (op = 5 ∧ tile = true)
      ∨ (tile = true ∧ bf v 28 4 ≠ 0) then .error illegal
  else if op = 5 ∧ x.lv ≠ 2 then .error privExc
  else
    let c : NCmd := { op := op, part := if x.lv = 2 then x.psel else x.hpart, tile := tile, graph := bf v 32 16
                      nid := bf v 16 16, cl := bf v 48 4 }
    .ok (s.setHearth h { x with ncmd := some c })

/-! ### All registers by number (R285) -/

/-- The least level that may read a register, and that may write it; none where the table has no such register. -/
def pregLevels (n : Nat) : Option (Nat × Nat) :=
  if 0x800 ≤ n ∧ n ≤ 0x805 then some (1, 1)
  else if 0x808 ≤ n ∧ n ≤ 0x80C then some (2, 2)
  else if n = 0x810 ∨ n = 0x811 ∨ n = 0x818 then some (1, 1)
  else if n = 0x812 ∨ n = 0x813 ∨ n = 0x819 ∨ n = 0x820 then some (2, 2)
  else if 0x821 ≤ n ∧ n ≤ 0x82F then some (2, 2)
  else if (0x840 ≤ n ∧ n ≤ 0x843) ∨ n = 0x845 then some (1, 1)
  else if n = 0x848 then some (1, 2)
  else if 0x849 ≤ n ∧ n ≤ 0x84F then some (1, 1)
  else if 0x860 ≤ n ∧ n ≤ 0x87F then some (1, 1)
  else if 0x880 ≤ n ∧ n ≤ 0x88F then some (1, 2)
  else if n = 0x890 ∨ n = 0x891 then some (2, 2)
  else none

/-- A register of an entry level, by its place. -/
def EntryRegs.get (r : EntryRegs) : Nat → W64
  | 0 => r.epc | 1 => r.ecause | 2 => r.einfo | 3 => r.evec | _ => r.esave
/-- Writes one; EVEC is 256-byte aligned. -/
def EntryRegs.put (r : EntryRegs) (i : Nat) (v : W64) : Except Exc EntryRegs :=
  match i with
  | 0 => .ok { r with epc := v }
  | 1 => .ok { r with ecause := v }
  | 2 => .ok { r with einfo := v }
  | 3 => if bf v 0 8 = 0 then .ok { r with evec := v } else .error illegal
  | _ => .ok { r with esave := v }

/-- A register the read of which selects by QPSEL. -/
def State.rdQp (s : State) (p : Nat) (f : Qp → W64) : Except Exc W64 :=
  match s.selQp p with
  | .ok n => .ok (f (s.qp n))
  | .error e => .error e

/-- The value of a register the level may read. -/
def State.rdReg (s : State) (h n : Nat) : Except Exc W64 :=
  let x := s.hearth h
  let p := x.hpart
  if 0x801 ≤ n ∧ n ≤ 0x805 then .ok (x.es.get (n - 0x801))
  else if 0x808 ≤ n ∧ n ≤ 0x80C then .ok (x.eh.get (n - 0x808))
  else if 0x821 ≤ n ∧ n ≤ 0x82F then .ok ((s.part x.psel).reg n)
  else if 0x860 ≤ n ∧ n ≤ 0x87F then .ok (s.link (n - 0x860)).reg
  else if 0x880 ≤ n ∧ n ≤ 0x88F then
    if x.lv = 2 ∨ (s.part p).pport.getLsbD (n - 0x880) then .ok (s.port (n - 0x880)).word else .error privExc
  else
    match n with
    | 0x800 => .ok (w64 (x.lv + x.ie.toNat * 4))
    | 0x810 => .ok (w64 (s.ipend h &&& (if x.lv = 2 then 2 ^ 16 - 1 else 2 ^ 16 - 1 - x.iroute.toNat)))
    | 0x811 => .ok (x.imaskS.setWidth 64)
    | 0x812 => .ok (x.imaskH.setWidth 64)
    | 0x813 => .ok (x.iroute.setWidth 64)
    | 0x818 => .ok (s.part p).ttbS
    | 0x819 => .ok (s.part x.psel).ttbH
    | 0x820 => .ok (w64 x.psel)
    | 0x841 => .ok (x.nbud.setWidth 64)
    | 0x842 => .ok (w64 (x.ncmd.isSome.toNat + x.res * 2 ^ 4))
    | 0x845 => .ok (s.rdIngt p)
    | 0x848 => .ok (w64 x.hpart)
    | 0x849 => .ok s.cstg
    | 0x84A => .ok (w64 (s.part p).qpsel)
    | 0x84B => s.rdQp p (·.cfg)
    | 0x84C => s.rdQp p (·.base)
    | 0x84D => s.rdQp p fun q => w64 ((if q.state = .on then 1 else 0) + q.state.code * 4)
    | 0x84E => .ok (s.part p).scrb
    | 0x84F => .ok (s.part p).pptb
    | 0x890 => .ok s.rdEvc
    | 0x891 => .ok s.rdIsl
    | _ => .ok 0

/-- Reading NSTAT acknowledges the completion of the core's last node command (R286). -/
def State.readAck (s : State) (h n : Nat) : State :=
  let p := (s.hearth h).ncPart
  if n = 0x842 ∧ (s.hearth h).ncmd.isNone = true then s.setPart p { s.part p with nc := false } else s

/-- The reserved bits of TTB_S and TTB_H (R296). -/
def ttbOk (v : W64) : Bool := bf v 52 12 == 0 && bf v 1 10 == 0

/-- A value fits a register of n bits. -/
def fits (n : Nat) (v : W64) (x : State) : Except Exc State := if v.toNat < 2 ^ n then .ok x else .error illegal

/-- A write by a level that may make it. -/
def State.wrReg (s : State) (h n : Nat) (v : W64) : Except Exc State :=
  let x := s.hearth h
  let p := x.hpart
  let put (y : Hearth) : State := s.setHearth h y
  if 0x801 ≤ n ∧ n ≤ 0x805 then (x.es.put (n - 0x801) v).map fun r => put { x with es := r }
  else if 0x808 ≤ n ∧ n ≤ 0x80C then (x.eh.put (n - 0x808) v).map fun r => put { x with eh := r }
  else if 0x822 ≤ n ∧ n ≤ 0x82F then s.wrPartReg n x.psel v
  else if 0x880 ≤ n ∧ n ≤ 0x88F then .ok (s.wrFps (n - 0x880) v)
  else
    match n with
    | 0x800 => if bf v 3 61 = 0 ∧ bf v 0 2 = x.lv then .ok (put { x with ie := v.getLsbD 2 }) else .error illegal
    | 0x811 => fits 16 v (put { x with imaskS := v.setWidth 16 })
    | 0x812 => fits 16 v (put { x with imaskH := v.setWidth 16 })
    | 0x813 => fits 16 v (put { x with iroute := v.setWidth 16 })
    | 0x818 => if ttbOk v then .ok (s.setPart p { s.part p with ttbS := v }) else .error illegal
    | 0x819 => if ttbOk v then .ok (s.setPart x.psel { s.part x.psel with ttbH := v }) else .error illegal
    | 0x820 => fits 4 v (put { x with psel := v.toNat })
    | 0x821 => s.wrPstate x.psel v
    | 0x840 => s.wrNcmd h v
    | 0x841 => if v = 0 then .error illegal else fits 32 v (put { x with nbud := v.setWidth 32 })
    | 0x843 => s.wrMbctl p v
    | 0x845 => s.wrIngt p v
    | 0x848 => fits 4 v (put { x with hpart := v.toNat })
    | 0x849 => s.wrCstg h v
    | 0x84A => s.wrQpsel p v
    | 0x84B => s.wrQpcfg p v
    | 0x84C => s.wrQpbase p v
    | 0x84D => s.wrQpctl p v
    | 0x84E => s.wrScrb p v
    | 0x84F => s.wrPptb p v
    | 0x890 => s.wrEvc v
    | 0x891 => s.wrIsl v
    | _ => .error illegal

/-- A register number as an operand gives it (R183, R285): unlisted, or below the level it needs. -/
def State.regNumber (s : State) (h : Nat) (a : W64) (write : Bool) : Except Exc Nat :=
  if 2 ^ 12 ≤ a.toNat then .error illegal
  else
    match pregLevels a.toNat with
    | none => .error illegal
    | some (r, w) => if (s.hearth h).lv < (if write then w else r) then .error privExc else .ok a.toNat

end Sys2Proof.Machine
end

