-- ==== Sys2Proof/Machine/Priv.lean ====
section
/-! DEFINITION. The group PRIV, interrupt entry, translation units and their invalidation, and the steps that are
writes of one privileged register (R183, R284-R286, R299-R303). -/

namespace Sys2Proof.Machine

/-- The hearth core that executes; the group is closed to compute cores (R156). -/
def State.meHearth (s : State) : Nat :=
  match s.cur with
  | .hearth h => h
  | .core _ _ => 0

/-! ### Registers, entry and return -/

/-- priv.rd. -/
def xPrivRd (d a : SReg) (s : State) : Eff :=
  let h := s.meHearth
  .need (s.regNumber h (s.rs a) false) fun n =>
    .need (s.rdReg h n) fun v => .done ((s.readAck h n).putS .salu d v)

/-- priv.wr: a write of NCMD waits while a command is in progress (R291), and one of SIG for what the core has posted, which
it releases (R322). -/
def xPrivWr (a b : SReg) (s : State) : Eff :=
  let h := s.meHearth
  .need (s.regNumber h (s.rs a) true) fun n =>
    if (n = 0x840 ∧ (s.hearth h).ncmd.isSome = true) ∨ (n = 0x843 ∧ (s.rs b).getLsbD 1 = true ∧ s.postedBy.isEmpty = false) then
      .need (s.wrReg h n (s.rs b)) fun _ => .stall
    else .need (s.wrReg h n (s.rs b)) .done

/-- priv.ret. -/
def xPrivRet (s : State) : Eff :=
  let h := s.meHearth
  .need (s.hearth h).ret fun x => .done (s.setHearth h x)

/-- priv.hcall: the next instruction's address is saved. -/
def xPrivHcall (x : Fin 32) (s : State) : Eff :=
  let h := s.meHearth
  if (s.hearth h).lv = 2 then .trap privExc
  else .done (s.setHearth h ((s.hearth h).enter 2 1 x.val 0 (s.curAddr + 4)))

/-- priv.wfi. -/
def xPrivWfi (s : State) : Eff := if (s.pending s.meHearth).isEmpty then .stall else .done s

/-! ### Translation units (R299-R303) -/

/-- An invalidation descriptor (R302): the checks of s[a] and s[b]. -/
def State.tinvErr (s : State) (h : Nat) (a b : W64) : Option Exc :=
  let x := s.hearth h
  let page := bf b 0 2 == 0
  let ipa := b.getLsbD 2
  if bf b 10 54 ≠ 0 ∨ bf b 3 1 ≠ 0 ∨ 2 ≤ bf b 0 2 ∨ bf b 8 2 = 3 then some illegal
  else if x.lv = 1 ∧ (bf b 4 4 ≠ x.hpart ∨ ipa = true) then some privExc
  else if page && !ipa && !(inDevice a.toNat || inAperture a.toNat) then some illegal
  else if page && ipa && !(bf a 52 4 == 0) then some illegal
  else none

/-- The units of a partition: its clusters' and every hearth core's. -/
def State.tinvUnits (s : State) (part : Nat) : List Unit1 :=
  (maskBits numClusters (s.part part).pcl).map Unit1.cluster ++ (List.range numHearths).map Unit1.hearth

/-- priv.tinv: as `ord.rel` of device scope it waits for what its core posted and releases what is program-before it
(R302, R74); the request then goes out, and the instruction waits for every unit's reply. -/
def xPrivTinv (a b : SReg) (s : State) : Eff :=
  let h := s.meHearth
  let x := s.hearth h
  match s.tinvErr h (s.rs a) (s.rs b) with
  | some e => .trap e
  | none =>
    let send : Eff :=
      if !s.postedBy.isEmpty then .stall
      else
        let r : Tinv := { addr := s.rs a, desc := s.rs b, units := s.tinvUnits (bf (s.rs b) 4 4) }
        let y := { x.seq with pc := s.curAddr, wait := some (.word (.privTinv a b)) }
        .done ((s.setHearth h { x with tinv := some r, seq := y }).fenceRel s.agent 3)
    match x.tinv with
    | none => send
    | some t =>
      if t.addr = s.rs a ∧ t.desc = s.rs b then
        if t.units.isEmpty then .done (s.setHearth h { x with tinv := none }) else .stall
      else send

/-- The size of a SIZE code. -/
def pageSize : Nat → Nat
  | 0 => 2 ^ 16 | 1 => 2 ^ 21 | _ => 2 ^ 30

/-- An entry that an invalidation removes: by IPA also one that was derived through a stage-2 block of a stage-1 table. -/
def Tinv.hits (t : Tinv) (e : Tlb) : Bool :=
  let n := pageSize (bf t.desc 8 2)
  let lo := t.addr.toNat / n * n
  e.part == bf t.desc 4 4
    && (bf t.desc 0 2 == 1 || (if t.desc.getLsbD 2 then meet e.ipa e.size lo n || e.tables.any fun b => meet b.1 b.2 lo n
      else meet e.va e.size lo n))

/-- A unit's entries. -/
def State.tlbOf (s : State) : Unit1 → List Tlb
  | .cluster c => (s.cluster c).tlb
  | .hearth h => (s.hearth h).tlb
/-- Replaces a unit's entries. -/
def State.setTlb (s : State) (u : Unit1) (l : List Tlb) : State :=
  match u with
  | .cluster c => s.setCluster c { s.cluster c with tlb := l }
  | .hearth h => s.setHearth h { s.hearth h with tlb := l }
/-- How many entries a unit holds (R299). -/
def unitSize : Unit1 → Nat
  | .cluster _ => 4096
  | .hearth _ => 256

/-- A unit serves a partition: the one that owns its cluster, or the one its hearth core acts for. -/
def State.serves (s : State) (u : Unit1) (part : Nat) : Bool :=
  match u with
  | .cluster c => decide (c < numClusters) && s.owns part c
  | .hearth h => decide (h < numHearths) && (s.hearth h).hpart == part

/-- translation walk: a walk that succeeds is held; a failed one never is. -/
def execTranslationWalk (u : Unit1) (part : Nat) (va : W64) (s : State) : Host.Outcome State Fault Refusal :=
  if s.serves u part && (inDevice va.toNat || inAperture va.toNat) then
    match s.walk part va.toNat with
    | .ok (e, _, _) =>
      let old := (s.tlbOf u).filter fun x => !(x == e)
      .next (s.setTlb u (e :: old.take (unitSize u - 1)))
    | .error _ => .next s
  else .next s

/-- translation-unit invalidation: the matching entries go, and the unit replies, once every access that translated through
one has been performed (R302): a port may still hold one (R329). -/
def execTuInvalidation (u : Unit1) (h : Nat) (s : State) : Host.Outcome State Fault Refusal :=
  match (s.hearth h).tinv with
  | some t =>
    if t.units.contains u && !(s.requests.any fun r => r.via.any t.hits) then
      let s := s.setTlb u ((s.tlbOf u).filter fun e => !t.hits e)
      .next (s.setHearth h { s.hearth h with tinv := some { t with units := t.units.filter fun x => !(x == u) } })
    else .next s
  | none => .next s

/-! ### Interrupt entry (R286, R284) -/

/-- interrupt entry: at an instruction boundary; a wait is left and its instruction is the next to issue, an invalidation's
anew. -/
def execInterruptEntry (h : Nat) (s : State) : Host.Outcome State Fault Refusal :=
  let x := s.hearth h
  if decide (h < numHearths) && x.seq.run == .running && !x.debug then
    match s.takeable h with
    | some b => .next (s.setHearth h ({ x with tinv := none }.enter (x.routed b) 3 b 0 x.seq.pc))
    | none => .next s
  else .next s

/-! ### The meanings of the words -/
/-- PRIV_RD (R183), as one instruction. -/
def execPrivRd (d : Fin 32) (a : Fin 32) (s : State) : Host.Outcome State Fault Refusal := runWord (.privRd d a) (xPrivRd d a) s
/-- PRIV_WR (R183), as one instruction. -/
def execPrivWr (a : Fin 32) (b : Fin 32) (s : State) : Host.Outcome State Fault Refusal := runWord (.privWr a b) (xPrivWr a b) s
/-- PRIV_RET (R284), as one instruction. -/
def execPrivRet (s : State) : Host.Outcome State Fault Refusal := runWord .privRet xPrivRet s
/-- PRIV_HCALL (R284), as one instruction. -/
def execPrivHcall (x : Fin 32) (s : State) : Host.Outcome State Fault Refusal := runWord (.privHcall x) (xPrivHcall x) s
/-- PRIV_WFI (R286), as one instruction. -/
def execPrivWfi (s : State) : Host.Outcome State Fault Refusal := runWord .privWfi xPrivWfi s
/-- PRIV_TINV (R302), as one instruction. -/
def execPrivTinv (a : Fin 32) (b : Fin 32) (s : State) : Host.Outcome State Fault Refusal :=
  runWord (.privTinv a b) (xPrivTinv a b) s

/-! ### Steps that are the write of one register

`priv.wr` performs each of these. A step states the effect on its own; a write that the rules refuse takes its exception
at the hearth core's instruction. -/

/-- The outcome of a register write by hearth core h. -/
def regStep (h : Nat) (r : Except Exc State) (s : State) : Host.Outcome State Fault Refusal :=
  match r with
  | .ok t => .next t
  | .error e => .next (({ s with cur := .hearth h, curAddr := (s.hearth h).seq.pc } : State).take e)

/-- A write of a register by its number, with the level that R285 asks for. -/
def regWrite (h n : Nat) (v : W64) (s : State) : Host.Outcome State Fault Refusal :=
  regStep h (match s.regNumber h (w64 n) true with
    | .ok n => s.wrReg h n v
    | .error e => .error e) s

/-- QPCTL RESET. -/
def execQpctlReset (h : Nat) (s : State) : Host.Outcome State Fault Refusal := regWrite h 0x84D 2 s
/-- QPCTL EN = 1. -/
def execQpctlEnable (h : Nat) (s : State) : Host.Outcome State Fault Refusal := regWrite h 0x84D 1 s
/-- QPCTL EN = 0. -/
def execQpctlDisable (h : Nat) (s : State) : Host.Outcome State Fault Refusal := regWrite h 0x84D 0 s
/-- PSTATE EMPTY to STOPPED. -/
def execPartitionCreate (h : Nat) (s : State) : Host.Outcome State Fault Refusal :=
  if (s.part (s.hearth h).psel).pstate = 0 then regWrite h 0x821 1 s else .next s
/-- PSTATE STOPPED to RUNNING. -/
def execPartitionStart (h : Nat) (s : State) : Host.Outcome State Fault Refusal := regWrite h 0x821 2 s
/-- PSTATE RUNNING to STOPPED. -/
def execPartitionStop (h : Nat) (s : State) : Host.Outcome State Fault Refusal :=
  if (s.part (s.hearth h).psel).pstate = 2 then regWrite h 0x821 1 s else .next s
/-- PSTATE STOPPED to EMPTY. -/
def execPartitionDestroy (h : Nat) (s : State) : Host.Outcome State Fault Refusal := regWrite h 0x821 0 s
/-- A write of CSTG. -/
def execCstgWrite (h : Nat) (v : W64) (s : State) : Host.Outcome State Fault Refusal := regWrite h 0x849 v s
/-- A write of SCRB. -/
def execScrbWrite (h : Nat) (v : W64) (s : State) : Host.Outcome State Fault Refusal := regWrite h 0x84E v s
/-- A write of PPTB. -/
def execPptbWrite (h : Nat) (v : W64) (s : State) : Host.Outcome State Fault Refusal := regWrite h 0x84F v s
/-- A write of a register that has no row of its own. -/
def execPrivilegedRegisterWrite (h num : Nat) (v : W64) (s : State) : Host.Outcome State Fault Refusal := regWrite h num v s
/-- A write of INGT with ARM set. -/
def execIngtArm (h : Nat) (v : W64) (s : State) : Host.Outcome State Fault Refusal := regWrite h 0x845 (v ||| 0x8000000000000000) s
/-- A write of INGT with ARM clear. -/
def execIngtDisarm (h : Nat) (v : W64) (s : State) : Host.Outcome State Fault Refusal := regWrite h 0x845 (v &&& 0x7FFFFFFFFFFFFFFF) s
/-- MBCTL ACK. -/
def execMbctlAck (h : Nat) (s : State) : Host.Outcome State Fault Refusal := regWrite h 0x843 1 s
/-- MBCTL SIG. -/
def execMbctlSig (h : Nat) (s : State) : Host.Outcome State Fault Refusal := regWrite h 0x843 2 s
/-- FPS DRAIN = 1. -/
def execFpsDrain (h port : Nat) (s : State) : Host.Outcome State Fault Refusal :=
  if port < 16 then regWrite h (0x880 + port) 0x100 s else .next s
/-- FPS DRAIN = 0. -/
def execFpsReturn (h port : Nat) (s : State) : Host.Outcome State Fault Refusal :=
  if port < 16 then regWrite h (0x880 + port) 0 s else .next s
/-- EVC START; UNL is left as it stands. -/
def execEvcStart (h : Nat) (s : State) : Host.Outcome State Fault Refusal :=
  regWrite h 0x890 (w64 (1 + s.evict.unl.toNat * 2)) s
/-- EVC UNL = 1. -/
def execEvcUnlatchRequest (h : Nat) (s : State) : Host.Outcome State Fault Refusal := regWrite h 0x890 2 s

/-- ISL with one island's field replaced, the others as they read: an island that is starting keeps its request. -/
def State.islWith (s : State) (i code : Nat) : W64 :=
  w64 (((List.range 32).map fun j =>
    (if j = i then code else 2 - (s.island j).target) * 2 ^ (2 * j)).sum)
/-- ISL asks RUN of an island. -/
def execIslandRequestRun (h island : Nat) (s : State) : Host.Outcome State Fault Refusal :=
  if island < 32 then regWrite h 0x891 (s.islWith island 0) s else .next s
/-- ISL asks IDLE of an island. -/
def execIslandRequestIdle (h island : Nat) (s : State) : Host.Outcome State Fault Refusal :=
  if island < 32 then regWrite h 0x891 (s.islWith island 1) s else .next s
/-- ISL asks OFF of an island. -/
def execIslandRequestOff (h island : Nat) (s : State) : Host.Outcome State Fault Refusal :=
  if island < 32 then regWrite h 0x891 (s.islWith island 2) s else .next s

end Sys2Proof.Machine
end

