-- ==== Sys2Proof/Machine/Scalar.lean ====
section
/-! DEFINITION. The scalar groups IOP, IOPI, IHI, MULDIV, BITF, CMP, PRD, LDS, STS and CSR (R161-R173, R178-R180). -/

namespace Sys2Proof.Machine

/-- A scalar result of two scalar sources (R167). -/
def alu (d a b : SReg) (f : W64 → W64 → W64) (s : State) : Eff := .done (s.putS .salu d (f (s.rs a) (s.rs b)))
/-- A scalar result of one scalar source and a constant (R168). -/
def alui (d a : SReg) (f : W64 → W64) (s : State) : Eff := .done (s.putS .salu d (f (s.rs a)))
/-- A predicate of two scalar sources (R172). -/
def cmp (d : Reg16) (a b : SReg) (f : W64 → W64 → Bool) (s : State) : Eff := .done (s.putP .pred d (f (s.rs a) (s.rs b)))
/-- A predicate of two predicates (R173). -/
def prd (d a b : Reg16) (f : Bool → Bool → Bool) (s : State) : Eff := .done (s.putP .pred d (f (s.rp a) (s.rp b)))

/-- Signed quotient with the fixed results of R170. -/
def divS (x y : W64) : W64 := if y = 0 then -1 else x.sdiv y
/-- Unsigned quotient (R170). -/
def divU (x y : W64) : W64 := if y = 0 then -1 else x / y
/-- Signed remainder (R170). -/
def remS (x y : W64) : W64 := if y = 0 then x else x.srem y
/-- Unsigned remainder (R170). -/
def remU (x y : W64) : W64 := if y = 0 then x else x % y
/-- High half of the signed product (R170). -/
def mulHi (x y : W64) : W64 := BitVec.ofInt 64 (x.toInt * y.toInt / 2 ^ 64)
/-- High half of the unsigned product (R170). -/
def mulHiU (x y : W64) : W64 := BitVec.ofNat 64 (x.toNat * y.toNat / 2 ^ 64)

/-- The len bits of x from pos up, those past 63 reading 0 (R171). -/
def extU (x b : W64) : W64 := BitVec.ofNat 64 (x.toNat / 2 ^ fieldPos b % 2 ^ fieldLen b)
/-- As `extU`, sign-extended from bit len - 1 (R171). -/
def extS (x b : W64) : W64 :=
  let n := fieldLen b
  if n = 0 then 0
  else
    let v := x.toNat / 2 ^ fieldPos b % 2 ^ n
    BitVec.ofInt 64 (if v / 2 ^ (n - 1) % 2 = 1 then (v : Int) - 2 ^ n else v)
/-- Bits pos to pos + len - 1 of d replaced by the low bits of x (R171). -/
def insert (d x b : W64) : W64 :=
  let m : W64 := BitVec.ofNat 64 ((2 ^ fieldLen b - 1) * 2 ^ fieldPos b)
  (d &&& ~~~m) ||| (BitVec.ofNat 64 (x.toNat % 2 ^ fieldLen b * 2 ^ fieldPos b) &&& m)

/-- Replaces 16 bits of a register from bit lo (R169). -/
def setHalf (x : W64) (lo : Nat) (i : BitVec 16) : W64 :=
  (x &&& ~~~(0xFFFF#64 <<< lo)) ||| (i.setWidth 64 <<< lo)

/-- A load into s[d] (R178). -/
def load (d a : SReg) (i : BitVec 12) (n : Nat) (sx : Bool) (s : State) : Eff :=
  if s.mustDrain (effAddr (s.rs a) i) then .stall
  else .need (s.scalarLoad (effAddr (s.rs a) i) n) fun r => .done (r.2.putS .salu d (extended sx n r.1))
/-- A store of s[d] (R178). -/
def store (d a : SReg) (i : BitVec 12) (n : Nat) (s : State) : Eff :=
  if s.mustDrain (effAddr (s.rs a) i) then .stall
  else .need (s.scalarStore (effAddr (s.rs a) i) n (s.rs d)) .done

/-- A write of a special register: a value that does not fit raises ILLEGAL (R148). -/
def csrPut (n : Nat) (x : W64) (k : State → State) (s : State) : Eff :=
  if csrFits n x then .done (k (csrWrite s n x)) else .trap illegal

/-- iop.add (R167): s[d] := s[a] + s[b], wrapping modulo 2^64. -/
def xIopAdd (d : Fin 32) (a : Fin 32) (b : Fin 32) (s : State) : Eff := alu d a b (fun x y => x + y) s
/-- iop.sub (R167): s[d] := s[a] - s[b]. -/
def xIopSub (d : Fin 32) (a : Fin 32) (b : Fin 32) (s : State) : Eff := alu d a b (fun x y => x - y) s
/-- iop.and (R167): Bitwise and of two scalars. -/
def xIopAnd (d : Fin 32) (a : Fin 32) (b : Fin 32) (s : State) : Eff := alu d a b (fun x y => x &&& y) s
/-- iop.or (R167): Bitwise or of two scalars. -/
def xIopOr (d : Fin 32) (a : Fin 32) (b : Fin 32) (s : State) : Eff := alu d a b (fun x y => x ||| y) s
/-- iop.xor (R167): Bitwise xor of two scalars. -/
def xIopXor (d : Fin 32) (a : Fin 32) (b : Fin 32) (s : State) : Eff := alu d a b (fun x y => x ^^^ y) s
/-- iop.shl (R167): Left shift by b[5:0]. -/
def xIopShl (d : Fin 32) (a : Fin 32) (b : Fin 32) (s : State) : Eff := alu d a b (fun x y => x <<< (y.toNat % 64)) s
/-- iop.shr (R167): Logical right shift by b[5:0]. -/
def xIopShr (d : Fin 32) (a : Fin 32) (b : Fin 32) (s : State) : Eff := alu d a b (fun x y => x >>> (y.toNat % 64)) s
/-- iop.sra (R167): Arithmetic right shift by b[5:0]. -/
def xIopSra (d : Fin 32) (a : Fin 32) (b : Fin 32) (s : State) : Eff := alu d a b (fun x y => x.sshiftRight (y.toNat % 64)) s
/-- iop.min (R167): Signed minimum. -/
def xIopMin (d : Fin 32) (a : Fin 32) (b : Fin 32) (s : State) : Eff := alu d a b (fun x y => if x.slt y then x else y) s
/-- iop.max (R167): Signed maximum. -/
def xIopMax (d : Fin 32) (a : Fin 32) (b : Fin 32) (s : State) : Eff := alu d a b (fun x y => if x.slt y then y else x) s
/-- iop.minu (R167): Unsigned minimum. -/
def xIopMinu (d : Fin 32) (a : Fin 32) (b : Fin 32) (s : State) : Eff := alu d a b (fun x y => if x.ult y then x else y) s
/-- iop.maxu (R167): Unsigned maximum. -/
def xIopMaxu (d : Fin 32) (a : Fin 32) (b : Fin 32) (s : State) : Eff := alu d a b (fun x y => if x.ult y then y else x) s
/-- iop.addw (R167): 32-bit add, sign-extended. -/
def xIopAddw (d : Fin 32) (a : Fin 32) (b : Fin 32) (s : State) : Eff := alu d a b (fun x y => word32 (x + y)) s
/-- iop.subw (R167): 32-bit subtract, sign-extended. -/
def xIopSubw (d : Fin 32) (a : Fin 32) (b : Fin 32) (s : State) : Eff := alu d a b (fun x y => word32 (x - y)) s
/-- iop.slt (R167): 1 if a < b signed, else 0. -/
def xIopSlt (d : Fin 32) (a : Fin 32) (b : Fin 32) (s : State) : Eff := alu d a b (fun x y => if x.slt y then 1 else 0) s
/-- iop.sltu (R167): 1 if a < b unsigned, else 0. -/
def xIopSltu (d : Fin 32) (a : Fin 32) (b : Fin 32) (s : State) : Eff := alu d a b (fun x y => if x.ult y then 1 else 0) s
/-- muldiv.mul (R170): Low 64 bits of the product. -/
def xMuldivMul (d : Fin 32) (a : Fin 32) (b : Fin 32) (s : State) : Eff := alu d a b (fun x y => x * y) s
/-- muldiv.mulh (R170): High 64 bits of the signed product. -/
def xMuldivMulh (d : Fin 32) (a : Fin 32) (b : Fin 32) (s : State) : Eff := alu d a b (fun x y => mulHi x y) s
/-- muldiv.mulhu (R170): High 64 bits of the unsigned product. -/
def xMuldivMulhu (d : Fin 32) (a : Fin 32) (b : Fin 32) (s : State) : Eff := alu d a b (fun x y => mulHiU x y) s
/-- muldiv.div (R170): Signed quotient with the fixed results for division by zero and overflow. -/
def xMuldivDiv (d : Fin 32) (a : Fin 32) (b : Fin 32) (s : State) : Eff := alu d a b (fun x y => divS x y) s
/-- muldiv.divu (R170): Unsigned quotient. -/
def xMuldivDivu (d : Fin 32) (a : Fin 32) (b : Fin 32) (s : State) : Eff := alu d a b (fun x y => divU x y) s
/-- muldiv.rem (R170): Signed remainder. -/
def xMuldivRem (d : Fin 32) (a : Fin 32) (b : Fin 32) (s : State) : Eff := alu d a b (fun x y => remS x y) s
/-- muldiv.remu (R170): Unsigned remainder. -/
def xMuldivRemu (d : Fin 32) (a : Fin 32) (b : Fin 32) (s : State) : Eff := alu d a b (fun x y => remU x y) s
/-- bitf.extu (R171): Extracts a bit field, zero-extended. -/
def xBitfExtu (d : Fin 32) (a : Fin 32) (b : Fin 32) (s : State) : Eff := alu d a b (fun x y => extU x y) s
/-- bitf.exts (R171): Extracts a bit field, sign-extended. -/
def xBitfExts (d : Fin 32) (a : Fin 32) (b : Fin 32) (s : State) : Eff := alu d a b (fun x y => extS x y) s
/-- bitf.ins (R171): Inserts a bit field into s[d]. -/
def xBitfIns (d : Fin 32) (a : Fin 32) (b : Fin 32) (s : State) : Eff := alu d a b (insert (s.rs d)) s
/-- bitf.popc (R171): Counts the set bits. -/
def xBitfPopc (d : Fin 32) (a : Fin 32) (s : State) : Eff := alui d a (fun x => BitVec.ofNat 64 (popCount 64 x.toNat)) s
/-- bitf.clz (R171): Counts the leading zeros. -/
def xBitfClz (d : Fin 32) (a : Fin 32) (s : State) : Eff := alui d a (fun x => BitVec.ofNat 64 (leading x)) s
/-- bitf.ctz (R171): Counts the trailing zeros. -/
def xBitfCtz (d : Fin 32) (a : Fin 32) (s : State) : Eff := alui d a (fun x => BitVec.ofNat 64 (trailing 64 x.toNat)) s
/-- bitf.brev (R171): Reverses the 64 bits. -/
def xBitfBrev (d : Fin 32) (a : Fin 32) (s : State) : Eff := alui d a (fun x => BitVec.ofNat 64 (revBits 64 x.toNat)) s
/-- bitf.bswap (R171): Reverses the 8 bytes. -/
def xBitfBswap (d : Fin 32) (a : Fin 32) (s : State) : Eff := alui d a (fun x => BitVec.ofNat 64 (ofBytes (toBytes 8 x.toNat).reverse)) s
/-- iopi.add (R168): s[d] := s[a] + sign-extended IMM12. -/
def xIopiAdd (d : Fin 32) (a : Fin 32) (i : BitVec 12) (s : State) : Eff := alui d a (fun x => x + imm12 i) s
/-- iopi.and (R168): And with immediate. -/
def xIopiAnd (d : Fin 32) (a : Fin 32) (i : BitVec 12) (s : State) : Eff := alui d a (fun x => x &&& imm12 i) s
/-- iopi.or (R168): Or with immediate. -/
def xIopiOr (d : Fin 32) (a : Fin 32) (i : BitVec 12) (s : State) : Eff := alui d a (fun x => x ||| imm12 i) s
/-- iopi.xor (R168): Xor with immediate. -/
def xIopiXor (d : Fin 32) (a : Fin 32) (i : BitVec 12) (s : State) : Eff := alui d a (fun x => x ^^^ imm12 i) s
/-- iopi.shl (R168): Left shift by IMM12[5:0]. -/
def xIopiShl (d : Fin 32) (a : Fin 32) (i : Fin 64) (s : State) : Eff := alui d a (fun x => x <<< i.val) s
/-- iopi.shr (R168): Logical right shift by IMM12[5:0]. -/
def xIopiShr (d : Fin 32) (a : Fin 32) (i : Fin 64) (s : State) : Eff := alui d a (fun x => x >>> i.val) s
/-- iopi.sra (R168): Arithmetic right shift by IMM12[5:0]. -/
def xIopiSra (d : Fin 32) (a : Fin 32) (i : Fin 64) (s : State) : Eff := alui d a (fun x => x.sshiftRight i.val) s
/-- iopi.addw (R168): 32-bit add of immediate, sign-extended. -/
def xIopiAddw (d : Fin 32) (a : Fin 32) (i : BitVec 12) (s : State) : Eff := alui d a (fun x => word32 (x + imm12 i)) s
/-- ihi.lo (R169): s[d] := sext(IMM16). -/
def xIhiLo (d : Fin 32) (i : BitVec 16) (s : State) : Eff := .done (s.putS .salu d (i.signExtend 64))
/-- ihi.lou (R169): s[d] := zext(IMM16). -/
def xIhiLou (d : Fin 32) (i : BitVec 16) (s : State) : Eff := .done (s.putS .salu d (i.setWidth 64))
/-- ihi.h1 (R169): s[d][31:16] := IMM16, other bits kept. -/
def xIhiH1 (d : Fin 32) (i : BitVec 16) (s : State) : Eff := .done (s.putS .salu d (setHalf (s.rs d) 16 i))
/-- ihi.h2 (R169): s[d][47:32] := IMM16, other bits kept. -/
def xIhiH2 (d : Fin 32) (i : BitVec 16) (s : State) : Eff := .done (s.putS .salu d (setHalf (s.rs d) 32 i))
/-- ihi.h3 (R169): s[d][63:48] := IMM16, other bits kept. -/
def xIhiH3 (d : Fin 32) (i : BitVec 16) (s : State) : Eff := .done (s.putS .salu d (setHalf (s.rs d) 48 i))
/-- cmp.eq (R172): p[d] := a = b. -/
def xCmpEq (d : Fin 16) (a : Fin 32) (b : Fin 32) (s : State) : Eff := cmp d a b (fun x y => x == y) s
/-- cmp.ne (R172): p[d] := a != b. -/
def xCmpNe (d : Fin 16) (a : Fin 32) (b : Fin 32) (s : State) : Eff := cmp d a b (fun x y => x != y) s
/-- cmp.lt (R172): p[d] := a < b signed. -/
def xCmpLt (d : Fin 16) (a : Fin 32) (b : Fin 32) (s : State) : Eff := cmp d a b (fun x y => x.slt y) s
/-- cmp.ge (R172): p[d] := a >= b signed. -/
def xCmpGe (d : Fin 16) (a : Fin 32) (b : Fin 32) (s : State) : Eff := cmp d a b (fun x y => !(x.slt y)) s
/-- cmp.ltu (R172): p[d] := a < b unsigned. -/
def xCmpLtu (d : Fin 16) (a : Fin 32) (b : Fin 32) (s : State) : Eff := cmp d a b (fun x y => x.ult y) s
/-- cmp.geu (R172): p[d] := a >= b unsigned. -/
def xCmpGeu (d : Fin 16) (a : Fin 32) (b : Fin 32) (s : State) : Eff := cmp d a b (fun x y => !(x.ult y)) s
/-- cmp.tst (R172): p[d] := (a and b) != 0. -/
def xCmpTst (d : Fin 16) (a : Fin 32) (b : Fin 32) (s : State) : Eff := cmp d a b (fun x y => x &&& y != 0) s
/-- prd.and (R173): p[d] := p[a] and p[b]. -/
def xPrdAnd (d : Fin 16) (a : Fin 16) (b : Fin 16) (s : State) : Eff := prd d a b (fun x y => x && y) s
/-- prd.or (R173): p[d] := p[a] or p[b]. -/
def xPrdOr (d : Fin 16) (a : Fin 16) (b : Fin 16) (s : State) : Eff := prd d a b (fun x y => x || y) s
/-- prd.xor (R173): p[d] := p[a] xor p[b]. -/
def xPrdXor (d : Fin 16) (a : Fin 16) (b : Fin 16) (s : State) : Eff := prd d a b (fun x y => x != y) s
/-- prd.andn (R173): p[d] := p[a] and not p[b]. -/
def xPrdAndn (d : Fin 16) (a : Fin 16) (b : Fin 16) (s : State) : Eff := prd d a b (fun x y => x && !y) s
/-- prd.orn (R173): p[d] := p[a] or not p[b]. -/
def xPrdOrn (d : Fin 16) (a : Fin 16) (b : Fin 16) (s : State) : Eff := prd d a b (fun x y => x || !y) s
/-- prd.nor (R173): p[d] := not (p[a] or p[b]). -/
def xPrdNor (d : Fin 16) (a : Fin 16) (b : Fin 16) (s : State) : Eff := prd d a b (fun x y => !(x || y)) s
/-- prd.frs (R173): p[d] := s[a] != 0. -/
def xPrdFrs (d : Fin 16) (a : Fin 32) (s : State) : Eff := .done (s.putP .pred d (s.rs a != 0))
/-- prd.tos (R173): s[d] := 1 if p[a] else 0. -/
def xPrdTos (d : Fin 32) (a : Fin 16) (s : State) : Eff := .done (s.putS .pred d (if s.rp a then 1 else 0))
/-- prd.rds (R173): s[d] := all predicates as a bit mask. -/
def xPrdRds (d : Fin 32) (s : State) : Eff := .done (s.putS .pred d (BitVec.ofNat 64 s.me.preds))
/-- prd.wrs (R173): p1-p15 := bits 1-15 of s[a]. -/
def xPrdWrs (a : Fin 32) (s : State) : Eff := .done (s.putPreds (s.rs a))
/-- lds.b8 (R178): Loads one byte, zero-extended. -/
def xLdsB8 (d : Fin 32) (a : Fin 32) (_g : Bool) (i : BitVec 12) (s : State) : Eff := load d a i 1 false s
/-- lds.i8 (R178): Loads one byte, sign-extended. -/
def xLdsI8 (d : Fin 32) (a : Fin 32) (_g : Bool) (i : BitVec 12) (s : State) : Eff := load d a i 1 true s
/-- lds.b16 (R178): Loads two bytes, zero-extended. -/
def xLdsB16 (d : Fin 32) (a : Fin 32) (_g : Bool) (i : BitVec 12) (s : State) : Eff := load d a i 2 false s
/-- lds.i16 (R178): Loads two bytes, sign-extended. -/
def xLdsI16 (d : Fin 32) (a : Fin 32) (_g : Bool) (i : BitVec 12) (s : State) : Eff := load d a i 2 true s
/-- lds.b32 (R178): Loads four bytes, zero-extended. -/
def xLdsB32 (d : Fin 32) (a : Fin 32) (_g : Bool) (i : BitVec 12) (s : State) : Eff := load d a i 4 false s
/-- lds.i32 (R178): Loads four bytes, sign-extended. -/
def xLdsI32 (d : Fin 32) (a : Fin 32) (_g : Bool) (i : BitVec 12) (s : State) : Eff := load d a i 4 true s
/-- lds.b64 (R178): Loads eight bytes. -/
def xLdsB64 (d : Fin 32) (a : Fin 32) (_g : Bool) (i : BitVec 12) (s : State) : Eff := load d a i 8 false s
/-- sts.b8 (R178): Stores s[d][7:0]. -/
def xStsB8 (d : Fin 32) (a : Fin 32) (_g : Bool) (i : BitVec 12) (s : State) : Eff := store d a i 1 s
/-- sts.b16 (R178): Stores s[d][15:0]. -/
def xStsB16 (d : Fin 32) (a : Fin 32) (_g : Bool) (i : BitVec 12) (s : State) : Eff := store d a i 2 s
/-- sts.b32 (R178): Stores s[d][31:0]. -/
def xStsB32 (d : Fin 32) (a : Fin 32) (_g : Bool) (i : BitVec 12) (s : State) : Eff := store d a i 4 s
/-- sts.b64 (R178): Stores s[d]. -/
def xStsB64 (d : Fin 32) (a : Fin 32) (_g : Bool) (i : BitVec 12) (s : State) : Eff := store d a i 8 s
/-- csr.rd (R180): Reads a special register into s[d]. -/
def xCsrRd (d : Fin 32) (c : BitVec 12) (s : State) : Eff := .done (s.putS .salu d (csrRead s c.toNat))
/-- csr.wr (R180): Writes s[a] into a special register. -/
def xCsrWr (a : Fin 32) (c : BitVec 12) (s : State) : Eff := csrPut c.toNat (s.rs a) id s
/-- csr.set (R180): Returns the old value and sets the mask bits. -/
def xCsrSet (d : Fin 32) (a : Fin 32) (c : BitVec 12) (s : State) : Eff := csrPut c.toNat (csrRead s c.toNat ||| s.rs a) (fun t => t.putS .salu d (csrRead s c.toNat)) s
/-- csr.clr (R180): Returns the old value and clears the mask bits. -/
def xCsrClr (d : Fin 32) (a : Fin 32) (c : BitVec 12) (s : State) : Eff := csrPut c.toNat (csrRead s c.toNat &&& ~~~s.rs a) (fun t => t.putS .salu d (csrRead s c.toNat)) s

/-! ### The meanings -/
/-- IOP_ADD (R167), as one instruction. -/
def execIopAdd (d : Fin 32) (a : Fin 32) (b : Fin 32) (s : State) : Host.Outcome State Fault Refusal :=
  runWord (.iopAdd d a b) (xIopAdd d a b) s
/-- IOP_SUB (R167), as one instruction. -/
def execIopSub (d : Fin 32) (a : Fin 32) (b : Fin 32) (s : State) : Host.Outcome State Fault Refusal :=
  runWord (.iopSub d a b) (xIopSub d a b) s
/-- IOP_AND (R167), as one instruction. -/
def execIopAnd (d : Fin 32) (a : Fin 32) (b : Fin 32) (s : State) : Host.Outcome State Fault Refusal :=
  runWord (.iopAnd d a b) (xIopAnd d a b) s
/-- IOP_OR (R167), as one instruction. -/
def execIopOr (d : Fin 32) (a : Fin 32) (b : Fin 32) (s : State) : Host.Outcome State Fault Refusal :=
  runWord (.iopOr d a b) (xIopOr d a b) s
/-- IOP_XOR (R167), as one instruction. -/
def execIopXor (d : Fin 32) (a : Fin 32) (b : Fin 32) (s : State) : Host.Outcome State Fault Refusal :=
  runWord (.iopXor d a b) (xIopXor d a b) s
/-- IOP_SHL (R167), as one instruction. -/
def execIopShl (d : Fin 32) (a : Fin 32) (b : Fin 32) (s : State) : Host.Outcome State Fault Refusal :=
  runWord (.iopShl d a b) (xIopShl d a b) s
/-- IOP_SHR (R167), as one instruction. -/
def execIopShr (d : Fin 32) (a : Fin 32) (b : Fin 32) (s : State) : Host.Outcome State Fault Refusal :=
  runWord (.iopShr d a b) (xIopShr d a b) s
/-- IOP_SRA (R167), as one instruction. -/
def execIopSra (d : Fin 32) (a : Fin 32) (b : Fin 32) (s : State) : Host.Outcome State Fault Refusal :=
  runWord (.iopSra d a b) (xIopSra d a b) s
/-- IOP_MIN (R167), as one instruction. -/
def execIopMin (d : Fin 32) (a : Fin 32) (b : Fin 32) (s : State) : Host.Outcome State Fault Refusal :=
  runWord (.iopMin d a b) (xIopMin d a b) s
/-- IOP_MAX (R167), as one instruction. -/
def execIopMax (d : Fin 32) (a : Fin 32) (b : Fin 32) (s : State) : Host.Outcome State Fault Refusal :=
  runWord (.iopMax d a b) (xIopMax d a b) s
/-- IOP_MINU (R167), as one instruction. -/
def execIopMinu (d : Fin 32) (a : Fin 32) (b : Fin 32) (s : State) : Host.Outcome State Fault Refusal :=
  runWord (.iopMinu d a b) (xIopMinu d a b) s
/-- IOP_MAXU (R167), as one instruction. -/
def execIopMaxu (d : Fin 32) (a : Fin 32) (b : Fin 32) (s : State) : Host.Outcome State Fault Refusal :=
  runWord (.iopMaxu d a b) (xIopMaxu d a b) s
/-- IOP_ADDW (R167), as one instruction. -/
def execIopAddw (d : Fin 32) (a : Fin 32) (b : Fin 32) (s : State) : Host.Outcome State Fault Refusal :=
  runWord (.iopAddw d a b) (xIopAddw d a b) s
/-- IOP_SUBW (R167), as one instruction. -/
def execIopSubw (d : Fin 32) (a : Fin 32) (b : Fin 32) (s : State) : Host.Outcome State Fault Refusal :=
  runWord (.iopSubw d a b) (xIopSubw d a b) s
/-- IOP_SLT (R167), as one instruction. -/
def execIopSlt (d : Fin 32) (a : Fin 32) (b : Fin 32) (s : State) : Host.Outcome State Fault Refusal :=
  runWord (.iopSlt d a b) (xIopSlt d a b) s
/-- IOP_SLTU (R167), as one instruction. -/
def execIopSltu (d : Fin 32) (a : Fin 32) (b : Fin 32) (s : State) : Host.Outcome State Fault Refusal :=
  runWord (.iopSltu d a b) (xIopSltu d a b) s
/-- MULDIV_MUL (R170), as one instruction. -/
def execMuldivMul (d : Fin 32) (a : Fin 32) (b : Fin 32) (s : State) : Host.Outcome State Fault Refusal :=
  runWord (.muldivMul d a b) (xMuldivMul d a b) s
/-- MULDIV_MULH (R170), as one instruction. -/
def execMuldivMulh (d : Fin 32) (a : Fin 32) (b : Fin 32) (s : State) : Host.Outcome State Fault Refusal :=
  runWord (.muldivMulh d a b) (xMuldivMulh d a b) s
/-- MULDIV_MULHU (R170), as one instruction. -/
def execMuldivMulhu (d : Fin 32) (a : Fin 32) (b : Fin 32) (s : State) : Host.Outcome State Fault Refusal :=
  runWord (.muldivMulhu d a b) (xMuldivMulhu d a b) s
/-- MULDIV_DIV (R170), as one instruction. -/
def execMuldivDiv (d : Fin 32) (a : Fin 32) (b : Fin 32) (s : State) : Host.Outcome State Fault Refusal :=
  runWord (.muldivDiv d a b) (xMuldivDiv d a b) s
/-- MULDIV_DIVU (R170), as one instruction. -/
def execMuldivDivu (d : Fin 32) (a : Fin 32) (b : Fin 32) (s : State) : Host.Outcome State Fault Refusal :=
  runWord (.muldivDivu d a b) (xMuldivDivu d a b) s
/-- MULDIV_REM (R170), as one instruction. -/
def execMuldivRem (d : Fin 32) (a : Fin 32) (b : Fin 32) (s : State) : Host.Outcome State Fault Refusal :=
  runWord (.muldivRem d a b) (xMuldivRem d a b) s
/-- MULDIV_REMU (R170), as one instruction. -/
def execMuldivRemu (d : Fin 32) (a : Fin 32) (b : Fin 32) (s : State) : Host.Outcome State Fault Refusal :=
  runWord (.muldivRemu d a b) (xMuldivRemu d a b) s
/-- BITF_EXTU (R171), as one instruction. -/
def execBitfExtu (d : Fin 32) (a : Fin 32) (b : Fin 32) (s : State) : Host.Outcome State Fault Refusal :=
  runWord (.bitfExtu d a b) (xBitfExtu d a b) s
/-- BITF_EXTS (R171), as one instruction. -/
def execBitfExts (d : Fin 32) (a : Fin 32) (b : Fin 32) (s : State) : Host.Outcome State Fault Refusal :=
  runWord (.bitfExts d a b) (xBitfExts d a b) s
/-- BITF_INS (R171), as one instruction. -/
def execBitfIns (d : Fin 32) (a : Fin 32) (b : Fin 32) (s : State) : Host.Outcome State Fault Refusal :=
  runWord (.bitfIns d a b) (xBitfIns d a b) s
/-- BITF_POPC (R171), as one instruction. -/
def execBitfPopc (d : Fin 32) (a : Fin 32) (s : State) : Host.Outcome State Fault Refusal :=
  runWord (.bitfPopc d a) (xBitfPopc d a) s
/-- BITF_CLZ (R171), as one instruction. -/
def execBitfClz (d : Fin 32) (a : Fin 32) (s : State) : Host.Outcome State Fault Refusal :=
  runWord (.bitfClz d a) (xBitfClz d a) s
/-- BITF_CTZ (R171), as one instruction. -/
def execBitfCtz (d : Fin 32) (a : Fin 32) (s : State) : Host.Outcome State Fault Refusal :=
  runWord (.bitfCtz d a) (xBitfCtz d a) s
/-- BITF_BREV (R171), as one instruction. -/
def execBitfBrev (d : Fin 32) (a : Fin 32) (s : State) : Host.Outcome State Fault Refusal :=
  runWord (.bitfBrev d a) (xBitfBrev d a) s
/-- BITF_BSWAP (R171), as one instruction. -/
def execBitfBswap (d : Fin 32) (a : Fin 32) (s : State) : Host.Outcome State Fault Refusal :=
  runWord (.bitfBswap d a) (xBitfBswap d a) s
/-- IOPI_ADD (R168), as one instruction. -/
def execIopiAdd (d : Fin 32) (a : Fin 32) (i : BitVec 12) (s : State) : Host.Outcome State Fault Refusal :=
  runWord (.iopiAdd d a i) (xIopiAdd d a i) s
/-- IOPI_AND (R168), as one instruction. -/
def execIopiAnd (d : Fin 32) (a : Fin 32) (i : BitVec 12) (s : State) : Host.Outcome State Fault Refusal :=
  runWord (.iopiAnd d a i) (xIopiAnd d a i) s
/-- IOPI_OR (R168), as one instruction. -/
def execIopiOr (d : Fin 32) (a : Fin 32) (i : BitVec 12) (s : State) : Host.Outcome State Fault Refusal :=
  runWord (.iopiOr d a i) (xIopiOr d a i) s
/-- IOPI_XOR (R168), as one instruction. -/
def execIopiXor (d : Fin 32) (a : Fin 32) (i : BitVec 12) (s : State) : Host.Outcome State Fault Refusal :=
  runWord (.iopiXor d a i) (xIopiXor d a i) s
/-- IOPI_SHL (R168), as one instruction. -/
def execIopiShl (d : Fin 32) (a : Fin 32) (i : Fin 64) (s : State) : Host.Outcome State Fault Refusal :=
  runWord (.iopiShl d a i) (xIopiShl d a i) s
/-- IOPI_SHR (R168), as one instruction. -/
def execIopiShr (d : Fin 32) (a : Fin 32) (i : Fin 64) (s : State) : Host.Outcome State Fault Refusal :=
  runWord (.iopiShr d a i) (xIopiShr d a i) s
/-- IOPI_SRA (R168), as one instruction. -/
def execIopiSra (d : Fin 32) (a : Fin 32) (i : Fin 64) (s : State) : Host.Outcome State Fault Refusal :=
  runWord (.iopiSra d a i) (xIopiSra d a i) s
/-- IOPI_ADDW (R168), as one instruction. -/
def execIopiAddw (d : Fin 32) (a : Fin 32) (i : BitVec 12) (s : State) : Host.Outcome State Fault Refusal :=
  runWord (.iopiAddw d a i) (xIopiAddw d a i) s
/-- IHI_LO (R169), as one instruction. -/
def execIhiLo (d : Fin 32) (i : BitVec 16) (s : State) : Host.Outcome State Fault Refusal :=
  runWord (.ihiLo d i) (xIhiLo d i) s
/-- IHI_LOU (R169), as one instruction. -/
def execIhiLou (d : Fin 32) (i : BitVec 16) (s : State) : Host.Outcome State Fault Refusal :=
  runWord (.ihiLou d i) (xIhiLou d i) s
/-- IHI_H1 (R169), as one instruction. -/
def execIhiH1 (d : Fin 32) (i : BitVec 16) (s : State) : Host.Outcome State Fault Refusal :=
  runWord (.ihiH1 d i) (xIhiH1 d i) s
/-- IHI_H2 (R169), as one instruction. -/
def execIhiH2 (d : Fin 32) (i : BitVec 16) (s : State) : Host.Outcome State Fault Refusal :=
  runWord (.ihiH2 d i) (xIhiH2 d i) s
/-- IHI_H3 (R169), as one instruction. -/
def execIhiH3 (d : Fin 32) (i : BitVec 16) (s : State) : Host.Outcome State Fault Refusal :=
  runWord (.ihiH3 d i) (xIhiH3 d i) s
/-- CMP_EQ (R172), as one instruction. -/
def execCmpEq (d : Fin 16) (a : Fin 32) (b : Fin 32) (s : State) : Host.Outcome State Fault Refusal :=
  runWord (.cmpEq d a b) (xCmpEq d a b) s
/-- CMP_NE (R172), as one instruction. -/
def execCmpNe (d : Fin 16) (a : Fin 32) (b : Fin 32) (s : State) : Host.Outcome State Fault Refusal :=
  runWord (.cmpNe d a b) (xCmpNe d a b) s
/-- CMP_LT (R172), as one instruction. -/
def execCmpLt (d : Fin 16) (a : Fin 32) (b : Fin 32) (s : State) : Host.Outcome State Fault Refusal :=
  runWord (.cmpLt d a b) (xCmpLt d a b) s
/-- CMP_GE (R172), as one instruction. -/
def execCmpGe (d : Fin 16) (a : Fin 32) (b : Fin 32) (s : State) : Host.Outcome State Fault Refusal :=
  runWord (.cmpGe d a b) (xCmpGe d a b) s
/-- CMP_LTU (R172), as one instruction. -/
def execCmpLtu (d : Fin 16) (a : Fin 32) (b : Fin 32) (s : State) : Host.Outcome State Fault Refusal :=
  runWord (.cmpLtu d a b) (xCmpLtu d a b) s
/-- CMP_GEU (R172), as one instruction. -/
def execCmpGeu (d : Fin 16) (a : Fin 32) (b : Fin 32) (s : State) : Host.Outcome State Fault Refusal :=
  runWord (.cmpGeu d a b) (xCmpGeu d a b) s
/-- CMP_TST (R172), as one instruction. -/
def execCmpTst (d : Fin 16) (a : Fin 32) (b : Fin 32) (s : State) : Host.Outcome State Fault Refusal :=
  runWord (.cmpTst d a b) (xCmpTst d a b) s
/-- PRD_AND (R173), as one instruction. -/
def execPrdAnd (d : Fin 16) (a : Fin 16) (b : Fin 16) (s : State) : Host.Outcome State Fault Refusal :=
  runWord (.prdAnd d a b) (xPrdAnd d a b) s
/-- PRD_OR (R173), as one instruction. -/
def execPrdOr (d : Fin 16) (a : Fin 16) (b : Fin 16) (s : State) : Host.Outcome State Fault Refusal :=
  runWord (.prdOr d a b) (xPrdOr d a b) s
/-- PRD_XOR (R173), as one instruction. -/
def execPrdXor (d : Fin 16) (a : Fin 16) (b : Fin 16) (s : State) : Host.Outcome State Fault Refusal :=
  runWord (.prdXor d a b) (xPrdXor d a b) s
/-- PRD_ANDN (R173), as one instruction. -/
def execPrdAndn (d : Fin 16) (a : Fin 16) (b : Fin 16) (s : State) : Host.Outcome State Fault Refusal :=
  runWord (.prdAndn d a b) (xPrdAndn d a b) s
/-- PRD_ORN (R173), as one instruction. -/
def execPrdOrn (d : Fin 16) (a : Fin 16) (b : Fin 16) (s : State) : Host.Outcome State Fault Refusal :=
  runWord (.prdOrn d a b) (xPrdOrn d a b) s
/-- PRD_NOR (R173), as one instruction. -/
def execPrdNor (d : Fin 16) (a : Fin 16) (b : Fin 16) (s : State) : Host.Outcome State Fault Refusal :=
  runWord (.prdNor d a b) (xPrdNor d a b) s
/-- PRD_FRS (R173), as one instruction. -/
def execPrdFrs (d : Fin 16) (a : Fin 32) (s : State) : Host.Outcome State Fault Refusal :=
  runWord (.prdFrs d a) (xPrdFrs d a) s
/-- PRD_TOS (R173), as one instruction. -/
def execPrdTos (d : Fin 32) (a : Fin 16) (s : State) : Host.Outcome State Fault Refusal :=
  runWord (.prdTos d a) (xPrdTos d a) s
/-- PRD_RDS (R173), as one instruction. -/
def execPrdRds (d : Fin 32) (s : State) : Host.Outcome State Fault Refusal :=
  runWord (.prdRds d) (xPrdRds d) s
/-- PRD_WRS (R173), as one instruction. -/
def execPrdWrs (a : Fin 32) (s : State) : Host.Outcome State Fault Refusal :=
  runWord (.prdWrs a) (xPrdWrs a) s
/-- LDS_B8 (R178), as one instruction. -/
def execLdsB8 (d : Fin 32) (a : Fin 32) (g : Bool) (i : BitVec 12) (s : State) : Host.Outcome State Fault Refusal :=
  runWord (.ldsB8 d a g i) (xLdsB8 d a g i) s
/-- LDS_I8 (R178), as one instruction. -/
def execLdsI8 (d : Fin 32) (a : Fin 32) (g : Bool) (i : BitVec 12) (s : State) : Host.Outcome State Fault Refusal :=
  runWord (.ldsI8 d a g i) (xLdsI8 d a g i) s
/-- LDS_B16 (R178), as one instruction. -/
def execLdsB16 (d : Fin 32) (a : Fin 32) (g : Bool) (i : BitVec 12) (s : State) : Host.Outcome State Fault Refusal :=
  runWord (.ldsB16 d a g i) (xLdsB16 d a g i) s
/-- LDS_I16 (R178), as one instruction. -/
def execLdsI16 (d : Fin 32) (a : Fin 32) (g : Bool) (i : BitVec 12) (s : State) : Host.Outcome State Fault Refusal :=
  runWord (.ldsI16 d a g i) (xLdsI16 d a g i) s
/-- LDS_B32 (R178), as one instruction. -/
def execLdsB32 (d : Fin 32) (a : Fin 32) (g : Bool) (i : BitVec 12) (s : State) : Host.Outcome State Fault Refusal :=
  runWord (.ldsB32 d a g i) (xLdsB32 d a g i) s
/-- LDS_I32 (R178), as one instruction. -/
def execLdsI32 (d : Fin 32) (a : Fin 32) (g : Bool) (i : BitVec 12) (s : State) : Host.Outcome State Fault Refusal :=
  runWord (.ldsI32 d a g i) (xLdsI32 d a g i) s
/-- LDS_B64 (R178), as one instruction. -/
def execLdsB64 (d : Fin 32) (a : Fin 32) (g : Bool) (i : BitVec 12) (s : State) : Host.Outcome State Fault Refusal :=
  runWord (.ldsB64 d a g i) (xLdsB64 d a g i) s
/-- STS_B8 (R178), as one instruction. -/
def execStsB8 (d : Fin 32) (a : Fin 32) (g : Bool) (i : BitVec 12) (s : State) : Host.Outcome State Fault Refusal :=
  runWord (.stsB8 d a g i) (xStsB8 d a g i) s
/-- STS_B16 (R178), as one instruction. -/
def execStsB16 (d : Fin 32) (a : Fin 32) (g : Bool) (i : BitVec 12) (s : State) : Host.Outcome State Fault Refusal :=
  runWord (.stsB16 d a g i) (xStsB16 d a g i) s
/-- STS_B32 (R178), as one instruction. -/
def execStsB32 (d : Fin 32) (a : Fin 32) (g : Bool) (i : BitVec 12) (s : State) : Host.Outcome State Fault Refusal :=
  runWord (.stsB32 d a g i) (xStsB32 d a g i) s
/-- STS_B64 (R178), as one instruction. -/
def execStsB64 (d : Fin 32) (a : Fin 32) (g : Bool) (i : BitVec 12) (s : State) : Host.Outcome State Fault Refusal :=
  runWord (.stsB64 d a g i) (xStsB64 d a g i) s
/-- CSR_RD (R180), as one instruction. -/
def execCsrRd (d : Fin 32) (c : BitVec 12) (s : State) : Host.Outcome State Fault Refusal :=
  runWord (.csrRd d c) (xCsrRd d c) s
/-- CSR_WR (R180), as one instruction. -/
def execCsrWr (a : Fin 32) (c : BitVec 12) (s : State) : Host.Outcome State Fault Refusal :=
  runWord (.csrWr a c) (xCsrWr a c) s
/-- CSR_SET (R180), as one instruction. -/
def execCsrSet (d : Fin 32) (a : Fin 32) (c : BitVec 12) (s : State) : Host.Outcome State Fault Refusal :=
  runWord (.csrSet d a c) (xCsrSet d a c) s
/-- CSR_CLR (R180), as one instruction. -/
def execCsrClr (d : Fin 32) (a : Fin 32) (c : BitVec 12) (s : State) : Host.Outcome State Fault Refusal :=
  runWord (.csrClr d a c) (xCsrClr d a c) s

end Sys2Proof.Machine
end

