-- ==== Sys2Proof/Machine/Bundle.lean ====
section
/-! DEFINITION. Issuing a bundle, and the steps of a sequencer without a word of their own: waits, a loop's end, an
unassigned word, late results and the watchdog (R19-R24, R150-R156, R177, R188, R189, R313). -/

namespace Sys2Proof.Machine

/-! ### The effect of every word -/

/-- The effect of an instruction that a sequencer keeps as a word: all but those of `Near`. -/
def wordEffect : Instr → Option (State → Eff)
  | .iopAdd d a b => some (xIopAdd d a b)
  | .iopSub d a b => some (xIopSub d a b)
  | .iopAnd d a b => some (xIopAnd d a b)
  | .iopOr d a b => some (xIopOr d a b)
  | .iopXor d a b => some (xIopXor d a b)
  | .iopShl d a b => some (xIopShl d a b)
  | .iopShr d a b => some (xIopShr d a b)
  | .iopSra d a b => some (xIopSra d a b)
  | .iopMin d a b => some (xIopMin d a b)
  | .iopMax d a b => some (xIopMax d a b)
  | .iopMinu d a b => some (xIopMinu d a b)
  | .iopMaxu d a b => some (xIopMaxu d a b)
  | .iopAddw d a b => some (xIopAddw d a b)
  | .iopSubw d a b => some (xIopSubw d a b)
  | .iopSlt d a b => some (xIopSlt d a b)
  | .iopSltu d a b => some (xIopSltu d a b)
  | .iopiAdd d a i => some (xIopiAdd d a i)
  | .iopiAnd d a i => some (xIopiAnd d a i)
  | .iopiOr d a i => some (xIopiOr d a i)
  | .iopiXor d a i => some (xIopiXor d a i)
  | .iopiShl d a i => some (xIopiShl d a i)
  | .iopiShr d a i => some (xIopiShr d a i)
  | .iopiSra d a i => some (xIopiSra d a i)
  | .iopiAddw d a i => some (xIopiAddw d a i)
  | .ihiLo d i => some (xIhiLo d i)
  | .ihiH1 d i => some (xIhiH1 d i)
  | .ihiH2 d i => some (xIhiH2 d i)
  | .ihiH3 d i => some (xIhiH3 d i)
  | .ihiLou d i => some (xIhiLou d i)
  | .cmpEq d a b => some (xCmpEq d a b)
  | .cmpNe d a b => some (xCmpNe d a b)
  | .cmpLt d a b => some (xCmpLt d a b)
  | .cmpGe d a b => some (xCmpGe d a b)
  | .cmpLtu d a b => some (xCmpLtu d a b)
  | .cmpGeu d a b => some (xCmpGeu d a b)
  | .cmpTst d a b => some (xCmpTst d a b)
  | .prdAnd d a b => some (xPrdAnd d a b)
  | .prdOr d a b => some (xPrdOr d a b)
  | .prdXor d a b => some (xPrdXor d a b)
  | .prdAndn d a b => some (xPrdAndn d a b)
  | .prdOrn d a b => some (xPrdOrn d a b)
  | .prdNor d a b => some (xPrdNor d a b)
  | .prdFrs d a => some (xPrdFrs d a)
  | .prdTos d a => some (xPrdTos d a)
  | .prdRds d => some (xPrdRds d)
  | .prdWrs a => some (xPrdWrs a)
  | .br n p o => some (xBr n p o)
  | .jmpR a => some (xJmpR a)
  | .jmpLink d a => some (xJmpLink d a)
  | .loopSp c a i => some (xLoopSp c a i)
  | .ldsB8 d a g i => some (xLdsB8 d a g i)
  | .ldsI8 d a g i => some (xLdsI8 d a g i)
  | .ldsB16 d a g i => some (xLdsB16 d a g i)
  | .ldsI16 d a g i => some (xLdsI16 d a g i)
  | .ldsB32 d a g i => some (xLdsB32 d a g i)
  | .ldsI32 d a g i => some (xLdsI32 d a g i)
  | .ldsB64 d a g i => some (xLdsB64 d a g i)
  | .stsB8 d a g i => some (xStsB8 d a g i)
  | .stsB16 d a g i => some (xStsB16 d a g i)
  | .stsB32 d a g i => some (xStsB32 d a g i)
  | .stsB64 d a g i => some (xStsB64 d a g i)
  | .csrRd d c => some (xCsrRd d c)
  | .csrWr a c => some (xCsrWr a c)
  | .csrSet d a c => some (xCsrSet d a c)
  | .csrClr d a c => some (xCsrClr d a c)
  | .bitfPopc d a => some (xBitfPopc d a)
  | .bitfClz d a => some (xBitfClz d a)
  | .bitfCtz d a => some (xBitfCtz d a)
  | .bitfBrev d a => some (xBitfBrev d a)
  | .bitfBswap d a => some (xBitfBswap d a)
  | .bitfExtu d a b => some (xBitfExtu d a b)
  | .bitfExts d a b => some (xBitfExts d a b)
  | .bitfIns d a b => some (xBitfIns d a b)
  | .muldivMul d a b => some (xMuldivMul d a b)
  | .muldivMulh d a b => some (xMuldivMulh d a b)
  | .muldivMulhu d a b => some (xMuldivMulhu d a b)
  | .muldivDiv d a b => some (xMuldivDiv d a b)
  | .muldivDivu d a b => some (xMuldivDivu d a b)
  | .muldivRem d a b => some (xMuldivRem d a b)
  | .muldivRemu d a b => some (xMuldivRemu d a b)
  | .sysNop => some (xSysNop)
  | .sysEnd g => some (xSysEnd g)
  | .sysTrap a n => some (xSysTrap a n)
  | .sysWev => some (xSysWev)
  | .privRd d a => some (xPrivRd d a)
  | .privWr a b => some (xPrivWr a b)
  | .privRet => some (xPrivRet)
  | .privHcall x => some (xPrivHcall x)
  | .privWfi => some (xPrivWfi)
  | .privTinv a b => some (xPrivTinv a b)
  | .ringClaim d a b m => some (xRingClaim d a b m)
  | .ringCommit d a b m => some (xRingCommit d a b m)
  | .ringWaitf a b m => some (xRingWaitf a b m)
  | .ringWaitr a b m => some (xRingWaitr a b m)
  | .ringPop a b m => some (xRingPop a b m)
  | .ringCfg a b => some (xRingCfg a b)
  | .ringRd d a => some (xRingRd d a)
  | .semAdd d a b m => some (xSemAdd d a b m)
  | .semWaitge a b => some (xSemWaitge a b)
  | .semRd d a => some (xSemRd d a)
  | .gbarArr a => some (xGbarArr a)
  | .gbarWait a => some (xGbarWait a)
  | .gbarSync a => some (xGbarSync a)
  | .ordRel s => some (xOrdRel s)
  | .ordAcq s => some (xOrdAcq s)
  | .ordFull s => some (xOrdFull s)
  | .copyIn d a b g m => some (xCopyIn d a b g m)
  | .copyOut d a b k g => some (xCopyOut d a b k g)
  | .copyWt d a b x g m => some (xCopyWt d a b x g m)
  | .copyMm d a b g => some (xCopyMm d a b g)
  | .gathFill d a g => some (xGathFill d a g)
  | .lineRd d a => some (xLineRd d a)
  | .lineWr a b => some (xLineWr a b)
  | .lineSet d a b g => some (xLineSet d a b g)
  | .markTile => some (xMarkTile)
  | .markDrain => some (xMarkDrain)
  | .mmaRn8 d a b i j k o r => some (xMmaRn8 d a b i j k o r)
  | .mmaRn4 d a b i j k o r => some (xMmaRn4 d a b i j k o r)
  | .mmaRnx d a b i j k o r => some (xMmaRnx d a b i j k o r)
  | .mmaRny d a b i j k o r => some (xMmaRny d a b i j k o r)
  | .mmaBf16 d a b i j k o r => some (xMmaBf16 d a b i j k o r)
  | .accRd d a b => some (xAccRd d a b)
  | .accFlg d a => some (xAccFlg d a)
  | .accSt d a x y => some (xAccSt d a x y)
  | .accAdd d a b => some (xAccAdd d a b)
  | .accZero d => some (xAccZero d)
  | .tentMark d a => some (xTentMark d a)
  | .rslv d a f g => some (xRslv d a f g)
  | .mkat a b => some (xMkat a b)
  | .vfpAdd d a b t => some (xVfpAdd d a b t)
  | .vfpSub d a b t => some (xVfpSub d a b t)
  | .vfpMul d a b t => some (xVfpMul d a b t)
  | .vfpMin d a b t => some (xVfpMin d a b t)
  | .vfpMax d a b t => some (xVfpMax d a b t)
  | .vfpAbs d a t => some (xVfpAbs d a t)
  | .vfpNeg d a t => some (xVfpNeg d a t)
  | .vfpCpsgn d a b t => some (xVfpCpsgn d a b t)
  | .vfmaFma d a b t => some (xVfmaFma d a b t)
  | .vfmaFms d a b t => some (xVfmaFms d a b t)
  | .vfmaFnma d a b t => some (xVfmaFnma d a b t)
  | .vfmaFnms d a b t => some (xVfmaFnms d a b t)
  | .vintAdd d a b t => some (xVintAdd d a b t)
  | .vintSub d a b t => some (xVintSub d a b t)
  | .vintMul d a b t => some (xVintMul d a b t)
  | .vintAnd d a b t => some (xVintAnd d a b t)
  | .vintOr d a b t => some (xVintOr d a b t)
  | .vintXor d a b t => some (xVintXor d a b t)
  | .vintAndn d a b t => some (xVintAndn d a b t)
  | .vintShl d a b t => some (xVintShl d a b t)
  | .vintShr d a b t => some (xVintShr d a b t)
  | .vintSra d a b t => some (xVintSra d a b t)
  | .vintMin d a b t => some (xVintMin d a b t)
  | .vintMax d a b t => some (xVintMax d a b t)
  | .vintAdds d a b t => some (xVintAdds d a b t)
  | .vintSubs d a b t => some (xVintSubs d a b t)
  | .vintAbs d a t => some (xVintAbs d a t)
  | .vintMulh d a b t => some (xVintMulh d a b t)
  | .vcmpEq d a b t => some (xVcmpEq d a b t)
  | .vcmpNe d a b t => some (xVcmpNe d a b t)
  | .vcmpLt d a b t => some (xVcmpLt d a b t)
  | .vcmpLe d a b t => some (xVcmpLe d a b t)
  | .vcmpGt d a b t => some (xVcmpGt d a b t)
  | .vcmpGe d a b t => some (xVcmpGe d a b t)
  | .vcmpUn d a b t => some (xVcmpUn d a b t)
  | .vcvtF2i d a t => some (xVcvtF2i d a t)
  | .vcvtI2f d a t => some (xVcvtI2f d a t)
  | .vcvtF2h d a => some (xVcvtF2h d a)
  | .vcvtH2f d a => some (xVcvtH2f d a)
  | .vcvtRint d a t => some (xVcvtRint d a t)
  | .vcvtQf d a b t => some (xVcvtQf d a b t)
  | .vcvtQh d a b t => some (xVcvtQh d a b t)
  | .vredSum d a t => some (xVredSum d a t)
  | .vredMax d a t => some (xVredMax d a t)
  | .vredMin d a t => some (xVredMin d a t)
  | .vredAnd d a t => some (xVredAnd d a t)
  | .vredOr d a t => some (xVredOr d a t)
  | .vredXor d a t => some (xVredXor d a t)
  | .vredSadd d a t => some (xVredSadd d a t)
  | .vredSmax d a t => some (xVredSmax d a t)
  | .vredAnyp d a => some (xVredAnyp d a)
  | .vredAllp d a => some (xVredAllp d a)
  | .vpermSel d a b => some (xVpermSel d a b)
  | .vpermShift d a b => some (xVpermShift d a b)
  | .vpermTr d a => some (xVpermTr d a)
  | .vmemLd d a b t => some (xVmemLd d a b t)
  | .vmemSt d a b t => some (xVmemSt d a b t)
  | .vmemGat d a b t => some (xVmemGat d a b t)
  | .vmemSct d a b t => some (xVmemSct d a b t)
  | .vsfuRcp d a t => some (xVsfuRcp d a t)
  | .vsfuRsqrt d a t => some (xVsfuRsqrt d a t)
  | .vsfuSqrt d a t => some (xVsfuSqrt d a t)
  | .vsfuDiv d a b t => some (xVsfuDiv d a b t)
  | .vsfuExp d a t => some (xVsfuExp d a t)
  | .vsfuExp2 d a t => some (xVsfuExp2 d a t)
  | .vsfuLn d a t => some (xVsfuLn d a t)
  | .vsfuLog2 d a t => some (xVsfuLog2 d a t)
  | .vsfuSin d a t => some (xVsfuSin d a t)
  | .vsfuCos d a t => some (xVsfuCos d a t)
  | .vsfuTanh d a t => some (xVsfuTanh d a t)
  | .vsfuSigm d a t => some (xVsfuSigm d a t)
  | .vclmLo d a b => some (xVclmLo d a b)
  | .vclmHi d a b => some (xVclmHi d a b)
  | .vclmXlo d a b => some (xVclmXlo d a b)
  | .vclmXhi d a b => some (xVclmXhi d a b)
  | .vclmBrev d a => some (xVclmBrev d a)
  | .vselSel d a b => some (xVselSel d a b)
  | .vselSelz d a => some (xVselSelz d a)
  | .vsetBcast d a t => some (xVsetBcast d a t)
  | .vsetIota d t => some (xVsetIota d t)
  | .vsetIrow d t => some (xVsetIrow d t)
  | .vsetIcol d t => some (xVsetIcol d t)
  | .vsetGet d a b => some (xVsetGet d a b)
  | .vsetPut d a b => some (xVsetPut d a b)
  | .proofRun a g => some (xProofRun a g)
  | .ptabRd d a b => some (xPtabRd d a b)
  | .ptabWr d a b => some (xPtabWr d a b)
  | .ptabHrd d a b => some (xPtabHrd d a b)
  | .ptabHwr d a b => some (xPtabHwr d a b)
  | .ptabCrd d a b => some (xPtabCrd d a b)
  | .ptabClr a b => some (xPtabClr a b)
  | .creelCfg a b => some (xCreelCfg a b)
  | .creelBias a b => some (xCreelBias a b)
  | .creelOffer d a b => some (xCreelOffer d a b)
  | .creelDrain d a b => some (xCreelDrain d a b)
  | .creelRd d a => some (xCreelRd d a)
  | .routeTopk d a b n k => some (xRouteTopk d a b n k)
  | .nmaAddI32 d a b => some (xNmaAddI32 d a b)
  | .nmaMinI32 d a b u => some (xNmaMinI32 d a b u)
  | .nmaMaxI32 d a b u => some (xNmaMaxI32 d a b u)
  | .nmaAndI32 d a b => some (xNmaAndI32 d a b)
  | .nmaOrI32 d a b => some (xNmaOrI32 d a b)
  | .nmaXorI32 d a b => some (xNmaXorI32 d a b)
  | .nmaSwapI32 d a b => some (xNmaSwapI32 d a b)
  | .nmaCasI32 d a b => some (xNmaCasI32 d a b)
  | .nmaAddI64 d a b => some (xNmaAddI64 d a b)
  | .nmaMinI64 d a b u => some (xNmaMinI64 d a b u)
  | .nmaMaxI64 d a b u => some (xNmaMaxI64 d a b u)
  | .nmaAndI64 d a b => some (xNmaAndI64 d a b)
  | .nmaOrI64 d a b => some (xNmaOrI64 d a b)
  | .nmaXorI64 d a b => some (xNmaXorI64 d a b)
  | .nmaSwapI64 d a b => some (xNmaSwapI64 d a b)
  | .nmaCasI64 d a b => some (xNmaCasI64 d a b)
  | .nmaAddF32 d a b => some (xNmaAddF32 d a b)
  | .nmaMinF32 d a b => some (xNmaMinF32 d a b)
  | .nmaMaxF32 _ _ _ => none
  | .nmaSwapF32 _ _ _ => none
  | .nmaCasF32 _ _ _ => none
  | .nmaLaddF32 _ _ _ _ => none
  | .nmaLaddI32 _ _ _ _ => none
  | .nmaLmaxF32 _ _ _ _ => none
  | .skSeed _ _ => none
  | .skUpd _ _ _ => none
  | .skUpdl _ _ _ => none
  | .skQry _ _ _ => none
  | .skQryl _ _ _ => none
  | .skAdd _ _ => none
  | .skClr _ => none
  | .ocInit _ _ _ _ => none
  | .ocIns _ _ _ => none
  | .ocLdt _ _ _ => none
  | .ocLds _ _ _ => none
  | .ocSettle _ _ => none
  | .ocFold _ _ => none
  | .postTask _ => none
  | .postQp _ _ => none
  | .postTcadd _ _ _ _ _ => none
  | .postTcset _ _ _ _ _ => none
  | .postTcrd _ _ _ _ _ => none
  | .postTcwait _ _ _ _ _ => none
  | .postWbeg _ _ => none
  | .postWcom _ => none
  | .postWabn _ => none
  | .postWst _ _ => none
  | .cStreamLanding _ => none
  | .lateResultReady _ => none
  | .watchdog _ => none
  | .loopIterationEnd _ => none
  | .waitSatisfied _ => none
  | .engineCommandStart _ _ => none
  | .engineCommandRetire _ _ => none
  | .engineReplay _ _ => none
  | .katTestRun _ => none
  | .commandSteal _ _ => none
  | .prooferCommandStart _ => none
  | .prooferCommandRetire _ => none
  | .postedOpApply _ _ => none
  | .nodeRecordAdmit _ => none
  | .tileRecordAdmit _ => none
  | .runTileDispatch _ => none
  | .dispatch => none
  | .preload _ => none
  | .reserving _ => none
  | .nodeRetire _ => none
  | .heldRelease => none
  | .budget _ => none
  | .peelSave _ => none
  | .translationWalk _ _ _ => none
  | .tuInvalidation _ _ => none
  | .entryArm _ => none
  | .csqPut _ _ => none
  | .csqPutredSum _ _ => none
  | .csqPutredMax _ _ => none
  | .csqPutredMin _ _ => none
  | .csqMaxexp _ _ => none
  | .csqNotify _ _ => none
  | .lcopyCopy _ _ => none
  | .lcopyConvert _ _ => none
  | .lcopyZero _ _ => none
  | .entryComplete _ _ => none
  | .entryFail _ _ => none
  | .remoteCounterAdd _ _ _ => none
  | .qpctlReset _ => none
  | .qpctlEnable _ => none
  | .qpctlDisable _ => none
  | .qpResetDone _ => none
  | .interruptEntry _ => none
  | .partitionCreate _ => none
  | .partitionStart _ => none
  | .partitionStop _ => none
  | .partitionDestroy _ => none
  | .ncmdPreempt _ _ _ _ => none
  | .ncmdResume _ _ _ _ => none
  | .ncmdRerun _ _ _ _ => none
  | .ncmdDiscard _ _ _ _ => none
  | .ncmdClear _ _ => none
  | .nodeCommandComplete _ => none
  | .cstgWrite _ _ => none
  | .scrbWrite _ _ => none
  | .pptbWrite _ _ => none
  | .privilegedRegisterWrite _ _ _ => none
  | .scrubPass _ => none
  | .ingtArm _ _ => none
  | .ingtDisarm _ _ => none
  | .ingestCheck _ => none
  | .mbctlAck _ => none
  | .mbctlSig _ => none
  | .hostDoorbell _ => none
  | .hostBar0Access _ _ _ _ _ => none
  | .hostBar2Access _ _ _ _ _ => none
  | .fpsDrain _ _ => none
  | .fpsReturn _ _ => none
  | .drainFlitSend _ => none
  | .peerDrainRequest _ => none
  | .drainConfirm _ => none
  | .fabricTimeout _ => none
  | .evcStart _ => none
  | .evcUnlatchRequest _ => none
  | .evcLate => none
  | .unlatchRaise => none
  | .unlatchDrop => none
  | .islandRequestRun _ _ => none
  | .islandRequestIdle _ _ => none
  | .islandRequestOff _ _ => none
  | .islandStart => none
  | .coreGroupStart _ => none
  | .islandWake _ => none
  | .correctedError _ => none
  | .bucketLeak => none
  | .memoryLinkFail _ => none
  | .laneRetrain _ _ => none
  | .arbitrationAging _ => none
  | .powerOn => none
  | .bootStep _ _ _ => none
  | .debugToken _ => none
  | .altClear _ => none
  | .spdmGetVersion => none
  | .spdmGetCapabilities => none
  | .spdmNegotiateAlgorithms => none
  | .spdmGetDigests => none
  | .spdmGetCertificate => none
  | .spdmChallenge _ => none
  | .spdmGetMeasurements _ => none
  | .pldmSensorRead _ => none
  | .bundleIssue _ _ => none
  | .unassignedOpcode _ => none
  | .reservedKindRecord _ => none
  | .fabricPeerRequest _ _ => none
  | .fabricPortUp _ => none
  | .fabricPortDown _ => none
  | .peerPortReopen _ => none
  | .uncorrectableError _ => none
  | .debugAccess _ => none

/-- The effect of a word of `Near`. -/
def nearEffect : Near → State → Eff
  | .nmaMaxF32 d a b => xNmaMaxF32 d a b
  | .nmaSwapF32 d a b => xNmaSwapF32 d a b
  | .nmaCasF32 d a b => xNmaCasF32 d a b
  | .nmaLaddF32 d a b g => xNmaLaddF32 d a b g
  | .nmaLaddI32 d a b g => xNmaLaddI32 d a b g
  | .nmaLmaxF32 d a b g => xNmaLmaxF32 d a b g
  | .skSeed a b => xSkSeed a b
  | .skUpd d a b => xSkUpd d a b
  | .skUpdl a b g => xSkUpdl a b g
  | .skQry d a b => xSkQry d a b
  | .skQryl a b g => xSkQryl a b g
  | .skAdd a b => xSkAdd a b
  | .skClr a => xSkClr a
  | .ocInit d a b i => xOcInit d a b i
  | .ocIns d a b => xOcIns d a b
  | .ocLdt d a b => xOcLdt d a b
  | .ocLds d a b => xOcLds d a b
  | .ocSettle a b => xOcSettle a b
  | .ocFold d b => xOcFold d b
  | .postTask a => xPostTask a
  | .postQp a b => xPostQp a b
  | .postTcadd d a b h n => xPostTcadd d a b h n
  | .postTcset d a b h n => xPostTcset d a b h n
  | .postTcrd d a b h n => xPostTcrd d a b h n
  | .postTcwait d a b h n => xPostTcwait d a b h n
  | .postWbeg a b => xPostWbeg a b
  | .postWcom b => xPostWcom b
  | .postWabn b => xPostWabn b
  | .postWst d b => xPostWst d b

/-! ### Checks at issue (R150, R151, R156) -/

/-- A slot word as an instruction of a group that C accepts. -/
def decodeSlot (w : Nat) : Except DecodeError Instr :=
  match fld w 26 6 with
  | 1 => decIop w
  | 2 => decIopi w
  | 3 => decIhi w
  | 4 => decCmp w
  | 5 => decPrd w
  | 6 => decBr w
  | 7 => decJmp w
  | 8 => decLoop w
  | 11 => decCsr w
  | 12 => decBitf w
  | 13 => decMuldiv w
  | 14 => decSys w
  | 16 => decRing w
  | 17 => decSem w
  | 18 => decGbar w
  | 19 => decOrd w
  | 32 => decVfp w
  | 33 => decVfma w
  | 34 => decVint w
  | 35 => decVcmp w
  | 36 => decVcvt w
  | 37 => decVred w
  | 38 => decVperm w
  | 39 => decVmem w
  | 40 => decVsfu w
  | 41 => decVclm w
  | 42 => decVsel w
  | 43 => decVset w
  | 48 => decMma w
  | 49 => decAcc w
  | 50 => decTent w
  | 51 => decRslv w
  | 52 => decMkat w
  | 56 => decProof w
  | 59 => decRoute w
  | m => .error (.reservedMajor m)

/-- NP of a header. -/
def headNp (h : W32) : Nat := bf h 22 4
/-- N of a header. -/
def headN (h : W32) : Nat := bf h 20 2
/-- The guard of slot k. -/
def headGuard (h : W32) (k : Nat) : Reg16 := idx 16 (bf h (16 - 4 * k) 4)

/-- The limits of a header: its reserved bits, NP, and no guard beyond its slots. -/
def headOk (h : W32) : Bool :=
  bf h 0 4 == 0 && (headNp h == 1 || headNp h == 2)
    && (List.range 4).all fun k => decide (k ≤ headN h) || headGuard h k == 0

/-- The slots from number k on; the first that fails is named. -/
def slotsFrom (h : W32) (s : State) : Nat → List W32 → Except Nat (List (Nat × Instr))
  | _, [] => .ok []
  | k, w :: ws =>
    match decodeSlot w.toNat with
    | .error _ => .error k
    | .ok i =>
      if (issueCheck (headN h) i s).isSome then .error k
      else
        match slotsFrom h s (k + 1) ws with
        | .error j => .error j
        | .ok is => .ok ((k, i) :: is)

/-- How many slots of a class a bundle may hold. -/
def classLimit : SlotClass → Nat
  | .vector => 2
  | _ => 1
/-- The class counts keep R151. -/
def classesOk (is : List (Nat × Instr)) : Bool :=
  [SlotClass.scalar, .vector, .special, .matrix, .control].all fun c =>
    decide ((is.filter fun x => decide (classOf (majorOf x.2) = c)).length ≤ classLimit c)

/-- No destination is named by two slots (R22). -/
def destsOk : List (Nat × Instr) → Bool
  | [] => true
  | x :: xs => (dests x.2).all (fun d => xs.all fun y => !(dests y.2).contains d) && destsOk xs

/-- The checks of `issue_bundle`: the slots, or the first failing one. -/
def checkBundle (h : W32) (ws : List W32) (s : State) : Except Nat (List (Nat × Instr)) :=
  if !headOk h then .error 15
  else
    match slotsFrom h s 0 ws with
    | .error k => .error k
    | .ok is => if classesOk is && destsOk is then .ok is else .error 15

/-! ### Execution (R152, R153) -/

/-- A slot that executes. -/
structure SlotRun where
  k       : Nat
  control : Bool
  eff     : State → Eff

/-- The slots whose guards read true. A register error of a guard or source is consumed at its slot (R311). -/
def activeSlots (h : W32) (s : State) (is : List (Nat × Instr)) : List SlotRun :=
  is.filterMap fun x =>
    let g := headGuard h x.1
    if readsError [RegSite.pred g] s then some { k := x.1, control := false, eff := fun _ => .trap registerExc }
    else if !s.rp g then none
    else
      match wordEffect x.2 with
      | none => none
      | some f => some {
          k := x.1, control := decide (classOf (majorOf x.2) = .control)
          eff := fun t => if readsError (sources x.2) s then .trap registerExc else f t }

/-- A slot in a state. -/
def SlotRun.at_ (x : SlotRun) (t : State) : Eff := x.eff { t with curSlot := x.k }

/-- A slot waits at its instruction. -/
def Eff.waits : Eff → Bool
  | .stall => true
  | .trap (.hold _) => true
  | _ => false

/-- The slots in order on the state before the bundle's control slot, which takes effect last; the first that does not
complete decides. -/
def walkSlots (s1 : State) : State → List SlotRun → Option SlotRun → Nat × Eff
  | t, [], none => (0, .done t)
  | t, [], some c => (c.k, c.at_ t)
  | t, x :: xs, c =>
    if x.control then
      match x.at_ s1 with
      | .done _ => walkSlots s1 t xs (some x)
      | e => (x.k, e)
    else
      match x.at_ t with
      | .done u => walkSlots s1 u xs c
      | e => (x.k, e)

/-- What a bundle comes to, and its slot: a control slot that waits holds back the whole bundle. -/
def slotsEff (s1 : State) (xs : List SlotRun) : Nat × Eff :=
  match xs.find? fun x => x.control && (x.at_ s1).waits with
  | some x => (x.k, .stall)
  | none => walkSlots s1 s1 xs none

/-- One C-stream cycle passes for what is in flight (R19, R21). -/
def Core.passCycle (c : Core) : Core :=
  { c with flight := c.flight.map fun f => { f with left := f.left - 1 }, landed := 0 }

/-- The state in which the slots of a bundle execute. -/
def State.enterBundle (s : State) (h : W32) : State :=
  { s with curAddr := s.me.pc, curNp := headNp h }.setMe
    { s.me with pc := s.me.pc + w64 (4 * (headN h + 2)), wait := none, held := none }

/-- Issues a bundle in C of core g. -/
def State.issueBundle (s : State) (g : Nat) (h : W32) (ws : List W32) : State :=
  match checkBundle h ws s with
  | .error k => { s with curSlot := k, curAddr := s.me.pc }.take illegal
  | .ok is =>
    let r := slotsEff (s.enterBundle h) (activeSlots h s is)
    match r.2 with
    | .done t => t.setCore g (t.core g).passCycle
    | e => settle (.bundle h ws) { s with curSlot := r.1 } e

/-- bundle issue. -/
def execBundleIssue (header : W32) (slots : List W32) (s : State) : Host.Outcome State Fault Refusal :=
  match s.cur with
  | .core g .C => .next (s.issueBundle g header slots)
  | _ => .next ({ s with curAddr := s.me.pc, curSlot := 15 }.take illegal)

/-- unassigned opcode: ILLEGAL, or PRIV in K of a compute core for major 0x0F (R156); in C the word stands where a
header is expected. -/
def execUnassignedOpcode (word : W32) (s : State) : Host.Outcome State Fault Refusal :=
  .next ({ s with curAddr := s.me.pc, curSlot := 15 }.take ((groupCheck (fld word.toNat 26 6) false s).getD illegal))

/-! ### Waits, loops (R177, R186, R188) -/

/-- A sequencer runs again what it waits at. -/
def State.retry (s : State) (w : Who) : Host.Outcome State Fault Refusal :=
  match (s.seqOf w).wait with
  | none => .next s
  | some (.near n) => runNear n (nearEffect n) s
  | some (.word i) =>
    match wordEffect i with
    | some f => runWord i f s
    | none => .next s
  | some (.bundle h ws) =>
    match w with
    | .core g _ => .next (s.issueBundle g h ws)
    | .hearth _ => .next s

/-- wait satisfied: a `gbar.sync` past its arrival, or the instruction or bundle at which the sequencer stalls. -/
def execWaitSatisfied (w : Who) (s : State) : Host.Outcome State Fault Refusal :=
  if !s.canRun w then .next s
  else
    let s := { s with cur := w }
    match s.me.sync with
    | some a => .next (if s.barDone a then (s.barAcquire a).setMe { (s.barAcquire a).me with sync := none } else s)
    | none => s.retry w

/-- loop iteration end. -/
def execLoopIterationEnd (w : Who) (s : State) : Host.Outcome State Fault Refusal :=
  let q := s.seqOf w
  .next (if s.canRun w && q.loop.active && q.pc == q.loop.fin then loopEndStep s w else s)

/-! ### Late results and the watchdog (R23, R24, R313) -/

/-- A core whose freeze has ended. -/
def State.unfreeze (s : State) (g : Nat) (f : Freeze) : State :=
  { s.setCore g { s.core g with freeze := none } with cur := .core g f.seq }

/-- What a frozen core does when the late unit answers: a landing cycle proceeds with C's own next turn, which comes at
once; the instruction or bundle that froze runs again. -/
def State.thaw (s : State) (g : Nat) (f : Freeze) : Host.Outcome State Fault Refusal :=
  let s := s.unfreeze g f
  if f.seq = .C ∧ ((s.core g).flight.any fun f => f.left == 0) = true then
    .next { s with agenda := .seq (.core g .C) :: s.agenda }
  else s.retry (.core g f.seq)

/-- late result ready: the freeze ends, unless the unit is still late, or the freeze has reached the watchdog's limit
(R24). -/
def execLateResultReady (g : Nat) (s : State) : Host.Outcome State Fault Refusal :=
  match (s.core g).freeze with
  | none => .next s
  | some f =>
    if 2 ^ 20 ≤ f.cycles ∨ (s.landLate g).isSome = true then .next s
    else
      match s.thaw g f with
      | .next t => .next (if (t.core g).freeze.isSome then s else t)
      | o => o

/-- What C of core g is about to need of a unit: the address of a due access, for the units of memory, or 0 for a due
result (R23, R313). -/
def State.needs (s : State) (g : Nat) (unit : Late) : Option W64 :=
  let due := (s.core g).flight.filter fun f => f.left == 0
  match unit with
  | .bank | .memory | .walk => due.findSome? fun f => f.op.addr
  | .accumulator => if due.any fun f => f.op.tile.isSome then some 0 else none
  | .specialFunction => if due.any fun f => (match f.op with | .vec _ _ => true | _ => false) then some 0 else none
  | .scalarUnit => if due.any fun f => (match f.op with | .sreg _ _ => true | _ => false) then some 0 else none
  | .pipe => some 0
  | .matrixQueue | .prooferQueue => none

/-- A unit is late with what C of core g is about to need: the core freezes (R23, log 13). -/
def State.goLate (s : State) (g : Nat) (unit : Late) : State :=
  let c := s.core g
  if c.c.run == .running && c.freeze.isNone && c.c.wait.isNone && !c.c.issued then
    match s.needs g unit with
    | some a => ({ s with cur := .core g .C } : State).startFreeze unit a
    | none => s
  else s

/-- Where the record of a freeze points: the stalled instruction, or the bundle of what lands. -/
def Core.frozenAt (c : Core) (f : Freeze) : W64 :=
  match (c.seq f.seq).wait, c.flight.find? fun x => x.left == 0 with
  | none, some x => x.pc
  | _, _ => (c.seq f.seq).pc

/-- watchdog: a freeze of 2^20 cycles stops the node and fills the cluster's bucket. -/
def execWatchdog (g : Nat) (s : State) : Host.Outcome State Fault Refusal :=
  match (s.core g).freeze with
  | none => .next s
  | some f =>
    if f.cycles < 2 ^ 20 then .next s
    else
      let unit := f.unit.code.getD (Config.lateUnit s.free % 7)
      let t := { s with
        free := if f.unit.code.isSome then s.free else s.free + 1
        cur := .core g f.seq, curAddr := (s.core g).frozenAt f }
      .next ((t.take (.fault 0x0C f.addr unit)).fill (.cluster (cidOf g)) .watchdog)

end Sys2Proof.Machine
end

