-- ==== Sys2Proof/Machine/Clock.lean ====
section
/-! DEFINITION. One arithmetic cycle of 800 MHz (R2): what counts cycles, and what the end of a cycle settles (R295, R307,
R309). -/

namespace Sys2Proof.Machine

/-- A freeze counts its cycles (R24). -/
def Freeze.tick (f : Freeze) : Freeze := { f with cycles := f.cycles + 1 }

/-- A core at the end of a cycle: its sequencers that were stopping have stopped, and the next cycle is open to all. -/
def Core.tick (c : Core) : Core :=
  let stop (q : Seq) : Seq := { if q.run = .stopping then q.stop else q with issued := false }
  { c.mapSeqs stop with
    flight := if c.c.run = .stopping then [] else c.flight
    freeze := c.freeze.map Freeze.tick
    last := 0 }

/-- A running node's budget counts (R141), but not while its save waits for proofer commands (R243). -/
def Entry.tick (e : Entry) (proofWait : Bool) : Entry :=
  if e.phase = .running && !proofWait then { e with used := e.used + 1 } else e

/-- The save of an entry's gang waits for proofer commands of its cores (R243). -/
def State.proofWait (s : State) (e : Entry) : Bool := e.stopped && e.cores.any s.proofBusy

/-- A queue of a core can neither start a command nor retire one: what its commands access has been accessed (R309). -/
def State.queueQuiet (s : State) (g : Nat) (q : Queue) : Bool :=
  let e := (s.core g).queue q
  !(s.engineRuns g q
    && ((match e.next with | some x => s.canStart g q x | none => false)
      || (match e.cmds.find? fun x => !x.cmd.isKat with | some x => x.started && s.ringTurn g x | none => false)))

/-- The accesses of a core that has stopped are complete (R309): its posted operations have been applied, and no engine
command goes on. -/
def State.quiet (s : State) (g : Nat) : Bool :=
  (s.core g).posted.isEmpty && [Queue.l, .s, .m].all (s.queueQuiet g)

/-- A record may be written. -/
def State.dueReady (s : State) (d : Due) : Bool := d.cores.all s.quiet

/-- The order of records that reach one queue in one cycle (R309). -/
def Due.key (d : Due) : Nat := (d.record.cid * 128 + d.record.cor) * 16 + d.record.unit

/-- Inserts a record behind those of its place in the order. -/
def insertDue (d : Due) : List Due → List Due
  | [] => [d]
  | x :: xs => if x.key ≤ d.key then x :: insertDue d xs else d :: x :: xs

/-- The records that may be written are written, in order (R309); the rest wait. -/
def State.writeDue (s : State) : State :=
  let ready := s.due.filter s.dueReady
  let rest := (s.due.filter fun d => !s.dueReady d).map fun d => { d with now := false }
  (ready.foldl (fun l d => insertDue d l) []).foldl (fun s d => s.writeRecord d.part d.cluster d.record) { s with due := rest }

/-- An IDLE island runs again within 2 µs of an access (R337). -/
def Island.tick (x : Island) (now : Nat) : Island :=
  match x.asked with
  | some t => if x.state = 1 ∧ t + 1600 ≤ now then x.woken else x
  | none => x

/-- One arithmetic cycle passes: what counts cycles counts it, LATE is set at its time (R330), and the cycle's bucket events
and records are settled. -/
def State.tick (s : State) : State :=
  ({ s with
    clock := s.clock + 1
    pos := 0
    islands := s.islands.map fun e => (e.1, e.2.tick (s.clock + 1))
    cores := s.cores.map fun c => (c.1, c.2.tick)
    disp := { s.disp with pool := s.disp.pool.map fun e => (e.1, e.2.tick (s.proofWait e.2)) } } : State).evcLate.settleFills.writeDue

end Sys2Proof.Machine
end

