-- ==== Sys2Proof/Machine/Cycle.lean ====
section
/-! DEFINITION. What a sequencer's turn comes to (R188, R21, R286), and the order of what meets in one cycle (R119, R190,
R214, R241, R248, R258, R295, R322, R337): where an event stands in it, and when it belongs to the next cycle. -/

namespace Sys2Proof.Machine

noncomputable section

/-! ### A sequencer's turn -/

/-- C of core g after the landing cycle that is due, at the bundle it issues in that cycle. -/
def State.landed (s : State) (g : Nat) : State :=
  let w : Who := .core g .C
  let t := ({ s with cur := w } : State).land g
  if t.me.loop.active && t.me.pc == t.me.loop.fin then loopEndStep t w else t

/-- C of core g would wait at the bundle of the cycle in which its results are due: no C-stream cycle passes and nothing
lands until the wait is over, with the values that land then (R188, R21). -/
def State.landingWaits (s : State) (g : Nat) : Bool :=
  let t := s.landed g
  match t.fetchInstr (.core g .C) t.me with
  | .run (.bundleIssue h ws) =>
    (match checkBundle h ws t with
      | .ok is => (slotsEff (t.enterBundle h) (activeSlots h t is)).2.waits
      | .error _ => false)
  | _ => false

/-- A hearth core's next turn takes an interrupt: one can be taken at the boundary before its next instruction (R286). -/
def State.interrupts (s : State) (w : Who) : Option Nat :=
  match w with
  | .hearth h => if (s.takeable h).isSome then some h else none
  | _ => none

/-- A turn of a sequencer: an interrupt is entered, a pending wait is tried again, what is due lands, a loop's end is
taken, or the instruction at the pc runs. -/
def State.seqAct (s : State) (w : Who) : Act :=
  let q := s.seqOf w
  if !s.canRun w then .idle
  else if (s.interrupts w).isSome then .run (.interruptEntry ((s.interrupts w).getD 0))
  else if q.sync.isSome || q.wait.isSome then .run (.waitSatisfied w)
  else if s.landingDue w then
    (match w with
      | .core g _ => if s.landingWaits g then .idle else .run (.cStreamLanding g)
      | _ => .idle)
  else if q.loop.active && q.pc == q.loop.fin then .run (.loopIterationEnd w)
  else s.fetchInstr w q

/-! ### The order within one cycle -/

/-- Where an event stands in a cycle: the earliest and the latest of the phases it takes part in, and its agent's rank.
The phases are: 0 errors and the watchdog (R295 rank 1), pops, sets of trigger counters and register writes; 1 commits,
additions, arrivals, the issue of commands and everything else whose order R190, R214, R241, R248 and R258 give by
CID x 128 + COR, then the failure of entries and the dispatcher's placements; 2 claims; 3 waits, tests and reads; 4 END, and
writes of QPCTL (R119); 5 pre-emption; 6 budget; 7 writes of ISL (R337). -/
structure Spot where
  lo   : Nat
  hi   : Nat
  rank : Nat := 0

/-- The rank of an agent: cores ascending, in each C, K, L, S and then the engines; hearth cores after (R190, R258). -/
def whoRank : Who → Nat
  | .core g q => 16 * g + (match q with | .C => 0 | .K => 1 | .L => 2 | .S => 3)
  | .hearth h => 2 ^ 21 + h
/-- The rank of an engine queue. -/
def queueRank (g : Nat) (q : Queue) : Nat := 16 * g + (match q with | .l => 4 | .s => 5 | .m => 6)
/-- Claims from another core come after the core's own (R190). -/
def remoteRank : Nat := 2 ^ 20
/-- Resolves and proofers come after every core (R258). -/
def lateRank : Nat := 2 ^ 22

/-- An event of one phase. -/
def Spot.at_ (phase rank : Nat) : Spot := { lo := phase, hi := phase, rank := rank }
/-- Two parts of one event. -/
def Spot.join (a b : Spot) : Spot := { lo := min a.lo b.lo, hi := max a.hi b.hi, rank := max a.rank b.rank }
/-- The parts of one event. -/
def Spot.all : List Spot → Option Spot
  | [] => none
  | p :: ps => match Spot.all ps with
    | none => some p
    | some q => some (p.join q)
/-- The first position an event may take. -/
def Spot.first (p : Spot) : Nat := p.lo * 2 ^ 24 + p.rank
/-- The position it leaves. -/
def Spot.last (p : Spot) : Nat := p.hi * 2 ^ 24 + p.rank

/-- A claim names a ring of another core (R184). -/
def State.claimsRemote (s : State) (w : Who) (b : SReg) (rem : Bool) : Bool :=
  match w with
  | .core g _ => rem && bf ((s.seqOf w).rdS b) 16 7 != corOf g
  | .hearth _ => false

/-- The rank of the dispatcher's placements: after what the proofer queue takes from `proof.run` (R241). -/
def placingRank : Nat := lateRank + 2 ^ 20

/-- A word that issues a command to an engine queue or the proofer queue (R214, R241). -/
def issuesCommand : Instr → Bool
  | .copyIn _ _ _ _ _ | .copyOut _ _ _ _ _ | .copyWt _ _ _ _ _ _ | .copyMm _ _ _ _ | .gathFill _ _ _ | .lineSet _ _ _ _
  | .markTile => true
  | .mmaRn8 _ _ _ _ _ _ _ _ | .mmaRn4 _ _ _ _ _ _ _ _ | .mmaRnx _ _ _ _ _ _ _ _ | .mmaRny _ _ _ _ _ _ _ _
  | .mmaBf16 _ _ _ _ _ _ _ _ | .accSt _ _ _ _ | .accAdd _ _ _ | .accZero _ | .tentMark _ _ | .rslv _ _ _ _ | .mkat _ _ => true
  | .proofRun _ _ => true
  | _ => false

/-- The place of a write of a privileged register: QPCTL after a failure of the cycle (R119), ISL after its placements
(R337), an ACK of MBCTL before its doorbells (R322). -/
def regPlace (n rank : Nat) : Spot := if n = 0x84D then .at_ 4 (lateRank + rank) else if n = 0x891 then .at_ 7 rank else .at_ 0 rank

/-- The place of a word (R190, R214, R241, R248, R258, R295, R322). -/
def State.wordPlace (s : State) (w : Who) (i : Instr) : Option Spot :=
  let r := whoRank w
  match i with
  | .ringPop _ _ _ => some (.at_ 0 r)
  | .privWr a _ => some (regPlace ((s.seqOf w).rdS a).toNat r)
  | .ringCommit _ _ _ _ => some (.at_ 1 r)
  | .semAdd _ _ _ _ => some (.at_ 1 r)
  | .gbarArr _ => some (.at_ 1 r)
  | .gbarSync _ => some (.at_ 1 r)
  | .postTask _ => some (.at_ 1 r)
  | .postQp _ _ => some (.at_ 1 r)
  | .ringClaim _ _ b m => some (.at_ 2 (if s.claimsRemote w b m then remoteRank + r else r))
  | .ringWaitf _ _ _ => some (.at_ 3 r)
  | .ringWaitr _ _ _ => some (.at_ 3 r)
  | .ringRd _ _ => some (.at_ 3 r)
  | .semWaitge _ _ => some (.at_ 3 r)
  | .semRd _ _ => some (.at_ 3 r)
  | .gbarWait _ => some (.at_ 3 r)
  | .sysWev => some (.at_ 3 r)
  | .postTcrd _ _ _ _ _ => some (.at_ 3 r)
  | .postTcwait _ _ _ _ _ => some (.at_ 3 r)
  | .sysEnd _ => some (.at_ 4 r)
  | .creelOffer _ _ _ => some (.at_ 1 r)
  | .creelDrain _ _ _ => some (.at_ 1 r)
  | .creelRd _ _ => some (.at_ 1 r)
  | .postWst _ _ => some (.at_ 1 r)
  | i => if issuesCommand i || (majorOf i == 0x3C && !(dests i).isEmpty) then some (.at_ 1 r) else none

/-- The place of a bundle: of its slots whose guards read true. -/
def State.bundlePlace (s : State) (w : Who) (h : W32) (ws : List W32) : Option Spot :=
  match checkBundle h ws { s with cur := w } with
  | .error _ => none
  | .ok is => Spot.all ((is.filter fun x => (s.seqOf w).rdP (headGuard h x.1)).filterMap fun x => s.wordPlace w x.2)

/-- The place of a word of `Near`: as `wordPlace` has it. -/
def Near.place (n : Near) (r : Nat) : Option Spot :=
  match n with
  | .postTask _ => some (.at_ 1 r)
  | .postQp _ _ => some (.at_ 1 r)
  | .postTcrd _ _ _ _ _ => some (.at_ 3 r)
  | .postTcwait _ _ _ _ _ => some (.at_ 3 r)
  | .postWst _ _ => some (.at_ 1 r)
  | n => if n.major == 0x3C && !n.dests.isEmpty then some (.at_ 1 r) else none

/-- The place of what a sequencer waits at, tested again. -/
def State.waitPlace (s : State) (w : Who) : Option Spot :=
  let q := s.seqOf w
  if q.sync.isSome then some (.at_ 3 (whoRank w))
  else
    match q.wait with
    | none => none
    | some (.word i) => s.wordPlace w i
    | some (.bundle h ws) => s.bundlePlace w h ws
    | some (.near n) => n.place (whoRank w)

/-- The place of a sequencer's turn. -/
def State.actPlace (s : State) (w : Who) : Act → Option Spot
  | .run (.waitSatisfied _) => s.waitPlace w
  | .run (.cStreamLanding g) =>
    (match (s.landed g).fetchInstr w (s.landed g).me with
      | .run (.bundleIssue h ws) => (s.landed g).bundlePlace w h ws
      | _ => none)
  | .run (.bundleIssue h ws) => s.bundlePlace w h ws
  | .run i => s.wordPlace w i
  | _ => none

/-- The place of the next command of an engine queue: its claim. -/
def State.startPlace (s : State) (g : Nat) (q : Queue) : Option Spot :=
  match ((s.core g).queue q).next with
  | none => none
  | some x =>
    match x.cmd.produces g with
    | some (k, _) => some (.at_ 2 (if k = g then queueRank g q else remoteRank + queueRank g q))
    | none => some (.at_ 2 (queueRank g q))

/-- The place of a posted operation's application (R258). -/
def Posted.place (p : Posted) (rank : Nat) : Spot :=
  match p.op with
  | .tcSet _ => .at_ 0 rank
  | _ => .at_ 1 rank

/-- The place of the n-th posted operation of an agent. -/
def State.postedPlace (s : State) (src : Poster) (n : Nat) : Option Spot :=
  match src with
  | .core g => ((s.core g).posted[n]?).map fun p => p.place (16 * g)
  | .hearth h => ((s.hearth h).posted[n]?).map fun p => p.place (2 ^ 21 + h)
  | .routine e => some (.at_ 1 (lateRank + e))

/-- The place of a step without a word. -/
def State.eventPlace (s : State) (i : Instr) : Option Spot :=
  match i with
  | .engineReplay g q => some (.at_ 0 (queueRank g q))
  | .watchdog g => some (.at_ 0 (16 * g))
  | .uncorrectableError _ => some (.at_ 0 0)
  | .engineCommandRetire g q =>
    some (if ((s.core g).queue q).resolving then .at_ 1 lateRank else { lo := 0, hi := 1, rank := queueRank g q })
  | .katTestRun g => some (.at_ 1 (queueRank g .m))
  | .engineCommandStart g q => s.startPlace g q
  | .prooferCommandStart c => some (.at_ 1 (lateRank + c))
  | .prooferCommandRetire c => some (.at_ 1 (lateRank + c))
  | .postedOpApply src n => s.postedPlace src n
  | .hostDoorbell _ => some (.at_ 1 lateRank)
  | .hostBar0Access _ write off _ _ => if write && off == 0x1000 then some (.at_ 1 lateRank) else none
  | .entryComplete _ _ => some (.at_ 1 lateRank)
  | .entryFail _ _ => some (.at_ 1 lateRank)
  | .remoteCounterAdd _ _ _ => some (.at_ 1 lateRank)
  | .entryArm _ => some (.at_ 3 lateRank)
  | .dispatch => some (.at_ 1 placingRank)
  | .runTileDispatch _ => some (.at_ 1 placingRank)
  | .preload _ => some (.at_ 1 placingRank)
  | .lateResultReady g => (s.core g).freeze.bind fun f => s.waitPlace (.core g f.seq)
  | .peelSave _ => some (.at_ 5 0)
  | .budget _ => some (.at_ 6 0)
  | _ => none

/-- A place has been passed in this cycle. -/
def State.passed (s : State) (p : Option Spot) : Bool :=
  match p with
  | some p => decide (p.first < s.pos)
  | none => false

/-- The cycle has come to a place. -/
def State.reach (s : State) (p : Option Spot) : State :=
  match p with
  | some p => { s with pos := max s.pos p.last }
  | none => s

/-- A sequencer of a core has executed END in this cycle: what the core's others do comes before it, or in the next
cycle (R295). -/
def Core.endedNow (c : Core) : Bool := [c.k, c.l, c.c, c.st].any fun q => q.run == .ended && q.issued

/-- A later agent, in the order C, K, L, S, engines, of a STRICT gang has acted in this cycle (R81). -/
def State.outOfTurn (s : State) (g : Nat) (q : SeqKind) : Bool :=
  s.watched g && (s.gang g).any fun h => decide (whoRank (.core g q) % 16 + 1 < (s.core h).last)

/-- The turn of a sequencer belongs to the next cycle: it has had its instruction of this one (R19, R25), its place has
passed, its core's cycle has come to an END, or a later agent of its STRICT gang has acted. -/
def State.seqLate (s : State) (w : Who) (a : Act) : Bool :=
  match a with
  | .idle => false
  | _ => s.passed (s.actPlace w a) || (s.seqOf w).issued ||
    (match w with
      | .core g q => (s.core g).endedNow || s.outOfTurn g q
      | .hearth _ => false)

/-- The engine that performs a step without a word, for a STRICT core's order (R81). -/
def engineOf : Instr → Option Nat
  | .engineCommandStart g _ => some g
  | .engineCommandRetire g _ => some g
  | _ => none

/-- A step without a word belongs to the next cycle. -/
def State.eventLate (s : State) (i : Instr) : Bool :=
  s.passed (s.eventPlace i) || (match i with | .lateResultReady g => (s.core g).endedNow | _ => false)

/-- The island of an engine's core, of a poster, of a translation unit (R336). -/
def posterIsland : Poster → Nat
  | .core g => islandOf (cidOf g)
  | .hearth _ => 28
  | .routine _ => 29
/-- The island of a translation unit. -/
def unitIsland : Unit1 → Nat
  | .cluster c => islandOf c
  | .hearth _ => 28

/-- The islands that a step without a word is an event for (R336, R337). -/
def islandsOf : Instr → List Nat
  | .engineCommandStart g _ | .engineCommandRetire g _ | .engineReplay g _ | .katTestRun g | .lateResultReady g | .watchdog g =>
    [islandOf (cidOf g)]
  | .commandSteal g sib => [islandOf (cidOf g), islandOf (cidOf sib)]
  | .prooferCommandStart c | .prooferCommandRetire c => [islandOf c]
  | .postedOpApply src _ => [posterIsland src]
  | .tuInvalidation u _ | .translationWalk u _ _ => [unitIsland u]
  | .nodeRecordAdmit _ | .tileRecordAdmit _ | .reservedKindRecord _ | .runTileDispatch _ | .dispatch | .preload _ | .nodeRetire _
  | .heldRelease | .budget _ | .peelSave _ => [29]
  | .entryArm _ | .csqPut _ _ | .csqPutredSum _ _ | .csqPutredMax _ _ | .csqPutredMin _ _ | .csqMaxexp _ _ | .csqNotify _ _
  | .lcopyCopy _ _ | .lcopyConvert _ _ | .lcopyZero _ _ | .entryComplete _ _ | .entryFail _ _ | .qpResetDone _ => [29]
  | .remoteCounterAdd _ _ _ => [29, 30]
  | .ncmdPreempt _ _ _ _ | .ncmdResume _ _ _ _ | .ncmdRerun _ _ _ _ | .ncmdDiscard _ _ _ _ | .ncmdClear _ _
  | .nodeCommandComplete _ => [28, 29]
  | .interruptEntry _ => [28]
  | .hostDoorbell _ => [31, 28]
  | .hostBar0Access _ write off _ _ => if write && off == 0x1000 then [31, 28] else [31]
  | .hostBar2Access _ _ _ _ _ => [31]
  | .peerDrainRequest _ | .drainConfirm _ | .drainFlitSend _ | .fabricTimeout _ | .fabricPeerRequest _ _ | .fabricPortUp _
  | .fabricPortDown _ | .peerPortReopen _ => [30]
  | .altClear _ | .debugToken _ | .spdmGetVersion | .spdmGetCapabilities | .spdmNegotiateAlgorithms | .spdmGetDigests
  | .spdmGetCertificate | .spdmChallenge _ | .spdmGetMeasurements _ | .pldmSensorRead _ => [28]
  | _ => []

/-- The islands that a sequencer's turn is an event for: its own, and that of the words it fetches (R336, R337). -/
def State.turnIslands (s : State) (w : Who) : List Nat :=
  (match w with | .core g _ => islandOf (cidOf g) | .hearth _ => 28) ::
    (match s.fetchKey w (s.seqOf w).pc with | .ok k => [s.keyIsland k] | .error _ => [])

/-- A sequencer of a compute core takes its instruction of the cycle; what lands and a loop's end come before it.
A debugger's step is used up (R340). -/
def State.takeTurn (s : State) (w : Who) (a : Act) : State :=
  let s := (s.turnIslands w).foldl State.askIsland ({ s with cur := w }.reach (s.actPlace w a))
  match w, a with
  | .core _ _, .run (.cStreamLanding _) => s
  | .core _ _, .run (.loopIterationEnd _) => s
  | .core g q, _ =>
    let c := s.core g
    (s.setCore g { c.setSeq q { c.seq q with issued := true } with last := whoRank (.core g q) % 16 + 1 }).stepUsed w
  | .hearth _, _ => s

/-- A step without a word happens: an engine of a STRICT core acts after its sequencers (R81), and an instruction that a
late unit held back is its sequencer's one of the cycle; a landing is followed by C's own turn. -/
def State.takeEvent (s : State) (i : Instr) : State :=
  let s := (islandsOf i).foldl State.askIsland ({ s with asked := none }.reach (s.eventPlace i))
  match i, engineOf i with
  | .lateResultReady g, _ =>
    (match (s.core g).freeze with
      | some f => if s.landingDue (.core g f.seq) then s else
        s.setCore g ((s.core g).setSeq f.seq { (s.core g).seq f.seq with issued := true })
      | none => s)
  | _, some g => s.setCore g { s.core g with last := 5 }
  | _, none => s

/-- The step that runs a fired entry of its kind. -/
def workStep (qp : Nat) (w : Work) : Instr :=
  if w.done then .entryComplete qp w.idx
  else
    match w.kind, w.opm with
    | 0, _ => .csqPut qp w.idx
    | 1, 0 => .csqPutredSum qp w.idx
    | 1, 1 => .csqPutredMax qp w.idx
    | 1, _ => .csqPutredMin qp w.idx
    | 2, _ => .csqMaxexp qp w.idx
    | 3, _ => .csqNotify qp w.idx
    | _, 0 => .lcopyCopy qp w.idx
    | _, 1 => .lcopyConvert qp w.idx
    | _, _ => .lcopyZero qp w.idx

/-- The step of a pool entry that waits for a request: a routine's operation, a release, or a decision. -/
def entryStep (n : Nat) (e : Entry) : Instr :=
  if e.phase = .running then .postedOpApply (.routine n) 0 else if e.phase = .retiring then .heldRelease else .dispatch

/-- The step in which a request is tried again (R329). -/
def State.retryStep (s : State) : Retry → Option Instr
  | .command g q started => some (if started then .engineReplay g q else .engineCommandStart g q)
  | .entry n => (s.entry n).map (entryStep n)
  | .work qp n => ((s.qp qp).works.find? fun w => w.idx == n).map (workStep qp)

/-- What a sequencer's turn starts in: this cycle or the next; a request that a port holds for it is the one it makes (R329). -/
def State.onTurn (s : State) (w : Who) : State :=
  let s := { s with asked := (s.seqOf w).held }
  if s.seqLate w (s.seqAct w) then s.tick else s

end

end Sys2Proof.Machine
end

