-- ==== Sys2Proof/Machine/Admit.lean ====
section
/-! DEFINITION. The dispatcher's records and pool: admission, releases, retirement and correction expansion (R64, R65,
R131-R137). -/

namespace Sys2Proof.Machine

/-! ### Room in the pool (R133) -/

/-- Entries a partition holds. -/
def State.held (s : State) (p : Nat) : Nat := (s.disp.pool.filter fun e => e.2.part == p).length

/-- Entries of other partitions' reservations that they do not use. -/
def State.reservedElsewhere (s : State) (p : Nat) : Nat :=
  ((s.live.filter fun q => !(q == p)).map fun q => (s.part q).reservation - s.held q).sum

/-- A free entry for a partition. -/
def State.roomFor (s : State) (p : Nat) : Bool :=
  decide (s.held p < (s.part p).cap) && decide (s.disp.pool.length + s.reservedElsewhere p < 4096)

/-- The lowest free entry number. -/
def State.freeEntry (s : State) : Nat :=
  ((List.range 4096).find? fun n => (s.disp.pool.get? n).isNone).getD 0

/-- An entry becomes ready if its remaining count allows (R134). -/
def State.settleReady (s : State) (n : Nat) : State :=
  match s.entry n with
  | some e =>
    if e.phase = .waiting ∧ e.kind ≠ .placeholder ∧ e.remain ≤ 0 then
      { s.setEntry n { e with phase := .ready, readyAt := s.disp.ready, waited := 0 } with
        disp := { (s.setEntry n { e with phase := .ready, readyAt := s.disp.ready, waited := 0 }).disp with ready := s.disp.ready + 1 } }
    else s
  | none => s

/-! ### Releases (R134, R65) -/

/-- The node or placeholder that holds an identity. -/
def State.identity (s : State) (p graph nid : Nat) : Option (Nat × Entry) :=
  s.disp.pool.find? fun e =>
    e.2.part == p && e.2.graph == graph && e.2.nid == nid && (e.2.kind == .node || e.2.kind == .placeholder)

/-- The binding after another bound predecessor released: the one of the lowest node index (R65). -/
def joinBinding (old new : Option (Nat × Nat)) : Option (Nat × Nat) :=
  match old, new with
  | some a, some b => if b.2 < a.2 then some b else some a
  | none, b => b
  | a, none => a

/-- One release by entry `src`, of an identity by a node that confers a binding; none while no entry is free for a
placeholder. A surplus release has no effect but on the count (R134). What the releasing node did comes before what the
released one will do (R76). -/
def State.releaseOne (s : State) (src p graph nid : Nat) (bind : Option (Nat × Nat)) : Option State :=
  match s.identity p graph nid with
  | some (n, e) =>
    let s := s.copySrcs (.node src) (.node n)
    if e.kind = .placeholder then some (s.setEntry n { e with remain := e.remain - 1 })
    else some ((s.setEntry n { e with
      remain := e.remain - 1, inherit := if e.remain ≤ 0 then e.inherit else joinBinding e.inherit bind }).settleReady n)
  | none =>
    if s.roomFor p then
      some ((s.copySrcs (.node src) (.node s.freeEntry)).setEntry s.freeEntry
        { part := p, kind := .placeholder, graph := graph, nid := nid, remain := -1 })
    else none

/-- Entry n is free. -/
def State.dropEntry (s : State) (n : Nat) : State :=
  { s with disp := { s.disp with pool := s.disp.pool.del n } }.clearObj (.node n)

/-! ### Weight-set counts, barriers, save slots -/

/-- A bound node more, or less, in a slot (R65, R64). -/
def State.bindWs (s : State) (p n : Nat) (up : Bool) : State :=
  let x := s.part p
  let w := x.wsAt n
  s.setPart p (x.setWs n (if up then { w with bound := w.bound + 1 } else ({ w with bound := w.bound - 1 } : Ws).settleFree))

/-- Ends an entry's binding. -/
def State.unbindWs (s : State) (e : Entry) : State :=
  match e.ws with
  | some n => s.bindWs e.part n false
  | none => s

/-- Unbinds the counters of entry n in a cluster (R62). -/
def State.unbindBars (s : State) (n c : Nat) : State :=
  let x := s.cluster c
  s.setCluster c { x with bars := x.bars.map fun b => if b.bound = some n then {} else b }

/-- The cores of an entry that still hold it run no node any more. -/
def State.freeCores (s : State) (n : Nat) (gs : List Nat) : State :=
  gs.foldl (fun s g =>
    match (s.core g).ctx with
    | some x => if x.entry = n then s.setCore g { s.core g with ctx := none } else s
    | none => s) s

/-- The base of a save slot, a physical address (R292). -/
def State.saveBase (s : State) (p k : Nat) : Nat := (s.part p).psave.toNat + k * 0x200000
/-- Where a slot's header begins. -/
def saveHead : Nat := 0x1FF000

/-- Frees save slots: VALID 0 (R292). -/
def State.freeSaves (s : State) (p : Nat) (ks : List Nat) : State :=
  ks.foldl (fun s k =>
    (s.store (s.saveBase p k + saveHead) 8 0).setPart p { s.part p with hidden := (s.part p).hidden.del k }) s

/-- A hearth core's node command gets its result. -/
def State.answer (s : State) (h res : Nat) : State :=
  match (s.hearth h).ncmd with
  | some c => s.setHearth h { s.hearth h with ncmd := some { c with res := some res } }
  | none => s

/-- A pending pre-emption completes with RES 0 (R295). -/
def State.endPreempt (s : State) (e : Entry) : State := e.preempt.foldl (fun s h => s.answer h 0) s

/-! ### Retirement (R135) -/

/-- The work of a running entry has ended (R16, R135, R137): a gang's sequencers, engine commands and posted
operations; a proofer node's list; a routine's last operation; an expansion's tiles. -/
def State.finished (s : State) (e : Entry) : Bool :=
  e.phase == .running &&
  (if e.kind = .corr then e.runs.isEmpty && e.kids == 0
   else if e.tgt = 0 then
    e.cores.all fun g =>
      let c := s.core g
      [c.k, c.l, c.c, c.st].all (fun q => q.run == .ended) && c.commands.isEmpty && c.posted.isEmpty && c.freeze.isNone
   else e.next == e.total && decide (0 < e.total))

/-- What the record of a retirement is posted as: the address of a list entry, a code and its detail (R135, R344). -/
def State.skipNote (s : State) (n : Nat) (e : Entry) (a : Nat) (x : Exc) : State :=
  (s.traced x).entryRecord n e { cls := 2, code := x.codeAddr.1, unit := 8, addr := a, detail := x.more }

/-- The retirement waits: its next release has found no entry. -/
def State.holdRelease (s : State) (n : Nat) (e : Entry) (h : Held) : State :=
  let s := s.setEntry n { e with phase := .retiring }
  { s with disp := { s.disp with held := s.disp.held ++ [h] } }

/-- The address of a node's i-th successor entry. -/
def Entry.succAt (e : Entry) (i : Nat) : Nat := bf e.record 448 56 + 4 * i

/-- The releases of a node from its i-th successor on, then its entry is freed. A read that a port holds makes the retirement
wait (R329). -/
def State.releaseFrom (s : State) (n : Nat) (e : Entry) : Nat → Nat → State
  | _, 0 => s.dropEntry n
  | i, left + 1 =>
    let a := e.succAt i
    match s.dispRead e.part a 4 with
    | .error (.hold r) => s.setEntry n { e with phase := .retiring, succ := i, held := some r }
    | .error x => ({ s with asked := none }.skipNote n e a x).releaseFrom n e (i + 1) left
    | .ok (v, s) =>
      let s := { s with asked := none }
      if fld v 16 16 ≠ 0 then (s.skipNote n e a (format 0)).releaseFrom n e (i + 1) left
      else
        let bind := e.ws.map fun w => (w, e.nid)
        match s.releaseOne n e.part e.graph v bind with
        | some t => t.releaseFrom n e (i + 1) left
        | none => s.holdRelease n { e with succ := i + 1, held := none } { entry := n, part := e.part, graph := e.graph, nid := v, bind := bind }

/-- Successors still to release. -/
def Entry.leftover (e : Entry) : Nat := bf e.record 272 16 - e.succ

/-- The release step and the freeing of the entry, by kind. -/
def State.finishRetire (s : State) (n : Nat) (e : Entry) : State :=
  let free (s : State) : State := s.dropEntry n
  match e.kind with
  | .node => { s with asked := e.held }.releaseFrom n e e.succ e.leftover
  | .runTile =>
    match e.parent with
    | some m => match s.entry m with
      | some x => free ((s.copySrcs (.node n) (.node m)).setEntry m { x with kids := x.kids - 1 })
      | none => free s
    | none => free s
  | .placeholder => s
  | _ =>
    if e.join = 0xFFFF ∨ e.succ = 1 then free s
    else
      match s.releaseOne n e.part e.graph e.join none with
      | some t => free t
      | none => s.holdRelease n { e with succ := 1 } { entry := n, part := e.part, graph := e.graph, nid := e.join, bind := none }

/-- All steps of a retirement, in order; a preload mark of the node has no node any more (R143). -/
def State.retire (s : State) (n : Nat) (e : Entry) : State :=
  let s := (s.unbindWs e).dropMarks n e
  let s := s.unbindBars n e.cluster
  let s := ((s.endPreempt e).releaseCores e.cores (.node n)).freeCores n e.cores
  s.finishRetire n e

/-- node retirement. -/
def execNodeRetire (entry : Nat) (s : State) : Host.Outcome State Fault Refusal :=
  match s.entry entry with
  | some e => .next (if s.finished e then s.retire entry e else s)
  | none => .next s

/-- A held release finds an entry. -/
def State.tryHeld (s : State) (h : Held) : Option State := s.releaseOne h.entry h.part h.graph h.nid h.bind

/-- A retirement waits for a read that a port has held, and holds no more (R329). -/
def State.readFreed (s : State) (x : Nat × Entry) : Bool :=
  x.2.phase == .retiring && x.2.kind == .node && !(s.disp.held.any fun h => h.entry == x.1)
    && (match { s with asked := x.2.held }.dispRead x.2.part (x.2.succAt x.2.succ) 4 with | .error (.hold _) => false | _ => true)

/-- held release: the oldest held release that finds an entry is performed, and its retirement goes on; so does one that a
port has held. -/
def execHeldRelease (s : State) : Host.Outcome State Fault Refusal :=
  match s.disp.held.find? fun h => (s.tryHeld h).isSome with
  | none =>
    (match s.disp.pool.find? s.readFreed with
      | some (n, e) => .next (s.finishRetire n e)
      | none => .next s)
  | some h =>
    let t := (s.tryHeld h).getD s
    let t := { t with disp := { t.disp with held := t.disp.held.erase h } }
    match t.entry h.entry with
    | some e => .next (t.finishRetire h.entry e)
    | none => .next t

/-! ### Records (R131, R132) -/

/-- The record at the head of a RUNNING partition's queue: its slot's address, its bits and its posting address; an
uncorrectable slot gives no bits. -/
def State.headRecord (s : State) (p : Nat) : Option (Nat × Option (BitVec 512) × W64) :=
  let x := s.part p
  if x.pstate = 2 ∧ x.qhead < x.qtail then
    let a := x.rqSlot x.qhead
    some (a, if s.badIn (shKey a) 64 then none else some (BitVec.ofNat 512 (s.shRd a 64)), x.qpost.getD (x.qhead % x.rqSlots) 0)
  else none

/-- Entry n is admitted from the head record: what the poster released comes before what it will do (R257). -/
def State.carryTask (s : State) (p n : Nat) : State :=
  let o := Obj.task p (s.part p).qhead
  ((s.wakeKey (shKey ((s.part p).rqSlot (s.part p).qhead))).copySrcs o (.node n)).clearObj o

/-- Frees the head slot. -/
def State.popRecord (s : State) (p : Nat) : State := s.setPart p { s.part p with qhead := (s.part p).qhead + 1 }

/-- A record is rejected: FORMAT, naming the queue slot (R132, R344). -/
def State.rejectRecord (s : State) (p : Nat) (a : Nat) : State :=
  let c := s.lowCluster p
  let slot := (s.part p).qhead % (s.part p).rqSlots
  (s.popRecord p).postTo p c { code := 6, unit := 8, index := slot, cid := c, addr := a }

/-- The identity of a node record is held by a node still in the pool. -/
def State.duplicate (s : State) (p graph nid : Nat) : Bool :=
  match s.identity p graph nid with
  | some (_, e) => e.kind == .node
  | none => false

/-- Admits a node record (R134): a placeholder's entry is taken over with the releases it holds. -/
def State.admitNode (s : State) (p : Nat) (r : BitVec 512) (post : W64) : State :=
  let graph := bf r 224 16
  let nid := bf r 240 16
  let npred : Int := bf r 256 16
  let e : Entry := { part := p, kind := .node, graph := graph, nid := nid, record := r, post := post, remain := npred }
  match s.identity p graph nid with
  | some (n, h) => (((s.carryTask p n).popRecord p).setEntry n { e with remain := npred + h.remain }).settleReady n
  | none =>
    if s.roomFor p then (((s.carryTask p s.freeEntry).popRecord p).setEntry s.freeEntry e).settleReady s.freeEntry else s

/-- node record admission. -/
def execNodeRecordAdmit (part : Nat) (s : State) : Host.Outcome State Fault Refusal :=
  match s.headRecord part with
  | none => .next s
  | some (a, none, _) => .next ((s.consume (shKey a)).rejectRecord part a)
  | some (a, some r, post) =>
    if recKind r ≠ 0 then .next s
    else if !nodeRecordOk r || s.duplicate part (bf r 224 16) (bf r 240 16) then .next (s.rejectRecord part a)
    else .next (s.admitNode part r post)

/-- reserved-kind record. -/
def execReservedKindRecord (part : Nat) (s : State) : Host.Outcome State Fault Refusal :=
  match s.headRecord part with
  | some (a, some r, _) => .next (if recKind r ≤ 1 then s else s.rejectRecord part a)
  | _ => .next s

/-! ### Correction expansion (R137, R95) -/

/-- The experts of n entries from an address, checked in list order. -/
def State.corrExperts (s : State) (part : Nat) : Nat → Nat → Except Exc (List Nat)
  | _, 0 => .ok []
  | a, n + 1 =>
    if !s.sharedOk part a 16 then .error (access (w64 a))
    else
      match s.bankErr a 16 with
      | some e => .error e
      | none =>
        match State.corrExperts s part (a + 16) n with
        | .error e => .error e
        | .ok es => .ok (fld (s.shRd a 16) 24 12 :: es)

/-- The runs of a list of experts from an index: first index, length and expert; consecutive entries of one expert,
at most 32. -/
def corrRuns : Nat → List Nat → List (Nat × Nat × Nat)
  | _, [] => []
  | i, e :: es =>
    match corrRuns (i + 1) es with
    | (j, n, e') :: rs => if e' = e ∧ j = i + 1 then (i, n + 1, e) :: rs else (i, 1, e) :: (j, n, e') :: rs
    | [] => [(i, 1, e)]

/-- A stretch cut into pieces of at most 32. -/
def cutRun : Nat → Nat × Nat × Nat → List (Nat × Nat × Nat)
  | 0, _ => []
  | k + 1, (i, n, e) => if n ≤ 32 then [(i, n, e)] else (i, 32, e) :: cutRun k (i + 32, n - 32, e)

/-- Reads and checks a correction list, writes the run lengths and gives the runs still to start. A misaligned descriptor is
FORMAT: R137 lists no ALIGN, which R48 has; the model's choice (log 97). -/
def State.expandList (s : State) (part desc : Nat) : Except Exc (List (Nat × Nat) × State) :=
  if desc % 16 ≠ 0 then .error (format (w64 desc))
  else if !s.sharedOk part desc 16 then .error (access (w64 desc))
  else
    match s.corrList desc with
    | .error e => .error e
    | .ok (count, cap, base) =>
      match s.corrExperts part base (min count cap) with
      | .error e => .error e
      | .ok es =>
        let runs := (corrRuns 0 es).flatMap fun r => cutRun (r.2.1 + 1) r
        let t := runs.foldl (fun s r => s.shWr (base + 16 * r.1 + 12) 4 r.2.1) s
        .ok (runs.map fun r => (base + 16 * r.1, r.2.2), t)

/-- The expansion of entry n starts: its runs stand ready, or it fails and is halted; an empty list retires. -/
def State.expand (s : State) (n : Nat) (e : Entry) : State :=
  match s.expandList e.part e.opnd with
  | .error x =>
    let (code, a) := x.codeAddr
    let c := s.lowCluster e.part
    ((s.traced x).setEntry n { e with phase := .halted }).postTo e.part c
      (e.identify n { code := code, unit := 8, cid := c, addr := if code = 6 then e.opnd else a.toNat, caddr := e.post.toNat,
                      detail := x.more })
  | .ok (runs, t) =>
    let e := { e with phase := .running, runs := runs, kids := 0, limit := 2 ^ 64 }
    let t := t.setEntry n e
    if runs.isEmpty then t.retire n e else t

/-- Admits a tile record (R137): an empty tile retires at once, a correction record starts its expansion. -/
def State.admitTile (s : State) (p : Nat) (r : BitVec 512) (post : W64) : State :=
  if !s.roomFor p then s
  else
    let n := s.freeEntry
    let corr := bf r 8 1 == 1
    let e : Entry := { part := p, kind := if corr then .corr else .tile, graph := bf r 48 16, record := r, post := post
                       expert := bf r 84 12 }
    let t := ((s.carryTask p n).popRecord p).setEntry n e
    if corr then t.expand n e
    else if bf r 66 6 = 0 then t.retire n e
    else t.settleReady n

/-- tile record admission. -/
def execTileRecordAdmit (part : Nat) (s : State) : Host.Outcome State Fault Refusal :=
  match s.headRecord part with
  | some (a, some r, post) =>
    if recKind r ≠ 1 then .next s
    else if !tileRecordOk r then .next (s.rejectRecord part a)
    else .next (s.admitTile part r post)
  | _ => .next s

/-- run-tile dispatch: the next run of an expansion takes a pool entry of its own. -/
def execRunTileDispatch (entry : Nat) (s : State) : Host.Outcome State Fault Refusal :=
  match s.entry entry with
  | some e =>
    match e.runs with
    | (a, x) :: rest =>
      if e.kind = .corr ∧ e.phase = .running ∧ (s.part e.part).pstate = 2 ∧ s.roomFor e.part = true then
        let n := s.freeEntry
        let t : Entry := { part := e.part, kind := .runTile, graph := e.graph, record := e.record, post := w64 a
                           expert := x, parent := some entry }
        .next (((s.setEntry entry { e with runs := rest, kids := e.kids + 1 }).setEntry n t).settleReady n)
      else .next s
    | [] => .next s
  | none => .next s

end Sys2Proof.Machine
end

