-- ==== Sys2Proof/Machine/Outside.lean ====
section
/-! DEFINITION. The host port (R319, R320, R322) and the fabric ports with the requests of their peers (R118, R327-R330). -/

namespace Sys2Proof.Machine

/-! ### Messages -/

/-- Sends a message to the outside. -/
def State.send (s : State) (m : Sent) : State := { s with sent := s.sent ++ [m] }

/-- The virtual function of a partition is enabled (R319). -/
def State.vfOn (s : State) (p : Nat) : Bool := !((s.part p).pstate == 0) && bf (s.part p).pvf 0 1 == 1

/-- Answers a host access that the device does not perform: a read completes with a status, a write is discarded. -/
def State.refuseHost (s : State) (write : Bool) (status : Sent) : State := if write then s else s.send status

/-- A line from which data may leave the device (R311, R312). -/
def State.sound (s : State) (k : Nat) : Bool := !(s.isBad k) && !(s.poisoned k)

/-- The number that the bytes at a list of keys make. -/
def State.numAt (s : State) (ks : List Nat) : Nat := ofBytes (ks.map fun k => Mem.read s.mem k)
/-- The runs of a list of keys: a first key and a count, of keys that follow each other within one line. -/
def runsOf : List Nat → List (Nat × Nat)
  | [] => []
  | k :: ks =>
    match runsOf ks with
    | (k', n) :: rs => if k' = k + 1 ∧ k' / 256 = k / 256 then (k, n + 1) :: rs else (k, 1) :: (k', n) :: rs
    | [] => [(k, 1)]
/-- Writes runs of bytes of a number. -/
def State.putRuns (s : State) (v : Nat) : List (Nat × Nat) → State
  | [] => s
  | r :: rs => (s.store r.1 r.2 (v % 2 ^ (8 * r.2))).putRuns (v / 2 ^ (8 * r.2)) rs
/-- Writes a number to the bytes at a list of keys, line by line (R325, R326). -/
def State.putAt (s : State) (ks : List Nat) (v : Nat) : State := s.putRuns v (runsOf ks)

/-- Reads or writes the bytes at a list of keys for the host, which asks their island to run. -/
def State.hostBytes (s : State) (p : Nat) (write : Bool) (ks : List Nat) (data : Nat) : State :=
  let s := ks.foldl State.wakeKey s
  if write then s.putAt ks data
  else
    match ks.find? fun k => !s.sound k with
    | none => s.send (.hostRead p (ks.map fun k => Mem.read s.mem k))
    | some k => (if s.isBad k then s.consume k else s).send (.hostError p)

/-! ### Host port -/

/-- A DOORBELL write sets MB (R320). -/
def State.doorbell (s : State) (p : Nat) : State := s.setPart p { s.part p with mb := true }

/-- host doorbell. -/
def execHostDoorbell (part : Nat) (s : State) : Host.Outcome State Fault Refusal :=
  .next (if s.vfOn part then s.doorbell part else s)

/-- The offset of the mailbox area in shared memory. -/
def Part.mailbox (x : Part) : Nat := bf x.pmbx 12 44 * 2 ^ 12

/-- A BAR0 access: one that is not an aligned 4- or 8-byte access completes with Completer Abort (R320). -/
def State.bar0 (s : State) (p : Nat) (write : Bool) (off size : Nat) (data : W64) : State :=
  let base := (s.part p).mailbox
  if (size ≠ 4 ∧ size ≠ 8) ∨ off % size ≠ 0 then s.refuseHost write (.completerAbort p)
  else if off < 0x1000 then
    if s.sharedOk p (base + off) size then s.hostBytes p write ((List.range size).map fun i => shKey (base + off + i)) data.toNat
    else s.refuseHost write (.hostError p)
  else if off = 0x1000 then if write then s.doorbell p else s.send (.hostRead p (List.replicate size 0))
  else if write then s
  else { s with free := s.free + 1 }.send (.hostRead p ((List.range size).map fun i => Config.extByte s.free (off + i)))

/-- host BAR0 access: its first 8 KiB. -/
def execHostBar0Access (part : Nat) (write : Bool) (off size : Nat) (data : W64) (s : State) :
    Host.Outcome State Fault Refusal :=
  .next (if !s.vfOn part || decide (0x2000 ≤ off) then s.refuseHost write (.hostError part) else s.bar0 part write off size data)

/-- The line and byte that an IPA of a partition names by stage 2 alone (R298, R320), or why it names none; a host access
is to device memory. -/
def State.ipaKey (s : State) (p ipa : Nat) (write : Bool) : Except WalkFail Nat :=
  match s.stage2 p ipa with
  | .error e => .error e
  | .ok l =>
    if (if write then !l.w else !l.rd) || isExt l.out then .error { reason := 3, level := l.level, stage := 1 }
    else if s.capacity ≤ l.out then .error { reason := 4, level := l.level, stage := 1 }
    else .ok l.out

/-- The keys of n bytes from an IPA. -/
def State.ipaKeys (s : State) (p ipa n : Nat) (write : Bool) : Except WalkFail (List Nat) :=
  (List.range n).foldr (fun i acc => match s.ipaKey p (ipa + i) write, acc with
    | .ok k, .ok ks => .ok (k :: ks)
    | .error e, _ => .error e
    | _, .error e => .error e) (.ok [])

/-- The size of BAR2 (R320, R333). -/
def State.bar2Size (s : State) : Nat := 2 ^ s.cfgField 50 2

/-- A BAR2 access: without a valid stage-2 translation it completes with Unsupported Request (R320). -/
def State.bar2 (s : State) (p : Nat) (write : Bool) (ipa : W64) (size : Nat) (data : List Byte) : State :=
  match s.ipaKeys p ipa.toNat size write with
  | .ok ks => s.hostBytes p write ks (ofBytes data)
  | .error e =>
    let c := s.lowCluster p
    (s.postTo p c { cls := 2, code := 4, unit := 11, cid := c, addr := ipa.toNat, detail := e.detail }).refuseHost write
      (.unsupportedRequest p)

/-- host BAR2 access: within the size of the configuration record. -/
def execHostBar2Access (part : Nat) (write : Bool) (ipa : W64) (size : Nat) (data : List Byte) (s : State) :
    Host.Outcome State Fault Refusal :=
  .next (if !s.vfOn part || decide (s.bar2Size < ipa.toNat + size) then s.refuseHost write (.hostError part)
    else s.bar2 part write ipa size data)

/-! ### Draining and training of a port (R329, R330) -/

/-- Changes a port. -/
def State.onPort (s : State) (n : Nat) (f : Port → Port) : State := s.setPort n (f (s.port n))

/-- A request that a port has started has no answer yet (R329). -/
def State.outstanding (s : State) (n : Nat) : Bool := s.requests.any fun r => r.begun && extTarget r.key == n

/-- DRAIN flit: every request that the port started has completed. -/
def execDrainFlitSend (port : Nat) (s : State) : Host.Outcome State Fault Refusal :=
  .next (if (s.port port).state = 3 ∧ (s.port port).flit = false ∧ s.outstanding port = false then
      (s.onPort port fun x => { x with flit := true }).send (.drain port)
    else s)

/-- A peer's DRAIN flit: its requests have completed, and the port confirms. -/
def execPeerDrainRequest (port : Nat) (s : State) : Host.Outcome State Fault Refusal :=
  .next (if (s.port port).state = 2 ∨ (s.port port).state = 3 then s.send (.drainConf port) else s)

/-- The peer's confirming flit: DRAINED with CONF. -/
def execDrainConfirm (port : Nat) (s : State) : Host.Outcome State Fault Refusal :=
  .next (if (s.port port).state = 3 ∧ (s.port port).flit = true then
      s.onPort port fun x => { x with state := 4, conf := true }
    else s)

/-- A request of a port has been held for longer than the fabric timeout (R329). -/
def State.overdue (s : State) (n : Nat) (r : Option Request) : Bool := r.any fun q => extTarget q.key == n && s.timedOut q

/-- The turns in which what waits for overdue requests of a core tries again. -/
def State.coreRetries (s : State) (n g : Nat) (c : Core) : List Turn :=
  ([(SeqKind.C, c.c), (.K, c.k), (.L, c.l), (.S, c.st)].filter fun x => s.overdue n x.2.held).map (fun x => .seq (.core g x.1))
    ++ ([(Queue.l, c.lq), (.s, c.sq), (.m, c.mq)].filterMap fun x =>
      (x.2.cmds.find? fun y => s.overdue n y.held).map fun y => .retry (.command g x.1 y.started))

/-- The turns in which what waits for overdue requests of a port tries again, and meets their failure (R329). -/
def State.retries (s : State) (n : Nat) : List Turn :=
  s.cores.flatMap (fun e => s.coreRetries n e.1 e.2)
    ++ (s.hearths.filter fun e => s.overdue n e.2.seq.held).map (fun e => .seq (.hearth e.1))
    ++ (s.disp.pool.filter fun e => s.overdue n e.2.held).map (fun e => .retry (.entry e.1))
    ++ s.qps.flatMap fun e => (e.2.works.filter fun w => s.overdue n w.held).map fun w => .retry (.work e.1 w.idx)

/-- Fabric timeout: the requests that the port has held for longer than the fabric timeout fail, in the turns of what made
them (R329). -/
def execFabricTimeout (port : Nat) (s : State) : Host.Outcome State Fault Refusal :=
  .next { s with agenda := s.retries port ++ s.agenda }

/-- A port in TRAIN becomes UP with the lanes and the peer that training finds, and held requests proceed. -/
def execFabricPortUp (port : Nat) (s : State) : Host.Outcome State Fault Refusal :=
  let t := Config.trained s.free port
  .next (if (s.port port).state = 1 then
      { s with free := s.free + 1 }.onPort port fun x =>
        { x with state := 2, lanes := t.1.val + 1, peer := t.2.toNat }
    else s)

/-- A port loses its link. -/
def execFabricPortDown (port : Nat) (s : State) : Host.Outcome State Fault Refusal :=
  .next (s.onPort port fun x => { x with state := 0, lanes := 0, conf := false, flit := false })

/-- The peer reopens a drained port, which leaves DRAINED and trains. -/
def execPeerPortReopen (port : Nat) (s : State) : Host.Outcome State Fault Refusal :=
  .next (if (s.port port).state = 4 then
      s.onPort port fun x => { x with state := 1, conf := false, flit := false, drain := false }
    else s)

/-! ### Requests from a fabric peer (R118, R122, R124, R327) -/

/-- Where n bytes of a peer's request lie: in the partition's chunk-buffer window, or at an IPA of the partition. -/
def State.peerKeys (s : State) (p : Nat) (chb : Bool) (addr : W64) (n : Nat) (write : Bool) : Except Nat (List Nat) :=
  if chb then
    match s.chunkAt p addr.toNat n with
    | .ok k => .ok ((List.range n).map (k + ·))
    | .error _ => .error 5
  else
    match s.ipaKeys p (bf addr 0 46) n write with
    | .ok ks => .ok ks
    | .error e => .error e.code

/-- Answers a request with a code, or goes on with the keys of its bytes. -/
def State.atPeer (s : State) (port p : Nat) (chb : Bool) (addr : W64) (n : Nat) (write : Bool) (f : List Nat → State) : State :=
  match s.peerKeys p chb addr n write with
  | .ok ks => f ks
  | .error c => s.send (.peerError port c)

/-- The first error of the lines that a reduction reads (R124). -/
def State.peerLineErr (s : State) (addr : W64) (ks : List Nat) : Option Exc :=
  match ks with
  | k :: _ => s.reduceErr k ks.length addr.toNat none
  | [] => none

/-- A read-modify-write of a peer: the new number from the old, or the code of its failure. -/
def State.peerUpdate (s : State) (port p : Nat) (chb : Bool) (addr : W64) (n : Nat) (f : Nat → Except Nat Nat) : State :=
  s.atPeer port p chb addr n true fun ks =>
    match s.peerLineErr addr ks with
    | some e => (s.traced e).send (.peerError port e.codeAddr.1)
    | none =>
      match f (s.numAt ks) with
      | .ok v => s.putAt ks v
      | .error c => s.send (.peerError port c)

/-- Whole lines with their side bands. -/
def State.peerLines (s : State) (ks : List Nat) (data : List Byte) (sides : List W32) : State :=
  (List.range sides.length).foldl (fun s i =>
    let k := ks.getD (256 * i) 0
    s.setAnyLine k ((data.drop (256 * i)).take 256) (sides.getD i 0)) s

/-- A request that arrives for a partition. -/
def State.peerReq (s : State) (port : Nat) : PeerReq → State
  | .write p chb addr data sides =>
    s.atPeer port p chb addr data.length true fun ks =>
      if !sides.isEmpty && addr.toNat % 256 == 0 && data.length == 256 * sides.length then s.peerLines ks data sides
      else s.putAt ks (ofBytes data)
  | .add64 p addr n => s.peerUpdate port p true addr 8 fun v => .ok ((v + n.toNat) % 2 ^ 64)
  | .reduce p chb addr wide opm x =>
    let n := if wide then 8 else 4
    s.peerUpdate port p chb addr n fun v => .ok (intReduce opm n v (x.toNat % 2 ^ (8 * n)))
  | .mergeExp p chb addr e =>
    s.peerUpdate port p chb addr 2 fun v => if tableOk v && tableOk e.toNat then .ok (mergeEntry v e.toNat) else .error 6
  | .sketch p addr desc pairs counters =>
    s.atPeer port p true addr (256 + 8 * counters.length) true fun ks =>
      let ps := (List.range (pairs.length / 2)).map fun j =>
        ((pairs.getD (2 * j) 0).toNat, (pairs.getD (2 * j + 1) 0).toNat)
      match s.sourceErr (ks.headD 0) ks.length addr.toNat with
      | some e => (s.traced e).send (.peerError port e.codeAddr.1)
      | none =>
        match s.sketchStage (ks.headD 0) desc.toNat ps (counters.map (·.toInt)) with
        | .ok t => t
        | .error e => s.send (.peerError port e.codeAddr.1)
  | .read p chb addr size =>
    s.atPeer port p chb addr size false fun ks =>
      match ks.find? fun k => if isChunk k then s.badIn k 1 else !s.sound k with
      | some k =>
        if isChunk k || s.isBad k then (s.consume k).send (.peerError port 9) else s.send (.peerError port 8)
      | none => s.send (.peerReply port (ks.map fun k => Mem.read s.mem k))

/-- The partition a request is for. -/
def peerReqPart : PeerReq → Nat
  | .write p _ _ _ _ => p
  | .add64 p _ _ => p
  | .reduce p _ _ _ _ _ => p
  | .mergeExp p _ _ _ => p
  | .sketch p _ _ _ _ => p
  | .read p _ _ _ => p

/-- fabric peer request: a port in service carries it to a partition to which the port belongs. -/
def execFabricPeerRequest (port : Nat) (req : PeerReq) (s : State) : Host.Outcome State Fault Refusal :=
  let p := peerReqPart req
  if (s.port port).state ≠ 2 ∧ (s.port port).state ≠ 3 then .next s
  else if (s.part p).pstate = 0 ∨ (s.part p).pport.getLsbD port = false then .next (s.send (.peerError port 5))
  else .next (s.peerReq port req)

end Sys2Proof.Machine
end

