-- ==== Sys2Proof/Machine/Kernel.lean ====
section
/-! DEFINITION. Kernel descriptors, operand-descriptor lists and the copies that a dispatch or a preload makes
(R260-R264), and a core's state at dispatch (R15). A descriptor and an entry are numbers of 256 and 16 bytes. -/

namespace Sys2Proof.Machine

/-! ### Descriptor fields (R260) -/

/-- Entry point of sequencer i, in the order K, L, C, S. -/
def kEnt (d i : Nat) : Nat := fld d (64 * i) 64
/-- FLAGS. -/
def kFlags (d : Nat) : Nat := fld d 256 32
/-- STRICT. -/
def kStrict (d : Nat) : Bool := fld (kFlags d) 0 1 == 1
/-- CONFINE. -/
def kConfine (d : Nat) : Bool := fld (kFlags d) 1 1 == 1
/-- HALF. -/
def kHalf (d : Nat) : Nat := fld (kFlags d) 2 1
/-- NBAR. -/
def kNbar (d : Nat) : Nat := fld (kFlags d) 8 5
/-- VSHAPE. -/
def kShape (d : Nat) : Nat := fld d 288 32
/-- LAT. -/
def kLat (d : Nat) : List Nat := (List.range 13).map fun i => fld d (320 + 8 * i) 8
/-- RING entry i. -/
def kRing (d i : Nat) : Nat := fld d (512 + 32 * i) 32
/-- BAR entry i. -/
def kBar (d i : Nat) : Nat := fld d (1024 + 32 * i) 32
/-- IMGSRC. -/
def kImgSrc (d : Nat) : Nat := fld d 1536 64
/-- IMGOFF. -/
def kImgOff (d : Nat) : Nat := fld d 1600 16
/-- IMGLEN. -/
def kImgLen (d : Nat) : Nat := fld d 1616 16

/-- Lines from lo, n of them, lie in a half. -/
def inHalf (half lo n : Nat) : Bool := decide (2048 * half ≤ lo) && decide (lo + n ≤ 2048 * half + 2048)
/-- The first scratchpad line of a ring and how many it has. -/
def ringLines (w : Nat) : Nat × Nat := (fld w 0 12, (fld w 21 6 + 1) * (fld w 12 9 + 1))

/-- The places of a list at which a test fails, as offsets. -/
def offsets (n : Nat) (f : Nat → Bool) (base step : Nat) : List Nat :=
  ((List.range n).filter fun i => !f i).map fun i => base + step * i

/-- The offset of each condition of R261 that a descriptor fails: the first byte of the field, or the lowest among
several. -/
def kernelBad (d : Nat) : List Nat :=
  let f := kFlags d
  offsets 4 (fun i => kEnt d i == 0 || (kEnt d i % 4 == 0 && inDevice (kEnt d i))) 0 8
    ++ (if (List.range 4).all fun i => kEnt d i == 0 then [0] else [])
    ++ (if fld f 3 5 == 0 && (kConfine d || kHalf d == 0) then [] else [32])
    ++ (if fld f 13 3 == 0 && decide (kNbar d ≤ 16) then [] else [33])
    ++ (if fld f 20 12 == 0 && (fld f 16 4 == 1 || fld f 16 4 == 2) then [] else [34])
    ++ (if shapeOk (kShape d) then [] else [36])
    ++ offsets 13 (fun i => decide (1 ≤ fld d (320 + 8 * i) 8) && decide (fld d (320 + 8 * i) 8 ≤ 63)) 40 1
    ++ (if fld d 424 88 == 0 then [] else [53])
    ++ offsets 16 (fun i => decide ((ringLines (kRing d i)).1 + (ringLines (kRing d i)).2 ≤ 4096)) 64 4
    ++ offsets 16 (fun i => fld (kRing d i) 27 5 == 0) 67 4
    ++ offsets 16 (fun i => if i < kNbar d then decide (1 ≤ kBar d i) && decide (kBar d i ≤ 512) else kBar d i == 0) 128 4
    ++ (if kImgSrc d % 256 == 0 && (kImgLen d == 0 || !(kImgSrc d == 0)) then [] else [192])
    ++ (if decide (fld (kImgOff d) 0 12 + kImgLen d ≤ 4096) then [] else [200]) ++ (if fld (kImgOff d) 12 4 == 0 then [] else [201])
    ++ (if decide (kImgLen d ≤ 4096) then [] else [202])
    ++ (if fld d 1632 416 == 0 then [] else [204])
    ++ (if kConfine d && !((kImgLen d == 0 || inHalf (kHalf d) (fld (kImgOff d) 0 12) (kImgLen d)) && (List.range 16).all fun i =>
          kRing d i == 0 || inHalf (kHalf d) (ringLines (kRing d i)).1 (ringLines (kRing d i)).2) then [32] else [])

/-- The least of the failing offsets. -/
def leastOf : List Nat → Option Nat
  | [] => none
  | x :: xs => some (xs.foldl min x)

/-- Reads and checks a kernel descriptor, which lies in device memory: ILLEGAL with the failing byte offset, or the
code of a failed read, at the descriptor's address (R261, R344). -/
def State.kernel (s : State) (part a : Nat) : Except Exc Nat :=
  if !inDevice a then .error (access (w64 a))
  else
    match s.dispRead part a 256 with
    | .error x => .error (x.at_ fun _ m => (w64 a, m))
    | .ok (d, _) =>
      match leastOf (kernelBad d) with
      | some o => .error (.fault 1 (w64 a) o)
      | none => .ok d

/-! ### Operand-descriptor lists (R263) -/

/-- ADDR of an operand entry. -/
def oAddr (v : Nat) : Nat := fld v 72 56
/-- LINES. -/
def oLines (v : Nat) : Nat := fld v 44 20
/-- DOFF. -/
def oDoff (v : Nat) : Nat := fld v 32 12
/-- LOAD. -/
def oLoad (v : Nat) : Bool := fld v 2 1 == 1
/-- W. -/
def oWrite (v : Nat) : Bool := fld v 1 1 == 1
/-- R. -/
def oRead (v : Nat) : Bool := fld v 0 1 == 1

/-- The range of R50 that holds an address; device memory and the apertures, which meet, count as one. -/
def mapRange (a : Nat) : Option Nat :=
  if a < 2 ^ 20 then some 0 else if 0x1000000 ≤ a ∧ a < 0x9000000 then some 1 else if inShared a 1 then some 2
  else if inDevice a || inAperture a then some 3 else none

/-- n bytes from an address lie in one range of R50. -/
def inMap (a n : Nat) : Bool := (mapRange a).isSome && mapRange a == mapRange (a + n - 1)

/-- The offsets within an entry of the limits it breaks (R263). -/
def entryBad (d v : Nat) : List Nat :=
  (if fld v 3 29 == 0 && (oRead v || oWrite v) && (oLoad v || oDoff v == 0)
      && (!oLoad v || (decide (oDoff v + oLines v ≤ 4096) && (!kConfine d || inHalf (kHalf d) (oDoff v) (oLines v))))
    then [] else [0])
    ++ (if oLines v == 0 then [5] else [])
    ++ (if fld v 64 8 == 0 then [] else [8]) ++ (if oAddr v % 256 == 0 && inMap (oAddr v) (256 * max 1 (oLines v)) then [] else [9])

/-- The place of a list of n bytes: in the local range wholly within the image, else shared or device memory. -/
def listFits (d a n : Nat) : Bool :=
  if a < 2 ^ 20 then decide (256 * kImgOff d ≤ a) && decide (a + n ≤ 256 * (kImgOff d + kImgLen d))
  else inShared a n || (inDevice a && inDevice (a + n - 1))

/-- Reads 16 bytes of a list; those of the local range are the image's at IMGSRC. -/
def State.operandRead (s : State) (part d a off : Nat) : Except Exc Nat :=
  let src := if a < 2 ^ 20 then kImgSrc d + (a - 256 * kImgOff d) else a
  match s.dispRead part (src + off) 16 with
  | .error x => .error (x.at_ fun _ m => (w64 a, m))
  | .ok (v, _) => .ok v

/-- The entries of a list from the i-th on. -/
def State.listEntries (s : State) (part d a : Nat) : Nat → Nat → Except Exc (List Nat)
  | _, 0 => .ok []
  | i, n + 1 =>
    match s.operandRead part d a (16 + 16 * i) with
    | .error e => .error e
    | .ok v =>
      match State.listEntries s part d a (i + 1) n with
      | .error e => .error e
      | .ok vs => .ok (v :: vs)

/-- The entries of an operand list; an address of 0 declares none. FORMAT carries the failing byte offset (R263). -/
def State.operands (s : State) (part d a : Nat) : Except Exc (List Nat) :=
  if a = 0 then .ok []
  else if a % 16 ≠ 0 ∨ listFits d a 16 = false then .error (format (w64 a))
  else
    match s.operandRead part d a 0 with
    | .error e => .error e
    | .ok h =>
      let n := fld h 0 8
      if 64 < n ∨ listFits d a (16 + 16 * n) = false then .error (format (w64 a))
      else if fld h 8 120 ≠ 0 then .error (.fault 6 (w64 a) 1)
      else
        match s.listEntries part d a 0 n with
        | .error e => .error e
        | .ok vs =>
          match leastOf ((List.range n).flatMap fun i => (entryBad d (vs[i]?.getD 0)).map (16 + 16 * i + ·)) with
          | some o => .error (.fault 6 (w64 a) o)
          | none => .ok vs

/-! ### Copies (R264) -/

/-- Where the dispatcher reaches a source for core g of a partition's node: the core's own scratchpad, the window, or
memory; pool entry n's own preload is no obstacle (R142). -/
def State.copyReach (s : State) (n part g a : Nat) : Except Exc Nat :=
  let mine (k : Nat) : Bool := match (s.core k).preload with | some (_, m) => m == n | none => true
  if a < 2 ^ 20 then .ok (spadKey g a)
  else if 0x1000000 ≤ a ∧ a < 0x9000000 then
    let k := cidOf g * 128 + (a - 0x1000000) / 2 ^ 20
    let x := (a - 0x1000000) % 2 ^ 20
    let other := match s.runsPart k with | some p => !(p == part) | none => false
    if other || (s.underPreload k x && !mine k) then .error (access (w64 a)) else .ok (spadKey k x)
  else s.resolvePart part (w64 a) { rd := true }

/-- Copies one line with its side band into core g's scratchpad. -/
def State.loadLine (s : State) (n part g src line : Nat) : Except Exc State :=
  match s.copyReach n part g src with
  | .error e => .error e
  | .ok k =>
    if s.isBad k then .error (uncorrectable k (w64 src))
    else
      let sb := if isExt k then s.extSide k else s.sideOf k
      let r := s.line k
      .ok (r.2.setLine (spadKey g (256 * line)) r.1 sb)

/-- Copies lines in ascending order. -/
def State.loadLines (s : State) (n part g src line : Nat) : Nat → Except Exc State
  | 0 => .ok s
  | k + 1 =>
    match s.loadLine n part g src line with
    | .error e => .error e
    | .ok t => t.loadLines n part g (src + 256) (line + 1) k

/-- One range that a dispatch copies: source, destination line, lines. -/
abbrev Load := Nat × Nat × Nat

/-- The copies of a node: the image, then the LOAD entries, in order. -/
def loadsOf (d : Nat) (ops : List Nat) : List Load :=
  (kImgSrc d, kImgOff d, kImgLen d) :: (ops.filter oLoad).map fun v => (oAddr v, oDoff v, oLines v)

/-- What a node copies again where its kept mark stands (R143): the lines of the LOAD entries that it does not declare as
read, but those that a later entry so declared overwrites. -/
def unkeptLoads : List Nat → List Load
  | [] => []
  | v :: vs =>
    let covered (line : Nat) : Bool := vs.any fun u => oLoad u && oRead u && decide (oDoff u ≤ line) && decide (line < oDoff u + oLines u)
    (if oLoad v && !oRead v then
      ((List.range (oLines v)).filter fun i => !covered (oDoff v + i)).map fun i => (oAddr v + 256 * i, oDoff v + i, 1)
     else []) ++ unkeptLoads vs

/-- Makes copies into core g. -/
def State.loadAll (s : State) (n part g : Nat) : List Load → Except Exc State
  | [] => .ok s
  | x :: xs =>
    match s.loadLines n part g x.1 x.2.1 x.2.2 with
    | .error e => .error e
    | .ok t => t.loadAll n part g xs

/-- Makes the copies into each core of a gang. -/
def State.loadGang (s : State) (n part : Nat) (xs : List Load) : List Nat → Except Exc State
  | [] => .ok s
  | g :: gs =>
    match s.loadAll n part g xs with
    | .error e => .error e
    | .ok t => t.loadGang n part xs gs

/-! ### A core at dispatch (R15) -/

/-- A sequencer at its entry point, with s1 and s2; an entry point of 0 starts it stopped (R260). -/
def seqAt (ent : Nat) (s1 s2 : W64) : Seq :=
  { pc := w64 ent, s := ((Vector.replicate 32 (0 : W64)).set 1 s1).set 2 s2, run := if ent = 0 then .ended else .running }

/-- The core's state at a fresh dispatch. Its marks and its place in command order are its own. -/
def Core.fresh (c : Core) (d : Nat) (ctx : Ctx) (s1 s2 : W64) : Core :=
  { k := seqAt (kEnt d 0) s1 s2, l := seqAt (kEnt d 1) s1 s2, c := seqAt (kEnt d 2) s1 s2, st := seqAt (kEnt d 3) s1 s2
    vshape := BitVec.ofNat 32 (kShape d)
    rings := Vector.ofFn fun i : Fin 16 => { cfg := w64 (kRing d i.val) }
    order := c.order, ctx := some ctx, marks := c.marks, debug := c.debug }

end Sys2Proof.Machine
end

