-- ==== Sys2Proof/Machine/Peel.lean ====
section
/-! DEFINITION. The peel: saving a gang, checking and restoring its saves, and the node commands (R291-R295, R26, R141,
R189). The spec fixes the regions of a save slot; the places of the fields within the sequencer and ring regions are
the model's (log 27). -/

namespace Sys2Proof.Machine

/-! ### Free slots (R292, R293) -/

/-- Save slots of a partition that no entry records, lowest first. -/
def State.freeSlots (s : State) (p : Nat) : List Nat :=
  (List.range (s.part p).psaven.toNat).filter fun k =>
    !(s.disp.pool.any fun e => e.2.part == p && e.2.saves.contains k)

/-- Slots that saves already asked for will take. -/
def State.slotsClaimed (s : State) (p : Nat) : Nat :=
  ((s.disp.pool.filter fun e => e.2.part == p && (!e.2.preempt.isEmpty || e.2.overrun) && e.2.saves.isEmpty).map
    fun e => e.2.gsz).sum

/-- A save of an entry's gang finds its slots. -/
def State.slotsFor (s : State) (e : Entry) : Bool :=
  decide (e.gsz + s.slotsClaimed e.part ≤ (s.freeSlots e.part).length)

/-! ### The regions of a slot -/

/-- n items of w bytes each. -/
def itemBytes (n w : Nat) (f : Nat → Nat) : List Byte := (List.range n).flatMap fun i => toBytes w (f i)

/-- Bytes padded with zeros. -/
def padBytes (n : Nat) (bs : List Byte) : List Byte := bs ++ List.replicate (n - bs.length) 0

/-- A sequencer's 1 KiB: s0-s31, p0-p15, PC, LC, ESC, loop state, seen phases, event bit. -/
def Seq.saved (q : Seq) : List Byte :=
  padBytes 0x400 <|
    itemBytes 32 8 (fun i => (q.rdS (idx 32 i)).toNat) ++ toBytes 8 q.preds ++ toBytes 8 q.pc.toNat ++ toBytes 8 q.lc.toNat
      ++ toBytes 8 q.esc.toNat ++ toBytes 8 q.loop.active.toNat ++ toBytes 8 q.loop.first.toNat ++ toBytes 8 q.loop.fin.toNat
      ++ toBytes 8 q.loop.t
      ++ itemBytes 16 4 (fun i => match q.seen.get (idx 16 i) with | some ph => 2 ^ 16 + ph.toNat | none => 0)
      ++ toBytes 8 q.event.toNat

/-- FPCR, VSHAPE, VROT, ring words and semaphores: 1 KiB. -/
def Core.savedRegs (c : Core) : List Byte :=
  padBytes 0x400 <|
    padBytes 0x40 (toBytes 4 c.fpcr.toNat ++ toBytes 4 c.vshape.toNat ++ toBytes 4 c.vrot.toNat)
      ++ (List.range 16).flatMap (fun i =>
        let r := c.rings.get (idx 16 i)
        toBytes 8 r.cfg.toNat ++ toBytes 8 r.word1 ++ toBytes 8 r.done.toNat)
      ++ itemBytes 16 4 (fun i => (c.sems.get (idx 16 i)).toNat)

/-- Tile t. -/
def Core.tileAt (c : Core) (t : Nat) : Tile := c.tiles.getD t {}

/-- The readable regions but the scratchpad: offset in the slot, and bytes. -/
def Core.regions (c : Core) : List (Nat × List Byte) :=
  [(0x104000, itemBytes (32 * 4096) 4 fun i => ((c.tileAt (i / 4096)).elem (i % 4096)).toNat),
   (0x184000, itemBytes (32 * 32) 8 fun i => ((c.tileAt (i / 32)).tag (i % 32)).toNat),
   (0x186000, itemBytes 32 8 fun t => (c.tileAt t).flags.toNat),
   (0x188000, itemBytes (32 * 1024) 4 fun i => (((c.v.get (idx 32 (i / 1024)))[i % 1024]?).getD 0).toNat),
   (0x1A8000, c.k.saved ++ c.l.saved ++ c.c.saved ++ c.st.saved),
   (0x1A9000, c.savedRegs)]

/-- Where the opaque region begins, and its length: 340 KiB. -/
def opaqueAt : Nat := 0x1AA000
/-- Its length. -/
def opaqueLen : Nat := 340 * 1024

/-- Writes whole lines, with side band 0. -/
def State.putLines (s : State) (k : Nat) : Nat → List Byte → State
  | 0, _ => s
  | n + 1, bs => (s.setLine k (bs.take 256) 0).putLines (k + 256) n (bs.drop 256)
/-- Writes a region. -/
def State.putRegion (s : State) (k : Nat) (bs : List Byte) : State := s.putLines k ((bs.length + 255) / 256) bs

/-! ### Saving a core (R292, R293) -/

/-- What the opaque region keeps of a core: everything that is in flight. Waits are abandoned (R189), and a stolen
command that has not started returns to the owner's queue (R144). -/
def Core.inFlight (c : Core) : Core :=
  let back (q : EQueue) : EQueue := { q with cmds := q.cmds.map fun x => if x.started then x else { x with sibling := none } }
  { c.mapSeqs (fun q => { q with wait := none }) with lq := back c.lq, sq := back c.sq, mq := back c.mq }

/-- A core that runs nothing. -/
def Core.vacate (c : Core) : Core :=
  { c.mapSeqs (fun q => { q with run := .ended, wait := none, sync := none }) with
    flight := [], lq := {}, sq := {}, mq := {}, posted := [], freeze := none, ctx := none }

/-- Siblings that were to run commands of core g are free again. -/
def State.endSteals (s : State) (g : Nat) : State :=
  { s with cores := s.cores.map fun e => if e.2.steal = some g then (e.1, { e.2 with steal := none }) else e }

/-- Saves the scratchpad with its side bands: a line in error is saved poisoned, with a record. -/
def State.saveSpad (s : State) (g slot base : Nat) : State :=
  let bad (i : Nat) : Bool := s.isBad (spadKey g (256 * i))
  let sides := itemBytes 4096 4 fun i =>
    (s.sideOf (spadKey g (256 * i)) ||| (if bad i then poisonBit else 0)).toNat
  let s := (List.range 4096).foldl
    (fun s i => (s.putRegion (base + 256 * i) (Mem.bytes s.mem (spadKey g (256 * i)) 256))) s
  let s := s.putRegion (base + 0x100000) sides
  ((List.range 4096).filter bad).foldl (fun s i =>
    (s.consume (spadKey g (256 * i))).note g 7 slot 9 0 (w64 (256 * i))) s

/-- The header of a slot (R292). -/
def saveHeader (valid : Nat) (e : Entry) (n rank g crc left : Nat) (bars : List Byte) : List Byte :=
  padBytes 0x1000 <|
    toBytes 8 valid ++ toBytes 2 (if e.isTile then n else e.nid) ++ toBytes 2 e.graph ++ toBytes 1 e.gsz ++ toBytes 1 rank
      ++ toBytes 2 (cidOf g * 128 + corOf g) ++ toBytes 4 0 ++ toBytes 4 crc ++ toBytes 8 left ++ List.replicate 96 0 ++ bars

/-- Count and phase of the barriers an entry has bound (R62). -/
def State.savedBars (s : State) (e : Entry) : List Byte :=
  padBytes 128 (e.bars.flatMap fun b =>
    let x := (s.cluster e.cluster).bars.get (idx 16 b.1)
    toBytes 8 (x.count + x.phase.toNat * 2 ^ 32))

/-- Saves the core of rank `rank` into a slot of entry n. -/
def State.saveCore (s : State) (n : Nat) (e : Entry) (valid rank g slot : Nat) : State :=
  let base := s.saveBase e.part slot
  let c := s.core g
  let bytes := (List.range opaqueLen).map fun i => Config.saveByte (s.free + i)
  let bars := if rank = 0 then s.savedBars e else []
  let head := saveHeader valid e n rank g (crc32 bytes) (e.limit - e.used) bars
  let s := s.saveSpad g slot base
  let s := c.regions.foldl (fun s r => s.putRegion (base + r.1) r.2) s
  let s := (s.putRegion (base + opaqueAt) bytes).putRegion (base + saveHead) head
  let x := s.part e.part
  { (s.setPart e.part { x with hidden := x.hidden.set slot c.inFlight }) with free := s.free + opaqueLen }

/-- Saves every core of a gang. -/
def State.saveGang (s : State) (n : Nat) (e : Entry) (valid : Nat) (slots : List Nat) : State :=
  ((List.range e.cores.length).zip (e.cores.zip slots)).foldl (fun s x => s.saveCore n e valid x.1 x.2.1 x.2.2) s

/-- The gang is stopped and nothing holds the save back: freezes, posted operations, stolen commands that have started
and proofer commands (R293, R144, R243); the record of a fault that has stopped the node is written first (R259, R309). -/
def State.peelReady (s : State) (e : Entry) : Bool :=
  e.cores.all fun g =>
    let c := s.core g
    c.freeze.isNone && c.posted.isEmpty && !(c.commands.any fun y => y.started && y.sibling.isSome) && !s.proofBusy g
      && ([c.k, c.l, c.c, c.st].all fun q => !(q.run == .stopping)) && !(s.due.any fun d => d.cores.contains g)

/-- Frees a saved gang's cores and counters. -/
def State.releaseGang (s : State) (n : Nat) (e : Entry) : State :=
  let s := e.cores.foldl (fun s g => (s.endSteals g).setCore g ((s.endSteals g).core g).vacate) s
  (s.unbindBars n e.cluster).dropPreloads e.cores

/-- A gang whose budget has ended is halted with nothing saved (R293). -/
def State.haltUnsaved (s : State) (n : Nat) (e : Entry) : State :=
  let s := (s.stopCores e.cores).dropPreloads e.cores
  (s.setEntry n { e with phase := .halted, valid := false, overrun := false, stopped := false }).budgetStop n e

/-- No slot is left for a save that was asked for. -/
def State.noSlots (s : State) (n : Nat) (e : Entry) : State :=
  if e.preempt.isEmpty then s.haltUnsaved n e
  else e.preempt.foldl (fun s h => s.answer h 3) (s.setEntry n { e with preempt := [], stopped := false })

/-- The save of a gang, and what it comes to: a pre-empted node is ready again, with its priority and the wait from before it
first started (R140), and, the model's choice, with its first place among ties (log 97); one that overran is halted with a
BUDGET record; a halted one stays so, with a fault save (R295). What its cores have done is linked-before what the resumed
node does on others (R76). -/
def State.savePeel (s : State) (n : Nat) (e : Entry) : State :=
  let slots := (s.freeSlots e.part).take e.gsz
  if slots.length < e.gsz then s.noSlots n e
  else
    let running := e.phase = .running
    let t := s.saveGang n e (if running then 1 else 2) slots
    let t := (t.releaseCores e.cores (.node n)).releaseGang n e
    let e1 := { e with saves := slots, stopped := false, preempt := [], valid := running, waited := e.wait0 }
    if e.preempt.isEmpty then (t.setEntry n { e1 with phase := .halted, overrun := false }).budgetRecord n e false
    else
      e.preempt.foldl (fun s h => s.answer h 0) (t.setEntry n (if running then
          { e1 with phase := .ready, overrun := false, resume := false, cores := [] }
        else e1))

/-- peel save: first the gang's issue stops; then the save, which abandons waits, once nothing holds it back. A node
that has retired in the meantime, or can, is not saved. -/
def execPeelSave (entry : Nat) (s : State) : Host.Outcome State Fault Refusal :=
  match s.entry entry with
  | none => .next s
  | some e =>
    if e.tgt ≠ 0 ∨ (e.preempt.isEmpty && !e.overrun) = true then .next s
    else if e.phase = .running then
      if s.finished e then .next s
      else if !e.stopped then .next (s.setEntry entry { e with stopped := true })
      else .next (if s.peelReady e then s.savePeel entry e else s)
    else if e.phase = .halted ∧ e.preempt.isEmpty = false then .next (if s.peelReady e then s.savePeel entry e else s)
    else .next s

/-! ### Checking and restoring (R292, R294) -/

/-- A read of a save slot, by offset and bytes. -/
abbrev SlotRd := Nat → Nat → Nat
/-- The slot of a partition. -/
def State.slotRd (s : State) (p slot : Nat) : SlotRd := fun o n => Mem.readN s.mem (s.saveBase p slot + o) n

/-- A sequencer's fields keep their maps. -/
def seqFieldsOk (rd : SlotRd) (b : Nat) : Bool :=
  decide (rd (b + 0x100) 8 < 2 ^ 16) && csrFits 2 (w64 (rd (b + 0x110) 8)) && csrFits 3 (w64 (rd (b + 0x118) 8))
    && decide (rd (b + 0x120) 8 < 2) && decide (rd (b + 0x138) 8 < 2 ^ 33)
    && ((List.range 16).all fun i => decide (rd (b + 0x140 + 4 * i) 4 < 2 ^ 17)) && decide (rd (b + 0x180) 8 < 2)

/-- A tile's flags and tags keep their maps (R225, R88). -/
def tileFieldsOk (rd : SlotRd) (t : Nat) : Bool :=
  let f := rd (0x186000 + 8 * t) 8
  fld f 13 51 == 0 && decide (fld f 8 5 ≤ 16) && fld f 3 5 == 0
    && ((List.range 32).all fun m => decide (rd (0x184000 + 256 * t + 8 * m) 8 < 2 ^ 37))

/-- Every field that may be edited keeps its own map. -/
def editsOk (rd : SlotRd) : Bool :=
  ((List.range 4).all fun i => seqFieldsOk rd (0x1A8000 + 0x400 * i)) && ((List.range 32).all (tileFieldsOk rd))
    && ((List.range 4096).all fun i => sideValueOk (w64 (rd (0x100000 + 4 * i) 4)))
    && csrFits 0 (w64 (rd 0x1A9000 4)) && csrFits 1 (w64 (rd 0x1A9004 4)) && csrFits 4 (w64 (rd 0x1A9008 4))

/-- A header matches its node and keeps its reserved fields. -/
def headerOk (rd : SlotRd) (n : Nat) (e : Entry) (rank : Nat) : Bool :=
  let h (o k : Nat) : Nat := rd (saveHead + o) k
  h 0 8 == 1 && h 8 2 == (if e.isTile then n else e.nid) && h 10 2 == e.graph && h 12 1 == e.gsz && h 13 1 == rank && decide (h 14 2 < numCores)
    && h 16 4 == 0 && h 32 96 == 0 && h 256 3840 == 0
    && (if rank = 0 then (List.range 16).all fun i =>
          fld (h (128 + 8 * i) 8) 48 16 == 0 && (decide (i < e.bars.length) || h (128 + 8 * i) 8 == 0)
        else h 128 128 == 0)

/-- No read of a slot consumes an error: none is pending there, and its pages' links are up (R311, R325). -/
def State.slotSound (s : State) (p slot : Nat) : Bool :=
  let k := s.saveBase p slot
  !(s.bad.any fun w => decide (k / 8 ≤ w) && decide (w < k / 8 + 2 ^ 18))
    && (List.range 512).all fun i => !s.linkFailed (s.linkOf (k + 4096 * i))

/-- A slot may be resumed. -/
def State.slotOk (s : State) (n : Nat) (e : Entry) (rank slot : Nat) : Bool :=
  let rd := s.slotRd e.part slot
  s.slotSound e.part slot && headerOk rd n e rank && editsOk rd
    && rd (saveHead + 20) 4 == crc32 (Mem.bytes s.mem (s.saveBase e.part slot + opaqueAt) opaqueLen)

/-- Every slot of an entry may be resumed. -/
def State.saveOk (s : State) (n : Nat) (e : Entry) : Bool :=
  ((List.range e.saves.length).zip e.saves).all fun x => s.slotOk n e x.1 x.2

/-- A sequencer as its slot has it. -/
def Seq.restore (q : Seq) (rd : SlotRd) (b : Nat) : Seq :=
  { q with
    s := Vector.ofFn fun i : Fin 32 => w64 (rd (b + 8 * i.val) 8)
    p := Vector.ofFn fun i : Fin 16 => (w64 (rd (b + 0x100) 8)).getLsbD i.val
    pc := w64 (rd (b + 0x108) 8), lc := BitVec.ofNat 32 (rd (b + 0x110) 8), esc := BitVec.ofNat 3 (rd (b + 0x118) 8)
    loop := { active := rd (b + 0x120) 8 == 1, first := w64 (rd (b + 0x128) 8), fin := w64 (rd (b + 0x130) 8), t := rd (b + 0x138) 8 }
    seen := Vector.ofFn fun i : Fin 16 =>
      let x := rd (b + 0x140 + 4 * i.val) 4
      if fld x 16 1 = 1 then some (BitVec.ofNat 16 x) else none
    event := rd (b + 0x180) 8 == 1 }

/-- A tile as its slot has it; one whose flags are clear reads as zero (R225). -/
def restoreTile (rd : SlotRd) (err : List Nat) (t : Nat) : Tile :=
  let f := rd (0x186000 + 8 * t) 8
  { vals := if f = 0 then [] else (List.range 4096).map fun i => BitVec.ofNat 32 (rd (0x104000 + 0x4000 * t + 4 * i) 4)
    tags := (List.range 32).map fun m => w64 (rd (0x184000 + 256 * t + 8 * m) 8)
    cnt := fld f 8 5, closed := fld f 2 1 == 1, poison := fld f 1 1 == 1, tent := fld f 0 1 == 1, err := err }

/-- A ring as its slot has it. -/
def restoreRing (rd : SlotRd) (i : Nat) : Ring :=
  let w := rd (0x1A9040 + 24 * i + 8) 8
  { cfg := w64 (rd (0x1A9040 + 24 * i) 8), head := fld w 0 16, tail := fld w 16 16, claimed := fld w 32 16
    done := w64 (rd (0x1A9040 + 24 * i + 16) 8) }

/-- A restored ring keeps R57. -/
def ringOk (rd : SlotRd) (i : Nat) : Bool :=
  let r := restoreRing rd i
  decide (r.cfg.toNat < 2 ^ 27) && decide (r.slotAt r.n ≤ 2 ^ 20) && fld (rd (0x1A9040 + 24 * i + 8) 8) 48 16 == 0
    && decide (r.head < r.w) && decide (r.tail < r.w) && decide (r.claimed < r.w)
    && decide (r.past r.claimed ≤ r.n) && decide (r.filled ≤ r.past r.claimed) && decide (r.done.toNat < 2 ^ r.n)

/-- Commands of a moved gang name its new cores. -/
def Cmd.moved (f : Nat → Nat) : Cmd → Cmd
  | .copyIn d g base cw => .copyIn d (f g) base cw
  | .copyWt d g ww cw spec => .copyWt d (f g) ww cw spec
  | c => c
/-- A line of a core's scratchpad is the new core's (R217, R272). -/
def keyMoved (f : Nat → Nat) (k : Nat) : Nat :=
  if isSpad k then spadKey (f (spadCore k)) ((k - 2 ^ 52) % 2 ^ 20) else k
/-- The same of a queued command's claim and of the lines it wrote; nothing of a translation is saved (R303). -/
def QCmd.moved (f : Nat → Nat) (x : QCmd) : QCmd :=
  { x with
    cmd := x.cmd.moved f, claim := x.claim.map fun c => (f c.1, c.2), undo := x.undo.map fun u => (keyMoved f u.1, u.2), held := none }
/-- The same of a queue. -/
def EQueue.moved (f : Nat → Nat) (q : EQueue) : EQueue :=
  { q with cmds := q.cmds.map (·.moved f), window := { q.window with cmds := q.window.cmds.map (·.moved f) } }

/-- A core as its slot and its opaque region have it, on the core `old` stands for; `f` gives the new core of an old one. -/
def Core.restore (c old : Core) (rd : SlotRd) (f : Nat → Nat) (bars : List (Nat × Nat)) : Core :=
  { c with
    k := c.k.restore rd 0x1A8000, l := c.l.restore rd 0x1A8400, c := c.c.restore rd 0x1A8800, st := c.st.restore rd 0x1A8C00
    v := Vector.ofFn fun i : Fin 32 => (List.range 1024).map fun j => BitVec.ofNat 32 (rd (0x188000 + 4096 * i.val + 4 * j) 4)
    fpcr := BitVec.ofNat 32 (rd 0x1A9000 4), vshape := BitVec.ofNat 32 (rd 0x1A9004 4), vrot := BitVec.ofNat 4 (rd 0x1A9008 4)
    tiles := (List.range 32).map fun t => (t, restoreTile rd (c.tileAt t).err t)
    rings := Vector.ofFn fun i : Fin 16 => restoreRing rd i.val
    sems := Vector.ofFn fun i : Fin 16 => BitVec.ofNat 32 (rd (0x1A91C0 + 4 * i.val) 4)
    lq := c.lq.moved f, sq := c.sq.moved f, mq := c.mq.moved f
    ctx := c.ctx.map fun x => { x with bars := bars }
    marks := old.marks, preload := none, steal := none, debug := old.debug, stepping := none }

/-- Restores one core from its slot: scratchpad, side bands and the rest. -/
def State.restoreCore (s : State) (p slot g : Nat) (f : Nat → Nat) (bars : List (Nat × Nat)) : State :=
  let rd := s.slotRd p slot
  let base := s.saveBase p slot
  let c := ((s.part p).hidden.getD slot {}).restore (s.core g) rd f bars
  let s := (List.range 4096).foldl (fun s i =>
    s.setLine (spadKey g (256 * i)) (Mem.bytes s.mem (base + 256 * i) 256) (BitVec.ofNat 32 (Mem.readN s.mem (base + 0x100000 + 4 * i) 4))) s
  s.setCore g c

/-- The new core of an old one in a moved gang. -/
def moveTo (old new : List Nat) (g : Nat) : Nat := (((old.zip new).find? fun x => x.1 == g).map (·.2)).getD g

/-- Where a gang was saved from, by rank. -/
def State.savedFrom (s : State) (e : Entry) : List Nat :=
  e.saves.map fun k => s.slotRd e.part k (saveHead + 14) 2

/-- Restores a gang onto cores, with its barriers in counters of their cluster; the slots are freed (R294). -/
def State.restoreGang (s : State) (n : Nat) (e : Entry) (cores : List Nat) (counters : List Nat) : State :=
  let f := moveTo (s.savedFrom e) cores
  let head := s.slotRd e.part (e.saves.headD 0)
  let ps := (((s.part e.part).hidden.getD (e.saves.headD 0) {}).ctx.getD {}).bars.map (·.2)
  let bars := counters.zip ps
  let cl := cidOf (cores.headD 0)
  let left := head (saveHead + 24) 8
  let s := (e.saves.zip cores).foldl (fun s x => s.restoreCore e.part x.1 x.2 f bars) s
  let s := ((List.range bars.length).zip bars).foldl (fun s x =>
    let w := head (saveHead + 128 + 8 * x.1) 8
    let y := s.cluster cl
    let b : Barrier := { count := fld w 0 32, phase := BitVec.ofNat 16 (w / 2 ^ 32), bound := some n, p := x.2.2 }
    s.setCluster cl { y with bars := y.bars.set (idx 16 x.2.1).val b (idx 16 x.2.1).isLt }) s
  let s := s.freeSaves e.part e.saves
  s.setEntry n { e with
    phase := .running, cores := cores, cluster := cl, bars := bars, saves := [], valid := false, resume := false
    used := 0, limit := if e.resume then e.limit else left }

/-- The first core whose saved rings break R57, with its slot. -/
def State.badRing (s : State) (e : Entry) (cores : List Nat) : Option (Nat × Nat) :=
  (e.saves.zip cores).find? fun x => !((List.range 16).all fun i => ringOk (s.slotRd e.part x.1) i)

/-! ### Node commands (R291) -/

/-- A node command that a step names is the one hearth core h has asked for, and is still to begin. -/
def State.askedNode (s : State) (h op : Nat) (tile : Bool) (graph nid : Nat) : Option NCmd :=
  match (s.hearth h).ncmd with
  | some c => if c.op = op ∧ c.tile = tile ∧ c.graph = graph ∧ c.nid = nid ∧ c.begun = false ∧ c.res = none then some c else none
  | none => none

/-- The entry a command names: a node by its identity, a tile by its handle. -/
def State.named (s : State) (c : NCmd) : Option (Nat × Entry) :=
  if c.tile then
    match s.entry c.nid with
    | some e => if e.part = c.part ∧ e.isTile = true then some (c.nid, e) else none
    | none => none
  else
    match s.identity c.part c.graph c.nid with
    | some (n, e) => if e.kind = .node then some (n, e) else none
    | none => none

/-- A command on the entry it names: RES 1 where there is none. -/
def State.onNode (s : State) (h op : Nat) (tile : Bool) (graph nid : Nat) (f : Nat → Entry → State) : State :=
  match s.askedNode h op tile graph nid with
  | none => s
  | some c =>
    match s.named c with
    | none => s.answer h 1
    | some (n, e) => f n e

/-- PREEMPT: a second request for a node whose save is pending completes with it. -/
def execNcmdPreempt (h : Nat) (tile : Bool) (graph : Nat) (nid : Nat) (s : State) : Host.Outcome State Fault Refusal :=
  .next (s.onNode h 1 tile graph nid fun n e =>
    if e.phase ≠ .running ∨ e.tgt ≠ 0 ∨ e.kind = .corr then s.answer h 2
    else if !e.overrun && e.preempt.isEmpty && !s.slotsFor e then s.answer h 3
    else
      match (s.hearth h).ncmd with
      | some c => (s.setEntry n { e with preempt := e.preempt ++ [h] }).setHearth h { s.hearth h with ncmd := some { c with begun := true } }
      | none => s)

/-- RESUME: a save that fails its check can no longer be resumed. -/
def execNcmdResume (h : Nat) (tile : Bool) (graph : Nat) (nid : Nat) (s : State) : Host.Outcome State Fault Refusal :=
  .next (s.onNode h 2 tile graph nid fun n e =>
    if e.phase ≠ .halted ∨ e.saves = [] ∨ e.preempt.isEmpty = false then s.answer h 2
    else if !(e.valid && s.saveOk n e) then (s.setEntry n { e with valid := false }).answer h 4
    else (s.setEntry n { e with phase := .ready, resume := true, limit := (s.hearth h).nbud.toNat * 1024 }).answer h 0)

/-- Ends what a halted entry holds but its weight-set binding: saves, counters, cores, preload state. -/
def State.clearHalted (s : State) (n : Nat) (e : Entry) : State :=
  let s := (s.freeSaves e.part e.saves).unbindBars n e.cluster
  let s := e.cores.foldl (fun s g => match (s.core g).ctx with
    | some x => if x.entry = n then (s.endSteals g).setCore g ((s.endSteals g).core g).vacate else s
    | none => s) s
  { s with clusters := s.clusters.map fun c => (c.1, { c.2 with proofs := c.2.proofs.filter fun p => !(p.entry == some n) }) }

/-- A halted entry as it goes back to the pool for a fresh dispatch. -/
def Entry.again (e : Entry) (now : Nat) : Entry :=
  { e with phase := .ready, waited := 0, readyAt := now, saves := [], valid := false, resume := false, preempt := []
           overrun := false, stopped := false, cores := [], bars := [], used := 0, limit := 0, next := 0, total := 0 }

/-- RERUN: a correction record is read and expanded again (R137). While the fault save of a halted node is pending the
command waits (R295). -/
def execNcmdRerun (h : Nat) (tile : Bool) (graph : Nat) (nid : Nat) (s : State) : Host.Outcome State Fault Refusal :=
  .next (s.onNode h 3 tile graph nid fun n e =>
    if e.phase ≠ .halted then s.answer h 2
    else if !e.preempt.isEmpty then s
    else
      let t := s.clearHalted n e
      let t := { t.setEntry n (e.again t.disp.ready) with
        disp := { (t.setEntry n (e.again t.disp.ready)).disp with ready := t.disp.ready + 1 } }
      if e.kind = .corr then (t.answer h 0).expand n (e.again t.disp.ready) else t.answer h 0)

/-- DISCARD: no release. It waits as RERUN does. -/
def execNcmdDiscard (h : Nat) (tile : Bool) (graph : Nat) (nid : Nat) (s : State) : Host.Outcome State Fault Refusal :=
  .next (s.onNode h 4 tile graph nid fun n e =>
    if e.phase ≠ .halted then s.answer h 2
    else if !e.preempt.isEmpty then s
    else
      let t := ((s.clearHalted n e).unbindWs e).dropMarks n e
      (t.dropEntry n).answer h 0)

/-- Zeroes the scratchpads of a cluster with FMT 0, resets its barriers and its stage (R289). -/
def State.clearCluster (s : State) (c : Nat) : State :=
  let lo := spadKey (128 * c) 0
  let hi := spadKey (128 * (c + 1)) 0
  let s := { s with
    mem := Mem.clearRange s.mem lo hi
    side := s.side.filter fun e => !(decide (lo / 256 ≤ e.1) && decide (e.1 < hi / 256))
    bad := s.bad.filter fun w => !(decide (lo / 8 ≤ w) && decide (w < hi / 8))
    cstg := s.cstg &&& ~~~(w64 (15 * 2 ^ (4 * c))) }
  s.setCluster c { s.cluster c with bars := Vector.replicate 16 {}, cleared := true }

/-- CLEAR: of a cluster that no partition holds; its stage becomes 0 (R289). -/
def execNcmdClear (h : Nat) (c : Nat) (s : State) : Host.Outcome State Fault Refusal :=
  match (s.hearth h).ncmd with
  | some x =>
    if x.op = 5 ∧ x.cl = c ∧ x.begun = false ∧ x.res = none then
      if (s.partOf c).isSome then .next (s.answer h 2)
      else .next ((s.clearCluster c).answer h 0)
    else .next s
  | none => .next s

/-- node command completion: BUSY clears, RES is written and NC is raised. -/
def execNodeCommandComplete (h : Nat) (s : State) : Host.Outcome State Fault Refusal :=
  match (s.hearth h).ncmd with
  | some c =>
    match c.res with
    | some r =>
      let t := s.setHearth h { s.hearth h with ncmd := none, res := r, ncPart := c.part }
      .next (t.setPart c.part { t.part c.part with nc := true })
    | none => .next s
  | none => .next s

end Sys2Proof.Machine
end

