-- ==== Sys2Proof/Machine/Posted.lean ====
section
/-! DEFINITION. The application of posted operations by the bank units, the dispatcher and the CSQ (R79, R115, R116,
R237, R251, R253), and of the operations of bank-unit routines (R136). -/

namespace Sys2Proof.Machine

/-! ### One operation -/

/-- A list element's read by a bank unit, from this core's scratchpad or from shared memory (R253): FORMAT for a line
whose FMT is reserved (R54). -/
def State.listRead (s : State) (g : Option Nat) (a n : Nat) : Except Exc Nat :=
  if inShared a n then
    match orElse (s.bankErr a n) (s.loadFault (shKey a) n (w64 a)) with
    | some e => .error e
    | none => .ok (s.shRd a n)
  else
    let k := vkey (g.getD 0) (w64 a)
    match orElse (s.loadFault k n (w64 a)) (if fmtKnown (s.fmtOf k) then none else some (format (w64 a))) with
    | some e => .error e
    | none => .ok (Mem.readN s.mem k n)

/-- A result's write to this core's scratchpad or to shared memory (R253). -/
def State.listWrite (s : State) (g : Option Nat) (a n v : Nat) : State :=
  if inShared a n then s.shWr a n v else s.store (vkey (g.getD 0) (w64 a)) n v

/-- Goes on with a checked sketch. -/
def withSketch (s : State) (part : Nat) (a : W64) (f : Sketch → Applied) : Applied := .with s (s.sketch part a.toNat) f

/-- Goes on with a checked sketch whose pairs are odd (R100). -/
def withHashes (s : State) (part : Nat) (a : W64) (f : Sketch → Applied) : Applied :=
  withSketch s part a fun x =>
    match s.pairsOk x with
    | some e => .err s e
    | none => f x

/-- Writes n bytes of a predictor table. -/
def ptWrite (s : State) (a n v : Nat) : Applied :=
  match s.bankErr a n with
  | some e => .err s e
  | none => { s := s.shWr a n v }

/-- A refused weight-set form posts a NOTE record (R256, R344). -/
def State.wsRefused (s : State) (g : Option Nat) (p : Posted) : State :=
  let n := bf p.b 0 3
  let d := n + ((s.part p.part).wsAt n).state.code * 2 ^ 4
  match g with
  | some g => s.note g 0 ((s.core g).ctx.getD {}).grk 5 p.pc 0 d
  | none =>
    let c := s.lowCluster p.part
    s.postTo p.part c { cls := 2, code := 5, unit := 0, cid := c, caddr := p.pc.toNat, detail := d }

/-- A releasing operation that has been applied (R115, R257): what it releases is found in its object, with the fences
before it (R74). -/
def State.addOpSrc (s : State) (p : Posted) (o : Obj) : State :=
  match p.src with
  | some x => s.addSrcs o (x :: p.rel)
  | none => s

/-- The release of a settle that took its source from one step to another (R115). -/
def State.addSettle (s : State) (p : Posted) (r : Region) (lo hi : Nat) : State :=
  match p.src with
  | some x => if r.rel hi ≤ r.rel lo then s else s.addSrcs (.region r.addr) ((x :: p.rel).map fun y => { y with lo := lo, hi := hi })
  | none => s

/-- The counters of a sketch's descriptor: those that an index selects, or all of them. -/
def State.skPlaces (s : State) (part : Nat) (desc : W64) (i : Option W64) : List (Nat × Nat) :=
  match s.sketch part desc.toNat, i with
  | .ok x, some i => s.ctrsAt x i
  | .ok x, none => [(shKey x.base, x.size)]
  | .error _, _ => []

/-- The locations that an operation, of a list form its next element, reads and writes (R79, R115). -/
def State.opPlaces (s : State) (g : Option Nat) (p : Posted) : List (Nat × Nat) :=
  let layer := selLayer p.b
  let at_ (index : W64) : List (Nat × Nat) :=
    match s.listRead g (index.toNat + 8 * p.done) 8 with
    | .ok i => s.skPlaces p.part p.a (some (w64 i))
    | .error _ => []
  match p.op with
  | .nma _ ty _ => [(shKey p.a.toNat, if ty = 1 then 8 else 4)]
  | .list _ _ _ _ => [(shKey (p.d.toNat + 4 * p.done), 4)]
  | .ptWr => [(shKey (ptEntry p.a.toNat layer (selExpert p.b)), 4)]
  | .ptHwr => [(shKey (ptHead p.a.toNat layer), 8)]
  | .ptClr => [(shKey (ptHead p.a.toNat layer), 16), (shKey (ptHeld p.a.toNat layer 0), 128)]
  | .creelCfg | .creelBias => []
  | .skSeed => (match s.sketch p.part p.a.toNat with | .ok x => [(shKey x.pairs, 16 * x.d)] | .error _ => [])
  | .skUpd => s.skPlaces p.part p.a (some p.b)
  | .skUpdl index _ _ _ => at_ index
  | .skQryl index res _ _ =>
    let r := res.toNat + 4 * p.done
    (if inShared r 4 then shKey r else vkey (g.getD 0) (w64 r), 4) :: at_ index
  | .skAdd => s.skPlaces p.part p.a none ++ s.skPlaces p.part p.b none
  | .skClr => s.skPlaces p.part p.a none
  | .ocInit _ | .ocIns => [(shKey p.a.toNat, 128)]
  | .ocSettle => (match s.region p.b.toNat with | .ok r => [r.place] | .error _ => [])
  | .tcAdd _ | .tcSet _ | .wsBeg | .wsCom | .wsAbn => []

/-- The agent of an operation: its sequencer, or the bank units for a list form. -/
def Posted.agent (p : Posted) (w : Who) : Agent := (p.src.map fun x => x.who).getD (.seq w)

/-- An applied operation's accesses to the hazard checker, with the fences before it (R74, R79). -/
def State.logPosted (s : State) (w : Who) (p : Posted) (places : List (Nat × Nat)) : State :=
  places.foldl (fun s x => s.logAccess (p.agent w) x.1 x.2 false true p.rel) s

/-- Applies an operation, of a list form the next element, on behalf of core g's K or of another poster. -/
def State.applyOp (s : State) (g : Option Nat) (p : Posted) : Applied :=
  let layer := selLayer p.b
  match p.op with
  | .nma op ty u => s.nmaApply op ty u p.a.toNat p.b.toNat p.d.toNat
  | .list op ty xs _ => s.nmaApply op ty false (p.d.toNat + 4 * p.done) ((xs[p.done]?).getD 0).toNat 0
  | .ptWr => ptWrite s (ptEntry p.a.toNat layer (selExpert p.b)) 4 p.d.toNat
  | .ptHwr => ptWrite s (ptHead p.a.toNat layer) 8 p.d.toNat
  | .ptClr =>
    match orElse (s.bankErr (ptHead p.a.toNat layer) 16) (s.bankErr (ptHeld p.a.toNat layer 0) 128) with
    | some e => .err s e
    | none => { s := s.ptClear p.a.toNat layer }
  | .creelCfg => s.creelConfig p.part p.a p.b
  | .creelBias =>
    let k := creelKey p.a
    { s := s.setCreel k { s.creel k with bias := p.b.setWidth 32 } }
  | .skSeed => withSketch s p.part p.a fun x => { s := s.skSeed x p.b }
  | .skUpd => withHashes s p.part p.a fun x => s.skUpdate x p.b (p.d.setWidth 32)
  | .skUpdl index val _ _ =>
    withHashes s p.part p.a fun x =>
      .with s (s.listRead g (index.toNat + 8 * p.done) 8) fun i =>
        .with s (s.listRead g (val.toNat + 4 * p.done) 4) fun v => s.skUpdate x (w64 i) (BitVec.ofNat 32 v)
  | .skQryl index res _ _ =>
    withHashes s p.part p.a fun x =>
      .with s (s.listRead g (index.toNat + 8 * p.done) 8) fun i =>
        .with s (s.skEstimate x (w64 i)) fun v => { s := s.listWrite g (res.toNat + 4 * p.done) 4 v.toNat }
  | .skAdd => withHashes s p.part p.a fun x => withHashes s p.part p.b fun y => s.skAddTo x y
  | .skClr => withSketch s p.part p.a fun x => { s := s.skClear x }
  | .ocInit i32 => .with s (s.region p.b.toNat) fun r => s.cellInit p.a.toNat r i32 (p.d.setWidth 32)
  | .ocIns => .with s (s.region p.b.toNat) fun r => s.cellInsert p.a.toNat r (histOf p.d.toNat)
  | .ocSettle =>
    .with s (s.region p.b.toNat) fun r =>
      let x := s.regionSettle r (bf p.a 16 12) (bf p.a 0 16)
      (match x.r, r.settled (bf p.a 16 12) with
        | .ok _, some lo => { x with s := x.s.addSettle p r lo (bf p.a 0 16) }
        | _, _ => x)
  | .tcAdd k => { s := (s.addOpSrc p (.tc k)).addTc k p.d }
  | .tcSet k => { s := ((s.addOpSrc p (.tc k)).setTc k p.d).fireAll }
  | .wsBeg | .wsCom | .wsAbn =>
    match (s.part p.part).wsForm p.op p.a p.b with
    | some q => { s := (match p.op with | .wsCom => s.addOpSrc p (.ws p.part (bf p.b 0 3)) | _ => s).setPart p.part q }
    | none => { s := s.wsRefused g p }

/-- Elements of an operation: one, but for a list form. -/
def Posted.count (p : Posted) : Nat :=
  match p.op with
  | .list _ _ xs _ => xs.length
  | .skUpdl _ _ n _ => n
  | .skQryl _ _ n _ => n
  | _ => 1

/-- The semaphore of `sig`. -/
def Posted.sig (p : Posted) : Option Reg16 :=
  match p.op with
  | .list _ _ _ g => g
  | .skUpdl _ _ _ g => g
  | .skQryl _ _ _ g => g
  | _ => none

/-! ### Order -/

/-- The one bank unit of an operation that touches one location only; operations with more, and those that release,
keep their place. -/
def Posted.single (p : Posted) : Option Nat :=
  match p.op with
  | .nma _ _ _ => some (bankUnit p.a.toNat)
  | .ptWr => some (bankUnit (ptEntry p.a.toNat (selLayer p.b) (selExpert p.b)))
  | .ptHwr => some (bankUnit (ptHead p.a.toNat (selLayer p.b)))
  | .creelCfg => some (creelKey p.a / 8)
  | .creelBias => some (creelKey p.a / 8)
  | _ => none

/-- Operation n of a sequencer may be applied now: those before it go to other bank units (R79, R115, R257). -/
def inTurn (ps : List Posted) (n : Nat) : Bool :=
  match ps[n]? with
  | none => false
  | some p =>
    n == 0 || (match p.single with
      | none => false
      | some u => (ps.take n).all fun x => match x.single with | some v => !(v == u) | none => false)

/-- A list without its n-th element. -/
def without {α : Type} (xs : List α) (n : Nat) : List α := xs.take n ++ xs.drop (n + 1)

/-- The device-wide bank unit that found a fault (R306, R344). -/
def Posted.unit (p : Posted) (e : Exc) : Nat :=
  let a := (e.codeAddr).2.toNat
  if inShared a 1 then bankUnit a else match p.op with
    | .creelCfg => creelKey p.a / 8
    | .list _ _ _ _ => bankUnit p.d.toNat
    | _ => bankUnit p.a.toNat

/-- The posted operations of core g's K. -/
def State.setPosted (s : State) (g : Nat) (ps : List Posted) : State := s.setCore g { s.core g with posted := ps }

/-- Applies operation n of core g's K. -/
def State.applyCore (s : State) (g n : Nat) : State :=
  match (s.core g).posted[n]? with
  | none => s
  | some p =>
    let r := s.applyOp (some g) p
    match r.r with
    | .error e =>
      (r.s.setPosted g (without (r.s.core g).posted n)).imprecise g 10 (p.unit e) p.pc e
    | .ok _ =>
      let u := r.s.logPosted (.core g .K) p (s.opPlaces (some g) p)
      if p.done + 1 < p.count then
        u.setPosted g ((u.core g).posted.set n { p with done := p.done + 1 })
      else
        let t := u.setPosted g (without (u.core g).posted n)
        match p.sig with
        | some k => t.semAddTo (p.agent (.core g .K)) g k 1 false
        | none => t

/-- Applies operation n of a hearth core: its fault is recorded in the partition and stops nothing (log 23). -/
def State.applyHearth (s : State) (h n : Nat) : State :=
  match (s.hearth h).posted[n]? with
  | none => s
  | some p =>
    let r := s.applyOp none p
    let t := r.s.setHearth h { r.s.hearth h with posted := without (r.s.hearth h).posted n }
    match r.r with
    | .ok _ => t.logPosted (.hearth h) p (s.opPlaces none p)
    | .error e =>
      let c := t.lowCluster p.part
      let (code, a) := e.codeAddr
      (t.traced e).postTo p.part c
        { code := code, unit := 10, index := p.unit e, cid := c, addr := a.toNat, caddr := p.pc.toNat, detail := e.more }

/-! ### Bank-unit routines (R136) -/

/-- The operation of a routine's WORD: a posted form of PTAB, CREEL, NMA or NMX without `sig`; FORMAT for another,
and ILLEGAL for a word of these groups that breaks its encoding. -/
def routineOp (w : Nat) : Except Exc NearOp :=
  let minor := fld w 0 5
  let noMods := fld w 5 6 == 0
  let noD := fld w 21 5 == 0
  let ok (b : Bool) (op : NearOp) : Except Exc NearOp := if b then .ok op else .error illegal
  let fmt : Except Exc NearOp := .error (format 0)
  match fld w 26 6 with
  | 0x39 =>
    match minor with
    | 1 => ok noMods .ptWr
    | 3 => ok noMods .ptHwr
    | 5 => ok (noMods && noD) .ptClr
    | m => if m ≤ 4 then fmt else .error illegal
  | 0x3A =>
    match minor with
    | 0 => ok (noMods && noD) .creelCfg
    | 1 => ok (noMods && noD) .creelBias
    | m => if m ≤ 4 then fmt else .error illegal
  | 0x3C =>
    let op := minor % 8
    let ty := minor / 8
    if ty = 3 then (if op ≤ 2 then fmt else .error illegal)
    else if ty = 2 ∧ 3 ≤ op ∧ op ≤ 5 then .error illegal
    else
      let minmax := ty ≤ 1 ∧ (op = 1 ∨ op = 2)
      if (if minmax then fld w 5 1 == 0 && fld w 7 4 == 0 else noMods) = false then .error illegal
      else if op = 7 then (if noD then .error illegal else fmt)
      else if noD = false then fmt
      else .ok (.nma op ty (fld w 6 1 == 1))
  | 0x3D =>
    match minor with
    | 0 => ok (noMods && noD) .skSeed
    | 1 => ok noMods .skUpd
    | 5 => ok (noMods && noD) .skAdd
    | 6 => ok (noMods && noD && fld w 11 5 == 0) .skClr
    | 8 => ok (fld w 5 1 == 0 && fld w 7 4 == 0) (.ocInit (fld w 6 1 == 1))
    | 9 => ok noMods .ocIns
    | 12 => ok (noMods && noD) .ocSettle
    | 7 => .error illegal
    | m => if m ≤ 13 then fmt else .error illegal
  | _ => fmt

/-- The issue checks of R237 for an operation of a partition with given operand values. -/
def State.issueErr (s : State) (part : Nat) (op : NearOp) (d a b : W64) : Option Exc :=
  let low32 := limit (bf d 32 32 == 0)
  let desc := s.sharedChkIn part a 64 64
  let region := s.sharedChkIn part b 256 512
  match op with
  | .nma _ ty _ => s.sharedChkIn part a (if ty = 1 then 8 else 4) (if ty = 1 then 8 else 4)
  | .ptWr => orElse (s.ptChkIn part a b false) low32
  | .ptHwr => orElse (s.ptChkIn part a b true) (limit (ptHeadOk d.toNat))
  | .ptClr => s.ptChkIn part a b true
  | .creelCfg => s.creelChkIn part a false true
  | .creelBias => orElse (s.creelChkIn part a false false) (limit (bf b 32 32 == 0 && isFinite (bf b 0 32)))
  | .skSeed => desc
  | .skUpd => orElse desc low32
  | .skAdd => orElse desc (s.sharedChkIn part b 64 64)
  | .skClr => desc
  | .ocInit _ => orElse (s.sharedChkIn part a 128 128) (orElse region low32)
  | .ocIns => orElse (s.sharedChkIn part a 128 128) (orElse region (limit (decide (bf d 60 4 < 5))))
  | .ocSettle => orElse region (limit (bf a 28 36 == 0))
  | _ => some (format 0)

/-- The address of an operation entry (R136). -/
def Entry.opEntry (e : Entry) (i : Nat) : Nat := e.kern + 32 + 32 * i

/-- A routine that fails: a record with UNIT 8 and the entry's address, and the node is halted (R136, R141). -/
def State.routineFail (s : State) (n : Nat) (e : Entry) (at_ : Nat) (x : Exc) : State :=
  let (code, a) := x.codeAddr
  ((s.traced x).setEntry n { e with phase := .halted, valid := false }).entryRecord n e
    { code := code, unit := 8, addr := a.toNat, caddr := at_, detail := x.more }

/-- Issues and applies the next operation of a routine. -/
def State.applyRoutine (s : State) (n : Nat) : State :=
  match s.entry n with
  | none => s
  | some e =>
    if e.phase = .running ∧ e.tgt = 2 ∧ e.kind = .node ∧ e.next < e.total then
      let at_ := e.opEntry e.next
      match { s with asked := e.held }.dispRead e.part at_ 32 with
      | .error (.hold r) => s.setEntry n { e with held := some r }
      | .error x => { s with asked := none }.routineFail n e at_ x
      | .ok (v, s) =>
        let s := { s with asked := none }
        let e := { e with held := none }
        let d := w64 (fld v 64 64)
        let a := w64 (fld v 128 64)
        let b := w64 (fld v 192 64)
        if fld v 32 32 ≠ 0 then s.routineFail n e at_ (format 0)
        else
          match routineOp (fld v 0 32) with
          | .error x => s.routineFail n e at_ x
          | .ok op =>
            match s.issueErr e.part op d a b with
            | some x => s.routineFail n e at_ x
            | none =>
              let r := s.applyOp none { pc := w64 at_, op := op, d := d, a := a, b := b, part := e.part }
              match r.r with
              | .error x => r.s.routineFail n e at_ x
              | .ok _ => r.s.setEntry n { e with next := e.next + 1 }
    else s

/-! ### The meaning -/

/-- posted operation apply: operation n of a sequencer, whose earlier operations go to other bank units; or the next
of a routine. -/
def execPostedOpApply (src : Poster) (n : Nat) (s : State) : Host.Outcome State Fault Refusal :=
  match src with
  | .core g => .next (if inTurn (s.core g).posted n then s.applyCore g n else s)
  | .hearth h => .next (if inTurn (s.hearth h).posted n then s.applyHearth h n else s)
  | .routine e => .next (s.applyRoutine e)

end Sys2Proof.Machine
end

