-- ==== Sys2Proof/Machine/Proofer.lean ====
section
/-! DEFINITION. The proofer of a cluster: starting and retiring its commands (R83, R241-R243). -/

namespace Sys2Proof.Machine

/-! ### The command block (R241) -/

/-- PRED. -/
def PCmd.pred (p : PCmd) : Nat := bf p.block 456 56
/-- INPUT. -/
def PCmd.input (p : PCmd) : Nat := bf p.block 392 56
/-- GATE. -/
def PCmd.gate (p : PCmd) : Nat := bf p.block 328 56
/-- PTB. -/
def PCmd.ptb (p : PCmd) : Nat := bf p.block 264 56
/-- Tokens, NTOK + 1. -/
def PCmd.tokens (p : PCmd) : Nat := bf p.block 240 16 + 1
/-- Lines of a row, HL + 1. -/
def PCmd.rowLines (p : PCmd) : Nat := bf p.block 232 8 + 1
/-- LAYER. -/
def PCmd.layer (p : PCmd) : Nat := bf p.block 8 6

/-- The alignments of its addresses: the first that fails. -/
def PCmd.alignErr (p : PCmd) : Option Exc :=
  firstFault (fun a => some (align a))
    (([(p.pred, 32), (p.input, 256), (p.gate, 256), (p.ptb, 256)].filter fun x => !(x.1 % x.2 == 0)).map fun x => w64 x.1)

/-- Its reserved bits are zero. -/
def PCmd.fieldsOk (p : PCmd) : Bool :=
  bf p.block 448 8 == 0 && bf p.block 384 8 == 0 && bf p.block 320 8 == 0 && bf p.block 256 8 == 0
    && bf p.block 14 218 == 0 && bf p.block 0 4 == 0

/-- Where the proofer of cluster c reaches an address of shared memory or device memory (R241, R298). -/
def State.proofReach (s : State) (c part : Nat) (n : Need) (a : Nat) : Except Exc Nat :=
  if inShared a 1 then (if s.ownsSlice part (a - 2 ^ 32) then .ok (sharedKey (a - 2 ^ 32)) else .error (access (w64 a)))
  else if inDevice a then s.translate (s.cluster c).tlb part a n true
  else .error (access (w64 a))

/-- The first place of a range, line by line, that the proofer cannot reach. -/
def State.proofErr (s : State) (c part : Nat) (n : Need) (base count step : Nat) : Option Exc :=
  firstFault (fun a => excOf (s.proofReach c part n a.toNat)) ((List.range count).map fun i => w64 (base + step * i))

/-- The checks of a command when it starts, up to the layer header. -/
def State.proofStartErr (s : State) (c : Nat) (p : PCmd) : Option Exc :=
  orElse p.alignErr <| orElse (limit p.fieldsOk) <|
    orElse (s.proofErr c p.part { w := true } p.pred p.tokens 32) <|
      orElse (s.proofErr c p.part { rd := true } p.input (p.tokens * p.rowLines) 256) <|
        orElse (s.proofErr c p.part { rd := true } p.gate p.rowLines 256) <|
          if s.sharedOk p.part p.ptb ptSize then none else some (access (w64 p.ptb))

/-! ### Scores and ranks (R242) -/

/-- The two blocks of each RN4 line of a row; none when a line is poisoned or in error. -/
def State.rowBlocks (s : State) (c part base : Nat) : Nat → Nat → Except Exc (Option (List Block))
  | _, 0 => .ok (some [])
  | i, n + 1 =>
    let a := base + 256 * i
    match s.proofReach c part { rd := true } a with
    | .error e => .error e
    | .ok k =>
      match s.operandLine (some 2) k 256 (w64 a) with
      | .error e => .error e
      | .ok bad =>
        match State.rowBlocks s c part base (i + 1) n with
        | .error e => .error e
        | .ok none => .ok none
        | .ok (some bs) => .ok (if bad then none else some ((s.block 1 k 2 0 0).1 :: (s.block 1 k 2 0 1).1 :: bs))

/-- The canonical sum of the chunks of two rows (R37, R43). -/
def rowScore (as bs : List Block) : W32 :=
  canonicalSum ((as.zip bs).map fun x => residueChunk x.1.ints x.2.ints x.1.scale x.2.scale)

/-- The score of expert e for token t; none for a NaN. -/
def State.proofScore (s : State) (c : Nat) (p : PCmd) (e t : Nat) : Except Exc (Option W32) :=
  match s.rowBlocks c p.part (p.gate + e * p.rowLines * 256) 0 p.rowLines with
  | .error x => .error x
  | .ok g =>
    match s.rowBlocks c p.part (p.input + t * p.rowLines * 256) 0 p.rowLines with
    | .error x => .error x
    | .ok i =>
      match g, i with
      | some g, some i => let v := rowScore g i; .ok (if (ofBits v.toNat).isNan then none else some v)
      | _, _ => .ok none

/-- The experts with a score, in ascending order. -/
def State.proofScores (s : State) (c : Nat) (p : PCmd) (t : Nat) : List Nat → Except Exc (List (Nat × W32))
  | [] => .ok []
  | e :: es =>
    match s.proofScore c p e t with
    | .error x => .error x
    | .ok v =>
      match State.proofScores s c p t es with
      | .error x => .error x
      | .ok xs => .ok (match v with | some v => (e, v) :: xs | none => xs)

/-- Inserts an expert by descending score: behind those of its own score that stand there already. -/
def insertScore (x : Nat × W32) : List (Nat × W32) → List (Nat × W32)
  | [] => [x]
  | y :: ys => if (ofBits y.2.toNat).lt (ofBits x.2.toNat) then x :: y :: ys else y :: insertScore x ys

/-- Descending score, ties to the lower expert. -/
def ranked (xs : List (Nat × W32)) : List Nat := (xs.foldl (fun l x => insertScore x l) []).map (·.1)

/-- The entry of a predicted expert: LOW where its confidence is below THR. -/
def State.predEntry (s : State) (p : PCmd) (head e : Nat) : Except Exc Nat :=
  let a := ptEntry p.ptb p.layer e
  match s.engineErrAt a 4 with
  | some x => .error x
  | none => .ok (e + (if fld (s.shRd a 4) 24 8 < fld head 40 8 then 2 ^ 15 else 0))

/-- The entries of ranked experts. -/
def State.predEntries (s : State) (p : PCmd) (head : Nat) : List Nat → Except Exc (List Nat)
  | [] => .ok []
  | e :: es =>
    match s.predEntry p head e with
    | .error x => .error x
    | .ok v =>
      match State.predEntries s p head es with
      | .error x => .error x
      | .ok vs => .ok (v :: vs)

/-- A prediction row's 32 bytes: sixteen entries, 0xFFFF past the end. -/
def predRow (es : List Nat) : Nat := ((List.range 16).map fun j => ((es[j]?).getD 0xFFFF) * 2 ^ (16 * j)).sum

/-- The lines that the proofer has read from an address, count of them: an error of one is consumed (R311). -/
def State.consumeRows (s : State) (c part base count : Nat) : State :=
  (List.range count).foldl (fun s i =>
    match s.proofReach c part { rd := true } (base + 256 * i) with
    | .ok k => if s.badIn k 256 then s.consume k else s
    | .error _ => s) s

/-- One token's row; the gate's lines count as read with the first. -/
def proofRow (c : Nat) (p : PCmd) (head : Nat) (t : Nat) (s : State) : Ran :=
  .with s (s.proofScores c p t (List.range (fld head 20 13))) fun xs =>
    let s := if t = 0 then s.consumeRows c p.part p.gate (fld head 20 13 * p.rowLines) else s
    let s := s.consumeRows c p.part (p.input + t * p.rowLines * 256) p.rowLines
    .with s (s.predEntries p head ((ranked xs).take (min 16 (fld head 36 4 + fld head 33 3)))) fun es =>
      .with s (s.proofReach c p.part { w := true } (p.pred + 32 * t)) fun k => { s := s.store k 32 (predRow es) }

/-- A command from its checks to its last row. -/
def runProof (c : Nat) (p : PCmd) (s : State) : Ran :=
  match s.proofStartErr c p with
  | some e => { s := s, err := some e }
  | none =>
    .with s (s.engineHeader p.ptb p.layer) fun head =>
      match s.proofErr c p.part { rd := true } p.gate (fld head 20 13 * p.rowLines) 256 with
      | some e => { s := s, err := some e }
      | none => Ran.each (proofRow c p head) (List.range p.tokens) s

/-! ### The meanings -/

/-- A fault of a command (R243): the issuing node stops, or the proofer node halts. -/
def State.proofFault (s : State) (p : PCmd) (e : Exc) : State :=
  match p.core, p.entry with
  | some g, _ => s.imprecise g 6 0 p.pc e
  | none, some n =>
    match s.entry n with
    | some x =>
      let (code, a) := e.codeAddr
      ((s.traced e).setEntry n { x with phase := .halted, valid := false }).entryRecord n x
        { code := code, unit := 6, addr := a.toNat, caddr := p.pc.toNat, detail := e.more }
    | none => s
  | none, none => s

/-- proofer command start: the next of the queue, in arrival order. What it reaches lies on this device (R241), so no port
holds a request of it. -/
def execProoferCommandStart (c : Nat) (s : State) : Host.Outcome State Fault Refusal :=
  let x := s.cluster c
  match x.running, x.proofs with
  | none, p :: ps =>
    let r := runProof c p ({ s with asked := none }.setCluster c { x with proofs := ps })
    match r.err with
    | some e => .next (r.s.proofFault p e)
    | none => .next (r.s.setCluster c { r.s.cluster c with running := some p })
  | _, _ => .next s

/-- The command of a proofer node has ended: its work is done, or, its budget having ended meanwhile, the node is halted
(R141). -/
def State.proofEnd (s : State) (n : Nat) : State :=
  match s.entry n with
  | none => s
  | some e =>
    if e.overrun then (s.setEntry n { e with phase := .halted, valid := false, overrun := false }).budgetRecord n e true
    else s.setEntry n { e with next := e.total }

/-- proofer command retirement: the signal of `sig`, or the end of the node's work. -/
def execProoferCommandRetire (c : Nat) (s : State) : Host.Outcome State Fault Refusal :=
  match (s.cluster c).running with
  | none => .next s
  | some p =>
    let s := s.setCluster c { s.cluster c with running := none }
    match p.core, p.entry with
    | some g, _ =>
      .next (match p.sig with | some k => s.semAddTo (.proof g p.tag) g k 1 false | none => s)
    | none, some n => .next (s.proofEnd n)
    | none, none => .next s

end Sys2Proof.Machine
end

