-- ==== Sys2Proof/Machine/Placing.lean ====
section
/-! DEFINITION. The dispatcher's decisions: dispatch on every target, reserving, preload and the budget (R14, R15, R17,
R65, R136-R144, R241). -/

namespace Sys2Proof.Machine

/-! ### What is free (R138, R142, R144, R338) -/

/-- A core can take entry n: no running node, pending save, unfinished command or posted operation holds it, it
executes no stolen command, and no other node is preloaded there. A sibling that has taken a command which has not started is
held back too, where R144 speaks of one that executes it: the model's choice (log 97). -/
def State.coreFree (s : State) (n g : Nat) : Bool :=
  let c := s.core g
  let x := s.cluster (cidOf g)
  (match c.ctx with
    | some y => match s.entry y.entry with
      | some e => !(e.cores.contains g && (e.phase == .running || !e.preempt.isEmpty))
      | none => true
    | none => true)
    && c.commands.isEmpty && c.posted.isEmpty && c.freeze.isNone && c.steal.isNone
    && (match c.preload with | some (_, m) => m == n | none => true)
    && !((x.running.toList ++ x.proofs).any fun p => p.core == some g)

/-- A cluster whose island runs or idles, with all its core groups started. -/
def State.clusterUp (s : State) (c : Nat) : Bool :=
  let x := s.island (islandOf c)
  (x.state == 1 || x.state == 2) && decide (8 ≤ x.groups)

/-- The clusters an entry may be placed on, lowest CID first. -/
def State.clustersFor (s : State) (e : Entry) : List Nat :=
  (List.range numClusters).filter fun c => s.owns e.part c && s.stageOf c == recStg e.record && s.clusterUp c

/-- Barrier counters of a cluster that are bound to no node. -/
def State.freeBars (s : State) (c : Nat) : List Nat :=
  (List.range 16).filter fun b => ((s.cluster c).bars.get (idx 16 b)).bound.isNone

/-- The cores and counters for a gang in one cluster. -/
def State.placeIn (s : State) (n : Nat) (e : Entry) (nbar c : Nat) : Option (List Nat × List Nat) :=
  let gs := if e.preloads.isEmpty
    then ((List.range 128).map (128 * c + ·)).filter (s.coreFree n)
    else e.preloads.filter fun g => cidOf g == c && s.coreFree n g
  if e.gsz ≤ gs.length ∧ nbar ≤ (s.freeBars c).length then some (gs.take e.gsz, (s.freeBars c).take nbar) else none

/-- The placement of a gang: the lowest cluster that has room. -/
def State.placeGang (s : State) (n : Nat) (e : Entry) (nbar : Nat) : Option (List Nat × List Nat) :=
  (s.clustersFor e).findSome? (s.placeIn n e nbar)

/-- The proofer of a cluster is idle. -/
def State.prooferIdle (s : State) (c : Nat) : Bool := (s.cluster c).running.isNone && (s.cluster c).proofs.isEmpty

/-- An idle island that a placement names returns to RUN (R337). -/
def State.wake (s : State) (i : Nat) : State :=
  if (s.island i).state = 1 then s.setIsland i (s.island i).woken else s

/-! ### Priority (R138, R139) -/

/-- Effective priority. -/
def Entry.effective (e : Entry) : Nat := min 3 (recPrio e.record + e.waited / 2 ^ 16)
/-- Taken before another: the higher effective priority, then the earlier to become ready. -/
def Entry.before (a b : Entry) : Bool :=
  decide (b.effective < a.effective) || (a.effective == b.effective && decide (a.readyAt < b.readyAt))

/-- Inserts a candidate in order. -/
def insertEntry (x : Nat × Entry) : List (Nat × Entry) → List (Nat × Entry)
  | [] => [x]
  | y :: ys => if x.2.before y.2 then x :: y :: ys else y :: insertEntry x ys

/-- The ready entries of a partition, first to be taken first. -/
def State.candidates (s : State) (p : Nat) : List (Nat × Entry) :=
  (s.disp.pool.filter fun x => x.2.part == p && (x.2.phase == .ready || x.2.phase == .preloaded)
    && !(x.2.kind == .placeholder) && !(x.2.kind == .corr)).foldl (fun l x => insertEntry x l) []

/-- Another entry reserves the cores, or the proofers, that this one would take. A preloaded entry has its cores, which the
reserving one cannot use. -/
def State.reservedBy (s : State) (n : Nat) (e : Entry) : Bool :=
  e.preloads.isEmpty && s.disp.pool.any fun x => !(x.1 == n) && x.2.reserving && x.2.phase == .ready && x.2.part == e.part
    && recStg x.2.record == recStg e.record && x.2.tgt == e.tgt

/-- One decision more: every other ready entry has waited it (R17, R138). -/
def State.decided (s : State) (n p : Nat) : State :=
  { s with disp := { s.disp with
    count := s.disp.count + 1, turn := (p + 1) % numParts
    pool := s.disp.pool.map fun x =>
      if x.1 ≠ n ∧ (x.2.phase = .ready ∨ x.2.phase = .preloaded) then (x.1, { x.2 with waited := x.2.waited + 1 }) else x } }

/-! ### Weight sets (R65, R137) -/

/-- The slot an entry is bound to when it is dispatched. -/
def State.bindingOf (s : State) (e : Entry) : Option Nat :=
  if e.ws.isSome then e.ws
  else if e.isTile then some e.wsField
  else if bf e.record 4 1 = 1 then (List.range 8).find? fun i => ((s.part e.part).wsAt i).state = .current
  else e.inherit.map (·.1)

/-- Counts an entry in its slot, once. An inherited binding whose slot has meanwhile become FREE or BUILDING still binds
and is counted there, the model's choice (log 94). -/
def State.bindEntry (s : State) (e : Entry) : State × Option Nat :=
  let w := s.bindingOf e
  match e.ws, w with
  | none, some k => (s.bindWs e.part k true, w)
  | _, _ => (s, w)

/-- A tile's WS is FREE or BUILDING. -/
def State.tileWsRefused (s : State) (e : Entry) : Bool :=
  e.isTile && (match ((s.part e.part).wsAt e.wsField).state with | .free => true | .building => true | _ => false)

/-! ### Preload marks (R143) -/

/-- The ranges, as address and bytes, that entries which meet a test declare in memory, or in the core's scratchpad. -/
def declared (ops : List Nat) (f : Nat → Bool) : List (Nat × Nat) :=
  ((ops.filter f).map fun v => (oAddr v, 256 * oLines v))
    ++ ((ops.filter fun v => f v && oLoad v).map fun v => (256 * oDoff v, 256 * oLines v))

/-- The ranges that a mark keeps: the image, where it was copied from and to, and the declared reads. -/
def markRanges (d : Nat) (ops : List Nat) : List (Nat × Nat) :=
  ((256 * kImgOff d, 256 * kImgLen d) :: (kImgSrc d, 256 * kImgLen d) :: declared ops oRead).filter fun r => !(r.2 == 0)

/-- Where an address that a node on core g declares lies: the core's scratchpad, one of its cluster's through the window
(R52), or memory, by the partition's address. -/
def placeOf (g part a : Nat) : Nat :=
  if a < 2 ^ 20 then spadKey g a
  else if 0x1000000 ≤ a ∧ a < 0x9000000 then spadKey (cidOf g * 128 + (a - 0x1000000) / 2 ^ 20) ((a - 0x1000000) % 2 ^ 20)
  else 2 ^ 60 * (part + 1) + a

/-- A dispatch on cores gs clears a mark on core g: it writes one of the mark's ranges, or, on g, is not confined to the
other half. -/
def Mark.clearedBy (m : Mark) (g half d : Nat) (gs : List Nat) (part : Nat) (writes : List (Nat × Nat)) : Bool :=
  (gs.contains g && !(kConfine d && kHalf d == 1 - half))
    || m.ranges.any fun r => gs.any fun k => writes.any fun w =>
      meet (placeOf g m.part r.1) r.2 (placeOf k part w.1) w.2

/-- The marks of every core after a dispatch on cores `gs`. -/
def State.clearMarks (s : State) (gs : List Nat) (d part : Nat) (writes : List (Nat × Nat)) : State :=
  { s with cores := s.cores.map fun c =>
    (c.1, { c.2 with marks := c.2.marks.filter fun m => !m.2.clearedBy c.1 m.1 d gs part writes }) }

/-- A core's copies already stand: the node is preloaded there, or its kept mark is. -/
def State.marked1 (s : State) (n : Nat) (e : Entry) (g : Nat) : Bool := (s.core g).marks.any fun m => m.2.isOf n e

/-- The copies still to make into core g: none after a preload; what a mark does not keep, after a kept mark. Where the mark
has been cleared all are made, of a preloaded node too: what the node sees is the same as after a fresh copy (R143). -/
def State.loadsFor (s : State) (n : Nat) (e : Entry) (d : Nat) (ops : List Nat) (g : Nat) : List Load :=
  if !s.marked1 n e g then loadsOf d ops
  else if e.preloads.isEmpty then unkeptLoads ops
  else []

/-- The copies into each core of a gang. -/
def State.loadCores (s : State) (n : Nat) (e : Entry) (d : Nat) (ops : List Nat) : List Nat → Except Exc State
  | [] => .ok s
  | g :: gs =>
    match s.loadAll n e.part g (s.loadsFor n e d ops g) with
    | .error x => .error x
    | .ok t => t.loadCores n e d ops gs

/-- The mark of an entry is consumed on its cores. -/
def State.consumeMarks (s : State) (n : Nat) (e : Entry) (gs : List Nat) : State :=
  gs.foldl (fun s g => s.setCore g { s.core g with
    preload := none, marks := (s.core g).marks.filter fun m => !m.2.isOf n e }) s

/-! ### Dispatch of a gang (R14, R15, R62) -/

/-- A node that fails to start is halted with a record about the core chosen for rank 0 (R261, R263, R264, R344). -/
def State.refuseStart (s : State) (n : Nat) (e : Entry) (gs : List Nat) (x : Exc) : State :=
  ((s.traced x).setEntry n { e with phase := .halted, valid := false, reserving := false, preloads := [] }).entryRecord n
    { e with cores := gs } { code := x.codeAddr.1, unit := 8, addr := x.codeAddr.2.toNat, detail := x.more }

/-- What a core of the gang is told of its node. -/
def Entry.context (e : Entry) (n d rank : Nat) (bars : List (Nat × Nat)) (ws : Option Nat) : Ctx :=
  { part := e.part, entry := n, graph := e.graph, tile := e.isTile, grk := rank, gsz := e.gsz, nid := e.nidValue
    stg := recStg e.record, lat := kLat d, strict := kStrict d || (!e.isTile && bf e.record 5 1 == 1)
    confine := if kConfine d then some (kHalf d == 1) else none, reloc := !e.isTile && bf e.record 6 1 == 1
    bars := bars, ws := ws }

/-- Binds counters to entry n (R62). -/
def State.bindBars (s : State) (n c : Nat) (bars : List (Nat × Nat)) : State :=
  bars.foldl (fun s b =>
    let x := s.cluster c
    s.setCluster c { x with bars := x.bars.set (idx 16 b.1).val { bound := some n, p := b.2 } (idx 16 b.1).isLt }) s

/-- What a decision on an entry comes to: it is not placed; a port holds a read for it (R329); it is started, or refused
with a record. -/
inductive Placed where
  | no
  | held (r : Request)
  | yes (s : State)

/-- Starts a gang whose copies stand: its cores begin at their entry points, after what released the node (R76). -/
def State.begin_ (s : State) (n : Nat) (e : Entry) (d : Nat) (ops gs bs : List Nat) : State :=
  let c := cidOf (gs.headD 0)
  let bars := bs.zip ((List.range bs.length).map fun i => kBar d i)
  let (s, ws) := (s.forget gs).bindEntry e
  let s := s.bindBars n c bars
  let s := ((List.range gs.length).zip gs).foldl (fun s x =>
    s.setCore x.2 ((s.core x.2).fresh d (e.context n d x.1 bars ws) (w64 e.opnd) e.post)) s
  (s.acquireCores gs (.node n)).setEntry n { e with
    phase := .running, reserving := false, cores := gs, cluster := c, bars := bars, ws := ws, preloads := []
    wait0 := e.waited, ops := ops, used := 0, limit := e.budget * 1024, stopped := false, overrun := false }

/-- A tile that a WS refuses (R137, R344). -/
def State.refuseWs (s : State) (n : Nat) (e : Entry) (gs : List Nat) : State :=
  (s.setEntry n { e with phase := .halted, valid := false, reserving := false, preloads := [] }).entryRecord n
    { e with cores := gs } { code := 5, unit := 8, addr := e.post.toNat, detail := e.wsField }

/-- The operand list of an entry; a run tile's OPND is its correction list (R137, R263). -/
def State.operandsOf (s : State) (e : Entry) (d : Nat) : Except Exc (List Nat) :=
  if e.kind = .runTile then .ok [] else s.operands e.part d e.opnd

/-- A fresh dispatch of a gang on its place; none while a port holds one of its reads (R329). -/
def State.startOn (s : State) (n : Nat) (e : Entry) (d : Nat) (gs bs : List Nat) : Placed :=
  let s := s.wake (islandOf (cidOf (gs.headD 0)))
  let drop (s : State) : State := s.dropPreloads e.preloads
  if s.tileWsRefused e then .yes ((drop s).refuseWs n e gs)
  else
    match s.operandsOf e d with
    | .error (.hold r) => .held r
    | .error x => .yes ((drop s).refuseStart n e gs x)
    | .ok ops =>
      match s.loadCores n e d ops gs with
      | .error (.hold r) => .held r
      | .error x => .yes ((drop s).refuseStart n e gs x)
      | .ok t =>
        let t := (t.consumeMarks n e gs).clearMarks gs d e.part (declared ops oWrite)
        .yes (t.begin_ n e d ops gs bs)

/-- A resumed dispatch (R294): a save that no longer passes is not resumed; a ring that breaks R57 raises RING. The restored
scratchpads leave no mark on its cores, and the writes that its operand list declared clear the others' (R143, R262). -/
def State.resumeOn (s : State) (n : Nat) (e : Entry) (gs bs : List Nat) : State :=
  let s := s.wake (islandOf (cidOf (gs.headD 0)))
  let fail (code unit idx : Nat) : State :=
    (s.setEntry n { e with phase := .halted, valid := false, resume := false, reserving := false }).entryRecord n
      { e with cores := gs } { code := code, unit := unit, index := idx }
  if !s.saveOk n e then fail 6 8 0
  else
    match s.badRing e gs with
    | some x => fail 7 7 x.1
    | none =>
      let s := (s.forget gs).clearMarks gs 0 e.part (declared e.ops oWrite)
      (s.restoreGang n { e with reserving := false } gs bs).acquireCores gs (.node n)

/-- A dispatch of a gang. -/
def State.startGang (s : State) (n : Nat) (e : Entry) : Placed :=
  if !e.saves.isEmpty then
    match s.placeGang n e e.bars.length with
    | some (gs, bs) => .yes (s.resumeOn n e gs bs)
    | none => .no
  else
    match s.kernel e.part e.kern with
    | .error (.hold r) => .held r
    | .error x =>
      match s.placeGang n e 0 with
      | some (gs, _) => .yes ((s.dropPreloads e.preloads).refuseStart n e gs x)
      | none => .no
    | .ok d =>
      match s.placeGang n e (kNbar d) with
      | some (gs, bs) => s.startOn n e d gs bs
      | none => .no

/-! ### The other targets (R138, R136, R241) -/

/-- A proofer node: its block joins the queue of an idle proofer. -/
def State.startProofer (s : State) (n : Nat) (e : Entry) : Placed :=
  match (s.clustersFor e).find? s.prooferIdle with
  | none => .no
  | some c =>
    let e := { e with cluster := c }
    match s.dispRead e.part e.kern 64 with
    | .error (.hold r) => .held r
    | .error x => .yes (s.refuseStart n e [] (x.at_ fun _ d => (w64 e.kern, d)))
    | .ok (v, s) =>
      let s := s.wake (islandOf c)
      let p : PCmd := { pc := w64 e.kern, core := none, entry := some n, part := e.part, block := BitVec.ofNat 512 v }
      let (s, ws) := s.bindEntry e
      let s := s.setCluster c { s.cluster c with proofs := (s.cluster c).proofs ++ [p] }
      .yes (s.setEntry n { e with
        phase := .running, reserving := false, next := 0, total := 1, overrun := false, ws := ws, used := 0, limit := e.budget * 1024 })

/-- A bank-unit routine: its header is read; the operations are issued one by one. The record of a header that cannot be read
or breaks its limits, which concerns no entry, has the list's own address as CADDR, the model's choice (log 97). -/
def State.startRoutine (s : State) (n : Nat) (e : Entry) : Placed :=
  match s.dispRead e.part e.kern 32 with
  | .error (.hold r) => .held r
  | .error x => .yes (s.routineFail n e e.kern x)
  | .ok (v, s) =>
    if fld v 13 243 ≠ 0 ∨ fld v 0 13 = 0 ∨ 4096 < fld v 0 13 then .yes (s.routineFail n e e.kern (format 0))
    else
      let (s, ws) := s.bindEntry e
      .yes (s.setEntry n { e with
        phase := .running, reserving := false, next := 0, total := fld v 0 13, ws := ws, used := 0, limit := e.budget * 1024 })

/-- A dispatch of an entry on its target. -/
def State.start (s : State) (n : Nat) (e : Entry) : Placed :=
  if s.reservedBy n e then .no
  else
    match e.tgt with
    | 0 => s.startGang n e
    | 1 => s.startProofer n e
    | _ => s.startRoutine n e

/-- The partitions in turn. -/
def State.turns (s : State) : List Nat :=
  ((List.range numParts).map fun i => (s.disp.turn + i) % numParts).filter fun p => (s.part p).pstate == 2

/-- Whether f can make a decision on one of a partition's entries, in order, and the state after it; an entry that a port
holds a read for keeps the request (R329). -/
def decideIn (f : State → Nat → Entry → Placed) (p : Nat) (s : State) : List (Nat × Entry) → Bool × State
  | [] => (false, s)
  | (n, e) :: xs =>
    match f { s with asked := e.held } n { e with held := none } with
    | .no => decideIn f p s xs
    | .held r => decideIn f p (s.setEntry n { e with held := some r }) xs
    | .yes t => (true, ({ t with asked := none }).decided n p)

/-- The first decision that f can make, the partitions in turn. -/
def decideOver (f : State → Nat → Entry → Placed) (s : State) : List Nat → State
  | [] => s
  | p :: ps =>
    match decideIn f p s (s.candidates p) with
    | (true, t) => t
    | (false, t) => decideOver f t ps

/-- dispatch. -/
def execDispatch (s : State) : Host.Outcome State Fault Refusal := .next (decideOver State.start s s.turns)

/-- reserving: the earliest entry of a stage at effective priority 3 that has waited 2^18 decisions. -/
def execReserving (stage : Nat) (s : State) : Host.Outcome State Fault Refusal :=
  let here (x : Nat × Entry) : Bool :=
    x.2.phase == .ready && recStg x.2.record == stage && decide (x.2.tgt ≤ 1) && !(x.2.kind == .placeholder) && !(x.2.kind == .corr)
  let can (x : Nat × Entry) : Bool := here x && x.2.effective == 3 && decide (2 ^ 18 ≤ x.2.waited)
  if s.disp.pool.any fun x => here x && x.2.reserving then .next s
  else
    let first := (s.disp.pool.filter can).foldl (fun (b : Option (Nat × Entry)) x =>
      match b with
      | none => some x
      | some y => if y.2.waited < x.2.waited ∨ (y.2.waited = x.2.waited ∧ x.2.readyAt < y.2.readyAt) then some x else b) none
    match first with
    | some (n, e) => .next (s.setEntry n { e with reserving := true })
    | none => .next s

/-! ### Preload (R142) -/

/-- A core runs a node confined to the other half, holds no preload, and may be preloaded in `half`. -/
def State.preloadable (s : State) (half g : Nat) : Bool :=
  let c := s.core g
  c.preload.isNone && (match c.ctx with
    | some x => x.confine == some (half == 0) && (match s.entry x.entry with
      | some e => e.phase == .running && !e.overrun && e.preempt.isEmpty
      | none => false)
    | none => false)

/-- The ranges that a node declares in core g's own scratchpad through its window (R50) lie in a half. -/
def windowIn (half g : Nat) (ops : List Nat) : Bool :=
  let lo := 0x1000000 + corOf g * 2 ^ 20
  ops.all fun v => !meet (oAddr v) (256 * oLines v) lo (2 ^ 20)
    || (decide (lo + 2 ^ 19 * half ≤ oAddr v) && decide (oAddr v + 256 * oLines v ≤ lo + 2 ^ 19 * (half + 1)))

/-- Every range of its own scratchpad that a node declares by local addresses lies in a half. -/
def rangesIn (half d : Nat) (ops : List Nat) : Bool :=
  (kImgLen d == 0 || inHalf half (kImgOff d) (kImgLen d)) && (!kConfine d || kHalf d == half)
    && ops.all fun v => (!oLoad v || inHalf half (oDoff v) (oLines v))
      && (decide (2 ^ 20 ≤ oAddr v) || inHalf half (oAddr v / 256) (oLines v))

/-- Preloads a ready gang into a half of cores of cluster c; none where it cannot. A preload posts no fault. -/
def State.preloadIn (s : State) (c half n : Nat) (e : Entry) (d : Nat) (ops : List Nat) : Placed :=
  let gs := (((List.range 128).map (128 * c + ·)).filter fun g => s.preloadable half g && windowIn half g ops).take e.gsz
  if rangesIn half d ops = false ∨ gs.length < e.gsz then .no
  else
    match s.loadGang n e.part (loadsOf d ops) gs with
    | .error _ => .no
    | .ok t =>
      let m : Mark := { part := e.part, graph := e.graph, nid := e.markId n, ranges := markRanges d ops }
      let t := gs.foldl (fun s g => s.setCore g { s.core g with
        preload := some (half == 1, n), marks := (s.core g).marks.set half m }) t
      .yes (t.setEntry n { e with phase := .preloaded, preloads := gs })

/-- A preload of an entry in cluster c. -/
def State.preloadOn (c : Nat) (s : State) (n : Nat) (e : Entry) : Placed :=
  if e.tgt ≠ 0 ∨ e.phase ≠ .ready ∨ e.saves ≠ [] ∨ e.reserving = true ∨ s.reservedBy n e = true
      ∨ (s.clustersFor e).contains c = false ∨ s.tileWsRefused e = true then .no
  else
    match s.kernel e.part e.kern with
    | .error _ => .no
    | .ok d =>
      match s.operandsOf e d with
      | .error _ => .no
      | .ok ops => match s.preloadIn c 0 n e d ops with
        | .yes t => .yes t
        | _ => s.preloadIn c 1 n e d ops

/-- preload. -/
def execPreload (c : Nat) (s : State) : Host.Outcome State Fault Refusal := .next (decideOver (State.preloadOn c) s s.turns)

/-! ### Budgets (R141, R293, R295) -/

/-- The budget of an entry that runs has ended, and it has not finished its work. -/
def State.overBudget (s : State) (e : Entry) : Bool :=
  e.phase == .running && !(e.kind == .corr) && decide (e.limit ≤ e.used) && !s.finished e && e.preempt.isEmpty && !e.overrun

/-- The command of a proofer node runs. -/
def State.proofRuns (s : State) (n : Nat) (e : Entry) : Bool :=
  match (s.cluster e.cluster).running with
  | some p => p.entry == some n
  | none => false

/-- budget: a gang is saved by the peel, or halted unsaved when no slots are free; a proofer node or a routine is
halted, after the command in progress, and no further operation of it starts. -/
def execBudget (entry : Nat) (s : State) : Host.Outcome State Fault Refusal :=
  match s.entry entry with
  | none => .next s
  | some e =>
    if s.overBudget e = false then .next s
    else if e.tgt = 0 then
      .next (if s.slotsFor e then s.setEntry entry { e with overrun := true } else s.haltUnsaved entry e)
    else if e.tgt = 1 ∧ s.proofRuns entry e = true then .next (s.setEntry entry { e with overrun := true })
    else
      let t : State := { s with clusters := s.clusters.map fun c =>
        (c.1, { c.2 with proofs := c.2.proofs.filter fun p => !(p.entry == some entry) }) }
      .next ((t.setEntry entry { e with phase := .halted, valid := false }).budgetRecord entry e true)

end Sys2Proof.Machine
end

