-- ==== Sys2Proof/Machine/Power.lean ====
section
/-! DEFINITION. Islands (R336-R338), the eviction signal (R330), buckets and errors that arise (R311, R314, R323-R325),
and the aging of link requests (R318). -/

namespace Sys2Proof.Machine

/-! ### Eviction (R330) -/

/-- EVC late: at 30,000 ms with UNL still 0. -/
def execEvcLate (s : State) : Host.Outcome State Fault Refusal := .next s.evcLate

/-- The signal rises: UNL is set and all conditions hold. -/
def execUnlatchRaise (s : State) : Host.Outcome State Fault Refusal :=
  .next (if s.mayUnlatch then s.settleSignal else s)

/-- The signal drops: a condition fails, and UNL reads 0. -/
def execUnlatchDrop (s : State) : Host.Outcome State Fault Refusal :=
  .next (if s.mayUnlatch then s else s.settleSignal)

/-! ### Islands (R337, R338) -/

/-- The order in which islands start. -/
def bootOrder : List Nat :=
  [28, 31, 29, 30] ++ (List.range 4).flatMap (fun d => [7 * d + 6, 7 * d + 4, 7 * d + 5]) ++ (List.range 16).map islandOf

/-- The cluster on an island, if it holds one. -/
def clusterOn (i : Nat) : Option Nat := if i < 28 ∧ i % 7 < 4 then some (4 * (i / 7) + i % 7) else none

/-- The island waits to start; a left-out cluster's stays OFF. -/
def State.waitsToStart (s : State) (i : Nat) : Bool :=
  let x := s.island i
  x.state == 0 && !(x.target == 0) && (match clusterOn i with | some c => !s.leftOut c | none => true)

/-- When the last island started. -/
def State.lastStart (s : State) : Nat := ((List.range 32).map fun i => (s.island i).at_).foldl max 0

/-- Shared memory of a die reads zero with FMT 0x00, and its creels are unconfigured. -/
def State.clearDie (s : State) (d : Nat) : State :=
  let lo := sharedKey (d * 2 ^ 27)
  let hi := sharedKey ((d + 1) * 2 ^ 27)
  { s with
    mem := Mem.clearRange s.mem lo hi
    side := s.side.filter fun e => !(decide (lo / 256 ≤ e.1) && decide (e.1 < hi / 256))
    bad := s.bad.filter fun w => !(decide (lo / 8 ≤ w) && decide (w < hi / 8))
    creels := s.creels.filter fun e => !(decide (creelSlice e.1 / 8 = d)) }

/-- What the return from OFF loses (R337). -/
def State.loseOff (s : State) (i : Nat) : State :=
  match clusterOn i with
  | some c =>
    let s := s.clearCluster c
    (List.range 128).foldl (fun s k =>
      let g := 128 * c + k
      if (s.core g).marks.isEmpty then s else s.setCore g { s.core g with marks := [] }) s
  | none =>
    if i < 28 ∧ i % 7 = 4 then s.clearDie (i / 7)
    else if i = 30 then
      (List.range 16).foldl (fun s n => s.onPort n fun x => { x with state := 1, conf := false, flit := false, drain := false }) s
    else s

/-- An island starts: a cluster's cores follow in groups. -/
def State.startIsland (s : State) (i : Nat) : State :=
  let x := s.island i
  let st := if (clusterOn i).isSome then 3 else x.target
  (s.loseOff i).setIsland i { x with state := st, groups := 0, at_ := s.clock }

/-- island start: the first in boot order that waits, 200 µs after the last. -/
def execIslandStart (s : State) : Host.Outcome State Fault Refusal :=
  match bootOrder.find? s.waitsToStart with
  | some i => .next (if s.lastStart + 160000 ≤ s.clock then s.startIsland i else s)
  | none => .next s

/-- core group start: the eight groups of 16 cores start 10 µs apart; with the last the cluster is in service. -/
def execCoreGroupStart (c : Nat) (s : State) : Host.Outcome State Fault Refusal :=
  let x := s.island (islandOf c)
  .next (if x.state = 3 ∧ x.groups < 8 ∧ x.at_ + 8000 * x.groups ≤ s.clock then
      s.setIsland (islandOf c) { x with groups := x.groups + 1, state := if x.groups = 7 then x.target else 3 }
    else s)

/-- island wake: an IDLE island for which there was an access returns to RUN, within 2 µs. -/
def execIslandWake (island : Nat) (s : State) : Host.Outcome State Fault Refusal :=
  .next (if (s.island island).asked.isSome then s.wake island else s)

/-! ### Buckets and errors (R311, R314, R323-R325) -/

/-- The device has the resource of a bucket (R10, R51, R314); no rule numbers the UCIe links or the lanes. -/
def bucketExists : Bucket → Bool
  | .bank g b => decide (g < numCores) && decide (b < 64)
  | .lane l _ => decide (l < 32)
  | .port p _ => decide (p < 16)
  | .ucie _ _ => true
  | .unit u => decide (u < 2048)
  | .cluster c => decide (c < numClusters)

/-- corrected error: it changes no value and fills its bucket. -/
def execCorrectedError (r : Bucket) (s : State) : Host.Outcome State Fault Refusal :=
  .next (if bucketExists r then s.fill r .corrected else s)

/-- bucket leak: at each 1 ms boundary. -/
def execBucketLeak (s : State) : Host.Outcome State Fault Refusal :=
  .next (if s.leakAt + 800000 ≤ s.clock then
      (s.buckets.map (·.1)).foldl State.leak { s with leakAt := s.leakAt + 800000 }
    else s)

/-- Replaces the register of a memory link. -/
def State.setMls (s : State) (n v : Nat) : State := { s with links := s.links.set n { s.link n with reg := w64 v } }

/-- memory link fail: an UP link becomes FAILED. -/
def execMemoryLinkFail (link : Nat) (s : State) : Host.Outcome State Fault Refusal :=
  let v := (s.link link).reg.toNat
  .next (if fld v 0 2 = 2 then s.setMls link (v + 1) else s)

/-- A memory link that is UP counts a retrain in RETR, and its WIDTH falls to half (R324, R325). -/
def State.retrainLink (s : State) (link : Nat) : State :=
  let v := (s.link link).reg.toNat
  if fld v 0 2 = 2 then
    let v := if fld v 48 16 = 65535 then v else v + 2 ^ 48
    s.setMls link (if fld v 12 4 = 2 then v - 2 ^ 12 else v)
  else s

/-- The bucket of a link's lane. -/
def laneBucket (link : LinkId) (lane : Nat) : Bucket :=
  match link with
  | .memory n => .lane n lane
  | .port p => .port p lane
  | .ucie l => .ucie l lane

/-- lane retrain: of a memory link that is UP, a fabric port or a UCIe link; the lane's bucket fills (R314). -/
def execLaneRetrain (link : LinkId) (lane : Nat) (s : State) : Host.Outcome State Fault Refusal :=
  let b := laneBucket link lane
  .next (match link with
    | .memory n => if bucketExists b && bf (s.link n).reg 0 2 == 2 then (s.retrainLink n).fill b .retrain else s
    | .port _ => if bucketExists b then s.fill b .retrain else s
    | .ucie _ => s.fill b .retrain)

/-- arbitration aging: the order in which a link starts its requests changes no state (R317, R318). -/
def execArbitrationAging (_link : Nat) (s : State) : Host.Outcome State Fault Refusal := .next s

/-- An uncorrectable error becomes pending in a store; it has no effect until something consumes it (R311). -/
def State.errorAt (s : State) : ErrSite → State
  | .line k =>
    if isSpad k || isShared k || isChunk k || (isDev k && decide (k < s.capacity)) then
      { s with bad := if s.bad.contains (k / 8) then s.bad else k / 8 :: s.bad }
    else s
  | .tile g t row =>
    let x := s.tile g t
    s.setTile g t { x with err := if x.err.contains row.val then x.err else row.val :: x.err }
  | .buffer g q => s.setQueue g q { (s.core g).queue q with err := true }
  | .reg (.core g q) r =>
    let c := s.core g
    s.setCore g { c with regErr := if c.regErr.contains (q, r) then c.regErr else (q, r) :: c.regErr }
  | .reg (.hearth h) r =>
    let x := s.hearth h
    s.setHearth h { x with regErr := if x.regErr.contains r then x.regErr else r :: x.regErr }

/-- The site is on this device. -/
def siteExists : ErrSite → Bool
  | .line _ => true
  | .tile g _ _ => decide (g < numCores)
  | .buffer g _ => decide (g < numCores)
  | .reg (.core g _) _ => decide (g < numCores)
  | .reg (.hearth h) _ => decide (h < numHearths)

/-- uncorrectable error: it stays pending until something reads it or a whole-line write replaces it. -/
def execUncorrectableError (site : ErrSite) (s : State) : Host.Outcome State Fault Refusal :=
  .next (if siteExists site then s.errorAt site else s)

end Sys2Proof.Machine
end

