-- ==== Sys2Proof/Machine/Root.lean ====
section
/-! DEFINITION. The root core: power-on, the boot chain with its start record (R331-R335, R342, R343), the debug token
and debug accesses (R339, R340), attestation (R341) and sensors (R342). -/

namespace Sys2Proof.Machine

/-- Changes the root core. -/
def State.onRoot (s : State) (f : Root → Root) : State := { s with root := f s.root }

/-- Extends measurement register i with a digest (R332). -/
def Root.extend (r : Root) (i : Fin 8) (digest : List Byte) : Root :=
  { r with meas := r.meas.set i.val (sha256 (r.meas.get i ++ digest)) i.isLt }

/-- Changes the identity element: its generations move on by 2 if a value changes (R343). -/
def Identity.update (x : Identity) (f : Identity → Identity) : Identity :=
  let y := f x
  if y = x then x else { y with gen := (x.gen + 2) % 2 ^ 32, gen2 := (x.gen + 2) % 2 ^ 32 }

/-- The same, in the machine. -/
def State.identify (s : State) (f : Identity → Identity) : State :=
  s.onRoot fun r => { r with identity := r.identity.update f }

/-! ### Power-on (R331, R332, R334) -/

/-- The machine after a power-on: what is in flash and the identity element stays, the boot ROM measures itself, and a
nonce is issued. `agenda`, `free` and `sent` are the model's own. -/
def State.powerOn (s : State) : State :=
  let r : Root := { boot := s.root.boot, minVer := s.root.minVer, identity := s.root.identity
                    unsealed := Config.unseals s.free, nonce := some (Config.nonce s.free) }
  let t := { State.reset with agenda := s.agenda, free := s.free + 1, sent := s.sent, root := r.extend 0 Config.romDigest }
  if r.unsealed then t else t.send (.pldm [])

/-- power-on. -/
def execPowerOn (s : State) : Host.Outcome State Fault Refusal := .next s.powerOn

/-! ### The configuration record (R333) -/

/-- n bytes of a record from an offset, as a number. -/
def cfgNum (body : List Byte) (off n : Nat) : Nat := ofBytes ((body.drop off).take n)

/-- The limits of a configuration record's body. -/
def configOk (body : List Byte) : Bool :=
  let zero (lo hi : Nat) : Bool := ((body.drop lo).take (hi - lo)).all (· == 0)
  body.length == 4096 && cfgNum body 0 4 == 0x00524643 && zero 8 16 && zero 53 54 && zero 56 64 && zero 104 4096
    && !(cfgNum body 48 2 == 0) && decide (30 ≤ cfgNum body 50 2) && decide (cfgNum body 50 2 ≤ 46)
    && (cfgNum body 52 1 == 1 || cfgNum body 52 1 == 2)
    && (List.range 4).all fun g => !(cfgNum body (64 + 10 * g + 8) 2 == 0)

/-- Applies a record: it raises the least version, and CFGD names it. -/
def State.applyConfig (s : State) (body : List Byte) : State :=
  (s.onRoot fun r => { r with config := body, minVer := max r.minVer (cfgNum body 4 4) }).identify fun x =>
    { x with cfgd := sha256 body }

/-! ### The work of the steps (R335) -/

/-- An optional step. -/
def optionalStep (n : Nat) : Bool := n == 21 || n == 22
/-- A step with an alternate. -/
def hasAlternate (n : Nat) : Bool := !(n == 2) && !optionalStep n

/-- Asks for islands to run. -/
def State.runIslands (s : State) (is : List Nat) : State :=
  is.foldl (fun s i => s.setIsland i { s.island i with target := 2 }) s

/-- A memory link trains at a rate: it has a module, and its channels come up (R323). -/
def linkTrains (rate n : Nat) : Bool :=
  let (m0, m1, ok) := Config.modules n rate
  ok && !(decide (m0 = .none) && decide (m1 = .none))

/-- MLS of a link after training (R323-R325): a link that fails is ABSENT and its partner CARRY; CH has a bit for each
channel with a module, and CAPG is what its modules hold. -/
def trainedLink (rate n : Nat) : Nat :=
  let (m0, m1, _) := Config.modules n rate
  let ch := (!decide (m0 = .none)).toNat + (!decide (m1 = .none)).toNat * 2
  if linkTrains rate n then
    2 + (if linkTrains rate (if n % 2 = 0 then n + 1 else n - 1) then 0 else 2 ^ 8) + ch * 2 ^ 10 + 2 * 2 ^ 12 + rate * 2 ^ 16
      + (m0.gib + m1.gib) * 2 ^ 32
  else 2 * 2 ^ 8

/-- Memory-link training: every link at the record's rate, or as alternate 8,800 MT/s with one link of a pair enough. -/
def State.trainLinks (s : State) (alt : Bool) : Option State :=
  let rate := if alt then 1 else s.cfgField 52 1
  let ok := linkTrains rate
  if (if alt then (List.range 16).all fun j => ok (2 * j) || ok (2 * j + 1) else (List.range 32).all ok) then
    let s := (List.range 32).foldl (fun s n => s.setMls n (trainedLink rate n)) s
    some (s.identify fun x => { x with absent := ((List.range 32).map fun n => if s.linkMode n = 2 then 2 ^ n else 0).sum })
  else none

/-- LEFTOUT after a cluster's step. -/
def State.markLeftOut (s : State) : State :=
  s.identify fun x => { x with leftout := ((List.range numClusters).map fun c => if s.leftOut c then 2 ^ c else 0).sum }

/-- A stage whose signature holds is measured and runs (R331). -/
def State.stage (s : State) (image sig : List Byte) (reg : Fin 8) : Option State :=
  if Config.signatureHolds (sha256 image) sig then some (s.onRoot fun r => r.extend reg (sha256 image)) else none

/-- Where the hypervisor is loaded and entered: a physical address of device memory (log 90). -/
def hypervisorEntry : Nat := 4 * (Config.hypervisor % 2 ^ 49)

/-- A hearth core begins at an address, at level H. -/
def Hearth.startAt (x : Hearth) (pc : W64) : Hearth := { x with lv := 2, seq := { x.seq with pc := pc, run := .running } }

/-- The hypervisor is loaded, and the hearth cores run it at level H (R331). -/
def State.runHypervisor (s : State) (image : List Byte) : State :=
  let t := { s with mem := Mem.writeBytes s.mem hypervisorEntry image }
  (List.range numHearths).foldl (fun s h => s.setHearth h ((s.hearth h).startAt (w64 hypervisorEntry))) t

/-- A hearth core begins at an address, at level S for a partition. -/
def Hearth.startSystem (x : Hearth) (p : Nat) (pc : W64) : Hearth :=
  { x with lv := 1, ie := false, hpart := p, seq := { x.seq with pc := pc, wait := none, held := none, run := .running } }

/-- Partition p's system image is loaded, and hearth core p, one for each partition, runs it at level S (R331, log 90). -/
def State.runSystem (s : State) (p : Nat) (image : List Byte) : State :=
  let x := Config.systemImage p
  { s with mem := Mem.writeBytes s.mem (256 * (x.1 % 2 ^ 43)) image }.setHearth p ((s.hearth p).startSystem p (w64 (4 * x.2)))

/-- Cluster c is left out of this start: its island stays OFF, and it joins no partition. -/
def State.leaveOut (s : State) (c : Nat) : State :=
  s.onRoot fun r => { r with left := if r.left.contains c then r.left else c :: r.left }

/-- The work of step n in its alternate or first form; none where it does not finish. The image is the copy that the form
reads from flash: A, or as the alternate B; `forms` keeps which form ran, for step 3 whether each UCIe link has half its
lanes. -/
def State.bootWork (s : State) (n : Nat) (alt : Bool) (image sig : List Byte) (passed : Bool) : Option State :=
  let s := s.onRoot fun r => { r with forms := r.forms.set n alt }
  let ifPassed (t : State) : Option State := if passed then some t else none
  match n with
  | 0 => s.stage image sig 1
  | 1 =>
    if configOk image ∧ s.root.minVer ≤ cfgNum image 4 4 then (s.stage image sig 2).map fun t => t.applyConfig image else none
  | 2 => ifPassed (s.runIslands ([31, 29, 30] ++ (List.range 4).flatMap fun d => [7 * d + 6, 7 * d + 4, 7 * d + 5]))
  | 3 => ifPassed s
  | 4 => if passed then s.trainLinks alt else none
  | 21 => ifPassed s
  | 22 => ifPassed s
  | 23 => (s.stage image sig 3).map fun t => t.runHypervisor image
  | n => if alt then some (s.leaveOut (n - 5)).markLeftOut else ifPassed (s.runIslands [islandOf (n - 5)]).markLeftOut

/-! ### The start record (R335) -/

/-- What the start record decides of a step. -/
inductive Plan where
  | run | skip | stop
  deriving DecidableEq, Repr

/-- The decision before step n, and the entry with it. -/
def Boot.plan (b : Boot) (n : Nat) : Boot × Plan :=
  let streak := if b.begun && !b.done then min 2 (b.streak + 1) else 0
  if streak = 2 then
    if optionalStep n then ({ b with streak := 0 }, .skip)
    else if !b.alt && hasAlternate n then ({ b with alt := true, streak := 0 }, .run)
    else ({ b with streak := 2 }, .stop)
  else ({ b with streak := streak }, .run)

/-- Replaces an entry of the start record. -/
def State.setBoot (s : State) (n : Nat) (b : Boot) : State := s.onRoot fun r => { r with boot := r.boot.set n b }
/-- Boot goes on to the next step. -/
def State.nextStep (s : State) : State := s.onRoot fun r => { r with step := r.step + 1 }

/-- One step of the start record. -/
def State.bootRecord (s : State) (n : Nat) (image sig : List Byte) (passed : Bool) : State :=
  match (s.root.boot.getD n {}).plan n with
  | (b, .skip) => (s.setBoot n b).nextStep
  | (b, .stop) => ((s.setBoot n b).onRoot fun r => { r with recovery := true }).send (.pldm [BitVec.ofNat 8 n])
  | (b, .run) =>
    let b := { b with begun := true, done := false }
    let t := s.setBoot n b
    match t.bootWork n b.alt image sig passed with
    | some u => (u.setBoot n { b with done := true }).nextStep
    | none => t.onRoot fun r => { r with stopped := true }

/-- boot step: steps 0 to 23, then the partition images in partition order; one whose signature fails is neither measured nor
loaded, and does not run (R331). -/
def execBootStep (image sig : List Byte) (passed : Bool) (s : State) : Host.Outcome State Fault Refusal :=
  let r := s.root
  if r.nonce.isNone || r.recovery || r.stopped || decide (24 + numParts ≤ r.step) then .next s
  else if r.step < 24 then .next (s.bootRecord r.step image sig passed)
  else .next (match s.stage image sig 4 with
    | some t => (t.runSystem (r.step - 24) image).nextStep
    | none => s.nextStep)

/-- ALT clear: a signed management command. -/
def execAltClear (command : List Byte) (s : State) : Host.Outcome State Fault Refusal :=
  match Config.altCommand command with
  | some n => .next (s.setBoot n { s.root.boot.getD n {} with alt := false })
  | none => .next (s.send .refused)

/-! ### Debug (R339, R340) -/

/-- debug token: signed by the key of DBGKEY, naming this device and the nonce of this start. -/
def execDebugToken (token : List Byte) (s : State) : Host.Outcome State Fault Refusal :=
  match s.root.nonce with
  | none => .next (s.send .refused)
  | some n =>
    if !s.root.config.isEmpty && Config.tokenOk ((s.root.config.drop 16).take 32) n token then
      .next (s.onRoot fun r => { r.extend 7 (sha256 token) with token := some token })
    else .next (s.send .refused)

/-- A secure partition (R333). -/
def State.secure (s : State) (p : Nat) : Bool := fld (s.cfgField 54 2) p 1 == 1

/-- The debug state grants halting, stepping, reads and writes of a partition. -/
def State.mayDebug (s : State) (p : Nat) : Bool :=
  (match s.root.token with
    | some t => !s.secure p || Config.tokenNames t p
    | none => false)
    || (bf (s.part p).pdbg 0 1 == 1 && !s.secure p)

/-- An access to what an island holds: an IDLE island wakes, and one that is not running is refused. -/
def State.onIsland (s : State) (i : Nat) (f : State → State) : State :=
  match (s.island i).state with
  | 1 => f (s.wake i)
  | 2 => f s
  | _ => s.send .refused

/-- An access to a core of a partition that may be debugged. -/
def State.onCore (s : State) (g : Nat) (f : State → State) : State :=
  match s.partOf (cidOf g) with
  | some p => if g < numCores ∧ s.mayDebug p = true then s.onIsland (islandOf (cidOf g)) f else s.send .refused
  | none => s.send .refused

/-- An access to a byte of a save slot (R292). -/
def State.onSave (s : State) (p slot off : Nat) (f : Nat → State → State) : State :=
  let k := (s.part p).psave.toNat + slot * 0x200000 + off
  if (s.part p).pstate ≠ 0 ∧ s.mayDebug p = true ∧ slot < (s.part p).psaven.toNat ∧ off < 0x200000 ∧ k < s.capacity then
    s.onIsland (7 * (s.linkOf k / 8) + 5) (f k)
  else s.send .refused

/-- Every island but the hub's is OFF. -/
def State.standby (s : State) : Bool := (List.range 32).all fun i => i == 28 || (s.island i).state == 0

/-- The identity element (R342). -/
def State.identityBytes (s : State) : List Byte :=
  let x := s.root.identity
  toBytes 4 x.gen ++ toBytes 4 1 ++ List.replicate 8 0 ++ (List.range 32).map Config.boardSerial
    ++ (List.range 16).map Config.deviceSerial ++ (List.range 32).map Config.identityKey ++ x.cfgd
    ++ toBytes 2 x.leftout ++ toBytes 4 x.absent ++ List.replicate 3958 0 ++ toBytes 4 x.gen2

/-- The status of the start record. -/
def State.startRecord (s : State) : List Byte :=
  (List.range 24).map fun n =>
    let b := s.root.boot.getD n {}
    BitVec.ofNat 8 (b.begun.toNat + b.done.toNat * 2 + b.alt.toNat * 4 + b.streak * 8)

/-- A list of n items with item e replaced; items past the end read as 0. -/
def putItem {w : Nat} (n e : Nat) (x : BitVec w) (l : List (BitVec w)) : List (BitVec w) :=
  (List.range n).map fun i => if i = e then x else (l[i]?).getD 0

/-- The value that an operation in flight brings: its scalar, predicates or special register, or a lane. -/
def Landing.value (e : Nat) : Landing → W64
  | .sreg _ x => x
  | .preg _ b => w64 b.toNat
  | .preds x => x
  | .csr _ x => x
  | .vec _ xs => ((xs[e]?).getD 0).setWidth 64
  | _ => 0

/-- The same operation with another value. -/
def Landing.withValue (e : Nat) (v : W64) : Landing → Landing
  | .sreg d _ => .sreg d v
  | .preg d _ => .preg d (v.getLsbD 0)
  | .preds _ => .preds v
  | .csr n _ => .csr n v
  | .vec r xs => .vec r (putItem xs.length e (v.setWidth 32) xs)
  | x => x

/-- A field of a queued command (R217): whether it stands there and has started, its address, its place in command order, and
one more than the count of the slot it has claimed. -/
def QCmd.field (x : QCmd) (f : Nat) : W64 :=
  match f with
  | 0 => w64 (1 + 2 * x.started.toNat)
  | 1 => x.pc
  | 2 => w64 x.order
  | _ => match x.claim with | some c => w64 (c.2.2 + 1) | none => 0

/-- A field of an operation in flight: one more than its cycles left, its bundle's address, its slot, its flags. -/
def Flight.field (x : Flight) (f : Nat) : W64 :=
  match f with
  | 0 => w64 (x.left + 1)
  | 1 => x.pc
  | 2 => w64 x.slot
  | _ => x.flags.setWidth 64
/-- The same operation with another field. -/
def Flight.withField (x : Flight) (f : Nat) (v : W64) : Flight :=
  match f with
  | 0 => { x with left := v.toNat - 1 }
  | 1 => { x with pc := v }
  | 2 => { x with slot := bf v 0 2 }
  | _ => { x with flags := v.setWidth 32 }

/-- A piece of a core's state as a debugger reads it (R340). -/
def State.readSite (s : State) (g : Nat) : CoreSite → W64
  | .pred q r => w64 (((s.core g).seq q).rdP r).toNat
  | .pc q => ((s.core g).seq q).pc
  | .event q => w64 ((s.core g).seq q).event.toNat
  | .loopActive q => w64 ((s.core g).seq q).loop.active.toNat
  | .seen q b => (match ((s.core g).seq q).seen.get b with | some ph => w64 (2 ^ 16 + ph.toNat) | none => 0)
  | .loopFirst q => ((s.core g).seq q).loop.first
  | .loopEnd q => ((s.core g).seq q).loop.fin
  | .loopCount q => w64 ((s.core g).seq q).loop.t
  | .special q n => csrRead { s with cur := .core g q } n.val
  | .lane r e => w64 ((((s.core g).v.get r)[e.val]?).getD 0).toNat
  | .value t e => w64 ((s.tile g t).elem e.val).toNat
  | .tag t row => (s.tile g t).tag row.val
  | .flags t => (s.tile g t).flags
  | .ring q w =>
    let r := (s.core g).rings.get q
    (match w.val with | 0 => r.cfg | 1 => w64 r.word1 | _ => r.done)
  | .sem a => w64 ((s.core g).sems.get a).toNat
  | .side line => w64 (s.sideOf (spadKey g (256 * line.val))).toNat
  | .identity n => csrRead { s with cur := .core g .K } (16 + n.val)
  | .command q i f => (match ((s.core g).queue q).cmds[i]? with | some x => x.field f.val | none => 0)
  | .flight i f => (match (s.core g).flight[i]? with | some x => x.field f.val | none => 0)
  | .result i e => (match (s.core g).flight[i]? with | some x => x.op.value e.val | none => 0)

/-- Changes a sequencer of a core. -/
def Core.onSeq (c : Core) (q : SeqKind) (f : Seq → Seq) : Core := c.setSeq q (f (c.seq q))
/-- Changes the loop of a sequencer of a core. -/
def Core.onLoop (c : Core) (q : SeqKind) (f : Loop → Loop) : Core := c.onSeq q fun x => { x with loop := f x.loop }
/-- Changes a tile of a core. -/
def Core.onTile (c : Core) (t : TReg) (f : Tile → Tile) : Core := { c with tiles := c.tiles.set t.val (f (c.tiles.getD t.val {})) }

/-- Changes the i-th operation in flight of a core. -/
def Core.onFlight (c : Core) (i : Nat) (f : Flight → Flight) : Core :=
  { c with flight := c.flight.mapIdx fun j x => if j = i then f x else x }

/-- A core with a piece of its state as a debugger writes it: the low bits that the piece has (R340). The identity of the
core and of its node, and of a queued command all but its address, stay as they are (log 97). -/
def Core.writeSite (c : Core) (v : W64) : CoreSite → Core
  | .pred q r => c.onSeq q fun x => x.wrP r (v.getLsbD 0)
  | .pc q => c.onSeq q fun x => { x with pc := v }
  | .event q => c.onSeq q fun x => { x with event := v.getLsbD 0 }
  | .loopActive q => c.onLoop q fun x => { x with active := v.getLsbD 0 }
  | .seen q b => c.onSeq q fun x =>
    { x with seen := x.seen.set b.val (if v.getLsbD 16 then some (v.setWidth 16) else none) b.isLt }
  | .loopFirst q => c.onLoop q fun x => { x with first := v }
  | .loopEnd q => c.onLoop q fun x => { x with fin := v }
  | .loopCount q => c.onLoop q fun x => { x with t := bf v 0 33 }
  | .special q n =>
    (match n.val with
      | 0 => { c with fpcr := v.setWidth 32 }
      | 1 => { c with vshape := v.setWidth 32 }
      | 2 => c.onSeq q fun x => { x with lc := v.setWidth 32 }
      | 3 => c.onSeq q fun x => { x with esc := v.setWidth 3 }
      | _ => { c with vrot := v.setWidth 4 })
  | .lane r e => { c with v := c.v.set r.val (putItem 1024 e.val (v.setWidth 32) (c.v.get r)) r.isLt }
  | .value t e => c.onTile t fun x => { x with vals := putItem 4096 e.val (v.setWidth 32) x.vals }
  | .tag t row => c.onTile t fun x => { x with tags := putItem 32 row.val v x.tags }
  | .flags t => c.onTile t fun x =>
    { x with cnt := bf v 8 5, closed := v.getLsbD 2, poison := v.getLsbD 1, tent := v.getLsbD 0 }
  | .ring q w =>
    let r := c.rings.get q
    let y : Ring := match w.val with
      | 0 => { r with cfg := v }
      | 1 => { r with head := bf v 0 16, tail := bf v 16 16, claimed := bf v 32 16 }
      | _ => { r with done := v }
    { c with rings := c.rings.set q.val y q.isLt }
  | .sem a => { c with sems := c.sems.set a.val (v.setWidth 32) a.isLt }
  | .side _ => c
  | .identity _ => c
  | .command q i f =>
    if f.val = 1 then c.setQueue q { c.queue q with cmds := (c.queue q).cmds.mapIdx fun j x => if j = i then { x with pc := v } else x }
    else c
  | .flight i f => c.onFlight i fun x => x.withField f.val v
  | .result i e => c.onFlight i fun x => { x with op := x.op.withValue e.val v }

/-- A debugger's write of a piece of a core's state. -/
def State.writeSite (s : State) (g : Nat) (site : CoreSite) (v : W64) : State :=
  match site with
  | .side line => s.setSide (spadKey g (256 * line.val)) (v.setWidth 32)
  | _ => s.setCore g ((s.core g).writeSite v site)

/-- A phase as a debugger reads it. -/
def Phase.code : Phase → Nat
  | .waiting => 0 | .ready => 1 | .preloaded => 2 | .running => 3 | .halted => 4 | .retiring => 5

/-- A register of a hearth core beside its s and p registers: LC, ESC, the loop, the event bit (R148, R177, R182, R284). -/
def Seq.field (q : Seq) (f : Nat) : W64 :=
  match f with
  | 0 => q.lc.setWidth 64
  | 1 => q.esc.setWidth 64
  | 2 => w64 q.loop.active.toNat
  | 3 => q.loop.first
  | 4 => q.loop.fin
  | 5 => w64 q.loop.t
  | _ => w64 q.event.toNat

/-- What of the hub and the root core a debugger reads as bytes; none for a register that does not exist. A register is
read as level H reads it (R285), without the effects of a read. -/
def State.readHubSite (s : State) : HubSite → Option (List Byte)
  | .pc h => some (toBytes 8 (s.hearth h).seq.pc.toNat)
  | .pred h r => some (toBytes 8 ((s.hearth h).seq.rdP r).toNat)
  | .register h n => (match s.rdReg h n.toNat with | .ok v => some (toBytes 8 v.toNat) | .error _ => none)
  | .counter n => some (toBytes 8 (s.tcs.getD n 0).toNat)
  | .pair n =>
    let x := s.qps.getD n {}
    some (toBytes 8 x.cfg.toNat ++ toBytes 8 x.base.toNat ++ toBytes 8 x.head ++ toBytes 8 x.tail)
  | .entry n => (s.disp.pool.get? n).map fun e =>
    toBytes 64 e.record.toNat ++ toBytes 1 e.phase.code ++ toBytes 8 (e.remain % 2 ^ 64).toNat ++ toBytes 8 e.waited ++ toBytes 8 e.used
      ++ toBytes 8 e.limit ++ e.cores.flatMap (toBytes 2)
  | .decisions => some (toBytes 8 s.disp.count)
  | .chunk line => if line < 2 ^ 18 then some (Mem.bytes s.mem (chunkKey (256 * line)) 256) else none
  | .seq h f => some (toBytes 8 ((s.hearth h).seq.field f.val).toNat)
  | .work n i => ((s.qps.getD n {}).works[i]?).map fun w =>
    toBytes 64 w.word.toNat ++ toBytes 8 w.idx ++ toBytes 1 (w.fired.toNat + 2 * w.done.toNat + 4 * w.fail.isSome.toNat)
  | .startRecord => some s.startRecord
  | .identity => some s.identityBytes
  | .minVersion => some (toBytes 4 s.root.minVer)
  | .config => some s.root.config
  | .bootStep => some (toBytes 1 s.root.step
      ++ toBytes 1 (s.root.stopped.toNat + 2 * s.root.recovery.toNat + 4 * s.root.unsealed.toNat))

/-- A site of the root core, which is all that standby leaves (R340). -/
def siteOfRoot : HubSite → Bool
  | .startRecord => true | .identity => true | .minVersion => true | .config => true | .bootStep => true
  | .chunk _ => false | .seq _ _ => false | .work _ _ => false
  | .pc _ => false | .pred _ _ => false | .register _ _ => false | .counter _ => false | .pair _ => false | .entry _ => false
  | .decisions => false

/-- The island of a site: of the dispatcher, the CSQ and its buffers, or of the hearth cores and the root core (R336). -/
def siteIsland : HubSite → Nat
  | .counter _ => 29 | .pair _ => 29 | .entry _ => 29 | .decisions => 29 | .chunk _ => 29 | .work _ _ => 29
  | .pc _ => 28 | .pred _ _ => 28 | .register _ _ => 28 | .seq _ _ => 28
  | .startRecord => 28 | .identity => 28 | .minVersion => 28 | .config => 28 | .bootStep => 28

/-- An access wakes an island that is IDLE (R340). -/
def State.wakeIdle (s : State) (i : Nat) : State := if (s.island i).state = 1 then s.wake i else s

/-- A debugger's read of a byte of memory: a free value where it consumes an error (R311, R325, log 97). -/
def State.debugByte (s : State) (k : Nat) : State :=
  let (v, s) := s.queueRead k 1
  s.send (.debug [BitVec.ofNat 8 v])

/-- A debugger's request. -/
def State.debug (s : State) : DebugReq → State
  | .halt g => s.onCore g fun s => s.setCore g { s.core g with debug := true, stepping := none }
  | .resume g => s.onCore g fun s => s.setCore g { s.core g with debug := false, stepping := none }
  | .singleStep g q => s.onCore g fun s => s.setCore g { s.core g with debug := true, stepping := some q }
  | .readReg g q r => s.onCore g fun s => s.send (.debug (toBytes 8 (((s.core g).seq q).rdS r).toNat))
  | .writeReg g q r v => s.onCore g fun s => s.setCore g ((s.core g).setSeq q (((s.core g).seq q).wrS r v))
  | .readSpad g off => s.onCore g fun s => s.debugByte (spadKey g (off % 2 ^ 20))
  | .writeSpad g off b => s.onCore g fun s => s.store (spadKey g (off % 2 ^ 20)) 1 b.toNat
  | .readSave p slot off => s.onSave p slot off fun k s => s.debugByte k
  | .writeSave p slot off b => s.onSave p slot off fun k s => s.store k 1 b.toNat
  | .readHub h r =>
    if s.root.token.isNone then s.send .refused
    else if h = numHearths then (s.wakeIdle 28).send (.debug (s.root.meas.get (idx 8 r.val)))
    else if s.standby || decide (numHearths < h) then s.send .refused
    else (s.wakeIdle 28).send (.debug (toBytes 8 ((s.hearth h).seq.rdS r).toNat))
  | .readCore g site => s.onCore g fun s => s.send (.debug (toBytes 8 (s.readSite g site).toNat))
  | .writeCore g site v => s.onCore g fun s => s.writeSite g site v
  | .readDevice site =>
    if s.root.token.isNone || (s.standby && !siteOfRoot site) then s.send .refused
    else (match s.readHubSite site with
      | some bs => (s.wakeIdle (siteIsland site)).send (.debug bs)
      | none => s.send .refused)
  | .telemetry => s.send (.debug (s.identityBytes ++ s.startRecord))

/-- debug access. -/
def execDebugAccess (req : DebugReq) (s : State) : Host.Outcome State Fault Refusal := .next (s.debug req)

/-! ### Attestation and sensors (R341, R342) -/

/-- Answers an attestation request: with an SPDM error where unsealing failed (R334). -/
def State.attest (s : State) (code : Nat) (data : List Byte) : State :=
  if s.root.unsealed then s.send (.spdm code data) else s.send (.spdm 0x7F [])

/-- SPDM GET_VERSION: 1.3. -/
def execSpdmGetVersion (s : State) : Host.Outcome State Fault Refusal := .next (s.attest 0x04 [0x13])

/-- SPDM GET_CAPABILITIES: certificates, challenge and signed measurements. -/
def execSpdmGetCapabilities (s : State) : Host.Outcome State Fault Refusal := .next (s.attest 0x61 (toBytes 4 0x16))

/-- SPDM NEGOTIATE_ALGORITHMS: SHA-256, and one extended asymmetric algorithm. -/
def execSpdmNegotiateAlgorithms (s : State) : Host.Outcome State Fault Refusal := .next (s.attest 0x63 (toBytes 4 1 ++ [1]))

/-- SPDM GET_DIGESTS: of the certificate chain. -/
def execSpdmGetDigests (s : State) : Host.Outcome State Fault Refusal := .next (s.attest 0x01 (sha256 Config.certificates))

/-- SPDM GET_CERTIFICATE. -/
def execSpdmGetCertificate (s : State) : Host.Outcome State Fault Refusal := .next (s.attest 0x02 Config.certificates)

/-- The signed answer to a nonce. -/
def signedAnswer (nonce : BitVec 256) (body : List Byte) : List Byte :=
  body ++ toBytes 32 nonce.toNat ++ Config.sign (body ++ toBytes 32 nonce.toNat)

/-- SPDM CHALLENGE. -/
def execSpdmChallenge (nonce : BitVec 256) (s : State) : Host.Outcome State Fault Refusal :=
  .next (s.attest 0x03 (signedAnswer nonce (sha256 Config.certificates)))

/-- Measurement blocks 1-8, which carry M0-M7. -/
def Root.blocks (r : Root) : List Byte := (List.finRange 8).flatMap fun i => BitVec.ofNat 8 (i.val + 1) :: r.meas.get i

/-- SPDM GET_MEASUREMENTS. -/
def execSpdmGetMeasurements (nonce : BitVec 256) (s : State) : Host.Outcome State Fault Refusal :=
  .next (s.attest 0x60 (signedAnswer nonce s.root.blocks))

/-- PLDM sensor read: temperature and power of an island. -/
def execPldmSensorRead (island : Nat) (s : State) : Host.Outcome State Fault Refusal :=
  .next ({ s with free := s.free + 1 }.send (.pldm (Config.sensor s.free island)))

end Sys2Proof.Machine
end

