-- ==== Sys2Proof/Machine/Shards.lean ====
section
/-! DEFINITION. The digest of a weight shard, checked by the scrubber and at the end of an ingest (R66, R290, R326). -/

namespace Sys2Proof.Machine

/-- CRC-64 over the next line of a shard; none once a line cannot be read (R66). -/
def State.crcLine (s : State) (p base : Nat) (acc : Option Nat) (i : Nat) : Option Nat :=
  match acc, s.resolvePart p (w64 (base + 256 * i)) { rd := true } with
  | some c, .ok k =>
    if isDev k && !s.isBad k then some ((Mem.bytes s.mem k 256).foldl (crcByte 0xC96C5795D7870F42) c) else none
  | _, _ => none

/-- CRC-64 over the n lines of a shard (R66). -/
def State.shardCrc (s : State) (p base n : Nat) : Option Nat :=
  ((List.range n).foldl (s.crcLine p base) (some 0xFFFFFFFFFFFFFFFF)).map (· ^^^ 0xFFFFFFFFFFFFFFFF)

/-- The first of the n lines that stops the reading, if its error does, is consumed (R311). -/
def State.crcConsume (s : State) (p base n : Nat) : State :=
  match (List.range n).find? fun i => (s.crcLine p base (some 0) i).isNone with
  | some i =>
    (match s.resolvePart p (w64 (base + 256 * i)) { rd := true } with
      | .ok k => if s.isBad k then s.consume k else s
      | .error _ => s)
  | none => s

/-- Sets or clears QUAR in a table entry at key k (R64). -/
def State.setQuar (s : State) (k state : Nat) (quar : Bool) : State :=
  s.store (k + 24) 8 (state / 2 * 2 + quar.toNat)

/-- The NOTE record of a shard whose digest differs (R66, R326). -/
def State.digestNote (s : State) (p unit index base detail : Nat) : State :=
  let c := s.lowCluster p
  s.postTo p c { cls := 2, code := 9, unit := unit, index := index, cid := c, addr := base, detail := detail }

/-- The scrubber checks one shard; a table entry that it cannot read gives it no digest to compare. -/
def State.scrubShard (s : State) (p slot expert shard : Nat) : State :=
  match s.shardEntry p slot expert shard with
  | .error _ => s
  | .ok (k, base, n, digest, state) =>
    if s.shardCrc p base n = some digest then s
    else ((s.crcConsume p base n).setQuar k state true).digestNote p 13 (slot * 1024 + expert / 4) base 0

/-- The scrubber's pass over one weight-set slot. -/
def State.scrubSlot (s : State) (p slot : Nat) : State :=
  let w := (s.part p).wsAt slot
  if w.state = .free then s
  else (List.range (w.experts * w.shards)).foldl (fun s i => s.scrubShard p slot (i / w.shards) (i % w.shards)) s

/-- scrub pass: once per interval of SCRB seconds, over every slot that is not FREE (R66, R290). -/
def execScrubPass (part : Nat) (s : State) : Host.Outcome State Fault Refusal :=
  let x := s.part part
  if x.pstate ≠ 0 ∧ x.scrubAt + x.scrb.toNat * 800000000 ≤ s.clock then
    let t := (List.range 8).foldl (fun s w => s.scrubSlot part w) s
    .next (t.setPart part { t.part part with scrubAt := s.clock })
  else .next s

/-- The check of a shard all of whose lines have been written (R326). -/
def State.checkIngest (s : State) (i : Ingest) : State :=
  let s := { s with ingest := s.ingest.filter fun j => !(j == i) }
  match s.shardEntry i.part i.slot i.expert i.shard with
  | .error _ => s.digestNote i.part 12 0 0 1
  | .ok (k, base, n, digest, state) =>
    if s.shardCrc i.part base n = some digest then s.setQuar k state false
    else ((s.crcConsume i.part base n).setQuar k state true).digestNote i.part 12 0 base 1

/-- ingest check. -/
def execIngestCheck (part : Nat) (s : State) : Host.Outcome State Fault Refusal :=
  match s.ingest.find? fun i => i.part == part && i.left.isEmpty with
  | some i => .next (s.checkIngest i)
  | none => .next s

end Sys2Proof.Machine
end

