-- ==== Sys2Proof/Machine/Dispatch.lean ====
section
/-! DEFINITION. One arm for each instruction and step: its meaning. -/

namespace Sys2Proof.Machine

def exec (i : Instr) (s : State) : Host.Outcome State Fault Refusal :=
  match i with
  | .iopAdd d a b => Sys2Proof.Machine.execIopAdd d a b s
  | .iopSub d a b => Sys2Proof.Machine.execIopSub d a b s
  | .iopAnd d a b => Sys2Proof.Machine.execIopAnd d a b s
  | .iopOr d a b => Sys2Proof.Machine.execIopOr d a b s
  | .iopXor d a b => Sys2Proof.Machine.execIopXor d a b s
  | .iopShl d a b => Sys2Proof.Machine.execIopShl d a b s
  | .iopShr d a b => Sys2Proof.Machine.execIopShr d a b s
  | .iopSra d a b => Sys2Proof.Machine.execIopSra d a b s
  | .iopMin d a b => Sys2Proof.Machine.execIopMin d a b s
  | .iopMax d a b => Sys2Proof.Machine.execIopMax d a b s
  | .iopMinu d a b => Sys2Proof.Machine.execIopMinu d a b s
  | .iopMaxu d a b => Sys2Proof.Machine.execIopMaxu d a b s
  | .iopAddw d a b => Sys2Proof.Machine.execIopAddw d a b s
  | .iopSubw d a b => Sys2Proof.Machine.execIopSubw d a b s
  | .iopSlt d a b => Sys2Proof.Machine.execIopSlt d a b s
  | .iopSltu d a b => Sys2Proof.Machine.execIopSltu d a b s
  | .iopiAdd d a im => Sys2Proof.Machine.execIopiAdd d a im s
  | .iopiAnd d a im => Sys2Proof.Machine.execIopiAnd d a im s
  | .iopiOr d a im => Sys2Proof.Machine.execIopiOr d a im s
  | .iopiXor d a im => Sys2Proof.Machine.execIopiXor d a im s
  | .iopiShl d a im => Sys2Proof.Machine.execIopiShl d a im s
  | .iopiShr d a im => Sys2Proof.Machine.execIopiShr d a im s
  | .iopiSra d a im => Sys2Proof.Machine.execIopiSra d a im s
  | .iopiAddw d a im => Sys2Proof.Machine.execIopiAddw d a im s
  | .ihiLo d im => Sys2Proof.Machine.execIhiLo d im s
  | .ihiH1 d im => Sys2Proof.Machine.execIhiH1 d im s
  | .ihiH2 d im => Sys2Proof.Machine.execIhiH2 d im s
  | .ihiH3 d im => Sys2Proof.Machine.execIhiH3 d im s
  | .ihiLou d im => Sys2Proof.Machine.execIhiLou d im s
  | .cmpEq d a b => Sys2Proof.Machine.execCmpEq d a b s
  | .cmpNe d a b => Sys2Proof.Machine.execCmpNe d a b s
  | .cmpLt d a b => Sys2Proof.Machine.execCmpLt d a b s
  | .cmpGe d a b => Sys2Proof.Machine.execCmpGe d a b s
  | .cmpLtu d a b => Sys2Proof.Machine.execCmpLtu d a b s
  | .cmpGeu d a b => Sys2Proof.Machine.execCmpGeu d a b s
  | .cmpTst d a b => Sys2Proof.Machine.execCmpTst d a b s
  | .prdAnd d a b => Sys2Proof.Machine.execPrdAnd d a b s
  | .prdOr d a b => Sys2Proof.Machine.execPrdOr d a b s
  | .prdXor d a b => Sys2Proof.Machine.execPrdXor d a b s
  | .prdAndn d a b => Sys2Proof.Machine.execPrdAndn d a b s
  | .prdOrn d a b => Sys2Proof.Machine.execPrdOrn d a b s
  | .prdNor d a b => Sys2Proof.Machine.execPrdNor d a b s
  | .prdFrs d a => Sys2Proof.Machine.execPrdFrs d a s
  | .prdTos d a => Sys2Proof.Machine.execPrdTos d a s
  | .prdRds d => Sys2Proof.Machine.execPrdRds d s
  | .prdWrs a => Sys2Proof.Machine.execPrdWrs a s
  | .br n p o => Sys2Proof.Machine.execBr n p o s
  | .jmpR a => Sys2Proof.Machine.execJmpR a s
  | .jmpLink d a => Sys2Proof.Machine.execJmpLink d a s
  | .loopSp c a im => Sys2Proof.Machine.execLoopSp c a im s
  | .ldsB8 d a g im => Sys2Proof.Machine.execLdsB8 d a g im s
  | .ldsI8 d a g im => Sys2Proof.Machine.execLdsI8 d a g im s
  | .ldsB16 d a g im => Sys2Proof.Machine.execLdsB16 d a g im s
  | .ldsI16 d a g im => Sys2Proof.Machine.execLdsI16 d a g im s
  | .ldsB32 d a g im => Sys2Proof.Machine.execLdsB32 d a g im s
  | .ldsI32 d a g im => Sys2Proof.Machine.execLdsI32 d a g im s
  | .ldsB64 d a g im => Sys2Proof.Machine.execLdsB64 d a g im s
  | .stsB8 d a g im => Sys2Proof.Machine.execStsB8 d a g im s
  | .stsB16 d a g im => Sys2Proof.Machine.execStsB16 d a g im s
  | .stsB32 d a g im => Sys2Proof.Machine.execStsB32 d a g im s
  | .stsB64 d a g im => Sys2Proof.Machine.execStsB64 d a g im s
  | .csrRd d c => Sys2Proof.Machine.execCsrRd d c s
  | .csrWr a c => Sys2Proof.Machine.execCsrWr a c s
  | .csrSet d a c => Sys2Proof.Machine.execCsrSet d a c s
  | .csrClr d a c => Sys2Proof.Machine.execCsrClr d a c s
  | .bitfPopc d a => Sys2Proof.Machine.execBitfPopc d a s
  | .bitfClz d a => Sys2Proof.Machine.execBitfClz d a s
  | .bitfCtz d a => Sys2Proof.Machine.execBitfCtz d a s
  | .bitfBrev d a => Sys2Proof.Machine.execBitfBrev d a s
  | .bitfBswap d a => Sys2Proof.Machine.execBitfBswap d a s
  | .bitfExtu d a b => Sys2Proof.Machine.execBitfExtu d a b s
  | .bitfExts d a b => Sys2Proof.Machine.execBitfExts d a b s
  | .bitfIns d a b => Sys2Proof.Machine.execBitfIns d a b s
  | .muldivMul d a b => Sys2Proof.Machine.execMuldivMul d a b s
  | .muldivMulh d a b => Sys2Proof.Machine.execMuldivMulh d a b s
  | .muldivMulhu d a b => Sys2Proof.Machine.execMuldivMulhu d a b s
  | .muldivDiv d a b => Sys2Proof.Machine.execMuldivDiv d a b s
  | .muldivDivu d a b => Sys2Proof.Machine.execMuldivDivu d a b s
  | .muldivRem d a b => Sys2Proof.Machine.execMuldivRem d a b s
  | .muldivRemu d a b => Sys2Proof.Machine.execMuldivRemu d a b s
  | .sysNop => Sys2Proof.Machine.execSysNop s
  | .sysEnd g => Sys2Proof.Machine.execSysEnd g s
  | .sysTrap a n => Sys2Proof.Machine.execSysTrap a n s
  | .sysWev => Sys2Proof.Machine.execSysWev s
  | .privRd d a => Sys2Proof.Machine.execPrivRd d a s
  | .privWr a b => Sys2Proof.Machine.execPrivWr a b s
  | .privRet => Sys2Proof.Machine.execPrivRet s
  | .privHcall x => Sys2Proof.Machine.execPrivHcall x s
  | .privWfi => Sys2Proof.Machine.execPrivWfi s
  | .privTinv a b => Sys2Proof.Machine.execPrivTinv a b s
  | .ringClaim d a b m => Sys2Proof.Machine.execRingClaim d a b m s
  | .ringCommit d a b m => Sys2Proof.Machine.execRingCommit d a b m s
  | .ringWaitf a b m => Sys2Proof.Machine.execRingWaitf a b m s
  | .ringWaitr a b m => Sys2Proof.Machine.execRingWaitr a b m s
  | .ringPop a b m => Sys2Proof.Machine.execRingPop a b m s
  | .ringCfg a b => Sys2Proof.Machine.execRingCfg a b s
  | .ringRd d a => Sys2Proof.Machine.execRingRd d a s
  | .semAdd d a b m => Sys2Proof.Machine.execSemAdd d a b m s
  | .semWaitge a b => Sys2Proof.Machine.execSemWaitge a b s
  | .semRd d a => Sys2Proof.Machine.execSemRd d a s
  | .gbarArr a => Sys2Proof.Machine.execGbarArr a s
  | .gbarWait a => Sys2Proof.Machine.execGbarWait a s
  | .gbarSync a => Sys2Proof.Machine.execGbarSync a s
  | .ordRel sc => Sys2Proof.Machine.execOrdRel sc s
  | .ordAcq sc => Sys2Proof.Machine.execOrdAcq sc s
  | .ordFull sc => Sys2Proof.Machine.execOrdFull sc s
  | .copyIn d a b g m => Sys2Proof.Machine.execCopyIn d a b g m s
  | .copyOut d a b k g => Sys2Proof.Machine.execCopyOut d a b k g s
  | .copyWt d a b x g m => Sys2Proof.Machine.execCopyWt d a b x g m s
  | .copyMm d a b g => Sys2Proof.Machine.execCopyMm d a b g s
  | .gathFill d a g => Sys2Proof.Machine.execGathFill d a g s
  | .lineRd d a => Sys2Proof.Machine.execLineRd d a s
  | .lineWr a b => Sys2Proof.Machine.execLineWr a b s
  | .lineSet d a b g => Sys2Proof.Machine.execLineSet d a b g s
  | .markTile => Sys2Proof.Machine.execMarkTile s
  | .markDrain => Sys2Proof.Machine.execMarkDrain s
  | .mmaRn8 d a b im j k o r => Sys2Proof.Machine.execMmaRn8 d a b im j k o r s
  | .mmaRn4 d a b im j k o r => Sys2Proof.Machine.execMmaRn4 d a b im j k o r s
  | .mmaRnx d a b im j k o r => Sys2Proof.Machine.execMmaRnx d a b im j k o r s
  | .mmaRny d a b im j k o r => Sys2Proof.Machine.execMmaRny d a b im j k o r s
  | .mmaBf16 d a b im j k o r => Sys2Proof.Machine.execMmaBf16 d a b im j k o r s
  | .accRd d a b => Sys2Proof.Machine.execAccRd d a b s
  | .accFlg d a => Sys2Proof.Machine.execAccFlg d a s
  | .accSt d a x y => Sys2Proof.Machine.execAccSt d a x y s
  | .accAdd d a b => Sys2Proof.Machine.execAccAdd d a b s
  | .accZero d => Sys2Proof.Machine.execAccZero d s
  | .tentMark d a => Sys2Proof.Machine.execTentMark d a s
  | .rslv d a f g => Sys2Proof.Machine.execRslv d a f g s
  | .mkat a b => Sys2Proof.Machine.execMkat a b s
  | .vfpAdd d a b t => Sys2Proof.Machine.execVfpAdd d a b t s
  | .vfpSub d a b t => Sys2Proof.Machine.execVfpSub d a b t s
  | .vfpMul d a b t => Sys2Proof.Machine.execVfpMul d a b t s
  | .vfpMin d a b t => Sys2Proof.Machine.execVfpMin d a b t s
  | .vfpMax d a b t => Sys2Proof.Machine.execVfpMax d a b t s
  | .vfpAbs d a t => Sys2Proof.Machine.execVfpAbs d a t s
  | .vfpNeg d a t => Sys2Proof.Machine.execVfpNeg d a t s
  | .vfpCpsgn d a b t => Sys2Proof.Machine.execVfpCpsgn d a b t s
  | .vfmaFma d a b t => Sys2Proof.Machine.execVfmaFma d a b t s
  | .vfmaFms d a b t => Sys2Proof.Machine.execVfmaFms d a b t s
  | .vfmaFnma d a b t => Sys2Proof.Machine.execVfmaFnma d a b t s
  | .vfmaFnms d a b t => Sys2Proof.Machine.execVfmaFnms d a b t s
  | .vintAdd d a b t => Sys2Proof.Machine.execVintAdd d a b t s
  | .vintSub d a b t => Sys2Proof.Machine.execVintSub d a b t s
  | .vintMul d a b t => Sys2Proof.Machine.execVintMul d a b t s
  | .vintAnd d a b t => Sys2Proof.Machine.execVintAnd d a b t s
  | .vintOr d a b t => Sys2Proof.Machine.execVintOr d a b t s
  | .vintXor d a b t => Sys2Proof.Machine.execVintXor d a b t s
  | .vintAndn d a b t => Sys2Proof.Machine.execVintAndn d a b t s
  | .vintShl d a b t => Sys2Proof.Machine.execVintShl d a b t s
  | .vintShr d a b t => Sys2Proof.Machine.execVintShr d a b t s
  | .vintSra d a b t => Sys2Proof.Machine.execVintSra d a b t s
  | .vintMin d a b t => Sys2Proof.Machine.execVintMin d a b t s
  | .vintMax d a b t => Sys2Proof.Machine.execVintMax d a b t s
  | .vintAdds d a b t => Sys2Proof.Machine.execVintAdds d a b t s
  | .vintSubs d a b t => Sys2Proof.Machine.execVintSubs d a b t s
  | .vintAbs d a t => Sys2Proof.Machine.execVintAbs d a t s
  | .vintMulh d a b t => Sys2Proof.Machine.execVintMulh d a b t s
  | .vcmpEq d a b t => Sys2Proof.Machine.execVcmpEq d a b t s
  | .vcmpNe d a b t => Sys2Proof.Machine.execVcmpNe d a b t s
  | .vcmpLt d a b t => Sys2Proof.Machine.execVcmpLt d a b t s
  | .vcmpLe d a b t => Sys2Proof.Machine.execVcmpLe d a b t s
  | .vcmpGt d a b t => Sys2Proof.Machine.execVcmpGt d a b t s
  | .vcmpGe d a b t => Sys2Proof.Machine.execVcmpGe d a b t s
  | .vcmpUn d a b t => Sys2Proof.Machine.execVcmpUn d a b t s
  | .vcvtF2i d a t => Sys2Proof.Machine.execVcvtF2i d a t s
  | .vcvtI2f d a t => Sys2Proof.Machine.execVcvtI2f d a t s
  | .vcvtF2h d a => Sys2Proof.Machine.execVcvtF2h d a s
  | .vcvtH2f d a => Sys2Proof.Machine.execVcvtH2f d a s
  | .vcvtRint d a t => Sys2Proof.Machine.execVcvtRint d a t s
  | .vcvtQf d a b t => Sys2Proof.Machine.execVcvtQf d a b t s
  | .vcvtQh d a b t => Sys2Proof.Machine.execVcvtQh d a b t s
  | .vredSum d a t => Sys2Proof.Machine.execVredSum d a t s
  | .vredMax d a t => Sys2Proof.Machine.execVredMax d a t s
  | .vredMin d a t => Sys2Proof.Machine.execVredMin d a t s
  | .vredAnd d a t => Sys2Proof.Machine.execVredAnd d a t s
  | .vredOr d a t => Sys2Proof.Machine.execVredOr d a t s
  | .vredXor d a t => Sys2Proof.Machine.execVredXor d a t s
  | .vredSadd d a t => Sys2Proof.Machine.execVredSadd d a t s
  | .vredSmax d a t => Sys2Proof.Machine.execVredSmax d a t s
  | .vredAnyp d a => Sys2Proof.Machine.execVredAnyp d a s
  | .vredAllp d a => Sys2Proof.Machine.execVredAllp d a s
  | .vpermSel d a b => Sys2Proof.Machine.execVpermSel d a b s
  | .vpermShift d a b => Sys2Proof.Machine.execVpermShift d a b s
  | .vpermTr d a => Sys2Proof.Machine.execVpermTr d a s
  | .vmemLd d a b t => Sys2Proof.Machine.execVmemLd d a b t s
  | .vmemSt d a b t => Sys2Proof.Machine.execVmemSt d a b t s
  | .vmemGat d a b t => Sys2Proof.Machine.execVmemGat d a b t s
  | .vmemSct d a b t => Sys2Proof.Machine.execVmemSct d a b t s
  | .vsfuRcp d a t => Sys2Proof.Machine.execVsfuRcp d a t s
  | .vsfuRsqrt d a t => Sys2Proof.Machine.execVsfuRsqrt d a t s
  | .vsfuSqrt d a t => Sys2Proof.Machine.execVsfuSqrt d a t s
  | .vsfuDiv d a b t => Sys2Proof.Machine.execVsfuDiv d a b t s
  | .vsfuExp d a t => Sys2Proof.Machine.execVsfuExp d a t s
  | .vsfuExp2 d a t => Sys2Proof.Machine.execVsfuExp2 d a t s
  | .vsfuLn d a t => Sys2Proof.Machine.execVsfuLn d a t s
  | .vsfuLog2 d a t => Sys2Proof.Machine.execVsfuLog2 d a t s
  | .vsfuSin d a t => Sys2Proof.Machine.execVsfuSin d a t s
  | .vsfuCos d a t => Sys2Proof.Machine.execVsfuCos d a t s
  | .vsfuTanh d a t => Sys2Proof.Machine.execVsfuTanh d a t s
  | .vsfuSigm d a t => Sys2Proof.Machine.execVsfuSigm d a t s
  | .vclmLo d a b => Sys2Proof.Machine.execVclmLo d a b s
  | .vclmHi d a b => Sys2Proof.Machine.execVclmHi d a b s
  | .vclmXlo d a b => Sys2Proof.Machine.execVclmXlo d a b s
  | .vclmXhi d a b => Sys2Proof.Machine.execVclmXhi d a b s
  | .vclmBrev d a => Sys2Proof.Machine.execVclmBrev d a s
  | .vselSel d a b => Sys2Proof.Machine.execVselSel d a b s
  | .vselSelz d a => Sys2Proof.Machine.execVselSelz d a s
  | .vsetBcast d a t => Sys2Proof.Machine.execVsetBcast d a t s
  | .vsetIota d t => Sys2Proof.Machine.execVsetIota d t s
  | .vsetIrow d t => Sys2Proof.Machine.execVsetIrow d t s
  | .vsetIcol d t => Sys2Proof.Machine.execVsetIcol d t s
  | .vsetGet d a b => Sys2Proof.Machine.execVsetGet d a b s
  | .vsetPut d a b => Sys2Proof.Machine.execVsetPut d a b s
  | .proofRun a g => Sys2Proof.Machine.execProofRun a g s
  | .ptabRd d a b => Sys2Proof.Machine.execPtabRd d a b s
  | .ptabWr d a b => Sys2Proof.Machine.execPtabWr d a b s
  | .ptabHrd d a b => Sys2Proof.Machine.execPtabHrd d a b s
  | .ptabHwr d a b => Sys2Proof.Machine.execPtabHwr d a b s
  | .ptabCrd d a b => Sys2Proof.Machine.execPtabCrd d a b s
  | .ptabClr a b => Sys2Proof.Machine.execPtabClr a b s
  | .creelCfg a b => Sys2Proof.Machine.execCreelCfg a b s
  | .creelBias a b => Sys2Proof.Machine.execCreelBias a b s
  | .creelOffer d a b => Sys2Proof.Machine.execCreelOffer d a b s
  | .creelDrain d a b => Sys2Proof.Machine.execCreelDrain d a b s
  | .creelRd d a => Sys2Proof.Machine.execCreelRd d a s
  | .routeTopk d a b n k => Sys2Proof.Machine.execRouteTopk d a b n k s
  | .nmaAddI32 d a b => Sys2Proof.Machine.execNmaAddI32 d a b s
  | .nmaMinI32 d a b u => Sys2Proof.Machine.execNmaMinI32 d a b u s
  | .nmaMaxI32 d a b u => Sys2Proof.Machine.execNmaMaxI32 d a b u s
  | .nmaAndI32 d a b => Sys2Proof.Machine.execNmaAndI32 d a b s
  | .nmaOrI32 d a b => Sys2Proof.Machine.execNmaOrI32 d a b s
  | .nmaXorI32 d a b => Sys2Proof.Machine.execNmaXorI32 d a b s
  | .nmaSwapI32 d a b => Sys2Proof.Machine.execNmaSwapI32 d a b s
  | .nmaCasI32 d a b => Sys2Proof.Machine.execNmaCasI32 d a b s
  | .nmaAddI64 d a b => Sys2Proof.Machine.execNmaAddI64 d a b s
  | .nmaMinI64 d a b u => Sys2Proof.Machine.execNmaMinI64 d a b u s
  | .nmaMaxI64 d a b u => Sys2Proof.Machine.execNmaMaxI64 d a b u s
  | .nmaAndI64 d a b => Sys2Proof.Machine.execNmaAndI64 d a b s
  | .nmaOrI64 d a b => Sys2Proof.Machine.execNmaOrI64 d a b s
  | .nmaXorI64 d a b => Sys2Proof.Machine.execNmaXorI64 d a b s
  | .nmaSwapI64 d a b => Sys2Proof.Machine.execNmaSwapI64 d a b s
  | .nmaCasI64 d a b => Sys2Proof.Machine.execNmaCasI64 d a b s
  | .nmaAddF32 d a b => Sys2Proof.Machine.execNmaAddF32 d a b s
  | .nmaMinF32 d a b => Sys2Proof.Machine.execNmaMinF32 d a b s
  | .nmaMaxF32 d a b => Sys2Proof.Machine.execNmaMaxF32 d a b s
  | .nmaSwapF32 d a b => Sys2Proof.Machine.execNmaSwapF32 d a b s
  | .nmaCasF32 d a b => Sys2Proof.Machine.execNmaCasF32 d a b s
  | .nmaLaddF32 d a b g => Sys2Proof.Machine.execNmaLaddF32 d a b g s
  | .nmaLaddI32 d a b g => Sys2Proof.Machine.execNmaLaddI32 d a b g s
  | .nmaLmaxF32 d a b g => Sys2Proof.Machine.execNmaLmaxF32 d a b g s
  | .skSeed a b => Sys2Proof.Machine.execSkSeed a b s
  | .skUpd d a b => Sys2Proof.Machine.execSkUpd d a b s
  | .skUpdl a b g => Sys2Proof.Machine.execSkUpdl a b g s
  | .skQry d a b => Sys2Proof.Machine.execSkQry d a b s
  | .skQryl a b g => Sys2Proof.Machine.execSkQryl a b g s
  | .skAdd a b => Sys2Proof.Machine.execSkAdd a b s
  | .skClr a => Sys2Proof.Machine.execSkClr a s
  | .ocInit d a b im => Sys2Proof.Machine.execOcInit d a b im s
  | .ocIns d a b => Sys2Proof.Machine.execOcIns d a b s
  | .ocLdt d a b => Sys2Proof.Machine.execOcLdt d a b s
  | .ocLds d a b => Sys2Proof.Machine.execOcLds d a b s
  | .ocSettle a b => Sys2Proof.Machine.execOcSettle a b s
  | .ocFold d b => Sys2Proof.Machine.execOcFold d b s
  | .postTask a => Sys2Proof.Machine.execPostTask a s
  | .postQp a b => Sys2Proof.Machine.execPostQp a b s
  | .postTcadd d a b h n => Sys2Proof.Machine.execPostTcadd d a b h n s
  | .postTcset d a b h n => Sys2Proof.Machine.execPostTcset d a b h n s
  | .postTcrd d a b h n => Sys2Proof.Machine.execPostTcrd d a b h n s
  | .postTcwait d a b h n => Sys2Proof.Machine.execPostTcwait d a b h n s
  | .postWbeg a b => Sys2Proof.Machine.execPostWbeg a b s
  | .postWcom b => Sys2Proof.Machine.execPostWcom b s
  | .postWabn b => Sys2Proof.Machine.execPostWabn b s
  | .postWst d b => Sys2Proof.Machine.execPostWst d b s
  | .cStreamLanding g => Sys2Proof.Machine.execCStreamLanding g s
  | .lateResultReady g => Sys2Proof.Machine.execLateResultReady g s
  | .watchdog g => Sys2Proof.Machine.execWatchdog g s
  | .loopIterationEnd w => Sys2Proof.Machine.execLoopIterationEnd w s
  | .waitSatisfied w => Sys2Proof.Machine.execWaitSatisfied w s
  | .engineCommandStart g q => Sys2Proof.Machine.execEngineCommandStart g q s
  | .engineCommandRetire g q => Sys2Proof.Machine.execEngineCommandRetire g q s
  | .engineReplay g q => Sys2Proof.Machine.execEngineReplay g q s
  | .katTestRun g => Sys2Proof.Machine.execKatTestRun g s
  | .commandSteal g sib => Sys2Proof.Machine.execCommandSteal g sib s
  | .prooferCommandStart c => Sys2Proof.Machine.execProoferCommandStart c s
  | .prooferCommandRetire c => Sys2Proof.Machine.execProoferCommandRetire c s
  | .postedOpApply src n => Sys2Proof.Machine.execPostedOpApply src n s
  | .nodeRecordAdmit part => Sys2Proof.Machine.execNodeRecordAdmit part s
  | .tileRecordAdmit part => Sys2Proof.Machine.execTileRecordAdmit part s
  | .runTileDispatch entry => Sys2Proof.Machine.execRunTileDispatch entry s
  | .dispatch => Sys2Proof.Machine.execDispatch s
  | .preload c => Sys2Proof.Machine.execPreload c s
  | .reserving stage => Sys2Proof.Machine.execReserving stage s
  | .nodeRetire entry => Sys2Proof.Machine.execNodeRetire entry s
  | .heldRelease => Sys2Proof.Machine.execHeldRelease s
  | .budget entry => Sys2Proof.Machine.execBudget entry s
  | .peelSave entry => Sys2Proof.Machine.execPeelSave entry s
  | .translationWalk u part va => Sys2Proof.Machine.execTranslationWalk u part va s
  | .tuInvalidation u h => Sys2Proof.Machine.execTuInvalidation u h s
  | .entryArm qp => Sys2Proof.Machine.execEntryArm qp s
  | .csqPut qp n => Sys2Proof.Machine.execCsqPut qp n s
  | .csqPutredSum qp n => Sys2Proof.Machine.execCsqPutredSum qp n s
  | .csqPutredMax qp n => Sys2Proof.Machine.execCsqPutredMax qp n s
  | .csqPutredMin qp n => Sys2Proof.Machine.execCsqPutredMin qp n s
  | .csqMaxexp qp n => Sys2Proof.Machine.execCsqMaxexp qp n s
  | .csqNotify qp n => Sys2Proof.Machine.execCsqNotify qp n s
  | .lcopyCopy qp n => Sys2Proof.Machine.execLcopyCopy qp n s
  | .lcopyConvert qp n => Sys2Proof.Machine.execLcopyConvert qp n s
  | .lcopyZero qp n => Sys2Proof.Machine.execLcopyZero qp n s
  | .entryComplete qp n => Sys2Proof.Machine.execEntryComplete qp n s
  | .entryFail qp n => Sys2Proof.Machine.execEntryFail qp n s
  | .remoteCounterAdd part tc inc => Sys2Proof.Machine.execRemoteCounterAdd part tc inc s
  | .qpctlReset h => Sys2Proof.Machine.execQpctlReset h s
  | .qpctlEnable h => Sys2Proof.Machine.execQpctlEnable h s
  | .qpctlDisable h => Sys2Proof.Machine.execQpctlDisable h s
  | .qpResetDone qp => Sys2Proof.Machine.execQpResetDone qp s
  | .interruptEntry h => Sys2Proof.Machine.execInterruptEntry h s
  | .partitionCreate h => Sys2Proof.Machine.execPartitionCreate h s
  | .partitionStart h => Sys2Proof.Machine.execPartitionStart h s
  | .partitionStop h => Sys2Proof.Machine.execPartitionStop h s
  | .partitionDestroy h => Sys2Proof.Machine.execPartitionDestroy h s
  | .ncmdPreempt h tile graph nid => Sys2Proof.Machine.execNcmdPreempt h tile graph nid s
  | .ncmdResume h tile graph nid => Sys2Proof.Machine.execNcmdResume h tile graph nid s
  | .ncmdRerun h tile graph nid => Sys2Proof.Machine.execNcmdRerun h tile graph nid s
  | .ncmdDiscard h tile graph nid => Sys2Proof.Machine.execNcmdDiscard h tile graph nid s
  | .ncmdClear h c => Sys2Proof.Machine.execNcmdClear h c s
  | .nodeCommandComplete h => Sys2Proof.Machine.execNodeCommandComplete h s
  | .cstgWrite h v => Sys2Proof.Machine.execCstgWrite h v s
  | .scrbWrite h v => Sys2Proof.Machine.execScrbWrite h v s
  | .pptbWrite h v => Sys2Proof.Machine.execPptbWrite h v s
  | .privilegedRegisterWrite h num v => Sys2Proof.Machine.execPrivilegedRegisterWrite h num v s
  | .scrubPass part => Sys2Proof.Machine.execScrubPass part s
  | .ingtArm h v => Sys2Proof.Machine.execIngtArm h v s
  | .ingtDisarm h v => Sys2Proof.Machine.execIngtDisarm h v s
  | .ingestCheck part => Sys2Proof.Machine.execIngestCheck part s
  | .mbctlAck h => Sys2Proof.Machine.execMbctlAck h s
  | .mbctlSig h => Sys2Proof.Machine.execMbctlSig h s
  | .hostDoorbell part => Sys2Proof.Machine.execHostDoorbell part s
  | .hostBar0Access part write off size data => Sys2Proof.Machine.execHostBar0Access part write off size data s
  | .hostBar2Access part write ipa size data => Sys2Proof.Machine.execHostBar2Access part write ipa size data s
  | .fpsDrain h port => Sys2Proof.Machine.execFpsDrain h port s
  | .fpsReturn h port => Sys2Proof.Machine.execFpsReturn h port s
  | .drainFlitSend port => Sys2Proof.Machine.execDrainFlitSend port s
  | .peerDrainRequest port => Sys2Proof.Machine.execPeerDrainRequest port s
  | .drainConfirm port => Sys2Proof.Machine.execDrainConfirm port s
  | .fabricTimeout port => Sys2Proof.Machine.execFabricTimeout port s
  | .evcStart h => Sys2Proof.Machine.execEvcStart h s
  | .evcUnlatchRequest h => Sys2Proof.Machine.execEvcUnlatchRequest h s
  | .evcLate => Sys2Proof.Machine.execEvcLate s
  | .unlatchRaise => Sys2Proof.Machine.execUnlatchRaise s
  | .unlatchDrop => Sys2Proof.Machine.execUnlatchDrop s
  | .islandRequestRun h island => Sys2Proof.Machine.execIslandRequestRun h island s
  | .islandRequestIdle h island => Sys2Proof.Machine.execIslandRequestIdle h island s
  | .islandRequestOff h island => Sys2Proof.Machine.execIslandRequestOff h island s
  | .islandStart => Sys2Proof.Machine.execIslandStart s
  | .coreGroupStart c => Sys2Proof.Machine.execCoreGroupStart c s
  | .islandWake island => Sys2Proof.Machine.execIslandWake island s
  | .correctedError r => Sys2Proof.Machine.execCorrectedError r s
  | .bucketLeak => Sys2Proof.Machine.execBucketLeak s
  | .memoryLinkFail link => Sys2Proof.Machine.execMemoryLinkFail link s
  | .laneRetrain link lane => Sys2Proof.Machine.execLaneRetrain link lane s
  | .arbitrationAging link => Sys2Proof.Machine.execArbitrationAging link s
  | .powerOn => Sys2Proof.Machine.execPowerOn s
  | .bootStep image sig passed => Sys2Proof.Machine.execBootStep image sig passed s
  | .debugToken token => Sys2Proof.Machine.execDebugToken token s
  | .altClear command => Sys2Proof.Machine.execAltClear command s
  | .spdmGetVersion => Sys2Proof.Machine.execSpdmGetVersion s
  | .spdmGetCapabilities => Sys2Proof.Machine.execSpdmGetCapabilities s
  | .spdmNegotiateAlgorithms => Sys2Proof.Machine.execSpdmNegotiateAlgorithms s
  | .spdmGetDigests => Sys2Proof.Machine.execSpdmGetDigests s
  | .spdmGetCertificate => Sys2Proof.Machine.execSpdmGetCertificate s
  | .spdmChallenge nonce => Sys2Proof.Machine.execSpdmChallenge nonce s
  | .spdmGetMeasurements nonce => Sys2Proof.Machine.execSpdmGetMeasurements nonce s
  | .pldmSensorRead island => Sys2Proof.Machine.execPldmSensorRead island s
  | .bundleIssue header slots => Sys2Proof.Machine.execBundleIssue header slots s
  | .unassignedOpcode word => Sys2Proof.Machine.execUnassignedOpcode word s
  | .reservedKindRecord part => Sys2Proof.Machine.execReservedKindRecord part s
  | .fabricPeerRequest port req => Sys2Proof.Machine.execFabricPeerRequest port req s
  | .fabricPortUp port => Sys2Proof.Machine.execFabricPortUp port s
  | .fabricPortDown port => Sys2Proof.Machine.execFabricPortDown port s
  | .peerPortReopen port => Sys2Proof.Machine.execPeerPortReopen port s
  | .uncorrectableError site => Sys2Proof.Machine.execUncorrectableError site s
  | .debugAccess req => Sys2Proof.Machine.execDebugAccess req s

end Sys2Proof.Machine
end

