-- ==== Sys2Proof/Machine/Step.lean ====
section
/-! DEFINITION. One step of the device: the turn that the agenda, or a free value, names (log 1). -/

namespace Sys2Proof.Machine

noncomputable section

/-- C's landing, the end of a loop's iteration and the bundle after them are one cycle: the turn comes again at once (R21,
R177, R188). -/
def afterLanding (w : Who) : Instr → Host.Outcome State Fault Refusal → Host.Outcome State Fault Refusal
  | .cStreamLanding _, .next t => .next { t with agenda := .seq w :: t.agenda }
  | .loopIterationEnd _, .next t => .next { t with agenda := .seq w :: t.agenda }
  | _, o => o

/-- A step without a word. One that comes too late in a cycle opens the next (R190). -/
def runEvent (s : State) (i : Instr) : Host.Outcome State Fault Refusal :=
  if eventOk i then
    let s := if s.eventLate i then s.tick else s
    exec i (s.takeEvent i)
  else .next s

/-- A turn: a sequencer's, a step without a word, a request tried again, a late unit, or an arithmetic cycle. -/
def runTurn (s : State) : Turn → Host.Outcome State Fault Refusal
  | .seq w =>
    if whoOk w then
      let s := s.onTurn w
      match s.seqAct w with
      | .idle => .next s
      | .run i => afterLanding w i (exec i (s.takeTurn w (.run i)))
      | .fault slot e => .next ({ s.takeTurn w (.fault slot e) with curSlot := slot, curAddr := (s.seqOf w).pc }.take e)
    else .fault .noSuchSequencer
  | .event i => runEvent s i
  | .retry r =>
    (match s.retryStep r with
      | some i => runEvent s i
      | none => .next s)
  | .late g unit => .next (s.goLate g unit)
  | .tick => .next s.tick

/-- The eviction signal follows its conditions (R330). -/
def afterTurn : Host.Outcome State Fault Refusal → Host.Outcome State Fault Refusal
  | .next t => .next t.settleSignal
  | o => o

/-- One step: the next turn of the agenda, or a free value's where it is empty. -/
def step (s : State) : Host.Outcome State Fault Refusal :=
  match s.agenda with
  | t :: ts => afterTurn (runTurn { s with agenda := ts } t)
  | [] => afterTurn (runTurn { s with free := s.free + 1 } (Config.nextTurn s.free))

/-- s with an instruction placed where the next step fetches it (log 14). -/
def State.withFetchWord (s : State) (nbits w : Nat) : State := s.placeWord (w % 2 ^ nbits)

end

end Sys2Proof.Machine
end

