-- ==== Sys2Proof/Safety.lean ====
section
/-! DEFINITION. The terms the statements use: a safe run, in which the model never stops; when a word passes what is
checked before it executes; and the state in which its effect takes place. -/

namespace Sys2Proof

/-- A step that goes on: it answers a next state. -/
def GoesOn (s : Machine.State) : Prop := ∃ t, Machine.step s = .next t

namespace Machine

/-- The word i may execute in the sequencer whose turn it is: the sequencer takes its group, its fields are within
their limits (R146, R149, R156), and no register it reads holds an uncorrectable error (R311). -/
def State.passes (s : State) (i : Instr) : Bool := (issueCheck 0 i s).isNone && !readsError (sources i) s

/-- The state in which the effect of the word i takes place: its address is kept, the pc is already past it, no wait
is pending, and the registers it writes hold no error (R311). -/
def State.begun (s : State) (i : Instr) : State := (s.overwrite (dests i)).enterWord

/-- The word i, where it passes, leads from s to t. -/
def Answers (i : Instr) (s t : State) : Prop := s.passes i = true → exec i s = .next t

/-- The word i, where it passes, gives scalar register d the value x and nothing else: at once in K, L, S and on a
hearth core, at the latency of class k in C (R162); a write to s0 is discarded. -/
def GivesS (i : Instr) (s : State) (k : Lat) (d : SReg) (x : W64) : Prop := Answers i s ((s.begun i).putS k d x)

/-- The same for a predicate; a write to p0 is discarded. -/
def GivesP (i : Instr) (s : State) (d : Reg16) (x : Bool) : Prop := Answers i s ((s.begun i).putP .pred d x)

/-- The word i, where it passes, puts lanes and flags in flight for vector register d at the latency of class k (R193). -/
def GivesV (i : Instr) (s : State) (k : Lat) (d : VReg) (lanes : List W32) (flags : W32) : Prop :=
  Answers i s ((s.begun i).putV k d (lanes, flags))

/-- The word i raises e, precisely at its own address (R18). -/
def Raises (i : Instr) (s : State) (e : Exc) : Prop := exec i s = .next (({ s with curAddr := s.me.pc } : State).take e)

/-- The word i, where it passes, joins queue q of its core as a command: the last of the queue, next in command order, with
its address and the semaphore of `sig`; registers, memory, tiles, rings and semaphores keep, and the pc goes on. With 128
commands in the queue L or S waits, and C freezes its core (R214). -/
def Queues (i : Instr) (s : State) (q : Queue) (cmd : Cmd) (sig : Option Reg16) : Prop :=
  let g := s.meCore
  let c := s.core g
  let full := s.setMe { s.me with wait := some (.word i) }
  s.passes i = true →
    ((c.queue q).cmds.length < 128 → ∃ t, exec i s = .next t ∧
      (t.core g).queue q = { c.queue q with
        cmds := (c.queue q).cmds ++ [{ order := c.order, pc := s.me.pc, cmd := cmd, sig := sig }] } ∧
      (t.core g).order = c.order + 1 ∧ (∀ r, r ≠ q → (t.core g).queue r = c.queue r) ∧ t.me.pc = s.nextPc ∧
      t.mem = s.mem ∧ t.side = s.side ∧ (∀ r, t.rs r = s.rs r) ∧ (∀ r, t.rp r = s.rp r) ∧
      (t.core g).tiles = c.tiles ∧ (t.core g).rings = c.rings ∧ (t.core g).sems = c.sems ∧ (t.core g).v = c.v) ∧
    (128 ≤ (c.queue q).cmds.length → exec i s = .next (if q = .m then full.startFreeze .matrixQueue 0 else full))

/-- The word i, where it passes, hands an operation to its unit, which applies it later (R237): nothing else changes. -/
def Posts (i : Instr) (s : State) (op : NearOp) (d a b : W64) : Prop := Answers i s ((s.begun i).postOp op d a b)

/-- The word w is assigned to nothing: it decodes to no instruction, and raises ILLEGAL where a sequencer fetches it, and
in C as the one slot of a bundle (R146, R155, R156). -/
def Unassigned (w : W32) : Prop :=
  (∃ e, decodeWord w.toNat = .error e) ∧ ∀ s : State,
    ((∀ g, s.cur ≠ .core g .C) → exec (.unassignedOpcode w) s =
      .next (({ s with curSlot := 15, curAddr := s.me.pc } : State).take illegal)) ∧
    (∀ g, s.cur = .core g .C → exec (.bundleIssue 0xFC400000 [w]) s =
      .next (({ s with curSlot := 0, curAddr := s.me.pc } : State).take illegal))

/-- The word i waits: its sequencer keeps its place and will run it again (R17, R188). -/
def Waits (i : Instr) (s : State) : Prop := exec i s = .next (s.setMe { s.me with wait := some (.word i) })

/-- What every step keeps: memory in its canonical form, each hearth core at level U, S or H (R284), each partition EMPTY,
STOPPED or RUNNING (R287). -/
def State.Inv (s : State) : Prop :=
  Memory.wf s.mem = true ∧ (∀ h, (s.hearth h).lv ≤ 2) ∧ ∀ p, (s.part p).pstate ≤ 2

end Machine

end Sys2Proof
end

