-- ==== Sys2Proof/Certificates/Slice0/Obligations.lean ====
section
/-! DEFINITION. The statements for the provers. Where a word's effect is given by `Answers`, `GivesS` or `GivesP`, the
statement says that `exec` answers exactly the named next state whenever the word passes its checks. -/

open Sys2Proof Sys2Proof.Machine

/-! ### Integer arithmetic, bit fields, predicates -/

/-- R167: every IOP form on every pair of operands, in any sequencer. R168 and R169: the immediate forms; in the h-forms bit
j of the result comes from the immediate or is kept. -/
def Obligations.ScalarIntegerResults : Prop :=
  (∀ (s : State) (d a b : SReg),
     let x := s.rs a
     let y := s.rs b
     GivesS (.iopAdd d a b) s .salu d (BitVec.ofInt 64 (x.toInt + y.toInt)) ∧
     GivesS (.iopSub d a b) s .salu d (BitVec.ofInt 64 (x.toInt - y.toInt)) ∧
     GivesS (.iopAnd d a b) s .salu d (x &&& y) ∧
     GivesS (.iopOr d a b) s .salu d (x ||| y) ∧
     GivesS (.iopXor d a b) s .salu d (x ^^^ y) ∧
     GivesS (.iopShl d a b) s .salu d (BitVec.ofNat 64 (x.toNat * 2 ^ bf y 0 6)) ∧
     GivesS (.iopShr d a b) s .salu d (BitVec.ofNat 64 (x.toNat / 2 ^ bf y 0 6)) ∧
     GivesS (.iopSra d a b) s .salu d (BitVec.ofInt 64 (x.toInt / 2 ^ bf y 0 6)) ∧
     GivesS (.iopMin d a b) s .salu d (BitVec.ofInt 64 (min x.toInt y.toInt)) ∧
     GivesS (.iopMax d a b) s .salu d (BitVec.ofInt 64 (max x.toInt y.toInt)) ∧
     GivesS (.iopMinu d a b) s .salu d (BitVec.ofNat 64 (min x.toNat y.toNat)) ∧
     GivesS (.iopMaxu d a b) s .salu d (BitVec.ofNat 64 (max x.toNat y.toNat)) ∧
     GivesS (.iopAddw d a b) s .salu d (((x + y).setWidth 32).signExtend 64) ∧
     GivesS (.iopSubw d a b) s .salu d (((x - y).setWidth 32).signExtend 64) ∧
     GivesS (.iopSlt d a b) s .salu d (if x.toInt < y.toInt then 1 else 0) ∧
     GivesS (.iopSltu d a b) s .salu d (if x.toNat < y.toNat then 1 else 0) ∧
     (∀ w : W32, bf w 26 6 = 1 → 16 ≤ bf w 0 6 → Unassigned w)) ∧
  (∀ (s : State) (d a : SReg) (i : BitVec 12) (n : Fin 64) (w : BitVec 16),
     let x := s.rs a
     let half (lo : Nat) (r : W64) : Prop := ∀ j < 64,
       r.getLsbD j = if lo ≤ j ∧ j < lo + 16 then w.getLsbD (j - lo) else (s.rs d).getLsbD j
     GivesS (.iopiAdd d a i) s .salu d (BitVec.ofInt 64 (x.toInt + i.toInt)) ∧
     GivesS (.iopiAnd d a i) s .salu d (x &&& i.signExtend 64) ∧
     GivesS (.iopiOr d a i) s .salu d (x ||| i.signExtend 64) ∧
     GivesS (.iopiXor d a i) s .salu d (x ^^^ i.signExtend 64) ∧
     GivesS (.iopiShl d a n) s .salu d (BitVec.ofNat 64 (x.toNat * 2 ^ n.val)) ∧
     GivesS (.iopiShr d a n) s .salu d (BitVec.ofNat 64 (x.toNat / 2 ^ n.val)) ∧
     GivesS (.iopiSra d a n) s .salu d (BitVec.ofInt 64 (x.toInt / 2 ^ n.val)) ∧
     GivesS (.iopiAddw d a i) s .salu d (((x + i.signExtend 64).setWidth 32).signExtend 64) ∧
     GivesS (.ihiLo d w) s .salu d (BitVec.ofInt 64 w.toInt) ∧
     GivesS (.ihiLou d w) s .salu d (BitVec.ofNat 64 w.toNat) ∧
     (∃ r, GivesS (.ihiH1 d w) s .salu d r ∧ half 16 r) ∧
     (∃ r, GivesS (.ihiH2 d w) s .salu d r ∧ half 32 r) ∧
     (∃ r, GivesS (.ihiH3 d w) s .salu d r ∧ half 48 r) ∧
     (∀ w : W32, bf w 26 6 = 2 → (8 ≤ bf w 12 4 ∨ (4 ≤ bf w 12 4 ∧ bf w 12 4 ≤ 6 ∧ bf w 6 6 ≠ 0)) → Unassigned w) ∧
     (∀ w : W32, bf w 26 6 = 3 → 5 ≤ bf w 16 5 → Unassigned w))

/-- R170: products, quotients and remainders, with the results of the table for b = 0 and for -2^63 by -1. R171: counts,
reversals and the field forms, bit by bit; len = 0 selects nothing and len above 64 is 64. -/
def Obligations.MultiplyDivideAndBitFields : Prop :=
  (∀ (s : State) (d a b : SReg),
     let x := s.rs a
     let y := s.rs b
     GivesS (.muldivMul d a b) s .salu d (BitVec.ofNat 64 (x.toNat * y.toNat)) ∧
     GivesS (.muldivMulh d a b) s .salu d (BitVec.ofInt 64 (x.toInt * y.toInt / 2 ^ 64)) ∧
     GivesS (.muldivMulhu d a b) s .salu d (BitVec.ofNat 64 (x.toNat * y.toNat / 2 ^ 64)) ∧
     GivesS (.muldivDiv d a b) s .salu d
       (if y = 0 then 0xFFFFFFFFFFFFFFFF else BitVec.ofInt 64 (x.toInt.tdiv y.toInt)) ∧
     GivesS (.muldivDivu d a b) s .salu d
       (if y = 0 then 0xFFFFFFFFFFFFFFFF else BitVec.ofNat 64 (x.toNat / y.toNat)) ∧
     GivesS (.muldivRem d a b) s .salu d (if y = 0 then x else BitVec.ofInt 64 (x.toInt.tmod y.toInt)) ∧
     GivesS (.muldivRemu d a b) s .salu d (if y = 0 then x else BitVec.ofNat 64 (x.toNat % y.toNat)) ∧
     (x.toInt = -2 ^ 63 → y.toInt = -1 → GivesS (.muldivDiv d a b) s .salu d x ∧ GivesS (.muldivRem d a b) s .salu d 0) ∧
     (∀ w : W32, bf w 26 6 = 0x0D → 7 ≤ bf w 0 6 → Unassigned w)) ∧
  (∀ (s : State) (d a b : SReg),
     let x := s.rs a
     let pos := bf (s.rs b) 0 6
     let len := min 64 (bf (s.rs b) 8 7)
     GivesS (.bitfPopc d a) s .salu d (BitVec.ofNat 64 ((List.range 64).countP fun j => x.getLsbD j)) ∧
     GivesS (.bitfClz d a) s .salu d (BitVec.ofNat 64 (if x = 0 then 64 else 63 - Nat.log2 x.toNat)) ∧
     GivesS (.bitfCtz d a) s .salu d (BitVec.ofNat 64 ((List.range 64).takeWhile fun j => !x.getLsbD j).length) ∧
     (∃ r, GivesS (.bitfBrev d a) s .salu d r ∧ ∀ j < 64, r.getLsbD j = x.getLsbD (63 - j)) ∧
     (∃ r, GivesS (.bitfBswap d a) s .salu d r ∧ ∀ j < 8, r.extractLsb' (8 * j) 8 = x.extractLsb' (8 * (7 - j)) 8) ∧
     (∃ r, GivesS (.bitfExtu d a b) s .salu d r ∧
       ∀ j < 64, r.getLsbD j = (decide (j < len) && x.getLsbD (pos + j))) ∧
     (∃ r, GivesS (.bitfExts d a b) s .salu d r ∧
       ∀ j < 64, r.getLsbD j = (decide (0 < len) && x.getLsbD (pos + min j (len - 1)))) ∧
     (∃ r, GivesS (.bitfIns d a b) s .salu d r ∧
       ∀ j < 64, r.getLsbD j = if pos ≤ j ∧ j < pos + len then x.getLsbD (j - pos) else (s.rs d).getLsbD j) ∧
     (∀ w : W32, bf w 26 6 = 0x0C → (8 ≤ bf w 0 6 ∨ (bf w 0 6 ≤ 4 ∧ bf w 11 5 ≠ 0)) → Unassigned w))

/-- R172: the seven comparisons. R173: predicate logic and the moves between predicates and scalars; `prd.wrs` in an
interlocked sequencer and in C. -/
def Obligations.ComparisonsAndPredicates : Prop :=
  (∀ (s : State) (d : Reg16) (a b : SReg),
     let x := s.rs a
     let y := s.rs b
     GivesP (.cmpEq d a b) s d (decide (x = y)) ∧
     GivesP (.cmpNe d a b) s d (decide (x ≠ y)) ∧
     GivesP (.cmpLt d a b) s d (decide (x.toInt < y.toInt)) ∧
     GivesP (.cmpGe d a b) s d (decide (y.toInt ≤ x.toInt)) ∧
     GivesP (.cmpLtu d a b) s d (decide (x.toNat < y.toNat)) ∧
     GivesP (.cmpGeu d a b) s d (decide (y.toNat ≤ x.toNat)) ∧
     GivesP (.cmpTst d a b) s d (decide (x &&& y ≠ 0)) ∧
     (∀ (u : State) (z : Bool) (p : Reg16), (u.putP .pred 0 z).rp p = u.rp p) ∧
     (∀ w : W32, bf w 26 6 = 4 → (7 ≤ bf w 0 6 ∨ 16 ≤ bf w 21 5) → Unassigned w)) ∧
  (∀ (s : State) (d a b : Reg16) (e f : SReg),
     let x := s.rp a
     let y := s.rp b
     GivesP (.prdAnd d a b) s d (x && y) ∧
     GivesP (.prdOr d a b) s d (x || y) ∧
     GivesP (.prdXor d a b) s d (xor x y) ∧
     GivesP (.prdAndn d a b) s d (x && !y) ∧
     GivesP (.prdOrn d a b) s d (x || !y) ∧
     GivesP (.prdNor d a b) s d (!(x || y)) ∧
     GivesP (.prdFrs d e) s d (decide (s.rs e ≠ 0)) ∧
     GivesS (.prdTos e a) s .pred e (if x then 1 else 0) ∧
     (∃ r, GivesS (.prdRds e) s .pred e r ∧ ∀ j < 64, r.getLsbD j = (decide (j < 16) && s.rp (idx 16 j))) ∧
     Answers (.prdWrs f) s ((s.begun (.prdWrs f)).putPreds (s.rs f)) ∧
     (∀ (q : Seq) (r : Reg16), (q.wrPreds (s.rs f)).rdP r = (decide (r = 0) || (s.rs f).getLsbD r.val)) ∧
     (∀ u : State, (∀ g, u.cur ≠ .core g .C) → (u.putPreds (s.rs f)).me = u.me.wrPreds (s.rs f)) ∧
     (∀ (u : State) (g : Nat), u.cur = .core g .C → (u.putPreds (s.rs f)).core g = { u.core g with flight := (u.core g).flight ++
       [{ left := (u.core g).latency .pred, slot := u.curSlot, pc := u.curAddr, op := .preds (s.rs f) }] }) ∧
     (∀ j, 1 ≤ j → j < 16 → Dest.p j ∈ dests (.prdWrs f)) ∧
     (∀ w : W32, bf w 26 6 = 5 → (10 ≤ bf w 0 6 ∨ (bf w 0 6 ≠ 7 ∧ bf w 0 6 ≠ 8 ∧ 16 ≤ bf w 21 5) ∨
       (6 ≤ bf w 0 6 ∧ bf w 11 5 ≠ 0) ∨ (bf w 0 6 = 8 ∧ bf w 16 5 ≠ 0) ∨ (bf w 0 6 = 9 ∧ bf w 21 5 ≠ 0)) →
       Unassigned w))

/-- R11, R21, R25, R162: what giving a register a value comes to: in an interlocked sequencer the register reads it from
then on, s0 still reads 0 and p0 true, and every other register keeps; in C the registers keep, and the result is in
flight for the assumed latency of its class. -/
def Obligations.ResultsReachRegisters : Prop :=
  (∀ (s : State) (k : Machine.Lat) (d r : SReg) (e p : Reg16) (x : W64) (b : Bool), (∀ g, s.cur ≠ .core g .C) →
    ((s.putS k d x).rs r = if r = 0 then 0 else if r = d then x else s.rs r) ∧
    ((s.putP k e b).rp p = if p = 0 then true else if p = e then b else s.rp p) ∧
    ((s.putS k d x).rp p = s.rp p) ∧ ((s.putP k e b).rs r = s.rs r)) ∧
  (∀ (s : State) (g : Nat) (k : Machine.Lat) (d : SReg) (e : Reg16) (x : W64) (b : Bool), s.cur = .core g .C →
    ((s.putS k d x).core g = if d = 0 then s.core g
      else { s.core g with flight := (s.core g).flight ++
        [{ left := (s.core g).latency k, slot := s.curSlot, pc := s.curAddr, op := .sreg d x }] }) ∧
    ((s.putP k e b).core g = if e = 0 then s.core g
      else { s.core g with flight := (s.core g).flight ++
        [{ left := (s.core g).latency k, slot := s.curSlot, pc := s.curAddr, op := .preg e b }] }))

/-- The frame of every word of IOP, IOPI, IHI, CMP, PRD, BITF and MULDIV (R161): it completes wherever it passes, and
nothing changes but its destination registers, the pc, a pending wait with what holds it, pending errors of the registers
written (R311), in C the operations in flight, and the model's own note of the word's address. -/
def Obligations.RegisterWordsFrame : Prop :=
  ∀ (i : Instr) (s : State), majorOf i ∈ [0x01, 0x02, 0x03, 0x04, 0x05, 0x0C, 0x0D] → s.passes i = true →
    ∃ t, exec i s = .next t ∧
      { t with cores := s.cores, hearths := s.hearths, curAddr := s.curAddr } = s ∧
      t.me.pc = s.nextPc ∧ t.me.wait = none ∧ t.me.held = none ∧
      { t.me with s := s.me.s, p := s.me.p, pc := s.me.pc, wait := s.me.wait, held := s.me.held } = s.me ∧
      (∀ r : SReg, Dest.s r.val ∉ dests i → t.rs r = s.rs r) ∧
      (∀ p : Reg16, Dest.p p.val ∉ dests i → t.rp p = s.rp p) ∧
      (∀ w, w ≠ s.cur → t.seqOf w = s.seqOf w) ∧
      (∀ h, { t.hearth h with seq := (s.hearth h).seq, regErr := (s.hearth h).regErr } = s.hearth h ∧
        ∀ e ∈ (t.hearth h).regErr, e ∈ (s.hearth h).regErr) ∧
      (∀ g, let c := s.core g; let c' := t.core g
        { c' with k := c.k, l := c.l, c := c.c, st := c.st, flight := c.flight, regErr := c.regErr } = c ∧
          (∀ e ∈ c'.regErr, e ∈ c.regErr) ∧ (s.cur ≠ .core g .C → c'.flight = c.flight) ∧ ∃ l, c'.flight = c.flight ++ l)

/-! ### Control -/

/-- R154 and R174: a branch goes to base + 4 x OFF21 when p[P] xor INV is true, else on; base is the word itself. R175: a
jump to an aligned, fetchable address; `jmp.link` gives the return address, the target being read first. A target that
is not a multiple of 4 raises ALIGN, one with a bit in 63:56 ACCESS. A transfer to a place outside the body of an active
loop makes it inactive (R177). R265: a fault of the target's fetch is a precise
fault of the transfer, which writes nothing; the END of an active loop is not fetched (R177). -/
def Obligations.BranchesAndJumps : Prop :=
  (∀ (s : State) (n : Bool) (p : Reg16) (o : BitVec 21) (w : W32) (c k : Nat) (y : W64), s.passes (.br n p o) = true →
     let b : Instr := .br n p o
     let x := s.me.pc + BitVec.ofInt 64 (4 * o.toInt)
     let taken := xor (s.rp p) n
     let atEnd := s.me.loop.active = true ∧ s.me.loop.fin = x
     (taken = false ∨ (s.begun b).fetchWord s.cur x = .ok w ∨ atEnd →
       ∃ t, exec b s = .next t ∧ t.mem = s.mem ∧ t.me.pc = (if taken then x else s.nextPc) ∧
         (∀ r, t.rs r = s.rs r) ∧ (∀ r, t.rp r = s.rp r) ∧ t.me.lc = s.me.lc ∧ t.me.esc = s.me.esc ∧
         t.me.loop = (if taken = true ∧ (x < s.me.loop.first ∨ s.me.loop.fin < x) then { s.me.loop with active := false }
           else s.me.loop)) ∧
     (taken = true → ¬ atEnd → (s.begun b).fetchWord s.cur x = .error (.fault c y k) → Raises b s (.fault c y k))) ∧
  (∀ (s : State) (d a : SReg) (c k : Nat) (y : W64),
     let x := s.rs a
     x.toNat % 4 = 0 → x.toNat < 2 ^ 56 → ¬ (s.me.loop.active = true ∧ s.me.loop.fin = x) →
     (s.passes (.jmpR a) = true → (s.begun (.jmpR a)).fetchWord s.cur x = .error (.fault c y k) →
       Raises (.jmpR a) s (.fault c y k)) ∧
     (s.passes (.jmpLink d a) = true → (s.begun (.jmpLink d a)).fetchWord s.cur x = .error (.fault c y k) →
       Raises (.jmpLink d a) s (.fault c y k))) ∧
  (∀ (s : State) (d a : SReg) (w : W32),
     let x := s.rs a
     (x.toNat % 4 = 0 → x.toNat < 2 ^ 56 → (s.begun (.jmpR a)).fetchWord s.cur x = .ok w →
       Answers (.jmpR a) s ((s.begun (.jmpR a)).goto x)) ∧
     (x.toNat % 4 = 0 → x.toNat < 2 ^ 56 → (s.begun (.jmpLink d a)).fetchWord s.cur x = .ok w →
       Answers (.jmpLink d a) s (((s.begun (.jmpLink d a)).putS .salu d s.nextPc).goto x)) ∧
     (∀ t : State, (t.goto x).me.pc = x ∧ (t.goto x).me.loop =
       if x < t.me.loop.first ∨ t.me.loop.fin < x then { t.me.loop with active := false } else t.me.loop) ∧
     (x.toNat % 4 ≠ 0 → s.passes (.jmpR a) = true → Raises (.jmpR a) s (align x)) ∧
     (x.toNat % 4 ≠ 0 → s.passes (.jmpLink d a) = true → Raises (.jmpLink d a) s (align x)) ∧
     (x.toNat % 4 = 0 → 2 ^ 56 ≤ x.toNat → s.passes (.jmpR a) = true → Raises (.jmpR a) s (access x)) ∧
     (x.toNat % 4 = 0 → 2 ^ 56 ≤ x.toNat → s.passes (.jmpLink d a) = true → Raises (.jmpLink d a) s (access x)))

/-- R176 and R30: `loop.sp`: LC, ESC and END as the fields give them, and the predicates of iteration 0, which in C are set
in the next cycle (R190); a trip count of 0 passes the body by; inside an active loop it raises ILLEGAL. R177 and R30:
the end of an iteration: the next one starts while t + 1 < LC + ESC, with p(8 + k) true when k <= ESC and 0 <= t + 1 - k
< LC; after the last one the loop is inactive and p8-p15 keep. VROT steps in C alone. -/
def Obligations.LoopControl : Prop :=
  (∀ (s : State) (c : Fin 8) (a : SReg) (i : BitVec 12), s.passes (.loopSp c a i) = true →
     (s.me.loop.active = true → Raises (.loopSp c a i) s illegal) ∧
     (s.me.loop.active = false → ∃ t, exec (.loopSp c a i) s = .next t ∧
       t.me.lc = (s.rs a).setWidth 32 ∧ t.me.esc.toNat = c.val ∧ t.mem = s.mem ∧ (∀ r, t.rs r = s.rs r) ∧
       (∀ r : Reg16, r.val < 8 → t.rp r = s.rp r) ∧
       (bf (s.rs a) 0 32 = 0 → t.me.pc = s.me.pc + BitVec.ofNat 64 (4 * i.toNat) ∧ t.me.loop.active = false ∧
         ∀ r, t.rp r = s.rp r) ∧
       (bf (s.rs a) 0 32 ≠ 0 → t.me.pc = s.nextPc ∧
         t.me.loop = { active := true, first := s.nextPc, fin := s.me.pc + BitVec.ofNat 64 (4 * i.toNat), t := 0 } ∧
         ((∀ g, s.cur ≠ .core g .C) → ∀ r : Reg16, 8 ≤ r.val → t.rp r = decide (r.val = 8)) ∧
         (∀ g, s.cur = .core g .C → (∀ r, t.rp r = s.rp r) ∧ (t.core g).flight = (s.core g).flight ++
           [{ left := 1, slot := s.curSlot, pc := s.me.pc, op := .stages }])))) ∧
  (∀ (s : State) (w : Who),
     let q := s.seqOf w
     s.canRun w = true → q.loop.active = true → q.pc = q.loop.fin →
     ∃ t, exec (.loopIterationEnd w) s = .next t ∧ t.mem = s.mem ∧ (∀ r, (t.seqOf w).rdS r = q.rdS r) ∧
       (t.seqOf w).lc = q.lc ∧ (t.seqOf w).esc = q.esc ∧ (∀ r : Reg16, r.val < 8 → (t.seqOf w).rdP r = q.rdP r) ∧
       (q.loop.t + 1 < q.lc.toNat + q.esc.toNat →
         (t.seqOf w).pc = q.loop.first ∧ (t.seqOf w).loop = { q.loop with t := q.loop.t + 1 } ∧
         ∀ k < 8, (t.seqOf w).rdP (idx 16 (8 + k)) =
           decide (k ≤ q.esc.toNat ∧ k ≤ q.loop.t + 1 ∧ q.loop.t + 1 - k < q.lc.toNat)) ∧
       (q.lc.toNat + q.esc.toNat ≤ q.loop.t + 1 →
         (t.seqOf w).pc = q.pc ∧ (t.seqOf w).loop.active = false ∧ ∀ r, (t.seqOf w).rdP r = q.rdP r) ∧
       (∀ g, (t.core g).vrot = if w = .core g .C then (s.core g).vrot + 1 else (s.core g).vrot))

/-- R181, R16, R182: NOP only goes on; END stops its sequencer, in C with what is in flight, and its gang form every
sequencer of the gang; TRAP takes trap n with operand s[a]; WEV consumes the event bit or waits for it. R74 and R187: a
fence only orders: on one interleaving (log 10) it goes on, changing no register and no memory; a release or full fence of
any scope above its own sequencer first waits for the operations its sequencer posted (R80), the model's reading (log 80).
-/
def Obligations.SystemWordsAndFences : Prop :=
  (∀ (s : State) (a : SReg) (n : Fin 32),
     Answers .sysNop s (s.begun .sysNop) ∧
     (s.passes (.sysEnd false) = true → ∃ t, exec (.sysEnd false) s = .next t ∧ t.me.run = .ended ∧ t.mem = s.mem ∧
       (∀ w, w ≠ s.cur → t.seqOf w = s.seqOf w) ∧ (∀ g, s.cur = .core g .C → (t.core g).flight = [])) ∧
     (∀ g, s.cur = .core g .K → s.passes (.sysEnd true) = true → ∃ t, exec (.sysEnd true) s = .next t ∧
       ∀ g' ∈ s.gang g, ∀ q, ((t.core g').seq q).run = .ended) ∧
     (s.passes (.sysTrap a n) = true → Raises (.sysTrap a n) s (.trap n (s.rs a))) ∧
     (s.me.event = true → s.passes .sysWev = true → ∃ t, exec .sysWev s = .next t ∧ t.me.event = false ∧
       t.me.pc = s.nextPc ∧ ∀ r, t.rs r = s.rs r) ∧
     (s.me.event = false → s.passes .sysWev = true → Waits .sysWev s)) ∧
  (∀ (s : State) (sc : Fin 8),
     let goes (i : Instr) : Prop := s.passes i = true →
       ∃ t, exec i s = .next t ∧ t.cores = (s.begun i).cores ∧ t.hearths = (s.begun i).hearths ∧ t.mem = s.mem
     goes (.ordAcq sc) ∧
     (s.postedBy = [] ∨ sc.val < 1 → goes (.ordRel sc) ∧ goes (.ordFull sc)) ∧
     (s.postedBy ≠ [] → 1 ≤ sc.val → s.passes (.ordRel sc) = true → Waits (.ordRel sc) s) ∧
     (s.postedBy ≠ [] → 1 ≤ sc.val → s.passes (.ordFull sc) = true → Waits (.ordFull sc) s))

/-! ### Scalar memory access -/

/-- R178 and R179: every load, from the address s[a] + sext(IMM12), where the address is aligned, reachable and readable,
and, of what its sequencer posted before, nothing that the bank units still hold (the last is the model's, log 10). The
value is the bytes from there, the first the least significant, zero- or sign-extended; an access asks the island it reaches
to run, and changes nothing else (R337). -/
def Obligations.ScalarLoadResults : Prop :=
  ∀ (s u : State) (d a : SReg) (g : Bool) (i : BitVec 12) (k : Nat),
    let ea := BitVec.ofInt 64 ((s.rs a).toInt + i.toInt)
    let good (j : Instr) (n : Nat) : Prop :=
      s.mustDrain ea = false ∧ ea.toNat % n = 0 ∧ (s.begun j).resolveFor s.cur ea { rd := true } = .ok k ∧
        (s.begun j).trackMe k n false ea = .ok u ∧ u.badIn k n = false ∧ u.poisoned k = false
    let gives (j : Instr) (n : Nat) (f : Nat → W64) : Prop :=
      good j n → Answers j s ((u.load k n).2.putS .salu d (f (u.load k n).1))
    gives (.ldsB8 d a g i) 1 (fun v => BitVec.ofNat 64 v) ∧
    gives (.ldsI8 d a g i) 1 (fun v => (BitVec.ofNat 8 v).signExtend 64) ∧
    gives (.ldsB16 d a g i) 2 (fun v => BitVec.ofNat 64 v) ∧
    gives (.ldsI16 d a g i) 2 (fun v => (BitVec.ofNat 16 v).signExtend 64) ∧
    gives (.ldsB32 d a g i) 4 (fun v => BitVec.ofNat 64 v) ∧
    gives (.ldsI32 d a g i) 4 (fun v => (BitVec.ofNat 32 v).signExtend 64) ∧
    gives (.ldsB64 d a g i) 8 (fun v => BitVec.ofNat 64 v) ∧
    (∀ n, isExt k = false → ∃ t, u.load k n =
      (((List.range n).map fun j => (Mem.read u.mem (k + j)).toNat * 2 ^ (8 * j)).sum, t) ∧
        { t with islands := u.islands } = u)

/-- R178 and R179: every store writes the low bytes of s[d] from the address s[a] + sext(IMM12), the least significant
first, and no other byte: the address is computed as the meaning does. R178, R298, R321 and R325: a store to an external
target is a message to it (log 15), for the partition's function; one through a failed link is discarded with a NOTE record,
which goes to every live partition by the model's choice (log 34). -/
def Obligations.ScalarStores : Prop :=
  (∀ (s u : State) (d a : SReg) (g : Bool) (i : BitVec 12) (k : Nat),
     let ea := BitVec.ofInt 64 ((s.rs a).toInt + i.toInt)
     let stores (j : Instr) (n : Nat) : Prop :=
       Memory.wf s.mem = true → s.passes j = true → s.mustDrain ea = false → ea.toNat % n = 0 →
       (s.begun j).resolveFor s.cur ea { w := true } = .ok k → (s.begun j).trackMe k n true ea = .ok u →
       isExt k = false → (isDev k = true → s.linkFailed (s.linkOf k) = false) →
       ∃ t, exec j s = .next t ∧ t.me.pc = s.nextPc ∧ (∀ r, t.rs r = s.rs r) ∧ (∀ p, t.rp p = s.rp p) ∧
         t.side = s.side ∧ t.sent = s.sent ∧
         (∀ b < n, Mem.read t.mem (k + b) = (s.rs d).extractLsb' (8 * b) 8) ∧
         (∀ x, x < k ∨ k + n ≤ x → Mem.read t.mem x = Mem.read s.mem x)
     stores (.stsB8 d a g i) 1 ∧ stores (.stsB16 d a g i) 2 ∧ stores (.stsB32 d a g i) 4 ∧ stores (.stsB64 d a g i) 8) ∧
  (∀ (s u : State) (d a : SReg) (g : Bool) (i : BitVec 12) (k : Nat),
     let ea := BitVec.ofInt 64 ((s.rs a).toInt + i.toInt)
     let elsewhere (j : Instr) (n : Nat) : Prop :=
       s.passes j = true → s.mustDrain ea = false → ea.toNat % n = 0 →
       (s.begun j).resolveFor s.cur ea { w := true } = .ok k → (s.begun j).trackMe k n true ea = .ok u →
       (isExt k = true → ∃ t, exec j s = .next t ∧ t.sent = u.sent ++
         [.extWrite (extFn k) (extTarget k) (extAddr k)
           ((List.range n).map fun b => (s.rs d).extractLsb' (8 * b) 8) none] ∧
         { t with sent := u.sent, islands := u.islands } = u) ∧
       (isDev k = true → isExt k = false → u.linkFailed (u.linkOf k) = true → ∃ t, exec j s = .next t ∧
         { t with due := u.due, islands := u.islands } = u ∧
         t.due = (u.postAll { cls := 2, code := 9, unit := 12, index := u.linkOf k, addr := k }).due)
     elsewhere (.stsB8 d a g i) 1 ∧ elsewhere (.stsB16 d a g i) 2 ∧ elsewhere (.stsB32 d a g i) 4 ∧
       elsewhere (.stsB64 d a g i) 8)

/-- R179: the checks of a scalar access in their order: the first that fails raises its fault precisely, and neither a
register nor a byte of memory changes with it (the record is written with the cycle, R309); shown for the widest load and
store. Of a poisoned line with an error in the bytes read UNCORRECTABLE is raised, the model's choice (log 91). A request
that a fabric port holds raises nothing yet: the sequencer waits at its place (R329). -/
def Obligations.ScalarAccessChecks : Prop :=
  ∀ (s u : State) (d a : SReg) (g : Bool) (i : BitVec 12) (k : Nat) (e : Exc) (r : Request),
    let ea := BitVec.ofInt 64 ((s.rs a).toInt + i.toInt)
    let ld : Instr := .ldsB64 d a g i
    let st : Instr := .stsB64 d a g i
    let held (j : Instr) (r : Request) : Prop :=
      exec j s = .next (s.setMe { s.me with wait := some (.word j), held := some r })
    s.mustDrain ea = false →
    (∀ (v : State) (c dt : Nat) (y : W64), let t := v.take (.fault c y dt)
      t.mem = v.mem ∧ t.side = v.side ∧ t.bad = v.bad ∧ t.sent = v.sent ∧
        (∀ w, (t.seqOf w).s = (v.seqOf w).s ∧ (t.seqOf w).p = (v.seqOf w).p ∧ (t.seqOf w).lc = (v.seqOf w).lc ∧
          (t.seqOf w).esc = (v.seqOf w).esc) ∧
        ∀ g, (t.core g).v = (v.core g).v ∧ (t.core g).fpcr = (v.core g).fpcr ∧ (t.core g).vshape = (v.core g).vshape ∧
          (t.core g).vrot = (v.core g).vrot ∧ (t.core g).tiles = (v.core g).tiles ∧ (t.core g).rings = (v.core g).rings ∧
          (t.core g).sems = (v.core g).sems) ∧
    (s.passes ld = true →
      (ea.toNat % 8 ≠ 0 → Raises ld s (align ea)) ∧
      (ea.toNat % 8 = 0 → (s.begun ld).resolveFor s.cur ea { rd := true } = .error (.hold r) → held ld r) ∧
      (e.holds = none → ea.toNat % 8 = 0 → (s.begun ld).resolveFor s.cur ea { rd := true } = .error e → Raises ld s e) ∧
      (ea.toNat % 8 = 0 → (s.begun ld).resolveFor s.cur ea { rd := true } = .ok k →
        (s.begun ld).trackMe k 8 false ea = .ok u →
        (u.badIn k 8 = true → Raises ld s (u.lost k 8 ea)) ∧
        (u.badIn k 8 = false → u.poisoned k = true → Raises ld s (poisonExc ea)))) ∧
    (s.passes st = true →
      (ea.toNat % 8 ≠ 0 → Raises st s (align ea)) ∧
      (ea.toNat % 8 = 0 → (s.begun st).resolveFor s.cur ea { w := true } = .error (.hold r) → held st r) ∧
      (e.holds = none → ea.toNat % 8 = 0 → (s.begun st).resolveFor s.cur ea { w := true } = .error e → Raises st s e))

/-! ### Special registers -/

/-- R148, R180 and R12: `csr.rd` gives the register zero-extended: FPCR, VSHAPE, LC, ESC and VROT, and the six identity
registers; the writing forms give it s[a], its bits set or its bits cleared, return the old value, and raise ILLEGAL for a
value that does not fit its width and map (R45, R192), for `csr.set` and `csr.clr` the combined value; a number outside the
table, a sequencer it does not allow, a write of an identity register, and of LC, ESC or VROT inside an active loop raise
ILLEGAL; in C the write is in flight for one C-stream cycle, and into FPCR the flags that landed in the cycle of the write
are ORed after it (R46). -/
def Obligations.SpecialRegisterAccess : Prop :=
  ∀ (s : State) (d a : SReg) (c : BitVec 12),
    let x := s.rs a
    GivesS (.csrRd d c) s .salu d (csrRead s c.toNat) ∧
    (csrFits c.toNat x = true → Answers (.csrWr a c) s (csrWrite (s.begun (.csrWr a c)) c.toNat x)) ∧
    (csrFits c.toNat (csrRead s c.toNat ||| x) = true → Answers (.csrSet d a c) s
      ((csrWrite (s.begun (.csrSet d a c)) c.toNat (csrRead s c.toNat ||| x)).putS .salu d (csrRead s c.toNat))) ∧
    (csrFits c.toNat (csrRead s c.toNat &&& ~~~x) = true → Answers (.csrClr d a c) s
      ((csrWrite (s.begun (.csrClr d a c)) c.toNat (csrRead s c.toNat &&& ~~~x)).putS .salu d (csrRead s c.toNat))) ∧
    (csrFits c.toNat x = false → s.passes (.csrWr a c) = true → Raises (.csrWr a c) s illegal) ∧
    (csrFits c.toNat (csrRead s c.toNat ||| x) = false → s.passes (.csrSet d a c) = true → Raises (.csrSet d a c) s illegal) ∧
    (csrFits c.toNat (csrRead s c.toNat &&& ~~~x) = false → s.passes (.csrClr d a c) = true →
      Raises (.csrClr d a c) s illegal) ∧
    (∀ (g : Nat) (q : SeqKind), s.cur = .core g q →
      let k := s.core g
      let n := k.ctx.getD {}
      csrRead s 0 = k.fpcr.setWidth 64 ∧ csrRead s 1 = k.vshape.setWidth 64 ∧ csrRead s 2 = (k.seq q).lc.setWidth 64 ∧
        csrRead s 3 = (k.seq q).esc.setWidth 64 ∧ csrRead s 4 = k.vrot.setWidth 64 ∧
        csrRead s 0x10 = BitVec.ofNat 64 (g / 128) ∧ csrRead s 0x11 = BitVec.ofNat 64 (g % 128) ∧
        csrRead s 0x12 = BitVec.ofNat 64 n.grk ∧ csrRead s 0x13 = BitVec.ofNat 64 n.gsz ∧
        csrRead s 0x14 = BitVec.ofNat 64 n.stg ∧ csrRead s 0x15 = BitVec.ofNat 64 n.nid) ∧
    (csrFits 0 x = decide (x &&& 0xFFFFFFFFFFFFC0F8 = 0)) ∧
    (csrFits 1 x = decide (bf x 22 42 = 0 ∧ 1 ≤ bf x 11 11 ∧ 1 ≤ bf x 0 11 ∧ bf x 11 11 * bf x 0 11 ≤ 1024)) ∧
    (csrFits 2 x = decide (x.toNat < 2 ^ 32)) ∧ (csrFits 3 x = decide (x.toNat < 8)) ∧ (csrFits 4 x = decide (x.toNat < 16)) ∧
    (∀ (g : Nat) (q : SeqKind), s.cur = .core g q →
      let own : Prop := c.toNat = 2 ∨ c.toNat = 3 ∨ (q = .C ∧ (c.toNat = 0 ∨ c.toNat = 1 ∨ c.toNat = 4))
      let closed : Prop := s.me.loop.active = true ∧ (c.toNat = 2 ∨ c.toNat = 3 ∨ c.toNat = 4)
      (¬ own → ¬ (0x10 ≤ c.toNat ∧ c.toNat ≤ 0x15) → Raises (.csrRd d c) s illegal) ∧
      (¬ own ∨ closed → Raises (.csrWr a c) s illegal ∧ Raises (.csrSet d a c) s illegal ∧ Raises (.csrClr d a c) s illegal)) ∧
    (∀ h, s.cur = .hearth h → Raises (.csrRd d c) s illegal ∧ Raises (.csrWr a c) s illegal ∧
      Raises (.csrSet d a c) s illegal ∧ Raises (.csrClr d a c) s illegal) ∧
    (∀ (u : State) (g : Nat) (q : SeqKind),
      (csrStore u (.core g q) 0 x).core g = { u.core g with fpcr := x.setWidth 32 } ∧
      (csrStore u (.core g q) 1 x).core g = { u.core g with vshape := x.setWidth 32 } ∧
      (csrStore u (.core g q) 4 x).core g = { u.core g with vrot := x.setWidth 4 }) ∧
    (∀ (u : State) (g : Nat) (q : SeqKind), u.cur = .core g q → q ≠ .C → csrFits 2 x = true → csrFits 3 x = true →
      (csrWrite u 2 x).me.lc = x.setWidth 32 ∧ (csrWrite u 3 x).me.esc = x.setWidth 3 ∧
        csrRead (csrWrite u 2 x) 2 = x ∧ csrRead (csrWrite u 3 x) 3 = x) ∧
    (∀ (u : State) (g : Nat), u.cur = .core g .C → (csrWrite u c.toNat x).core g =
      { u.core g with flight := (u.core g).flight ++
        [{ left := 1, slot := u.curSlot, pc := u.curAddr,
           op := .csr c.toNat (if c.toNat = 0 then x ||| (u.core g).landed.setWidth 64 else x) }] })

/-! ### Hearth cores -/

/-- R183 and R285: `priv.rd` and `priv.wr` of any register the level may reach; a number the table does not list, or of more
than 12 bits, raises ILLEGAL, a level below the register's raises PRIV, and a register that refuses the value, or the read,
raises what it refuses it by. A read of NSTAT clears NC, the model's reading (log 33). A write of NCMD waits while a command
is in progress (R291), and one of SIG for what the core has posted (R322). R183 and R156: a PRIV word raises PRIV in K of a
compute core and at level U, and ILLEGAL elsewhere on one. -/
def Obligations.PrivilegedRegisterWords : Prop :=
  (∀ (s t : State) (d a b : SReg) (h n : Nat) (v : W64) (e : Exc), s.cur = .hearth h → e.holds = none →
     let r : Instr := .privRd d a
     let w : Instr := .privWr a b
     ((s.begun r).regNumber h (s.rs a) false = .ok n → (s.begun r).rdReg h n = .ok v →
       Answers r s (((s.begun r).readAck h n).putS .salu d v)) ∧
     ((s.begun w).regNumber h (s.rs a) true = .ok n → n ≠ 0x840 → (n = 0x843 → (s.rs b).getLsbD 1 = false ∨ s.postedBy = []) →
       (s.begun w).wrReg h n (s.rs b) = .ok t → Answers w s t) ∧
     ((s.begun w).regNumber h (s.rs a) true = .ok n → (s.begun w).wrReg h n (s.rs b) = .ok t → s.passes w = true →
       ((n = 0x840 ∧ (s.hearth h).ncmd.isSome = true) ∨ (n = 0x843 ∧ (s.rs b).getLsbD 1 = true ∧ s.postedBy ≠ [])) →
       Waits w s) ∧
     ((s.begun w).regNumber h (s.rs a) true = .ok n → n = 0x840 → (s.hearth h).ncmd = none →
       (s.begun w).wrReg h n (s.rs b) = .ok t → Answers w s t) ∧
     (2 ^ 12 ≤ (s.rs a).toNat ∨ pregLevels (s.rs a).toNat = none → s.passes r = true → Raises r s illegal) ∧
     (2 ^ 12 ≤ (s.rs a).toNat ∨ pregLevels (s.rs a).toNat = none → s.passes w = true → Raises w s illegal) ∧
     ((s.rs a).toNat < 0x800 → pregLevels (s.rs a).toNat = none) ∧
     ((s.begun r).regNumber h (s.rs a) false = .ok n → (s.begun r).rdReg h n = .error e → s.passes r = true → Raises r s e) ∧
     ((s.begun w).regNumber h (s.rs a) true = .ok n → (s.begun w).wrReg h n (s.rs b) = .error e → s.passes w = true →
       Raises w s e) ∧
     (∀ lr lw, pregLevels (s.rs a).toNat = some (lr, lw) →
       ((s.hearth h).lv < lr → s.passes r = true → Raises r s privExc) ∧
       ((s.hearth h).lv < lw → s.passes w = true → Raises w s privExc))) ∧
  (∀ (i : Instr) (s : State), majorOf i = 0x0F →
     (∀ g, s.cur = .core g .K → Raises i s privExc) ∧
     (∀ g q, s.cur = .core g q → q ≠ .K → Raises i s illegal) ∧
     (∀ h, s.cur = .hearth h → (s.hearth h).lv = 0 → Raises i s privExc))

/-- R284: a fault or trap of a hearth core enters S from U and H from S or H: the saved address is the faulting
instruction's, for a trap the next one's; ECAUSE holds the class, the code, the old level and IE; IE is cleared; the pc
is EVEC + 64 x class. R284 and R286: `priv.ret` restores the level, IE and address that the last entry to the current
level saved; `priv.hcall` enters H from S with class 1 and its number and raises PRIV at H; `priv.wfi` goes on only with
an interrupt pending. -/
def Obligations.HearthEntryAndReturn : Prop :=
  (∀ (s : State) (h code detail : Nat) (addr : W64) (n : Fin 32) (v : W64), s.cur = .hearth h → (s.hearth h).lv ≤ 2 →
     let x := s.hearth h
     let f := (s.take (.fault code addr detail)).hearth h
     let p := (s.take (.trap n v)).hearth h
     let cause (cls c : Nat) : W64 := BitVec.ofNat 64 (cls + c * 2 ^ 8 + x.lv * 2 ^ 16 + x.ie.toNat * 2 ^ 18)
     (x.lv = 0 → f.lv = 1 ∧ f.es = { x.es with epc := s.curAddr, einfo := addr, ecause := cause 2 code } ∧ f.eh = x.eh ∧
       f.seq.pc = x.es.evec + 128 ∧ p.lv = 1 ∧ p.eh = x.eh ∧
       p.es = { x.es with epc := s.curAddr + 4, einfo := v, ecause := cause 0 n.val } ∧ p.seq.pc = x.es.evec) ∧
     (x.lv ≠ 0 → f.lv = 2 ∧ f.eh = { x.eh with epc := s.curAddr, einfo := addr, ecause := cause 2 code } ∧ f.es = x.es ∧
       f.seq.pc = x.eh.evec + 128 ∧ p.lv = 2 ∧ p.es = x.es ∧
       p.eh = { x.eh with epc := s.curAddr + 4, einfo := v, ecause := cause 0 n.val } ∧ p.seq.pc = x.eh.evec) ∧
     f.ie = false ∧ p.ie = false ∧ f.seq.s = x.seq.s ∧ p.seq.s = x.seq.s ∧
     (s.take (.fault code addr detail)).mem = s.mem ∧ (s.take (.trap n v)).mem = s.mem) ∧
  (∀ (s : State) (h : Nat) (x : Fin 32), s.cur = .hearth h →
     let y := s.hearth h
     let r := if y.lv = 1 then y.es else y.eh
     (s.passes .privRet = true → bf r.ecause 16 2 ≤ y.lv → bf r.ecause 16 2 ≠ 3 → ∃ t, exec .privRet s = .next t ∧
       (t.hearth h).lv = bf r.ecause 16 2 ∧ (t.hearth h).ie = r.ecause.getLsbD 18 ∧ (t.hearth h).seq.pc = r.epc ∧
       (t.hearth h).es = y.es ∧ (t.hearth h).eh = y.eh ∧ t.mem = s.mem ∧ ∀ k, t.rs k = s.rs k) ∧
     (s.passes (.privHcall x) = true → y.lv = 1 → ∃ t, exec (.privHcall x) s = .next t ∧
       (t.hearth h).lv = 2 ∧ (t.hearth h).ie = false ∧ (t.hearth h).seq.pc = y.eh.evec + 64 ∧
       (t.hearth h).eh = { y.eh with
         epc := y.seq.pc + 4, einfo := 0, ecause := BitVec.ofNat 64 (1 + x.val * 2 ^ 8 + 2 ^ 16 + y.ie.toNat * 2 ^ 18) } ∧
       (t.hearth h).es = y.es ∧ t.mem = s.mem ∧ ∀ k, t.rs k = s.rs k) ∧
     (s.passes (.privHcall x) = true → y.lv = 2 → Raises (.privHcall x) s privExc) ∧
     (s.pending h ≠ [] → Answers .privWfi s (s.begun .privWfi)) ∧
     (s.pending h = [] → s.passes .privWfi = true → Waits .privWfi s))

/-- R286 and R284: an interrupt that is pending, clear in its level's mask, and of a level above the current one, or equal
to it with IE set, is taken at an instruction boundary: class 3, the bit's number as code, the address of the next
instruction saved; a pending wait is left. The lowest such bit is taken. -/
def Obligations.InterruptEntryTakesTheLowest : Prop :=
  ∀ (s : State) (h b : Nat), h < numHearths → (s.hearth h).seq.run = .running → (s.hearth h).debug = false →
    let x := s.hearth h
    let open_ (c : Nat) : Prop := c ∈ s.pending h ∧ (x.lv < x.routed c ∨ (x.lv = x.routed c ∧ x.ie = true))
    open_ b → (∀ c < b, ¬ open_ c) →
    ∃ t, exec (.interruptEntry h) s = .next t ∧ t.mem = s.mem ∧ (t.hearth h).seq.s = x.seq.s ∧
      (t.hearth h).lv = x.routed b ∧ (t.hearth h).ie = false ∧ (t.hearth h).seq.wait = none ∧
      (x.routed b = 1 → (t.hearth h).es.epc = x.seq.pc ∧ (t.hearth h).seq.pc = x.es.evec + 192 ∧
        (t.hearth h).es.ecause = BitVec.ofNat 64 (3 + b * 2 ^ 8 + x.lv * 2 ^ 16 + x.ie.toNat * 2 ^ 18)) ∧
      (x.routed b = 2 → (t.hearth h).eh.epc = x.seq.pc ∧ (t.hearth h).seq.pc = x.eh.evec + 192 ∧
        (t.hearth h).eh.ecause = BitVec.ofNat 64 (3 + b * 2 ^ 8 + x.lv * 2 ^ 16 + x.ie.toNat * 2 ^ 18))

/-- R297, R298, R304: what a two-stage walk gives: stage 2 walks what stage 1 gives; the smaller page counts; a right needs
both leaves, and U the first. A right that stage 1 lacks, or only stage 2, and an address of the wrong class raise ACCESS
with the leaf's stage and level; a disabled root, an entry of TYPE 0, a malformed one, and a table line that is poisoned or
in error raise XLATE with their stage and level; a walk step takes its index from the level's bits, and a table's base or a
leaf's address from the entry. A table at or above the installed capacity is ACCESS without detail, the model's choice (log
89). R299 and R302: a walk that succeeds is held by its unit, which keeps what it held if it has room; one that fails is
not; `priv.tinv` with a good descriptor sends a request to every unit of its partition and to every hearth core, and waits
at its place; a unit drops the entries the request names and replies; with the last reply the instruction is over. -/
def Obligations.TranslationInvalidation : Prop :=
  ∀ (s : State) (h p : Nat) (a b : SReg) (t : Tinv) (u : Unit1) (va : W64) (e : Tlb) (l1 l2 : Leaf) (f : WalkFail), s.cur = .hearth h →
    let i : Instr := .privTinv a b
    let walk : Instr := .translationWalk u p va
    (s.serves u p = true → (inDevice va.toNat = true ∨ inAperture va.toNat = true) → s.walk p va.toNat = .ok (e, l1, l2) →
      ∃ r, exec walk s = .next r ∧ r.mem = s.mem ∧ e ∈ r.tlbOf u ∧ (∀ x ∈ r.tlbOf u, x ≠ e → x ∈ s.tlbOf u) ∧
        ((s.tlbOf u).length < unitSize u → ∀ x ∈ s.tlbOf u, x ∈ r.tlbOf u)) ∧
    (s.walk p va.toNat = .error f → exec walk s = .next s) ∧
    (s.passes i = true → (s.begun i).tinvErr h (s.rs a) (s.rs b) = none → (s.hearth h).tinv = none →
      (s.hearth h).posted = [] → ∃ r, exec i s = .next r ∧
        (r.hearth h).tinv = some { addr := s.rs a, desc := s.rs b, units := s.tinvUnits (bf (s.rs b) 4 4) } ∧
        (r.hearth h).seq = { (s.hearth h).seq with wait := some (.word i), held := none } ∧ r.mem = s.mem) ∧
    (s.passes i = true → (s.begun i).tinvErr h (s.rs a) (s.rs b) = none → (s.hearth h).tinv = none →
      (s.hearth h).posted ≠ [] → Waits i s) ∧
    (s.passes i = true → (s.begun i).tinvErr h (s.rs a) (s.rs b) = none →
      (s.hearth h).tinv = some { addr := s.rs a, desc := s.rs b, units := [] } → ∃ r, exec i s = .next r ∧
        (r.hearth h).tinv = none ∧ (r.hearth h).seq.pc = s.nextPc ∧ (r.hearth h).seq.wait = none ∧ r.mem = s.mem) ∧
    ((s.hearth h).tinv = some t → (∃ q ∈ s.requests, ∃ m, q.via = some m ∧ t.hits m = true) →
      exec (.tuInvalidation u h) s = .next s) ∧
    ((s.hearth h).tinv = some t → u ∈ t.units → (∀ q ∈ s.requests, ∀ m, q.via = some m → t.hits m = false) →
      ∃ r, exec (.tuInvalidation u h) s = .next r ∧ r.mem = s.mem ∧
      r.tlbOf u = (s.tlbOf u).filter (fun e => !t.hits e) ∧
      (r.hearth h).tinv = some { t with units := t.units.filter fun x => decide (x ≠ u) }) ∧
    (∀ (n : Need) (user : Bool) (v : Nat) (ts : List (Nat × Nat)),
      let b := min l1.bits l2.bits
      let y : W64 := BitVec.ofNat 64 v
      let miss (a : Leaf) (us : Bool) : Bool := (n.x && !a.x) || (n.w && !a.w) || (n.rd && !a.rd) || (us && !a.u)
      (s.stage1 p v = .error f → s.walk p v = .error f) ∧
      (s.stage1 p v = .ok (l1, ts) → s.stage2 p l1.out = .error f → s.walk p v = .error f) ∧
      (s.stage1 p v = .ok (l1, ts) → s.stage2 p l1.out = .ok l2 → ∃ m, s.walk p v = .ok (m, l1, l2) ∧ m.part = p ∧
        m.va = v / 2 ^ b * 2 ^ b ∧ m.size = 2 ^ b ∧ m.pa = l2.out / 2 ^ b * 2 ^ b ∧ m.ipa = l1.out / 2 ^ b * 2 ^ b ∧
        m.x = (l1.x && l2.x) ∧ m.w = (l1.w && l2.w) ∧ m.rd = (l1.rd && l2.rd) ∧ m.u = l1.u) ∧
      (∀ (ts : List Tlb) (q : Request) (m : Tlb), s.inFlight p v n user = some (q, m) →
        s.translate ts p v n user = s.extRequest q.key y (some m)) ∧
      (s.inFlight p v n user = none → s.walk p v = .error f →
        let code := if f.reason = 3 ∨ f.reason = 4 then 5 else 4
        let d := if f.reason = 4 then 0 else f.stage + f.level * 2 + f.reason * 16 +
          (match f.nested with | some l => 128 + l * 256 | none => 0)
        s.translate [] p v n user =
          .error (match f.lost with | some k => .caused (.store k) code y d | none => .fault code y d)) ∧
      (s.inFlight p v n user = none → s.walk p v = .ok (e, l1, l2) →
        (miss l1 user = true → s.translate [] p v n user = .error (.fault 5 y (l1.level * 2 + 48))) ∧
        (miss l1 user = false → miss l2 false = true →
          s.translate [] p v n user = .error (.fault 5 y (1 + l2.level * 2 + 48))) ∧
        (miss l1 user = false → miss l2 false = false → inAperture v ≠ isExt (e.pa + (v - e.va)) →
          s.translate [] p v n user = .error (.fault 5 y (1 + l2.level * 2 + 48))) ∧
        (miss l1 user = false → miss l2 false = false → inAperture v = false → isExt (e.pa + (v - e.va)) = false →
          s.translate [] p v n user =
            if e.pa + (v - e.va) < s.capacity then .ok (e.pa + (v - e.va)) else .error (access y))) ∧
      (bf (s.part p).ttbH 0 1 = 0 → s.stage2 p v = .error { reason := 0, level := 0, stage := 1 }) ∧
      (bf (s.part p).ttbS 0 1 = 0 → s.stage1 p v = .error { reason := 0, level := 0, stage := 0 }) ∧
      (∀ k lvl base, lvl ≤ 4 →
        let ea := base + fld v (lvlShift lvl) (lvlBits lvl) * 8
        let w := Mem.readN s.mem ea 8
        isExt ea = false → ea < s.capacity →
        (s.isBad ea = true → s.walk2 v (k + 1) lvl base = .error { reason := 2, level := lvl, stage := 1, lost := some ea }) ∧
        (s.isBad ea = false → s.poisoned ea = true →
          s.walk2 v (k + 1) lvl base = .error { reason := 2, level := lvl, stage := 1 }) ∧
        (s.poisoned ea = false → s.isBad ea = false →
          (w % 4 = 0 → s.walk2 v (k + 1) lvl base = .error { reason := 0, level := lvl, stage := 1 }) ∧
          (w % 4 = 3 ∨ (w % 4 ≠ 0 ∧ (fld w 52 12 ≠ 0 ∨ fld w 6 2 ≠ 0 ∨ fld w 2 1 = 1)) →
            s.walk2 v (k + 1) lvl base = .error { reason := 1, level := lvl, stage := 1 }) ∧
          (w % 4 = 1 → malformed true lvl w = false →
            s.walk2 v (k + 1) lvl base = s.walk2 v k (lvl + 1) (fld w 8 44 * 2 ^ 8)) ∧
          (w % 4 = 2 → malformed true lvl w = false → ∃ l, s.walk2 v (k + 1) lvl base = .ok l ∧
            l.out = fld w (lvlShift lvl) (52 - lvlShift lvl) * 2 ^ lvlShift lvl + v % 2 ^ lvlShift lvl ∧
            l.x = (fld w 5 1 == 1) ∧ l.w = (fld w 4 1 == 1) ∧ l.rd = (fld w 3 1 == 1) ∧ l.level = lvl))))

/-! ### Rings, semaphores, barriers, fences -/

/-- R58 whole: a configuration with a reserved bit, one whose ring would pass offset 0xF_FFFF, one of a ring with CLAIMED
other than HEAD, and one of a ring that an outstanding engine command names raise RING; any other writes word 0 and sets
HEAD, TAIL, CLAIMED and DONE to 0. -/
def Obligations.RingConfiguration : Prop :=
  ∀ (s : State) (g : Nat) (q : SeqKind) (a : Reg16) (b : SReg), s.cur = .core g q → s.passes (.ringCfg a b) = true →
    let w := s.rs b
    let bad := bf w 27 37 ≠ 0 ∨ 0xFFFFF < (bf w 0 12 + (bf w 21 6 + 1) * (bf w 12 9 + 1)) * 256 - 1 ∨
      (s.ring g a).claimed ≠ (s.ring g a).head ∨ s.ringBusy g a = true
    (bad → Raises (.ringCfg a b) s ringExc ∧ ∀ t, exec (.ringCfg a b) s = .next t → t.ring g a = s.ring g a) ∧
    (¬bad → exec (.ringCfg a b) s = .next ((s.begun (.ringCfg a b)).setRing g a { cfg := w }))

/-- R184: the count word: m in bits 15:0; without REM every other bit is 0, with REM bits 22:16 name the core; a non-zero
bit besides raises RING. R59 and R184: claim, commit, the two waits, pop and read of a ring, local or remote as the
count word says: the ticket is the old CLAIMED, counters run modulo W; counts out of range raise RING, and a wait keeps
its place. R182: a commit and a pop set the event bits of the ring's core. The address in the ACCESS of a core that runs
another partition's node, 0x1000000 + COR x 2^20, is the model's reading (log 44). -/
def Obligations.RingOperations : Prop :=
  (∀ (s : State) (g : Nat) (q : SeqKind) (b : W64), s.cur = .core g q →
     s.countWord b false = (if b.toNat < 2 ^ 16 then .ok (b.toNat, g) else .error ringExc) ∧
     (2 ^ 23 ≤ b.toNat → s.countWord b true = .error ringExc) ∧
     (b.toNat < 2 ^ 23 → cidOf g * 128 + bf b 16 7 = g → s.countWord b true = .ok (bf b 0 16, g)) ∧
     (b.toNat < 2 ^ 23 → cidOf g * 128 + bf b 16 7 ≠ g → s.runsPart (cidOf g * 128 + bf b 16 7) = none →
       s.countWord b true = .ok (bf b 0 16, cidOf g * 128 + bf b 16 7)) ∧
     (∀ p, b.toNat < 2 ^ 23 → cidOf g * 128 + bf b 16 7 ≠ g → s.runsPart (cidOf g * 128 + bf b 16 7) = some p →
       s.countWord b true = if p = s.partFor s.cur then .ok (bf b 0 16, cidOf g * 128 + bf b 16 7)
         else .error (access (BitVec.ofNat 64 (0x1000000 + bf b 16 7 * 2 ^ 20))))) ∧
  (∀ (s : State) (g k : Nat) (d b : SReg) (a : Reg16) (m : Bool) (r' : Ring),
     let r := s.ring g a
     let cl : Instr := .ringClaim d a b m
     let cm : Instr := .ringCommit d a b m
     let wr : Instr := .ringWaitr a b m
     let wf : Instr := .ringWaitf a b false
     let pp : Instr := .ringPop a b false
     (s.passes cl = true → (s.begun cl).countWord (s.rs b) m = .ok (k, g) →
       (k = 0 ∨ r.n < k → Raises cl s ringExc) ∧
       (1 ≤ k → k ≤ r.n → r.free < k → Waits cl s) ∧
       (1 ≤ k → k ≤ r.free → ∃ t : State, exec cl s = .next (t.putS .salu d (BitVec.ofNat 64 r.claimed)) ∧ t.mem = s.mem ∧
         (∀ x, t.rs x = s.rs x) ∧ t.me.pc = s.nextPc ∧ t.ring g a = { r with claimed := (r.claimed + k) % r.w })) ∧
     (s.passes cm = true → (s.begun cm).countWord (s.rs b) m = .ok (k, g) →
       (2 ^ 16 ≤ (s.rs d).toNat → Raises cm s ringExc) ∧
       ((s.rs d).toNat < 2 ^ 16 → r.commit (s.rs d).toNat k = none → Raises cm s ringExc) ∧
       ((s.rs d).toNat < 2 ^ 16 → r.commit (s.rs d).toNat k = some r' → ∃ t, exec cm s = .next t ∧ t.ring g a = r' ∧
         t.mem = s.mem ∧ (∀ x, t.rs x = s.rs x) ∧ ∀ q, ((t.core g).seq q).event = true)) ∧
     (s.passes wr = true → (s.begun wr).countWord (s.rs b) m = .ok (k, g) →
       (r.n < k → Raises wr s ringExc) ∧ (k ≤ r.n → r.free < k → Waits wr s) ∧
       (k ≤ r.n → k ≤ r.free → exec wr s = .next (s.begun wr))) ∧
     (s.passes wf = true → (s.begun wf).countWord (s.rs b) false = .ok (k, g) →
       (r.n < k → Raises wf s ringExc) ∧ (k ≤ r.n → r.filled < k → Waits wf s) ∧
       (k ≤ r.n → k ≤ r.filled → ∃ t, exec wf s = .next t ∧ t.mem = s.mem ∧ t.cores = (s.begun wf).cores)) ∧
     (s.passes pp = true → (s.begun pp).countWord (s.rs b) false = .ok (k, g) →
       (r.filled < k ∨ s.ringBusy g a = true → Raises pp s ringExc) ∧
       (k ≤ r.filled → s.ringBusy g a = false → ∃ t, exec pp s = .next t ∧ t.mem = s.mem ∧
         t.ring g a = { r with head := (r.head + k) % r.w } ∧ ∀ q, ((t.core g).seq q).event = true)) ∧
     (s.passes (.ringWaitf a b true) = true → Raises (.ringWaitf a b true) s ringExc) ∧
     (s.passes (.ringPop a b true) = true → Raises (.ringPop a b true) s ringExc) ∧
     (∀ q, s.cur = .core g q → ∃ t : State,
       Answers (.ringRd d a) s (t.putS .salu d (BitVec.ofNat 64 (r.head + r.tail * 2 ^ 16 + r.claimed * 2 ^ 32))) ∧
       { t with hazard := s.hazard } = s.begun (.ringRd d a)))

/-- R61 and R185: an addition to a semaphore of this core, or of core s[d][6:0] of the cluster, is modulo 2^32 and sets that
core's event bits (R182); a wait compares unsigned; a read is zero-extended. R62 and R186: an arrival records the phase
as seen; the one that makes the count P completes the phase and sets the count to 0. A wait goes on once the phase
differs from the one seen, or none was seen. `gbar.sync` arrives and then waits past its word. -/
def Obligations.SemaphoresAndBarriers : Prop :=
  (∀ (s : State) (g g' : Nat) (q : SeqKind) (d b : SReg) (a : Reg16), s.cur = .core g q →
     let x : W32 := (s.rs b).setWidth 32
     let ra : Instr := .semAdd d a b true
     let la : Instr := .semAdd d a b false
     let w : Instr := .semWaitge a b
     (s.passes la = true → ∃ t, exec la s = .next t ∧ (t.core g).sems.get a = (s.core g).sems.get a + x ∧
       (∀ c, c ≠ a → (t.core g).sems.get c = (s.core g).sems.get c) ∧ (∀ k, ((t.core g).seq k).event = true) ∧
       t.mem = s.mem ∧ (∀ r, t.rs r = s.rs r) ∧ t.me.pc = s.nextPc) ∧
     (s.passes ra = true → (s.rs d).toNat < 128 → (s.begun ra).windowCore (s.rs d).toNat = .ok g' →
       ∃ t, exec ra s = .next t ∧ (t.core g').sems.get a = (s.core g').sems.get a + x ∧
         (∀ k, ((t.core g').seq k).event = true) ∧ t.mem = s.mem ∧ ∀ r, t.rs r = s.rs r) ∧
     (s.passes ra = true → 128 ≤ (s.rs d).toNat → Raises ra s (access 0)) ∧
     (s.passes w = true → x.toNat ≤ ((s.core g).sems.get a).toNat →
       ∃ t, exec w s = .next t ∧ t.cores = (s.begun w).cores ∧ t.mem = s.mem) ∧
     (s.passes w = true → ((s.core g).sems.get a).toNat < x.toNat → Waits w s) ∧
     (∃ t : State, Answers (.semRd d a) s (t.putS .salu d (BitVec.ofNat 64 ((s.core g).sems.get a).toNat)) ∧
       { t with hazard := s.hazard } = s.begun (.semRd d a))) ∧
  (∀ (s : State) (g : Nat) (q : SeqKind) (a : Reg16), s.cur = .core g q →
     let n := s.barNo g a
     let x := (s.cluster (cidOf g)).bars.get n
     let arrives (i : Instr) (t : State) : Prop := exec i s = .next t ∧ t.me.seen.get a = some x.phase ∧
       t.mem = s.mem ∧ t.me.pc = s.nextPc ∧ (∀ r, t.rs r = s.rs r) ∧
       (x.count + 1 < x.p → (t.cluster (cidOf g)).bars.get n = { x with count := x.count + 1 }) ∧
       (x.p ≤ x.count + 1 → (t.cluster (cidOf g)).bars.get n = { x with count := 0, phase := x.phase + 1 })
     (s.passes (.gbarArr a) = true → ∃ t, arrives (.gbarArr a) t ∧ t.me.sync = s.me.sync) ∧
     (s.passes (.gbarSync a) = true → x.count + 1 < x.p → ∃ t, arrives (.gbarSync a) t ∧ t.me.sync = some a) ∧
     (s.passes (.gbarSync a) = true → x.p ≤ x.count + 1 → ∃ t, arrives (.gbarSync a) t ∧ t.me.sync = s.me.sync) ∧
     (s.passes (.gbarWait a) = true → s.me.seen.get a ≠ some x.phase →
       ∃ t, exec (.gbarWait a) s = .next t ∧ t.cores = (s.begun (.gbarWait a)).cores ∧ t.mem = s.mem ∧
         t.clusters = s.clusters) ∧
     (s.passes (.gbarWait a) = true → s.me.seen.get a = some x.phase → Waits (.gbarWait a) s))

/-! ### Vectors -/

/-- R193, R29, R192: a vector result is in flight for the assumed latency of its class, for the physical register that its
name selects under VROT at issue, with the flags that go with it; nothing else changes. R21, R46, R192, R207: what is
due in C lands: a scalar, predicate or vector result reaches its register, a vector result only its first lanes, with
its flags ORed into FPCR; a load reads then, and a store or a residue conversion (R206) writes then; the operation leaves
those in flight. R228, R78: a tile is read when no earlier matrix command is still to write it and no error in it is pending;
until then the core is frozen. -/
def Obligations.VectorResultsLand : Prop :=
  (∀ (s : State) (g : Nat) (k : Machine.Lat) (d : VReg) (xs : List W32) (fl : W32), s.cur = .core g .C →
     let r : VReg := if d.val < 16 then d else idx 32 (16 + (d.val + (s.core g).vrot.toNat) % 16)
     s.putV k d (xs, fl) = s.setCore g { s.core g with flight := (s.core g).flight ++
       [{ left := (s.core g).latency k, slot := s.curSlot, pc := s.curAddr, op := .vec r xs, flags := fl }] }) ∧
  (∀ (s u : State) (g : Nat) (f : Flight) (r : VReg) (x : SReg) (p : Reg16) (v : W64) (b : Bool) (xs : List W32)
     (t : Fin 8) (eas : List W64) (items : List (W64 × W32)) (half : Bool) (dst ctrl : W64) (fp fl : W32) (tr : TReg) (pt n m : Nat),
     let c := s.core g
     let rest := c.flight.filter fun f => decide (f.left ≠ 0)
     let bare := ({ s with cur := .core g .C } : State).setCore g { c with flight := rest }
     c.flight.filter (fun f => decide (f.left = 0)) = [f] →
     (f.op = .sreg x v → ∃ w, exec (.cStreamLanding g) s = .next w ∧ w.mem = s.mem ∧ (w.core g).flight = rest ∧
       (w.core g).fpcr = c.fpcr ||| f.flags ∧ (w.core g).c.rdS x = (if x = 0 then 0 else v) ∧
       (∀ y, y ≠ x → (w.core g).c.rdS y = c.c.rdS y) ∧ (w.core g).v = c.v) ∧
     (f.op = .preg p b → ∃ w, exec (.cStreamLanding g) s = .next w ∧ (w.core g).flight = rest ∧
       (w.core g).c.rdP p = (decide (p = 0) || b) ∧ ∀ y, y ≠ p → (w.core g).c.rdP y = c.c.rdP y) ∧
     (f.op = .vec r xs → ∃ w, exec (.cStreamLanding g) s = .next w ∧ w.mem = s.mem ∧ (w.core g).flight = rest ∧
       (w.core g).fpcr = c.fpcr ||| f.flags ∧ (w.core g).landed = f.flags ∧ (w.core g).v.get r = xs ++ (c.v.get r).drop xs.length ∧
       ∀ y, y ≠ r → (w.core g).v.get y = c.v.get y) ∧
     (f.op = .load r t eas → bare.landLoad g t eas = .ok (xs, u) → ∃ w, exec (.cStreamLanding g) s = .next w ∧
       w.mem = s.mem ∧ (w.core g).v.get r = xs ++ (c.v.get r).drop xs.length ∧
       ∀ y, y ≠ r → (w.core g).v.get y = c.v.get y) ∧
     (f.op = .store t items → bare.landStore g t items = .ok u → ∃ w, exec (.cStreamLanding g) s = .next w ∧
       w.mem = u.mem ∧ (w.core g).v = c.v ∧ (w.core g).flight = rest) ∧
     (f.op = .convert t half xs dst ctrl fp → bare.landConvert g t half xs dst ctrl fp = .ok (fl, u) →
       ∃ w, exec (.cStreamLanding g) s = .next w ∧ w.mem = u.mem ∧ w.side = u.side ∧ (w.core g).v = c.v ∧
         (w.core g).fpcr = c.fpcr ||| fl ∧ (w.core g).flight = rest) ∧
     (f.op = .csr 0 v → ∃ w, exec (.cStreamLanding g) s = .next w ∧ (w.core g).fpcr = v.setWidth 32 ||| f.flags ∧
       (w.core g).v = c.v) ∧
     (f.op = .accRd r tr pt n m → let x := c.tiles.getD tr.val {}
       let free := x.err = [] ∧ ∀ y ∈ c.mq.cmds, y.order < m → tr ∉ y.cmd.writesTiles
       (¬ free → exec (.cStreamLanding g) s = .next (({ s with cur := .core g .C } : State).startFreeze .accumulator 0)) ∧
       (free → x.tent = false → x.poison = false → ∃ w, exec (.cStreamLanding g) s = .next w ∧ w.mem = s.mem ∧
         (w.core g).v.get r = (List.range n).map (fun e => if x.cnt = 0 ∧ x.closed = false then 0 else (x.vals[1024 * pt + e]?).getD 0) ++ (c.v.get r).drop n ∧
         ∀ y, y ≠ r → (w.core g).v.get y = c.v.get y)))

/-- R195, R196 and R197: the operations of VFP and VFMA lane by lane over lanes 0 to n - 1, under RM and FTZ as they are at
issue, with the flags of all lanes ORed together; in VFMA the old destination is the third operand. R212: the special
functions lane by lane under RM and FTZ at issue, landing at the VSFU latency. -/
def Obligations.VectorFloatResults : Prop :=
  (∀ (s : State) (d a b : VReg) (t : Fin 8),
     let md := modeOf (s.core s.meCore).fpcr (t == 1)
     let one (i : Instr) (f : Machine.Num → Res) : Prop :=
       let r := collect ((s.rv a).map fun x => f (md.rd x))
       GivesV i s .vfp d r.1 r.2
     let two (i : Instr) (f : Machine.Num → Machine.Num → Res) : Prop :=
       let r := collect (List.zipWith (fun x y => f (md.rd x) (md.rd y)) (s.rv a) (s.rv b))
       GivesV i s .vfp d r.1 r.2
     let three (i : Instr) (f : Machine.Num → Machine.Num → Machine.Num → Res) : Prop :=
       let r := collect (List.zipWith (fun p z => f (md.rd p.1) (md.rd p.2) (md.rd z)) ((s.rv a).zip (s.rv b)) (s.rv d))
       GivesV i s .vfma d r.1 r.2
     let signedBy (f : Bool → Bool) (x : Machine.Num) : Res := match x with
       | .nan _ => { bits := 0x7FC00000 }
       | .inf n => md.wr (.inf (f n))
       | .fin n m e => { bits := (md.wr (.fin (f n) m e)).bits }
     two (.vfpAdd d a b t) (fpAdd md) ∧
     two (.vfpSub d a b t) (fun x y => fpSub md x y) ∧
     two (.vfpMul d a b t) (fpMul md) ∧
     two (.vfpMin d a b t) (fpMin md) ∧
     two (.vfpMax d a b t) (fpMax md) ∧
     one (.vfpAbs d a t) (signedBy fun _ => false) ∧
     one (.vfpNeg d a t) (signedBy not) ∧
     (let r := collect (List.zipWith (fun x (y : W32) => signedBy (fun _ => y.getLsbD 31) (md.rd x)) (s.rv a) (s.rv b));
       GivesV (.vfpCpsgn d a b t) s .vfp d r.1 r.2) ∧
     three (.vfmaFma d a b t) (fun x y z => fpFma md x y z) ∧
     three (.vfmaFms d a b t) (fun x y z => fpFma md x y z.neg) ∧
     three (.vfmaFnma d a b t) (fun x y z => fpFma md x.neg y z) ∧
     three (.vfmaFnms d a b t) (fun x y z => fpFma md x.neg y z.neg)) ∧
  (∀ (s : State) (d a b : VReg) (t : Fin 8),
     let md := modeOf (s.core s.meCore).fpcr (t == 1)
     let one (i : Instr) (f : Machine.Num → Res) : Prop :=
       let r := collect ((s.rv a).map fun x => f (md.rd x))
       GivesV i s .vsfu d r.1 r.2
     one (.vsfuRcp d a t) (fun x => fpDiv md (.fin false 1 0) x) ∧
     one (.vsfuRsqrt d a t) (fpRsqrt md) ∧
     one (.vsfuSqrt d a t) (fpSqrt md) ∧
     (let r := collect (List.zipWith (fun x y => fpDiv md (md.rd x) (md.rd y)) (s.rv a) (s.rv b));
       GivesV (.vsfuDiv d a b t) s .vsfu d r.1 r.2) ∧
     one (.vsfuExp d a t) (fpExp md) ∧ one (.vsfuExp2 d a t) (fpExp2 md) ∧
     one (.vsfuLn d a t) (fpLn md) ∧ one (.vsfuLog2 d a t) (fpLog2 md) ∧
     one (.vsfuSin d a t) (fpSin md) ∧ one (.vsfuCos d a t) (fpCos md) ∧
     one (.vsfuTanh d a t) (fpTanh md) ∧ one (.vsfuSigm d a t) (fpSigm md))

/-- R195, R196, R197: a NaN operand gives the canonical NaN, with NV just for a signalling one; x - x and an exact zero sum
of opposite signs are +0 but -0 under RDN; min and max take -0 below +0; an infinity times zero is invalid in a fused
operation even with a quiet NaN to add. R212's table of special values, in every rounding mode: infinities, zeros and
negative arguments, all exact. -/
def Obligations.FloatingSpecialCases : Prop :=
  (∀ (md : Mode) (y : Machine.Num) (sg n n' : Bool) (m : Nat) (e e' : Int),
     let q (r : Res) (v : Bool) : Prop := r = { bits := 0x7FC00000, flags := if v then 1 else 0 }
     (y.isNan = false → q (fpAdd md (.nan sg) y) sg ∧ q (fpAdd md y (.nan sg)) sg ∧ q (fpMul md (.nan sg) y) sg ∧
       q (fpMin md (.nan sg) y) sg ∧ q (fpMax md y (.nan sg)) sg) ∧
     q (fpAdd md (.inf n) (.inf !n)) true ∧
     fpSub md (.fin n m e) (.fin n m e) = { bits := if md.rm = 3 then 0x80000000 else 0 } ∧
     fpMin md (.fin true 0 e) (.fin false 0 e') = { bits := 0x80000000 } ∧
     fpMax md (.fin true 0 e) (.fin false 0 e') = { bits := 0 } ∧
     fpMin md (.fin false 0 e) (.fin true 0 e') = { bits := 0x80000000 } ∧
     q (fpFma md (.inf n) (.fin n' 0 e) (.nan false)) true ∧
     q (fpMul md (.fin n' 0 e) (.inf n)) true ∧
     fpMul md (.inf n) (.inf n') = { bits := (if n = n' then 0 else 0x80000000) + 0x7F800000 }) ∧
  (∀ (md : Mode) (n sg : Bool) (m : Nat) (e : Int), 0 < m →
     let nan : Res := { bits := 0x7FC00000, flags := 1 }
     let zero : Res := { bits := 0 }
     let inf : Res := { bits := 0x7F800000 }
     let one : Res := { bits := 0x3F800000 }
     let sign (n : Bool) : Nat := if n then 0x80000000 else 0
     fpRcp md (.inf n) = { bits := sign n } ∧ fpRcp md (.fin n 0 e) = { bits := sign n + 0x7F800000, flags := 2 } ∧
     fpRsqrt md (.inf true) = nan ∧ fpRsqrt md (.inf false) = zero ∧
     fpRsqrt md (.fin n 0 e) = { bits := sign n + 0x7F800000, flags := 2 } ∧ fpRsqrt md (.fin true m e) = nan ∧
     fpSqrt md (.inf true) = nan ∧ fpSqrt md (.inf false) = inf ∧ fpSqrt md (.fin n 0 e) = { bits := sign n } ∧
     fpSqrt md (.fin true m e) = nan ∧
     fpExp md (.inf true) = zero ∧ fpExp md (.inf false) = inf ∧ fpExp md (.fin n 0 e) = one ∧
     fpExp2 md (.inf true) = zero ∧ fpExp2 md (.inf false) = inf ∧ fpExp2 md (.fin n 0 e) = one ∧
     fpLn md (.inf true) = nan ∧ fpLn md (.inf false) = inf ∧ fpLn md (.fin n 0 e) = { bits := 0xFF800000, flags := 2 } ∧
     fpLn md (.fin true m e) = nan ∧ fpLn md (.fin false 1 0) = zero ∧
     fpLog2 md (.inf true) = nan ∧ fpLog2 md (.inf false) = inf ∧
     fpLog2 md (.fin n 0 e) = { bits := 0xFF800000, flags := 2 } ∧ fpLog2 md (.fin true m e) = nan ∧
     fpLog2 md (.fin false 1 0) = zero ∧
     fpSin md (.inf n) = nan ∧ fpSin md (.fin n 0 e) = { bits := sign n } ∧
     fpCos md (.inf n) = nan ∧ fpCos md (.fin n 0 e) = one ∧
     fpTanh md (.inf n) = { bits := sign n + 0x3F800000 } ∧ fpTanh md (.fin n 0 e) = { bits := sign n } ∧
     fpSigm md (.inf true) = zero ∧ fpSigm md (.inf false) = one ∧ fpSigm md (.fin n 0 e) = { bits := 0x3F000000 } ∧
     (∀ f ∈ [fpRcp, fpRsqrt, fpSqrt, fpExp, fpExp2, fpLn, fpLog2, fpSin, fpCos, fpTanh, fpSigm],
       f md (.nan sg) = { bits := 0x7FC00000, flags := if sg then 1 else 0 }))

/-- R195, R45: rounding of a non-zero finite value (m + d) x 2^e to binary32 or BF16: unless it overflows, the lane's value
differs from the exact one by less than a unit of the last place at that magnitude, under RNE by at most half of one, under
RTZ, RUP and RDN to the side they name; and NX is raised just when it differs. Without FTZ. R196, R197, R212: a sum, a
difference, a product and a fused product of finite operands is the exact result so rounded; a quotient, a root and an inverse
root is rounded from 40 bits or more of the exact one and whether more follow; operands compare by value. -/
def Obligations.RoundingStaysWithinOneUnit : Prop :=
  ∀ (rm : Nat) (bf16 neg : Bool) (m : Nat) (e : Int), m ≠ 0 → rm < 4 →
    let md : Mode := { rm := rm, ftz := false, bf := bf16 }
    let val (n : Bool) (m : Nat) (e : Int) : ℚ := (if n then -1 else 1) * m * 2 ^ e
    (∀ d : ℚ, 0 ≤ d → d < 1 → d = 0 ∨ 2 ^ 30 ≤ m →
      let r := md.round neg m e (decide (d ≠ 0))
      let unit : ℚ := 2 ^ (max (e + Nat.log2 m) (-126) - md.frac)
      let exact : ℚ := (m + d) * 2 ^ e
      fld r.flags 2 1 = 0 → ∃ (m' : Nat) (e' : Int), ofBits r.bits = .fin neg m' e' ∧ r.bits < 2 ^ 32 ∧
        |(m' : ℚ) * 2 ^ e' - exact| < unit ∧
        (rm = 0 → |(m' : ℚ) * 2 ^ e' - exact| ≤ unit / 2) ∧
        (rm = 1 → (m' : ℚ) * 2 ^ e' ≤ exact) ∧
        (rm = 2 → (if neg then -exact else exact) ≤ val neg m' e') ∧
        (rm = 3 → val neg m' e' ≤ if neg then -exact else exact) ∧
        (fld r.flags 4 1 = 0 ↔ (m' : ℚ) * 2 ^ e' = exact)) ∧
    (∀ (n1 n2 n3 : Bool) (m1 m2 m3 : Nat) (e1 e2 e3 : Int),
      let a : Machine.Num := .fin n1 m1 e1
      let b : Machine.Num := .fin n2 m2 e2
      let va := val n1 m1 e1
      let vb := val n2 m2 e2
      let rounds (r : Res) (v : ℚ) : Prop := ∃ n k j, val n k j = v ∧
        r = if k = 0 then { bits := if n then 0x80000000 else 0 } else md.round n k j false
      let near (f : Machine.Res) (n : Bool) (p : Nat) (v : ℚ) : Prop := ∃ (k : Nat) (j : Int) (st : Bool), f = md.round n k j st ∧
        2 ^ 40 ≤ k ∧ ((k : ℚ) * 2 ^ j) ^ p ≤ v ∧ v < ((k + 1 : ℚ) * 2 ^ j) ^ p ∧ (st = true ↔ ((k : ℚ) * 2 ^ j) ^ p ≠ v)
      rounds (fpAdd md a b) (va + vb) ∧ rounds (fpSub md a b) (va - vb) ∧ rounds (fpMul md a b) (va * vb) ∧
      rounds (fpFma md a b (.fin n3 m3 e3)) (va * vb + val n3 m3 e3) ∧
      a.lt b = decide (va < vb) ∧
      (m1 ≠ 0 → m2 ≠ 0 → near (fpDiv md a b) (n1 != n2) 1 |va / vb|) ∧
      (m1 ≠ 0 → n1 = false → near (fpSqrt md a) false 2 va) ∧
      (m1 ≠ 0 → m1 < 2 ^ 24 → n1 = false → near (fpRsqrt md a) false 2 (1 / va)))

/-- R198 and R191: VINT reads each lane as its type says, computes exactly, and writes the low w bits sign-extended, or the
saturated value; shift counts are b mod w; no flag is set. -/
def Obligations.VectorIntegerResults : Prop :=
  ∀ (s : State) (d a b : VReg) (t : Fin 8),
    let w : Nat := if t = 4 then 16 else if t = 5 then 8 else 32
    let rd (x : W32) : Int := if t = 3 then x.toNat else (x.setWidth w).toInt
    let low (x : W32) : Nat := (x.setWidth w).toNat
    let wr (v : Int) : W32 := if t = 3 then BitVec.ofInt 32 v else ((BitVec.ofInt w v).signExtend 32)
    let lo : Int := if t = 3 then 0 else -2 ^ (w - 1)
    let hi : Int := if t = 3 then 2 ^ 32 - 1 else 2 ^ (w - 1) - 1
    let sat (v : Int) : Int := max lo (min hi v)
    let two (i : Instr) (f : W32 → W32 → Int) : Prop :=
      GivesV i s .vint d (List.zipWith (fun x y => wr (f x y)) (s.rv a) (s.rv b)) 0
    two (.vintAdd d a b t) (fun x y => rd x + rd y) ∧
    two (.vintSub d a b t) (fun x y => rd x - rd y) ∧
    two (.vintMul d a b t) (fun x y => rd x * rd y) ∧
    two (.vintAnd d a b t) (fun x y => (x &&& y).toNat) ∧
    two (.vintOr d a b t) (fun x y => (x ||| y).toNat) ∧
    two (.vintXor d a b t) (fun x y => (x ^^^ y).toNat) ∧
    two (.vintAndn d a b t) (fun x y => (x &&& ~~~y).toNat) ∧
    two (.vintShl d a b t) (fun x y => low x * 2 ^ (y.toNat % w)) ∧
    two (.vintShr d a b t) (fun x y => low x / 2 ^ (y.toNat % w)) ∧
    two (.vintSra d a b t) (fun x y => (x.setWidth w).toInt / 2 ^ (y.toNat % w)) ∧
    two (.vintMin d a b t) (fun x y => min (rd x) (rd y)) ∧
    two (.vintMax d a b t) (fun x y => max (rd x) (rd y)) ∧
    two (.vintAdds d a b t) (fun x y => sat (rd x + rd y)) ∧
    two (.vintSubs d a b t) (fun x y => sat (rd x - rd y)) ∧
    two (.vintMulh d a b t) (fun x y => rd x * rd y / 2 ^ w) ∧
    GivesV (.vintAbs d a t) s .vint d ((s.rv a).map fun x => wr (sat |rd x|)) 0

/-- R199 and R200: a comparison's lanes are 0xFFFF_FFFF or 0, a NaN operand being false but in `ne` and `un`, with NV for
any NaN in lt, le, gt and ge and for a signalling one in eq, ne and un; selection by non-zero mask lanes. R201, R202 and
R211: building, moving and permuting lanes, and carry-less products. -/
def Obligations.VectorCompareSelectAndPermute : Prop :=
  (∀ (s : State) (d a b : VReg) (t : Fin 8),
     let md := modeOf (s.core s.meCore).fpcr (t == 1)
     let w : Nat := if t = 4 then 16 else if t = 5 then 8 else 32
     let rd (x : W32) : Int := if t = 3 then x.toNat else (x.setWidth w).toInt
     let lane (h : Bool) : Nat := if h then 0xFFFFFFFF else 0
     let one (fp : Machine.Num → Machine.Num → Bool) (int : Int → Int → Bool) (onNan anyNan : Bool) (x y : W32) : Res :=
       let p := md.rd x
       let q := md.rd y
       if t = 0 ∨ t = 1 then
         if p.isNan ∨ q.isNan then
           { bits := lane onNan, flags := if anyNan ∨ p.isSig ∨ q.isSig then 1 else 0 }
         else { bits := lane (fp p q) }
       else { bits := lane (int (rd x) (rd y)) }
     let compares (i : Instr) (fp : Machine.Num → Machine.Num → Bool) (int : Int → Int → Bool) (onNan anyNan : Bool) : Prop :=
       let r := collect (List.zipWith (one fp int onNan anyNan) (s.rv a) (s.rv b))
       GivesV i s .vint d r.1 r.2
     compares (.vcmpEq d a b t) (fun p q => !p.lt q && !q.lt p) (fun x y => decide (x = y)) false false ∧
     compares (.vcmpNe d a b t) (fun p q => p.lt q || q.lt p) (fun x y => decide (x ≠ y)) true false ∧
     compares (.vcmpLt d a b t) (fun p q => p.lt q) (fun x y => decide (x < y)) false true ∧
     compares (.vcmpLe d a b t) (fun p q => !q.lt p) (fun x y => decide (x ≤ y)) false true ∧
     compares (.vcmpGt d a b t) (fun p q => q.lt p) (fun x y => decide (x > y)) false true ∧
     compares (.vcmpGe d a b t) (fun p q => !p.lt q) (fun x y => decide (x ≥ y)) false true ∧
     compares (.vcmpUn d a b t) (fun _ _ => false) (fun _ _ => false) true false ∧
     GivesV (.vselSel d a b) s .vint d
       (List.zipWith (fun m p => if m ≠ 0 then p.1 else p.2) (s.rv d) ((s.rv a).zip (s.rv b))) 0 ∧
     GivesV (.vselSelz d a) s .vint d (List.zipWith (fun m x => if m ≠ 0 then x else 0) (s.rv d) (s.rv a)) 0) ∧
  (∀ (s : State) (d a b : VReg) (x y z : SReg) (t : Fin 8),
     let v := s.shape
     let n := shapeN v
     let cols := bf v 0 11
     let rows := bf v 11 11
     let src (e : Nat) : W32 := (s.rv a)[e]?.getD 0
     let each (f : Nat → W32) : List W32 := (List.range n).map f
     let lane : W32 := if t = 0 ∨ t = 2 ∨ t = 3 then (s.rs x).setWidth 32
       else if t = 1 then (s.rs x).setWidth 32 <<< 16
       else if t = 4 then ((s.rs x).setWidth 16).signExtend 32 else ((s.rs x).setWidth 8).signExtend 32
     let k : Int := ((s.rs z).setWidth 32).toInt
     let clmul (p q : W32) : BitVec 64 :=
       (List.range 32).foldl (fun acc i => if q.getLsbD i then acc ^^^ (p.setWidth 64 <<< i) else acc) 0
     let prod (f : BitVec 64 → W32) : List W32 := List.zipWith (fun p q => f (clmul p q)) (s.rv a) (s.rv b)
     GivesV (.vsetBcast d x t) s .vint d (each fun _ => lane) 0 ∧
     GivesV (.vsetIota d t) s .vint d (each fun e => BitVec.ofNat 32 e) 0 ∧
     GivesV (.vsetIrow d t) s .vint d (each fun e => BitVec.ofNat 32 (e / cols)) 0 ∧
     GivesV (.vsetIcol d t) s .vint d (each fun e => BitVec.ofNat 32 (e % cols)) 0 ∧
     GivesS (.vsetGet x a y) s .vint x (((s.lanesOf a 1024)[bf (s.rs y) 0 10]?.getD 0).setWidth 64) ∧
     GivesV (.vsetPut d x y) s .vint d ((s.lanesOf d 1024).set (bf (s.rs y) 0 10) ((s.rs x).setWidth 32)) 0 ∧
     GivesV (.vpermSel d a b) s .vperm d ((s.rv b).map fun i => if i.toNat < n then src i.toNat else 0) 0 ∧
     GivesV (.vpermShift d a z) s .vperm d (each fun e =>
       let c : Int := (e % cols : Nat) - k
       if 0 ≤ c ∧ c < cols then src (e / cols * cols + c.toNat) else 0) 0 ∧
     (∃ xs : List W32, GivesV (.vpermTr d a) s .vperm d xs 0 ∧ xs.length = n ∧
       ∀ r < rows, ∀ c < cols, xs[c * rows + r]? = some (src (r * cols + c))) ∧
     GivesV (.vclmLo d a b) s .vclm d (prod fun p => p.setWidth 32) 0 ∧
     GivesV (.vclmHi d a b) s .vclm d (prod fun p => (p >>> 32).setWidth 32) 0 ∧
     GivesV (.vclmXlo d a b) s .vclm d (List.zipWith (· ^^^ ·) (s.rv d) (prod fun p => p.setWidth 32)) 0 ∧
     GivesV (.vclmXhi d a b) s .vclm d (List.zipWith (· ^^^ ·) (s.rv d) (prod fun p => (p >>> 32).setWidth 32)) 0 ∧
     (∃ xs : List W32, GivesV (.vclmBrev d a) s .vclm d xs 0 ∧ xs.length = n ∧
       ∀ e < n, ∀ i < 32, (xs[e]?.getD 0).getLsbD i = (src e).getLsbD (31 - i)))

/-- R203 and R204: the integer reductions are the sum, greatest, least, and, or and xor of each row, whatever the tree's
shape; scans go from the left; `anyp` and `allp` test every lane. Floating reductions apply the fixed tree or the scan
to binary32 values, and a BF16 result is rounded once more. -/
def Obligations.VectorReductions : Prop :=
  ∀ (s : State) (d a : VReg) (p : Reg16) (t : Fin 8),
    let md := modeOf (s.core s.meCore).fpcr (t == 1)
    let v := s.shape
    let rowsOfA := rowsOf (bf v 0 11) (bf v 11 11) (s.rv a)
    let wr (x : Int) : W32 := iwr t x
    let rd (x : W32) : Int := ival t x
    let byRow (f : List W32 → List W32) : List W32 := rowsOfA.flatMap f
    let canon (x : W32) : W32 := wr (rd x)
    let floats (scan : Bool) (f : Mode → Machine.Num → Machine.Num → Res) : List W32 × W32 :=
      let op := redStep f { md with bf := false }
      collect ((rowsOfA.flatMap fun r =>
        let xs := r.map (redRead md)
        if scan then scanOf op xs else treeOf op xs.length xs).map (redWrite md))
    let gives (i : Instr) (xs : List W32) : Prop := 2 ≤ t.val → GivesV i s .vred d xs 0
    let fgives (i : Instr) (r : List W32 × W32) : Prop := t.val < 2 → GivesV i s .vred d r.1 r.2
    gives (.vredSum d a t) (byRow fun r => if r = [] then [] else [wr (r.map rd).sum]) ∧
    gives (.vredMax d a t) (byRow fun r => match r.map rd with | [] => [] | x :: xs => [wr (xs.foldl max x)]) ∧
    gives (.vredMin d a t) (byRow fun r => match r.map rd with | [] => [] | x :: xs => [wr (xs.foldl min x)]) ∧
    gives (.vredAnd d a t) (byRow fun r => match r.map canon with | [] => [] | x :: xs => [xs.foldl (· &&& ·) x]) ∧
    gives (.vredOr d a t) (byRow fun r => match r.map canon with | [] => [] | x :: xs => [xs.foldl (· ||| ·) x]) ∧
    gives (.vredXor d a t) (byRow fun r => match r.map canon with | [] => [] | x :: xs => [xs.foldl (· ^^^ ·) x]) ∧
    gives (.vredSadd d a t) (byRow fun r => (List.range r.length).map fun c => wr ((r.take (c + 1)).map rd).sum) ∧
    gives (.vredSmax d a t) (byRow fun r => (List.range r.length).map fun c =>
      match (r.take (c + 1)).map rd with | [] => 0 | x :: xs => wr (xs.foldl max x)) ∧
    fgives (.vredSum d a t) (floats false fpAdd) ∧ fgives (.vredMax d a t) (floats false fpMax) ∧
    fgives (.vredMin d a t) (floats false fpMin) ∧ fgives (.vredSadd d a t) (floats true fpAdd) ∧
    fgives (.vredSmax d a t) (floats true fpMax) ∧
    Answers (.vredAnyp p a) s ((s.begun (.vredAnyp p a)).putP .vred p (decide (∃ x ∈ s.rv a, x ≠ 0))) ∧
    Answers (.vredAllp p a) s ((s.begun (.vredAllp p a)).putP .vred p (decide (∀ x ∈ s.rv a, x ≠ 0)))

/-- R205 and R206: conversions lane by lane; f2i gives 0 and NV for a NaN, the range's end and NV past it, and else the
rounded integer, with NX when it differs; rint gives the rounded integer in its format. A residue conversion with aligned
addresses in this core's scratchpad is in flight for the VCVT latency, with its lanes and FPCR as they are at issue; a
misaligned address raises ALIGN. R47 and R206: what an RN8 conversion of lanes without a NaN, with a given scale and no list,
writes when it lands: each element rounded to nearest even, or the greatest of its sign, and the side band of each line. -/
def Obligations.VectorConversions : Prop :=
  ∀ (s : State) (d a : VReg) (x y : SReg) (t : Fin 8) (n : Bool) (m : Nat) (e : Int),
    let f32 := modeOf (s.core s.meCore).fpcr false
    let bf16 := modeOf (s.core s.meCore).fpcr true
    let gives (i : Instr) (f : W32 → Res) : Prop :=
      let r := collect ((s.rv a).map f)
      GivesV i s .vcvt d r.1 r.2
    let quiet (md : Mode) (v : Machine.Num) : Res := match v with
      | .nan sg => { bits := 0x7FC00000, flags := if sg then 1 else 0 }
      | v => md.wr v
    let per : Nat := if t = 6 then 256 else 512
    let converts (i : Instr) (half : Bool) : Prop :=
      s.passes i = true → (s.rs x).toNat % 256 = 0 → (s.rs y).toNat % 16 = 0 →
      (s.begun i).ownRange s.meCore (s.rs x) (256 * (shapeN s.shape / per)) { w := true } = none →
      (s.begun i).ownRange s.meCore (s.rs y) 16 { rd := true } = none →
      exec i s = .next ((s.begun i).launch s.meCore .vcvt
        (.convert t half (s.rv a) (s.rs x) (s.rs y) (s.core s.meCore).fpcr))
    gives (.vcvtF2i d a t) (fun v => Machine.toInt f32.rm t (f32.rd v)) ∧
    gives (.vcvtI2f d a t) (fun v => f32.wr (ofScaled (ival t v) 0 false)) ∧
    gives (.vcvtF2h d a) (fun v => quiet bf16 (f32.rd v)) ∧
    gives (.vcvtH2f d a) (fun v => quiet f32 (bf16.rd v)) ∧
    (let md := modeOf (s.core s.meCore).fpcr (t == 1);
      gives (.vcvtRint d a t) (fun v => fpRint md (md.rd v))) ∧
    converts (.vcvtQf x a y t) false ∧ converts (.vcvtQh x a y t) true ∧
    (s.passes (.vcvtQf x a y t) = true → (s.rs x).toNat % 256 ≠ 0 → Raises (.vcvtQf x a y t) s (align (s.rs x))) ∧
    (let w : Nat := if t = 4 then 16 else if t = 5 then 8 else 32
      let lo : Int := if t = 3 then 0 else -2 ^ (w - 1)
      let hi : Int := if t = 3 then 2 ^ 32 - 1 else 2 ^ (w - 1) - 1
      let v : ℚ := (if n then -1 else 1) * m * 2 ^ e
      let rounds (rm : Nat) (k : Int) : Prop := if rm = 0 then |(k : ℚ) - v| ≤ 1 / 2 ∧ (|(k : ℚ) - v| = 1 / 2 → k % 2 = 0)
        else if rm = 1 then k = (if n then ⌈v⌉ else ⌊v⌋) else if rm = 2 then k = ⌈v⌉ else k = ⌊v⌋
      let past : Res := { bits := (iwr t (if n then lo else hi)).toNat, flags := 1 }
      Machine.toInt f32.rm t (.nan n) = { bits := (iwr t 0).toNat, flags := 1 } ∧ Machine.toInt f32.rm t (.inf n) = past ∧
      (∃ k : Int, rounds f32.rm k ∧ Machine.toInt f32.rm t (.fin n m e) =
        if lo ≤ k ∧ k ≤ hi then { bits := (iwr t k).toNat, flags := if (k : ℚ) = v then 0 else 16 } else past) ∧
      fpRint bf16 (.nan n) = { bits := 0x7FC00000, flags := if n then 1 else 0 } ∧
      fpRint bf16 (.inf n) = { bits := (if n then 0x80000000 else 0) + 0x7F800000 } ∧
      (∃ k : Int, rounds bf16.rm k ∧ fpRint bf16 (.fin n m e) =
        if (k : ℚ) = v then { bits := (bf16.wr (.fin n m e)).bits }
        else { bits := (bf16.wr (.fin n k.natAbs 0)).bits, flags := 16 })) ∧
    (∀ (g : Nat) (lanes : List W32) (dst ctrl : W64) (fp : W32) (E : Nat),
      let w := Mem.readN s.mem (vkey g ctrl) 16
      let md := modeOf fp false
      let k0 := 2 ^ 52 + g * 2 ^ 20 + dst.toNat
      let out (x : W32) (k : Nat) : Bool := decide (md.rd x = .inf true ∨ md.rd x = .inf false ∨ 127 < k)
      Memory.wf s.mem = true → s.strictRuns = false → s.badIn (vkey g ctrl) 16 = false → w % 2 ^ 96 = E → E < 255 →
      lanes.length % 256 = 0 → dst.toNat % 256 = 0 → dst.toNat + lanes.length ≤ 2 ^ 20 → g < numCores →
      (∀ x ∈ lanes, (md.rd x).isNan = false) →
      ∃ (fl : W32) (u : State) (ks : List Nat), s.landConvert g 6 false lanes dst ctrl fp = .ok (fl, u) ∧
        (∀ x, x < k0 ∨ k0 + lanes.length ≤ x → Mem.read u.mem x = Mem.read s.mem x) ∧
        (∀ j x, lanes[j]? = some x → ∃ k : Nat, ks[j]? = some k ∧
          (∀ ng mg ex, md.rd x = .fin ng mg ex → let v : ℚ := mg * 2 ^ (ex + 127 - E)
            |(k : ℚ) - v| ≤ 1 / 2 ∧ (|(k : ℚ) - v| = 1 / 2 → k % 2 = 0)) ∧
          Mem.read u.mem (k0 + j) = BitVec.ofInt 8 ((if (md.rd x).sign then -1 else 1) * (if out x k then 127 else k))) ∧
        ∀ b < lanes.length / 256, ∃ o : Bool, u.sideOf (k0 + 256 * b) = BitVec.ofNat 32 (1 + E * 2 ^ 8 + o.toNat * 2 ^ 24) ∧
          (o = true ↔ ∃ j < 256, ∃ x k, lanes[256 * b + j]? = some x ∧ ks[256 * b + j]? = some k ∧ out x k = true))

/-- R207 and R208: a VMEM access whose element addresses are multiples of the element size and lie in this core's scratchpad
or the window is in flight for the VLD latency; element (row, col) of a strided access lies at s[a] + row x stride + col
x z, that of an indexed one at s[a] + b[e] x z. -/
def Obligations.VectorMemoryIssue : Prop :=
  ∀ (s : State) (d b : VReg) (x y : SReg) (t : Fin 8),
    let n := shapeN s.shape
    let cols := bf s.shape 0 11
    let z : Nat := if t = 1 ∨ t = 4 then 2 else if t = 5 then 1 else 4
    let stride : W64 := if s.rs y = 0 then BitVec.ofNat 64 (cols * z) else s.rs y
    let eas : List W64 :=
      (List.range n).map fun e => s.rs x + BitVec.ofNat 64 (e / cols) * stride + BitVec.ofNat 64 (e % cols * z)
    let ieas : List W64 := (s.rv b).map fun i => s.rs x + BitVec.ofNat 64 (i.toNat * z)
    let data : List W32 := (s.rv d).map fun (v : W32) => if t = 1 then v >>> 16 else v
    let per : Nat := if t = 6 then 256 else 512
    let lines : List W64 := (List.range ((n + per - 1) / per)).map fun k => s.rs x + BitVec.ofNat 64 (256 * k)
    let good (i : Instr) (z : Nat) (w : Need) (l : List W64) : Prop :=
      s.passes i = true ∧ (∀ ea ∈ l, ea.toNat % z = 0) ∧ ∀ ea ∈ l, ∃ k, (s.begun i).vreach s.meCore ea w = .ok k
    let issues (i : Instr) (op : Landing) : Prop := exec i s = .next ((s.begun i).launch s.meCore .vld op)
    let ld : Instr := .vmemLd d x y t
    (t.val < 6 → stride.toNat % z = 0 → good ld z { rd := true } eas → issues ld (.load (s.vphys d) t eas)) ∧
    (6 ≤ t.val → good ld 256 { rd := true } lines →
      issues ld (.residue (s.vphys d) t n (s.rs x) (s.core s.meCore).fpcr)) ∧
    (stride.toNat % z = 0 → good (.vmemSt d x y t) z { w := true } eas →
      issues (.vmemSt d x y t) (.store t (eas.zip data))) ∧
    (good (.vmemGat d x b t) z { rd := true } ieas → issues (.vmemGat d x b t) (.load (s.vphys d) t ieas)) ∧
    (good (.vmemSct d x b t) z { w := true } ieas → issues (.vmemSct d x b t) (.store t (ieas.zip data)))

/-! ### Engine words -/

/-- R214, R215, R219-R224: the copy, gather, side-band and marker commands join their queue with the operand values of their
issue, in L's queue or in S's, where the count word, the alignment and the addresses pass; a count word outside its
limits, or more lines than the slot has, raises RING, a weight word's reserved bits ILLEGAL, a misaligned STRIDE or base
ALIGN, a side-band value that is none FORMAT, an aperture ACCESS, and a line out of reach the fault of its reach. RING before
ALIGN, and the base as the address of a misaligned STRIDE, are the model's choice (log 85). `mark.drain` goes on with an empty
queue and waits otherwise. -/
def Obligations.CopyCommandsAreQueued : Prop :=
  ∀ (s : State) (d x y b : SReg) (r : Reg16) (g m k : Bool) (j : Nat),
    let me := s.meCore
    let q : Queue := match s.cur with | .core _ .S => .s | _ => .l
    let w := s.rs b
    let rows := bf w 10 10
    let wid := bf w 0 10
    let limits (rem : Bool) : Prop :=
      bf w 27 1 = 0 ∧ (rem = true ∨ bf w 20 7 = 0) ∧ 1 ≤ rows ∧ rows ≤ 512 ∧ 1 ≤ wid ∧ wid ≤ 512
    let aligned : Prop := bf w 32 8 = 0
    let sem : Option Reg16 := if g then some (idx 16 (bf w 28 4)) else none
    let line (i : Instr) (base : W64) : Prop := (s.begun i).linesChk me (memLines base w) = none
    let packed (i : Instr) (base : W64) (n : Nat) : Prop := (s.begun i).linesChk me (packedLines base n) = none
    let v := s.rs y
    let n := bf v 0 16
    (limits m → aligned → (s.begun (.copyIn r x b g m)).copyCore w m = .ok j → rows * wid ≤ (s.ring j r).ssz →
      (s.rs x).toNat % 256 = 0 → line (.copyIn r x b g m) (s.rs x) →
      Queues (.copyIn r x b g m) s q (.copyIn r j (s.rs x) w) sem) ∧
    (limits false → aligned → rows * wid ≤ (s.ring me r).ssz → (s.rs d).toNat % 256 = 0 →
      line (.copyOut d r b k g) (s.rs d) → Queues (.copyOut d r b k g) s q (.copyOut r k (s.rs d) w) sem) ∧
    (bf (s.rs x) 24 8 = 0 → limits m → aligned → (s.begun (.copyWt r x b k g m)).copyCore w m = .ok j →
      rows * wid ≤ (s.ring j r).ssz → Queues (.copyWt r x b k g m) s q (.copyWt r j (s.rs x) w k) sem) ∧
    (limits false → aligned → (s.rs x).toNat % 256 = 0 → (s.rs d).toNat % 256 = 0 → line (.copyMm d x b g) (s.rs x) →
      packed (.copyMm d x b g) (s.rs d) (rows * wid) → Queues (.copyMm d x b g) s q (.copyMm (s.rs x) (s.rs d) w) sem) ∧
    ((s.rs x).toNat % 32 = 0 → (s.begun (.gathFill r x g)).ownRange me (s.rs x) 32 {} = none →
      Queues (.gathFill r x g) s q (.gath r (s.rs x)) (if g then some 0 else none)) ∧
    ((s.rs x).toNat % 256 = 0 → sideValueOk (s.rs d) = true → bf v 20 44 = 0 → n ≠ 0 →
      (∀ l ∈ packedLines (s.rs x) n, inAperture l.toNat = false ∧ (s.begun (.lineSet d x y g)).lineChk me l = none) →
      Queues (.lineSet d x y g) s q (.lineSet ((s.rs d).setWidth 32) (s.rs x) n)
        (if g then some (idx 16 (bf v 16 4)) else none)) ∧
    Queues .markTile s q .mark none ∧
    (∀ e : Exc, e.holds = none →
      (s.passes (.copyIn r x b g m) = true → let i : Instr := .copyIn r x b g m
        (¬limits m → Raises i s ringExc) ∧ (limits m → ¬aligned → Raises i s (align (s.rs x))) ∧
        (limits m → aligned → (s.begun i).copyCore w m = .error e → Raises i s e) ∧
        (limits m → aligned → (s.begun i).copyCore w m = .ok j →
          ((s.ring j r).ssz < rows * wid → Raises i s ringExc) ∧
          (rows * wid ≤ (s.ring j r).ssz → (s.rs x).toNat % 256 ≠ 0 → Raises i s (align (s.rs x))) ∧
          (rows * wid ≤ (s.ring j r).ssz → (s.rs x).toNat % 256 = 0 →
            (s.begun i).linesChk me (memLines (s.rs x) w) = some e → Raises i s e))) ∧
      (s.passes (.copyOut d r b k g) = true → let i : Instr := .copyOut d r b k g
        (¬limits false ∨ (s.ring me r).ssz < rows * wid → Raises i s ringExc) ∧
        (limits false → rows * wid ≤ (s.ring me r).ssz →
          (¬aligned ∨ (s.rs d).toNat % 256 ≠ 0 → Raises i s (align (s.rs d))) ∧
          (aligned → (s.rs d).toNat % 256 = 0 → (s.begun i).linesChk me (memLines (s.rs d) w) = some e → Raises i s e))) ∧
      (s.passes (.copyWt r x b k g m) = true → let i : Instr := .copyWt r x b k g m
        (bf (s.rs x) 24 8 ≠ 0 → Raises i s illegal) ∧
        (bf (s.rs x) 24 8 = 0 → (¬limits m → Raises i s ringExc) ∧ (limits m → ¬aligned → Raises i s (align 0)) ∧
          (limits m → aligned → (s.begun i).copyCore w m = .error e → Raises i s e) ∧
          (limits m → aligned → (s.begun i).copyCore w m = .ok j → (s.ring j r).ssz < rows * wid → Raises i s ringExc))) ∧
      (s.passes (.copyMm d x b g) = true → let i : Instr := .copyMm d x b g
        (¬limits false → Raises i s ringExc) ∧
        (limits false → ¬aligned ∨ (s.rs x).toNat % 256 ≠ 0 → Raises i s (align (s.rs x))) ∧
        (limits false → aligned → (s.rs x).toNat % 256 = 0 →
          ((s.rs d).toNat % 256 ≠ 0 → Raises i s (align (s.rs d))) ∧
          ((s.rs d).toNat % 256 = 0 → (s.begun i).linesChk me (memLines (s.rs x) w) = some e → Raises i s e) ∧
          ((s.rs d).toNat % 256 = 0 → (s.begun i).linesChk me (memLines (s.rs x) w) = none →
            (s.begun i).linesChk me (packedLines (s.rs d) (rows * wid)) = some e → Raises i s e))) ∧
      (s.passes (.gathFill r x g) = true → let i : Instr := .gathFill r x g
        ((s.rs x).toNat % 32 ≠ 0 → Raises i s (align (s.rs x))) ∧
        ((s.rs x).toNat % 32 = 0 → (s.begun i).ownRange me (s.rs x) 32 {} = some e → Raises i s e)) ∧
      (s.passes (.lineSet d x y g) = true → let i : Instr := .lineSet d x y g
        ((s.rs x).toNat % 256 ≠ 0 → Raises i s (align (s.rs x))) ∧
        ((s.rs x).toNat % 256 = 0 → sideValueOk (s.rs d) = false ∨ bf v 20 44 ≠ 0 ∨ n = 0 → Raises i s (format (s.rs x))) ∧
        ((s.rs x).toNat % 256 = 0 → sideValueOk (s.rs d) = true → bf v 20 44 = 0 → n ≠ 0 →
          ((∃ l ∈ packedLines (s.rs x) n, inAperture l.toNat = true) → Raises i s (access (s.rs x))) ∧
          ((∀ l ∈ packedLines (s.rs x) n, inAperture l.toNat = false) →
            firstFault ((s.begun i).lineChk me) (packedLines (s.rs x) n) = some e → Raises i s e)))) ∧
    (s.passes .markDrain = true → ((s.core me).queue q).cmds = [] → ∃ t, exec .markDrain s = .next t ∧ t.mem = s.mem ∧
      t.me.pc = s.nextPc ∧ ∀ r, t.rs r = s.rs r) ∧
    (s.passes .markDrain = true → ((s.core me).queue q).cmds ≠ [] → Waits .markDrain s)

/-- R223: `line.rd` gives the side band of an aligned, readable line, and through a failed link raises UNCORRECTABLE (R325);
that an error in the line's data does not stop it is the model's reading (log 97). `line.wr` writes the side band and no data,
where its value has a known format and no reserved bit; a value that has not raises FORMAT. -/
def Obligations.SideBandWords : Prop :=
  ∀ (s u : State) (d x y : SReg) (k : Nat),
    let rd : Instr := .lineRd d x
    let wr : Instr := .lineWr x y
    let ok (i : Instr) (n : Need) (w : Bool) : Prop := (s.rs x).toNat % 256 = 0 ∧ inAperture (s.rs x).toNat = false ∧
      (s.begun i).resolveFor s.cur (s.rs x) n = .ok k ∧ (s.begun i).trackMe (2 ^ 56 + k / 256 * 16) 16 w (s.rs x) = .ok u
    (ok rd { rd := true } false →
      (¬ (isDev k = true ∧ s.linkFailed (s.linkOf k) = true) → ∃ t : State, { t with islands := u.islands } = u ∧
        Answers rd s (t.putS .salu d ((s.sideOf k).setWidth 64))) ∧
      (isDev k = true → s.linkFailed (s.linkOf k) = true → s.passes rd = true → Raises rd s (uncorrectable k (s.rs x)))) ∧
    (ok wr { w := true } true → sideValueOk (s.rs y) = true → (isDev k = true → s.linkFailed (s.linkOf k) = false) →
      s.passes wr = true → ∃ t, exec wr s = .next t ∧ t.sideOf k = (s.rs y).setWidth 32 ∧ t.mem = s.mem ∧
        (∀ l, l / 256 ≠ k / 256 → t.sideOf l = s.sideOf l) ∧ t.me.pc = s.nextPc ∧ ∀ r, t.rs r = s.rs r) ∧
    (ok wr { w := true } true → sideValueOk (s.rs y) = false → s.passes wr = true → Raises wr s (format (s.rs x))) ∧
    ((s.rs x).toNat % 256 ≠ 0 → s.passes rd = true → Raises rd s (align (s.rs x)))

/-- R226, R228-R234: the matrix engine's commands join its queue as C issues them, a product with the chunks its rings'
slots hold and the profile of its bundle; the reads of a tile are in flight for the ACCRD latency, for what was queued
before (R78; that an `acc.rd` or `acc.flg` waits for the commands queued at its issue, and no later ones, is the model's
reading, log 21). A slot too small raises RING, an own-scratchpad block misaligned ALIGN, an unknown pattern ILLEGAL. -/
def Obligations.MatrixCommandsAreQueued : Prop :=
  ∀ (s : State) (d a b : TReg) (v : VReg) (x y : SReg) (p q : Reg16) (i j k o r : Bool) (kc : Nat),
    let me := s.meCore
    let la := (s.ring me p).ssz - o.toNat
    let lb := (s.ring me q).ssz
    let mma (ins : Instr) (kind : Fin 5) (aPer bPer : Nat) (even : Bool) : Prop :=
      (1 ≤ kc ∧ kc ≤ 16 ∧ la = aPer * kc ∧ lb = bPer * kc ∧ (even = true → kc % 2 = 0) →
        Queues ins s .m (.mma kind d p q i j k o r kc (s.begun ins).curNp) none) ∧
      ((∀ n, 1 ≤ n → n ≤ 16 → la = aPer * n → lb = bPer * n → even = true ∧ n % 2 = 1) → s.passes ins = true →
        Raises ins s ringExc)
    let own (ins : Instr) (al n : Nat) : Prop := (s.rs x).toNat % al = 0 ∧ (s.begun ins).ownRange me (s.rs x) n {} = none
    mma (.mmaRn8 d p q i j k o r) 0 32 128 false ∧ mma (.mmaRn4 d p q i j k o r) 1 16 64 true ∧
    mma (.mmaRnx d p q i j k o r) 2 32 64 true ∧ mma (.mmaRny d p q i j k o r) 3 16 128 true ∧
    mma (.mmaBf16 d p q i j k o r) 4 64 256 false ∧
    Answers (.accRd v a x) s ((s.begun (.accRd v a x)).launch me .accrd
      (.accRd (s.vphys v) a (bf (s.rs x) 0 2) (shapeN s.shape) (s.core me).order)) ∧
    Answers (.accFlg x a) s ((s.begun (.accFlg x a)).launch me .accrd (.accFlg x a (s.core me).order)) ∧
    ((if i then 32 else 64) ≤ (s.ring me p).ssz → Queues (.accSt p a i j) s .m (.accSt p a i j) none) ∧
    ((s.ring me p).ssz < (if i then 32 else 64) → s.passes (.accSt p a i j) = true → Raises (.accSt p a i j) s ringExc) ∧
    Queues (.accAdd d a b) s .m (.accAdd d a b) none ∧ Queues (.accZero d) s .m (.accZero d) none ∧
    (own (.tentMark d x) 256 256 → Queues (.tentMark d x) s .m (.tent d (s.rs x)) none) ∧
    (own (.rslv d x i j) 64 64 → Queues (.rslv d x i j) s .m (.rslv d (s.rs x) i) (if j then some 0 else none)) ∧
    ((s.rs x).toNat < 256 → Queues (.mkat x y) s .m (.mkat (s.rs x).toNat ((s.rs y).setWidth 32)) none) ∧
    (256 ≤ (s.rs x).toNat → s.passes (.mkat x y) = true → Raises (.mkat x y) s illegal) ∧
    ((s.rs x).toNat % 64 ≠ 0 → s.passes (.rslv d x i j) = true → Raises (.rslv d x i j) s (align (s.rs x)))

/-- R241 and R239: `proof.run` copies its block into its cluster's queue, and a full queue freezes the core; `route.topk`
puts its rows' pairs in flight for the ROUTE latency, 2k columns a row and zeros after them. In a row without an
eligible expert every pair is the number 0xFFFF with bit 17, and the weight 0. -/
def Obligations.ProofRunAndRouting : Prop :=
  ∀ (s u : State) (x : SReg) (d a b : VReg) (g : Bool) (n : Fin 4) (k : Fin 8) (v : Nat),
    let pr : Instr := .proofRun x g
    let me := s.meCore
    let c := cidOf me
    let md := modeOf (s.core me).fpcr false
    let cols := bf s.shape 0 11
    let total := shapeN s.shape
    let regs (r : VReg) : List (List W32) := (List.range (2 ^ n.val)).map fun i => s.lanesOf (idx 32 (r.val + i)) total
    let bias := (regs b).flatMap fun z => z.take cols
    let rows := (List.range (bf s.shape 11 11)).map fun r =>
      routeRow md (k.val + 1) ((regs a).flatMap fun z => (z.drop (r * cols)).take cols) bias
    ((s.rs x).toNat % 64 = 0 → (s.begun pr).ownRange me (s.rs x) 64 {} = none →
      (s.begun pr).readOwn (s.rs x) 64 = .ok (v, u) → s.passes pr = true →
      ((s.cluster c).proofs.length < 32 → ∃ t, exec pr s = .next t ∧ t.mem = s.mem ∧ t.me.pc = s.nextPc ∧
        (∀ r, t.rs r = s.rs r) ∧ (t.cluster c).proofs = (s.cluster c).proofs ++
          [{ pc := s.me.pc, core := some me, entry := none, part := s.partFor s.cur, block := BitVec.ofNat 512 v,
             sig := (if g then some (idx 16 (fld v 4 4)) else none), np := s.curNp, tag := u.hazard.count u.agent }]) ∧
      (32 ≤ (s.cluster c).proofs.length → exec pr s =
        .next ((s.setMe { s.me with wait := some (.word pr) }).startFreeze .prooferQueue 0))) ∧
    GivesV (.routeTopk d a b n k) s .route d (rows.flatMap fun r => (r.1 ++ List.replicate cols 0).take cols)
      (flagMask (rows.foldl (fun f r => f ||| r.2) 0)) ∧
    (∀ (m : Mode) (j : Nat) (ls bs : List W32), (routeRow m j ls bs).1.length = 2 * j) ∧
    (∀ (m : Mode) (j : Nat) (ls bs : List W32) (h : Nat), h < j →
      (∀ l ∈ ls, (Mode.rd { m with bf := true } l) = .inf true ∨ (Mode.rd { m with bf := true } l).isNan = true) →
      (routeRow m j ls bs).1[2 * h + 1]? = some 0 ∧
      ((routeRow m j ls bs).1[2 * h]?.getD 0).toNat % 2 ^ 16 = 0xFFFF ∧
      ((routeRow m j ls bs).1[2 * h]?.getD 0).getLsbD 17 = true)

/-! ### Bank units -/

/-- R249-R251: the single-location forms on an aligned address in a slice of the partition: with D = 0 the operation is
posted; else, once what the sequencer posted before is applied, on a line without poison in a format of R250, the
register takes the old value, sign-extended for i32, and the location the new one. Posted or not, a misaligned address
raises ALIGN and one outside the partition's slices ACCESS. The list forms post the words read at issue. -/
def Obligations.NearMemoryAtomics : Prop :=
  ∀ (s u : State) (d a b : SReg) (g : Bool) (v : Nat),
    let ea := (s.rs a).toNat
    let part := s.partFor s.cur
    let k := 2 ^ 53 + (ea - 2 ^ 32)
    let form (i : Instr) (op ty : Nat) (us : Bool) (new : Nat → Nat → Nat → Nat) : Prop :=
      let n := if ty = 1 then 8 else 4
      let x := Mem.readN s.mem k n
      let old : W64 := if ty = 0 then (BitVec.ofNat 32 x).signExtend 64 else BitVec.ofNat 64 x
      let y := bf (s.rs b) 0 (8 * n)
      let c := bf (s.rs d) 0 (8 * n)
      (ea % n = 0 → s.sharedOk part ea n = true →
        (d = 0 → Posts i s (.nma op ty us) 0 (s.rs a) (s.rs b)) ∧
        (d ≠ 0 → s.postedBy = [] → s.badIn k n = false → s.poisoned k = false →
          (s.fmtOf k = 0 ∨ (ty = 0 ∧ s.fmtOf k = 0x21) ∨ (ty = 2 ∧ s.fmtOf k = 0x11)) →
          Answers i s ((((s.begun i).nearAccess [(k, n)]).store k n (new x y c)).putS .salu d old))) ∧
      (ea % n ≠ 0 → s.passes i = true → Raises i s (align (s.rs a))) ∧
      (ea % n = 0 → s.sharedOk part ea n = false → s.passes i = true → Raises i s (access (s.rs a)))
    let si (w : Nat) (f : Int → Int → Int) (x y _ : Nat) : Nat :=
      (f (BitVec.ofNat w x).toInt (BitVec.ofNat w y).toInt % 2 ^ w).toNat
    let fp (f : Mode → Machine.Num → Machine.Num → Res) (x y _ : Nat) : Nat := (f rneF32 (ofBits x) (ofBits y)).bits
    let cas (x y c : Nat) : Nat := if x = c then y else x
    let list (i : Instr) (op ty : Nat) : Prop :=
      let n := bf (s.rs b) 0 16
      ea % 4 = 0 → (s.rs d).toNat % 4 = 0 → s.sharedOk part (s.rs d).toNat (4 * n) = true → n ≠ 0 → bf (s.rs b) 20 44 = 0 →
      (s.begun i).readOwn (s.rs a) (4 * n) = .ok (v, u) → s.passes i = true →
      exec i s = .next (u.postOp (.list op ty ((List.range n).map fun j => BitVec.ofNat 32 (v / 2 ^ (32 * j)))
        (if g then some (idx 16 (bf (s.rs b) 16 4)) else none)) (s.rs d) (s.rs a) (s.rs b))
    (∀ (t : State) (xs : List (Nat × Nat)), { t.nearAccess xs with hazard := t.hazard, islands := t.islands } = t) ∧
    form (.nmaAddI32 d a b) 0 0 false (fun x y _ => (x + y) % 2 ^ 32) ∧
    form (.nmaMinI32 d a b false) 1 0 false (si 32 min) ∧ form (.nmaMinI32 d a b true) 1 0 true (fun x y _ => min x y) ∧
    form (.nmaMaxI32 d a b false) 2 0 false (si 32 max) ∧ form (.nmaMaxI32 d a b true) 2 0 true (fun x y _ => max x y) ∧
    form (.nmaAndI32 d a b) 3 0 false (fun x y _ => x &&& y) ∧ form (.nmaOrI32 d a b) 4 0 false (fun x y _ => x ||| y) ∧
    form (.nmaXorI32 d a b) 5 0 false (fun x y _ => x ^^^ y) ∧ form (.nmaSwapI32 d a b) 6 0 false (fun _ y _ => y) ∧
    form (.nmaCasI32 d a b) 7 0 false cas ∧
    form (.nmaAddI64 d a b) 0 1 false (fun x y _ => (x + y) % 2 ^ 64) ∧
    form (.nmaMinI64 d a b false) 1 1 false (si 64 min) ∧ form (.nmaMinI64 d a b true) 1 1 true (fun x y _ => min x y) ∧
    form (.nmaMaxI64 d a b false) 2 1 false (si 64 max) ∧ form (.nmaMaxI64 d a b true) 2 1 true (fun x y _ => max x y) ∧
    form (.nmaAndI64 d a b) 3 1 false (fun x y _ => x &&& y) ∧ form (.nmaOrI64 d a b) 4 1 false (fun x y _ => x ||| y) ∧
    form (.nmaXorI64 d a b) 5 1 false (fun x y _ => x ^^^ y) ∧ form (.nmaSwapI64 d a b) 6 1 false (fun _ y _ => y) ∧
    form (.nmaCasI64 d a b) 7 1 false cas ∧
    form (.nmaAddF32 d a b) 0 2 false (fp fpAdd) ∧ form (.nmaMinF32 d a b) 1 2 false (fp fpMin) ∧
    form (.nmaMaxF32 d a b) 2 2 false (fp fpMax) ∧ form (.nmaSwapF32 d a b) 6 2 false (fun _ y _ => y) ∧
    form (.nmaCasF32 d a b) 7 2 false cas ∧
    list (.nmaLaddF32 d a b g) 0 2 ∧ list (.nmaLaddI32 d a b g) 0 0 ∧ list (.nmaLmaxF32 d a b g) 2 2

/-- R244-R247, R91, R93: predictor entries, headers and counts read where the layout of R84 puts them; writes are posted; a
creel's word; an offer of a held token gives 2, one with room is held and gives 0; a drain writes the held entries by
rising token, empties the creel and gives their number. -/
def Obligations.PredictorAndCreelWords : Prop :=
  ∀ (s : State) (d a b : SReg),
    let x := (s.rs a).toNat
    let w := s.rs b
    let part := s.partFor s.cur
    let layer := bf w 16 6
    let ok (head : Bool) : Prop := x % 256 = 0 ∧ s.sharedOk part x (1040 * 1024) = true ∧ bf w 22 42 = 0 ∧ bf w 12 4 = 0 ∧
      (head = true → bf w 0 12 = 0)
    let at_ (p : Nat) : Nat := 2 ^ 53 + (p - 2 ^ 32)
    let reads (i : Instr) (p n : Nat) : Prop := s.postedBy = [] → s.bankErr p n = none →
      ∃ t : State, Answers i s (t.putS .salu d (BitVec.ofNat 64 (Mem.readN s.mem (at_ p) n))) ∧
        { t with hazard := s.hazard, islands := s.islands } = s.begun i
    let key := bf (s.rs a) 0 14
    let c := s.creel key
    let creel (token expert : Bool) : Prop := bf (s.rs a) 56 8 = 0 ∧ bf (s.rs a) 28 4 = 0 ∧ bf (s.rs a) 14 2 = 0 ∧
      (token = true ∨ bf (s.rs a) 32 24 = 0) ∧ (expert = true ∨ bf (s.rs a) 16 12 = 0) ∧
      (s.part part).pslc.getLsbD (8 * (bf (s.rs a) 3 11 / 512) + bf (s.rs a) 0 3) = true
    let finite (z : Nat) : Prop := fld z 23 8 ≠ 255
    let of : Instr := .creelOffer d a b
    let dr : Instr := .creelDrain d a b
    let e : W32 × W32 × W32 := (BitVec.ofNat 32 (bf (s.rs a) 32 24), BitVec.ofNat 32 (bf w 0 32), BitVec.ofNat 32 (bf w 32 32))
    (ok false → reads (.ptabRd d a b) (x + 0x4000 + 0x4000 * layer + 4 * bf w 0 12) 4) ∧
    (ok true → reads (.ptabHrd d a b) (x + 16 * layer) 8) ∧ (ok true → reads (.ptabCrd d a b) (x + 16 * layer + 8) 8) ∧
    (ok false → bf (s.rs d) 32 32 = 0 → Posts (.ptabWr d a b) s .ptWr (s.rs d) (s.rs a) w) ∧
    (ok true → ptHeadOk (s.rs d).toNat = true → Posts (.ptabHwr d a b) s .ptHwr (s.rs d) (s.rs a) w) ∧
    (ok true → Posts (.ptabClr a b) s .ptClr 0 (s.rs a) w) ∧
    (creel false true → Posts (.creelCfg a b) s .creelCfg 0 (s.rs a) w) ∧
    (creel false false → bf w 32 32 = 0 → finite (bf w 0 32) → Posts (.creelBias a b) s .creelBias 0 (s.rs a) w) ∧
    (creel false false → s.postedBy = [] → c.set = true → GivesS (.creelRd d a) s .salu d
      (BitVec.ofNat 64 (c.bias.toNat + c.held.length * 2 ^ 32 + 2 ^ 45 + (c.cap - 1) * 2 ^ 48))) ∧
    (creel true true → s.postedBy = [] → (ofBits (bf w 0 32)).isNan = false → (ofBits (bf w 32 32)).isNan = false →
      c.set = true → c.expert = bf (s.rs a) 16 12 →
      ((∃ h ∈ c.held, h.1 = e.1) → GivesS of s .salu d 2) ∧
      ((∀ h ∈ c.held, h.1 ≠ e.1) → c.held.length < c.cap →
        Answers of s (((s.begun of).setCreel key { c with held := e :: c.held }).putS .salu d 0))) ∧
    (creel false false → s.postedBy = [] → c.set = true → w.toNat % 16 = 0 →
      (c.held = [] → s.passes dr = true → ∃ t : State, exec dr s = .next (t.putS .salu d 0) ∧ t.mem = s.mem ∧
        (t.creel key).held = []) ∧
      (Memory.wf s.mem = true → c.expert < 2 ^ 12 → s.sharedOk part w.toNat (16 * c.held.length) = true →
        s.passes dr = true → ∃ t : State, exec dr s = .next (t.putS .salu d (BitVec.ofNat 64 c.held.length)) ∧ (t.creel key).held = [] ∧
        ∀ es : List (W32 × W32 × W32), es.Perm c.held → es.Pairwise (fun p q => p.1 < q.1) →
          ∀ j < es.length, ∀ z, es[j]? = some z → Mem.readN t.mem (at_ w.toNat + 16 * j) 16 =
            z.1.toNat % 2 ^ 24 + c.expert * 2 ^ 24 + j * 2 ^ 36 + z.2.2.toNat * 2 ^ 64))

/-- R252, R253, R114, R116: the posted sketch and cell forms on aligned addresses in the partition's slices; the list forms
with a good block in readable memory; a query gives the estimate, the middle one of the rows' signed counters, scaled by
2^-ES and rounded to binary32 (R102, R103, R105); loads and folds give what the cell and the
region hold, a settled load waiting until the watermark reaches its step. -/
def Obligations.SketchAndCellWords : Prop :=
  ∀ (s u : State) (d a b : SReg) (g : Bool) (v : Nat) (x : Sketch) (r : Region) (e : W32) (c : Machine.Cell),
    let part := s.partFor s.cur
    let ok (y : W64) (al len : Nat) : Prop := y.toNat % al = 0 ∧ s.sharedOk part y.toNat len = true
    let A := s.rs a
    let B := s.rs b
    let D := s.rs d
    let n := fld v 32 36
    let i1 := BitVec.ofNat 64 (fld v 72 56)
    let sig : Option Reg16 := if g then some (idx 16 (fld v 68 4)) else none
    let block (i : Instr) (other : W64) (op : NearOp) : Prop :=
      ok A 64 64 → B.toNat % 32 = 0 → (s.begun i).readOwn B 32 = .ok (v, u) → fld v 192 8 = 0 → fld v 128 8 = 0 →
      fld v 0 32 = 0 → 1 ≤ n → n ≤ 2 ^ 20 → ok i1 8 (8 * n) → ok other 4 (4 * n) → s.passes i = true →
      exec i s = .next (u.postOp op 0 A B)
    let two (i : Instr) : State := s.begun i
    let word (c : Machine.Cell) (w : W32) : W64 :=
      BitVec.ofNat 64 (w.toNat + c.hist.length * 2 ^ 32 + c.i32.toNat * 2 ^ 36 + c.ovf.toNat * 2 ^ 37)
    let cell : Prop := ok A 128 128 ∧ ok B 256 512
    let good (i : Instr) : Prop := cell ∧ s.postedBy = [] ∧ (two i).region B.toNat = .ok r
    (ok A 64 64 → Posts (.skSeed a b) s .skSeed 0 A B ∧ Posts (.skClr a) s .skClr 0 A 0) ∧
    (ok A 64 64 → bf D 32 32 = 0 → Posts (.skUpd d a b) s .skUpd D A B) ∧
    (ok A 64 64 → ok B 64 64 → Posts (.skAdd a b) s .skAdd 0 A B) ∧
    block (.skUpdl a b g) (BitVec.ofNat 64 (fld v 136 56)) (.skUpdl i1 (BitVec.ofNat 64 (fld v 136 56)) n sig) ∧
    block (.skQryl a b g) (BitVec.ofNat 64 (fld v 200 56)) (.skQryl i1 (BitVec.ofNat 64 (fld v 200 56)) n sig) ∧
    (ok A 64 64 → s.postedBy = [] → s.sketch part A.toNat = .ok x → s.pairsOk x = none → s.skEstimate x B = .ok e →
      ∃ t : State, { t with hazard := s.hazard, islands := s.islands } = s.begun (.skQry d a b) ∧
        Answers (.skQry d a b) s (t.putS .salu d (e.setWidth 64))) ∧
    (s.sketch part A.toNat = .ok x → s.hashErr x B = none →
      let at_ (y : Nat) : Nat := 2 ^ 53 + (y - 2 ^ 32)
      let h (j : Nat) : Nat :=
        (B.toNat ^^^ Mem.readN s.mem (at_ (x.pairs + 16 * j + 8)) 8) * Mem.readN s.mem (at_ (x.pairs + 16 * j)) 8 % 2 ^ 64
      let ctr (j : Nat) : Int :=
        (BitVec.ofNat 32 (Mem.readN s.mem (at_ (x.base + (j * 2 ^ x.k + h j / 2 ^ (64 - x.k)) * 4)) 4)).toInt
      let est (j : Nat) : Int := (if (h j).testBit (63 - x.k) then -1 else 1) * max (-2 ^ 31 + 1) (ctr j)
      ∃ m : Int, (∃ j < x.d, est j = m) ∧ ((List.range x.d).countP fun j => decide (est j < m)) ≤ x.d / 2 ∧
        ((List.range x.d).countP fun j => decide (m < est j)) ≤ x.d / 2 ∧
        s.skEstimate x B = .ok (BitVec.ofNat 32 (rneF32.wr (.fin (decide (m < 0)) m.natAbs (-x.es))).bits)) ∧
    (cell → bf D 32 32 = 0 → Posts (.ocInit d a b g) s (.ocInit g) D A B) ∧
    (cell → bf D 60 4 < 5 → Posts (.ocIns d a b) s .ocIns D A B) ∧
    (ok B 256 512 → bf A 28 36 = 0 → Posts (.ocSettle a b) s .ocSettle 0 A B) ∧
    (∀ t : State, { t.cellAccess A r with hazard := t.hazard, islands := t.islands } = t) ∧
    (good (.ocLdt d a b) → ((two (.ocLdt d a b)).cellAccess A r).openCell A.toNat r = (u, .ok c) →
      Answers (.ocLdt d a b) s (u.putS .salu d (word c (c.hist.foldl histApply c.base)))) ∧
    (good (.ocLds d a b) → D.toNat < 2 ^ 16 → r.rel D.toNat ≤ r.rel r.wm → r.rel D.toNat ≤ 2 ^ 15 →
      (two (.ocLds d a b)).openCell A.toNat r = (u, .ok c) → ∃ t : State, { t with hazard := u.hazard, islands := u.islands } = u ∧
      Answers (.ocLds d a b) s (t.putS .salu d
        (word c ((c.hist.filter fun h => decide (r.rel h.step ≤ r.rel D.toNat)).foldl histApply c.base)))) ∧
    (good (.ocLds d a b) → D.toNat < 2 ^ 16 → r.rel r.wm < r.rel D.toNat → r.rel D.toNat ≤ 2 ^ 15 →
      (two (.ocLds d a b)).openCell A.toNat r = (u, .ok c) → s.passes (.ocLds d a b) = true →
      exec (.ocLds d a b) s = .next (s.setMe { s.me with wait := some (.near (.ocLds d a b)) })) ∧
    (ok B 256 512 → s.postedBy = [] → (two (.ocFold d b)).region B.toNat = .ok r → D.toNat < 2 ^ 16 → r.rel D.toNat ≤ 2 ^ 15 →
      let f := if r.rel D.toNat ≤ r.rel r.wm then D.toNat else r.wm
      Memory.wf s.mem = true → s.passes (.ocFold d b) = true → ∃ t : State, exec (.ocFold d b) s = .next (t.putS .salu d (BitVec.ofNat 64 f)) ∧
        Mem.readN t.mem (2 ^ 53 + (r.addr + 6 - 2 ^ 32)) 6 = (r.floorx + r.rel f) % 2 ^ 48)

/-- R131, R118, R254-R256: a record joins the partition's record queue and an entry its queue pair's ring where there is
room and what its sequencer posted before is applied, and waits for it otherwise; the 64 bytes are read when the instruction
completes. That a record or an entry waits for what its sequencer posted before is the model's reading (log 80); that the
address and the ring's place are checked before the wait, and a pair in ERROR raises ACCESS with address 0, is one too (log
47). Counter forms name a counter of the partition's grant; slot forms are posted, and a slot's state and count are read. -/
def Obligations.PostingWords : Prop :=
  ∀ (s u : State) (d a b : SReg) (h : Fin 4) (ind : Bool) (v k : Nat),
    let part := s.partFor s.cur
    let p := s.part part
    let rq := 2 ^ (bf p.prq 56 4 + 6)
    let slot := bf p.prq 12 44 * 2 ^ 12 + 64 * (p.qtail % rq)
    let task : Instr := .postTask a
    let post : Instr := .postQp a b
    let q := s.qp k
    let qn := 2 ^ (bf q.cfg 30 4 + 4)
    let place := q.base.toNat + 64 * (q.tail % qn)
    let full (rings : Nat) (used : Nat) : Prop := s.postedBy ≠ [] ∨ rings ≤ used
    let num := if ind then (s.rs a).toNat else h.val * 1024 + a.val * 32 + b.val
    let names : Prop := (ind = true → (s.rs a).toNat < 2 ^ 12) ∧ num < bf p.ptc 16 13 ∧ k = bf p.ptc 0 12 + num
    let slotOk : Prop := bf (s.rs b) 38 26 = 0 ∧ bf (s.rs b) 28 4 = 0 ∧ bf (s.rs b) 3 13 = 0
    let plain : Prop := slotOk ∧ bf (s.rs b) 32 6 = 0 ∧ bf (s.rs b) 16 12 = 0
    let ws := p.ws.get (idx 8 (bf (s.rs b) 0 3))
    let code : Nat := match ws.state with | .free => 0 | .building => 1 | .current => 2 | .retiring => 3
    let tw : Instr := .postTcwait d a b h ind
    (s.passes task = true → (s.begun task).blockChk (s.rs a) = none → s.mySlices slot 64 = true →
      (full rq (p.qtail - p.qhead) → exec task s = .next (s.setMe { s.me with wait := some (.near (.postTask a)) })) ∧
      (¬ full rq (p.qtail - p.qhead) →
        (∀ e : Exc, e.holds = none → (s.begun task).readBlock (s.rs a) = .error e → Raises task s e) ∧
        (Memory.wf s.mem = true → (s.begun task).readBlock (s.rs a) = .ok (v, u) →
          ∃ t, exec task s = .next t ∧ t.me.pc = s.nextPc ∧ (∀ r, t.rs r = s.rs r) ∧
            (t.part part).qtail = p.qtail + 1 ∧ (t.part part).qhead = p.qhead ∧
            Mem.readN t.mem (2 ^ 53 + (slot - 2 ^ 32)) 64 = v % 2 ^ 512))) ∧
    (s.passes post = true → (s.rs b).toNat < bf p.pqp 16 11 → k = bf p.pqp 0 10 + (s.rs b).toNat →
      (q.state = .error → Raises post s (access 0)) ∧
      (q.state ≠ .error → (s.begun post).blockChk (s.rs a) = none → s.mySlices place 64 = true →
        (full qn (q.tail - q.head) → exec post s = .next (s.setMe { s.me with wait := some (.near (.postQp a b)) })) ∧
        (¬ full qn (q.tail - q.head) →
          (∀ e : Exc, e.holds = none → (s.begun post).readBlock (s.rs a) = .error e → Raises post s e) ∧
          (Memory.wf s.mem = true → (s.begun post).readBlock (s.rs a) = .ok (v, u) →
            ∃ t, exec post s = .next t ∧ t.me.pc = s.nextPc ∧ (∀ r, t.rs r = s.rs r) ∧
              t.qp k = { q with tail := q.tail + 1 } ∧
              Mem.readN t.mem (2 ^ 53 + (place - 2 ^ 32)) 64 = v % 2 ^ 512)))) ∧
    (s.passes post = true → bf p.pqp 16 11 ≤ (s.rs b).toNat → Raises post s (access 0)) ∧
    (s.passes task = true → ∀ e : Exc, e.holds = none → (s.begun task).blockChk (s.rs a) = some e → Raises task s e) ∧
    (names → Posts (.postTcadd d a b h ind) s (.tcAdd k) (s.rs d) 0 0) ∧
    (names → Posts (.postTcset d a b h ind) s (.tcSet k) (s.rs d) 0 0) ∧
    (names → s.postedBy = [] → ∃ t : State, Answers (.postTcrd d a b h ind) s (t.putS .salu d (s.tc k)) ∧
      { t with hazard := s.hazard } = s.begun (.postTcrd d a b h ind)) ∧
    (names → s.postedBy = [] → s.rs d ≤ s.tc k → ∃ t, Answers tw s t ∧ { t with hazard := s.hazard } = s.begun tw) ∧
    (names → s.tc k < s.rs d → s.passes tw = true →
      exec tw s = .next (s.setMe { s.me with wait := some (.near (.postTcwait d a b h ind)) })) ∧
    (slotOk → (s.rs a).toNat % 256 = 0 → inDevice (s.rs a).toNat = true → Posts (.postWbeg a b) s .wsBeg 0 (s.rs a) (s.rs b)) ∧
    (plain → Posts (.postWcom b) s .wsCom 0 0 (s.rs b) ∧ Posts (.postWabn b) s .wsAbn 0 0 (s.rs b)) ∧
    (plain → s.postedBy = [] → GivesS (.postWst d b) s .salu d (BitVec.ofNat 64 (code + ws.bound % 2 ^ 32 * 2 ^ 16)))

/-- R116, R120, R237, R250-R256: a turn applies the oldest posted operation of a core's K, of a list form one element, the
one that is next: that grain and that order, where R79, R115 and R251 order only what one bank unit gets, are the model's
choice (log 10). The operation leaves the queue: an atomic changes its location alone, the last element of a list form adds
1 to the semaphore of `sig`; a predictor write its entry or header, and a clear the held entries, the counts and HOVF
(R244); a creel takes its configuration or bias (R90, R245); sketch forms write the pairs of R101, the saturating sums of
R103, R104 and R106, or zeros (R107); a cell is initialised or takes an entry at its place in stamp order, and a settle its
source's step (R109, R113, R114); a counter is added to or set; a slot form makes the transition of R64. An atomic on a
poisoned line stops the node with a record of UNIT 10, imprecisely. -/
def Obligations.PostedOperationsApply : Prop :=
  ∀ (s : State) (g : Nat) (p : Posted) (ps : List Posted) (x y : Sketch) (r : Region) (c : Machine.Cell) (u : State),
    let ev : Instr := .postedOpApply (.core g) 0
    let at_ (x : Nat) : Nat := 2 ^ 53 + (x - 2 ^ 32)
    let ea := p.a.toNat
    let rd (t : State) (a n : Nat) : Nat := Mem.readN t.mem (at_ a) n
    let shared (a n : Nat) : Prop := 2 ^ 32 ≤ a ∧ a + n ≤ 2 ^ 32 + 2 ^ 29
    let keeps (t : State) (a n : Nat) : Prop := ∀ x, x < at_ a ∨ at_ a + n ≤ x → Mem.read t.mem x = Mem.read s.mem x
    let leads (f : State → Prop) : Prop := ∃ t, exec ev s = .next t ∧ (t.core g).posted = ps ∧ f t
    let layer := bf p.b 16 6
    let key := bf p.a 0 14
    let clamp (v : Int) : Int := max (-2 ^ 31 + 1) (min (2 ^ 31 - 1) v)
    let i32 (t : State) (a : Nat) : Int := max (-2 ^ 31 + 1) (BitVec.ofNat 32 (rd t a 4)).toInt
    let lost (a : Nat) : Prop := rd s a 4 = 2 ^ 31
    let sat (t : State) (j : Nat) : Bool := (rd t x.addr 8).testBit (40 + j)
    let apart (a n b k : Nat) : Prop := a + n ≤ b ∨ b + k ≤ a
    let n := bf p.b 0 3
    let w := (s.part p.part).ws.get (idx 8 n)
    let ws (t : State) (k : Nat) : Ws := (t.part p.part).ws.get (idx 8 k)
    Memory.wf s.mem = true → (s.core g).posted = p :: ps →
    (∀ op ty us, p.op = .nma op ty us → let n := if ty = 1 then 8 else 4
      shared ea n → s.badIn (at_ ea) n = false → s.poisoned (at_ ea) = false →
      (s.fmtOf (at_ ea) = 0 ∨ (ty = 0 ∧ s.fmtOf (at_ ea) = 0x21) ∨ (ty = 2 ∧ s.fmtOf (at_ ea) = 0x11)) →
      leads fun t => t.side = s.side ∧ keeps t ea n ∧
        rd t ea n = nmaNew op ty us (rd s ea n) (bf p.b 0 (8 * n)) (bf p.d 0 (8 * n)) % 2 ^ (8 * n)) ∧
    (∀ op us, p.op = .nma op 0 us → shared ea 4 → s.badIn (at_ ea) 4 = false → s.poisoned (at_ ea) = true →
      exec ev s = .next ((s.setCore g { s.core g with posted := ps }).imprecise g 10
        ((ea - 2 ^ 32) / 2 ^ 27 * 512 + fld (ea - 2 ^ 32) 8 9) p.pc (.fault 8 p.a 0))) ∧
    (∀ op ty xs sig, p.op = .list op ty xs sig → ty ≠ 1 → let e := p.d.toNat + 4 * p.done
      p.done < xs.length → shared e 4 → s.badIn (at_ e) 4 = false → s.poisoned (at_ e) = false → s.fmtOf (at_ e) = 0 →
      ∃ t, exec ev s = .next t ∧ keeps t e 4 ∧ rd t e 4 = nmaNew op ty false (rd s e 4) (xs[p.done]?.getD 0).toNat 0 % 2 ^ 32 ∧
        (t.core g).posted = (if p.done + 1 < xs.length then { p with done := p.done + 1 } :: ps else ps) ∧
        ∀ k, (t.core g).sems.get k = (s.core g).sems.get k + if p.done + 1 = xs.length ∧ sig = some k then 1 else 0) ∧
    (shared ea (1040 * 1024) →
      (p.op = .ptWr → let e := ea + 0x4000 + 0x4000 * layer + 4 * bf p.b 0 12
        s.bankErr e 4 = none → leads fun t => rd t e 4 = bf p.d 0 32 ∧ keeps t e 4) ∧
      (p.op = .ptHwr → s.bankErr (ea + 16 * layer) 8 = none → leads fun t =>
        rd t (ea + 16 * layer) 8 = p.d.toNat ∧ keeps t (ea + 16 * layer) 8) ∧
      (p.op = .ptClr → s.bankErr (ea + 16 * layer) 16 = none → s.bankErr (ea + 0x400 + 128 * layer) 128 = none → leads fun t =>
        rd t (ea + 16 * layer) 8 = rd s (ea + 16 * layer) 8 - fld (rd s (ea + 16 * layer) 8) 49 1 * 2 ^ 49 ∧
        rd t (ea + 16 * layer + 8) 8 = 0 ∧ ∀ j < 8, let h := ea + 0x400 + 128 * layer + 16 * j
          rd t h 16 = rd s h 16 / 2 * 2)) ∧
    (p.op = .creelCfg → let nd := bf p.b 12 52 * 16
      nd = 0 ∨ s.sharedOk p.part nd 16 = true → leads fun t => t.mem = s.mem ∧ t.creel key =
        Creel.mk true (bf p.a 16 12) (bf p.b 0 12 + 1) (s.creel key).bias (BitVec.ofNat 64 nd) [] false) ∧
    (p.op = .creelBias → leads fun t => t.mem = s.mem ∧ t.creel key = { s.creel key with bias := p.b.setWidth 32 }) ∧
    (s.sketch p.part ea = .ok x → shared ea 64 →
      (p.op = .skSeed → let mix (v : W64) : W64 :=
          let z := v + 0x9E3779B97F4A7C15
          let z := (z ^^^ (z >>> 30)) * 0xBF58476D1CE4E5B9
          let z := (z ^^^ (z >>> 27)) * 0x94D049BB133111EB
          z ^^^ (z >>> 31)
        leads fun t => keeps t x.pairs (16 * x.d) ∧ ∀ j < x.d,
          rd t (x.pairs + 16 * j) 8 = (mix (p.b + BitVec.ofNat 64 (2 * j + 1)) ||| 1).toNat ∧
          rd t (x.pairs + 16 * j + 8) 8 = (mix (p.b + BitVec.ofNat 64 (2 * j + 2))).toNat) ∧
      (p.op = .skClr → leads fun t => (∀ b < x.d * 2 ^ (x.k + 2), Mem.read t.mem (at_ x.base + b) = 0) ∧
        (∀ b < x.d * 2 ^ (x.k + 2), t.sideOf (at_ x.base + b) = 0x30) ∧ fld (rd t ea 8) 40 7 = 0) ∧
      (s.pairsOk x = none → apart ea 64 x.base (x.d * 2 ^ (x.k + 2)) → apart x.pairs 128 x.base (x.d * 2 ^ (x.k + 2)) →
        apart x.pairs 128 ea 64 → let ctr (j col : Nat) : Nat := x.base + (j * 2 ^ x.k + col) * 4
        (p.op = .skUpd → ofBits (bf p.d 0 32) = .nan true ∨ ofBits (bf p.d 0 32) = .nan false → leads fun t =>
          (∀ j < x.d, sat t j = true) ∧ keeps t ea 8) ∧
        (∀ (neg : Bool) (m : Nat) (e : Int), p.op = .skUpd → s.hashErr x p.b = none → ofBits (bf p.d 0 32) = .fin neg m e →
          let v : ℚ := m * 2 ^ (e + x.es)
          ∃ k : Nat, |(k : ℚ) - v| ≤ 1 / 2 ∧ (|(k : ℚ) - v| = 1 / 2 → k % 2 = 0) ∧
          let d := clamp (if neg then -k else k)
          leads fun t => ∀ j < x.d,
            let h := (p.b.toNat ^^^ rd s (x.pairs + 16 * j + 8) 8) * rd s (x.pairs + 16 * j) 8 % 2 ^ 64
            let z := i32 s (ctr j (h / 2 ^ (64 - x.k))) + (if h.testBit (63 - x.k) then -d else d)
            i32 t (ctr j (h / 2 ^ (64 - x.k))) = clamp z ∧
            (sat t j = true ↔ sat s j = true ∨ clamp z ≠ z ∨ lost (ctr j (h / 2 ^ (64 - x.k))) ∨ 2 ^ 31 ≤ k) ∧
            ∀ col < 2 ^ x.k, col ≠ h / 2 ^ (64 - x.k) → rd t (ctr j col) 4 = rd s (ctr j col) 4)) ∧
      (p.op = .skAdd → s.sketch p.part p.b.toNat = .ok y → shared p.b.toNat 64 → s.pairsOk x = none → s.pairsOk y = none →
        (y.d ≠ x.d ∨ y.k ≠ x.k ∨ y.es ≠ x.es → exec ev s = .next ((s.setCore g { s.core g with posted := ps }).imprecise g 10
          (p.unit (.fault 0x0E p.b 0)) p.pc (.fault 0x0E p.b 0))) ∧
        (y.d = x.d → y.k = x.k → y.es = x.es → (∀ j < x.d, s.pair x j = s.pair y j) →
          x.base = y.base ∨ apart x.base (x.d * 2 ^ (x.k + 2)) y.base (x.d * 2 ^ (x.k + 2)) →
          apart p.b.toNat 64 x.base (x.d * 2 ^ (x.k + 2)) → apart p.b.toNat 64 y.base (x.d * 2 ^ (x.k + 2)) →
          (∀ l < x.d * 2 ^ x.k / 64, s.ctrErr (x.base + 256 * l) 256 = none ∧ s.ctrErr (y.base + 256 * l) 256 = none) →
          leads fun t => ∀ i < x.d * 2 ^ x.k, i32 t (y.base + 4 * i) = clamp (i32 s (x.base + 4 * i) + i32 s (y.base + 4 * i))))) ∧
    (s.region p.b.toNat = .ok r → shared ea 128 →
      (∀ i, p.op = .ocInit i → s.fmtOf (at_ ea) = 0x31 → leads fun t => keeps t ea 128 ∧
        rd t ea 128 = (bf p.d 0 32 + i.toNat * 2 ^ 36 + r.floorx * 2 ^ 64 + r.id * 2 ^ 112)) ∧
      (p.op = .ocIns → s.openCell ea r = (u, .ok c) → let h := histOf p.d.toNat
        let stamp (e : Hist) : Nat := r.rel e.step * 2 ^ 12 + e.src
        let late : Prop := r.rel h.step = 0 ∨ 2 ^ 15 < r.rel h.step ∨ ∃ z, r.settled h.src = some z ∧ r.rel h.step ≤ r.rel z
        let twice : Prop := ∃ e ∈ c.hist, e.step = h.step ∧ e.src = h.src
        let stops (v : State) (code : Nat) : Prop := exec ev s = .next ((v.setCore g { v.core g with posted := ps }).imprecise g 10
          (p.unit (.fault code p.a 0)) p.pc (.fault code p.a 0))
        (if c.i32 then h.op = 0 ∨ h.op = 4 else h.op ≤ 3) →
        (late → stops u 0x10) ∧ (¬ late → twice → stops u 0x11) ∧
        (¬ late → ¬ twice → c.hist.length = 14 → stops (u.shWr ea 128 ({ c with ovf := true } : Machine.Cell).bits) 0x0F) ∧
        (¬ late → ¬ twice → c.hist.length < 14 → leads fun t => keeps t ea 128 ∧ ∃ before after : List Hist, c.hist = before ++ after ∧
          rd t ea 128 = ({ c with hist := before ++ h :: after } : Machine.Cell).bits % 2 ^ 1024 ∧
          (∀ e ∈ before, ¬ stamp h < stamp e) ∧ ∀ e, after.head? = some e → stamp h < stamp e))) ∧
    (s.region p.b.toNat = .ok r → shared p.b.toNat 512 → p.op = .ocSettle → ∀ j old, r.srcs[j]? = some (bf p.a 16 12, old) →
      1 ≤ r.rel (bf p.a 0 16) → r.rel (bf p.a 0 16) ≤ 2 ^ 15 → leads fun t => let e := p.b.toNat + 16 + 4 * j + 2
        keeps t e 2 ∧ rd t e 2 = if r.rel (bf p.a 0 16) ≤ r.rel old then rd s e 2 else bf p.a 0 16) ∧
    (∀ n, p.op = .tcAdd n → leads fun t => t.mem = s.mem ∧ t.tc n = s.tc n + p.d) ∧
    (∀ n j, p.op = .tcSet n → leads fun t => t.tc j = if j = n then p.d else s.tc j) ∧
    (p.op = .wsBeg → w.state = .free → leads fun t => t.mem = s.mem ∧ (∀ k, k < 8 → k ≠ n → ws t k = ws s k) ∧
      ws t n = { state := .building, table := p.a, experts := bf p.b 16 12 + 1, shards := bf p.b 32 6 + 1, bound := 0 }) ∧
    (p.op = .wsCom → w.state = .building → leads fun t => t.mem = s.mem ∧ ws t n = { w with state := .current } ∧
      ∀ k, k < 8 → k ≠ n → ws t k = if (ws s k).state ≠ .current then ws s k
        else { ws s k with state := if (ws s k).bound = 0 then .free else .retiring }) ∧
    (p.op = .wsAbn → w.state = .building → leads fun t => t.mem = s.mem ∧ ws t n = { w with state := .free } ∧
      ∀ k, k < 8 → k ≠ n → ws t k = ws s k) ∧
    ((p.op = .wsBeg ∧ w.state ≠ .free) ∨ ((p.op = .wsCom ∨ p.op = .wsAbn) ∧ w.state ≠ .building) →
      leads fun t => t.mem = s.mem ∧ (∀ k, ws t k = ws s k) ∧ ∀ q, s.partOf (cidOf g) = some q →
        let rank := ((s.core g).ctx.getD {}).grk
        let note : Record := { cls := 2, code := 5, unit := 0, index := rank, caddr := p.pc.toNat, detail := n + w.state.code * 2 ^ 4 }
        t.due = s.due ++ [{ part := q, cluster := cidOf g, record := s.nodeRecord g note }])

/-! ### Engine events -/

/-- R215, R220-R223, R63, R227, R230-R233, R144: a command that can start does so, on an engine that runs (R23): an
accumulator cleared, the sum of two closed ones, or a product of clean operand lines (R37, R35, R43), element by element;
the lines of a copy or gather moved whole with their side bands between scratchpads and shared memory, a masked row filled,
a side band set, a tile stored with its format, tags marked, and nothing else changed, in a node that is not STRICT; a
resolve takes its rows one by one, a row a turn, which is the model's choice (logs 10 and 51), and writes its result (R94,
R96); a row with a pending error poisons its tile and counts as REDO, the model's reading of R98 (log 49), and a masked
row's side band is the descriptor's under every FFMT, the model's choice between R222 and R36 (log 88). A started command
retires in its turn, after the earlier consumers of its rings (R60), commits the slot it claimed, signals its semaphore,
pops the slot it consumed and sets the event bits; an idle sibling takes the next relocatable command. -/
def Obligations.EngineCommandsRun : Prop :=
  ∀ (s : State) (g sib : Nat) (q : Queue) (x : QCmd) (d a b : TReg) (r k pb : Reg16) (src dst cw w : W64) (keep spec quar : Bool)
    (u : State) (ks kd : Nat → Nat) (g' i0 j0 len v l : Nat),
    let c := s.core g
    let e := c.queue q
    let o : State := { s with asked := x.held }
    let runs (t : State) : Prop := ∀ y ∈ ((t.core g).queue q).cmds, y.order = x.order → y.started = true ∧ y.cmd = x.cmd
    let kept (t : State) : Prop := ∀ tt, tt ≠ d → (t.core g).tiles.getD tt.val {} = c.tiles.getD tt.val {}
    let tile (t : State) (tt : TReg) : Tile := (t.core g).tiles.getD tt.val {}
    let starts (f : State → Prop) : Prop := ∃ t, exec (.engineCommandStart g q) s = .next t ∧ runs t ∧ f t
    let near (y : Nat) : Prop := (isSpad y = true ∨ isShared y = true) ∧ y % 256 = 0
    let slotLine (h : Nat) (rr : Reg16) (sl n : Nat) : W64 := let f := (s.ring h rr).cfg
      BitVec.ofNat 64 ((if h = g then 0 else 0x1000000 + h % 128 * 2 ^ 20) + (bf f 0 12 + sl * (bf f 12 9 + 1)) * 256 + 256 * n)
    let fill (h : Nat) (rr : Reg16) : Nat := (s.ring h rr).claimed % (s.ring h rr).n
    let read (rr : Reg16) (i : Nat) : Nat := ((s.ring g rr).head + i) % (s.ring g rr).w % (s.ring g rr).n
    let memLine (base : W64) (n : Nat) : W64 := let wd := bf cw 0 10
      base + BitVec.ofNat 64 (n / wd) * (if bf cw 32 32 = 0 then BitVec.ofNat 64 (wd * 256) else (cw.extractLsb' 32 32).signExtend 64)
        + BitVec.ofNat 64 (n % wd * 256)
    let N := bf cw 10 10 * bf cw 0 10
    let moves (n : Nat) (on : Nat → Bool) (sv dv : Nat → W64) : Prop := s.watched g = false ∧ Memory.wf s.mem = true ∧ ∀ i < n,
      o.resolve g (dv i) { w := true } = .ok (kd i) ∧ near (kd i) ∧ (∀ j < n, kd j ≠ ks i ∧ (j ≠ i → kd j ≠ kd i)) ∧
      (on i = true → o.resolve g (sv i) { rd := true } = .ok (ks i) ∧ near (ks i) ∧ s.badIn (ks i) 256 = false ∧
        sideErr (s.sideOf (ks i)) (sv i) = none ∧ (isSpad (kd i) = true ∨ (s.sideOf (ks i)).getLsbD 25 = false))
    let moved (n : Nat) (on : Nat → Bool) (sb : W32) (t : State) : Prop :=
      (∀ i < n, (∀ z < 256, Mem.read t.mem (kd i + z) = if on i then Mem.read s.mem (ks i + z) else 0) ∧
        t.sideOf (kd i) = if on i then s.sideOf (ks i) else sb) ∧
      (∀ y, (∀ i < n, y < kd i ∨ kd i + 256 ≤ y) → Mem.read t.mem y = Mem.read s.mem y) ∧
      (∀ y, (∀ i < n, y / 256 ≠ kd i / 256) → t.sideOf y = s.sideOf y) ∧ (t.core g).tiles = c.tiles
    (e.cmds.find? (fun y => !y.started && !y.cmd.isKat) = some x → s.canStart g q x = true → s.engineRuns g q = true →
      (x.cmd = .accZero d → starts fun t => tile t d = {} ∧ kept t ∧ t.mem = s.mem) ∧
      (x.cmd = .accAdd d a b → (tile s d).tent = false → (tile s a).tent = false → (tile s b).tent = false →
        starts fun t => kept t ∧ t.mem = s.mem ∧ (tile t d).cnt = 16 ∧
          (tile t d).closed = true ∧ (tile t d).poison = ((tile s a).poison || (tile s b).poison) ∧
          (tile t d).tags = (tile s d).tags ∧
          ∀ m < 32, ∀ n < 128, (tile t d).at_ m n = addF32 ((tile s a).at_ m n) ((tile s b).at_ m n)) ∧
      (x.cmd = .copyMm src dst cw → moves N (fun _ => true) (memLine src) (fun n => dst + BitVec.ofNat 64 (256 * n)) →
        starts (moved N (fun _ => true) 0)) ∧
      (x.cmd = .copyIn r g' src cw → N ≤ (s.ring g' r).ssz → moves N (fun _ => true) (memLine src) (slotLine g' r (fill g' r)) →
        starts fun t => moved N (fun _ => true) 0 t ∧
          t.ring g' r = { s.ring g' r with claimed := ((s.ring g' r).claimed + 1) % (s.ring g' r).w }) ∧
      (x.cmd = .copyOut r keep dst cw → c.places x = [(r, i0)] → N ≤ (s.ring g r).ssz →
        moves N (fun _ => true) (slotLine g r (read r i0)) (memLine dst) →
        starts fun t => moved N (fun _ => true) 0 t ∧ t.ring g r = s.ring g r) ∧
      (x.cmd = .copyWt r g' w cw spec → bf cw 10 10 = 1 → bf cw 0 10 = 1 → s.watched g = false → Memory.wf s.mem = true →
        o.shardOf g w = .ok (src, len, quar, u) → bf w 32 32 < len → let va := src + BitVec.ofNat 64 (bf w 32 32 * 256)
        o.resolve g va { rd := true } = .ok i0 → isExt i0 = false → isSpad i0 = false → i0 % 256 = 0 → s.badIn i0 256 = false →
        sideErr (s.sideOf i0) va = none → o.resolve g (slotLine g' r (fill g' r) 0) { w := true } = .ok j0 → isSpad j0 = true →
        j0 % 256 = 0 → starts fun t =>
          (∀ z < 256, Mem.read t.mem (j0 + z) = if spec && quar then 0 else Mem.read s.mem (i0 + z)) ∧
          t.sideOf j0 = if quar then (if spec then 0x02000000 else s.sideOf i0 ||| 0x02000000) else s.sideOf i0) ∧
      (x.cmd = .gath r src → (∃ y, o.readBlk (s.job g q x) src 32 = .ok (v, y)) → gatherErr v src = none →
        let n := fld v 0 10
        let cnt := fld v 192 32
        let index (i : Nat) : Nat := fld l (32 * (i / n)) 32
        let at_ (i : Nat) : Nat := fld v 72 56 + index i * fld v 224 32 * 256 + 256 * (i % n)
        let on (i : Nat) : Bool := decide (index i ≠ 2 ^ 32 - 1)
        (∃ y, o.readBlk (s.job g q x) (BitVec.ofNat 64 (fld v 136 56)) (4 * cnt) = .ok (l, y)) → cnt * n ≤ (s.ring g r).ssz →
        (∀ i < cnt * n, on i = true → at_ i < 2 ^ 64) →
        moves (cnt * n) on (fun i => BitVec.ofNat 64 (at_ i)) (slotLine g r (fill g r)) →
        starts (moved (cnt * n) on (BitVec.ofNat 32 (fld v 48 24)))) ∧
      (∀ sb, x.cmd = .lineSet sb dst v → s.watched g = false →
        (∀ i < v, o.resolve g (dst + BitVec.ofNat 64 (256 * i)) { w := true } = .ok (kd i) ∧ near (kd i)) →
        starts fun t => t.mem = s.mem ∧ (∀ i < v, t.sideOf (kd i) = sb) ∧
          ∀ y, (∀ i < v, y / 256 ≠ kd i / 256) → t.sideOf y = s.sideOf y) ∧
      (x.cmd = .accSt r d keep spec → (tile s d).tent = false → s.watched g = false → Memory.wf s.mem = true →
        let n := if keep then 32 else 64
        n ≤ (s.ring g r).ssz → (∀ i < n, o.resolve g (slotLine g r (fill g r) i) { w := true } = .ok (kd i) ∧ isSpad (kd i) = true ∧
          kd i % 256 = 0 ∧ ∀ j < n, j ≠ i → kd j ≠ kd i) →
        starts fun t => tile t d = (if spec then {} else tile s d) ∧ kept t ∧
          (∀ i < n, t.sideOf (kd i) = (if keep then 0x10 else 0x11) + if (tile s d).poison then 0x02000000 else 0) ∧
          ∀ m < 32, ∀ z < 128, if keep then Mem.readN t.mem (kd m + 2 * z) 2 = (rneBf16.wr (ofBits ((tile s d).at_ m z).toNat)).bits / 2 ^ 16
            else Mem.readN t.mem (kd (2 * m + z / 64) + 4 * (z % 64)) 4 = ((tile s d).at_ m z).toNat) ∧
      (x.cmd = .tent d src → (∃ y, o.readBlk (s.job g q x) src 256 = .ok (v, y)) → (∀ m < 32, fld v (64 * m) 64 < 2 ^ 37) →
        starts fun t => kept t ∧ t.mem = s.mem ∧ (tile t d).tent = true ∧ (∀ m n, (tile t d).at_ m n = (tile s d).at_ m n) ∧
          ∀ m < 32, (tile t d).tag m = BitVec.ofNat 64 (fld v (64 * m) 64)) ∧
      (∀ (kind : Fin 5) (init ka kb rel : Bool) (kc np : Nat), x.cmd = .mma kind d r pb init ka kb false rel kc np →
        c.places x = [(r, i0), (pb, j0)] → s.watched g = false → 1 ≤ kc →
        let ta : Nat := if kind = 4 then 2 else if kind = 0 ∨ kind = 2 then 0 else 1
        let tb : Nat := if kind = 4 then 2 else if kind = 0 ∨ kind = 3 then 0 else 1
        let key (rr : Reg16) (i : Nat) : Nat :=
          2 ^ 52 + g * 2 ^ 20 + (bf (s.ring g rr).cfg 0 12 + read rr i * (s.ring g rr).ssz) * 256
        let clean (ty : Nat) (rr : Reg16) (i : Nat) : Prop := ∀ n < (s.ring g rr).ssz,
          (slotLine g rr (read rr i) n).toNat < 2 ^ 20 ∧
          o.resolve g (slotLine g rr (read rr i) n) { rd := true } = .ok (key rr i + 256 * n) ∧ s.badIn (key rr i + 256 * n) 256 = false ∧
          (s.sideOf (key rr i + 256 * n)).getLsbD 25 = false ∧ fld (s.sideOf (key rr i + 256 * n)).toNat 26 6 = 0 ∧
          s.fmtOf (key rr i + 256 * n) = if ty = 0 then 1 else if ty = 1 then 2 else 0x10
        (s.ring g r).ssz = (if ta = 0 then 32 * kc else if ta = 1 then 32 * (kc / 2) else 64 * kc) →
        (s.ring g pb).ssz = (if tb = 0 then 128 * kc else if tb = 1 then 128 * (kc / 2) else 256 * kc) →
        (ta = 1 ∨ tb = 1 → kc % 2 = 0) → clean ta r i0 → clean tb pb j0 →
        let first : Prop := init = true ∨ ((tile s d).cnt = 0 ∧ (tile s d).closed = false)
        (¬ first → (tile s d).closed = false ∧ (tile s d).cnt + kc ≤ 16) →
        let line (ty row ch : Nat) : Nat :=
          (if ty = 0 then row * kc + ch else if ty = 1 then row * (kc / 2) + ch / 2 else row * (2 * kc) + 2 * ch) * 256
        let int (ty k0 row ch i : Nat) : Int :=
          if ty = 0 then let y := Mem.read s.mem (k0 + line 0 row ch + i)
            if y = 0x80 then 0 else y.toInt
          else let y := (Mem.read s.mem (k0 + line 1 row ch + 128 * (ch % 2) + i / 2)).toNat / 16 ^ (i % 2) % 16
            if y = 8 then 0 else if y < 8 then y else (y : Int) - 16
        let scale (ty k0 row ch : Nat) : Nat :=
          fld (s.sideOf (k0 + line ty row ch)).toNat (if ty = 0 then 8 else 8 + 8 * (ch % 2)) 8
        let nums (k0 row ch : Nat) : List Machine.Num := (List.range 256).map fun i =>
          ofBits (Mem.readN s.mem (k0 + line 2 row ch + 2 * i) 2 * 2 ^ 16)
        let chunk (m n ch : Nat) : W32 :=
          let sum : Int := ((List.range 256).map fun i => int ta (key r i0) m ch i * int tb (key pb j0) n ch i).sum
          let ea := scale ta (key r i0) m ch
          let eb := scale tb (key pb j0) n ch
          if kind = 4 then bf16Chunk (if np = 2 then 24 else 40) (nums (key r i0) m ch) (nums (key pb j0) n ch)
          else if ea = 255 ∨ eb = 255 then 0x7FC00000
          else BitVec.ofNat 32 (rneF32.wr (.fin (decide (sum < 0)) sum.natAbs ((ea : Int) + eb - 254))).bits
        starts fun t => kept t ∧ t.mem = s.mem ∧ (tile t d).closed = false ∧
          (first → (tile t d).cnt = kc ∧ (tile t d).poison = false ∧ ∀ m < 32, ∀ n < 128, (tile t d).at_ m n =
            ((List.range kc).drop 1).foldl (fun v ch => addF32 v (chunk m n ch)) (chunk m n 0)) ∧
          (¬ first → (tile t d).cnt = (tile s d).cnt + kc ∧ (tile t d).poison = (tile s d).poison ∧
            ∀ m < 32, ∀ n < 128, (tile t d).at_ m n =
              (List.range kc).foldl (fun v ch => addF32 v (chunk m n ch)) ((tile s d).at_ m n)))) ∧
    (e.cmds.find? (fun y => !y.cmd.isKat) = some x → x.started = true → s.engineRuns g q = true →
      (∀ y ∈ c.commands, y.order < x.order → ∀ r ∈ x.cmd.consumes, ∀ z ∈ y.cmd.consumes, z.1 ≠ r.1) →
      (x.resolve = none → x.claim = none →
        x.sibling = none → x.sig = some k → ∃ t, exec (.engineCommandRetire g q) s = .next t ∧ t.mem = s.mem ∧
          ((t.core g).queue q).cmds = e.cmds.filter (fun y => decide (y.order ≠ x.order)) ∧
          (t.core g).sems.get k = c.sems.get k + 1 ∧ (∀ j, j ≠ k → (t.core g).sems.get j = c.sems.get j) ∧
          (∀ w, ((t.core g).seq w).event = true) ∧ (t.core g).tiles = c.tiles ∧
          (x.cmd = .copyOut r keep src cw → t.ring g r = if keep then s.ring g r
            else { s.ring g r with head := ((s.ring g r).head + 1) % (s.ring g r).w }) ∧
          (x.cmd = .copyMm src dst cw → (t.core g).rings = c.rings)) ∧
      (∀ ring', x.resolve = none → x.claim = some (g', r, v) → x.cmd.consumes = [] → (s.ring g' r).commit v 1 = some ring' →
        ∃ t, exec (.engineCommandRetire g q) s = .next t ∧ t.mem = s.mem ∧ t.ring g' r = ring' ∧
          ∀ w, ((t.core g').seq w).event = true) ∧
      (∀ (n : Resolving) (bl : ResolveBlock), x.cmd = .rslv d src spec → x.resolve = some n → resolveBlock n.block.toNat = some bl →
        let part := (c.ctx.getD {}).part
        let tag := ((tile s d).tag n.row).toNat
        let rd (y : State) (p m : Nat) : Nat := Mem.readN y.mem (2 ^ 53 + (p - 2 ^ 32)) m
        let pt := bl.ptb + 0x4000 + 0x4000 * bl.layer + 4 * fld tag 24 12
        let goes (m : Resolving) (f : State → Prop) : Prop := ∃ t, exec (.engineCommandRetire g q) s = .next t ∧ f t ∧
          ∀ y ∈ ((t.core g).queue q).cmds, y.order = x.order → y.resolve = some { m with row := n.row + 1 }
        let counted (t : State) (hit : Bool) : Prop := let h := fld (rd s pt 4) 12 12 + hit.toNat
          let m := fld (rd s pt 4) 0 12 + (!hit).toNat
          rd t pt 4 = min 4095 m + min 4095 h * 2 ^ 12 + 255 * min 4095 h / (min 4095 h + min 4095 m) * 2 ^ 24
        Memory.wf s.mem = true → s.sharedOk part bl.ptb (1040 * 1024) = true → s.sharedOk part bl.dbase (max 1 (16 * bl.dcount)) = true →
        bl.ptb + 1040 * 1024 ≤ bl.dbase ∨ bl.dbase + 16 * bl.dcount ≤ bl.ptb →
        (n.row < 32 → tag.testBit 36 = false → goes n fun t => t.mem = s.mem) ∧
        (n.row < 32 → tag.testBit 36 = true → s.engineErrAt pt 4 = none →
          s.findDecision bl (fld tag 0 24) (fld tag 24 12) bl.dcount 0 = .ok none →
          goes { n with squashed := n.squashed + 1 } fun t => counted t false) ∧
        (∀ i (dd : Decision), n.row < 32 → tag.testBit 36 = true → s.engineErrAt pt 4 = none → let at_ := bl.dbase + 16 * i
          s.findDecision bl (fld tag 0 24) (fld tag 24 12) bl.dcount 0 = .ok (some (i, dd)) →
          (dd.conf = true → goes { n with squashed := n.squashed + 1, dups := n.dups + 1 } fun t => counted t true) ∧
          (dd.conf = false → dd.weight = 0 ∨ dd.weight = 0x80000000 → goes { n with squashed := n.squashed + 1 } fun t =>
            counted t true ∧ rd t at_ 8 = rd s at_ 8 ||| 2 ^ 48) ∧
          (dd.conf = false → dd.weight ≠ 0 → dd.weight ≠ 0x80000000 → (tile s d).poison = true ∨ n.row ∈ (tile s d).err →
            goes { n with redo := n.redo + 1 } fun t => counted t true ∧ (tile t d).poison = true ∧
              rd t at_ 8 = rd s at_ 8 ||| 2 ^ 48 ||| 2 ^ 49)) ∧
        (n.row = 32 → spec = false → x.claim = none → bl.res % 16 = 0 → s.sharedOk part bl.res 16 = true →
          ∃ t, exec (.engineCommandRetire g q) s = .next t ∧ tile t d = {} ∧ kept t ∧
            ((t.core g).queue q).cmds = e.cmds.filter (fun y => decide (y.order ≠ x.order)) ∧
            rd t bl.res 16 = (n.commits + n.squashed * 2 ^ 32 + n.dups % 2 ^ 16 * 2 ^ 64 + n.redo % 2 ^ 16 * 2 ^ 80) % 2 ^ 128))) ∧
    (c.mq.next = some x → (c.ctx.getD {}).reloc = true → x.cmd.relocatable = true → x.sibling = none →
      cidOf sib = cidOf g → sib ≠ g → (s.core sib).ctx = none → (s.core sib).preload = none → (s.core sib).steal = none →
      ∃ t, exec (.commandSteal g sib) s = .next t ∧ t.mem = s.mem ∧ (t.core sib).steal = some g ∧
        ∀ y ∈ (t.core g).mq.cmds, y.order = x.order → y.sibling = some (corOf sib))

/-- R216, R234, R242, R243: in a core whose engine runs, an error in an engine's buffers whose window cannot be replayed
poisons the tiles written since the marker, and is over; a known-answer test in idle cycles leaves its queue when its
signature agrees, and stops the node with code 0x0A when it differs. The next proofer command starts when none runs: one
whose checks pass writes one row of sixteen entries for each token in turn, and is then the command that runs; one with a
misaligned address stops its node, or halts its proofer node (the order of its checks is the model's choice, log 58); one
that has run signals, or ends its node's work. R43: the canonical sum adds the chunks of a span in ascending order, two
spans, and a third to their sum. -/
def Obligations.EngineErrorsAndProofer : Prop :=
  (∀ (x y z : W32) (as bs cs : List W32), as.length = 15 → bs.length = 15 → cs.length ≤ 15 →
    let span (c : W32) (rest : List W32) : W32 := rest.foldl addF32 c
    canonicalSum (x :: cs) = span x cs ∧ canonicalSum (x :: as ++ y :: cs) = addF32 (span x as) (span y cs) ∧
    canonicalSum (x :: as ++ y :: bs ++ z :: cs) = addF32 (addF32 (span x as) (span y bs)) (span z cs)) ∧
  ∀ (s : State) (g c : Nat) (q : Queue) (x : QCmd) (p : PCmd) (ps : List PCmd) (n : Nat) (sig : W32) (k : Reg16) (a : W64)
    (en : Entry) (head : Nat) (u : Nat → State) (xs : Nat → List (Nat × W32)) (es : Nat → List Nat) (at_ : Nat → Nat),
    let eq := (s.core g).queue q
    (s.engineRuns g q = true → eq.err = true → eq.cmds ≠ [] → eq.unreplayable = true → ∃ t, exec (.engineReplay g q) s = .next t ∧
      ((t.core g).queue q).err = false ∧
      ∀ i ∈ eq.window.tiles.map (·.1), ((t.core g).tiles.getD i {}).poison = true) ∧
    (eq.err = false → q ≠ .m → exec (.engineReplay g q) s = .next s) ∧
    ((s.core g).mq.cmds.find? (fun x => x.cmd.isKat) = some x → x.cmd = .mkat n sig → s.engineRuns g .m = true → s.matrixIdle g = true →
      (katSignature n = sig.toNat → ∃ t, exec (.katTestRun g) s = .next t ∧ t.mem = s.mem ∧
        (t.core g).mq.cmds = (s.core g).mq.cmds.filter (fun y => decide (y.order ≠ x.order)) ∧
        ∀ w, ((t.core g).seq w).event = true) ∧
      (katSignature n ≠ sig.toNat → ∃ u : State, u.mem = s.mem ∧
        (u.core g).mq.cmds = (s.core g).mq.cmds.filter (fun y => decide (y.order ≠ x.order)) ∧
        exec (.katTestRun g) s = .next ((u.imprecise g 5 (s.job g .m x).index x.pc
          (.fault 0x0A (sig.setWidth 64) (katSignature n))).fill (.cluster (cidOf g)) .kat))) ∧
    ((s.cluster c).running = none → (s.cluster c).proofs = p :: ps →
      let start : State := { s with asked := none }.setCluster c { s.cluster c with proofs := ps }
      let read (i : Nat) : State :=
        (if i = 0 then (u 0).consumeRows c p.part p.gate (fld head 20 13 * p.rowLines) else u i).consumeRows c p.part
          (p.input + i * p.rowLines * 256) p.rowLines
      (p.pred % 32 ≠ 0 → a = BitVec.ofNat 64 p.pred → p.core = some g →
        exec (.prooferCommandStart c) s = .next (start.imprecise g 6 0 p.pc (.fault 3 a 0))) ∧
      (p.pred % 32 ≠ 0 → a = BitVec.ofNat 64 p.pred → p.core = none → p.entry = some n → s.disp.pool.get? n = some en →
        exec (.prooferCommandStart c) s =
          .next ((start.setEntry n { en with phase := .halted, valid := false }).entryRecord n en
            { code := 3, unit := 6, addr := p.pred % 2 ^ 64, caddr := p.pc.toNat })) ∧
      (start.proofStartErr c p = none → start.engineHeader p.ptb p.layer = .ok head →
        start.proofErr c p.part { rd := true } p.gate (fld head 20 13 * p.rowLines) 256 = none → u 0 = start →
        (∀ i < p.tokens, (u i).proofScores c p i (List.range (fld head 20 13)) = .ok (xs i) ∧
          (read i).predEntries p head ((ranked (xs i)).take (min 16 (fld head 36 4 + fld head 33 3))) = .ok (es i) ∧
          (read i).proofReach c p.part { w := true } (p.pred + 32 * i) = .ok (at_ i) ∧
          u (i + 1) = (read i).store (at_ i) 32 ((List.range 16).map fun j => ((es i)[j]?).getD 0xFFFF * 2 ^ (16 * j)).sum) →
        let t := u p.tokens
        exec (.prooferCommandStart c) s = .next (t.setCluster c { t.cluster c with running := some p }))) ∧
    ((s.cluster c).running = some p → p.core = some g → p.sig = some k → ∃ t, exec (.prooferCommandRetire c) s = .next t ∧
      t.mem = s.mem ∧ (t.cluster c).running = none ∧ (t.core g).sems.get k = (s.core g).sems.get k + 1) ∧
    ((s.cluster c).running = some p → p.core = none → p.entry = some n → s.disp.pool.get? n = some en →
      ∃ t, exec (.prooferCommandRetire c) s = .next t ∧ t.mem = s.mem ∧ (t.cluster c).running = none ∧
        t.disp.pool.get? n = some (if en.overrun then { en with phase := .halted, valid := false, overrun := false }
          else { en with next := en.total }))

/-! ### C, waits and freezes -/

/-- R152, R153, R160, R22: in C a bundle of one slot whose guard is true does what its word does, after which one cycle
passes; with a false guard it only goes on; a header outside its limits, and two slots with one destination, raise
ILLEGAL with slot 15; outside C a header raises ILLEGAL. -/
def Obligations.BundlesIssue : Prop :=
  ∀ (s t : State) (g : Nat) (i j : Instr) (h w w' : W32) (p : Reg16),
    let hd : W32 := BitVec.ofNat 32 (63 * 2 ^ 26 + 2 ^ 22 + p.val * 2 ^ 16)
    let hd2 : W32 := BitVec.ofNat 32 (63 * 2 ^ 26 + 2 ^ 22 + 2 ^ 20)
    let at15 : State := { s with curSlot := 15, curAddr := s.me.pc }
    let cycle (f : List Flight) : List Flight := f.map fun x => { x with left := x.left - 1 }
    (s.cur = .core g .C → (s.core g).regErr = [] → decodeSlot w.toNat = .ok i → issueCheck 0 i s = none →
      (s.rp p = true → s.curSlot = 0 → s.curNp = 1 → exec i s = .next t → t.me.run = .running → t.me.wait = none →
        s.me.run = .running →
        exec (.bundleIssue hd [w]) s =
          .next (t.setCore g { t.core g with flight := cycle (t.core g).flight, landed := 0 })) ∧
      (s.rp p = false → ∃ u, exec (.bundleIssue hd [w]) s = .next u ∧ u.mem = s.mem ∧ u.me.pc = s.me.pc + 8 ∧
        (∀ r, u.rs r = s.rs r) ∧ (∀ r, u.rp r = s.rp r) ∧ (u.core g).flight = cycle (s.core g).flight ∧
        (u.core g).v = (s.core g).v)) ∧
    (s.cur = .core g .C → (bf h 0 4 ≠ 0 ∨ (bf h 22 4 ≠ 1 ∧ bf h 22 4 ≠ 2) ∨ (bf h 20 2 = 0 ∧ bf h 4 12 ≠ 0)) →
      exec (.bundleIssue h [w]) s = .next (at15.take illegal)) ∧
    (s.cur = .core g .C → decodeSlot w.toNat = .ok i → decodeSlot w'.toNat = .ok j → issueCheck 1 i s = none →
      issueCheck 1 j s = none → (∃ d ∈ dests i, d ∈ dests j) →
      exec (.bundleIssue hd2 [w, w']) s = .next (at15.take illegal)) ∧
    ((∀ g, s.cur ≠ .core g .C) → exec (.bundleIssue h [w]) s = .next (at15.take illegal))

/-- R188, R189, R23, R24, R186: a waiting sequencer runs its word again; a `gbar.sync` past its arrival is over when the
phase has moved. A freeze shorter than 2^20 cycles ends when nothing that lands is late any more: where C's landing
froze, C's own turn comes at once, and the landing proceeds in it; an instruction or a bundle that froze runs again, and
the core stays frozen, with nothing changed, while that still finds its unit late. R313: a freeze of 2^20 cycles stops
the node with code 0x0C, with the freeze's address and the late unit's number in DETAIL, at the stalled instruction or
the bundle of what lands, and fills the cluster's bucket; a shorter one does not. For a full queue, which is no late unit
of R313, DETAIL holds one of the numbers 0-6 (a free value, log 24). -/
def Obligations.WaitsAndFreezes : Prop :=
  ∀ (s : State) (w : Who) (g : Nat) (q : SeqKind) (i : Instr) (h : W32) (ws : List W32) (a : Reg16) (f : Freeze) (fl : Flight) (ph : BitVec 16),
    let at_ : State := { s with cur := w }
    let due : Bool := (s.core g).flight.any fun x => x.left == 0
    let thawed : State := { s.setCore g { s.core g with freeze := none } with cur := .core g f.seq }
    let stops (d : Nat) (at_ : W64) (n : Nat) : Prop :=
      exec (.watchdog g) s = .next ((({ s with free := n, cur := .core g f.seq, curAddr := at_ } : State).take
        (.fault 0x0C f.addr d)).fill (.cluster (cidOf g)) .watchdog)
    let wakes (r : Host.Outcome State Fault Refusal) : Prop :=
      (∀ u, r = .next u → (u.core g).freeze = none → exec (.lateResultReady g) s = .next u) ∧
      (∀ u, r = .next u → (u.core g).freeze ≠ none → exec (.lateResultReady g) s = .next s)
    (s.canRun w = true → (s.seqOf w).sync = none → (s.seqOf w).wait = some (.word i) → (wordEffect i).isSome = true →
      exec (.waitSatisfied w) s = exec i at_) ∧
    (w = .core g q → s.canRun w = true → (s.seqOf w).sync = some a → (s.seqOf w).seen.get a = some ph →
      (s.phase g a ≠ ph → ∃ r, exec (.waitSatisfied w) s = .next r ∧ r.mem = s.mem ∧
        r.seqOf w = { s.seqOf w with sync := none }) ∧
      (s.phase g a = ph → exec (.waitSatisfied w) s = .next at_)) ∧
    ((s.core g).freeze = none → exec (.lateResultReady g) s = .next s) ∧
    ((s.core g).freeze = some f → 2 ^ 20 ≤ f.cycles ∨ s.landLate g ≠ none → exec (.lateResultReady g) s = .next s) ∧
    ((s.core g).freeze = some f → f.cycles < 2 ^ 20 → s.landLate g = none →
      (f.seq = .C → due = true →
        exec (.lateResultReady g) s = .next { thawed with agenda := .seq (.core g .C) :: s.agenda }) ∧
      ((f.seq = .C → due = false) → ((s.core g).seq f.seq).wait = some (.word i) → (wordEffect i).isSome = true →
        wakes (exec i thawed)) ∧
      (f.seq = .C → due = false → (s.core g).c.wait = some (.bundle h ws) → wakes (exec (.bundleIssue h ws) thawed))) ∧
    ((s.core g).freeze = some f → f.cycles < 2 ^ 20 → exec (.watchdog g) s = .next s) ∧
    ((s.core g).freeze = none → exec (.watchdog g) s = .next s) ∧
    ((s.core g).freeze = some f → 2 ^ 20 ≤ f.cycles → ∀ at_ : W64,
      (((s.core g).seq f.seq).wait ≠ none → at_ = ((s.core g).seq f.seq).pc) →
      (((s.core g).seq f.seq).wait = none → (s.core g).flight.find? (fun x => x.left == 0) = some fl → at_ = fl.pc) →
      (((s.core g).seq f.seq).wait = none → due = false → at_ = ((s.core g).seq f.seq).pc) →
      (f.unit = .bank → stops 0 at_ s.free) ∧ (f.unit = .memory → stops 1 at_ s.free) ∧
      (f.unit = .accumulator → stops 2 at_ s.free) ∧ (f.unit = .specialFunction → stops 3 at_ s.free) ∧
      (f.unit = .pipe → stops 4 at_ s.free) ∧ (f.unit = .walk → stops 5 at_ s.free) ∧
      (f.unit = .scalarUnit → stops 6 at_ s.free) ∧
      (f.unit = .matrixQueue ∨ f.unit = .prooferQueue → ∃ d ≤ 6, stops d at_ (s.free + 1)))

/-- R155, R156, R18, R295, R305, R306, R309: a word outside the opcode map raises ILLEGAL (in C with slot 15), major 0x0F in
K of a compute core PRIV: no byte of memory changes, the sequencer stops, no sequencer of the node runs on, and one record
waits for the queue of the core's cluster, unless another sequencer of the core that faulted in this cycle comes before in
the order C, K, L, S and names it. With the cycle the node's sequencers have stopped and what C had in flight is discarded.
A record whose cores have no posted operation and no engine command left is written at the cycle's end, where the queue's
counts hold no uncorrectable error, with its class,
code, unit, core, cluster, addresses and sequence number where R305 puts them and PROD one more; a full queue counts it in
LOST instead; one whose cores have posted operations waits. Bytes outside the queue keep. -/
def Obligations.UnassignedOpcodesHaltTheNode : Prop :=
  (∀ (s : State) (g p : Nat) (q : SeqKind) (w : W32),
    let code := if q = .K ∧ bf w 26 6 = 0x0F then 2 else 1
    let x := (s.core g).ctx.getD {}
    let rank (u : Nat) : Nat := match u with | 2 => 0 | 0 => 1 | 1 => 2 | n => n
    let unit : Nat := match q with | .K => 0 | .L => 1 | .C => 2 | .S => 3
    let new : Due := { part := p, cluster := cidOf g, cores := s.gang g, record :=
      { cls := 0, code := code, unit := unit, index := x.grk, cid := cidOf g, cor := corOf g, nv := !x.tile,
        graph := x.graph, nid := if x.tile then x.entry else x.nid, addr := 0, caddr := s.me.pc.toNat,
        detail := if q = .C then 15 else 0 } }
    let same (d : Due) : Bool := d.now && decide (d.record.cls ≤ 1) && decide (d.record.unit ≤ 3) &&
      d.record.cid == cidOf g && d.record.cor == corOf g
    s.cur = .core g q → s.partOf (cidOf g) = some p → ∃ t, exec (.unassignedOpcode w) s = .next t ∧ t.mem = s.mem ∧
      ((t.core g).seq q).run ≠ .running ∧ ((t.core g).seq q).run ≠ .stopping ∧
      (∀ g' ∈ s.gang g, ∀ k, ((t.core g').seq k).run ≠ .running ∧
        ((t.tick.core g').seq k).run ≠ .running ∧ ((t.tick.core g').seq k).run ≠ .stopping ∧ (t.tick.core g').flight = []) ∧
      (s.due.find? same = none → t.due = s.due ++ [new]) ∧
      (∀ d, s.due.find? same = some d →
        t.due = if rank d.record.unit ≤ rank unit then s.due else s.due.filter (fun d => !same d) ++ [new])) ∧
  ∀ (u : State) (d : Due) (ts : List Turn),
    let y := d.record
    let base := u.faultQueue d.part d.cluster
    let prod := Mem.readN u.mem base 8
    let cons := Mem.readN u.mem (base + 8) 8
    let full := 2040 ≤ (prod + 2 ^ 64 - cons) % 2 ^ 64
    let rec_ := base + 256 + 32 * (prod % 2040)
    Memory.wf u.mem = true → u.due = [d] → u.fills = [] → u.agenda = .tick :: ts →
    ∃ t, step u = .next t ∧
      ((∃ g ∈ d.cores, (u.core g).posted ≠ []) → t.mem = u.mem ∧ t.due = [{ d with now := false }]) ∧
      ((∀ g ∈ d.cores, (u.core g).posted = [] ∧ ∀ q, ((u.core g).queue q).cmds = []) →
        (∀ k, base ≤ k → k < base + 0x10000 → u.linkFailed (u.linkOf k) = false) → u.badIn base 24 = false → t.due = [] ∧
        (full → Mem.readN t.mem (base + 16) 8 = (Mem.readN u.mem (base + 16) 8 + 1) % 2 ^ 64 ∧
          ∀ a, a < base + 16 ∨ base + 24 ≤ a → Mem.read t.mem a = Mem.read u.mem a) ∧
        (¬full → Mem.readN t.mem base 8 = (prod + 1) % 2 ^ 64 ∧
          (let r := Mem.readN t.mem rec_ 32
           fld r 248 8 = (y.code ||| y.detail / 2 ^ 56) % 2 ^ 8 ∧ fld r 30 2 = y.cls % 4 ∧ fld r 25 4 = y.unit % 16 ∧
           fld r 21 4 = y.cid % 16 ∧ fld r 14 7 = y.cor % 2 ^ 7 ∧ fld r 0 14 = y.index % 2 ^ 14 ∧
           fld r 29 1 = y.nv.toNat ∧ fld r 32 8 = prod % 256 ∧ fld r 40 8 = 0 ∧ fld r 48 16 = y.graph % 2 ^ 16 ∧
           fld r 64 56 = y.addr % 2 ^ 56 ∧ fld r 120 8 = 0 ∧ fld r 128 56 = y.caddr % 2 ^ 56 ∧ fld r 184 8 = 0 ∧
           fld r 192 32 = y.detail % 2 ^ 32 ∧ fld r 224 16 = (y.nid ||| y.detail / 2 ^ 32) % 2 ^ 16) ∧
          ∀ a, (a < base ∨ base + 8 ≤ a) → (a < rec_ ∨ rec_ + 32 ≤ a) → Mem.read t.mem a = Mem.read u.mem a))

/-! ### The dispatcher -/

/-- R131, R132, R134, R137: the record at the head of a running partition's queue: a good node or tile record with room
takes a free entry, ready when nothing remains to wait for; one with a broken limit, of a reserved kind or of an
identity in use is rejected with code 6 at its slot, and the slot is freed; a run of a correction list becomes a tile of
its own. -/
def Obligations.RecordsAreAdmitted : Prop :=
  ∀ (s : State) (p : Nat) (n : Nat) (e : Entry) (a x : Nat) (rest : List (Nat × Nat)),
    let q := s.part p
    let slots := 2 ^ (bf q.prq 56 4 + 6)
    let slot := bf q.prq 12 44 * 2 ^ 12 + 64 * (q.qhead % slots)
    let k := 2 ^ 53 + (slot - 2 ^ 32)
    let r : BitVec 512 := BitVec.ofNat 512 (Mem.readN s.mem k 64)
    let kind := bf r 0 2
    let graph := bf r 224 16
    let nid := bf r 240 16
    let rejected : State := (s.setPart p { q with qhead := q.qhead + 1 }).postTo p (s.lowCluster p)
      { code := 6, unit := 8, index := q.qhead % slots, cid := s.lowCluster p, addr := slot }
    let admits (t : State) (f : Entry → Prop) : Prop := (t.part p).qhead = q.qhead + 1 ∧ t.mem = s.mem ∧
      ∃ m y, s.disp.pool.get? m = none ∧ t.disp.pool.get? m = some y ∧ y.part = p ∧ y.record = r ∧ f y
    (q.pstate = 2 → q.qhead < q.qtail → s.badIn k 64 = false → (kind = 0 → nodeRecordOk r = true → s.identity p graph nid = none → s.roomFor p = true →
        ∃ t, exec (.nodeRecordAdmit p) s = .next t ∧ admits t fun y => y.kind = .node ∧ y.graph = graph ∧ y.nid = nid ∧
          y.remain = bf r 256 16 ∧ y.phase = if bf r 256 16 = 0 then .ready else .waiting) ∧
      (kind = 0 → nodeRecordOk r = true → s.identity p graph nid = none → s.roomFor p = false →
        exec (.nodeRecordAdmit p) s = .next s) ∧
      (kind = 0 → nodeRecordOk r = false → exec (.nodeRecordAdmit p) s = .next rejected) ∧
      (kind = 0 → nodeRecordOk r = true → s.identity p graph nid = some (n, e) → e.kind = .node →
        exec (.nodeRecordAdmit p) s = .next rejected) ∧
      (kind = 1 → tileRecordOk r = true → s.roomFor p = true → bf r 8 1 = 0 → bf r 66 6 ≠ 0 →
        ∃ t, exec (.tileRecordAdmit p) s = .next t ∧ admits t fun y => y.kind = .tile ∧ y.phase = .ready) ∧
      (kind = 1 → tileRecordOk r = false → exec (.tileRecordAdmit p) s = .next rejected) ∧
      (2 ≤ kind → exec (.reservedKindRecord p) s = .next rejected) ∧
      (kind ≤ 1 → exec (.reservedKindRecord p) s = .next s)) ∧
    (q.pstate ≠ 2 ∨ q.qtail ≤ q.qhead →
      exec (.nodeRecordAdmit p) s = .next s ∧ exec (.tileRecordAdmit p) s = .next s ∧ exec (.reservedKindRecord p) s = .next s) ∧
    (s.disp.pool.get? n = some e → e.kind = .corr → e.phase = .running → e.runs = (a, x) :: rest →
      (s.part e.part).pstate = 2 → s.roomFor e.part = true → ∃ t m y, exec (.runTileDispatch n) s = .next t ∧
        t.disp.pool.get? n = some { e with runs := rest, kids := e.kids + 1 } ∧ s.disp.pool.get? m = none ∧
        t.disp.pool.get? m = some y ∧ y.kind = .runTile ∧ y.phase = .ready ∧ y.parent = some n ∧ y.expert = x)

/-- R14, R15, R17, R136, R138, R139, R142, R143: a decision takes the first candidate of the partition in turn. A gang that
has a place starts there: every core of it at its entry points, with its rank, s1 the operand list, s2 the posting
address and the other registers 0. A routine's operations begin. (The reads of a decision take up a request that a port
still holds for the entry, R329.) Beside a confined node the other half is preloaded and
marked (that a preload copies the whole node, and which ranges its mark keeps, is the model's choice, log 53); an entry at
priority 3 that has waited 2^18 decisions reserves. -/
def Obligations.DispatchDecisions : Prop :=
  ∀ (s u : State) (p n c d v stg : Nat) (e : Entry) (ps : List Nat) (cs : List (Nat × Entry)) (gs bs ops : List Nat),
    let lim := bf e.record 288 32 * 1024
    let s0 : State := { s with asked := e.held }
    let e0 : Entry := { e with held := none }
    (s.turns = p :: ps → s.candidates p = (n, e) :: cs → s.reservedBy n e = false → e.kind = .node →
      (bf e.record 24 2 = 0 → e.saves = [] → e.preloads = [] → s0.kernel e.part (bf e.record 320 56) = .ok d →
        s0.placeGang n e0 (fld d 264 5) = some (gs, bs) → gs.Nodup →
        (let s1 := s0.wake (islandOf (gs.headD 0 / 128));
         s1.operands e.part d (bf e.record 384 56) = .ok ops → s1.loadCores n e0 d ops gs = .ok u →
          ∃ t y, exec .dispatch s = .next t ∧ t.disp.pool.get? n = some y ∧ y.phase = .running ∧ y.cores = gs ∧ y.used = 0 ∧
            y.limit = lim ∧ t.disp.count = u.disp.count + 1 ∧ t.disp.turn = (p + 1) % 16 ∧
            ∀ i g, gs[i]? = some g →
              (∀ w, let q := (t.core g).seq w
                q.pc = BitVec.ofNat 64 (fld d (64 * seqNum w) 64) ∧
                q.run = (if fld d (64 * seqNum w) 64 = 0 then .ended else .running) ∧
                (∀ r : SReg, q.rdS r = if r = 1 then BitVec.ofNat 64 (bf e.record 384 56) else if r = 2 then e.post else 0) ∧
                ∀ b : Reg16, q.rdP b = decide (b = 0)) ∧
              ∃ x, (t.core g).ctx = some x ∧ x.grk = i ∧ x.gsz = bf e.record 32 8 ∧ x.entry = n ∧ x.part = e.part ∧
                x.lat = (List.range 13).map fun j => fld d (320 + 8 * j) 8)) ∧
      (bf e.record 24 2 = 2 → s0.dispRead e.part (bf e.record 320 56) 32 = .ok (v, u) → fld v 13 243 = 0 → 1 ≤ fld v 0 13 →
        fld v 0 13 ≤ 4096 → ∃ t y, exec .dispatch s = .next t ∧ t.disp.pool.get? n = some y ∧ y.phase = .running ∧
          y.next = 0 ∧ y.total = fld v 0 13 ∧ y.limit = lim)) ∧
    (s.turns = p :: ps → s.candidates p = (n, e) :: cs → s.reservedBy n e = false → e.kind = .node →
      bf e.record 24 2 = 0 → e.phase = .ready → e.saves = [] → e.reserving = false → c ∈ s.clustersFor e →
      s0.kernel e.part (bf e.record 320 56) = .ok d → s0.operands e.part d (bf e.record 384 56) = .ok ops →
      rangesIn 0 d ops = true →
      gs = (((List.range 128).map (128 * c + ·)).filter fun g => s.preloadable 0 g && windowIn 0 g ops).take (bf e.record 32 8) →
      gs.length = bf e.record 32 8 → s0.loadGang n e.part (loadsOf d ops) gs = .ok u →
      ∃ t y, exec (.preload c) s = .next t ∧ t.disp.pool.get? n = some y ∧ y.phase = .preloaded ∧ y.preloads = gs ∧
        ∀ g ∈ gs, (t.core g).preload = some (false, n) ∧
          (t.core g).marks.get? 0 = some { part := e.part, graph := e.graph, nid := e.nid, ranges := markRanges d ops }) ∧
    (s.disp.pool = [(n, e)] → e.phase = .ready → e.kind = .node → bf e.record 28 4 = stg → bf e.record 24 2 ≤ 1 →
      e.reserving = false →
      (2 ^ 18 ≤ e.waited → exec (.reserving stg) s = .next (s.setEntry n { e with reserving := true })) ∧
      (e.waited < 2 ^ 18 → exec (.reserving stg) s = .next s))

/-- R16, R134, R135, R141, R293, R295: a finished node without successors gives up its entry, its cores, its counters and
its weight-set binding; a held release that finds its node makes it ready; a budget that ends asks for a save where
slots are free, lets a proofer node's running command end, and halts a routine with code 0x0D (DETAIL bit 0 of that record
is the model's choice, log 70); the peel stops the gang first (a turn of its own, the model's choice, log 67), then saves
a pre-empted one into the lowest free slots, makes it ready again with the wait from before it first started, and answers
0. -/
def Obligations.NodesEndAndAreSaved : Prop :=
  ∀ (s : State) (n m h k : Nat) (e x : Entry) (r : Held) (c : NCmd),
    let slots := (s.freeSlots e.part).take e.gsz
    (s.disp.pool.get? n = some e →
      (e.kind = .node → s.finished e = true → bf e.record 272 16 ≤ e.succ → e.preempt = [] →
        ∃ t, exec (.nodeRetire n) s = .next t ∧ t.disp.pool.get? n = none ∧ t.mem = s.mem ∧
          (∀ g ∈ e.cores, ∀ y, (t.core g).ctx = some y → y.entry ≠ n) ∧
          (∀ b, ((t.cluster e.cluster).bars.get b).bound ≠ some n) ∧
          (e.ws = some k → ((t.part e.part).wsAt k).bound = ((s.part e.part).wsAt k).bound - 1)) ∧
      (s.finished e = false → exec (.nodeRetire n) s = .next s) ∧
      (s.overBudget e = true → e.tgt = 0 → s.slotsFor e = true →
        exec (.budget n) s = .next (s.setEntry n { e with overrun := true })) ∧
      (s.overBudget e = true → e.tgt = 1 → s.proofRuns n e = true →
        exec (.budget n) s = .next (s.setEntry n { e with overrun := true })) ∧
      (s.overBudget e = true → e.tgt = 2 → ∃ u : State, u.disp.pool.get? n = some { e with phase := .halted, valid := false } ∧
        u.mem = s.mem ∧ exec (.budget n) s = .next (u.postTo e.part (s.lowCluster e.part)
          { code := 0x0D, unit := 8, cid := s.lowCluster e.part, nv := !e.isTile, graph := e.graph,
            nid := if e.isTile then n else e.nid, detail := 1 })) ∧
      (s.overBudget e = false → exec (.budget n) s = .next s) ∧
      (e.tgt = 0 → e.phase = .running → s.finished e = false → e.preempt = [h] →
        (e.stopped = false → exec (.peelSave n) s = .next (s.setEntry n { e with stopped := true })) ∧
        (e.stopped = true → s.peelReady e = true → slots.length = e.gsz → (s.hearth h).ncmd = some c →
          ∃ t y, exec (.peelSave n) s = .next t ∧ t.disp.pool.get? n = some y ∧ y.phase = .ready ∧ y.saves = slots ∧
            y.valid = true ∧ y.cores = [] ∧ y.preempt = [] ∧ y.waited = e.wait0 ∧
            (t.hearth h).ncmd = some { c with res := some 0 } ∧
            ∀ g ∈ e.cores, (t.core g).ctx = none ∧ ∀ w, ((t.core g).seq w).run = .ended))) ∧
    (s.disp.held = [r] → s.identity r.part r.graph r.nid = some (m, x) → x.kind = .node → x.phase = .waiting →
      x.remain = 1 → s.disp.pool.get? r.entry = some e → e.kind = .tile → e.succ = 1 → m ≠ r.entry →
      ∃ t y, exec .heldRelease s = .next t ∧ t.disp.held = [] ∧ t.disp.pool.get? r.entry = none ∧
        t.disp.pool.get? m = some y ∧ y.phase = .ready ∧ y.remain = 0)

/-- R291: the commands on the entry they name: RES 1 where there is none; 2 in a phase that does not allow them (RESUME of
an entry without a save too, the model's choice, log 66); 3 without slots; else PREEMPT asks for the save, or waits for one
that is asked for already; while a halted node's save is still asked for, RERUN and DISCARD wait (log 66); RESUME and RERUN
make a halted entry ready, DISCARD frees it; RESUME of a save that is not valid or fails its checks answers 4 (R292); CLEAR
zeroes a cluster that no partition holds; a known RES completes the command and raises NC. -/
def Obligations.NodeCommands : Prop :=
  ∀ (s : State) (h n r : Nat) (c : NCmd) (e : Entry),
    let lo := 2 ^ 52 + 128 * c.cl * 2 ^ 20
    let hi := lo + 128 * 2 ^ 20
    let at_ (t : State) : Option NCmd := (t.hearth h).ncmd
    let answers (i : Instr) (x : Nat) : Prop := exec i s = .next (s.setHearth h { s.hearth h with ncmd := some { c with res := some x } })
    let pre : Instr := .ncmdPreempt h c.tile c.graph c.nid
    let resume : Instr := .ncmdResume h c.tile c.graph c.nid
    let rerun : Instr := .ncmdRerun h c.tile c.graph c.nid
    let disc : Instr := .ncmdDiscard h c.tile c.graph c.nid
    at_ s = some c → (c.begun = false → c.res = none →
      (s.named c = none → (c.op = 1 → answers pre 1) ∧ (c.op = 2 → answers resume 1) ∧ (c.op = 3 → answers rerun 1) ∧
        (c.op = 4 → answers disc 1)) ∧
      (s.named c = some (n, e) →
        (c.op = 3 → e.phase = .halted → e.preempt ≠ [] → exec rerun s = .next s) ∧
        (c.op = 4 → e.phase = .halted → e.preempt ≠ [] → exec disc s = .next s) ∧
        (c.op = 2 → e.phase = .halted → e.preempt ≠ [] → answers resume 2) ∧
        (c.op = 1 → e.phase = .running → e.tgt = 0 → e.kind ≠ .corr → e.overrun = true ∨ e.preempt ≠ [] ∨ s.slotsFor e = true →
          ∃ t, exec pre s = .next t ∧ t.disp.pool.get? n = some { e with preempt := e.preempt ++ [h] } ∧
            at_ t = some { c with begun := true } ∧ t.mem = s.mem)) ∧
      (s.named c = some (n, e) → e.preempt = [] →
        (c.op = 1 → e.phase ≠ .running → answers pre 2) ∧
        (c.op = 1 → e.phase = .running → e.tgt = 0 → e.kind ≠ .corr → e.overrun = false → s.slotsFor e = false →
          answers pre 3) ∧
        (c.op = 2 → (e.phase ≠ .halted ∨ e.saves = []) → answers resume 2) ∧
        (c.op = 2 → e.phase = .halted → e.valid = true → e.saves ≠ [] → s.saveOk n e = true →
          ∃ t, exec resume s = .next t ∧ at_ t = some { c with res := some 0 } ∧ t.mem = s.mem ∧
            t.disp.pool.get? n = some { e with phase := .ready, resume := true, limit := (s.hearth h).nbud.toNat * 1024 }) ∧
        (c.op = 2 → e.phase = .halted → e.saves ≠ [] → (e.valid = false ∨ s.saveOk n e = false) →
          ∃ t, exec resume s = .next t ∧ at_ t = some { c with res := some 4 } ∧
            t.disp.pool.get? n = some { e with valid := false }) ∧
        (c.op = 3 → e.phase ≠ .halted → answers rerun 2) ∧
        (c.op = 3 → e.phase = .halted → e.kind ≠ .corr → ∃ t y, exec rerun s = .next t ∧ at_ t = some { c with res := some 0 } ∧
          t.disp.pool.get? n = some y ∧ y.phase = .ready ∧ y.saves = [] ∧ y.cores = [] ∧ y.record = e.record ∧
          y.waited = 0 ∧ y.ws = e.ws) ∧
        (c.op = 4 → e.phase ≠ .halted → answers disc 2) ∧
        (c.op = 4 → e.phase = .halted → ∃ t, exec disc s = .next t ∧ at_ t = some { c with res := some 0 } ∧
          t.disp.pool.get? n = none)) ∧
      (c.op = 5 → (s.partOf c.cl).isSome = true → answers (.ncmdClear h c.cl) 2) ∧
      (c.op = 5 → s.partOf c.cl = none → ∃ t, exec (.ncmdClear h c.cl) s = .next t ∧ at_ t = some { c with res := some 0 } ∧
        (∀ a, lo ≤ a → a < hi → Mem.read t.mem a = 0) ∧ (∀ a, a < lo ∨ hi ≤ a → Mem.read t.mem a = Mem.read s.mem a) ∧
        (∀ b, (t.cluster c.cl).bars.get b = {}) ∧ (c.cl < 16 → bf t.cstg (4 * c.cl) 4 = 0))) ∧
    (c.res = some r → ∃ t, exec (.nodeCommandComplete h) s = .next t ∧ at_ t = none ∧ (t.hearth h).res = r ∧
      (t.part c.part).nc = true ∧ t.mem = s.mem)

/-! ### Queue pairs -/

/-- R117-R123 and R129: the next entry of an ON ring is armed with its first error (that of its own line, read for it,
before those of its fields), and fires at once when its counter has reached the threshold; a completed entry makes its
additions and gives up its place; one that failed posts a record of UNIT 9 with its ring index and puts the queue pair into
ERROR (the fields of that record, the ring index above the translation detail and the ring slot in CADDR, are the model's
choice, log 77); an addition to a counter of the grant is made, and one beyond it refused; a reset queue pair ends empty and
OFF. -/
def Obligations.QueuePairEntries : Prop :=
  ∀ (s : State) (qp n p rel lk rk c : Nat) (w : Work) (e : Exc) (a : W64) (m : Nat) (inc : W32),
    let q := s.qp qp
    let k := shKey (q.place q.arm)
    let x : Work := { idx := q.arm, word := BitVec.ofNat 512 (Mem.readN s.mem k 64) }
    let done_ := q.works.find? fun y => y.idx == n && y.done && y.fail.isNone
    s.qpPart qp = some (p, rel) →
    (q.state = .on → q.arm < q.tail → (∀ y ∈ q.works, y.fail = none) → s.badIn k 64 = false → s.poisoned k = false →
      sideErr (s.sideOf k) (BitVec.ofNat 64 (q.place q.arm)) = none →
      ∃ t y, exec (.entryArm qp) s = .next t ∧ t.mem = s.mem ∧ (t.qp qp).arm = q.arm + 1 ∧ (t.qp qp).tail = q.tail ∧
        y ∈ (t.qp qp).works ∧ y.idx = q.arm ∧ y.word = x.word ∧ y.done = false ∧
        y.fail = (s.armErr p x).map Exc.failure ∧
        (s.armErr p x = none → x.fence = false → s.tcNumber p (bf x.word 36 12) = .ok c →
          y.fired = decide (bf x.word 64 64 ≤ (s.tc c).toNat))) ∧
    (q.state = .on → q.arm < q.tail → (∀ y ∈ q.works, y.fail = none) →
      s.loadFault k 64 (BitVec.ofNat 64 (q.place q.arm)) = some e ∨ (s.loadFault k 64 (BitVec.ofNat 64 (q.place q.arm)) = none ∧
        sideErr (s.sideOf k) (BitVec.ofNat 64 (q.place q.arm)) = some e) →
      ∃ t y, exec (.entryArm qp) s = .next t ∧ t.mem = s.mem ∧ (t.qp qp).arm = q.arm + 1 ∧
        y ∈ (t.qp qp).works ∧ y.idx = q.arm ∧ y.fired = false ∧ y.fail = some e.failure) ∧
    (q.state ≠ .on ∨ q.tail ≤ q.arm → exec (.entryArm qp) s = .next s) ∧
    (done_ = some w → q.peer = 0 → s.tcNumber p (bf w.word 24 12) = .ok lk → s.tcNumber p (bf w.word 12 12) = .ok rk →
      ∃ t, exec (.entryComplete qp n) s = .next t ∧ t.mem = s.mem ∧ t.sent = s.sent ∧
        (∀ j, t.tc j = s.tc j + (if w.word.getLsbD 49 = true ∧ j = lk then BitVec.ofNat 64 (bf w.word 384 32) else 0)
          + (if w.word.getLsbD 50 = true ∧ j = rk then BitVec.ofNat 64 (bf w.word 416 32) else 0)) ∧
        (∀ y ∈ (t.qp qp).works, y.idx ≠ n) ∧ (q.head = n → n < (t.qp qp).head)) ∧
    (done_ = some w → q.peer = 2 → w.word.getLsbD 49 = false → w.word.getLsbD 50 = true →
      ∃ t, exec (.entryComplete qp n) s = .next t ∧ t.mem = s.mem ∧ t.tcs = s.tcs ∧
        t.sent = s.sent ++ [.peerCounter qp (bf w.word 12 12) (BitVec.ofNat 32 (bf w.word 416 32))]) ∧
    (done_ = some w → q.peer = 0 → w.word.getLsbD 50 = true → s.tcNumber p (bf w.word 12 12) = .error e →
      ∃ t, exec (.entryComplete qp n) s = .next t ∧ t.mem = s.mem ∧ t.tcs = s.tcs ∧
        ∀ y ∈ (t.qp qp).works, y.idx = n → y.fail = some e.failure) ∧
    (q.works.find? (fun y => y.idx == n) = some w → w.fail = some (c, a, m) → q.state = .on →
      ∃ u : State, u.mem = s.mem ∧ (u.qp qp).state = .error ∧ (∀ y ∈ (u.qp qp).works, y.idx ≠ n) ∧
        exec (.entryFail qp n) s = .next (u.postTo p (bf q.cfg 34 4)
          { code := c, unit := 9, index := rel, cid := bf q.cfg 34 4, addr := a.toNat, caddr := q.place n,
            detail := m + n % q.size * 2 ^ 16 })) ∧
    ((s.part p).pstate ≠ 0 → s.tcNumber p n = .ok lk → ∃ t, exec (.remoteCounterAdd p n inc) s = .next t ∧
      t.mem = s.mem ∧ t.sent = s.sent ∧ ∀ j, t.tc j = if j = lk then s.tc j + inc.setWidth 64 else s.tc j) ∧
    (s.tcNumber p n = .error e → exec (.remoteCounterAdd p n inc) s = .next { s with sent := s.sent ++ [.refused] }) ∧
    (q.state = .resetting → q.works = [] → ∃ t, exec (.qpResetDone qp) s = .next t ∧ t.mem = s.mem ∧ t.qp qp =
      { q with state := .off, head := 0, tail := 0, arm := 0, works := [], free := [], bad := none }) ∧
    (q.state ≠ .resetting ∨ q.works ≠ [] → exec (.qpResetDone qp) s = .next s)

/-- R124-R127: a fired entry of one line or one element performs its writes and has done so: PUT and LCOPY copy a line with
its side band (from chunk buffers, which have none, with a side band of 0: the model's choice, log 77), LCOPY zero clears
it; the integer reductions on their bits; MAXEXP joins two entries; a floating PUTRED adds the aligned integer, which is 0
under EB 0 and for a NaN or an infinity, and none where the exponent passes the agreed one; LCOPY convert rounds the sums
of a line. NOTIFY writes nothing. No other byte changes. -/
def Obligations.QueuePairTransfers : Prop :=
  ∀ (s u : State) (qp n p rel k d ka : Nat) (w : Work) (x : Machine.Num) (z : Int),
    let q := s.qp qp
    let s0 : State := { s with asked := w.held }
    let read (j m : Nat) : State := (s0.load j m).2
    let r : Running := { n := qp, q := q, part := p, w := w }
    let size := dtypeSize w.dtype
    let runs (i : Instr) (len : Nat) (f : State → Prop) : Prop := ∃ t, exec i s = .next t ∧ f t ∧
      (∀ y ∈ (t.qp qp).works, y.idx = n → y.done = true) ∧
      ∀ j, j < d ∨ d + len ≤ j → Mem.read t.mem j = Mem.read s.mem j
    let reach (j : Nat) : Prop := isExt j = false ∧ (isDev j = true → s.linkFailed (s.linkOf j) = false)
    let clean (s : State) (j m lo : Nat) : Prop := s.reduceErr j m (w.addr lo) none = none
    let signed (v : Nat) : Int := if v < 2 ^ (8 * size - 1) then v else v - 2 ^ (8 * size)
    let copies (i : Instr) : Prop := w.len = 256 → s0.fromField r fSrc 0 256 = .ok k → s0.toField r 0 256 = .ok (.here d) →
      reach k → s.isBad k = false →
      (isChunk k = false → sideErr (s.sideOf k) (BitVec.ofNat 64 (w.addr fSrc)) = none) →
      runs i 256 fun t => (∀ j < 256, Mem.read t.mem (d + j) = Mem.read s.mem (k + j)) ∧
        (isChunk d = false → t.sideOf d = if isChunk k then 0 else s.sideOf k)
    let one (f : Nat → Nat → Nat) (i : Instr) : Prop := w.len = 1 → (w.dtype = 2 ∨ w.dtype = 3) →
      s0.fromField r fSrc 0 size = .ok k → clean s0 k size fSrc →
      (read k size).toField r 0 size = .ok (.here d) → clean (read k size) d size fDst → reach k →
      runs i size fun t => Mem.readN t.mem d size = f (Mem.readN s.mem d size) (Mem.readN s.mem k size)
    let e := Mem.readN s.mem d 2
    let v := Mem.readN s.mem k 2
    let agreed := Mem.readN s.mem ka 2
    let sum (j : Nat) : Int := (BitVec.ofNat 64 (Mem.readN s.mem (k + 8 * j) 8)).toInt
    s.qpPart qp = some (p, rel) → q.running n = some w → Memory.wf s.mem = true → reach d →
    (w.kind = 3 → runs (.csqNotify qp n) 0 fun t => t.mem = s.mem) ∧
    (w.kind = 0 → copies (.csqPut qp n)) ∧ (w.kind = 4 → w.opm = 0 → copies (.lcopyCopy qp n)) ∧
    (w.kind = 4 → w.opm = 2 → w.len = 256 → s0.toField r 0 256 = .ok (.here d) →
      runs (.lcopyZero qp n) 256 fun t => (∀ j < 256, Mem.read t.mem (d + j) = 0) ∧ (isChunk d = false → t.sideOf d = 0)) ∧
    (w.kind = 1 → (w.opm = 0 → one (fun a b => (a + b) % 2 ^ (8 * size)) (.csqPutredSum qp n)) ∧
      (w.opm = 1 → one (fun a b => if signed a < signed b then b else a) (.csqPutredMax qp n)) ∧
      (w.opm = 2 → one (fun a b => if signed b < signed a then b else a) (.csqPutredMin qp n))) ∧
    (w.kind = 2 → w.dtype = 5 → w.len = 1 → s0.fromField r fSrc 0 2 = .ok k → clean s0 k 2 fSrc → reach k →
      (read k 2).toField r 0 2 = .ok (.here d) → clean (read k 2) d 2 fDst → fld e 9 4 = 0 → fld v 9 4 = 0 →
      runs (.csqMaxexp qp n) 2 fun t => fld (Mem.readN t.mem d 2) 0 9 = max (fld e 0 9) (fld v 0 9) ∧
        fld (Mem.readN t.mem d 2) 13 3 = fld e 13 3 ||| fld v 13 3 ∧ fld (Mem.readN t.mem d 2) 9 4 = 0) ∧
    (w.kind = 1 → w.opm = 0 → w.dtype = 0 → w.len = 1 → q.peer = 0 → s0.fromField r fAux 0 2 = .ok ka → clean s0 ka 2 fAux →
      reach ka → fld agreed 9 4 = 0 → (read ka 2).fpElems r 0 1 = .ok ([x], u) → alignedInt agreed x = some z →
      u.toField r 0 8 = .ok (.here d) → s.badIn d 8 = false → runs (.csqPutredSum qp n) 8 fun t =>
        (Mem.readN t.mem d 8 : Int) = (Mem.readN s.mem d 8 + z) % 2 ^ 64) ∧
    ((∀ g, alignedInt agreed (.nan g) = some 0 ∧ alignedInt agreed (.inf g) = some 0) ∧ (fld agreed 0 9 = 0 → alignedInt agreed x = some 0)) ∧
    (∀ (g : Bool) (m : Nat) (y : Int), m ≠ 0 → fld agreed 0 9 ≠ 0 → (fld agreed 0 9 : Int) - 150 < y + Nat.log2 m →
      alignedInt agreed (.fin g m y) = none) ∧
    (∀ (g : Bool) (m : Nat) (y : Int), m ≠ 0 → fld agreed 0 9 ≠ 0 → y + Nat.log2 m ≤ (fld agreed 0 9 : Int) - 150 → 0 ≤ y + 188 - fld agreed 0 9 →
      alignedInt agreed (.fin g m y) = some ((if g then (-1 : Int) else 1) * (m * 2 ^ (y + 188 - fld agreed 0 9).toNat))) ∧
    (w.kind = 4 → w.opm = 1 → w.dtype = 0 → 1 ≤ w.len → w.len ≤ 64 → q.peer = 0 ∨ w.chb fAux = false →
      s0.fromField r fAux 0 2 = .ok ka → clean s0 ka 2 fAux → reach ka → fld agreed 9 4 = 0 →
      (read ka 2).fromField r fSrc 0 (8 * w.len) = .ok k → s.badIn k (8 * w.len) = false →
      (read ka 2).toField r 0 256 = .ok (.here d) → isChunk d = false → runs (.lcopyConvert qp n) 256 fun t => t.sideOf d = 0x11 ∧ ∀ j < 64,
        Mem.readN t.mem (d + 4 * j) 4 = if w.len ≤ j then 0
          else if fld agreed 15 1 = 1 ∨ fld agreed 13 2 = 3 then 0x7FC00000
          else if fld agreed 14 1 = 1 then 0x7F800000 else if fld agreed 13 1 = 1 then 0xFF800000
          else if sum j = 0 then 0
          else (rneF32.round (decide (sum j < 0)) (sum j).natAbs ((fld agreed 0 9 : Int) - 188) false).bits)

/-! ### Steps that are the write of one register -/

/-- R288: PSTATE at level H: creation checks the registers again, needs cleared clusters, and resets the partition's creels,
counters, queue pairs, weight-set slots and scrub interval; RUNNING and STOPPED follow each other; a partition that
holds no pool entry becomes EMPTY and its clusters lose their CLEAR; any other change raises ILLEGAL, a lower level
PRIV. That creation also empties the record queue's counts and clears NC and MB is the model's choice (log 61). -/
def Obligations.PartitionLifecycle : Prop :=
  ∀ (s : State) (h : Nat),
    let p := (s.hearth h).psel
    let q := s.part p
    let create : Instr := .partitionCreate h
    let sane : Prop := (∀ j < 14, s.partRegOk p (0x822 + j) (q.reg (0x822 + j)) = true) ∧
      ∀ c < 16, q.pcl.getLsbD c = true → (s.cluster c).cleared = true
    let raises (i : Instr) (e : Exc) : Prop :=
      exec i s = .next (({ s with cur := .hearth h, curAddr := (s.hearth h).seq.pc } : State).take e)
    ((s.hearth h).lv = 2 →
      (q.pstate = 0 → sane → ∃ t, exec create s = .next t ∧ t.mem = s.mem ∧ (t.part p).pstate = 1 ∧
        (t.part p).pcl = q.pcl ∧ (t.part p).scrb = 3600 ∧ (t.part p).pptb = 0 ∧ (t.part p).qhead = 0 ∧
        (t.part p).qtail = 0 ∧ (t.part p).nc = false ∧ (t.part p).mb = false ∧ (∀ j, (t.part p).ws.get j = {}) ∧
        (∀ n, bf q.ptc 0 12 ≤ n → n < bf q.ptc 0 12 + bf q.ptc 16 13 → t.tc n = 0) ∧
        (∀ n, bf q.pqp 0 10 ≤ n → n < bf q.pqp 0 10 + bf q.pqp 16 11 → t.qp n = {}) ∧
        (∀ n, q.pslc.getLsbD (creelSlice n) = true → t.creel n = {}) ∧ ∀ o, o ≠ p → t.part o = s.part o) ∧
      (q.pstate = 0 → ¬sane → raises create illegal) ∧ (q.pstate ≠ 0 → exec create s = .next s) ∧
      (q.pstate = 1 → exec (.partitionStart h) s = .next (s.setPart p { q with pstate := 2 })) ∧
      (q.pstate ≠ 1 → raises (.partitionStart h) illegal) ∧
      (q.pstate = 2 → exec (.partitionStop h) s = .next (s.setPart p { q with pstate := 1 })) ∧
      (q.pstate ≠ 2 → exec (.partitionStop h) s = .next s) ∧
      (q.pstate = 1 → (∀ e ∈ s.disp.pool, e.2.part ≠ p) → ∃ t, exec (.partitionDestroy h) s = .next t ∧ t.mem = s.mem ∧
        t.part p = { q with pstate := 0 } ∧ ∀ c < 16, q.pcl.getLsbD c = true → (t.cluster c).cleared = false) ∧
      (q.pstate ≠ 1 ∨ (∃ e ∈ s.disp.pool, e.2.part = p) → raises (.partitionDestroy h) illegal)) ∧
    ((s.hearth h).lv < 2 → (q.pstate = 0 → raises create privExc) ∧ (q.pstate = 2 → raises (.partitionStop h) privExc) ∧
      raises (.partitionStart h) privExc ∧ raises (.partitionDestroy h) privExc)

/-- R285, R289, R290, R87, R119, R322 and R326: at a level that may write it, CSTG takes a value that changes only idle
clusters of the core's partition, SCRB 1 to 65,535, PPTB an aligned table, QPCTL changes the queue pair QPSEL names,
MBCTL acknowledges or signals, INGT arms or disarms the check it names; others raise ILLEGAL; a level below raises PRIV.
ILLEGAL for arming in a FREE slot (log 39), for a value above a register's width (log 59) and for QPCTL with QPSEL past
the grant (log 60) is the model's choice. -/
def Obligations.RegisterWriteSteps : Prop :=
  ∀ (s : State) (h num : Nat) (v : W64),
    let x := s.hearth h
    let p := x.hpart
    let q := s.part p
    let m := bf q.pqp 0 10 + q.qpsel
    let qp := s.qp m
    let raises (i : Instr) (e : Exc) : Prop :=
      exec i s = .next (({ s with cur := .hearth h, curAddr := x.seq.pc } : State).take e)
    let may (c : Nat) : Prop := (x.lv = 2 ∨ q.pcl.getLsbD c = true) ∧ s.clusterBusy c = false
    let moves (c : Nat) : Prop := bf v (4 * c) 4 ≠ bf s.cstg (4 * c) 4
    let table : Prop := bf v 56 8 = 0 ∧ bf v 1 7 = 0 ∧
      (v.getLsbD 0 = true → s.sharedOk p (bf v 8 48 * 2 ^ 8) (1040 * 1024) = true)
    let names (i : Ingest) : Prop := i.part = p ∧ i.slot = bf v 0 3 ∧ i.expert = bf v 16 12 ∧ i.shard = bf v 32 6
    let plain : Prop := bf v 38 25 = 0 ∧ bf v 28 4 = 0 ∧ bf v 3 13 = 0
    let ws := q.ws.get (idx 8 (bf v 0 3))
    let others := s.ingest.filter fun i => i.part == p && !i.isFor p v
    (1 ≤ x.lv →
      ((∀ c < 16, moves c → may c) → exec (.cstgWrite h v) s = .next { s with cstg := v }) ∧
      ((∃ c < 16, moves c ∧ ¬may c) → raises (.cstgWrite h v) illegal) ∧
      (v ≠ 0 → v.toNat < 2 ^ 16 → exec (.scrbWrite h v) s = .next (s.setPart p { q with scrb := v, scrubAt := s.clock })) ∧
      (v = 0 ∨ 2 ^ 16 ≤ v.toNat → raises (.scrbWrite h v) illegal) ∧
      (table → exec (.pptbWrite h v) s = .next (s.setPart p { q with pptb := v })) ∧
      (¬table → raises (.pptbWrite h v) illegal) ∧
      (v.toNat < 2 ^ 16 → exec (.privilegedRegisterWrite h 0x811 v) s =
        .next (s.setHearth h { x with imaskS := v.setWidth 16 })) ∧
      (2 ^ 16 ≤ v.toNat → raises (.privilegedRegisterWrite h 0x811 v) illegal) ∧
      (bf v 0 8 = 0 → exec (.privilegedRegisterWrite h 0x804 v) s =
        .next (s.setHearth h { x with es := { x.es with evec := v } })) ∧
      (bf v 0 8 ≠ 0 → raises (.privilegedRegisterWrite h 0x804 v) illegal) ∧
      (q.qpsel < bf q.pqp 16 11 →
        (∃ t, exec (.qpctlReset h) s = .next t ∧ t.mem = s.mem ∧ t.qp m =
          { qp with state := .resetting, works := qp.works.filter fun w => w.fired }) ∧
        (qp.state = .off → s.sharedOk p qp.base.toNat (64 * qp.size) = true → qp.base.toNat % max (64 * qp.size) 4096 = 0 →
          ∃ t, exec (.qpctlEnable h) s = .next t ∧ t.mem = s.mem ∧ (t.qp m).state = .on ∧ (t.qp m).head = 0 ∧
            (t.qp m).tail = 0 ∧ (t.qp m).works = [] ∧ (t.qp m).cfg = qp.cfg) ∧
        (qp.state = .error ∨ qp.state = .resetting → raises (.qpctlEnable h) illegal ∧ raises (.qpctlDisable h) illegal) ∧
        (qp.state = .on → qp.head = qp.tail → ∃ t, exec (.qpctlDisable h) s = .next t ∧ (t.qp m).state = .off) ∧
        (qp.state = .on → qp.head ≠ qp.tail → raises (.qpctlDisable h) illegal)) ∧
      (bf q.pqp 16 11 ≤ q.qpsel → raises (.qpctlReset h) illegal) ∧
      exec (.mbctlAck h) s = .next (s.setPart p { q with mb := false }) ∧
      exec (.mbctlSig h) s = .next (if bf q.pvf 0 1 = 1 then { s with sent := s.sent ++ [.msix p] } else s) ∧
      (plain → ws.state ≠ .free → bf v 16 12 < ws.experts → bf v 32 6 < ws.shards → others.length < 16 →
        ∃ t i, exec (.ingtArm h v) s = .next t ∧ t.mem = s.mem ∧ i ∈ t.ingest ∧ names i) ∧
      (plain → ws.state = .free → raises (.ingtArm h v) illegal) ∧
      (plain → ∃ t, exec (.ingtDisarm h v) s = .next t ∧ t.mem = s.mem ∧ (∀ i ∈ t.ingest, ¬names i) ∧
        ∀ i ∈ s.ingest, ¬names i → i ∈ t.ingest)) ∧
    (num < 2 ^ 64 → pregLevels num = none → raises (.privilegedRegisterWrite h num v) illegal) ∧
    (x.lv = 0 → raises (.cstgWrite h v) privExc ∧ raises (.scrbWrite h v) privExc ∧ raises (.pptbWrite h v) privExc ∧
      raises (.qpctlReset h) privExc ∧ raises (.mbctlAck h) privExc ∧ raises (.ingtArm h v) privExc) ∧
    (x.lv = 2 → v.toNat < 16 →
      exec (.privilegedRegisterWrite h 0x820 v) s = .next (s.setHearth h { x with psel := v.toNat }) ∧
      exec (.privilegedRegisterWrite h 0x848 v) s = .next (s.setHearth h { x with hpart := v.toNat })) ∧
    (x.lv = 2 → bf v 52 12 = 0 → bf v 1 10 = 0 → exec (.privilegedRegisterWrite h 0x818 v) s =
      .next (s.setPart p { q with ttbS := v }))

/-- R329, R330, R336 and R337 at level H: DRAIN of a port, START and UNL of EVC, and the state of one island, the others as
they read: RUN and IDLE at once where the island runs, else when it has started; OFF where its conditions hold, ILLEGAL
where not; island 28 never goes OFF. A lower level raises PRIV. That DRAIN of a port that is not UP only sets the field is the
model's choice (log 48). -/
def Obligations.PowerRequests : Prop :=
  ∀ (s : State) (h n i : Nat),
    let x := s.port n
    let y := s.island i
    let raises (j : Instr) (e : Exc) : Prop :=
      exec j s = .next (({ s with cur := .hearth h, curAddr := (s.hearth h).seq.pc } : State).take e)
    let asked (j : Instr) (z : Island) : Prop := ∃ t, exec j s = .next t ∧ t.mem = s.mem ∧ t.cores = s.cores ∧ t.island i = z ∧
      ∀ k < 32, k ≠ i → (t.island k).state = (s.island k).state ∧ (t.island k).target = (s.island k).target
    let good : Prop := ∀ k < 32, let z := s.island k; z.target ≤ 2 ∧ (z.target = 0 → k ≠ 28 ∧ z.state = 0) ∧
      (z.state = 1 ∨ z.state = 2 → z.target = z.state)
    ((s.hearth h).lv = 2 →
      (n < 16 → x.state = 2 → exec (.fpsDrain h n) s =
        .next (s.setPort n { x with drain := true, state := 3, flit := false, conf := false })) ∧
      (n < 16 → x.state ≠ 2 → exec (.fpsDrain h n) s = .next (s.setPort n { x with drain := true })) ∧
      (n < 16 → (x.state = 3 ∨ x.state = 4) → exec (.fpsReturn h n) s = .next (s.setPort n
        { x with drain := false, state := 1, flit := false, conf := false })) ∧
      (n < 16 → x.state < 3 → exec (.fpsReturn h n) s = .next (s.setPort n { x with drain := false })) ∧
      exec (.evcStart h) s = .next { s with evict := { s.evict with
        running := true, start := s.clock, late := false, signal := s.evict.signal && s.evict.unl } } ∧
      exec (.evcUnlatchRequest h) s = .next { s with evict := { s.evict with unl := true } } ∧
      (i < 32 → good →
        (y.state = 1 ∨ y.state = 2 → asked (.islandRequestRun h i) { y with state := 2, target := 2, asked := none } ∧
          (asked (.islandRequestIdle h i) { y with state := 1, target := 1 })) ∧
        (y.state = 0 ∨ y.state = 3 → asked (.islandRequestRun h i) { y with target := 2 } ∧
          (asked (.islandRequestIdle h i) { y with target := 1 })) ∧
        (i ≠ 28 → (y.state = 1 ∨ y.state = 2) → s.mayOff (s.islWith i 2) i = true →
          asked (.islandRequestOff h i) { y with state := 0, target := 0, groups := 0, asked := none }) ∧
        (y.state = 1 ∨ y.state = 2 → s.mayOff (s.islWith i 2) i = false → raises (.islandRequestOff h i) illegal)) ∧
      raises (.islandRequestOff h 28) illegal) ∧
    ((s.hearth h).lv < 2 → raises (.evcStart h) privExc ∧ raises (.evcUnlatchRequest h) privExc ∧
      (n < 16 → raises (.fpsDrain h n) privExc ∧ raises (.fpsReturn h n) privExc) ∧
      (i < 32 → raises (.islandRequestRun h i) privExc ∧ raises (.islandRequestIdle h i) privExc ∧
        raises (.islandRequestOff h i) privExc))

/-! ### Host and fabric -/

/-- R319, R320, R118, R124, R327-R330: the host's doorbell sets MB; an aligned access to its mailbox or to device memory
reads or writes it; a bad size completes with Completer Abort, an address without a translation with Unsupported Request
and a NOTE (other accesses beyond the rules complete with an error, the model's choice, log 72); a port drains, confirms,
comes up with the lanes and the peer of its training (free values), goes down and is reopened, and a request that it has
held for longer than the fabric timeout fails, its sequencer's turn coming again at the timeout (when that step comes is a
free value, log 48); a peer's request writes, adds and reads in the partition's chunk buffers, and is refused for a partition the port does not serve. -/
def Obligations.LinksAndPorts : Prop :=
  ∀ (s : State) (p n off size k : Nat) (w chb : Bool) (d a : W64) (ks : List Nat) (data : List Byte) (x : W64) (m : Bool)
    (wf : WalkFail) (r : Request) (v : W64) (via : Option Tlb) (g : Nat) (z : Core),
    let q := s.part p
    let on : Prop := q.pstate ≠ 0 ∧ bf q.pvf 0 1 = 1
    let port := s.port n
    let refused (write : Bool) (y : Sent) (s : State) : State := if write then s else { s with sent := s.sent ++ [y] }
    let answers (t : State) (y : Sent) : Prop := t.sent = s.sent ++ [y] ∧ t.mem = s.mem ∧ t.parts = s.parts
    let key (j : Nat) : Nat := 2 ^ 53 + (bf q.pmbx 12 44 * 2 ^ 12 + off + j - 2 ^ 32)
    let sent (t : State) (y : Sent) : Prop := t = { s with sent := s.sent ++ [y] }
    let becomes (i : Instr) (y : Port) : Prop := exec i s = .next (s.setPort n y)
    let peer (r : PeerReq) : Instr := .fabricPeerRequest n r
    let serves : Prop := (port.state = 2 ∨ port.state = 3) ∧ q.pstate ≠ 0 ∧ q.pport.getLsbD n = true
    let buffer (len : Nat) : Prop := s.chunkAt p a.toNat len = .ok k
    (on → exec (.hostDoorbell p) s = .next (s.setPart p { q with mb := true })) ∧
    (¬on → exec (.hostDoorbell p) s = .next s ∧ exec (.hostBar0Access p w off size d) s = .next (refused w (.hostError p) s) ∧
      exec (.hostBar2Access p w a size data) s = .next (refused w (.hostError p) s)) ∧
    (on → off + size ≤ 0x1000 → (size = 4 ∨ size = 8) → off % size = 0 →
      s.sharedOk p (bf q.pmbx 12 44 * 2 ^ 12 + off) size = true →
      (Memory.wf s.mem = true → ∃ t, exec (.hostBar0Access p true off size d) s = .next t ∧ t.side = s.side ∧
        (∀ j < size, Mem.read t.mem (key j) = d.extractLsb' (8 * j) 8) ∧
        ∀ j, j < key 0 ∨ key size ≤ j → Mem.read t.mem j = Mem.read s.mem j) ∧
      ((∀ j < size, s.isBad (key j) = false ∧ s.poisoned (key j) = false) → ∃ t,
        exec (.hostBar0Access p false off size d) s = .next t ∧
        answers t (.hostRead p ((List.range size).map fun j => Mem.read s.mem (key j))))) ∧
    (on → off < 0x2000 → (size ≠ 4 ∧ size ≠ 8) ∨ off % size ≠ 0 →
      exec (.hostBar0Access p w off size d) s = .next (refused w (.completerAbort p) s)) ∧
    (on → (size = 4 ∨ size = 8) → exec (.hostBar0Access p true 0x1000 size d) s = .next (s.setPart p { q with mb := true })) ∧
    (on → a.toNat + size ≤ 2 ^ s.cfgField 50 2 → s.ipaKeys p a.toNat size false = .ok ks →
      (∀ j ∈ ks, s.isBad j = false ∧ s.poisoned j = false) → ∃ t, exec (.hostBar2Access p false a size data) s = .next t ∧
        answers t (.hostRead p (ks.map fun j => Mem.read s.mem j))) ∧
    (on → a.toNat + data.length ≤ 2 ^ s.cfgField 50 2 → Memory.wf s.mem = true → isDev (k + data.length) = true →
      s.ipaKeys p a.toNat data.length true = .ok ((List.range data.length).map (k + ·)) →
      (∀ j < data.length, s.linkFailed (s.linkOf (k + j)) = false) →
      ∃ t, exec (.hostBar2Access p true a data.length data) s = .next t ∧ t.side = s.side ∧
        (∀ j < data.length, Mem.read t.mem (k + j) = data.getD j 0) ∧
        ∀ j, j < k ∨ k + data.length ≤ j → Mem.read t.mem j = Mem.read s.mem j) ∧
    (on → a.toNat + size ≤ 2 ^ s.cfgField 50 2 → s.ipaKeys p a.toNat size w = .error wf →
      exec (.hostBar2Access p w a size data) s = .next (refused w (.unsupportedRequest p) (s.postTo p (s.lowCluster p)
        { cls := 2, code := 4, unit := 11, cid := s.lowCluster p, addr := a.toNat, detail := wf.detail }))) ∧
    (on → 2 ^ s.cfgField 50 2 < a.toNat + size →
      exec (.hostBar2Access p w a size data) s = .next (refused w (.hostError p) s)) ∧
    (port.state = 3 → port.flit = false → s.outstanding n = false → ∃ t, exec (.drainFlitSend n) s = .next t ∧
      t.port n = { port with flit := true } ∧ t.sent = s.sent ++ [.drain n]) ∧
    (port.state ≠ 3 ∨ s.outstanding n = true → exec (.drainFlitSend n) s = .next s) ∧
    (port.state = 2 ∨ port.state = 3 → ∃ t, exec (.peerDrainRequest n) s = .next t ∧ sent t (.drainConf n)) ∧
    (port.state = 3 → port.flit = true → becomes (.drainConfirm n) { port with state := 4, conf := true }) ∧
    (port.flit = false → exec (.drainConfirm n) s = .next s) ∧
    (s.askedFor k = some r → s.fabricLimit < s.clock - r.since → s.portRequest n k v via = .error (access v)) ∧
    (s.askedFor k = none → port.state ≠ 2 → s.portRequest n k v via = .error (.hold
      { va := v, key := k, begun := false, via := via, since := s.clock })) ∧
    (s.askedFor k = none → port.state = 2 → Config.peerSlow s.free k = false → s.portRequest n k v via = .ok ()) ∧
    (∃ t, exec (.fabricTimeout n) s = .next t ∧ t.mem = s.mem ∧ t.cores = s.cores ∧
      ((g, z) ∈ s.cores → extTarget r.key = n → s.fabricLimit < s.clock - r.since →
        (z.k.held = some r → Turn.seq (.core g .K) ∈ t.agenda) ∧ (z.l.held = some r → Turn.seq (.core g .L) ∈ t.agenda) ∧
        (z.st.held = some r → Turn.seq (.core g .S) ∈ t.agenda) ∧ (z.c.held = some r → Turn.seq (.core g .C) ∈ t.agenda))) ∧
    (port.state ≠ 1 → exec (.fabricPortUp n) s = .next s) ∧
    (port.state = 1 → ∃ t, exec (.fabricPortUp n) s = .next t ∧ (t.port n).state = 2 ∧ 1 ≤ (t.port n).lanes ∧
      (t.port n).lanes ≤ 8 ∧ (t.port n).drain = port.drain ∧ t.mem = s.mem) ∧
    becomes (.fabricPortDown n) { port with state := 0, lanes := 0, conf := false, flit := false } ∧
    (port.state = 4 → becomes (.peerPortReopen n) { port with state := 1, conf := false, flit := false, drain := false }) ∧
    (serves → buffer data.length → Memory.wf s.mem = true → data ≠ [] → isChunk (k + data.length) = true →
      ∃ t, exec (peer (.write p true a data [])) s = .next t ∧ (∀ j < data.length, Mem.read t.mem (k + j) = data.getD j 0) ∧
        ∀ j, j < k ∨ k + data.length ≤ j → Mem.read t.mem j = Mem.read s.mem j) ∧
    (serves → buffer 8 → Memory.wf s.mem = true → s.badIn k 8 = false → isChunk k = true →
      (∃ t, exec (peer (.add64 p a x)) s = .next t ∧ Mem.readN t.mem k 8 = (Mem.readN s.mem k 8 + x.toNat) % 2 ^ 64) ∧
      (∃ t, exec (peer (.reduce p true a true 0 x)) s = .next t ∧
        Mem.readN t.mem k 8 = (Mem.readN s.mem k 8 + x.toNat) % 2 ^ 64)) ∧
    (serves → buffer size → (∀ j < size, isChunk (k + j) = true ∧ s.badIn (k + j) 1 = false) →
      ∃ t, exec (peer (.read p true a size)) s = .next t ∧
      sent t (.peerReply n ((List.range size).map fun j => Mem.read s.mem (k + j)))) ∧
    (port.state = 2 → (q.pstate = 0 ∨ q.pport.getLsbD n = false) → ∃ t, exec (peer (.read p m a size)) s = .next t ∧
      sent t (.peerError n 5)) ∧
    (port.state ≠ 2 → port.state ≠ 3 → exec (peer (.read p chb a size)) s = .next s)

/-! ### Power and reliability -/

/-- R330, R336-R338, R311, R314, R323-R326, R290: the eviction's late signal and the raising and dropping of its request; an
island starts 200 µs after the last, and a cluster is in service with its eighth core group; an idle one that an access
has asked for wakes; the errors of one cycle fill their bucket together, by the sum of their FILLs and at most to 65,535,
and leaks lower it; a link fails, or retrains with its width halved (the first retrain of the two, log 73), and a retrain
fills the bucket of the lane, the port or the UCIe link (a bucket for each number of a lane and of a UCIe link is the
model's reading, log 55); an uncorrectable error is pending in its 8 bytes, or its row of a tile, and changes nothing else,
no bucket either; a whole-line write removes it; when a core's read consumes it the fault taken fills the bucket of its
bank (log 73); a scrub pass falls due and is made in one turn (log 71); an ingest check is made when its lines are written. Aging of requests changes no state (log 13). -/
def Obligations.PowerAndReliability : Prop :=
  ∀ (s : State) (c i l ln k p : Nat) (b : Bucket) (t : TReg) (row : Fin 32) (g g' : Nat) (sq : SeqKind) (x : W64)
    (bs : List Byte) (sb : W32),
    let ev := s.evict
    let quiet : Prop := s.allStopped = true ∧ s.anyDispatched = false ∧ s.savePending none = false ∧
      (∀ e ∈ s.qps, e.2.works = []) ∧ ∀ n < 16, ((s.port n).state = 4 ∧ (s.port n).conf = true) ∨ (s.port n).state = 0
    let v := (s.link l).reg.toNat
    let level (n : Nat) := min 65535 ((s.bucket b).level + n * s.fillOf b .corrected)
    let time := s.clock - ev.start
    let site : ErrSite := .line (spadKey g k)
    (ev.running = true → time = 30000 * 800000 → ev.late = false → ev.unl = false → ∃ u, exec .evcLate s = .next u ∧
      u.evict = { ev with late := true } ∧ u.mem = s.mem) ∧
    (ev.running = false ∨ time ≠ 30000 * 800000 → exec .evcLate s = .next s) ∧
    (ev.unl = true → quiet → exec .unlatchRaise s = .next { s with evict := { ev with signal := true } }) ∧
    (¬quiet → exec .unlatchRaise s = .next s) ∧
    (ev.unl = true → ev.signal = true → ¬quiet → exec .unlatchDrop s = .next { s with evict := { ev with signal := false, unl := false } }) ∧
    (quiet → exec .unlatchDrop s = .next s) ∧
    (bootOrder.find? s.waitsToStart = some i → i < 32 → s.lastStart + 160000 ≤ s.clock → ∃ u, exec .islandStart s = .next u ∧
      (u.island i).at_ = s.clock ∧ (u.island i).groups = 0 ∧
      (u.island i).state = if i < 28 ∧ i % 7 < 4 then 3 else (s.island i).target) ∧
    (s.clock < s.lastStart + 160000 → exec .islandStart s = .next s) ∧
    (c < 16 → (s.island (islandOf c)).state = 3 → (s.island (islandOf c)).groups < 8 →
      (s.island (islandOf c)).at_ + 8000 * (s.island (islandOf c)).groups ≤ s.clock →
      let y := s.island (islandOf c)
      exec (.coreGroupStart c) s = .next (s.setIsland (islandOf c)
        { y with groups := y.groups + 1, state := if y.groups = 7 then y.target else 3 })) ∧
    ((s.island i).state = 1 → (s.island i).asked ≠ none →
      exec (.islandWake i) s = .next (s.setIsland i { s.island i with state := 2, target := 2, asked := none })) ∧
    ((s.island i).state ≠ 1 ∨ (s.island i).asked = none → exec (.islandWake i) s = .next s) ∧
    (bucketExists b = true → s.fills = [] → ∃ u v, exec (.correctedError b) s = .next u ∧ exec (.correctedError b) u = .next v ∧
      u.mem = s.mem ∧ u.cores = s.cores ∧ u.side = s.side ∧ u.bad = s.bad ∧ u.buckets = s.buckets ∧
      (u.tick.bucket b).level = level 1 ∧ (v.tick.bucket b).level = level 2) ∧
    (bucketExists b = false → exec (.correctedError b) s = .next s) ∧
    (s.leakAt + 800000 ≤ s.clock → ∃ u, exec .bucketLeak s = .next u ∧ u.mem = s.mem ∧ u.leakAt = s.leakAt + 800000 ∧
      ((s.buckets.map (·.1)).Nodup → (u.bucket b).level = (s.bucket b).level - s.leakOf b)) ∧
    (s.clock < s.leakAt + 800000 → exec .bucketLeak s = .next s) ∧
    (fld v 0 2 = 2 → ∃ u, exec (.memoryLinkFail l) s = .next u ∧ u.linkFailed l = true ∧ u.mem = s.mem) ∧
    (fld v 0 2 = 2 → l < 32 → ∃ u, exec (.laneRetrain (.memory l) ln) s = .next u ∧
      u.fills = addFill (.lane l ln) (s.fillOf (.lane l ln) .retrain) s.fills ∧
      bf (u.link l).reg 48 16 = min 65535 (bf (s.link l).reg 48 16 + 1) ∧
      bf (u.link l).reg 12 4 = (if bf (s.link l).reg 12 4 = 2 then 1 else bf (s.link l).reg 12 4) ∧
      bf (u.link l).reg 0 12 = bf (s.link l).reg 0 12) ∧
    (fld v 0 2 ≠ 2 → exec (.memoryLinkFail l) s = .next s ∧ exec (.laneRetrain (.memory l) ln) s = .next s) ∧
    (l < 16 → exec (.laneRetrain (.port l) ln) s = .next (s.fill (.port l ln) .retrain)) ∧
    exec (.laneRetrain (.ucie l) ln) s = .next (s.fill (.ucie l ln) .retrain) ∧
    exec (.arbitrationAging l) s = .next s ∧
    (g < 2048 → k < 2 ^ 20 → ∃ u, exec (.uncorrectableError site) s = .next u ∧ u.badIn (spadKey g k) 1 = true ∧
      (∀ j, j / 8 ≠ spadKey g k / 8 → u.badIn j 1 = s.badIn j 1) ∧ u.side = s.side ∧ u.mem = s.mem ∧ u.cores = s.cores ∧
      u.buckets = s.buckets ∧ u.fills = s.fills) ∧
    (g < 2048 → k < 2 ^ 20 → (s.setLine (spadKey g k) bs sb).badIn (spadKey g k) 1 = false ∧
      (s.cur = .core g' sq → (s.take (s.lost (spadKey g k) 1 x)).bad = s.bad ∧
        (s.take (s.lost (spadKey g k) 1 x)).fills = (s.fill (.bank g (k / 2 ^ 19 * 32 + k / 256 % 32)) .uncorrectable).fills)) ∧
    (g < 2048 → ∃ u, exec (.uncorrectableError (.tile g t row)) s = .next u ∧ row.val ∈ (u.tile g t).err ∧
      (u.tile g t).vals = (s.tile g t).vals ∧ u.fills = s.fills) ∧
    ((s.part p).pstate ≠ 0 → (s.part p).scrubAt + (s.part p).scrb.toNat * 800000000 ≤ s.clock →
      ∃ u, exec (.scrubPass p) s = .next u ∧ (u.part p).scrubAt = s.clock ∧
        ((∀ n, ((s.part p).ws.get n).state = .free) → u.mem = s.mem)) ∧
    ((s.part p).pstate = 0 ∨ s.clock < (s.part p).scrubAt + (s.part p).scrb.toNat * 800000000 →
      exec (.scrubPass p) s = .next s) ∧
    (∀ y k' base m dg st, s.ingest.find? (fun y => y.part == p && y.left.isEmpty) = some y →
      let s1 : State := { s with ingest := s.ingest.filter fun z => !(z == y) }
      s1.shardEntry p y.slot y.expert y.shard = .ok (k', base, m, dg, st) →
      (s1.shardCrc p base m = some dg → exec (.ingestCheck p) s = .next (s1.setQuar k' st false)) ∧
      (s1.shardCrc p base m ≠ some dg → exec (.ingestCheck p) s =
        .next (((s1.crcConsume p base m).setQuar k' st true).digestNote p 12 0 base 1))) ∧
    ((∀ y ∈ s.ingest, y.part = p → y.left ≠ []) → exec (.ingestCheck p) s = .next s)

/-! ### The root core -/

/-- R331-R335: power-on keeps what is in flash and the identity element and starts a nonce; the first stage is measured when
its signature holds and the boot stops at it when it does not; a configuration record is applied only with its magic,
its limits and a version not below the least; a step that twice failed takes its alternate, an optional one is skipped, a
cluster's leaves the cluster out of this start; the hypervisor, its signature verified, is loaded and the hearth cores
start it at level H, and one whose signature fails does not run; after it a partition's signed image is measured in M4,
loaded and run at level S, and one whose signature fails is not; a signed command clears ALT and leaves this start as it
is. That a failed step ends the start, the places of the hypervisor and of the partitions' images and the hearth core that
runs one (log 90) and what a power-on keeps (log 76) are the model's choice, as is what an alternate form needs (log 74). -/
def Obligations.RootCoreBoots : Prop :=
  ∀ (s : State) (image sig command : List Byte) (passed : Bool) (n : Nat),
    let r := s.root
    let ready : Prop := r.nonce.isSome = true ∧ r.recovery = false ∧ r.stopped = false
    let b := r.boot.getD r.step {}
    let step : Instr := .bootStep image sig passed
    let at_ := 4 * (Config.hypervisor % 2 ^ 49)
    (∃ t, exec .powerOn s = .next t ∧ t.root.boot = r.boot ∧ t.root.minVer = r.minVer ∧ t.root.identity = r.identity ∧
      t.root.step = 0 ∧ t.root.nonce.isSome = true ∧ t.root.token = none ∧ t.mem = [] ∧ t.cores = [] ∧ t.parts = [] ∧
      ∀ i, t.root.meas.get i = if i = 0 then sha256 (List.replicate 32 0 ++ Config.romDigest) else List.replicate 32 0) ∧
    (¬ready → exec step s = .next s) ∧
    (ready → r.step = 0 → b.streak = 0 → (b.begun = true → b.done = true) →
      (Config.signatureHolds (sha256 image) sig = true → ∃ t, exec step s = .next t ∧ t.root.step = 1 ∧
        t.root.meas.get 1 = sha256 (r.meas.get 1 ++ sha256 image) ∧ (t.root.boot.getD 0 {}).done = true ∧ t.mem = s.mem) ∧
      (Config.signatureHolds (sha256 image) sig = false → ∃ t, exec step s = .next t ∧ t.root.step = 0 ∧
        t.root.stopped = true ∧ t.root.meas = r.meas ∧ (t.root.boot.getD 0 {}).begun = true ∧
        (t.root.boot.getD 0 {}).done = false)) ∧
    (ready → r.step = 1 → b.streak = 0 → (b.begun = true → b.done = true) → Config.signatureHolds (sha256 image) sig = true →
      (configOk image = true → r.minVer ≤ ofBytes ((image.drop 4).take 4) → ∃ t, exec step s = .next t ∧ t.root.config = image ∧
        t.root.minVer = ofBytes ((image.drop 4).take 4) ∧ t.root.identity.cfgd = sha256 image ∧ t.root.step = 2) ∧
      (configOk image = false ∨ ofBytes ((image.drop 4).take 4) < r.minVer → ∃ t, exec step s = .next t ∧
        t.root.config = r.config ∧ t.root.stopped = true)) ∧
    (ready → r.step = 3 → b.begun = true → b.done = false → b.streak = 1 → b.alt = false → passed = true →
      ∃ t, exec step s = .next t ∧ (t.root.boot.getD 3 {}).alt = true ∧ t.root.forms.getD 3 false = true ∧ t.root.step = 4) ∧
    (ready → 5 ≤ r.step → r.step ≤ 20 → b.begun = true → b.done = false → b.streak = 1 → b.alt = false →
      ∃ t, exec step s = .next t ∧ (t.root.boot.getD r.step {}).alt = true ∧ t.root.step = r.step + 1 ∧
        t.leftOut (r.step - 5) = true ∧ t.islands = s.islands ∧ ∀ c, c ≠ r.step - 5 → t.leftOut c = s.leftOut c) ∧
    (ready → r.step = 23 → b.streak = 0 → (b.begun = true → b.done = true) → Memory.wf s.mem = true →
      (Config.signatureHolds (sha256 image) sig = true → ∃ t, exec step s = .next t ∧ t.root.step = 24 ∧
        t.root.meas.get 3 = sha256 (r.meas.get 3 ++ sha256 image) ∧
        (∀ j < image.length, Mem.read t.mem (at_ + j) = image.getD j 0) ∧
        (∀ j, j < at_ ∨ at_ + image.length ≤ j → Mem.read t.mem j = Mem.read s.mem j) ∧
        ∀ h < 16, (t.hearth h).lv = 2 ∧ (t.hearth h).seq.run = .running ∧ (t.hearth h).seq.pc = BitVec.ofNat 64 at_) ∧
      (Config.signatureHolds (sha256 image) sig = false → ∃ t, exec step s = .next t ∧ t.root.step = 23 ∧
        t.root.stopped = true ∧ t.hearths = s.hearths ∧ t.mem = s.mem)) ∧
    (ready → 24 ≤ r.step → r.step < 40 →
      (Config.signatureHolds (sha256 image) sig = true → ∃ t, exec step s = .next t ∧ t.root.step = r.step + 1 ∧
        t.root.meas.get 4 = sha256 (r.meas.get 4 ++ sha256 image) ∧
        (Memory.wf s.mem = true → ∀ j < image.length,
          Mem.read t.mem (256 * ((Config.systemImage (r.step - 24)).1 % 2 ^ 43) + j) = image.getD j 0) ∧
        let y := t.hearth (r.step - 24)
        y.lv = 1 ∧ y.hpart = r.step - 24 ∧ y.seq.run = .running ∧
          y.seq.pc = BitVec.ofNat 64 (4 * (Config.systemImage (r.step - 24)).2)) ∧
      (Config.signatureHolds (sha256 image) sig = false → ∃ t, exec step s = .next t ∧ t.root.step = r.step + 1 ∧
        t.root.meas = r.meas ∧ t.hearths = s.hearths ∧ t.mem = s.mem)) ∧
    (ready → (r.step = 21 ∨ r.step = 22) → b.begun = true → b.done = false → b.streak = 1 →
      ∃ t, exec step s = .next t ∧ t.root.step = r.step + 1 ∧ t.root.stopped = false ∧ t.mem = s.mem) ∧
    (ready → r.step = 2 → b.begun = true → b.done = false → 1 ≤ b.streak →
      ∃ t, exec step s = .next t ∧ t.root.recovery = true ∧ t.root.step = 2) ∧
    (Config.altCommand command = some n → ∃ t, exec (.altClear command) s = .next t ∧ (t.root.boot.getD n {}).alt = false ∧
      (∀ m, m ≠ n → t.root.boot.getD m {} = r.boot.getD m {}) ∧ t.root.left = r.left ∧ t.mem = s.mem) ∧
    (Config.altCommand command = none → exec (.altClear command) s = .next { s with sent := s.sent ++ [.refused] })

/-- R339-R342: a debug token that the key of DBGKEY signed for this device and start is measured in M7 and held, another
refused; a debugger halts, resumes, steps, reads and writes a core of a partition that may be debugged, and is refused
elsewhere; attestation answers while the identity key is unsealed, its measurements M0 to M7 with the nonce under the
device's signature; a sensor read answers. The bytes of the answers (log 41) and that a refused access answers `refused`
(log 75) are the model's choice. -/
def Obligations.RootCoreAnswers : Prop :=
  ∀ (s : State) (token : List Byte) (nonce key : BitVec 256) (g p off : Nat) (q : SeqKind) (r : SReg) (v : W64) (b : Byte),
    let x := s.root
    let granted : Bool := !x.config.isEmpty && Config.tokenOk ((x.config.drop 16).take 32) key token
    let sends (i : Instr) (m : Sent) : Prop := exec i s = .next { s with sent := s.sent ++ [m] }
    let dbg (d : DebugReq) : Instr := .debugAccess d
    let open_ : Prop := g < 2048 ∧ s.partOf (cidOf g) = some p ∧ s.mayDebug p = true ∧ (s.island (islandOf (cidOf g))).state = 2
    let c := s.core g
    let core (i : Instr) (y : Core) : Prop := exec i s = .next (s.setCore g y)
    let answers (i : Instr) (code : Nat) (data : List Byte) : Prop := (x.unsealed = true → sends i (.spdm code data)) ∧
      (x.unsealed = false → sends i (.spdm 0x7F []))
    let signed (body : List Byte) : List Byte := body ++ toBytes 32 nonce.toNat ++ Config.sign (body ++ toBytes 32 nonce.toNat)
    (x.nonce = some key → granted = true → ∃ t, exec (.debugToken token) s = .next t ∧ t.root.token = some token ∧
      t.root.meas.get 7 = sha256 (x.meas.get 7 ++ sha256 token) ∧ t.mem = s.mem) ∧
    (x.nonce = some key → granted = false → sends (.debugToken token) .refused) ∧
    (x.nonce = none → sends (.debugToken token) .refused) ∧
    (open_ → core (dbg (.halt g)) { c with debug := true, stepping := none } ∧
      core (dbg (.resume g)) { c with debug := false, stepping := none } ∧
      core (dbg (.singleStep g q)) { c with debug := true, stepping := some q } ∧
      sends (dbg (.readReg g q r)) (.debug (toBytes 8 ((c.seq q).rdS r).toNat)) ∧
      core (dbg (.writeReg g q r v)) (c.setSeq q ((c.seq q).wrS r v)) ∧
      sends (dbg (.readCore g (.pc q))) (.debug (toBytes 8 (c.seq q).pc.toNat)) ∧
      core (dbg (.writeCore g (.pc q) v)) (c.setSeq q { c.seq q with pc := v }) ∧
      (∀ k : Reg16, sends (dbg (.readCore g (.sem k))) (.debug (toBytes 8 (c.sems.get k).toNat))) ∧
      (off < 2 ^ 20 → (s.badIn (spadKey g off) 1 = false → sends (dbg (.readSpad g off)) (.debug [Mem.read s.mem (spadKey g off)])) ∧
        (Memory.wf s.mem = true → ∃ t, exec (dbg (.writeSpad g off b)) s = .next t ∧ Mem.read t.mem (spadKey g off) = b ∧
          ∀ j, j ≠ spadKey g off → Mem.read t.mem j = Mem.read s.mem j))) ∧
    (s.partOf (cidOf g) = some p → s.mayDebug p = false → sends (dbg (.halt g)) .refused ∧
      sends (dbg (.readReg g q r)) .refused ∧ sends (dbg (.readSpad g off)) .refused) ∧
    (x.token = none → sends (dbg (.readHub 0 r)) .refused) ∧
    (∃ l, sends (dbg .telemetry) (.debug l)) ∧
    answers .spdmGetVersion 0x04 [0x13] ∧ answers .spdmGetCapabilities 0x61 (toBytes 4 0x16) ∧
    answers .spdmNegotiateAlgorithms 0x63 (toBytes 4 1 ++ [1]) ∧
    answers .spdmGetDigests 0x01 (sha256 Config.certificates) ∧ answers .spdmGetCertificate 0x02 Config.certificates ∧
    answers (.spdmChallenge nonce) 0x03 (signed (sha256 Config.certificates)) ∧
    answers (.spdmGetMeasurements nonce) 0x60
      (signed ((List.finRange 8).flatMap fun i => BitVec.ofNat 8 (i.val + 1) :: x.meas.get i)) ∧
    ∃ t l, exec (.pldmSensorRead off) s = .next t ∧ t.sent = s.sent ++ [.pldm l] ∧ t.mem = s.mem

/-! ### Decoding, steps and the machine as a whole -/

/-- R145-R147, R150, R155: words written out from the formats: each decodes to the instruction it stands for; major 0x00 and
a set reserved bit decode to none. -/
def Obligations.WordsDecode : Prop :=
  decodeWords [0b00000100011001000010100000000000] = .ok (.iopAdd 3 4 5, []) ∧
  decodeWords [0b00001000001111110000111111111111] = .ok (.iopiAdd 1 31 0xFFF, []) ∧
  decodeWords [0b00011010011111111111111111111111] = .ok (.br true 3 0x1FFFFF, []) ∧
  decodeWords [0b01000000001000110010000000100000] = .ok (.ringClaim 1 3 4 true, []) ∧
  decodeWords [0b11000000010000100001101111000000] = .ok (.mmaRn8 2 2 3 false true true true true, []) ∧
  decodeWords [0b10001100010001000001100000000000] = .ok (.vcmpEq 2 4 3 0, []) ∧
  decodeWords [0b11110000001000100001100000000000] = .ok (.nmaAddI32 1 2 3, []) ∧
  decodeWords [0b00111000000000000000000000000000] = .ok (.sysNop, []) ∧
  decodeWords [0b11111100010000000000000000000000, 7, 9] = .ok (.bundleIssue 0b11111100010000000000000000000000 [7], [9]) ∧
  decodeWords [0] = .error (.reservedMajor 0) ∧
  decodeWords [0b00000100011001000010100001000000] = .error (.reservedBits 1 0)

/-- R145, R146, R150: a well-formed instruction with a word, or a bundle, is read back from its words with every operand as
it was, whatever follows; and an instruction read from words encodes to them, bit for bit. -/
def Obligations.EncodeAndDecodeAgree : Prop :=
  (∀ (i : Instr) (rest : List W32), i.wf = true → encode i ≠ [] → decodeWords (encode i ++ rest) = .ok (i, rest)) ∧
  (∀ (i : Instr) (ws rest : List W32), decodeWords ws = .ok (i, rest) → encode i ++ rest = ws)

/-- R150, R177, R188, R21, R286 and R155: a turn of a sequencer that runs, waits for nothing and stands at no loop's end
runs the instruction its words decode to: one word, or in C a bundle; a word that decodes to none is an unassigned opcode.
An interrupt that a hearth core can take, a pending wait, an operation due to land and the end of a loop come first. What is
due lands before the bundle of its cycle issues, which C's own turn does at once (the order within the cycle is the model's
choice, log 20); so does the bundle after the end of an iteration. Where the bundle that follows a landing would wait,
nothing lands and nothing issues. A turn begins in the present cycle, or in the next where the sequencer has had its
instruction of this one; it marks that and changes no register and no memory. After each step the eviction signal follows
its conditions. -/
def Obligations.TurnsRunTheDecodedInstruction : Prop :=
  ∀ (s : State) (w : Who) (ts : List Turn) (x : W32) (xs rest : List W32) (i : Instr) (g b : Nat) (e : DecodeError) (f : Exc),
    let now : State := { s with agenda := ts, asked := (s.seqOf w).held }
    let u : State := ({ s with agenda := ts } : State).onTurn w
    let q := u.seqOf w
    let turn (i : Instr) : State := u.takeTurn w (.run i)
    let runs (i : Instr) : Prop := step s = (match exec i (turn i) with
      | .next t => .next t.settleSignal
      | o => o)
    let calm : Prop := ∀ h, w = .hearth h → u.takeable h = none
    let free : Prop := calm ∧ q.sync = none ∧ q.wait = none
    let here : Prop := free ∧ u.landingDue w = false ∧ (q.loop.active = true → q.pc ≠ q.loop.fin)
    s.agenda = .seq w :: ts → whoOk w = true →
    (u = now ∨ u = now.tick) ∧ ((s.seqOf w).issued = true → now.seqAct w ≠ .idle → u = now.tick) ∧
    ((turn i).mem = u.mem ∧ (turn i).cur = w ∧ (∀ r, ((turn i).seqOf w).rdS r = q.rdS r) ∧
      (∀ r, ((turn i).seqOf w).rdP r = q.rdP r) ∧ ((turn i).seqOf w).pc = q.pc) ∧
    (u.canRun w = false → step s = .next u.settleSignal) ∧
    (u.canRun w = true →
      (w = .hearth g → u.takeable g = some b → runs (.interruptEntry g)) ∧
      (calm → q.wait ≠ none ∨ q.sync ≠ none → runs (.waitSatisfied w)) ∧
      (free → w = .core g .C → u.landingDue w = true →
        (u.landingWaits g = true → step s = .next u.settleSignal) ∧
        (u.landingWaits g = false → ∀ t, exec (.cStreamLanding g) (turn (.cStreamLanding g)) = .next t →
          step s = .next ({ t with agenda := .seq w :: t.agenda } : State).settleSignal)) ∧
      (free → u.landingDue w = false → q.loop.active = true → q.pc = q.loop.fin →
        ∀ t, exec (.loopIterationEnd w) (turn (.loopIterationEnd w)) = .next t →
          step s = .next ({ t with agenda := .seq w :: t.agenda } : State).settleSignal) ∧
      (here → u.fetchWord w q.pc = .error f → step s = .next (State.settleSignal
        (({ u.takeTurn w (.fault 15 f) with curSlot := 15, curAddr := q.pc } : State).take f))) ∧
      (here → (∀ g, w ≠ .core g .C) → u.fetchWord w q.pc = .ok x →
        (decodeWords [x] = .ok (i, rest) → runs i) ∧ (decodeWords [x] = .error e → runs (.unassignedOpcode x))) ∧
      (here → w = .core g .C → u.fetchWord w q.pc = .ok x → fld x.toNat 26 6 = 63 →
        (q.loop.active = true → spanSlot q.pc q.loop.fin (fld x.toNat 20 2) = none) →
        u.fetchWords w (fld x.toNat 20 2 + 1) (q.pc + 4) = .ok xs → decodeWords (x :: xs) = .ok (i, rest) → runs i))

/-- The model never stops an instruction, and every instruction, and so every step, keeps the invariant: the exceptions of
R18 and R284 are next states. A turn of a sequencer that the device does not have is the one fault (log 1). -/
def Obligations.StepsKeepTheInvariant : Prop :=
  (∀ (i : Instr) (s : State), s.Inv → ∃ t, exec i s = .next t ∧ t.Inv) ∧
  (∀ s t : State, s.Inv → step s = .next t → t.Inv) ∧
  (∀ (s : State) (ts : List Turn) (w : Who), s.agenda = .seq w :: ts → whoOk w = true → s.Inv → GoesOn s) ∧
  (∀ (s : State) (ts : List Turn) (w : Who), s.agenda = .seq w :: ts → whoOk w = false → step s = .fault .noSuchSequencer)

/-- R285, R332, R337, R338: at reset every island is OFF but the hub's, no partition exists, no node is dispatched, every
compute core's sequencers are ended, memory lists nothing, the start record is at step 0 and the measurement registers
are zero; hearth cores stand at level H and do not run before the hypervisor is loaded; that level is a value the model
chose (log 7), as are the other registers' zeros (log 4, 6) and that memory which nothing has written reads 0 (log 5). The
invariant holds. -/
def Obligations.ResetState : Prop :=
  let s := State.reset
  s.Inv ∧ s.mem = [] ∧ s.side = [] ∧ s.bad = [] ∧ s.disp.pool = [] ∧ s.root.step = 0 ∧ s.root.token = none ∧
  (∀ i, s.root.meas.get i = List.replicate 32 0) ∧
  (∀ i, (s.island i).state = if i = 28 then 2 else 0) ∧ (∀ p, (s.part p).pstate = 0) ∧
  (∀ g q, let x := (s.core g).seq q; x.run = .ended ∧ x.pc = 0 ∧ x.wait = none ∧ (∀ r, x.rdS r = 0) ∧
    ∀ p : Reg16, x.rdP p = decide (p = 0)) ∧
  (∀ h, let x := s.hearth h; x.seq.run = .ended ∧ x.lv = 2 ∧ x.ie = false ∧ x.seq.pc = 0 ∧ x.psel = 0 ∧ x.hpart = 0 ∧ x.imaskS = 0 ∧ x.imaskH = 0 ∧
    x.ncmd = none ∧ x.nbud = 1)
end

