-- ==== Sys2Proof/Laws/Map.lean ====
section
/-! SUPPORT. Reading a map of units after one is replaced or removed. -/

namespace Sys2Proof.Machine

theorem Map.getD_set_self {α : Type} (m : Map α) (k : Nat) (v d : α) : (m.set k v).getD k d = v := by
  induction m with
  | nil => simp [Map.set, Map.getD]
  | cons e m ih =>
    obtain ⟨k', v'⟩ := e
    simp only [Map.set]
    split_ifs with h1 h2 <;> simp_all [Map.getD]

theorem Map.getD_set_ne {α : Type} (m : Map α) {j k : Nat} (v d : α) (h : j ≠ k) : (m.set k v).getD j d = m.getD j d := by
  induction m with
  | nil => simp [Map.set, Map.getD, Ne.symm h]
  | cons e m ih =>
    obtain ⟨k', v'⟩ := e
    simp only [Map.set]
    split_ifs with h1 h2
    · subst h1; simp [Map.getD, Ne.symm h]
    · simp [Map.getD, Ne.symm h]
    · simp [Map.getD, ih]

/-- A map after a unit is replaced. -/
theorem Map.getD_set {α : Type} (m : Map α) (j k : Nat) (v d : α) :
    (m.set k v).getD j d = if j = k then v else m.getD j d := by
  split_ifs with h
  · subst h; exact getD_set_self ..
  · exact getD_set_ne _ _ _ h

theorem Map.get?_set_self {α : Type} (m : Map α) (k : Nat) (v : α) : (m.set k v).get? k = some v := by
  induction m with
  | nil => simp [Map.set, Map.get?]
  | cons e m ih =>
    obtain ⟨k', v'⟩ := e
    simp only [Map.set]
    split_ifs with h1 h2 <;> simp_all [Map.get?]

theorem Map.get?_set_ne {α : Type} (m : Map α) {j k : Nat} (v : α) (h : j ≠ k) : (m.set k v).get? j = m.get? j := by
  induction m with
  | nil => simp [Map.set, Map.get?, Ne.symm h]
  | cons e m ih =>
    obtain ⟨k', v'⟩ := e
    simp only [Map.set]
    split_ifs with h1 h2
    · subst h1; simp [Map.get?, Ne.symm h]
    · simp [Map.get?, Ne.symm h]
    · simp [Map.get?, ih]

theorem Map.getD_del_self {α : Type} (m : Map α) (k : Nat) (d : α) : Map.getD (Map.del m k) k d = d := by
  induction m with
  | nil => rfl
  | cons e m ih =>
    by_cases h : e.1 = k
    · simpa [Map.del, h] using ih
    · have : Map.del (e :: m) k = e :: Map.del m k := by simp [Map.del, h]
      rw [this]; simpa [Map.getD, h] using ih

theorem Map.getD_del_ne {α : Type} (m : Map α) {j k : Nat} (d : α) (h : j ≠ k) :
    Map.getD (Map.del m k) j d = Map.getD m j d := by
  induction m with
  | nil => rfl
  | cons e m ih =>
    by_cases h1 : e.1 = k
    · have : Map.del (e :: m) k = Map.del m k := by simp [Map.del, h1]
      rw [this, ih]; simp [Map.getD, h1, h.symm]
    · have : Map.del (e :: m) k = e :: Map.del m k := by simp [Map.del, h1]
      rw [this]; simp only [Map.getD, ih]

end Sys2Proof.Machine
end

