-- ==== Sys2Proof/Laws/State.lean ====
section
/-! SUPPORT. The fields of a state after each update of one field, and the units read back after they are replaced. -/

namespace Sys2Proof.Machine

/-! ### setCore -/

@[simp] theorem State.setCore_agenda (s : State) (g : Nat) (c : Core) : (s.setCore g c).agenda = s.agenda := rfl
@[simp] theorem State.setCore_free (s : State) (g : Nat) (c : Core) : (s.setCore g c).free = s.free := rfl
@[simp] theorem State.setCore_cur (s : State) (g : Nat) (c : Core) : (s.setCore g c).cur = s.cur := rfl
@[simp] theorem State.setCore_curSlot (s : State) (g : Nat) (c : Core) : (s.setCore g c).curSlot = s.curSlot := rfl
@[simp] theorem State.setCore_curNp (s : State) (g : Nat) (c : Core) : (s.setCore g c).curNp = s.curNp := rfl
@[simp] theorem State.setCore_curAddr (s : State) (g : Nat) (c : Core) : (s.setCore g c).curAddr = s.curAddr := rfl
@[simp] theorem State.setCore_pos (s : State) (g : Nat) (c : Core) : (s.setCore g c).pos = s.pos := rfl
@[simp] theorem State.setCore_asked (s : State) (g : Nat) (c : Core) : (s.setCore g c).asked = s.asked := rfl
@[simp] theorem State.setCore_due (s : State) (g : Nat) (c : Core) : (s.setCore g c).due = s.due := rfl
@[simp] theorem State.setCore_clock (s : State) (g : Nat) (c : Core) : (s.setCore g c).clock = s.clock := rfl
@[simp] theorem State.setCore_cores (s : State) (g : Nat) (c : Core) : (s.setCore g c).cores = s.cores.set g c := rfl
@[simp] theorem State.setCore_clusters (s : State) (g : Nat) (c : Core) : (s.setCore g c).clusters = s.clusters := rfl
@[simp] theorem State.setCore_hearths (s : State) (g : Nat) (c : Core) : (s.setCore g c).hearths = s.hearths := rfl
@[simp] theorem State.setCore_parts (s : State) (g : Nat) (c : Core) : (s.setCore g c).parts = s.parts := rfl
@[simp] theorem State.setCore_mem (s : State) (g : Nat) (c : Core) : (s.setCore g c).mem = s.mem := rfl
@[simp] theorem State.setCore_side (s : State) (g : Nat) (c : Core) : (s.setCore g c).side = s.side := rfl
@[simp] theorem State.setCore_bad (s : State) (g : Nat) (c : Core) : (s.setCore g c).bad = s.bad := rfl
@[simp] theorem State.setCore_ingest (s : State) (g : Nat) (c : Core) : (s.setCore g c).ingest = s.ingest := rfl
@[simp] theorem State.setCore_cstg (s : State) (g : Nat) (c : Core) : (s.setCore g c).cstg = s.cstg := rfl
@[simp] theorem State.setCore_disp (s : State) (g : Nat) (c : Core) : (s.setCore g c).disp = s.disp := rfl
@[simp] theorem State.setCore_qps (s : State) (g : Nat) (c : Core) : (s.setCore g c).qps = s.qps := rfl
@[simp] theorem State.setCore_tcs (s : State) (g : Nat) (c : Core) : (s.setCore g c).tcs = s.tcs := rfl
@[simp] theorem State.setCore_creels (s : State) (g : Nat) (c : Core) : (s.setCore g c).creels = s.creels := rfl
@[simp] theorem State.setCore_links (s : State) (g : Nat) (c : Core) : (s.setCore g c).links = s.links := rfl
@[simp] theorem State.setCore_ports (s : State) (g : Nat) (c : Core) : (s.setCore g c).ports = s.ports := rfl
@[simp] theorem State.setCore_islands (s : State) (g : Nat) (c : Core) : (s.setCore g c).islands = s.islands := rfl
@[simp] theorem State.setCore_buckets (s : State) (g : Nat) (c : Core) : (s.setCore g c).buckets = s.buckets := rfl
@[simp] theorem State.setCore_fills (s : State) (g : Nat) (c : Core) : (s.setCore g c).fills = s.fills := rfl
@[simp] theorem State.setCore_leakAt (s : State) (g : Nat) (c : Core) : (s.setCore g c).leakAt = s.leakAt := rfl
@[simp] theorem State.setCore_evict (s : State) (g : Nat) (c : Core) : (s.setCore g c).evict = s.evict := rfl
@[simp] theorem State.setCore_hazard (s : State) (g : Nat) (c : Core) : (s.setCore g c).hazard = s.hazard := rfl
@[simp] theorem State.setCore_root (s : State) (g : Nat) (c : Core) : (s.setCore g c).root = s.root := rfl
@[simp] theorem State.setCore_sent (s : State) (g : Nat) (c : Core) : (s.setCore g c).sent = s.sent := rfl

/-! ### setCluster -/

@[simp] theorem State.setCluster_agenda (s : State) (k : Nat) (c : Cluster) : (s.setCluster k c).agenda = s.agenda := rfl
@[simp] theorem State.setCluster_free (s : State) (k : Nat) (c : Cluster) : (s.setCluster k c).free = s.free := rfl
@[simp] theorem State.setCluster_cur (s : State) (k : Nat) (c : Cluster) : (s.setCluster k c).cur = s.cur := rfl
@[simp] theorem State.setCluster_curSlot (s : State) (k : Nat) (c : Cluster) : (s.setCluster k c).curSlot = s.curSlot := rfl
@[simp] theorem State.setCluster_curNp (s : State) (k : Nat) (c : Cluster) : (s.setCluster k c).curNp = s.curNp := rfl
@[simp] theorem State.setCluster_curAddr (s : State) (k : Nat) (c : Cluster) : (s.setCluster k c).curAddr = s.curAddr := rfl
@[simp] theorem State.setCluster_pos (s : State) (k : Nat) (c : Cluster) : (s.setCluster k c).pos = s.pos := rfl
@[simp] theorem State.setCluster_asked (s : State) (k : Nat) (c : Cluster) : (s.setCluster k c).asked = s.asked := rfl
@[simp] theorem State.setCluster_due (s : State) (k : Nat) (c : Cluster) : (s.setCluster k c).due = s.due := rfl
@[simp] theorem State.setCluster_clock (s : State) (k : Nat) (c : Cluster) : (s.setCluster k c).clock = s.clock := rfl
@[simp] theorem State.setCluster_cores (s : State) (k : Nat) (c : Cluster) : (s.setCluster k c).cores = s.cores := rfl
@[simp] theorem State.setCluster_clusters (s : State) (k : Nat) (c : Cluster) : (s.setCluster k c).clusters = s.clusters.set k c := rfl
@[simp] theorem State.setCluster_hearths (s : State) (k : Nat) (c : Cluster) : (s.setCluster k c).hearths = s.hearths := rfl
@[simp] theorem State.setCluster_parts (s : State) (k : Nat) (c : Cluster) : (s.setCluster k c).parts = s.parts := rfl
@[simp] theorem State.setCluster_mem (s : State) (k : Nat) (c : Cluster) : (s.setCluster k c).mem = s.mem := rfl
@[simp] theorem State.setCluster_side (s : State) (k : Nat) (c : Cluster) : (s.setCluster k c).side = s.side := rfl
@[simp] theorem State.setCluster_bad (s : State) (k : Nat) (c : Cluster) : (s.setCluster k c).bad = s.bad := rfl
@[simp] theorem State.setCluster_ingest (s : State) (k : Nat) (c : Cluster) : (s.setCluster k c).ingest = s.ingest := rfl
@[simp] theorem State.setCluster_cstg (s : State) (k : Nat) (c : Cluster) : (s.setCluster k c).cstg = s.cstg := rfl
@[simp] theorem State.setCluster_disp (s : State) (k : Nat) (c : Cluster) : (s.setCluster k c).disp = s.disp := rfl
@[simp] theorem State.setCluster_qps (s : State) (k : Nat) (c : Cluster) : (s.setCluster k c).qps = s.qps := rfl
@[simp] theorem State.setCluster_tcs (s : State) (k : Nat) (c : Cluster) : (s.setCluster k c).tcs = s.tcs := rfl
@[simp] theorem State.setCluster_creels (s : State) (k : Nat) (c : Cluster) : (s.setCluster k c).creels = s.creels := rfl
@[simp] theorem State.setCluster_links (s : State) (k : Nat) (c : Cluster) : (s.setCluster k c).links = s.links := rfl
@[simp] theorem State.setCluster_ports (s : State) (k : Nat) (c : Cluster) : (s.setCluster k c).ports = s.ports := rfl
@[simp] theorem State.setCluster_islands (s : State) (k : Nat) (c : Cluster) : (s.setCluster k c).islands = s.islands := rfl
@[simp] theorem State.setCluster_buckets (s : State) (k : Nat) (c : Cluster) : (s.setCluster k c).buckets = s.buckets := rfl
@[simp] theorem State.setCluster_fills (s : State) (k : Nat) (c : Cluster) : (s.setCluster k c).fills = s.fills := rfl
@[simp] theorem State.setCluster_leakAt (s : State) (k : Nat) (c : Cluster) : (s.setCluster k c).leakAt = s.leakAt := rfl
@[simp] theorem State.setCluster_evict (s : State) (k : Nat) (c : Cluster) : (s.setCluster k c).evict = s.evict := rfl
@[simp] theorem State.setCluster_hazard (s : State) (k : Nat) (c : Cluster) : (s.setCluster k c).hazard = s.hazard := rfl
@[simp] theorem State.setCluster_root (s : State) (k : Nat) (c : Cluster) : (s.setCluster k c).root = s.root := rfl
@[simp] theorem State.setCluster_sent (s : State) (k : Nat) (c : Cluster) : (s.setCluster k c).sent = s.sent := rfl

/-! ### setHearth -/

@[simp] theorem State.setHearth_agenda (s : State) (h : Nat) (c : Hearth) : (s.setHearth h c).agenda = s.agenda := rfl
@[simp] theorem State.setHearth_free (s : State) (h : Nat) (c : Hearth) : (s.setHearth h c).free = s.free := rfl
@[simp] theorem State.setHearth_cur (s : State) (h : Nat) (c : Hearth) : (s.setHearth h c).cur = s.cur := rfl
@[simp] theorem State.setHearth_curSlot (s : State) (h : Nat) (c : Hearth) : (s.setHearth h c).curSlot = s.curSlot := rfl
@[simp] theorem State.setHearth_curNp (s : State) (h : Nat) (c : Hearth) : (s.setHearth h c).curNp = s.curNp := rfl
@[simp] theorem State.setHearth_curAddr (s : State) (h : Nat) (c : Hearth) : (s.setHearth h c).curAddr = s.curAddr := rfl
@[simp] theorem State.setHearth_pos (s : State) (h : Nat) (c : Hearth) : (s.setHearth h c).pos = s.pos := rfl
@[simp] theorem State.setHearth_asked (s : State) (h : Nat) (c : Hearth) : (s.setHearth h c).asked = s.asked := rfl
@[simp] theorem State.setHearth_due (s : State) (h : Nat) (c : Hearth) : (s.setHearth h c).due = s.due := rfl
@[simp] theorem State.setHearth_clock (s : State) (h : Nat) (c : Hearth) : (s.setHearth h c).clock = s.clock := rfl
@[simp] theorem State.setHearth_cores (s : State) (h : Nat) (c : Hearth) : (s.setHearth h c).cores = s.cores := rfl
@[simp] theorem State.setHearth_clusters (s : State) (h : Nat) (c : Hearth) : (s.setHearth h c).clusters = s.clusters := rfl
@[simp] theorem State.setHearth_hearths (s : State) (h : Nat) (c : Hearth) : (s.setHearth h c).hearths = s.hearths.set h c := rfl
@[simp] theorem State.setHearth_parts (s : State) (h : Nat) (c : Hearth) : (s.setHearth h c).parts = s.parts := rfl
@[simp] theorem State.setHearth_mem (s : State) (h : Nat) (c : Hearth) : (s.setHearth h c).mem = s.mem := rfl
@[simp] theorem State.setHearth_side (s : State) (h : Nat) (c : Hearth) : (s.setHearth h c).side = s.side := rfl
@[simp] theorem State.setHearth_bad (s : State) (h : Nat) (c : Hearth) : (s.setHearth h c).bad = s.bad := rfl
@[simp] theorem State.setHearth_ingest (s : State) (h : Nat) (c : Hearth) : (s.setHearth h c).ingest = s.ingest := rfl
@[simp] theorem State.setHearth_cstg (s : State) (h : Nat) (c : Hearth) : (s.setHearth h c).cstg = s.cstg := rfl
@[simp] theorem State.setHearth_disp (s : State) (h : Nat) (c : Hearth) : (s.setHearth h c).disp = s.disp := rfl
@[simp] theorem State.setHearth_qps (s : State) (h : Nat) (c : Hearth) : (s.setHearth h c).qps = s.qps := rfl
@[simp] theorem State.setHearth_tcs (s : State) (h : Nat) (c : Hearth) : (s.setHearth h c).tcs = s.tcs := rfl
@[simp] theorem State.setHearth_creels (s : State) (h : Nat) (c : Hearth) : (s.setHearth h c).creels = s.creels := rfl
@[simp] theorem State.setHearth_links (s : State) (h : Nat) (c : Hearth) : (s.setHearth h c).links = s.links := rfl
@[simp] theorem State.setHearth_ports (s : State) (h : Nat) (c : Hearth) : (s.setHearth h c).ports = s.ports := rfl
@[simp] theorem State.setHearth_islands (s : State) (h : Nat) (c : Hearth) : (s.setHearth h c).islands = s.islands := rfl
@[simp] theorem State.setHearth_buckets (s : State) (h : Nat) (c : Hearth) : (s.setHearth h c).buckets = s.buckets := rfl
@[simp] theorem State.setHearth_fills (s : State) (h : Nat) (c : Hearth) : (s.setHearth h c).fills = s.fills := rfl
@[simp] theorem State.setHearth_leakAt (s : State) (h : Nat) (c : Hearth) : (s.setHearth h c).leakAt = s.leakAt := rfl
@[simp] theorem State.setHearth_evict (s : State) (h : Nat) (c : Hearth) : (s.setHearth h c).evict = s.evict := rfl
@[simp] theorem State.setHearth_hazard (s : State) (h : Nat) (c : Hearth) : (s.setHearth h c).hazard = s.hazard := rfl
@[simp] theorem State.setHearth_root (s : State) (h : Nat) (c : Hearth) : (s.setHearth h c).root = s.root := rfl
@[simp] theorem State.setHearth_sent (s : State) (h : Nat) (c : Hearth) : (s.setHearth h c).sent = s.sent := rfl

/-! ### setPart -/

@[simp] theorem State.setPart_agenda (s : State) (p : Nat) (c : Part) : (s.setPart p c).agenda = s.agenda := rfl
@[simp] theorem State.setPart_free (s : State) (p : Nat) (c : Part) : (s.setPart p c).free = s.free := rfl
@[simp] theorem State.setPart_cur (s : State) (p : Nat) (c : Part) : (s.setPart p c).cur = s.cur := rfl
@[simp] theorem State.setPart_curSlot (s : State) (p : Nat) (c : Part) : (s.setPart p c).curSlot = s.curSlot := rfl
@[simp] theorem State.setPart_curNp (s : State) (p : Nat) (c : Part) : (s.setPart p c).curNp = s.curNp := rfl
@[simp] theorem State.setPart_curAddr (s : State) (p : Nat) (c : Part) : (s.setPart p c).curAddr = s.curAddr := rfl
@[simp] theorem State.setPart_pos (s : State) (p : Nat) (c : Part) : (s.setPart p c).pos = s.pos := rfl
@[simp] theorem State.setPart_asked (s : State) (p : Nat) (c : Part) : (s.setPart p c).asked = s.asked := rfl
@[simp] theorem State.setPart_due (s : State) (p : Nat) (c : Part) : (s.setPart p c).due = s.due := rfl
@[simp] theorem State.setPart_clock (s : State) (p : Nat) (c : Part) : (s.setPart p c).clock = s.clock := rfl
@[simp] theorem State.setPart_cores (s : State) (p : Nat) (c : Part) : (s.setPart p c).cores = s.cores := rfl
@[simp] theorem State.setPart_clusters (s : State) (p : Nat) (c : Part) : (s.setPart p c).clusters = s.clusters := rfl
@[simp] theorem State.setPart_hearths (s : State) (p : Nat) (c : Part) : (s.setPart p c).hearths = s.hearths := rfl
@[simp] theorem State.setPart_parts (s : State) (p : Nat) (c : Part) : (s.setPart p c).parts = s.parts.set p c := rfl
@[simp] theorem State.setPart_mem (s : State) (p : Nat) (c : Part) : (s.setPart p c).mem = s.mem := rfl
@[simp] theorem State.setPart_side (s : State) (p : Nat) (c : Part) : (s.setPart p c).side = s.side := rfl
@[simp] theorem State.setPart_bad (s : State) (p : Nat) (c : Part) : (s.setPart p c).bad = s.bad := rfl
@[simp] theorem State.setPart_ingest (s : State) (p : Nat) (c : Part) : (s.setPart p c).ingest = s.ingest := rfl
@[simp] theorem State.setPart_cstg (s : State) (p : Nat) (c : Part) : (s.setPart p c).cstg = s.cstg := rfl
@[simp] theorem State.setPart_disp (s : State) (p : Nat) (c : Part) : (s.setPart p c).disp = s.disp := rfl
@[simp] theorem State.setPart_qps (s : State) (p : Nat) (c : Part) : (s.setPart p c).qps = s.qps := rfl
@[simp] theorem State.setPart_tcs (s : State) (p : Nat) (c : Part) : (s.setPart p c).tcs = s.tcs := rfl
@[simp] theorem State.setPart_creels (s : State) (p : Nat) (c : Part) : (s.setPart p c).creels = s.creels := rfl
@[simp] theorem State.setPart_links (s : State) (p : Nat) (c : Part) : (s.setPart p c).links = s.links := rfl
@[simp] theorem State.setPart_ports (s : State) (p : Nat) (c : Part) : (s.setPart p c).ports = s.ports := rfl
@[simp] theorem State.setPart_islands (s : State) (p : Nat) (c : Part) : (s.setPart p c).islands = s.islands := rfl
@[simp] theorem State.setPart_buckets (s : State) (p : Nat) (c : Part) : (s.setPart p c).buckets = s.buckets := rfl
@[simp] theorem State.setPart_fills (s : State) (p : Nat) (c : Part) : (s.setPart p c).fills = s.fills := rfl
@[simp] theorem State.setPart_leakAt (s : State) (p : Nat) (c : Part) : (s.setPart p c).leakAt = s.leakAt := rfl
@[simp] theorem State.setPart_evict (s : State) (p : Nat) (c : Part) : (s.setPart p c).evict = s.evict := rfl
@[simp] theorem State.setPart_hazard (s : State) (p : Nat) (c : Part) : (s.setPart p c).hazard = s.hazard := rfl
@[simp] theorem State.setPart_root (s : State) (p : Nat) (c : Part) : (s.setPart p c).root = s.root := rfl
@[simp] theorem State.setPart_sent (s : State) (p : Nat) (c : Part) : (s.setPart p c).sent = s.sent := rfl

/-! ### setQp -/

@[simp] theorem State.setQp_agenda (s : State) (n : Nat) (c : Qp) : (s.setQp n c).agenda = s.agenda := rfl
@[simp] theorem State.setQp_free (s : State) (n : Nat) (c : Qp) : (s.setQp n c).free = s.free := rfl
@[simp] theorem State.setQp_cur (s : State) (n : Nat) (c : Qp) : (s.setQp n c).cur = s.cur := rfl
@[simp] theorem State.setQp_curSlot (s : State) (n : Nat) (c : Qp) : (s.setQp n c).curSlot = s.curSlot := rfl
@[simp] theorem State.setQp_curNp (s : State) (n : Nat) (c : Qp) : (s.setQp n c).curNp = s.curNp := rfl
@[simp] theorem State.setQp_curAddr (s : State) (n : Nat) (c : Qp) : (s.setQp n c).curAddr = s.curAddr := rfl
@[simp] theorem State.setQp_pos (s : State) (n : Nat) (c : Qp) : (s.setQp n c).pos = s.pos := rfl
@[simp] theorem State.setQp_asked (s : State) (n : Nat) (c : Qp) : (s.setQp n c).asked = s.asked := rfl
@[simp] theorem State.setQp_due (s : State) (n : Nat) (c : Qp) : (s.setQp n c).due = s.due := rfl
@[simp] theorem State.setQp_clock (s : State) (n : Nat) (c : Qp) : (s.setQp n c).clock = s.clock := rfl
@[simp] theorem State.setQp_cores (s : State) (n : Nat) (c : Qp) : (s.setQp n c).cores = s.cores := rfl
@[simp] theorem State.setQp_clusters (s : State) (n : Nat) (c : Qp) : (s.setQp n c).clusters = s.clusters := rfl
@[simp] theorem State.setQp_hearths (s : State) (n : Nat) (c : Qp) : (s.setQp n c).hearths = s.hearths := rfl
@[simp] theorem State.setQp_parts (s : State) (n : Nat) (c : Qp) : (s.setQp n c).parts = s.parts := rfl
@[simp] theorem State.setQp_mem (s : State) (n : Nat) (c : Qp) : (s.setQp n c).mem = s.mem := rfl
@[simp] theorem State.setQp_side (s : State) (n : Nat) (c : Qp) : (s.setQp n c).side = s.side := rfl
@[simp] theorem State.setQp_bad (s : State) (n : Nat) (c : Qp) : (s.setQp n c).bad = s.bad := rfl
@[simp] theorem State.setQp_ingest (s : State) (n : Nat) (c : Qp) : (s.setQp n c).ingest = s.ingest := rfl
@[simp] theorem State.setQp_cstg (s : State) (n : Nat) (c : Qp) : (s.setQp n c).cstg = s.cstg := rfl
@[simp] theorem State.setQp_disp (s : State) (n : Nat) (c : Qp) : (s.setQp n c).disp = s.disp := rfl
@[simp] theorem State.setQp_qps (s : State) (n : Nat) (c : Qp) : (s.setQp n c).qps = s.qps.set n c := rfl
@[simp] theorem State.setQp_tcs (s : State) (n : Nat) (c : Qp) : (s.setQp n c).tcs = s.tcs := rfl
@[simp] theorem State.setQp_creels (s : State) (n : Nat) (c : Qp) : (s.setQp n c).creels = s.creels := rfl
@[simp] theorem State.setQp_links (s : State) (n : Nat) (c : Qp) : (s.setQp n c).links = s.links := rfl
@[simp] theorem State.setQp_ports (s : State) (n : Nat) (c : Qp) : (s.setQp n c).ports = s.ports := rfl
@[simp] theorem State.setQp_islands (s : State) (n : Nat) (c : Qp) : (s.setQp n c).islands = s.islands := rfl
@[simp] theorem State.setQp_buckets (s : State) (n : Nat) (c : Qp) : (s.setQp n c).buckets = s.buckets := rfl
@[simp] theorem State.setQp_fills (s : State) (n : Nat) (c : Qp) : (s.setQp n c).fills = s.fills := rfl
@[simp] theorem State.setQp_leakAt (s : State) (n : Nat) (c : Qp) : (s.setQp n c).leakAt = s.leakAt := rfl
@[simp] theorem State.setQp_evict (s : State) (n : Nat) (c : Qp) : (s.setQp n c).evict = s.evict := rfl
@[simp] theorem State.setQp_hazard (s : State) (n : Nat) (c : Qp) : (s.setQp n c).hazard = s.hazard := rfl
@[simp] theorem State.setQp_root (s : State) (n : Nat) (c : Qp) : (s.setQp n c).root = s.root := rfl
@[simp] theorem State.setQp_sent (s : State) (n : Nat) (c : Qp) : (s.setQp n c).sent = s.sent := rfl

/-! ### setTc -/

@[simp] theorem State.setTc_agenda (s : State) (n : Nat) (c : W64) : (s.setTc n c).agenda = s.agenda := rfl
@[simp] theorem State.setTc_free (s : State) (n : Nat) (c : W64) : (s.setTc n c).free = s.free := rfl
@[simp] theorem State.setTc_cur (s : State) (n : Nat) (c : W64) : (s.setTc n c).cur = s.cur := rfl
@[simp] theorem State.setTc_curSlot (s : State) (n : Nat) (c : W64) : (s.setTc n c).curSlot = s.curSlot := rfl
@[simp] theorem State.setTc_curNp (s : State) (n : Nat) (c : W64) : (s.setTc n c).curNp = s.curNp := rfl
@[simp] theorem State.setTc_curAddr (s : State) (n : Nat) (c : W64) : (s.setTc n c).curAddr = s.curAddr := rfl
@[simp] theorem State.setTc_pos (s : State) (n : Nat) (c : W64) : (s.setTc n c).pos = s.pos := rfl
@[simp] theorem State.setTc_asked (s : State) (n : Nat) (c : W64) : (s.setTc n c).asked = s.asked := rfl
@[simp] theorem State.setTc_due (s : State) (n : Nat) (c : W64) : (s.setTc n c).due = s.due := rfl
@[simp] theorem State.setTc_clock (s : State) (n : Nat) (c : W64) : (s.setTc n c).clock = s.clock := rfl
@[simp] theorem State.setTc_cores (s : State) (n : Nat) (c : W64) : (s.setTc n c).cores = s.cores := rfl
@[simp] theorem State.setTc_clusters (s : State) (n : Nat) (c : W64) : (s.setTc n c).clusters = s.clusters := rfl
@[simp] theorem State.setTc_hearths (s : State) (n : Nat) (c : W64) : (s.setTc n c).hearths = s.hearths := rfl
@[simp] theorem State.setTc_parts (s : State) (n : Nat) (c : W64) : (s.setTc n c).parts = s.parts := rfl
@[simp] theorem State.setTc_mem (s : State) (n : Nat) (c : W64) : (s.setTc n c).mem = s.mem := rfl
@[simp] theorem State.setTc_side (s : State) (n : Nat) (c : W64) : (s.setTc n c).side = s.side := rfl
@[simp] theorem State.setTc_bad (s : State) (n : Nat) (c : W64) : (s.setTc n c).bad = s.bad := rfl
@[simp] theorem State.setTc_ingest (s : State) (n : Nat) (c : W64) : (s.setTc n c).ingest = s.ingest := rfl
@[simp] theorem State.setTc_cstg (s : State) (n : Nat) (c : W64) : (s.setTc n c).cstg = s.cstg := rfl
@[simp] theorem State.setTc_disp (s : State) (n : Nat) (c : W64) : (s.setTc n c).disp = s.disp := rfl
@[simp] theorem State.setTc_qps (s : State) (n : Nat) (c : W64) : (s.setTc n c).qps = s.qps := rfl
@[simp] theorem State.setTc_tcs (s : State) (n : Nat) (c : W64) : (s.setTc n c).tcs = s.tcs.set n c := rfl
@[simp] theorem State.setTc_creels (s : State) (n : Nat) (c : W64) : (s.setTc n c).creels = s.creels := rfl
@[simp] theorem State.setTc_links (s : State) (n : Nat) (c : W64) : (s.setTc n c).links = s.links := rfl
@[simp] theorem State.setTc_ports (s : State) (n : Nat) (c : W64) : (s.setTc n c).ports = s.ports := rfl
@[simp] theorem State.setTc_islands (s : State) (n : Nat) (c : W64) : (s.setTc n c).islands = s.islands := rfl
@[simp] theorem State.setTc_buckets (s : State) (n : Nat) (c : W64) : (s.setTc n c).buckets = s.buckets := rfl
@[simp] theorem State.setTc_fills (s : State) (n : Nat) (c : W64) : (s.setTc n c).fills = s.fills := rfl
@[simp] theorem State.setTc_leakAt (s : State) (n : Nat) (c : W64) : (s.setTc n c).leakAt = s.leakAt := rfl
@[simp] theorem State.setTc_evict (s : State) (n : Nat) (c : W64) : (s.setTc n c).evict = s.evict := rfl
@[simp] theorem State.setTc_hazard (s : State) (n : Nat) (c : W64) : (s.setTc n c).hazard = s.hazard := rfl
@[simp] theorem State.setTc_root (s : State) (n : Nat) (c : W64) : (s.setTc n c).root = s.root := rfl
@[simp] theorem State.setTc_sent (s : State) (n : Nat) (c : W64) : (s.setTc n c).sent = s.sent := rfl

/-! ### setPort -/

@[simp] theorem State.setPort_agenda (s : State) (n : Nat) (c : Port) : (s.setPort n c).agenda = s.agenda := rfl
@[simp] theorem State.setPort_free (s : State) (n : Nat) (c : Port) : (s.setPort n c).free = s.free := rfl
@[simp] theorem State.setPort_cur (s : State) (n : Nat) (c : Port) : (s.setPort n c).cur = s.cur := rfl
@[simp] theorem State.setPort_curSlot (s : State) (n : Nat) (c : Port) : (s.setPort n c).curSlot = s.curSlot := rfl
@[simp] theorem State.setPort_curNp (s : State) (n : Nat) (c : Port) : (s.setPort n c).curNp = s.curNp := rfl
@[simp] theorem State.setPort_curAddr (s : State) (n : Nat) (c : Port) : (s.setPort n c).curAddr = s.curAddr := rfl
@[simp] theorem State.setPort_pos (s : State) (n : Nat) (c : Port) : (s.setPort n c).pos = s.pos := rfl
@[simp] theorem State.setPort_asked (s : State) (n : Nat) (c : Port) : (s.setPort n c).asked = s.asked := rfl
@[simp] theorem State.setPort_due (s : State) (n : Nat) (c : Port) : (s.setPort n c).due = s.due := rfl
@[simp] theorem State.setPort_clock (s : State) (n : Nat) (c : Port) : (s.setPort n c).clock = s.clock := rfl
@[simp] theorem State.setPort_cores (s : State) (n : Nat) (c : Port) : (s.setPort n c).cores = s.cores := rfl
@[simp] theorem State.setPort_clusters (s : State) (n : Nat) (c : Port) : (s.setPort n c).clusters = s.clusters := rfl
@[simp] theorem State.setPort_hearths (s : State) (n : Nat) (c : Port) : (s.setPort n c).hearths = s.hearths := rfl
@[simp] theorem State.setPort_parts (s : State) (n : Nat) (c : Port) : (s.setPort n c).parts = s.parts := rfl
@[simp] theorem State.setPort_mem (s : State) (n : Nat) (c : Port) : (s.setPort n c).mem = s.mem := rfl
@[simp] theorem State.setPort_side (s : State) (n : Nat) (c : Port) : (s.setPort n c).side = s.side := rfl
@[simp] theorem State.setPort_bad (s : State) (n : Nat) (c : Port) : (s.setPort n c).bad = s.bad := rfl
@[simp] theorem State.setPort_ingest (s : State) (n : Nat) (c : Port) : (s.setPort n c).ingest = s.ingest := rfl
@[simp] theorem State.setPort_cstg (s : State) (n : Nat) (c : Port) : (s.setPort n c).cstg = s.cstg := rfl
@[simp] theorem State.setPort_disp (s : State) (n : Nat) (c : Port) : (s.setPort n c).disp = s.disp := rfl
@[simp] theorem State.setPort_qps (s : State) (n : Nat) (c : Port) : (s.setPort n c).qps = s.qps := rfl
@[simp] theorem State.setPort_tcs (s : State) (n : Nat) (c : Port) : (s.setPort n c).tcs = s.tcs := rfl
@[simp] theorem State.setPort_creels (s : State) (n : Nat) (c : Port) : (s.setPort n c).creels = s.creels := rfl
@[simp] theorem State.setPort_links (s : State) (n : Nat) (c : Port) : (s.setPort n c).links = s.links := rfl
@[simp] theorem State.setPort_ports (s : State) (n : Nat) (c : Port) : (s.setPort n c).ports = s.ports.set n c := rfl
@[simp] theorem State.setPort_islands (s : State) (n : Nat) (c : Port) : (s.setPort n c).islands = s.islands := rfl
@[simp] theorem State.setPort_buckets (s : State) (n : Nat) (c : Port) : (s.setPort n c).buckets = s.buckets := rfl
@[simp] theorem State.setPort_fills (s : State) (n : Nat) (c : Port) : (s.setPort n c).fills = s.fills := rfl
@[simp] theorem State.setPort_leakAt (s : State) (n : Nat) (c : Port) : (s.setPort n c).leakAt = s.leakAt := rfl
@[simp] theorem State.setPort_evict (s : State) (n : Nat) (c : Port) : (s.setPort n c).evict = s.evict := rfl
@[simp] theorem State.setPort_hazard (s : State) (n : Nat) (c : Port) : (s.setPort n c).hazard = s.hazard := rfl
@[simp] theorem State.setPort_root (s : State) (n : Nat) (c : Port) : (s.setPort n c).root = s.root := rfl
@[simp] theorem State.setPort_sent (s : State) (n : Nat) (c : Port) : (s.setPort n c).sent = s.sent := rfl

/-! ### setIsland -/

@[simp] theorem State.setIsland_agenda (s : State) (n : Nat) (c : Island) : (s.setIsland n c).agenda = s.agenda := rfl
@[simp] theorem State.setIsland_free (s : State) (n : Nat) (c : Island) : (s.setIsland n c).free = s.free := rfl
@[simp] theorem State.setIsland_cur (s : State) (n : Nat) (c : Island) : (s.setIsland n c).cur = s.cur := rfl
@[simp] theorem State.setIsland_curSlot (s : State) (n : Nat) (c : Island) : (s.setIsland n c).curSlot = s.curSlot := rfl
@[simp] theorem State.setIsland_curNp (s : State) (n : Nat) (c : Island) : (s.setIsland n c).curNp = s.curNp := rfl
@[simp] theorem State.setIsland_curAddr (s : State) (n : Nat) (c : Island) : (s.setIsland n c).curAddr = s.curAddr := rfl
@[simp] theorem State.setIsland_pos (s : State) (n : Nat) (c : Island) : (s.setIsland n c).pos = s.pos := rfl
@[simp] theorem State.setIsland_asked (s : State) (n : Nat) (c : Island) : (s.setIsland n c).asked = s.asked := rfl
@[simp] theorem State.setIsland_due (s : State) (n : Nat) (c : Island) : (s.setIsland n c).due = s.due := rfl
@[simp] theorem State.setIsland_clock (s : State) (n : Nat) (c : Island) : (s.setIsland n c).clock = s.clock := rfl
@[simp] theorem State.setIsland_cores (s : State) (n : Nat) (c : Island) : (s.setIsland n c).cores = s.cores := rfl
@[simp] theorem State.setIsland_clusters (s : State) (n : Nat) (c : Island) : (s.setIsland n c).clusters = s.clusters := rfl
@[simp] theorem State.setIsland_hearths (s : State) (n : Nat) (c : Island) : (s.setIsland n c).hearths = s.hearths := rfl
@[simp] theorem State.setIsland_parts (s : State) (n : Nat) (c : Island) : (s.setIsland n c).parts = s.parts := rfl
@[simp] theorem State.setIsland_mem (s : State) (n : Nat) (c : Island) : (s.setIsland n c).mem = s.mem := rfl
@[simp] theorem State.setIsland_side (s : State) (n : Nat) (c : Island) : (s.setIsland n c).side = s.side := rfl
@[simp] theorem State.setIsland_bad (s : State) (n : Nat) (c : Island) : (s.setIsland n c).bad = s.bad := rfl
@[simp] theorem State.setIsland_ingest (s : State) (n : Nat) (c : Island) : (s.setIsland n c).ingest = s.ingest := rfl
@[simp] theorem State.setIsland_cstg (s : State) (n : Nat) (c : Island) : (s.setIsland n c).cstg = s.cstg := rfl
@[simp] theorem State.setIsland_disp (s : State) (n : Nat) (c : Island) : (s.setIsland n c).disp = s.disp := rfl
@[simp] theorem State.setIsland_qps (s : State) (n : Nat) (c : Island) : (s.setIsland n c).qps = s.qps := rfl
@[simp] theorem State.setIsland_tcs (s : State) (n : Nat) (c : Island) : (s.setIsland n c).tcs = s.tcs := rfl
@[simp] theorem State.setIsland_creels (s : State) (n : Nat) (c : Island) : (s.setIsland n c).creels = s.creels := rfl
@[simp] theorem State.setIsland_links (s : State) (n : Nat) (c : Island) : (s.setIsland n c).links = s.links := rfl
@[simp] theorem State.setIsland_ports (s : State) (n : Nat) (c : Island) : (s.setIsland n c).ports = s.ports := rfl
@[simp] theorem State.setIsland_islands (s : State) (n : Nat) (c : Island) : (s.setIsland n c).islands = s.islands.set n c := rfl
@[simp] theorem State.setIsland_buckets (s : State) (n : Nat) (c : Island) : (s.setIsland n c).buckets = s.buckets := rfl
@[simp] theorem State.setIsland_fills (s : State) (n : Nat) (c : Island) : (s.setIsland n c).fills = s.fills := rfl
@[simp] theorem State.setIsland_leakAt (s : State) (n : Nat) (c : Island) : (s.setIsland n c).leakAt = s.leakAt := rfl
@[simp] theorem State.setIsland_evict (s : State) (n : Nat) (c : Island) : (s.setIsland n c).evict = s.evict := rfl
@[simp] theorem State.setIsland_hazard (s : State) (n : Nat) (c : Island) : (s.setIsland n c).hazard = s.hazard := rfl
@[simp] theorem State.setIsland_root (s : State) (n : Nat) (c : Island) : (s.setIsland n c).root = s.root := rfl
@[simp] theorem State.setIsland_sent (s : State) (n : Nat) (c : Island) : (s.setIsland n c).sent = s.sent := rfl

/-! ### setEntry -/

@[simp] theorem State.setEntry_agenda (s : State) (n : Nat) (c : Entry) : (s.setEntry n c).agenda = s.agenda := rfl
@[simp] theorem State.setEntry_free (s : State) (n : Nat) (c : Entry) : (s.setEntry n c).free = s.free := rfl
@[simp] theorem State.setEntry_cur (s : State) (n : Nat) (c : Entry) : (s.setEntry n c).cur = s.cur := rfl
@[simp] theorem State.setEntry_curSlot (s : State) (n : Nat) (c : Entry) : (s.setEntry n c).curSlot = s.curSlot := rfl
@[simp] theorem State.setEntry_curNp (s : State) (n : Nat) (c : Entry) : (s.setEntry n c).curNp = s.curNp := rfl
@[simp] theorem State.setEntry_curAddr (s : State) (n : Nat) (c : Entry) : (s.setEntry n c).curAddr = s.curAddr := rfl
@[simp] theorem State.setEntry_pos (s : State) (n : Nat) (c : Entry) : (s.setEntry n c).pos = s.pos := rfl
@[simp] theorem State.setEntry_asked (s : State) (n : Nat) (c : Entry) : (s.setEntry n c).asked = s.asked := rfl
@[simp] theorem State.setEntry_due (s : State) (n : Nat) (c : Entry) : (s.setEntry n c).due = s.due := rfl
@[simp] theorem State.setEntry_clock (s : State) (n : Nat) (c : Entry) : (s.setEntry n c).clock = s.clock := rfl
@[simp] theorem State.setEntry_cores (s : State) (n : Nat) (c : Entry) : (s.setEntry n c).cores = s.cores := rfl
@[simp] theorem State.setEntry_clusters (s : State) (n : Nat) (c : Entry) : (s.setEntry n c).clusters = s.clusters := rfl
@[simp] theorem State.setEntry_hearths (s : State) (n : Nat) (c : Entry) : (s.setEntry n c).hearths = s.hearths := rfl
@[simp] theorem State.setEntry_parts (s : State) (n : Nat) (c : Entry) : (s.setEntry n c).parts = s.parts := rfl
@[simp] theorem State.setEntry_mem (s : State) (n : Nat) (c : Entry) : (s.setEntry n c).mem = s.mem := rfl
@[simp] theorem State.setEntry_side (s : State) (n : Nat) (c : Entry) : (s.setEntry n c).side = s.side := rfl
@[simp] theorem State.setEntry_bad (s : State) (n : Nat) (c : Entry) : (s.setEntry n c).bad = s.bad := rfl
@[simp] theorem State.setEntry_ingest (s : State) (n : Nat) (c : Entry) : (s.setEntry n c).ingest = s.ingest := rfl
@[simp] theorem State.setEntry_cstg (s : State) (n : Nat) (c : Entry) : (s.setEntry n c).cstg = s.cstg := rfl
@[simp] theorem State.setEntry_qps (s : State) (n : Nat) (c : Entry) : (s.setEntry n c).qps = s.qps := rfl
@[simp] theorem State.setEntry_tcs (s : State) (n : Nat) (c : Entry) : (s.setEntry n c).tcs = s.tcs := rfl
@[simp] theorem State.setEntry_creels (s : State) (n : Nat) (c : Entry) : (s.setEntry n c).creels = s.creels := rfl
@[simp] theorem State.setEntry_links (s : State) (n : Nat) (c : Entry) : (s.setEntry n c).links = s.links := rfl
@[simp] theorem State.setEntry_ports (s : State) (n : Nat) (c : Entry) : (s.setEntry n c).ports = s.ports := rfl
@[simp] theorem State.setEntry_islands (s : State) (n : Nat) (c : Entry) : (s.setEntry n c).islands = s.islands := rfl
@[simp] theorem State.setEntry_buckets (s : State) (n : Nat) (c : Entry) : (s.setEntry n c).buckets = s.buckets := rfl
@[simp] theorem State.setEntry_fills (s : State) (n : Nat) (c : Entry) : (s.setEntry n c).fills = s.fills := rfl
@[simp] theorem State.setEntry_leakAt (s : State) (n : Nat) (c : Entry) : (s.setEntry n c).leakAt = s.leakAt := rfl
@[simp] theorem State.setEntry_evict (s : State) (n : Nat) (c : Entry) : (s.setEntry n c).evict = s.evict := rfl
@[simp] theorem State.setEntry_hazard (s : State) (n : Nat) (c : Entry) : (s.setEntry n c).hazard = s.hazard := rfl
@[simp] theorem State.setEntry_root (s : State) (n : Nat) (c : Entry) : (s.setEntry n c).root = s.root := rfl
@[simp] theorem State.setEntry_sent (s : State) (n : Nat) (c : Entry) : (s.setEntry n c).sent = s.sent := rfl

/-! ### setSide -/

@[simp] theorem State.setSide_agenda (s : State) (k : Nat) (v : W32) : (s.setSide k v).agenda = s.agenda := rfl
@[simp] theorem State.setSide_free (s : State) (k : Nat) (v : W32) : (s.setSide k v).free = s.free := rfl
@[simp] theorem State.setSide_cur (s : State) (k : Nat) (v : W32) : (s.setSide k v).cur = s.cur := rfl
@[simp] theorem State.setSide_curSlot (s : State) (k : Nat) (v : W32) : (s.setSide k v).curSlot = s.curSlot := rfl
@[simp] theorem State.setSide_curNp (s : State) (k : Nat) (v : W32) : (s.setSide k v).curNp = s.curNp := rfl
@[simp] theorem State.setSide_curAddr (s : State) (k : Nat) (v : W32) : (s.setSide k v).curAddr = s.curAddr := rfl
@[simp] theorem State.setSide_pos (s : State) (k : Nat) (v : W32) : (s.setSide k v).pos = s.pos := rfl
@[simp] theorem State.setSide_asked (s : State) (k : Nat) (v : W32) : (s.setSide k v).asked = s.asked := rfl
@[simp] theorem State.setSide_due (s : State) (k : Nat) (v : W32) : (s.setSide k v).due = s.due := rfl
@[simp] theorem State.setSide_clock (s : State) (k : Nat) (v : W32) : (s.setSide k v).clock = s.clock := rfl
@[simp] theorem State.setSide_cores (s : State) (k : Nat) (v : W32) : (s.setSide k v).cores = s.cores := rfl
@[simp] theorem State.setSide_clusters (s : State) (k : Nat) (v : W32) : (s.setSide k v).clusters = s.clusters := rfl
@[simp] theorem State.setSide_hearths (s : State) (k : Nat) (v : W32) : (s.setSide k v).hearths = s.hearths := rfl
@[simp] theorem State.setSide_parts (s : State) (k : Nat) (v : W32) : (s.setSide k v).parts = s.parts := rfl
@[simp] theorem State.setSide_mem (s : State) (k : Nat) (v : W32) : (s.setSide k v).mem = s.mem := rfl
@[simp] theorem State.setSide_bad (s : State) (k : Nat) (v : W32) : (s.setSide k v).bad = s.bad := rfl
@[simp] theorem State.setSide_ingest (s : State) (k : Nat) (v : W32) : (s.setSide k v).ingest = s.ingest := rfl
@[simp] theorem State.setSide_cstg (s : State) (k : Nat) (v : W32) : (s.setSide k v).cstg = s.cstg := rfl
@[simp] theorem State.setSide_disp (s : State) (k : Nat) (v : W32) : (s.setSide k v).disp = s.disp := rfl
@[simp] theorem State.setSide_qps (s : State) (k : Nat) (v : W32) : (s.setSide k v).qps = s.qps := rfl
@[simp] theorem State.setSide_tcs (s : State) (k : Nat) (v : W32) : (s.setSide k v).tcs = s.tcs := rfl
@[simp] theorem State.setSide_creels (s : State) (k : Nat) (v : W32) : (s.setSide k v).creels = s.creels := rfl
@[simp] theorem State.setSide_links (s : State) (k : Nat) (v : W32) : (s.setSide k v).links = s.links := rfl
@[simp] theorem State.setSide_ports (s : State) (k : Nat) (v : W32) : (s.setSide k v).ports = s.ports := rfl
@[simp] theorem State.setSide_islands (s : State) (k : Nat) (v : W32) : (s.setSide k v).islands = s.islands := rfl
@[simp] theorem State.setSide_buckets (s : State) (k : Nat) (v : W32) : (s.setSide k v).buckets = s.buckets := rfl
@[simp] theorem State.setSide_fills (s : State) (k : Nat) (v : W32) : (s.setSide k v).fills = s.fills := rfl
@[simp] theorem State.setSide_leakAt (s : State) (k : Nat) (v : W32) : (s.setSide k v).leakAt = s.leakAt := rfl
@[simp] theorem State.setSide_evict (s : State) (k : Nat) (v : W32) : (s.setSide k v).evict = s.evict := rfl
@[simp] theorem State.setSide_hazard (s : State) (k : Nat) (v : W32) : (s.setSide k v).hazard = s.hazard := rfl
@[simp] theorem State.setSide_root (s : State) (k : Nat) (v : W32) : (s.setSide k v).root = s.root := rfl
@[simp] theorem State.setSide_sent (s : State) (k : Nat) (v : W32) : (s.setSide k v).sent = s.sent := rfl

/-! ### mend -/

@[simp] theorem State.mend_agenda (s : State) (k : Nat) : (s.mend k).agenda = s.agenda := rfl
@[simp] theorem State.mend_free (s : State) (k : Nat) : (s.mend k).free = s.free := rfl
@[simp] theorem State.mend_cur (s : State) (k : Nat) : (s.mend k).cur = s.cur := rfl
@[simp] theorem State.mend_curSlot (s : State) (k : Nat) : (s.mend k).curSlot = s.curSlot := rfl
@[simp] theorem State.mend_curNp (s : State) (k : Nat) : (s.mend k).curNp = s.curNp := rfl
@[simp] theorem State.mend_curAddr (s : State) (k : Nat) : (s.mend k).curAddr = s.curAddr := rfl
@[simp] theorem State.mend_pos (s : State) (k : Nat) : (s.mend k).pos = s.pos := rfl
@[simp] theorem State.mend_asked (s : State) (k : Nat) : (s.mend k).asked = s.asked := rfl
@[simp] theorem State.mend_due (s : State) (k : Nat) : (s.mend k).due = s.due := rfl
@[simp] theorem State.mend_clock (s : State) (k : Nat) : (s.mend k).clock = s.clock := rfl
@[simp] theorem State.mend_cores (s : State) (k : Nat) : (s.mend k).cores = s.cores := rfl
@[simp] theorem State.mend_clusters (s : State) (k : Nat) : (s.mend k).clusters = s.clusters := rfl
@[simp] theorem State.mend_hearths (s : State) (k : Nat) : (s.mend k).hearths = s.hearths := rfl
@[simp] theorem State.mend_parts (s : State) (k : Nat) : (s.mend k).parts = s.parts := rfl
@[simp] theorem State.mend_mem (s : State) (k : Nat) : (s.mend k).mem = s.mem := rfl
@[simp] theorem State.mend_side (s : State) (k : Nat) : (s.mend k).side = s.side := rfl
@[simp] theorem State.mend_ingest (s : State) (k : Nat) : (s.mend k).ingest = s.ingest := rfl
@[simp] theorem State.mend_cstg (s : State) (k : Nat) : (s.mend k).cstg = s.cstg := rfl
@[simp] theorem State.mend_disp (s : State) (k : Nat) : (s.mend k).disp = s.disp := rfl
@[simp] theorem State.mend_qps (s : State) (k : Nat) : (s.mend k).qps = s.qps := rfl
@[simp] theorem State.mend_tcs (s : State) (k : Nat) : (s.mend k).tcs = s.tcs := rfl
@[simp] theorem State.mend_creels (s : State) (k : Nat) : (s.mend k).creels = s.creels := rfl
@[simp] theorem State.mend_links (s : State) (k : Nat) : (s.mend k).links = s.links := rfl
@[simp] theorem State.mend_ports (s : State) (k : Nat) : (s.mend k).ports = s.ports := rfl
@[simp] theorem State.mend_islands (s : State) (k : Nat) : (s.mend k).islands = s.islands := rfl
@[simp] theorem State.mend_buckets (s : State) (k : Nat) : (s.mend k).buckets = s.buckets := rfl
@[simp] theorem State.mend_fills (s : State) (k : Nat) : (s.mend k).fills = s.fills := rfl
@[simp] theorem State.mend_leakAt (s : State) (k : Nat) : (s.mend k).leakAt = s.leakAt := rfl
@[simp] theorem State.mend_evict (s : State) (k : Nat) : (s.mend k).evict = s.evict := rfl
@[simp] theorem State.mend_hazard (s : State) (k : Nat) : (s.mend k).hazard = s.hazard := rfl
@[simp] theorem State.mend_root (s : State) (k : Nat) : (s.mend k).root = s.root := rfl
@[simp] theorem State.mend_sent (s : State) (k : Nat) : (s.mend k).sent = s.sent := rfl

/-! ### marked -/

@[simp] theorem State.marked_agenda (s : State) (k : Nat) : (s.marked k).agenda = s.agenda := by
  unfold State.marked; split <;> rfl
@[simp] theorem State.marked_free (s : State) (k : Nat) : (s.marked k).free = s.free := by
  unfold State.marked; split <;> rfl
@[simp] theorem State.marked_cur (s : State) (k : Nat) : (s.marked k).cur = s.cur := by
  unfold State.marked; split <;> rfl
@[simp] theorem State.marked_curSlot (s : State) (k : Nat) : (s.marked k).curSlot = s.curSlot := by
  unfold State.marked; split <;> rfl
@[simp] theorem State.marked_curNp (s : State) (k : Nat) : (s.marked k).curNp = s.curNp := by
  unfold State.marked; split <;> rfl
@[simp] theorem State.marked_curAddr (s : State) (k : Nat) : (s.marked k).curAddr = s.curAddr := by
  unfold State.marked; split <;> rfl
@[simp] theorem State.marked_pos (s : State) (k : Nat) : (s.marked k).pos = s.pos := by
  unfold State.marked; split <;> rfl
@[simp] theorem State.marked_asked (s : State) (k : Nat) : (s.marked k).asked = s.asked := by
  unfold State.marked; split <;> rfl
@[simp] theorem State.marked_due (s : State) (k : Nat) : (s.marked k).due = s.due := by
  unfold State.marked; split <;> rfl
@[simp] theorem State.marked_clock (s : State) (k : Nat) : (s.marked k).clock = s.clock := by
  unfold State.marked; split <;> rfl
@[simp] theorem State.marked_cores (s : State) (k : Nat) : (s.marked k).cores = s.cores := by
  unfold State.marked; split <;> rfl
@[simp] theorem State.marked_clusters (s : State) (k : Nat) : (s.marked k).clusters = s.clusters := by
  unfold State.marked; split <;> rfl
@[simp] theorem State.marked_hearths (s : State) (k : Nat) : (s.marked k).hearths = s.hearths := by
  unfold State.marked; split <;> rfl
@[simp] theorem State.marked_parts (s : State) (k : Nat) : (s.marked k).parts = s.parts := by
  unfold State.marked; split <;> rfl
@[simp] theorem State.marked_mem (s : State) (k : Nat) : (s.marked k).mem = s.mem := by
  unfold State.marked; split <;> rfl
@[simp] theorem State.marked_side (s : State) (k : Nat) : (s.marked k).side = s.side := by
  unfold State.marked; split <;> rfl
@[simp] theorem State.marked_bad (s : State) (k : Nat) : (s.marked k).bad = s.bad := by
  unfold State.marked; split <;> rfl
@[simp] theorem State.marked_cstg (s : State) (k : Nat) : (s.marked k).cstg = s.cstg := by
  unfold State.marked; split <;> rfl
@[simp] theorem State.marked_disp (s : State) (k : Nat) : (s.marked k).disp = s.disp := by
  unfold State.marked; split <;> rfl
@[simp] theorem State.marked_qps (s : State) (k : Nat) : (s.marked k).qps = s.qps := by
  unfold State.marked; split <;> rfl
@[simp] theorem State.marked_tcs (s : State) (k : Nat) : (s.marked k).tcs = s.tcs := by
  unfold State.marked; split <;> rfl
@[simp] theorem State.marked_creels (s : State) (k : Nat) : (s.marked k).creels = s.creels := by
  unfold State.marked; split <;> rfl
@[simp] theorem State.marked_links (s : State) (k : Nat) : (s.marked k).links = s.links := by
  unfold State.marked; split <;> rfl
@[simp] theorem State.marked_ports (s : State) (k : Nat) : (s.marked k).ports = s.ports := by
  unfold State.marked; split <;> rfl
@[simp] theorem State.marked_islands (s : State) (k : Nat) : (s.marked k).islands = s.islands := by
  unfold State.marked; split <;> rfl
@[simp] theorem State.marked_buckets (s : State) (k : Nat) : (s.marked k).buckets = s.buckets := by
  unfold State.marked; split <;> rfl
@[simp] theorem State.marked_fills (s : State) (k : Nat) : (s.marked k).fills = s.fills := by
  unfold State.marked; split <;> rfl
@[simp] theorem State.marked_leakAt (s : State) (k : Nat) : (s.marked k).leakAt = s.leakAt := by
  unfold State.marked; split <;> rfl
@[simp] theorem State.marked_evict (s : State) (k : Nat) : (s.marked k).evict = s.evict := by
  unfold State.marked; split <;> rfl
@[simp] theorem State.marked_hazard (s : State) (k : Nat) : (s.marked k).hazard = s.hazard := by
  unfold State.marked; split <;> rfl
@[simp] theorem State.marked_root (s : State) (k : Nat) : (s.marked k).root = s.root := by
  unfold State.marked; split <;> rfl
@[simp] theorem State.marked_sent (s : State) (k : Nat) : (s.marked k).sent = s.sent := by
  unfold State.marked; split <;> rfl

/-! ### askIsland -/

@[simp] theorem State.askIsland_agenda (s : State) (i : Nat) : (s.askIsland i).agenda = s.agenda := by
  simp only [State.askIsland]; split <;> rfl
@[simp] theorem State.askIsland_free (s : State) (i : Nat) : (s.askIsland i).free = s.free := by
  simp only [State.askIsland]; split <;> rfl
@[simp] theorem State.askIsland_cur (s : State) (i : Nat) : (s.askIsland i).cur = s.cur := by
  simp only [State.askIsland]; split <;> rfl
@[simp] theorem State.askIsland_curSlot (s : State) (i : Nat) : (s.askIsland i).curSlot = s.curSlot := by
  simp only [State.askIsland]; split <;> rfl
@[simp] theorem State.askIsland_curNp (s : State) (i : Nat) : (s.askIsland i).curNp = s.curNp := by
  simp only [State.askIsland]; split <;> rfl
@[simp] theorem State.askIsland_curAddr (s : State) (i : Nat) : (s.askIsland i).curAddr = s.curAddr := by
  simp only [State.askIsland]; split <;> rfl
@[simp] theorem State.askIsland_pos (s : State) (i : Nat) : (s.askIsland i).pos = s.pos := by
  simp only [State.askIsland]; split <;> rfl
@[simp] theorem State.askIsland_asked (s : State) (i : Nat) : (s.askIsland i).asked = s.asked := by
  simp only [State.askIsland]; split <;> rfl
@[simp] theorem State.askIsland_due (s : State) (i : Nat) : (s.askIsland i).due = s.due := by
  simp only [State.askIsland]; split <;> rfl
@[simp] theorem State.askIsland_clock (s : State) (i : Nat) : (s.askIsland i).clock = s.clock := by
  simp only [State.askIsland]; split <;> rfl
@[simp] theorem State.askIsland_cores (s : State) (i : Nat) : (s.askIsland i).cores = s.cores := by
  simp only [State.askIsland]; split <;> rfl
@[simp] theorem State.askIsland_clusters (s : State) (i : Nat) : (s.askIsland i).clusters = s.clusters := by
  simp only [State.askIsland]; split <;> rfl
@[simp] theorem State.askIsland_hearths (s : State) (i : Nat) : (s.askIsland i).hearths = s.hearths := by
  simp only [State.askIsland]; split <;> rfl
@[simp] theorem State.askIsland_parts (s : State) (i : Nat) : (s.askIsland i).parts = s.parts := by
  simp only [State.askIsland]; split <;> rfl
@[simp] theorem State.askIsland_mem (s : State) (i : Nat) : (s.askIsland i).mem = s.mem := by
  simp only [State.askIsland]; split <;> rfl
@[simp] theorem State.askIsland_side (s : State) (i : Nat) : (s.askIsland i).side = s.side := by
  simp only [State.askIsland]; split <;> rfl
@[simp] theorem State.askIsland_bad (s : State) (i : Nat) : (s.askIsland i).bad = s.bad := by
  simp only [State.askIsland]; split <;> rfl
@[simp] theorem State.askIsland_ingest (s : State) (i : Nat) : (s.askIsland i).ingest = s.ingest := by
  simp only [State.askIsland]; split <;> rfl
@[simp] theorem State.askIsland_cstg (s : State) (i : Nat) : (s.askIsland i).cstg = s.cstg := by
  simp only [State.askIsland]; split <;> rfl
@[simp] theorem State.askIsland_disp (s : State) (i : Nat) : (s.askIsland i).disp = s.disp := by
  simp only [State.askIsland]; split <;> rfl
@[simp] theorem State.askIsland_qps (s : State) (i : Nat) : (s.askIsland i).qps = s.qps := by
  simp only [State.askIsland]; split <;> rfl
@[simp] theorem State.askIsland_tcs (s : State) (i : Nat) : (s.askIsland i).tcs = s.tcs := by
  simp only [State.askIsland]; split <;> rfl
@[simp] theorem State.askIsland_creels (s : State) (i : Nat) : (s.askIsland i).creels = s.creels := by
  simp only [State.askIsland]; split <;> rfl
@[simp] theorem State.askIsland_links (s : State) (i : Nat) : (s.askIsland i).links = s.links := by
  simp only [State.askIsland]; split <;> rfl
@[simp] theorem State.askIsland_ports (s : State) (i : Nat) : (s.askIsland i).ports = s.ports := by
  simp only [State.askIsland]; split <;> rfl
@[simp] theorem State.askIsland_buckets (s : State) (i : Nat) : (s.askIsland i).buckets = s.buckets := by
  simp only [State.askIsland]; split <;> rfl
@[simp] theorem State.askIsland_fills (s : State) (i : Nat) : (s.askIsland i).fills = s.fills := by
  simp only [State.askIsland]; split <;> rfl
@[simp] theorem State.askIsland_leakAt (s : State) (i : Nat) : (s.askIsland i).leakAt = s.leakAt := by
  simp only [State.askIsland]; split <;> rfl
@[simp] theorem State.askIsland_evict (s : State) (i : Nat) : (s.askIsland i).evict = s.evict := by
  simp only [State.askIsland]; split <;> rfl
@[simp] theorem State.askIsland_hazard (s : State) (i : Nat) : (s.askIsland i).hazard = s.hazard := by
  simp only [State.askIsland]; split <;> rfl
@[simp] theorem State.askIsland_root (s : State) (i : Nat) : (s.askIsland i).root = s.root := by
  simp only [State.askIsland]; split <;> rfl
@[simp] theorem State.askIsland_sent (s : State) (i : Nat) : (s.askIsland i).sent = s.sent := by
  simp only [State.askIsland]; split <;> rfl

/-! ### wakeKey -/

@[simp] theorem State.wakeKey_agenda (s : State) (k : Nat) : (s.wakeKey k).agenda = s.agenda := State.askIsland_agenda ..
@[simp] theorem State.wakeKey_free (s : State) (k : Nat) : (s.wakeKey k).free = s.free := State.askIsland_free ..
@[simp] theorem State.wakeKey_cur (s : State) (k : Nat) : (s.wakeKey k).cur = s.cur := State.askIsland_cur ..
@[simp] theorem State.wakeKey_curSlot (s : State) (k : Nat) : (s.wakeKey k).curSlot = s.curSlot := State.askIsland_curSlot ..
@[simp] theorem State.wakeKey_curNp (s : State) (k : Nat) : (s.wakeKey k).curNp = s.curNp := State.askIsland_curNp ..
@[simp] theorem State.wakeKey_curAddr (s : State) (k : Nat) : (s.wakeKey k).curAddr = s.curAddr := State.askIsland_curAddr ..
@[simp] theorem State.wakeKey_pos (s : State) (k : Nat) : (s.wakeKey k).pos = s.pos := State.askIsland_pos ..
@[simp] theorem State.wakeKey_asked (s : State) (k : Nat) : (s.wakeKey k).asked = s.asked := State.askIsland_asked ..
@[simp] theorem State.wakeKey_due (s : State) (k : Nat) : (s.wakeKey k).due = s.due := State.askIsland_due ..
@[simp] theorem State.wakeKey_clock (s : State) (k : Nat) : (s.wakeKey k).clock = s.clock := State.askIsland_clock ..
@[simp] theorem State.wakeKey_cores (s : State) (k : Nat) : (s.wakeKey k).cores = s.cores := State.askIsland_cores ..
@[simp] theorem State.wakeKey_clusters (s : State) (k : Nat) : (s.wakeKey k).clusters = s.clusters := State.askIsland_clusters ..
@[simp] theorem State.wakeKey_hearths (s : State) (k : Nat) : (s.wakeKey k).hearths = s.hearths := State.askIsland_hearths ..
@[simp] theorem State.wakeKey_parts (s : State) (k : Nat) : (s.wakeKey k).parts = s.parts := State.askIsland_parts ..
@[simp] theorem State.wakeKey_mem (s : State) (k : Nat) : (s.wakeKey k).mem = s.mem := State.askIsland_mem ..
@[simp] theorem State.wakeKey_side (s : State) (k : Nat) : (s.wakeKey k).side = s.side := State.askIsland_side ..
@[simp] theorem State.wakeKey_bad (s : State) (k : Nat) : (s.wakeKey k).bad = s.bad := State.askIsland_bad ..
@[simp] theorem State.wakeKey_ingest (s : State) (k : Nat) : (s.wakeKey k).ingest = s.ingest := State.askIsland_ingest ..
@[simp] theorem State.wakeKey_cstg (s : State) (k : Nat) : (s.wakeKey k).cstg = s.cstg := State.askIsland_cstg ..
@[simp] theorem State.wakeKey_disp (s : State) (k : Nat) : (s.wakeKey k).disp = s.disp := State.askIsland_disp ..
@[simp] theorem State.wakeKey_qps (s : State) (k : Nat) : (s.wakeKey k).qps = s.qps := State.askIsland_qps ..
@[simp] theorem State.wakeKey_tcs (s : State) (k : Nat) : (s.wakeKey k).tcs = s.tcs := State.askIsland_tcs ..
@[simp] theorem State.wakeKey_creels (s : State) (k : Nat) : (s.wakeKey k).creels = s.creels := State.askIsland_creels ..
@[simp] theorem State.wakeKey_links (s : State) (k : Nat) : (s.wakeKey k).links = s.links := State.askIsland_links ..
@[simp] theorem State.wakeKey_ports (s : State) (k : Nat) : (s.wakeKey k).ports = s.ports := State.askIsland_ports ..
@[simp] theorem State.wakeKey_buckets (s : State) (k : Nat) : (s.wakeKey k).buckets = s.buckets := State.askIsland_buckets ..
@[simp] theorem State.wakeKey_fills (s : State) (k : Nat) : (s.wakeKey k).fills = s.fills := State.askIsland_fills ..
@[simp] theorem State.wakeKey_leakAt (s : State) (k : Nat) : (s.wakeKey k).leakAt = s.leakAt := State.askIsland_leakAt ..
@[simp] theorem State.wakeKey_evict (s : State) (k : Nat) : (s.wakeKey k).evict = s.evict := State.askIsland_evict ..
@[simp] theorem State.wakeKey_hazard (s : State) (k : Nat) : (s.wakeKey k).hazard = s.hazard := State.askIsland_hazard ..
@[simp] theorem State.wakeKey_root (s : State) (k : Nat) : (s.wakeKey k).root = s.root := State.askIsland_root ..
@[simp] theorem State.wakeKey_sent (s : State) (k : Nat) : (s.wakeKey k).sent = s.sent := State.askIsland_sent ..

/-! ### postTo -/

@[simp] theorem State.postTo_agenda (s : State) (p c : Nat) (r : Record) : (s.postTo p c r).agenda = s.agenda := rfl
@[simp] theorem State.postTo_free (s : State) (p c : Nat) (r : Record) : (s.postTo p c r).free = s.free := rfl
@[simp] theorem State.postTo_cur (s : State) (p c : Nat) (r : Record) : (s.postTo p c r).cur = s.cur := rfl
@[simp] theorem State.postTo_curSlot (s : State) (p c : Nat) (r : Record) : (s.postTo p c r).curSlot = s.curSlot := rfl
@[simp] theorem State.postTo_curNp (s : State) (p c : Nat) (r : Record) : (s.postTo p c r).curNp = s.curNp := rfl
@[simp] theorem State.postTo_curAddr (s : State) (p c : Nat) (r : Record) : (s.postTo p c r).curAddr = s.curAddr := rfl
@[simp] theorem State.postTo_pos (s : State) (p c : Nat) (r : Record) : (s.postTo p c r).pos = s.pos := rfl
@[simp] theorem State.postTo_asked (s : State) (p c : Nat) (r : Record) : (s.postTo p c r).asked = s.asked := rfl
@[simp] theorem State.postTo_due (s : State) (p c : Nat) (r : Record) : (s.postTo p c r).due = s.due ++ [{ part := p, cluster := c, record := r }] := rfl
@[simp] theorem State.postTo_clock (s : State) (p c : Nat) (r : Record) : (s.postTo p c r).clock = s.clock := rfl
@[simp] theorem State.postTo_cores (s : State) (p c : Nat) (r : Record) : (s.postTo p c r).cores = s.cores := rfl
@[simp] theorem State.postTo_clusters (s : State) (p c : Nat) (r : Record) : (s.postTo p c r).clusters = s.clusters := rfl
@[simp] theorem State.postTo_hearths (s : State) (p c : Nat) (r : Record) : (s.postTo p c r).hearths = s.hearths := rfl
@[simp] theorem State.postTo_parts (s : State) (p c : Nat) (r : Record) : (s.postTo p c r).parts = s.parts := rfl
@[simp] theorem State.postTo_mem (s : State) (p c : Nat) (r : Record) : (s.postTo p c r).mem = s.mem := rfl
@[simp] theorem State.postTo_side (s : State) (p c : Nat) (r : Record) : (s.postTo p c r).side = s.side := rfl
@[simp] theorem State.postTo_bad (s : State) (p c : Nat) (r : Record) : (s.postTo p c r).bad = s.bad := rfl
@[simp] theorem State.postTo_ingest (s : State) (p c : Nat) (r : Record) : (s.postTo p c r).ingest = s.ingest := rfl
@[simp] theorem State.postTo_cstg (s : State) (p c : Nat) (r : Record) : (s.postTo p c r).cstg = s.cstg := rfl
@[simp] theorem State.postTo_disp (s : State) (p c : Nat) (r : Record) : (s.postTo p c r).disp = s.disp := rfl
@[simp] theorem State.postTo_qps (s : State) (p c : Nat) (r : Record) : (s.postTo p c r).qps = s.qps := rfl
@[simp] theorem State.postTo_tcs (s : State) (p c : Nat) (r : Record) : (s.postTo p c r).tcs = s.tcs := rfl
@[simp] theorem State.postTo_creels (s : State) (p c : Nat) (r : Record) : (s.postTo p c r).creels = s.creels := rfl
@[simp] theorem State.postTo_links (s : State) (p c : Nat) (r : Record) : (s.postTo p c r).links = s.links := rfl
@[simp] theorem State.postTo_ports (s : State) (p c : Nat) (r : Record) : (s.postTo p c r).ports = s.ports := rfl
@[simp] theorem State.postTo_islands (s : State) (p c : Nat) (r : Record) : (s.postTo p c r).islands = s.islands := rfl
@[simp] theorem State.postTo_buckets (s : State) (p c : Nat) (r : Record) : (s.postTo p c r).buckets = s.buckets := rfl
@[simp] theorem State.postTo_fills (s : State) (p c : Nat) (r : Record) : (s.postTo p c r).fills = s.fills := rfl
@[simp] theorem State.postTo_leakAt (s : State) (p c : Nat) (r : Record) : (s.postTo p c r).leakAt = s.leakAt := rfl
@[simp] theorem State.postTo_evict (s : State) (p c : Nat) (r : Record) : (s.postTo p c r).evict = s.evict := rfl
@[simp] theorem State.postTo_hazard (s : State) (p c : Nat) (r : Record) : (s.postTo p c r).hazard = s.hazard := rfl
@[simp] theorem State.postTo_root (s : State) (p c : Nat) (r : Record) : (s.postTo p c r).root = s.root := rfl
@[simp] theorem State.postTo_sent (s : State) (p c : Nat) (r : Record) : (s.postTo p c r).sent = s.sent := rfl

/-! ### fill -/

@[simp] theorem State.fill_agenda (s : State) (b : Bucket) (k : Mishap) : (s.fill b k).agenda = s.agenda := rfl
@[simp] theorem State.fill_free (s : State) (b : Bucket) (k : Mishap) : (s.fill b k).free = s.free := rfl
@[simp] theorem State.fill_cur (s : State) (b : Bucket) (k : Mishap) : (s.fill b k).cur = s.cur := rfl
@[simp] theorem State.fill_curSlot (s : State) (b : Bucket) (k : Mishap) : (s.fill b k).curSlot = s.curSlot := rfl
@[simp] theorem State.fill_curNp (s : State) (b : Bucket) (k : Mishap) : (s.fill b k).curNp = s.curNp := rfl
@[simp] theorem State.fill_curAddr (s : State) (b : Bucket) (k : Mishap) : (s.fill b k).curAddr = s.curAddr := rfl
@[simp] theorem State.fill_pos (s : State) (b : Bucket) (k : Mishap) : (s.fill b k).pos = s.pos := rfl
@[simp] theorem State.fill_asked (s : State) (b : Bucket) (k : Mishap) : (s.fill b k).asked = s.asked := rfl
@[simp] theorem State.fill_due (s : State) (b : Bucket) (k : Mishap) : (s.fill b k).due = s.due := rfl
@[simp] theorem State.fill_clock (s : State) (b : Bucket) (k : Mishap) : (s.fill b k).clock = s.clock := rfl
@[simp] theorem State.fill_cores (s : State) (b : Bucket) (k : Mishap) : (s.fill b k).cores = s.cores := rfl
@[simp] theorem State.fill_clusters (s : State) (b : Bucket) (k : Mishap) : (s.fill b k).clusters = s.clusters := rfl
@[simp] theorem State.fill_hearths (s : State) (b : Bucket) (k : Mishap) : (s.fill b k).hearths = s.hearths := rfl
@[simp] theorem State.fill_parts (s : State) (b : Bucket) (k : Mishap) : (s.fill b k).parts = s.parts := rfl
@[simp] theorem State.fill_mem (s : State) (b : Bucket) (k : Mishap) : (s.fill b k).mem = s.mem := rfl
@[simp] theorem State.fill_side (s : State) (b : Bucket) (k : Mishap) : (s.fill b k).side = s.side := rfl
@[simp] theorem State.fill_bad (s : State) (b : Bucket) (k : Mishap) : (s.fill b k).bad = s.bad := rfl
@[simp] theorem State.fill_ingest (s : State) (b : Bucket) (k : Mishap) : (s.fill b k).ingest = s.ingest := rfl
@[simp] theorem State.fill_cstg (s : State) (b : Bucket) (k : Mishap) : (s.fill b k).cstg = s.cstg := rfl
@[simp] theorem State.fill_disp (s : State) (b : Bucket) (k : Mishap) : (s.fill b k).disp = s.disp := rfl
@[simp] theorem State.fill_qps (s : State) (b : Bucket) (k : Mishap) : (s.fill b k).qps = s.qps := rfl
@[simp] theorem State.fill_tcs (s : State) (b : Bucket) (k : Mishap) : (s.fill b k).tcs = s.tcs := rfl
@[simp] theorem State.fill_creels (s : State) (b : Bucket) (k : Mishap) : (s.fill b k).creels = s.creels := rfl
@[simp] theorem State.fill_links (s : State) (b : Bucket) (k : Mishap) : (s.fill b k).links = s.links := rfl
@[simp] theorem State.fill_ports (s : State) (b : Bucket) (k : Mishap) : (s.fill b k).ports = s.ports := rfl
@[simp] theorem State.fill_islands (s : State) (b : Bucket) (k : Mishap) : (s.fill b k).islands = s.islands := rfl
@[simp] theorem State.fill_buckets (s : State) (b : Bucket) (k : Mishap) : (s.fill b k).buckets = s.buckets := rfl
@[simp] theorem State.fill_fills (s : State) (b : Bucket) (k : Mishap) : (s.fill b k).fills = addFill b (s.fillOf b k) s.fills := rfl
@[simp] theorem State.fill_leakAt (s : State) (b : Bucket) (k : Mishap) : (s.fill b k).leakAt = s.leakAt := rfl
@[simp] theorem State.fill_evict (s : State) (b : Bucket) (k : Mishap) : (s.fill b k).evict = s.evict := rfl
@[simp] theorem State.fill_hazard (s : State) (b : Bucket) (k : Mishap) : (s.fill b k).hazard = s.hazard := rfl
@[simp] theorem State.fill_root (s : State) (b : Bucket) (k : Mishap) : (s.fill b k).root = s.root := rfl
@[simp] theorem State.fill_sent (s : State) (b : Bucket) (k : Mishap) : (s.fill b k).sent = s.sent := rfl

/-! ### onRoot -/

@[simp] theorem State.onRoot_agenda (s : State) (f : Root → Root) : (s.onRoot f).agenda = s.agenda := rfl
@[simp] theorem State.onRoot_free (s : State) (f : Root → Root) : (s.onRoot f).free = s.free := rfl
@[simp] theorem State.onRoot_cur (s : State) (f : Root → Root) : (s.onRoot f).cur = s.cur := rfl
@[simp] theorem State.onRoot_curSlot (s : State) (f : Root → Root) : (s.onRoot f).curSlot = s.curSlot := rfl
@[simp] theorem State.onRoot_curNp (s : State) (f : Root → Root) : (s.onRoot f).curNp = s.curNp := rfl
@[simp] theorem State.onRoot_curAddr (s : State) (f : Root → Root) : (s.onRoot f).curAddr = s.curAddr := rfl
@[simp] theorem State.onRoot_pos (s : State) (f : Root → Root) : (s.onRoot f).pos = s.pos := rfl
@[simp] theorem State.onRoot_asked (s : State) (f : Root → Root) : (s.onRoot f).asked = s.asked := rfl
@[simp] theorem State.onRoot_due (s : State) (f : Root → Root) : (s.onRoot f).due = s.due := rfl
@[simp] theorem State.onRoot_clock (s : State) (f : Root → Root) : (s.onRoot f).clock = s.clock := rfl
@[simp] theorem State.onRoot_cores (s : State) (f : Root → Root) : (s.onRoot f).cores = s.cores := rfl
@[simp] theorem State.onRoot_clusters (s : State) (f : Root → Root) : (s.onRoot f).clusters = s.clusters := rfl
@[simp] theorem State.onRoot_hearths (s : State) (f : Root → Root) : (s.onRoot f).hearths = s.hearths := rfl
@[simp] theorem State.onRoot_parts (s : State) (f : Root → Root) : (s.onRoot f).parts = s.parts := rfl
@[simp] theorem State.onRoot_mem (s : State) (f : Root → Root) : (s.onRoot f).mem = s.mem := rfl
@[simp] theorem State.onRoot_side (s : State) (f : Root → Root) : (s.onRoot f).side = s.side := rfl
@[simp] theorem State.onRoot_bad (s : State) (f : Root → Root) : (s.onRoot f).bad = s.bad := rfl
@[simp] theorem State.onRoot_ingest (s : State) (f : Root → Root) : (s.onRoot f).ingest = s.ingest := rfl
@[simp] theorem State.onRoot_cstg (s : State) (f : Root → Root) : (s.onRoot f).cstg = s.cstg := rfl
@[simp] theorem State.onRoot_disp (s : State) (f : Root → Root) : (s.onRoot f).disp = s.disp := rfl
@[simp] theorem State.onRoot_qps (s : State) (f : Root → Root) : (s.onRoot f).qps = s.qps := rfl
@[simp] theorem State.onRoot_tcs (s : State) (f : Root → Root) : (s.onRoot f).tcs = s.tcs := rfl
@[simp] theorem State.onRoot_creels (s : State) (f : Root → Root) : (s.onRoot f).creels = s.creels := rfl
@[simp] theorem State.onRoot_links (s : State) (f : Root → Root) : (s.onRoot f).links = s.links := rfl
@[simp] theorem State.onRoot_ports (s : State) (f : Root → Root) : (s.onRoot f).ports = s.ports := rfl
@[simp] theorem State.onRoot_islands (s : State) (f : Root → Root) : (s.onRoot f).islands = s.islands := rfl
@[simp] theorem State.onRoot_buckets (s : State) (f : Root → Root) : (s.onRoot f).buckets = s.buckets := rfl
@[simp] theorem State.onRoot_fills (s : State) (f : Root → Root) : (s.onRoot f).fills = s.fills := rfl
@[simp] theorem State.onRoot_leakAt (s : State) (f : Root → Root) : (s.onRoot f).leakAt = s.leakAt := rfl
@[simp] theorem State.onRoot_evict (s : State) (f : Root → Root) : (s.onRoot f).evict = s.evict := rfl
@[simp] theorem State.onRoot_hazard (s : State) (f : Root → Root) : (s.onRoot f).hazard = s.hazard := rfl
@[simp] theorem State.onRoot_root (s : State) (f : Root → Root) : (s.onRoot f).root = f s.root := rfl
@[simp] theorem State.onRoot_sent (s : State) (f : Root → Root) : (s.onRoot f).sent = s.sent := rfl

/-! ### send -/

@[simp] theorem State.send_agenda (s : State) (m : Sent) : (s.send m).agenda = s.agenda := rfl
@[simp] theorem State.send_free (s : State) (m : Sent) : (s.send m).free = s.free := rfl
@[simp] theorem State.send_cur (s : State) (m : Sent) : (s.send m).cur = s.cur := rfl
@[simp] theorem State.send_curSlot (s : State) (m : Sent) : (s.send m).curSlot = s.curSlot := rfl
@[simp] theorem State.send_curNp (s : State) (m : Sent) : (s.send m).curNp = s.curNp := rfl
@[simp] theorem State.send_curAddr (s : State) (m : Sent) : (s.send m).curAddr = s.curAddr := rfl
@[simp] theorem State.send_pos (s : State) (m : Sent) : (s.send m).pos = s.pos := rfl
@[simp] theorem State.send_asked (s : State) (m : Sent) : (s.send m).asked = s.asked := rfl
@[simp] theorem State.send_due (s : State) (m : Sent) : (s.send m).due = s.due := rfl
@[simp] theorem State.send_clock (s : State) (m : Sent) : (s.send m).clock = s.clock := rfl
@[simp] theorem State.send_cores (s : State) (m : Sent) : (s.send m).cores = s.cores := rfl
@[simp] theorem State.send_clusters (s : State) (m : Sent) : (s.send m).clusters = s.clusters := rfl
@[simp] theorem State.send_hearths (s : State) (m : Sent) : (s.send m).hearths = s.hearths := rfl
@[simp] theorem State.send_parts (s : State) (m : Sent) : (s.send m).parts = s.parts := rfl
@[simp] theorem State.send_mem (s : State) (m : Sent) : (s.send m).mem = s.mem := rfl
@[simp] theorem State.send_side (s : State) (m : Sent) : (s.send m).side = s.side := rfl
@[simp] theorem State.send_bad (s : State) (m : Sent) : (s.send m).bad = s.bad := rfl
@[simp] theorem State.send_ingest (s : State) (m : Sent) : (s.send m).ingest = s.ingest := rfl
@[simp] theorem State.send_cstg (s : State) (m : Sent) : (s.send m).cstg = s.cstg := rfl
@[simp] theorem State.send_disp (s : State) (m : Sent) : (s.send m).disp = s.disp := rfl
@[simp] theorem State.send_qps (s : State) (m : Sent) : (s.send m).qps = s.qps := rfl
@[simp] theorem State.send_tcs (s : State) (m : Sent) : (s.send m).tcs = s.tcs := rfl
@[simp] theorem State.send_creels (s : State) (m : Sent) : (s.send m).creels = s.creels := rfl
@[simp] theorem State.send_links (s : State) (m : Sent) : (s.send m).links = s.links := rfl
@[simp] theorem State.send_ports (s : State) (m : Sent) : (s.send m).ports = s.ports := rfl
@[simp] theorem State.send_islands (s : State) (m : Sent) : (s.send m).islands = s.islands := rfl
@[simp] theorem State.send_buckets (s : State) (m : Sent) : (s.send m).buckets = s.buckets := rfl
@[simp] theorem State.send_fills (s : State) (m : Sent) : (s.send m).fills = s.fills := rfl
@[simp] theorem State.send_leakAt (s : State) (m : Sent) : (s.send m).leakAt = s.leakAt := rfl
@[simp] theorem State.send_evict (s : State) (m : Sent) : (s.send m).evict = s.evict := rfl
@[simp] theorem State.send_hazard (s : State) (m : Sent) : (s.send m).hazard = s.hazard := rfl
@[simp] theorem State.send_root (s : State) (m : Sent) : (s.send m).root = s.root := rfl
@[simp] theorem State.send_sent (s : State) (m : Sent) : (s.send m).sent = s.sent ++ [m] := rfl

/-! ### Units read back -/

@[simp] theorem State.core_setCore (s : State) (n m : Nat) (x : Core) :
    (s.setCore n x).core m = if m = n then x else s.core m := Map.getD_set ..
@[simp] theorem State.cluster_setCluster (s : State) (n m : Nat) (x : Cluster) :
    (s.setCluster n x).cluster m = if m = n then x else s.cluster m := Map.getD_set ..
@[simp] theorem State.hearth_setHearth (s : State) (n m : Nat) (x : Hearth) :
    (s.setHearth n x).hearth m = if m = n then x else s.hearth m := Map.getD_set ..
@[simp] theorem State.part_setPart (s : State) (n m : Nat) (x : Part) :
    (s.setPart n x).part m = if m = n then x else s.part m := Map.getD_set ..
@[simp] theorem State.qp_setQp (s : State) (n m : Nat) (x : Qp) :
    (s.setQp n x).qp m = if m = n then x else s.qp m := Map.getD_set ..
@[simp] theorem State.tc_setTc (s : State) (n m : Nat) (x : W64) :
    (s.setTc n x).tc m = if m = n then x else s.tc m := Map.getD_set ..
@[simp] theorem State.port_setPort (s : State) (n m : Nat) (x : Port) :
    (s.setPort n x).port m = if m = n then x else s.port m := Map.getD_set ..
@[simp] theorem State.island_setIsland (s : State) (n m : Nat) (x : Island) :
    (s.setIsland n x).island m = if m = n then x else s.island m := Map.getD_set ..
@[simp] theorem State.core_setCluster (s : State) (n m : Nat) (x : Cluster) : (s.setCluster n x).core m = s.core m := rfl
@[simp] theorem State.core_setHearth (s : State) (n m : Nat) (x : Hearth) : (s.setHearth n x).core m = s.core m := rfl
@[simp] theorem State.core_setPart (s : State) (n m : Nat) (x : Part) : (s.setPart n x).core m = s.core m := rfl
@[simp] theorem State.core_setQp (s : State) (n m : Nat) (x : Qp) : (s.setQp n x).core m = s.core m := rfl
@[simp] theorem State.core_setTc (s : State) (n m : Nat) (x : W64) : (s.setTc n x).core m = s.core m := rfl
@[simp] theorem State.core_setPort (s : State) (n m : Nat) (x : Port) : (s.setPort n x).core m = s.core m := rfl
@[simp] theorem State.core_setIsland (s : State) (n m : Nat) (x : Island) : (s.setIsland n x).core m = s.core m := rfl
@[simp] theorem State.cluster_setCore (s : State) (n m : Nat) (x : Core) : (s.setCore n x).cluster m = s.cluster m := rfl
@[simp] theorem State.cluster_setHearth (s : State) (n m : Nat) (x : Hearth) : (s.setHearth n x).cluster m = s.cluster m := rfl
@[simp] theorem State.cluster_setPart (s : State) (n m : Nat) (x : Part) : (s.setPart n x).cluster m = s.cluster m := rfl
@[simp] theorem State.cluster_setQp (s : State) (n m : Nat) (x : Qp) : (s.setQp n x).cluster m = s.cluster m := rfl
@[simp] theorem State.cluster_setTc (s : State) (n m : Nat) (x : W64) : (s.setTc n x).cluster m = s.cluster m := rfl
@[simp] theorem State.cluster_setPort (s : State) (n m : Nat) (x : Port) : (s.setPort n x).cluster m = s.cluster m := rfl
@[simp] theorem State.cluster_setIsland (s : State) (n m : Nat) (x : Island) : (s.setIsland n x).cluster m = s.cluster m := rfl
@[simp] theorem State.hearth_setCore (s : State) (n m : Nat) (x : Core) : (s.setCore n x).hearth m = s.hearth m := rfl
@[simp] theorem State.hearth_setCluster (s : State) (n m : Nat) (x : Cluster) : (s.setCluster n x).hearth m = s.hearth m := rfl
@[simp] theorem State.hearth_setPart (s : State) (n m : Nat) (x : Part) : (s.setPart n x).hearth m = s.hearth m := rfl
@[simp] theorem State.hearth_setQp (s : State) (n m : Nat) (x : Qp) : (s.setQp n x).hearth m = s.hearth m := rfl
@[simp] theorem State.hearth_setTc (s : State) (n m : Nat) (x : W64) : (s.setTc n x).hearth m = s.hearth m := rfl
@[simp] theorem State.hearth_setPort (s : State) (n m : Nat) (x : Port) : (s.setPort n x).hearth m = s.hearth m := rfl
@[simp] theorem State.hearth_setIsland (s : State) (n m : Nat) (x : Island) : (s.setIsland n x).hearth m = s.hearth m := rfl
@[simp] theorem State.part_setCore (s : State) (n m : Nat) (x : Core) : (s.setCore n x).part m = s.part m := rfl
@[simp] theorem State.part_setCluster (s : State) (n m : Nat) (x : Cluster) : (s.setCluster n x).part m = s.part m := rfl
@[simp] theorem State.part_setHearth (s : State) (n m : Nat) (x : Hearth) : (s.setHearth n x).part m = s.part m := rfl
@[simp] theorem State.part_setQp (s : State) (n m : Nat) (x : Qp) : (s.setQp n x).part m = s.part m := rfl
@[simp] theorem State.part_setTc (s : State) (n m : Nat) (x : W64) : (s.setTc n x).part m = s.part m := rfl
@[simp] theorem State.part_setPort (s : State) (n m : Nat) (x : Port) : (s.setPort n x).part m = s.part m := rfl
@[simp] theorem State.part_setIsland (s : State) (n m : Nat) (x : Island) : (s.setIsland n x).part m = s.part m := rfl
@[simp] theorem State.qp_setCore (s : State) (n m : Nat) (x : Core) : (s.setCore n x).qp m = s.qp m := rfl
@[simp] theorem State.qp_setCluster (s : State) (n m : Nat) (x : Cluster) : (s.setCluster n x).qp m = s.qp m := rfl
@[simp] theorem State.qp_setHearth (s : State) (n m : Nat) (x : Hearth) : (s.setHearth n x).qp m = s.qp m := rfl
@[simp] theorem State.qp_setPart (s : State) (n m : Nat) (x : Part) : (s.setPart n x).qp m = s.qp m := rfl
@[simp] theorem State.qp_setTc (s : State) (n m : Nat) (x : W64) : (s.setTc n x).qp m = s.qp m := rfl
@[simp] theorem State.qp_setPort (s : State) (n m : Nat) (x : Port) : (s.setPort n x).qp m = s.qp m := rfl
@[simp] theorem State.qp_setIsland (s : State) (n m : Nat) (x : Island) : (s.setIsland n x).qp m = s.qp m := rfl
@[simp] theorem State.tc_setCore (s : State) (n m : Nat) (x : Core) : (s.setCore n x).tc m = s.tc m := rfl
@[simp] theorem State.tc_setCluster (s : State) (n m : Nat) (x : Cluster) : (s.setCluster n x).tc m = s.tc m := rfl
@[simp] theorem State.tc_setHearth (s : State) (n m : Nat) (x : Hearth) : (s.setHearth n x).tc m = s.tc m := rfl
@[simp] theorem State.tc_setPart (s : State) (n m : Nat) (x : Part) : (s.setPart n x).tc m = s.tc m := rfl
@[simp] theorem State.tc_setQp (s : State) (n m : Nat) (x : Qp) : (s.setQp n x).tc m = s.tc m := rfl
@[simp] theorem State.tc_setPort (s : State) (n m : Nat) (x : Port) : (s.setPort n x).tc m = s.tc m := rfl
@[simp] theorem State.tc_setIsland (s : State) (n m : Nat) (x : Island) : (s.setIsland n x).tc m = s.tc m := rfl
@[simp] theorem State.port_setCore (s : State) (n m : Nat) (x : Core) : (s.setCore n x).port m = s.port m := rfl
@[simp] theorem State.port_setCluster (s : State) (n m : Nat) (x : Cluster) : (s.setCluster n x).port m = s.port m := rfl
@[simp] theorem State.port_setHearth (s : State) (n m : Nat) (x : Hearth) : (s.setHearth n x).port m = s.port m := rfl
@[simp] theorem State.port_setPart (s : State) (n m : Nat) (x : Part) : (s.setPart n x).port m = s.port m := rfl
@[simp] theorem State.port_setQp (s : State) (n m : Nat) (x : Qp) : (s.setQp n x).port m = s.port m := rfl
@[simp] theorem State.port_setTc (s : State) (n m : Nat) (x : W64) : (s.setTc n x).port m = s.port m := rfl
@[simp] theorem State.port_setIsland (s : State) (n m : Nat) (x : Island) : (s.setIsland n x).port m = s.port m := rfl
@[simp] theorem State.island_setCore (s : State) (n m : Nat) (x : Core) : (s.setCore n x).island m = s.island m := rfl
@[simp] theorem State.island_setCluster (s : State) (n m : Nat) (x : Cluster) : (s.setCluster n x).island m = s.island m := rfl
@[simp] theorem State.island_setHearth (s : State) (n m : Nat) (x : Hearth) : (s.setHearth n x).island m = s.island m := rfl
@[simp] theorem State.island_setPart (s : State) (n m : Nat) (x : Part) : (s.setPart n x).island m = s.island m := rfl
@[simp] theorem State.island_setQp (s : State) (n m : Nat) (x : Qp) : (s.setQp n x).island m = s.island m := rfl
@[simp] theorem State.island_setTc (s : State) (n m : Nat) (x : W64) : (s.setTc n x).island m = s.island m := rfl
@[simp] theorem State.island_setPort (s : State) (n m : Nat) (x : Port) : (s.setPort n x).island m = s.island m := rfl

end Sys2Proof.Machine
end

