-- ==== Sys2Proof/Laws/Memory.lean ====
section
/-! SUPPORT. Memory: every operation keeps the canonical form, a byte written reads back, and a write leaves every other
byte as it was. -/

namespace Sys2Proof.Machine

/-! ### The canonical form -/

theorem Mem.wfFrom_mono {m : List Host.Cell} {lo lo' : Nat} (h : Mem.wfFrom lo m = true) (hl : lo' ≤ lo) :
    Mem.wfFrom lo' m = true := by
  cases m with
  | nil => rfl
  | cons e m => simp only [Mem.wfFrom, Bool.and_eq_true, decide_eq_true_eq] at *; exact ⟨⟨by omega, h.1.2⟩, h.2⟩

/-- A byte below every listed one reads as unlisted. -/
theorem Mem.read_of_lt {m : List Host.Cell} {lo k : Nat} (h : Mem.wfFrom lo m = true) (hk : k < lo) :
    Mem.read m k = unlisted := by
  induction m generalizing lo with
  | nil => rfl
  | cons e m ih =>
    simp only [Mem.wfFrom, Bool.and_eq_true, decide_eq_true_eq] at h
    rw [Mem.read, if_neg (by omega)]
    exact ih h.2 (by omega)

theorem Mem.wfFrom_write {m : List Host.Cell} {lo k : Nat} (b : Byte) (h : Mem.wfFrom lo m = true) (hk : lo ≤ k) :
    Mem.wfFrom lo (Mem.write m k b) = true := by
  induction m generalizing lo with
  | nil => simp only [Mem.write]; split <;> simp_all [Mem.wfFrom]
  | cons e m ih =>
    obtain ⟨k', b'⟩ := e
    simp only [Mem.wfFrom, Bool.and_eq_true, decide_eq_true_eq] at h
    simp only [Mem.write]
    split
    · subst_vars
      split
      · exact Mem.wfFrom_mono h.2 (by omega)
      · simp_all [Mem.wfFrom]
    · split
      · split
        · simp [Mem.wfFrom, h.1.1, h.1.2, h.2]
        · simp_all [Mem.wfFrom]
      · simp only [Mem.wfFrom, Bool.and_eq_true, decide_eq_true_eq]
        exact ⟨h.1, ih h.2 (by omega)⟩

/-- Every byte as it was, but the one written. -/
theorem Mem.read_write {m : List Host.Cell} {lo : Nat} (k j : Nat) (b : Byte) (h : Mem.wfFrom lo m = true) :
    Mem.read (Mem.write m k b) j = if j = k then b else Mem.read m j := by
  induction m generalizing lo with
  | nil =>
    by_cases hb : b = unlisted <;> by_cases hj : j = k <;> simp [Mem.write, Mem.read, hb, hj, Ne.symm]
  | cons e m ih =>
    obtain ⟨k', b'⟩ := e
    simp only [Mem.wfFrom, Bool.and_eq_true, decide_eq_true_eq] at h
    simp only [Mem.write]
    split
    · subst_vars
      split
      · by_cases hj : j = k'
        · subst hj; rw [if_pos rfl, Mem.read_of_lt h.2 (Nat.lt_succ_self _)]; simp [*]
        · rw [if_neg hj, Mem.read, if_neg (Ne.symm hj)]
      · by_cases hj : j = k'
        · simp [hj, Mem.read]
        · rw [if_neg hj, Mem.read, Mem.read, if_neg (Ne.symm hj), if_neg (Ne.symm hj)]
    · split
      · split
        · by_cases hj : j = k
          · subst hj
            rw [if_pos rfl, Mem.read, if_neg (by assumption), Mem.read_of_lt h.2 (by omega)]; simp [*]
          · simp [hj]
        · by_cases hj : j = k
          · simp [hj, Mem.read]
          · rw [Mem.read, if_neg (Ne.symm hj), if_neg hj]
      · rw [Mem.read, ih h.2]
        by_cases hj : k' = j
        · subst hj; simp [Mem.read, *]
        · simp [Mem.read, hj]

/-- Writing one byte keeps the form. -/
theorem Memory.wf_write {m : List Host.Cell} (k : Nat) (b : Byte) (h : Memory.wf m = true) :
    Memory.wf (Mem.write m k b) = true := Mem.wfFrom_write b h (Nat.zero_le k)

theorem Memory.wf_writeN {m : List Host.Cell} (k n v : Nat) (h : Memory.wf m = true) :
    Memory.wf (Mem.writeN m k n v) = true := by
  induction n generalizing m k v with
  | zero => exact h
  | succ n ih => exact ih _ _ (Memory.wf_write _ _ h)

theorem Memory.wf_writeBytes {m : List Host.Cell} (k : Nat) (bs : List Byte) (h : Memory.wf m = true) :
    Memory.wf (Mem.writeBytes m k bs) = true := by
  induction bs generalizing m k with
  | nil => exact h
  | cons b bs ih => exact ih _ (Memory.wf_write _ _ h)

theorem Mem.wfFrom_filter {m : List Host.Cell} {lo : Nat} (p : Host.Cell → Bool) (h : Mem.wfFrom lo m = true) :
    Mem.wfFrom lo (m.filter p) = true := by
  induction m generalizing lo with
  | nil => rfl
  | cons e m ih =>
    simp only [Mem.wfFrom, Bool.and_eq_true, decide_eq_true_eq] at h
    by_cases hp : p e = true
    · simp [List.filter, hp, Mem.wfFrom, h.1.1, h.1.2, ih h.2]
    · simp only [List.filter, hp]; exact Mem.wfFrom_mono (ih h.2) (by omega)

theorem Memory.wf_clearRange {m : List Host.Cell} (lo hi : Nat) (h : Memory.wf m = true) :
    Memory.wf (Mem.clearRange m lo hi) = true := Mem.wfFrom_filter _ h

theorem Memory.wf_reset : Memory.wf State.reset.mem = true := rfl

/-! ### Reading back -/

theorem Mem.read_writeBytes_out {m : List Host.Cell} (k : Nat) (bs : List Byte) (j : Nat) (h : Memory.wf m = true)
    (hj : j < k ∨ k + bs.length ≤ j) : Mem.read (Mem.writeBytes m k bs) j = Mem.read m j := by
  induction bs generalizing m k with
  | nil => rfl
  | cons b bs ih =>
    simp only [List.length_cons] at hj
    rw [Mem.writeBytes, ih _ (Memory.wf_write _ _ h) (by omega), Mem.read_write (lo := 0) _ _ _ h, if_neg (by omega)]

theorem Mem.read_writeBytes {m : List Host.Cell} (k : Nat) (bs : List Byte) (i : Nat) (h : Memory.wf m = true)
    (hi : i < bs.length) : Mem.read (Mem.writeBytes m k bs) (k + i) = bs.getD i 0 := by
  induction bs generalizing m k i with
  | nil => simp at hi
  | cons b bs ih =>
    cases i with
    | zero =>
      rw [Mem.writeBytes, Mem.read_writeBytes_out _ _ _ (Memory.wf_write _ _ h) (by omega),
        Mem.read_write (lo := 0) _ _ _ h]
      simp
    | succ i =>
      have := ih (k + 1) i (Memory.wf_write k b h) (by simpa using hi)
      rw [Mem.writeBytes, show k + (i + 1) = k + 1 + i by omega, this]
      simp

theorem Mem.read_writeN_out {m : List Host.Cell} (k n v j : Nat) (h : Memory.wf m = true) (hj : j < k ∨ k + n ≤ j) :
    Mem.read (Mem.writeN m k n v) j = Mem.read m j := by
  induction n generalizing m k v with
  | zero => rfl
  | succ n ih =>
    rw [Mem.writeN, ih _ _ (Memory.wf_write _ _ h) (by omega), Mem.read_write (lo := 0) _ _ _ h, if_neg (by omega)]

/-- Byte i of a number that has been written is its bits 8i + 7 to 8i. -/
theorem Mem.read_writeN {m : List Host.Cell} (k n v i : Nat) (h : Memory.wf m = true) (hi : i < n) :
    Mem.read (Mem.writeN m k n v) (k + i) = BitVec.ofNat 8 (v / 2 ^ (8 * i)) := by
  induction n generalizing m k v i with
  | zero => omega
  | succ n ih =>
    cases i with
    | zero =>
      rw [Mem.writeN, Mem.read_writeN_out _ _ _ _ (Memory.wf_write _ _ h) (by omega), Mem.read_write (lo := 0) _ _ _ h]
      simp
    | succ i =>
      rw [Mem.writeN, show k + (i + 1) = k + 1 + i by omega, ih _ _ _ (Memory.wf_write _ _ h) (by omega)]
      congr 1
      rw [Nat.div_div_eq_div_mul, show 256 * 2 ^ (8 * i) = 2 ^ (8 * (i + 1)) by rw [Nat.mul_add, pow_add]; ring]

theorem Mem.readN_congr {m m' : List Host.Cell} (k n : Nat) (h : ∀ i < n, Mem.read m (k + i) = Mem.read m' (k + i)) :
    Mem.readN m k n = Mem.readN m' k n := by
  induction n generalizing k with
  | zero => rfl
  | succ n ih =>
    have h0 := h 0 (by omega)
    rw [Nat.add_zero] at h0
    rw [Mem.readN, Mem.readN, h0, ih (k + 1) fun i hi => ?_]
    have := h (i + 1) (by omega)
    rwa [show k + (i + 1) = k + 1 + i by omega] at this

/-- A number of n bytes that has been written reads back modulo 256^n. -/
theorem Mem.readN_writeN {m : List Host.Cell} (k n v : Nat) (h : Memory.wf m = true) :
    Mem.readN (Mem.writeN m k n v) k n = v % 256 ^ n := by
  induction n generalizing m k v with
  | zero => simp [Mem.readN, Nat.mod_one]
  | succ n ih =>
    have h0 : Mem.read (Mem.writeN m k (n + 1) v) k = BitVec.ofNat 8 v := by
      simpa using Mem.read_writeN k (n + 1) v 0 h (by omega)
    rw [Mem.readN, h0, Mem.writeN, ih _ _ (Memory.wf_write _ _ h), pow_succ', Nat.mod_mul]
    simp [BitVec.toNat_ofNat]

theorem Mem.read_clearRange (m : List Host.Cell) (lo hi j : Nat) :
    Mem.read (Mem.clearRange m lo hi) j = if lo ≤ j ∧ j < hi then unlisted else Mem.read m j := by
  induction m with
  | nil => simp [Mem.clearRange, Mem.read]
  | cons e m ih =>
    obtain ⟨k, b⟩ := e
    by_cases hk : lo ≤ k ∧ k < hi
    · have : Mem.clearRange ((k, b) :: m) lo hi = Mem.clearRange m lo hi := by simp [Mem.clearRange, hk.1, hk.2]
      rw [this, ih]
      by_cases hj : k = j
      · subst hj; simp [hk]
      · simp [Mem.read, hj]
    · have : Mem.clearRange ((k, b) :: m) lo hi = (k, b) :: Mem.clearRange m lo hi := by
        simp only [Mem.clearRange, List.filter]
        split
        · rfl
        · rename_i h; simp at h; exact absurd h hk
      rw [this]; simp only [Mem.read, ih]
      by_cases hj : k = j
      · subst hj; simp [hk]
      · simp [hj]

/-! ### The operations over memory -/

@[simp] theorem State.post_mem (s : State) (c : Nat) (r : Record) : (s.post c r).mem = s.mem := by
  unfold State.post; split <;> rfl

/-- What each step of a fold keeps is kept at its end. -/
theorem foldl_keeps {α β : Type} (P : β → Prop) (f : β → α → β) (hf : ∀ b a, P b → P (f b a)) (l : List α) (b : β)
    (h : P b) : P (l.foldl f b) := by
  induction l generalizing b with
  | nil => exact h
  | cons a l ih => exact ih _ (hf _ _ h)

@[simp] theorem State.postAll_mem (s : State) (r : Record) : (s.postAll r).mem = s.mem := by
  refine foldl_keeps (fun t : State => t.mem = s.mem) _ (fun b a hb => ?_) _ _ rfl
  split
  · exact hb
  · simpa using hb

@[simp] theorem State.lostWrite_mem (s : State) (k : Nat) : (s.lostWrite k).mem = s.mem := State.postAll_mem ..

@[simp] theorem State.consume_mem (s : State) (k : Nat) : (s.consume k).mem = s.mem := by
  unfold State.consume; split <;> rfl

/-- A read of a fault queue writes nothing (R309). -/
@[simp] theorem State.queueRead_mem (s : State) (k n : Nat) : (s.queueRead k n).2.mem = s.mem := by
  unfold State.queueRead; split <;> simp

theorem State.wf_queueWrite {s : State} (r : Record) (k n v : Nat) (h : Memory.wf s.mem = true) :
    Memory.wf (s.queueWrite r k n v).mem = true := by
  simp only [State.queueWrite]
  split
  · split <;> simpa using h
  · simpa using Memory.wf_writeN k n v h

@[simp] theorem State.markPf_mem (s : State) (p : Nat) (r : Record) (n : Nat) : (s.markPf p r n).mem = s.mem := by
  unfold State.markPf; split <;> rfl

/-- A record that reaches its fault queue keeps the form (R309). -/
theorem State.wf_writeRecord {s : State} (p c : Nat) (r : Record) (h : Memory.wf s.mem = true) :
    Memory.wf (s.writeRecord p c r).mem = true := by
  unfold State.writeRecord
  extract_lets q
  generalize hx : s.queueRead q 8 = x
  generalize hy : x.2.queueRead (q + 8) 8 = y
  generalize hz : y.2.queueRead (q + 16) 8 = z
  have h1 : x.2.mem = s.mem := by rw [← hx]; simp
  have h2 : y.2.mem = s.mem := by rw [← hy]; simp [h1]
  have h3 : z.2.mem = s.mem := by rw [← hz]; simp [h2]
  obtain ⟨prod, x⟩ := x
  obtain ⟨cons, y⟩ := y
  simp only at *
  rw [hy]
  simp only
  split
  · rw [hz, State.markPf_mem]; exact State.wf_queueWrite _ _ _ _ (by rw [h3]; exact h)
  · rw [State.markPf_mem]; exact State.wf_queueWrite _ _ _ _ (State.wf_queueWrite _ _ _ _ (by rw [h2]; exact h))

theorem State.wf_store {s : State} (k n v : Nat) (h : Memory.wf s.mem = true) : Memory.wf (s.store k n v).mem = true := by
  simp only [State.store]
  split
  · simpa [State.sendExt] using h
  · split
    · split
      · simpa using h
      · simpa using Memory.wf_writeN k n v h
    · simpa using Memory.wf_writeN k n v h

theorem State.wf_setLine {s : State} (k : Nat) (bs : List Byte) (sb : W32) (h : Memory.wf s.mem = true) :
    Memory.wf (s.setLine k bs sb).mem = true := by
  simp only [State.setLine]
  split
  · simpa [State.sendExt] using h
  · split
    · split
      · simpa using h
      · simpa using Memory.wf_writeBytes k bs h
    · simpa using Memory.wf_writeBytes k bs h

/-- Everything a store does: its island is asked to run, and it sends to an external target, loses the write of a failed
link, or writes its bytes. -/
theorem State.store_cases (s : State) (k n v : Nat) :
    let t := s.wakeKey k
    (isExt k = true ∧ s.store k n v = t.sendExt k (toBytes n v) none) ∨
    (isExt k = false ∧ isDev k = true ∧ s.linkFailed (s.linkOf k) = true ∧ s.store k n v = t.lostWrite k) ∨
    (isExt k = false ∧ isDev k = true ∧ s.linkFailed (s.linkOf k) = false ∧
      s.store k n v = ({ t with mem := Mem.writeN t.mem k n v }).marked k) ∨
    (isExt k = false ∧ isDev k = false ∧ s.store k n v = { t with mem := Mem.writeN t.mem k n v }) := by
  intro t
  have hl : t.linkFailed (t.linkOf k) = s.linkFailed (s.linkOf k) := by
    simp [t, State.linkFailed, State.linkOf, State.linkMode, State.link]
  unfold State.store
  by_cases h1 : isExt k = true
  · simp [h1, t]
  · by_cases h2 : isDev k = true
    · by_cases h3 : s.linkFailed (s.linkOf k) = true <;> simp [h1, h2, h3, hl, t]
    · simp [h1, h2, t]

/-- A store that reaches memory, in one equation for the bytes. -/
theorem State.mem_store {s : State} {k n v : Nat} (he : isExt k = false)
    (hl : isDev k = true → s.linkFailed (s.linkOf k) = false) : (s.store k n v).mem = Mem.writeN s.mem k n v := by
  obtain h | h | h | h := s.store_cases k n v
  · simp [he] at h
  · simp [hl h.2.1] at h
  · rw [h.2.2.2]; simp
  · rw [h.2.2]; simp

theorem State.load_of_not_ext {s : State} {k : Nat} (n : Nat) (h : isExt k = false) :
    s.load k n = (Mem.readN s.mem k n, s.wakeKey k) := by
  simp [State.load, h]

end Sys2Proof.Machine
end

