-- ==== Sys2Proof/Laws/Faults.lean ====
section
/-! SUPPORT. What taking a fault does, beside the cores, the pool and the record it posts: the trace of its cause (R18, R311). -/

namespace Sys2Proof.Machine

theorem foldl_fixes {α β γ : Type} (p : β → γ) (f : β → α → β) (hf : ∀ b a, p (f b a) = p b) (l : List α) (b : β) :
    p (l.foldl f b) = p b := by
  induction l generalizing b with
  | nil => rfl
  | cons a l ih => rw [List.foldl_cons, ih, hf]

/-- A function of a state that cores, pool entries and records to be written leave as it is. -/
structure Untouched {γ : Type} (p : State → γ) : Prop where
  core  : ∀ s g c, p (State.setCore s g c) = p s
  entry : ∀ s n e, p (State.setEntry s n e) = p s
  due   : ∀ (s : State) d, p { s with due := d } = p s

theorem State.haltNode_keeps {γ : Type} {p : State → γ} (h : Untouched p) (s : State) (g : Nat) : p (s.haltNode g) = p s := by
  have a (t : State) (gs : List Nat) : p (t.haltCores gs) = p t := foldl_fixes p _ (fun s g => h.core ..) gs t
  have b (t : State) (gs : List Nat) : p (t.dropPreloads gs) = p t := by
    refine foldl_fixes p _ (fun s g => ?_) gs t
    split
    · rfl
    · split
      · exact h.core ..
      · rw [h.entry, foldl_fixes p _ (fun s k => h.core ..)]
  unfold State.haltNode
  extract_lets t
  have ht : p t = p s := by simp only [t, a, b]
  split
  · split
    · rw [h.entry, ht]
    · exact ht
  · exact ht

theorem State.postStop_keeps {γ : Type} {p : State → γ} (h : Untouched p) (s : State) (g : Nat) (r : Record) : p (s.postStop g r) = p s := by
  unfold State.postStop
  split
  · rfl
  · extract_lets x
    split
    · split
      · split
        · rfl
        · exact h.due ..
      · exact h.due ..
    · exact h.due ..

/-- A fault or trap taken on a compute core changes, beside cores, the pool and the records to be written, what its cause
leaves (R18, R311). -/
theorem State.take_keeps {γ : Type} {p : State → γ} (h : Untouched p) {s : State} {g : Nat} {q : SeqKind} (e : Exc)
    (hc : s.cur = .core g q) (he : e.holds = none) : p (s.take e) = p (s.traced e) := by
  unfold State.take
  split
  · simp [Exc.holds] at he
  · rw [State.postStop_keeps h, h.core, State.haltNode_keeps h]
  · simp [hc] at *
  · simp [hc] at *

@[simp] theorem State.consume_bad (s : State) (k : Nat) : (s.consume k).bad = s.bad := by
  unfold State.consume; split <;> rfl

/-- A consumed error fills the bucket of its store, if that has one (R314). -/
theorem State.consume_fills (s : State) (k : Nat) :
    (s.consume k).fills = match s.keyBucket k with | some b => (s.fill b .uncorrectable).fills | none => s.fills := by
  unfold State.consume; cases s.keyBucket k <;> rfl

/-- The fault of an uncorrectable error leaves the trace of its consumption (R311). -/
theorem State.traced_lost (s : State) (k n : Nat) (a : W64) : s.traced (s.lost k n a) = s.consume (s.badKey k n) := by
  unfold State.lost uncorrectable State.traced; rfl

theorem State.lost_holds (s : State) (k n : Nat) (a : W64) : (s.lost k n a).holds = none := by
  unfold State.lost uncorrectable Exc.holds; rfl

end Sys2Proof.Machine
end

