-- ==== Sys2Proof/Laws/PerInstr.lean ====
section
/-! SUPPORT. The round trip of each instruction's words, one lemma per constructor (R145-R156). -/

namespace Sys2Proof.Laws.RoundTrip

/-- What is read from the words of a well-formed instruction, and what follows them. -/
def Statement (i : Instr) : Prop :=
  i.wf = true → encode i ≠ [] → ∀ rest : List W32, decodeWords (encode i ++ rest) = .ok (i, rest)

theorem idx_val {n : Nat} [NeZero n] (x : Fin n) : idx n x.val = x := by unfold idx; ext; simp

theorem toNat_eq_one (b : Bool) : (b.toNat == 1) = b := by cases b <;> rfl

/-- A word that its group decodes. -/
theorem of_word {i : Instr} (n : Nat) (he : encode i = [BitVec.ofNat 32 n]) (hn : n < 2 ^ 32) (hm : fld n 26 6 ≠ 63)
    (hd : decodeWord n = .ok i) : Statement i := by
  intro _ _ rest
  have hn' : (BitVec.ofNat 32 n).toNat = n := by simpa [BitVec.toNat_ofNat] using hn
  rw [he]
  simp only [List.cons_append, List.nil_append, decodeWords, hn', hd, if_neg hm]

/-- The columns of a word: what its base holds below bit 11 and above bit 25, and three registers between. -/
structure Cols (w base d a b : Nat) : Prop where
  lt : w < 2 ^ 32
  op : fld w 26 6 = fld base 26 6
  low : ∀ lo n, lo + n ≤ 11 → fld w lo n = fld base lo n
  b5 : ∀ lo n, lo + n ≤ 5 → fld w (11 + lo) n = fld b lo n
  a5 : ∀ lo n, lo + n ≤ 5 → fld w (16 + lo) n = fld a lo n
  d5 : ∀ lo n, lo + n ≤ 5 → fld w (21 + lo) n = fld d lo n

theorem fld_of_eq {w x y lo n k : Nat} (h : w = x + 2 ^ k * y) (hn : lo + n ≤ k) : fld w lo n = fld x lo n := by
  unfold fld
  have hk : 2 ^ k = 2 ^ lo * (2 ^ n * 2 ^ (k - lo - n)) := by rw [← pow_add, ← pow_add]; congr 1; omega
  rw [h, hk, Nat.mul_assoc, Nat.add_mul_div_left _ _ (Nat.two_pow_pos lo), Nat.mul_assoc, Nat.add_mul_mod_self_left]

theorem fld_shift {w x y k : Nat} (h : w = x + 2 ^ k * y) (hx : x < 2 ^ k) (lo n : Nat) : fld w (k + lo) n = fld y lo n := by
  unfold fld
  rw [pow_add, ← Nat.div_div_eq_div_mul, h, Nat.add_mul_div_left _ _ (Nat.two_pow_pos k), Nat.div_eq_of_lt hx, Nat.zero_add]

theorem cols {base d a b : Nat} (hb : b < 32) (ha : a < 32) (hd : d < 32) (h0 : base < 2 ^ 32) (h1 : fld base 11 15 = 0) :
    Cols (base + b * 2 ^ 11 + a * 2 ^ 16 + d * 2 ^ 21) base d a b := by
  obtain ⟨m, l, rfl, hl, hm⟩ : ∃ m l, base = l + 2 ^ 26 * m ∧ l < 2 ^ 11 ∧ m < 64 :=
    ⟨base / 2 ^ 26, base % 2 ^ 26, by omega, by simp only [fld] at h1; omega, by omega⟩
  have e11 : l + 2 ^ 26 * m + b * 2 ^ 11 + a * 2 ^ 16 + d * 2 ^ 21 = l + 2 ^ 11 * (b + 2 ^ 5 * (a + 2 ^ 5 * (d + 2 ^ 5 * m))) := by
    ring
  have e16 : l + 2 ^ 26 * m + b * 2 ^ 11 + a * 2 ^ 16 + d * 2 ^ 21 = (l + 2 ^ 11 * b) + 2 ^ 16 * (a + 2 ^ 5 * (d + 2 ^ 5 * m)) := by
    ring
  have e21 : l + 2 ^ 26 * m + b * 2 ^ 11 + a * 2 ^ 16 + d * 2 ^ 21 =
      (l + 2 ^ 11 * b + 2 ^ 16 * a) + 2 ^ 21 * (d + 2 ^ 5 * m) := by ring
  refine ⟨by omega, by simp only [fld]; omega, fun lo n h => ?_, fun lo n h => ?_, fun lo n h => ?_, fun lo n h => ?_⟩
  · rw [fld_of_eq e11 h, fld_of_eq (k := 11) (w := l + 2 ^ 26 * m) (y := 2 ^ 15 * m) (by ring) h]
  · rw [fld_shift e11 (by omega), fld_of_eq rfl h]
  · rw [fld_shift e16 (by omega), fld_of_eq rfl h]
  · rw [fld_shift e21 (by omega), fld_of_eq rfl h]

theorem cols_ab {base a b : Nat} (hb : b < 32) (ha : a < 32) (h0 : base < 2 ^ 32) (h1 : fld base 11 15 = 0) :
    Cols (base + b * 2 ^ 11 + a * 2 ^ 16) base 0 a b := by
  have h := cols (d := 0) hb ha (by decide) h0 h1
  rw [Nat.zero_mul] at h; exact h

theorem cols_a {base a : Nat} (ha : a < 32) (h0 : base < 2 ^ 32) (h1 : fld base 11 15 = 0) :
    Cols (base + a * 2 ^ 16) base 0 a 0 := by
  have h := cols_ab (b := 0) (by decide) ha h0 h1
  rw [Nat.zero_mul] at h; exact h

theorem fld_all {x : Nat} (h : x < 32) : fld x 0 5 = x := by unfold fld; omega
theorem fld_all4 {x : Nat} (h : x < 16) : fld x 0 4 = x := by unfold fld; omega
theorem fld_top {x : Nat} (h : x < 16) : fld x 4 1 = 0 := by unfold fld; omega

section
variable {w base d a b : Nat} (C : Cols w base d a b)
include C
theorem Cols.b_all (h : b < 32) : fld w 11 5 = b := (C.b5 0 5 (by decide)).trans (fld_all h)
theorem Cols.a_all (h : a < 32) : fld w 16 5 = a := (C.a5 0 5 (by decide)).trans (fld_all h)
theorem Cols.d_all (h : d < 32) : fld w 21 5 = d := (C.d5 0 5 (by decide)).trans (fld_all h)
theorem Cols.b_low (h : b < 16) : fld w 11 4 = b := (C.b5 0 4 (by decide)).trans (fld_all4 h)
theorem Cols.a_low (h : a < 16) : fld w 16 4 = a := (C.a5 0 4 (by decide)).trans (fld_all4 h)
theorem Cols.d_low (h : d < 16) : fld w 21 4 = d := (C.d5 0 4 (by decide)).trans (fld_all4 h)
theorem Cols.b_top (h : b < 16) : fld w 15 1 = 0 := (C.b5 4 1 (by decide)).trans (fld_top h)
theorem Cols.a_top (h : a < 16) : fld w 20 1 = 0 := (C.a5 4 1 (by decide)).trans (fld_top h)
theorem Cols.d_top (h : d < 16) : fld w 25 1 = 0 := (C.d5 4 1 (by decide)).trans (fld_top h)

/-- The same for a word with columns. -/
theorem of_cols {i : Instr} {m : Nat} (he : encode i = [BitVec.ofNat 32 w]) (h0 : fld base 26 6 = m) (hm : m ≠ 63)
    (hd : decodeWord w = .ok i) : Statement i := of_word w he C.lt (by rwa [C.op, h0]) hd
end

/-- A row that is fetched from nowhere has no words. -/
theorem of_none {i : Instr} (h : encode i = []) : Statement i := fun _ h' => absurd h h'

theorem decodeWord_1 {w : Nat} (h : fld w 26 6 = 1) : decodeWord w = decIop w := by
  unfold decodeWord; rw [h]; rfl

theorem decodeWord_2 {w : Nat} (h : fld w 26 6 = 2) : decodeWord w = decIopi w := by
  unfold decodeWord; rw [h]; rfl

theorem decodeWord_3 {w : Nat} (h : fld w 26 6 = 3) : decodeWord w = decIhi w := by
  unfold decodeWord; rw [h]; rfl

theorem decodeWord_4 {w : Nat} (h : fld w 26 6 = 4) : decodeWord w = decCmp w := by
  unfold decodeWord; rw [h]; rfl

theorem decodeWord_5 {w : Nat} (h : fld w 26 6 = 5) : decodeWord w = decPrd w := by
  unfold decodeWord; rw [h]; rfl

theorem decodeWord_6 {w : Nat} (h : fld w 26 6 = 6) : decodeWord w = decBr w := by
  unfold decodeWord; rw [h]; rfl

theorem decodeWord_7 {w : Nat} (h : fld w 26 6 = 7) : decodeWord w = decJmp w := by
  unfold decodeWord; rw [h]; rfl

theorem decodeWord_8 {w : Nat} (h : fld w 26 6 = 8) : decodeWord w = decLoop w := by
  unfold decodeWord; rw [h]; rfl

theorem decodeWord_9 {w : Nat} (h : fld w 26 6 = 9) : decodeWord w = decLds w := by
  unfold decodeWord; rw [h]; rfl

theorem decodeWord_10 {w : Nat} (h : fld w 26 6 = 10) : decodeWord w = decSts w := by
  unfold decodeWord; rw [h]; rfl

theorem decodeWord_11 {w : Nat} (h : fld w 26 6 = 11) : decodeWord w = decCsr w := by
  unfold decodeWord; rw [h]; rfl

theorem decodeWord_12 {w : Nat} (h : fld w 26 6 = 12) : decodeWord w = decBitf w := by
  unfold decodeWord; rw [h]; rfl

theorem decodeWord_13 {w : Nat} (h : fld w 26 6 = 13) : decodeWord w = decMuldiv w := by
  unfold decodeWord; rw [h]; rfl

theorem decodeWord_14 {w : Nat} (h : fld w 26 6 = 14) : decodeWord w = decSys w := by
  unfold decodeWord; rw [h]; rfl

theorem decodeWord_15 {w : Nat} (h : fld w 26 6 = 15) : decodeWord w = decPriv w := by
  unfold decodeWord; rw [h]; rfl

theorem decodeWord_16 {w : Nat} (h : fld w 26 6 = 16) : decodeWord w = decRing w := by
  unfold decodeWord; rw [h]; rfl

theorem decodeWord_17 {w : Nat} (h : fld w 26 6 = 17) : decodeWord w = decSem w := by
  unfold decodeWord; rw [h]; rfl

theorem decodeWord_18 {w : Nat} (h : fld w 26 6 = 18) : decodeWord w = decGbar w := by
  unfold decodeWord; rw [h]; rfl

theorem decodeWord_19 {w : Nat} (h : fld w 26 6 = 19) : decodeWord w = decOrd w := by
  unfold decodeWord; rw [h]; rfl

theorem decodeWord_24 {w : Nat} (h : fld w 26 6 = 24) : decodeWord w = decCopy w := by
  unfold decodeWord; rw [h]; rfl

theorem decodeWord_25 {w : Nat} (h : fld w 26 6 = 25) : decodeWord w = decGath w := by
  unfold decodeWord; rw [h]; rfl

theorem decodeWord_26 {w : Nat} (h : fld w 26 6 = 26) : decodeWord w = decLine w := by
  unfold decodeWord; rw [h]; rfl

theorem decodeWord_27 {w : Nat} (h : fld w 26 6 = 27) : decodeWord w = decMark w := by
  unfold decodeWord; rw [h]; rfl

theorem decodeWord_48 {w : Nat} (h : fld w 26 6 = 48) : decodeWord w = decMma w := by
  unfold decodeWord; rw [h]; rfl

theorem decodeWord_49 {w : Nat} (h : fld w 26 6 = 49) : decodeWord w = decAcc w := by
  unfold decodeWord; rw [h]; rfl

theorem decodeWord_50 {w : Nat} (h : fld w 26 6 = 50) : decodeWord w = decTent w := by
  unfold decodeWord; rw [h]; rfl

theorem decodeWord_51 {w : Nat} (h : fld w 26 6 = 51) : decodeWord w = decRslv w := by
  unfold decodeWord; rw [h]; rfl

theorem decodeWord_52 {w : Nat} (h : fld w 26 6 = 52) : decodeWord w = decMkat w := by
  unfold decodeWord; rw [h]; rfl

theorem decodeWord_32 {w : Nat} (h : fld w 26 6 = 32) : decodeWord w = decVfp w := by
  unfold decodeWord; rw [h]; rfl

theorem decodeWord_33 {w : Nat} (h : fld w 26 6 = 33) : decodeWord w = decVfma w := by
  unfold decodeWord; rw [h]; rfl

theorem decodeWord_34 {w : Nat} (h : fld w 26 6 = 34) : decodeWord w = decVint w := by
  unfold decodeWord; rw [h]; rfl

theorem decodeWord_35 {w : Nat} (h : fld w 26 6 = 35) : decodeWord w = decVcmp w := by
  unfold decodeWord; rw [h]; rfl

theorem decodeWord_36 {w : Nat} (h : fld w 26 6 = 36) : decodeWord w = decVcvt w := by
  unfold decodeWord; rw [h]; rfl

theorem decodeWord_37 {w : Nat} (h : fld w 26 6 = 37) : decodeWord w = decVred w := by
  unfold decodeWord; rw [h]; rfl

theorem decodeWord_38 {w : Nat} (h : fld w 26 6 = 38) : decodeWord w = decVperm w := by
  unfold decodeWord; rw [h]; rfl

theorem decodeWord_39 {w : Nat} (h : fld w 26 6 = 39) : decodeWord w = decVmem w := by
  unfold decodeWord; rw [h]; rfl

theorem decodeWord_40 {w : Nat} (h : fld w 26 6 = 40) : decodeWord w = decVsfu w := by
  unfold decodeWord; rw [h]; rfl

theorem decodeWord_41 {w : Nat} (h : fld w 26 6 = 41) : decodeWord w = decVclm w := by
  unfold decodeWord; rw [h]; rfl

theorem decodeWord_42 {w : Nat} (h : fld w 26 6 = 42) : decodeWord w = decVsel w := by
  unfold decodeWord; rw [h]; rfl

theorem decodeWord_43 {w : Nat} (h : fld w 26 6 = 43) : decodeWord w = decVset w := by
  unfold decodeWord; rw [h]; rfl

theorem decodeWord_56 {w : Nat} (h : fld w 26 6 = 56) : decodeWord w = decProof w := by
  unfold decodeWord; rw [h]; rfl

theorem decodeWord_57 {w : Nat} (h : fld w 26 6 = 57) : decodeWord w = decPtab w := by
  unfold decodeWord; rw [h]; rfl

theorem decodeWord_58 {w : Nat} (h : fld w 26 6 = 58) : decodeWord w = decCreel w := by
  unfold decodeWord; rw [h]; rfl

theorem decodeWord_59 {w : Nat} (h : fld w 26 6 = 59) : decodeWord w = decRoute w := by
  unfold decodeWord; rw [h]; rfl

theorem decodeWord_60 {w : Nat} (h : fld w 26 6 = 60) : decodeWord w = decNma w := by
  unfold decodeWord; rw [h]; rfl

theorem decodeWord_61 {w : Nat} (h : fld w 26 6 = 61) : decodeWord w = decNmx w := by
  unfold decodeWord; rw [h]; rfl

theorem decodeWord_62 {w : Nat} (h : fld w 26 6 = 62) : decodeWord w = decPost w := by
  unfold decodeWord; rw [h]; rfl

theorem iopAdd (d : Fin 32) (a : Fin 32) (b : Fin 32) : Statement (.iopAdd d a b) := by
  have hd := d.isLt
  have ha := a.isLt
  have hb := b.isLt
  obtain ⟨g0, g1, g2, g3, l0⟩ : fld (0x04000000) 26 6 = 1 ∧ fld (0x04000000) 11 15 = 0 ∧ 0x04000000 < 2 ^ 32 ∧ fld (0x04000000) 0 6 = 0 ∧ fld (0x04000000) 6 5 = 0 := by decide
  have C := cols (d := d.val) (a := a.val) (b := b.val) (Nat.lt_of_lt_of_le hb (by decide)) (Nat.lt_of_lt_of_le ha (by decide)) (Nat.lt_of_lt_of_le hd (by decide)) g2 g1
  refine of_cols C rfl g0 (by decide) ?_
  rw [decodeWord_1 (C.op.trans g0)]; unfold decIop; rw [(C.low 0 6 (by decide)).trans g3]
  simp only [(C.low 6 5 (by decide)).trans l0, C.d_all (Nat.lt_of_lt_of_le hd (by decide)), C.a_all (Nat.lt_of_lt_of_le ha (by decide)), C.b_all (Nat.lt_of_lt_of_le hb (by decide)), idx_val, takeIf]; rfl

theorem iopSub (d : Fin 32) (a : Fin 32) (b : Fin 32) : Statement (.iopSub d a b) := by
  have hd := d.isLt
  have ha := a.isLt
  have hb := b.isLt
  obtain ⟨g0, g1, g2, g3, l0⟩ : fld (0x04000001) 26 6 = 1 ∧ fld (0x04000001) 11 15 = 0 ∧ 0x04000001 < 2 ^ 32 ∧ fld (0x04000001) 0 6 = 1 ∧ fld (0x04000001) 6 5 = 0 := by decide
  have C := cols (d := d.val) (a := a.val) (b := b.val) (Nat.lt_of_lt_of_le hb (by decide)) (Nat.lt_of_lt_of_le ha (by decide)) (Nat.lt_of_lt_of_le hd (by decide)) g2 g1
  refine of_cols C rfl g0 (by decide) ?_
  rw [decodeWord_1 (C.op.trans g0)]; unfold decIop; rw [(C.low 0 6 (by decide)).trans g3]
  simp only [(C.low 6 5 (by decide)).trans l0, C.d_all (Nat.lt_of_lt_of_le hd (by decide)), C.a_all (Nat.lt_of_lt_of_le ha (by decide)), C.b_all (Nat.lt_of_lt_of_le hb (by decide)), idx_val, takeIf]; rfl

theorem iopAnd (d : Fin 32) (a : Fin 32) (b : Fin 32) : Statement (.iopAnd d a b) := by
  have hd := d.isLt
  have ha := a.isLt
  have hb := b.isLt
  obtain ⟨g0, g1, g2, g3, l0⟩ : fld (0x04000002) 26 6 = 1 ∧ fld (0x04000002) 11 15 = 0 ∧ 0x04000002 < 2 ^ 32 ∧ fld (0x04000002) 0 6 = 2 ∧ fld (0x04000002) 6 5 = 0 := by decide
  have C := cols (d := d.val) (a := a.val) (b := b.val) (Nat.lt_of_lt_of_le hb (by decide)) (Nat.lt_of_lt_of_le ha (by decide)) (Nat.lt_of_lt_of_le hd (by decide)) g2 g1
  refine of_cols C rfl g0 (by decide) ?_
  rw [decodeWord_1 (C.op.trans g0)]; unfold decIop; rw [(C.low 0 6 (by decide)).trans g3]
  simp only [(C.low 6 5 (by decide)).trans l0, C.d_all (Nat.lt_of_lt_of_le hd (by decide)), C.a_all (Nat.lt_of_lt_of_le ha (by decide)), C.b_all (Nat.lt_of_lt_of_le hb (by decide)), idx_val, takeIf]; rfl

theorem iopOr (d : Fin 32) (a : Fin 32) (b : Fin 32) : Statement (.iopOr d a b) := by
  have hd := d.isLt
  have ha := a.isLt
  have hb := b.isLt
  obtain ⟨g0, g1, g2, g3, l0⟩ : fld (0x04000003) 26 6 = 1 ∧ fld (0x04000003) 11 15 = 0 ∧ 0x04000003 < 2 ^ 32 ∧ fld (0x04000003) 0 6 = 3 ∧ fld (0x04000003) 6 5 = 0 := by decide
  have C := cols (d := d.val) (a := a.val) (b := b.val) (Nat.lt_of_lt_of_le hb (by decide)) (Nat.lt_of_lt_of_le ha (by decide)) (Nat.lt_of_lt_of_le hd (by decide)) g2 g1
  refine of_cols C rfl g0 (by decide) ?_
  rw [decodeWord_1 (C.op.trans g0)]; unfold decIop; rw [(C.low 0 6 (by decide)).trans g3]
  simp only [(C.low 6 5 (by decide)).trans l0, C.d_all (Nat.lt_of_lt_of_le hd (by decide)), C.a_all (Nat.lt_of_lt_of_le ha (by decide)), C.b_all (Nat.lt_of_lt_of_le hb (by decide)), idx_val, takeIf]; rfl

theorem iopXor (d : Fin 32) (a : Fin 32) (b : Fin 32) : Statement (.iopXor d a b) := by
  have hd := d.isLt
  have ha := a.isLt
  have hb := b.isLt
  obtain ⟨g0, g1, g2, g3, l0⟩ : fld (0x04000004) 26 6 = 1 ∧ fld (0x04000004) 11 15 = 0 ∧ 0x04000004 < 2 ^ 32 ∧ fld (0x04000004) 0 6 = 4 ∧ fld (0x04000004) 6 5 = 0 := by decide
  have C := cols (d := d.val) (a := a.val) (b := b.val) (Nat.lt_of_lt_of_le hb (by decide)) (Nat.lt_of_lt_of_le ha (by decide)) (Nat.lt_of_lt_of_le hd (by decide)) g2 g1
  refine of_cols C rfl g0 (by decide) ?_
  rw [decodeWord_1 (C.op.trans g0)]; unfold decIop; rw [(C.low 0 6 (by decide)).trans g3]
  simp only [(C.low 6 5 (by decide)).trans l0, C.d_all (Nat.lt_of_lt_of_le hd (by decide)), C.a_all (Nat.lt_of_lt_of_le ha (by decide)), C.b_all (Nat.lt_of_lt_of_le hb (by decide)), idx_val, takeIf]; rfl

theorem iopShl (d : Fin 32) (a : Fin 32) (b : Fin 32) : Statement (.iopShl d a b) := by
  have hd := d.isLt
  have ha := a.isLt
  have hb := b.isLt
  obtain ⟨g0, g1, g2, g3, l0⟩ : fld (0x04000005) 26 6 = 1 ∧ fld (0x04000005) 11 15 = 0 ∧ 0x04000005 < 2 ^ 32 ∧ fld (0x04000005) 0 6 = 5 ∧ fld (0x04000005) 6 5 = 0 := by decide
  have C := cols (d := d.val) (a := a.val) (b := b.val) (Nat.lt_of_lt_of_le hb (by decide)) (Nat.lt_of_lt_of_le ha (by decide)) (Nat.lt_of_lt_of_le hd (by decide)) g2 g1
  refine of_cols C rfl g0 (by decide) ?_
  rw [decodeWord_1 (C.op.trans g0)]; unfold decIop; rw [(C.low 0 6 (by decide)).trans g3]
  simp only [(C.low 6 5 (by decide)).trans l0, C.d_all (Nat.lt_of_lt_of_le hd (by decide)), C.a_all (Nat.lt_of_lt_of_le ha (by decide)), C.b_all (Nat.lt_of_lt_of_le hb (by decide)), idx_val, takeIf]; rfl

theorem iopShr (d : Fin 32) (a : Fin 32) (b : Fin 32) : Statement (.iopShr d a b) := by
  have hd := d.isLt
  have ha := a.isLt
  have hb := b.isLt
  obtain ⟨g0, g1, g2, g3, l0⟩ : fld (0x04000006) 26 6 = 1 ∧ fld (0x04000006) 11 15 = 0 ∧ 0x04000006 < 2 ^ 32 ∧ fld (0x04000006) 0 6 = 6 ∧ fld (0x04000006) 6 5 = 0 := by decide
  have C := cols (d := d.val) (a := a.val) (b := b.val) (Nat.lt_of_lt_of_le hb (by decide)) (Nat.lt_of_lt_of_le ha (by decide)) (Nat.lt_of_lt_of_le hd (by decide)) g2 g1
  refine of_cols C rfl g0 (by decide) ?_
  rw [decodeWord_1 (C.op.trans g0)]; unfold decIop; rw [(C.low 0 6 (by decide)).trans g3]
  simp only [(C.low 6 5 (by decide)).trans l0, C.d_all (Nat.lt_of_lt_of_le hd (by decide)), C.a_all (Nat.lt_of_lt_of_le ha (by decide)), C.b_all (Nat.lt_of_lt_of_le hb (by decide)), idx_val, takeIf]; rfl

theorem iopSra (d : Fin 32) (a : Fin 32) (b : Fin 32) : Statement (.iopSra d a b) := by
  have hd := d.isLt
  have ha := a.isLt
  have hb := b.isLt
  obtain ⟨g0, g1, g2, g3, l0⟩ : fld (0x04000007) 26 6 = 1 ∧ fld (0x04000007) 11 15 = 0 ∧ 0x04000007 < 2 ^ 32 ∧ fld (0x04000007) 0 6 = 7 ∧ fld (0x04000007) 6 5 = 0 := by decide
  have C := cols (d := d.val) (a := a.val) (b := b.val) (Nat.lt_of_lt_of_le hb (by decide)) (Nat.lt_of_lt_of_le ha (by decide)) (Nat.lt_of_lt_of_le hd (by decide)) g2 g1
  refine of_cols C rfl g0 (by decide) ?_
  rw [decodeWord_1 (C.op.trans g0)]; unfold decIop; rw [(C.low 0 6 (by decide)).trans g3]
  simp only [(C.low 6 5 (by decide)).trans l0, C.d_all (Nat.lt_of_lt_of_le hd (by decide)), C.a_all (Nat.lt_of_lt_of_le ha (by decide)), C.b_all (Nat.lt_of_lt_of_le hb (by decide)), idx_val, takeIf]; rfl

theorem iopMin (d : Fin 32) (a : Fin 32) (b : Fin 32) : Statement (.iopMin d a b) := by
  have hd := d.isLt
  have ha := a.isLt
  have hb := b.isLt
  obtain ⟨g0, g1, g2, g3, l0⟩ : fld (0x04000008) 26 6 = 1 ∧ fld (0x04000008) 11 15 = 0 ∧ 0x04000008 < 2 ^ 32 ∧ fld (0x04000008) 0 6 = 8 ∧ fld (0x04000008) 6 5 = 0 := by decide
  have C := cols (d := d.val) (a := a.val) (b := b.val) (Nat.lt_of_lt_of_le hb (by decide)) (Nat.lt_of_lt_of_le ha (by decide)) (Nat.lt_of_lt_of_le hd (by decide)) g2 g1
  refine of_cols C rfl g0 (by decide) ?_
  rw [decodeWord_1 (C.op.trans g0)]; unfold decIop; rw [(C.low 0 6 (by decide)).trans g3]
  simp only [(C.low 6 5 (by decide)).trans l0, C.d_all (Nat.lt_of_lt_of_le hd (by decide)), C.a_all (Nat.lt_of_lt_of_le ha (by decide)), C.b_all (Nat.lt_of_lt_of_le hb (by decide)), idx_val, takeIf]; rfl

theorem iopMax (d : Fin 32) (a : Fin 32) (b : Fin 32) : Statement (.iopMax d a b) := by
  have hd := d.isLt
  have ha := a.isLt
  have hb := b.isLt
  obtain ⟨g0, g1, g2, g3, l0⟩ : fld (0x04000009) 26 6 = 1 ∧ fld (0x04000009) 11 15 = 0 ∧ 0x04000009 < 2 ^ 32 ∧ fld (0x04000009) 0 6 = 9 ∧ fld (0x04000009) 6 5 = 0 := by decide
  have C := cols (d := d.val) (a := a.val) (b := b.val) (Nat.lt_of_lt_of_le hb (by decide)) (Nat.lt_of_lt_of_le ha (by decide)) (Nat.lt_of_lt_of_le hd (by decide)) g2 g1
  refine of_cols C rfl g0 (by decide) ?_
  rw [decodeWord_1 (C.op.trans g0)]; unfold decIop; rw [(C.low 0 6 (by decide)).trans g3]
  simp only [(C.low 6 5 (by decide)).trans l0, C.d_all (Nat.lt_of_lt_of_le hd (by decide)), C.a_all (Nat.lt_of_lt_of_le ha (by decide)), C.b_all (Nat.lt_of_lt_of_le hb (by decide)), idx_val, takeIf]; rfl

theorem iopMinu (d : Fin 32) (a : Fin 32) (b : Fin 32) : Statement (.iopMinu d a b) := by
  have hd := d.isLt
  have ha := a.isLt
  have hb := b.isLt
  obtain ⟨g0, g1, g2, g3, l0⟩ : fld (0x0400000A) 26 6 = 1 ∧ fld (0x0400000A) 11 15 = 0 ∧ 0x0400000A < 2 ^ 32 ∧ fld (0x0400000A) 0 6 = 10 ∧ fld (0x0400000A) 6 5 = 0 := by decide
  have C := cols (d := d.val) (a := a.val) (b := b.val) (Nat.lt_of_lt_of_le hb (by decide)) (Nat.lt_of_lt_of_le ha (by decide)) (Nat.lt_of_lt_of_le hd (by decide)) g2 g1
  refine of_cols C rfl g0 (by decide) ?_
  rw [decodeWord_1 (C.op.trans g0)]; unfold decIop; rw [(C.low 0 6 (by decide)).trans g3]
  simp only [(C.low 6 5 (by decide)).trans l0, C.d_all (Nat.lt_of_lt_of_le hd (by decide)), C.a_all (Nat.lt_of_lt_of_le ha (by decide)), C.b_all (Nat.lt_of_lt_of_le hb (by decide)), idx_val, takeIf]; rfl

theorem iopMaxu (d : Fin 32) (a : Fin 32) (b : Fin 32) : Statement (.iopMaxu d a b) := by
  have hd := d.isLt
  have ha := a.isLt
  have hb := b.isLt
  obtain ⟨g0, g1, g2, g3, l0⟩ : fld (0x0400000B) 26 6 = 1 ∧ fld (0x0400000B) 11 15 = 0 ∧ 0x0400000B < 2 ^ 32 ∧ fld (0x0400000B) 0 6 = 11 ∧ fld (0x0400000B) 6 5 = 0 := by decide
  have C := cols (d := d.val) (a := a.val) (b := b.val) (Nat.lt_of_lt_of_le hb (by decide)) (Nat.lt_of_lt_of_le ha (by decide)) (Nat.lt_of_lt_of_le hd (by decide)) g2 g1
  refine of_cols C rfl g0 (by decide) ?_
  rw [decodeWord_1 (C.op.trans g0)]; unfold decIop; rw [(C.low 0 6 (by decide)).trans g3]
  simp only [(C.low 6 5 (by decide)).trans l0, C.d_all (Nat.lt_of_lt_of_le hd (by decide)), C.a_all (Nat.lt_of_lt_of_le ha (by decide)), C.b_all (Nat.lt_of_lt_of_le hb (by decide)), idx_val, takeIf]; rfl

theorem iopAddw (d : Fin 32) (a : Fin 32) (b : Fin 32) : Statement (.iopAddw d a b) := by
  have hd := d.isLt
  have ha := a.isLt
  have hb := b.isLt
  obtain ⟨g0, g1, g2, g3, l0⟩ : fld (0x0400000C) 26 6 = 1 ∧ fld (0x0400000C) 11 15 = 0 ∧ 0x0400000C < 2 ^ 32 ∧ fld (0x0400000C) 0 6 = 12 ∧ fld (0x0400000C) 6 5 = 0 := by decide
  have C := cols (d := d.val) (a := a.val) (b := b.val) (Nat.lt_of_lt_of_le hb (by decide)) (Nat.lt_of_lt_of_le ha (by decide)) (Nat.lt_of_lt_of_le hd (by decide)) g2 g1
  refine of_cols C rfl g0 (by decide) ?_
  rw [decodeWord_1 (C.op.trans g0)]; unfold decIop; rw [(C.low 0 6 (by decide)).trans g3]
  simp only [(C.low 6 5 (by decide)).trans l0, C.d_all (Nat.lt_of_lt_of_le hd (by decide)), C.a_all (Nat.lt_of_lt_of_le ha (by decide)), C.b_all (Nat.lt_of_lt_of_le hb (by decide)), idx_val, takeIf]; rfl

theorem iopSubw (d : Fin 32) (a : Fin 32) (b : Fin 32) : Statement (.iopSubw d a b) := by
  have hd := d.isLt
  have ha := a.isLt
  have hb := b.isLt
  obtain ⟨g0, g1, g2, g3, l0⟩ : fld (0x0400000D) 26 6 = 1 ∧ fld (0x0400000D) 11 15 = 0 ∧ 0x0400000D < 2 ^ 32 ∧ fld (0x0400000D) 0 6 = 13 ∧ fld (0x0400000D) 6 5 = 0 := by decide
  have C := cols (d := d.val) (a := a.val) (b := b.val) (Nat.lt_of_lt_of_le hb (by decide)) (Nat.lt_of_lt_of_le ha (by decide)) (Nat.lt_of_lt_of_le hd (by decide)) g2 g1
  refine of_cols C rfl g0 (by decide) ?_
  rw [decodeWord_1 (C.op.trans g0)]; unfold decIop; rw [(C.low 0 6 (by decide)).trans g3]
  simp only [(C.low 6 5 (by decide)).trans l0, C.d_all (Nat.lt_of_lt_of_le hd (by decide)), C.a_all (Nat.lt_of_lt_of_le ha (by decide)), C.b_all (Nat.lt_of_lt_of_le hb (by decide)), idx_val, takeIf]; rfl

theorem iopSlt (d : Fin 32) (a : Fin 32) (b : Fin 32) : Statement (.iopSlt d a b) := by
  have hd := d.isLt
  have ha := a.isLt
  have hb := b.isLt
  obtain ⟨g0, g1, g2, g3, l0⟩ : fld (0x0400000E) 26 6 = 1 ∧ fld (0x0400000E) 11 15 = 0 ∧ 0x0400000E < 2 ^ 32 ∧ fld (0x0400000E) 0 6 = 14 ∧ fld (0x0400000E) 6 5 = 0 := by decide
  have C := cols (d := d.val) (a := a.val) (b := b.val) (Nat.lt_of_lt_of_le hb (by decide)) (Nat.lt_of_lt_of_le ha (by decide)) (Nat.lt_of_lt_of_le hd (by decide)) g2 g1
  refine of_cols C rfl g0 (by decide) ?_
  rw [decodeWord_1 (C.op.trans g0)]; unfold decIop; rw [(C.low 0 6 (by decide)).trans g3]
  simp only [(C.low 6 5 (by decide)).trans l0, C.d_all (Nat.lt_of_lt_of_le hd (by decide)), C.a_all (Nat.lt_of_lt_of_le ha (by decide)), C.b_all (Nat.lt_of_lt_of_le hb (by decide)), idx_val, takeIf]; rfl

theorem iopSltu (d : Fin 32) (a : Fin 32) (b : Fin 32) : Statement (.iopSltu d a b) := by
  have hd := d.isLt
  have ha := a.isLt
  have hb := b.isLt
  obtain ⟨g0, g1, g2, g3, l0⟩ : fld (0x0400000F) 26 6 = 1 ∧ fld (0x0400000F) 11 15 = 0 ∧ 0x0400000F < 2 ^ 32 ∧ fld (0x0400000F) 0 6 = 15 ∧ fld (0x0400000F) 6 5 = 0 := by decide
  have C := cols (d := d.val) (a := a.val) (b := b.val) (Nat.lt_of_lt_of_le hb (by decide)) (Nat.lt_of_lt_of_le ha (by decide)) (Nat.lt_of_lt_of_le hd (by decide)) g2 g1
  refine of_cols C rfl g0 (by decide) ?_
  rw [decodeWord_1 (C.op.trans g0)]; unfold decIop; rw [(C.low 0 6 (by decide)).trans g3]
  simp only [(C.low 6 5 (by decide)).trans l0, C.d_all (Nat.lt_of_lt_of_le hd (by decide)), C.a_all (Nat.lt_of_lt_of_le ha (by decide)), C.b_all (Nat.lt_of_lt_of_le hb (by decide)), idx_val, takeIf]; rfl

theorem iopiAdd (d : Fin 32) (a : Fin 32) (i : BitVec 12) : Statement (.iopiAdd d a i) := by
  have hd := d.isLt
  have ha := a.isLt
  have hi := i.isLt
  refine of_word (0x08000000 + i.toNat * 2 ^ 0 + a.val * 2 ^ 16 + d.val * 2 ^ 21) ?_ (by omega) ?_ ?_
  · rfl
  · have : fld (0x08000000 + i.toNat * 2 ^ 0 + a.val * 2 ^ 16 + d.val * 2 ^ 21) 26 6 = 2 := by simp only [fld]; omega
    rw [this]; decide
  · generalize hw : 0x08000000 + i.toNat * 2 ^ 0 + a.val * 2 ^ 16 + d.val * 2 ^ 21 = w
    have h0 : fld w 26 6 = 2 := by simp only [fld]; omega
    have h1 : fld w 12 4 = 0 := by simp only [fld]; omega
    have e0 : fld w 21 5 = d.val := by simp only [fld]; omega
    have e1 : fld w 16 5 = a.val := by simp only [fld]; omega
    have e2 : fld w 0 12 = i.toNat := by simp only [fld]; omega
    rw [decodeWord_2 h0]; unfold decIopi; rw [h1]
    simp only [e0, e1, e2, idx_val, BitVec.ofNat_toNat, BitVec.setWidth_eq, takeIf]; rfl

theorem iopiAnd (d : Fin 32) (a : Fin 32) (i : BitVec 12) : Statement (.iopiAnd d a i) := by
  have hd := d.isLt
  have ha := a.isLt
  have hi := i.isLt
  refine of_word (0x08001000 + i.toNat * 2 ^ 0 + a.val * 2 ^ 16 + d.val * 2 ^ 21) ?_ (by omega) ?_ ?_
  · rfl
  · have : fld (0x08001000 + i.toNat * 2 ^ 0 + a.val * 2 ^ 16 + d.val * 2 ^ 21) 26 6 = 2 := by simp only [fld]; omega
    rw [this]; decide
  · generalize hw : 0x08001000 + i.toNat * 2 ^ 0 + a.val * 2 ^ 16 + d.val * 2 ^ 21 = w
    have h0 : fld w 26 6 = 2 := by simp only [fld]; omega
    have h1 : fld w 12 4 = 1 := by simp only [fld]; omega
    have e0 : fld w 21 5 = d.val := by simp only [fld]; omega
    have e1 : fld w 16 5 = a.val := by simp only [fld]; omega
    have e2 : fld w 0 12 = i.toNat := by simp only [fld]; omega
    rw [decodeWord_2 h0]; unfold decIopi; rw [h1]
    simp only [e0, e1, e2, idx_val, BitVec.ofNat_toNat, BitVec.setWidth_eq, takeIf]; rfl

theorem iopiOr (d : Fin 32) (a : Fin 32) (i : BitVec 12) : Statement (.iopiOr d a i) := by
  have hd := d.isLt
  have ha := a.isLt
  have hi := i.isLt
  refine of_word (0x08002000 + i.toNat * 2 ^ 0 + a.val * 2 ^ 16 + d.val * 2 ^ 21) ?_ (by omega) ?_ ?_
  · rfl
  · have : fld (0x08002000 + i.toNat * 2 ^ 0 + a.val * 2 ^ 16 + d.val * 2 ^ 21) 26 6 = 2 := by simp only [fld]; omega
    rw [this]; decide
  · generalize hw : 0x08002000 + i.toNat * 2 ^ 0 + a.val * 2 ^ 16 + d.val * 2 ^ 21 = w
    have h0 : fld w 26 6 = 2 := by simp only [fld]; omega
    have h1 : fld w 12 4 = 2 := by simp only [fld]; omega
    have e0 : fld w 21 5 = d.val := by simp only [fld]; omega
    have e1 : fld w 16 5 = a.val := by simp only [fld]; omega
    have e2 : fld w 0 12 = i.toNat := by simp only [fld]; omega
    rw [decodeWord_2 h0]; unfold decIopi; rw [h1]
    simp only [e0, e1, e2, idx_val, BitVec.ofNat_toNat, BitVec.setWidth_eq, takeIf]; rfl

theorem iopiXor (d : Fin 32) (a : Fin 32) (i : BitVec 12) : Statement (.iopiXor d a i) := by
  have hd := d.isLt
  have ha := a.isLt
  have hi := i.isLt
  refine of_word (0x08003000 + i.toNat * 2 ^ 0 + a.val * 2 ^ 16 + d.val * 2 ^ 21) ?_ (by omega) ?_ ?_
  · rfl
  · have : fld (0x08003000 + i.toNat * 2 ^ 0 + a.val * 2 ^ 16 + d.val * 2 ^ 21) 26 6 = 2 := by simp only [fld]; omega
    rw [this]; decide
  · generalize hw : 0x08003000 + i.toNat * 2 ^ 0 + a.val * 2 ^ 16 + d.val * 2 ^ 21 = w
    have h0 : fld w 26 6 = 2 := by simp only [fld]; omega
    have h1 : fld w 12 4 = 3 := by simp only [fld]; omega
    have e0 : fld w 21 5 = d.val := by simp only [fld]; omega
    have e1 : fld w 16 5 = a.val := by simp only [fld]; omega
    have e2 : fld w 0 12 = i.toNat := by simp only [fld]; omega
    rw [decodeWord_2 h0]; unfold decIopi; rw [h1]
    simp only [e0, e1, e2, idx_val, BitVec.ofNat_toNat, BitVec.setWidth_eq, takeIf]; rfl

theorem iopiShl (d : Fin 32) (a : Fin 32) (i : Fin 64) : Statement (.iopiShl d a i) := by
  have hd := d.isLt
  have ha := a.isLt
  have hi := i.isLt
  refine of_word (0x08004000 + i.val * 2 ^ 0 + a.val * 2 ^ 16 + d.val * 2 ^ 21) ?_ (by omega) ?_ ?_
  · rfl
  · have : fld (0x08004000 + i.val * 2 ^ 0 + a.val * 2 ^ 16 + d.val * 2 ^ 21) 26 6 = 2 := by simp only [fld]; omega
    rw [this]; decide
  · generalize hw : 0x08004000 + i.val * 2 ^ 0 + a.val * 2 ^ 16 + d.val * 2 ^ 21 = w
    have h0 : fld w 26 6 = 2 := by simp only [fld]; omega
    have h1 : fld w 12 4 = 4 := by simp only [fld]; omega
    have e0 : fld w 6 6 = 0 := by simp only [fld]; omega
    have e1 : fld w 21 5 = d.val := by simp only [fld]; omega
    have e2 : fld w 16 5 = a.val := by simp only [fld]; omega
    have e3 : fld w 0 6 = i.val := by simp only [fld]; omega
    rw [decodeWord_2 h0]; unfold decIopi; rw [h1]
    simp only [e0, e1, e2, e3, idx_val, takeIf]; rfl

theorem iopiShr (d : Fin 32) (a : Fin 32) (i : Fin 64) : Statement (.iopiShr d a i) := by
  have hd := d.isLt
  have ha := a.isLt
  have hi := i.isLt
  refine of_word (0x08005000 + i.val * 2 ^ 0 + a.val * 2 ^ 16 + d.val * 2 ^ 21) ?_ (by omega) ?_ ?_
  · rfl
  · have : fld (0x08005000 + i.val * 2 ^ 0 + a.val * 2 ^ 16 + d.val * 2 ^ 21) 26 6 = 2 := by simp only [fld]; omega
    rw [this]; decide
  · generalize hw : 0x08005000 + i.val * 2 ^ 0 + a.val * 2 ^ 16 + d.val * 2 ^ 21 = w
    have h0 : fld w 26 6 = 2 := by simp only [fld]; omega
    have h1 : fld w 12 4 = 5 := by simp only [fld]; omega
    have e0 : fld w 6 6 = 0 := by simp only [fld]; omega
    have e1 : fld w 21 5 = d.val := by simp only [fld]; omega
    have e2 : fld w 16 5 = a.val := by simp only [fld]; omega
    have e3 : fld w 0 6 = i.val := by simp only [fld]; omega
    rw [decodeWord_2 h0]; unfold decIopi; rw [h1]
    simp only [e0, e1, e2, e3, idx_val, takeIf]; rfl

theorem iopiSra (d : Fin 32) (a : Fin 32) (i : Fin 64) : Statement (.iopiSra d a i) := by
  have hd := d.isLt
  have ha := a.isLt
  have hi := i.isLt
  refine of_word (0x08006000 + i.val * 2 ^ 0 + a.val * 2 ^ 16 + d.val * 2 ^ 21) ?_ (by omega) ?_ ?_
  · rfl
  · have : fld (0x08006000 + i.val * 2 ^ 0 + a.val * 2 ^ 16 + d.val * 2 ^ 21) 26 6 = 2 := by simp only [fld]; omega
    rw [this]; decide
  · generalize hw : 0x08006000 + i.val * 2 ^ 0 + a.val * 2 ^ 16 + d.val * 2 ^ 21 = w
    have h0 : fld w 26 6 = 2 := by simp only [fld]; omega
    have h1 : fld w 12 4 = 6 := by simp only [fld]; omega
    have e0 : fld w 6 6 = 0 := by simp only [fld]; omega
    have e1 : fld w 21 5 = d.val := by simp only [fld]; omega
    have e2 : fld w 16 5 = a.val := by simp only [fld]; omega
    have e3 : fld w 0 6 = i.val := by simp only [fld]; omega
    rw [decodeWord_2 h0]; unfold decIopi; rw [h1]
    simp only [e0, e1, e2, e3, idx_val, takeIf]; rfl

theorem iopiAddw (d : Fin 32) (a : Fin 32) (i : BitVec 12) : Statement (.iopiAddw d a i) := by
  have hd := d.isLt
  have ha := a.isLt
  have hi := i.isLt
  refine of_word (0x08007000 + i.toNat * 2 ^ 0 + a.val * 2 ^ 16 + d.val * 2 ^ 21) ?_ (by omega) ?_ ?_
  · rfl
  · have : fld (0x08007000 + i.toNat * 2 ^ 0 + a.val * 2 ^ 16 + d.val * 2 ^ 21) 26 6 = 2 := by simp only [fld]; omega
    rw [this]; decide
  · generalize hw : 0x08007000 + i.toNat * 2 ^ 0 + a.val * 2 ^ 16 + d.val * 2 ^ 21 = w
    have h0 : fld w 26 6 = 2 := by simp only [fld]; omega
    have h1 : fld w 12 4 = 7 := by simp only [fld]; omega
    have e0 : fld w 21 5 = d.val := by simp only [fld]; omega
    have e1 : fld w 16 5 = a.val := by simp only [fld]; omega
    have e2 : fld w 0 12 = i.toNat := by simp only [fld]; omega
    rw [decodeWord_2 h0]; unfold decIopi; rw [h1]
    simp only [e0, e1, e2, idx_val, BitVec.ofNat_toNat, BitVec.setWidth_eq, takeIf]; rfl

theorem ihiLo (d : Fin 32) (i : BitVec 16) : Statement (.ihiLo d i) := by
  have hd := d.isLt
  have hi := i.isLt
  refine of_word (0x0C000000 + i.toNat * 2 ^ 0 + d.val * 2 ^ 21) ?_ (by omega) ?_ ?_
  · rfl
  · have : fld (0x0C000000 + i.toNat * 2 ^ 0 + d.val * 2 ^ 21) 26 6 = 3 := by simp only [fld]; omega
    rw [this]; decide
  · generalize hw : 0x0C000000 + i.toNat * 2 ^ 0 + d.val * 2 ^ 21 = w
    have h0 : fld w 26 6 = 3 := by simp only [fld]; omega
    have h1 : fld w 16 5 = 0 := by simp only [fld]; omega
    have e0 : fld w 21 5 = d.val := by simp only [fld]; omega
    have e1 : fld w 0 16 = i.toNat := by simp only [fld]; omega
    rw [decodeWord_3 h0]; unfold decIhi; rw [h1]
    simp only [e0, e1, idx_val, BitVec.ofNat_toNat, BitVec.setWidth_eq, takeIf]; rfl

theorem ihiH1 (d : Fin 32) (i : BitVec 16) : Statement (.ihiH1 d i) := by
  have hd := d.isLt
  have hi := i.isLt
  refine of_word (0x0C010000 + i.toNat * 2 ^ 0 + d.val * 2 ^ 21) ?_ (by omega) ?_ ?_
  · rfl
  · have : fld (0x0C010000 + i.toNat * 2 ^ 0 + d.val * 2 ^ 21) 26 6 = 3 := by simp only [fld]; omega
    rw [this]; decide
  · generalize hw : 0x0C010000 + i.toNat * 2 ^ 0 + d.val * 2 ^ 21 = w
    have h0 : fld w 26 6 = 3 := by simp only [fld]; omega
    have h1 : fld w 16 5 = 1 := by simp only [fld]; omega
    have e0 : fld w 21 5 = d.val := by simp only [fld]; omega
    have e1 : fld w 0 16 = i.toNat := by simp only [fld]; omega
    rw [decodeWord_3 h0]; unfold decIhi; rw [h1]
    simp only [e0, e1, idx_val, BitVec.ofNat_toNat, BitVec.setWidth_eq, takeIf]; rfl

theorem ihiH2 (d : Fin 32) (i : BitVec 16) : Statement (.ihiH2 d i) := by
  have hd := d.isLt
  have hi := i.isLt
  refine of_word (0x0C020000 + i.toNat * 2 ^ 0 + d.val * 2 ^ 21) ?_ (by omega) ?_ ?_
  · rfl
  · have : fld (0x0C020000 + i.toNat * 2 ^ 0 + d.val * 2 ^ 21) 26 6 = 3 := by simp only [fld]; omega
    rw [this]; decide
  · generalize hw : 0x0C020000 + i.toNat * 2 ^ 0 + d.val * 2 ^ 21 = w
    have h0 : fld w 26 6 = 3 := by simp only [fld]; omega
    have h1 : fld w 16 5 = 2 := by simp only [fld]; omega
    have e0 : fld w 21 5 = d.val := by simp only [fld]; omega
    have e1 : fld w 0 16 = i.toNat := by simp only [fld]; omega
    rw [decodeWord_3 h0]; unfold decIhi; rw [h1]
    simp only [e0, e1, idx_val, BitVec.ofNat_toNat, BitVec.setWidth_eq, takeIf]; rfl

theorem ihiH3 (d : Fin 32) (i : BitVec 16) : Statement (.ihiH3 d i) := by
  have hd := d.isLt
  have hi := i.isLt
  refine of_word (0x0C030000 + i.toNat * 2 ^ 0 + d.val * 2 ^ 21) ?_ (by omega) ?_ ?_
  · rfl
  · have : fld (0x0C030000 + i.toNat * 2 ^ 0 + d.val * 2 ^ 21) 26 6 = 3 := by simp only [fld]; omega
    rw [this]; decide
  · generalize hw : 0x0C030000 + i.toNat * 2 ^ 0 + d.val * 2 ^ 21 = w
    have h0 : fld w 26 6 = 3 := by simp only [fld]; omega
    have h1 : fld w 16 5 = 3 := by simp only [fld]; omega
    have e0 : fld w 21 5 = d.val := by simp only [fld]; omega
    have e1 : fld w 0 16 = i.toNat := by simp only [fld]; omega
    rw [decodeWord_3 h0]; unfold decIhi; rw [h1]
    simp only [e0, e1, idx_val, BitVec.ofNat_toNat, BitVec.setWidth_eq, takeIf]; rfl

theorem ihiLou (d : Fin 32) (i : BitVec 16) : Statement (.ihiLou d i) := by
  have hd := d.isLt
  have hi := i.isLt
  refine of_word (0x0C040000 + i.toNat * 2 ^ 0 + d.val * 2 ^ 21) ?_ (by omega) ?_ ?_
  · rfl
  · have : fld (0x0C040000 + i.toNat * 2 ^ 0 + d.val * 2 ^ 21) 26 6 = 3 := by simp only [fld]; omega
    rw [this]; decide
  · generalize hw : 0x0C040000 + i.toNat * 2 ^ 0 + d.val * 2 ^ 21 = w
    have h0 : fld w 26 6 = 3 := by simp only [fld]; omega
    have h1 : fld w 16 5 = 4 := by simp only [fld]; omega
    have e0 : fld w 21 5 = d.val := by simp only [fld]; omega
    have e1 : fld w 0 16 = i.toNat := by simp only [fld]; omega
    rw [decodeWord_3 h0]; unfold decIhi; rw [h1]
    simp only [e0, e1, idx_val, BitVec.ofNat_toNat, BitVec.setWidth_eq, takeIf]; rfl

theorem cmpEq (d : Fin 16) (a : Fin 32) (b : Fin 32) : Statement (.cmpEq d a b) := by
  have hd := d.isLt
  have ha := a.isLt
  have hb := b.isLt
  obtain ⟨g0, g1, g2, g3, l0⟩ : fld (0x10000000) 26 6 = 4 ∧ fld (0x10000000) 11 15 = 0 ∧ 0x10000000 < 2 ^ 32 ∧ fld (0x10000000) 0 6 = 0 ∧ fld (0x10000000) 6 5 = 0 := by decide
  have C := cols (d := d.val) (a := a.val) (b := b.val) (Nat.lt_of_lt_of_le hb (by decide)) (Nat.lt_of_lt_of_le ha (by decide)) (Nat.lt_of_lt_of_le hd (by decide)) g2 g1
  refine of_cols C rfl g0 (by decide) ?_
  rw [decodeWord_4 (C.op.trans g0)]; unfold decCmp; rw [(C.low 0 6 (by decide)).trans g3]
  simp only [(C.low 6 5 (by decide)).trans l0, C.d_top (Nat.lt_of_lt_of_le hd (by decide)), C.d_low (Nat.lt_of_lt_of_le hd (by decide)), C.a_all (Nat.lt_of_lt_of_le ha (by decide)), C.b_all (Nat.lt_of_lt_of_le hb (by decide)), idx_val, takeIf]; rfl

theorem cmpNe (d : Fin 16) (a : Fin 32) (b : Fin 32) : Statement (.cmpNe d a b) := by
  have hd := d.isLt
  have ha := a.isLt
  have hb := b.isLt
  obtain ⟨g0, g1, g2, g3, l0⟩ : fld (0x10000001) 26 6 = 4 ∧ fld (0x10000001) 11 15 = 0 ∧ 0x10000001 < 2 ^ 32 ∧ fld (0x10000001) 0 6 = 1 ∧ fld (0x10000001) 6 5 = 0 := by decide
  have C := cols (d := d.val) (a := a.val) (b := b.val) (Nat.lt_of_lt_of_le hb (by decide)) (Nat.lt_of_lt_of_le ha (by decide)) (Nat.lt_of_lt_of_le hd (by decide)) g2 g1
  refine of_cols C rfl g0 (by decide) ?_
  rw [decodeWord_4 (C.op.trans g0)]; unfold decCmp; rw [(C.low 0 6 (by decide)).trans g3]
  simp only [(C.low 6 5 (by decide)).trans l0, C.d_top (Nat.lt_of_lt_of_le hd (by decide)), C.d_low (Nat.lt_of_lt_of_le hd (by decide)), C.a_all (Nat.lt_of_lt_of_le ha (by decide)), C.b_all (Nat.lt_of_lt_of_le hb (by decide)), idx_val, takeIf]; rfl

theorem cmpLt (d : Fin 16) (a : Fin 32) (b : Fin 32) : Statement (.cmpLt d a b) := by
  have hd := d.isLt
  have ha := a.isLt
  have hb := b.isLt
  obtain ⟨g0, g1, g2, g3, l0⟩ : fld (0x10000002) 26 6 = 4 ∧ fld (0x10000002) 11 15 = 0 ∧ 0x10000002 < 2 ^ 32 ∧ fld (0x10000002) 0 6 = 2 ∧ fld (0x10000002) 6 5 = 0 := by decide
  have C := cols (d := d.val) (a := a.val) (b := b.val) (Nat.lt_of_lt_of_le hb (by decide)) (Nat.lt_of_lt_of_le ha (by decide)) (Nat.lt_of_lt_of_le hd (by decide)) g2 g1
  refine of_cols C rfl g0 (by decide) ?_
  rw [decodeWord_4 (C.op.trans g0)]; unfold decCmp; rw [(C.low 0 6 (by decide)).trans g3]
  simp only [(C.low 6 5 (by decide)).trans l0, C.d_top (Nat.lt_of_lt_of_le hd (by decide)), C.d_low (Nat.lt_of_lt_of_le hd (by decide)), C.a_all (Nat.lt_of_lt_of_le ha (by decide)), C.b_all (Nat.lt_of_lt_of_le hb (by decide)), idx_val, takeIf]; rfl

theorem cmpGe (d : Fin 16) (a : Fin 32) (b : Fin 32) : Statement (.cmpGe d a b) := by
  have hd := d.isLt
  have ha := a.isLt
  have hb := b.isLt
  obtain ⟨g0, g1, g2, g3, l0⟩ : fld (0x10000003) 26 6 = 4 ∧ fld (0x10000003) 11 15 = 0 ∧ 0x10000003 < 2 ^ 32 ∧ fld (0x10000003) 0 6 = 3 ∧ fld (0x10000003) 6 5 = 0 := by decide
  have C := cols (d := d.val) (a := a.val) (b := b.val) (Nat.lt_of_lt_of_le hb (by decide)) (Nat.lt_of_lt_of_le ha (by decide)) (Nat.lt_of_lt_of_le hd (by decide)) g2 g1
  refine of_cols C rfl g0 (by decide) ?_
  rw [decodeWord_4 (C.op.trans g0)]; unfold decCmp; rw [(C.low 0 6 (by decide)).trans g3]
  simp only [(C.low 6 5 (by decide)).trans l0, C.d_top (Nat.lt_of_lt_of_le hd (by decide)), C.d_low (Nat.lt_of_lt_of_le hd (by decide)), C.a_all (Nat.lt_of_lt_of_le ha (by decide)), C.b_all (Nat.lt_of_lt_of_le hb (by decide)), idx_val, takeIf]; rfl

theorem cmpLtu (d : Fin 16) (a : Fin 32) (b : Fin 32) : Statement (.cmpLtu d a b) := by
  have hd := d.isLt
  have ha := a.isLt
  have hb := b.isLt
  obtain ⟨g0, g1, g2, g3, l0⟩ : fld (0x10000004) 26 6 = 4 ∧ fld (0x10000004) 11 15 = 0 ∧ 0x10000004 < 2 ^ 32 ∧ fld (0x10000004) 0 6 = 4 ∧ fld (0x10000004) 6 5 = 0 := by decide
  have C := cols (d := d.val) (a := a.val) (b := b.val) (Nat.lt_of_lt_of_le hb (by decide)) (Nat.lt_of_lt_of_le ha (by decide)) (Nat.lt_of_lt_of_le hd (by decide)) g2 g1
  refine of_cols C rfl g0 (by decide) ?_
  rw [decodeWord_4 (C.op.trans g0)]; unfold decCmp; rw [(C.low 0 6 (by decide)).trans g3]
  simp only [(C.low 6 5 (by decide)).trans l0, C.d_top (Nat.lt_of_lt_of_le hd (by decide)), C.d_low (Nat.lt_of_lt_of_le hd (by decide)), C.a_all (Nat.lt_of_lt_of_le ha (by decide)), C.b_all (Nat.lt_of_lt_of_le hb (by decide)), idx_val, takeIf]; rfl

theorem cmpGeu (d : Fin 16) (a : Fin 32) (b : Fin 32) : Statement (.cmpGeu d a b) := by
  have hd := d.isLt
  have ha := a.isLt
  have hb := b.isLt
  obtain ⟨g0, g1, g2, g3, l0⟩ : fld (0x10000005) 26 6 = 4 ∧ fld (0x10000005) 11 15 = 0 ∧ 0x10000005 < 2 ^ 32 ∧ fld (0x10000005) 0 6 = 5 ∧ fld (0x10000005) 6 5 = 0 := by decide
  have C := cols (d := d.val) (a := a.val) (b := b.val) (Nat.lt_of_lt_of_le hb (by decide)) (Nat.lt_of_lt_of_le ha (by decide)) (Nat.lt_of_lt_of_le hd (by decide)) g2 g1
  refine of_cols C rfl g0 (by decide) ?_
  rw [decodeWord_4 (C.op.trans g0)]; unfold decCmp; rw [(C.low 0 6 (by decide)).trans g3]
  simp only [(C.low 6 5 (by decide)).trans l0, C.d_top (Nat.lt_of_lt_of_le hd (by decide)), C.d_low (Nat.lt_of_lt_of_le hd (by decide)), C.a_all (Nat.lt_of_lt_of_le ha (by decide)), C.b_all (Nat.lt_of_lt_of_le hb (by decide)), idx_val, takeIf]; rfl

theorem cmpTst (d : Fin 16) (a : Fin 32) (b : Fin 32) : Statement (.cmpTst d a b) := by
  have hd := d.isLt
  have ha := a.isLt
  have hb := b.isLt
  obtain ⟨g0, g1, g2, g3, l0⟩ : fld (0x10000006) 26 6 = 4 ∧ fld (0x10000006) 11 15 = 0 ∧ 0x10000006 < 2 ^ 32 ∧ fld (0x10000006) 0 6 = 6 ∧ fld (0x10000006) 6 5 = 0 := by decide
  have C := cols (d := d.val) (a := a.val) (b := b.val) (Nat.lt_of_lt_of_le hb (by decide)) (Nat.lt_of_lt_of_le ha (by decide)) (Nat.lt_of_lt_of_le hd (by decide)) g2 g1
  refine of_cols C rfl g0 (by decide) ?_
  rw [decodeWord_4 (C.op.trans g0)]; unfold decCmp; rw [(C.low 0 6 (by decide)).trans g3]
  simp only [(C.low 6 5 (by decide)).trans l0, C.d_top (Nat.lt_of_lt_of_le hd (by decide)), C.d_low (Nat.lt_of_lt_of_le hd (by decide)), C.a_all (Nat.lt_of_lt_of_le ha (by decide)), C.b_all (Nat.lt_of_lt_of_le hb (by decide)), idx_val, takeIf]; rfl

theorem prdAnd (d : Fin 16) (a : Fin 16) (b : Fin 16) : Statement (.prdAnd d a b) := by
  have hd := d.isLt
  have ha := a.isLt
  have hb := b.isLt
  obtain ⟨g0, g1, g2, g3, l0⟩ : fld (0x14000000) 26 6 = 5 ∧ fld (0x14000000) 11 15 = 0 ∧ 0x14000000 < 2 ^ 32 ∧ fld (0x14000000) 0 6 = 0 ∧ fld (0x14000000) 6 5 = 0 := by decide
  have C := cols (d := d.val) (a := a.val) (b := b.val) (Nat.lt_of_lt_of_le hb (by decide)) (Nat.lt_of_lt_of_le ha (by decide)) (Nat.lt_of_lt_of_le hd (by decide)) g2 g1
  refine of_cols C rfl g0 (by decide) ?_
  rw [decodeWord_5 (C.op.trans g0)]; unfold decPrd; rw [(C.low 0 6 (by decide)).trans g3]
  simp only [(C.low 6 5 (by decide)).trans l0, C.b_top (Nat.lt_of_lt_of_le hb (by decide)), C.a_top (Nat.lt_of_lt_of_le ha (by decide)), C.d_top (Nat.lt_of_lt_of_le hd (by decide)), C.d_low (Nat.lt_of_lt_of_le hd (by decide)), C.a_low (Nat.lt_of_lt_of_le ha (by decide)), C.b_low (Nat.lt_of_lt_of_le hb (by decide)), idx_val, takeIf]; rfl

theorem prdOr (d : Fin 16) (a : Fin 16) (b : Fin 16) : Statement (.prdOr d a b) := by
  have hd := d.isLt
  have ha := a.isLt
  have hb := b.isLt
  obtain ⟨g0, g1, g2, g3, l0⟩ : fld (0x14000001) 26 6 = 5 ∧ fld (0x14000001) 11 15 = 0 ∧ 0x14000001 < 2 ^ 32 ∧ fld (0x14000001) 0 6 = 1 ∧ fld (0x14000001) 6 5 = 0 := by decide
  have C := cols (d := d.val) (a := a.val) (b := b.val) (Nat.lt_of_lt_of_le hb (by decide)) (Nat.lt_of_lt_of_le ha (by decide)) (Nat.lt_of_lt_of_le hd (by decide)) g2 g1
  refine of_cols C rfl g0 (by decide) ?_
  rw [decodeWord_5 (C.op.trans g0)]; unfold decPrd; rw [(C.low 0 6 (by decide)).trans g3]
  simp only [(C.low 6 5 (by decide)).trans l0, C.b_top (Nat.lt_of_lt_of_le hb (by decide)), C.a_top (Nat.lt_of_lt_of_le ha (by decide)), C.d_top (Nat.lt_of_lt_of_le hd (by decide)), C.d_low (Nat.lt_of_lt_of_le hd (by decide)), C.a_low (Nat.lt_of_lt_of_le ha (by decide)), C.b_low (Nat.lt_of_lt_of_le hb (by decide)), idx_val, takeIf]; rfl

theorem prdXor (d : Fin 16) (a : Fin 16) (b : Fin 16) : Statement (.prdXor d a b) := by
  have hd := d.isLt
  have ha := a.isLt
  have hb := b.isLt
  obtain ⟨g0, g1, g2, g3, l0⟩ : fld (0x14000002) 26 6 = 5 ∧ fld (0x14000002) 11 15 = 0 ∧ 0x14000002 < 2 ^ 32 ∧ fld (0x14000002) 0 6 = 2 ∧ fld (0x14000002) 6 5 = 0 := by decide
  have C := cols (d := d.val) (a := a.val) (b := b.val) (Nat.lt_of_lt_of_le hb (by decide)) (Nat.lt_of_lt_of_le ha (by decide)) (Nat.lt_of_lt_of_le hd (by decide)) g2 g1
  refine of_cols C rfl g0 (by decide) ?_
  rw [decodeWord_5 (C.op.trans g0)]; unfold decPrd; rw [(C.low 0 6 (by decide)).trans g3]
  simp only [(C.low 6 5 (by decide)).trans l0, C.b_top (Nat.lt_of_lt_of_le hb (by decide)), C.a_top (Nat.lt_of_lt_of_le ha (by decide)), C.d_top (Nat.lt_of_lt_of_le hd (by decide)), C.d_low (Nat.lt_of_lt_of_le hd (by decide)), C.a_low (Nat.lt_of_lt_of_le ha (by decide)), C.b_low (Nat.lt_of_lt_of_le hb (by decide)), idx_val, takeIf]; rfl

theorem prdAndn (d : Fin 16) (a : Fin 16) (b : Fin 16) : Statement (.prdAndn d a b) := by
  have hd := d.isLt
  have ha := a.isLt
  have hb := b.isLt
  obtain ⟨g0, g1, g2, g3, l0⟩ : fld (0x14000003) 26 6 = 5 ∧ fld (0x14000003) 11 15 = 0 ∧ 0x14000003 < 2 ^ 32 ∧ fld (0x14000003) 0 6 = 3 ∧ fld (0x14000003) 6 5 = 0 := by decide
  have C := cols (d := d.val) (a := a.val) (b := b.val) (Nat.lt_of_lt_of_le hb (by decide)) (Nat.lt_of_lt_of_le ha (by decide)) (Nat.lt_of_lt_of_le hd (by decide)) g2 g1
  refine of_cols C rfl g0 (by decide) ?_
  rw [decodeWord_5 (C.op.trans g0)]; unfold decPrd; rw [(C.low 0 6 (by decide)).trans g3]
  simp only [(C.low 6 5 (by decide)).trans l0, C.b_top (Nat.lt_of_lt_of_le hb (by decide)), C.a_top (Nat.lt_of_lt_of_le ha (by decide)), C.d_top (Nat.lt_of_lt_of_le hd (by decide)), C.d_low (Nat.lt_of_lt_of_le hd (by decide)), C.a_low (Nat.lt_of_lt_of_le ha (by decide)), C.b_low (Nat.lt_of_lt_of_le hb (by decide)), idx_val, takeIf]; rfl

theorem prdOrn (d : Fin 16) (a : Fin 16) (b : Fin 16) : Statement (.prdOrn d a b) := by
  have hd := d.isLt
  have ha := a.isLt
  have hb := b.isLt
  obtain ⟨g0, g1, g2, g3, l0⟩ : fld (0x14000004) 26 6 = 5 ∧ fld (0x14000004) 11 15 = 0 ∧ 0x14000004 < 2 ^ 32 ∧ fld (0x14000004) 0 6 = 4 ∧ fld (0x14000004) 6 5 = 0 := by decide
  have C := cols (d := d.val) (a := a.val) (b := b.val) (Nat.lt_of_lt_of_le hb (by decide)) (Nat.lt_of_lt_of_le ha (by decide)) (Nat.lt_of_lt_of_le hd (by decide)) g2 g1
  refine of_cols C rfl g0 (by decide) ?_
  rw [decodeWord_5 (C.op.trans g0)]; unfold decPrd; rw [(C.low 0 6 (by decide)).trans g3]
  simp only [(C.low 6 5 (by decide)).trans l0, C.b_top (Nat.lt_of_lt_of_le hb (by decide)), C.a_top (Nat.lt_of_lt_of_le ha (by decide)), C.d_top (Nat.lt_of_lt_of_le hd (by decide)), C.d_low (Nat.lt_of_lt_of_le hd (by decide)), C.a_low (Nat.lt_of_lt_of_le ha (by decide)), C.b_low (Nat.lt_of_lt_of_le hb (by decide)), idx_val, takeIf]; rfl

theorem prdNor (d : Fin 16) (a : Fin 16) (b : Fin 16) : Statement (.prdNor d a b) := by
  have hd := d.isLt
  have ha := a.isLt
  have hb := b.isLt
  obtain ⟨g0, g1, g2, g3, l0⟩ : fld (0x14000005) 26 6 = 5 ∧ fld (0x14000005) 11 15 = 0 ∧ 0x14000005 < 2 ^ 32 ∧ fld (0x14000005) 0 6 = 5 ∧ fld (0x14000005) 6 5 = 0 := by decide
  have C := cols (d := d.val) (a := a.val) (b := b.val) (Nat.lt_of_lt_of_le hb (by decide)) (Nat.lt_of_lt_of_le ha (by decide)) (Nat.lt_of_lt_of_le hd (by decide)) g2 g1
  refine of_cols C rfl g0 (by decide) ?_
  rw [decodeWord_5 (C.op.trans g0)]; unfold decPrd; rw [(C.low 0 6 (by decide)).trans g3]
  simp only [(C.low 6 5 (by decide)).trans l0, C.b_top (Nat.lt_of_lt_of_le hb (by decide)), C.a_top (Nat.lt_of_lt_of_le ha (by decide)), C.d_top (Nat.lt_of_lt_of_le hd (by decide)), C.d_low (Nat.lt_of_lt_of_le hd (by decide)), C.a_low (Nat.lt_of_lt_of_le ha (by decide)), C.b_low (Nat.lt_of_lt_of_le hb (by decide)), idx_val, takeIf]; rfl

theorem prdFrs (d : Fin 16) (a : Fin 32) : Statement (.prdFrs d a) := by
  have hd := d.isLt
  have ha := a.isLt
  obtain ⟨g0, g1, g2, g3⟩ : fld (0x14000006) 26 6 = 5 ∧ fld (0x14000006) 11 15 = 0 ∧ 0x14000006 < 2 ^ 32 ∧ fld (0x14000006) 0 6 = 6 := by decide
  have C : Cols (0x14000006 + a.val * 2 ^ 16 + d.val * 2 ^ 21) (0x14000006) (d.val) a.val 0 := by
    simpa only [Nat.zero_mul, Nat.add_zero] using cols (d := d.val) (a := a.val) (b := 0) (by decide) (Nat.lt_of_lt_of_le ha (by decide)) (Nat.lt_of_lt_of_le hd (by decide)) g2 g1
  refine of_cols C rfl g0 (by decide) ?_
  have s0 : fld (0x14000006 + a.val * 2 ^ 16 + d.val * 2 ^ 21) 6 10 = 0 := by simp only [fld]; omega
  rw [decodeWord_5 (C.op.trans g0)]; unfold decPrd; rw [(C.low 0 6 (by decide)).trans g3]
  simp only [C.d_top (Nat.lt_of_lt_of_le hd (by decide)), C.d_low (Nat.lt_of_lt_of_le hd (by decide)), C.a_all (Nat.lt_of_lt_of_le ha (by decide)), s0, idx_val, takeIf]; rfl

theorem prdTos (d : Fin 32) (a : Fin 16) : Statement (.prdTos d a) := by
  have hd := d.isLt
  have ha := a.isLt
  obtain ⟨g0, g1, g2, g3⟩ : fld (0x14000007) 26 6 = 5 ∧ fld (0x14000007) 11 15 = 0 ∧ 0x14000007 < 2 ^ 32 ∧ fld (0x14000007) 0 6 = 7 := by decide
  have C : Cols (0x14000007 + a.val * 2 ^ 16 + d.val * 2 ^ 21) (0x14000007) (d.val) a.val 0 := by
    simpa only [Nat.zero_mul, Nat.add_zero] using cols (d := d.val) (a := a.val) (b := 0) (by decide) (Nat.lt_of_lt_of_le ha (by decide)) (Nat.lt_of_lt_of_le hd (by decide)) g2 g1
  refine of_cols C rfl g0 (by decide) ?_
  have s0 : fld (0x14000007 + a.val * 2 ^ 16 + d.val * 2 ^ 21) 6 10 = 0 := by simp only [fld]; omega
  rw [decodeWord_5 (C.op.trans g0)]; unfold decPrd; rw [(C.low 0 6 (by decide)).trans g3]
  simp only [C.a_top (Nat.lt_of_lt_of_le ha (by decide)), C.d_all (Nat.lt_of_lt_of_le hd (by decide)), C.a_low (Nat.lt_of_lt_of_le ha (by decide)), s0, idx_val, takeIf]; rfl

theorem prdRds (d : Fin 32) : Statement (.prdRds d) := by
  have hd := d.isLt
  obtain ⟨g0, g1, g2, g3⟩ : fld (0x14000008) 26 6 = 5 ∧ fld (0x14000008) 11 15 = 0 ∧ 0x14000008 < 2 ^ 32 ∧ fld (0x14000008) 0 6 = 8 := by decide
  have C : Cols (0x14000008 + d.val * 2 ^ 21) (0x14000008) (d.val) 0 0 := by
    simpa only [Nat.zero_mul, Nat.add_zero] using cols (d := d.val) (a := 0) (b := 0) (by decide) (by decide) (Nat.lt_of_lt_of_le hd (by decide)) g2 g1
  refine of_cols C rfl g0 (by decide) ?_
  have s0 : fld (0x14000008 + d.val * 2 ^ 21) 6 15 = 0 := by simp only [fld]; omega
  rw [decodeWord_5 (C.op.trans g0)]; unfold decPrd; rw [(C.low 0 6 (by decide)).trans g3]
  simp only [C.d_all (Nat.lt_of_lt_of_le hd (by decide)), s0, idx_val, takeIf]; rfl

theorem prdWrs (a : Fin 32) : Statement (.prdWrs a) := by
  have ha := a.isLt
  obtain ⟨g0, g1, g2, g3⟩ : fld (0x14000009) 26 6 = 5 ∧ fld (0x14000009) 11 15 = 0 ∧ 0x14000009 < 2 ^ 32 ∧ fld (0x14000009) 0 6 = 9 := by decide
  have C := cols_a (a := a.val) (Nat.lt_of_lt_of_le ha (by decide)) g2 g1
  refine of_cols C rfl g0 (by decide) ?_
  have s0 : fld (0x14000009 + a.val * 2 ^ 16) 6 10 = 0 := by simp only [fld]; omega
  rw [decodeWord_5 (C.op.trans g0)]; unfold decPrd; rw [(C.low 0 6 (by decide)).trans g3]
  simp only [C.d_all (by decide), C.a_all (Nat.lt_of_lt_of_le ha (by decide)), s0, idx_val, takeIf]; rfl

theorem br (n : Bool) (p : Fin 16) (o : BitVec 21) : Statement (.br n p o) := by
  have hn := Bool.toNat_lt n
  have hp := p.isLt
  have ho := o.isLt
  refine of_word (0x18000000 + o.toNat * 2 ^ 0 + p.val * 2 ^ 21 + n.toNat * 2 ^ 25) ?_ (by omega) ?_ ?_
  · rfl
  · have : fld (0x18000000 + o.toNat * 2 ^ 0 + p.val * 2 ^ 21 + n.toNat * 2 ^ 25) 26 6 = 6 := by simp only [fld]; omega
    rw [this]; decide
  · generalize hw : 0x18000000 + o.toNat * 2 ^ 0 + p.val * 2 ^ 21 + n.toNat * 2 ^ 25 = w
    have h0 : fld w 26 6 = 6 := by simp only [fld]; omega
    have e0 : fld w 25 1 = n.toNat := by simp only [fld]; omega
    have e1 : fld w 21 4 = p.val := by simp only [fld]; omega
    have e2 : fld w 0 21 = o.toNat := by simp only [fld]; omega
    rw [decodeWord_6 h0]; unfold decBr
    simp only [e0, e1, e2, idx_val, toNat_eq_one, BitVec.ofNat_toNat, BitVec.setWidth_eq, takeIf]; rfl

theorem jmpR (a : Fin 32) : Statement (.jmpR a) := by
  have ha := a.isLt
  obtain ⟨g0, g1, g2, g3⟩ : fld (0x1C000000) 26 6 = 7 ∧ fld (0x1C000000) 11 15 = 0 ∧ 0x1C000000 < 2 ^ 32 ∧ fld (0x1C000000) 0 6 = 0 := by decide
  have C := cols_a (a := a.val) (Nat.lt_of_lt_of_le ha (by decide)) g2 g1
  refine of_cols C rfl g0 (by decide) ?_
  have s0 : fld (0x1C000000 + a.val * 2 ^ 16) 6 10 = 0 := by simp only [fld]; omega
  rw [decodeWord_7 (C.op.trans g0)]; unfold decJmp; rw [(C.low 0 6 (by decide)).trans g3]
  simp only [C.d_all (by decide), C.a_all (Nat.lt_of_lt_of_le ha (by decide)), s0, idx_val, takeIf]; rfl

theorem jmpLink (d : Fin 32) (a : Fin 32) : Statement (.jmpLink d a) := by
  have hd := d.isLt
  have ha := a.isLt
  obtain ⟨g0, g1, g2, g3⟩ : fld (0x1C000001) 26 6 = 7 ∧ fld (0x1C000001) 11 15 = 0 ∧ 0x1C000001 < 2 ^ 32 ∧ fld (0x1C000001) 0 6 = 1 := by decide
  have C : Cols (0x1C000001 + a.val * 2 ^ 16 + d.val * 2 ^ 21) (0x1C000001) (d.val) a.val 0 := by
    simpa only [Nat.zero_mul, Nat.add_zero] using cols (d := d.val) (a := a.val) (b := 0) (by decide) (Nat.lt_of_lt_of_le ha (by decide)) (Nat.lt_of_lt_of_le hd (by decide)) g2 g1
  refine of_cols C rfl g0 (by decide) ?_
  have s0 : fld (0x1C000001 + a.val * 2 ^ 16 + d.val * 2 ^ 21) 6 10 = 0 := by simp only [fld]; omega
  rw [decodeWord_7 (C.op.trans g0)]; unfold decJmp; rw [(C.low 0 6 (by decide)).trans g3]
  simp only [C.d_all (Nat.lt_of_lt_of_le hd (by decide)), C.a_all (Nat.lt_of_lt_of_le ha (by decide)), s0, idx_val, takeIf]; rfl

theorem loopSp (c : Fin 8) (a : Fin 32) (i : BitVec 12) : Statement (.loopSp c a i) := by
  have hc := c.isLt
  have ha := a.isLt
  have hi := i.isLt
  refine of_word (0x20000000 + i.toNat * 2 ^ 0 + a.val * 2 ^ 16 + c.val * 2 ^ 21) ?_ (by omega) ?_ ?_
  · rfl
  · have : fld (0x20000000 + i.toNat * 2 ^ 0 + a.val * 2 ^ 16 + c.val * 2 ^ 21) 26 6 = 8 := by simp only [fld]; omega
    rw [this]; decide
  · generalize hw : 0x20000000 + i.toNat * 2 ^ 0 + a.val * 2 ^ 16 + c.val * 2 ^ 21 = w
    have h0 : fld w 26 6 = 8 := by simp only [fld]; omega
    have h1 : fld w 12 4 = 0 := by simp only [fld]; omega
    have e0 : fld w 24 2 = 0 := by simp only [fld]; omega
    have e1 : fld w 21 3 = c.val := by simp only [fld]; omega
    have e2 : fld w 16 5 = a.val := by simp only [fld]; omega
    have e3 : fld w 0 12 = i.toNat := by simp only [fld]; omega
    rw [decodeWord_8 h0]; unfold decLoop; rw [h1]
    simp only [e0, e1, e2, e3, idx_val, BitVec.ofNat_toNat, BitVec.setWidth_eq, takeIf]; rfl

theorem ldsB8 (d : Fin 32) (a : Fin 32) (g : Bool) (i : BitVec 12) : Statement (.ldsB8 d a g i) := by
  have hd := d.isLt
  have ha := a.isLt
  have hg := Bool.toNat_lt g
  have hi := i.isLt
  refine of_word (0x24000000 + i.toNat * 2 ^ 0 + g.toNat * 2 ^ 15 + a.val * 2 ^ 16 + d.val * 2 ^ 21) ?_ (by omega) ?_ ?_
  · rfl
  · have : fld (0x24000000 + i.toNat * 2 ^ 0 + g.toNat * 2 ^ 15 + a.val * 2 ^ 16 + d.val * 2 ^ 21) 26 6 = 9 := by simp only [fld]; omega
    rw [this]; decide
  · generalize hw : 0x24000000 + i.toNat * 2 ^ 0 + g.toNat * 2 ^ 15 + a.val * 2 ^ 16 + d.val * 2 ^ 21 = w
    have h0 : fld w 26 6 = 9 := by simp only [fld]; omega
    have h1 : fld w 12 3 = 0 := by simp only [fld]; omega
    have e0 : fld w 21 5 = d.val := by simp only [fld]; omega
    have e1 : fld w 16 5 = a.val := by simp only [fld]; omega
    have e2 : fld w 15 1 = g.toNat := by simp only [fld]; omega
    have e3 : fld w 0 12 = i.toNat := by simp only [fld]; omega
    rw [decodeWord_9 h0]; unfold decLds; rw [h1]
    simp only [e0, e1, e2, e3, idx_val, toNat_eq_one, BitVec.ofNat_toNat, BitVec.setWidth_eq, takeIf]; rfl

theorem ldsI8 (d : Fin 32) (a : Fin 32) (g : Bool) (i : BitVec 12) : Statement (.ldsI8 d a g i) := by
  have hd := d.isLt
  have ha := a.isLt
  have hg := Bool.toNat_lt g
  have hi := i.isLt
  refine of_word (0x24001000 + i.toNat * 2 ^ 0 + g.toNat * 2 ^ 15 + a.val * 2 ^ 16 + d.val * 2 ^ 21) ?_ (by omega) ?_ ?_
  · rfl
  · have : fld (0x24001000 + i.toNat * 2 ^ 0 + g.toNat * 2 ^ 15 + a.val * 2 ^ 16 + d.val * 2 ^ 21) 26 6 = 9 := by simp only [fld]; omega
    rw [this]; decide
  · generalize hw : 0x24001000 + i.toNat * 2 ^ 0 + g.toNat * 2 ^ 15 + a.val * 2 ^ 16 + d.val * 2 ^ 21 = w
    have h0 : fld w 26 6 = 9 := by simp only [fld]; omega
    have h1 : fld w 12 3 = 1 := by simp only [fld]; omega
    have e0 : fld w 21 5 = d.val := by simp only [fld]; omega
    have e1 : fld w 16 5 = a.val := by simp only [fld]; omega
    have e2 : fld w 15 1 = g.toNat := by simp only [fld]; omega
    have e3 : fld w 0 12 = i.toNat := by simp only [fld]; omega
    rw [decodeWord_9 h0]; unfold decLds; rw [h1]
    simp only [e0, e1, e2, e3, idx_val, toNat_eq_one, BitVec.ofNat_toNat, BitVec.setWidth_eq, takeIf]; rfl

theorem ldsB16 (d : Fin 32) (a : Fin 32) (g : Bool) (i : BitVec 12) : Statement (.ldsB16 d a g i) := by
  have hd := d.isLt
  have ha := a.isLt
  have hg := Bool.toNat_lt g
  have hi := i.isLt
  refine of_word (0x24002000 + i.toNat * 2 ^ 0 + g.toNat * 2 ^ 15 + a.val * 2 ^ 16 + d.val * 2 ^ 21) ?_ (by omega) ?_ ?_
  · rfl
  · have : fld (0x24002000 + i.toNat * 2 ^ 0 + g.toNat * 2 ^ 15 + a.val * 2 ^ 16 + d.val * 2 ^ 21) 26 6 = 9 := by simp only [fld]; omega
    rw [this]; decide
  · generalize hw : 0x24002000 + i.toNat * 2 ^ 0 + g.toNat * 2 ^ 15 + a.val * 2 ^ 16 + d.val * 2 ^ 21 = w
    have h0 : fld w 26 6 = 9 := by simp only [fld]; omega
    have h1 : fld w 12 3 = 2 := by simp only [fld]; omega
    have e0 : fld w 21 5 = d.val := by simp only [fld]; omega
    have e1 : fld w 16 5 = a.val := by simp only [fld]; omega
    have e2 : fld w 15 1 = g.toNat := by simp only [fld]; omega
    have e3 : fld w 0 12 = i.toNat := by simp only [fld]; omega
    rw [decodeWord_9 h0]; unfold decLds; rw [h1]
    simp only [e0, e1, e2, e3, idx_val, toNat_eq_one, BitVec.ofNat_toNat, BitVec.setWidth_eq, takeIf]; rfl

theorem ldsI16 (d : Fin 32) (a : Fin 32) (g : Bool) (i : BitVec 12) : Statement (.ldsI16 d a g i) := by
  have hd := d.isLt
  have ha := a.isLt
  have hg := Bool.toNat_lt g
  have hi := i.isLt
  refine of_word (0x24003000 + i.toNat * 2 ^ 0 + g.toNat * 2 ^ 15 + a.val * 2 ^ 16 + d.val * 2 ^ 21) ?_ (by omega) ?_ ?_
  · rfl
  · have : fld (0x24003000 + i.toNat * 2 ^ 0 + g.toNat * 2 ^ 15 + a.val * 2 ^ 16 + d.val * 2 ^ 21) 26 6 = 9 := by simp only [fld]; omega
    rw [this]; decide
  · generalize hw : 0x24003000 + i.toNat * 2 ^ 0 + g.toNat * 2 ^ 15 + a.val * 2 ^ 16 + d.val * 2 ^ 21 = w
    have h0 : fld w 26 6 = 9 := by simp only [fld]; omega
    have h1 : fld w 12 3 = 3 := by simp only [fld]; omega
    have e0 : fld w 21 5 = d.val := by simp only [fld]; omega
    have e1 : fld w 16 5 = a.val := by simp only [fld]; omega
    have e2 : fld w 15 1 = g.toNat := by simp only [fld]; omega
    have e3 : fld w 0 12 = i.toNat := by simp only [fld]; omega
    rw [decodeWord_9 h0]; unfold decLds; rw [h1]
    simp only [e0, e1, e2, e3, idx_val, toNat_eq_one, BitVec.ofNat_toNat, BitVec.setWidth_eq, takeIf]; rfl

theorem ldsB32 (d : Fin 32) (a : Fin 32) (g : Bool) (i : BitVec 12) : Statement (.ldsB32 d a g i) := by
  have hd := d.isLt
  have ha := a.isLt
  have hg := Bool.toNat_lt g
  have hi := i.isLt
  refine of_word (0x24004000 + i.toNat * 2 ^ 0 + g.toNat * 2 ^ 15 + a.val * 2 ^ 16 + d.val * 2 ^ 21) ?_ (by omega) ?_ ?_
  · rfl
  · have : fld (0x24004000 + i.toNat * 2 ^ 0 + g.toNat * 2 ^ 15 + a.val * 2 ^ 16 + d.val * 2 ^ 21) 26 6 = 9 := by simp only [fld]; omega
    rw [this]; decide
  · generalize hw : 0x24004000 + i.toNat * 2 ^ 0 + g.toNat * 2 ^ 15 + a.val * 2 ^ 16 + d.val * 2 ^ 21 = w
    have h0 : fld w 26 6 = 9 := by simp only [fld]; omega
    have h1 : fld w 12 3 = 4 := by simp only [fld]; omega
    have e0 : fld w 21 5 = d.val := by simp only [fld]; omega
    have e1 : fld w 16 5 = a.val := by simp only [fld]; omega
    have e2 : fld w 15 1 = g.toNat := by simp only [fld]; omega
    have e3 : fld w 0 12 = i.toNat := by simp only [fld]; omega
    rw [decodeWord_9 h0]; unfold decLds; rw [h1]
    simp only [e0, e1, e2, e3, idx_val, toNat_eq_one, BitVec.ofNat_toNat, BitVec.setWidth_eq, takeIf]; rfl

theorem ldsI32 (d : Fin 32) (a : Fin 32) (g : Bool) (i : BitVec 12) : Statement (.ldsI32 d a g i) := by
  have hd := d.isLt
  have ha := a.isLt
  have hg := Bool.toNat_lt g
  have hi := i.isLt
  refine of_word (0x24005000 + i.toNat * 2 ^ 0 + g.toNat * 2 ^ 15 + a.val * 2 ^ 16 + d.val * 2 ^ 21) ?_ (by omega) ?_ ?_
  · rfl
  · have : fld (0x24005000 + i.toNat * 2 ^ 0 + g.toNat * 2 ^ 15 + a.val * 2 ^ 16 + d.val * 2 ^ 21) 26 6 = 9 := by simp only [fld]; omega
    rw [this]; decide
  · generalize hw : 0x24005000 + i.toNat * 2 ^ 0 + g.toNat * 2 ^ 15 + a.val * 2 ^ 16 + d.val * 2 ^ 21 = w
    have h0 : fld w 26 6 = 9 := by simp only [fld]; omega
    have h1 : fld w 12 3 = 5 := by simp only [fld]; omega
    have e0 : fld w 21 5 = d.val := by simp only [fld]; omega
    have e1 : fld w 16 5 = a.val := by simp only [fld]; omega
    have e2 : fld w 15 1 = g.toNat := by simp only [fld]; omega
    have e3 : fld w 0 12 = i.toNat := by simp only [fld]; omega
    rw [decodeWord_9 h0]; unfold decLds; rw [h1]
    simp only [e0, e1, e2, e3, idx_val, toNat_eq_one, BitVec.ofNat_toNat, BitVec.setWidth_eq, takeIf]; rfl

theorem ldsB64 (d : Fin 32) (a : Fin 32) (g : Bool) (i : BitVec 12) : Statement (.ldsB64 d a g i) := by
  have hd := d.isLt
  have ha := a.isLt
  have hg := Bool.toNat_lt g
  have hi := i.isLt
  refine of_word (0x24006000 + i.toNat * 2 ^ 0 + g.toNat * 2 ^ 15 + a.val * 2 ^ 16 + d.val * 2 ^ 21) ?_ (by omega) ?_ ?_
  · rfl
  · have : fld (0x24006000 + i.toNat * 2 ^ 0 + g.toNat * 2 ^ 15 + a.val * 2 ^ 16 + d.val * 2 ^ 21) 26 6 = 9 := by simp only [fld]; omega
    rw [this]; decide
  · generalize hw : 0x24006000 + i.toNat * 2 ^ 0 + g.toNat * 2 ^ 15 + a.val * 2 ^ 16 + d.val * 2 ^ 21 = w
    have h0 : fld w 26 6 = 9 := by simp only [fld]; omega
    have h1 : fld w 12 3 = 6 := by simp only [fld]; omega
    have e0 : fld w 21 5 = d.val := by simp only [fld]; omega
    have e1 : fld w 16 5 = a.val := by simp only [fld]; omega
    have e2 : fld w 15 1 = g.toNat := by simp only [fld]; omega
    have e3 : fld w 0 12 = i.toNat := by simp only [fld]; omega
    rw [decodeWord_9 h0]; unfold decLds; rw [h1]
    simp only [e0, e1, e2, e3, idx_val, toNat_eq_one, BitVec.ofNat_toNat, BitVec.setWidth_eq, takeIf]; rfl

theorem stsB8 (d : Fin 32) (a : Fin 32) (g : Bool) (i : BitVec 12) : Statement (.stsB8 d a g i) := by
  have hd := d.isLt
  have ha := a.isLt
  have hg := Bool.toNat_lt g
  have hi := i.isLt
  refine of_word (0x28000000 + i.toNat * 2 ^ 0 + g.toNat * 2 ^ 15 + a.val * 2 ^ 16 + d.val * 2 ^ 21) ?_ (by omega) ?_ ?_
  · rfl
  · have : fld (0x28000000 + i.toNat * 2 ^ 0 + g.toNat * 2 ^ 15 + a.val * 2 ^ 16 + d.val * 2 ^ 21) 26 6 = 10 := by simp only [fld]; omega
    rw [this]; decide
  · generalize hw : 0x28000000 + i.toNat * 2 ^ 0 + g.toNat * 2 ^ 15 + a.val * 2 ^ 16 + d.val * 2 ^ 21 = w
    have h0 : fld w 26 6 = 10 := by simp only [fld]; omega
    have h1 : fld w 12 3 = 0 := by simp only [fld]; omega
    have e0 : fld w 21 5 = d.val := by simp only [fld]; omega
    have e1 : fld w 16 5 = a.val := by simp only [fld]; omega
    have e2 : fld w 15 1 = g.toNat := by simp only [fld]; omega
    have e3 : fld w 0 12 = i.toNat := by simp only [fld]; omega
    rw [decodeWord_10 h0]; unfold decSts; rw [h1]
    simp only [e0, e1, e2, e3, idx_val, toNat_eq_one, BitVec.ofNat_toNat, BitVec.setWidth_eq, takeIf]; rfl

theorem stsB16 (d : Fin 32) (a : Fin 32) (g : Bool) (i : BitVec 12) : Statement (.stsB16 d a g i) := by
  have hd := d.isLt
  have ha := a.isLt
  have hg := Bool.toNat_lt g
  have hi := i.isLt
  refine of_word (0x28002000 + i.toNat * 2 ^ 0 + g.toNat * 2 ^ 15 + a.val * 2 ^ 16 + d.val * 2 ^ 21) ?_ (by omega) ?_ ?_
  · rfl
  · have : fld (0x28002000 + i.toNat * 2 ^ 0 + g.toNat * 2 ^ 15 + a.val * 2 ^ 16 + d.val * 2 ^ 21) 26 6 = 10 := by simp only [fld]; omega
    rw [this]; decide
  · generalize hw : 0x28002000 + i.toNat * 2 ^ 0 + g.toNat * 2 ^ 15 + a.val * 2 ^ 16 + d.val * 2 ^ 21 = w
    have h0 : fld w 26 6 = 10 := by simp only [fld]; omega
    have h1 : fld w 12 3 = 2 := by simp only [fld]; omega
    have e0 : fld w 21 5 = d.val := by simp only [fld]; omega
    have e1 : fld w 16 5 = a.val := by simp only [fld]; omega
    have e2 : fld w 15 1 = g.toNat := by simp only [fld]; omega
    have e3 : fld w 0 12 = i.toNat := by simp only [fld]; omega
    rw [decodeWord_10 h0]; unfold decSts; rw [h1]
    simp only [e0, e1, e2, e3, idx_val, toNat_eq_one, BitVec.ofNat_toNat, BitVec.setWidth_eq, takeIf]; rfl

theorem stsB32 (d : Fin 32) (a : Fin 32) (g : Bool) (i : BitVec 12) : Statement (.stsB32 d a g i) := by
  have hd := d.isLt
  have ha := a.isLt
  have hg := Bool.toNat_lt g
  have hi := i.isLt
  refine of_word (0x28004000 + i.toNat * 2 ^ 0 + g.toNat * 2 ^ 15 + a.val * 2 ^ 16 + d.val * 2 ^ 21) ?_ (by omega) ?_ ?_
  · rfl
  · have : fld (0x28004000 + i.toNat * 2 ^ 0 + g.toNat * 2 ^ 15 + a.val * 2 ^ 16 + d.val * 2 ^ 21) 26 6 = 10 := by simp only [fld]; omega
    rw [this]; decide
  · generalize hw : 0x28004000 + i.toNat * 2 ^ 0 + g.toNat * 2 ^ 15 + a.val * 2 ^ 16 + d.val * 2 ^ 21 = w
    have h0 : fld w 26 6 = 10 := by simp only [fld]; omega
    have h1 : fld w 12 3 = 4 := by simp only [fld]; omega
    have e0 : fld w 21 5 = d.val := by simp only [fld]; omega
    have e1 : fld w 16 5 = a.val := by simp only [fld]; omega
    have e2 : fld w 15 1 = g.toNat := by simp only [fld]; omega
    have e3 : fld w 0 12 = i.toNat := by simp only [fld]; omega
    rw [decodeWord_10 h0]; unfold decSts; rw [h1]
    simp only [e0, e1, e2, e3, idx_val, toNat_eq_one, BitVec.ofNat_toNat, BitVec.setWidth_eq, takeIf]; rfl

theorem stsB64 (d : Fin 32) (a : Fin 32) (g : Bool) (i : BitVec 12) : Statement (.stsB64 d a g i) := by
  have hd := d.isLt
  have ha := a.isLt
  have hg := Bool.toNat_lt g
  have hi := i.isLt
  refine of_word (0x28006000 + i.toNat * 2 ^ 0 + g.toNat * 2 ^ 15 + a.val * 2 ^ 16 + d.val * 2 ^ 21) ?_ (by omega) ?_ ?_
  · rfl
  · have : fld (0x28006000 + i.toNat * 2 ^ 0 + g.toNat * 2 ^ 15 + a.val * 2 ^ 16 + d.val * 2 ^ 21) 26 6 = 10 := by simp only [fld]; omega
    rw [this]; decide
  · generalize hw : 0x28006000 + i.toNat * 2 ^ 0 + g.toNat * 2 ^ 15 + a.val * 2 ^ 16 + d.val * 2 ^ 21 = w
    have h0 : fld w 26 6 = 10 := by simp only [fld]; omega
    have h1 : fld w 12 3 = 6 := by simp only [fld]; omega
    have e0 : fld w 21 5 = d.val := by simp only [fld]; omega
    have e1 : fld w 16 5 = a.val := by simp only [fld]; omega
    have e2 : fld w 15 1 = g.toNat := by simp only [fld]; omega
    have e3 : fld w 0 12 = i.toNat := by simp only [fld]; omega
    rw [decodeWord_10 h0]; unfold decSts; rw [h1]
    simp only [e0, e1, e2, e3, idx_val, toNat_eq_one, BitVec.ofNat_toNat, BitVec.setWidth_eq, takeIf]; rfl

theorem csrRd (d : Fin 32) (c : BitVec 12) : Statement (.csrRd d c) := by
  have hd := d.isLt
  have hc := c.isLt
  refine of_word (0x2C000000 + c.toNat * 2 ^ 0 + d.val * 2 ^ 21) ?_ (by omega) ?_ ?_
  · rfl
  · have : fld (0x2C000000 + c.toNat * 2 ^ 0 + d.val * 2 ^ 21) 26 6 = 11 := by simp only [fld]; omega
    rw [this]; decide
  · generalize hw : 0x2C000000 + c.toNat * 2 ^ 0 + d.val * 2 ^ 21 = w
    have h0 : fld w 26 6 = 11 := by simp only [fld]; omega
    have h1 : fld w 12 4 = 0 := by simp only [fld]; omega
    have e0 : fld w 16 5 = 0 := by simp only [fld]; omega
    have e1 : fld w 21 5 = d.val := by simp only [fld]; omega
    have e2 : fld w 0 12 = c.toNat := by simp only [fld]; omega
    rw [decodeWord_11 h0]; unfold decCsr; rw [h1]
    simp only [e0, e1, e2, idx_val, BitVec.ofNat_toNat, BitVec.setWidth_eq, takeIf]; rfl

theorem csrWr (a : Fin 32) (c : BitVec 12) : Statement (.csrWr a c) := by
  have ha := a.isLt
  have hc := c.isLt
  refine of_word (0x2C001000 + c.toNat * 2 ^ 0 + a.val * 2 ^ 16) ?_ (by omega) ?_ ?_
  · rfl
  · have : fld (0x2C001000 + c.toNat * 2 ^ 0 + a.val * 2 ^ 16) 26 6 = 11 := by simp only [fld]; omega
    rw [this]; decide
  · generalize hw : 0x2C001000 + c.toNat * 2 ^ 0 + a.val * 2 ^ 16 = w
    have h0 : fld w 26 6 = 11 := by simp only [fld]; omega
    have h1 : fld w 12 4 = 1 := by simp only [fld]; omega
    have e0 : fld w 21 5 = 0 := by simp only [fld]; omega
    have e1 : fld w 16 5 = a.val := by simp only [fld]; omega
    have e2 : fld w 0 12 = c.toNat := by simp only [fld]; omega
    rw [decodeWord_11 h0]; unfold decCsr; rw [h1]
    simp only [e0, e1, e2, idx_val, BitVec.ofNat_toNat, BitVec.setWidth_eq, takeIf]; rfl

theorem csrSet (d : Fin 32) (a : Fin 32) (c : BitVec 12) : Statement (.csrSet d a c) := by
  have hd := d.isLt
  have ha := a.isLt
  have hc := c.isLt
  refine of_word (0x2C002000 + c.toNat * 2 ^ 0 + a.val * 2 ^ 16 + d.val * 2 ^ 21) ?_ (by omega) ?_ ?_
  · rfl
  · have : fld (0x2C002000 + c.toNat * 2 ^ 0 + a.val * 2 ^ 16 + d.val * 2 ^ 21) 26 6 = 11 := by simp only [fld]; omega
    rw [this]; decide
  · generalize hw : 0x2C002000 + c.toNat * 2 ^ 0 + a.val * 2 ^ 16 + d.val * 2 ^ 21 = w
    have h0 : fld w 26 6 = 11 := by simp only [fld]; omega
    have h1 : fld w 12 4 = 2 := by simp only [fld]; omega
    have e0 : fld w 21 5 = d.val := by simp only [fld]; omega
    have e1 : fld w 16 5 = a.val := by simp only [fld]; omega
    have e2 : fld w 0 12 = c.toNat := by simp only [fld]; omega
    rw [decodeWord_11 h0]; unfold decCsr; rw [h1]
    simp only [e0, e1, e2, idx_val, BitVec.ofNat_toNat, BitVec.setWidth_eq, takeIf]; rfl

theorem csrClr (d : Fin 32) (a : Fin 32) (c : BitVec 12) : Statement (.csrClr d a c) := by
  have hd := d.isLt
  have ha := a.isLt
  have hc := c.isLt
  refine of_word (0x2C003000 + c.toNat * 2 ^ 0 + a.val * 2 ^ 16 + d.val * 2 ^ 21) ?_ (by omega) ?_ ?_
  · rfl
  · have : fld (0x2C003000 + c.toNat * 2 ^ 0 + a.val * 2 ^ 16 + d.val * 2 ^ 21) 26 6 = 11 := by simp only [fld]; omega
    rw [this]; decide
  · generalize hw : 0x2C003000 + c.toNat * 2 ^ 0 + a.val * 2 ^ 16 + d.val * 2 ^ 21 = w
    have h0 : fld w 26 6 = 11 := by simp only [fld]; omega
    have h1 : fld w 12 4 = 3 := by simp only [fld]; omega
    have e0 : fld w 21 5 = d.val := by simp only [fld]; omega
    have e1 : fld w 16 5 = a.val := by simp only [fld]; omega
    have e2 : fld w 0 12 = c.toNat := by simp only [fld]; omega
    rw [decodeWord_11 h0]; unfold decCsr; rw [h1]
    simp only [e0, e1, e2, idx_val, BitVec.ofNat_toNat, BitVec.setWidth_eq, takeIf]; rfl

theorem bitfPopc (d : Fin 32) (a : Fin 32) : Statement (.bitfPopc d a) := by
  have hd := d.isLt
  have ha := a.isLt
  obtain ⟨g0, g1, g2, g3⟩ : fld (0x30000000) 26 6 = 12 ∧ fld (0x30000000) 11 15 = 0 ∧ 0x30000000 < 2 ^ 32 ∧ fld (0x30000000) 0 6 = 0 := by decide
  have C : Cols (0x30000000 + a.val * 2 ^ 16 + d.val * 2 ^ 21) (0x30000000) (d.val) a.val 0 := by
    simpa only [Nat.zero_mul, Nat.add_zero] using cols (d := d.val) (a := a.val) (b := 0) (by decide) (Nat.lt_of_lt_of_le ha (by decide)) (Nat.lt_of_lt_of_le hd (by decide)) g2 g1
  refine of_cols C rfl g0 (by decide) ?_
  have s0 : fld (0x30000000 + a.val * 2 ^ 16 + d.val * 2 ^ 21) 6 10 = 0 := by simp only [fld]; omega
  rw [decodeWord_12 (C.op.trans g0)]; unfold decBitf; rw [(C.low 0 6 (by decide)).trans g3]
  simp only [C.d_all (Nat.lt_of_lt_of_le hd (by decide)), C.a_all (Nat.lt_of_lt_of_le ha (by decide)), s0, idx_val, takeIf]; rfl

theorem bitfClz (d : Fin 32) (a : Fin 32) : Statement (.bitfClz d a) := by
  have hd := d.isLt
  have ha := a.isLt
  obtain ⟨g0, g1, g2, g3⟩ : fld (0x30000001) 26 6 = 12 ∧ fld (0x30000001) 11 15 = 0 ∧ 0x30000001 < 2 ^ 32 ∧ fld (0x30000001) 0 6 = 1 := by decide
  have C : Cols (0x30000001 + a.val * 2 ^ 16 + d.val * 2 ^ 21) (0x30000001) (d.val) a.val 0 := by
    simpa only [Nat.zero_mul, Nat.add_zero] using cols (d := d.val) (a := a.val) (b := 0) (by decide) (Nat.lt_of_lt_of_le ha (by decide)) (Nat.lt_of_lt_of_le hd (by decide)) g2 g1
  refine of_cols C rfl g0 (by decide) ?_
  have s0 : fld (0x30000001 + a.val * 2 ^ 16 + d.val * 2 ^ 21) 6 10 = 0 := by simp only [fld]; omega
  rw [decodeWord_12 (C.op.trans g0)]; unfold decBitf; rw [(C.low 0 6 (by decide)).trans g3]
  simp only [C.d_all (Nat.lt_of_lt_of_le hd (by decide)), C.a_all (Nat.lt_of_lt_of_le ha (by decide)), s0, idx_val, takeIf]; rfl

theorem bitfCtz (d : Fin 32) (a : Fin 32) : Statement (.bitfCtz d a) := by
  have hd := d.isLt
  have ha := a.isLt
  obtain ⟨g0, g1, g2, g3⟩ : fld (0x30000002) 26 6 = 12 ∧ fld (0x30000002) 11 15 = 0 ∧ 0x30000002 < 2 ^ 32 ∧ fld (0x30000002) 0 6 = 2 := by decide
  have C : Cols (0x30000002 + a.val * 2 ^ 16 + d.val * 2 ^ 21) (0x30000002) (d.val) a.val 0 := by
    simpa only [Nat.zero_mul, Nat.add_zero] using cols (d := d.val) (a := a.val) (b := 0) (by decide) (Nat.lt_of_lt_of_le ha (by decide)) (Nat.lt_of_lt_of_le hd (by decide)) g2 g1
  refine of_cols C rfl g0 (by decide) ?_
  have s0 : fld (0x30000002 + a.val * 2 ^ 16 + d.val * 2 ^ 21) 6 10 = 0 := by simp only [fld]; omega
  rw [decodeWord_12 (C.op.trans g0)]; unfold decBitf; rw [(C.low 0 6 (by decide)).trans g3]
  simp only [C.d_all (Nat.lt_of_lt_of_le hd (by decide)), C.a_all (Nat.lt_of_lt_of_le ha (by decide)), s0, idx_val, takeIf]; rfl

theorem bitfBrev (d : Fin 32) (a : Fin 32) : Statement (.bitfBrev d a) := by
  have hd := d.isLt
  have ha := a.isLt
  obtain ⟨g0, g1, g2, g3⟩ : fld (0x30000003) 26 6 = 12 ∧ fld (0x30000003) 11 15 = 0 ∧ 0x30000003 < 2 ^ 32 ∧ fld (0x30000003) 0 6 = 3 := by decide
  have C : Cols (0x30000003 + a.val * 2 ^ 16 + d.val * 2 ^ 21) (0x30000003) (d.val) a.val 0 := by
    simpa only [Nat.zero_mul, Nat.add_zero] using cols (d := d.val) (a := a.val) (b := 0) (by decide) (Nat.lt_of_lt_of_le ha (by decide)) (Nat.lt_of_lt_of_le hd (by decide)) g2 g1
  refine of_cols C rfl g0 (by decide) ?_
  have s0 : fld (0x30000003 + a.val * 2 ^ 16 + d.val * 2 ^ 21) 6 10 = 0 := by simp only [fld]; omega
  rw [decodeWord_12 (C.op.trans g0)]; unfold decBitf; rw [(C.low 0 6 (by decide)).trans g3]
  simp only [C.d_all (Nat.lt_of_lt_of_le hd (by decide)), C.a_all (Nat.lt_of_lt_of_le ha (by decide)), s0, idx_val, takeIf]; rfl

theorem bitfBswap (d : Fin 32) (a : Fin 32) : Statement (.bitfBswap d a) := by
  have hd := d.isLt
  have ha := a.isLt
  obtain ⟨g0, g1, g2, g3⟩ : fld (0x30000004) 26 6 = 12 ∧ fld (0x30000004) 11 15 = 0 ∧ 0x30000004 < 2 ^ 32 ∧ fld (0x30000004) 0 6 = 4 := by decide
  have C : Cols (0x30000004 + a.val * 2 ^ 16 + d.val * 2 ^ 21) (0x30000004) (d.val) a.val 0 := by
    simpa only [Nat.zero_mul, Nat.add_zero] using cols (d := d.val) (a := a.val) (b := 0) (by decide) (Nat.lt_of_lt_of_le ha (by decide)) (Nat.lt_of_lt_of_le hd (by decide)) g2 g1
  refine of_cols C rfl g0 (by decide) ?_
  have s0 : fld (0x30000004 + a.val * 2 ^ 16 + d.val * 2 ^ 21) 6 10 = 0 := by simp only [fld]; omega
  rw [decodeWord_12 (C.op.trans g0)]; unfold decBitf; rw [(C.low 0 6 (by decide)).trans g3]
  simp only [C.d_all (Nat.lt_of_lt_of_le hd (by decide)), C.a_all (Nat.lt_of_lt_of_le ha (by decide)), s0, idx_val, takeIf]; rfl

theorem bitfExtu (d : Fin 32) (a : Fin 32) (b : Fin 32) : Statement (.bitfExtu d a b) := by
  have hd := d.isLt
  have ha := a.isLt
  have hb := b.isLt
  obtain ⟨g0, g1, g2, g3, l0⟩ : fld (0x30000005) 26 6 = 12 ∧ fld (0x30000005) 11 15 = 0 ∧ 0x30000005 < 2 ^ 32 ∧ fld (0x30000005) 0 6 = 5 ∧ fld (0x30000005) 6 5 = 0 := by decide
  have C := cols (d := d.val) (a := a.val) (b := b.val) (Nat.lt_of_lt_of_le hb (by decide)) (Nat.lt_of_lt_of_le ha (by decide)) (Nat.lt_of_lt_of_le hd (by decide)) g2 g1
  refine of_cols C rfl g0 (by decide) ?_
  rw [decodeWord_12 (C.op.trans g0)]; unfold decBitf; rw [(C.low 0 6 (by decide)).trans g3]
  simp only [(C.low 6 5 (by decide)).trans l0, C.d_all (Nat.lt_of_lt_of_le hd (by decide)), C.a_all (Nat.lt_of_lt_of_le ha (by decide)), C.b_all (Nat.lt_of_lt_of_le hb (by decide)), idx_val, takeIf]; rfl

theorem bitfExts (d : Fin 32) (a : Fin 32) (b : Fin 32) : Statement (.bitfExts d a b) := by
  have hd := d.isLt
  have ha := a.isLt
  have hb := b.isLt
  obtain ⟨g0, g1, g2, g3, l0⟩ : fld (0x30000006) 26 6 = 12 ∧ fld (0x30000006) 11 15 = 0 ∧ 0x30000006 < 2 ^ 32 ∧ fld (0x30000006) 0 6 = 6 ∧ fld (0x30000006) 6 5 = 0 := by decide
  have C := cols (d := d.val) (a := a.val) (b := b.val) (Nat.lt_of_lt_of_le hb (by decide)) (Nat.lt_of_lt_of_le ha (by decide)) (Nat.lt_of_lt_of_le hd (by decide)) g2 g1
  refine of_cols C rfl g0 (by decide) ?_
  rw [decodeWord_12 (C.op.trans g0)]; unfold decBitf; rw [(C.low 0 6 (by decide)).trans g3]
  simp only [(C.low 6 5 (by decide)).trans l0, C.d_all (Nat.lt_of_lt_of_le hd (by decide)), C.a_all (Nat.lt_of_lt_of_le ha (by decide)), C.b_all (Nat.lt_of_lt_of_le hb (by decide)), idx_val, takeIf]; rfl

theorem bitfIns (d : Fin 32) (a : Fin 32) (b : Fin 32) : Statement (.bitfIns d a b) := by
  have hd := d.isLt
  have ha := a.isLt
  have hb := b.isLt
  obtain ⟨g0, g1, g2, g3, l0⟩ : fld (0x30000007) 26 6 = 12 ∧ fld (0x30000007) 11 15 = 0 ∧ 0x30000007 < 2 ^ 32 ∧ fld (0x30000007) 0 6 = 7 ∧ fld (0x30000007) 6 5 = 0 := by decide
  have C := cols (d := d.val) (a := a.val) (b := b.val) (Nat.lt_of_lt_of_le hb (by decide)) (Nat.lt_of_lt_of_le ha (by decide)) (Nat.lt_of_lt_of_le hd (by decide)) g2 g1
  refine of_cols C rfl g0 (by decide) ?_
  rw [decodeWord_12 (C.op.trans g0)]; unfold decBitf; rw [(C.low 0 6 (by decide)).trans g3]
  simp only [(C.low 6 5 (by decide)).trans l0, C.d_all (Nat.lt_of_lt_of_le hd (by decide)), C.a_all (Nat.lt_of_lt_of_le ha (by decide)), C.b_all (Nat.lt_of_lt_of_le hb (by decide)), idx_val, takeIf]; rfl

theorem muldivMul (d : Fin 32) (a : Fin 32) (b : Fin 32) : Statement (.muldivMul d a b) := by
  have hd := d.isLt
  have ha := a.isLt
  have hb := b.isLt
  obtain ⟨g0, g1, g2, g3, l0⟩ : fld (0x34000000) 26 6 = 13 ∧ fld (0x34000000) 11 15 = 0 ∧ 0x34000000 < 2 ^ 32 ∧ fld (0x34000000) 0 6 = 0 ∧ fld (0x34000000) 6 5 = 0 := by decide
  have C := cols (d := d.val) (a := a.val) (b := b.val) (Nat.lt_of_lt_of_le hb (by decide)) (Nat.lt_of_lt_of_le ha (by decide)) (Nat.lt_of_lt_of_le hd (by decide)) g2 g1
  refine of_cols C rfl g0 (by decide) ?_
  rw [decodeWord_13 (C.op.trans g0)]; unfold decMuldiv; rw [(C.low 0 6 (by decide)).trans g3]
  simp only [(C.low 6 5 (by decide)).trans l0, C.d_all (Nat.lt_of_lt_of_le hd (by decide)), C.a_all (Nat.lt_of_lt_of_le ha (by decide)), C.b_all (Nat.lt_of_lt_of_le hb (by decide)), idx_val, takeIf]; rfl

theorem muldivMulh (d : Fin 32) (a : Fin 32) (b : Fin 32) : Statement (.muldivMulh d a b) := by
  have hd := d.isLt
  have ha := a.isLt
  have hb := b.isLt
  obtain ⟨g0, g1, g2, g3, l0⟩ : fld (0x34000001) 26 6 = 13 ∧ fld (0x34000001) 11 15 = 0 ∧ 0x34000001 < 2 ^ 32 ∧ fld (0x34000001) 0 6 = 1 ∧ fld (0x34000001) 6 5 = 0 := by decide
  have C := cols (d := d.val) (a := a.val) (b := b.val) (Nat.lt_of_lt_of_le hb (by decide)) (Nat.lt_of_lt_of_le ha (by decide)) (Nat.lt_of_lt_of_le hd (by decide)) g2 g1
  refine of_cols C rfl g0 (by decide) ?_
  rw [decodeWord_13 (C.op.trans g0)]; unfold decMuldiv; rw [(C.low 0 6 (by decide)).trans g3]
  simp only [(C.low 6 5 (by decide)).trans l0, C.d_all (Nat.lt_of_lt_of_le hd (by decide)), C.a_all (Nat.lt_of_lt_of_le ha (by decide)), C.b_all (Nat.lt_of_lt_of_le hb (by decide)), idx_val, takeIf]; rfl

theorem muldivMulhu (d : Fin 32) (a : Fin 32) (b : Fin 32) : Statement (.muldivMulhu d a b) := by
  have hd := d.isLt
  have ha := a.isLt
  have hb := b.isLt
  obtain ⟨g0, g1, g2, g3, l0⟩ : fld (0x34000002) 26 6 = 13 ∧ fld (0x34000002) 11 15 = 0 ∧ 0x34000002 < 2 ^ 32 ∧ fld (0x34000002) 0 6 = 2 ∧ fld (0x34000002) 6 5 = 0 := by decide
  have C := cols (d := d.val) (a := a.val) (b := b.val) (Nat.lt_of_lt_of_le hb (by decide)) (Nat.lt_of_lt_of_le ha (by decide)) (Nat.lt_of_lt_of_le hd (by decide)) g2 g1
  refine of_cols C rfl g0 (by decide) ?_
  rw [decodeWord_13 (C.op.trans g0)]; unfold decMuldiv; rw [(C.low 0 6 (by decide)).trans g3]
  simp only [(C.low 6 5 (by decide)).trans l0, C.d_all (Nat.lt_of_lt_of_le hd (by decide)), C.a_all (Nat.lt_of_lt_of_le ha (by decide)), C.b_all (Nat.lt_of_lt_of_le hb (by decide)), idx_val, takeIf]; rfl

theorem muldivDiv (d : Fin 32) (a : Fin 32) (b : Fin 32) : Statement (.muldivDiv d a b) := by
  have hd := d.isLt
  have ha := a.isLt
  have hb := b.isLt
  obtain ⟨g0, g1, g2, g3, l0⟩ : fld (0x34000003) 26 6 = 13 ∧ fld (0x34000003) 11 15 = 0 ∧ 0x34000003 < 2 ^ 32 ∧ fld (0x34000003) 0 6 = 3 ∧ fld (0x34000003) 6 5 = 0 := by decide
  have C := cols (d := d.val) (a := a.val) (b := b.val) (Nat.lt_of_lt_of_le hb (by decide)) (Nat.lt_of_lt_of_le ha (by decide)) (Nat.lt_of_lt_of_le hd (by decide)) g2 g1
  refine of_cols C rfl g0 (by decide) ?_
  rw [decodeWord_13 (C.op.trans g0)]; unfold decMuldiv; rw [(C.low 0 6 (by decide)).trans g3]
  simp only [(C.low 6 5 (by decide)).trans l0, C.d_all (Nat.lt_of_lt_of_le hd (by decide)), C.a_all (Nat.lt_of_lt_of_le ha (by decide)), C.b_all (Nat.lt_of_lt_of_le hb (by decide)), idx_val, takeIf]; rfl

theorem muldivDivu (d : Fin 32) (a : Fin 32) (b : Fin 32) : Statement (.muldivDivu d a b) := by
  have hd := d.isLt
  have ha := a.isLt
  have hb := b.isLt
  obtain ⟨g0, g1, g2, g3, l0⟩ : fld (0x34000004) 26 6 = 13 ∧ fld (0x34000004) 11 15 = 0 ∧ 0x34000004 < 2 ^ 32 ∧ fld (0x34000004) 0 6 = 4 ∧ fld (0x34000004) 6 5 = 0 := by decide
  have C := cols (d := d.val) (a := a.val) (b := b.val) (Nat.lt_of_lt_of_le hb (by decide)) (Nat.lt_of_lt_of_le ha (by decide)) (Nat.lt_of_lt_of_le hd (by decide)) g2 g1
  refine of_cols C rfl g0 (by decide) ?_
  rw [decodeWord_13 (C.op.trans g0)]; unfold decMuldiv; rw [(C.low 0 6 (by decide)).trans g3]
  simp only [(C.low 6 5 (by decide)).trans l0, C.d_all (Nat.lt_of_lt_of_le hd (by decide)), C.a_all (Nat.lt_of_lt_of_le ha (by decide)), C.b_all (Nat.lt_of_lt_of_le hb (by decide)), idx_val, takeIf]; rfl

theorem muldivRem (d : Fin 32) (a : Fin 32) (b : Fin 32) : Statement (.muldivRem d a b) := by
  have hd := d.isLt
  have ha := a.isLt
  have hb := b.isLt
  obtain ⟨g0, g1, g2, g3, l0⟩ : fld (0x34000005) 26 6 = 13 ∧ fld (0x34000005) 11 15 = 0 ∧ 0x34000005 < 2 ^ 32 ∧ fld (0x34000005) 0 6 = 5 ∧ fld (0x34000005) 6 5 = 0 := by decide
  have C := cols (d := d.val) (a := a.val) (b := b.val) (Nat.lt_of_lt_of_le hb (by decide)) (Nat.lt_of_lt_of_le ha (by decide)) (Nat.lt_of_lt_of_le hd (by decide)) g2 g1
  refine of_cols C rfl g0 (by decide) ?_
  rw [decodeWord_13 (C.op.trans g0)]; unfold decMuldiv; rw [(C.low 0 6 (by decide)).trans g3]
  simp only [(C.low 6 5 (by decide)).trans l0, C.d_all (Nat.lt_of_lt_of_le hd (by decide)), C.a_all (Nat.lt_of_lt_of_le ha (by decide)), C.b_all (Nat.lt_of_lt_of_le hb (by decide)), idx_val, takeIf]; rfl

theorem muldivRemu (d : Fin 32) (a : Fin 32) (b : Fin 32) : Statement (.muldivRemu d a b) := by
  have hd := d.isLt
  have ha := a.isLt
  have hb := b.isLt
  obtain ⟨g0, g1, g2, g3, l0⟩ : fld (0x34000006) 26 6 = 13 ∧ fld (0x34000006) 11 15 = 0 ∧ 0x34000006 < 2 ^ 32 ∧ fld (0x34000006) 0 6 = 6 ∧ fld (0x34000006) 6 5 = 0 := by decide
  have C := cols (d := d.val) (a := a.val) (b := b.val) (Nat.lt_of_lt_of_le hb (by decide)) (Nat.lt_of_lt_of_le ha (by decide)) (Nat.lt_of_lt_of_le hd (by decide)) g2 g1
  refine of_cols C rfl g0 (by decide) ?_
  rw [decodeWord_13 (C.op.trans g0)]; unfold decMuldiv; rw [(C.low 0 6 (by decide)).trans g3]
  simp only [(C.low 6 5 (by decide)).trans l0, C.d_all (Nat.lt_of_lt_of_le hd (by decide)), C.a_all (Nat.lt_of_lt_of_le ha (by decide)), C.b_all (Nat.lt_of_lt_of_le hb (by decide)), idx_val, takeIf]; rfl

theorem sysNop : Statement (.sysNop) := by
  refine of_word (0x38000000) ?_ (by omega) ?_ ?_
  · rfl
  · have : fld (0x38000000) 26 6 = 14 := by simp only [fld]; omega
    rw [this]; decide
  · rfl

theorem sysEnd (g : Bool) : Statement (.sysEnd g) := by
  have hg := Bool.toNat_lt g
  obtain ⟨g0, g1, g2, g3, l0⟩ := (by decide : ∀ (g : Bool), fld (0x38000001 + g.toNat * 2 ^ 6) 26 6 = 14 ∧ fld (0x38000001 + g.toNat * 2 ^ 6) 11 15 = 0 ∧ 0x38000001 + g.toNat * 2 ^ 6 < 2 ^ 32 ∧ fld (0x38000001 + g.toNat * 2 ^ 6) 0 6 = 1 ∧ fld (0x38000001 + g.toNat * 2 ^ 6) 6 1 = g.toNat) g
  have C : Cols (0x38000001 + g.toNat * 2 ^ 6) (0x38000001 + g.toNat * 2 ^ 6) 0 0 0 := by
    simpa only [Nat.zero_mul, Nat.add_zero] using cols (d := 0) (a := 0) (b := 0) (by decide) (by decide) (by decide) g2 g1
  refine of_cols C rfl g0 (by decide) ?_
  have s0 : fld (0x38000001 + g.toNat * 2 ^ 6) 7 19 = 0 := by simp only [fld]; omega
  rw [decodeWord_14 (C.op.trans g0)]; unfold decSys; rw [(C.low 0 6 (by decide)).trans g3]
  simp only [(C.low 6 1 (by decide)).trans l0, s0, toNat_eq_one, takeIf]; rfl

theorem sysTrap (a : Fin 32) (n : Fin 32) : Statement (.sysTrap a n) := by
  have ha := a.isLt
  have hn := n.isLt
  obtain ⟨g0, g1, g2, g3, l0⟩ := (by decide : ∀ (n : Fin 32), fld (0x38000002 + n.val * 2 ^ 6) 26 6 = 14 ∧ fld (0x38000002 + n.val * 2 ^ 6) 11 15 = 0 ∧ 0x38000002 + n.val * 2 ^ 6 < 2 ^ 32 ∧ fld (0x38000002 + n.val * 2 ^ 6) 0 6 = 2 ∧ fld (0x38000002 + n.val * 2 ^ 6) 6 5 = n.val) n
  have C := cols_a (a := a.val) (Nat.lt_of_lt_of_le ha (by decide)) g2 g1
  refine of_cols C rfl g0 (by decide) ?_
  rw [decodeWord_14 (C.op.trans g0)]; unfold decSys; rw [(C.low 0 6 (by decide)).trans g3]
  simp only [(C.low 6 5 (by decide)).trans l0, C.b_all (by decide), C.d_all (by decide), C.a_all (Nat.lt_of_lt_of_le ha (by decide)), idx_val, takeIf]; rfl

theorem sysWev : Statement (.sysWev) := by
  refine of_word (0x38000003) ?_ (by omega) ?_ ?_
  · rfl
  · have : fld (0x38000003) 26 6 = 14 := by simp only [fld]; omega
    rw [this]; decide
  · rfl

theorem privRd (d : Fin 32) (a : Fin 32) : Statement (.privRd d a) := by
  have hd := d.isLt
  have ha := a.isLt
  obtain ⟨g0, g1, g2, g3⟩ : fld (0x3C000000) 26 6 = 15 ∧ fld (0x3C000000) 11 15 = 0 ∧ 0x3C000000 < 2 ^ 32 ∧ fld (0x3C000000) 0 6 = 0 := by decide
  have C : Cols (0x3C000000 + a.val * 2 ^ 16 + d.val * 2 ^ 21) (0x3C000000) (d.val) a.val 0 := by
    simpa only [Nat.zero_mul, Nat.add_zero] using cols (d := d.val) (a := a.val) (b := 0) (by decide) (Nat.lt_of_lt_of_le ha (by decide)) (Nat.lt_of_lt_of_le hd (by decide)) g2 g1
  refine of_cols C rfl g0 (by decide) ?_
  have s0 : fld (0x3C000000 + a.val * 2 ^ 16 + d.val * 2 ^ 21) 6 10 = 0 := by simp only [fld]; omega
  rw [decodeWord_15 (C.op.trans g0)]; unfold decPriv; rw [(C.low 0 6 (by decide)).trans g3]
  simp only [C.d_all (Nat.lt_of_lt_of_le hd (by decide)), C.a_all (Nat.lt_of_lt_of_le ha (by decide)), s0, idx_val, takeIf]; rfl

theorem privWr (a : Fin 32) (b : Fin 32) : Statement (.privWr a b) := by
  have ha := a.isLt
  have hb := b.isLt
  obtain ⟨g0, g1, g2, g3, l0⟩ : fld (0x3C000001) 26 6 = 15 ∧ fld (0x3C000001) 11 15 = 0 ∧ 0x3C000001 < 2 ^ 32 ∧ fld (0x3C000001) 0 6 = 1 ∧ fld (0x3C000001) 6 5 = 0 := by decide
  have C := cols_ab (a := a.val) (b := b.val) (Nat.lt_of_lt_of_le hb (by decide)) (Nat.lt_of_lt_of_le ha (by decide)) g2 g1
  refine of_cols C rfl g0 (by decide) ?_
  rw [decodeWord_15 (C.op.trans g0)]; unfold decPriv; rw [(C.low 0 6 (by decide)).trans g3]
  simp only [(C.low 6 5 (by decide)).trans l0, C.d_all (by decide), C.a_all (Nat.lt_of_lt_of_le ha (by decide)), C.b_all (Nat.lt_of_lt_of_le hb (by decide)), idx_val, takeIf]; rfl

theorem privRet : Statement (.privRet) := by
  refine of_word (0x3C000002) ?_ (by omega) ?_ ?_
  · rfl
  · have : fld (0x3C000002) 26 6 = 15 := by simp only [fld]; omega
    rw [this]; decide
  · rfl

theorem privHcall (x : Fin 32) : Statement (.privHcall x) := by
  have hx := x.isLt
  obtain ⟨g0, g1, g2, g3, l0⟩ := (by decide : ∀ (x : Fin 32), fld (0x3C000003 + x.val * 2 ^ 6) 26 6 = 15 ∧ fld (0x3C000003 + x.val * 2 ^ 6) 11 15 = 0 ∧ 0x3C000003 + x.val * 2 ^ 6 < 2 ^ 32 ∧ fld (0x3C000003 + x.val * 2 ^ 6) 0 6 = 3 ∧ fld (0x3C000003 + x.val * 2 ^ 6) 6 5 = x.val) x
  have C : Cols (0x3C000003 + x.val * 2 ^ 6) (0x3C000003 + x.val * 2 ^ 6) 0 0 0 := by
    simpa only [Nat.zero_mul, Nat.add_zero] using cols (d := 0) (a := 0) (b := 0) (by decide) (by decide) (by decide) g2 g1
  refine of_cols C rfl g0 (by decide) ?_
  have s0 : fld (0x3C000003 + x.val * 2 ^ 6) 11 15 = 0 := by simp only [fld]; omega
  rw [decodeWord_15 (C.op.trans g0)]; unfold decPriv; rw [(C.low 0 6 (by decide)).trans g3]
  simp only [(C.low 6 5 (by decide)).trans l0, s0, idx_val, takeIf]; rfl

theorem privWfi : Statement (.privWfi) := by
  refine of_word (0x3C000004) ?_ (by omega) ?_ ?_
  · rfl
  · have : fld (0x3C000004) 26 6 = 15 := by simp only [fld]; omega
    rw [this]; decide
  · rfl

theorem privTinv (a : Fin 32) (b : Fin 32) : Statement (.privTinv a b) := by
  have ha := a.isLt
  have hb := b.isLt
  obtain ⟨g0, g1, g2, g3, l0⟩ : fld (0x3C000005) 26 6 = 15 ∧ fld (0x3C000005) 11 15 = 0 ∧ 0x3C000005 < 2 ^ 32 ∧ fld (0x3C000005) 0 6 = 5 ∧ fld (0x3C000005) 6 5 = 0 := by decide
  have C := cols_ab (a := a.val) (b := b.val) (Nat.lt_of_lt_of_le hb (by decide)) (Nat.lt_of_lt_of_le ha (by decide)) g2 g1
  refine of_cols C rfl g0 (by decide) ?_
  rw [decodeWord_15 (C.op.trans g0)]; unfold decPriv; rw [(C.low 0 6 (by decide)).trans g3]
  simp only [(C.low 6 5 (by decide)).trans l0, C.d_all (by decide), C.a_all (Nat.lt_of_lt_of_le ha (by decide)), C.b_all (Nat.lt_of_lt_of_le hb (by decide)), idx_val, takeIf]; rfl

theorem ringClaim (d : Fin 32) (a : Fin 16) (b : Fin 32) (m : Bool) : Statement (.ringClaim d a b m) := by
  have hd := d.isLt
  have ha := a.isLt
  have hb := b.isLt
  have hm := Bool.toNat_lt m
  obtain ⟨g0, g1, g2, g3, l0, l1⟩ := (by decide : ∀ (m : Bool), fld (0x40000000 + m.toNat * 2 ^ 5) 26 6 = 16 ∧ fld (0x40000000 + m.toNat * 2 ^ 5) 11 15 = 0 ∧ 0x40000000 + m.toNat * 2 ^ 5 < 2 ^ 32 ∧ fld (0x40000000 + m.toNat * 2 ^ 5) 0 5 = 0 ∧ fld (0x40000000 + m.toNat * 2 ^ 5) 6 5 = 0 ∧ fld (0x40000000 + m.toNat * 2 ^ 5) 5 1 = m.toNat) m
  have C := cols (d := d.val) (a := a.val) (b := b.val) (Nat.lt_of_lt_of_le hb (by decide)) (Nat.lt_of_lt_of_le ha (by decide)) (Nat.lt_of_lt_of_le hd (by decide)) g2 g1
  refine of_cols C rfl g0 (by decide) ?_
  rw [decodeWord_16 (C.op.trans g0)]; unfold decRing; rw [(C.low 0 5 (by decide)).trans g3]
  simp only [(C.low 6 5 (by decide)).trans l0, (C.low 5 1 (by decide)).trans l1, C.a_top (Nat.lt_of_lt_of_le ha (by decide)), C.d_all (Nat.lt_of_lt_of_le hd (by decide)), C.a_low (Nat.lt_of_lt_of_le ha (by decide)), C.b_all (Nat.lt_of_lt_of_le hb (by decide)), idx_val, toNat_eq_one, takeIf]; rfl

theorem ringCommit (d : Fin 32) (a : Fin 16) (b : Fin 32) (m : Bool) : Statement (.ringCommit d a b m) := by
  have hd := d.isLt
  have ha := a.isLt
  have hb := b.isLt
  have hm := Bool.toNat_lt m
  obtain ⟨g0, g1, g2, g3, l0, l1⟩ := (by decide : ∀ (m : Bool), fld (0x40000001 + m.toNat * 2 ^ 5) 26 6 = 16 ∧ fld (0x40000001 + m.toNat * 2 ^ 5) 11 15 = 0 ∧ 0x40000001 + m.toNat * 2 ^ 5 < 2 ^ 32 ∧ fld (0x40000001 + m.toNat * 2 ^ 5) 0 5 = 1 ∧ fld (0x40000001 + m.toNat * 2 ^ 5) 6 5 = 0 ∧ fld (0x40000001 + m.toNat * 2 ^ 5) 5 1 = m.toNat) m
  have C := cols (d := d.val) (a := a.val) (b := b.val) (Nat.lt_of_lt_of_le hb (by decide)) (Nat.lt_of_lt_of_le ha (by decide)) (Nat.lt_of_lt_of_le hd (by decide)) g2 g1
  refine of_cols C rfl g0 (by decide) ?_
  rw [decodeWord_16 (C.op.trans g0)]; unfold decRing; rw [(C.low 0 5 (by decide)).trans g3]
  simp only [(C.low 6 5 (by decide)).trans l0, (C.low 5 1 (by decide)).trans l1, C.a_top (Nat.lt_of_lt_of_le ha (by decide)), C.d_all (Nat.lt_of_lt_of_le hd (by decide)), C.a_low (Nat.lt_of_lt_of_le ha (by decide)), C.b_all (Nat.lt_of_lt_of_le hb (by decide)), idx_val, toNat_eq_one, takeIf]; rfl

theorem ringWaitf (a : Fin 16) (b : Fin 32) (m : Bool) : Statement (.ringWaitf a b m) := by
  have ha := a.isLt
  have hb := b.isLt
  have hm := Bool.toNat_lt m
  obtain ⟨g0, g1, g2, g3, l0, l1⟩ := (by decide : ∀ (m : Bool), fld (0x40000002 + m.toNat * 2 ^ 5) 26 6 = 16 ∧ fld (0x40000002 + m.toNat * 2 ^ 5) 11 15 = 0 ∧ 0x40000002 + m.toNat * 2 ^ 5 < 2 ^ 32 ∧ fld (0x40000002 + m.toNat * 2 ^ 5) 0 5 = 2 ∧ fld (0x40000002 + m.toNat * 2 ^ 5) 6 5 = 0 ∧ fld (0x40000002 + m.toNat * 2 ^ 5) 5 1 = m.toNat) m
  have C := cols_ab (a := a.val) (b := b.val) (Nat.lt_of_lt_of_le hb (by decide)) (Nat.lt_of_lt_of_le ha (by decide)) g2 g1
  refine of_cols C rfl g0 (by decide) ?_
  have s0 : fld (0x40000002 + m.toNat * 2 ^ 5 + b.val * 2 ^ 11 + a.val * 2 ^ 16) 20 6 = 0 := by simp only [fld]; omega
  rw [decodeWord_16 (C.op.trans g0)]; unfold decRing; rw [(C.low 0 5 (by decide)).trans g3]
  simp only [(C.low 6 5 (by decide)).trans l0, (C.low 5 1 (by decide)).trans l1, C.a_low (Nat.lt_of_lt_of_le ha (by decide)), C.b_all (Nat.lt_of_lt_of_le hb (by decide)), s0, idx_val, toNat_eq_one, takeIf]; rfl

theorem ringWaitr (a : Fin 16) (b : Fin 32) (m : Bool) : Statement (.ringWaitr a b m) := by
  have ha := a.isLt
  have hb := b.isLt
  have hm := Bool.toNat_lt m
  obtain ⟨g0, g1, g2, g3, l0, l1⟩ := (by decide : ∀ (m : Bool), fld (0x40000003 + m.toNat * 2 ^ 5) 26 6 = 16 ∧ fld (0x40000003 + m.toNat * 2 ^ 5) 11 15 = 0 ∧ 0x40000003 + m.toNat * 2 ^ 5 < 2 ^ 32 ∧ fld (0x40000003 + m.toNat * 2 ^ 5) 0 5 = 3 ∧ fld (0x40000003 + m.toNat * 2 ^ 5) 6 5 = 0 ∧ fld (0x40000003 + m.toNat * 2 ^ 5) 5 1 = m.toNat) m
  have C := cols_ab (a := a.val) (b := b.val) (Nat.lt_of_lt_of_le hb (by decide)) (Nat.lt_of_lt_of_le ha (by decide)) g2 g1
  refine of_cols C rfl g0 (by decide) ?_
  have s0 : fld (0x40000003 + m.toNat * 2 ^ 5 + b.val * 2 ^ 11 + a.val * 2 ^ 16) 20 6 = 0 := by simp only [fld]; omega
  rw [decodeWord_16 (C.op.trans g0)]; unfold decRing; rw [(C.low 0 5 (by decide)).trans g3]
  simp only [(C.low 6 5 (by decide)).trans l0, (C.low 5 1 (by decide)).trans l1, C.a_low (Nat.lt_of_lt_of_le ha (by decide)), C.b_all (Nat.lt_of_lt_of_le hb (by decide)), s0, idx_val, toNat_eq_one, takeIf]; rfl

theorem ringPop (a : Fin 16) (b : Fin 32) (m : Bool) : Statement (.ringPop a b m) := by
  have ha := a.isLt
  have hb := b.isLt
  have hm := Bool.toNat_lt m
  obtain ⟨g0, g1, g2, g3, l0, l1⟩ := (by decide : ∀ (m : Bool), fld (0x40000004 + m.toNat * 2 ^ 5) 26 6 = 16 ∧ fld (0x40000004 + m.toNat * 2 ^ 5) 11 15 = 0 ∧ 0x40000004 + m.toNat * 2 ^ 5 < 2 ^ 32 ∧ fld (0x40000004 + m.toNat * 2 ^ 5) 0 5 = 4 ∧ fld (0x40000004 + m.toNat * 2 ^ 5) 6 5 = 0 ∧ fld (0x40000004 + m.toNat * 2 ^ 5) 5 1 = m.toNat) m
  have C := cols_ab (a := a.val) (b := b.val) (Nat.lt_of_lt_of_le hb (by decide)) (Nat.lt_of_lt_of_le ha (by decide)) g2 g1
  refine of_cols C rfl g0 (by decide) ?_
  have s0 : fld (0x40000004 + m.toNat * 2 ^ 5 + b.val * 2 ^ 11 + a.val * 2 ^ 16) 20 6 = 0 := by simp only [fld]; omega
  rw [decodeWord_16 (C.op.trans g0)]; unfold decRing; rw [(C.low 0 5 (by decide)).trans g3]
  simp only [(C.low 6 5 (by decide)).trans l0, (C.low 5 1 (by decide)).trans l1, C.a_low (Nat.lt_of_lt_of_le ha (by decide)), C.b_all (Nat.lt_of_lt_of_le hb (by decide)), s0, idx_val, toNat_eq_one, takeIf]; rfl

theorem ringCfg (a : Fin 16) (b : Fin 32) : Statement (.ringCfg a b) := by
  have ha := a.isLt
  have hb := b.isLt
  obtain ⟨g0, g1, g2, g3, l0⟩ : fld (0x40000005) 26 6 = 16 ∧ fld (0x40000005) 11 15 = 0 ∧ 0x40000005 < 2 ^ 32 ∧ fld (0x40000005) 0 5 = 5 ∧ fld (0x40000005) 5 6 = 0 := by decide
  have C := cols_ab (a := a.val) (b := b.val) (Nat.lt_of_lt_of_le hb (by decide)) (Nat.lt_of_lt_of_le ha (by decide)) g2 g1
  refine of_cols C rfl g0 (by decide) ?_
  have s0 : fld (0x40000005 + b.val * 2 ^ 11 + a.val * 2 ^ 16) 20 6 = 0 := by simp only [fld]; omega
  rw [decodeWord_16 (C.op.trans g0)]; unfold decRing; rw [(C.low 0 5 (by decide)).trans g3]
  simp only [(C.low 5 6 (by decide)).trans l0, C.a_low (Nat.lt_of_lt_of_le ha (by decide)), C.b_all (Nat.lt_of_lt_of_le hb (by decide)), s0, idx_val, takeIf]; rfl

theorem ringRd (d : Fin 32) (a : Fin 16) : Statement (.ringRd d a) := by
  have hd := d.isLt
  have ha := a.isLt
  obtain ⟨g0, g1, g2, g3⟩ : fld (0x40000006) 26 6 = 16 ∧ fld (0x40000006) 11 15 = 0 ∧ 0x40000006 < 2 ^ 32 ∧ fld (0x40000006) 0 5 = 6 := by decide
  have C : Cols (0x40000006 + a.val * 2 ^ 16 + d.val * 2 ^ 21) (0x40000006) (d.val) a.val 0 := by
    simpa only [Nat.zero_mul, Nat.add_zero] using cols (d := d.val) (a := a.val) (b := 0) (by decide) (Nat.lt_of_lt_of_le ha (by decide)) (Nat.lt_of_lt_of_le hd (by decide)) g2 g1
  refine of_cols C rfl g0 (by decide) ?_
  have s0 : fld (0x40000006 + a.val * 2 ^ 16 + d.val * 2 ^ 21) 5 11 = 0 := by simp only [fld]; omega
  rw [decodeWord_16 (C.op.trans g0)]; unfold decRing; rw [(C.low 0 5 (by decide)).trans g3]
  simp only [C.a_top (Nat.lt_of_lt_of_le ha (by decide)), C.d_all (Nat.lt_of_lt_of_le hd (by decide)), C.a_low (Nat.lt_of_lt_of_le ha (by decide)), s0, idx_val, takeIf]; rfl

theorem semAdd (d : Fin 32) (a : Fin 16) (b : Fin 32) (m : Bool) : Statement (.semAdd d a b m) := by
  have hd := d.isLt
  have ha := a.isLt
  have hb := b.isLt
  have hm := Bool.toNat_lt m
  obtain ⟨g0, g1, g2, g3, l0, l1⟩ := (by decide : ∀ (m : Bool), fld (0x44000000 + m.toNat * 2 ^ 5) 26 6 = 17 ∧ fld (0x44000000 + m.toNat * 2 ^ 5) 11 15 = 0 ∧ 0x44000000 + m.toNat * 2 ^ 5 < 2 ^ 32 ∧ fld (0x44000000 + m.toNat * 2 ^ 5) 0 5 = 0 ∧ fld (0x44000000 + m.toNat * 2 ^ 5) 6 5 = 0 ∧ fld (0x44000000 + m.toNat * 2 ^ 5) 5 1 = m.toNat) m
  have C := cols (d := d.val) (a := a.val) (b := b.val) (Nat.lt_of_lt_of_le hb (by decide)) (Nat.lt_of_lt_of_le ha (by decide)) (Nat.lt_of_lt_of_le hd (by decide)) g2 g1
  refine of_cols C rfl g0 (by decide) ?_
  rw [decodeWord_17 (C.op.trans g0)]; unfold decSem; rw [(C.low 0 5 (by decide)).trans g3]
  simp only [(C.low 6 5 (by decide)).trans l0, (C.low 5 1 (by decide)).trans l1, C.a_top (Nat.lt_of_lt_of_le ha (by decide)), C.d_all (Nat.lt_of_lt_of_le hd (by decide)), C.a_low (Nat.lt_of_lt_of_le ha (by decide)), C.b_all (Nat.lt_of_lt_of_le hb (by decide)), idx_val, toNat_eq_one, takeIf]; rfl

theorem semWaitge (a : Fin 16) (b : Fin 32) : Statement (.semWaitge a b) := by
  have ha := a.isLt
  have hb := b.isLt
  obtain ⟨g0, g1, g2, g3, l0⟩ : fld (0x44000001) 26 6 = 17 ∧ fld (0x44000001) 11 15 = 0 ∧ 0x44000001 < 2 ^ 32 ∧ fld (0x44000001) 0 5 = 1 ∧ fld (0x44000001) 5 6 = 0 := by decide
  have C := cols_ab (a := a.val) (b := b.val) (Nat.lt_of_lt_of_le hb (by decide)) (Nat.lt_of_lt_of_le ha (by decide)) g2 g1
  refine of_cols C rfl g0 (by decide) ?_
  have s0 : fld (0x44000001 + b.val * 2 ^ 11 + a.val * 2 ^ 16) 20 6 = 0 := by simp only [fld]; omega
  rw [decodeWord_17 (C.op.trans g0)]; unfold decSem; rw [(C.low 0 5 (by decide)).trans g3]
  simp only [(C.low 5 6 (by decide)).trans l0, C.a_low (Nat.lt_of_lt_of_le ha (by decide)), C.b_all (Nat.lt_of_lt_of_le hb (by decide)), s0, idx_val, takeIf]; rfl

theorem semRd (d : Fin 32) (a : Fin 16) : Statement (.semRd d a) := by
  have hd := d.isLt
  have ha := a.isLt
  obtain ⟨g0, g1, g2, g3⟩ : fld (0x44000002) 26 6 = 17 ∧ fld (0x44000002) 11 15 = 0 ∧ 0x44000002 < 2 ^ 32 ∧ fld (0x44000002) 0 5 = 2 := by decide
  have C : Cols (0x44000002 + a.val * 2 ^ 16 + d.val * 2 ^ 21) (0x44000002) (d.val) a.val 0 := by
    simpa only [Nat.zero_mul, Nat.add_zero] using cols (d := d.val) (a := a.val) (b := 0) (by decide) (Nat.lt_of_lt_of_le ha (by decide)) (Nat.lt_of_lt_of_le hd (by decide)) g2 g1
  refine of_cols C rfl g0 (by decide) ?_
  have s0 : fld (0x44000002 + a.val * 2 ^ 16 + d.val * 2 ^ 21) 5 11 = 0 := by simp only [fld]; omega
  rw [decodeWord_17 (C.op.trans g0)]; unfold decSem; rw [(C.low 0 5 (by decide)).trans g3]
  simp only [C.a_top (Nat.lt_of_lt_of_le ha (by decide)), C.d_all (Nat.lt_of_lt_of_le hd (by decide)), C.a_low (Nat.lt_of_lt_of_le ha (by decide)), s0, idx_val, takeIf]; rfl

theorem gbarArr (a : Fin 16) : Statement (.gbarArr a) := by
  have ha := a.isLt
  obtain ⟨g0, g1, g2, g3⟩ : fld (0x48000000) 26 6 = 18 ∧ fld (0x48000000) 11 15 = 0 ∧ 0x48000000 < 2 ^ 32 ∧ fld (0x48000000) 0 5 = 0 := by decide
  have C := cols_a (a := a.val) (Nat.lt_of_lt_of_le ha (by decide)) g2 g1
  refine of_cols C rfl g0 (by decide) ?_
  have s0 : fld (0x48000000 + a.val * 2 ^ 16) 5 11 = 0 := by simp only [fld]; omega
  have s1 : fld (0x48000000 + a.val * 2 ^ 16) 20 6 = 0 := by simp only [fld]; omega
  rw [decodeWord_18 (C.op.trans g0)]; unfold decGbar; rw [(C.low 0 5 (by decide)).trans g3]
  simp only [C.a_low (Nat.lt_of_lt_of_le ha (by decide)), s0, s1, idx_val, takeIf]; rfl

theorem gbarWait (a : Fin 16) : Statement (.gbarWait a) := by
  have ha := a.isLt
  obtain ⟨g0, g1, g2, g3⟩ : fld (0x48000001) 26 6 = 18 ∧ fld (0x48000001) 11 15 = 0 ∧ 0x48000001 < 2 ^ 32 ∧ fld (0x48000001) 0 5 = 1 := by decide
  have C := cols_a (a := a.val) (Nat.lt_of_lt_of_le ha (by decide)) g2 g1
  refine of_cols C rfl g0 (by decide) ?_
  have s0 : fld (0x48000001 + a.val * 2 ^ 16) 5 11 = 0 := by simp only [fld]; omega
  have s1 : fld (0x48000001 + a.val * 2 ^ 16) 20 6 = 0 := by simp only [fld]; omega
  rw [decodeWord_18 (C.op.trans g0)]; unfold decGbar; rw [(C.low 0 5 (by decide)).trans g3]
  simp only [C.a_low (Nat.lt_of_lt_of_le ha (by decide)), s0, s1, idx_val, takeIf]; rfl

theorem gbarSync (a : Fin 16) : Statement (.gbarSync a) := by
  have ha := a.isLt
  obtain ⟨g0, g1, g2, g3⟩ : fld (0x48000002) 26 6 = 18 ∧ fld (0x48000002) 11 15 = 0 ∧ 0x48000002 < 2 ^ 32 ∧ fld (0x48000002) 0 5 = 2 := by decide
  have C := cols_a (a := a.val) (Nat.lt_of_lt_of_le ha (by decide)) g2 g1
  refine of_cols C rfl g0 (by decide) ?_
  have s0 : fld (0x48000002 + a.val * 2 ^ 16) 5 11 = 0 := by simp only [fld]; omega
  have s1 : fld (0x48000002 + a.val * 2 ^ 16) 20 6 = 0 := by simp only [fld]; omega
  rw [decodeWord_18 (C.op.trans g0)]; unfold decGbar; rw [(C.low 0 5 (by decide)).trans g3]
  simp only [C.a_low (Nat.lt_of_lt_of_le ha (by decide)), s0, s1, idx_val, takeIf]; rfl

theorem ordRel (s : Fin 8) : Statement (.ordRel s) := by
  have hs := s.isLt
  obtain ⟨g0, g1, g2, g3, l0⟩ := (by decide : ∀ (s : Fin 8), fld (0x4C000000 + s.val * 2 ^ 5) 26 6 = 19 ∧ fld (0x4C000000 + s.val * 2 ^ 5) 11 15 = 0 ∧ 0x4C000000 + s.val * 2 ^ 5 < 2 ^ 32 ∧ fld (0x4C000000 + s.val * 2 ^ 5) 0 5 = 0 ∧ fld (0x4C000000 + s.val * 2 ^ 5) 5 3 = s.val) s
  have C : Cols (0x4C000000 + s.val * 2 ^ 5) (0x4C000000 + s.val * 2 ^ 5) 0 0 0 := by
    simpa only [Nat.zero_mul, Nat.add_zero] using cols (d := 0) (a := 0) (b := 0) (by decide) (by decide) (by decide) g2 g1
  refine of_cols C rfl g0 (by decide) ?_
  have s0 : fld (0x4C000000 + s.val * 2 ^ 5) 8 18 = 0 := by simp only [fld]; omega
  rw [decodeWord_19 (C.op.trans g0)]; unfold decOrd; rw [(C.low 0 5 (by decide)).trans g3]
  simp only [(C.low 5 3 (by decide)).trans l0, s0, idx_val, takeIf]; rfl

theorem ordAcq (s : Fin 8) : Statement (.ordAcq s) := by
  have hs := s.isLt
  obtain ⟨g0, g1, g2, g3, l0⟩ := (by decide : ∀ (s : Fin 8), fld (0x4C000001 + s.val * 2 ^ 5) 26 6 = 19 ∧ fld (0x4C000001 + s.val * 2 ^ 5) 11 15 = 0 ∧ 0x4C000001 + s.val * 2 ^ 5 < 2 ^ 32 ∧ fld (0x4C000001 + s.val * 2 ^ 5) 0 5 = 1 ∧ fld (0x4C000001 + s.val * 2 ^ 5) 5 3 = s.val) s
  have C : Cols (0x4C000001 + s.val * 2 ^ 5) (0x4C000001 + s.val * 2 ^ 5) 0 0 0 := by
    simpa only [Nat.zero_mul, Nat.add_zero] using cols (d := 0) (a := 0) (b := 0) (by decide) (by decide) (by decide) g2 g1
  refine of_cols C rfl g0 (by decide) ?_
  have s0 : fld (0x4C000001 + s.val * 2 ^ 5) 8 18 = 0 := by simp only [fld]; omega
  rw [decodeWord_19 (C.op.trans g0)]; unfold decOrd; rw [(C.low 0 5 (by decide)).trans g3]
  simp only [(C.low 5 3 (by decide)).trans l0, s0, idx_val, takeIf]; rfl

theorem ordFull (s : Fin 8) : Statement (.ordFull s) := by
  have hs := s.isLt
  obtain ⟨g0, g1, g2, g3, l0⟩ := (by decide : ∀ (s : Fin 8), fld (0x4C000002 + s.val * 2 ^ 5) 26 6 = 19 ∧ fld (0x4C000002 + s.val * 2 ^ 5) 11 15 = 0 ∧ 0x4C000002 + s.val * 2 ^ 5 < 2 ^ 32 ∧ fld (0x4C000002 + s.val * 2 ^ 5) 0 5 = 2 ∧ fld (0x4C000002 + s.val * 2 ^ 5) 5 3 = s.val) s
  have C : Cols (0x4C000002 + s.val * 2 ^ 5) (0x4C000002 + s.val * 2 ^ 5) 0 0 0 := by
    simpa only [Nat.zero_mul, Nat.add_zero] using cols (d := 0) (a := 0) (b := 0) (by decide) (by decide) (by decide) g2 g1
  refine of_cols C rfl g0 (by decide) ?_
  have s0 : fld (0x4C000002 + s.val * 2 ^ 5) 8 18 = 0 := by simp only [fld]; omega
  rw [decodeWord_19 (C.op.trans g0)]; unfold decOrd; rw [(C.low 0 5 (by decide)).trans g3]
  simp only [(C.low 5 3 (by decide)).trans l0, s0, idx_val, takeIf]; rfl

theorem copyIn (d : Fin 16) (a : Fin 32) (b : Fin 32) (g : Bool) (m : Bool) : Statement (.copyIn d a b g m) := by
  have hd := d.isLt
  have ha := a.isLt
  have hb := b.isLt
  have hg := Bool.toNat_lt g
  have hm := Bool.toNat_lt m
  obtain ⟨g0, g1, g2, g3, l0, l1, l2, l3⟩ := (by decide : ∀ (g : Bool) (m : Bool), fld (0x60000000 + m.toNat * 2 ^ 7 + g.toNat * 2 ^ 8) 26 6 = 24 ∧ fld (0x60000000 + m.toNat * 2 ^ 7 + g.toNat * 2 ^ 8) 11 15 = 0 ∧ 0x60000000 + m.toNat * 2 ^ 7 + g.toNat * 2 ^ 8 < 2 ^ 32 ∧ fld (0x60000000 + m.toNat * 2 ^ 7 + g.toNat * 2 ^ 8) 0 5 = 0 ∧ fld (0x60000000 + m.toNat * 2 ^ 7 + g.toNat * 2 ^ 8) 5 2 = 0 ∧ fld (0x60000000 + m.toNat * 2 ^ 7 + g.toNat * 2 ^ 8) 9 2 = 0 ∧ fld (0x60000000 + m.toNat * 2 ^ 7 + g.toNat * 2 ^ 8) 8 1 = g.toNat ∧ fld (0x60000000 + m.toNat * 2 ^ 7 + g.toNat * 2 ^ 8) 7 1 = m.toNat) g m
  have C := cols (d := d.val) (a := a.val) (b := b.val) (Nat.lt_of_lt_of_le hb (by decide)) (Nat.lt_of_lt_of_le ha (by decide)) (Nat.lt_of_lt_of_le hd (by decide)) g2 g1
  refine of_cols C rfl g0 (by decide) ?_
  rw [decodeWord_24 (C.op.trans g0)]; unfold decCopy; rw [(C.low 0 5 (by decide)).trans g3]
  simp only [(C.low 5 2 (by decide)).trans l0, (C.low 9 2 (by decide)).trans l1, (C.low 8 1 (by decide)).trans l2, (C.low 7 1 (by decide)).trans l3, C.d_top (Nat.lt_of_lt_of_le hd (by decide)), C.d_low (Nat.lt_of_lt_of_le hd (by decide)), C.a_all (Nat.lt_of_lt_of_le ha (by decide)), C.b_all (Nat.lt_of_lt_of_le hb (by decide)), idx_val, toNat_eq_one, takeIf]; rfl

theorem copyOut (d : Fin 32) (a : Fin 16) (b : Fin 32) (k : Bool) (g : Bool) : Statement (.copyOut d a b k g) := by
  have hd := d.isLt
  have ha := a.isLt
  have hb := b.isLt
  have hk := Bool.toNat_lt k
  have hg := Bool.toNat_lt g
  obtain ⟨g0, g1, g2, g3, l0, l1, l2, l3⟩ := (by decide : ∀ (k : Bool) (g : Bool), fld (0x60000001 + g.toNat * 2 ^ 8 + k.toNat * 2 ^ 9) 26 6 = 24 ∧ fld (0x60000001 + g.toNat * 2 ^ 8 + k.toNat * 2 ^ 9) 11 15 = 0 ∧ 0x60000001 + g.toNat * 2 ^ 8 + k.toNat * 2 ^ 9 < 2 ^ 32 ∧ fld (0x60000001 + g.toNat * 2 ^ 8 + k.toNat * 2 ^ 9) 0 5 = 1 ∧ fld (0x60000001 + g.toNat * 2 ^ 8 + k.toNat * 2 ^ 9) 5 3 = 0 ∧ fld (0x60000001 + g.toNat * 2 ^ 8 + k.toNat * 2 ^ 9) 10 1 = 0 ∧ fld (0x60000001 + g.toNat * 2 ^ 8 + k.toNat * 2 ^ 9) 9 1 = k.toNat ∧ fld (0x60000001 + g.toNat * 2 ^ 8 + k.toNat * 2 ^ 9) 8 1 = g.toNat) k g
  have C := cols (d := d.val) (a := a.val) (b := b.val) (Nat.lt_of_lt_of_le hb (by decide)) (Nat.lt_of_lt_of_le ha (by decide)) (Nat.lt_of_lt_of_le hd (by decide)) g2 g1
  refine of_cols C rfl g0 (by decide) ?_
  rw [decodeWord_24 (C.op.trans g0)]; unfold decCopy; rw [(C.low 0 5 (by decide)).trans g3]
  simp only [(C.low 5 3 (by decide)).trans l0, (C.low 10 1 (by decide)).trans l1, (C.low 9 1 (by decide)).trans l2, (C.low 8 1 (by decide)).trans l3, C.a_top (Nat.lt_of_lt_of_le ha (by decide)), C.d_all (Nat.lt_of_lt_of_le hd (by decide)), C.a_low (Nat.lt_of_lt_of_le ha (by decide)), C.b_all (Nat.lt_of_lt_of_le hb (by decide)), idx_val, toNat_eq_one, takeIf]; rfl

theorem copyWt (d : Fin 16) (a : Fin 32) (b : Fin 32) (x : Bool) (g : Bool) (m : Bool) : Statement (.copyWt d a b x g m) := by
  have hd := d.isLt
  have ha := a.isLt
  have hb := b.isLt
  have hx := Bool.toNat_lt x
  have hg := Bool.toNat_lt g
  have hm := Bool.toNat_lt m
  obtain ⟨g0, g1, g2, g3, l0, l1, l2, l3, l4⟩ := (by decide : ∀ (x : Bool) (g : Bool) (m : Bool), fld (0x60000002 + m.toNat * 2 ^ 7 + g.toNat * 2 ^ 8 + x.toNat * 2 ^ 10) 26 6 = 24 ∧ fld (0x60000002 + m.toNat * 2 ^ 7 + g.toNat * 2 ^ 8 + x.toNat * 2 ^ 10) 11 15 = 0 ∧ 0x60000002 + m.toNat * 2 ^ 7 + g.toNat * 2 ^ 8 + x.toNat * 2 ^ 10 < 2 ^ 32 ∧ fld (0x60000002 + m.toNat * 2 ^ 7 + g.toNat * 2 ^ 8 + x.toNat * 2 ^ 10) 0 5 = 2 ∧ fld (0x60000002 + m.toNat * 2 ^ 7 + g.toNat * 2 ^ 8 + x.toNat * 2 ^ 10) 5 2 = 0 ∧ fld (0x60000002 + m.toNat * 2 ^ 7 + g.toNat * 2 ^ 8 + x.toNat * 2 ^ 10) 9 1 = 0 ∧ fld (0x60000002 + m.toNat * 2 ^ 7 + g.toNat * 2 ^ 8 + x.toNat * 2 ^ 10) 10 1 = x.toNat ∧ fld (0x60000002 + m.toNat * 2 ^ 7 + g.toNat * 2 ^ 8 + x.toNat * 2 ^ 10) 8 1 = g.toNat ∧ fld (0x60000002 + m.toNat * 2 ^ 7 + g.toNat * 2 ^ 8 + x.toNat * 2 ^ 10) 7 1 = m.toNat) x g m
  have C := cols (d := d.val) (a := a.val) (b := b.val) (Nat.lt_of_lt_of_le hb (by decide)) (Nat.lt_of_lt_of_le ha (by decide)) (Nat.lt_of_lt_of_le hd (by decide)) g2 g1
  refine of_cols C rfl g0 (by decide) ?_
  rw [decodeWord_24 (C.op.trans g0)]; unfold decCopy; rw [(C.low 0 5 (by decide)).trans g3]
  simp only [(C.low 5 2 (by decide)).trans l0, (C.low 9 1 (by decide)).trans l1, (C.low 10 1 (by decide)).trans l2, (C.low 8 1 (by decide)).trans l3, (C.low 7 1 (by decide)).trans l4, C.d_top (Nat.lt_of_lt_of_le hd (by decide)), C.d_low (Nat.lt_of_lt_of_le hd (by decide)), C.a_all (Nat.lt_of_lt_of_le ha (by decide)), C.b_all (Nat.lt_of_lt_of_le hb (by decide)), idx_val, toNat_eq_one, takeIf]; rfl

theorem copyMm (d : Fin 32) (a : Fin 32) (b : Fin 32) (g : Bool) : Statement (.copyMm d a b g) := by
  have hd := d.isLt
  have ha := a.isLt
  have hb := b.isLt
  have hg := Bool.toNat_lt g
  obtain ⟨g0, g1, g2, g3, l0, l1, l2⟩ := (by decide : ∀ (g : Bool), fld (0x60000003 + g.toNat * 2 ^ 8) 26 6 = 24 ∧ fld (0x60000003 + g.toNat * 2 ^ 8) 11 15 = 0 ∧ 0x60000003 + g.toNat * 2 ^ 8 < 2 ^ 32 ∧ fld (0x60000003 + g.toNat * 2 ^ 8) 0 5 = 3 ∧ fld (0x60000003 + g.toNat * 2 ^ 8) 5 3 = 0 ∧ fld (0x60000003 + g.toNat * 2 ^ 8) 9 2 = 0 ∧ fld (0x60000003 + g.toNat * 2 ^ 8) 8 1 = g.toNat) g
  have C := cols (d := d.val) (a := a.val) (b := b.val) (Nat.lt_of_lt_of_le hb (by decide)) (Nat.lt_of_lt_of_le ha (by decide)) (Nat.lt_of_lt_of_le hd (by decide)) g2 g1
  refine of_cols C rfl g0 (by decide) ?_
  rw [decodeWord_24 (C.op.trans g0)]; unfold decCopy; rw [(C.low 0 5 (by decide)).trans g3]
  simp only [(C.low 5 3 (by decide)).trans l0, (C.low 9 2 (by decide)).trans l1, (C.low 8 1 (by decide)).trans l2, C.d_all (Nat.lt_of_lt_of_le hd (by decide)), C.a_all (Nat.lt_of_lt_of_le ha (by decide)), C.b_all (Nat.lt_of_lt_of_le hb (by decide)), idx_val, toNat_eq_one, takeIf]; rfl

theorem gathFill (d : Fin 16) (a : Fin 32) (g : Bool) : Statement (.gathFill d a g) := by
  have hd := d.isLt
  have ha := a.isLt
  have hg := Bool.toNat_lt g
  obtain ⟨g0, g1, g2, g3, l0, l1⟩ := (by decide : ∀ (g : Bool), fld (0x64000000 + g.toNat * 2 ^ 8) 26 6 = 25 ∧ fld (0x64000000 + g.toNat * 2 ^ 8) 11 15 = 0 ∧ 0x64000000 + g.toNat * 2 ^ 8 < 2 ^ 32 ∧ fld (0x64000000 + g.toNat * 2 ^ 8) 0 5 = 0 ∧ fld (0x64000000 + g.toNat * 2 ^ 8) 5 3 = 0 ∧ fld (0x64000000 + g.toNat * 2 ^ 8) 8 1 = g.toNat) g
  have C : Cols (0x64000000 + g.toNat * 2 ^ 8 + a.val * 2 ^ 16 + d.val * 2 ^ 21) (0x64000000 + g.toNat * 2 ^ 8) (d.val) a.val 0 := by
    simpa only [Nat.zero_mul, Nat.add_zero] using cols (d := d.val) (a := a.val) (b := 0) (by decide) (Nat.lt_of_lt_of_le ha (by decide)) (Nat.lt_of_lt_of_le hd (by decide)) g2 g1
  refine of_cols C rfl g0 (by decide) ?_
  have s0 : fld (0x64000000 + g.toNat * 2 ^ 8 + a.val * 2 ^ 16 + d.val * 2 ^ 21) 9 7 = 0 := by simp only [fld]; omega
  rw [decodeWord_25 (C.op.trans g0)]; unfold decGath; rw [(C.low 0 5 (by decide)).trans g3]
  simp only [(C.low 5 3 (by decide)).trans l0, (C.low 8 1 (by decide)).trans l1, C.d_top (Nat.lt_of_lt_of_le hd (by decide)), C.d_low (Nat.lt_of_lt_of_le hd (by decide)), C.a_all (Nat.lt_of_lt_of_le ha (by decide)), s0, idx_val, toNat_eq_one, takeIf]; rfl

theorem lineRd (d : Fin 32) (a : Fin 32) : Statement (.lineRd d a) := by
  have hd := d.isLt
  have ha := a.isLt
  obtain ⟨g0, g1, g2, g3⟩ : fld (0x68000000) 26 6 = 26 ∧ fld (0x68000000) 11 15 = 0 ∧ 0x68000000 < 2 ^ 32 ∧ fld (0x68000000) 0 5 = 0 := by decide
  have C : Cols (0x68000000 + a.val * 2 ^ 16 + d.val * 2 ^ 21) (0x68000000) (d.val) a.val 0 := by
    simpa only [Nat.zero_mul, Nat.add_zero] using cols (d := d.val) (a := a.val) (b := 0) (by decide) (Nat.lt_of_lt_of_le ha (by decide)) (Nat.lt_of_lt_of_le hd (by decide)) g2 g1
  refine of_cols C rfl g0 (by decide) ?_
  have s0 : fld (0x68000000 + a.val * 2 ^ 16 + d.val * 2 ^ 21) 5 11 = 0 := by simp only [fld]; omega
  rw [decodeWord_26 (C.op.trans g0)]; unfold decLine; rw [(C.low 0 5 (by decide)).trans g3]
  simp only [C.d_all (Nat.lt_of_lt_of_le hd (by decide)), C.a_all (Nat.lt_of_lt_of_le ha (by decide)), s0, idx_val, takeIf]; rfl

theorem lineWr (a : Fin 32) (b : Fin 32) : Statement (.lineWr a b) := by
  have ha := a.isLt
  have hb := b.isLt
  obtain ⟨g0, g1, g2, g3, l0⟩ : fld (0x68000001) 26 6 = 26 ∧ fld (0x68000001) 11 15 = 0 ∧ 0x68000001 < 2 ^ 32 ∧ fld (0x68000001) 0 5 = 1 ∧ fld (0x68000001) 5 6 = 0 := by decide
  have C := cols_ab (a := a.val) (b := b.val) (Nat.lt_of_lt_of_le hb (by decide)) (Nat.lt_of_lt_of_le ha (by decide)) g2 g1
  refine of_cols C rfl g0 (by decide) ?_
  rw [decodeWord_26 (C.op.trans g0)]; unfold decLine; rw [(C.low 0 5 (by decide)).trans g3]
  simp only [(C.low 5 6 (by decide)).trans l0, C.d_all (by decide), C.a_all (Nat.lt_of_lt_of_le ha (by decide)), C.b_all (Nat.lt_of_lt_of_le hb (by decide)), idx_val, takeIf]; rfl

theorem lineSet (d : Fin 32) (a : Fin 32) (b : Fin 32) (g : Bool) : Statement (.lineSet d a b g) := by
  have hd := d.isLt
  have ha := a.isLt
  have hb := b.isLt
  have hg := Bool.toNat_lt g
  obtain ⟨g0, g1, g2, g3, l0, l1, l2⟩ := (by decide : ∀ (g : Bool), fld (0x68000002 + g.toNat * 2 ^ 8) 26 6 = 26 ∧ fld (0x68000002 + g.toNat * 2 ^ 8) 11 15 = 0 ∧ 0x68000002 + g.toNat * 2 ^ 8 < 2 ^ 32 ∧ fld (0x68000002 + g.toNat * 2 ^ 8) 0 5 = 2 ∧ fld (0x68000002 + g.toNat * 2 ^ 8) 5 3 = 0 ∧ fld (0x68000002 + g.toNat * 2 ^ 8) 9 2 = 0 ∧ fld (0x68000002 + g.toNat * 2 ^ 8) 8 1 = g.toNat) g
  have C := cols (d := d.val) (a := a.val) (b := b.val) (Nat.lt_of_lt_of_le hb (by decide)) (Nat.lt_of_lt_of_le ha (by decide)) (Nat.lt_of_lt_of_le hd (by decide)) g2 g1
  refine of_cols C rfl g0 (by decide) ?_
  rw [decodeWord_26 (C.op.trans g0)]; unfold decLine; rw [(C.low 0 5 (by decide)).trans g3]
  simp only [(C.low 5 3 (by decide)).trans l0, (C.low 9 2 (by decide)).trans l1, (C.low 8 1 (by decide)).trans l2, C.d_all (Nat.lt_of_lt_of_le hd (by decide)), C.a_all (Nat.lt_of_lt_of_le ha (by decide)), C.b_all (Nat.lt_of_lt_of_le hb (by decide)), idx_val, toNat_eq_one, takeIf]; rfl

theorem markTile : Statement (.markTile) := by
  refine of_word (0x6C000000) ?_ (by omega) ?_ ?_
  · rfl
  · have : fld (0x6C000000) 26 6 = 27 := by simp only [fld]; omega
    rw [this]; decide
  · rfl

theorem markDrain : Statement (.markDrain) := by
  refine of_word (0x6C000001) ?_ (by omega) ?_ ?_
  · rfl
  · have : fld (0x6C000001) 26 6 = 27 := by simp only [fld]; omega
    rw [this]; decide
  · rfl

theorem mmaRn8 (d : Fin 32) (a : Fin 16) (b : Fin 16) (i : Bool) (j : Bool) (k : Bool) (o : Bool) (r : Bool) : Statement (.mmaRn8 d a b i j k o r) := by
  have hd := d.isLt
  have ha := a.isLt
  have hb := b.isLt
  have hi := Bool.toNat_lt i
  have hj := Bool.toNat_lt j
  have hk := Bool.toNat_lt k
  have ho := Bool.toNat_lt o
  have hr := Bool.toNat_lt r
  obtain ⟨g0, g1, g2, g3, l0, l1, l2, l3, l4, l5⟩ := (by decide : ∀ (i : Bool) (j : Bool) (k : Bool) (o : Bool) (r : Bool), fld (0xC0000000 + r.toNat * 2 ^ 6 + o.toNat * 2 ^ 7 + k.toNat * 2 ^ 8 + j.toNat * 2 ^ 9 + i.toNat * 2 ^ 10) 26 6 = 48 ∧ fld (0xC0000000 + r.toNat * 2 ^ 6 + o.toNat * 2 ^ 7 + k.toNat * 2 ^ 8 + j.toNat * 2 ^ 9 + i.toNat * 2 ^ 10) 11 15 = 0 ∧ 0xC0000000 + r.toNat * 2 ^ 6 + o.toNat * 2 ^ 7 + k.toNat * 2 ^ 8 + j.toNat * 2 ^ 9 + i.toNat * 2 ^ 10 < 2 ^ 32 ∧ fld (0xC0000000 + r.toNat * 2 ^ 6 + o.toNat * 2 ^ 7 + k.toNat * 2 ^ 8 + j.toNat * 2 ^ 9 + i.toNat * 2 ^ 10) 0 5 = 0 ∧ fld (0xC0000000 + r.toNat * 2 ^ 6 + o.toNat * 2 ^ 7 + k.toNat * 2 ^ 8 + j.toNat * 2 ^ 9 + i.toNat * 2 ^ 10) 5 1 = 0 ∧ fld (0xC0000000 + r.toNat * 2 ^ 6 + o.toNat * 2 ^ 7 + k.toNat * 2 ^ 8 + j.toNat * 2 ^ 9 + i.toNat * 2 ^ 10) 10 1 = i.toNat ∧ fld (0xC0000000 + r.toNat * 2 ^ 6 + o.toNat * 2 ^ 7 + k.toNat * 2 ^ 8 + j.toNat * 2 ^ 9 + i.toNat * 2 ^ 10) 9 1 = j.toNat ∧ fld (0xC0000000 + r.toNat * 2 ^ 6 + o.toNat * 2 ^ 7 + k.toNat * 2 ^ 8 + j.toNat * 2 ^ 9 + i.toNat * 2 ^ 10) 8 1 = k.toNat ∧ fld (0xC0000000 + r.toNat * 2 ^ 6 + o.toNat * 2 ^ 7 + k.toNat * 2 ^ 8 + j.toNat * 2 ^ 9 + i.toNat * 2 ^ 10) 7 1 = o.toNat ∧ fld (0xC0000000 + r.toNat * 2 ^ 6 + o.toNat * 2 ^ 7 + k.toNat * 2 ^ 8 + j.toNat * 2 ^ 9 + i.toNat * 2 ^ 10) 6 1 = r.toNat) i j k o r
  have C := cols (d := d.val) (a := a.val) (b := b.val) (Nat.lt_of_lt_of_le hb (by decide)) (Nat.lt_of_lt_of_le ha (by decide)) (Nat.lt_of_lt_of_le hd (by decide)) g2 g1
  refine of_cols C rfl g0 (by decide) ?_
  rw [decodeWord_48 (C.op.trans g0)]; unfold decMma; rw [(C.low 0 5 (by decide)).trans g3]
  simp only [(C.low 5 1 (by decide)).trans l0, (C.low 10 1 (by decide)).trans l1, (C.low 9 1 (by decide)).trans l2, (C.low 8 1 (by decide)).trans l3, (C.low 7 1 (by decide)).trans l4, (C.low 6 1 (by decide)).trans l5, C.b_top (Nat.lt_of_lt_of_le hb (by decide)), C.a_top (Nat.lt_of_lt_of_le ha (by decide)), C.d_all (Nat.lt_of_lt_of_le hd (by decide)), C.a_low (Nat.lt_of_lt_of_le ha (by decide)), C.b_low (Nat.lt_of_lt_of_le hb (by decide)), idx_val, toNat_eq_one, takeIf]; rfl

theorem mmaRn4 (d : Fin 32) (a : Fin 16) (b : Fin 16) (i : Bool) (j : Bool) (k : Bool) (o : Bool) (r : Bool) : Statement (.mmaRn4 d a b i j k o r) := by
  have hd := d.isLt
  have ha := a.isLt
  have hb := b.isLt
  have hi := Bool.toNat_lt i
  have hj := Bool.toNat_lt j
  have hk := Bool.toNat_lt k
  have ho := Bool.toNat_lt o
  have hr := Bool.toNat_lt r
  obtain ⟨g0, g1, g2, g3, l0, l1, l2, l3, l4, l5⟩ := (by decide : ∀ (i : Bool) (j : Bool) (k : Bool) (o : Bool) (r : Bool), fld (0xC0000001 + r.toNat * 2 ^ 6 + o.toNat * 2 ^ 7 + k.toNat * 2 ^ 8 + j.toNat * 2 ^ 9 + i.toNat * 2 ^ 10) 26 6 = 48 ∧ fld (0xC0000001 + r.toNat * 2 ^ 6 + o.toNat * 2 ^ 7 + k.toNat * 2 ^ 8 + j.toNat * 2 ^ 9 + i.toNat * 2 ^ 10) 11 15 = 0 ∧ 0xC0000001 + r.toNat * 2 ^ 6 + o.toNat * 2 ^ 7 + k.toNat * 2 ^ 8 + j.toNat * 2 ^ 9 + i.toNat * 2 ^ 10 < 2 ^ 32 ∧ fld (0xC0000001 + r.toNat * 2 ^ 6 + o.toNat * 2 ^ 7 + k.toNat * 2 ^ 8 + j.toNat * 2 ^ 9 + i.toNat * 2 ^ 10) 0 5 = 1 ∧ fld (0xC0000001 + r.toNat * 2 ^ 6 + o.toNat * 2 ^ 7 + k.toNat * 2 ^ 8 + j.toNat * 2 ^ 9 + i.toNat * 2 ^ 10) 5 1 = 0 ∧ fld (0xC0000001 + r.toNat * 2 ^ 6 + o.toNat * 2 ^ 7 + k.toNat * 2 ^ 8 + j.toNat * 2 ^ 9 + i.toNat * 2 ^ 10) 10 1 = i.toNat ∧ fld (0xC0000001 + r.toNat * 2 ^ 6 + o.toNat * 2 ^ 7 + k.toNat * 2 ^ 8 + j.toNat * 2 ^ 9 + i.toNat * 2 ^ 10) 9 1 = j.toNat ∧ fld (0xC0000001 + r.toNat * 2 ^ 6 + o.toNat * 2 ^ 7 + k.toNat * 2 ^ 8 + j.toNat * 2 ^ 9 + i.toNat * 2 ^ 10) 8 1 = k.toNat ∧ fld (0xC0000001 + r.toNat * 2 ^ 6 + o.toNat * 2 ^ 7 + k.toNat * 2 ^ 8 + j.toNat * 2 ^ 9 + i.toNat * 2 ^ 10) 7 1 = o.toNat ∧ fld (0xC0000001 + r.toNat * 2 ^ 6 + o.toNat * 2 ^ 7 + k.toNat * 2 ^ 8 + j.toNat * 2 ^ 9 + i.toNat * 2 ^ 10) 6 1 = r.toNat) i j k o r
  have C := cols (d := d.val) (a := a.val) (b := b.val) (Nat.lt_of_lt_of_le hb (by decide)) (Nat.lt_of_lt_of_le ha (by decide)) (Nat.lt_of_lt_of_le hd (by decide)) g2 g1
  refine of_cols C rfl g0 (by decide) ?_
  rw [decodeWord_48 (C.op.trans g0)]; unfold decMma; rw [(C.low 0 5 (by decide)).trans g3]
  simp only [(C.low 5 1 (by decide)).trans l0, (C.low 10 1 (by decide)).trans l1, (C.low 9 1 (by decide)).trans l2, (C.low 8 1 (by decide)).trans l3, (C.low 7 1 (by decide)).trans l4, (C.low 6 1 (by decide)).trans l5, C.b_top (Nat.lt_of_lt_of_le hb (by decide)), C.a_top (Nat.lt_of_lt_of_le ha (by decide)), C.d_all (Nat.lt_of_lt_of_le hd (by decide)), C.a_low (Nat.lt_of_lt_of_le ha (by decide)), C.b_low (Nat.lt_of_lt_of_le hb (by decide)), idx_val, toNat_eq_one, takeIf]; rfl

theorem mmaRnx (d : Fin 32) (a : Fin 16) (b : Fin 16) (i : Bool) (j : Bool) (k : Bool) (o : Bool) (r : Bool) : Statement (.mmaRnx d a b i j k o r) := by
  have hd := d.isLt
  have ha := a.isLt
  have hb := b.isLt
  have hi := Bool.toNat_lt i
  have hj := Bool.toNat_lt j
  have hk := Bool.toNat_lt k
  have ho := Bool.toNat_lt o
  have hr := Bool.toNat_lt r
  obtain ⟨g0, g1, g2, g3, l0, l1, l2, l3, l4, l5⟩ := (by decide : ∀ (i : Bool) (j : Bool) (k : Bool) (o : Bool) (r : Bool), fld (0xC0000002 + r.toNat * 2 ^ 6 + o.toNat * 2 ^ 7 + k.toNat * 2 ^ 8 + j.toNat * 2 ^ 9 + i.toNat * 2 ^ 10) 26 6 = 48 ∧ fld (0xC0000002 + r.toNat * 2 ^ 6 + o.toNat * 2 ^ 7 + k.toNat * 2 ^ 8 + j.toNat * 2 ^ 9 + i.toNat * 2 ^ 10) 11 15 = 0 ∧ 0xC0000002 + r.toNat * 2 ^ 6 + o.toNat * 2 ^ 7 + k.toNat * 2 ^ 8 + j.toNat * 2 ^ 9 + i.toNat * 2 ^ 10 < 2 ^ 32 ∧ fld (0xC0000002 + r.toNat * 2 ^ 6 + o.toNat * 2 ^ 7 + k.toNat * 2 ^ 8 + j.toNat * 2 ^ 9 + i.toNat * 2 ^ 10) 0 5 = 2 ∧ fld (0xC0000002 + r.toNat * 2 ^ 6 + o.toNat * 2 ^ 7 + k.toNat * 2 ^ 8 + j.toNat * 2 ^ 9 + i.toNat * 2 ^ 10) 5 1 = 0 ∧ fld (0xC0000002 + r.toNat * 2 ^ 6 + o.toNat * 2 ^ 7 + k.toNat * 2 ^ 8 + j.toNat * 2 ^ 9 + i.toNat * 2 ^ 10) 10 1 = i.toNat ∧ fld (0xC0000002 + r.toNat * 2 ^ 6 + o.toNat * 2 ^ 7 + k.toNat * 2 ^ 8 + j.toNat * 2 ^ 9 + i.toNat * 2 ^ 10) 9 1 = j.toNat ∧ fld (0xC0000002 + r.toNat * 2 ^ 6 + o.toNat * 2 ^ 7 + k.toNat * 2 ^ 8 + j.toNat * 2 ^ 9 + i.toNat * 2 ^ 10) 8 1 = k.toNat ∧ fld (0xC0000002 + r.toNat * 2 ^ 6 + o.toNat * 2 ^ 7 + k.toNat * 2 ^ 8 + j.toNat * 2 ^ 9 + i.toNat * 2 ^ 10) 7 1 = o.toNat ∧ fld (0xC0000002 + r.toNat * 2 ^ 6 + o.toNat * 2 ^ 7 + k.toNat * 2 ^ 8 + j.toNat * 2 ^ 9 + i.toNat * 2 ^ 10) 6 1 = r.toNat) i j k o r
  have C := cols (d := d.val) (a := a.val) (b := b.val) (Nat.lt_of_lt_of_le hb (by decide)) (Nat.lt_of_lt_of_le ha (by decide)) (Nat.lt_of_lt_of_le hd (by decide)) g2 g1
  refine of_cols C rfl g0 (by decide) ?_
  rw [decodeWord_48 (C.op.trans g0)]; unfold decMma; rw [(C.low 0 5 (by decide)).trans g3]
  simp only [(C.low 5 1 (by decide)).trans l0, (C.low 10 1 (by decide)).trans l1, (C.low 9 1 (by decide)).trans l2, (C.low 8 1 (by decide)).trans l3, (C.low 7 1 (by decide)).trans l4, (C.low 6 1 (by decide)).trans l5, C.b_top (Nat.lt_of_lt_of_le hb (by decide)), C.a_top (Nat.lt_of_lt_of_le ha (by decide)), C.d_all (Nat.lt_of_lt_of_le hd (by decide)), C.a_low (Nat.lt_of_lt_of_le ha (by decide)), C.b_low (Nat.lt_of_lt_of_le hb (by decide)), idx_val, toNat_eq_one, takeIf]; rfl

theorem mmaRny (d : Fin 32) (a : Fin 16) (b : Fin 16) (i : Bool) (j : Bool) (k : Bool) (o : Bool) (r : Bool) : Statement (.mmaRny d a b i j k o r) := by
  have hd := d.isLt
  have ha := a.isLt
  have hb := b.isLt
  have hi := Bool.toNat_lt i
  have hj := Bool.toNat_lt j
  have hk := Bool.toNat_lt k
  have ho := Bool.toNat_lt o
  have hr := Bool.toNat_lt r
  obtain ⟨g0, g1, g2, g3, l0, l1, l2, l3, l4, l5⟩ := (by decide : ∀ (i : Bool) (j : Bool) (k : Bool) (o : Bool) (r : Bool), fld (0xC0000003 + r.toNat * 2 ^ 6 + o.toNat * 2 ^ 7 + k.toNat * 2 ^ 8 + j.toNat * 2 ^ 9 + i.toNat * 2 ^ 10) 26 6 = 48 ∧ fld (0xC0000003 + r.toNat * 2 ^ 6 + o.toNat * 2 ^ 7 + k.toNat * 2 ^ 8 + j.toNat * 2 ^ 9 + i.toNat * 2 ^ 10) 11 15 = 0 ∧ 0xC0000003 + r.toNat * 2 ^ 6 + o.toNat * 2 ^ 7 + k.toNat * 2 ^ 8 + j.toNat * 2 ^ 9 + i.toNat * 2 ^ 10 < 2 ^ 32 ∧ fld (0xC0000003 + r.toNat * 2 ^ 6 + o.toNat * 2 ^ 7 + k.toNat * 2 ^ 8 + j.toNat * 2 ^ 9 + i.toNat * 2 ^ 10) 0 5 = 3 ∧ fld (0xC0000003 + r.toNat * 2 ^ 6 + o.toNat * 2 ^ 7 + k.toNat * 2 ^ 8 + j.toNat * 2 ^ 9 + i.toNat * 2 ^ 10) 5 1 = 0 ∧ fld (0xC0000003 + r.toNat * 2 ^ 6 + o.toNat * 2 ^ 7 + k.toNat * 2 ^ 8 + j.toNat * 2 ^ 9 + i.toNat * 2 ^ 10) 10 1 = i.toNat ∧ fld (0xC0000003 + r.toNat * 2 ^ 6 + o.toNat * 2 ^ 7 + k.toNat * 2 ^ 8 + j.toNat * 2 ^ 9 + i.toNat * 2 ^ 10) 9 1 = j.toNat ∧ fld (0xC0000003 + r.toNat * 2 ^ 6 + o.toNat * 2 ^ 7 + k.toNat * 2 ^ 8 + j.toNat * 2 ^ 9 + i.toNat * 2 ^ 10) 8 1 = k.toNat ∧ fld (0xC0000003 + r.toNat * 2 ^ 6 + o.toNat * 2 ^ 7 + k.toNat * 2 ^ 8 + j.toNat * 2 ^ 9 + i.toNat * 2 ^ 10) 7 1 = o.toNat ∧ fld (0xC0000003 + r.toNat * 2 ^ 6 + o.toNat * 2 ^ 7 + k.toNat * 2 ^ 8 + j.toNat * 2 ^ 9 + i.toNat * 2 ^ 10) 6 1 = r.toNat) i j k o r
  have C := cols (d := d.val) (a := a.val) (b := b.val) (Nat.lt_of_lt_of_le hb (by decide)) (Nat.lt_of_lt_of_le ha (by decide)) (Nat.lt_of_lt_of_le hd (by decide)) g2 g1
  refine of_cols C rfl g0 (by decide) ?_
  rw [decodeWord_48 (C.op.trans g0)]; unfold decMma; rw [(C.low 0 5 (by decide)).trans g3]
  simp only [(C.low 5 1 (by decide)).trans l0, (C.low 10 1 (by decide)).trans l1, (C.low 9 1 (by decide)).trans l2, (C.low 8 1 (by decide)).trans l3, (C.low 7 1 (by decide)).trans l4, (C.low 6 1 (by decide)).trans l5, C.b_top (Nat.lt_of_lt_of_le hb (by decide)), C.a_top (Nat.lt_of_lt_of_le ha (by decide)), C.d_all (Nat.lt_of_lt_of_le hd (by decide)), C.a_low (Nat.lt_of_lt_of_le ha (by decide)), C.b_low (Nat.lt_of_lt_of_le hb (by decide)), idx_val, toNat_eq_one, takeIf]; rfl

theorem mmaBf16 (d : Fin 32) (a : Fin 16) (b : Fin 16) (i : Bool) (j : Bool) (k : Bool) (o : Bool) (r : Bool) : Statement (.mmaBf16 d a b i j k o r) := by
  have hd := d.isLt
  have ha := a.isLt
  have hb := b.isLt
  have hi := Bool.toNat_lt i
  have hj := Bool.toNat_lt j
  have hk := Bool.toNat_lt k
  have ho := Bool.toNat_lt o
  have hr := Bool.toNat_lt r
  obtain ⟨g0, g1, g2, g3, l0, l1, l2, l3, l4, l5⟩ := (by decide : ∀ (i : Bool) (j : Bool) (k : Bool) (o : Bool) (r : Bool), fld (0xC0000004 + r.toNat * 2 ^ 6 + o.toNat * 2 ^ 7 + k.toNat * 2 ^ 8 + j.toNat * 2 ^ 9 + i.toNat * 2 ^ 10) 26 6 = 48 ∧ fld (0xC0000004 + r.toNat * 2 ^ 6 + o.toNat * 2 ^ 7 + k.toNat * 2 ^ 8 + j.toNat * 2 ^ 9 + i.toNat * 2 ^ 10) 11 15 = 0 ∧ 0xC0000004 + r.toNat * 2 ^ 6 + o.toNat * 2 ^ 7 + k.toNat * 2 ^ 8 + j.toNat * 2 ^ 9 + i.toNat * 2 ^ 10 < 2 ^ 32 ∧ fld (0xC0000004 + r.toNat * 2 ^ 6 + o.toNat * 2 ^ 7 + k.toNat * 2 ^ 8 + j.toNat * 2 ^ 9 + i.toNat * 2 ^ 10) 0 5 = 4 ∧ fld (0xC0000004 + r.toNat * 2 ^ 6 + o.toNat * 2 ^ 7 + k.toNat * 2 ^ 8 + j.toNat * 2 ^ 9 + i.toNat * 2 ^ 10) 5 1 = 0 ∧ fld (0xC0000004 + r.toNat * 2 ^ 6 + o.toNat * 2 ^ 7 + k.toNat * 2 ^ 8 + j.toNat * 2 ^ 9 + i.toNat * 2 ^ 10) 10 1 = i.toNat ∧ fld (0xC0000004 + r.toNat * 2 ^ 6 + o.toNat * 2 ^ 7 + k.toNat * 2 ^ 8 + j.toNat * 2 ^ 9 + i.toNat * 2 ^ 10) 9 1 = j.toNat ∧ fld (0xC0000004 + r.toNat * 2 ^ 6 + o.toNat * 2 ^ 7 + k.toNat * 2 ^ 8 + j.toNat * 2 ^ 9 + i.toNat * 2 ^ 10) 8 1 = k.toNat ∧ fld (0xC0000004 + r.toNat * 2 ^ 6 + o.toNat * 2 ^ 7 + k.toNat * 2 ^ 8 + j.toNat * 2 ^ 9 + i.toNat * 2 ^ 10) 7 1 = o.toNat ∧ fld (0xC0000004 + r.toNat * 2 ^ 6 + o.toNat * 2 ^ 7 + k.toNat * 2 ^ 8 + j.toNat * 2 ^ 9 + i.toNat * 2 ^ 10) 6 1 = r.toNat) i j k o r
  have C := cols (d := d.val) (a := a.val) (b := b.val) (Nat.lt_of_lt_of_le hb (by decide)) (Nat.lt_of_lt_of_le ha (by decide)) (Nat.lt_of_lt_of_le hd (by decide)) g2 g1
  refine of_cols C rfl g0 (by decide) ?_
  rw [decodeWord_48 (C.op.trans g0)]; unfold decMma; rw [(C.low 0 5 (by decide)).trans g3]
  simp only [(C.low 5 1 (by decide)).trans l0, (C.low 10 1 (by decide)).trans l1, (C.low 9 1 (by decide)).trans l2, (C.low 8 1 (by decide)).trans l3, (C.low 7 1 (by decide)).trans l4, (C.low 6 1 (by decide)).trans l5, C.b_top (Nat.lt_of_lt_of_le hb (by decide)), C.a_top (Nat.lt_of_lt_of_le ha (by decide)), C.d_all (Nat.lt_of_lt_of_le hd (by decide)), C.a_low (Nat.lt_of_lt_of_le ha (by decide)), C.b_low (Nat.lt_of_lt_of_le hb (by decide)), idx_val, toNat_eq_one, takeIf]; rfl

theorem accRd (d : Fin 32) (a : Fin 32) (b : Fin 32) : Statement (.accRd d a b) := by
  have hd := d.isLt
  have ha := a.isLt
  have hb := b.isLt
  obtain ⟨g0, g1, g2, g3, l0⟩ : fld (0xC4000000) 26 6 = 49 ∧ fld (0xC4000000) 11 15 = 0 ∧ 0xC4000000 < 2 ^ 32 ∧ fld (0xC4000000) 0 5 = 0 ∧ fld (0xC4000000) 5 6 = 0 := by decide
  have C := cols (d := d.val) (a := a.val) (b := b.val) (Nat.lt_of_lt_of_le hb (by decide)) (Nat.lt_of_lt_of_le ha (by decide)) (Nat.lt_of_lt_of_le hd (by decide)) g2 g1
  refine of_cols C rfl g0 (by decide) ?_
  rw [decodeWord_49 (C.op.trans g0)]; unfold decAcc; rw [(C.low 0 5 (by decide)).trans g3]
  simp only [(C.low 5 6 (by decide)).trans l0, C.d_all (Nat.lt_of_lt_of_le hd (by decide)), C.a_all (Nat.lt_of_lt_of_le ha (by decide)), C.b_all (Nat.lt_of_lt_of_le hb (by decide)), idx_val, takeIf]; rfl

theorem accFlg (d : Fin 32) (a : Fin 32) : Statement (.accFlg d a) := by
  have hd := d.isLt
  have ha := a.isLt
  obtain ⟨g0, g1, g2, g3⟩ : fld (0xC4000001) 26 6 = 49 ∧ fld (0xC4000001) 11 15 = 0 ∧ 0xC4000001 < 2 ^ 32 ∧ fld (0xC4000001) 0 5 = 1 := by decide
  have C : Cols (0xC4000001 + a.val * 2 ^ 16 + d.val * 2 ^ 21) (0xC4000001) (d.val) a.val 0 := by
    simpa only [Nat.zero_mul, Nat.add_zero] using cols (d := d.val) (a := a.val) (b := 0) (by decide) (Nat.lt_of_lt_of_le ha (by decide)) (Nat.lt_of_lt_of_le hd (by decide)) g2 g1
  refine of_cols C rfl g0 (by decide) ?_
  have s0 : fld (0xC4000001 + a.val * 2 ^ 16 + d.val * 2 ^ 21) 5 11 = 0 := by simp only [fld]; omega
  rw [decodeWord_49 (C.op.trans g0)]; unfold decAcc; rw [(C.low 0 5 (by decide)).trans g3]
  simp only [C.d_all (Nat.lt_of_lt_of_le hd (by decide)), C.a_all (Nat.lt_of_lt_of_le ha (by decide)), s0, idx_val, takeIf]; rfl

theorem accSt (d : Fin 16) (a : Fin 32) (x : Bool) (y : Bool) : Statement (.accSt d a x y) := by
  have hd := d.isLt
  have ha := a.isLt
  have hx := Bool.toNat_lt x
  have hy := Bool.toNat_lt y
  obtain ⟨g0, g1, g2, g3, l0, l1, l2⟩ := (by decide : ∀ (x : Bool) (y : Bool), fld (0xC4000002 + y.toNat * 2 ^ 9 + x.toNat * 2 ^ 10) 26 6 = 49 ∧ fld (0xC4000002 + y.toNat * 2 ^ 9 + x.toNat * 2 ^ 10) 11 15 = 0 ∧ 0xC4000002 + y.toNat * 2 ^ 9 + x.toNat * 2 ^ 10 < 2 ^ 32 ∧ fld (0xC4000002 + y.toNat * 2 ^ 9 + x.toNat * 2 ^ 10) 0 5 = 2 ∧ fld (0xC4000002 + y.toNat * 2 ^ 9 + x.toNat * 2 ^ 10) 5 4 = 0 ∧ fld (0xC4000002 + y.toNat * 2 ^ 9 + x.toNat * 2 ^ 10) 10 1 = x.toNat ∧ fld (0xC4000002 + y.toNat * 2 ^ 9 + x.toNat * 2 ^ 10) 9 1 = y.toNat) x y
  have C : Cols (0xC4000002 + y.toNat * 2 ^ 9 + x.toNat * 2 ^ 10 + a.val * 2 ^ 16 + d.val * 2 ^ 21) (0xC4000002 + y.toNat * 2 ^ 9 + x.toNat * 2 ^ 10) (d.val) a.val 0 := by
    simpa only [Nat.zero_mul, Nat.add_zero] using cols (d := d.val) (a := a.val) (b := 0) (by decide) (Nat.lt_of_lt_of_le ha (by decide)) (Nat.lt_of_lt_of_le hd (by decide)) g2 g1
  refine of_cols C rfl g0 (by decide) ?_
  rw [decodeWord_49 (C.op.trans g0)]; unfold decAcc; rw [(C.low 0 5 (by decide)).trans g3]
  simp only [(C.low 5 4 (by decide)).trans l0, (C.low 10 1 (by decide)).trans l1, (C.low 9 1 (by decide)).trans l2, C.b_all (by decide), C.d_top (Nat.lt_of_lt_of_le hd (by decide)), C.d_low (Nat.lt_of_lt_of_le hd (by decide)), C.a_all (Nat.lt_of_lt_of_le ha (by decide)), idx_val, toNat_eq_one, takeIf]; rfl

theorem accAdd (d : Fin 32) (a : Fin 32) (b : Fin 32) : Statement (.accAdd d a b) := by
  have hd := d.isLt
  have ha := a.isLt
  have hb := b.isLt
  obtain ⟨g0, g1, g2, g3, l0⟩ : fld (0xC4000003) 26 6 = 49 ∧ fld (0xC4000003) 11 15 = 0 ∧ 0xC4000003 < 2 ^ 32 ∧ fld (0xC4000003) 0 5 = 3 ∧ fld (0xC4000003) 5 6 = 0 := by decide
  have C := cols (d := d.val) (a := a.val) (b := b.val) (Nat.lt_of_lt_of_le hb (by decide)) (Nat.lt_of_lt_of_le ha (by decide)) (Nat.lt_of_lt_of_le hd (by decide)) g2 g1
  refine of_cols C rfl g0 (by decide) ?_
  rw [decodeWord_49 (C.op.trans g0)]; unfold decAcc; rw [(C.low 0 5 (by decide)).trans g3]
  simp only [(C.low 5 6 (by decide)).trans l0, C.d_all (Nat.lt_of_lt_of_le hd (by decide)), C.a_all (Nat.lt_of_lt_of_le ha (by decide)), C.b_all (Nat.lt_of_lt_of_le hb (by decide)), idx_val, takeIf]; rfl

theorem accZero (d : Fin 32) : Statement (.accZero d) := by
  have hd := d.isLt
  obtain ⟨g0, g1, g2, g3⟩ : fld (0xC4000004) 26 6 = 49 ∧ fld (0xC4000004) 11 15 = 0 ∧ 0xC4000004 < 2 ^ 32 ∧ fld (0xC4000004) 0 5 = 4 := by decide
  have C : Cols (0xC4000004 + d.val * 2 ^ 21) (0xC4000004) (d.val) 0 0 := by
    simpa only [Nat.zero_mul, Nat.add_zero] using cols (d := d.val) (a := 0) (b := 0) (by decide) (by decide) (Nat.lt_of_lt_of_le hd (by decide)) g2 g1
  refine of_cols C rfl g0 (by decide) ?_
  have s0 : fld (0xC4000004 + d.val * 2 ^ 21) 5 16 = 0 := by simp only [fld]; omega
  rw [decodeWord_49 (C.op.trans g0)]; unfold decAcc; rw [(C.low 0 5 (by decide)).trans g3]
  simp only [C.d_all (Nat.lt_of_lt_of_le hd (by decide)), s0, idx_val, takeIf]; rfl

theorem tentMark (d : Fin 32) (a : Fin 32) : Statement (.tentMark d a) := by
  have hd := d.isLt
  have ha := a.isLt
  obtain ⟨g0, g1, g2, g3⟩ : fld (0xC8000000) 26 6 = 50 ∧ fld (0xC8000000) 11 15 = 0 ∧ 0xC8000000 < 2 ^ 32 ∧ fld (0xC8000000) 0 5 = 0 := by decide
  have C : Cols (0xC8000000 + a.val * 2 ^ 16 + d.val * 2 ^ 21) (0xC8000000) (d.val) a.val 0 := by
    simpa only [Nat.zero_mul, Nat.add_zero] using cols (d := d.val) (a := a.val) (b := 0) (by decide) (Nat.lt_of_lt_of_le ha (by decide)) (Nat.lt_of_lt_of_le hd (by decide)) g2 g1
  refine of_cols C rfl g0 (by decide) ?_
  have s0 : fld (0xC8000000 + a.val * 2 ^ 16 + d.val * 2 ^ 21) 5 11 = 0 := by simp only [fld]; omega
  rw [decodeWord_50 (C.op.trans g0)]; unfold decTent; rw [(C.low 0 5 (by decide)).trans g3]
  simp only [C.d_all (Nat.lt_of_lt_of_le hd (by decide)), C.a_all (Nat.lt_of_lt_of_le ha (by decide)), s0, idx_val, takeIf]; rfl

theorem rslv (d : Fin 32) (a : Fin 32) (f : Bool) (g : Bool) : Statement (.rslv d a f g) := by
  have hd := d.isLt
  have ha := a.isLt
  have hf := Bool.toNat_lt f
  have hg := Bool.toNat_lt g
  obtain ⟨g0, g1, g2, g3, l0, l1, l2⟩ := (by decide : ∀ (f : Bool) (g : Bool), fld (0xCC000000 + g.toNat * 2 ^ 9 + f.toNat * 2 ^ 10) 26 6 = 51 ∧ fld (0xCC000000 + g.toNat * 2 ^ 9 + f.toNat * 2 ^ 10) 11 15 = 0 ∧ 0xCC000000 + g.toNat * 2 ^ 9 + f.toNat * 2 ^ 10 < 2 ^ 32 ∧ fld (0xCC000000 + g.toNat * 2 ^ 9 + f.toNat * 2 ^ 10) 0 5 = 0 ∧ fld (0xCC000000 + g.toNat * 2 ^ 9 + f.toNat * 2 ^ 10) 5 4 = 0 ∧ fld (0xCC000000 + g.toNat * 2 ^ 9 + f.toNat * 2 ^ 10) 10 1 = f.toNat ∧ fld (0xCC000000 + g.toNat * 2 ^ 9 + f.toNat * 2 ^ 10) 9 1 = g.toNat) f g
  have C : Cols (0xCC000000 + g.toNat * 2 ^ 9 + f.toNat * 2 ^ 10 + a.val * 2 ^ 16 + d.val * 2 ^ 21) (0xCC000000 + g.toNat * 2 ^ 9 + f.toNat * 2 ^ 10) (d.val) a.val 0 := by
    simpa only [Nat.zero_mul, Nat.add_zero] using cols (d := d.val) (a := a.val) (b := 0) (by decide) (Nat.lt_of_lt_of_le ha (by decide)) (Nat.lt_of_lt_of_le hd (by decide)) g2 g1
  refine of_cols C rfl g0 (by decide) ?_
  rw [decodeWord_51 (C.op.trans g0)]; unfold decRslv; rw [(C.low 0 5 (by decide)).trans g3]
  simp only [(C.low 5 4 (by decide)).trans l0, (C.low 10 1 (by decide)).trans l1, (C.low 9 1 (by decide)).trans l2, C.b_all (by decide), C.d_all (Nat.lt_of_lt_of_le hd (by decide)), C.a_all (Nat.lt_of_lt_of_le ha (by decide)), idx_val, toNat_eq_one, takeIf]; rfl

theorem mkat (a : Fin 32) (b : Fin 32) : Statement (.mkat a b) := by
  have ha := a.isLt
  have hb := b.isLt
  obtain ⟨g0, g1, g2, g3, l0⟩ : fld (0xD0000000) 26 6 = 52 ∧ fld (0xD0000000) 11 15 = 0 ∧ 0xD0000000 < 2 ^ 32 ∧ fld (0xD0000000) 0 5 = 0 ∧ fld (0xD0000000) 5 6 = 0 := by decide
  have C := cols_ab (a := a.val) (b := b.val) (Nat.lt_of_lt_of_le hb (by decide)) (Nat.lt_of_lt_of_le ha (by decide)) g2 g1
  refine of_cols C rfl g0 (by decide) ?_
  rw [decodeWord_52 (C.op.trans g0)]; unfold decMkat; rw [(C.low 0 5 (by decide)).trans g3]
  simp only [(C.low 5 6 (by decide)).trans l0, C.d_all (by decide), C.a_all (Nat.lt_of_lt_of_le ha (by decide)), C.b_all (Nat.lt_of_lt_of_le hb (by decide)), idx_val, takeIf]; rfl

theorem vfpAdd (d : Fin 32) (a : Fin 32) (b : Fin 32) (t : Fin 8) : Statement (.vfpAdd d a b t) := by
  have hd := d.isLt
  have ha := a.isLt
  have hb := b.isLt
  have ht := t.isLt
  obtain ⟨g0, g1, g2, g3, l0⟩ := (by decide : ∀ (t : Fin 8), fld (0x80000000 + t.val * 2 ^ 8) 26 6 = 32 ∧ fld (0x80000000 + t.val * 2 ^ 8) 11 15 = 0 ∧ 0x80000000 + t.val * 2 ^ 8 < 2 ^ 32 ∧ fld (0x80000000 + t.val * 2 ^ 8) 0 8 = 0 ∧ fld (0x80000000 + t.val * 2 ^ 8) 8 3 = t.val) t
  have C := cols (d := d.val) (a := a.val) (b := b.val) (Nat.lt_of_lt_of_le hb (by decide)) (Nat.lt_of_lt_of_le ha (by decide)) (Nat.lt_of_lt_of_le hd (by decide)) g2 g1
  refine of_cols C rfl g0 (by decide) ?_
  rw [decodeWord_32 (C.op.trans g0)]; unfold decVfp; rw [(C.low 0 8 (by decide)).trans g3]
  simp only [(C.low 8 3 (by decide)).trans l0, C.d_all (Nat.lt_of_lt_of_le hd (by decide)), C.a_all (Nat.lt_of_lt_of_le ha (by decide)), C.b_all (Nat.lt_of_lt_of_le hb (by decide)), idx_val, takeIf]; rfl

theorem vfpSub (d : Fin 32) (a : Fin 32) (b : Fin 32) (t : Fin 8) : Statement (.vfpSub d a b t) := by
  have hd := d.isLt
  have ha := a.isLt
  have hb := b.isLt
  have ht := t.isLt
  obtain ⟨g0, g1, g2, g3, l0⟩ := (by decide : ∀ (t : Fin 8), fld (0x80000001 + t.val * 2 ^ 8) 26 6 = 32 ∧ fld (0x80000001 + t.val * 2 ^ 8) 11 15 = 0 ∧ 0x80000001 + t.val * 2 ^ 8 < 2 ^ 32 ∧ fld (0x80000001 + t.val * 2 ^ 8) 0 8 = 1 ∧ fld (0x80000001 + t.val * 2 ^ 8) 8 3 = t.val) t
  have C := cols (d := d.val) (a := a.val) (b := b.val) (Nat.lt_of_lt_of_le hb (by decide)) (Nat.lt_of_lt_of_le ha (by decide)) (Nat.lt_of_lt_of_le hd (by decide)) g2 g1
  refine of_cols C rfl g0 (by decide) ?_
  rw [decodeWord_32 (C.op.trans g0)]; unfold decVfp; rw [(C.low 0 8 (by decide)).trans g3]
  simp only [(C.low 8 3 (by decide)).trans l0, C.d_all (Nat.lt_of_lt_of_le hd (by decide)), C.a_all (Nat.lt_of_lt_of_le ha (by decide)), C.b_all (Nat.lt_of_lt_of_le hb (by decide)), idx_val, takeIf]; rfl

theorem vfpMul (d : Fin 32) (a : Fin 32) (b : Fin 32) (t : Fin 8) : Statement (.vfpMul d a b t) := by
  have hd := d.isLt
  have ha := a.isLt
  have hb := b.isLt
  have ht := t.isLt
  obtain ⟨g0, g1, g2, g3, l0⟩ := (by decide : ∀ (t : Fin 8), fld (0x80000002 + t.val * 2 ^ 8) 26 6 = 32 ∧ fld (0x80000002 + t.val * 2 ^ 8) 11 15 = 0 ∧ 0x80000002 + t.val * 2 ^ 8 < 2 ^ 32 ∧ fld (0x80000002 + t.val * 2 ^ 8) 0 8 = 2 ∧ fld (0x80000002 + t.val * 2 ^ 8) 8 3 = t.val) t
  have C := cols (d := d.val) (a := a.val) (b := b.val) (Nat.lt_of_lt_of_le hb (by decide)) (Nat.lt_of_lt_of_le ha (by decide)) (Nat.lt_of_lt_of_le hd (by decide)) g2 g1
  refine of_cols C rfl g0 (by decide) ?_
  rw [decodeWord_32 (C.op.trans g0)]; unfold decVfp; rw [(C.low 0 8 (by decide)).trans g3]
  simp only [(C.low 8 3 (by decide)).trans l0, C.d_all (Nat.lt_of_lt_of_le hd (by decide)), C.a_all (Nat.lt_of_lt_of_le ha (by decide)), C.b_all (Nat.lt_of_lt_of_le hb (by decide)), idx_val, takeIf]; rfl

theorem vfpMin (d : Fin 32) (a : Fin 32) (b : Fin 32) (t : Fin 8) : Statement (.vfpMin d a b t) := by
  have hd := d.isLt
  have ha := a.isLt
  have hb := b.isLt
  have ht := t.isLt
  obtain ⟨g0, g1, g2, g3, l0⟩ := (by decide : ∀ (t : Fin 8), fld (0x80000003 + t.val * 2 ^ 8) 26 6 = 32 ∧ fld (0x80000003 + t.val * 2 ^ 8) 11 15 = 0 ∧ 0x80000003 + t.val * 2 ^ 8 < 2 ^ 32 ∧ fld (0x80000003 + t.val * 2 ^ 8) 0 8 = 3 ∧ fld (0x80000003 + t.val * 2 ^ 8) 8 3 = t.val) t
  have C := cols (d := d.val) (a := a.val) (b := b.val) (Nat.lt_of_lt_of_le hb (by decide)) (Nat.lt_of_lt_of_le ha (by decide)) (Nat.lt_of_lt_of_le hd (by decide)) g2 g1
  refine of_cols C rfl g0 (by decide) ?_
  rw [decodeWord_32 (C.op.trans g0)]; unfold decVfp; rw [(C.low 0 8 (by decide)).trans g3]
  simp only [(C.low 8 3 (by decide)).trans l0, C.d_all (Nat.lt_of_lt_of_le hd (by decide)), C.a_all (Nat.lt_of_lt_of_le ha (by decide)), C.b_all (Nat.lt_of_lt_of_le hb (by decide)), idx_val, takeIf]; rfl

theorem vfpMax (d : Fin 32) (a : Fin 32) (b : Fin 32) (t : Fin 8) : Statement (.vfpMax d a b t) := by
  have hd := d.isLt
  have ha := a.isLt
  have hb := b.isLt
  have ht := t.isLt
  obtain ⟨g0, g1, g2, g3, l0⟩ := (by decide : ∀ (t : Fin 8), fld (0x80000004 + t.val * 2 ^ 8) 26 6 = 32 ∧ fld (0x80000004 + t.val * 2 ^ 8) 11 15 = 0 ∧ 0x80000004 + t.val * 2 ^ 8 < 2 ^ 32 ∧ fld (0x80000004 + t.val * 2 ^ 8) 0 8 = 4 ∧ fld (0x80000004 + t.val * 2 ^ 8) 8 3 = t.val) t
  have C := cols (d := d.val) (a := a.val) (b := b.val) (Nat.lt_of_lt_of_le hb (by decide)) (Nat.lt_of_lt_of_le ha (by decide)) (Nat.lt_of_lt_of_le hd (by decide)) g2 g1
  refine of_cols C rfl g0 (by decide) ?_
  rw [decodeWord_32 (C.op.trans g0)]; unfold decVfp; rw [(C.low 0 8 (by decide)).trans g3]
  simp only [(C.low 8 3 (by decide)).trans l0, C.d_all (Nat.lt_of_lt_of_le hd (by decide)), C.a_all (Nat.lt_of_lt_of_le ha (by decide)), C.b_all (Nat.lt_of_lt_of_le hb (by decide)), idx_val, takeIf]; rfl

theorem vfpAbs (d : Fin 32) (a : Fin 32) (t : Fin 8) : Statement (.vfpAbs d a t) := by
  have hd := d.isLt
  have ha := a.isLt
  have ht := t.isLt
  obtain ⟨g0, g1, g2, g3, l0⟩ := (by decide : ∀ (t : Fin 8), fld (0x80000005 + t.val * 2 ^ 8) 26 6 = 32 ∧ fld (0x80000005 + t.val * 2 ^ 8) 11 15 = 0 ∧ 0x80000005 + t.val * 2 ^ 8 < 2 ^ 32 ∧ fld (0x80000005 + t.val * 2 ^ 8) 0 8 = 5 ∧ fld (0x80000005 + t.val * 2 ^ 8) 8 3 = t.val) t
  have C : Cols (0x80000005 + t.val * 2 ^ 8 + a.val * 2 ^ 16 + d.val * 2 ^ 21) (0x80000005 + t.val * 2 ^ 8) (d.val) a.val 0 := by
    simpa only [Nat.zero_mul, Nat.add_zero] using cols (d := d.val) (a := a.val) (b := 0) (by decide) (Nat.lt_of_lt_of_le ha (by decide)) (Nat.lt_of_lt_of_le hd (by decide)) g2 g1
  refine of_cols C rfl g0 (by decide) ?_
  rw [decodeWord_32 (C.op.trans g0)]; unfold decVfp; rw [(C.low 0 8 (by decide)).trans g3]
  simp only [(C.low 8 3 (by decide)).trans l0, C.b_all (by decide), C.d_all (Nat.lt_of_lt_of_le hd (by decide)), C.a_all (Nat.lt_of_lt_of_le ha (by decide)), idx_val, takeIf]; rfl

theorem vfpNeg (d : Fin 32) (a : Fin 32) (t : Fin 8) : Statement (.vfpNeg d a t) := by
  have hd := d.isLt
  have ha := a.isLt
  have ht := t.isLt
  obtain ⟨g0, g1, g2, g3, l0⟩ := (by decide : ∀ (t : Fin 8), fld (0x80000006 + t.val * 2 ^ 8) 26 6 = 32 ∧ fld (0x80000006 + t.val * 2 ^ 8) 11 15 = 0 ∧ 0x80000006 + t.val * 2 ^ 8 < 2 ^ 32 ∧ fld (0x80000006 + t.val * 2 ^ 8) 0 8 = 6 ∧ fld (0x80000006 + t.val * 2 ^ 8) 8 3 = t.val) t
  have C : Cols (0x80000006 + t.val * 2 ^ 8 + a.val * 2 ^ 16 + d.val * 2 ^ 21) (0x80000006 + t.val * 2 ^ 8) (d.val) a.val 0 := by
    simpa only [Nat.zero_mul, Nat.add_zero] using cols (d := d.val) (a := a.val) (b := 0) (by decide) (Nat.lt_of_lt_of_le ha (by decide)) (Nat.lt_of_lt_of_le hd (by decide)) g2 g1
  refine of_cols C rfl g0 (by decide) ?_
  rw [decodeWord_32 (C.op.trans g0)]; unfold decVfp; rw [(C.low 0 8 (by decide)).trans g3]
  simp only [(C.low 8 3 (by decide)).trans l0, C.b_all (by decide), C.d_all (Nat.lt_of_lt_of_le hd (by decide)), C.a_all (Nat.lt_of_lt_of_le ha (by decide)), idx_val, takeIf]; rfl

theorem vfpCpsgn (d : Fin 32) (a : Fin 32) (b : Fin 32) (t : Fin 8) : Statement (.vfpCpsgn d a b t) := by
  have hd := d.isLt
  have ha := a.isLt
  have hb := b.isLt
  have ht := t.isLt
  obtain ⟨g0, g1, g2, g3, l0⟩ := (by decide : ∀ (t : Fin 8), fld (0x80000007 + t.val * 2 ^ 8) 26 6 = 32 ∧ fld (0x80000007 + t.val * 2 ^ 8) 11 15 = 0 ∧ 0x80000007 + t.val * 2 ^ 8 < 2 ^ 32 ∧ fld (0x80000007 + t.val * 2 ^ 8) 0 8 = 7 ∧ fld (0x80000007 + t.val * 2 ^ 8) 8 3 = t.val) t
  have C := cols (d := d.val) (a := a.val) (b := b.val) (Nat.lt_of_lt_of_le hb (by decide)) (Nat.lt_of_lt_of_le ha (by decide)) (Nat.lt_of_lt_of_le hd (by decide)) g2 g1
  refine of_cols C rfl g0 (by decide) ?_
  rw [decodeWord_32 (C.op.trans g0)]; unfold decVfp; rw [(C.low 0 8 (by decide)).trans g3]
  simp only [(C.low 8 3 (by decide)).trans l0, C.d_all (Nat.lt_of_lt_of_le hd (by decide)), C.a_all (Nat.lt_of_lt_of_le ha (by decide)), C.b_all (Nat.lt_of_lt_of_le hb (by decide)), idx_val, takeIf]; rfl

theorem vfmaFma (d : Fin 32) (a : Fin 32) (b : Fin 32) (t : Fin 8) : Statement (.vfmaFma d a b t) := by
  have hd := d.isLt
  have ha := a.isLt
  have hb := b.isLt
  have ht := t.isLt
  obtain ⟨g0, g1, g2, g3, l0⟩ := (by decide : ∀ (t : Fin 8), fld (0x84000000 + t.val * 2 ^ 8) 26 6 = 33 ∧ fld (0x84000000 + t.val * 2 ^ 8) 11 15 = 0 ∧ 0x84000000 + t.val * 2 ^ 8 < 2 ^ 32 ∧ fld (0x84000000 + t.val * 2 ^ 8) 0 8 = 0 ∧ fld (0x84000000 + t.val * 2 ^ 8) 8 3 = t.val) t
  have C := cols (d := d.val) (a := a.val) (b := b.val) (Nat.lt_of_lt_of_le hb (by decide)) (Nat.lt_of_lt_of_le ha (by decide)) (Nat.lt_of_lt_of_le hd (by decide)) g2 g1
  refine of_cols C rfl g0 (by decide) ?_
  rw [decodeWord_33 (C.op.trans g0)]; unfold decVfma; rw [(C.low 0 8 (by decide)).trans g3]
  simp only [(C.low 8 3 (by decide)).trans l0, C.d_all (Nat.lt_of_lt_of_le hd (by decide)), C.a_all (Nat.lt_of_lt_of_le ha (by decide)), C.b_all (Nat.lt_of_lt_of_le hb (by decide)), idx_val, takeIf]; rfl

theorem vfmaFms (d : Fin 32) (a : Fin 32) (b : Fin 32) (t : Fin 8) : Statement (.vfmaFms d a b t) := by
  have hd := d.isLt
  have ha := a.isLt
  have hb := b.isLt
  have ht := t.isLt
  obtain ⟨g0, g1, g2, g3, l0⟩ := (by decide : ∀ (t : Fin 8), fld (0x84000001 + t.val * 2 ^ 8) 26 6 = 33 ∧ fld (0x84000001 + t.val * 2 ^ 8) 11 15 = 0 ∧ 0x84000001 + t.val * 2 ^ 8 < 2 ^ 32 ∧ fld (0x84000001 + t.val * 2 ^ 8) 0 8 = 1 ∧ fld (0x84000001 + t.val * 2 ^ 8) 8 3 = t.val) t
  have C := cols (d := d.val) (a := a.val) (b := b.val) (Nat.lt_of_lt_of_le hb (by decide)) (Nat.lt_of_lt_of_le ha (by decide)) (Nat.lt_of_lt_of_le hd (by decide)) g2 g1
  refine of_cols C rfl g0 (by decide) ?_
  rw [decodeWord_33 (C.op.trans g0)]; unfold decVfma; rw [(C.low 0 8 (by decide)).trans g3]
  simp only [(C.low 8 3 (by decide)).trans l0, C.d_all (Nat.lt_of_lt_of_le hd (by decide)), C.a_all (Nat.lt_of_lt_of_le ha (by decide)), C.b_all (Nat.lt_of_lt_of_le hb (by decide)), idx_val, takeIf]; rfl

theorem vfmaFnma (d : Fin 32) (a : Fin 32) (b : Fin 32) (t : Fin 8) : Statement (.vfmaFnma d a b t) := by
  have hd := d.isLt
  have ha := a.isLt
  have hb := b.isLt
  have ht := t.isLt
  obtain ⟨g0, g1, g2, g3, l0⟩ := (by decide : ∀ (t : Fin 8), fld (0x84000002 + t.val * 2 ^ 8) 26 6 = 33 ∧ fld (0x84000002 + t.val * 2 ^ 8) 11 15 = 0 ∧ 0x84000002 + t.val * 2 ^ 8 < 2 ^ 32 ∧ fld (0x84000002 + t.val * 2 ^ 8) 0 8 = 2 ∧ fld (0x84000002 + t.val * 2 ^ 8) 8 3 = t.val) t
  have C := cols (d := d.val) (a := a.val) (b := b.val) (Nat.lt_of_lt_of_le hb (by decide)) (Nat.lt_of_lt_of_le ha (by decide)) (Nat.lt_of_lt_of_le hd (by decide)) g2 g1
  refine of_cols C rfl g0 (by decide) ?_
  rw [decodeWord_33 (C.op.trans g0)]; unfold decVfma; rw [(C.low 0 8 (by decide)).trans g3]
  simp only [(C.low 8 3 (by decide)).trans l0, C.d_all (Nat.lt_of_lt_of_le hd (by decide)), C.a_all (Nat.lt_of_lt_of_le ha (by decide)), C.b_all (Nat.lt_of_lt_of_le hb (by decide)), idx_val, takeIf]; rfl

theorem vfmaFnms (d : Fin 32) (a : Fin 32) (b : Fin 32) (t : Fin 8) : Statement (.vfmaFnms d a b t) := by
  have hd := d.isLt
  have ha := a.isLt
  have hb := b.isLt
  have ht := t.isLt
  obtain ⟨g0, g1, g2, g3, l0⟩ := (by decide : ∀ (t : Fin 8), fld (0x84000003 + t.val * 2 ^ 8) 26 6 = 33 ∧ fld (0x84000003 + t.val * 2 ^ 8) 11 15 = 0 ∧ 0x84000003 + t.val * 2 ^ 8 < 2 ^ 32 ∧ fld (0x84000003 + t.val * 2 ^ 8) 0 8 = 3 ∧ fld (0x84000003 + t.val * 2 ^ 8) 8 3 = t.val) t
  have C := cols (d := d.val) (a := a.val) (b := b.val) (Nat.lt_of_lt_of_le hb (by decide)) (Nat.lt_of_lt_of_le ha (by decide)) (Nat.lt_of_lt_of_le hd (by decide)) g2 g1
  refine of_cols C rfl g0 (by decide) ?_
  rw [decodeWord_33 (C.op.trans g0)]; unfold decVfma; rw [(C.low 0 8 (by decide)).trans g3]
  simp only [(C.low 8 3 (by decide)).trans l0, C.d_all (Nat.lt_of_lt_of_le hd (by decide)), C.a_all (Nat.lt_of_lt_of_le ha (by decide)), C.b_all (Nat.lt_of_lt_of_le hb (by decide)), idx_val, takeIf]; rfl

theorem vintAdd (d : Fin 32) (a : Fin 32) (b : Fin 32) (t : Fin 8) : Statement (.vintAdd d a b t) := by
  have hd := d.isLt
  have ha := a.isLt
  have hb := b.isLt
  have ht := t.isLt
  obtain ⟨g0, g1, g2, g3, l0⟩ := (by decide : ∀ (t : Fin 8), fld (0x88000000 + t.val * 2 ^ 8) 26 6 = 34 ∧ fld (0x88000000 + t.val * 2 ^ 8) 11 15 = 0 ∧ 0x88000000 + t.val * 2 ^ 8 < 2 ^ 32 ∧ fld (0x88000000 + t.val * 2 ^ 8) 0 8 = 0 ∧ fld (0x88000000 + t.val * 2 ^ 8) 8 3 = t.val) t
  have C := cols (d := d.val) (a := a.val) (b := b.val) (Nat.lt_of_lt_of_le hb (by decide)) (Nat.lt_of_lt_of_le ha (by decide)) (Nat.lt_of_lt_of_le hd (by decide)) g2 g1
  refine of_cols C rfl g0 (by decide) ?_
  rw [decodeWord_34 (C.op.trans g0)]; unfold decVint; rw [(C.low 0 8 (by decide)).trans g3]
  simp only [(C.low 8 3 (by decide)).trans l0, C.d_all (Nat.lt_of_lt_of_le hd (by decide)), C.a_all (Nat.lt_of_lt_of_le ha (by decide)), C.b_all (Nat.lt_of_lt_of_le hb (by decide)), idx_val, takeIf]; rfl

theorem vintSub (d : Fin 32) (a : Fin 32) (b : Fin 32) (t : Fin 8) : Statement (.vintSub d a b t) := by
  have hd := d.isLt
  have ha := a.isLt
  have hb := b.isLt
  have ht := t.isLt
  obtain ⟨g0, g1, g2, g3, l0⟩ := (by decide : ∀ (t : Fin 8), fld (0x88000001 + t.val * 2 ^ 8) 26 6 = 34 ∧ fld (0x88000001 + t.val * 2 ^ 8) 11 15 = 0 ∧ 0x88000001 + t.val * 2 ^ 8 < 2 ^ 32 ∧ fld (0x88000001 + t.val * 2 ^ 8) 0 8 = 1 ∧ fld (0x88000001 + t.val * 2 ^ 8) 8 3 = t.val) t
  have C := cols (d := d.val) (a := a.val) (b := b.val) (Nat.lt_of_lt_of_le hb (by decide)) (Nat.lt_of_lt_of_le ha (by decide)) (Nat.lt_of_lt_of_le hd (by decide)) g2 g1
  refine of_cols C rfl g0 (by decide) ?_
  rw [decodeWord_34 (C.op.trans g0)]; unfold decVint; rw [(C.low 0 8 (by decide)).trans g3]
  simp only [(C.low 8 3 (by decide)).trans l0, C.d_all (Nat.lt_of_lt_of_le hd (by decide)), C.a_all (Nat.lt_of_lt_of_le ha (by decide)), C.b_all (Nat.lt_of_lt_of_le hb (by decide)), idx_val, takeIf]; rfl

theorem vintMul (d : Fin 32) (a : Fin 32) (b : Fin 32) (t : Fin 8) : Statement (.vintMul d a b t) := by
  have hd := d.isLt
  have ha := a.isLt
  have hb := b.isLt
  have ht := t.isLt
  obtain ⟨g0, g1, g2, g3, l0⟩ := (by decide : ∀ (t : Fin 8), fld (0x88000002 + t.val * 2 ^ 8) 26 6 = 34 ∧ fld (0x88000002 + t.val * 2 ^ 8) 11 15 = 0 ∧ 0x88000002 + t.val * 2 ^ 8 < 2 ^ 32 ∧ fld (0x88000002 + t.val * 2 ^ 8) 0 8 = 2 ∧ fld (0x88000002 + t.val * 2 ^ 8) 8 3 = t.val) t
  have C := cols (d := d.val) (a := a.val) (b := b.val) (Nat.lt_of_lt_of_le hb (by decide)) (Nat.lt_of_lt_of_le ha (by decide)) (Nat.lt_of_lt_of_le hd (by decide)) g2 g1
  refine of_cols C rfl g0 (by decide) ?_
  rw [decodeWord_34 (C.op.trans g0)]; unfold decVint; rw [(C.low 0 8 (by decide)).trans g3]
  simp only [(C.low 8 3 (by decide)).trans l0, C.d_all (Nat.lt_of_lt_of_le hd (by decide)), C.a_all (Nat.lt_of_lt_of_le ha (by decide)), C.b_all (Nat.lt_of_lt_of_le hb (by decide)), idx_val, takeIf]; rfl

theorem vintAnd (d : Fin 32) (a : Fin 32) (b : Fin 32) (t : Fin 8) : Statement (.vintAnd d a b t) := by
  have hd := d.isLt
  have ha := a.isLt
  have hb := b.isLt
  have ht := t.isLt
  obtain ⟨g0, g1, g2, g3, l0⟩ := (by decide : ∀ (t : Fin 8), fld (0x88000003 + t.val * 2 ^ 8) 26 6 = 34 ∧ fld (0x88000003 + t.val * 2 ^ 8) 11 15 = 0 ∧ 0x88000003 + t.val * 2 ^ 8 < 2 ^ 32 ∧ fld (0x88000003 + t.val * 2 ^ 8) 0 8 = 3 ∧ fld (0x88000003 + t.val * 2 ^ 8) 8 3 = t.val) t
  have C := cols (d := d.val) (a := a.val) (b := b.val) (Nat.lt_of_lt_of_le hb (by decide)) (Nat.lt_of_lt_of_le ha (by decide)) (Nat.lt_of_lt_of_le hd (by decide)) g2 g1
  refine of_cols C rfl g0 (by decide) ?_
  rw [decodeWord_34 (C.op.trans g0)]; unfold decVint; rw [(C.low 0 8 (by decide)).trans g3]
  simp only [(C.low 8 3 (by decide)).trans l0, C.d_all (Nat.lt_of_lt_of_le hd (by decide)), C.a_all (Nat.lt_of_lt_of_le ha (by decide)), C.b_all (Nat.lt_of_lt_of_le hb (by decide)), idx_val, takeIf]; rfl

theorem vintOr (d : Fin 32) (a : Fin 32) (b : Fin 32) (t : Fin 8) : Statement (.vintOr d a b t) := by
  have hd := d.isLt
  have ha := a.isLt
  have hb := b.isLt
  have ht := t.isLt
  obtain ⟨g0, g1, g2, g3, l0⟩ := (by decide : ∀ (t : Fin 8), fld (0x88000004 + t.val * 2 ^ 8) 26 6 = 34 ∧ fld (0x88000004 + t.val * 2 ^ 8) 11 15 = 0 ∧ 0x88000004 + t.val * 2 ^ 8 < 2 ^ 32 ∧ fld (0x88000004 + t.val * 2 ^ 8) 0 8 = 4 ∧ fld (0x88000004 + t.val * 2 ^ 8) 8 3 = t.val) t
  have C := cols (d := d.val) (a := a.val) (b := b.val) (Nat.lt_of_lt_of_le hb (by decide)) (Nat.lt_of_lt_of_le ha (by decide)) (Nat.lt_of_lt_of_le hd (by decide)) g2 g1
  refine of_cols C rfl g0 (by decide) ?_
  rw [decodeWord_34 (C.op.trans g0)]; unfold decVint; rw [(C.low 0 8 (by decide)).trans g3]
  simp only [(C.low 8 3 (by decide)).trans l0, C.d_all (Nat.lt_of_lt_of_le hd (by decide)), C.a_all (Nat.lt_of_lt_of_le ha (by decide)), C.b_all (Nat.lt_of_lt_of_le hb (by decide)), idx_val, takeIf]; rfl

theorem vintXor (d : Fin 32) (a : Fin 32) (b : Fin 32) (t : Fin 8) : Statement (.vintXor d a b t) := by
  have hd := d.isLt
  have ha := a.isLt
  have hb := b.isLt
  have ht := t.isLt
  obtain ⟨g0, g1, g2, g3, l0⟩ := (by decide : ∀ (t : Fin 8), fld (0x88000005 + t.val * 2 ^ 8) 26 6 = 34 ∧ fld (0x88000005 + t.val * 2 ^ 8) 11 15 = 0 ∧ 0x88000005 + t.val * 2 ^ 8 < 2 ^ 32 ∧ fld (0x88000005 + t.val * 2 ^ 8) 0 8 = 5 ∧ fld (0x88000005 + t.val * 2 ^ 8) 8 3 = t.val) t
  have C := cols (d := d.val) (a := a.val) (b := b.val) (Nat.lt_of_lt_of_le hb (by decide)) (Nat.lt_of_lt_of_le ha (by decide)) (Nat.lt_of_lt_of_le hd (by decide)) g2 g1
  refine of_cols C rfl g0 (by decide) ?_
  rw [decodeWord_34 (C.op.trans g0)]; unfold decVint; rw [(C.low 0 8 (by decide)).trans g3]
  simp only [(C.low 8 3 (by decide)).trans l0, C.d_all (Nat.lt_of_lt_of_le hd (by decide)), C.a_all (Nat.lt_of_lt_of_le ha (by decide)), C.b_all (Nat.lt_of_lt_of_le hb (by decide)), idx_val, takeIf]; rfl

theorem vintAndn (d : Fin 32) (a : Fin 32) (b : Fin 32) (t : Fin 8) : Statement (.vintAndn d a b t) := by
  have hd := d.isLt
  have ha := a.isLt
  have hb := b.isLt
  have ht := t.isLt
  obtain ⟨g0, g1, g2, g3, l0⟩ := (by decide : ∀ (t : Fin 8), fld (0x88000006 + t.val * 2 ^ 8) 26 6 = 34 ∧ fld (0x88000006 + t.val * 2 ^ 8) 11 15 = 0 ∧ 0x88000006 + t.val * 2 ^ 8 < 2 ^ 32 ∧ fld (0x88000006 + t.val * 2 ^ 8) 0 8 = 6 ∧ fld (0x88000006 + t.val * 2 ^ 8) 8 3 = t.val) t
  have C := cols (d := d.val) (a := a.val) (b := b.val) (Nat.lt_of_lt_of_le hb (by decide)) (Nat.lt_of_lt_of_le ha (by decide)) (Nat.lt_of_lt_of_le hd (by decide)) g2 g1
  refine of_cols C rfl g0 (by decide) ?_
  rw [decodeWord_34 (C.op.trans g0)]; unfold decVint; rw [(C.low 0 8 (by decide)).trans g3]
  simp only [(C.low 8 3 (by decide)).trans l0, C.d_all (Nat.lt_of_lt_of_le hd (by decide)), C.a_all (Nat.lt_of_lt_of_le ha (by decide)), C.b_all (Nat.lt_of_lt_of_le hb (by decide)), idx_val, takeIf]; rfl

theorem vintShl (d : Fin 32) (a : Fin 32) (b : Fin 32) (t : Fin 8) : Statement (.vintShl d a b t) := by
  have hd := d.isLt
  have ha := a.isLt
  have hb := b.isLt
  have ht := t.isLt
  obtain ⟨g0, g1, g2, g3, l0⟩ := (by decide : ∀ (t : Fin 8), fld (0x88000007 + t.val * 2 ^ 8) 26 6 = 34 ∧ fld (0x88000007 + t.val * 2 ^ 8) 11 15 = 0 ∧ 0x88000007 + t.val * 2 ^ 8 < 2 ^ 32 ∧ fld (0x88000007 + t.val * 2 ^ 8) 0 8 = 7 ∧ fld (0x88000007 + t.val * 2 ^ 8) 8 3 = t.val) t
  have C := cols (d := d.val) (a := a.val) (b := b.val) (Nat.lt_of_lt_of_le hb (by decide)) (Nat.lt_of_lt_of_le ha (by decide)) (Nat.lt_of_lt_of_le hd (by decide)) g2 g1
  refine of_cols C rfl g0 (by decide) ?_
  rw [decodeWord_34 (C.op.trans g0)]; unfold decVint; rw [(C.low 0 8 (by decide)).trans g3]
  simp only [(C.low 8 3 (by decide)).trans l0, C.d_all (Nat.lt_of_lt_of_le hd (by decide)), C.a_all (Nat.lt_of_lt_of_le ha (by decide)), C.b_all (Nat.lt_of_lt_of_le hb (by decide)), idx_val, takeIf]; rfl

theorem vintShr (d : Fin 32) (a : Fin 32) (b : Fin 32) (t : Fin 8) : Statement (.vintShr d a b t) := by
  have hd := d.isLt
  have ha := a.isLt
  have hb := b.isLt
  have ht := t.isLt
  obtain ⟨g0, g1, g2, g3, l0⟩ := (by decide : ∀ (t : Fin 8), fld (0x88000008 + t.val * 2 ^ 8) 26 6 = 34 ∧ fld (0x88000008 + t.val * 2 ^ 8) 11 15 = 0 ∧ 0x88000008 + t.val * 2 ^ 8 < 2 ^ 32 ∧ fld (0x88000008 + t.val * 2 ^ 8) 0 8 = 8 ∧ fld (0x88000008 + t.val * 2 ^ 8) 8 3 = t.val) t
  have C := cols (d := d.val) (a := a.val) (b := b.val) (Nat.lt_of_lt_of_le hb (by decide)) (Nat.lt_of_lt_of_le ha (by decide)) (Nat.lt_of_lt_of_le hd (by decide)) g2 g1
  refine of_cols C rfl g0 (by decide) ?_
  rw [decodeWord_34 (C.op.trans g0)]; unfold decVint; rw [(C.low 0 8 (by decide)).trans g3]
  simp only [(C.low 8 3 (by decide)).trans l0, C.d_all (Nat.lt_of_lt_of_le hd (by decide)), C.a_all (Nat.lt_of_lt_of_le ha (by decide)), C.b_all (Nat.lt_of_lt_of_le hb (by decide)), idx_val, takeIf]; rfl

theorem vintSra (d : Fin 32) (a : Fin 32) (b : Fin 32) (t : Fin 8) : Statement (.vintSra d a b t) := by
  have hd := d.isLt
  have ha := a.isLt
  have hb := b.isLt
  have ht := t.isLt
  obtain ⟨g0, g1, g2, g3, l0⟩ := (by decide : ∀ (t : Fin 8), fld (0x88000009 + t.val * 2 ^ 8) 26 6 = 34 ∧ fld (0x88000009 + t.val * 2 ^ 8) 11 15 = 0 ∧ 0x88000009 + t.val * 2 ^ 8 < 2 ^ 32 ∧ fld (0x88000009 + t.val * 2 ^ 8) 0 8 = 9 ∧ fld (0x88000009 + t.val * 2 ^ 8) 8 3 = t.val) t
  have C := cols (d := d.val) (a := a.val) (b := b.val) (Nat.lt_of_lt_of_le hb (by decide)) (Nat.lt_of_lt_of_le ha (by decide)) (Nat.lt_of_lt_of_le hd (by decide)) g2 g1
  refine of_cols C rfl g0 (by decide) ?_
  rw [decodeWord_34 (C.op.trans g0)]; unfold decVint; rw [(C.low 0 8 (by decide)).trans g3]
  simp only [(C.low 8 3 (by decide)).trans l0, C.d_all (Nat.lt_of_lt_of_le hd (by decide)), C.a_all (Nat.lt_of_lt_of_le ha (by decide)), C.b_all (Nat.lt_of_lt_of_le hb (by decide)), idx_val, takeIf]; rfl

theorem vintMin (d : Fin 32) (a : Fin 32) (b : Fin 32) (t : Fin 8) : Statement (.vintMin d a b t) := by
  have hd := d.isLt
  have ha := a.isLt
  have hb := b.isLt
  have ht := t.isLt
  obtain ⟨g0, g1, g2, g3, l0⟩ := (by decide : ∀ (t : Fin 8), fld (0x8800000A + t.val * 2 ^ 8) 26 6 = 34 ∧ fld (0x8800000A + t.val * 2 ^ 8) 11 15 = 0 ∧ 0x8800000A + t.val * 2 ^ 8 < 2 ^ 32 ∧ fld (0x8800000A + t.val * 2 ^ 8) 0 8 = 10 ∧ fld (0x8800000A + t.val * 2 ^ 8) 8 3 = t.val) t
  have C := cols (d := d.val) (a := a.val) (b := b.val) (Nat.lt_of_lt_of_le hb (by decide)) (Nat.lt_of_lt_of_le ha (by decide)) (Nat.lt_of_lt_of_le hd (by decide)) g2 g1
  refine of_cols C rfl g0 (by decide) ?_
  rw [decodeWord_34 (C.op.trans g0)]; unfold decVint; rw [(C.low 0 8 (by decide)).trans g3]
  simp only [(C.low 8 3 (by decide)).trans l0, C.d_all (Nat.lt_of_lt_of_le hd (by decide)), C.a_all (Nat.lt_of_lt_of_le ha (by decide)), C.b_all (Nat.lt_of_lt_of_le hb (by decide)), idx_val, takeIf]; rfl

theorem vintMax (d : Fin 32) (a : Fin 32) (b : Fin 32) (t : Fin 8) : Statement (.vintMax d a b t) := by
  have hd := d.isLt
  have ha := a.isLt
  have hb := b.isLt
  have ht := t.isLt
  obtain ⟨g0, g1, g2, g3, l0⟩ := (by decide : ∀ (t : Fin 8), fld (0x8800000B + t.val * 2 ^ 8) 26 6 = 34 ∧ fld (0x8800000B + t.val * 2 ^ 8) 11 15 = 0 ∧ 0x8800000B + t.val * 2 ^ 8 < 2 ^ 32 ∧ fld (0x8800000B + t.val * 2 ^ 8) 0 8 = 11 ∧ fld (0x8800000B + t.val * 2 ^ 8) 8 3 = t.val) t
  have C := cols (d := d.val) (a := a.val) (b := b.val) (Nat.lt_of_lt_of_le hb (by decide)) (Nat.lt_of_lt_of_le ha (by decide)) (Nat.lt_of_lt_of_le hd (by decide)) g2 g1
  refine of_cols C rfl g0 (by decide) ?_
  rw [decodeWord_34 (C.op.trans g0)]; unfold decVint; rw [(C.low 0 8 (by decide)).trans g3]
  simp only [(C.low 8 3 (by decide)).trans l0, C.d_all (Nat.lt_of_lt_of_le hd (by decide)), C.a_all (Nat.lt_of_lt_of_le ha (by decide)), C.b_all (Nat.lt_of_lt_of_le hb (by decide)), idx_val, takeIf]; rfl

theorem vintAdds (d : Fin 32) (a : Fin 32) (b : Fin 32) (t : Fin 8) : Statement (.vintAdds d a b t) := by
  have hd := d.isLt
  have ha := a.isLt
  have hb := b.isLt
  have ht := t.isLt
  obtain ⟨g0, g1, g2, g3, l0⟩ := (by decide : ∀ (t : Fin 8), fld (0x8800000C + t.val * 2 ^ 8) 26 6 = 34 ∧ fld (0x8800000C + t.val * 2 ^ 8) 11 15 = 0 ∧ 0x8800000C + t.val * 2 ^ 8 < 2 ^ 32 ∧ fld (0x8800000C + t.val * 2 ^ 8) 0 8 = 12 ∧ fld (0x8800000C + t.val * 2 ^ 8) 8 3 = t.val) t
  have C := cols (d := d.val) (a := a.val) (b := b.val) (Nat.lt_of_lt_of_le hb (by decide)) (Nat.lt_of_lt_of_le ha (by decide)) (Nat.lt_of_lt_of_le hd (by decide)) g2 g1
  refine of_cols C rfl g0 (by decide) ?_
  rw [decodeWord_34 (C.op.trans g0)]; unfold decVint; rw [(C.low 0 8 (by decide)).trans g3]
  simp only [(C.low 8 3 (by decide)).trans l0, C.d_all (Nat.lt_of_lt_of_le hd (by decide)), C.a_all (Nat.lt_of_lt_of_le ha (by decide)), C.b_all (Nat.lt_of_lt_of_le hb (by decide)), idx_val, takeIf]; rfl

theorem vintSubs (d : Fin 32) (a : Fin 32) (b : Fin 32) (t : Fin 8) : Statement (.vintSubs d a b t) := by
  have hd := d.isLt
  have ha := a.isLt
  have hb := b.isLt
  have ht := t.isLt
  obtain ⟨g0, g1, g2, g3, l0⟩ := (by decide : ∀ (t : Fin 8), fld (0x8800000D + t.val * 2 ^ 8) 26 6 = 34 ∧ fld (0x8800000D + t.val * 2 ^ 8) 11 15 = 0 ∧ 0x8800000D + t.val * 2 ^ 8 < 2 ^ 32 ∧ fld (0x8800000D + t.val * 2 ^ 8) 0 8 = 13 ∧ fld (0x8800000D + t.val * 2 ^ 8) 8 3 = t.val) t
  have C := cols (d := d.val) (a := a.val) (b := b.val) (Nat.lt_of_lt_of_le hb (by decide)) (Nat.lt_of_lt_of_le ha (by decide)) (Nat.lt_of_lt_of_le hd (by decide)) g2 g1
  refine of_cols C rfl g0 (by decide) ?_
  rw [decodeWord_34 (C.op.trans g0)]; unfold decVint; rw [(C.low 0 8 (by decide)).trans g3]
  simp only [(C.low 8 3 (by decide)).trans l0, C.d_all (Nat.lt_of_lt_of_le hd (by decide)), C.a_all (Nat.lt_of_lt_of_le ha (by decide)), C.b_all (Nat.lt_of_lt_of_le hb (by decide)), idx_val, takeIf]; rfl

theorem vintAbs (d : Fin 32) (a : Fin 32) (t : Fin 8) : Statement (.vintAbs d a t) := by
  have hd := d.isLt
  have ha := a.isLt
  have ht := t.isLt
  obtain ⟨g0, g1, g2, g3, l0⟩ := (by decide : ∀ (t : Fin 8), fld (0x8800000E + t.val * 2 ^ 8) 26 6 = 34 ∧ fld (0x8800000E + t.val * 2 ^ 8) 11 15 = 0 ∧ 0x8800000E + t.val * 2 ^ 8 < 2 ^ 32 ∧ fld (0x8800000E + t.val * 2 ^ 8) 0 8 = 14 ∧ fld (0x8800000E + t.val * 2 ^ 8) 8 3 = t.val) t
  have C : Cols (0x8800000E + t.val * 2 ^ 8 + a.val * 2 ^ 16 + d.val * 2 ^ 21) (0x8800000E + t.val * 2 ^ 8) (d.val) a.val 0 := by
    simpa only [Nat.zero_mul, Nat.add_zero] using cols (d := d.val) (a := a.val) (b := 0) (by decide) (Nat.lt_of_lt_of_le ha (by decide)) (Nat.lt_of_lt_of_le hd (by decide)) g2 g1
  refine of_cols C rfl g0 (by decide) ?_
  rw [decodeWord_34 (C.op.trans g0)]; unfold decVint; rw [(C.low 0 8 (by decide)).trans g3]
  simp only [(C.low 8 3 (by decide)).trans l0, C.b_all (by decide), C.d_all (Nat.lt_of_lt_of_le hd (by decide)), C.a_all (Nat.lt_of_lt_of_le ha (by decide)), idx_val, takeIf]; rfl

theorem vintMulh (d : Fin 32) (a : Fin 32) (b : Fin 32) (t : Fin 8) : Statement (.vintMulh d a b t) := by
  have hd := d.isLt
  have ha := a.isLt
  have hb := b.isLt
  have ht := t.isLt
  obtain ⟨g0, g1, g2, g3, l0⟩ := (by decide : ∀ (t : Fin 8), fld (0x8800000F + t.val * 2 ^ 8) 26 6 = 34 ∧ fld (0x8800000F + t.val * 2 ^ 8) 11 15 = 0 ∧ 0x8800000F + t.val * 2 ^ 8 < 2 ^ 32 ∧ fld (0x8800000F + t.val * 2 ^ 8) 0 8 = 15 ∧ fld (0x8800000F + t.val * 2 ^ 8) 8 3 = t.val) t
  have C := cols (d := d.val) (a := a.val) (b := b.val) (Nat.lt_of_lt_of_le hb (by decide)) (Nat.lt_of_lt_of_le ha (by decide)) (Nat.lt_of_lt_of_le hd (by decide)) g2 g1
  refine of_cols C rfl g0 (by decide) ?_
  rw [decodeWord_34 (C.op.trans g0)]; unfold decVint; rw [(C.low 0 8 (by decide)).trans g3]
  simp only [(C.low 8 3 (by decide)).trans l0, C.d_all (Nat.lt_of_lt_of_le hd (by decide)), C.a_all (Nat.lt_of_lt_of_le ha (by decide)), C.b_all (Nat.lt_of_lt_of_le hb (by decide)), idx_val, takeIf]; rfl

theorem vcmpEq (d : Fin 32) (a : Fin 32) (b : Fin 32) (t : Fin 8) : Statement (.vcmpEq d a b t) := by
  have hd := d.isLt
  have ha := a.isLt
  have hb := b.isLt
  have ht := t.isLt
  obtain ⟨g0, g1, g2, g3, l0⟩ := (by decide : ∀ (t : Fin 8), fld (0x8C000000 + t.val * 2 ^ 8) 26 6 = 35 ∧ fld (0x8C000000 + t.val * 2 ^ 8) 11 15 = 0 ∧ 0x8C000000 + t.val * 2 ^ 8 < 2 ^ 32 ∧ fld (0x8C000000 + t.val * 2 ^ 8) 0 8 = 0 ∧ fld (0x8C000000 + t.val * 2 ^ 8) 8 3 = t.val) t
  have C := cols (d := d.val) (a := a.val) (b := b.val) (Nat.lt_of_lt_of_le hb (by decide)) (Nat.lt_of_lt_of_le ha (by decide)) (Nat.lt_of_lt_of_le hd (by decide)) g2 g1
  refine of_cols C rfl g0 (by decide) ?_
  rw [decodeWord_35 (C.op.trans g0)]; unfold decVcmp; rw [(C.low 0 8 (by decide)).trans g3]
  simp only [(C.low 8 3 (by decide)).trans l0, C.d_all (Nat.lt_of_lt_of_le hd (by decide)), C.a_all (Nat.lt_of_lt_of_le ha (by decide)), C.b_all (Nat.lt_of_lt_of_le hb (by decide)), idx_val, takeIf]; rfl

theorem vcmpNe (d : Fin 32) (a : Fin 32) (b : Fin 32) (t : Fin 8) : Statement (.vcmpNe d a b t) := by
  have hd := d.isLt
  have ha := a.isLt
  have hb := b.isLt
  have ht := t.isLt
  obtain ⟨g0, g1, g2, g3, l0⟩ := (by decide : ∀ (t : Fin 8), fld (0x8C000001 + t.val * 2 ^ 8) 26 6 = 35 ∧ fld (0x8C000001 + t.val * 2 ^ 8) 11 15 = 0 ∧ 0x8C000001 + t.val * 2 ^ 8 < 2 ^ 32 ∧ fld (0x8C000001 + t.val * 2 ^ 8) 0 8 = 1 ∧ fld (0x8C000001 + t.val * 2 ^ 8) 8 3 = t.val) t
  have C := cols (d := d.val) (a := a.val) (b := b.val) (Nat.lt_of_lt_of_le hb (by decide)) (Nat.lt_of_lt_of_le ha (by decide)) (Nat.lt_of_lt_of_le hd (by decide)) g2 g1
  refine of_cols C rfl g0 (by decide) ?_
  rw [decodeWord_35 (C.op.trans g0)]; unfold decVcmp; rw [(C.low 0 8 (by decide)).trans g3]
  simp only [(C.low 8 3 (by decide)).trans l0, C.d_all (Nat.lt_of_lt_of_le hd (by decide)), C.a_all (Nat.lt_of_lt_of_le ha (by decide)), C.b_all (Nat.lt_of_lt_of_le hb (by decide)), idx_val, takeIf]; rfl

theorem vcmpLt (d : Fin 32) (a : Fin 32) (b : Fin 32) (t : Fin 8) : Statement (.vcmpLt d a b t) := by
  have hd := d.isLt
  have ha := a.isLt
  have hb := b.isLt
  have ht := t.isLt
  obtain ⟨g0, g1, g2, g3, l0⟩ := (by decide : ∀ (t : Fin 8), fld (0x8C000002 + t.val * 2 ^ 8) 26 6 = 35 ∧ fld (0x8C000002 + t.val * 2 ^ 8) 11 15 = 0 ∧ 0x8C000002 + t.val * 2 ^ 8 < 2 ^ 32 ∧ fld (0x8C000002 + t.val * 2 ^ 8) 0 8 = 2 ∧ fld (0x8C000002 + t.val * 2 ^ 8) 8 3 = t.val) t
  have C := cols (d := d.val) (a := a.val) (b := b.val) (Nat.lt_of_lt_of_le hb (by decide)) (Nat.lt_of_lt_of_le ha (by decide)) (Nat.lt_of_lt_of_le hd (by decide)) g2 g1
  refine of_cols C rfl g0 (by decide) ?_
  rw [decodeWord_35 (C.op.trans g0)]; unfold decVcmp; rw [(C.low 0 8 (by decide)).trans g3]
  simp only [(C.low 8 3 (by decide)).trans l0, C.d_all (Nat.lt_of_lt_of_le hd (by decide)), C.a_all (Nat.lt_of_lt_of_le ha (by decide)), C.b_all (Nat.lt_of_lt_of_le hb (by decide)), idx_val, takeIf]; rfl

theorem vcmpLe (d : Fin 32) (a : Fin 32) (b : Fin 32) (t : Fin 8) : Statement (.vcmpLe d a b t) := by
  have hd := d.isLt
  have ha := a.isLt
  have hb := b.isLt
  have ht := t.isLt
  obtain ⟨g0, g1, g2, g3, l0⟩ := (by decide : ∀ (t : Fin 8), fld (0x8C000003 + t.val * 2 ^ 8) 26 6 = 35 ∧ fld (0x8C000003 + t.val * 2 ^ 8) 11 15 = 0 ∧ 0x8C000003 + t.val * 2 ^ 8 < 2 ^ 32 ∧ fld (0x8C000003 + t.val * 2 ^ 8) 0 8 = 3 ∧ fld (0x8C000003 + t.val * 2 ^ 8) 8 3 = t.val) t
  have C := cols (d := d.val) (a := a.val) (b := b.val) (Nat.lt_of_lt_of_le hb (by decide)) (Nat.lt_of_lt_of_le ha (by decide)) (Nat.lt_of_lt_of_le hd (by decide)) g2 g1
  refine of_cols C rfl g0 (by decide) ?_
  rw [decodeWord_35 (C.op.trans g0)]; unfold decVcmp; rw [(C.low 0 8 (by decide)).trans g3]
  simp only [(C.low 8 3 (by decide)).trans l0, C.d_all (Nat.lt_of_lt_of_le hd (by decide)), C.a_all (Nat.lt_of_lt_of_le ha (by decide)), C.b_all (Nat.lt_of_lt_of_le hb (by decide)), idx_val, takeIf]; rfl

theorem vcmpGt (d : Fin 32) (a : Fin 32) (b : Fin 32) (t : Fin 8) : Statement (.vcmpGt d a b t) := by
  have hd := d.isLt
  have ha := a.isLt
  have hb := b.isLt
  have ht := t.isLt
  obtain ⟨g0, g1, g2, g3, l0⟩ := (by decide : ∀ (t : Fin 8), fld (0x8C000004 + t.val * 2 ^ 8) 26 6 = 35 ∧ fld (0x8C000004 + t.val * 2 ^ 8) 11 15 = 0 ∧ 0x8C000004 + t.val * 2 ^ 8 < 2 ^ 32 ∧ fld (0x8C000004 + t.val * 2 ^ 8) 0 8 = 4 ∧ fld (0x8C000004 + t.val * 2 ^ 8) 8 3 = t.val) t
  have C := cols (d := d.val) (a := a.val) (b := b.val) (Nat.lt_of_lt_of_le hb (by decide)) (Nat.lt_of_lt_of_le ha (by decide)) (Nat.lt_of_lt_of_le hd (by decide)) g2 g1
  refine of_cols C rfl g0 (by decide) ?_
  rw [decodeWord_35 (C.op.trans g0)]; unfold decVcmp; rw [(C.low 0 8 (by decide)).trans g3]
  simp only [(C.low 8 3 (by decide)).trans l0, C.d_all (Nat.lt_of_lt_of_le hd (by decide)), C.a_all (Nat.lt_of_lt_of_le ha (by decide)), C.b_all (Nat.lt_of_lt_of_le hb (by decide)), idx_val, takeIf]; rfl

theorem vcmpGe (d : Fin 32) (a : Fin 32) (b : Fin 32) (t : Fin 8) : Statement (.vcmpGe d a b t) := by
  have hd := d.isLt
  have ha := a.isLt
  have hb := b.isLt
  have ht := t.isLt
  obtain ⟨g0, g1, g2, g3, l0⟩ := (by decide : ∀ (t : Fin 8), fld (0x8C000005 + t.val * 2 ^ 8) 26 6 = 35 ∧ fld (0x8C000005 + t.val * 2 ^ 8) 11 15 = 0 ∧ 0x8C000005 + t.val * 2 ^ 8 < 2 ^ 32 ∧ fld (0x8C000005 + t.val * 2 ^ 8) 0 8 = 5 ∧ fld (0x8C000005 + t.val * 2 ^ 8) 8 3 = t.val) t
  have C := cols (d := d.val) (a := a.val) (b := b.val) (Nat.lt_of_lt_of_le hb (by decide)) (Nat.lt_of_lt_of_le ha (by decide)) (Nat.lt_of_lt_of_le hd (by decide)) g2 g1
  refine of_cols C rfl g0 (by decide) ?_
  rw [decodeWord_35 (C.op.trans g0)]; unfold decVcmp; rw [(C.low 0 8 (by decide)).trans g3]
  simp only [(C.low 8 3 (by decide)).trans l0, C.d_all (Nat.lt_of_lt_of_le hd (by decide)), C.a_all (Nat.lt_of_lt_of_le ha (by decide)), C.b_all (Nat.lt_of_lt_of_le hb (by decide)), idx_val, takeIf]; rfl

theorem vcmpUn (d : Fin 32) (a : Fin 32) (b : Fin 32) (t : Fin 8) : Statement (.vcmpUn d a b t) := by
  have hd := d.isLt
  have ha := a.isLt
  have hb := b.isLt
  have ht := t.isLt
  obtain ⟨g0, g1, g2, g3, l0⟩ := (by decide : ∀ (t : Fin 8), fld (0x8C000006 + t.val * 2 ^ 8) 26 6 = 35 ∧ fld (0x8C000006 + t.val * 2 ^ 8) 11 15 = 0 ∧ 0x8C000006 + t.val * 2 ^ 8 < 2 ^ 32 ∧ fld (0x8C000006 + t.val * 2 ^ 8) 0 8 = 6 ∧ fld (0x8C000006 + t.val * 2 ^ 8) 8 3 = t.val) t
  have C := cols (d := d.val) (a := a.val) (b := b.val) (Nat.lt_of_lt_of_le hb (by decide)) (Nat.lt_of_lt_of_le ha (by decide)) (Nat.lt_of_lt_of_le hd (by decide)) g2 g1
  refine of_cols C rfl g0 (by decide) ?_
  rw [decodeWord_35 (C.op.trans g0)]; unfold decVcmp; rw [(C.low 0 8 (by decide)).trans g3]
  simp only [(C.low 8 3 (by decide)).trans l0, C.d_all (Nat.lt_of_lt_of_le hd (by decide)), C.a_all (Nat.lt_of_lt_of_le ha (by decide)), C.b_all (Nat.lt_of_lt_of_le hb (by decide)), idx_val, takeIf]; rfl

theorem vcvtF2i (d : Fin 32) (a : Fin 32) (t : Fin 8) : Statement (.vcvtF2i d a t) := by
  have hd := d.isLt
  have ha := a.isLt
  have ht := t.isLt
  obtain ⟨g0, g1, g2, g3, l0⟩ := (by decide : ∀ (t : Fin 8), fld (0x90000000 + t.val * 2 ^ 8) 26 6 = 36 ∧ fld (0x90000000 + t.val * 2 ^ 8) 11 15 = 0 ∧ 0x90000000 + t.val * 2 ^ 8 < 2 ^ 32 ∧ fld (0x90000000 + t.val * 2 ^ 8) 0 8 = 0 ∧ fld (0x90000000 + t.val * 2 ^ 8) 8 3 = t.val) t
  have C : Cols (0x90000000 + t.val * 2 ^ 8 + a.val * 2 ^ 16 + d.val * 2 ^ 21) (0x90000000 + t.val * 2 ^ 8) (d.val) a.val 0 := by
    simpa only [Nat.zero_mul, Nat.add_zero] using cols (d := d.val) (a := a.val) (b := 0) (by decide) (Nat.lt_of_lt_of_le ha (by decide)) (Nat.lt_of_lt_of_le hd (by decide)) g2 g1
  refine of_cols C rfl g0 (by decide) ?_
  rw [decodeWord_36 (C.op.trans g0)]; unfold decVcvt; rw [(C.low 0 8 (by decide)).trans g3]
  simp only [(C.low 8 3 (by decide)).trans l0, C.b_all (by decide), C.d_all (Nat.lt_of_lt_of_le hd (by decide)), C.a_all (Nat.lt_of_lt_of_le ha (by decide)), idx_val, takeIf]; rfl

theorem vcvtI2f (d : Fin 32) (a : Fin 32) (t : Fin 8) : Statement (.vcvtI2f d a t) := by
  have hd := d.isLt
  have ha := a.isLt
  have ht := t.isLt
  obtain ⟨g0, g1, g2, g3, l0⟩ := (by decide : ∀ (t : Fin 8), fld (0x90000001 + t.val * 2 ^ 8) 26 6 = 36 ∧ fld (0x90000001 + t.val * 2 ^ 8) 11 15 = 0 ∧ 0x90000001 + t.val * 2 ^ 8 < 2 ^ 32 ∧ fld (0x90000001 + t.val * 2 ^ 8) 0 8 = 1 ∧ fld (0x90000001 + t.val * 2 ^ 8) 8 3 = t.val) t
  have C : Cols (0x90000001 + t.val * 2 ^ 8 + a.val * 2 ^ 16 + d.val * 2 ^ 21) (0x90000001 + t.val * 2 ^ 8) (d.val) a.val 0 := by
    simpa only [Nat.zero_mul, Nat.add_zero] using cols (d := d.val) (a := a.val) (b := 0) (by decide) (Nat.lt_of_lt_of_le ha (by decide)) (Nat.lt_of_lt_of_le hd (by decide)) g2 g1
  refine of_cols C rfl g0 (by decide) ?_
  rw [decodeWord_36 (C.op.trans g0)]; unfold decVcvt; rw [(C.low 0 8 (by decide)).trans g3]
  simp only [(C.low 8 3 (by decide)).trans l0, C.b_all (by decide), C.d_all (Nat.lt_of_lt_of_le hd (by decide)), C.a_all (Nat.lt_of_lt_of_le ha (by decide)), idx_val, takeIf]; rfl

theorem vcvtF2h (d : Fin 32) (a : Fin 32) : Statement (.vcvtF2h d a) := by
  have hd := d.isLt
  have ha := a.isLt
  obtain ⟨g0, g1, g2, g3⟩ : fld (0x90000102) 26 6 = 36 ∧ fld (0x90000102) 11 15 = 0 ∧ 0x90000102 < 2 ^ 32 ∧ fld (0x90000102) 0 8 = 2 := by decide
  have C : Cols (0x90000102 + a.val * 2 ^ 16 + d.val * 2 ^ 21) (0x90000102) (d.val) a.val 0 := by
    simpa only [Nat.zero_mul, Nat.add_zero] using cols (d := d.val) (a := a.val) (b := 0) (by decide) (Nat.lt_of_lt_of_le ha (by decide)) (Nat.lt_of_lt_of_le hd (by decide)) g2 g1
  refine of_cols C rfl g0 (by decide) ?_
  have s0 : fld (0x90000102 + a.val * 2 ^ 16 + d.val * 2 ^ 21) 8 8 = 1 := by simp only [fld]; omega
  rw [decodeWord_36 (C.op.trans g0)]; unfold decVcvt; rw [(C.low 0 8 (by decide)).trans g3]
  simp only [C.d_all (Nat.lt_of_lt_of_le hd (by decide)), C.a_all (Nat.lt_of_lt_of_le ha (by decide)), s0, idx_val, takeIf]; rfl

theorem vcvtH2f (d : Fin 32) (a : Fin 32) : Statement (.vcvtH2f d a) := by
  have hd := d.isLt
  have ha := a.isLt
  obtain ⟨g0, g1, g2, g3⟩ : fld (0x90000103) 26 6 = 36 ∧ fld (0x90000103) 11 15 = 0 ∧ 0x90000103 < 2 ^ 32 ∧ fld (0x90000103) 0 8 = 3 := by decide
  have C : Cols (0x90000103 + a.val * 2 ^ 16 + d.val * 2 ^ 21) (0x90000103) (d.val) a.val 0 := by
    simpa only [Nat.zero_mul, Nat.add_zero] using cols (d := d.val) (a := a.val) (b := 0) (by decide) (Nat.lt_of_lt_of_le ha (by decide)) (Nat.lt_of_lt_of_le hd (by decide)) g2 g1
  refine of_cols C rfl g0 (by decide) ?_
  have s0 : fld (0x90000103 + a.val * 2 ^ 16 + d.val * 2 ^ 21) 8 8 = 1 := by simp only [fld]; omega
  rw [decodeWord_36 (C.op.trans g0)]; unfold decVcvt; rw [(C.low 0 8 (by decide)).trans g3]
  simp only [C.d_all (Nat.lt_of_lt_of_le hd (by decide)), C.a_all (Nat.lt_of_lt_of_le ha (by decide)), s0, idx_val, takeIf]; rfl

theorem vcvtRint (d : Fin 32) (a : Fin 32) (t : Fin 8) : Statement (.vcvtRint d a t) := by
  have hd := d.isLt
  have ha := a.isLt
  have ht := t.isLt
  obtain ⟨g0, g1, g2, g3, l0⟩ := (by decide : ∀ (t : Fin 8), fld (0x90000004 + t.val * 2 ^ 8) 26 6 = 36 ∧ fld (0x90000004 + t.val * 2 ^ 8) 11 15 = 0 ∧ 0x90000004 + t.val * 2 ^ 8 < 2 ^ 32 ∧ fld (0x90000004 + t.val * 2 ^ 8) 0 8 = 4 ∧ fld (0x90000004 + t.val * 2 ^ 8) 8 3 = t.val) t
  have C : Cols (0x90000004 + t.val * 2 ^ 8 + a.val * 2 ^ 16 + d.val * 2 ^ 21) (0x90000004 + t.val * 2 ^ 8) (d.val) a.val 0 := by
    simpa only [Nat.zero_mul, Nat.add_zero] using cols (d := d.val) (a := a.val) (b := 0) (by decide) (Nat.lt_of_lt_of_le ha (by decide)) (Nat.lt_of_lt_of_le hd (by decide)) g2 g1
  refine of_cols C rfl g0 (by decide) ?_
  rw [decodeWord_36 (C.op.trans g0)]; unfold decVcvt; rw [(C.low 0 8 (by decide)).trans g3]
  simp only [(C.low 8 3 (by decide)).trans l0, C.b_all (by decide), C.d_all (Nat.lt_of_lt_of_le hd (by decide)), C.a_all (Nat.lt_of_lt_of_le ha (by decide)), idx_val, takeIf]; rfl

theorem vcvtQf (d : Fin 32) (a : Fin 32) (b : Fin 32) (t : Fin 8) : Statement (.vcvtQf d a b t) := by
  have hd := d.isLt
  have ha := a.isLt
  have hb := b.isLt
  have ht := t.isLt
  obtain ⟨g0, g1, g2, g3, l0⟩ := (by decide : ∀ (t : Fin 8), fld (0x90000005 + t.val * 2 ^ 8) 26 6 = 36 ∧ fld (0x90000005 + t.val * 2 ^ 8) 11 15 = 0 ∧ 0x90000005 + t.val * 2 ^ 8 < 2 ^ 32 ∧ fld (0x90000005 + t.val * 2 ^ 8) 0 8 = 5 ∧ fld (0x90000005 + t.val * 2 ^ 8) 8 3 = t.val) t
  have C := cols (d := d.val) (a := a.val) (b := b.val) (Nat.lt_of_lt_of_le hb (by decide)) (Nat.lt_of_lt_of_le ha (by decide)) (Nat.lt_of_lt_of_le hd (by decide)) g2 g1
  refine of_cols C rfl g0 (by decide) ?_
  rw [decodeWord_36 (C.op.trans g0)]; unfold decVcvt; rw [(C.low 0 8 (by decide)).trans g3]
  simp only [(C.low 8 3 (by decide)).trans l0, C.d_all (Nat.lt_of_lt_of_le hd (by decide)), C.a_all (Nat.lt_of_lt_of_le ha (by decide)), C.b_all (Nat.lt_of_lt_of_le hb (by decide)), idx_val, takeIf]; rfl

theorem vcvtQh (d : Fin 32) (a : Fin 32) (b : Fin 32) (t : Fin 8) : Statement (.vcvtQh d a b t) := by
  have hd := d.isLt
  have ha := a.isLt
  have hb := b.isLt
  have ht := t.isLt
  obtain ⟨g0, g1, g2, g3, l0⟩ := (by decide : ∀ (t : Fin 8), fld (0x90000006 + t.val * 2 ^ 8) 26 6 = 36 ∧ fld (0x90000006 + t.val * 2 ^ 8) 11 15 = 0 ∧ 0x90000006 + t.val * 2 ^ 8 < 2 ^ 32 ∧ fld (0x90000006 + t.val * 2 ^ 8) 0 8 = 6 ∧ fld (0x90000006 + t.val * 2 ^ 8) 8 3 = t.val) t
  have C := cols (d := d.val) (a := a.val) (b := b.val) (Nat.lt_of_lt_of_le hb (by decide)) (Nat.lt_of_lt_of_le ha (by decide)) (Nat.lt_of_lt_of_le hd (by decide)) g2 g1
  refine of_cols C rfl g0 (by decide) ?_
  rw [decodeWord_36 (C.op.trans g0)]; unfold decVcvt; rw [(C.low 0 8 (by decide)).trans g3]
  simp only [(C.low 8 3 (by decide)).trans l0, C.d_all (Nat.lt_of_lt_of_le hd (by decide)), C.a_all (Nat.lt_of_lt_of_le ha (by decide)), C.b_all (Nat.lt_of_lt_of_le hb (by decide)), idx_val, takeIf]; rfl

theorem vredSum (d : Fin 32) (a : Fin 32) (t : Fin 8) : Statement (.vredSum d a t) := by
  have hd := d.isLt
  have ha := a.isLt
  have ht := t.isLt
  obtain ⟨g0, g1, g2, g3, l0⟩ := (by decide : ∀ (t : Fin 8), fld (0x94000000 + t.val * 2 ^ 8) 26 6 = 37 ∧ fld (0x94000000 + t.val * 2 ^ 8) 11 15 = 0 ∧ 0x94000000 + t.val * 2 ^ 8 < 2 ^ 32 ∧ fld (0x94000000 + t.val * 2 ^ 8) 0 8 = 0 ∧ fld (0x94000000 + t.val * 2 ^ 8) 8 3 = t.val) t
  have C : Cols (0x94000000 + t.val * 2 ^ 8 + a.val * 2 ^ 16 + d.val * 2 ^ 21) (0x94000000 + t.val * 2 ^ 8) (d.val) a.val 0 := by
    simpa only [Nat.zero_mul, Nat.add_zero] using cols (d := d.val) (a := a.val) (b := 0) (by decide) (Nat.lt_of_lt_of_le ha (by decide)) (Nat.lt_of_lt_of_le hd (by decide)) g2 g1
  refine of_cols C rfl g0 (by decide) ?_
  rw [decodeWord_37 (C.op.trans g0)]; unfold decVred; rw [(C.low 0 8 (by decide)).trans g3]
  simp only [(C.low 8 3 (by decide)).trans l0, C.b_all (by decide), C.d_all (Nat.lt_of_lt_of_le hd (by decide)), C.a_all (Nat.lt_of_lt_of_le ha (by decide)), idx_val, takeIf]; rfl

theorem vredMax (d : Fin 32) (a : Fin 32) (t : Fin 8) : Statement (.vredMax d a t) := by
  have hd := d.isLt
  have ha := a.isLt
  have ht := t.isLt
  obtain ⟨g0, g1, g2, g3, l0⟩ := (by decide : ∀ (t : Fin 8), fld (0x94000001 + t.val * 2 ^ 8) 26 6 = 37 ∧ fld (0x94000001 + t.val * 2 ^ 8) 11 15 = 0 ∧ 0x94000001 + t.val * 2 ^ 8 < 2 ^ 32 ∧ fld (0x94000001 + t.val * 2 ^ 8) 0 8 = 1 ∧ fld (0x94000001 + t.val * 2 ^ 8) 8 3 = t.val) t
  have C : Cols (0x94000001 + t.val * 2 ^ 8 + a.val * 2 ^ 16 + d.val * 2 ^ 21) (0x94000001 + t.val * 2 ^ 8) (d.val) a.val 0 := by
    simpa only [Nat.zero_mul, Nat.add_zero] using cols (d := d.val) (a := a.val) (b := 0) (by decide) (Nat.lt_of_lt_of_le ha (by decide)) (Nat.lt_of_lt_of_le hd (by decide)) g2 g1
  refine of_cols C rfl g0 (by decide) ?_
  rw [decodeWord_37 (C.op.trans g0)]; unfold decVred; rw [(C.low 0 8 (by decide)).trans g3]
  simp only [(C.low 8 3 (by decide)).trans l0, C.b_all (by decide), C.d_all (Nat.lt_of_lt_of_le hd (by decide)), C.a_all (Nat.lt_of_lt_of_le ha (by decide)), idx_val, takeIf]; rfl

theorem vredMin (d : Fin 32) (a : Fin 32) (t : Fin 8) : Statement (.vredMin d a t) := by
  have hd := d.isLt
  have ha := a.isLt
  have ht := t.isLt
  obtain ⟨g0, g1, g2, g3, l0⟩ := (by decide : ∀ (t : Fin 8), fld (0x94000002 + t.val * 2 ^ 8) 26 6 = 37 ∧ fld (0x94000002 + t.val * 2 ^ 8) 11 15 = 0 ∧ 0x94000002 + t.val * 2 ^ 8 < 2 ^ 32 ∧ fld (0x94000002 + t.val * 2 ^ 8) 0 8 = 2 ∧ fld (0x94000002 + t.val * 2 ^ 8) 8 3 = t.val) t
  have C : Cols (0x94000002 + t.val * 2 ^ 8 + a.val * 2 ^ 16 + d.val * 2 ^ 21) (0x94000002 + t.val * 2 ^ 8) (d.val) a.val 0 := by
    simpa only [Nat.zero_mul, Nat.add_zero] using cols (d := d.val) (a := a.val) (b := 0) (by decide) (Nat.lt_of_lt_of_le ha (by decide)) (Nat.lt_of_lt_of_le hd (by decide)) g2 g1
  refine of_cols C rfl g0 (by decide) ?_
  rw [decodeWord_37 (C.op.trans g0)]; unfold decVred; rw [(C.low 0 8 (by decide)).trans g3]
  simp only [(C.low 8 3 (by decide)).trans l0, C.b_all (by decide), C.d_all (Nat.lt_of_lt_of_le hd (by decide)), C.a_all (Nat.lt_of_lt_of_le ha (by decide)), idx_val, takeIf]; rfl

theorem vredAnd (d : Fin 32) (a : Fin 32) (t : Fin 8) : Statement (.vredAnd d a t) := by
  have hd := d.isLt
  have ha := a.isLt
  have ht := t.isLt
  obtain ⟨g0, g1, g2, g3, l0⟩ := (by decide : ∀ (t : Fin 8), fld (0x94000003 + t.val * 2 ^ 8) 26 6 = 37 ∧ fld (0x94000003 + t.val * 2 ^ 8) 11 15 = 0 ∧ 0x94000003 + t.val * 2 ^ 8 < 2 ^ 32 ∧ fld (0x94000003 + t.val * 2 ^ 8) 0 8 = 3 ∧ fld (0x94000003 + t.val * 2 ^ 8) 8 3 = t.val) t
  have C : Cols (0x94000003 + t.val * 2 ^ 8 + a.val * 2 ^ 16 + d.val * 2 ^ 21) (0x94000003 + t.val * 2 ^ 8) (d.val) a.val 0 := by
    simpa only [Nat.zero_mul, Nat.add_zero] using cols (d := d.val) (a := a.val) (b := 0) (by decide) (Nat.lt_of_lt_of_le ha (by decide)) (Nat.lt_of_lt_of_le hd (by decide)) g2 g1
  refine of_cols C rfl g0 (by decide) ?_
  rw [decodeWord_37 (C.op.trans g0)]; unfold decVred; rw [(C.low 0 8 (by decide)).trans g3]
  simp only [(C.low 8 3 (by decide)).trans l0, C.b_all (by decide), C.d_all (Nat.lt_of_lt_of_le hd (by decide)), C.a_all (Nat.lt_of_lt_of_le ha (by decide)), idx_val, takeIf]; rfl

theorem vredOr (d : Fin 32) (a : Fin 32) (t : Fin 8) : Statement (.vredOr d a t) := by
  have hd := d.isLt
  have ha := a.isLt
  have ht := t.isLt
  obtain ⟨g0, g1, g2, g3, l0⟩ := (by decide : ∀ (t : Fin 8), fld (0x94000004 + t.val * 2 ^ 8) 26 6 = 37 ∧ fld (0x94000004 + t.val * 2 ^ 8) 11 15 = 0 ∧ 0x94000004 + t.val * 2 ^ 8 < 2 ^ 32 ∧ fld (0x94000004 + t.val * 2 ^ 8) 0 8 = 4 ∧ fld (0x94000004 + t.val * 2 ^ 8) 8 3 = t.val) t
  have C : Cols (0x94000004 + t.val * 2 ^ 8 + a.val * 2 ^ 16 + d.val * 2 ^ 21) (0x94000004 + t.val * 2 ^ 8) (d.val) a.val 0 := by
    simpa only [Nat.zero_mul, Nat.add_zero] using cols (d := d.val) (a := a.val) (b := 0) (by decide) (Nat.lt_of_lt_of_le ha (by decide)) (Nat.lt_of_lt_of_le hd (by decide)) g2 g1
  refine of_cols C rfl g0 (by decide) ?_
  rw [decodeWord_37 (C.op.trans g0)]; unfold decVred; rw [(C.low 0 8 (by decide)).trans g3]
  simp only [(C.low 8 3 (by decide)).trans l0, C.b_all (by decide), C.d_all (Nat.lt_of_lt_of_le hd (by decide)), C.a_all (Nat.lt_of_lt_of_le ha (by decide)), idx_val, takeIf]; rfl

theorem vredXor (d : Fin 32) (a : Fin 32) (t : Fin 8) : Statement (.vredXor d a t) := by
  have hd := d.isLt
  have ha := a.isLt
  have ht := t.isLt
  obtain ⟨g0, g1, g2, g3, l0⟩ := (by decide : ∀ (t : Fin 8), fld (0x94000005 + t.val * 2 ^ 8) 26 6 = 37 ∧ fld (0x94000005 + t.val * 2 ^ 8) 11 15 = 0 ∧ 0x94000005 + t.val * 2 ^ 8 < 2 ^ 32 ∧ fld (0x94000005 + t.val * 2 ^ 8) 0 8 = 5 ∧ fld (0x94000005 + t.val * 2 ^ 8) 8 3 = t.val) t
  have C : Cols (0x94000005 + t.val * 2 ^ 8 + a.val * 2 ^ 16 + d.val * 2 ^ 21) (0x94000005 + t.val * 2 ^ 8) (d.val) a.val 0 := by
    simpa only [Nat.zero_mul, Nat.add_zero] using cols (d := d.val) (a := a.val) (b := 0) (by decide) (Nat.lt_of_lt_of_le ha (by decide)) (Nat.lt_of_lt_of_le hd (by decide)) g2 g1
  refine of_cols C rfl g0 (by decide) ?_
  rw [decodeWord_37 (C.op.trans g0)]; unfold decVred; rw [(C.low 0 8 (by decide)).trans g3]
  simp only [(C.low 8 3 (by decide)).trans l0, C.b_all (by decide), C.d_all (Nat.lt_of_lt_of_le hd (by decide)), C.a_all (Nat.lt_of_lt_of_le ha (by decide)), idx_val, takeIf]; rfl

theorem vredSadd (d : Fin 32) (a : Fin 32) (t : Fin 8) : Statement (.vredSadd d a t) := by
  have hd := d.isLt
  have ha := a.isLt
  have ht := t.isLt
  obtain ⟨g0, g1, g2, g3, l0⟩ := (by decide : ∀ (t : Fin 8), fld (0x94000006 + t.val * 2 ^ 8) 26 6 = 37 ∧ fld (0x94000006 + t.val * 2 ^ 8) 11 15 = 0 ∧ 0x94000006 + t.val * 2 ^ 8 < 2 ^ 32 ∧ fld (0x94000006 + t.val * 2 ^ 8) 0 8 = 6 ∧ fld (0x94000006 + t.val * 2 ^ 8) 8 3 = t.val) t
  have C : Cols (0x94000006 + t.val * 2 ^ 8 + a.val * 2 ^ 16 + d.val * 2 ^ 21) (0x94000006 + t.val * 2 ^ 8) (d.val) a.val 0 := by
    simpa only [Nat.zero_mul, Nat.add_zero] using cols (d := d.val) (a := a.val) (b := 0) (by decide) (Nat.lt_of_lt_of_le ha (by decide)) (Nat.lt_of_lt_of_le hd (by decide)) g2 g1
  refine of_cols C rfl g0 (by decide) ?_
  rw [decodeWord_37 (C.op.trans g0)]; unfold decVred; rw [(C.low 0 8 (by decide)).trans g3]
  simp only [(C.low 8 3 (by decide)).trans l0, C.b_all (by decide), C.d_all (Nat.lt_of_lt_of_le hd (by decide)), C.a_all (Nat.lt_of_lt_of_le ha (by decide)), idx_val, takeIf]; rfl

theorem vredSmax (d : Fin 32) (a : Fin 32) (t : Fin 8) : Statement (.vredSmax d a t) := by
  have hd := d.isLt
  have ha := a.isLt
  have ht := t.isLt
  obtain ⟨g0, g1, g2, g3, l0⟩ := (by decide : ∀ (t : Fin 8), fld (0x94000007 + t.val * 2 ^ 8) 26 6 = 37 ∧ fld (0x94000007 + t.val * 2 ^ 8) 11 15 = 0 ∧ 0x94000007 + t.val * 2 ^ 8 < 2 ^ 32 ∧ fld (0x94000007 + t.val * 2 ^ 8) 0 8 = 7 ∧ fld (0x94000007 + t.val * 2 ^ 8) 8 3 = t.val) t
  have C : Cols (0x94000007 + t.val * 2 ^ 8 + a.val * 2 ^ 16 + d.val * 2 ^ 21) (0x94000007 + t.val * 2 ^ 8) (d.val) a.val 0 := by
    simpa only [Nat.zero_mul, Nat.add_zero] using cols (d := d.val) (a := a.val) (b := 0) (by decide) (Nat.lt_of_lt_of_le ha (by decide)) (Nat.lt_of_lt_of_le hd (by decide)) g2 g1
  refine of_cols C rfl g0 (by decide) ?_
  rw [decodeWord_37 (C.op.trans g0)]; unfold decVred; rw [(C.low 0 8 (by decide)).trans g3]
  simp only [(C.low 8 3 (by decide)).trans l0, C.b_all (by decide), C.d_all (Nat.lt_of_lt_of_le hd (by decide)), C.a_all (Nat.lt_of_lt_of_le ha (by decide)), idx_val, takeIf]; rfl

theorem vredAnyp (d : Fin 16) (a : Fin 32) : Statement (.vredAnyp d a) := by
  have hd := d.isLt
  have ha := a.isLt
  obtain ⟨g0, g1, g2, g3⟩ : fld (0x94000308) 26 6 = 37 ∧ fld (0x94000308) 11 15 = 0 ∧ 0x94000308 < 2 ^ 32 ∧ fld (0x94000308) 0 8 = 8 := by decide
  have C : Cols (0x94000308 + a.val * 2 ^ 16 + d.val * 2 ^ 21) (0x94000308) (d.val) a.val 0 := by
    simpa only [Nat.zero_mul, Nat.add_zero] using cols (d := d.val) (a := a.val) (b := 0) (by decide) (Nat.lt_of_lt_of_le ha (by decide)) (Nat.lt_of_lt_of_le hd (by decide)) g2 g1
  refine of_cols C rfl g0 (by decide) ?_
  have s0 : fld (0x94000308 + a.val * 2 ^ 16 + d.val * 2 ^ 21) 8 8 = 3 := by simp only [fld]; omega
  rw [decodeWord_37 (C.op.trans g0)]; unfold decVred; rw [(C.low 0 8 (by decide)).trans g3]
  simp only [C.d_top (Nat.lt_of_lt_of_le hd (by decide)), C.d_low (Nat.lt_of_lt_of_le hd (by decide)), C.a_all (Nat.lt_of_lt_of_le ha (by decide)), s0, idx_val, takeIf]; rfl

theorem vredAllp (d : Fin 16) (a : Fin 32) : Statement (.vredAllp d a) := by
  have hd := d.isLt
  have ha := a.isLt
  obtain ⟨g0, g1, g2, g3⟩ : fld (0x94000309) 26 6 = 37 ∧ fld (0x94000309) 11 15 = 0 ∧ 0x94000309 < 2 ^ 32 ∧ fld (0x94000309) 0 8 = 9 := by decide
  have C : Cols (0x94000309 + a.val * 2 ^ 16 + d.val * 2 ^ 21) (0x94000309) (d.val) a.val 0 := by
    simpa only [Nat.zero_mul, Nat.add_zero] using cols (d := d.val) (a := a.val) (b := 0) (by decide) (Nat.lt_of_lt_of_le ha (by decide)) (Nat.lt_of_lt_of_le hd (by decide)) g2 g1
  refine of_cols C rfl g0 (by decide) ?_
  have s0 : fld (0x94000309 + a.val * 2 ^ 16 + d.val * 2 ^ 21) 8 8 = 3 := by simp only [fld]; omega
  rw [decodeWord_37 (C.op.trans g0)]; unfold decVred; rw [(C.low 0 8 (by decide)).trans g3]
  simp only [C.d_top (Nat.lt_of_lt_of_le hd (by decide)), C.d_low (Nat.lt_of_lt_of_le hd (by decide)), C.a_all (Nat.lt_of_lt_of_le ha (by decide)), s0, idx_val, takeIf]; rfl

theorem vpermSel (d : Fin 32) (a : Fin 32) (b : Fin 32) : Statement (.vpermSel d a b) := by
  have hd := d.isLt
  have ha := a.isLt
  have hb := b.isLt
  obtain ⟨g0, g1, g2, g3, l0⟩ : fld (0x98000300) 26 6 = 38 ∧ fld (0x98000300) 11 15 = 0 ∧ 0x98000300 < 2 ^ 32 ∧ fld (0x98000300) 0 8 = 0 ∧ fld (0x98000300) 8 3 = 3 := by decide
  have C := cols (d := d.val) (a := a.val) (b := b.val) (Nat.lt_of_lt_of_le hb (by decide)) (Nat.lt_of_lt_of_le ha (by decide)) (Nat.lt_of_lt_of_le hd (by decide)) g2 g1
  refine of_cols C rfl g0 (by decide) ?_
  rw [decodeWord_38 (C.op.trans g0)]; unfold decVperm; rw [(C.low 0 8 (by decide)).trans g3]
  simp only [(C.low 8 3 (by decide)).trans l0, C.d_all (Nat.lt_of_lt_of_le hd (by decide)), C.a_all (Nat.lt_of_lt_of_le ha (by decide)), C.b_all (Nat.lt_of_lt_of_le hb (by decide)), idx_val, takeIf]; rfl

theorem vpermShift (d : Fin 32) (a : Fin 32) (b : Fin 32) : Statement (.vpermShift d a b) := by
  have hd := d.isLt
  have ha := a.isLt
  have hb := b.isLt
  obtain ⟨g0, g1, g2, g3, l0⟩ : fld (0x98000301) 26 6 = 38 ∧ fld (0x98000301) 11 15 = 0 ∧ 0x98000301 < 2 ^ 32 ∧ fld (0x98000301) 0 8 = 1 ∧ fld (0x98000301) 8 3 = 3 := by decide
  have C := cols (d := d.val) (a := a.val) (b := b.val) (Nat.lt_of_lt_of_le hb (by decide)) (Nat.lt_of_lt_of_le ha (by decide)) (Nat.lt_of_lt_of_le hd (by decide)) g2 g1
  refine of_cols C rfl g0 (by decide) ?_
  rw [decodeWord_38 (C.op.trans g0)]; unfold decVperm; rw [(C.low 0 8 (by decide)).trans g3]
  simp only [(C.low 8 3 (by decide)).trans l0, C.d_all (Nat.lt_of_lt_of_le hd (by decide)), C.a_all (Nat.lt_of_lt_of_le ha (by decide)), C.b_all (Nat.lt_of_lt_of_le hb (by decide)), idx_val, takeIf]; rfl

theorem vpermTr (d : Fin 32) (a : Fin 32) : Statement (.vpermTr d a) := by
  have hd := d.isLt
  have ha := a.isLt
  obtain ⟨g0, g1, g2, g3⟩ : fld (0x98000302) 26 6 = 38 ∧ fld (0x98000302) 11 15 = 0 ∧ 0x98000302 < 2 ^ 32 ∧ fld (0x98000302) 0 8 = 2 := by decide
  have C : Cols (0x98000302 + a.val * 2 ^ 16 + d.val * 2 ^ 21) (0x98000302) (d.val) a.val 0 := by
    simpa only [Nat.zero_mul, Nat.add_zero] using cols (d := d.val) (a := a.val) (b := 0) (by decide) (Nat.lt_of_lt_of_le ha (by decide)) (Nat.lt_of_lt_of_le hd (by decide)) g2 g1
  refine of_cols C rfl g0 (by decide) ?_
  have s0 : fld (0x98000302 + a.val * 2 ^ 16 + d.val * 2 ^ 21) 8 8 = 3 := by simp only [fld]; omega
  rw [decodeWord_38 (C.op.trans g0)]; unfold decVperm; rw [(C.low 0 8 (by decide)).trans g3]
  simp only [C.d_all (Nat.lt_of_lt_of_le hd (by decide)), C.a_all (Nat.lt_of_lt_of_le ha (by decide)), s0, idx_val, takeIf]; rfl

theorem vmemLd (d : Fin 32) (a : Fin 32) (b : Fin 32) (t : Fin 8) : Statement (.vmemLd d a b t) := by
  have hd := d.isLt
  have ha := a.isLt
  have hb := b.isLt
  have ht := t.isLt
  obtain ⟨g0, g1, g2, g3, l0⟩ := (by decide : ∀ (t : Fin 8), fld (0x9C000000 + t.val * 2 ^ 8) 26 6 = 39 ∧ fld (0x9C000000 + t.val * 2 ^ 8) 11 15 = 0 ∧ 0x9C000000 + t.val * 2 ^ 8 < 2 ^ 32 ∧ fld (0x9C000000 + t.val * 2 ^ 8) 0 8 = 0 ∧ fld (0x9C000000 + t.val * 2 ^ 8) 8 3 = t.val) t
  have C := cols (d := d.val) (a := a.val) (b := b.val) (Nat.lt_of_lt_of_le hb (by decide)) (Nat.lt_of_lt_of_le ha (by decide)) (Nat.lt_of_lt_of_le hd (by decide)) g2 g1
  refine of_cols C rfl g0 (by decide) ?_
  rw [decodeWord_39 (C.op.trans g0)]; unfold decVmem; rw [(C.low 0 8 (by decide)).trans g3]
  simp only [(C.low 8 3 (by decide)).trans l0, C.d_all (Nat.lt_of_lt_of_le hd (by decide)), C.a_all (Nat.lt_of_lt_of_le ha (by decide)), C.b_all (Nat.lt_of_lt_of_le hb (by decide)), idx_val, takeIf]; rfl

theorem vmemSt (d : Fin 32) (a : Fin 32) (b : Fin 32) (t : Fin 8) : Statement (.vmemSt d a b t) := by
  have hd := d.isLt
  have ha := a.isLt
  have hb := b.isLt
  have ht := t.isLt
  obtain ⟨g0, g1, g2, g3, l0⟩ := (by decide : ∀ (t : Fin 8), fld (0x9C000001 + t.val * 2 ^ 8) 26 6 = 39 ∧ fld (0x9C000001 + t.val * 2 ^ 8) 11 15 = 0 ∧ 0x9C000001 + t.val * 2 ^ 8 < 2 ^ 32 ∧ fld (0x9C000001 + t.val * 2 ^ 8) 0 8 = 1 ∧ fld (0x9C000001 + t.val * 2 ^ 8) 8 3 = t.val) t
  have C := cols (d := d.val) (a := a.val) (b := b.val) (Nat.lt_of_lt_of_le hb (by decide)) (Nat.lt_of_lt_of_le ha (by decide)) (Nat.lt_of_lt_of_le hd (by decide)) g2 g1
  refine of_cols C rfl g0 (by decide) ?_
  rw [decodeWord_39 (C.op.trans g0)]; unfold decVmem; rw [(C.low 0 8 (by decide)).trans g3]
  simp only [(C.low 8 3 (by decide)).trans l0, C.d_all (Nat.lt_of_lt_of_le hd (by decide)), C.a_all (Nat.lt_of_lt_of_le ha (by decide)), C.b_all (Nat.lt_of_lt_of_le hb (by decide)), idx_val, takeIf]; rfl

theorem vmemGat (d : Fin 32) (a : Fin 32) (b : Fin 32) (t : Fin 8) : Statement (.vmemGat d a b t) := by
  have hd := d.isLt
  have ha := a.isLt
  have hb := b.isLt
  have ht := t.isLt
  obtain ⟨g0, g1, g2, g3, l0⟩ := (by decide : ∀ (t : Fin 8), fld (0x9C000002 + t.val * 2 ^ 8) 26 6 = 39 ∧ fld (0x9C000002 + t.val * 2 ^ 8) 11 15 = 0 ∧ 0x9C000002 + t.val * 2 ^ 8 < 2 ^ 32 ∧ fld (0x9C000002 + t.val * 2 ^ 8) 0 8 = 2 ∧ fld (0x9C000002 + t.val * 2 ^ 8) 8 3 = t.val) t
  have C := cols (d := d.val) (a := a.val) (b := b.val) (Nat.lt_of_lt_of_le hb (by decide)) (Nat.lt_of_lt_of_le ha (by decide)) (Nat.lt_of_lt_of_le hd (by decide)) g2 g1
  refine of_cols C rfl g0 (by decide) ?_
  rw [decodeWord_39 (C.op.trans g0)]; unfold decVmem; rw [(C.low 0 8 (by decide)).trans g3]
  simp only [(C.low 8 3 (by decide)).trans l0, C.d_all (Nat.lt_of_lt_of_le hd (by decide)), C.a_all (Nat.lt_of_lt_of_le ha (by decide)), C.b_all (Nat.lt_of_lt_of_le hb (by decide)), idx_val, takeIf]; rfl

theorem vmemSct (d : Fin 32) (a : Fin 32) (b : Fin 32) (t : Fin 8) : Statement (.vmemSct d a b t) := by
  have hd := d.isLt
  have ha := a.isLt
  have hb := b.isLt
  have ht := t.isLt
  obtain ⟨g0, g1, g2, g3, l0⟩ := (by decide : ∀ (t : Fin 8), fld (0x9C000003 + t.val * 2 ^ 8) 26 6 = 39 ∧ fld (0x9C000003 + t.val * 2 ^ 8) 11 15 = 0 ∧ 0x9C000003 + t.val * 2 ^ 8 < 2 ^ 32 ∧ fld (0x9C000003 + t.val * 2 ^ 8) 0 8 = 3 ∧ fld (0x9C000003 + t.val * 2 ^ 8) 8 3 = t.val) t
  have C := cols (d := d.val) (a := a.val) (b := b.val) (Nat.lt_of_lt_of_le hb (by decide)) (Nat.lt_of_lt_of_le ha (by decide)) (Nat.lt_of_lt_of_le hd (by decide)) g2 g1
  refine of_cols C rfl g0 (by decide) ?_
  rw [decodeWord_39 (C.op.trans g0)]; unfold decVmem; rw [(C.low 0 8 (by decide)).trans g3]
  simp only [(C.low 8 3 (by decide)).trans l0, C.d_all (Nat.lt_of_lt_of_le hd (by decide)), C.a_all (Nat.lt_of_lt_of_le ha (by decide)), C.b_all (Nat.lt_of_lt_of_le hb (by decide)), idx_val, takeIf]; rfl

theorem vsfuRcp (d : Fin 32) (a : Fin 32) (t : Fin 8) : Statement (.vsfuRcp d a t) := by
  have hd := d.isLt
  have ha := a.isLt
  have ht := t.isLt
  obtain ⟨g0, g1, g2, g3, l0⟩ := (by decide : ∀ (t : Fin 8), fld (0xA0000000 + t.val * 2 ^ 8) 26 6 = 40 ∧ fld (0xA0000000 + t.val * 2 ^ 8) 11 15 = 0 ∧ 0xA0000000 + t.val * 2 ^ 8 < 2 ^ 32 ∧ fld (0xA0000000 + t.val * 2 ^ 8) 0 8 = 0 ∧ fld (0xA0000000 + t.val * 2 ^ 8) 8 3 = t.val) t
  have C : Cols (0xA0000000 + t.val * 2 ^ 8 + a.val * 2 ^ 16 + d.val * 2 ^ 21) (0xA0000000 + t.val * 2 ^ 8) (d.val) a.val 0 := by
    simpa only [Nat.zero_mul, Nat.add_zero] using cols (d := d.val) (a := a.val) (b := 0) (by decide) (Nat.lt_of_lt_of_le ha (by decide)) (Nat.lt_of_lt_of_le hd (by decide)) g2 g1
  refine of_cols C rfl g0 (by decide) ?_
  rw [decodeWord_40 (C.op.trans g0)]; unfold decVsfu; rw [(C.low 0 8 (by decide)).trans g3]
  simp only [(C.low 8 3 (by decide)).trans l0, C.b_all (by decide), C.d_all (Nat.lt_of_lt_of_le hd (by decide)), C.a_all (Nat.lt_of_lt_of_le ha (by decide)), idx_val, takeIf]; rfl

theorem vsfuRsqrt (d : Fin 32) (a : Fin 32) (t : Fin 8) : Statement (.vsfuRsqrt d a t) := by
  have hd := d.isLt
  have ha := a.isLt
  have ht := t.isLt
  obtain ⟨g0, g1, g2, g3, l0⟩ := (by decide : ∀ (t : Fin 8), fld (0xA0000001 + t.val * 2 ^ 8) 26 6 = 40 ∧ fld (0xA0000001 + t.val * 2 ^ 8) 11 15 = 0 ∧ 0xA0000001 + t.val * 2 ^ 8 < 2 ^ 32 ∧ fld (0xA0000001 + t.val * 2 ^ 8) 0 8 = 1 ∧ fld (0xA0000001 + t.val * 2 ^ 8) 8 3 = t.val) t
  have C : Cols (0xA0000001 + t.val * 2 ^ 8 + a.val * 2 ^ 16 + d.val * 2 ^ 21) (0xA0000001 + t.val * 2 ^ 8) (d.val) a.val 0 := by
    simpa only [Nat.zero_mul, Nat.add_zero] using cols (d := d.val) (a := a.val) (b := 0) (by decide) (Nat.lt_of_lt_of_le ha (by decide)) (Nat.lt_of_lt_of_le hd (by decide)) g2 g1
  refine of_cols C rfl g0 (by decide) ?_
  rw [decodeWord_40 (C.op.trans g0)]; unfold decVsfu; rw [(C.low 0 8 (by decide)).trans g3]
  simp only [(C.low 8 3 (by decide)).trans l0, C.b_all (by decide), C.d_all (Nat.lt_of_lt_of_le hd (by decide)), C.a_all (Nat.lt_of_lt_of_le ha (by decide)), idx_val, takeIf]; rfl

theorem vsfuSqrt (d : Fin 32) (a : Fin 32) (t : Fin 8) : Statement (.vsfuSqrt d a t) := by
  have hd := d.isLt
  have ha := a.isLt
  have ht := t.isLt
  obtain ⟨g0, g1, g2, g3, l0⟩ := (by decide : ∀ (t : Fin 8), fld (0xA0000002 + t.val * 2 ^ 8) 26 6 = 40 ∧ fld (0xA0000002 + t.val * 2 ^ 8) 11 15 = 0 ∧ 0xA0000002 + t.val * 2 ^ 8 < 2 ^ 32 ∧ fld (0xA0000002 + t.val * 2 ^ 8) 0 8 = 2 ∧ fld (0xA0000002 + t.val * 2 ^ 8) 8 3 = t.val) t
  have C : Cols (0xA0000002 + t.val * 2 ^ 8 + a.val * 2 ^ 16 + d.val * 2 ^ 21) (0xA0000002 + t.val * 2 ^ 8) (d.val) a.val 0 := by
    simpa only [Nat.zero_mul, Nat.add_zero] using cols (d := d.val) (a := a.val) (b := 0) (by decide) (Nat.lt_of_lt_of_le ha (by decide)) (Nat.lt_of_lt_of_le hd (by decide)) g2 g1
  refine of_cols C rfl g0 (by decide) ?_
  rw [decodeWord_40 (C.op.trans g0)]; unfold decVsfu; rw [(C.low 0 8 (by decide)).trans g3]
  simp only [(C.low 8 3 (by decide)).trans l0, C.b_all (by decide), C.d_all (Nat.lt_of_lt_of_le hd (by decide)), C.a_all (Nat.lt_of_lt_of_le ha (by decide)), idx_val, takeIf]; rfl

theorem vsfuDiv (d : Fin 32) (a : Fin 32) (b : Fin 32) (t : Fin 8) : Statement (.vsfuDiv d a b t) := by
  have hd := d.isLt
  have ha := a.isLt
  have hb := b.isLt
  have ht := t.isLt
  obtain ⟨g0, g1, g2, g3, l0⟩ := (by decide : ∀ (t : Fin 8), fld (0xA0000003 + t.val * 2 ^ 8) 26 6 = 40 ∧ fld (0xA0000003 + t.val * 2 ^ 8) 11 15 = 0 ∧ 0xA0000003 + t.val * 2 ^ 8 < 2 ^ 32 ∧ fld (0xA0000003 + t.val * 2 ^ 8) 0 8 = 3 ∧ fld (0xA0000003 + t.val * 2 ^ 8) 8 3 = t.val) t
  have C := cols (d := d.val) (a := a.val) (b := b.val) (Nat.lt_of_lt_of_le hb (by decide)) (Nat.lt_of_lt_of_le ha (by decide)) (Nat.lt_of_lt_of_le hd (by decide)) g2 g1
  refine of_cols C rfl g0 (by decide) ?_
  rw [decodeWord_40 (C.op.trans g0)]; unfold decVsfu; rw [(C.low 0 8 (by decide)).trans g3]
  simp only [(C.low 8 3 (by decide)).trans l0, C.d_all (Nat.lt_of_lt_of_le hd (by decide)), C.a_all (Nat.lt_of_lt_of_le ha (by decide)), C.b_all (Nat.lt_of_lt_of_le hb (by decide)), idx_val, takeIf]; rfl

theorem vsfuExp (d : Fin 32) (a : Fin 32) (t : Fin 8) : Statement (.vsfuExp d a t) := by
  have hd := d.isLt
  have ha := a.isLt
  have ht := t.isLt
  obtain ⟨g0, g1, g2, g3, l0⟩ := (by decide : ∀ (t : Fin 8), fld (0xA0000004 + t.val * 2 ^ 8) 26 6 = 40 ∧ fld (0xA0000004 + t.val * 2 ^ 8) 11 15 = 0 ∧ 0xA0000004 + t.val * 2 ^ 8 < 2 ^ 32 ∧ fld (0xA0000004 + t.val * 2 ^ 8) 0 8 = 4 ∧ fld (0xA0000004 + t.val * 2 ^ 8) 8 3 = t.val) t
  have C : Cols (0xA0000004 + t.val * 2 ^ 8 + a.val * 2 ^ 16 + d.val * 2 ^ 21) (0xA0000004 + t.val * 2 ^ 8) (d.val) a.val 0 := by
    simpa only [Nat.zero_mul, Nat.add_zero] using cols (d := d.val) (a := a.val) (b := 0) (by decide) (Nat.lt_of_lt_of_le ha (by decide)) (Nat.lt_of_lt_of_le hd (by decide)) g2 g1
  refine of_cols C rfl g0 (by decide) ?_
  rw [decodeWord_40 (C.op.trans g0)]; unfold decVsfu; rw [(C.low 0 8 (by decide)).trans g3]
  simp only [(C.low 8 3 (by decide)).trans l0, C.b_all (by decide), C.d_all (Nat.lt_of_lt_of_le hd (by decide)), C.a_all (Nat.lt_of_lt_of_le ha (by decide)), idx_val, takeIf]; rfl

theorem vsfuExp2 (d : Fin 32) (a : Fin 32) (t : Fin 8) : Statement (.vsfuExp2 d a t) := by
  have hd := d.isLt
  have ha := a.isLt
  have ht := t.isLt
  obtain ⟨g0, g1, g2, g3, l0⟩ := (by decide : ∀ (t : Fin 8), fld (0xA0000005 + t.val * 2 ^ 8) 26 6 = 40 ∧ fld (0xA0000005 + t.val * 2 ^ 8) 11 15 = 0 ∧ 0xA0000005 + t.val * 2 ^ 8 < 2 ^ 32 ∧ fld (0xA0000005 + t.val * 2 ^ 8) 0 8 = 5 ∧ fld (0xA0000005 + t.val * 2 ^ 8) 8 3 = t.val) t
  have C : Cols (0xA0000005 + t.val * 2 ^ 8 + a.val * 2 ^ 16 + d.val * 2 ^ 21) (0xA0000005 + t.val * 2 ^ 8) (d.val) a.val 0 := by
    simpa only [Nat.zero_mul, Nat.add_zero] using cols (d := d.val) (a := a.val) (b := 0) (by decide) (Nat.lt_of_lt_of_le ha (by decide)) (Nat.lt_of_lt_of_le hd (by decide)) g2 g1
  refine of_cols C rfl g0 (by decide) ?_
  rw [decodeWord_40 (C.op.trans g0)]; unfold decVsfu; rw [(C.low 0 8 (by decide)).trans g3]
  simp only [(C.low 8 3 (by decide)).trans l0, C.b_all (by decide), C.d_all (Nat.lt_of_lt_of_le hd (by decide)), C.a_all (Nat.lt_of_lt_of_le ha (by decide)), idx_val, takeIf]; rfl

theorem vsfuLn (d : Fin 32) (a : Fin 32) (t : Fin 8) : Statement (.vsfuLn d a t) := by
  have hd := d.isLt
  have ha := a.isLt
  have ht := t.isLt
  obtain ⟨g0, g1, g2, g3, l0⟩ := (by decide : ∀ (t : Fin 8), fld (0xA0000006 + t.val * 2 ^ 8) 26 6 = 40 ∧ fld (0xA0000006 + t.val * 2 ^ 8) 11 15 = 0 ∧ 0xA0000006 + t.val * 2 ^ 8 < 2 ^ 32 ∧ fld (0xA0000006 + t.val * 2 ^ 8) 0 8 = 6 ∧ fld (0xA0000006 + t.val * 2 ^ 8) 8 3 = t.val) t
  have C : Cols (0xA0000006 + t.val * 2 ^ 8 + a.val * 2 ^ 16 + d.val * 2 ^ 21) (0xA0000006 + t.val * 2 ^ 8) (d.val) a.val 0 := by
    simpa only [Nat.zero_mul, Nat.add_zero] using cols (d := d.val) (a := a.val) (b := 0) (by decide) (Nat.lt_of_lt_of_le ha (by decide)) (Nat.lt_of_lt_of_le hd (by decide)) g2 g1
  refine of_cols C rfl g0 (by decide) ?_
  rw [decodeWord_40 (C.op.trans g0)]; unfold decVsfu; rw [(C.low 0 8 (by decide)).trans g3]
  simp only [(C.low 8 3 (by decide)).trans l0, C.b_all (by decide), C.d_all (Nat.lt_of_lt_of_le hd (by decide)), C.a_all (Nat.lt_of_lt_of_le ha (by decide)), idx_val, takeIf]; rfl

theorem vsfuLog2 (d : Fin 32) (a : Fin 32) (t : Fin 8) : Statement (.vsfuLog2 d a t) := by
  have hd := d.isLt
  have ha := a.isLt
  have ht := t.isLt
  obtain ⟨g0, g1, g2, g3, l0⟩ := (by decide : ∀ (t : Fin 8), fld (0xA0000007 + t.val * 2 ^ 8) 26 6 = 40 ∧ fld (0xA0000007 + t.val * 2 ^ 8) 11 15 = 0 ∧ 0xA0000007 + t.val * 2 ^ 8 < 2 ^ 32 ∧ fld (0xA0000007 + t.val * 2 ^ 8) 0 8 = 7 ∧ fld (0xA0000007 + t.val * 2 ^ 8) 8 3 = t.val) t
  have C : Cols (0xA0000007 + t.val * 2 ^ 8 + a.val * 2 ^ 16 + d.val * 2 ^ 21) (0xA0000007 + t.val * 2 ^ 8) (d.val) a.val 0 := by
    simpa only [Nat.zero_mul, Nat.add_zero] using cols (d := d.val) (a := a.val) (b := 0) (by decide) (Nat.lt_of_lt_of_le ha (by decide)) (Nat.lt_of_lt_of_le hd (by decide)) g2 g1
  refine of_cols C rfl g0 (by decide) ?_
  rw [decodeWord_40 (C.op.trans g0)]; unfold decVsfu; rw [(C.low 0 8 (by decide)).trans g3]
  simp only [(C.low 8 3 (by decide)).trans l0, C.b_all (by decide), C.d_all (Nat.lt_of_lt_of_le hd (by decide)), C.a_all (Nat.lt_of_lt_of_le ha (by decide)), idx_val, takeIf]; rfl

theorem vsfuSin (d : Fin 32) (a : Fin 32) (t : Fin 8) : Statement (.vsfuSin d a t) := by
  have hd := d.isLt
  have ha := a.isLt
  have ht := t.isLt
  obtain ⟨g0, g1, g2, g3, l0⟩ := (by decide : ∀ (t : Fin 8), fld (0xA0000008 + t.val * 2 ^ 8) 26 6 = 40 ∧ fld (0xA0000008 + t.val * 2 ^ 8) 11 15 = 0 ∧ 0xA0000008 + t.val * 2 ^ 8 < 2 ^ 32 ∧ fld (0xA0000008 + t.val * 2 ^ 8) 0 8 = 8 ∧ fld (0xA0000008 + t.val * 2 ^ 8) 8 3 = t.val) t
  have C : Cols (0xA0000008 + t.val * 2 ^ 8 + a.val * 2 ^ 16 + d.val * 2 ^ 21) (0xA0000008 + t.val * 2 ^ 8) (d.val) a.val 0 := by
    simpa only [Nat.zero_mul, Nat.add_zero] using cols (d := d.val) (a := a.val) (b := 0) (by decide) (Nat.lt_of_lt_of_le ha (by decide)) (Nat.lt_of_lt_of_le hd (by decide)) g2 g1
  refine of_cols C rfl g0 (by decide) ?_
  rw [decodeWord_40 (C.op.trans g0)]; unfold decVsfu; rw [(C.low 0 8 (by decide)).trans g3]
  simp only [(C.low 8 3 (by decide)).trans l0, C.b_all (by decide), C.d_all (Nat.lt_of_lt_of_le hd (by decide)), C.a_all (Nat.lt_of_lt_of_le ha (by decide)), idx_val, takeIf]; rfl

theorem vsfuCos (d : Fin 32) (a : Fin 32) (t : Fin 8) : Statement (.vsfuCos d a t) := by
  have hd := d.isLt
  have ha := a.isLt
  have ht := t.isLt
  obtain ⟨g0, g1, g2, g3, l0⟩ := (by decide : ∀ (t : Fin 8), fld (0xA0000009 + t.val * 2 ^ 8) 26 6 = 40 ∧ fld (0xA0000009 + t.val * 2 ^ 8) 11 15 = 0 ∧ 0xA0000009 + t.val * 2 ^ 8 < 2 ^ 32 ∧ fld (0xA0000009 + t.val * 2 ^ 8) 0 8 = 9 ∧ fld (0xA0000009 + t.val * 2 ^ 8) 8 3 = t.val) t
  have C : Cols (0xA0000009 + t.val * 2 ^ 8 + a.val * 2 ^ 16 + d.val * 2 ^ 21) (0xA0000009 + t.val * 2 ^ 8) (d.val) a.val 0 := by
    simpa only [Nat.zero_mul, Nat.add_zero] using cols (d := d.val) (a := a.val) (b := 0) (by decide) (Nat.lt_of_lt_of_le ha (by decide)) (Nat.lt_of_lt_of_le hd (by decide)) g2 g1
  refine of_cols C rfl g0 (by decide) ?_
  rw [decodeWord_40 (C.op.trans g0)]; unfold decVsfu; rw [(C.low 0 8 (by decide)).trans g3]
  simp only [(C.low 8 3 (by decide)).trans l0, C.b_all (by decide), C.d_all (Nat.lt_of_lt_of_le hd (by decide)), C.a_all (Nat.lt_of_lt_of_le ha (by decide)), idx_val, takeIf]; rfl

theorem vsfuTanh (d : Fin 32) (a : Fin 32) (t : Fin 8) : Statement (.vsfuTanh d a t) := by
  have hd := d.isLt
  have ha := a.isLt
  have ht := t.isLt
  obtain ⟨g0, g1, g2, g3, l0⟩ := (by decide : ∀ (t : Fin 8), fld (0xA000000A + t.val * 2 ^ 8) 26 6 = 40 ∧ fld (0xA000000A + t.val * 2 ^ 8) 11 15 = 0 ∧ 0xA000000A + t.val * 2 ^ 8 < 2 ^ 32 ∧ fld (0xA000000A + t.val * 2 ^ 8) 0 8 = 10 ∧ fld (0xA000000A + t.val * 2 ^ 8) 8 3 = t.val) t
  have C : Cols (0xA000000A + t.val * 2 ^ 8 + a.val * 2 ^ 16 + d.val * 2 ^ 21) (0xA000000A + t.val * 2 ^ 8) (d.val) a.val 0 := by
    simpa only [Nat.zero_mul, Nat.add_zero] using cols (d := d.val) (a := a.val) (b := 0) (by decide) (Nat.lt_of_lt_of_le ha (by decide)) (Nat.lt_of_lt_of_le hd (by decide)) g2 g1
  refine of_cols C rfl g0 (by decide) ?_
  rw [decodeWord_40 (C.op.trans g0)]; unfold decVsfu; rw [(C.low 0 8 (by decide)).trans g3]
  simp only [(C.low 8 3 (by decide)).trans l0, C.b_all (by decide), C.d_all (Nat.lt_of_lt_of_le hd (by decide)), C.a_all (Nat.lt_of_lt_of_le ha (by decide)), idx_val, takeIf]; rfl

theorem vsfuSigm (d : Fin 32) (a : Fin 32) (t : Fin 8) : Statement (.vsfuSigm d a t) := by
  have hd := d.isLt
  have ha := a.isLt
  have ht := t.isLt
  obtain ⟨g0, g1, g2, g3, l0⟩ := (by decide : ∀ (t : Fin 8), fld (0xA000000B + t.val * 2 ^ 8) 26 6 = 40 ∧ fld (0xA000000B + t.val * 2 ^ 8) 11 15 = 0 ∧ 0xA000000B + t.val * 2 ^ 8 < 2 ^ 32 ∧ fld (0xA000000B + t.val * 2 ^ 8) 0 8 = 11 ∧ fld (0xA000000B + t.val * 2 ^ 8) 8 3 = t.val) t
  have C : Cols (0xA000000B + t.val * 2 ^ 8 + a.val * 2 ^ 16 + d.val * 2 ^ 21) (0xA000000B + t.val * 2 ^ 8) (d.val) a.val 0 := by
    simpa only [Nat.zero_mul, Nat.add_zero] using cols (d := d.val) (a := a.val) (b := 0) (by decide) (Nat.lt_of_lt_of_le ha (by decide)) (Nat.lt_of_lt_of_le hd (by decide)) g2 g1
  refine of_cols C rfl g0 (by decide) ?_
  rw [decodeWord_40 (C.op.trans g0)]; unfold decVsfu; rw [(C.low 0 8 (by decide)).trans g3]
  simp only [(C.low 8 3 (by decide)).trans l0, C.b_all (by decide), C.d_all (Nat.lt_of_lt_of_le hd (by decide)), C.a_all (Nat.lt_of_lt_of_le ha (by decide)), idx_val, takeIf]; rfl

theorem vclmLo (d : Fin 32) (a : Fin 32) (b : Fin 32) : Statement (.vclmLo d a b) := by
  have hd := d.isLt
  have ha := a.isLt
  have hb := b.isLt
  obtain ⟨g0, g1, g2, g3, l0⟩ : fld (0xA4000300) 26 6 = 41 ∧ fld (0xA4000300) 11 15 = 0 ∧ 0xA4000300 < 2 ^ 32 ∧ fld (0xA4000300) 0 8 = 0 ∧ fld (0xA4000300) 8 3 = 3 := by decide
  have C := cols (d := d.val) (a := a.val) (b := b.val) (Nat.lt_of_lt_of_le hb (by decide)) (Nat.lt_of_lt_of_le ha (by decide)) (Nat.lt_of_lt_of_le hd (by decide)) g2 g1
  refine of_cols C rfl g0 (by decide) ?_
  rw [decodeWord_41 (C.op.trans g0)]; unfold decVclm; rw [(C.low 0 8 (by decide)).trans g3]
  simp only [(C.low 8 3 (by decide)).trans l0, C.d_all (Nat.lt_of_lt_of_le hd (by decide)), C.a_all (Nat.lt_of_lt_of_le ha (by decide)), C.b_all (Nat.lt_of_lt_of_le hb (by decide)), idx_val, takeIf]; rfl

theorem vclmHi (d : Fin 32) (a : Fin 32) (b : Fin 32) : Statement (.vclmHi d a b) := by
  have hd := d.isLt
  have ha := a.isLt
  have hb := b.isLt
  obtain ⟨g0, g1, g2, g3, l0⟩ : fld (0xA4000301) 26 6 = 41 ∧ fld (0xA4000301) 11 15 = 0 ∧ 0xA4000301 < 2 ^ 32 ∧ fld (0xA4000301) 0 8 = 1 ∧ fld (0xA4000301) 8 3 = 3 := by decide
  have C := cols (d := d.val) (a := a.val) (b := b.val) (Nat.lt_of_lt_of_le hb (by decide)) (Nat.lt_of_lt_of_le ha (by decide)) (Nat.lt_of_lt_of_le hd (by decide)) g2 g1
  refine of_cols C rfl g0 (by decide) ?_
  rw [decodeWord_41 (C.op.trans g0)]; unfold decVclm; rw [(C.low 0 8 (by decide)).trans g3]
  simp only [(C.low 8 3 (by decide)).trans l0, C.d_all (Nat.lt_of_lt_of_le hd (by decide)), C.a_all (Nat.lt_of_lt_of_le ha (by decide)), C.b_all (Nat.lt_of_lt_of_le hb (by decide)), idx_val, takeIf]; rfl

theorem vclmXlo (d : Fin 32) (a : Fin 32) (b : Fin 32) : Statement (.vclmXlo d a b) := by
  have hd := d.isLt
  have ha := a.isLt
  have hb := b.isLt
  obtain ⟨g0, g1, g2, g3, l0⟩ : fld (0xA4000302) 26 6 = 41 ∧ fld (0xA4000302) 11 15 = 0 ∧ 0xA4000302 < 2 ^ 32 ∧ fld (0xA4000302) 0 8 = 2 ∧ fld (0xA4000302) 8 3 = 3 := by decide
  have C := cols (d := d.val) (a := a.val) (b := b.val) (Nat.lt_of_lt_of_le hb (by decide)) (Nat.lt_of_lt_of_le ha (by decide)) (Nat.lt_of_lt_of_le hd (by decide)) g2 g1
  refine of_cols C rfl g0 (by decide) ?_
  rw [decodeWord_41 (C.op.trans g0)]; unfold decVclm; rw [(C.low 0 8 (by decide)).trans g3]
  simp only [(C.low 8 3 (by decide)).trans l0, C.d_all (Nat.lt_of_lt_of_le hd (by decide)), C.a_all (Nat.lt_of_lt_of_le ha (by decide)), C.b_all (Nat.lt_of_lt_of_le hb (by decide)), idx_val, takeIf]; rfl

theorem vclmXhi (d : Fin 32) (a : Fin 32) (b : Fin 32) : Statement (.vclmXhi d a b) := by
  have hd := d.isLt
  have ha := a.isLt
  have hb := b.isLt
  obtain ⟨g0, g1, g2, g3, l0⟩ : fld (0xA4000303) 26 6 = 41 ∧ fld (0xA4000303) 11 15 = 0 ∧ 0xA4000303 < 2 ^ 32 ∧ fld (0xA4000303) 0 8 = 3 ∧ fld (0xA4000303) 8 3 = 3 := by decide
  have C := cols (d := d.val) (a := a.val) (b := b.val) (Nat.lt_of_lt_of_le hb (by decide)) (Nat.lt_of_lt_of_le ha (by decide)) (Nat.lt_of_lt_of_le hd (by decide)) g2 g1
  refine of_cols C rfl g0 (by decide) ?_
  rw [decodeWord_41 (C.op.trans g0)]; unfold decVclm; rw [(C.low 0 8 (by decide)).trans g3]
  simp only [(C.low 8 3 (by decide)).trans l0, C.d_all (Nat.lt_of_lt_of_le hd (by decide)), C.a_all (Nat.lt_of_lt_of_le ha (by decide)), C.b_all (Nat.lt_of_lt_of_le hb (by decide)), idx_val, takeIf]; rfl

theorem vclmBrev (d : Fin 32) (a : Fin 32) : Statement (.vclmBrev d a) := by
  have hd := d.isLt
  have ha := a.isLt
  obtain ⟨g0, g1, g2, g3⟩ : fld (0xA4000304) 26 6 = 41 ∧ fld (0xA4000304) 11 15 = 0 ∧ 0xA4000304 < 2 ^ 32 ∧ fld (0xA4000304) 0 8 = 4 := by decide
  have C : Cols (0xA4000304 + a.val * 2 ^ 16 + d.val * 2 ^ 21) (0xA4000304) (d.val) a.val 0 := by
    simpa only [Nat.zero_mul, Nat.add_zero] using cols (d := d.val) (a := a.val) (b := 0) (by decide) (Nat.lt_of_lt_of_le ha (by decide)) (Nat.lt_of_lt_of_le hd (by decide)) g2 g1
  refine of_cols C rfl g0 (by decide) ?_
  have s0 : fld (0xA4000304 + a.val * 2 ^ 16 + d.val * 2 ^ 21) 8 8 = 3 := by simp only [fld]; omega
  rw [decodeWord_41 (C.op.trans g0)]; unfold decVclm; rw [(C.low 0 8 (by decide)).trans g3]
  simp only [C.d_all (Nat.lt_of_lt_of_le hd (by decide)), C.a_all (Nat.lt_of_lt_of_le ha (by decide)), s0, idx_val, takeIf]; rfl

theorem vselSel (d : Fin 32) (a : Fin 32) (b : Fin 32) : Statement (.vselSel d a b) := by
  have hd := d.isLt
  have ha := a.isLt
  have hb := b.isLt
  obtain ⟨g0, g1, g2, g3, l0⟩ : fld (0xA8000300) 26 6 = 42 ∧ fld (0xA8000300) 11 15 = 0 ∧ 0xA8000300 < 2 ^ 32 ∧ fld (0xA8000300) 0 8 = 0 ∧ fld (0xA8000300) 8 3 = 3 := by decide
  have C := cols (d := d.val) (a := a.val) (b := b.val) (Nat.lt_of_lt_of_le hb (by decide)) (Nat.lt_of_lt_of_le ha (by decide)) (Nat.lt_of_lt_of_le hd (by decide)) g2 g1
  refine of_cols C rfl g0 (by decide) ?_
  rw [decodeWord_42 (C.op.trans g0)]; unfold decVsel; rw [(C.low 0 8 (by decide)).trans g3]
  simp only [(C.low 8 3 (by decide)).trans l0, C.d_all (Nat.lt_of_lt_of_le hd (by decide)), C.a_all (Nat.lt_of_lt_of_le ha (by decide)), C.b_all (Nat.lt_of_lt_of_le hb (by decide)), idx_val, takeIf]; rfl

theorem vselSelz (d : Fin 32) (a : Fin 32) : Statement (.vselSelz d a) := by
  have hd := d.isLt
  have ha := a.isLt
  obtain ⟨g0, g1, g2, g3⟩ : fld (0xA8000301) 26 6 = 42 ∧ fld (0xA8000301) 11 15 = 0 ∧ 0xA8000301 < 2 ^ 32 ∧ fld (0xA8000301) 0 8 = 1 := by decide
  have C : Cols (0xA8000301 + a.val * 2 ^ 16 + d.val * 2 ^ 21) (0xA8000301) (d.val) a.val 0 := by
    simpa only [Nat.zero_mul, Nat.add_zero] using cols (d := d.val) (a := a.val) (b := 0) (by decide) (Nat.lt_of_lt_of_le ha (by decide)) (Nat.lt_of_lt_of_le hd (by decide)) g2 g1
  refine of_cols C rfl g0 (by decide) ?_
  have s0 : fld (0xA8000301 + a.val * 2 ^ 16 + d.val * 2 ^ 21) 8 8 = 3 := by simp only [fld]; omega
  rw [decodeWord_42 (C.op.trans g0)]; unfold decVsel; rw [(C.low 0 8 (by decide)).trans g3]
  simp only [C.d_all (Nat.lt_of_lt_of_le hd (by decide)), C.a_all (Nat.lt_of_lt_of_le ha (by decide)), s0, idx_val, takeIf]; rfl

theorem vsetBcast (d : Fin 32) (a : Fin 32) (t : Fin 8) : Statement (.vsetBcast d a t) := by
  have hd := d.isLt
  have ha := a.isLt
  have ht := t.isLt
  obtain ⟨g0, g1, g2, g3, l0⟩ := (by decide : ∀ (t : Fin 8), fld (0xAC000000 + t.val * 2 ^ 8) 26 6 = 43 ∧ fld (0xAC000000 + t.val * 2 ^ 8) 11 15 = 0 ∧ 0xAC000000 + t.val * 2 ^ 8 < 2 ^ 32 ∧ fld (0xAC000000 + t.val * 2 ^ 8) 0 8 = 0 ∧ fld (0xAC000000 + t.val * 2 ^ 8) 8 3 = t.val) t
  have C : Cols (0xAC000000 + t.val * 2 ^ 8 + a.val * 2 ^ 16 + d.val * 2 ^ 21) (0xAC000000 + t.val * 2 ^ 8) (d.val) a.val 0 := by
    simpa only [Nat.zero_mul, Nat.add_zero] using cols (d := d.val) (a := a.val) (b := 0) (by decide) (Nat.lt_of_lt_of_le ha (by decide)) (Nat.lt_of_lt_of_le hd (by decide)) g2 g1
  refine of_cols C rfl g0 (by decide) ?_
  rw [decodeWord_43 (C.op.trans g0)]; unfold decVset; rw [(C.low 0 8 (by decide)).trans g3]
  simp only [(C.low 8 3 (by decide)).trans l0, C.b_all (by decide), C.d_all (Nat.lt_of_lt_of_le hd (by decide)), C.a_all (Nat.lt_of_lt_of_le ha (by decide)), idx_val, takeIf]; rfl

theorem vsetIota (d : Fin 32) (t : Fin 8) : Statement (.vsetIota d t) := by
  have hd := d.isLt
  have ht := t.isLt
  obtain ⟨g0, g1, g2, g3, l0⟩ := (by decide : ∀ (t : Fin 8), fld (0xAC000001 + t.val * 2 ^ 8) 26 6 = 43 ∧ fld (0xAC000001 + t.val * 2 ^ 8) 11 15 = 0 ∧ 0xAC000001 + t.val * 2 ^ 8 < 2 ^ 32 ∧ fld (0xAC000001 + t.val * 2 ^ 8) 0 8 = 1 ∧ fld (0xAC000001 + t.val * 2 ^ 8) 8 3 = t.val) t
  have C : Cols (0xAC000001 + t.val * 2 ^ 8 + d.val * 2 ^ 21) (0xAC000001 + t.val * 2 ^ 8) (d.val) 0 0 := by
    simpa only [Nat.zero_mul, Nat.add_zero] using cols (d := d.val) (a := 0) (b := 0) (by decide) (by decide) (Nat.lt_of_lt_of_le hd (by decide)) g2 g1
  refine of_cols C rfl g0 (by decide) ?_
  have s0 : fld (0xAC000001 + t.val * 2 ^ 8 + d.val * 2 ^ 21) 11 10 = 0 := by simp only [fld]; omega
  rw [decodeWord_43 (C.op.trans g0)]; unfold decVset; rw [(C.low 0 8 (by decide)).trans g3]
  simp only [(C.low 8 3 (by decide)).trans l0, C.d_all (Nat.lt_of_lt_of_le hd (by decide)), s0, idx_val, takeIf]; rfl

theorem vsetIrow (d : Fin 32) (t : Fin 8) : Statement (.vsetIrow d t) := by
  have hd := d.isLt
  have ht := t.isLt
  obtain ⟨g0, g1, g2, g3, l0⟩ := (by decide : ∀ (t : Fin 8), fld (0xAC000002 + t.val * 2 ^ 8) 26 6 = 43 ∧ fld (0xAC000002 + t.val * 2 ^ 8) 11 15 = 0 ∧ 0xAC000002 + t.val * 2 ^ 8 < 2 ^ 32 ∧ fld (0xAC000002 + t.val * 2 ^ 8) 0 8 = 2 ∧ fld (0xAC000002 + t.val * 2 ^ 8) 8 3 = t.val) t
  have C : Cols (0xAC000002 + t.val * 2 ^ 8 + d.val * 2 ^ 21) (0xAC000002 + t.val * 2 ^ 8) (d.val) 0 0 := by
    simpa only [Nat.zero_mul, Nat.add_zero] using cols (d := d.val) (a := 0) (b := 0) (by decide) (by decide) (Nat.lt_of_lt_of_le hd (by decide)) g2 g1
  refine of_cols C rfl g0 (by decide) ?_
  have s0 : fld (0xAC000002 + t.val * 2 ^ 8 + d.val * 2 ^ 21) 11 10 = 0 := by simp only [fld]; omega
  rw [decodeWord_43 (C.op.trans g0)]; unfold decVset; rw [(C.low 0 8 (by decide)).trans g3]
  simp only [(C.low 8 3 (by decide)).trans l0, C.d_all (Nat.lt_of_lt_of_le hd (by decide)), s0, idx_val, takeIf]; rfl

theorem vsetIcol (d : Fin 32) (t : Fin 8) : Statement (.vsetIcol d t) := by
  have hd := d.isLt
  have ht := t.isLt
  obtain ⟨g0, g1, g2, g3, l0⟩ := (by decide : ∀ (t : Fin 8), fld (0xAC000003 + t.val * 2 ^ 8) 26 6 = 43 ∧ fld (0xAC000003 + t.val * 2 ^ 8) 11 15 = 0 ∧ 0xAC000003 + t.val * 2 ^ 8 < 2 ^ 32 ∧ fld (0xAC000003 + t.val * 2 ^ 8) 0 8 = 3 ∧ fld (0xAC000003 + t.val * 2 ^ 8) 8 3 = t.val) t
  have C : Cols (0xAC000003 + t.val * 2 ^ 8 + d.val * 2 ^ 21) (0xAC000003 + t.val * 2 ^ 8) (d.val) 0 0 := by
    simpa only [Nat.zero_mul, Nat.add_zero] using cols (d := d.val) (a := 0) (b := 0) (by decide) (by decide) (Nat.lt_of_lt_of_le hd (by decide)) g2 g1
  refine of_cols C rfl g0 (by decide) ?_
  have s0 : fld (0xAC000003 + t.val * 2 ^ 8 + d.val * 2 ^ 21) 11 10 = 0 := by simp only [fld]; omega
  rw [decodeWord_43 (C.op.trans g0)]; unfold decVset; rw [(C.low 0 8 (by decide)).trans g3]
  simp only [(C.low 8 3 (by decide)).trans l0, C.d_all (Nat.lt_of_lt_of_le hd (by decide)), s0, idx_val, takeIf]; rfl

theorem vsetGet (d : Fin 32) (a : Fin 32) (b : Fin 32) : Statement (.vsetGet d a b) := by
  have hd := d.isLt
  have ha := a.isLt
  have hb := b.isLt
  obtain ⟨g0, g1, g2, g3, l0⟩ : fld (0xAC000304) 26 6 = 43 ∧ fld (0xAC000304) 11 15 = 0 ∧ 0xAC000304 < 2 ^ 32 ∧ fld (0xAC000304) 0 8 = 4 ∧ fld (0xAC000304) 8 3 = 3 := by decide
  have C := cols (d := d.val) (a := a.val) (b := b.val) (Nat.lt_of_lt_of_le hb (by decide)) (Nat.lt_of_lt_of_le ha (by decide)) (Nat.lt_of_lt_of_le hd (by decide)) g2 g1
  refine of_cols C rfl g0 (by decide) ?_
  rw [decodeWord_43 (C.op.trans g0)]; unfold decVset; rw [(C.low 0 8 (by decide)).trans g3]
  simp only [(C.low 8 3 (by decide)).trans l0, C.d_all (Nat.lt_of_lt_of_le hd (by decide)), C.a_all (Nat.lt_of_lt_of_le ha (by decide)), C.b_all (Nat.lt_of_lt_of_le hb (by decide)), idx_val, takeIf]; rfl

theorem vsetPut (d : Fin 32) (a : Fin 32) (b : Fin 32) : Statement (.vsetPut d a b) := by
  have hd := d.isLt
  have ha := a.isLt
  have hb := b.isLt
  obtain ⟨g0, g1, g2, g3, l0⟩ : fld (0xAC000305) 26 6 = 43 ∧ fld (0xAC000305) 11 15 = 0 ∧ 0xAC000305 < 2 ^ 32 ∧ fld (0xAC000305) 0 8 = 5 ∧ fld (0xAC000305) 8 3 = 3 := by decide
  have C := cols (d := d.val) (a := a.val) (b := b.val) (Nat.lt_of_lt_of_le hb (by decide)) (Nat.lt_of_lt_of_le ha (by decide)) (Nat.lt_of_lt_of_le hd (by decide)) g2 g1
  refine of_cols C rfl g0 (by decide) ?_
  rw [decodeWord_43 (C.op.trans g0)]; unfold decVset; rw [(C.low 0 8 (by decide)).trans g3]
  simp only [(C.low 8 3 (by decide)).trans l0, C.d_all (Nat.lt_of_lt_of_le hd (by decide)), C.a_all (Nat.lt_of_lt_of_le ha (by decide)), C.b_all (Nat.lt_of_lt_of_le hb (by decide)), idx_val, takeIf]; rfl

theorem proofRun (a : Fin 32) (g : Bool) : Statement (.proofRun a g) := by
  have ha := a.isLt
  have hg := Bool.toNat_lt g
  obtain ⟨g0, g1, g2, g3, l0, l1⟩ := (by decide : ∀ (g : Bool), fld (0xE0000000 + g.toNat * 2 ^ 8) 26 6 = 56 ∧ fld (0xE0000000 + g.toNat * 2 ^ 8) 11 15 = 0 ∧ 0xE0000000 + g.toNat * 2 ^ 8 < 2 ^ 32 ∧ fld (0xE0000000 + g.toNat * 2 ^ 8) 0 5 = 0 ∧ fld (0xE0000000 + g.toNat * 2 ^ 8) 5 3 = 0 ∧ fld (0xE0000000 + g.toNat * 2 ^ 8) 8 1 = g.toNat) g
  have C := cols_a (a := a.val) (Nat.lt_of_lt_of_le ha (by decide)) g2 g1
  refine of_cols C rfl g0 (by decide) ?_
  have s0 : fld (0xE0000000 + g.toNat * 2 ^ 8 + a.val * 2 ^ 16) 9 7 = 0 := by simp only [fld]; omega
  rw [decodeWord_56 (C.op.trans g0)]; unfold decProof; rw [(C.low 0 5 (by decide)).trans g3]
  simp only [(C.low 5 3 (by decide)).trans l0, (C.low 8 1 (by decide)).trans l1, C.d_all (by decide), C.a_all (Nat.lt_of_lt_of_le ha (by decide)), s0, idx_val, toNat_eq_one, takeIf]; rfl

theorem ptabRd (d : Fin 32) (a : Fin 32) (b : Fin 32) : Statement (.ptabRd d a b) := by
  have hd := d.isLt
  have ha := a.isLt
  have hb := b.isLt
  obtain ⟨g0, g1, g2, g3, l0⟩ : fld (0xE4000000) 26 6 = 57 ∧ fld (0xE4000000) 11 15 = 0 ∧ 0xE4000000 < 2 ^ 32 ∧ fld (0xE4000000) 0 5 = 0 ∧ fld (0xE4000000) 5 6 = 0 := by decide
  have C := cols (d := d.val) (a := a.val) (b := b.val) (Nat.lt_of_lt_of_le hb (by decide)) (Nat.lt_of_lt_of_le ha (by decide)) (Nat.lt_of_lt_of_le hd (by decide)) g2 g1
  refine of_cols C rfl g0 (by decide) ?_
  rw [decodeWord_57 (C.op.trans g0)]; unfold decPtab; rw [(C.low 0 5 (by decide)).trans g3]
  simp only [(C.low 5 6 (by decide)).trans l0, C.d_all (Nat.lt_of_lt_of_le hd (by decide)), C.a_all (Nat.lt_of_lt_of_le ha (by decide)), C.b_all (Nat.lt_of_lt_of_le hb (by decide)), idx_val, takeIf]; rfl

theorem ptabWr (d : Fin 32) (a : Fin 32) (b : Fin 32) : Statement (.ptabWr d a b) := by
  have hd := d.isLt
  have ha := a.isLt
  have hb := b.isLt
  obtain ⟨g0, g1, g2, g3, l0⟩ : fld (0xE4000001) 26 6 = 57 ∧ fld (0xE4000001) 11 15 = 0 ∧ 0xE4000001 < 2 ^ 32 ∧ fld (0xE4000001) 0 5 = 1 ∧ fld (0xE4000001) 5 6 = 0 := by decide
  have C := cols (d := d.val) (a := a.val) (b := b.val) (Nat.lt_of_lt_of_le hb (by decide)) (Nat.lt_of_lt_of_le ha (by decide)) (Nat.lt_of_lt_of_le hd (by decide)) g2 g1
  refine of_cols C rfl g0 (by decide) ?_
  rw [decodeWord_57 (C.op.trans g0)]; unfold decPtab; rw [(C.low 0 5 (by decide)).trans g3]
  simp only [(C.low 5 6 (by decide)).trans l0, C.d_all (Nat.lt_of_lt_of_le hd (by decide)), C.a_all (Nat.lt_of_lt_of_le ha (by decide)), C.b_all (Nat.lt_of_lt_of_le hb (by decide)), idx_val, takeIf]; rfl

theorem ptabHrd (d : Fin 32) (a : Fin 32) (b : Fin 32) : Statement (.ptabHrd d a b) := by
  have hd := d.isLt
  have ha := a.isLt
  have hb := b.isLt
  obtain ⟨g0, g1, g2, g3, l0⟩ : fld (0xE4000002) 26 6 = 57 ∧ fld (0xE4000002) 11 15 = 0 ∧ 0xE4000002 < 2 ^ 32 ∧ fld (0xE4000002) 0 5 = 2 ∧ fld (0xE4000002) 5 6 = 0 := by decide
  have C := cols (d := d.val) (a := a.val) (b := b.val) (Nat.lt_of_lt_of_le hb (by decide)) (Nat.lt_of_lt_of_le ha (by decide)) (Nat.lt_of_lt_of_le hd (by decide)) g2 g1
  refine of_cols C rfl g0 (by decide) ?_
  rw [decodeWord_57 (C.op.trans g0)]; unfold decPtab; rw [(C.low 0 5 (by decide)).trans g3]
  simp only [(C.low 5 6 (by decide)).trans l0, C.d_all (Nat.lt_of_lt_of_le hd (by decide)), C.a_all (Nat.lt_of_lt_of_le ha (by decide)), C.b_all (Nat.lt_of_lt_of_le hb (by decide)), idx_val, takeIf]; rfl

theorem ptabHwr (d : Fin 32) (a : Fin 32) (b : Fin 32) : Statement (.ptabHwr d a b) := by
  have hd := d.isLt
  have ha := a.isLt
  have hb := b.isLt
  obtain ⟨g0, g1, g2, g3, l0⟩ : fld (0xE4000003) 26 6 = 57 ∧ fld (0xE4000003) 11 15 = 0 ∧ 0xE4000003 < 2 ^ 32 ∧ fld (0xE4000003) 0 5 = 3 ∧ fld (0xE4000003) 5 6 = 0 := by decide
  have C := cols (d := d.val) (a := a.val) (b := b.val) (Nat.lt_of_lt_of_le hb (by decide)) (Nat.lt_of_lt_of_le ha (by decide)) (Nat.lt_of_lt_of_le hd (by decide)) g2 g1
  refine of_cols C rfl g0 (by decide) ?_
  rw [decodeWord_57 (C.op.trans g0)]; unfold decPtab; rw [(C.low 0 5 (by decide)).trans g3]
  simp only [(C.low 5 6 (by decide)).trans l0, C.d_all (Nat.lt_of_lt_of_le hd (by decide)), C.a_all (Nat.lt_of_lt_of_le ha (by decide)), C.b_all (Nat.lt_of_lt_of_le hb (by decide)), idx_val, takeIf]; rfl

theorem ptabCrd (d : Fin 32) (a : Fin 32) (b : Fin 32) : Statement (.ptabCrd d a b) := by
  have hd := d.isLt
  have ha := a.isLt
  have hb := b.isLt
  obtain ⟨g0, g1, g2, g3, l0⟩ : fld (0xE4000004) 26 6 = 57 ∧ fld (0xE4000004) 11 15 = 0 ∧ 0xE4000004 < 2 ^ 32 ∧ fld (0xE4000004) 0 5 = 4 ∧ fld (0xE4000004) 5 6 = 0 := by decide
  have C := cols (d := d.val) (a := a.val) (b := b.val) (Nat.lt_of_lt_of_le hb (by decide)) (Nat.lt_of_lt_of_le ha (by decide)) (Nat.lt_of_lt_of_le hd (by decide)) g2 g1
  refine of_cols C rfl g0 (by decide) ?_
  rw [decodeWord_57 (C.op.trans g0)]; unfold decPtab; rw [(C.low 0 5 (by decide)).trans g3]
  simp only [(C.low 5 6 (by decide)).trans l0, C.d_all (Nat.lt_of_lt_of_le hd (by decide)), C.a_all (Nat.lt_of_lt_of_le ha (by decide)), C.b_all (Nat.lt_of_lt_of_le hb (by decide)), idx_val, takeIf]; rfl

theorem ptabClr (a : Fin 32) (b : Fin 32) : Statement (.ptabClr a b) := by
  have ha := a.isLt
  have hb := b.isLt
  obtain ⟨g0, g1, g2, g3, l0⟩ : fld (0xE4000005) 26 6 = 57 ∧ fld (0xE4000005) 11 15 = 0 ∧ 0xE4000005 < 2 ^ 32 ∧ fld (0xE4000005) 0 5 = 5 ∧ fld (0xE4000005) 5 6 = 0 := by decide
  have C := cols_ab (a := a.val) (b := b.val) (Nat.lt_of_lt_of_le hb (by decide)) (Nat.lt_of_lt_of_le ha (by decide)) g2 g1
  refine of_cols C rfl g0 (by decide) ?_
  rw [decodeWord_57 (C.op.trans g0)]; unfold decPtab; rw [(C.low 0 5 (by decide)).trans g3]
  simp only [(C.low 5 6 (by decide)).trans l0, C.d_all (by decide), C.a_all (Nat.lt_of_lt_of_le ha (by decide)), C.b_all (Nat.lt_of_lt_of_le hb (by decide)), idx_val, takeIf]; rfl

theorem creelCfg (a : Fin 32) (b : Fin 32) : Statement (.creelCfg a b) := by
  have ha := a.isLt
  have hb := b.isLt
  obtain ⟨g0, g1, g2, g3, l0⟩ : fld (0xE8000000) 26 6 = 58 ∧ fld (0xE8000000) 11 15 = 0 ∧ 0xE8000000 < 2 ^ 32 ∧ fld (0xE8000000) 0 5 = 0 ∧ fld (0xE8000000) 5 6 = 0 := by decide
  have C := cols_ab (a := a.val) (b := b.val) (Nat.lt_of_lt_of_le hb (by decide)) (Nat.lt_of_lt_of_le ha (by decide)) g2 g1
  refine of_cols C rfl g0 (by decide) ?_
  rw [decodeWord_58 (C.op.trans g0)]; unfold decCreel; rw [(C.low 0 5 (by decide)).trans g3]
  simp only [(C.low 5 6 (by decide)).trans l0, C.d_all (by decide), C.a_all (Nat.lt_of_lt_of_le ha (by decide)), C.b_all (Nat.lt_of_lt_of_le hb (by decide)), idx_val, takeIf]; rfl

theorem creelBias (a : Fin 32) (b : Fin 32) : Statement (.creelBias a b) := by
  have ha := a.isLt
  have hb := b.isLt
  obtain ⟨g0, g1, g2, g3, l0⟩ : fld (0xE8000001) 26 6 = 58 ∧ fld (0xE8000001) 11 15 = 0 ∧ 0xE8000001 < 2 ^ 32 ∧ fld (0xE8000001) 0 5 = 1 ∧ fld (0xE8000001) 5 6 = 0 := by decide
  have C := cols_ab (a := a.val) (b := b.val) (Nat.lt_of_lt_of_le hb (by decide)) (Nat.lt_of_lt_of_le ha (by decide)) g2 g1
  refine of_cols C rfl g0 (by decide) ?_
  rw [decodeWord_58 (C.op.trans g0)]; unfold decCreel; rw [(C.low 0 5 (by decide)).trans g3]
  simp only [(C.low 5 6 (by decide)).trans l0, C.d_all (by decide), C.a_all (Nat.lt_of_lt_of_le ha (by decide)), C.b_all (Nat.lt_of_lt_of_le hb (by decide)), idx_val, takeIf]; rfl

theorem creelOffer (d : Fin 32) (a : Fin 32) (b : Fin 32) : Statement (.creelOffer d a b) := by
  have hd := d.isLt
  have ha := a.isLt
  have hb := b.isLt
  obtain ⟨g0, g1, g2, g3, l0⟩ : fld (0xE8000002) 26 6 = 58 ∧ fld (0xE8000002) 11 15 = 0 ∧ 0xE8000002 < 2 ^ 32 ∧ fld (0xE8000002) 0 5 = 2 ∧ fld (0xE8000002) 5 6 = 0 := by decide
  have C := cols (d := d.val) (a := a.val) (b := b.val) (Nat.lt_of_lt_of_le hb (by decide)) (Nat.lt_of_lt_of_le ha (by decide)) (Nat.lt_of_lt_of_le hd (by decide)) g2 g1
  refine of_cols C rfl g0 (by decide) ?_
  rw [decodeWord_58 (C.op.trans g0)]; unfold decCreel; rw [(C.low 0 5 (by decide)).trans g3]
  simp only [(C.low 5 6 (by decide)).trans l0, C.d_all (Nat.lt_of_lt_of_le hd (by decide)), C.a_all (Nat.lt_of_lt_of_le ha (by decide)), C.b_all (Nat.lt_of_lt_of_le hb (by decide)), idx_val, takeIf]; rfl

theorem creelDrain (d : Fin 32) (a : Fin 32) (b : Fin 32) : Statement (.creelDrain d a b) := by
  have hd := d.isLt
  have ha := a.isLt
  have hb := b.isLt
  obtain ⟨g0, g1, g2, g3, l0⟩ : fld (0xE8000003) 26 6 = 58 ∧ fld (0xE8000003) 11 15 = 0 ∧ 0xE8000003 < 2 ^ 32 ∧ fld (0xE8000003) 0 5 = 3 ∧ fld (0xE8000003) 5 6 = 0 := by decide
  have C := cols (d := d.val) (a := a.val) (b := b.val) (Nat.lt_of_lt_of_le hb (by decide)) (Nat.lt_of_lt_of_le ha (by decide)) (Nat.lt_of_lt_of_le hd (by decide)) g2 g1
  refine of_cols C rfl g0 (by decide) ?_
  rw [decodeWord_58 (C.op.trans g0)]; unfold decCreel; rw [(C.low 0 5 (by decide)).trans g3]
  simp only [(C.low 5 6 (by decide)).trans l0, C.d_all (Nat.lt_of_lt_of_le hd (by decide)), C.a_all (Nat.lt_of_lt_of_le ha (by decide)), C.b_all (Nat.lt_of_lt_of_le hb (by decide)), idx_val, takeIf]; rfl

theorem creelRd (d : Fin 32) (a : Fin 32) : Statement (.creelRd d a) := by
  have hd := d.isLt
  have ha := a.isLt
  obtain ⟨g0, g1, g2, g3⟩ : fld (0xE8000004) 26 6 = 58 ∧ fld (0xE8000004) 11 15 = 0 ∧ 0xE8000004 < 2 ^ 32 ∧ fld (0xE8000004) 0 5 = 4 := by decide
  have C : Cols (0xE8000004 + a.val * 2 ^ 16 + d.val * 2 ^ 21) (0xE8000004) (d.val) a.val 0 := by
    simpa only [Nat.zero_mul, Nat.add_zero] using cols (d := d.val) (a := a.val) (b := 0) (by decide) (Nat.lt_of_lt_of_le ha (by decide)) (Nat.lt_of_lt_of_le hd (by decide)) g2 g1
  refine of_cols C rfl g0 (by decide) ?_
  have s0 : fld (0xE8000004 + a.val * 2 ^ 16 + d.val * 2 ^ 21) 5 11 = 0 := by simp only [fld]; omega
  rw [decodeWord_58 (C.op.trans g0)]; unfold decCreel; rw [(C.low 0 5 (by decide)).trans g3]
  simp only [C.d_all (Nat.lt_of_lt_of_le hd (by decide)), C.a_all (Nat.lt_of_lt_of_le ha (by decide)), s0, idx_val, takeIf]; rfl

theorem routeTopk (d : Fin 32) (a : Fin 32) (b : Fin 32) (n : Fin 4) (k : Fin 8) : Statement (.routeTopk d a b n k) := by
  have hd := d.isLt
  have ha := a.isLt
  have hb := b.isLt
  have hn := n.isLt
  have hk := k.isLt
  obtain ⟨g0, g1, g2, g3, l0, l1, l2⟩ := (by decide : ∀ (n : Fin 4) (k : Fin 8), fld (0xEC000000 + k.val * 2 ^ 6 + n.val * 2 ^ 9) 26 6 = 59 ∧ fld (0xEC000000 + k.val * 2 ^ 6 + n.val * 2 ^ 9) 11 15 = 0 ∧ 0xEC000000 + k.val * 2 ^ 6 + n.val * 2 ^ 9 < 2 ^ 32 ∧ fld (0xEC000000 + k.val * 2 ^ 6 + n.val * 2 ^ 9) 0 5 = 0 ∧ fld (0xEC000000 + k.val * 2 ^ 6 + n.val * 2 ^ 9) 5 1 = 0 ∧ fld (0xEC000000 + k.val * 2 ^ 6 + n.val * 2 ^ 9) 9 2 = n.val ∧ fld (0xEC000000 + k.val * 2 ^ 6 + n.val * 2 ^ 9) 6 3 = k.val) n k
  have C := cols (d := d.val) (a := a.val) (b := b.val) (Nat.lt_of_lt_of_le hb (by decide)) (Nat.lt_of_lt_of_le ha (by decide)) (Nat.lt_of_lt_of_le hd (by decide)) g2 g1
  refine of_cols C rfl g0 (by decide) ?_
  rw [decodeWord_59 (C.op.trans g0)]; unfold decRoute; rw [(C.low 0 5 (by decide)).trans g3]
  simp only [(C.low 5 1 (by decide)).trans l0, (C.low 9 2 (by decide)).trans l1, (C.low 6 3 (by decide)).trans l2, C.d_all (Nat.lt_of_lt_of_le hd (by decide)), C.a_all (Nat.lt_of_lt_of_le ha (by decide)), C.b_all (Nat.lt_of_lt_of_le hb (by decide)), idx_val, takeIf]; rfl

theorem nmaAddI32 (d : Fin 32) (a : Fin 32) (b : Fin 32) : Statement (.nmaAddI32 d a b) := by
  have hd := d.isLt
  have ha := a.isLt
  have hb := b.isLt
  obtain ⟨g0, g1, g2, g3, l0⟩ : fld (0xF0000000) 26 6 = 60 ∧ fld (0xF0000000) 11 15 = 0 ∧ 0xF0000000 < 2 ^ 32 ∧ fld (0xF0000000) 0 5 = 0 ∧ fld (0xF0000000) 5 6 = 0 := by decide
  have C := cols (d := d.val) (a := a.val) (b := b.val) (Nat.lt_of_lt_of_le hb (by decide)) (Nat.lt_of_lt_of_le ha (by decide)) (Nat.lt_of_lt_of_le hd (by decide)) g2 g1
  refine of_cols C rfl g0 (by decide) ?_
  rw [decodeWord_60 (C.op.trans g0)]; unfold decNma; rw [(C.low 0 5 (by decide)).trans g3]
  simp only [(C.low 5 6 (by decide)).trans l0, C.d_all (Nat.lt_of_lt_of_le hd (by decide)), C.a_all (Nat.lt_of_lt_of_le ha (by decide)), C.b_all (Nat.lt_of_lt_of_le hb (by decide)), idx_val, takeIf]; rfl

theorem nmaMinI32 (d : Fin 32) (a : Fin 32) (b : Fin 32) (u : Bool) : Statement (.nmaMinI32 d a b u) := by
  have hd := d.isLt
  have ha := a.isLt
  have hb := b.isLt
  have hu := Bool.toNat_lt u
  obtain ⟨g0, g1, g2, g3, l0, l1, l2⟩ := (by decide : ∀ (u : Bool), fld (0xF0000001 + u.toNat * 2 ^ 6) 26 6 = 60 ∧ fld (0xF0000001 + u.toNat * 2 ^ 6) 11 15 = 0 ∧ 0xF0000001 + u.toNat * 2 ^ 6 < 2 ^ 32 ∧ fld (0xF0000001 + u.toNat * 2 ^ 6) 0 5 = 1 ∧ fld (0xF0000001 + u.toNat * 2 ^ 6) 5 1 = 0 ∧ fld (0xF0000001 + u.toNat * 2 ^ 6) 7 4 = 0 ∧ fld (0xF0000001 + u.toNat * 2 ^ 6) 6 1 = u.toNat) u
  have C := cols (d := d.val) (a := a.val) (b := b.val) (Nat.lt_of_lt_of_le hb (by decide)) (Nat.lt_of_lt_of_le ha (by decide)) (Nat.lt_of_lt_of_le hd (by decide)) g2 g1
  refine of_cols C rfl g0 (by decide) ?_
  rw [decodeWord_60 (C.op.trans g0)]; unfold decNma; rw [(C.low 0 5 (by decide)).trans g3]
  simp only [(C.low 5 1 (by decide)).trans l0, (C.low 7 4 (by decide)).trans l1, (C.low 6 1 (by decide)).trans l2, C.d_all (Nat.lt_of_lt_of_le hd (by decide)), C.a_all (Nat.lt_of_lt_of_le ha (by decide)), C.b_all (Nat.lt_of_lt_of_le hb (by decide)), idx_val, toNat_eq_one, takeIf]; rfl

theorem nmaMaxI32 (d : Fin 32) (a : Fin 32) (b : Fin 32) (u : Bool) : Statement (.nmaMaxI32 d a b u) := by
  have hd := d.isLt
  have ha := a.isLt
  have hb := b.isLt
  have hu := Bool.toNat_lt u
  obtain ⟨g0, g1, g2, g3, l0, l1, l2⟩ := (by decide : ∀ (u : Bool), fld (0xF0000002 + u.toNat * 2 ^ 6) 26 6 = 60 ∧ fld (0xF0000002 + u.toNat * 2 ^ 6) 11 15 = 0 ∧ 0xF0000002 + u.toNat * 2 ^ 6 < 2 ^ 32 ∧ fld (0xF0000002 + u.toNat * 2 ^ 6) 0 5 = 2 ∧ fld (0xF0000002 + u.toNat * 2 ^ 6) 5 1 = 0 ∧ fld (0xF0000002 + u.toNat * 2 ^ 6) 7 4 = 0 ∧ fld (0xF0000002 + u.toNat * 2 ^ 6) 6 1 = u.toNat) u
  have C := cols (d := d.val) (a := a.val) (b := b.val) (Nat.lt_of_lt_of_le hb (by decide)) (Nat.lt_of_lt_of_le ha (by decide)) (Nat.lt_of_lt_of_le hd (by decide)) g2 g1
  refine of_cols C rfl g0 (by decide) ?_
  rw [decodeWord_60 (C.op.trans g0)]; unfold decNma; rw [(C.low 0 5 (by decide)).trans g3]
  simp only [(C.low 5 1 (by decide)).trans l0, (C.low 7 4 (by decide)).trans l1, (C.low 6 1 (by decide)).trans l2, C.d_all (Nat.lt_of_lt_of_le hd (by decide)), C.a_all (Nat.lt_of_lt_of_le ha (by decide)), C.b_all (Nat.lt_of_lt_of_le hb (by decide)), idx_val, toNat_eq_one, takeIf]; rfl

theorem nmaAndI32 (d : Fin 32) (a : Fin 32) (b : Fin 32) : Statement (.nmaAndI32 d a b) := by
  have hd := d.isLt
  have ha := a.isLt
  have hb := b.isLt
  obtain ⟨g0, g1, g2, g3, l0⟩ : fld (0xF0000003) 26 6 = 60 ∧ fld (0xF0000003) 11 15 = 0 ∧ 0xF0000003 < 2 ^ 32 ∧ fld (0xF0000003) 0 5 = 3 ∧ fld (0xF0000003) 5 6 = 0 := by decide
  have C := cols (d := d.val) (a := a.val) (b := b.val) (Nat.lt_of_lt_of_le hb (by decide)) (Nat.lt_of_lt_of_le ha (by decide)) (Nat.lt_of_lt_of_le hd (by decide)) g2 g1
  refine of_cols C rfl g0 (by decide) ?_
  rw [decodeWord_60 (C.op.trans g0)]; unfold decNma; rw [(C.low 0 5 (by decide)).trans g3]
  simp only [(C.low 5 6 (by decide)).trans l0, C.d_all (Nat.lt_of_lt_of_le hd (by decide)), C.a_all (Nat.lt_of_lt_of_le ha (by decide)), C.b_all (Nat.lt_of_lt_of_le hb (by decide)), idx_val, takeIf]; rfl

theorem nmaOrI32 (d : Fin 32) (a : Fin 32) (b : Fin 32) : Statement (.nmaOrI32 d a b) := by
  have hd := d.isLt
  have ha := a.isLt
  have hb := b.isLt
  obtain ⟨g0, g1, g2, g3, l0⟩ : fld (0xF0000004) 26 6 = 60 ∧ fld (0xF0000004) 11 15 = 0 ∧ 0xF0000004 < 2 ^ 32 ∧ fld (0xF0000004) 0 5 = 4 ∧ fld (0xF0000004) 5 6 = 0 := by decide
  have C := cols (d := d.val) (a := a.val) (b := b.val) (Nat.lt_of_lt_of_le hb (by decide)) (Nat.lt_of_lt_of_le ha (by decide)) (Nat.lt_of_lt_of_le hd (by decide)) g2 g1
  refine of_cols C rfl g0 (by decide) ?_
  rw [decodeWord_60 (C.op.trans g0)]; unfold decNma; rw [(C.low 0 5 (by decide)).trans g3]
  simp only [(C.low 5 6 (by decide)).trans l0, C.d_all (Nat.lt_of_lt_of_le hd (by decide)), C.a_all (Nat.lt_of_lt_of_le ha (by decide)), C.b_all (Nat.lt_of_lt_of_le hb (by decide)), idx_val, takeIf]; rfl

theorem nmaXorI32 (d : Fin 32) (a : Fin 32) (b : Fin 32) : Statement (.nmaXorI32 d a b) := by
  have hd := d.isLt
  have ha := a.isLt
  have hb := b.isLt
  obtain ⟨g0, g1, g2, g3, l0⟩ : fld (0xF0000005) 26 6 = 60 ∧ fld (0xF0000005) 11 15 = 0 ∧ 0xF0000005 < 2 ^ 32 ∧ fld (0xF0000005) 0 5 = 5 ∧ fld (0xF0000005) 5 6 = 0 := by decide
  have C := cols (d := d.val) (a := a.val) (b := b.val) (Nat.lt_of_lt_of_le hb (by decide)) (Nat.lt_of_lt_of_le ha (by decide)) (Nat.lt_of_lt_of_le hd (by decide)) g2 g1
  refine of_cols C rfl g0 (by decide) ?_
  rw [decodeWord_60 (C.op.trans g0)]; unfold decNma; rw [(C.low 0 5 (by decide)).trans g3]
  simp only [(C.low 5 6 (by decide)).trans l0, C.d_all (Nat.lt_of_lt_of_le hd (by decide)), C.a_all (Nat.lt_of_lt_of_le ha (by decide)), C.b_all (Nat.lt_of_lt_of_le hb (by decide)), idx_val, takeIf]; rfl

theorem nmaSwapI32 (d : Fin 32) (a : Fin 32) (b : Fin 32) : Statement (.nmaSwapI32 d a b) := by
  have hd := d.isLt
  have ha := a.isLt
  have hb := b.isLt
  obtain ⟨g0, g1, g2, g3, l0⟩ : fld (0xF0000006) 26 6 = 60 ∧ fld (0xF0000006) 11 15 = 0 ∧ 0xF0000006 < 2 ^ 32 ∧ fld (0xF0000006) 0 5 = 6 ∧ fld (0xF0000006) 5 6 = 0 := by decide
  have C := cols (d := d.val) (a := a.val) (b := b.val) (Nat.lt_of_lt_of_le hb (by decide)) (Nat.lt_of_lt_of_le ha (by decide)) (Nat.lt_of_lt_of_le hd (by decide)) g2 g1
  refine of_cols C rfl g0 (by decide) ?_
  rw [decodeWord_60 (C.op.trans g0)]; unfold decNma; rw [(C.low 0 5 (by decide)).trans g3]
  simp only [(C.low 5 6 (by decide)).trans l0, C.d_all (Nat.lt_of_lt_of_le hd (by decide)), C.a_all (Nat.lt_of_lt_of_le ha (by decide)), C.b_all (Nat.lt_of_lt_of_le hb (by decide)), idx_val, takeIf]; rfl

theorem nmaCasI32 (d : Fin 32) (a : Fin 32) (b : Fin 32) : Statement (.nmaCasI32 d a b) := by
  have hd := d.isLt
  have ha := a.isLt
  have hb := b.isLt
  obtain ⟨g0, g1, g2, g3, l0⟩ : fld (0xF0000007) 26 6 = 60 ∧ fld (0xF0000007) 11 15 = 0 ∧ 0xF0000007 < 2 ^ 32 ∧ fld (0xF0000007) 0 5 = 7 ∧ fld (0xF0000007) 5 6 = 0 := by decide
  have C := cols (d := d.val) (a := a.val) (b := b.val) (Nat.lt_of_lt_of_le hb (by decide)) (Nat.lt_of_lt_of_le ha (by decide)) (Nat.lt_of_lt_of_le hd (by decide)) g2 g1
  refine of_cols C rfl g0 (by decide) ?_
  rw [decodeWord_60 (C.op.trans g0)]; unfold decNma; rw [(C.low 0 5 (by decide)).trans g3]
  simp only [(C.low 5 6 (by decide)).trans l0, C.d_all (Nat.lt_of_lt_of_le hd (by decide)), C.a_all (Nat.lt_of_lt_of_le ha (by decide)), C.b_all (Nat.lt_of_lt_of_le hb (by decide)), idx_val, takeIf]; rfl

theorem nmaAddI64 (d : Fin 32) (a : Fin 32) (b : Fin 32) : Statement (.nmaAddI64 d a b) := by
  have hd := d.isLt
  have ha := a.isLt
  have hb := b.isLt
  obtain ⟨g0, g1, g2, g3, l0⟩ : fld (0xF0000008) 26 6 = 60 ∧ fld (0xF0000008) 11 15 = 0 ∧ 0xF0000008 < 2 ^ 32 ∧ fld (0xF0000008) 0 5 = 8 ∧ fld (0xF0000008) 5 6 = 0 := by decide
  have C := cols (d := d.val) (a := a.val) (b := b.val) (Nat.lt_of_lt_of_le hb (by decide)) (Nat.lt_of_lt_of_le ha (by decide)) (Nat.lt_of_lt_of_le hd (by decide)) g2 g1
  refine of_cols C rfl g0 (by decide) ?_
  rw [decodeWord_60 (C.op.trans g0)]; unfold decNma; rw [(C.low 0 5 (by decide)).trans g3]
  simp only [(C.low 5 6 (by decide)).trans l0, C.d_all (Nat.lt_of_lt_of_le hd (by decide)), C.a_all (Nat.lt_of_lt_of_le ha (by decide)), C.b_all (Nat.lt_of_lt_of_le hb (by decide)), idx_val, takeIf]; rfl

theorem nmaMinI64 (d : Fin 32) (a : Fin 32) (b : Fin 32) (u : Bool) : Statement (.nmaMinI64 d a b u) := by
  have hd := d.isLt
  have ha := a.isLt
  have hb := b.isLt
  have hu := Bool.toNat_lt u
  obtain ⟨g0, g1, g2, g3, l0, l1, l2⟩ := (by decide : ∀ (u : Bool), fld (0xF0000009 + u.toNat * 2 ^ 6) 26 6 = 60 ∧ fld (0xF0000009 + u.toNat * 2 ^ 6) 11 15 = 0 ∧ 0xF0000009 + u.toNat * 2 ^ 6 < 2 ^ 32 ∧ fld (0xF0000009 + u.toNat * 2 ^ 6) 0 5 = 9 ∧ fld (0xF0000009 + u.toNat * 2 ^ 6) 5 1 = 0 ∧ fld (0xF0000009 + u.toNat * 2 ^ 6) 7 4 = 0 ∧ fld (0xF0000009 + u.toNat * 2 ^ 6) 6 1 = u.toNat) u
  have C := cols (d := d.val) (a := a.val) (b := b.val) (Nat.lt_of_lt_of_le hb (by decide)) (Nat.lt_of_lt_of_le ha (by decide)) (Nat.lt_of_lt_of_le hd (by decide)) g2 g1
  refine of_cols C rfl g0 (by decide) ?_
  rw [decodeWord_60 (C.op.trans g0)]; unfold decNma; rw [(C.low 0 5 (by decide)).trans g3]
  simp only [(C.low 5 1 (by decide)).trans l0, (C.low 7 4 (by decide)).trans l1, (C.low 6 1 (by decide)).trans l2, C.d_all (Nat.lt_of_lt_of_le hd (by decide)), C.a_all (Nat.lt_of_lt_of_le ha (by decide)), C.b_all (Nat.lt_of_lt_of_le hb (by decide)), idx_val, toNat_eq_one, takeIf]; rfl

theorem nmaMaxI64 (d : Fin 32) (a : Fin 32) (b : Fin 32) (u : Bool) : Statement (.nmaMaxI64 d a b u) := by
  have hd := d.isLt
  have ha := a.isLt
  have hb := b.isLt
  have hu := Bool.toNat_lt u
  obtain ⟨g0, g1, g2, g3, l0, l1, l2⟩ := (by decide : ∀ (u : Bool), fld (0xF000000A + u.toNat * 2 ^ 6) 26 6 = 60 ∧ fld (0xF000000A + u.toNat * 2 ^ 6) 11 15 = 0 ∧ 0xF000000A + u.toNat * 2 ^ 6 < 2 ^ 32 ∧ fld (0xF000000A + u.toNat * 2 ^ 6) 0 5 = 10 ∧ fld (0xF000000A + u.toNat * 2 ^ 6) 5 1 = 0 ∧ fld (0xF000000A + u.toNat * 2 ^ 6) 7 4 = 0 ∧ fld (0xF000000A + u.toNat * 2 ^ 6) 6 1 = u.toNat) u
  have C := cols (d := d.val) (a := a.val) (b := b.val) (Nat.lt_of_lt_of_le hb (by decide)) (Nat.lt_of_lt_of_le ha (by decide)) (Nat.lt_of_lt_of_le hd (by decide)) g2 g1
  refine of_cols C rfl g0 (by decide) ?_
  rw [decodeWord_60 (C.op.trans g0)]; unfold decNma; rw [(C.low 0 5 (by decide)).trans g3]
  simp only [(C.low 5 1 (by decide)).trans l0, (C.low 7 4 (by decide)).trans l1, (C.low 6 1 (by decide)).trans l2, C.d_all (Nat.lt_of_lt_of_le hd (by decide)), C.a_all (Nat.lt_of_lt_of_le ha (by decide)), C.b_all (Nat.lt_of_lt_of_le hb (by decide)), idx_val, toNat_eq_one, takeIf]; rfl

theorem nmaAndI64 (d : Fin 32) (a : Fin 32) (b : Fin 32) : Statement (.nmaAndI64 d a b) := by
  have hd := d.isLt
  have ha := a.isLt
  have hb := b.isLt
  obtain ⟨g0, g1, g2, g3, l0⟩ : fld (0xF000000B) 26 6 = 60 ∧ fld (0xF000000B) 11 15 = 0 ∧ 0xF000000B < 2 ^ 32 ∧ fld (0xF000000B) 0 5 = 11 ∧ fld (0xF000000B) 5 6 = 0 := by decide
  have C := cols (d := d.val) (a := a.val) (b := b.val) (Nat.lt_of_lt_of_le hb (by decide)) (Nat.lt_of_lt_of_le ha (by decide)) (Nat.lt_of_lt_of_le hd (by decide)) g2 g1
  refine of_cols C rfl g0 (by decide) ?_
  rw [decodeWord_60 (C.op.trans g0)]; unfold decNma; rw [(C.low 0 5 (by decide)).trans g3]
  simp only [(C.low 5 6 (by decide)).trans l0, C.d_all (Nat.lt_of_lt_of_le hd (by decide)), C.a_all (Nat.lt_of_lt_of_le ha (by decide)), C.b_all (Nat.lt_of_lt_of_le hb (by decide)), idx_val, takeIf]; rfl

theorem nmaOrI64 (d : Fin 32) (a : Fin 32) (b : Fin 32) : Statement (.nmaOrI64 d a b) := by
  have hd := d.isLt
  have ha := a.isLt
  have hb := b.isLt
  obtain ⟨g0, g1, g2, g3, l0⟩ : fld (0xF000000C) 26 6 = 60 ∧ fld (0xF000000C) 11 15 = 0 ∧ 0xF000000C < 2 ^ 32 ∧ fld (0xF000000C) 0 5 = 12 ∧ fld (0xF000000C) 5 6 = 0 := by decide
  have C := cols (d := d.val) (a := a.val) (b := b.val) (Nat.lt_of_lt_of_le hb (by decide)) (Nat.lt_of_lt_of_le ha (by decide)) (Nat.lt_of_lt_of_le hd (by decide)) g2 g1
  refine of_cols C rfl g0 (by decide) ?_
  rw [decodeWord_60 (C.op.trans g0)]; unfold decNma; rw [(C.low 0 5 (by decide)).trans g3]
  simp only [(C.low 5 6 (by decide)).trans l0, C.d_all (Nat.lt_of_lt_of_le hd (by decide)), C.a_all (Nat.lt_of_lt_of_le ha (by decide)), C.b_all (Nat.lt_of_lt_of_le hb (by decide)), idx_val, takeIf]; rfl

theorem nmaXorI64 (d : Fin 32) (a : Fin 32) (b : Fin 32) : Statement (.nmaXorI64 d a b) := by
  have hd := d.isLt
  have ha := a.isLt
  have hb := b.isLt
  obtain ⟨g0, g1, g2, g3, l0⟩ : fld (0xF000000D) 26 6 = 60 ∧ fld (0xF000000D) 11 15 = 0 ∧ 0xF000000D < 2 ^ 32 ∧ fld (0xF000000D) 0 5 = 13 ∧ fld (0xF000000D) 5 6 = 0 := by decide
  have C := cols (d := d.val) (a := a.val) (b := b.val) (Nat.lt_of_lt_of_le hb (by decide)) (Nat.lt_of_lt_of_le ha (by decide)) (Nat.lt_of_lt_of_le hd (by decide)) g2 g1
  refine of_cols C rfl g0 (by decide) ?_
  rw [decodeWord_60 (C.op.trans g0)]; unfold decNma; rw [(C.low 0 5 (by decide)).trans g3]
  simp only [(C.low 5 6 (by decide)).trans l0, C.d_all (Nat.lt_of_lt_of_le hd (by decide)), C.a_all (Nat.lt_of_lt_of_le ha (by decide)), C.b_all (Nat.lt_of_lt_of_le hb (by decide)), idx_val, takeIf]; rfl

theorem nmaSwapI64 (d : Fin 32) (a : Fin 32) (b : Fin 32) : Statement (.nmaSwapI64 d a b) := by
  have hd := d.isLt
  have ha := a.isLt
  have hb := b.isLt
  obtain ⟨g0, g1, g2, g3, l0⟩ : fld (0xF000000E) 26 6 = 60 ∧ fld (0xF000000E) 11 15 = 0 ∧ 0xF000000E < 2 ^ 32 ∧ fld (0xF000000E) 0 5 = 14 ∧ fld (0xF000000E) 5 6 = 0 := by decide
  have C := cols (d := d.val) (a := a.val) (b := b.val) (Nat.lt_of_lt_of_le hb (by decide)) (Nat.lt_of_lt_of_le ha (by decide)) (Nat.lt_of_lt_of_le hd (by decide)) g2 g1
  refine of_cols C rfl g0 (by decide) ?_
  rw [decodeWord_60 (C.op.trans g0)]; unfold decNma; rw [(C.low 0 5 (by decide)).trans g3]
  simp only [(C.low 5 6 (by decide)).trans l0, C.d_all (Nat.lt_of_lt_of_le hd (by decide)), C.a_all (Nat.lt_of_lt_of_le ha (by decide)), C.b_all (Nat.lt_of_lt_of_le hb (by decide)), idx_val, takeIf]; rfl

theorem nmaCasI64 (d : Fin 32) (a : Fin 32) (b : Fin 32) : Statement (.nmaCasI64 d a b) := by
  have hd := d.isLt
  have ha := a.isLt
  have hb := b.isLt
  obtain ⟨g0, g1, g2, g3, l0⟩ : fld (0xF000000F) 26 6 = 60 ∧ fld (0xF000000F) 11 15 = 0 ∧ 0xF000000F < 2 ^ 32 ∧ fld (0xF000000F) 0 5 = 15 ∧ fld (0xF000000F) 5 6 = 0 := by decide
  have C := cols (d := d.val) (a := a.val) (b := b.val) (Nat.lt_of_lt_of_le hb (by decide)) (Nat.lt_of_lt_of_le ha (by decide)) (Nat.lt_of_lt_of_le hd (by decide)) g2 g1
  refine of_cols C rfl g0 (by decide) ?_
  rw [decodeWord_60 (C.op.trans g0)]; unfold decNma; rw [(C.low 0 5 (by decide)).trans g3]
  simp only [(C.low 5 6 (by decide)).trans l0, C.d_all (Nat.lt_of_lt_of_le hd (by decide)), C.a_all (Nat.lt_of_lt_of_le ha (by decide)), C.b_all (Nat.lt_of_lt_of_le hb (by decide)), idx_val, takeIf]; rfl

theorem nmaAddF32 (d : Fin 32) (a : Fin 32) (b : Fin 32) : Statement (.nmaAddF32 d a b) := by
  have hd := d.isLt
  have ha := a.isLt
  have hb := b.isLt
  obtain ⟨g0, g1, g2, g3, l0⟩ : fld (0xF0000010) 26 6 = 60 ∧ fld (0xF0000010) 11 15 = 0 ∧ 0xF0000010 < 2 ^ 32 ∧ fld (0xF0000010) 0 5 = 16 ∧ fld (0xF0000010) 5 6 = 0 := by decide
  have C := cols (d := d.val) (a := a.val) (b := b.val) (Nat.lt_of_lt_of_le hb (by decide)) (Nat.lt_of_lt_of_le ha (by decide)) (Nat.lt_of_lt_of_le hd (by decide)) g2 g1
  refine of_cols C rfl g0 (by decide) ?_
  rw [decodeWord_60 (C.op.trans g0)]; unfold decNma; rw [(C.low 0 5 (by decide)).trans g3]
  simp only [(C.low 5 6 (by decide)).trans l0, C.d_all (Nat.lt_of_lt_of_le hd (by decide)), C.a_all (Nat.lt_of_lt_of_le ha (by decide)), C.b_all (Nat.lt_of_lt_of_le hb (by decide)), idx_val, takeIf]; rfl

theorem nmaMinF32 (d : Fin 32) (a : Fin 32) (b : Fin 32) : Statement (.nmaMinF32 d a b) := by
  have hd := d.isLt
  have ha := a.isLt
  have hb := b.isLt
  obtain ⟨g0, g1, g2, g3, l0⟩ : fld (0xF0000011) 26 6 = 60 ∧ fld (0xF0000011) 11 15 = 0 ∧ 0xF0000011 < 2 ^ 32 ∧ fld (0xF0000011) 0 5 = 17 ∧ fld (0xF0000011) 5 6 = 0 := by decide
  have C := cols (d := d.val) (a := a.val) (b := b.val) (Nat.lt_of_lt_of_le hb (by decide)) (Nat.lt_of_lt_of_le ha (by decide)) (Nat.lt_of_lt_of_le hd (by decide)) g2 g1
  refine of_cols C rfl g0 (by decide) ?_
  rw [decodeWord_60 (C.op.trans g0)]; unfold decNma; rw [(C.low 0 5 (by decide)).trans g3]
  simp only [(C.low 5 6 (by decide)).trans l0, C.d_all (Nat.lt_of_lt_of_le hd (by decide)), C.a_all (Nat.lt_of_lt_of_le ha (by decide)), C.b_all (Nat.lt_of_lt_of_le hb (by decide)), idx_val, takeIf]; rfl

theorem nmaMaxF32 (d : Fin 32) (a : Fin 32) (b : Fin 32) : Statement (.nmaMaxF32 d a b) := by
  have hd := d.isLt
  have ha := a.isLt
  have hb := b.isLt
  obtain ⟨g0, g1, g2, g3, l0⟩ : fld (0xF0000012) 26 6 = 60 ∧ fld (0xF0000012) 11 15 = 0 ∧ 0xF0000012 < 2 ^ 32 ∧ fld (0xF0000012) 0 5 = 18 ∧ fld (0xF0000012) 5 6 = 0 := by decide
  have C := cols (d := d.val) (a := a.val) (b := b.val) (Nat.lt_of_lt_of_le hb (by decide)) (Nat.lt_of_lt_of_le ha (by decide)) (Nat.lt_of_lt_of_le hd (by decide)) g2 g1
  refine of_cols C rfl g0 (by decide) ?_
  rw [decodeWord_60 (C.op.trans g0)]; unfold decNma; rw [(C.low 0 5 (by decide)).trans g3]
  simp only [(C.low 5 6 (by decide)).trans l0, C.d_all (Nat.lt_of_lt_of_le hd (by decide)), C.a_all (Nat.lt_of_lt_of_le ha (by decide)), C.b_all (Nat.lt_of_lt_of_le hb (by decide)), idx_val, takeIf]; rfl

theorem nmaSwapF32 (d : Fin 32) (a : Fin 32) (b : Fin 32) : Statement (.nmaSwapF32 d a b) := by
  have hd := d.isLt
  have ha := a.isLt
  have hb := b.isLt
  obtain ⟨g0, g1, g2, g3, l0⟩ : fld (0xF0000016) 26 6 = 60 ∧ fld (0xF0000016) 11 15 = 0 ∧ 0xF0000016 < 2 ^ 32 ∧ fld (0xF0000016) 0 5 = 22 ∧ fld (0xF0000016) 5 6 = 0 := by decide
  have C := cols (d := d.val) (a := a.val) (b := b.val) (Nat.lt_of_lt_of_le hb (by decide)) (Nat.lt_of_lt_of_le ha (by decide)) (Nat.lt_of_lt_of_le hd (by decide)) g2 g1
  refine of_cols C rfl g0 (by decide) ?_
  rw [decodeWord_60 (C.op.trans g0)]; unfold decNma; rw [(C.low 0 5 (by decide)).trans g3]
  simp only [(C.low 5 6 (by decide)).trans l0, C.d_all (Nat.lt_of_lt_of_le hd (by decide)), C.a_all (Nat.lt_of_lt_of_le ha (by decide)), C.b_all (Nat.lt_of_lt_of_le hb (by decide)), idx_val, takeIf]; rfl

theorem nmaCasF32 (d : Fin 32) (a : Fin 32) (b : Fin 32) : Statement (.nmaCasF32 d a b) := by
  have hd := d.isLt
  have ha := a.isLt
  have hb := b.isLt
  obtain ⟨g0, g1, g2, g3, l0⟩ : fld (0xF0000017) 26 6 = 60 ∧ fld (0xF0000017) 11 15 = 0 ∧ 0xF0000017 < 2 ^ 32 ∧ fld (0xF0000017) 0 5 = 23 ∧ fld (0xF0000017) 5 6 = 0 := by decide
  have C := cols (d := d.val) (a := a.val) (b := b.val) (Nat.lt_of_lt_of_le hb (by decide)) (Nat.lt_of_lt_of_le ha (by decide)) (Nat.lt_of_lt_of_le hd (by decide)) g2 g1
  refine of_cols C rfl g0 (by decide) ?_
  rw [decodeWord_60 (C.op.trans g0)]; unfold decNma; rw [(C.low 0 5 (by decide)).trans g3]
  simp only [(C.low 5 6 (by decide)).trans l0, C.d_all (Nat.lt_of_lt_of_le hd (by decide)), C.a_all (Nat.lt_of_lt_of_le ha (by decide)), C.b_all (Nat.lt_of_lt_of_le hb (by decide)), idx_val, takeIf]; rfl

theorem nmaLaddF32 (d : Fin 32) (a : Fin 32) (b : Fin 32) (g : Bool) : Statement (.nmaLaddF32 d a b g) := by
  have hd := d.isLt
  have ha := a.isLt
  have hb := b.isLt
  have hg := Bool.toNat_lt g
  obtain ⟨g0, g1, g2, g3, l0, l1, l2⟩ := (by decide : ∀ (g : Bool), fld (0xF0000018 + g.toNat * 2 ^ 8) 26 6 = 60 ∧ fld (0xF0000018 + g.toNat * 2 ^ 8) 11 15 = 0 ∧ 0xF0000018 + g.toNat * 2 ^ 8 < 2 ^ 32 ∧ fld (0xF0000018 + g.toNat * 2 ^ 8) 0 5 = 24 ∧ fld (0xF0000018 + g.toNat * 2 ^ 8) 5 3 = 0 ∧ fld (0xF0000018 + g.toNat * 2 ^ 8) 9 2 = 0 ∧ fld (0xF0000018 + g.toNat * 2 ^ 8) 8 1 = g.toNat) g
  have C := cols (d := d.val) (a := a.val) (b := b.val) (Nat.lt_of_lt_of_le hb (by decide)) (Nat.lt_of_lt_of_le ha (by decide)) (Nat.lt_of_lt_of_le hd (by decide)) g2 g1
  refine of_cols C rfl g0 (by decide) ?_
  rw [decodeWord_60 (C.op.trans g0)]; unfold decNma; rw [(C.low 0 5 (by decide)).trans g3]
  simp only [(C.low 5 3 (by decide)).trans l0, (C.low 9 2 (by decide)).trans l1, (C.low 8 1 (by decide)).trans l2, C.d_all (Nat.lt_of_lt_of_le hd (by decide)), C.a_all (Nat.lt_of_lt_of_le ha (by decide)), C.b_all (Nat.lt_of_lt_of_le hb (by decide)), idx_val, toNat_eq_one, takeIf]; rfl

theorem nmaLaddI32 (d : Fin 32) (a : Fin 32) (b : Fin 32) (g : Bool) : Statement (.nmaLaddI32 d a b g) := by
  have hd := d.isLt
  have ha := a.isLt
  have hb := b.isLt
  have hg := Bool.toNat_lt g
  obtain ⟨g0, g1, g2, g3, l0, l1, l2⟩ := (by decide : ∀ (g : Bool), fld (0xF0000019 + g.toNat * 2 ^ 8) 26 6 = 60 ∧ fld (0xF0000019 + g.toNat * 2 ^ 8) 11 15 = 0 ∧ 0xF0000019 + g.toNat * 2 ^ 8 < 2 ^ 32 ∧ fld (0xF0000019 + g.toNat * 2 ^ 8) 0 5 = 25 ∧ fld (0xF0000019 + g.toNat * 2 ^ 8) 5 3 = 0 ∧ fld (0xF0000019 + g.toNat * 2 ^ 8) 9 2 = 0 ∧ fld (0xF0000019 + g.toNat * 2 ^ 8) 8 1 = g.toNat) g
  have C := cols (d := d.val) (a := a.val) (b := b.val) (Nat.lt_of_lt_of_le hb (by decide)) (Nat.lt_of_lt_of_le ha (by decide)) (Nat.lt_of_lt_of_le hd (by decide)) g2 g1
  refine of_cols C rfl g0 (by decide) ?_
  rw [decodeWord_60 (C.op.trans g0)]; unfold decNma; rw [(C.low 0 5 (by decide)).trans g3]
  simp only [(C.low 5 3 (by decide)).trans l0, (C.low 9 2 (by decide)).trans l1, (C.low 8 1 (by decide)).trans l2, C.d_all (Nat.lt_of_lt_of_le hd (by decide)), C.a_all (Nat.lt_of_lt_of_le ha (by decide)), C.b_all (Nat.lt_of_lt_of_le hb (by decide)), idx_val, toNat_eq_one, takeIf]; rfl

theorem nmaLmaxF32 (d : Fin 32) (a : Fin 32) (b : Fin 32) (g : Bool) : Statement (.nmaLmaxF32 d a b g) := by
  have hd := d.isLt
  have ha := a.isLt
  have hb := b.isLt
  have hg := Bool.toNat_lt g
  obtain ⟨g0, g1, g2, g3, l0, l1, l2⟩ := (by decide : ∀ (g : Bool), fld (0xF000001A + g.toNat * 2 ^ 8) 26 6 = 60 ∧ fld (0xF000001A + g.toNat * 2 ^ 8) 11 15 = 0 ∧ 0xF000001A + g.toNat * 2 ^ 8 < 2 ^ 32 ∧ fld (0xF000001A + g.toNat * 2 ^ 8) 0 5 = 26 ∧ fld (0xF000001A + g.toNat * 2 ^ 8) 5 3 = 0 ∧ fld (0xF000001A + g.toNat * 2 ^ 8) 9 2 = 0 ∧ fld (0xF000001A + g.toNat * 2 ^ 8) 8 1 = g.toNat) g
  have C := cols (d := d.val) (a := a.val) (b := b.val) (Nat.lt_of_lt_of_le hb (by decide)) (Nat.lt_of_lt_of_le ha (by decide)) (Nat.lt_of_lt_of_le hd (by decide)) g2 g1
  refine of_cols C rfl g0 (by decide) ?_
  rw [decodeWord_60 (C.op.trans g0)]; unfold decNma; rw [(C.low 0 5 (by decide)).trans g3]
  simp only [(C.low 5 3 (by decide)).trans l0, (C.low 9 2 (by decide)).trans l1, (C.low 8 1 (by decide)).trans l2, C.d_all (Nat.lt_of_lt_of_le hd (by decide)), C.a_all (Nat.lt_of_lt_of_le ha (by decide)), C.b_all (Nat.lt_of_lt_of_le hb (by decide)), idx_val, toNat_eq_one, takeIf]; rfl

theorem skSeed (a : Fin 32) (b : Fin 32) : Statement (.skSeed a b) := by
  have ha := a.isLt
  have hb := b.isLt
  obtain ⟨g0, g1, g2, g3, l0⟩ : fld (0xF4000000) 26 6 = 61 ∧ fld (0xF4000000) 11 15 = 0 ∧ 0xF4000000 < 2 ^ 32 ∧ fld (0xF4000000) 0 5 = 0 ∧ fld (0xF4000000) 5 6 = 0 := by decide
  have C := cols_ab (a := a.val) (b := b.val) (Nat.lt_of_lt_of_le hb (by decide)) (Nat.lt_of_lt_of_le ha (by decide)) g2 g1
  refine of_cols C rfl g0 (by decide) ?_
  rw [decodeWord_61 (C.op.trans g0)]; unfold decNmx; rw [(C.low 0 5 (by decide)).trans g3]
  simp only [(C.low 5 6 (by decide)).trans l0, C.d_all (by decide), C.a_all (Nat.lt_of_lt_of_le ha (by decide)), C.b_all (Nat.lt_of_lt_of_le hb (by decide)), idx_val, takeIf]; rfl

theorem skUpd (d : Fin 32) (a : Fin 32) (b : Fin 32) : Statement (.skUpd d a b) := by
  have hd := d.isLt
  have ha := a.isLt
  have hb := b.isLt
  obtain ⟨g0, g1, g2, g3, l0⟩ : fld (0xF4000001) 26 6 = 61 ∧ fld (0xF4000001) 11 15 = 0 ∧ 0xF4000001 < 2 ^ 32 ∧ fld (0xF4000001) 0 5 = 1 ∧ fld (0xF4000001) 5 6 = 0 := by decide
  have C := cols (d := d.val) (a := a.val) (b := b.val) (Nat.lt_of_lt_of_le hb (by decide)) (Nat.lt_of_lt_of_le ha (by decide)) (Nat.lt_of_lt_of_le hd (by decide)) g2 g1
  refine of_cols C rfl g0 (by decide) ?_
  rw [decodeWord_61 (C.op.trans g0)]; unfold decNmx; rw [(C.low 0 5 (by decide)).trans g3]
  simp only [(C.low 5 6 (by decide)).trans l0, C.d_all (Nat.lt_of_lt_of_le hd (by decide)), C.a_all (Nat.lt_of_lt_of_le ha (by decide)), C.b_all (Nat.lt_of_lt_of_le hb (by decide)), idx_val, takeIf]; rfl

theorem skUpdl (a : Fin 32) (b : Fin 32) (g : Bool) : Statement (.skUpdl a b g) := by
  have ha := a.isLt
  have hb := b.isLt
  have hg := Bool.toNat_lt g
  obtain ⟨g0, g1, g2, g3, l0, l1, l2⟩ := (by decide : ∀ (g : Bool), fld (0xF4000002 + g.toNat * 2 ^ 8) 26 6 = 61 ∧ fld (0xF4000002 + g.toNat * 2 ^ 8) 11 15 = 0 ∧ 0xF4000002 + g.toNat * 2 ^ 8 < 2 ^ 32 ∧ fld (0xF4000002 + g.toNat * 2 ^ 8) 0 5 = 2 ∧ fld (0xF4000002 + g.toNat * 2 ^ 8) 5 3 = 0 ∧ fld (0xF4000002 + g.toNat * 2 ^ 8) 9 2 = 0 ∧ fld (0xF4000002 + g.toNat * 2 ^ 8) 8 1 = g.toNat) g
  have C := cols_ab (a := a.val) (b := b.val) (Nat.lt_of_lt_of_le hb (by decide)) (Nat.lt_of_lt_of_le ha (by decide)) g2 g1
  refine of_cols C rfl g0 (by decide) ?_
  rw [decodeWord_61 (C.op.trans g0)]; unfold decNmx; rw [(C.low 0 5 (by decide)).trans g3]
  simp only [(C.low 5 3 (by decide)).trans l0, (C.low 9 2 (by decide)).trans l1, (C.low 8 1 (by decide)).trans l2, C.d_all (by decide), C.a_all (Nat.lt_of_lt_of_le ha (by decide)), C.b_all (Nat.lt_of_lt_of_le hb (by decide)), idx_val, toNat_eq_one, takeIf]; rfl

theorem skQry (d : Fin 32) (a : Fin 32) (b : Fin 32) : Statement (.skQry d a b) := by
  have hd := d.isLt
  have ha := a.isLt
  have hb := b.isLt
  obtain ⟨g0, g1, g2, g3, l0⟩ : fld (0xF4000003) 26 6 = 61 ∧ fld (0xF4000003) 11 15 = 0 ∧ 0xF4000003 < 2 ^ 32 ∧ fld (0xF4000003) 0 5 = 3 ∧ fld (0xF4000003) 5 6 = 0 := by decide
  have C := cols (d := d.val) (a := a.val) (b := b.val) (Nat.lt_of_lt_of_le hb (by decide)) (Nat.lt_of_lt_of_le ha (by decide)) (Nat.lt_of_lt_of_le hd (by decide)) g2 g1
  refine of_cols C rfl g0 (by decide) ?_
  rw [decodeWord_61 (C.op.trans g0)]; unfold decNmx; rw [(C.low 0 5 (by decide)).trans g3]
  simp only [(C.low 5 6 (by decide)).trans l0, C.d_all (Nat.lt_of_lt_of_le hd (by decide)), C.a_all (Nat.lt_of_lt_of_le ha (by decide)), C.b_all (Nat.lt_of_lt_of_le hb (by decide)), idx_val, takeIf]; rfl

theorem skQryl (a : Fin 32) (b : Fin 32) (g : Bool) : Statement (.skQryl a b g) := by
  have ha := a.isLt
  have hb := b.isLt
  have hg := Bool.toNat_lt g
  obtain ⟨g0, g1, g2, g3, l0, l1, l2⟩ := (by decide : ∀ (g : Bool), fld (0xF4000004 + g.toNat * 2 ^ 8) 26 6 = 61 ∧ fld (0xF4000004 + g.toNat * 2 ^ 8) 11 15 = 0 ∧ 0xF4000004 + g.toNat * 2 ^ 8 < 2 ^ 32 ∧ fld (0xF4000004 + g.toNat * 2 ^ 8) 0 5 = 4 ∧ fld (0xF4000004 + g.toNat * 2 ^ 8) 5 3 = 0 ∧ fld (0xF4000004 + g.toNat * 2 ^ 8) 9 2 = 0 ∧ fld (0xF4000004 + g.toNat * 2 ^ 8) 8 1 = g.toNat) g
  have C := cols_ab (a := a.val) (b := b.val) (Nat.lt_of_lt_of_le hb (by decide)) (Nat.lt_of_lt_of_le ha (by decide)) g2 g1
  refine of_cols C rfl g0 (by decide) ?_
  rw [decodeWord_61 (C.op.trans g0)]; unfold decNmx; rw [(C.low 0 5 (by decide)).trans g3]
  simp only [(C.low 5 3 (by decide)).trans l0, (C.low 9 2 (by decide)).trans l1, (C.low 8 1 (by decide)).trans l2, C.d_all (by decide), C.a_all (Nat.lt_of_lt_of_le ha (by decide)), C.b_all (Nat.lt_of_lt_of_le hb (by decide)), idx_val, toNat_eq_one, takeIf]; rfl

theorem skAdd (a : Fin 32) (b : Fin 32) : Statement (.skAdd a b) := by
  have ha := a.isLt
  have hb := b.isLt
  obtain ⟨g0, g1, g2, g3, l0⟩ : fld (0xF4000005) 26 6 = 61 ∧ fld (0xF4000005) 11 15 = 0 ∧ 0xF4000005 < 2 ^ 32 ∧ fld (0xF4000005) 0 5 = 5 ∧ fld (0xF4000005) 5 6 = 0 := by decide
  have C := cols_ab (a := a.val) (b := b.val) (Nat.lt_of_lt_of_le hb (by decide)) (Nat.lt_of_lt_of_le ha (by decide)) g2 g1
  refine of_cols C rfl g0 (by decide) ?_
  rw [decodeWord_61 (C.op.trans g0)]; unfold decNmx; rw [(C.low 0 5 (by decide)).trans g3]
  simp only [(C.low 5 6 (by decide)).trans l0, C.d_all (by decide), C.a_all (Nat.lt_of_lt_of_le ha (by decide)), C.b_all (Nat.lt_of_lt_of_le hb (by decide)), idx_val, takeIf]; rfl

theorem skClr (a : Fin 32) : Statement (.skClr a) := by
  have ha := a.isLt
  obtain ⟨g0, g1, g2, g3⟩ : fld (0xF4000006) 26 6 = 61 ∧ fld (0xF4000006) 11 15 = 0 ∧ 0xF4000006 < 2 ^ 32 ∧ fld (0xF4000006) 0 5 = 6 := by decide
  have C := cols_a (a := a.val) (Nat.lt_of_lt_of_le ha (by decide)) g2 g1
  refine of_cols C rfl g0 (by decide) ?_
  have s0 : fld (0xF4000006 + a.val * 2 ^ 16) 5 11 = 0 := by simp only [fld]; omega
  rw [decodeWord_61 (C.op.trans g0)]; unfold decNmx; rw [(C.low 0 5 (by decide)).trans g3]
  simp only [C.d_all (by decide), C.a_all (Nat.lt_of_lt_of_le ha (by decide)), s0, idx_val, takeIf]; rfl

theorem ocInit (d : Fin 32) (a : Fin 32) (b : Fin 32) (i : Bool) : Statement (.ocInit d a b i) := by
  have hd := d.isLt
  have ha := a.isLt
  have hb := b.isLt
  have hi := Bool.toNat_lt i
  obtain ⟨g0, g1, g2, g3, l0, l1, l2⟩ := (by decide : ∀ (i : Bool), fld (0xF4000008 + i.toNat * 2 ^ 6) 26 6 = 61 ∧ fld (0xF4000008 + i.toNat * 2 ^ 6) 11 15 = 0 ∧ 0xF4000008 + i.toNat * 2 ^ 6 < 2 ^ 32 ∧ fld (0xF4000008 + i.toNat * 2 ^ 6) 0 5 = 8 ∧ fld (0xF4000008 + i.toNat * 2 ^ 6) 5 1 = 0 ∧ fld (0xF4000008 + i.toNat * 2 ^ 6) 7 4 = 0 ∧ fld (0xF4000008 + i.toNat * 2 ^ 6) 6 1 = i.toNat) i
  have C := cols (d := d.val) (a := a.val) (b := b.val) (Nat.lt_of_lt_of_le hb (by decide)) (Nat.lt_of_lt_of_le ha (by decide)) (Nat.lt_of_lt_of_le hd (by decide)) g2 g1
  refine of_cols C rfl g0 (by decide) ?_
  rw [decodeWord_61 (C.op.trans g0)]; unfold decNmx; rw [(C.low 0 5 (by decide)).trans g3]
  simp only [(C.low 5 1 (by decide)).trans l0, (C.low 7 4 (by decide)).trans l1, (C.low 6 1 (by decide)).trans l2, C.d_all (Nat.lt_of_lt_of_le hd (by decide)), C.a_all (Nat.lt_of_lt_of_le ha (by decide)), C.b_all (Nat.lt_of_lt_of_le hb (by decide)), idx_val, toNat_eq_one, takeIf]; rfl

theorem ocIns (d : Fin 32) (a : Fin 32) (b : Fin 32) : Statement (.ocIns d a b) := by
  have hd := d.isLt
  have ha := a.isLt
  have hb := b.isLt
  obtain ⟨g0, g1, g2, g3, l0⟩ : fld (0xF4000009) 26 6 = 61 ∧ fld (0xF4000009) 11 15 = 0 ∧ 0xF4000009 < 2 ^ 32 ∧ fld (0xF4000009) 0 5 = 9 ∧ fld (0xF4000009) 5 6 = 0 := by decide
  have C := cols (d := d.val) (a := a.val) (b := b.val) (Nat.lt_of_lt_of_le hb (by decide)) (Nat.lt_of_lt_of_le ha (by decide)) (Nat.lt_of_lt_of_le hd (by decide)) g2 g1
  refine of_cols C rfl g0 (by decide) ?_
  rw [decodeWord_61 (C.op.trans g0)]; unfold decNmx; rw [(C.low 0 5 (by decide)).trans g3]
  simp only [(C.low 5 6 (by decide)).trans l0, C.d_all (Nat.lt_of_lt_of_le hd (by decide)), C.a_all (Nat.lt_of_lt_of_le ha (by decide)), C.b_all (Nat.lt_of_lt_of_le hb (by decide)), idx_val, takeIf]; rfl

theorem ocLdt (d : Fin 32) (a : Fin 32) (b : Fin 32) : Statement (.ocLdt d a b) := by
  have hd := d.isLt
  have ha := a.isLt
  have hb := b.isLt
  obtain ⟨g0, g1, g2, g3, l0⟩ : fld (0xF400000A) 26 6 = 61 ∧ fld (0xF400000A) 11 15 = 0 ∧ 0xF400000A < 2 ^ 32 ∧ fld (0xF400000A) 0 5 = 10 ∧ fld (0xF400000A) 5 6 = 0 := by decide
  have C := cols (d := d.val) (a := a.val) (b := b.val) (Nat.lt_of_lt_of_le hb (by decide)) (Nat.lt_of_lt_of_le ha (by decide)) (Nat.lt_of_lt_of_le hd (by decide)) g2 g1
  refine of_cols C rfl g0 (by decide) ?_
  rw [decodeWord_61 (C.op.trans g0)]; unfold decNmx; rw [(C.low 0 5 (by decide)).trans g3]
  simp only [(C.low 5 6 (by decide)).trans l0, C.d_all (Nat.lt_of_lt_of_le hd (by decide)), C.a_all (Nat.lt_of_lt_of_le ha (by decide)), C.b_all (Nat.lt_of_lt_of_le hb (by decide)), idx_val, takeIf]; rfl

theorem ocLds (d : Fin 32) (a : Fin 32) (b : Fin 32) : Statement (.ocLds d a b) := by
  have hd := d.isLt
  have ha := a.isLt
  have hb := b.isLt
  obtain ⟨g0, g1, g2, g3, l0⟩ : fld (0xF400000B) 26 6 = 61 ∧ fld (0xF400000B) 11 15 = 0 ∧ 0xF400000B < 2 ^ 32 ∧ fld (0xF400000B) 0 5 = 11 ∧ fld (0xF400000B) 5 6 = 0 := by decide
  have C := cols (d := d.val) (a := a.val) (b := b.val) (Nat.lt_of_lt_of_le hb (by decide)) (Nat.lt_of_lt_of_le ha (by decide)) (Nat.lt_of_lt_of_le hd (by decide)) g2 g1
  refine of_cols C rfl g0 (by decide) ?_
  rw [decodeWord_61 (C.op.trans g0)]; unfold decNmx; rw [(C.low 0 5 (by decide)).trans g3]
  simp only [(C.low 5 6 (by decide)).trans l0, C.d_all (Nat.lt_of_lt_of_le hd (by decide)), C.a_all (Nat.lt_of_lt_of_le ha (by decide)), C.b_all (Nat.lt_of_lt_of_le hb (by decide)), idx_val, takeIf]; rfl

theorem ocSettle (a : Fin 32) (b : Fin 32) : Statement (.ocSettle a b) := by
  have ha := a.isLt
  have hb := b.isLt
  obtain ⟨g0, g1, g2, g3, l0⟩ : fld (0xF400000C) 26 6 = 61 ∧ fld (0xF400000C) 11 15 = 0 ∧ 0xF400000C < 2 ^ 32 ∧ fld (0xF400000C) 0 5 = 12 ∧ fld (0xF400000C) 5 6 = 0 := by decide
  have C := cols_ab (a := a.val) (b := b.val) (Nat.lt_of_lt_of_le hb (by decide)) (Nat.lt_of_lt_of_le ha (by decide)) g2 g1
  refine of_cols C rfl g0 (by decide) ?_
  rw [decodeWord_61 (C.op.trans g0)]; unfold decNmx; rw [(C.low 0 5 (by decide)).trans g3]
  simp only [(C.low 5 6 (by decide)).trans l0, C.d_all (by decide), C.a_all (Nat.lt_of_lt_of_le ha (by decide)), C.b_all (Nat.lt_of_lt_of_le hb (by decide)), idx_val, takeIf]; rfl

theorem ocFold (d : Fin 32) (b : Fin 32) : Statement (.ocFold d b) := by
  have hd := d.isLt
  have hb := b.isLt
  obtain ⟨g0, g1, g2, g3, l0⟩ : fld (0xF400000D) 26 6 = 61 ∧ fld (0xF400000D) 11 15 = 0 ∧ 0xF400000D < 2 ^ 32 ∧ fld (0xF400000D) 0 5 = 13 ∧ fld (0xF400000D) 5 6 = 0 := by decide
  have C : Cols (0xF400000D + b.val * 2 ^ 11 + d.val * 2 ^ 21) (0xF400000D) (d.val) 0 b.val := by
    simpa only [Nat.zero_mul, Nat.add_zero] using cols (d := d.val) (a := 0) (b := b.val) (Nat.lt_of_lt_of_le hb (by decide)) (by decide) (Nat.lt_of_lt_of_le hd (by decide)) g2 g1
  refine of_cols C rfl g0 (by decide) ?_
  rw [decodeWord_61 (C.op.trans g0)]; unfold decNmx; rw [(C.low 0 5 (by decide)).trans g3]
  simp only [(C.low 5 6 (by decide)).trans l0, C.a_all (by decide), C.d_all (Nat.lt_of_lt_of_le hd (by decide)), C.b_all (Nat.lt_of_lt_of_le hb (by decide)), idx_val, takeIf]; rfl

theorem postTask (a : Fin 32) : Statement (.postTask a) := by
  have ha := a.isLt
  obtain ⟨g0, g1, g2, g3⟩ : fld (0xF8000000) 26 6 = 62 ∧ fld (0xF8000000) 11 15 = 0 ∧ 0xF8000000 < 2 ^ 32 ∧ fld (0xF8000000) 0 5 = 0 := by decide
  have C := cols_a (a := a.val) (Nat.lt_of_lt_of_le ha (by decide)) g2 g1
  refine of_cols C rfl g0 (by decide) ?_
  have s0 : fld (0xF8000000 + a.val * 2 ^ 16) 5 11 = 0 := by simp only [fld]; omega
  rw [decodeWord_62 (C.op.trans g0)]; unfold decPost; rw [(C.low 0 5 (by decide)).trans g3]
  simp only [C.d_all (by decide), C.a_all (Nat.lt_of_lt_of_le ha (by decide)), s0, idx_val, takeIf]; rfl

theorem postQp (a : Fin 32) (b : Fin 32) : Statement (.postQp a b) := by
  have ha := a.isLt
  have hb := b.isLt
  obtain ⟨g0, g1, g2, g3, l0⟩ : fld (0xF8000001) 26 6 = 62 ∧ fld (0xF8000001) 11 15 = 0 ∧ 0xF8000001 < 2 ^ 32 ∧ fld (0xF8000001) 0 5 = 1 ∧ fld (0xF8000001) 5 6 = 0 := by decide
  have C := cols_ab (a := a.val) (b := b.val) (Nat.lt_of_lt_of_le hb (by decide)) (Nat.lt_of_lt_of_le ha (by decide)) g2 g1
  refine of_cols C rfl g0 (by decide) ?_
  rw [decodeWord_62 (C.op.trans g0)]; unfold decPost; rw [(C.low 0 5 (by decide)).trans g3]
  simp only [(C.low 5 6 (by decide)).trans l0, C.d_all (by decide), C.a_all (Nat.lt_of_lt_of_le ha (by decide)), C.b_all (Nat.lt_of_lt_of_le hb (by decide)), idx_val, takeIf]; rfl

theorem postTcadd (d : Fin 32) (a : Fin 32) (b : Fin 32) (h : Fin 4) (n : Bool) : Statement (.postTcadd d a b h n) := by
  have hd := d.isLt
  have ha := a.isLt
  have hb := b.isLt
  have hh := h.isLt
  have hn := Bool.toNat_lt n
  obtain ⟨g0, g1, g2, g3, l0, l1, l2⟩ := (by decide : ∀ (h : Fin 4) (n : Bool), fld (0xF8000002 + n.toNat * 2 ^ 8 + h.val * 2 ^ 9) 26 6 = 62 ∧ fld (0xF8000002 + n.toNat * 2 ^ 8 + h.val * 2 ^ 9) 11 15 = 0 ∧ 0xF8000002 + n.toNat * 2 ^ 8 + h.val * 2 ^ 9 < 2 ^ 32 ∧ fld (0xF8000002 + n.toNat * 2 ^ 8 + h.val * 2 ^ 9) 0 5 = 2 ∧ fld (0xF8000002 + n.toNat * 2 ^ 8 + h.val * 2 ^ 9) 5 3 = 0 ∧ fld (0xF8000002 + n.toNat * 2 ^ 8 + h.val * 2 ^ 9) 9 2 = h.val ∧ fld (0xF8000002 + n.toNat * 2 ^ 8 + h.val * 2 ^ 9) 8 1 = n.toNat) h n
  have C := cols (d := d.val) (a := a.val) (b := b.val) (Nat.lt_of_lt_of_le hb (by decide)) (Nat.lt_of_lt_of_le ha (by decide)) (Nat.lt_of_lt_of_le hd (by decide)) g2 g1
  refine of_cols C rfl g0 (by decide) ?_
  rw [decodeWord_62 (C.op.trans g0)]; unfold decPost; rw [(C.low 0 5 (by decide)).trans g3]
  simp only [(C.low 5 3 (by decide)).trans l0, (C.low 9 2 (by decide)).trans l1, (C.low 8 1 (by decide)).trans l2, C.d_all (Nat.lt_of_lt_of_le hd (by decide)), C.a_all (Nat.lt_of_lt_of_le ha (by decide)), C.b_all (Nat.lt_of_lt_of_le hb (by decide)), idx_val, toNat_eq_one, takeIf]; rfl

theorem postTcset (d : Fin 32) (a : Fin 32) (b : Fin 32) (h : Fin 4) (n : Bool) : Statement (.postTcset d a b h n) := by
  have hd := d.isLt
  have ha := a.isLt
  have hb := b.isLt
  have hh := h.isLt
  have hn := Bool.toNat_lt n
  obtain ⟨g0, g1, g2, g3, l0, l1, l2⟩ := (by decide : ∀ (h : Fin 4) (n : Bool), fld (0xF8000003 + n.toNat * 2 ^ 8 + h.val * 2 ^ 9) 26 6 = 62 ∧ fld (0xF8000003 + n.toNat * 2 ^ 8 + h.val * 2 ^ 9) 11 15 = 0 ∧ 0xF8000003 + n.toNat * 2 ^ 8 + h.val * 2 ^ 9 < 2 ^ 32 ∧ fld (0xF8000003 + n.toNat * 2 ^ 8 + h.val * 2 ^ 9) 0 5 = 3 ∧ fld (0xF8000003 + n.toNat * 2 ^ 8 + h.val * 2 ^ 9) 5 3 = 0 ∧ fld (0xF8000003 + n.toNat * 2 ^ 8 + h.val * 2 ^ 9) 9 2 = h.val ∧ fld (0xF8000003 + n.toNat * 2 ^ 8 + h.val * 2 ^ 9) 8 1 = n.toNat) h n
  have C := cols (d := d.val) (a := a.val) (b := b.val) (Nat.lt_of_lt_of_le hb (by decide)) (Nat.lt_of_lt_of_le ha (by decide)) (Nat.lt_of_lt_of_le hd (by decide)) g2 g1
  refine of_cols C rfl g0 (by decide) ?_
  rw [decodeWord_62 (C.op.trans g0)]; unfold decPost; rw [(C.low 0 5 (by decide)).trans g3]
  simp only [(C.low 5 3 (by decide)).trans l0, (C.low 9 2 (by decide)).trans l1, (C.low 8 1 (by decide)).trans l2, C.d_all (Nat.lt_of_lt_of_le hd (by decide)), C.a_all (Nat.lt_of_lt_of_le ha (by decide)), C.b_all (Nat.lt_of_lt_of_le hb (by decide)), idx_val, toNat_eq_one, takeIf]; rfl

theorem postTcrd (d : Fin 32) (a : Fin 32) (b : Fin 32) (h : Fin 4) (n : Bool) : Statement (.postTcrd d a b h n) := by
  have hd := d.isLt
  have ha := a.isLt
  have hb := b.isLt
  have hh := h.isLt
  have hn := Bool.toNat_lt n
  obtain ⟨g0, g1, g2, g3, l0, l1, l2⟩ := (by decide : ∀ (h : Fin 4) (n : Bool), fld (0xF8000004 + n.toNat * 2 ^ 8 + h.val * 2 ^ 9) 26 6 = 62 ∧ fld (0xF8000004 + n.toNat * 2 ^ 8 + h.val * 2 ^ 9) 11 15 = 0 ∧ 0xF8000004 + n.toNat * 2 ^ 8 + h.val * 2 ^ 9 < 2 ^ 32 ∧ fld (0xF8000004 + n.toNat * 2 ^ 8 + h.val * 2 ^ 9) 0 5 = 4 ∧ fld (0xF8000004 + n.toNat * 2 ^ 8 + h.val * 2 ^ 9) 5 3 = 0 ∧ fld (0xF8000004 + n.toNat * 2 ^ 8 + h.val * 2 ^ 9) 9 2 = h.val ∧ fld (0xF8000004 + n.toNat * 2 ^ 8 + h.val * 2 ^ 9) 8 1 = n.toNat) h n
  have C := cols (d := d.val) (a := a.val) (b := b.val) (Nat.lt_of_lt_of_le hb (by decide)) (Nat.lt_of_lt_of_le ha (by decide)) (Nat.lt_of_lt_of_le hd (by decide)) g2 g1
  refine of_cols C rfl g0 (by decide) ?_
  rw [decodeWord_62 (C.op.trans g0)]; unfold decPost; rw [(C.low 0 5 (by decide)).trans g3]
  simp only [(C.low 5 3 (by decide)).trans l0, (C.low 9 2 (by decide)).trans l1, (C.low 8 1 (by decide)).trans l2, C.d_all (Nat.lt_of_lt_of_le hd (by decide)), C.a_all (Nat.lt_of_lt_of_le ha (by decide)), C.b_all (Nat.lt_of_lt_of_le hb (by decide)), idx_val, toNat_eq_one, takeIf]; rfl

theorem postTcwait (d : Fin 32) (a : Fin 32) (b : Fin 32) (h : Fin 4) (n : Bool) : Statement (.postTcwait d a b h n) := by
  have hd := d.isLt
  have ha := a.isLt
  have hb := b.isLt
  have hh := h.isLt
  have hn := Bool.toNat_lt n
  obtain ⟨g0, g1, g2, g3, l0, l1, l2⟩ := (by decide : ∀ (h : Fin 4) (n : Bool), fld (0xF8000005 + n.toNat * 2 ^ 8 + h.val * 2 ^ 9) 26 6 = 62 ∧ fld (0xF8000005 + n.toNat * 2 ^ 8 + h.val * 2 ^ 9) 11 15 = 0 ∧ 0xF8000005 + n.toNat * 2 ^ 8 + h.val * 2 ^ 9 < 2 ^ 32 ∧ fld (0xF8000005 + n.toNat * 2 ^ 8 + h.val * 2 ^ 9) 0 5 = 5 ∧ fld (0xF8000005 + n.toNat * 2 ^ 8 + h.val * 2 ^ 9) 5 3 = 0 ∧ fld (0xF8000005 + n.toNat * 2 ^ 8 + h.val * 2 ^ 9) 9 2 = h.val ∧ fld (0xF8000005 + n.toNat * 2 ^ 8 + h.val * 2 ^ 9) 8 1 = n.toNat) h n
  have C := cols (d := d.val) (a := a.val) (b := b.val) (Nat.lt_of_lt_of_le hb (by decide)) (Nat.lt_of_lt_of_le ha (by decide)) (Nat.lt_of_lt_of_le hd (by decide)) g2 g1
  refine of_cols C rfl g0 (by decide) ?_
  rw [decodeWord_62 (C.op.trans g0)]; unfold decPost; rw [(C.low 0 5 (by decide)).trans g3]
  simp only [(C.low 5 3 (by decide)).trans l0, (C.low 9 2 (by decide)).trans l1, (C.low 8 1 (by decide)).trans l2, C.d_all (Nat.lt_of_lt_of_le hd (by decide)), C.a_all (Nat.lt_of_lt_of_le ha (by decide)), C.b_all (Nat.lt_of_lt_of_le hb (by decide)), idx_val, toNat_eq_one, takeIf]; rfl

theorem postWbeg (a : Fin 32) (b : Fin 32) : Statement (.postWbeg a b) := by
  have ha := a.isLt
  have hb := b.isLt
  obtain ⟨g0, g1, g2, g3, l0⟩ : fld (0xF8000008) 26 6 = 62 ∧ fld (0xF8000008) 11 15 = 0 ∧ 0xF8000008 < 2 ^ 32 ∧ fld (0xF8000008) 0 5 = 8 ∧ fld (0xF8000008) 5 6 = 0 := by decide
  have C := cols_ab (a := a.val) (b := b.val) (Nat.lt_of_lt_of_le hb (by decide)) (Nat.lt_of_lt_of_le ha (by decide)) g2 g1
  refine of_cols C rfl g0 (by decide) ?_
  rw [decodeWord_62 (C.op.trans g0)]; unfold decPost; rw [(C.low 0 5 (by decide)).trans g3]
  simp only [(C.low 5 6 (by decide)).trans l0, C.d_all (by decide), C.a_all (Nat.lt_of_lt_of_le ha (by decide)), C.b_all (Nat.lt_of_lt_of_le hb (by decide)), idx_val, takeIf]; rfl

theorem postWcom (b : Fin 32) : Statement (.postWcom b) := by
  have hb := b.isLt
  obtain ⟨g0, g1, g2, g3, l0⟩ : fld (0xF8000009) 26 6 = 62 ∧ fld (0xF8000009) 11 15 = 0 ∧ 0xF8000009 < 2 ^ 32 ∧ fld (0xF8000009) 0 5 = 9 ∧ fld (0xF8000009) 5 6 = 0 := by decide
  have C : Cols (0xF8000009 + b.val * 2 ^ 11) (0xF8000009) 0 0 b.val := by
    simpa only [Nat.zero_mul, Nat.add_zero] using cols (d := 0) (a := 0) (b := b.val) (Nat.lt_of_lt_of_le hb (by decide)) (by decide) (by decide) g2 g1
  refine of_cols C rfl g0 (by decide) ?_
  have s0 : fld (0xF8000009 + b.val * 2 ^ 11) 16 10 = 0 := by simp only [fld]; omega
  rw [decodeWord_62 (C.op.trans g0)]; unfold decPost; rw [(C.low 0 5 (by decide)).trans g3]
  simp only [(C.low 5 6 (by decide)).trans l0, C.b_all (Nat.lt_of_lt_of_le hb (by decide)), s0, idx_val, takeIf]; rfl

theorem postWabn (b : Fin 32) : Statement (.postWabn b) := by
  have hb := b.isLt
  obtain ⟨g0, g1, g2, g3, l0⟩ : fld (0xF800000A) 26 6 = 62 ∧ fld (0xF800000A) 11 15 = 0 ∧ 0xF800000A < 2 ^ 32 ∧ fld (0xF800000A) 0 5 = 10 ∧ fld (0xF800000A) 5 6 = 0 := by decide
  have C : Cols (0xF800000A + b.val * 2 ^ 11) (0xF800000A) 0 0 b.val := by
    simpa only [Nat.zero_mul, Nat.add_zero] using cols (d := 0) (a := 0) (b := b.val) (Nat.lt_of_lt_of_le hb (by decide)) (by decide) (by decide) g2 g1
  refine of_cols C rfl g0 (by decide) ?_
  have s0 : fld (0xF800000A + b.val * 2 ^ 11) 16 10 = 0 := by simp only [fld]; omega
  rw [decodeWord_62 (C.op.trans g0)]; unfold decPost; rw [(C.low 0 5 (by decide)).trans g3]
  simp only [(C.low 5 6 (by decide)).trans l0, C.b_all (Nat.lt_of_lt_of_le hb (by decide)), s0, idx_val, takeIf]; rfl

theorem postWst (d : Fin 32) (b : Fin 32) : Statement (.postWst d b) := by
  have hd := d.isLt
  have hb := b.isLt
  obtain ⟨g0, g1, g2, g3, l0⟩ : fld (0xF800000B) 26 6 = 62 ∧ fld (0xF800000B) 11 15 = 0 ∧ 0xF800000B < 2 ^ 32 ∧ fld (0xF800000B) 0 5 = 11 ∧ fld (0xF800000B) 5 6 = 0 := by decide
  have C : Cols (0xF800000B + b.val * 2 ^ 11 + d.val * 2 ^ 21) (0xF800000B) (d.val) 0 b.val := by
    simpa only [Nat.zero_mul, Nat.add_zero] using cols (d := d.val) (a := 0) (b := b.val) (Nat.lt_of_lt_of_le hb (by decide)) (by decide) (Nat.lt_of_lt_of_le hd (by decide)) g2 g1
  refine of_cols C rfl g0 (by decide) ?_
  rw [decodeWord_62 (C.op.trans g0)]; unfold decPost; rw [(C.low 0 5 (by decide)).trans g3]
  simp only [(C.low 5 6 (by decide)).trans l0, C.a_all (by decide), C.d_all (Nat.lt_of_lt_of_le hd (by decide)), C.b_all (Nat.lt_of_lt_of_le hb (by decide)), idx_val, takeIf]; rfl

theorem cStreamLanding (g : Nat) : Statement (.cStreamLanding g) := of_none rfl
theorem lateResultReady (g : Nat) : Statement (.lateResultReady g) := of_none rfl
theorem watchdog (g : Nat) : Statement (.watchdog g) := of_none rfl
theorem loopIterationEnd (w : Who) : Statement (.loopIterationEnd w) := of_none rfl
theorem waitSatisfied (w : Who) : Statement (.waitSatisfied w) := of_none rfl
theorem engineCommandStart (g : Nat) (q : Queue) : Statement (.engineCommandStart g q) := of_none rfl
theorem engineCommandRetire (g : Nat) (q : Queue) : Statement (.engineCommandRetire g q) := of_none rfl
theorem engineReplay (g : Nat) (q : Queue) : Statement (.engineReplay g q) := of_none rfl
theorem katTestRun (g : Nat) : Statement (.katTestRun g) := of_none rfl
theorem commandSteal (g sib : Nat) : Statement (.commandSteal g sib) := of_none rfl
theorem prooferCommandStart (c : Nat) : Statement (.prooferCommandStart c) := of_none rfl
theorem prooferCommandRetire (c : Nat) : Statement (.prooferCommandRetire c) := of_none rfl
theorem postedOpApply (src : Poster) (n : Nat) : Statement (.postedOpApply src n) := of_none rfl
theorem nodeRecordAdmit (part : Nat) : Statement (.nodeRecordAdmit part) := of_none rfl
theorem tileRecordAdmit (part : Nat) : Statement (.tileRecordAdmit part) := of_none rfl
theorem runTileDispatch (entry : Nat) : Statement (.runTileDispatch entry) := of_none rfl
theorem dispatch : Statement (.dispatch) := of_none rfl
theorem preload (c : Nat) : Statement (.preload c) := of_none rfl
theorem reserving (stage : Nat) : Statement (.reserving stage) := of_none rfl
theorem nodeRetire (entry : Nat) : Statement (.nodeRetire entry) := of_none rfl
theorem heldRelease : Statement (.heldRelease) := of_none rfl
theorem budget (entry : Nat) : Statement (.budget entry) := of_none rfl
theorem peelSave (entry : Nat) : Statement (.peelSave entry) := of_none rfl
theorem translationWalk (u : Unit1) (part : Nat) (va : W64) : Statement (.translationWalk u part va) := of_none rfl
theorem tuInvalidation (u : Unit1) (h : Nat) : Statement (.tuInvalidation u h) := of_none rfl
theorem entryArm (qp : Nat) : Statement (.entryArm qp) := of_none rfl
theorem csqPut (qp n : Nat) : Statement (.csqPut qp n) := of_none rfl
theorem csqPutredSum (qp n : Nat) : Statement (.csqPutredSum qp n) := of_none rfl
theorem csqPutredMax (qp n : Nat) : Statement (.csqPutredMax qp n) := of_none rfl
theorem csqPutredMin (qp n : Nat) : Statement (.csqPutredMin qp n) := of_none rfl
theorem csqMaxexp (qp n : Nat) : Statement (.csqMaxexp qp n) := of_none rfl
theorem csqNotify (qp n : Nat) : Statement (.csqNotify qp n) := of_none rfl
theorem lcopyCopy (qp n : Nat) : Statement (.lcopyCopy qp n) := of_none rfl
theorem lcopyConvert (qp n : Nat) : Statement (.lcopyConvert qp n) := of_none rfl
theorem lcopyZero (qp n : Nat) : Statement (.lcopyZero qp n) := of_none rfl
theorem entryComplete (qp n : Nat) : Statement (.entryComplete qp n) := of_none rfl
theorem entryFail (qp n : Nat) : Statement (.entryFail qp n) := of_none rfl
theorem remoteCounterAdd (part tc : Nat) (inc : W32) : Statement (.remoteCounterAdd part tc inc) := of_none rfl
theorem qpctlReset (h : Nat) : Statement (.qpctlReset h) := of_none rfl
theorem qpctlEnable (h : Nat) : Statement (.qpctlEnable h) := of_none rfl
theorem qpctlDisable (h : Nat) : Statement (.qpctlDisable h) := of_none rfl
theorem qpResetDone (qp : Nat) : Statement (.qpResetDone qp) := of_none rfl
theorem interruptEntry (h : Nat) : Statement (.interruptEntry h) := of_none rfl
theorem partitionCreate (h : Nat) : Statement (.partitionCreate h) := of_none rfl
theorem partitionStart (h : Nat) : Statement (.partitionStart h) := of_none rfl
theorem partitionStop (h : Nat) : Statement (.partitionStop h) := of_none rfl
theorem partitionDestroy (h : Nat) : Statement (.partitionDestroy h) := of_none rfl
theorem ncmdPreempt (h : Nat) (tile : Bool) (graph nid : Nat) : Statement (.ncmdPreempt h tile graph nid) := of_none rfl
theorem ncmdResume (h : Nat) (tile : Bool) (graph nid : Nat) : Statement (.ncmdResume h tile graph nid) := of_none rfl
theorem ncmdRerun (h : Nat) (tile : Bool) (graph nid : Nat) : Statement (.ncmdRerun h tile graph nid) := of_none rfl
theorem ncmdDiscard (h : Nat) (tile : Bool) (graph nid : Nat) : Statement (.ncmdDiscard h tile graph nid) := of_none rfl
theorem ncmdClear (h c : Nat) : Statement (.ncmdClear h c) := of_none rfl
theorem nodeCommandComplete (h : Nat) : Statement (.nodeCommandComplete h) := of_none rfl
theorem cstgWrite (h : Nat) (v : W64) : Statement (.cstgWrite h v) := of_none rfl
theorem scrbWrite (h : Nat) (v : W64) : Statement (.scrbWrite h v) := of_none rfl
theorem pptbWrite (h : Nat) (v : W64) : Statement (.pptbWrite h v) := of_none rfl
theorem privilegedRegisterWrite (h num : Nat) (v : W64) : Statement (.privilegedRegisterWrite h num v) := of_none rfl
theorem scrubPass (part : Nat) : Statement (.scrubPass part) := of_none rfl
theorem ingtArm (h : Nat) (v : W64) : Statement (.ingtArm h v) := of_none rfl
theorem ingtDisarm (h : Nat) (v : W64) : Statement (.ingtDisarm h v) := of_none rfl
theorem ingestCheck (part : Nat) : Statement (.ingestCheck part) := of_none rfl
theorem mbctlAck (h : Nat) : Statement (.mbctlAck h) := of_none rfl
theorem mbctlSig (h : Nat) : Statement (.mbctlSig h) := of_none rfl
theorem hostDoorbell (part : Nat) : Statement (.hostDoorbell part) := of_none rfl
theorem hostBar0Access (part : Nat) (write : Bool) (off size : Nat) (data : W64) : Statement (.hostBar0Access part write off size data) := of_none rfl
theorem hostBar2Access (part : Nat) (write : Bool) (ipa : W64) (size : Nat) (data : List Byte) : Statement (.hostBar2Access part write ipa size data) := of_none rfl
theorem fpsDrain (h port : Nat) : Statement (.fpsDrain h port) := of_none rfl
theorem fpsReturn (h port : Nat) : Statement (.fpsReturn h port) := of_none rfl
theorem drainFlitSend (port : Nat) : Statement (.drainFlitSend port) := of_none rfl
theorem peerDrainRequest (port : Nat) : Statement (.peerDrainRequest port) := of_none rfl
theorem drainConfirm (port : Nat) : Statement (.drainConfirm port) := of_none rfl
theorem fabricTimeout (port : Nat) : Statement (.fabricTimeout port) := of_none rfl
theorem evcStart (h : Nat) : Statement (.evcStart h) := of_none rfl
theorem evcUnlatchRequest (h : Nat) : Statement (.evcUnlatchRequest h) := of_none rfl
theorem evcLate : Statement (.evcLate) := of_none rfl
theorem unlatchRaise : Statement (.unlatchRaise) := of_none rfl
theorem unlatchDrop : Statement (.unlatchDrop) := of_none rfl
theorem islandRequestRun (h island : Nat) : Statement (.islandRequestRun h island) := of_none rfl
theorem islandRequestIdle (h island : Nat) : Statement (.islandRequestIdle h island) := of_none rfl
theorem islandRequestOff (h island : Nat) : Statement (.islandRequestOff h island) := of_none rfl
theorem islandStart : Statement (.islandStart) := of_none rfl
theorem coreGroupStart (c : Nat) : Statement (.coreGroupStart c) := of_none rfl
theorem islandWake (island : Nat) : Statement (.islandWake island) := of_none rfl
theorem correctedError (r : Bucket) : Statement (.correctedError r) := of_none rfl
theorem bucketLeak : Statement (.bucketLeak) := of_none rfl
theorem memoryLinkFail (link : Nat) : Statement (.memoryLinkFail link) := of_none rfl
theorem laneRetrain (link : LinkId) (lane : Nat) : Statement (.laneRetrain link lane) := of_none rfl
theorem arbitrationAging (link : Nat) : Statement (.arbitrationAging link) := of_none rfl
theorem powerOn : Statement (.powerOn) := of_none rfl
theorem bootStep (image sig : List Byte) (passed : Bool) : Statement (.bootStep image sig passed) := of_none rfl
theorem debugToken (token : List Byte) : Statement (.debugToken token) := of_none rfl
theorem altClear (command : List Byte) : Statement (.altClear command) := of_none rfl
theorem spdmGetVersion : Statement (.spdmGetVersion) := of_none rfl
theorem spdmGetCapabilities : Statement (.spdmGetCapabilities) := of_none rfl
theorem spdmNegotiateAlgorithms : Statement (.spdmNegotiateAlgorithms) := of_none rfl
theorem spdmGetDigests : Statement (.spdmGetDigests) := of_none rfl
theorem spdmGetCertificate : Statement (.spdmGetCertificate) := of_none rfl
theorem spdmChallenge (nonce : BitVec 256) : Statement (.spdmChallenge nonce) := of_none rfl
theorem spdmGetMeasurements (nonce : BitVec 256) : Statement (.spdmGetMeasurements nonce) := of_none rfl
theorem pldmSensorRead (island : Nat) : Statement (.pldmSensorRead island) := of_none rfl
theorem bundleIssue (h : W32) (ws : List W32) : Statement (.bundleIssue h ws) := by
  intro hw _ rest
  replace hw : (fld h.toNat 26 6 == 63 && ws.length == fld h.toNat 20 2 + 1) = true := hw
  simp only [Bool.and_eq_true, beq_iff_eq] at hw
  have : ∀ (l : List W32) (n : Nat), l.length = n → takeWords n (l ++ rest) = some (l, rest) := by
    intro l
    induction l with
    | nil => rintro _ rfl; rfl
    | cons x l ih => rintro _ rfl; simp [takeWords, ih]
  rw [show encode (.bundleIssue h ws) = h :: ws from rfl]
  simp only [List.cons_append, decodeWords, hw.1, if_true, this ws _ hw.2]

theorem unassignedOpcode (word : W32) : Statement (.unassignedOpcode word) := of_none rfl
theorem reservedKindRecord (part : Nat) : Statement (.reservedKindRecord part) := of_none rfl
theorem fabricPeerRequest (port : Nat) (req : PeerReq) : Statement (.fabricPeerRequest port req) := of_none rfl
theorem fabricPortUp (port : Nat) : Statement (.fabricPortUp port) := of_none rfl
theorem fabricPortDown (port : Nat) : Statement (.fabricPortDown port) := of_none rfl
theorem peerPortReopen (port : Nat) : Statement (.peerPortReopen port) := of_none rfl
theorem uncorrectableError (site : ErrSite) : Statement (.uncorrectableError site) := of_none rfl
theorem debugAccess (req : DebugReq) : Statement (.debugAccess req) := of_none rfl

end Sys2Proof.Laws.RoundTrip
end

