-- ==== Sys2Proof/Laws/Words.lean ====
section
/-! SUPPORT. What running a word comes to once its checks pass, and what its beginning leaves as it was. -/

namespace Sys2Proof.Machine

/-! ### Sequencers -/

@[simp] theorem Core.seq_setSeq_self (c : Core) (q : SeqKind) (x : Seq) : (c.setSeq q x).seq q = x := by cases q <;> rfl
theorem Core.seq_setSeq_ne (c : Core) {q r : SeqKind} (x : Seq) (h : r ≠ q) : (c.setSeq q x).seq r = c.seq r := by
  cases q <;> cases r <;> first | rfl | exact absurd rfl h

@[simp] theorem State.cur_setSeq (s : State) (w : Who) (x : Seq) : (s.setSeq w x).cur = s.cur := by cases w <;> rfl
@[simp] theorem State.curAddr_setSeq (s : State) (w : Who) (x : Seq) : (s.setSeq w x).curAddr = s.curAddr := by
  cases w <;> rfl
@[simp] theorem State.curSlot_setSeq (s : State) (w : Who) (x : Seq) : (s.setSeq w x).curSlot = s.curSlot := by
  cases w <;> rfl
@[simp] theorem State.mem_setSeq (s : State) (w : Who) (x : Seq) : (s.setSeq w x).mem = s.mem := by cases w <;> rfl
@[simp] theorem State.seqOf_setSeq_self (s : State) (w : Who) (x : Seq) : (s.setSeq w x).seqOf w = x := by
  cases w <;> simp [State.setSeq, State.seqOf]
@[simp] theorem State.me_setMe (s : State) (x : Seq) : (s.setMe x).me = x := by simp [State.me, State.setMe]
@[simp] theorem State.cur_setMe (s : State) (x : Seq) : (s.setMe x).cur = s.cur := by simp [State.setMe]

/-! ### The beginning of a word -/

@[simp] theorem State.cur_overwrite (s : State) (ds : List Dest) : (s.overwrite ds).cur = s.cur := by
  unfold State.overwrite
  split
  · rfl
  · split <;> rfl
  · split <;> rfl

@[simp] theorem State.me_overwrite (s : State) (ds : List Dest) : (s.overwrite ds).me = s.me := by
  unfold State.overwrite
  split
  · rfl
  · rename_i g q _ h
    split
    · rfl
    · cases q <;> simp [State.me, State.seqOf, h, Core.seq]
  · rename_i h' h
    split
    · rfl
    · simp [State.me, State.seqOf, h]

theorem State.begun_eq (s : State) (i : Instr) :
    s.begun i = ({ s.overwrite (dests i) with curAddr := s.me.pc } : State).setMe
      { s.me with pc := s.nextPc, wait := none, held := none } := by
  have : (s.overwrite (dests i)).nextPc = s.nextPc := by simp [State.nextPc]
  simp only [State.begun, State.enterWord, this, State.me_overwrite]

@[simp] theorem State.cur_begun (s : State) (i : Instr) : (s.begun i).cur = s.cur := by simp [State.begun_eq]
@[simp] theorem State.curAddr_begun (s : State) (i : Instr) : (s.begun i).curAddr = s.me.pc := by
  simp [State.begun_eq, State.setMe]
@[simp] theorem State.me_begun (s : State) (i : Instr) : (s.begun i).me = { s.me with pc := s.nextPc, wait := none, held := none } := by
  simp [State.begun_eq]
@[simp] theorem State.rs_begun (s : State) (i : Instr) (r : SReg) : (s.begun i).rs r = s.rs r := by
  simp [State.rs, Seq.rdS]
@[simp] theorem State.rp_begun (s : State) (i : Instr) (r : Reg16) : (s.begun i).rp r = s.rp r := by
  simp [State.rp, Seq.rdP]

/-! ### Running a word -/

theorem runWord_of_passes {i : Instr} {s : State} (x : State → Eff) (h : s.passes i = true) :
    runWord i x s = .next (settle (.word i) s (x (s.begun i))) := by
  simp only [State.passes, Bool.and_eq_true, Option.isNone_iff_eq_none, Bool.not_eq_true'] at h
  simp [runWord, wordEff, h.1, h.2, State.begun]

theorem runNear_of_passes {i : Instr} {n : Near} {s : State} (x : State → Eff) (h : s.passes i = true)
    (hc : groupCheck n.major n.wf s = issueCheck 0 i s) (hs : n.sources = sources i) (hd : n.dests = dests i) :
    runNear n x s = .next (settle (.near n) s (x (s.begun i))) := by
  simp only [State.passes, Bool.and_eq_true, Option.isNone_iff_eq_none, Bool.not_eq_true'] at h
  simp [runNear, wordEff, hc, hs, hd, h.1, h.2, State.begun]

@[simp] theorem settle_done (w : Wait) (s t : State) : settle w s (.done t) = t := rfl
@[simp] theorem settle_stall (w : Wait) (s : State) : settle w s .stall = s.setMe { s.me with wait := some w } := rfl

end Sys2Proof.Machine
end

