-- ==== Sys2Proof/Tests/Slice0.lean ====
section
/-! SUPPORT. Tests of the model: ill-formed terms are refused, words of the spec's encoding tables decode to what they
stand for, single steps on small states give what the rules say, and each statement's hypotheses are met by a state. The
expected values come from the spec's tables and rules, worked by hand. -/

namespace Sys2Proof.Tests

open Sys2Proof Sys2Proof.Machine

/-! ### Well-formedness (R146, R149, R22, R226, R250, R239, R254, R176, R10, R284) -/

/-- Every term of a list is ill-formed. -/
def refuses (l : List Instr) : Bool := l.all fun i => !i.wf

theorem test_illformed_limits : refuses [
    .loopSp 1 2 1, .semAdd 1 2 3 false, .ordRel 5, .ordAcq 5, .ordFull 7,
    .mmaRn8 0 3 3 false true false false false, .mmaRn4 0 3 3 false true false false false,
    .mmaRnx 0 3 3 false true false false false, .mmaRny 0 3 3 false true false false false,
    .mmaBf16 0 3 3 false true false false false, .vintAbs 1 2 3, .vintAbs 1 2 0, .vcvtQf 1 2 3 0, .vcvtQh 1 2 3 5,
    .vmemLd 1 2 3 7, .vsetIota 1 0, .vsetIrow 1 4, .vsetIcol 1 1, .routeTopk 0 1 2 3 0, .routeTopk 0 31 0 1 0,
    .routeTopk 0 0 29 2 0, .nmaCasI32 0 1 2, .nmaCasI64 0 1 2, .nmaCasF32 0 1 2, .postTcadd 1 2 3 0 true,
    .postTcadd 1 2 0 1 true, .postTcset 1 2 3 0 true, .postTcset 1 2 0 1 true, .postTcrd 1 2 3 0 true,
    .postTcrd 1 2 0 1 true, .postTcwait 1 2 3 0 true, .postTcwait 1 2 0 1 true] = true := by decide +kernel

theorem test_illformed_types : refuses [
    .vfpAdd 1 1 1 2, .vfpSub 1 1 1 2, .vfpMul 1 1 1 2, .vfpMin 1 1 1 2, .vfpMax 1 1 1 2, .vfpAbs 1 1 2,
    .vfpNeg 1 1 2, .vfpCpsgn 1 1 1 2, .vfmaFma 1 1 1 2, .vfmaFms 1 1 1 2, .vfmaFnma 1 1 1 2, .vfmaFnms 1 1 1 2,
    .vintAdd 1 1 1 1, .vintSub 1 1 1 1, .vintMul 1 1 1 1, .vintAnd 1 1 1 1, .vintOr 1 1 1 1, .vintXor 1 1 1 1,
    .vintAndn 1 1 1 1, .vintShl 1 1 1 1, .vintShr 1 1 1 1, .vintSra 1 1 1 1, .vintMin 1 1 1 1, .vintMax 1 1 1 1,
    .vintAdds 1 1 1 1, .vintSubs 1 1 1 1, .vintMulh 1 1 1 1, .vcmpEq 1 1 1 7, .vcmpNe 1 1 1 7, .vcmpLt 1 1 1 7,
    .vcmpLe 1 1 1 7, .vcmpGt 1 1 1 7, .vcmpGe 1 1 1 7, .vcmpUn 1 1 1 2, .vcvtF2i 1 1 1, .vcvtI2f 1 1 1,
    .vcvtRint 1 1 2, .vredSum 1 1 7, .vredMax 1 1 7, .vredMin 1 1 7, .vredAnd 1 1 1, .vredOr 1 1 1, .vredXor 1 1 1,
    .vredSadd 1 1 7, .vredSmax 1 1 7, .vmemSt 1 1 1 7, .vmemGat 1 1 1 7, .vmemSct 1 1 1 7, .vsfuRcp 1 1 2,
    .vsfuRsqrt 1 1 2, .vsfuSqrt 1 1 2, .vsfuDiv 1 1 1 2, .vsfuExp 1 1 2, .vsfuExp2 1 1 2, .vsfuLn 1 1 2,
    .vsfuLog2 1 1 2, .vsfuSin 1 1 2, .vsfuCos 1 1 2, .vsfuTanh 1 1 2, .vsfuSigm 1 1 2, .vsetBcast 1 1 7] = true := by decide +kernel

theorem test_illformed_units : refuses [
    .cStreamLanding 2048, .lateResultReady 2048, .watchdog 2048, .loopIterationEnd (.core 2048 .K),
    .waitSatisfied (.core 2048 .K), .engineCommandStart 2048 .m, .engineCommandRetire 2048 .m,
    .engineReplay 2048 .m, .katTestRun 2048, .commandSteal 2048 0, .commandSteal 0 2048, .prooferCommandStart 16,
    .prooferCommandRetire 16, .nodeRecordAdmit 16, .tileRecordAdmit 16, .runTileDispatch 4096, .preload 16,
    .reserving 16, .nodeRetire 4096, .budget 4096, .peelSave 4096, .translationWalk (.hearth 0) 16 0,
    .tuInvalidation (.hearth 0) 16, .entryArm 1024, .csqPut 1024 0, .csqPutredSum 1024 0, .csqPutredMax 1024 0,
    .csqPutredMin 1024 0, .csqMaxexp 1024 0, .csqNotify 1024 0, .lcopyCopy 1024 0, .lcopyConvert 1024 0,
    .lcopyZero 1024 0, .entryComplete 1024 0, .entryFail 1024 0, .remoteCounterAdd 16 0 0, .qpctlReset 16,
    .qpctlEnable 16, .qpctlDisable 16, .qpResetDone 1024, .interruptEntry 16, .partitionCreate 16,
    .partitionStart 16, .partitionStop 16, .partitionDestroy 16, .ncmdPreempt 16 false 0 0,
    .ncmdResume 16 false 0 0, .ncmdRerun 16 false 0 0, .ncmdDiscard 16 false 0 0, .ncmdClear 16 0, .ncmdClear 0 16,
    .nodeCommandComplete 16, .cstgWrite 16 0, .scrbWrite 16 0, .pptbWrite 16 0, .privilegedRegisterWrite 16 0 0,
    .scrubPass 16, .ingtArm 16 0, .ingtDisarm 16 0, .ingestCheck 16, .mbctlAck 16, .mbctlSig 16, .hostDoorbell 16,
    .hostBar0Access 16 false 0 0 0, .hostBar2Access 16 false 0 0 [], .hostBar2Access 0 true 0 9 [0], .fpsDrain 16 0, .fpsDrain 0 16,
    .fpsReturn 16 0, .fpsReturn 0 16, .drainFlitSend 16, .peerDrainRequest 16, .drainConfirm 16, .fabricTimeout 16,
    .evcStart 16, .evcUnlatchRequest 16, .islandRequestRun 16 0, .islandRequestRun 0 32, .islandRequestIdle 16 0,
    .islandRequestIdle 0 32, .islandRequestOff 16 0, .islandRequestOff 0 32, .coreGroupStart 16, .islandWake 32,
    .memoryLinkFail 32, .laneRetrain (.memory 32) 0, .arbitrationAging 32, .pldmSensorRead 32, .reservedKindRecord 16,
    .fabricPeerRequest 16 (.add64 0 0 0), .fabricPortUp 16, .fabricPortDown 16, .peerPortReopen 16] = true := by decide +kernel

/-! ### Decoding: for every row one word, its fields placed as the encoding of its entry gives them (R145-R155) -/

noncomputable section

set_option Elab.async false

/-- Each word decodes to its instruction, and to nothing more. -/
def reads (l : List (Nat × Instr)) : Bool :=
  l.all fun p => match decodeWords [BitVec.ofNat 32 p.1] with
    | .ok (i, []) => decide (i = p.2)
    | _ => false

theorem test_decode_iop_cmp :
    reads [(0x05FC9000, .iopAdd 15 28 18),
      (0x079EC801, .iopSub 28 30 25),
      (0x05EF8802, .iopAnd 15 15 17),
      (0x07933803, .iopOr 28 19 7),
      (0x04DA8804, .iopXor 6 26 17),
      (0x0615A005, .iopShl 16 21 20),
      (0x07462006, .iopShr 26 6 4),
      (0x05EA2807, .iopSra 15 10 5),
      (0x0472D008, .iopMin 3 18 26),
      (0x07B7A809, .iopMax 29 23 21),
      (0x0454680A, .iopMinu 2 20 13),
      (0x07EFA80B, .iopMaxu 31 15 21),
      (0x0714A80C, .iopAddw 24 20 21),
      (0x04D4080D, .iopSubw 6 20 1),
      (0x0771180E, .iopSlt 27 17 3),
      (0x0442380F, .iopSltu 2 2 7)] = true ∧
    reads [(0x0BA80999, .iopiAdd 29 8 2457),
      (0x0839176D, .iopiAnd 1 25 1901),
      (0x096F2975, .iopiOr 11 15 2421),
      (0x0B67384F, .iopiXor 27 7 2127),
      (0x09154013, .iopiShl 8 21 19),
      (0x0A01502B, .iopiShr 16 1 43),
      (0x086F602A, .iopiSra 3 15 42),
      (0x092E7FF7, .iopiAddw 9 14 4087)] = true ∧
    reads [(0x0E40FEE6, .ihiLo 18 65254),
      (0x0FC1D719, .ihiH1 30 55065),
      (0x0C62B534, .ihiH2 3 46388),
      (0x0D2350B7, .ihiH3 9 20663),
      (0x0F243ACC, .ihiLou 25 15052)] = true ∧
    reads [(0x112A0800, .cmpEq 9 10 1),
      (0x1053C801, .cmpNe 2 19 25),
      (0x104D2002, .cmpLt 2 13 4),
      (0x11CA6803, .cmpGe 14 10 13),
      (0x105F0804, .cmpLtu 2 31 1),
      (0x11D60805, .cmpGeu 14 22 1),
      (0x1087F006, .cmpTst 4 7 30)] = true := by decide +kernel

theorem test_decode_prd_bitf :
    reads [(0x15E14000, .prdAnd 15 1 8),
      (0x14EC3801, .prdOr 7 12 7),
      (0x14E25002, .prdXor 7 2 10),
      (0x15646803, .prdAndn 11 4 13),
      (0x15653004, .prdOrn 11 5 6),
      (0x14453005, .prdNor 2 5 6),
      (0x143F0006, .prdFrs 1 31),
      (0x15CD0007, .prdTos 14 13),
      (0x17C00008, .prdRds 30),
      (0x14040009, .prdWrs 4)] = true ∧
    reads [(0x1A969FE1, .br true 4 1482721)] = true ∧
    reads [(0x1C040000, .jmpR 4),
      (0x1C220001, .jmpLink 1 2)] = true ∧
    reads [(0x209A07CB, .loopSp 4 26 1995)] = true ∧
    reads [(0x24D68729, .ldsB8 6 22 true 1833),
      (0x262796B6, .ldsI8 17 7 true 1718),
      (0x26ADA652, .ldsB16 21 13 true 1618),
      (0x25C7B452, .ldsI16 14 7 true 1106),
      (0x279ACFF8, .ldsB32 28 26 true 4088),
      (0x27A1D300, .ldsI32 29 1 true 768),
      (0x25BCE0AD, .ldsB64 13 28 true 173)] = true ∧
    reads [(0x28A78422, .stsB8 5 7 true 1058),
      (0x2839AD49, .stsB16 1 25 true 3401),
      (0x294DC131, .stsB32 10 13 true 305),
      (0x2867E040, .stsB64 3 7 true 64)] = true ∧
    reads [(0x2E8005E7, .csrRd 20 1511),
      (0x2C0C19F5, .csrWr 12 2549),
      (0x2DE52F59, .csrSet 15 5 3929),
      (0x2E703D52, .csrClr 19 16 3410)] = true ∧
    reads [(0x32650000, .bitfPopc 19 5),
      (0x338D0001, .bitfClz 28 13),
      (0x30D50002, .bitfCtz 6 21),
      (0x30AA0003, .bitfBrev 5 10),
      (0x33C80004, .bitfBswap 30 8),
      (0x33744005, .bitfExtu 27 20 8),
      (0x33073006, .bitfExts 24 7 6),
      (0x3315F807, .bitfIns 24 21 31)] = true := by decide +kernel

theorem test_decode_muldiv_copy :
    reads [(0x3647B000, .muldivMul 18 7 22),
      (0x37EDE801, .muldivMulh 31 13 29),
      (0x36141802, .muldivMulhu 16 20 3),
      (0x35C22003, .muldivDiv 14 2 4),
      (0x34828804, .muldivDivu 4 2 17),
      (0x37E94005, .muldivRem 31 9 8),
      (0x37176806, .muldivRemu 24 23 13)] = true ∧
    reads [(0x38000000, .sysNop),
      (0x38000041, .sysEnd true),
      (0x380E06C2, .sysTrap 14 27),
      (0x38000003, .sysWev)] = true ∧
    reads [(0x3FB40000, .privRd 29 20),
      (0x3C105001, .privWr 16 10),
      (0x3C000002, .privRet),
      (0x3C000443, .privHcall 17),
      (0x3C000004, .privWfi),
      (0x3C06F005, .privTinv 6 30)] = true ∧
    reads [(0x43022820, .ringClaim 24 2 5 true),
      (0x4209A821, .ringCommit 16 9 21 true),
      (0x40053822, .ringWaitf 5 7 true),
      (0x400C0823, .ringWaitr 12 1 true),
      (0x40057024, .ringPop 5 14 true),
      (0x40041005, .ringCfg 4 2),
      (0x40430006, .ringRd 2 3)] = true ∧
    reads [(0x45468820, .semAdd 10 6 17 true),
      (0x44026001, .semWaitge 2 12),
      (0x44AF0002, .semRd 5 15)] = true ∧
    reads [(0x48080000, .gbarArr 8),
      (0x48060001, .gbarWait 6),
      (0x480B0002, .gbarSync 11)] = true ∧
    reads [(0x4C0000C0, .ordRel 6),
      (0x4C0000C1, .ordAcq 6),
      (0x4C0000A2, .ordFull 5)] = true ∧
    reads [(0x615F2980, .copyIn 10 31 5 true true),
      (0x620F6301, .copyOut 16 15 12 true true),
      (0x6034AD82, .copyWt 1 20 21 true true true),
      (0x630A5903, .copyMm 24 10 11 true)] = true := by decide +kernel

theorem test_decode_gath_vint :
    reads [(0x64430100, .gathFill 2 3 true)] = true ∧
    reads [(0x6A4C0000, .lineRd 18 12),
      (0x68181001, .lineWr 24 2),
      (0x6BBEC102, .lineSet 29 30 24 true)] = true ∧
    reads [(0x6C000000, .markTile),
      (0x6C000001, .markDrain)] = true ∧
    reads [(0xC34F37C0, .mmaRn8 26 15 6 true true true true true),
      (0xC3ED0FC1, .mmaRn4 31 13 1 true true true true true),
      (0xC28217C2, .mmaRnx 20 2 2 true true true true true),
      (0xC1AF67C3, .mmaRny 13 15 12 true true true true true),
      (0xC14A17C4, .mmaBf16 10 10 2 true true true true true)] = true ∧
    reads [(0xC734B000, .accRd 25 20 22),
      (0xC7D00001, .accFlg 30 16),
      (0xC4BD0602, .accSt 5 29 true true),
      (0xC545B003, .accAdd 10 5 22),
      (0xC6800004, .accZero 20)] = true ∧
    reads [(0xC8F10000, .tentMark 7 17)] = true ∧
    reads [(0xCCD90600, .rslv 6 25 true true)] = true ∧
    reads [(0xD010E800, .mkat 16 29)] = true ∧
    reads [(0x810B6E00, .vfpAdd 8 11 13 6),
      (0x8127AC01, .vfpSub 9 7 21 4),
      (0x835ACA02, .vfpMul 26 26 25 2),
      (0x83A76A03, .vfpMin 29 7 13 2),
      (0x827E5A04, .vfpMax 19 30 11 2),
      (0x80A50405, .vfpAbs 5 5 4),
      (0x819B0706, .vfpNeg 12 27 7),
      (0x80571B07, .vfpCpsgn 2 23 3 3)] = true ∧
    reads [(0x87662400, .vfmaFma 27 6 4 4),
      (0x8609F201, .vfmaFms 16 9 30 2),
      (0x876E6E02, .vfmaFnma 27 14 13 6),
      (0x8630B303, .vfmaFnms 17 16 22 3)] = true ∧
    reads [(0x8AFBDD00, .vintAdd 23 27 27 5),
      (0x89EB1F01, .vintSub 15 11 3 7),
      (0x8849E502, .vintMul 2 9 28 5),
      (0x8856BB03, .vintAnd 2 22 23 3),
      (0x8A6C5604, .vintOr 19 12 10 6),
      (0x8B530E05, .vintXor 26 19 1 6),
      (0x88AD7A06, .vintAndn 5 13 15 2),
      (0x8839DB07, .vintShl 1 25 27 3),
      (0x89192F08, .vintShr 8 25 5 7),
      (0x88552409, .vintSra 2 21 4 4),
      (0x8895960A, .vintMin 4 21 18 6),
      (0x8ABA610B, .vintMax 21 26 12 1),
      (0x8AC73F0C, .vintAdds 22 7 7 7),
      (0x8A09360D, .vintSubs 16 9 6 6),
      (0x8839040E, .vintAbs 1 25 4),
      (0x8A57120F, .vintMulh 18 23 2 2)] = true := by decide +kernel

theorem test_decode_vcmp_vsfu :
    reads [(0x8D09CB00, .vcmpEq 8 9 25 3),
      (0x8E57FD01, .vcmpNe 18 23 31 5),
      (0x8E34CA02, .vcmpLt 17 20 25 2),
      (0x8DBCD603, .vcmpLe 13 28 26 6),
      (0x8FA81C04, .vcmpGt 29 8 3 4),
      (0x8FDDC405, .vcmpGe 30 29 24 4),
      (0x8CAF7A06, .vcmpUn 5 15 15 2)] = true ∧
    reads [(0x92BD0100, .vcvtF2i 21 29 1),
      (0x91B20501, .vcvtI2f 13 18 5),
      (0x92BD0102, .vcvtF2h 21 29),
      (0x923A0103, .vcvtH2f 17 26),
      (0x937F0304, .vcvtRint 27 31 3),
      (0x91EBAA05, .vcvtQf 15 11 21 2),
      (0x9098E706, .vcvtQh 4 24 28 7)] = true ∧
    reads [(0x97550600, .vredSum 26 21 6),
      (0x94870201, .vredMax 4 7 2),
      (0x97AD0102, .vredMin 29 13 1),
      (0x95520703, .vredAnd 10 18 7),
      (0x97CB0304, .vredOr 30 11 3),
      (0x97D70705, .vredXor 30 23 7),
      (0x942C0506, .vredSadd 1 12 5),
      (0x94620407, .vredSmax 3 2 4),
      (0x94D20308, .vredAnyp 6 18),
      (0x94F90309, .vredAllp 7 25)] = true ∧
    reads [(0x9930F300, .vpermSel 9 16 30),
      (0x9827D301, .vpermShift 1 7 26),
      (0x9B830302, .vpermTr 28 3)] = true ∧
    reads [(0x9DDA1200, .vmemLd 14 26 2 2),
      (0x9E4BB701, .vmemSt 18 11 22 7),
      (0x9FC58202, .vmemGat 30 5 16 2),
      (0x9E3DC503, .vmemSct 17 29 24 5)] = true ∧
    reads [(0xA3760600, .vsfuRcp 27 22 6),
      (0xA1FF0401, .vsfuRsqrt 15 31 4),
      (0xA27F0602, .vsfuSqrt 19 31 6),
      (0xA0794403, .vsfuDiv 3 25 8 4),
      (0xA2320304, .vsfuExp 17 18 3),
      (0xA3780505, .vsfuExp2 27 24 5),
      (0xA2A60506, .vsfuLn 21 6 5),
      (0xA23B0507, .vsfuLog2 17 27 5),
      (0xA12A0608, .vsfuSin 9 10 6),
      (0xA1BF0709, .vsfuCos 13 31 7),
      (0xA39D050A, .vsfuTanh 28 29 5),
      (0xA0EA070B, .vsfuSigm 7 10 7)] = true := by decide +kernel

theorem test_decode_vclm_nma :
    reads [(0xA4BF9300, .vclmLo 5 31 18),
      (0xA6299B01, .vclmHi 17 9 19),
      (0xA6077302, .vclmXlo 16 7 14),
      (0xA6448B03, .vclmXhi 18 4 17),
      (0xA4340304, .vclmBrev 1 20)] = true ∧
    reads [(0xA9A19300, .vselSel 13 1 18),
      (0xA8510301, .vselSelz 2 17)] = true ∧
    reads [(0xAFCD0500, .vsetBcast 30 13 5),
      (0xAF400501, .vsetIota 26 5),
      (0xAC800402, .vsetIrow 4 4),
      (0xAC600603, .vsetIcol 3 6),
      (0xACC3F304, .vsetGet 6 3 30),
      (0xAE4F7305, .vsetPut 18 15 14)] = true ∧
    reads [(0xE01E0100, .proofRun 30 true)] = true ∧
    reads [(0xE5288000, .ptabRd 9 8 16),
      (0xE6055801, .ptabWr 16 5 11),
      (0xE5DDD802, .ptabHrd 14 29 27),
      (0xE7DDF003, .ptabHwr 30 29 30),
      (0xE6115804, .ptabCrd 16 17 11),
      (0xE4043805, .ptabClr 4 7)] = true ∧
    reads [(0xE80EA000, .creelCfg 14 20),
      (0xE801F001, .creelBias 1 30),
      (0xE925B802, .creelOffer 9 5 23),
      (0xEB211003, .creelDrain 25 1 2),
      (0xE8E50004, .creelRd 7 5)] = true ∧
    reads [(0xED01B4C0, .routeTopk 8 1 22 2 3)] = true ∧
    reads [(0xF30C4000, .nmaAddI32 24 12 8),
      (0xF2902041, .nmaMinI32 20 16 4 true),
      (0xF3132042, .nmaMaxI32 24 19 4 true),
      (0xF2E7B803, .nmaAndI32 23 7 23),
      (0xF23D7004, .nmaOrI32 17 29 14),
      (0xF02DA805, .nmaXorI32 1 13 21),
      (0xF1DB8806, .nmaSwapI32 14 27 17),
      (0xF2869007, .nmaCasI32 20 6 18),
      (0xF0FCA808, .nmaAddI64 7 28 21),
      (0xF2553849, .nmaMinI64 18 21 7 true),
      (0xF392A04A, .nmaMaxI64 28 18 20 true),
      (0xF11EC00B, .nmaAndI64 8 30 24),
      (0xF2BA600C, .nmaOrI64 21 26 12),
      (0xF3A6580D, .nmaXorI64 29 6 11),
      (0xF28BE80E, .nmaSwapI64 20 11 29),
      (0xF3C7380F, .nmaCasI64 30 7 7),
      (0xF327E810, .nmaAddF32 25 7 29),
      (0xF085E811, .nmaMinF32 4 5 29),
      (0xF105C012, .nmaMaxF32 8 5 24),
      (0xF0696816, .nmaSwapF32 3 9 13),
      (0xF08ED817, .nmaCasF32 4 14 27),
      (0xF3EE9118, .nmaLaddF32 31 14 18 true),
      (0xF0EDA919, .nmaLaddI32 7 13 21 true),
      (0xF087991A, .nmaLmaxF32 4 7 19 true)] = true := by decide +kernel

theorem test_decode_nmx_post :
    reads [(0xF41ED800, .skSeed 30 27),
      (0xF7EC2001, .skUpd 31 12 4),
      (0xF4178902, .skUpdl 23 17 true),
      (0xF636D803, .skQry 17 22 27),
      (0xF407D104, .skQryl 7 26 true),
      (0xF4102005, .skAdd 16 4),
      (0xF4010006, .skClr 1),
      (0xF4599048, .ocInit 2 25 18 true),
      (0xF4A73009, .ocIns 5 7 6),
      (0xF487300A, .ocLdt 4 7 6),
      (0xF766500B, .ocLds 27 6 10),
      (0xF41EB00C, .ocSettle 30 22),
      (0xF480980D, .ocFold 4 19)] = true ∧
    reads [(0xF8020000, .postTask 2),
      (0xF805F801, .postQp 5 31),
      (0xFACF1B02, .postTcadd 22 15 3 1 true),
      (0xF9AF7703, .postTcset 13 15 14 3 true),
      (0xF9C7A504, .postTcrd 14 7 20 2 true),
      (0xFAB71305, .postTcwait 21 23 2 1 true),
      (0xF80E7808, .postWbeg 14 15),
      (0xF8006009, .postWcom 12),
      (0xF800C00A, .postWabn 24),
      (0xF980680B, .postWst 12 13)] = true := by decide +kernel

/-! ### Single steps -/

/-- Core 0's sequencer q about to run, with s1, s2 and s3 as given. -/
def ready (q : SeqKind) (a b c : W64) : State :=
  let s : State := { State.reset.place false q [] with cur := .core 0 q, agenda := [] }
  s.setMe (((s.me.wrS 1 a).wrS 2 b).wrS 3 c)

/-- Hearth core 0 about to run at a level, with s1, s2 and s3 as given. -/
def hearthReady (lv : Nat) (a b c : W64) : State :=
  let s : State := { State.reset.place true .K [] with cur := .hearth 0, agenda := [] }
  let s := s.setHearth 0 { s.hearth 0 with lv := lv }
  s.setMe (((s.me.wrS 1 a).wrS 2 b).wrS 3 c)

/-- The instruction goes on, and the state after it passes a check. -/
def goes (i : Instr) (s : State) (f : State → Bool) : Bool :=
  match exec i s with
  | .next t => f t
  | _ => false

/-- In K, with s1 = a, s2 = b and s3 = 0x1111_1111_1111_1111, the word leaves s3 = x. -/
def gives (i : Instr) (a b x : W64) : Bool := goes i (ready .K a b 0x1111111111111111) fun t => t.rs 3 == x

/-- In K, with s1 = a and s2 = b, the word leaves p3 = x. -/
def holds (i : Instr) (a b : W64) (x : Bool) : Bool := goes i (ready .K a b 0) fun t => t.rp 3 == x

/-- R167-R171: wraps, signs, shift counts modulo 64, division by zero, kept bits. -/
theorem test_integer :
    gives (.iopAdd 3 1 2) 0x7FFFFFFFFFFFFFFF 1 0x8000000000000000 = true ∧
    gives (.iopSub 3 1 2) 0 1 0xFFFFFFFFFFFFFFFF = true ∧
    gives (.iopShl 3 1 2) 1 65 2 = true ∧
    gives (.iopShr 3 1 2) 0x8000000000000000 127 1 = true ∧
    gives (.iopSra 3 1 2) 0x8000000000000000 68 0xF800000000000000 = true ∧
    gives (.iopMin 3 1 2) 0xFFFFFFFFFFFFFFFF 1 0xFFFFFFFFFFFFFFFF = true ∧
    gives (.iopMinu 3 1 2) 0xFFFFFFFFFFFFFFFF 1 1 = true ∧
    gives (.iopMax 3 1 2) 0xFFFFFFFFFFFFFFFF 1 1 = true ∧
    gives (.iopMaxu 3 1 2) 0xFFFFFFFFFFFFFFFF 1 0xFFFFFFFFFFFFFFFF = true ∧
    gives (.iopAddw 3 1 2) 0x7FFFFFFF 1 0xFFFFFFFF80000000 = true ∧
    gives (.iopSubw 3 1 2) 0x80000000 1 0x7FFFFFFF = true ∧
    gives (.iopSlt 3 1 2) 0xFFFFFFFFFFFFFFFF 1 1 = true ∧
    gives (.iopSltu 3 1 2) 0xFFFFFFFFFFFFFFFF 1 0 = true ∧
    gives (.iopiAdd 3 1 0xFFF) 5 0 4 = true ∧
    gives (.iopiAnd 3 1 0x800) 0xFFFFFFFFFFFFFFFF 0 0xFFFFFFFFFFFFF800 = true ∧
    gives (.iopiSra 3 1 63) 0x8000000000000000 0 0xFFFFFFFFFFFFFFFF = true ∧
    gives (.iopiAddw 3 1 1) 0xFFFFFFFF 0 0 = true ∧
    gives (.ihiLo 3 0x8000) 0 0 0xFFFFFFFFFFFF8000 = true ∧
    gives (.ihiLou 3 0x8000) 0 0 0x8000 = true ∧
    gives (.ihiH2 3 0x2345) 0 0 0x1111234511111111 = true := by decide +kernel

/-- R170, R171. -/
theorem test_multiply_divide_bits :
    gives (.muldivMulh 3 1 2) 0xFFFFFFFFFFFFFFFF 0xFFFFFFFFFFFFFFFF 0 = true ∧
    gives (.muldivMulhu 3 1 2) 0xFFFFFFFFFFFFFFFF 0xFFFFFFFFFFFFFFFF 0xFFFFFFFFFFFFFFFE = true ∧
    gives (.muldivDiv 3 1 2) (-7) 2 (-3) = true ∧
    gives (.muldivRem 3 1 2) (-7) 2 (-1) = true ∧
    gives (.muldivDiv 3 1 2) 7 0 0xFFFFFFFFFFFFFFFF = true ∧
    gives (.muldivRemu 3 1 2) 7 0 7 = true ∧
    gives (.muldivDiv 3 1 2) 0x8000000000000000 (-1) 0x8000000000000000 = true ∧
    gives (.muldivRem 3 1 2) 0x8000000000000000 (-1) 0 = true ∧
    gives (.bitfPopc 3 1) 0xF0F0 0 8 = true ∧ gives (.bitfClz 3 1) 1 0 63 = true ∧
    gives (.bitfClz 3 1) 0 0 64 = true ∧ gives (.bitfCtz 3 1) 0 0 64 = true ∧ gives (.bitfCtz 3 1) 8 0 3 = true ∧
    gives (.bitfBrev 3 1) 1 0 0x8000000000000000 = true ∧
    gives (.bitfBswap 3 1) 0x0102030405060708 0 0x0807060504030201 = true ∧
    gives (.bitfExtu 3 1 2) 0xABC 0x804 0xAB = true ∧
    gives (.bitfExts 3 1 2) 0xABC 0x804 0xFFFFFFFFFFFFFFAB = true ∧
    gives (.bitfExtu 3 1 2) 0xABC 0x004 0 = true ∧
    gives (.bitfIns 3 1 2) 0xAB 0x804 0x1111111111111AB1 = true := by decide +kernel

/-- R172, R173, R11: signed and unsigned order, p0 and s0. -/
theorem test_predicates :
    holds (.cmpLt 3 1 2) (-1) 1 true = true ∧ holds (.cmpLtu 3 1 2) (-1) 1 false = true ∧
    holds (.cmpGe 3 1 2) 1 1 true = true ∧ holds (.cmpTst 3 1 2) 6 9 false = true ∧
    holds (.prdNor 3 4 5) 0 0 true = true ∧ holds (.prdAndn 3 0 4) 0 0 true = true ∧ holds (.prdFrs 3 1) 2 0 true = true ∧
    holds (.prdWrs 1) 0xFFF7 0 false = true ∧ gives (.prdRds 3) 0 0 1 = true ∧ gives (.prdTos 3 0) 0 0 1 = true ∧
    goes (.cmpNe 0 1 1) (ready .K 0 0 0) (fun t => t.rp 0) = true ∧
    goes (.iopAdd 0 1 2) (ready .K 1 1 0) (fun t => t.rs 0 == 0) = true := by decide +kernel

/-- The fault record that the first fault of core 0's node has left at the end of the cycle (R305, R309), as one number, and
its queue's PROD. -/
def firstRecord (t : State) : Nat × Nat := (Mem.readN t.tick.mem 0x102000100 32, Mem.readN t.tick.mem 0x102000000 8)

/-- One record has been written, with the given class, code, unit and fault address (R305, R306). -/
def records (t : State) (cls code unit : Nat) (addr : Nat) : Bool :=
  let r := (firstRecord t).1
  decide ((firstRecord t).2 = 1 ∧ fld r 30 2 = cls ∧ fld r 248 8 = code ∧ fld r 25 4 = unit ∧ fld r 64 56 = addr)

/-- R154, R174-R177, R181, R182, R16, R18: targets, the link, a loop's entry, END, a trap, an event. -/
theorem test_control :
    goes (.br false 0 5) (ready .K 0 0 0) (fun t => t.me.pc == 0x10000000014) = true ∧
    goes (.br false 0 0x1FFFFF) (ready .K 0 0 0) (fun t => records t 0 5 0 0xFFFFFFFFFC && t.me.pc == 0x10000000000) = true ∧
    goes (.br true 0 5) (ready .K 0 0 0) (fun t => t.me.pc == 0x10000000004) = true ∧
    goes (.jmpLink 1 1) (ready .K 0x10000000100 0 0) (fun t => t.me.pc == 0x10000000100 && t.rs 1 == 0x10000000004) = true ∧
    goes (.jmpR 1) (ready .L 0x10000000102 0 0) (fun t => records t 0 3 1 0x10000000102) = true ∧
    goes (.loopSp 2 1 4) (ready .K 3 0 0) (fun t => t.me.lc == 3 && t.me.esc == 2 && t.me.loop.fin == 0x10000000010 &&
      t.rp 8 && !t.rp 9) = true ∧
    goes (.loopSp 2 1 4) (ready .K 0 0 0) (fun t => t.me.pc == 0x10000000010 && !t.me.loop.active) = true ∧
    goes (.sysEnd false) (ready .S 0 0 0) (fun t => t.me.run == .ended) = true ∧
    goes (.sysTrap 1 7) (ready .S 0xAB00000000000005 0 0) (fun t => records t 1 7 3 5 &&
      fld (firstRecord t).1 240 8 == 0xAB && t.me.run == .halted) = true ∧
    goes .sysWev (ready .K 0 0 0) (fun t => t.me.wait == some (.word .sysWev) && t.me.pc == 0x10000000000) = true ∧
    goes (.ordFull 4) (ready .K 0 0 0) (fun t => t.me.pc == 0x10000000004) = true ∧
    goes (.unassignedOpcode 0x3C000000) (ready .K 0 0 0) (fun t => records t 0 2 0 0) = true ∧
    goes (.unassignedOpcode 0) (ready .L 0 0 0) (fun t => records t 0 1 1 0) = true := by decide +kernel

/-- R178-R180, R148, R163: bytes in order, signs, the alignment, FPCR in C one cycle later, a read-only register. -/
theorem test_memory_and_registers :
    goes (.stsB32 2 1 false 4) (ready .K 0x100 0xAABBCCDD 0) (fun t => Mem.read t.mem (2 ^ 52 + 0x104) == 0xDD &&
      Mem.read t.mem (2 ^ 52 + 0x107) == 0xAA && Mem.read t.mem (2 ^ 52 + 0x108) == 0) = true ∧
    goes (.stsB8 2 1 false 0xFFF) (ready .S 0x101 0x1FF 0) (fun t => Mem.readN t.mem (2 ^ 52 + 0x100) 2 == 0xFF) = true ∧
    goes (.stsB64 2 1 false 0) (ready .K 0x104 1 0) (fun t => records t 0 3 0 0x104 && t.me.pc == 0x10000000000) = true ∧
    goes (.ldsI8 3 1 false 0) { ready .K 0x100 0 0 with mem := [⟨2 ^ 52 + 0x100, 0x80⟩] }
      (fun t => t.rs 3 == 0xFFFFFFFFFFFFFF80) = true ∧
    goes (.ldsB16 3 1 false 0) { ready .K 0x100 0 0 with mem := [⟨2 ^ 52 + 0x100, 1⟩, ⟨2 ^ 52 + 0x101, 2⟩] }
      (fun t => t.rs 3 == 0x201) = true ∧
    goes (.ldsI32 3 1 false 0) { ready .K 0x100 0 0 with mem := [⟨2 ^ 52 + 0x103, 0x80⟩] }
      (fun t => t.rs 3 == 0xFFFFFFFF80000000) = true ∧
    goes (.ldsB64 3 1 false 0) (ready .K 0x100000 0 0) (fun t => records t 0 5 0 0x100000) = true ∧
    goes (.csrRd 3 0x013) (ready .S 0 0 0) (fun t => t.rs 3 == 1) = true ∧
    goes (.csrWr 1 0x012) (ready .K 0 0 0) (fun t => records t 0 1 0 0) = true ∧
    goes (.csrSet 3 1 0x003) (ready .K 5 0 0) (fun t => t.rs 3 == 0 && t.me.esc == 5) = true ∧
    goes (.csrWr 1 0x003) (ready .K 8 0 0) (fun t => records t 0 1 0 0 && t.me.esc == 0) = true ∧
    goes (.csrWr 1 0x004) (ready .C 9 0 0) (fun t => (t.core 0).flight.map (fun f => (f.left, f.op)) == [(1, .csr 4 9)] &&
      (t.core 0).vrot == 0) = true := by decide +kernel

/-- R183-R187, R284-R286: entries save and return restores, one level each; rings count from their descriptor. -/
theorem test_hearth :
    goes (.sysTrap 1 3) (hearthReady 0 0x55 0 0) (fun t => let h := t.hearth 0;
      h.lv == 1 && h.es.epc == 0x40000004 && h.es.einfo == 0x55 && h.es.ecause == 0x300 && h.seq.pc == 0) = true ∧
    goes (.privRd 3 1) (hearthReady 0 0x800 0 0) (fun t => let h := t.hearth 0;
      h.lv == 1 && h.es.epc == 0x40000000 && h.es.ecause == 0x202 && h.seq.pc == 128) = true ∧
    goes (.privHcall 9) (hearthReady 1 0 0 0) (fun t => let h := t.hearth 0;
      h.lv == 2 && h.eh.ecause == 0x10901 && h.seq.pc == 64) = true ∧
    goes .privRet (let s := hearthReady 2 0 0 0;
      s.setHearth 0 { s.hearth 0 with eh := { epc := 0x1234, ecause := 0x50000 } })
      (fun t => let h := t.hearth 0; h.lv == 1 && h.ie && h.seq.pc == 0x1234) = true ∧
    goes (.privWr 1 2) (hearthReady 2 0x820 15 0) (fun t => (t.hearth 0).psel == 15) = true ∧
    goes (.privWr 1 2) (hearthReady 1 0x820 15 0) (fun t => (t.hearth 0).psel == 0 && (t.hearth 0).eh.ecause == 0x10202) = true ∧
    goes .privWfi (hearthReady 1 0 0 0) (fun t => t.me.wait == some (.word .privWfi)) = true := by decide +kernel

/-- Core 0 with q2 a ring of n slots of one line, HEAD, TAIL and CLAIMED as given. -/
def withRing (s : State) (n head tail claimed : Nat) : State :=
  s.setRing 0 2 { cfg := BitVec.ofNat 64 ((n - 1) * 2 ^ 21), head := head, tail := tail, claimed := claimed }

/-- R57-R62, R184-R186: tickets, the wrap at W = 65,535 of three slots, out-of-order commits, semaphores, barriers. -/
theorem test_rings_and_barriers :
    goes (.ringClaim 3 2 1 false) (withRing (ready .K 1 0 0) 3 65534 65534 65534)
      (fun t => t.rs 3 == 65534 && (t.ring 0 2).claimed == 0) = true ∧
    goes (.ringClaim 3 2 1 false) (withRing (ready .K 4 0 0) 3 0 0 0) (fun t => records t 0 7 0 0) = true ∧
    goes (.ringClaim 3 2 1 false) (withRing (ready .L 1 0 0) 3 0 0 3) (fun t => t.me.wait.isSome && t.rs 3 == 0) = true ∧
    goes (.ringCommit 2 2 1 false) (withRing (ready .K 1 1 0) 3 0 0 2)
      (fun t => (t.ring 0 2).done == 2 && (t.ring 0 2).tail == 0) = true ∧
    goes (.ringPop 2 1 false) (withRing (ready .S 2 0 0) 3 0 2 2) (fun t => (t.ring 0 2).head == 2) = true ∧
    goes (.ringRd 3 2) (withRing (ready .S 0 0 0) 3 1 2 3) (fun t => t.rs 3 == 0x300020001) = true ∧
    goes (.ringCfg 2 1) (ready .K 0x5001FF 0 0) (fun t => (t.ring 0 2).cfg == 0x5001FF) = true ∧
    goes (.semAdd 0 2 1 false) (ready .K 0xFFFFFFFF 0 0) (fun t => (t.core 0).sems.get 2 == 0xFFFFFFFF && t.me.event) = true ∧
    goes (.semWaitge 2 1) (ready .K 1 0 0) (fun t => t.me.wait.isSome) = true ∧
    goes (.gbarArr 0) (ready .K 0 0 0) (fun t => ((t.cluster 0).bars.get 0).phase == 1 && ((t.cluster 0).bars.get 0).count == 0 &&
      t.me.seen.get 0 == some 0) = true := by decide +kernel

/-- R306's worked example: class, unit, cluster, core and index in the low word, code and NID in DETAIL. -/
theorem test_record_words :
    (let r := ({ code := 8, unit := 4, index := 1, cid := 3, cor := 17, nv := true, nid := 5 } : Record).bits 0;
     decide (r % 2 ^ 64 = 0x28644001 ∧ r / 2 ^ 192 = 0x0800000500000000)) = true := by decide +kernel

/-- C of core 0 about to run with one row of eight lanes, v1 = a, v2 = b, v3 = c and FPCR as given. -/
def lanesReady (a b c : List W32) (fpcr : W32) : State :=
  let s := ready .C 0 0 0
  let x := s.core 0
  s.setCore 0 { x with v := ((x.v.set 1 a).set 2 b).set 3 c, fpcr := fpcr }

/-- The word puts in flight for v3 lanes that begin with xs, with flags fl. -/
def lanesOut (i : Instr) (s : State) (xs : List W32) (fl : W32) : Bool :=
  goes i s fun t => match (t.core 0).flight with
    | [f] => decide (f.flags = fl) && match f.op with
      | .vec r ys => decide (r = 3 ∧ ys.take xs.length = xs ∧ ys.length = 8)
      | _ => false
    | _ => false

/-- With v1 = a, v2 = b, v3 = c under RNE without FTZ, as `lanesOut`. -/
def vec (i : Instr) (a b c xs : List W32) (fl : W32) : Bool := lanesOut i (lanesReady a b c 0) xs fl

/-- R195-R197, R212, R45: sums, signed zeros, NaNs, overflow, rounding by mode, roots and quotients. -/
theorem test_vector_floats :
    vec (.vfpAdd 3 1 2 0) [0x3F800000, 0x7F7FFFFF] [0x40000000, 0x7F7FFFFF] [] [0x40400000, 0x7F800000] 0x1400 = true ∧
    lanesOut (.vfpAdd 3 1 2 0) (lanesReady [0x7F7FFFFF] [0x7F7FFFFF] [] 1) [0x7F7FFFFF] 0x1400 = true ∧
    vec (.vfpSub 3 1 2 0) [0x7F800000] [0x7F800000] [] [0x7FC00000] 0x100 = true ∧
    vec (.vfpMul 3 1 2 1) [0x3FC00000] [0x3FC00000] [] [0x40100000] 0 = true ∧
    vec (.vfpMin 3 1 2 0) [0] [0x80000000] [] [0x80000000] 0 = true ∧
    vec (.vfpMax 3 1 2 0) [0x7F800001, 0xBF800000] [0, 0x3F800000] [] [0x7FC00000, 0x3F800000] 0x100 = true ∧
    vec (.vfpAbs 3 1 0) [0xBF800000] [] [] [0x3F800000] 0 = true ∧
    vec (.vfpNeg 3 1 0) [0] [] [] [0x80000000] 0 = true ∧
    vec (.vfpCpsgn 3 1 2 0) [0x3F800000] [0x80000000] [] [0xBF800000] 0 = true ∧
    vec (.vfmaFma 3 1 2 0) [0x40000000] [0x40400000] [0x3F800000] [0x40E00000] 0 = true ∧
    vec (.vfmaFnms 3 1 2 0) [0x40000000] [0x40400000] [0x3F800000] [0xC0E00000] 0 = true ∧
    vec (.vsfuSqrt 3 1 0) [0x40000000] [] [] [0x3FB504F3] 0x1000 = true ∧
    vec (.vsfuDiv 3 1 2 0) [0x3F800000, 0x3F800000] [0x40400000, 0] [] [0x3EAAAAAB, 0x7F800000] 0x1300 = true ∧
    vec (.vsfuRsqrt 3 1 0) [0x40800000] [] [] [0x3F000000] 0x200 = true ∧
    lanesOut (.vsfuRcp 3 1 0) (lanesReady [0x40400000, 0x3F800000, 0x3F800000, 0x3F800000, 0x3F800000, 0x3F800000, 0x3F800000,
      0x3F800000] [] [] 2) [0x3EAAAAAB, 0x3F800000] 0x1000 = true := by decide +kernel

/-- R191, R198-R206, R211. -/
theorem test_vector_integers :
    vec (.vintAdds 3 1 2 5) [0x7F, 0xFFFFFF80] [1, 0xFFFFFFFF] [] [0x7F, 0xFFFFFF80] 0 = true ∧
    vec (.vintSub 3 1 2 4) [0] [1] [] [0xFFFFFFFF] 0 = true ∧
    vec (.vintMulh 3 1 2 3) [0xFFFFFFFF] [0xFFFFFFFF] [] [0xFFFFFFFE] 0 = true ∧
    vec (.vintShl 3 1 2 5) [0xC1] [9] [] [0xFFFFFF82] 0 = true ∧
    vec (.vintSra 3 1 2 3) [0x80000000] [31] [] [0xFFFFFFFF] 0 = true ∧
    vec (.vintShr 3 1 2 2) [0x80000000] [31] [] [1] 0 = true ∧
    vec (.vintAbs 3 1 4) [0x8000] [] [] [0x7FFF] 0 = true ∧
    vec (.vintMin 3 1 2 3) [0xFFFFFFFF] [1] [] [1] 0 = true ∧
    vec (.vcmpLt 3 1 2 0) [0x3F800000, 0x7FC00000] [0x40000000, 0] [] [0xFFFFFFFF, 0] 0x100 = true ∧
    vec (.vcmpNe 3 1 2 0) [0x7FC00000] [0] [] [0xFFFFFFFF] 0 = true ∧
    vec (.vselSel 3 1 2) [1, 1] [2, 2] [9, 0] [1, 2] 0 = true ∧
    vec (.vsetIota 3 2) [] [] [] [0, 1, 2, 3] 0 = true ∧
    vec (.vpermSel 3 1 2) [10, 11, 12] [2, 8, 0] [] [12, 0, 10] 0 = true ∧
    vec (.vclmLo 3 1 2) [3] [3] [] [5] 0 = true ∧ vec (.vclmBrev 3 1) [1] [] [] [0x80000000] 0 = true ∧
    vec (.vcvtF2i 3 1 2) [0x40200000, 0x7FC00000] [] [] [2, 0] 0x1100 = true ∧
    vec (.vcvtF2i 3 1 5) [0x44000000] [] [] [0x7F] 0x100 = true ∧
    vec (.vcvtF2h 3 1) [0x3F808000] [] [] [0x3F800000] 0x1000 = true ∧
    vec (.vcvtRint 3 1 0) [0x40200000] [] [] [0x40000000] 0x1000 = true ∧
    goes (.vredSum 3 1 2) (lanesReady [1, 2, 3, 4, 5, 6, 7, 8] [] [] 0)
      (fun t => (t.core 0).flight.map (·.op) == [.vec 3 [36]]) = true ∧
    goes (.vsetGet 3 1 0) (lanesReady [7] [] [] 0) (fun t => (t.core 0).flight.map (·.op) == [.sreg 3 7]) = true ∧
    goes (.vredAnyp 3 1) (lanesReady [0, 0, 4] [] [] 0) (fun t => (t.core 0).flight.map (·.op) == [.preg 3 true]) = true :=
  by decide +kernel

/-- R21, R29, R46, R192, R207: a result lands with its flags and leaves the lanes past its own; VROT turns v16 into v17. -/
theorem test_landings :
    goes (.cStreamLanding 0) (let s := ready .C 0 0 0;
      s.setCore 0 { s.core 0 with v := (s.core 0).v.set 4 [1, 2, 3], flight := [{ left := 0, slot := 0, pc := 0, op := .vec 4 [9], flags := 0x100 }] })
      (fun t => (t.core 0).v.get 4 == [9, 2, 3] && (t.core 0).fpcr == 0x100 && (t.core 0).flight == []) = true ∧
    goes (.vsetIota 16 2) (let s := ready .C 0 0 0; s.setCore 0 { s.core 0 with vrot := 1 })
      (fun t => (t.core 0).flight.map (fun f => (f.left, f.op)) == [(2, .vec 17 [0, 1, 2, 3, 4, 5, 6, 7])]) = true ∧
    goes (.bundleIssue 0xFC400000 [0x84000000]) (ready .C 0 0 0) (fun t => t.me.pc == 0x10000000008) = true ∧
    goes (.bundleIssue 0xFC400001 [0x84000000]) (ready .C 0 0 0) (fun t => records t 0 1 2 0 &&
      fld (firstRecord t).1 192 4 == 15) = true := by decide +kernel

/-- R214-R216, R219-R234: commands are queued with their operands; a marked queue start; a clear of a tile. -/
theorem test_engines :
    goes (.copyMm 2 1 3 true) (ready .S 0x1000 0x2000 0x50000401) (fun t => (t.core 0).sq.cmds.map (fun x => (x.cmd, x.sig)) ==
      [(.copyMm 0x1000 0x2000 0x50000401, some 5)]) = true ∧
    goes (.copyMm 2 1 3 true) (ready .L 0x1000 0x2000 0x400) (fun t => records t 0 7 1 0) = true ∧
    goes (.lineWr 1 2) (ready .L 0x100 0x21 0) (fun t => t.side == [((2 ^ 52 + 0x100) / 256, 0x21)]) = true ∧
    goes (.accZero 2) (ready .C 0 0 0) (fun t => (t.core 0).mq.cmds.map (·.cmd) == [.accZero 2]) = true ∧
    goes (.engineCommandStart 0 .m) (let s := ready .C 0 0 0;
      s.setCore 0 { s.core 0 with tiles := [(2, { cnt := 3 })], mq := { cmds := [{ order := 0, pc := 0, cmd := .accZero 2 }] } })
      (fun t => (t.tile 0 2).cnt == 0 && (t.core 0).mq.cmds.map (·.started) == [true]) = true ∧
    goes (.accRd 3 2 1) (ready .C 1 0 0) (fun t => (t.core 0).flight.map (·.op) == [.accRd 3 2 1 8 0]) = true := by
  decide +kernel

/-- R237, R249-R256: the old value returns sign-extended, a posted form waits for its unit, counters add. -/
theorem test_near_memory :
    goes (.nmaAddI32 3 1 2) { ready .K 0x100000000 5 0 with mem := [⟨2 ^ 53 + 3, 0x80⟩] }
      (fun t => t.rs 3 == 0xFFFFFFFF80000000 && Mem.readN t.mem (2 ^ 53) 4 == 0x80000005) = true ∧
    goes (.nmaAddI32 0 1 2) (ready .K 0x100000000 5 0)
      (fun t => (t.core 0).posted.map (·.op) == [.nma 0 0 false] && Mem.readN t.mem (2 ^ 53) 4 == 0) = true ∧
    goes (.postedOpApply (.core 0) 0) (let s := ready .K 0 0 0;
      s.setCore 0 { s.core 0 with posted := [{ pc := 0, op := .nma 0 0 false, d := 0, a := 0x100000000, b := 5, part := 0 }] })
      (fun t => Mem.readN t.mem (2 ^ 53) 4 == 5 && (t.core 0).posted == []) = true ∧
    goes (.nmaMaxI64 3 1 2 false) (ready .K 0x100000004 5 0) (fun t => records t 0 3 0 0x100000004) = true ∧
    goes (.nmaCasI32 3 1 2) { ready .K 0x100000000 5 1 with mem := [⟨2 ^ 53, 1⟩] }
      (fun t => t.rs 3 == 1 && Mem.readN t.mem (2 ^ 53) 4 == 5) = true ∧
    goes (.postTcrd 3 0 5 0 false) { ready .K 0 0 0 with tcs := [(5, 77)] } (fun t => t.rs 3 == 77) = true ∧
    goes (.postTask 1) (ready .K 0x1000 0 0) (fun t => (t.part 0).qtail == 1) = true := by decide +kernel

/-- R320, R329, R336-R338, R314, R24: steps without a word. -/
theorem test_events :
    goes (.hostDoorbell 0) (let s := ready .K 0 0 0; s.setPart 0 { s.part 0 with pvf := 1 }) (fun t => (t.part 0).mb) = true ∧
    goes (.drainConfirm 3) (State.reset.setPort 3 { state := 3, flit := true })
      (fun t => (t.port 3).state == 4 && (t.port 3).conf) = true ∧
    goes (.islandWake 0) (State.reset.setIsland 0 { state := 1, target := 1, asked := some 0 }) (fun t => (t.island 0).state == 2) = true ∧
    goes (.coreGroupStart 0) { State.reset.setIsland 0 { state := 3, target := 2, groups := 7 } with clock := 56000 }
      (fun t => (t.island 0).state == 2) = true ∧
    goes (.watchdog 0) (let s := ready .K 0 0 0;
      s.setCore 0 { s.core 0 with freeze := some { seq := .K, unit := .specialFunction, addr := 0x40, cycles := 2 ^ 20 } })
      (fun t => records t 0 12 0 0x40) = true ∧
    goes (.loopIterationEnd (.core 0 .K)) (let s := ready .K 0 0 0;
      s.setMe { s.me with lc := 1, esc := 1, loop := { active := true, first := 0x10000000000, fin := 0x10000000000 } })
      (fun t => t.me.loop.t == 1 && !t.me.rdP 8 && t.me.rdP 9) = true := by decide +kernel

/-- R150, R21: a turn fetches and runs the word at the pc; a bundle's cycle passes. -/
theorem test_step :
    (match step (State.reset.withFetchWord 32 0x04642800) with
      | .next t => (t.seqOf (.core 0 .K)).pc == 0x10000000004
      | _ => false) = true ∧
    (match step (State.reset.withFetchWord 32 0x84000000) with
      | .next t => (t.seqOf (.core 0 .C)).pc == 0x10000000008
      | _ => false) = true := by decide +kernel

/-! ### Witnesses: for each statement, states and operands that meet its hypotheses -/

/-- Every word of a list passes its checks in a state. -/
def pass (s : State) (l : List Instr) : Bool := l.all s.passes

/-- A check that succeeds, with a value for which f holds. -/
def okWith {α : Type} (x : Except Exc α) (f : α → Bool) : Bool :=
  match x with
  | .ok v => f v
  | .error _ => false

/-- A check that fails. -/
def fails {α ε : Type} (x : Except ε α) : Bool :=
  match x with
  | .ok _ => false
  | .error _ => true

theorem witness_ScalarIntegerResults :
    pass (ready .K 1 2 3) [.iopAdd 3 1 2, .iopSub 3 1 2, .iopAnd 3 1 2, .iopOr 3 1 2, .iopXor 3 1 2, .iopShl 3 1 2,
      .iopShr 3 1 2, .iopSra 3 1 2, .iopMin 3 1 2, .iopMax 3 1 2, .iopMinu 3 1 2, .iopMaxu 3 1 2, .iopAddw 3 1 2,
      .iopSubw 3 1 2, .iopSlt 3 1 2, .iopSltu 0 1 2, .iopiAdd 3 1 0x800, .iopiAnd 3 1 1, .iopiOr 3 1 1, .iopiXor 3 1 1,
      .iopiShl 3 1 63, .iopiShr 3 1 0, .iopiSra 3 1 1, .iopiAddw 3 1 1, .ihiLo 3 1, .ihiLou 3 1, .ihiH1 3 1, .ihiH2 3 1,
      .ihiH3 3 1] = true ∧
    decide (fld 0x04000010 26 6 = 1 ∧ 16 ≤ fld 0x04000010 0 6 ∧ fld 0x08008000 26 6 = 2 ∧ 8 ≤ fld 0x08008000 12 4 ∧
      fld 0x08004040 12 4 = 4 ∧ fld 0x08004040 6 6 ≠ 0 ∧ fld 0x0C050000 26 6 = 3 ∧ 5 ≤ fld 0x0C050000 16 5) = true := by decide +kernel

theorem witness_MultiplyDivideAndBitFields :
    pass (ready .S 1 2 3) [.muldivMul 3 1 2, .muldivMulh 3 1 2, .muldivMulhu 3 1 2, .muldivDiv 3 1 2, .muldivDivu 3 1 2,
      .muldivRem 3 1 2, .muldivRemu 3 1 2, .bitfPopc 3 1, .bitfClz 3 1, .bitfCtz 3 1, .bitfBrev 3 1, .bitfBswap 3 1,
      .bitfExtu 3 1 2, .bitfExts 3 1 2, .bitfIns 3 1 2] = true ∧
    decide ((0x8000000000000000 : W64).toInt = -2 ^ 63 ∧ (0xFFFFFFFFFFFFFFFF : W64).toInt = -1 ∧
      fld 0x34000007 26 6 = 0x0D ∧ 7 ≤ fld 0x34000007 0 6 ∧ fld 0x30000008 26 6 = 0x0C ∧ 8 ≤ fld 0x30000008 0 6 ∧
      fld 0x30000804 0 6 = 4 ∧ fld 0x30000804 11 5 ≠ 0) = true := by decide +kernel

theorem witness_ComparisonsAndPredicates :
    pass (ready .L 1 2 3) [.cmpEq 3 1 2, .cmpNe 3 1 2, .cmpLt 3 1 2, .cmpGe 3 1 2, .cmpLtu 3 1 2, .cmpGeu 3 1 2, .cmpTst 0 1 2,
      .prdAnd 1 2 3, .prdOr 1 2 3, .prdXor 1 2 3, .prdAndn 1 2 3, .prdOrn 1 2 3, .prdNor 1 2 3, .prdFrs 1 2, .prdTos 1 2,
      .prdRds 1, .prdWrs 1] = true ∧
    decide (fld 0x10000007 26 6 = 4 ∧ 7 ≤ fld 0x10000007 0 6 ∧ fld 0x12000000 26 6 = 4 ∧ 16 ≤ fld 0x12000000 21 5 ∧
      fld 0x1400000A 26 6 = 5 ∧ 10 ≤ fld 0x1400000A 0 6 ∧ fld 0x16000000 26 6 = 5 ∧ 16 ≤ fld 0x16000000 21 5 ∧
      fld 0x14000806 0 6 = 6 ∧ fld 0x14000806 11 5 ≠ 0 ∧ fld 0x14010008 0 6 = 8 ∧ fld 0x14010008 16 5 ≠ 0 ∧
      fld 0x14200009 0 6 = 9 ∧ fld 0x14200009 21 5 ≠ 0) = true := by decide +kernel

theorem witness_ResultsReachRegisters : (∀ g, (hearthReady 0 0 0 0).cur ≠ .core g .C) ∧ (ready .C 0 0 0).cur = .core 0 .C :=
  ⟨fun _ => nofun, rfl⟩

theorem witness_RegisterWordsFrame :
    decide (majorOf (.bitfPopc 3 1) ∈ [0x01, 0x02, 0x03, 0x04, 0x05, 0x0C, 0x0D]) = true ∧
    pass (ready .C 1 2 3) [.bitfPopc 3 1, .ihiLo 3 1] = true ∧ pass (hearthReady 0 1 2 3) [.iopAdd 3 1 2, .cmpEq 3 1 2] = true := by
  decide +kernel

theorem witness_FailedTransfers :
    pass (ready .K 0x20000000100 0 0) [.br false 0 0x1FFFFF, .jmpR 1, .jmpLink 1 1] = true ∧
    (let s := ready .K 0x20000000100 0 0;
      let bad (r : Except Exc W32) (x : W64) : Bool := match r with
        | .error (.fault _ y _) => y == x
        | _ => false
      !s.me.loop.active && bad ((s.begun (.br false 0 0x1FFFFF)).fetchWord s.cur 0xFFFFFFFFFC) 0xFFFFFFFFFC &&
        bad ((s.begun (.jmpR 1)).fetchWord s.cur 0x20000000100) 0x20000000100 &&
        bad ((s.begun (.jmpLink 1 1)).fetchWord s.cur 0x20000000100) 0x20000000100) = true ∧
    (let s := ready .K 0 0 0;
      let s := s.setMe { s.me with loop := { active := true, first := 0, fin := 0xFFFFFFFFFC, t := 0 } };
      pass s [.br false 0 0x1FFFFF] && goes (.br false 0 0x1FFFFF) s fun t => t.me.pc == 0xFFFFFFFFFC) = true := by
  decide +kernel

theorem witness_BranchesAndJumps :
    pass (ready .K 0x10000000100 0 0) [.br false 0 5, .br true 1 5, .jmpR 1, .jmpLink 1 1] = true ∧
    (let s := ready .K 0x10000000100 0 0;
      okWith ((s.begun (.br false 0 5)).fetchWord s.cur 0x10000000014) (fun _ => true) &&
      okWith ((s.begun (.jmpR 1)).fetchWord s.cur 0x10000000100) (fun _ => true) &&
      okWith ((s.begun (.jmpLink 1 1)).fetchWord s.cur 0x10000000100) fun _ => true) = true ∧
    pass (ready .K 2 0 0) [.jmpR 1, .jmpLink 1 1] = true ∧
    pass (ready .K 0x0100000000000000 0 0) [.jmpR 1, .jmpLink 1 1] = true ∧
    (let s := ready .K 0x10000000100 0 0;
      let u := s.setMe { s.me with loop := { active := true, first := 0x10000000000, fin := 0x10000000010, t := 0 } };
      pass u [.br false 0 0x40, .jmpR 1] && okWith ((u.begun (.br false 0 0x40)).fetchWord u.cur 0x10000000100) fun _ =>
        decide (u.me.loop.fin < 0x10000000100)) = true := by decide +kernel

theorem witness_LoopControl :
    (let s := ready .C 3 0 0;
      s.passes (.loopSp 7 1 4) && !s.me.loop.active && decide (bf (s.rs 1) 0 32 ≠ 0)) = true ∧
    (let s := ready .K 0 0 0;
      s.passes (.loopSp 0 1 2) && !s.me.loop.active && decide (bf (s.rs 1) 0 32 = 0)) = true ∧
    (let s := ready .K 3 0 0;
      let u := s.setMe { s.me with lc := 2, esc := 1, loop := { active := true, first := 0x10000000000, fin := 0x10000000000, t := 1 } };
      u.passes (.loopSp 1 1 2) && u.me.loop.active && u.canRun (.core 0 .K) && u.me.pc == u.me.loop.fin &&
        decide (u.me.loop.t + 1 < u.me.lc.toNat + u.me.esc.toNat)) = true ∧
    (let s := ready .C 3 0 0;
      let u := s.setMe { s.me with lc := 2, esc := 1, loop := { active := true, first := 0x10000000000, fin := 0x10000000000, t := 2 } };
      u.canRun (.core 0 .C) && u.me.pc == u.me.loop.fin && decide (u.me.lc.toNat + u.me.esc.toNat ≤ u.me.loop.t + 1)) = true := by
  decide +kernel

/-- A posted operation of core 0's K. -/
def postedOne (op : NearOp) (d a b : W64) : Posted := { pc := 0, op := op, d := d, a := a, b := b, part := 0 }

/-- K of core 0 with one posted operation that a bank unit has not applied. -/
def posting : State :=
  let s := ready .K 0x100000000 5 0
  s.setCore 0 { s.core 0 with posted := [postedOne (.nma 0 0 false) 0 0x100000000 5] }

theorem witness_SystemWordsAndFences :
    pass (ready .K 0 0 0) [.sysNop, .sysEnd false, .sysEnd true, .sysTrap 1 31, .sysWev, .ordAcq 4, .ordRel 4, .ordFull 4] = true ∧
    (let s := ready .L 0 0 0; let u := s.setMe { s.me with event := true }; u.passes .sysWev && u.me.event) = true ∧
    (ready .L 0 0 0).me.event = false ∧ (ready .K 0 0 0).postedBy = [] ∧ posting.postedBy ≠ [] ∧
    pass posting [.ordRel 3, .ordFull 3, .ordRel 1, .ordFull 1, .ordRel 0, .ordFull 0] = true := by decide +kernel

theorem witness_ScalarLoadResults :
    [(Instr.ldsB8 3 1 false 0, 1), (.ldsI8 3 1 false 0, 1), (.ldsB16 3 1 true 0, 2), (.ldsI16 3 1 false 0, 2), (.ldsB32 3 1 false 0, 4),
      (.ldsI32 3 1 false 0, 4), (.ldsB64 3 1 true 0, 8)].all (fun p =>
      let s := ready .K 0xFFFF8 0 0;
      let ea : W64 := 0xFFFF8;
      s.passes p.1 && !s.mustDrain ea && decide (ea.toNat % p.2 = 0) &&
        okWith ((s.begun p.1).resolveFor s.cur ea { rd := true }) fun k => !isExt k &&
          okWith ((s.begun p.1).trackMe k p.2 false ea) fun u => !u.badIn k p.2 && !u.poisoned k) = true := by decide +kernel

/-- The request that port 0 holds of a hearth core at level H. -/
def portHeld (now : Nat) : Request := { va := 0x8000000000000, key := 0x8000000000000, begun := false, via := none, since := now }

/-- A hearth core at level H reaches port 0: held while the port is not UP, taken where it is UP and the peer answers
(R298, R327, R329). -/
theorem held_at_port (s : State) (h : Nat) (n : Need) (hl : (s.hearth h).lv = 2) (hp : ((s.port 0).state == 2) = false)
    (hs : s.asked = none) : s.hresolve h 0x8000000000000 n = .error (.hold (portHeld s.clock)) := by
  have r : s.extRequest 0x8000000000000 0x8000000000000#64 none = .error (.hold (portHeld s.clock)) := by
    have k : extTarget 0x8000000000000 = 0 := by decide
    have z : ¬ 16 < fld 0x8000000000000 46 5 := by decide
    have p : (s.port 0).state ≠ 2 := by simpa using hp
    simp [State.extRequest, State.portRequest, State.askedFor, portHeld, k, z, hp, hs, p]
  have e : isExt 0x8000000000000 = true := by decide
  simp [State.hresolve, hl, e, r]
theorem taken_at_port (s : State) (n : Need) (hc : s.cur = .hearth 0) (hl : (s.hearth 0).lv = 2) (hp : (s.port 0).state = 2)
    (ha : s.asked = none) (hs : Config.peerSlow s.free 0x8000000000000 = false) :
    s.resolveFor s.cur 0x8000000000000 n = .ok 0x8000000000000 := by
  have r : s.extRequest 0x8000000000000 0x8000000000000#64 none = .ok 0x8000000000000 := by
    have k : extTarget 0x8000000000000 = 0 := by decide
    have z : ¬ 16 < fld 0x8000000000000 46 5 := by decide
    simp [State.extRequest, State.portRequest, State.askedFor, k, z, hp, hs, ha]
  have e : isExt 0x8000000000000 = true := by decide
  simp [State.resolveFor, State.hresolve, hc, hl, e, r]

/-- A hearth core at level H about to store through port 0, which is UP, and one through a failed link. -/
def throughPort : State := (hearthReady 2 0x8000000000000 7 0).setPort 0 { state := 2 }
def throughFailedLink : State := { hearthReady 2 0x40000000 7 0 with links := linksUp.set 0 { reg := 0x0000020000022C03 } }

theorem witness_ScalarStores :
    [(Instr.stsB8 3 1 false 0, 1), (.stsB16 3 1 true 0, 2), (.stsB32 3 1 false 0, 4), (.stsB64 3 1 false 0, 8)].all (fun p =>
      let s := ready .S 0xFFFF8 0 0;
      let ea : W64 := 0xFFFF8;
      Memory.wf s.mem && s.passes p.1 && !s.mustDrain ea && decide (ea.toNat % p.2 = 0) &&
        okWith ((s.begun p.1).resolveFor s.cur ea { w := true }) fun k => !isExt k && !isDev k &&
          okWith ((s.begun p.1).trackMe k p.2 true ea) fun _ => true) = true ∧ [(Instr.stsB8 2 1 false 0, 1), (.stsB16 2 1 false 0, 2), (.stsB32 2 1 false 0, 4), (.stsB64 2 1 false 0, 8)].all (fun p =>
      let s := throughFailedLink;
      s.passes p.1 && !s.mustDrain (s.rs 1) && okWith ((s.begun p.1).resolveFor s.cur (s.rs 1) { w := true }) fun k =>
        !isExt k && okWith ((s.begun p.1).trackMe k p.2 true (s.rs 1)) fun u => isDev k && u.linkFailed (u.linkOf k)) = true := by
  decide +kernel

/-- A store of each width through a fabric port whose peer takes it: a value of the free function `peerSlow`. -/
theorem witness_StoresThroughAPort (h : Config.peerSlow throughPort.free 0x8000000000000 = false) :
    throughPort.mustDrain (throughPort.rs 1) = false ∧ throughPort.rs 1 = 0x8000000000000 ∧ isExt 0x8000000000000 = true ∧
    ∀ p ∈ [(Instr.stsB8 2 1 false 0, 1), (.stsB16 2 1 false 0, 2), (.stsB32 2 1 false 0, 4), (.stsB64 2 1 false 0, 8)],
      throughPort.passes p.1 = true ∧
      (throughPort.begun p.1).resolveFor throughPort.cur 0x8000000000000 { w := true } = .ok 0x8000000000000 ∧
      okWith ((throughPort.begun p.1).trackMe 0x8000000000000 p.2 true 0x8000000000000) (fun _ => true) = true := by
  refine ⟨by decide +kernel, by decide +kernel, by decide +kernel, fun p hp => ?_⟩
  simp only [List.mem_cons, List.not_mem_nil, or_false] at hp
  rcases hp with rfl | rfl | rfl | rfl <;>
    exact ⟨by decide +kernel, taken_at_port _ _ (by decide +kernel) (by decide +kernel) (by decide +kernel) (by decide +kernel) h,
      by decide +kernel⟩

theorem witness_ScalarAccessChecks :
    pass (ready .K 4 0 0) [.ldsB64 3 1 false 0, .stsB64 3 1 false 0] = true ∧ (ready .K 4 0 0).mustDrain 4 = false ∧
    (let s := ready .K 0x100000 0 0;
      pass s [.ldsB64 3 1 false 0, .stsB64 3 1 false 0] &&
        fails ((s.begun (.ldsB64 3 1 false 0)).resolveFor s.cur 0x100000 { rd := true }) &&
        fails ((s.begun (.stsB64 3 1 false 0)).resolveFor s.cur 0x100000 { w := true })) = true ∧
    [{ ready .K 0x100 0 0 with bad := [(2 ^ 52 + 0x100) / 8] },
      { ready .K 0x100 0 0 with side := [((2 ^ 52 + 0x100) / 256, 0x2000000)] }].all (fun s =>
      let i : Instr := .ldsB64 3 1 false 0;
      s.passes i && okWith ((s.begun i).resolveFor s.cur 0x100 { rd := true }) fun k =>
        okWith ((s.begun i).trackMe k 8 false 0x100) fun u => u.badIn k 8 || u.poisoned k) = true ∧
    (let s := hearthReady 2 0x8000000000000 0 0;
      pass s [.ldsB64 3 1 false 0, .stsB64 3 1 false 0] && !s.mustDrain 0x8000000000000) = true ∧
    (hearthReady 2 0x8000000000000 0 0).hresolve 0 0x8000000000000 { rd := true } = .error (.hold (portHeld 0)) := by
  refine ⟨by decide +kernel, by decide +kernel, by decide +kernel, by decide +kernel, by decide +kernel, ?_⟩
  exact held_at_port _ _ _ (by decide +kernel) (by decide +kernel) (by decide +kernel)

theorem witness_SpecialRegisterAccess :
    pass (ready .K 5 0 0) [.csrRd 3 0x010, .csrWr 1 0x003, .csrSet 3 1 0x002, .csrClr 3 1 0x002] = true ∧
    (csrFits 3 5 && csrFits 2 (csrRead (ready .K 5 0 0) 2 ||| 5) && csrFits 2 (csrRead (ready .K 5 0 0) 2 &&& ~~~5)) = true ∧
    ((ready .K 8 0 0).passes (.csrWr 1 0x003) && !csrFits 3 8) = true ∧ (csrFits 2 7 && csrFits 3 7) = true ∧
    (ready .C 0 0 0).cur = .core 0 .C := by decide +kernel

theorem witness_PrivilegedRegisterWords :
    (let s := hearthReady 1 0x811 5 0;
      pass s [.privRd 3 1, .privWr 1 2] && okWith ((s.begun (.privRd 3 1)).regNumber 0 0x811 false) (fun n =>
        okWith ((s.begun (.privRd 3 1)).rdReg 0 n) fun _ => true) &&
      okWith ((s.begun (.privWr 1 2)).regNumber 0 0x811 true) fun n => n != 0x840 &&
        okWith ((s.begun (.privWr 1 2)).wrReg 0 n 5) fun _ => true) = true ∧
    (let s := hearthReady 2 0x840 0x1 0;
      s.passes (.privWr 1 2) && (s.hearth 0).ncmd.isNone && okWith ((s.begun (.privWr 1 2)).regNumber 0 0x840 true) fun n =>
        n == 0x840 && okWith ((s.begun (.privWr 1 2)).wrReg 0 n 1) fun _ => true) = true ∧
    pass (hearthReady 2 0x1000 0 0) [.privRd 3 1, .privWr 1 2] = true ∧
    pass (hearthReady 2 0x7FF 0 0) [.privRd 3 1, .privWr 1 2] = true ∧
    pass (hearthReady 1 0x820 0 0) [.privRd 3 1, .privWr 1 2] = true ∧
    decide ((pregLevels 0x820).isSome = true ∧ majorOf (.privRd 3 1) = 0x0F ∧ (hearthReady 0 0 0 0).cur = .hearth 0 ∧
      ((hearthReady 0 0 0 0).hearth 0).lv = 0) = true := by decide +kernel

theorem witness_HearthEntryAndReturn :
    decide ((hearthReady 0 0 0 0).cur = .hearth 0 ∧ ((hearthReady 2 0 0 0).hearth 0).lv ≤ 2) = true ∧
    (let s := hearthReady 2 0 0 0;
      let u := s.setHearth 0 { s.hearth 0 with eh := { epc := 0x1234, ecause := 0x50000 } };
      u.passes .privRet && decide (bf (u.hearth 0).eh.ecause 16 2 ≤ 2 ∧ bf (u.hearth 0).eh.ecause 16 2 ≠ 3)) = true ∧
    pass (hearthReady 1 0 0 0) [.privRet, .privHcall 31, .privWfi] = true ∧ pass (hearthReady 2 0 0 0) [.privHcall 0] = true ∧
    ((hearthReady 1 0 0 0).pending 0).isEmpty = true ∧
    (let s := hearthReady 1 0 0 0;
      let u := s.setPart 0 { s.part 0 with mb := true };
      u.passes .privWfi && !(u.pending 0).isEmpty) = true := by decide +kernel

theorem witness_SpecialRegisterMisfits :
    ((ready .K 8 0 0).passes (.csrSet 3 1 0x003) && !csrFits 3 (csrRead (ready .K 8 0 0) 3 ||| 8)) = true ∧
    (let s := ready .C 0xFFFFFFFF 0 0;
      s.passes (.csrClr 3 1 0x001) && !csrFits 1 (csrRead s 1 &&& ~~~(s.rs 1)) && csrFits 1 (csrRead s 1) && csrFits 4 15 &&
        csrFits 0 0x3F07 && !csrFits 0 8 && !csrFits 4 16 && !csrFits 2 0x100000000) = true ∧
    (let s := ready .K 0 0 0; (s.setMe { s.me with loop := { s.me.loop with active := true } }).me.loop.active = true) ∧
    (hearthReady 2 0 0 0).cur = .hearth 0 := by decide +kernel

theorem witness_PrivilegedWritesWait :
    (let s := hearthReady 2 0x843 2 0;
      let u := s.setHearth 0 { s.hearth 0 with posted := [postedOne (.nma 0 0 false) 0 0x100000000 5] };
      u.passes (.privWr 1 2) && !u.postedBy.isEmpty && s.postedBy.isEmpty && okWith ((u.begun (.privWr 1 2)).regNumber 0 0x843 true) fun n =>
        okWith ((u.begun (.privWr 1 2)).wrReg 0 n 2) fun _ => true) = true ∧
    (let s := hearthReady 2 0x840 1 0;
      let u := s.setHearth 0 { s.hearth 0 with ncmd := some { op := 1, part := 0, tile := false, graph := 0, nid := 0, cl := 0 } };
      u.passes (.privWr 1 2) && (u.hearth 0).ncmd.isSome && okWith ((u.begun (.privWr 1 2)).regNumber 0 0x840 true) fun n =>
        okWith ((u.begun (.privWr 1 2)).wrReg 0 n 1) fun _ => true) = true := by decide +kernel

/-- Hearth core 0 at level 0 with the interrupt MB of its partition pending, as its only one. -/
def interrupted : State :=
  let s := hearthReady 0 0 0 0
  s.setPart 0 { s.part 0 with mb := true }

theorem witness_InterruptEntryTakesTheLowest :
    (let s := interrupted;
      (s.hearth 0).seq.run == .running && !(s.hearth 0).debug && decide ((s.pending 0).length = 1) &&
        (s.pending 0).all fun b => decide ((s.hearth 0).lv < (s.hearth 0).routed b)) = true := by decide +kernel

/-- Hearth core 0 at level H in a partition whose tables map the device-memory address 2^40 to address 0 (R296, R297). -/
def mapped : State :=
  let s := hearthReady 2 0x10000000000 0x1 0
  let s : State := { s with mem := [⟨0x1000, 0x01⟩, ⟨0x1001, 0x20⟩, ⟨0x2000, 0x01⟩, ⟨0x2001, 0x30⟩, ⟨0x3000, 0x3A⟩, ⟨0x4000, 0x01⟩,
    ⟨0x4001, 0x50⟩, ⟨0x5010, 0x01⟩, ⟨0x5011, 0x60⟩, ⟨0x6000, 0x3E⟩] }
  s.setPart 0 { s.part 0 with ttbH := 0x1001, ttbS := 0x4001 }

theorem witness_TranslationInvalidation :
    (mapped.cur == .hearth 0 && mapped.serves (.hearth 0) 0 && inDevice (2 ^ 40) &&
      decide ((mapped.tlbOf (.hearth 0)).length < unitSize (.hearth 0))) = true ∧
    (match mapped.walk 0 (2 ^ 40) with
      | .ok (e, _, _) => e.pa == 0 && e.x && e.size == 2 ^ 30
      | .error _ => false) = true ∧
    fails (mapped.walk 0 (2 ^ 41)) = true ∧
    (let i : Instr := .privTinv 1 2;
      mapped.passes i && ((mapped.begun i).tinvErr 0 (mapped.rs 1) (mapped.rs 2)).isNone && (mapped.hearth 0).tinv.isNone &&
        (mapped.hearth 0).posted.isEmpty) = true ∧
    (let i : Instr := .privTinv 1 2;
      [([] : List Unit1), [.hearth 0]].all fun us =>
        let s := mapped.setHearth 0 { mapped.hearth 0 with tinv := some { addr := mapped.rs 1, desc := mapped.rs 2, units := us } };
        s.passes i && ((s.begun i).tinvErr 0 (s.rs 1) (s.rs 2)).isNone &&
          (s.hearth 0).tinv == some { addr := s.rs 1, desc := s.rs 2, units := us }) = true := by decide +kernel

/-- `mapped` with bytes of its tables changed. -/
def mappedWith (bs : List (Nat × Byte)) : State := { mapped with mem := bs.foldl (fun m b => Mem.write m b.1 b.2) mapped.mem }

/-- A walk that fails does so for a reason, at a level of a stage. -/
def walkFails (s : State) (va reason level stage : Nat) : Bool :=
  match s.walk 0 va with
  | .ok _ => false
  | .error f => decide (f.reason = reason ∧ f.level = level ∧ f.stage = stage)

/-- The rights that a walk's two leaves give: X, W and Rd of the first and the second, and where the walk goes. -/
def walkGives (s : State) (va : Nat) (l1 l2 : Bool × Bool × Bool) (pa : Nat) : Bool :=
  match s.walk 0 va with
  | .error _ => false
  | .ok (e, a, b) => (a.x, a.w, a.rd) == l1 && (b.x, b.w, b.rd) == l2 && e.pa == pa

theorem witness_WalksFailAndMiss :
    (let all := (true, true, true);
      walkGives mapped (2 ^ 40) all all 0 && walkGives (mappedWith [(0x6000, 0x02)]) (2 ^ 40) (false, false, false) all 0 &&
        walkGives (mappedWith [(0x3000, 0x0A)]) (2 ^ 40) all (false, false, true) 0 &&
        walkGives (mappedWith [(0x6003, 0x40), (0x3008, 0x3A), (0x300E, 0x08)]) (2 ^ 40) all all (2 ^ 51) &&
        walkGives (mappedWith [(0x6003, 0x40), (0x3008, 0x3A), (0x300E, 0x04)]) (2 ^ 40) all all (2 ^ 50)) = true ∧
    (walkFails mapped (2 ^ 41) 0 1 0 && walkFails (mappedWith [(0x6000, 0x03)]) (2 ^ 40) 1 2 0 &&
      walkFails (mapped.setPart 0 { mapped.part 0 with ttbH := 2 ^ 50 + 1, ttbS := 1 }) (2 ^ 40) 4 0 1 &&
      walkFails (mapped.setPart 0 { mapped.part 0 with ttbH := 0 }) (2 ^ 40) 0 0 1 &&
      walkFails (mapped.setPart 0 { mapped.part 0 with ttbS := 0 }) (2 ^ 40) 0 0 0 &&
      walkFails { mapped with bad := [0x1000 / 8] } (2 ^ 40) 2 0 1 &&
      walkFails { mapped with side := [(0x2000 / 256, 0x2000000)] } (2 ^ 40) 2 1 1) = true ∧
    ((mapped.setPart 0 { mapped.part 0 with ttbS := 0 }).stage1 0 (2 ^ 40)).isOk = false ∧
    (mapped.stage1 0 (2 ^ 40)).isOk = true ∧ (mapped.stage2 0 0).isOk = true ∧
    decide ((Mem.readN mapped.mem 0x1000 8) % 4 = 1 ∧ malformed true 0 0x2001 = false ∧ (Mem.readN mapped.mem 0x3000 8) % 4 = 2 ∧
      malformed true 2 0x3A = false ∧ (Mem.readN mapped.mem 0x1008 8) % 4 = 0) = true := by decide +kernel

theorem witness_RingConfiguration :
    (let s := ready .K 0x5001FF 0 0; s.cur == .core 0 .K && s.passes (.ringCfg 2 1) && decide (bf (s.rs 1) 27 37 = 0 ∧
      (bf (s.rs 1) 0 12 + (bf (s.rs 1) 21 6 + 1) * (bf (s.rs 1) 12 9 + 1)) * 256 - 1 ≤ 0xFFFFF ∧
      (s.ring 0 2).claimed = (s.ring 0 2).head) && !s.ringBusy 0 2) = true ∧
    (let s := ready .L 0x8000000 0 0; s.passes (.ringCfg 2 1) && decide (bf (s.rs 1) 27 37 ≠ 0)) = true ∧
    (let s := ready .L 0xFFF 0 0; s.passes (.ringCfg 2 1) && decide ((0xFFF + 1) * 256 - 1 = 0xFFFFF)) = true ∧
    (let s := withRing (ready .C 0 0 0) 3 0 0 1; s.passes (.ringCfg 2 1) && decide ((s.ring 0 2).claimed ≠ (s.ring 0 2).head)) = true ∧
    (let s := ready .C 0 0 0;
      let u := s.setCore 0 { s.core 0 with lq := { cmds := [{ order := 0, pc := 0, cmd := .copyOut 2 false 0 0 }] } };
      u.passes (.ringCfg 2 1) && u.ringBusy 0 2) = true := by decide +kernel

theorem witness_RingOperations :
    (let s := ready .K 1 0 0; s.cur == .core 0 .K && decide (cidOf 0 * 128 + bf (0x7F0001 : W64) 16 7 ≠ 0) &&
      s.runsPart (cidOf 0 * 128 + bf (0x7F0001 : W64) 16 7) == none &&
      decide (cidOf 0 * 128 + bf (0xFFFF : W64) 16 7 = 0)) = true ∧
    (let s := (ready .K 1 0 0).setCore 5 { ctx := some { part := 3 } };
      s.runsPart (cidOf 0 * 128 + bf (0x50001 : W64) 16 7) == some 3) = true ∧
    [(0 : W64), 1, 3, 4].all (fun k =>
      let s := withRing (ready .K k 1 0) 3 0 1 2;
      pass s [.ringClaim 3 2 1 false, .ringCommit 2 2 1 false, .ringWaitr 2 1 false, .ringWaitf 2 1 false, .ringPop 2 1 false] &&
        okWith ((s.begun (.ringClaim 3 2 1 false)).countWord k false) fun p => p == (k.toNat, 0)) = true ∧
    (let s := withRing (ready .K 1 1 0x10000) 3 0 1 2;
      (s.ring 0 2).free == 1 && (s.ring 0 2).filled == 1 && (s.ring 0 2).n == 3 && !s.ringBusy 0 2 &&
        ((s.ring 0 2).commit 1 1).isSome && ((s.ring 0 2).commit 0 1).isNone && decide (2 ^ 16 ≤ (s.rs 3).toNat) &&
        pass s [.ringCommit 3 2 1 true, .ringWaitf 2 1 true, .ringPop 2 1 true, .ringRd 3 2]) = true := by decide +kernel

theorem witness_SemaphoresAndBarriers :
    (let s := ready .S 1 0 0;
      s.cur == .core 0 .S && pass s [.semAdd 0 2 1 false, .semAdd 2 2 1 true, .semWaitge 2 1, .semWaitge 2 0, .semRd 3 2] &&
        okWith ((s.begun (.semAdd 2 2 1 true)).windowCore (s.rs 2).toNat) fun g => g == 0) = true ∧
    (let s := ready .S 1 128 0; s.passes (.semAdd 2 2 1 true) && decide (128 ≤ (s.rs 2).toNat)) = true ∧
    [1, 2].all (fun p =>
      let s := ready .C 0 0 0;
      let cl := s.cluster 0;
      let u := (s.setCluster 0 { cl with bars := cl.bars.set 0 { bound := some 0, p := p } });
      pass u [.gbarArr 0, .gbarSync 0, .gbarWait 0] && ((u.cluster 0).bars.get (u.barNo 0 0)).p == p &&
        u.me.seen.get 0 == none) = true ∧
    (let s := ready .K 0 0 0;
      let u := s.setMe { s.me with seen := s.me.seen.set 0 (some 0) };
      u.passes (.gbarWait 0) && u.me.seen.get 0 == some ((u.cluster 0).bars.get (u.barNo 0 0)).phase) = true := by decide +kernel

/-- C of core 0 with one operation due to land. -/
def landing (op : Landing) : State :=
  let s := ready .C 0 0 0
  s.setCore 0 { s.core 0 with flight := [{ left := 0, slot := 0, pc := 0, op := op }, { left := 2, slot := 1, pc := 0, op := .stages }] }

theorem witness_VectorResultsLand :
    (ready .C 0 0 0).cur = .core 0 .C ∧
    [Landing.sreg 0 5, .preg 3 true, .vec 4 [1], .load 4 2 [0x100], .store 2 [(0x100, 7)]].all (fun op =>
      ((landing op).core 0).flight.filter (fun f => decide (f.left = 0)) == [{ left := 0, slot := 0, pc := 0, op := op }]) = true ∧
    (let s := landing (.load 4 2 [0x100]);
      let bare := s.setCore 0 { s.core 0 with flight := (s.core 0).flight.filter fun f => decide (f.left ≠ 0) };
      okWith (bare.landLoad 0 2 [0x100]) (fun _ => true) && okWith (bare.landStore 0 2 [(0x100, 7)]) fun _ => true) = true := by
  decide +kernel

theorem witness_VectorFloatResults :
    pass (lanesReady [] [] [] 0) [.vfpAdd 3 1 2 0, .vfpSub 3 1 2 1, .vfpMul 3 1 2 0, .vfpMin 3 1 2 1, .vfpMax 3 1 2 0, .vfpAbs 3 1 1,
      .vfpNeg 3 1 0, .vfpCpsgn 3 1 2 1, .vfmaFma 3 1 2 0, .vfmaFms 3 1 2 1, .vfmaFnma 3 1 2 0, .vfmaFnms 3 1 2 1, .vsfuRcp 3 1 0,
      .vsfuRsqrt 3 1 1, .vsfuSqrt 3 1 0, .vsfuDiv 3 1 2 1, .vsfuExp 3 1 0, .vsfuExp2 3 1 1, .vsfuLn 3 1 0, .vsfuLog2 3 1 1,
      .vsfuSin 3 1 0, .vsfuCos 3 1 1, .vsfuTanh 3 1 0, .vsfuSigm 3 1 1] = true := by decide +kernel

theorem witness_FloatingSpecialCases : (Machine.Num.inf true).isNan = false ∧ 0 < 1 := by decide

/-- 1.5 x 2^0 rounds exactly, and 2^24 + 1 does not, without overflow. -/
theorem witness_RoundingStaysWithinOneUnit :
    decide (fld (({ rm := 0, ftz := false, bf := false } : Mode).round false 3 (-1) false).flags 2 1 = 0 ∧
      fld (({ rm := 3, ftz := false, bf := true } : Mode).round true 16777217 0 false).flags 2 1 = 0) = true := by decide +kernel

theorem witness_VectorIntegerResults :
    pass (lanesReady [] [] [] 0) [.vintAdd 3 1 2 2, .vintSub 3 1 2 3, .vintMul 3 1 2 4, .vintAnd 3 1 2 5, .vintOr 3 1 2 2,
      .vintXor 3 1 2 3, .vintAndn 3 1 2 4, .vintShl 3 1 2 5, .vintShr 3 1 2 2, .vintSra 3 1 2 3, .vintMin 3 1 2 4, .vintMax 3 1 2 5,
      .vintAdds 3 1 2 2, .vintSubs 3 1 2 3, .vintMulh 3 1 2 4, .vintAbs 3 1 5] = true := by decide +kernel

theorem witness_VectorCompareSelectAndPermute :
    pass (lanesReady [] [] [] 0) [.vcmpEq 3 1 2 0, .vcmpNe 3 1 2 1, .vcmpLt 3 1 2 2, .vcmpLe 3 1 2 3, .vcmpGt 3 1 2 4,
      .vcmpGe 3 1 2 5, .vcmpUn 3 1 2 0, .vselSel 3 1 2, .vselSelz 3 1, .vsetBcast 3 1 0, .vsetIota 3 2, .vsetIrow 3 3, .vsetIcol 3 2,
      .vsetGet 1 1 2, .vsetPut 3 1 2, .vpermSel 3 1 2, .vpermShift 3 1 1, .vpermTr 3 1, .vclmLo 3 1 2, .vclmHi 3 1 2, .vclmXlo 3 1 2,
      .vclmXhi 3 1 2, .vclmBrev 3 1] = true := by decide +kernel

theorem witness_VectorReductions :
    pass (lanesReady [] [] [] 0) [.vredSum 3 1 2, .vredMax 3 1 3, .vredMin 3 1 4, .vredAnd 3 1 5, .vredOr 3 1 2, .vredXor 3 1 3,
      .vredSadd 3 1 4, .vredSmax 3 1 5, .vredSum 3 1 0, .vredMax 3 1 1, .vredMin 3 1 0, .vredSadd 3 1 1, .vredSmax 3 1 0,
      .vredAnyp 3 1, .vredAllp 0 1] = true := by decide +kernel

/-- C of core 0 with one row of 512 lanes, and s1, s2 and s3 as given. -/
def wide (a b c : W64) : State :=
  let s := ready .C a b c
  s.setCore 0 { s.core 0 with vshape := 0xA00 }

theorem witness_VectorConversions :
    pass (lanesReady [] [] [] 0) [.vcvtF2i 3 1 2, .vcvtI2f 3 1 5, .vcvtF2h 3 1, .vcvtH2f 3 1, .vcvtRint 3 1 1] = true ∧
    (let s := wide 0x1000 0x2000 0;
      [(Instr.vcvtQf 1 1 2 6, 512), (.vcvtQh 1 1 2 7, 256)].all fun p =>
        s.passes p.1 && ((s.begun p.1).ownRange s.meCore (s.rs 1) p.2 { w := true }).isNone &&
        ((s.begun p.1).ownRange s.meCore (s.rs 2) 16 { rd := true }).isNone && decide (p.2 = 256 * (shapeN s.shape / (if p.2 = 512 then 256 else 512)))) = true ∧
    pass (wide 0x1010 0 0) [.vcvtQf 1 1 2 6] = true := by decide +kernel

theorem witness_VectorMemoryIssue :
    (let s := wide 0x1000 0 0;
      pass s [.vmemLd 3 1 2 2, .vmemLd 3 1 0 7, .vmemSt 3 1 2 1, .vmemGat 3 1 2 5, .vmemSct 3 1 2 2] && decide (shapeN s.shape = 512) &&
        (List.range 512).all (fun e => okWith ((s.begun (.vmemLd 3 1 2 2)).vreach 0 (0x1000 + BitVec.ofNat 64 (4 * e)) { rd := true })
          fun _ => true) &&
        okWith ((s.begun (.vmemSt 3 1 2 1)).vreach 0 0x1000 { w := true }) fun _ => true) = true := by decide +kernel

theorem witness_CopyCommandsAreQueued :
    (let s := ready .S 0x1000 0x2000 0xF0000401;
      let q := ready .S 0xFFFFFF 0x2000 0x401;
      let l := ready .L 0x1000 0x21 0x50001;
      pass s [.copyIn 2 1 3 true false, .copyOut 1 2 3 true false, .copyMm 2 1 3 false, .gathFill 2 1 true, .markTile, .markDrain] &&
        q.passes (.copyWt 2 1 3 false true true) && decide (bf (q.rs 1) 24 8 = 0) &&
        okWith ((q.begun (.copyWt 2 1 3 false true true)).copyCore 0x401 true) (fun j => (q.ring j 2).ssz == 1) &&
        decide (bf (s.rs 3) 27 1 = 0 ∧ bf (s.rs 3) 20 7 = 0 ∧ bf (s.rs 3) 10 10 = 1 ∧ bf (s.rs 3) 0 10 = 1 ∧ bf (s.rs 3) 32 8 = 0 ∧
          (s.ring 0 2).ssz = 1) &&
        okWith ((s.begun (.copyIn 2 1 3 true false)).copyCore (s.rs 3) false) (fun j => j == 0) &&
        ((s.begun (.copyIn 2 1 3 true false)).linesChk 0 (memLines 0x1000 (s.rs 3))).isNone &&
        ((s.begun (.copyMm 2 1 3 false)).linesChk 0 (packedLines 0x2000 1)).isNone &&
        ((s.begun (.gathFill 2 1 true)).ownRange 0 0x1000 32 {}).isNone &&
        l.passes (.lineSet 2 1 3 true) && sideValueOk (l.rs 2) && decide (bf (l.rs 3) 20 44 = 0 ∧ bf (l.rs 3) 0 16 = 1) &&
        ((packedLines 0x1000 1).all fun a => ((l.begun (.lineSet 2 1 3 true)).lineChk 0 a).isNone) && !inAperture 0x1000) = true ∧
    (let s := ready .L 0x1010 0x2000 0x401; s.passes (.copyMm 2 1 3 true) && decide ((s.rs 1).toNat % 256 ≠ 0)) = true ∧
    (let s := ready .L 0x1000 0x2000 0x400; s.passes (.copyMm 2 1 3 true) && decide (bf (s.rs 3) 0 10 = 0)) = true ∧
    (let s := ready .L 0 0 0;
      let u := s.setCore 0 { s.core 0 with lq := { cmds := [{ order := 0, pc := 0, cmd := .mark }] } };
      s.passes .markDrain && u.passes .markDrain && ((s.core 0).queue .l).cmds.isEmpty && !((u.core 0).queue .l).cmds.isEmpty) = true ∧
    (let s := ready .S 0 0 0;
      let full := (List.range 128).map fun n => ({ order := n, pc := 0, cmd := .mark } : QCmd);
      let u := s.setCore 0 { s.core 0 with sq := { cmds := full } };
      decide (128 ≤ ((u.core 0).queue .s).cmds.length) && u.passes .markTile) = true := by decide +kernel

/-- An entry of partition 0 for a page of 1 GiB, with every right. -/
def pageAt (va pa : Nat) : Tlb := { part := 0, va := va, size := 2 ^ 30, ipa := pa, pa := pa, x := true, w := true, rd := true, u := true }

/-- Cluster 0's unit holds a page. -/
def cachedAt (s : State) (va pa : Nat) : State := s.setCluster 0 { s.cluster 0 with tlb := [pageAt va pa] }

theorem witness_SideBandWords :
    [(Instr.lineRd 3 1, false), (.lineWr 1 2, true)].all (fun p =>
      let s := ready .L 0x100 0x21 0;
      s.passes p.1 && okWith ((s.begun p.1).resolveFor s.cur 0x100 { rd := !p.2, w := p.2 }) fun k => !isDev k && !s.isBad k &&
        okWith ((s.begun p.1).trackMe (2 ^ 56 + k / 256 * 16) 16 p.2 0x100) fun _ => true) = true ∧
    (sideValueOk 0x21 && !sideValueOk 0x4000000 && !inAperture 0x100) = true ∧
    (let s := cachedAt { ready .L 0x10000000000 0x21 0 with links := linksUp.set 0 { reg := 0x0000020000022C03 } } (2 ^ 40) 0;
      s.passes (.lineRd 3 1) && okWith ((s.begun (.lineRd 3 1)).resolveFor s.cur 0x10000000000 { rd := true }) fun k => isDev k &&
        s.linkFailed (s.linkOf k) && okWith ((s.begun (.lineRd 3 1)).trackMe (2 ^ 56 + k / 256 * 16) 16 false 0x10000000000) fun _ => true) = true ∧
    pass (ready .L 0x110 0 0) [.lineRd 3 1] = true := by decide +kernel

/-- C of core 0 with q2 and q3 rings of one slot of the given numbers of lines. -/
def operands (la lb : Nat) : State :=
  ((ready .C 0x1000 0 0).setRing 0 2 { cfg := BitVec.ofNat 64 ((la - 1) * 2 ^ 12) }).setRing 0 3 { cfg := BitVec.ofNat 64 ((lb - 1) * 2 ^ 12) }

theorem witness_MatrixCommandsAreQueued :
    [(Instr.mmaRn8 2 2 3 true false true false false, 32, 128), (.mmaRn4 2 2 3 true false true false true, 32, 128),
      (.mmaRnx 2 2 3 true false true false false, 64, 128), (.mmaRny 2 2 3 true false true false false, 32, 256),
      (.mmaBf16 2 2 3 true false true false false, 64, 256)].all (fun p =>
      let s := operands p.2.1 p.2.2;
      s.passes p.1 && decide ((s.ring 0 2).ssz = p.2.1 ∧ (s.ring 0 3).ssz = p.2.2) && (operands 3 5).passes p.1) = true ∧
    pass (operands 64 1) [.accRd 3 2 1, .accFlg 3 2, .accSt 2 1 false true, .accAdd 1 2 3, .accZero 2, .tentMark 2 1, .rslv 2 1 true true,
      .mkat 2 3] = true ∧
    (let s := operands 32 1;
      s.passes (.accSt 2 1 true true) && s.passes (.accSt 2 1 false true) && ((s.begun (.tentMark 2 1)).ownRange 0 0x1000 256 {}).isNone) = true ∧
    (let s := ready .C 0x1020 0 0; pass s [.mkat 1 1, .rslv 2 1 false false] && decide (256 ≤ (s.rs 1).toNat ∧ (s.rs 1).toNat % 64 ≠ 0)) = true := by
  decide +kernel

theorem witness_ProofRunAndRouting :
    (let s := ready .C 0x1000 0 0;
      s.passes (.proofRun 1 true) && ((s.begun (.proofRun 1 true)).ownRange 0 0x1000 64 {}).isNone &&
        okWith ((s.begun (.proofRun 1 true)).readOwn 0x1000 64) (fun _ => true) && decide ((s.cluster 0).proofs.length < 32)) = true ∧
    (let s := ready .C 0x1000 0 0;
      let p : PCmd := { pc := 0, core := some 0, entry := none, part := 0, block := 0 };
      let u := s.setCluster 0 { s.cluster 0 with proofs := List.replicate 32 p };
      u.passes (.proofRun 1 true) && decide (32 ≤ (u.cluster 0).proofs.length) &&
        okWith ((u.begun (.proofRun 1 true)).readOwn 0x1000 64) fun _ => true) = true ∧
    (wide 0 0 0).passes (.routeTopk 3 4 8 2 7) = true ∧
    (let m : Mode := { rneF32 with bf := true };
      [(0x7FC00000 : W32), 0xFF800000].all fun l => decide (m.rd l = .inf true) || (m.rd l).isNan) = true := by decide +kernel

/-- The last address of the partition's shared memory that holds n bytes. -/
def lastShared (n : Nat) : W64 := BitVec.ofNat 64 (2 ^ 32 + 2 ^ 29 - n)

theorem witness_NearMemoryAtomics :
    [(Instr.nmaAddI32 0 1 2, 4), (.nmaMinI32 3 1 2 true, 4), (.nmaMaxI32 0 1 2 false, 4), (.nmaAndI32 3 1 2, 4), (.nmaOrI32 0 1 2, 4),
      (.nmaXorI32 3 1 2, 4), (.nmaSwapI32 0 1 2, 4), (.nmaCasI32 3 1 2, 4), (.nmaAddI64 0 1 2, 8), (.nmaMinI64 3 1 2 true, 8),
      (.nmaMaxI64 0 1 2 false, 8), (.nmaAndI64 3 1 2, 8), (.nmaOrI64 0 1 2, 8), (.nmaXorI64 3 1 2, 8), (.nmaSwapI64 0 1 2, 8),
      (.nmaCasI64 3 1 2, 8), (.nmaAddF32 0 1 2, 4), (.nmaMinF32 3 1 2, 4), (.nmaMaxF32 0 1 2, 4), (.nmaSwapF32 3 1 2, 4),
      (.nmaCasF32 3 1 2, 4)].all (fun p =>
      let s := ready .K (lastShared p.2) 5 0;
      let k := 2 ^ 53 + 2 ^ 29 - p.2;
      s.passes p.1 && decide ((s.rs 1).toNat % p.2 = 0) && s.sharedOk 0 (s.rs 1).toNat p.2 && s.postedBy.isEmpty && !s.isBad k &&
        !s.poisoned k && s.fmtOf k == 0) = true ∧
    pass (ready .K 0x100000002 5 0) [.nmaAddI32 3 1 2] = true ∧
    (let s := ready .K 0x200000000 5 0; s.passes (.nmaAddI32 3 1 2) && !s.sharedOk 0 (s.rs 1).toNat 4) = true ∧
    (let s := ready .K 0x1000 0x20001 0x100000000;
      pass s [.nmaLaddF32 3 1 2 true, .nmaLaddI32 3 1 2 false, .nmaLmaxF32 3 1 2 true] && s.sharedOk 0 (s.rs 3).toNat 4 &&
        okWith ((s.begun (.nmaLaddF32 3 1 2 true)).readOwn 0x1000 4) fun _ => true) = true := by decide +kernel

/-- K of core 0 with creel 0 configured for two entries, of which one or none is held. -/
def creelReady (held : List (W32 × W32 × W32)) : State :=
  (ready .K 0x500000000 0 0).setCreel 0 { set := true, cap := 2, held := held }

theorem witness_PredictorAndCreelWords :
    (let s := ready .K 0x100000000 0 0;
      pass s [.ptabRd 3 1 2, .ptabHrd 3 1 2, .ptabCrd 3 1 2, .ptabWr 3 1 2, .ptabHwr 3 1 2, .ptabClr 1 2] &&
        s.sharedOk 0 (s.rs 1).toNat (1040 * 1024) && s.postedBy.isEmpty && (s.bankErr 0x100004000 4).isNone && (s.bankErr 0x100000000 8).isNone && (s.bankErr 0x100000008 8).isNone && ptHeadOk (2 ^ 20 + 2 ^ 36)) = true ∧
    (let s := ready .K 0 0 0;
      pass s [.creelCfg 1 2, .creelBias 1 2] && (s.part 0).pslc.getLsbD 0) = true ∧
    [[], [((5 : W32), (0 : W32), (0 : W32))]].all (fun held =>
      let s := creelReady held;
      pass s [.creelRd 3 1, .creelOffer 3 1 2, .creelDrain 3 1 2] && (s.creel 0).set && decide (bf (s.rs 1) 32 24 = 5 ∧
        bf (s.rs 1) 56 8 = 0 ∧ bf (s.rs 1) 0 14 = 0 ∧ (s.creel 0).held.length < (s.creel 0).cap)) = true ∧
    (let s := (ready .K 0 0x100000000 0).setCreel 0 { set := true, cap := 2, held := [(5, 0, 0)] };
      s.passes (.creelDrain 3 1 2) && s.sharedOk 0 (s.rs 2).toNat 16 && Memory.wf s.mem &&
        decide ((s.creel 0).expert < 2 ^ 12 ∧ (s.rs 2).toNat % 16 = 0)) = true := by decide +kernel

/-- K of core 0 with a sketch of three rows at s1, its odd pairs, and a list block at s2. -/
def sketching : State :=
  let s := ready .K 0x100000000 0x1000 0
  let block := 2 ^ 32 + 0x100001000 * 2 ^ 72 + 0x100002000 * 2 ^ 136 + 0x100003000 * 2 ^ 200
  let m := Mem.writeN s.mem (2 ^ 52 + 0x1000) 32 block
  let m := Mem.writeN m (2 ^ 53) 64 (3 + 10 * 2 ^ 8 + 0x100010000 * 2 ^ 64 + 0x100004000 * 2 ^ 128)
  { s with mem := Mem.writeN m (2 ^ 53 + 0x4000) 48 (1 + 2 ^ 128 + 2 ^ 256),
           side := (List.range 3).map fun j => ((2 ^ 53 + 0x10000 + 0x1000 * j) / 256, 0x30) }

/-- K of core 0 with a cell at s1 of region 0, whose descriptor is at s2. -/
def celled : State := { ready .K 0x100000000 0x100000100 0 with side := [(2 ^ 53 / 256, 0x31)] }

theorem witness_SketchAndCellWords :
    (pass sketching [.skSeed 1 2, .skClr 1, .skUpd 3 1 2, .skUpdl 1 2 true, .skQryl 1 2 false, .skQry 3 1 2] &&
      sketching.sharedOk 0 0x100000000 64 && (ready .K 0x100000000 0x100000040 0).passes (.skAdd 1 2)) = true ∧
    okWith (sketching.sketch 0 0x100000000) (fun x => (sketching.pairsOk x).isNone) = true ∧
    okWith (sketching.sketch 0 0x100000000) (fun x => okWith (sketching.skEstimate x 0x1000) fun _ => true) = true ∧
    okWith ((sketching.begun (.skUpdl 1 2 true)).readOwn 0x1000 32) (fun p => decide (fld p.1 32 36 = 1 ∧ fld p.1 72 56 = 0x100001000 ∧
      fld p.1 136 56 = 0x100002000 ∧ fld p.1 200 56 = 0x100003000 ∧ fld p.1 192 8 = 0 ∧ fld p.1 128 8 = 0 ∧ fld p.1 0 32 = 0)) = true ∧
    (sketching.sharedOk 0 0x100001000 8 && sketching.sharedOk 0 0x100002000 4 && sketching.sharedOk 0 0x100003000 4) = true ∧
    (pass celled [.ocInit 3 1 2 true, .ocIns 3 1 2, .ocLdt 3 1 2, .ocLds 3 1 2, .ocFold 3 2] && celled.sharedOk 0 0x100000000 128 &&
      celled.sharedOk 0 0x100000100 512 && celled.postedBy.isEmpty && !celled.watched 0 && Memory.wf celled.mem &&
      okWith (celled.region 0x100000100) (fun r => decide (r.rel 0 ≤ r.rel r.wm ∧ r.rel 0 ≤ 2 ^ 15) &&
        okWith (((celled.begun (.ocLdt 3 1 2)).cellAccess 0x100000000 r).openCell 0x100000000 r).2 fun _ => true)) = true ∧
    (let s := ready .K 1 0x100000100 0; s.passes (.ocSettle 1 2) && decide (bf (s.rs 1) 28 36 = 0)) = true ∧
    (let s : State := { ready .K 0x100000000 0x100000100 5 with side := [(2 ^ 53 / 256, 0x31)], mem := [⟨2 ^ 53 + 0x10C, 1⟩] };
      s.passes (.ocLds 3 1 2) && okWith (s.region 0x100000100) fun r =>
        decide (r.rel r.wm < r.rel 5 ∧ r.rel 5 ≤ 2 ^ 15) && okWith (s.openCell 0x100000000 r).2 fun _ => true) = true := by decide +kernel

/-- The partition's queue pair 0 in a state, with its ring at the start of shared memory and a tail. -/
def withQp (s : State) (st : QpState) (tail : Nat) (ws : List Work) : State :=
  s.setQp 0 { base := 0x100000000, state := st, tail := tail, works := ws }

theorem witness_PostingWords :
    (let s := ready .K 0x1000 0 0;
      pass s [.postTask 1, .postQp 1 2] && okWith ((s.begun (.postTask 1)).readBlock 0x1000) (fun _ => true) &&
        okWith ((s.begun (.postQp 1 2)).readBlock 0x1000) (fun _ => true) && s.postedBy.isEmpty && Memory.wf s.mem &&
        s.mySlices (bf (s.part 0).prq 12 44 * 2 ^ 12) 64 && decide ((s.rs 2).toNat < bf (s.part 0).pqp 16 11) &&
        (withQp s .on 0 []).mySlices (((withQp s .on 0 []).qp 0).base.toNat) 64) = true ∧
    (let s := ready .K 0x1000 0 0;
      let u := s.setPart 0 { s.part 0 with qtail := 2 ^ (bf (s.part 0).prq 56 4 + 6) };
      u.passes (.postTask 1) && decide (2 ^ (bf (u.part 0).prq 56 4 + 6) ≤ (u.part 0).qtail - (u.part 0).qhead)) = true ∧
    (let s := ready .K 0x1000 0x400 0; s.passes (.postQp 1 2) && decide (bf (s.part 0).pqp 16 11 ≤ (s.rs 2).toNat)) = true ∧
    (let s := ready .K 0xFFF 0 0;
      pass s [.postTcadd 3 31 31 3 false, .postTcset 3 1 0 0 true, .postTcrd 3 0 5 0 false, .postTcwait 0 0 5 0 false] &&
        decide ((s.rs 1).toNat < bf (s.part 0).ptc 16 13 ∧ 3 * 1024 + 31 * 32 + 31 < bf (s.part 0).ptc 16 13) && !s.watched 0) = true ∧
    (let s := ready .K 0 0 1; s.passes (.postTcwait 3 0 5 0 false) && decide (s.tc 5 < s.rs 3)) = true ∧
    (let s := ready .K 0x10000000000 0 0;
      pass s [.postWbeg 1 2, .postWcom 2, .postWabn 2, .postWst 3 2] && inDevice (s.rs 1).toNat) = true := by decide +kernel

/-- One line of ones, and a control word of exponent 127. -/
def converting : State :=
  let s := landing (.convert 6 false (List.replicate 256 0x3F800000) 0x1000 0x2000 0)
  { s with mem := [⟨2 ^ 52 + 0x2000, 127⟩] }

theorem witness_ConversionsLand :
    (let s := converting;
      Memory.wf s.mem && !s.strictRuns && !s.badIn (vkey 0 0x2000) 16 && decide (Mem.readN s.mem (vkey 0 0x2000) 16 % 2 ^ 96 = 127) &&
        !((modeOf 0 false).rd 0x3F800000).isNan && okWith (s.landConvert 0 6 false (List.replicate 256 0x3F800000) 0x1000 0x2000 0) fun _ => true) = true ∧
    [landing (.csr 0 5), landing (.accRd 4 2 0 8 0)].all (fun s => ((s.core 0).flight.filter fun f => decide (f.left = 0)).length == 1 &&
      ((s.core 0).tiles.getD 2 {}).err.isEmpty && !((s.core 0).tiles.getD 2 {}).tent && !((s.core 0).tiles.getD 2 {}).poison) = true ∧
    (let s := landing (.accRd 4 2 0 8 5);
      let u := s.setCore 0 { s.core 0 with mq := { cmds := [{ order := 4, pc := 0, cmd := .accZero 2 }] } };
      (u.core 0).mq.cmds.any fun y => decide (y.order < 5) && y.cmd.writesTiles.contains 2) = true := by decide +kernel

theorem witness_RoundingFromManyBits :
    decide (2 ^ 30 ≤ 2 ^ 30 + 1 ∧
      fld (({ rm := 2, ftz := false, bf := false } : Mode).round false (2 ^ 30 + 1) (-10) true).flags 2 1 = 0) = true := by decide +kernel

theorem witness_CopyFaults :
    (ready .L 0x1000 0x2000 0x100000401).passes (.copyIn 2 1 3 true false) = true ∧
    (let s := ready .L 0x1000 0x2000 0x00500401;
      let u := s.setCore 5 { ctx := some { part := 3 } };
      u.passes (.copyIn 2 1 3 true true) && fails ((u.begun (.copyIn 2 1 3 true true)).copyCore (u.rs 3) true)) = true ∧
    (let s := ready .S 0x1000 0x2000 0x402;
      pass s [.copyIn 2 1 3 true false, .copyOut 1 2 3 true false, .copyWt 2 1 3 true true false] &&
        decide ((s.ring 0 2).ssz < bf (s.rs 3) 10 10 * bf (s.rs 3) 0 10)) = true ∧
    (let s := ready .S 0x1010 0x2010 0x401;
      pass s [.copyIn 2 1 3 true false, .copyOut 1 2 3 true false, .copyMm 2 1 3 true, .lineSet 2 1 3 true] &&
        decide ((s.rs 1).toNat % 256 ≠ 0 ∧ (s.rs 2).toNat % 256 ≠ 0)) = true ∧
    (let s := ready .S 0x100000 0x200000 0x401;
      pass s [.copyIn 2 1 3 true false, .copyOut 1 2 3 true false, .copyMm 2 1 3 true, .gathFill 2 1 true] &&
        ((s.begun (.copyIn 2 1 3 true false)).linesChk 0 (memLines 0x100000 0x401)).isSome &&
        ((s.begun (.copyOut 1 2 3 true false)).linesChk 0 (memLines 0x100000 0x401)).isSome &&
        ((s.begun (.copyMm 2 1 3 true)).linesChk 0 (memLines 0x100000 0x401)).isSome &&
        ((s.begun (.copyMm 2 1 3 true)).linesChk 0 (packedLines 0x200000 1)).isSome &&
        ((s.begun (.gathFill 2 1 true)).ownRange 0 0x100000 32 {}).isSome) = true ∧
    (let s := ready .S 0x1000000 0 0x401; s.passes (.copyWt 2 1 3 true true false) && decide (bf (s.rs 1) 24 8 ≠ 0)) = true ∧
    (let s := ready .S 0x10 0 0; s.passes (.gathFill 2 1 true)) = true ∧
    (let s := ready .S 0x80000000000000 0x21 1;
      s.passes (.lineSet 2 1 3 true) && sideValueOk (s.rs 2) && (packedLines (s.rs 1) 1).any fun l => inAperture l.toNat) = true ∧
    (let s := ready .S 0x100000 0x21 1;
      s.passes (.lineSet 2 1 3 true) && (firstFault ((s.begun (.lineSet 2 1 3 true)).lineChk 0) (packedLines 0x100000 1)).isSome) = true ∧
    pass (ready .S 0x1000 0x4000000 0) [.lineSet 2 1 3 true, .lineWr 1 2] = true := by decide +kernel

theorem witness_AtomicFormats :
    [(0, 0x21), (2, 0x11)].all (fun (p : Nat × Nat) =>
      let s := { ready .K 0x100000000 5 1 with side := [(2 ^ 53 / 256, BitVec.ofNat 32 p.2)] };
      s.fmtOf (2 ^ 53) == p.2 && !s.poisoned (2 ^ 53) && !s.badIn (2 ^ 53) 8 &&
        pass s [.nmaAddI32 3 1 2, .nmaAddF32 3 1 2]) = true := by decide +kernel

theorem witness_EstimatesAreMedians :
    okWith (sketching.sketch 0 0x100000000) (fun x => decide (sketching.hashErr x 0x1000 = none ∧ x.d = 3)) = true := by decide +kernel

theorem witness_PostingWaits :
    (let s := ready .K 0x1000 0 0;
      let u := s.setCore 0 { s.core 0 with posted := [postedOne (.nma 0 0 false) 0 0x100000000 5] };
      pass u [.postTask 1, .postQp 1 2] && !u.postedBy.isEmpty && ((u.begun (.postTask 1)).blockChk 0x1000).isNone) = true ∧
    (let s := ready .K 0x1000 0 0;
      let u := withQp s .on 16 [];
      let v := withQp s .error 0 [];
      u.passes (.postQp 1 2) && v.passes (.postQp 1 2) && decide (2 ^ (bf (u.qp 0).cfg 30 4 + 4) ≤ (u.qp 0).tail - (u.qp 0).head ∧
        (v.qp 0).state = .error ∧ (u.qp 0).state ≠ .error) && u.mySlices ((u.qp 0).base.toNat + 64 * (16 % 16)) 64 &&
        ((u.begun (.postQp 1 2)).blockChk 0x1000).isNone) = true ∧
    (let s : State := { ready .K 0x1000 0 0 with side := [((2 ^ 52 + 0x1000) / 256, 0x2000000)] };
      pass s [.postTask 1, .postQp 1 2] && fails ((s.begun (.postTask 1)).readBlock 0x1000) && ((s.begun (.postTask 1)).blockChk 0x1000).isNone) = true ∧
    (let s := ready .K 0x1020 0 0; s.passes (.postTask 1) && ((s.begun (.postTask 1)).blockChk 0x1020).isSome) = true := by decide +kernel

/-- Core 0 with one posted operation of K. -/
def postedState (op : NearOp) (side : Map W32) : State :=
  let s : State := { ready .K 0 0 0 with side := side }
  s.setCore 0 { s.core 0 with posted := [postedOne op 0 0x100000000 5] }

theorem witness_PostedOperationsApply :
    (let s := postedState (.nma 0 0 false) [];
      Memory.wf s.mem && decide ((s.core 0).posted.length = 1) && !s.isBad (2 ^ 53) && !s.poisoned (2 ^ 53) && s.fmtOf (2 ^ 53) == 0) = true ∧
    (let s := postedState (.nma 2 0 true) [(2 ^ 53 / 256, 0x2000000)];
      s.poisoned (2 ^ 53) && !s.isBad (2 ^ 53) && s.sharedOk 0 0x100000000 4) = true ∧
    ((postedState .ptWr []).bankErr (0x100000000 + 0x4000 + 4 * 5) 4).isNone = true ∧
    [NearOp.ptWr, .tcAdd 5, .tcSet 4095].all (fun op => ((postedState op []).core 0).posted.map (·.op) == [op]) = true := by decide +kernel

/-- The operation of core 0's K that a bank unit applies next, in a state. -/
def withPosted (s : State) (op : NearOp) (d a b : W64) : State :=
  s.setCore 0 { s.core 0 with posted := [postedOne op d a b] }

theorem witness_PostedListsAndTables :
    (let s := withPosted (ready .K 0 0 0) (.list 0 2 [5, 6] (some 3)) 0x100000000 0x1000 0;
      s.fmtOf (2 ^ 53) == 0 && !s.badIn (2 ^ 53) 4 && !s.poisoned (2 ^ 53) && Memory.wf s.mem) = true ∧
    [NearOp.ptWr, .ptHwr, .ptClr].all (fun op =>
      let s := withPosted (ready .K 0 0 0) op 0 0x100000000 0;
      (s.bankErr 0x100004000 4).isNone && (s.bankErr 0x100000000 8).isNone && (s.bankErr 0x100000000 16).isNone &&
        (s.bankErr 0x100000400 128).isNone && (s.core 0).posted.map (·.op) == [op]) = true ∧
    [(0 : W64), 0x10000000000].all (fun b =>
      let s := withPosted (ready .K 0 0 0) .creelCfg 0 0 b;
      decide (bf b 12 52 * 16 = 0) || s.sharedOk 0 (bf b 12 52 * 16) 16) = true := by decide +kernel

/-- `sketching` with a second sketch, of es scaling bits, at the next descriptor, and the counter lines of both. -/
def twoSketches (es : Nat) : State :=
  let m := Mem.writeN sketching.mem (2 ^ 53 + 64) 64 (3 + 10 * 2 ^ 8 + es * 2 ^ 32 + 0x100020000 * 2 ^ 64 + 0x100004000 * 2 ^ 128)
  let lines (a : Nat) : Map W32 := (List.range 48).map fun j => (a / 256 + j, 0x30)
  { sketching with mem := m, side := lines (2 ^ 53 + 0x10000) ++ lines (2 ^ 53 + 0x20000) }

theorem witness_PostedSketches :
    [(NearOp.skSeed, (0 : W64)), (.skClr, 0), (.skUpd, 0x7FC00000), (.skUpd, 0x3F800000)].all (fun p =>
      let s := withPosted sketching p.1 p.2 0x100000000 0x1000;
      Memory.wf s.mem && okWith (s.sketch 0 0x100000000) fun x => (s.pairsOk x).isNone && (s.hashErr x 0x1000).isNone &&
        decide (x.base = 0x100010000 ∧ x.pairs = 0x100004000 ∧ x.d = 3 ∧ x.k = 10)) = true ∧
    (match ofBits 0x7FC00000, ofBits 0x3F800000 with | .nan _, .fin _ _ _ => true | _, _ => false) = true ∧
    [(0, true), (1, false)].all (fun (p : Nat × Bool) =>
      let s := withPosted (twoSketches p.1) .skAdd 0 0x100000000 0x100000040;
      Memory.wf s.mem && okWith (s.sketch 0 0x100000000) fun x => okWith (s.sketch 0 0x100000040) fun y =>
        (s.pairsOk x).isNone && (s.pairsOk y).isNone && (decide (y.es = x.es) == p.2) && decide (y.d = x.d ∧ y.k = x.k ∧ y.base = 0x100020000) &&
        (List.range 3).all (fun j => s.pair x j == s.pair y j) &&
        (List.range 48).all fun l => (s.ctrErr (x.base + 256 * l) 256).isNone && (s.ctrErr (y.base + 256 * l) 256).isNone) = true := by
  decide +kernel

/-- A cell of n entries of source 5 at steps from 10, in region 0 with floor 0, in which source 5 has settled step 3. -/
def cellWith (n : Nat) (op : NearOp) (d a : W64) : State :=
  let s := ready .K 0 0 0
  let entry (j : Nat) : Nat := (1 + 5 * 2 ^ 32 + (10 + j) * 2 ^ 44) * 2 ^ (128 + 64 * j)
  let m := Mem.writeN s.mem (2 ^ 53) 128 (n * 2 ^ 32 + ((List.range n).map entry).sum)
  withPosted { s with mem := Mem.writeN m (2 ^ 53 + 0x100) 20 (2 ^ 96 + (5 + 3 * 2 ^ 16) * 2 ^ 128), side := [(2 ^ 53 / 256, 0x31)] } op d a 0x100000100

theorem witness_PostedCells :
    [(1, (0x500000000 : W64), true, false), (1, 0xA00500000000, false, true), (14, 0x1E00500000000, false, false), (1, 0xB00500000000, false, false)].all
      (fun (p : Nat × W64 × Bool × Bool) =>
      let s := cellWith p.1 .ocIns p.2.1 0x100000000;
      Memory.wf s.mem && okWith (s.region 0x100000100) fun r => okWith (s.openCell 0x100000000 r).2 fun c =>
        let h := histOf p.2.1.toNat;
        decide (c.hist.length = p.1) && !c.i32 && decide (h.op ≤ 3) && (decide (r.rel h.step = 0 ∨ 2 ^ 15 < r.rel h.step) == p.2.2.1) &&
          (c.hist.any (fun e => e.step == h.step && e.src == h.src) == p.2.2.2) && r.settled h.src == some 3) = true ∧
    (let s := cellWith 0 (.ocInit false) 0 0x100000000; s.fmtOf (2 ^ 53) == 0x31 && okWith (s.region 0x100000100) fun _ => true) = true ∧
    (let s := cellWith 0 .ocSettle 0x50007 0; okWith (s.region 0x100000100) fun r => r.srcs == [(5, 3)] && decide (bf (0x50007 : W64) 16 12 = 5 ∧
      1 ≤ r.rel (bf (0x50007 : W64) 0 16) ∧ r.rel (bf (0x50007 : W64) 0 16) ≤ 2 ^ 15)) = true ∧
    [(NearOp.wsBeg, WsState.free), (.wsCom, .building), (.wsAbn, .building), (.wsBeg, .current), (.wsCom, .free)].all (fun p =>
      let s := withPosted (ready .K 0 0 0) p.1 0 0x10000000000 0;
      let u := s.setPart 0 { s.part 0 with ws := (s.part 0).ws.set 0 { (s.part 0).ws.get 0 with state := p.2 } };
      ((u.part 0).ws.get 0).state == p.2 && (u.partOf (cidOf 0)).isSome) = true := by decide +kernel

/-- C of core 0 with commands in its matrix or S copy queue. -/
def withCmds (m s : List QCmd) : State :=
  let x := ready .C 0 0 0
  x.setCore 0 { x.core 0 with mq := { cmds := m }, sq := { cmds := s } }

/-- A queued command. -/
def queued (cmd : Cmd) (started : Bool) (sig : Option Reg16) : QCmd := { order := 0, pc := 0, cmd := cmd, started := started, sig := sig }

theorem witness_EngineCommandsRun :
    [Cmd.accZero 2, .accAdd 1 2 3].all (fun k =>
      let s := withCmds [queued k false none] [];
      ((s.core 0).mq.cmds.find? fun y => !y.started && !y.cmd.isKat) == some (queued k false none) &&
        s.canStart 0 .m (queued k false none) && !(s.tile 0 1).tent) = true ∧
    (let x := queued (.copyMm 0xFFF00 0x1000 0x401) false none;
      let s := withCmds [] [x];
      s.canStart 0 .s x && !s.watched 0 && Memory.wf s.mem && okWith (s.resolve 0 0xFFF00 { rd := true }) (fun k => isSpad k && !s.isBad k &&
        decide (k % 256 = 0) && (sideErr (s.sideOf k) 0xFFF00).isNone) && okWith (s.resolve 0 0x1000 { w := true }) fun k => isSpad k) = true ∧
    [Cmd.accZero 2, .copyOut 2 false 0x1000 0x401, .copyMm 0x1000 0x2000 0x401].all (fun k =>
      let x := queued k true (some 3);
      let s := withCmds [] [x];
      (s.core 0).sq.cmds.find? (fun y => !y.cmd.isKat) == some x && s.ringTurn 0 x && x.claim.isNone && x.sibling.isNone) = true ∧
    (let x := queued (.mma 0 0 2 3 true false true false true 1 1) false none;
      let s := withCmds [x] [];
      let u := s.setCore 0 { s.core 0 with ctx := some { reloc := true } };
      (u.core 0).mq.next == some x && x.cmd.relocatable && decide (cidOf 127 = cidOf 0) && (u.core 127).ctx.isNone &&
        (u.core 127).preload.isNone && (u.core 127).steal.isNone) = true := by decide +kernel

/-- A line that a command of core 0 reaches with a need lies in a scratchpad or in shared memory. -/
def lineAt (s : State) (va : W64) (n : Need) : Option Nat :=
  match s.resolve 0 va n with
  | .ok k => if (isSpad k || isShared k) && k % 256 == 0 then some k else none
  | .error _ => none

/-- The n lines of a copy, or of the rows of a gather that are not masked, are reached and clean, and apart. -/
def movable (s : State) (n : Nat) (on : Nat → Bool) (sv dv : Nat → W64) : Bool :=
  let kd := (List.range n).map fun i => lineAt s (dv i) { w := true }
  let ks := (List.range n).map fun i => if on i then lineAt s (sv i) { rd := true } else none
  !s.watched 0 && Memory.wf s.mem && kd.Nodup && kd.all (·.isSome) && ks.all (fun k => k.isNone || !kd.contains k) &&
    (List.range n).all fun i => !on i || match ks.getD i none with
      | some k => !s.badIn k 256 && (sideErr (s.sideOf k) (sv i)).isNone && !(s.sideOf k).getLsbD 25
      | none => false

/-- Core 0 with one command that has not started in a queue. -/
def starting (s : State) (q : Queue) (cmd : Cmd) : State :=
  let c := s.core 0
  let x := queued cmd false none
  s.setCore 0 (match q with
    | .m => { c with mq := { cmds := [x] } }
    | .l => { c with lq := { cmds := [x] } }
    | .s => { c with sq := { cmds := [x] } })

/-- It is the next to start, and can. -/
def nextStarts (s : State) (q : Queue) : Bool :=
  match ((s.core 0).queue q).cmds.find? fun y => !y.started && !y.cmd.isKat with
  | some x => s.canStart 0 q x && s.engineRuns 0 q
  | none => false

/-- A gather descriptor at 0x2000: rows of one line at 0x4000, a list of two at 0x3000, of which the second is masked. -/
def gathering : State :=
  let s := ready .L 0 0 0
  let m := Mem.writeN s.mem (2 ^ 52 + 0x2000) 32 (1 + 0x1 * 2 ^ 48 + 0x4000 * 2 ^ 72 + 0x3000 * 2 ^ 136 + 2 * 2 ^ 192 + 1 * 2 ^ 224)
  let m := Mem.writeN m (2 ^ 52 + 0x3000) 8 (0 + 0xFFFFFFFF * 2 ^ 32)
  starting ({ s with mem := m }.setRing 0 2 { cfg := 0x1010 }) .l (.gath 2 0x2000)

theorem witness_CopiesStart :
    (let s := starting (ready .S 0 0 0) .s (.copyMm 0x2000 0x100000000 0x402);
      nextStarts s .s && movable s 2 (fun _ => true) (fun i => 0x2000 + BitVec.ofNat 64 (256 * i)) fun i => 0x100000000 + BitVec.ofNat 64 (256 * i)) = true ∧
    (let s := starting ((ready .L 0 0 0).setRing 0 2 { cfg := 0x1010 }) .l (.copyIn 2 0 0x2000 0x402);
      nextStarts s .l && decide (2 ≤ (s.ring 0 2).ssz) && movable s 2 (fun _ => true) (fun i => 0x2000 + BitVec.ofNat 64 (256 * i)) fun i => 0x1000 + BitVec.ofNat 64 (256 * i)) = true ∧
    (let s := starting ((ready .L 0 0 0).setRing 0 2 { cfg := 0x1010, tail := 1, claimed := 1 }) .l (.copyOut 2 false 0x2000 0x402);
      nextStarts s .l && decide ((s.core 0).places (queued (.copyOut 2 false 0x2000 0x402) false none) = [(2, 0)]) &&
        movable s 2 (fun _ => true) (fun i => 0x1000 + BitVec.ofNat 64 (256 * i)) fun i => 0x2000 + BitVec.ofNat 64 (256 * i)) = true ∧
    (let s := gathering;
      nextStarts s .l && decide (2 ≤ (s.ring 0 2).ssz) && (match s.readBlk (s.job 0 .l (queued (.gath 2 0x2000) false none)) 0x2000 32 with
        | .ok (v, _) => (gatherErr v 0x2000).isNone && fld v 192 32 == 2 && fld v 0 10 == 1 &&
          okWith (s.readBlk (s.job 0 .l (queued (.gath 2 0x2000) false none)) 0x3000 8) fun l => l.1 == 0xFFFFFFFF * 2 ^ 32
        | .error _ => false) && movable s 2 (fun i => i == 0) (fun _ => 0x4000) fun i => 0x1000 + BitVec.ofNat 64 (256 * i)) = true ∧
    (let s := starting (ready .L 0 0 0) .l (.lineSet 0x31 0x1000 1);
      nextStarts s .l && (lineAt s 0x1000 { w := true }).isSome && !s.watched 0) = true := by decide +kernel

/-- Core 0's node bound to weight-set slot 0, whose table at 2^40 + 0x8000 has one shard of one line, quarantined or not. -/
def weighing (quar : Nat) : State :=
  let s := ready .L 0 0 0
  let w : Ws := { state := .current, table := 0x10000008000, experts := 1, shards := 1, bound := 1 }
  let s := s.setPart 0 { s.part 0 with ws := (s.part 0).ws.set 0 w }
  let c := s.core 0
  let s := s.setCore 0 { c with ctx := c.ctx.map fun x => { x with ws := some 0 } }
  starting { s with mem := Mem.writeN s.mem 0x40008000 32 (0x10000009000 + 256 * 2 ^ 64 + quar * 2 ^ 192) } .l (.copyWt 2 0 0 0x401 true)

theorem witness_WeightsStart :
    [0, 1].all (fun q =>
      let s := weighing q;
      nextStarts s .l && Memory.wf s.mem && !s.watched 0 && okWith (s.shardOf 0 0) (fun r => r.1 == 0x10000009000 && r.2.1 == 1 && (r.2.2.1 == (q == 1))) &&
        okWith (s.resolve 0 0x10000009000 { rd := true }) (fun k => !isExt k && !isSpad k && decide (k % 256 = 0) && !s.badIn k 256 &&
          (sideErr (s.sideOf k) 0x10000009000).isNone) && okWith (s.resolve 0 0 { w := true }) fun k => isSpad k) = true := by decide +kernel

/-- C of core 0 with an operand ring of 32 lines of RN8 at 0 and one of 128 at 0x4000, each with a filled slot, and a product. -/
def multiplying (init : Bool) (t : Tile) : State :=
  let s := starting (ready .C 0 0 0) .m (.mma 0 1 2 3 init true true false false 1 1)
  let s := (s.setRing 0 2 { cfg := 0x1F000, tail := 1, claimed := 1 }).setRing 0 3 { cfg := 0x7F040, tail := 1, claimed := 1 }
  let s := s.setCore 0 { s.core 0 with tiles := [(1, t)] }
  { s with side := (List.range 192).map fun i => (2 ^ 44 + i, 0x7F01) }

theorem witness_ProductsStart :
    [(true, ({} : Tile)), (false, {}), (false, { cnt := 15 })].all (fun p =>
      let s := multiplying p.1 p.2;
      let x := queued (.mma 0 1 2 3 p.1 true true false false 1 1) false none;
      nextStarts s .m && !s.watched 0 && decide ((s.core 0).places x = [(2, 0), (3, 0)] ∧ (s.ring 0 2).ssz = 32 ∧ (s.ring 0 3).ssz = 128) &&
        [(0, 32), (0x4000, 128)].all fun (a : Nat × Nat) => (List.range a.2).all fun n =>
          match s.resolve 0 (BitVec.ofNat 64 (a.1 + 256 * n)) { rd := true } with
          | .ok k => k == 2 ^ 52 + a.1 + 256 * n && !s.badIn k 256 && !(s.sideOf k).getLsbD 25 && fld (s.sideOf k).toNat 26 6 == 0 && s.fmtOf k == 1
          | .error _ => false) = true ∧
    [(true, 32), (false, 64)].all (fun (p : Bool × Nat) =>
      let s := starting ((ready .C 0 0 0).setRing 0 2 { cfg := 0x3F010 }) .m (.accSt 2 1 p.1 true);
      nextStarts s .m && decide (p.2 ≤ (s.ring 0 2).ssz) && !(s.tile 0 1).tent && (List.range p.2).all fun n =>
        (lineAt s (BitVec.ofNat 64 (0x1000 + 256 * n)) { w := true }) == some (2 ^ 52 + 0x1000 + 256 * n)) = true ∧
    (let s := starting (ready .C 0 0 0) .m (.tent 1 0x1000);
      nextStarts s .m && okWith (s.readBlk (s.job 0 .m (queued (.tent 1 0x1000) false none)) 0x1000 256) fun r =>
        (List.range 32).all fun m => decide (fld r.1 (64 * m) 64 < 2 ^ 37)) = true := by decide +kernel

/-- The resolve block of a predictor table at the start of shared memory, one decision and a result. -/
def resolveWord : Nat :=
  0x100000000 * 2 ^ 72 + 1 * 2 ^ 160 + 0x100200000 * 2 ^ 200 + 0x100300000 * 2 ^ 456

/-- C of core 0 in a resolve of tile 1 at a row, with a tag for it and one decision. -/
def resolvingAt (row : Nat) (tag decision : Nat) (t : Tile) : State :=
  let s := ready .C 0 0 0
  let x : QCmd := { queued (.rslv 1 0x1000 false) true none with resolve := some { block := BitVec.ofNat 512 resolveWord, row := row } }
  let tags := (List.replicate row (0 : W64)) ++ [BitVec.ofNat 64 tag]
  let s := s.setCore 0 { s.core 0 with mq := { cmds := [x] }, tiles := [(1, { t with tags := tags })] }
  { s with mem := Mem.writeN s.mem (2 ^ 53 + 0x200000) 16 decision }

theorem witness_ResolvesGoOn :
    (let tag := 5 + 7 * 2 ^ 24 + 2 ^ 36;
      let hit := 5 + 7 * 2 ^ 24;
      let one := 0x3F800000 * 2 ^ 64;
      [(31, 0, 0, ({} : Tile)), (0, tag, 0, {}), (0, tag, hit + 2 ^ 48, {}), (0, tag, hit, {}), (0, tag, hit + one, { poison := true }),
        (0, tag, hit + one, { err := [0] }), (32, 0, 0, {})].all fun (p : Nat × Nat × Nat × Tile) =>
        let s := resolvingAt p.1 p.2.1 p.2.2.1 p.2.2.2;
        match (s.core 0).mq.cmds.find? fun y => !y.cmd.isKat, resolveBlock resolveWord with
        | some x, some bl => x.started && s.engineRuns 0 .m && x.resolve.any (fun n => n.row == p.1) && Memory.wf s.mem &&
            s.sharedOk 0 bl.ptb (1040 * 1024) && s.sharedOk 0 bl.dbase (max 1 (16 * bl.dcount)) && decide (bl.ptb + 1040 * 1024 ≤ bl.dbase) &&
            (((s.tile 0 1).tag p.1).getLsbD 36 == decide (p.2.1 = tag)) && (s.engineErrAt (bl.ptb + 0x4000 + 4 * 7) 4).isNone &&
            okWith (s.findDecision bl 5 7 bl.dcount 0) (fun r => r.isSome == decide (p.2.2.1 ≠ 0)) && decide (bl.res % 16 = 0) && s.sharedOk 0 bl.res 16
        | _, _ => false) = true ∧
    (let x : QCmd := { queued (.copyIn 2 0 0x2000 0x401) true none with claim := some (0, 2, 0) };
      let s := (withCmds [] [x]).setRing 0 2 { claimed := 1 };
      (s.core 0).sq.cmds.find? (fun y => !y.cmd.isKat) == some x && ((s.ring 0 2).commit 0 1).isSome && x.cmd.consumes.isEmpty) = true := by
  decide +kernel

/-- A proofer command of core 0. -/
def proofCmd (block : BitVec 512) : PCmd := { pc := 0, core := some 0, entry := none, part := 0, block := block, sig := some 3 }

theorem witness_EngineErrorsAndProofer :
    (let s := withCmds [queued (.accZero 2) true none] [];
      let u := s.setCore 0 { s.core 0 with mq := { (s.core 0).mq with err := true, window := { lost := true, tiles := [(2, {})] } } };
      (u.core 0).mq.err && !(u.core 0).mq.cmds.isEmpty && (u.core 0).mq.unreplayable && !((s.core 0).queue .l).err) = true ∧
    (let x := queued (.mkat 2 7) false none;
      let s := withCmds [x] [];
      (s.core 0).mq.cmds.find? (fun x => x.cmd.isKat) == some x && s.matrixIdle 0) = true ∧
    (let s := ready .K 0 0 0;
      let bad := (List.range 512).find? fun b => (proofCmd (BitVec.ofNat 512 (2 ^ b))).pred % 32 != 0;
      let u := s.setCluster 0 { s.cluster 0 with proofs := [proofCmd (BitVec.ofNat 512 (2 ^ bad.getD 0))] };
      bad.isSome && (u.cluster 0).running.isNone && (u.cluster 0).proofs.length == 1) = true ∧
    (let s := State.reset.setCluster 0 { running := some { pc := 0, core := none, entry := some 4, part := 0, block := 0 } };
      let u := s.setEntry 4 { total := 1 };
      ((u.cluster 0).running.bind (·.entry)) == some 4 && (u.disp.pool.get? 4).isSome) = true := by decide +kernel

theorem crcByte_lt (v : Nat) (b : Byte) (h : v < 2 ^ 32) : crcByte 0xEDB88320 v b < 2 ^ 32 := by
  have bit (x : Nat) (hx : x < 2 ^ 32) : crcBit 0xEDB88320 x < 2 ^ 32 := by
    unfold crcBit
    split
    · exact Nat.xor_lt_two_pow (by omega) (by norm_num)
    · omega
  have all (l : List Nat) (x : Nat) (hx : x < 2 ^ 32) : l.foldl (fun x _ => crcBit 0xEDB88320 x) x < 2 ^ 32 := by
    induction l generalizing x with
    | nil => exact hx
    | cons _ _ ih => exact ih _ (bit x hx)
  exact all _ _ (Nat.xor_lt_two_pow h (by have := b.isLt; omega))

theorem crc32_lt (bs : List Byte) : crc32 bs < 2 ^ 32 := by
  have all (v : Nat) (hv : v < 2 ^ 32) : bs.foldl (crcByte 0xEDB88320) v < 2 ^ 32 := by
    induction bs generalizing v with
    | nil => exact hv
    | cons b _ ih => exact ih _ (crcByte_lt v b hv)
  exact Nat.xor_lt_two_pow (all _ (by norm_num)) (by norm_num)

theorem witness_known_answers : ∃ sig other : W32, katSignature 0 = sig.toNat ∧ katSignature 0 ≠ other.toNat := by
  have h : katSignature 0 < 2 ^ 32 := by
    unfold katSignature
    exact crc32_lt _
  generalize katSignature 0 = k at h
  exact ⟨BitVec.ofNat 32 k, BitVec.ofNat 32 (k + 1), by rw [BitVec.toNat_ofNat]; omega, by rw [BitVec.toNat_ofNat]; omega⟩

theorem witness_BundlesIssue :
    (let s := { ready .C 0 0 0 with curNp := 1 };
      (s.core 0).regErr.isEmpty && s.rp 0 && s.curSlot == 0 && s.me.wait.isNone && s.me.run == .running &&
        !s.rp 3 &&
        match decodeSlot 0x84000000 with
        | .ok i => (issueCheck 0 i s).isNone && goes i s fun t => t.me.run == .running && t.me.wait.isNone
        | .error _ => false) = true ∧
    decide (bf (1 : W32) 0 4 ≠ 0 ∧ bf (0 : W32) 22 4 ≠ 1 ∧ bf (0 : W32) 22 4 ≠ 2 ∧ bf (0x10 : W32) 20 2 = 0 ∧ bf (0x10 : W32) 4 12 ≠ 0) = true ∧
    (let s := ready .C 0 0 0;
      match decodeSlot 0x04200000, decodeSlot 0x04200001 with
      | .ok i, .ok j => (issueCheck 1 i s).isNone && (issueCheck 1 j s).isNone && decide (Dest.s 1 ∈ dests i ∧ Dest.s 1 ∈ dests j)
      | _, _ => false) = true ∧
    decide ((ready .K 0 0 0).cur = .core 0 .K) = true := by decide +kernel

theorem witness_WaitsAndFreezes :
    (let s := ready .K 0 0 0;
      let u := s.setMe { s.me with wait := some (.word .sysWev) };
      u.canRun (.core 0 .K) && (u.seqOf (.core 0 .K)).sync.isNone && (wordEffect .sysWev).isSome) = true ∧
    [(0 : BitVec 16), 1].all (fun ph =>
      let s := ready .K 0 0 0;
      let u := s.setMe { s.me with sync := some 0, seen := s.me.seen.set 0 (some ph) };
      u.canRun (.core 0 .K) && (u.phase 0 0 == ph) == (ph == 0)) = true ∧
    [2 ^ 20 - 1, 2 ^ 20].all (fun n =>
      let s := ready .C 0 0 0;
      let u := s.setMe { s.me with wait := some (.word (.accZero 2)) };
      let v := u.setCore 0 { u.core 0 with freeze := some { seq := .C, unit := .accumulator, addr := 0, cycles := n } };
      let thawed : State := { v.setCore 0 { v.core 0 with freeze := none } with cur := .core 0 .C };
      (v.core 0).freeze.isSome && (v.core 0).flight.isEmpty && goes (.accZero 2) thawed fun t => (t.core 0).freeze.isNone) = true := by
  decide +kernel

/-- A proofer command of one token and rows of one line, whose predictor table has one expert and predicts one. -/
def startable : State × PCmd :=
  let p := proofCmd (BitVec.ofNat 512 (0x100200000 * 2 ^ 456 + 0x100201000 * 2 ^ 392 + 0x100202000 * 2 ^ 328 + 0x100000000 * 2 ^ 264))
  let s := ready .K 0 0 0
  let s : State := { s with mem := Mem.writeN s.mem (2 ^ 53) 8 (2 ^ 20 + 2 ^ 36 + 2 ^ 48), side := [((2 ^ 53 + 0x201000) / 256, 0x7F7F02), ((2 ^ 53 + 0x202000) / 256, 0x7F7F02)] }
  (s.setCluster 0 { s.cluster 0 with proofs := [p] }, p)

theorem witness_ProoferCommandsStart :
    (let s := startable.1.setCluster 0 { startable.1.cluster 0 with proofs := [] };
      let p := startable.2;
      decide (p.tokens = 1 ∧ p.pred % 32 = 0) && (startable.1.cluster 0).proofs == [p] && (startable.1.cluster 0).running.isNone &&
        (s.proofStartErr 0 p).isNone && okWith (s.engineHeader p.ptb p.layer) fun head => fld head 20 13 == 1 &&
          (s.proofErr 0 p.part { rd := true } p.gate (fld head 20 13 * p.rowLines) 256).isNone &&
          okWith (s.proofScores 0 p 0 (List.range (fld head 20 13))) fun xs => xs.length == 1 &&
            okWith (s.predEntries p head ((ranked xs).take (min 16 (fld head 36 4 + fld head 33 3)))) (fun es => es.length == 1) &&
            okWith (s.proofReach 0 p.part { w := true } p.pred) fun _ => true) = true ∧
    (let p : PCmd := { pc := 0, core := none, entry := some 4, part := 0, block := BitVec.ofNat 512 (2 ^ 456) };
      let s := (ready .K 0 0 0).setEntry 4 {};
      let u := s.setCluster 0 { s.cluster 0 with proofs := [p] };
      decide (p.pred % 32 ≠ 0) && (u.disp.pool.get? 4).isSome && (u.cluster 0).running.isNone && (u.cluster 0).proofs == [p]) = true ∧
    [true, false].all (fun last =>
      let s := State.reset.setCluster 0 { running := some { pc := 0, core := none, entry := some 4, part := 0, block := 0 } };
      ((s.setEntry 4 { total := 1, overrun := last }).disp.pool.get? 4).any fun e => e.overrun == last) = true ∧
    ((startable.1.setCluster 0 { startable.1.cluster 0 with proofs := [], running := some startable.2 }).cluster 0).running.bind (·.sig) =
      some 3 := by decide +kernel

/-- A core's freeze. -/
def frozen (s : State) (q : SeqKind) (u : Late) (n : Nat) : State :=
  s.setCore 0 { s.core 0 with freeze := some { seq := q, unit := u, addr := 0, cycles := n } }

theorem witness_FreezesEnd :
    (let s := frozen (landing (.sreg 1 5)) .C .memory 7;
      (s.landLate 0).isNone && ((s.core 0).flight.any fun x => x.left == 0)) = true ∧
    (let s := landing (.accRd 4 2 0 8 0);
      let u := frozen (s.setCore 0 { s.core 0 with tiles := [(2, { err := [1] })] }) .C .accumulator 7;
      (u.landLate 0).isSome) = true ∧
    (let s := ready .K 0 0 0;
      let u := frozen (s.setMe { s.me with wait := some (.word (.sysNop)) }) .K .bank 7;
      (u.landLate 0).isNone && ((u.core 0).seq .K).wait == some (.word .sysNop) &&
        (wordEffect .sysNop).isSome) = true ∧
    (let s := ready .C 0 0 0;
      let u := frozen (s.setMe { s.me with wait := some (.bundle 0xFC400000 [0x84000000]) }) .C .pipe 7;
      (u.core 0).c.wait.isSome && !((u.core 0).flight.any fun x => x.left == 0)) = true ∧
    [Late.bank, .memory, .accumulator, .specialFunction, .pipe, .walk, .scalarUnit, .matrixQueue, .prooferQueue].all (fun u =>
      [frozen (landing (.sreg 1 5)) .C u (2 ^ 20), frozen (ready .C 0 0 0) .C u (2 ^ 20)].all fun s =>
        (s.core 0).freeze.any (fun f => f.unit == u && decide (2 ^ 20 ≤ f.cycles)) && ((s.core 0).seq .C).wait.isNone) = true ∧
    ((landing (.sreg 1 5)).core 0).flight.find? (fun x => x.left == 0) = some { left := 0, slot := 0, pc := 0, op := .sreg 1 5 } := by
  decide +kernel

/-- A record that waits for the end of the cycle. -/
def dueRecord (cores : List Nat) (now : Bool) : Due :=
  { part := 0, cluster := 0, record := { cls := 0, code := 1, unit := 0, index := 0, cid := 0, cor := 0 }, cores := cores, now := now }

theorem witness_RecordsWaitForTheCycle :
    (ready .K 0 0 0).due = [] ∧
    (let s : State := { ready .K 0 0 0 with due := [dueRecord [0] true] };
      s.due.find? (fun d => d.now && decide (d.record.cls ≤ 1) && decide (d.record.unit ≤ 3) && d.record.cid == 0 && d.record.cor == 0) ==
        some (dueRecord [0] true)) = true ∧
    [(0, false), (2040, false), (0, true)].all (fun (p : Nat × Bool) =>
      let s := if p.2 then posting else ready .K 0 0 0;
      let u : State := { s with mem := Mem.writeN s.mem 0x102000000 8 p.1, due := [dueRecord [0] true], fills := [], agenda := [.tick] };
      Memory.wf u.mem && u.faultQueue 0 0 == 0x102000000 && decide (((u.core 0).posted = []) = (p.2 = false)) &&
        (List.range 0x10).all (fun i => !u.linkFailed (u.linkOf (0x102000000 + 0x1000 * i))) && ((u.core 0).queue .l).cmds.isEmpty &&
        ((u.core 0).queue .s).cmds.isEmpty && ((u.core 0).queue .m).cmds.isEmpty) = true ∧
    (∀ q : SeqKind, (ready q 0 0 0).cur = .core 0 q) := by
  refine ⟨by decide +kernel, by decide +kernel, by decide +kernel, fun _ => rfl⟩

theorem witness_UnassignedOpcodesHaltTheNode :
    [0, 2040].all (fun n =>
      let s := ready .K 0 0 0;
      let u : State := { s with mem := Mem.writeN s.mem 0x102000000 8 n };
      Memory.wf u.mem && u.cur == .core 0 .K && u.partOf 0 == some 0 && decide (((u.core 0).ctx.getD {}).grk < 2 ^ 14) &&
        !((u.core 0).ctx.getD {}).tile && !u.badIn 0x102000000 24 && u.faultQueue 0 0 == 0x102000000) = true := by decide +kernel

/-- Partition 0 running, with a record at the head of its queue. -/
def submitted (r : Nat) : State :=
  let s := hearthReady 2 0 0 0
  let u := s.setPart 0 { s.part 0 with qtail := 1 }
  { u with mem := Mem.writeN u.mem (2 ^ 53 + 0x1F000000) 64 r }

/-- A node record: a gang of one, a budget, a kernel descriptor. -/
def nodeWord : Nat := 2 ^ 32 + 2 ^ 288 + 0x10000008000 * 2 ^ 320
/-- A tile record of one expert with its budget. -/
def tileWord : Nat := 1 + 2 ^ 66 + 2 ^ 96 + 0x10000008000 * 2 ^ 192

theorem witness_RecordsAreAdmitted :
    (let s := submitted nodeWord;
      let r : BitVec 512 := BitVec.ofNat 512 (Mem.readN s.mem (2 ^ 53 + 0x1F000000) 64)
      decide (bf (s.part 0).prq 12 44 * 2 ^ 12 = 0x11F000000 ∧ bf r 0 2 = 0 ∧ (s.part 0).pstate = 2 ∧ (s.part 0).qhead < (s.part 0).qtail) &&
        nodeRecordOk r && (s.identity 0 0 0).isNone && s.roomFor 0 && !s.isBad (2 ^ 53 + 0x1F000000) &&
        (let u := s.setPart 0 { s.part 0 with ppool := 0 }; !u.roomFor 0) &&
        (let u := s.setEntry 5 { kind := .node }; (u.identity 0 0 0).isSome)) = true ∧
    (let r : BitVec 512 := BitVec.ofNat 512 tileWord;
      tileRecordOk r && decide (bf r 0 2 = 1 ∧ bf r 8 1 = 0 ∧ bf r 66 6 ≠ 0)) = true ∧
    decide (nodeRecordOk 0 = false ∧ tileRecordOk 1 = false ∧ 2 ≤ bf (2 : BitVec 512) 0 2 ∧ (State.reset.part 0).pstate ≠ 2) = true ∧
    (let s := (submitted 0).setEntry 5 { kind := .corr, phase := .running, runs := [(0, 7)] };
      (s.disp.pool.get? 5).isSome && s.roomFor 0 && (s.part 0).pstate == 2) = true := by decide +kernel

/-- Entry 1 of partition 0, ready with a record. -/
def readyEntry (record : Nat) : Entry := { phase := .ready, record := BitVec.ofNat 512 record }

/-- A kernel descriptor: K starts at the device-memory address 2^40 + 0x9000, eight lanes, every latency 1. -/
def kernelWord : Nat :=
  0x10000009000 + 2 ^ 272 + 0x808 * 2 ^ 288 + ((List.range 13).map fun i => 2 ^ (320 + 8 * i)).sum

/-- A device with one ready entry, its cluster's island running and its kernel descriptor in memory. -/
def dispatchable (record kernel : Nat) : State :=
  let s := (mapped.setIsland 0 { state := 2, target := 2, groups := 8 }).setEntry 1 (readyEntry record)
  { s with mem := Mem.writeN s.mem 0x8000 256 kernel }

theorem witness_DispatchDecisions :
    (let s := dispatchable nodeWord kernelWord;
      s.turns == [0] && s.candidates 0 == [(1, readyEntry nodeWord)] && !s.reservedBy 1 (readyEntry nodeWord)) = true ∧
    (let s := dispatchable nodeWord kernelWord;
      okWith (s.kernel 0 0x10000008000) fun d => s.placeGang 1 (readyEntry nodeWord) (fld d 264 5) == some ([0], []) &&
        okWith ((s.wake 0).operands 0 d 0) fun ops => okWith ((s.wake 0).loadCores 1 (readyEntry nodeWord) d ops [0]) fun _ => true) = true ∧
    (let s := dispatchable (nodeWord + 2 ^ 25) 4096;
      okWith (s.dispRead 0 0x10000008000 32) fun v => decide (fld v.1 13 243 = 0 ∧ fld v.1 0 13 = 4096)) = true ∧
    (let e := readyEntry nodeWord;
      let s := dispatchable nodeWord kernelWord;
      let u := (s.setEntry 0 { phase := .running, cores := [0] }).setCore 0 { ctx := some { confine := some true } };
      u.candidates 0 == [(1, e)] && u.clustersFor e == [0] &&
        okWith (u.kernel 0 0x10000008000) fun d => okWith (u.operands 0 d 0) fun ops => rangesIn 0 d ops &&
          (((List.range 128).filter fun g => u.preloadable 0 g && windowIn 0 g ops).take 1 == [0]) &&
          okWith (u.loadGang 1 0 (loadsOf d ops) [0]) fun _ => true) = true ∧
    [2 ^ 18 - 1, 2 ^ 18].all (fun w =>
      let s := State.reset.setEntry 1 { readyEntry nodeWord with waited := w };
      s.disp.pool == [(1, { readyEntry nodeWord with waited := w })]) = true := by decide +kernel

/-- A one-core node running on core 0, as entry 0. -/
def runningNode (f : Entry → Entry) : State :=
  let s := ready .K 0 0 0
  s.setEntry 0 (f { phase := .running, cores := [0], record := BitVec.ofNat 512 nodeWord, limit := 10, used := 10 })

theorem witness_NodesEndAndAreSaved :
    (let s := State.reset.setEntry 3 { phase := .running, record := BitVec.ofNat 512 nodeWord, ws := some 2 };
      (s.disp.pool.get? 3).any fun e => s.finished e && decide (bf e.record 272 16 ≤ e.succ) && e.preempt.isEmpty && e.kind == .node) = true ∧
    (let s := runningNode id;
      (s.disp.pool.get? 0).any fun e => !s.finished e && s.overBudget e && e.tgt == 0 && s.slotsFor e) = true ∧
    (let s := State.reset.setEntry 3 { phase := .running, record := BitVec.ofNat 512 (nodeWord + 2 ^ 25), total := 5 };
      (s.disp.pool.get? 3).any fun e => s.overBudget e && e.tgt == 2) = true ∧
    (let s := runningNode fun e => { e with used := 9 };
      (s.disp.pool.get? 0).any fun e => !s.overBudget e) = true ∧
    [false, true].all (fun stopped =>
      let s := (runningNode fun e => { e with preempt := [0], stopped := stopped });
      let u := s.setHearth 0 { s.hearth 0 with ncmd := some { op := 1, part := 0, tile := false, graph := 0, nid := 0, cl := 0, begun := true } };
      (u.disp.pool.get? 0).any fun e => !u.finished e && u.peelReady e && ((u.freeSlots 0).take e.gsz).length == e.gsz && e.tgt == 0) = true ∧
    (let s := (State.reset.setEntry 1 { kind := .tile, succ := 1 }).setEntry 2 { kind := .node, graph := 4, nid := 9, remain := 1 };
      let r : Held := { entry := 1, part := 0, graph := 4, nid := 9, bind := none };
      (s.identity r.part r.graph r.nid).map (·.1) == some 2 && (s.disp.pool.get? r.entry).any fun e => e.kind == .tile) = true := by decide +kernel

/-- Hearth core 0 with a node command in progress about node (4, 9). -/
def commanded (s : State) (op cl : Nat) (res : Option Nat) : State :=
  s.setHearth 0 { s.hearth 0 with ncmd := some { op := op, part := 0, tile := false, graph := 4, nid := 9, cl := cl, res := res } }

/-- R43: the spans are added in a tree: 2^24 + (1 + 1) is 2^24 + 2, which adding in one run would miss. -/
theorem test_canonical_sum :
    canonicalSum ((List.range 64).map fun i => if i = 0 then 0x4B800000 else if i = 32 ∨ i = 48 then 0x3F800000 else 0) =
      0x4B800001 := by decide +kernel

/-- R60: an earlier consumer of the ring holds a consumer back, in whichever queue it stands; a producer does not wait for
the ring's consumers. -/
theorem test_ring_turns :
    (let c := queued (.copyOut 2 false 0x1000 0x401) false none;
      let s := withCmds [queued (.mma 0 0 2 3 true false true false true 1 1) false none] [];
      !s.ringTurn 0 { c with order := 1 } && s.ringTurn 0 c &&
        s.ringTurn 0 { queued (.copyIn 2 0 0x1000 0x401) true none with order := 1, claim := some (0, 2, 0) }) = true := by
  decide +kernel

/-- R46 item 2: flags that land in the cycle of a write to FPCR are ORed into the written value. -/
theorem test_flags_of_the_write_cycle :
    (let s := ready .C 3 0 0;
      let u := s.setCore 0 { s.core 0 with flight := [{ left := 0, slot := 0, pc := 0, op := .vec 4 [9], flags := 0x1400 }] };
      goes (.cStreamLanding 0) u fun v => goes (.csrWr 1 0) { v with cur := .core 0 .C } fun t =>
        (t.core 0).flight.map (fun f => (f.left, f.op)) == [(1, .csr 0 0x1403)] && (t.core 0).fpcr == 0x1400) = true := by
  decide +kernel

/-- R291, R292: RESUME of a halted node whose save is a fault save answers 4, and of one that was never saved 2. -/
theorem test_resume_results :
    [([0], 4), ([], 2)].all (fun (p : List Nat × Nat) =>
      goes (.ncmdResume 0 false 4 9)
        (commanded ((runningNode fun e => { e with phase := .halted, graph := 4, nid := 9, saves := p.1 })) 2 0 none) fun t =>
          (t.hearth 0).ncmd.any fun c => c.res == some p.2) = true := by decide +kernel

theorem witness_NodeCommands :
    [1, 2, 3, 4, 5].all (fun op =>
      let s := commanded State.reset op 15 none;
      match (s.hearth 0).ncmd with
      | some c => (s.named c).isNone && c.op == op && !c.begun && (s.partOf c.cl).isNone
      | none => false) = true ∧
    [Phase.ready, .halted, .running].all (fun ph =>
      let s := commanded ((runningNode fun e => { e with phase := ph, graph := 4, nid := 9 })) 1 0 none;
      match (s.hearth 0).ncmd with
      | some c => (s.named c).any (fun p => p.1 == 0 && p.2.phase == ph && p.2.preempt.isEmpty && !p.2.overrun && !p.2.valid && s.slotsFor p.2) &&
          (let u := s.setPart 0 { s.part 0 with psaven := 0 }; (u.named c).any fun p => !u.slotsFor p.2) && (s.partOf c.cl).isSome
      | none => false) = true ∧
    (let s := commanded ((runningNode fun e => { e with phase := .halted, graph := 4, nid := 9, valid := true, saves := [0] })) 2 0 none;
      match (s.hearth 0).ncmd with
      | some c => (s.named c).any fun p => p.2.valid && !s.saveOk 0 p.2
      | none => false) = true ∧
    (((commanded State.reset 2 0 (some 4)).hearth 0).ncmd.bind (·.res)) = some 4 := by decide +kernel

/-- A work entry of queue pair 0: its kind, type and operation, and its length, source, destination and table. -/
def workWord (kind dtype opm len src dst aux : Nat) : BitVec 512 :=
  BitVec.ofNat 512 (2 ^ 50 + opm * 2 ^ 52 + dtype * 2 ^ 56 + kind * 2 ^ 60 + src * 2 ^ 128 + dst * 2 ^ 192 + len * 2 ^ 256 + aux * 2 ^ 320)

/-- The device with a running partition 0 whose queue pair 0 holds works. -/
def queuePair (st : QpState) (works : List Work) : State :=
  (hearthReady 2 0 0 0).setQp 0 { base := 0x100000000, state := st, tail := 1, works := works }

theorem witness_QueuePairEntries :
    (let s := queuePair .on [];
      let u : State := { s with mem := Mem.writeN s.mem (2 ^ 53) 64 (workWord 3 0 0 0 0 0 0).toNat };
      let x : Work := { idx := 0, word := workWord 3 0 0 0 0 0 0 };
      u.qpPart 0 == some (0, 0) && decide ((u.qp 0).arm < (u.qp 0).tail) && (u.qp 0).works.isEmpty &&
        shKey ((u.qp 0).place 0) == 2 ^ 53 && (sideErr (u.sideOf (2 ^ 53)) 0x100000000).isNone &&
        (({ u with bad := [2 ^ 53 / 8 + 7] } : State).loadFault (2 ^ 53) 64 0x100000000).isSome &&
        (let v : State := { u with side := [(2 ^ 53 / 256, 0x40)] };
          (v.loadFault (2 ^ 53) 64 0x100000000).isNone && (sideErr (v.sideOf (2 ^ 53)) 0x100000000).isSome) && decide (BitVec.ofNat 512 (Mem.readN u.mem (2 ^ 53) 64) = x.word) && (u.armErr 0 x).isNone &&
        !x.fence && okWith (u.tcNumber 0 (bf x.word 36 12)) fun _ => true) = true ∧
    [0, 2].all (fun peer =>
      let w : Work := { idx := 0, word := workWord 3 0 0 0 0 0 0, fired := true, done := true };
      let s := queuePair .on [w];
      let u := s.setQp 0 { s.qp 0 with cfg := BitVec.ofNat 64 (peer * 2 ^ 62) };
      (u.qp 0).peer == peer && (u.qp 0).works.find? (fun y => y.idx == 0 && y.done && y.fail.isNone) == some w && w.word.getLsbD 50 &&
        !w.word.getLsbD 49 && okWith (u.tcNumber 0 (bf w.word 24 12)) fun _ => true) = true ∧
    (let w : Work := { idx := 0, word := workWord 3 0 0 0 0 0 0, fired := true, done := true };
      let s := queuePair .on [w];
      let u := s.setPart 0 { s.part 0 with ptc := 0 };
      u.qpPart 0 == some (0, 0) && fails (u.tcNumber 0 (bf w.word 12 12))) = true ∧
    (let w : Work := { idx := 0, word := 0, fail := some (6, 0, 0) };
      let s := queuePair .on [w];
      (s.qp 0).works.find? (fun y => y.idx == 0) == some w && (s.qp 0).state == .on) = true ∧
    (let s := queuePair .resetting [];
      s.qpPart 0 == some (0, 0) && (s.qp 0).works.isEmpty && okWith (s.tcNumber 0 4095) (fun n => n == 4095) && fails (s.tcNumber 0 4096)) = true := by
  decide +kernel

/-- Shared-memory lines with the formats the entries read: a binary32 line at 2^32 + 0x1000, and a table entry of exponent 160. -/
def transferring (w : BitVec 512) : State :=
  let s := queuePair .on [{ idx := 0, word := w, fired := true }]
  { s with side := [((2 ^ 53 + 0x1000) / 256, 0x11)], mem := Mem.writeN (Mem.writeN s.mem (2 ^ 53 + 0x1000) 4 0x3F800000) (2 ^ 53 + 0x2000) 2 160 }

/-- The entry that runs in `transferring`. -/
def transfer (w : BitVec 512) : Running :=
  { n := 0, q := (transferring w).qp 0, part := 0, w := { idx := 0, word := w, fired := true } }

/-- Its source and destination of n bytes are reached, with no error at either. -/
def transfers (w : BitVec 512) (n : Nat) : Bool :=
  let s := transferring w
  let r := transfer w
  s.qpPart 0 == some (0, 0) && ((s.qp 0).running 0).isSome && Memory.wf s.mem &&
    okWith (s.fromField r fSrc 0 n) (fun k => !isExt k && !isDev k && (s.reduceErr k n (r.w.addr fSrc) none).isNone) &&
    okWith (s.toField r 0 n) fun p => match p with
      | .here d => !isExt d && !isDev d && (s.reduceErr d n (r.w.addr fDst) none).isNone
      | .peer _ => false

theorem witness_QueuePairTransfers :
    [workWord 0 0 0 256 0x100001000 0x100003000 0, workWord 4 0 0 256 0x100001000 0x100003000 0,
      workWord 4 0 2 256 0x100001000 0x100003000 0].all (transfers · 256) = true ∧
    [workWord 1 2 0 1 0x100001000 0x100003000 0, workWord 1 3 1 1 0x100001000 0x100003000 0, workWord 1 2 2 1 0x100001000 0x100003000 0].all
      (fun w => transfers w (dtypeSize (transfer w).w.dtype)) = true ∧
    (transfers (workWord 2 5 0 1 0x100002000 0x100003000 0) 2 && transfers (workWord 1 0 0 1 0x100001000 0x100003000 0x100002000) 8 &&
      transfers (workWord 3 0 0 0 0x100001000 0x100003000 0) 1) = true ∧
    (let w := workWord 1 0 0 1 0x100001000 0x100003000 0x100002000;
      okWith ((transferring w).fromField (transfer w) fAux 0 2) (fun k => Mem.readN (transferring w).mem k 2 == 160) &&
        okWith ((transferring w).fpElems (transfer w) 0 1) fun l => match l.1 with | [x] => (alignedInt 160 x).isSome | _ => false) = true ∧
    (let w := workWord 4 0 1 64 0x100001000 0x100003000 0x100002000;
      transfers w (8 * 64) && transfers w 256 && okWith ((transferring w).fromField (transfer w) fAux 0 2) fun _ => true) = true := by decide +kernel

/-- Hearth core 0 at level H with partition 0 as it is selected and acted for, in a state. -/
def selected (pstate : Nat) : State :=
  let s := hearthReady 2 0 0 0
  s.setPart 0 { s.part 0 with pstate := pstate }

theorem witness_PartitionLifecycle :
    (let s := selected 0;
      (s.hearth 0).lv == 2 && (List.range 14).all (fun j => s.partRegOk 0 (0x822 + j) ((s.part 0).reg (0x822 + j))) &&
        (s.cluster 0).cleared && decide ((s.part 0).pcl = 1)) = true ∧
    (let s := selected 0;
      !(s.setPart 0 { s.part 0 with prq := 1 }).partRegOk 0 0x828 1 && (s.disp.pool.isEmpty) &&
        (s.setEntry 4 {}).disp.pool.any fun e => e.2.part == 0) = true ∧
    [1, 2].all (fun n => ((selected n).part ((selected n).hearth 0).psel).pstate == n) = true ∧ ((hearthReady 1 0 0 0).hearth 0).lv < 2 := by
  decide +kernel

theorem witness_RegisterWriteSteps :
    (let s := hearthReady 1 0 0 0;
      let ws := (s.part 0).ws.set 0 { state := .current, table := 0, experts := 1, shards := 1 };
      let u := s.setPart 0 { s.part 0 with ws := ws };
      decide (1 ≤ (u.hearth 0).lv) && (u.part 0).pcl.getLsbD 0 && !u.clusterBusy 0 && !(u.part 0).pcl.getLsbD 1 && u.clusterBusy 0 == false &&
        u.sharedOk 0 0x100000000 (1040 * 1024) && decide ((u.part 0).qpsel < bf (u.part 0).pqp 16 11) &&
        decide (((u.part 0).ws.get 0).state ≠ .free) && ((u.part 0).ws.get 1).state == .free && u.ingest.isEmpty) = true ∧
    [QpState.off, .on, .error, .resetting].all (fun st =>
      let s := (hearthReady 1 0 0 0).setQp 0 { base := 0x100000000, state := st };
      s.sharedOk 0 (s.qp 0).base.toNat (64 * (s.qp 0).size) && decide ((s.qp 0).base.toNat % max (64 * (s.qp 0).size) 4096 = 0) &&
        (s.qp 0).head == (s.qp 0).tail) = true ∧
    (let s := hearthReady 1 0 0 0;
      let u := s.setPart 0 { s.part 0 with pqp := 0 };
      decide (bf (u.part 0).pqp 16 11 ≤ (u.part 0).qpsel) && (pregLevels 0x806).isNone) = true ∧
    ((hearthReady 0 0 0 0).hearth 0).lv = 0 ∧ ((hearthReady 2 0 0 0).hearth 0).lv = 2 ∧
    decide (bf (0x11000000000 : W64) (4 * 9) 4 ≠ 0 ∧ bf (0x800 : W64) 52 12 = 0 ∧ bf (0x800 : W64) 1 10 = 0 ∧ bf (2 : W64) 1 7 ≠ 0) = true := by
  decide +kernel

theorem witness_PowerRequests :
    [0, 1, 2, 3, 4].all (fun st => ((hearthReady 2 0 0 0).setPort 15 { state := st }).port 15 == { state := st }) = true ∧
    (let s := hearthReady 2 0 0 0;
      (List.range 32).all fun k => let z := s.island k; decide (z.target ≤ 2 ∧ (z.target = 0 → k ≠ 28 ∧ z.state = 0) ∧
        (z.state = 1 ∨ z.state = 2 → z.target = z.state))) = true ∧
    (let s := (hearthReady 2 0 0 0).setIsland 1 { state := 2, target := 2, groups := 8 };
      let u := (hearthReady 2 0 0 0).setIsland 0 { state := 2, target := 2, groups := 8 };
      s.mayOff (s.islWith 1 2) 1 && !u.mayOff (u.islWith 0 2) 0) = true ∧ ((hearthReady 1 0 0 0).hearth 0).lv < 2 := by decide +kernel

/-- A partition 0 with a host function, a mailbox at the start of shared memory, chunk buffers and port 15, which is in a state. -/
def linked (st : Nat) : State :=
  let s := mapped.setPort 15 { state := st, flit := true }
  let s : State := { s with root := { s.root with config := List.replicate 50 0 ++ [40, 0] } }
  s.setPart 0 { s.part 0 with pvf := 1, pmbx := 0x100000000, pchb := 0x10000, pport := 0x8000 }

theorem witness_LinksAndPorts :
    (let s := linked 2;
      decide ((s.part 0).pstate ≠ 0 ∧ bf (s.part 0).pvf 0 1 = 1) && s.sharedOk 0 (0x100000000 + 0xFF8) 8 && Memory.wf s.mem &&
        !s.isBad (2 ^ 53 + 0xFF8) && !s.poisoned (2 ^ 53 + 0xFF8) && decide (0x1000 + 8 ≤ 2 ^ s.cfgField 50 2) &&
        (match s.ipaKeys 0 0x1000 8 false with
          | .ok ks => ks.all fun k => !s.isBad k && !s.poisoned k
          | .error _ => false) && (match s.ipaKeys 0 0x1000 3 true with
          | .ok ks => ks == (List.range 3).map (ks.headD 0 + ·) && isDev (ks.headD 0 + 3) && ks.all fun k => !s.linkFailed (s.linkOf k)
          | .error _ => false) &&
        okWith (s.chunkAt 0 0 8) (fun k => isChunk (k + 8) && !s.badIn k 8) && okWith (s.chunkAt 0 0xFFF8 8) (fun k => isChunk (k + 8)) &&
        (s.part 0).pport.getLsbD 15 && !(s.part 0).pport.getLsbD 14) = true ∧
    [0, 1, 2, 3, 4].all (fun st => ((linked st).port 15).state == st && ((linked st).port 15).flit) = true ∧
    (let key := extKey 0 (2 ^ 51 + 15 * 2 ^ 46);
      let q : Request := { va := 0, key := key, begun := true, via := none, since := 0 };
      let s : State := { linked 3 with asked := some q, clock := 1 };
      let u := s.setCore 0 { k := { held := some q }, l := { held := some q }, c := { held := some q }, st := { held := some q } };
      s.askedFor key == some q && (linked 3).askedFor key == none && decide (s.fabricLimit < s.clock - q.since) && extTarget key == 15 &&
        u.cores.contains (0, u.core 0) && u.outstanding 15 && !s.outstanding 15) = true ∧
    decide (bf (State.reset.part 0).pvf 0 1 = 0 ∧ 2 ^ (State.reset.cfgField 50 2) < 8) = true := by decide +kernel

theorem witness_PowerAndReliability :
    (let s : State := { State.reset with evict := { running := true, unl := true, signal := true }, clock := 30000 * 800000 };
      s.allStopped && !s.anyDispatched && !s.savePending none && s.qps.isEmpty && (List.range 16).all (fun n => (s.port n).state == 0) &&
        s.evictMs == 30000 && ({ s with evict := { running := true } } : State).evictMs == 30000 && !s.evict.late) = true ∧
    (let s := { State.reset.setIsland 31 { target := 2 } with clock := 160000 };
      bootOrder.find? s.waitsToStart == some 31 && decide (s.lastStart + 160000 ≤ s.clock) && decide ((State.reset.lastStart) + 160000 > 159999)) = true ∧
    (let s := { State.reset.setIsland (islandOf 15) { state := 3, target := 1, groups := 7 } with clock := 56000 };
      (s.island (islandOf 15)).state == 3 && decide ((s.island (islandOf 15)).at_ + 8000 * (s.island (islandOf 15)).groups ≤ s.clock)) = true ∧
    (bucketExists (.bank 2047 63) && ({ State.reset with clock := 800000 } : State).buckets.isEmpty) = true ∧
    (let s := hearthReady 2 0 0 0;
      fld (s.link 31).reg.toNat 0 2 == 2 && fld (State.reset.link 0).reg.toNat 0 2 != 2 && !(s.allStopped)) = true ∧
    (let s := hearthReady 2 0 0 0;
      let u : State := { s with clock := 800000000 }.setPart 0 { s.part 0 with scrb := 1 };
      decide ((u.part 0).scrubAt + (u.part 0).scrb.toNat * 800000000 ≤ u.clock) && (List.range 8).all fun n => ((u.part 0).ws.get (idx 8 n)).state == .free) = true ∧
    (let s := mapped;
      let ws := (s.part 0).ws.set 0 { state := .current, table := 0x10000008000, experts := 1, shards := 1 };
      let y : Ingest := { part := 0, slot := 0, expert := 0, shard := 0, left := [] };
      let u : State := { s.setPart 0 { s.part 0 with ws := ws } with ingest := [y] };
      u.ingest.find? (fun y => y.part == 0 && y.left.isEmpty) == some y && okWith (({ u with ingest := [] } : State).shardEntry 0 0 0 0) fun x =>
        (({ u with ingest := [] } : State).shardCrc 0 x.2.1 x.2.2.1).isSome) = true := by decide +kernel

/-- A configuration record's body with version 7 and every limit kept. -/
def configBody : List Byte :=
  [0x43, 0x46, 0x52, 0, 7, 0, 0, 0] ++ List.replicate 40 0 ++ [1, 0, 40, 0, 1] ++ List.replicate 11 0 ++
    (List.replicate 4 (List.replicate 8 (0 : Byte) ++ [1, 0])).flatten ++ List.replicate 3992 0

/-- A device whose root core is at a boot step with a start-record entry. -/
def atStep (n : Nat) (b : Boot) : State :=
  { State.reset with root := { step := n, boot := [(n, b)], nonce := some 5 } }

theorem witness_RootCoreBoots :
    configOk configBody = true ∧ configOk [] = false ∧
    [atStep 0 {}, atStep 1 {}, atStep 3 { begun := true, streak := 1 }, atStep 21 { begun := true, streak := 1 }, atStep 22 { begun := true, streak := 1 },
      atStep 2 { begun := true, streak := 1 }, atStep 24 {}, atStep 39 {}].all (fun s => s.root.nonce.isSome && !s.root.recovery && !s.root.stopped &&
        decide (s.root.minVer ≤ ofBytes ((configBody.drop 4).take 4))) = true ∧
    ({ atStep 1 {} with root := { (atStep 1 {}).root with minVer := 8 } } : State).root.minVer = 8 ∧ State.reset.root.nonce = none := by
  decide +kernel

/-- The first stage's signature holds or does not, and an ALT command names a step or none: each case of the root core's
statement is one that some value of the free functions takes. -/
theorem witness_signature_cases (d sig command : List Byte) :
    (Config.signatureHolds d sig = true ∨ Config.signatureHolds d sig = false) ∧
    ((∃ n, Config.altCommand command = some n) ∨ Config.altCommand command = none) := by
  constructor
  · cases Config.signatureHolds d sig <;> simp
  · cases Config.altCommand command <;> simp

theorem witness_RootCoreAnswers :
    (let s := (hearthReady 2 0 0 0).setIsland 0 { state := 2, target := 2, groups := 8 };
      let u := s.setPart 0 { s.part 0 with pdbg := 1 };
      u.partOf (cidOf 127) == some 0 && !u.badIn (spadKey 127 0xFFFFF) 1 && u.mayDebug 0 && !s.mayDebug 0 && (u.island (islandOf (cidOf 127))).state == 2 && s.root.token.isNone) = true ∧
    (atStep 0 {}).root.nonce = some 5 ∧ State.reset.root.nonce = none ∧ State.reset.root.unsealed = false ∧
    ({ State.reset with root := { unsealed := true } } : State).root.unsealed = true := by decide +kernel

theorem witness_EncodeAndDecodeAgree :
    (Instr.iopAdd 31 0 31).wf = true ∧ encode (.iopAdd 31 0 31) ≠ [] ∧
    decodeWords [0x07E0F800, 9] = .ok (.iopAdd 31 0 31, [9]) := by decide +kernel

/-- A turn of a sequencer, after a change to the device. -/
def turn (s : State) (w : Who) : State := { s with agenda := [.seq w] }

theorem witness_TurnsRunTheDecodedInstruction :
    (let s := turn (State.reset.place false .K [0x04642800]) (.core 0 .K);
      let u : State := { s with agenda := [] };
      whoOk (.core 0 .K) && u.canRun (.core 0 .K) && (u.seqOf (.core 0 .K)).sync.isNone && (u.seqOf (.core 0 .K)).wait.isNone &&
        !u.landingDue (.core 0 .K) && !(u.seqOf (.core 0 .K)).loop.active &&
        okWith (u.fetchWord (.core 0 .K) (u.seqOf (.core 0 .K)).pc) fun x => match decodeWords [x] with
          | .ok (i, _) => decide (i = .iopAdd 3 4 5)
          | .error _ => false) = true ∧
    (let s := turn (State.reset.place false .C [0xFC400000, 0x84000000]) (.core 0 .C);
      let u : State := { s with agenda := [] };
      u.canRun (.core 0 .C) && okWith (u.fetchWord (.core 0 .C) (u.seqOf (.core 0 .C)).pc) fun x => decide (fld x.toNat 26 6 = 63) &&
        okWith (u.fetchWords (.core 0 .C) 1 ((u.seqOf (.core 0 .C)).pc + 4)) fun xs => match decodeWords (x :: xs) with
          | .ok _ => true
          | .error _ => false) = true ∧
    (let s := State.reset.place true .K [0];
      okWith (s.fetchWord (.hearth 0) (s.seqOf (.hearth 0)).pc) (fun x => fails (decodeWords [x])) && !State.reset.canRun (.core 0 .K)) = true ∧
    (let s := State.reset.place true .K [];
      let u := s.setSeq (.hearth 0) { s.seqOf (.hearth 0) with pc := 2 ^ 60 };
      fails (u.fetchWord (.hearth 0) (u.seqOf (.hearth 0)).pc)) = true ∧
    (let u := landing (.sreg 1 5); u.canRun (.core 0 .C) && u.landingDue (.core 0 .C)) = true := by decide +kernel

theorem witness_ProoferNodesEnd :
    (let s := State.reset.setEntry 3 { phase := .running, record := BitVec.ofNat 512 (nodeWord + 2 ^ 24), total := 5 };
      let p : PCmd := { pc := 0, core := none, entry := some 3, part := 0, block := 0 };
      let u := s.setCluster 0 { s.cluster 0 with running := some p };
      (u.disp.pool.get? 3).any fun e => u.overBudget e && e.tgt == 1 && u.proofRuns 3 e) = true := by decide +kernel

theorem witness_NodeCommandsWait :
    [(2 : Nat), 3, 4].all (fun op =>
      let s := commanded ((runningNode fun e => { e with phase := .halted, graph := 4, nid := 9, preempt := [1] })) op 0 none;
      match (s.hearth 0).ncmd with
      | some c => (s.named c).any fun p => p.2.phase == .halted && !p.2.preempt.isEmpty
      | none => false) = true ∧
    [(([1] : List Nat), false), ([], true), ([], false)].all (fun (x : List Nat × Bool) =>
      let s := commanded ((runningNode fun e => { e with graph := 4, nid := 9, preempt := x.1, overrun := x.2 })) 1 0 none;
      match (s.hearth 0).ncmd with
      | some c => (s.named c).any fun p => p.2.phase == .running && p.2.tgt == 0 && p.2.kind != .corr &&
          (p.2.overrun || !p.2.preempt.isEmpty || s.slotsFor p.2)
      | none => false) = true := by decide +kernel

theorem witness_HostAccessesFail :
    (let s := linked 2;
      (match s.ipaKeys 0 0x40000000 8 false with | .ok _ => false | .error _ => true) && decide (0x40000000 + 8 ≤ 2 ^ s.cfgField 50 2 ∧
        2 ^ s.cfgField 50 2 < 0x10000000000 + 8) && decide ((s.part 0).pstate ≠ 0 ∧ bf (s.part 0).pvf 0 1 = 1)) = true ∧
    [3, 2].all (fun st => ((linked st).port 15).state == st && ((linked st).setPort 15 { state := st }).port 15 == { state := st } &&
      ((linked st).part 0).pstate != 0 && ((linked st).part 0).pport.getLsbD 15) = true := by decide +kernel

theorem witness_ErrorsAndRetrains :
    (let s := State.reset.setIsland 0 { state := 1, target := 1, asked := some 0 };
      (s.island 0).state == 1 && (s.island 0).asked.isSome && s.fills.isEmpty && ({ s with clock := 800000 } : State).leakAt + 800000 == 800000) = true ∧
    (let s : State := { State.reset with evict := { running := true }, clock := 30000 * 800000 };
      s.clock - s.evict.start == 30000 * 800000 && !s.evict.late && !s.evict.unl) = true ∧
    (let s : State := { hearthReady 2 0 0 0 with evict := { unl := true, signal := true } };
      !s.allStopped && s.evict.unl && s.evict.signal) = true ∧
    (let s := hearthReady 2 0 0 0;
      let u : State := { s with links := s.links.set 3 { reg := 0x0000020000021C02 } };
      fld (s.link 3).reg.toNat 0 2 == 2 && bf (s.link 3).reg 12 4 == 2 && bf (u.link 3).reg 12 4 == 1) = true := by decide +kernel

theorem witness_BootStepsAreReached :
    ([5, 20, 3].all fun n => (atStep n { begun := true, streak := 1 }).root.step == n && !((atStep n { begun := true, streak := 1 }).root.boot.getD n {}).alt) = true ∧
    [23, 0, 1].all (fun n => let s := atStep n {}; s.root.step == n && Memory.wf s.mem && (s.root.boot.getD n {}).streak == 0 && s.root.nonce.isSome &&
      !s.root.recovery && !s.root.stopped) = true := by decide +kernel

theorem witness_TurnsOfACycle :
    (let s := turn (State.reset.place false .K [0x04642800]) (.core 0 .K);
      let u := s.setSeq (.core 0 .K) { s.seqOf (.core 0 .K) with issued := true };
      (u.seqOf (.core 0 .K)).issued && (match u.seqAct (.core 0 .K) with | .idle => false | _ => true)) = true ∧
    (let s := turn interrupted (.hearth 0);
      let u := ({ s with agenda := [] } : State).onTurn (.hearth 0);
      u.canRun (.hearth 0) && (u.takeable 0).isSome && (hearthReady 2 0 0 0).takeable 0 == none) = true ∧
    [(0x44020801, true), (0x84000000, false)].all (fun (p : W32 × Bool) =>
      let s := State.reset.place false .C [0xFC400000, p.1];
      let s := s.setSeq (.core 0 .C) ((s.seqOf (.core 0 .C)).wrS 1 5);
      let s := s.setCore 0 { s.core 0 with flight := [{ left := 0, slot := 0, pc := 0, op := .sreg 2 5 }] };
      let u := ({ s with agenda := [] } : State).onTurn (.core 0 .C);
      u.canRun (.core 0 .C) && u.landingDue (.core 0 .C) && u.landingWaits 0 == p.2) = true ∧
    (let s := State.reset.place true .K [0];
      let u := s.setSeq (.hearth 0) { s.seqOf (.hearth 0) with wait := some (.word .sysNop) };
      u.canRun (.hearth 0) && (u.seqOf (.hearth 0)).wait.isSome && (u.takeable 0).isNone) = true := by decide +kernel

/-- A request through port 15, looked up by a page of the aperture. -/
def lookedUp : Request :=
  { va := 0x80000000000000, key := extKey 0 (2 ^ 51 + 15 * 2 ^ 46), begun := true, via := some (pageAt (2 ^ 55) (2 ^ 51 + 15 * 2 ^ 46)), since := 0 }

theorem witness_InvalidationsWait :
    (let i : Instr := .privTinv 1 2;
      let s := mapped.setHearth 0 { mapped.hearth 0 with posted := [postedOne .ptWr 0 0 0] };
      s.passes i && ((s.begun i).tinvErr 0 (s.rs 1) (s.rs 2)).isNone && (s.hearth 0).tinv.isNone && !(s.hearth 0).posted.isEmpty) = true ∧
    [((0x1 : W64), true), (0x0, false)].all (fun (p : W64 × Bool) =>
      let t : Tinv := { addr := 0x10000000000, desc := p.1, units := [.hearth 0] };
      let s := mapped.setHearth 0 { mapped.hearth 0 with tinv := some t };
      let u := s.setCore 0 { s.core 0 with k := { (s.core 0).k with held := some lookedUp } };
      (u.hearth 0).tinv == some t && u.requests == [lookedUp] && (lookedUp.via.any t.hits == p.2)) = true ∧
    (let s : State := { mapped with asked := some lookedUp };
      (s.inFlight 0 (2 ^ 55) { rd := true } true).isSome && (mapped.inFlight 0 (2 ^ 40) { rd := true } true).isNone) = true := by decide +kernel

theorem witness_RegistersRefuse :
    (let s := hearthReady 1 0x811 0x10000 0;
      s.passes (.privWr 1 2) && okWith ((s.begun (.privWr 1 2)).regNumber 0 0x811 true) fun n =>
        fails ((s.begun (.privWr 1 2)).wrReg 0 n 0x10000)) = true ∧
    (let s := hearthReady 1 0x880 0 0;
      s.passes (.privRd 3 1) && okWith ((s.begun (.privRd 3 1)).regNumber 0 0x880 false) fun n =>
        fails ((s.begun (.privRd 3 1)).rdReg 0 n)) = true ∧
    whoOk (.core 2048 .K) = false ∧ (pregLevels 0x806).isNone = true := by decide +kernel

theorem witness_StepsKeepTheInvariant : State.reset.Inv := by
  refine ⟨by decide, fun h => ?_, fun p => ?_⟩
  · show ((State.reset.hearths.getD h {}).lv) ≤ 2
    simp [State.reset, Map.getD]
  · show ((State.reset.parts.getD p {}).pstate) ≤ 2
    simp [State.reset, Map.getD]

end

end Sys2Proof.Tests
end

section
/-! ## The invariant: memory, accesses, faults and effects (O59) -/
namespace Sys2Proof.Machine

/-! ### Updates of one field -/

/-- An update that touches neither memory nor hearth cores nor partitions. -/
@[simp] theorem State.inv_with {s : State} (agenda free cur curSlot curNp curAddr pos asked due clock cores clusters side bad
    ingest cstg disp qps tcs creels links ports islands buckets fills leakAt evict hazard root sent) :
    (State.mk agenda free cur curSlot curNp curAddr pos asked due clock cores clusters s.hearths s.parts s.mem side bad
      ingest cstg disp qps tcs creels links ports islands buckets fills leakAt evict hazard root sent).Inv ↔ s.Inv := Iff.rfl

/-- An update of memory, beside fields of which the invariant does not speak. -/
theorem State.inv_withMem {s : State} {mem : List Host.Cell} (h : s.Inv) (hm : Memory.wf mem = true)
    (agenda free cur curSlot curNp curAddr pos asked due clock cores clusters side bad
    ingest cstg disp qps tcs creels links ports islands buckets fills leakAt evict hazard root sent) :
    (State.mk agenda free cur curSlot curNp curAddr pos asked due clock cores clusters s.hearths s.parts mem side bad
      ingest cstg disp qps tcs creels links ports islands buckets fills leakAt evict hazard root sent).Inv := ⟨hm, h.2⟩

@[simp] theorem State.inv_setCore (s : State) (g : Nat) (c : Core) : (s.setCore g c).Inv ↔ s.Inv := Iff.rfl
@[simp] theorem State.inv_setCluster (s : State) (g : Nat) (c : Cluster) : (s.setCluster g c).Inv ↔ s.Inv := Iff.rfl
@[simp] theorem State.inv_setSide (s : State) (k : Nat) (v : W32) : (s.setSide k v).Inv ↔ s.Inv := Iff.rfl
@[simp] theorem State.inv_mend (s : State) (k : Nat) : (s.mend k).Inv ↔ s.Inv := Iff.rfl
@[simp] theorem State.inv_setIsland (s : State) (k : Nat) (x : Island) : (s.setIsland k x).Inv ↔ s.Inv := Iff.rfl
@[simp] theorem State.inv_setEntry (s : State) (k : Nat) (x : Entry) : (s.setEntry k x).Inv ↔ s.Inv := Iff.rfl

theorem State.Inv.setHearth {s : State} (h : s.Inv) (k : Nat) {x : Hearth} (hx : x.lv ≤ 2) : (s.setHearth k x).Inv :=
  ⟨h.1, fun j => by rw [State.hearth_setHearth]; split; exacts [hx, h.2.1 j], h.2.2⟩

theorem State.Inv.setPart {s : State} (h : s.Inv) (k : Nat) {x : Part} (hx : x.pstate ≤ 2) : (s.setPart k x).Inv :=
  ⟨h.1, h.2.1, fun j => by rw [State.part_setPart]; split; exacts [hx, h.2.2 j]⟩

@[simp] theorem State.inv_setHearth {s : State} {k : Nat} {x : Hearth} (hx : x.lv = (s.hearth k).lv := by rfl) :
    (s.setHearth k x).Inv ↔ s.Inv := by
  have (j : Nat) : ((s.setHearth k x).hearth j).lv = (s.hearth j).lv := by
    rw [State.hearth_setHearth]; split
    · next e => rw [e, hx]
    · rfl
  exact and_congr Iff.rfl (and_congr (forall_congr' fun j => by rw [this]) Iff.rfl)

@[simp] theorem State.inv_setPart {s : State} {k : Nat} {x : Part} (hx : x.pstate = (s.part k).pstate := by rfl) :
    (s.setPart k x).Inv ↔ s.Inv := by
  have (j : Nat) : ((s.setPart k x).part j).pstate = (s.part j).pstate := by
    rw [State.part_setPart]; split
    · next e => rw [e, hx]
    · rfl
  exact and_congr Iff.rfl (and_congr Iff.rfl (forall_congr' fun j => by rw [this]))

/-- What each step of a fold keeps, the fold keeps. -/
theorem State.inv_foldl {α : Type} {f : State → α → State} (hf : ∀ s a, (f s a).Inv ↔ s.Inv) (l : List α) (s : State) :
    (l.foldl f s).Inv ↔ s.Inv := (foldl_fixes State.Inv f (fun b a => propext (hf b a)) l s).to_iff

/-- What a fold may change keeps the invariant when each of its steps does. -/
theorem State.Inv.foldl {α : Type} {f : State → α → State} {s : State} (h : s.Inv) (hf : ∀ s a, s.Inv → (f s a).Inv)
    (l : List α) : (l.foldl f s).Inv := foldl_keeps State.Inv f hf l s h

/-! ### Accesses, records and buckets -/

@[simp] theorem State.inv_askIsland (s : State) (i : Nat) : (s.askIsland i).Inv ↔ s.Inv := by
  simp only [State.askIsland]; split <;> simp
@[simp] theorem State.inv_wakeKey (s : State) (k : Nat) : (s.wakeKey k).Inv ↔ s.Inv := s.inv_askIsland _
@[simp] theorem State.inv_marked (s : State) (k : Nat) : (s.marked k).Inv ↔ s.Inv := by
  unfold State.marked; split <;> rfl
@[simp] theorem State.inv_postTo (s : State) (p c : Nat) (r : Record) : (s.postTo p c r).Inv ↔ s.Inv := Iff.rfl
@[simp] theorem State.inv_post (s : State) (c : Nat) (r : Record) : (s.post c r).Inv ↔ s.Inv := by
  unfold State.post; split <;> rfl
@[simp] theorem State.inv_postAll (s : State) (r : Record) : (s.postAll r).Inv ↔ s.Inv :=
  State.inv_foldl (fun s p => by split <;> rfl) _ s
@[simp] theorem State.inv_lostWrite (s : State) (k : Nat) : (s.lostWrite k).Inv ↔ s.Inv := s.inv_postAll _
@[simp] theorem State.inv_askExt (s : State) (k n : Nat) : (s.askExt k n).Inv ↔ s.Inv := Iff.rfl
@[simp] theorem State.inv_sendExt (s : State) (k : Nat) (bs : List Byte) (sb : Option W32) : (s.sendExt k bs sb).Inv ↔ s.Inv :=
  Iff.rfl
@[simp] theorem State.inv_markPf (s : State) (p : Nat) (r : Record) (n : Nat) : (s.markPf p r n).Inv ↔ s.Inv := by
  unfold State.markPf; split <;> simp

@[simp] theorem State.inv_load (s : State) (k n : Nat) : (s.load k n).2.Inv ↔ s.Inv := by
  unfold State.load; split <;> simp
@[simp] theorem State.inv_line (s : State) (k : Nat) : (s.line k).2.Inv ↔ s.Inv := by
  unfold State.line; split <;> simp


@[simp] theorem State.Inv.store {s : State} (h : s.Inv) (k n v : Nat) : (s.store k n v).Inv := by
  have hw : (s.wakeKey k).Inv := by simpa
  obtain e | e | e | e := s.store_cases k n v
  · simp [e.2, h]
  · simp [e.2.2.2, h]
  · rw [e.2.2.2, State.inv_marked]; exact State.inv_withMem hw (Memory.wf_writeN k n v hw.1) ..
  · rw [e.2.2]; exact State.inv_withMem hw (Memory.wf_writeN k n v hw.1) ..

@[simp] theorem State.Inv.setLine {s : State} (h : s.Inv) (k : Nat) (bs : List Byte) (sb : W32) : (s.setLine k bs sb).Inv := by
  have hw : (s.wakeKey k).Inv := by simpa
  have hm : ({ s.wakeKey k with mem := Mem.writeBytes (s.wakeKey k).mem k bs } : State).Inv :=
    State.inv_withMem hw (Memory.wf_writeBytes k bs hw.1) ..
  simp only [State.setLine]
  split
  · simpa
  · split
    · split
      · simpa
      · rw [State.inv_marked, State.inv_mend, State.inv_setSide]; exact hm
    · rw [State.inv_mend, State.inv_setSide]; exact hm

@[simp] theorem State.Inv.setAnyLine {s : State} (h : s.Inv) (k : Nat) (bs : List Byte) (sb : W32) :
    (s.setAnyLine k bs sb).Inv := by
  unfold State.setAnyLine
  split
  · rw [State.inv_mend]
    exact State.inv_withMem (by simpa : (s.wakeKey k).Inv) (Memory.wf_writeBytes k bs (by simpa using h.1)) ..
  · exact h.setLine k bs sb

@[simp] theorem State.inv_setBucket (s : State) (b : Bucket) (x : Leak) : (s.setBucket b x).Inv ↔ s.Inv := Iff.rfl
@[simp] theorem State.inv_fill (s : State) (b : Bucket) (k : Mishap) : (s.fill b k).Inv ↔ s.Inv := Iff.rfl

@[simp] theorem State.inv_predict (s : State) (b : Bucket) (level mark : Nat) : (s.predict b level mark).Inv ↔ s.Inv := by
  have hf (r : Record) (ps : List Nat) (t : State) : (ps.foldl (fun s p => s.postTo p (s.lowCluster p) r) t).Inv ↔ t.Inv :=
    State.inv_foldl (fun _ _ => by simp) ps t
  simp only [State.predict]
  split
  · rw [State.inv_with, hf]; rfl
  · rw [hf]; rfl

@[simp] theorem State.inv_settleBucket (s : State) (b : Bucket) (level : Nat) : (s.settleBucket b level).Inv ↔ s.Inv := by
  simp only [State.settleBucket]; split <;> simp

@[simp] theorem State.inv_consume (s : State) (k : Nat) : (s.consume k).Inv ↔ s.Inv := by
  unfold State.consume; split <;> rfl

@[simp] theorem State.inv_traced (s : State) (e : Exc) : (s.traced e).Inv ↔ s.Inv := by
  unfold State.traced
  split
  · simp
  · split <;> simp
  · simp
  · rfl

@[simp] theorem State.inv_settleFills (s : State) : s.settleFills.Inv ↔ s.Inv :=
  (State.inv_foldl (fun _ _ => by simp) _ _).trans Iff.rfl

@[simp] theorem State.inv_leak (s : State) (b : Bucket) : (s.leak b).Inv ↔ s.Inv := s.inv_settleBucket b _

@[simp] theorem State.inv_queueRead (s : State) (k n : Nat) : (s.queueRead k n).2.Inv ↔ s.Inv := by
  unfold State.queueRead
  split
  · exact s.inv_consume _
  · rfl

@[simp] theorem State.Inv.queueWrite {s : State} (h : s.Inv) (r : Record) (k n v : Nat) : (s.queueWrite r k n v).Inv := by
  have hw : (s.wakeKey k).Inv := by simpa
  simp only [State.queueWrite]
  split
  · split <;> simpa
  · rw [State.inv_marked]; exact State.inv_withMem hw (Memory.wf_writeN k n v hw.1) ..

/-- Writing a record keeps the invariant (R309). -/
@[simp] theorem State.Inv.writeRecord {s : State} (h : s.Inv) (p c : Nat) (r : Record) : (s.writeRecord p c r).Inv := by
  unfold State.writeRecord
  generalize hx : s.queueRead (s.faultQueue p c) 8 = x
  have hx : x.2.Inv := by rw [← hx]; simpa
  generalize hy : x.2.queueRead (s.faultQueue p c + 8) 8 = y
  have hy : y.2.Inv := by rw [← hy]; simpa
  generalize hz : y.2.queueRead (s.faultQueue p c + 16) 8 = z
  have hz : z.2.Inv := by rw [← hz]; simpa
  simp only [*]
  split
  · rw [State.inv_markPf]; exact hz.queueWrite ..
  · rw [State.inv_markPf]; exact (hy.queueWrite ..).queueWrite ..

/-! ### Sequencers, faults and traps -/


@[simp] theorem State.inv_setSeq (s : State) (w : Who) (x : Seq) : (s.setSeq w x).Inv ↔ s.Inv := by
  cases w <;> simp [State.setSeq]
@[simp] theorem State.inv_setMe (s : State) (x : Seq) : (s.setMe x).Inv ↔ s.Inv := s.inv_setSeq _ x
@[simp] theorem State.inv_launch (s : State) (g : Nat) (k : Lat) (op : Landing) (fl : W32) :
    (s.launch g k op fl).Inv ↔ s.Inv := Iff.rfl

@[simp] theorem State.inv_putS (s : State) (k : Lat) (d : SReg) (x : W64) : (s.putS k d x).Inv ↔ s.Inv := by
  unfold State.putS
  split
  · split <;> simp
  · simp
@[simp] theorem State.inv_putP (s : State) (k : Lat) (d : Reg16) (b : Bool) : (s.putP k d b).Inv ↔ s.Inv := by
  unfold State.putP
  split
  · split <;> simp
  · simp
@[simp] theorem State.inv_putPreds (s : State) (x : W64) : (s.putPreds x).Inv ↔ s.Inv := by
  unfold State.putPreds; split <;> simp
@[simp] theorem State.inv_goto (s : State) (x : W64) : (s.goto x).Inv ↔ s.Inv := s.inv_setMe _
@[simp] theorem State.inv_raiseEvents (s : State) (g : Nat) : (s.raiseEvents g).Inv ↔ s.Inv := Iff.rfl

@[simp] theorem State.inv_stopCores (s : State) (gs : List Nat) : (s.stopCores gs).Inv ↔ s.Inv :=
  State.inv_foldl (fun _ _ => State.inv_setCore ..) gs s
@[simp] theorem State.inv_haltCores (s : State) (gs : List Nat) : (s.haltCores gs).Inv ↔ s.Inv :=
  State.inv_foldl (fun _ _ => State.inv_setCore ..) gs s

/-- Cores, pool entries and records to be written are no part of the invariant. -/
theorem State.untouched_inv : Untouched State.Inv := ⟨fun _ _ _ => rfl, fun _ _ _ => rfl, fun _ _ => rfl⟩

@[simp] theorem State.inv_dropPreloads (s : State) (gs : List Nat) : (s.dropPreloads gs).Inv ↔ s.Inv := by
  refine State.inv_foldl (fun s g => ?_) gs s
  split
  · rfl
  · split
    · rfl
    · rw [State.inv_setEntry]; exact State.inv_foldl (fun _ _ => State.inv_setCore ..) _ s
@[simp] theorem State.inv_haltNode (s : State) (g : Nat) : (s.haltNode g).Inv ↔ s.Inv :=
  (State.haltNode_keeps State.untouched_inv s g).to_iff
@[simp] theorem State.inv_postStop (s : State) (g : Nat) (r : Record) : (s.postStop g r).Inv ↔ s.Inv :=
  (State.postStop_keeps State.untouched_inv s g r).to_iff

/-- An entry leads to level S or H (R284). -/
theorem Hearth.enter_lv (x : Hearth) (lvl cls code : Nat) (info pc : W64) : (x.enter lvl cls code info pc).lv = lvl := by
  simp only [Hearth.enter]; split <;> rfl
theorem Hearth.trapLevel_le (x : Hearth) : x.trapLevel ≤ 2 := by unfold Hearth.trapLevel; split <;> omega

/-- A fault or trap keeps the invariant: a hearth core enters level S or H (R284). -/
@[simp] theorem State.Inv.take {s : State} (h : s.Inv) (e : Exc) : (s.take e).Inv := by
  have ht : (s.traced e).Inv := by simpa
  unfold State.take
  split
  · exact h
  · simpa
  · exact h.setHearth _ (by rw [Hearth.enter_lv]; exact Hearth.trapLevel_le _)
  · exact ht.setHearth _ (by rw [Hearth.enter_lv]; exact Hearth.trapLevel_le _)

/-- A return leads to no higher level than the one it leaves (R284). -/
theorem Hearth.ret_lv {x y : Hearth} (h : x.ret = .ok y) : y.lv ≤ x.lv := by
  unfold Hearth.ret at h
  extract_lets r lvl at h
  split at h
  · exact absurd h (by simp)
  · next hl =>
    obtain rfl := Except.ok.inj h
    exact not_lt.1 fun hlt => hl (.inl hlt)

@[simp] theorem State.inv_imprecise (s : State) (g unit index : Nat) (pc : W64) (e : Exc) (more : Nat) :
    (s.imprecise g unit index pc e more).Inv ↔ s.Inv := by
  unfold State.imprecise
  split
  · rfl
  · rfl
  · simp only [State.inv_postStop]; split <;> simp
@[simp] theorem State.inv_note (s : State) (g unit index code : Nat) (pc addr : W64) (detail : Nat) :
    (s.note g unit index code pc addr detail).Inv ↔ s.Inv := s.inv_post _ _

/-! ### Effects -/

/-- The states that an effect leads to keep the invariant. -/
def Eff.Inv : Eff → Prop
  | .done s => s.Inv
  | .fail s _ => s.Inv
  | _ => True

@[simp] theorem Eff.inv_done (s : State) : (Eff.done s).Inv ↔ s.Inv := Iff.rfl
@[simp] theorem Eff.inv_fail (s : State) (e : Exc) : (Eff.fail s e).Inv ↔ s.Inv := Iff.rfl
@[simp] theorem Eff.inv_trap (e : Exc) : (Eff.trap e).Inv := trivial
@[simp] theorem Eff.inv_stall : Eff.stall.Inv := trivial
@[simp] theorem Eff.inv_freeze (u : Late) (a : W64) : (Eff.freeze u a).Inv := trivial
@[simp] theorem Eff.inv_need {α : Type} (x : Except Exc α) (f : α → Eff) :
    (Eff.need x f).Inv ↔ ∀ a, x = .ok a → (f a).Inv := by cases x <;> simp [Eff.need]
@[simp] theorem Eff.inv_bind (x : Eff) (f : State → Eff) :
    (x.bind f).Inv ↔ (∀ s, x = .done s → (f s).Inv) ∧ ∀ s e, x = .fail s e → s.Inv := by cases x <;> simp [Eff.bind]
@[simp] theorem Eff.inv_ite (c : Prop) [Decidable c] (x y : Eff) : (if c then x else y).Inv ↔ (c → x.Inv) ∧ (¬c → y.Inv) := by
  split <;> simp [*]

@[simp] theorem State.inv_enterWord (s : State) : s.enterWord.Inv ↔ s.Inv := by simp [State.enterWord]
@[simp] theorem State.inv_startFreeze (s : State) (u : Late) (a : W64) : (s.startFreeze u a).Inv ↔ s.Inv := by
  unfold State.startFreeze; split <;> simp
@[simp] theorem State.inv_overwrite (s : State) (ds : List Dest) : (s.overwrite ds).Inv ↔ s.Inv := by
  unfold State.overwrite
  split
  · rfl
  · split <;> simp
  · split <;> simp

/-- What comes of an effect keeps the invariant. -/
theorem settle_inv {w : Wait} {s : State} {e : Eff} (hs : s.Inv) (he : e.Inv) : (settle w s e).Inv := by
  unfold settle
  split
  · exact he
  · simpa
  · exact State.Inv.take (by simpa) _
  · exact State.Inv.take (by simpa using he) _
  · simpa
  · simpa

theorem wordEff_inv {chk : Option Exc} {srcs : List RegSite} {ds : List Dest} {x : State → Eff} {s : State} (hs : s.Inv)
    (hx : ∀ t : State, t.Inv → (x t).Inv) : (wordEff chk srcs ds x s).Inv := by
  unfold wordEff
  split
  · trivial
  · split
    · trivial
    · exact hx _ (by simpa)

/-! ### Special registers -/

@[simp] theorem inv_csrStore (s : State) (w : Who) (n : Nat) (x : W64) : (csrStore s w n x).Inv ↔ s.Inv := by
  unfold csrStore
  split
  · simp only; split <;> simp
  · rfl
@[simp] theorem inv_csrWrite (s : State) (n : Nat) (x : W64) : (csrWrite s n x).Inv ↔ s.Inv := by
  unfold csrWrite; split <;> simp
end Sys2Proof.Machine
end

section
/-! ## The invariant: operations of scalar and bank words (O59) -/
namespace Sys2Proof.Machine

/-! ### The hazard checker (R81): it keeps everything but its own records -/

@[simp] theorem State.inv_addSrcs (s : State) (o : Obj) (xs : List Src) : (s.addSrcs o xs).Inv ↔ s.Inv := Iff.rfl
@[simp] theorem State.inv_release (s : State) (a : Agent) (n : Nat) (o : Obj) : (s.release a n o).Inv ↔ s.Inv := by
  unfold State.release; split <;> rfl
@[simp] theorem State.inv_acquireFrom (s : State) (a : Agent) (n : Nat) (xs : List Src) :
    (s.acquireFrom a n xs).Inv ↔ s.Inv := by
  unfold State.acquireFrom; split <;> rfl
@[simp] theorem State.inv_meets (s : State) (a : Agent) (xs : List Src) : (s.meets a xs).Inv ↔ s.Inv := by
  unfold State.meets; split <;> rfl
@[simp] theorem State.inv_acquireRead (s : State) (a : Agent) (n : Nat) (xs : List Src) :
    (s.acquireRead a n xs).Inv ↔ s.Inv := by simp [State.acquireRead]
@[simp] theorem State.inv_acquire (s : State) (a : Agent) (n : Nat) (o : Obj) : (s.acquire a n o).Inv ↔ s.Inv :=
  s.inv_acquireRead ..
@[simp] theorem State.inv_fenceRel (s : State) (a : Agent) (n : Nat) : (s.fenceRel a n).Inv ↔ s.Inv := by
  unfold State.fenceRel; split <;> rfl
@[simp] theorem State.inv_fenceAcq (s : State) (a : Agent) (n : Nat) : (s.fenceAcq a n).Inv ↔ s.Inv := s.inv_acquireFrom ..
@[simp] theorem State.inv_fenceFull (s : State) (a : Agent) (n : Nat) : (s.fenceFull a n).Inv ↔ s.Inv := by
  unfold State.fenceFull; split <;> simp
@[simp] theorem State.inv_issueTo (s : State) (a c : Agent) (n : Nat) : (s.issueTo a c n).Inv ↔ s.Inv := by
  unfold State.issueTo; split <;> rfl
@[simp] theorem State.inv_logAccess (s : State) (a : Agent) (k n : Nat) (r w : Bool) (xs : List Src) :
    (s.logAccess a k n r w xs).Inv ↔ s.Inv := by
  unfold State.logAccess
  split
  · simp only [State.inv_with]; split <;> simp
  · rfl
@[simp] theorem State.inv_clearObj (s : State) (o : Obj) : (s.clearObj o).Inv ↔ s.Inv := Iff.rfl
@[simp] theorem State.inv_copySrcs (s : State) (o o' : Obj) : (s.copySrcs o o').Inv ↔ s.Inv := Iff.rfl
@[simp] theorem State.inv_releaseCores (s : State) (gs : List Nat) (o : Obj) : (s.releaseCores gs o).Inv ↔ s.Inv := by
  unfold State.releaseCores
  split
  · exact State.inv_foldl (fun _ _ => State.inv_release ..) _ s
  · rfl
@[simp] theorem State.inv_acquireCores (s : State) (gs : List Nat) (o : Obj) : (s.acquireCores gs o).Inv ↔ s.Inv :=
  State.inv_foldl (fun _ _ => State.inv_foldl (fun _ _ => State.inv_acquire ..) _ _) gs s
@[simp] theorem State.inv_forget (s : State) (gs : List Nat) : (s.forget gs).Inv ↔ s.Inv := by
  unfold State.forget; split <;> rfl

/-- A tracked access answers a state that differs in the hazard checker's records alone. -/
theorem State.Inv.track {s t : State} {g : Nat} {a : Agent} {k n : Nat} {w : Bool} {va : W64} (h : s.Inv)
    (ht : s.track g a k n w va = .ok t) : t.Inv := by
  unfold State.track at ht
  split at ht
  · split at ht
    · cases ht
    · cases ht; simpa
  · cases ht; exact h

theorem State.Inv.trackLine {s t : State} {g : Nat} {a : Agent} {k : Nat} {w : Bool} {va : W64} (h : s.Inv)
    (ht : s.trackLine g a k w va = .ok t) : t.Inv := by
  unfold State.trackLine at ht
  split at ht
  · cases ht
  · next hu => exact (h.track hu).track ht

theorem State.Inv.trackMe {s t : State} {k n : Nat} {w : Bool} {va : W64} (h : s.Inv)
    (ht : s.trackMe k n w va = .ok t) : t.Inv := by
  unfold State.trackMe at ht
  split at ht
  · exact h.track ht
  · cases ht; simpa

/-! ### Scalar accesses and operand blocks -/

theorem State.Inv.scalarLoad {s : State} {ea : W64} {n : Nat} {p : Nat × State} (h : s.Inv)
    (hp : s.scalarLoad ea n = .ok p) : p.2.Inv := by
  unfold State.scalarLoad at hp
  split at hp
  · cases hp
  split at hp
  · cases hp
  split at hp
  · cases hp
  next ht =>
    split at hp
    · cases hp
    · cases hp; rw [State.inv_load]; exact h.trackMe ht

theorem State.Inv.scalarStore {s t : State} {ea : W64} {n : Nat} {v : W64} (h : s.Inv)
    (ht : s.scalarStore ea n v = .ok t) : t.Inv := by
  unfold State.scalarStore at ht
  split at ht
  · cases ht
  split at ht
  · cases ht
  split at ht
  · cases ht
  next hu => cases ht; exact (h.trackMe hu).store ..

theorem State.Inv.readOwn {s : State} {va : W64} {n : Nat} {p : Nat × State} (h : s.Inv) (hp : s.readOwn va n = .ok p) :
    p.2.Inv := by
  unfold State.readOwn at hp
  split at hp
  · cases hp
  split at hp
  · cases hp
  simp only at hp
  split at hp
  · cases hp
  next ht =>
    split at hp
    · cases hp
    · cases hp; exact h.trackMe ht

/-! ### Control (R174-R182) -/

theorem inv_transfer {s : State} (h : s.Inv) (x : W64) {k : State → State} (hk : ∀ t : State, (k t).Inv ↔ t.Inv) :
    (transfer x k s).Inv := by
  unfold transfer; split <;> simp [hk, h]
theorem inv_xBr {s : State} (h : s.Inv) (n : Bool) (p : Reg16) (o : BitVec 21) : (xBr n p o s).Inv := by
  unfold xBr
  split
  · exact inv_transfer h _ fun _ => Iff.rfl
  · exact h
theorem inv_jump {s : State} (h : s.Inv) (x : W64) {k : State → State} (hk : ∀ t : State, (k t).Inv ↔ t.Inv) :
    (jump x k s).Inv := by
  unfold jump; simp [inv_transfer h x hk]
theorem inv_xLoopSp {s : State} (h : s.Inv) (c : Fin 8) (a : SReg) (i : BitVec 12) : (xLoopSp c a i s).Inv := by
  unfold xLoopSp
  split
  · trivial
  · simp only
    split
    · simpa
    · split <;> simpa
@[simp] theorem inv_loopEndStep (s : State) (w : Who) : (loopEndStep s w).Inv ↔ s.Inv := by
  simp only [loopEndStep, State.inv_setSeq]; split <;> simp
@[simp] theorem State.inv_endSeq (s : State) (w : Who) : (s.endSeq w).Inv ↔ s.Inv := by
  unfold State.endSeq; simp only; split <;> simp
@[simp] theorem State.inv_endGang (s : State) (g : Nat) : (s.endGang g).Inv ↔ s.Inv :=
  State.inv_foldl (fun _ _ => State.inv_setCore ..) _ s
theorem inv_xSysEnd {s : State} (h : s.Inv) (g : Bool) : (xSysEnd g s).Inv := by
  unfold xSysEnd
  split
  · split <;> simpa
  · simpa
theorem inv_xSysWev {s : State} (h : s.Inv) : (xSysWev s).Inv := by unfold xSysWev; split <;> simp [h]

/-! ### Rings, semaphores, barriers and fences -/

@[simp] theorem State.inv_setRing (s : State) (g : Nat) (q : Reg16) (r : Ring) : (s.setRing g q r).Inv ↔ s.Inv := Iff.rfl
@[simp] theorem State.inv_claimRing (s : State) (g : Nat) (q : Reg16) (m : Nat) : (s.claimRing g q m).Inv ↔ s.Inv := Iff.rfl

theorem State.Inv.commitRing {s t : State} {a : Agent} {g : Nat} {q : Reg16} {n m : Nat} {rem : Bool} (h : s.Inv)
    (ht : s.commitRing a g q n m rem = some t) : t.Inv := by
  unfold State.commitRing at ht
  split at ht
  · cases ht
  · simp only [Option.some.injEq] at ht
    subst ht
    rw [State.inv_raiseEvents, State.inv_setRing, State.inv_foldl fun _ _ => by simp]
    exact h

@[simp] theorem State.inv_semAddTo (s : State) (a : Agent) (g : Nat) (q : Reg16) (x : W32) (rem : Bool) :
    (s.semAddTo a g q x rem).Inv ↔ s.Inv := by simp [State.semAddTo]
@[simp] theorem State.inv_arrive (s : State) (a : Reg16) : (s.arrive a).Inv ↔ s.Inv := by
  simp only [State.arrive]
  split
  · simp
  · rw [State.inv_foldl fun _ _ => State.inv_raiseEvents ..]; simp
@[simp] theorem State.inv_barAcquire (s : State) (a : Reg16) : (s.barAcquire a).Inv ↔ s.Inv := by
  unfold State.barAcquire; simp only; split <;> simp

theorem inv_xRingClaim {s : State} (h : s.Inv) (d : SReg) (a : Reg16) (b : SReg) (m : Bool) : (xRingClaim d a b m s).Inv := by
  simp [xRingClaim, h]
theorem inv_xRingCommit {s : State} (h : s.Inv) (d : SReg) (a : Reg16) (b : SReg) (m : Bool) :
    (xRingCommit d a b m s).Inv := by
  simp only [xRingCommit, Eff.inv_need]
  rintro ⟨k, g⟩ -
  simp only [Eff.inv_ite, Eff.inv_trap, true_and, implies_true]
  intro _
  split
  · next ht => exact h.commitRing ht
  · trivial
theorem inv_xRingWaitf {s : State} (h : s.Inv) (a : Reg16) (b : SReg) (m : Bool) : (xRingWaitf a b m s).Inv := by
  have hf (f : Nat → Obj) (l : List Nat) (t : State) :
      (l.foldl (fun s i => s.acquire s.agent 2 (f i)) t).Inv ↔ t.Inv := State.inv_foldl (fun _ _ => State.inv_acquire ..) l t
  simp [xRingWaitf, hf, h]
theorem inv_xRingWaitr {s : State} (h : s.Inv) (a : Reg16) (b : SReg) (m : Bool) : (xRingWaitr a b m s).Inv := by
  simp [xRingWaitr, h]
theorem inv_xRingPop {s : State} (h : s.Inv) (a : Reg16) (b : SReg) (m : Bool) : (xRingPop a b m s).Inv := by
  simp [xRingPop, h]
theorem inv_xRingCfg {s : State} (h : s.Inv) (a : Reg16) (b : SReg) : (xRingCfg a b s).Inv := by simp [xRingCfg, h]
theorem inv_xRingRd {s : State} (h : s.Inv) (d : SReg) (a : Reg16) : (xRingRd d a s).Inv := by simp [xRingRd, h]
theorem inv_xSemAdd {s : State} (h : s.Inv) (d : SReg) (a : Reg16) (b : SReg) (m : Bool) : (xSemAdd d a b m s).Inv := by
  simp [xSemAdd, h]
theorem inv_xSemWaitge {s : State} (h : s.Inv) (a : Reg16) (b : SReg) : (xSemWaitge a b s).Inv := by simp [xSemWaitge, h]
theorem inv_xSemRd {s : State} (h : s.Inv) (d : SReg) (a : Reg16) : (xSemRd d a s).Inv := by simp [xSemRd, h]
theorem inv_xGbarArr {s : State} (h : s.Inv) (a : Reg16) : (xGbarArr a s).Inv := by simp [xGbarArr, h]
theorem inv_xGbarWait {s : State} (h : s.Inv) (a : Reg16) : (xGbarWait a s).Inv := by simp [xGbarWait, h]
theorem inv_xGbarSync {s : State} (h : s.Inv) (a : Reg16) : (xGbarSync a s).Inv := by
  simp only [xGbarSync, Eff.inv_done]; split <;> simp [h]
theorem inv_fenceRun {s : State} (h : s.Inv) (sc : Fin 8) (rel : Bool) {f : State → Agent → Nat → State}
    (hf : ∀ t a n, (f t a n).Inv ↔ t.Inv) : (fenceRun sc rel f s).Inv := by simp [fenceRun, hf, h]

/-! ### Bank units: predictor tables, creels, sketches and order cells -/

@[simp] theorem State.Inv.shWr {s : State} (h : s.Inv) (a n v : Nat) : (s.shWr a n v).Inv := h.store ..
@[simp] theorem Applied.err_s (s : State) (e : Exc) : (Applied.err s e).s = s := rfl

/-- What is applied to a checked value keeps the invariant when each case does. -/
theorem Applied.inv_with {α : Type} {s : State} {x : Except Exc α} {f : α → Applied} (h : s.Inv)
    (hf : ∀ v, x = .ok v → (f v).s.Inv) : (Applied.with s x f).s.Inv := by
  cases x with
  | ok v => exact hf v rfl
  | error e => exact h

theorem State.Inv.nmaApply {s : State} (h : s.Inv) (op ty : Nat) (u : Bool) (ea y c : Nat) :
    (s.nmaApply op ty u ea y c).s.Inv := by
  simp only [State.nmaApply]
  split_ifs
  all_goals simp [h]
@[simp] theorem State.Inv.ptCount {s : State} (h : s.Inv) (base l e : Nat) (hit : Bool) : (s.ptCount base l e hit).Inv := h.shWr ..
@[simp] theorem State.Inv.ptClear {s : State} (h : s.Inv) (base l : Nat) : (s.ptClear base l).Inv :=
  ((State.Inv.foldl h (fun _ _ ht => ht.shWr ..) _).shWr ..).shWr ..

theorem State.Inv.notice {s t : State} {p d e : Nat} (h : s.Inv) (ht : s.notice p d e = .ok t) : t.Inv := by
  unfold State.notice at ht
  split at ht
  · cases ht; exact h
  split at ht
  · cases ht
  split at ht
  · cases ht
  split at ht
  · cases ht
  · simp only at ht
    split at ht
    · obtain rfl := Except.ok.inj ht; exact h.shWr ..
    split at ht
    · cases ht
    · obtain rfl := Except.ok.inj ht; exact (h.shWr ..).shWr ..

@[simp] theorem State.inv_setCreel (s : State) (k : Nat) (c : Creel) : (s.setCreel k c).Inv ↔ s.Inv := Iff.rfl

theorem State.Inv.offer {s : State} (h : s.Inv) (p : Nat) (w b : W64) : (s.offer p w b).s.Inv := by
  simp only [State.offer]
  split_ifs
  · exact h
  · exact h
  · simpa
  · split
    · exact h
    · split
      · exact Applied.inv_with h fun t ht => by simpa using h.notice ht
      · exact Applied.inv_with h fun t ht => h.notice ht
theorem State.Inv.drain {s : State} (h : s.Inv) (p : Nat) (w b : W64) : (s.drain p w b).s.Inv := by
  simp only [State.drain]
  split_ifs
  · exact h
  · exact h
  · exact State.Inv.foldl h (fun _ _ ht => ht.shWr ..) _
theorem State.Inv.creelWord {s : State} (h : s.Inv) (w : W64) : (s.creelWord w).s.Inv := by
  simp only [State.creelWord]; split <;> simpa
theorem State.Inv.creelConfig {s : State} (h : s.Inv) (p : Nat) (w b : W64) : (s.creelConfig p w b).s.Inv := by
  simp only [State.creelConfig]; split <;> simpa

@[simp] theorem State.Inv.setSat {s : State} (h : s.Inv) (x : Sketch) (b : Nat) : (s.setSat x b).Inv := by
  unfold State.setSat; split <;> simp [h]
theorem State.Inv.skUpdate {s : State} (h : s.Inv) (x : Sketch) (i : W64) (v : W32) : (s.skUpdate x i v).s.Inv := by
  unfold State.skUpdate
  split
  · simp [h]
  · split
    · exact h
    · exact (State.Inv.foldl h (fun _ _ ht => (ht.shWr ..).setSat ..) _).setSat ..
@[simp] theorem State.Inv.skSeed {s : State} (h : s.Inv) (x : Sketch) (v : W64) : (s.skSeed x v).Inv :=
  State.Inv.foldl h (fun _ _ ht => (ht.shWr ..).shWr ..) _

/-- Clearing a range of memory keeps the invariant. -/
theorem State.Inv.clearRange {s : State} (h : s.Inv) (lo hi : Nat) : ({ s with mem := Mem.clearRange s.mem lo hi } : State).Inv :=
  State.inv_withMem h (Memory.wf_clearRange _ _ h.1) ..

@[simp] theorem State.Inv.skClear {s : State} (h : s.Inv) (x : Sketch) : (s.skClear x).Inv := by
  refine State.Inv.shWr ?_ _ _ _
  exact State.Inv.foldl (h.clearRange ..) (fun t _ ht => by rwa [State.inv_mend, State.inv_setSide]) _
theorem State.Inv.skAddTo {s : State} (h : s.Inv) (x y : Sketch) : (s.skAddTo x y).s.Inv := by
  simp only [State.skAddTo]
  split
  · exact h
  · split
    · exact h
    · exact (State.Inv.foldl h (fun _ _ ht => (ht.shWr ..).setSat ..) _).setSat ..

@[simp] theorem State.inv_mendCell (s : State) (k : Nat) : (s.mendCell k).Inv ↔ s.Inv := Iff.rfl
@[simp] theorem State.Inv.openCell {s : State} (h : s.Inv) (a : Nat) (r : Region) : (s.openCell a r).1.Inv := by
  unfold State.openCell
  split
  · exact h
  · simp only
    split_ifs
    · dsimp only; exact State.Inv.shWr (by simpa) ..
    · exact h
    · exact h
    · dsimp only; exact h.shWr ..

/-- The state in which a cell has been read. -/
theorem State.Inv.opened {s t : State} {a : Nat} {r : Region} {x : Except Exc Cell} (h : s.Inv) (ho : s.openCell a r = (t, x)) :
    t.Inv := by simpa [ho] using h.openCell a r

theorem State.Inv.cellInsert {s : State} (h : s.Inv) (a : Nat) (r : Region) (x : Hist) : (s.cellInsert a r x).s.Inv := by
  unfold State.cellInsert
  split
  · next ho => exact h.opened ho
  · next ho =>
    have ht := h.opened ho
    split_ifs
    all_goals simp [ht]
theorem State.Inv.cellInit {s : State} (h : s.Inv) (a : Nat) (r : Region) (i32 : Bool) (b : W32) :
    (s.cellInit a r i32 b).s.Inv := by
  unfold State.cellInit; split <;> simp [h]
theorem State.Inv.cellLoad {s : State} (h : s.Inv) (a : Nat) (r : Region) : (s.cellLoad a r).s.Inv := by
  unfold State.cellLoad
  split
  · next ho => exact h.opened ho
  · next ho => exact h.opened ho
theorem State.Inv.cellSettled {s : State} (h : s.Inv) (a : Nat) (r : Region) (n : Nat) : (s.cellSettled a r n).s.Inv := by
  unfold State.cellSettled
  split
  · next ho => exact h.opened ho
  · next ho => exact h.opened ho
theorem State.Inv.regionSettle {s : State} (h : s.Inv) (r : Region) (x n : Nat) : (s.regionSettle r x n).s.Inv := by
  unfold State.regionSettle
  split
  · split_ifs
    all_goals simp [h]
  · exact h
theorem State.Inv.regionFold {s : State} (h : s.Inv) (r : Region) (f : Nat) : (s.regionFold r f).s.Inv := by
  unfold State.regionFold; split <;> simp [h]

/-! ### Posting and returning forms (R237) -/

@[simp] theorem State.inv_countMe (s : State) : s.countMe.Inv ↔ s.Inv := by unfold State.countMe; split <;> rfl
@[simp] theorem State.inv_issueOp (s : State) (op : NearOp) : (s.issueOp op).Inv ↔ s.Inv := by
  unfold State.issueOp; split <;> simp
@[simp] theorem State.inv_nearAccess (s : State) (xs : List (Nat × Nat)) : (s.nearAccess xs).Inv ↔ s.Inv :=
  State.inv_foldl (fun _ _ => by simp) xs s
@[simp] theorem State.inv_nearRead (s : State) (k n : Nat) : (s.nearRead k n).Inv ↔ s.Inv := by simp [State.nearRead]
@[simp] theorem State.inv_postOp (s : State) (op : NearOp) (d a b : W64) : (s.postOp op d a b).Inv ↔ s.Inv := by
  unfold State.postOp; simp only; split <;> simp
theorem inv_posted {s : State} (h : s.Inv) (chk : Option Exc) (op : NearOp) (d a b : W64) : (posted chk op d a b s).Inv := by
  unfold posted; split <;> simp [h]
theorem inv_returning {s : State} (chk : Option Exc) {x : State → Applied} (hx : (x s).s.Inv) (d : SReg) :
    (returning chk x d s).Inv := by
  unfold returning
  split
  · trivial
  · split
    · trivial
    · simp only; split <;> simpa
theorem inv_guardChk (c : Option Exc) {x : Eff} (hx : x.Inv) : (guardChk c x).Inv := by
  unfold guardChk; split
  · trivial
  · exact hx
theorem State.Inv.ptRead {s : State} (h : s.Inv) (a n : Nat) : (ptRead a n s).s.Inv := by
  unfold Machine.ptRead; split <;> simpa
theorem Applied.inv_on {x : Applied} (h : x.s.Inv) (xs : List (Nat × Nat)) (f : W64 → Bool) : (x.on xs f).s.Inv := by
  unfold Applied.on
  split
  · split
    · simpa
    · exact h
  · exact h
theorem inv_nmaForm {s : State} (h : s.Inv) (op ty : Nat) (u : Bool) (d a b : SReg) : (nmaForm op ty u d a b s).Inv := by
  simp only [nmaForm]
  split
  · exact inv_posted h ..
  · exact inv_returning _ (State.Inv.nmaApply (by simpa) ..) d
theorem inv_nmaList {s : State} (h : s.Inv) (op ty : Nat) (d a b : SReg) (g : Bool) : (nmaList op ty d a b g s).Inv := by
  simp only [nmaList]
  split
  · trivial
  · rw [Eff.inv_need]
    rintro ⟨v, t⟩ ht
    simpa using h.readOwn ht
end Sys2Proof.Machine
end

section
/-! ## The invariant: words (O59) -/
namespace Sys2Proof.Machine

/-! ### Scalar words -/

theorem inv_alu {s : State} (h : s.Inv) (d a b : SReg) (f : W64 → W64 → W64) : (alu d a b f s).Inv := by simpa [alu]
theorem inv_alui {s : State} (h : s.Inv) (d a : SReg) (f : W64 → W64) : (alui d a f s).Inv := by simpa [alui]
theorem inv_cmp {s : State} (h : s.Inv) (d : Reg16) (a b : SReg) (f : W64 → W64 → Bool) : (cmp d a b f s).Inv := by
  simpa [cmp]
theorem inv_prd {s : State} (h : s.Inv) (d a b : Reg16) (f : Bool → Bool → Bool) : (prd d a b f s).Inv := by simpa [prd]
theorem inv_doneS {s : State} (h : s.Inv) (k : Lat) (d : SReg) (x : W64) : (Eff.done (s.putS k d x)).Inv := by simpa
theorem inv_doneP {s : State} (h : s.Inv) (k : Lat) (d : Reg16) (x : Bool) : (Eff.done (s.putP k d x)).Inv := by simpa
theorem inv_load {s : State} (h : s.Inv) (d a : SReg) (i : BitVec 12) (n : Nat) (sx : Bool) : (load d a i n sx s).Inv := by
  unfold load
  split
  · trivial
  · rw [Eff.inv_need]
    intro p hp
    simpa using h.scalarLoad hp
theorem inv_store {s : State} (h : s.Inv) (d a : SReg) (i : BitVec 12) (n : Nat) : (store d a i n s).Inv := by
  unfold store
  split
  · trivial
  · rw [Eff.inv_need]; exact fun t ht => h.scalarStore ht
theorem inv_csrPut {s : State} (h : s.Inv) (n : Nat) (x : W64) {k : State → State} (hk : ∀ t, (k t).Inv ↔ t.Inv) :
    (csrPut n x k s).Inv := by simp [csrPut, hk, h]

/-! ### Commands and side bands -/

theorem State.inv_enqueue {s : State} (h : s.Inv) (q : Queue) (c : Cmd) (g : Option Reg16) : (s.enqueue q c g).Inv := by
  simp only [State.enqueue]
  split
  · cases q <;> trivial
  · simpa

theorem inv_xCopyIn {s : State} (h : s.Inv) (d : Reg16) (a b : SReg) (g m : Bool) : (xCopyIn d a b g m s).Inv := by
  refine inv_guardChk _ ?_
  rw [Eff.inv_need]
  exact fun k _ => inv_guardChk _ (inv_guardChk _ (inv_guardChk _ (State.inv_enqueue h ..)))
theorem inv_xCopyOut {s : State} (h : s.Inv) (d : SReg) (a : Reg16) (b : SReg) (k g : Bool) : (xCopyOut d a b k g s).Inv :=
  inv_guardChk _ (inv_guardChk _ (inv_guardChk _ (State.inv_enqueue h ..)))
theorem inv_xCopyWt {s : State} (h : s.Inv) (d : Reg16) (a b : SReg) (x g m : Bool) : (xCopyWt d a b x g m s).Inv := by
  simp only [xCopyWt]
  split
  · trivial
  · refine inv_guardChk _ ?_
    rw [Eff.inv_need]
    exact fun k _ => inv_guardChk _ (State.inv_enqueue h ..)
theorem inv_xCopyMm {s : State} (h : s.Inv) (d a b : SReg) (g : Bool) : (xCopyMm d a b g s).Inv :=
  inv_guardChk _ (inv_guardChk _ (inv_guardChk _ (inv_guardChk _ (inv_guardChk _ (State.inv_enqueue h ..)))))
theorem inv_xGathFill {s : State} (h : s.Inv) (d : Reg16) (a : SReg) (g : Bool) : (xGathFill d a g s).Inv :=
  inv_guardChk _ (inv_guardChk _ (State.inv_enqueue h ..))
@[simp] theorem State.inv_storeSide (s : State) (k : Nat) (v : W32) : (s.storeSide k v).Inv ↔ s.Inv := by
  simp only [State.storeSide]
  split
  · simp
  · split <;> simp
theorem inv_xLineRd {s : State} (h : s.Inv) (d a : SReg) : (xLineRd d a s).Inv := by
  simp only [xLineRd, Eff.inv_need, Eff.inv_ite]
  exact fun k _ t ht => ⟨fun _ => trivial, fun _ => by simpa using h.trackMe ht⟩
theorem inv_xLineWr {s : State} (h : s.Inv) (a b : SReg) : (xLineWr a b s).Inv := by
  simp only [xLineWr, Eff.inv_need, Eff.inv_ite]
  exact fun k _ => ⟨fun _ => trivial, fun _ t ht => by simpa using h.trackMe ht⟩
theorem inv_xLineSet {s : State} (h : s.Inv) (d a b : SReg) (g : Bool) : (xLineSet d a b g s).Inv := by
  simp only [xLineSet, Eff.inv_ite, Eff.inv_trap, true_and, implies_true]
  exact fun _ _ _ => inv_guardChk _ (State.inv_enqueue h ..)
theorem inv_xMarkDrain {s : State} (h : s.Inv) : (xMarkDrain s).Inv := by simp [xMarkDrain, h]

/-! ### Vector words -/

@[simp] theorem State.inv_putV (s : State) (k : Lat) (d : VReg) (r : List W32 × W32) : (s.putV k d r).Inv ↔ s.Inv := Iff.rfl
theorem inv_doneV {s : State} (h : s.Inv) (k : Lat) (d : VReg) (r : List W32 × W32) : (Eff.done (s.putV k d r)).Inv := by simpa
theorem inv_doneLaunch {s : State} (h : s.Inv) (g : Nat) (k : Lat) (op : Landing) (fl : W32) :
    (Eff.done (s.launch g k op fl)).Inv := by simpa
theorem inv_reduceRows {s : State} (h : s.Inv) (sc : Bool) (f : Mode → Num → Num → Res) (i : Int → Int → Int) (d a : VReg)
    (t : Fin 8) : (reduceRows sc f i d a t s).Inv := by
  simp only [reduceRows]; split <;> simpa
theorem inv_convert {s : State} (h : s.Inv) (half : Bool) (d : SReg) (a : VReg) (b : SReg) (t : Fin 8) :
    (convert half d a b t s).Inv := by
  simp only [convert, Eff.inv_ite, Eff.inv_trap, true_and, implies_true]
  intro _ _
  split
  · trivial
  · split
    · trivial
    · simpa
theorem inv_vmemIssue {s : State} (h : s.Inv) (z : Nat) (n : Need) (eas : List W64) (op : Landing) :
    (vmemIssue z n eas op s).Inv := by
  unfold vmemIssue; split
  · trivial
  · simpa
theorem inv_xVmemLd {s : State} (h : s.Inv) (d : VReg) (a b : SReg) (t : Fin 8) : (xVmemLd d a b t s).Inv := by
  simp only [xVmemLd, Eff.inv_ite]
  exact ⟨fun _ => inv_vmemIssue h .., fun _ => ⟨fun _ => trivial, fun _ => inv_vmemIssue h ..⟩⟩
theorem inv_xVmemSt {s : State} (h : s.Inv) (d : VReg) (a b : SReg) (t : Fin 8) : (xVmemSt d a b t s).Inv := by
  simp only [xVmemSt, Eff.inv_ite]
  exact ⟨fun _ => trivial, fun _ => inv_vmemIssue h ..⟩

/-! ### Matrix words, the proofer and routing -/

theorem inv_mmaIssue {s : State} (h : s.Inv) (kind : Fin 5) (d : TReg) (a b : Reg16) (i j k o r : Bool) :
    (mmaIssue kind d a b i j k o r s).Inv := by
  simp only [mmaIssue]; split
  · trivial
  · exact State.inv_enqueue h ..
theorem inv_xAccSt {s : State} (h : s.Inv) (d : Reg16) (a : TReg) (x y : Bool) : (xAccSt d a x y s).Inv := by
  simp [xAccSt, State.inv_enqueue h]
theorem inv_xTentMark {s : State} (h : s.Inv) (d : TReg) (a : SReg) : (xTentMark d a s).Inv :=
  inv_guardChk _ (State.inv_enqueue h ..)
theorem inv_xRslv {s : State} (h : s.Inv) (d : TReg) (a : SReg) (f g : Bool) : (xRslv d a f g s).Inv :=
  inv_guardChk _ (State.inv_enqueue h ..)
theorem inv_xMkat {s : State} (h : s.Inv) (a b : SReg) : (xMkat a b s).Inv := by simp [xMkat, State.inv_enqueue h]
theorem inv_xProofRun {s : State} (h : s.Inv) (a : SReg) (g : Bool) : (xProofRun a g s).Inv := by
  refine inv_guardChk _ ?_
  rw [Eff.inv_need]
  rintro ⟨v, t⟩ ht
  simpa using fun _ => h.readOwn ht

/-! ### Near-memory words -/

theorem inv_xCreelOffer {s : State} (h : s.Inv) (d a b : SReg) : (xCreelOffer d a b s).Inv :=
  inv_returning _ (Applied.inv_on (h.offer ..) ..) d
theorem inv_xCreelDrain {s : State} (h : s.Inv) (d a b : SReg) : (xCreelDrain d a b s).Inv :=
  inv_returning _ (Applied.inv_on (h.drain ..) ..) d
theorem inv_xSkQry {s : State} (h : s.Inv) (d a b : SReg) : (xSkQry d a b s).Inv := by
  refine inv_returning _ (Applied.inv_with h fun x _ => ?_) d
  split
  · exact h
  · exact Applied.inv_with h fun v _ => by simpa
theorem inv_skList {s : State} (h : s.Inv) (q : Bool) (a b : SReg) (g : Bool) : (skList q a b g s).Inv := by
  unfold skList
  split
  · trivial
  · rw [Eff.inv_need]
    rintro ⟨v, t⟩ ht
    simp only
    split
    · trivial
    · simpa using h.readOwn ht
@[simp] theorem State.inv_cellAccess (s : State) (a : W64) (r : Region) : (s.cellAccess a r).Inv ↔ s.Inv := by
  simp [State.cellAccess]
theorem inv_xOcLdt {s : State} (h : s.Inv) (d a b : SReg) : (xOcLdt d a b s).Inv :=
  inv_returning _ (Applied.inv_with h fun _ _ => State.Inv.cellLoad (by simpa) ..) d
theorem inv_xOcLds {s : State} (h : s.Inv) (d a b : SReg) : (xOcLds d a b s).Inv := by
  have hc (r : Region) (n : Nat) : (s.cellSettled (s.rs a).toNat r n).s.Inv := h.cellSettled ..
  unfold xOcLds
  extract_lets st
  split
  · trivial
  rw [Eff.inv_ite]
  refine ⟨fun _ => trivial, fun _ => ?_⟩
  split
  · trivial
  extract_lets x
  split
  · exact hc ..
  rw [Eff.inv_ite, Eff.inv_ite]
  refine ⟨fun _ => hc .., fun _ => ⟨fun _ => trivial, fun _ => ?_⟩⟩
  rw [Eff.inv_done, State.inv_putS, State.inv_acquireRead]
  exact (State.inv_cellAccess ..).2 (hc ..)
theorem inv_xOcFold {s : State} (h : s.Inv) (d b : SReg) : (xOcFold d b s).Inv :=
  inv_returning _ (Applied.inv_with h fun _ _ => Applied.inv_on (h.regionFold ..) ..) d

/-! ### Posting words -/

@[simp] theorem State.inv_setQp (s : State) (n : Nat) (q : Qp) : (s.setQp n q).Inv ↔ s.Inv := Iff.rfl
@[simp] theorem State.inv_setTc (s : State) (n : Nat) (x : W64) : (s.setTc n x).Inv ↔ s.Inv := Iff.rfl
theorem State.Inv.readBlock {s : State} {a : W64} {p : Nat × State} (h : s.Inv) (hp : s.readBlock a = .ok p) : p.2.Inv := by
  unfold State.readBlock at hp
  split at hp
  · split at hp
    · cases hp
    · obtain rfl := Except.ok.inj hp; simpa
  · exact h.readOwn hp
/-- A record queue takes one record more. -/
theorem State.inv_recordPosted (s : State) (p n : Nat) (m : Map W64) :
    (s.setPart p { s.part p with qtail := n, qpost := m }).Inv ↔ s.Inv := by simp
theorem inv_xPostTask {s : State} (h : s.Inv) (a : SReg) : (xPostTask a s).Inv := by
  unfold xPostTask
  extract_lets p q dst
  refine inv_guardChk _ ?_
  rw [Eff.inv_ite, Eff.inv_need]
  refine ⟨fun _ => trivial, fun _ => ?_⟩
  rintro ⟨v, t⟩ ht
  have ht : t.Inv := h.readBlock ht
  exact (State.inv_recordPosted ..).2 (State.Inv.shWr ((State.inv_release ..).2 ht) ..)
theorem inv_xPostQp {s : State} (h : s.Inv) (a b : SReg) : (xPostQp a b s).Inv := by
  unfold xPostQp
  rw [Eff.inv_need]
  intro n _
  extract_lets q dst
  rw [Eff.inv_ite]
  refine ⟨fun _ => trivial, fun _ => inv_guardChk _ ?_⟩
  rw [Eff.inv_ite, Eff.inv_need]
  refine ⟨fun _ => trivial, fun _ => ?_⟩
  rintro ⟨v, t⟩ ht
  have ht : t.Inv := h.readBlock ht
  rw [Eff.inv_done, State.inv_setQp]
  exact State.Inv.shWr ((State.inv_release ..).2 ht) ..
theorem inv_tcPost {s : State} (h : s.Inv) (x : Except Exc Nat) (op : Nat → NearOp) (v : W64) :
    (Eff.need x fun k => .done (s.postOp (op k) v 0 0)).Inv := by simp [h]
theorem inv_xPostTcrd {s : State} (h : s.Inv) (d a b : SReg) (k : Fin 4) (n : Bool) : (xPostTcrd d a b k n s).Inv := by
  simp only [xPostTcrd, Eff.inv_need]
  exact fun k _ => inv_returning _ (by simpa) d
theorem inv_xPostTcwait {s : State} (h : s.Inv) (d a b : SReg) (k : Fin 4) (n : Bool) : (xPostTcwait d a b k n s).Inv := by
  simp [xPostTcwait, h]
theorem inv_xPostWst {s : State} (h : s.Inv) (d b : SReg) : (xPostWst d b s).Inv := inv_returning _ h d
end Sys2Proof.Machine
end

section
/-! ## The invariant: privileged registers and words (O59) -/
namespace Sys2Proof.Machine

/-! ### Privileged registers -/

@[simp] theorem State.inv_setPort (s : State) (n : Nat) (x : Port) : (s.setPort n x).Inv ↔ s.Inv := Iff.rfl
@[simp] theorem State.inv_leave (s : State) (c : Nat) (tu : Bool) : (s.leave c tu).Inv ↔ s.Inv := Iff.rfl
theorem Part.setReg_pstate (p : Part) (n : Nat) (v : W64) : (p.setReg n v).pstate = p.pstate := by
  unfold Part.setReg; split <;> rfl

theorem State.Inv.wrPartReg {s t : State} {n p : Nat} {v : W64} (h : s.Inv) (ht : s.wrPartReg n p v = .ok t) : t.Inv := by
  unfold State.wrPartReg at ht
  extract_lets x added gone u at ht
  split at ht
  · cases ht
  · obtain rfl := Except.ok.inj ht
    have hu : u.Inv := State.Inv.foldl h (fun t c htc => by split <;> simpa) _
    exact hu.setPart p (by rw [Part.setReg_pstate]; exact hu.2.2 p)

theorem State.Inv.create {s t : State} {p : Nat} (h : s.Inv) (ht : s.create p = .ok t) : t.Inv := by
  unfold State.create at ht
  extract_lets x ok at ht
  split at ht
  · cases ht
  · obtain rfl := Except.ok.inj ht
    exact State.Inv.setPart (by simpa) p one_le_two

theorem State.Inv.destroy {s t : State} {p : Nat} (h : s.Inv) (ht : s.destroy p = .ok t) : t.Inv := by
  unfold State.destroy at ht
  split at ht
  · cases ht
  · obtain rfl := Except.ok.inj ht
    exact State.Inv.setPart (State.Inv.foldl h (fun _ _ hu => by simpa) _) p (Nat.zero_le 2)

/-- A partition is created, started, stopped or destroyed: its state is EMPTY, STOPPED or RUNNING (R287, R288). -/
theorem State.Inv.wrPstate {s t : State} {p : Nat} {v : W64} (h : s.Inv) (ht : s.wrPstate p v = .ok t) : t.Inv := by
  unfold State.wrPstate at ht
  split at ht
  · exact h.create ht
  · obtain rfl := Except.ok.inj ht; exact h.setPart p le_rfl
  · obtain rfl := Except.ok.inj ht; exact h.setPart p one_le_two
  · exact h.destroy ht
  · cases ht

theorem State.Inv.wrCstg {s t : State} {k : Nat} {v : W64} (h : s.Inv) (ht : s.wrCstg k v = .ok t) : t.Inv := by
  unfold State.wrCstg at ht
  extract_lets x changed may at ht
  split at ht
  · obtain rfl := Except.ok.inj ht; simpa
  · cases ht
theorem State.Inv.wrScrb {s t : State} {p : Nat} {v : W64} (h : s.Inv) (ht : s.wrScrb p v = .ok t) : t.Inv := by
  unfold State.wrScrb at ht
  split at ht
  · cases ht
  · obtain rfl := Except.ok.inj ht; simpa
theorem State.Inv.wrPptb {s t : State} {p : Nat} {v : W64} (h : s.Inv) (ht : s.wrPptb p v = .ok t) : t.Inv := by
  unfold State.wrPptb at ht
  split at ht
  · cases ht
  · obtain rfl := Except.ok.inj ht; simpa
theorem State.Inv.wrQpsel {s t : State} {p : Nat} {v : W64} (h : s.Inv) (ht : s.wrQpsel p v = .ok t) : t.Inv := by
  unfold State.wrQpsel at ht
  split at ht
  · obtain rfl := Except.ok.inj ht; simpa
  · cases ht
theorem State.Inv.wrQpcfg {s t : State} {p : Nat} {v : W64} (h : s.Inv) (ht : s.wrQpcfg p v = .ok t) : t.Inv := by
  unfold State.wrQpcfg at ht
  split at ht
  · cases ht
  · split at ht
    · cases ht
    · obtain rfl := Except.ok.inj ht; simpa
theorem State.Inv.wrQpbase {s t : State} {p : Nat} {v : W64} (h : s.Inv) (ht : s.wrQpbase p v = .ok t) : t.Inv := by
  unfold State.wrQpbase at ht
  split at ht
  · cases ht
  · split at ht
    · cases ht
    · obtain rfl := Except.ok.inj ht; simpa
theorem State.Inv.qpEnable {s t : State} {p n : Nat} (h : s.Inv) (ht : s.qpEnable p n = .ok t) : t.Inv := by
  unfold State.qpEnable at ht
  extract_lets q at ht
  split at ht
  · cases ht; exact h
  · split at ht
    · obtain rfl := Except.ok.inj ht; simpa
    · cases ht
  · cases ht
theorem State.Inv.qpDisable {s t : State} {n : Nat} (h : s.Inv) (ht : s.qpDisable n = .ok t) : t.Inv := by
  unfold State.qpDisable at ht
  extract_lets q at ht
  split at ht
  · cases ht; exact h
  · split at ht
    · obtain rfl := Except.ok.inj ht; simpa
    · cases ht
  · cases ht
theorem State.Inv.wrQpctl {s t : State} {p : Nat} {v : W64} (h : s.Inv) (ht : s.wrQpctl p v = .ok t) : t.Inv := by
  unfold State.wrQpctl at ht
  split at ht
  · cases ht
  split at ht
  · cases ht
  split at ht
  · obtain rfl := Except.ok.inj ht; exact h
  split at ht
  · exact h.qpEnable ht
  · exact h.qpDisable ht
@[simp] theorem State.inv_mbAck (s : State) (p : Nat) : (s.mbAck p).Inv ↔ s.Inv := by simp [State.mbAck]
@[simp] theorem State.inv_mbSig (s : State) (p : Nat) : (s.mbSig p).Inv ↔ s.Inv := by
  unfold State.mbSig; split <;> simp
theorem State.Inv.wrMbctl {s t : State} {p : Nat} {v : W64} (h : s.Inv) (ht : s.wrMbctl p v = .ok t) : t.Inv := by
  unfold State.wrMbctl at ht
  split at ht
  · cases ht
  · extract_lets u at ht
    have hu : u.Inv := by simp only [u]; split <;> simpa
    obtain rfl := Except.ok.inj ht
    split <;> simpa
theorem State.Inv.arm {s t : State} {p : Nat} {v : W64} (h : s.Inv) (ht : s.arm p v = .ok t) : t.Inv := by
  unfold State.arm at ht
  extract_lets w mine lines i at ht
  split at ht
  · cases ht
  · obtain rfl := Except.ok.inj ht; simpa
theorem State.Inv.wrIngt {s t : State} {p : Nat} {v : W64} (h : s.Inv) (ht : s.wrIngt p v = .ok t) : t.Inv := by
  unfold State.wrIngt at ht
  split at ht
  · cases ht
  · split at ht
    · split at ht
      · next hu => obtain rfl := Except.ok.inj ht; simpa using h.arm hu
      · cases ht
    · obtain rfl := Except.ok.inj ht; simpa
@[simp] theorem State.inv_evcLate (s : State) : s.evcLate.Inv ↔ s.Inv := by
  unfold State.evcLate; simp only; split <;> simp
@[simp] theorem State.inv_settleSignal (s : State) : s.settleSignal.Inv ↔ s.Inv := by
  unfold State.settleSignal
  split
  · split
    · simp
    · split <;> simp
  · rfl
theorem State.Inv.wrEvc {s t : State} {v : W64} (h : s.Inv) (ht : s.wrEvc v = .ok t) : t.Inv := by
  unfold State.wrEvc at ht
  split at ht
  · cases ht
  · obtain rfl := Except.ok.inj ht; simpa
theorem State.Inv.wrIsl {s t : State} {v : W64} (h : s.Inv) (ht : s.wrIsl v = .ok t) : t.Inv := by
  unfold State.wrIsl at ht
  extract_lets ok at ht
  split at ht
  · obtain rfl := Except.ok.inj ht; exact State.Inv.foldl h (fun _ _ hu => by simpa) _
  · cases ht
theorem State.Inv.wrNcmd {s t : State} {k : Nat} {v : W64} (h : s.Inv) (ht : s.wrNcmd k v = .ok t) : t.Inv := by
  unfold State.wrNcmd at ht
  extract_lets x op tile c at ht
  split at ht
  · cases ht
  · split at ht
    · cases ht
    · obtain rfl := Except.ok.inj ht; simpa [x]
@[simp] theorem State.inv_readAck (s : State) (k n : Nat) : (s.readAck k n).Inv ↔ s.Inv := by
  unfold State.readAck; simp only; split <;> simp
theorem State.Inv.fits {s t : State} {n : Nat} {v : W64} (h : s.Inv) (ht : fits n v s = .ok t) : t.Inv := by
  unfold Machine.fits at ht
  split at ht
  · cases ht; exact h
  · cases ht

/-- A register write that is answered keeps the invariant (R285). -/
theorem State.Inv.wrReg {s t : State} {k n : Nat} {v : W64} (h : s.Inv) (ht : s.wrReg k n v = .ok t) : t.Inv := by
  have hput {y : Hearth} (hy : y.lv = (s.hearth k).lv) : (s.setHearth k y).Inv := (State.inv_setHearth hy).2 h
  have hfits {m : Nat} {y : Hearth} (hy : y.lv = (s.hearth k).lv) (hr : Machine.fits m v (s.setHearth k y) = .ok t) : t.Inv :=
    (hput hy).fits hr
  have hmap {r : Except Exc EntryRegs} {f : EntryRegs → Hearth} (hf : ∀ e, (f e).lv = (s.hearth k).lv)
      (hr : r.map (fun e => s.setHearth k (f e)) = .ok t) : t.Inv := by
    cases r with
    | error e => cases hr
    | ok e => cases hr; exact hput (hf e)
  unfold State.wrReg at ht
  extract_lets x p put at ht
  split at ht
  · exact hmap (by exact fun _ => rfl) ht
  split at ht
  · exact hmap (by exact fun _ => rfl) ht
  split at ht
  · exact h.wrPartReg ht
  split at ht
  · obtain rfl := Except.ok.inj ht; exact h
  split at ht
  · split at ht
    · obtain rfl := Except.ok.inj ht; exact hput rfl
    · cases ht
  · exact hfits (by rfl) ht
  · exact hfits (by rfl) ht
  · exact hfits (by rfl) ht
  · split at ht
    · obtain rfl := Except.ok.inj ht; exact (State.inv_setPart (by rfl)).2 h
    · cases ht
  · split at ht
    · obtain rfl := Except.ok.inj ht; exact (State.inv_setPart (by rfl)).2 h
    · cases ht
  · exact hfits (by rfl) ht
  · exact h.wrPstate ht
  · exact h.wrNcmd ht
  · split at ht
    · cases ht
    · exact hfits (by rfl) ht
  · exact h.wrMbctl ht
  · exact h.wrIngt ht
  · exact hfits (by rfl) ht
  · exact h.wrCstg ht
  · exact h.wrQpsel ht
  · exact h.wrQpcfg ht
  · exact h.wrQpbase ht
  · exact h.wrQpctl ht
  · exact h.wrScrb ht
  · exact h.wrPptb ht
  · exact h.wrEvc ht
  · exact h.wrIsl ht
  · cases ht

/-! ### Privileged words -/

theorem inv_xPrivRd {s : State} (h : s.Inv) (d a : SReg) : (xPrivRd d a s).Inv := by simp [xPrivRd, h]
theorem inv_xPrivWr {s : State} (h : s.Inv) (a b : SReg) : (xPrivWr a b s).Inv := by
  simp only [xPrivWr, Eff.inv_need, Eff.inv_ite]
  exact fun n _ => ⟨fun _ _ _ => trivial, fun _ t ht => h.wrReg ht⟩
theorem inv_xPrivRet {s : State} (h : s.Inv) : (xPrivRet s).Inv := by
  simp only [xPrivRet, Eff.inv_need]
  exact fun x hx => h.setHearth _ ((Hearth.ret_lv hx).trans (h.2.1 _))
theorem inv_xPrivHcall {s : State} (h : s.Inv) (x : Fin 32) : (xPrivHcall x s).Inv := by
  simp only [xPrivHcall, Eff.inv_ite]
  exact ⟨fun _ => trivial, fun _ => h.setHearth _ (by rw [Hearth.enter_lv])⟩
theorem inv_xPrivWfi {s : State} (h : s.Inv) : (xPrivWfi s).Inv := by simp [xPrivWfi, h]
theorem inv_xPrivTinv {s : State} (h : s.Inv) (a b : SReg) : (xPrivTinv a b s).Inv := by
  unfold xPrivTinv
  extract_lets k x
  split
  · trivial
  · rename_i r _ y send _ _
    have hs : send.Inv := by
      simp only [send, Eff.inv_ite, Eff.inv_done, State.inv_fenceRel]
      exact ⟨fun _ => trivial, fun _ => (State.inv_setHearth (by rfl)).2 h⟩
    split
    · exact hs
    · rw [Eff.inv_ite, Eff.inv_ite]
      exact ⟨fun _ => ⟨fun _ => (State.inv_setHearth (by rfl)).2 h, fun _ => trivial⟩, fun _ => hs⟩
@[simp] theorem State.inv_setTlb (s : State) (u : Unit1) (l : List Tlb) : (s.setTlb u l).Inv ↔ s.Inv := by
  unfold State.setTlb; split <;> simp
end Sys2Proof.Machine
end

section
/-! ## The invariant: engines (O59) -/
namespace Sys2Proof.Machine

/-! ### Runs of commands -/

theorem Ran.inv_with {α : Type} {s : State} {x : Except Exc α} {f : α → Ran} (h : s.Inv)
    (hf : ∀ v, x = .ok v → (f v).s.Inv) : (Ran.with s x f).s.Inv := by
  cases x with
  | ok v => exact hf v rfl
  | error e => exact h
theorem Ran.inv_andThen {r : Ran} {f : State → Ran} (h : r.s.Inv) (hf : ∀ s : State, s.Inv → (f s).s.Inv) :
    (r.andThen f).s.Inv := by
  unfold Ran.andThen
  split
  · exact h
  · exact hf _ h
theorem Ran.inv_each {α : Type} {f : α → State → Ran} (hf : ∀ a (s : State), s.Inv → (f a s).s.Inv) (l : List α) {s : State}
    (h : s.Inv) : (Ran.each f l s).s.Inv := by
  induction l generalizing s with
  | nil => exact h
  | cons a l ih => exact Ran.inv_andThen (hf a s h) fun _ ht => ih ht

@[simp] theorem Job.inv_note (j : Job) (s : State) (c : Nat) (va : W64) : (j.note s c va).Inv ↔ s.Inv := s.inv_note ..

/-! ### Lines, weights and gathers -/

theorem State.Inv.srcLine {s : State} {j : Job} {va : W64} {x : List Byte × W32 × Bool × State} (h : s.Inv)
    (hx : s.srcLine j va = .ok x) : x.2.2.2.Inv := by
  unfold State.srcLine at hx
  split at hx
  · cases hx
  split at hx
  · cases hx
  next ht =>
    have ht := h.trackLine ht
    split at hx
    · obtain rfl := Except.ok.inj hx; simpa
    · extract_lets sb at hx
      split at hx
      · cases hx
      · obtain rfl := Except.ok.inj hx; exact (State.inv_line ..).2 ht

theorem State.Inv.dstLine {s t : State} {j : Job} {va : W64} {bs : List Byte} {sb : W32} (h : s.Inv)
    (ht : s.dstLine j va bs sb = .ok t) : t.Inv := by
  unfold State.dstLine at ht
  split at ht
  · cases ht
  split at ht
  · cases ht
  split at ht
  · cases ht
  next hu => obtain rfl := Except.ok.inj ht; exact (h.trackLine hu).setLine ..

/-- Writing a destination line keeps the invariant, whether or not it faults. -/
theorem inv_dstLine {s t : State} (hs : s.Inv) (h : t.Inv) (j : Job) (va : W64) (bs : List Byte) (sb : W32) :
    (Ran.with s (t.dstLine j va bs sb) fun s => { s := s }).s.Inv := Ran.inv_with hs fun _ hu => h.dstLine hu

theorem inv_copyLine {s : State} (h : s.Inv) (j : Job) (q : Bool) (p : W64 × W64) : (copyLine j q p s).s.Inv := by
  refine Ran.inv_with h fun x hx => ?_
  have hu := h.srcLine hx
  dsimp only
  split
  · exact inv_dstLine (by simpa) (by simpa) ..
  · exact inv_dstLine hu hu ..

theorem State.Inv.shardOf {s : State} {g : Nat} {w : W64} {x : W64 × Nat × Bool × State} (h : s.Inv)
    (hx : s.shardOf g w = .ok x) : x.2.2.2.Inv := by
  unfold State.shardOf at hx
  split at hx
  · cases hx
  split at hx
  · cases hx
  split at hx
  · cases hx
  · obtain rfl := Except.ok.inj hx; simpa

theorem State.Inv.hold {s : State} (h : s.Inv) (j : Job) (w : W64) (c : Nat) (a : W64) : (s.hold j w c a).s.Inv := by
  unfold State.hold
  extract_lets p t base l e
  have ht : t.Inv := by simpa [t]
  split
  · exact ht
  · split
    · exact ht
    · split
      · dsimp only; exact ht.shWr ..
      · split
        · exact ht
        · dsimp only; exact ht.shWr ..

theorem inv_specLine {s : State} (h : s.Inv) (j : Job) (b : W64) (n : Nat) (q : Bool) (held : Option (Nat × W64))
    (p : W64 × W64) : (specLine j b n q held p s).1.s.Inv := by
  unfold specLine
  extract_lets r
  have hr (x) (hx : r = .ok x) : x.2.2.2.Inv := by
    simp only [r] at hx
    split at hx
    · cases hx
    · exact h.srcLine hx
  clear_value r
  split
  · exact h
  · exact inv_dstLine (by simpa) (by simpa) ..
  · have ht := hr _ rfl
    split
    · exact inv_dstLine ht ht ..
    · exact inv_dstLine ht ht ..

theorem inv_specLines (j : Job) (b : W64) (n : Nat) (q : Bool) (held : Option (Nat × W64)) (ps : List (W64 × W64)) {s : State}
    (h : s.Inv) : (specLines j b n q held ps s).1.s.Inv := by
  induction ps generalizing s held with
  | nil => exact h
  | cons p ps ih =>
    have hr := inv_specLine h j b n q held p
    simp only [specLines]
    split
    · exact hr
    · exact ih _ hr

theorem inv_runWeights {s : State} (h : s.Inv) (j : Job) (w cw : W64) (spec : Bool) (dst : List W64) :
    (runWeights j w cw spec dst s).s.Inv := by
  unfold runWeights
  split
  · exact h
  · split
    · refine Ran.inv_andThen (Ran.inv_each (fun _ _ ht => inv_dstLine ht ht ..) _ (by simpa)) fun _ ht => ht.hold ..
    · exact h
  · next hx =>
    have ht := h.shardOf hx
    extract_lets ls r
    split
    · refine Ran.inv_andThen (inv_specLines _ _ _ _ _ _ ht) fun _ hu => ?_
      split
      · exact hu.hold ..
      · exact hu
    · split
      · exact ht
      · exact Ran.inv_each (fun _ _ hu => inv_copyLine hu ..) _ ht

theorem State.Inv.readBlk {s : State} {j : Job} {va : W64} {n : Nat} {x : Nat × State} (h : s.Inv)
    (hx : s.readBlk j va n = .ok x) : x.2.Inv := by
  unfold State.readBlk at hx
  split at hx
  · cases hx
  extract_lets k at hx
  split at hx
  · cases hx
  next ht =>
    split at hx
    · cases hx
    · obtain rfl := Except.ok.inj hx; exact h.track ht

theorem inv_gatherLine {s : State} (h : s.Inv) (j : Job) (p : Nat × W64) : (gatherLine j p s).s.Inv := by
  unfold gatherLine
  split
  · exact h
  · exact inv_copyLine h ..
theorem inv_gatherRow {s : State} (h : s.Inv) (j : Job) (v : Nat) (ls : List W64) (row : Nat × Nat) :
    (gatherRow j v ls row s).s.Inv := by
  unfold gatherRow
  extract_lets n dst src
  split
  · exact Ran.inv_each (fun _ _ ht => inv_dstLine ht ht ..) _ h
  · exact Ran.inv_each (fun _ _ ht => inv_gatherLine ht ..) _ h
theorem inv_runGather {s : State} (h : s.Inv) (j : Job) (d : W64) (n : Nat) (ls : List W64) : (runGather j d n ls s).s.Inv := by
  refine Ran.inv_with h fun x hx => ?_
  have ht := h.readBlk hx
  dsimp only
  split
  · exact ht
  · split
    · exact ht
    · exact Ran.inv_with ht fun y hy => Ran.inv_each (fun _ _ hu => inv_gatherRow hu ..) _ (ht.readBlk hy)
theorem inv_runLineSet {s : State} (h : s.Inv) (j : Job) (v : W32) (a : W64) (n : Nat) : (runLineSet j v a n s).s.Inv :=
  Ran.inv_each (fun _ _ ht => Ran.inv_with ht fun _ _ => Ran.inv_with ht fun u hu => by simpa using ht.track hu) _ h

/-! ### Products and accumulator operations -/

@[simp] theorem State.inv_setTile (s : State) (g : Nat) (t : TReg) (x : Tile) : (s.setTile g t x).Inv ↔ s.Inv := Iff.rfl

theorem State.Inv.operandLines {j : Job} {fmt : Option Nat} (vas : List W64) {s : State} {x : Option W64 × State} (h : s.Inv)
    (hx : s.operandLines j fmt vas = .ok x) : x.2.Inv := by
  induction vas generalizing s x with
  | nil => cases hx; exact h
  | cons va vas ih =>
    unfold State.operandLines at hx
    split at hx
    · cases hx
    split at hx
    · cases hx
    next ht =>
      split at hx
      · cases hx
      split at hx
      · cases hx
      next hr =>
        obtain rfl := Except.ok.inj hx
        have ht := h.trackLine ht
        have ih hc := ih hc hr
        exact ih (by split <;> simpa)

theorem State.Inv.entries {j : Job} (n : Nat) {va : W64} {s : State} {x : List (Nat × Num) × Option W64 × State} (h : s.Inv)
    (hx : s.entries j n va = .ok x) : x.2.2.Inv := by
  induction n generalizing s x va with
  | zero => cases hx; exact h
  | succ n ih =>
    unfold State.entries at hx
    split at hx
    · cases hx
    split at hx
    · cases hx
    next ht =>
      split at hx
      · cases hx
      split at hx
      · cases hx
      next hr =>
        obtain rfl := Except.ok.inj hx
        have ht := h.track ht
        have ih hc := ih hc hr
        exact ih (by split <;> simpa)

theorem State.Inv.outliers {s : State} {j : Job} {d : Nat} {va : W64} {x : List (Nat × Num) × Option W64 × State} (h : s.Inv)
    (hx : s.outliers j d va = .ok x) : x.2.2.Inv := by
  unfold State.outliers at hx
  split at hx
  · cases hx
  · exact State.Inv.entries _ h hx

theorem inv_runMma {s : State} (h : s.Inv) (j : Job) (kind : Fin 5) (d : TReg) (init ol : Bool) (kc np : Nat) (la lb : List W64) :
    (runMma j kind d init ol kc np la lb s).s.Inv := by
  unfold runMma
  extract_lets t first na ka kb
  split
  · exact h
  · refine Ran.inv_with h fun _ h1 => ?_
    have h1 := State.Inv.operandLines _ h h1
    refine Ran.inv_with h1 fun _ h2 => ?_
    have h2 := State.Inv.operandLines _ h1 h2
    refine Ran.inv_with h2 fun _ h3 => ?_
    have h3 := State.Inv.operandLines _ h2 h3
    refine Ran.inv_with h3 fun x h4 => ?_
    have h4 : x.2.2.Inv := by
      split at h4
      · exact h3.outliers h4
      · cases h4; exact h3
    dsimp only
    split
    · simpa
    · exact h4

theorem inv_runAccSt {s : State} (h : s.Inv) (j : Job) (a : TReg) (x y w : Bool) (ls : List W64) :
    (runAccSt j a x y w ls s).s.Inv := by
  unfold runAccSt
  extract_lets t sb items
  split
  · exact h
  · refine Ran.inv_andThen (Ran.inv_each (fun _ _ ht => inv_dstLine ht ht ..) _ h) fun u hu => ?_
    dsimp only
    split <;> simpa
theorem inv_runAccAdd {s : State} (h : s.Inv) (j : Job) (d a b : TReg) : (runAccAdd j d a b s).s.Inv := by
  unfold runAccAdd
  extract_lets x y
  split <;> simpa
theorem inv_runTent {s : State} (h : s.Inv) (j : Job) (d : TReg) (a : W64) : (runTent j d a s).s.Inv := by
  refine Ran.inv_with h fun x hx => ?_
  have ht := h.readBlk hx
  dsimp only
  split <;> simpa

/-! ### Resolve -/

@[simp] theorem State.Inv.setDecision {s : State} (h : s.Inv) (a b : Nat) : (s.setDecision a b).Inv := h.shWr ..
theorem State.Inv.ptUpdate {s t : State} {b : ResolveBlock} {e : Nat} {hit : Bool} (h : s.Inv)
    (ht : s.ptUpdate b e hit = .ok t) : t.Inv := by
  unfold State.ptUpdate at ht
  split at ht
  · cases ht
  · obtain rfl := Except.ok.inj ht; exact h.ptCount ..
theorem inv_commitRow (part : Nat) (b : ResolveBlock) (r : Region) (token expert : Nat) (w : W32) (t : Tile) (row : Nat)
    (cs : List Nat) {s : State} (h : s.Inv) : (commitRow part b r token expert w t row cs s).1.Inv := by
  induction cs generalizing s with
  | nil => exact h
  | cons c cs ih =>
    unfold commitRow
    extract_lets a x
    have hx : x.s.Inv := h.cellInsert ..
    split
    · exact h
    · split
      · exact hx
      · exact ih hx
theorem State.Inv.committed {s u : State} {part : Nat} {b : ResolveBlock} {r : Region} {token expert : Nat} {w : W32} {t : Tile}
    {row : Nat} {cs : List Nat} {e : Option Exc} (h : s.Inv) (hr : commitRow part b r token expert w t row cs s = (u, e)) :
    u.Inv := by simpa [hr] using inv_commitRow part b r token expert w t row cs h
@[simp] theorem State.inv_readRow (s : State) (g : Nat) (d : TReg) (row : Nat) : (s.readRow g d row).Inv ↔ s.Inv := by
  simp only [State.readRow]; split <;> simp
theorem inv_resolveRow {s : State} (h : s.Inv) (g part : Nat) (d : TReg) (b : ResolveBlock) (n : Resolving) :
    (resolveRow g part d b n s).s.Inv := by
  unfold resolveRow
  extract_lets row m stop tag token expert
  split
  · exact h
  split
  · exact h
  · split
    · exact h
    · next ht => exact h.ptUpdate ht
  · split
    · exact h
    · next ht =>
      extract_lets u v
      have hu : u.Inv := (h.ptUpdate ht).setDecision ..
      have hv : v.Inv := (State.inv_readRow ..).2 hu
      clear_value v u
      split
      · exact hu
      split
      · exact hu
      split
      · dsimp only; exact hv.setDecision ..
      split
      · exact hv
      split
      · next hr => exact hv.committed hr
      · next hr => exact hv.committed hr

theorem State.Inv.appendCorr {s t : State} {part c v : Nat} (h : s.Inv) (ht : s.appendCorr part c v = .ok t) : t.Inv := by
  unfold State.appendCorr at ht
  split at ht
  · cases ht
  extract_lets u at ht
  have hu : u.Inv := h.shWr ..
  split at ht
  · obtain rfl := Except.ok.inj ht; exact hu
  split at ht
  · cases ht
  · obtain rfl := Except.ok.inj ht; exact hu.shWr ..
theorem inv_finalEntries (part : Nat) (b : ResolveBlock) (is : List Nat) {s : State} (h : s.Inv) :
    (finalEntries part b is s).1.Inv := by
  induction is generalizing s with
  | nil => exact h
  | cons i is ih =>
    unfold finalEntries
    split
    · exact h
    split
    · split
      · exact h
      · next ht =>
        have ht := h.appendCorr ht
        split
        · exact ih ht
        · split
          · exact ht
          · next hu => exact ih (ht.ptUpdate hu)
    · exact ih h
theorem State.Inv.endHeld {s t : State} {b : ResolveBlock} (h : s.Inv) (ht : s.endHeld b = .ok t) : t.Inv := by
  unfold State.endHeld at ht
  split at ht
  · cases ht
  · extract_lets u x at ht
    obtain rfl := Except.ok.inj ht
    refine State.Inv.shWr (State.Inv.foldl h (fun v _ hv => ?_) _) ..
    dsimp only
    split
    · exact hv
    · exact (hv.shWr ..).shWr ..
theorem State.Inv.writeResult {s : State} (h : s.Inv) (j : Job) (a v : Nat) : (s.writeResult j a v).s.Inv := by
  unfold State.writeResult
  split
  · dsimp only; exact h.shWr ..
  · exact Ran.inv_with h fun _ ht => (h.track ht).store ..
theorem inv_startResolve {s : State} (h : s.Inv) (j : Job) (d : TReg) (blk : W64) (f : Bool) :
    (startResolve j d blk f s).s.Inv := by
  refine Ran.inv_with h fun x hx => ?_
  have ht := h.readBlk hx
  dsimp only
  split
  · exact ht
  split
  · exact ht
  split
  · exact ht
  · exact Ran.inv_with ht fun _ _ => Ran.inv_with ht fun _ _ => Ran.inv_with ht fun _ _ => ht
theorem inv_endResolve {s : State} (h : s.Inv) (j : Job) (part : Nat) (d : TReg) (f : Bool) (b : ResolveBlock) (n : Resolving) :
    (endResolve j part d f b n s).s.Inv := by
  have hf : (if f then finalEntries part b (List.range b.dcount) s else (s, none)).1.Inv := by
    split
    · exact inv_finalEntries _ _ _ h
    · exact h
  unfold endResolve
  split
  · next hr => rw [hr] at hf; exact hf
  · next hr =>
    rw [hr] at hf
    refine Ran.inv_with hf fun t ht => State.Inv.writeResult ((State.inv_setTile ..).2 ?_) ..
    split at ht
    · exact State.Inv.endHeld hf ht
    · cases ht; exact hf

/-! ### The steps of engine commands -/

@[simp] theorem State.inv_setQueue (s : State) (g : Nat) (q : Queue) (e : EQueue) : (s.setQueue g q e).Inv ↔ s.Inv := Iff.rfl
@[simp] theorem State.inv_claimFor (s : State) (g : Nat) (x : QCmd) : (s.claimFor g x).1.Inv ↔ s.Inv := by
  unfold State.claimFor; split <;> simp
@[simp] theorem State.inv_endSteal (s : State) (g : Nat) (x : QCmd) : (s.endSteal g x).Inv ↔ s.Inv := by
  unfold State.endSteal; split <;> simp
@[simp] theorem State.inv_acquireWs (s : State) (g : Nat) (a : Agent) (x : Cmd) : (s.acquireWs g a x).Inv ↔ s.Inv := by
  unfold State.acquireWs
  split
  · dsimp only; split <;> simp
  · rfl

/-- What a command does keeps the invariant, whether it faults or not. -/
theorem State.Inv.runCmd {s : State} (h : s.Inv) (j : Job) (x : QCmd) (w : Bool) : (s.runCmd j x w).s.Inv := by
  unfold State.runCmd
  extract_lets out
  split
  · exact Ran.inv_each (fun _ _ ht => inv_copyLine ht ..) _ h
  · exact Ran.inv_each (fun _ _ ht => inv_copyLine ht ..) _ h
  · exact inv_runWeights h ..
  · exact Ran.inv_each (fun _ _ ht => inv_copyLine ht ..) _ h
  · exact inv_runGather h ..
  · exact inv_runLineSet h ..
  · exact inv_runMma h ..
  · exact inv_runAccSt h ..
  · exact inv_runAccAdd h ..
  · simpa
  · exact inv_runTent h ..
  · exact inv_startResolve h ..
  · exact h
  · exact h

theorem State.Inv.startCmd {s : State} (h : s.Inv) (g : Nat) (q : Queue) (x : QCmd) : (s.startCmd g q x).Inv := by
  unfold State.startCmd
  extract_lets j places slot s0 x0 s1
  have h0 : s0.Inv := h
  have h1 : s1.Inv := (State.inv_foldl (fun _ _ => State.inv_acquire ..) _ _).2 (by simpa)
  have h2 : (s1.claimFor g x0).1.Inv := by simpa
  dsimp only
  have h3 (x : QCmd) (y : EQueue) : (((s1.claimFor g x0).1.setQueue g q y).runCmd j x true).s.Inv :=
    State.Inv.runCmd (by simpa) ..
  split
  · exact h0
  · simp [h3]
  · split <;> simp [h3]

@[simp] theorem State.inv_finishCmd (s : State) (g : Nat) (q : Queue) (x : QCmd) : (s.finishCmd g q x).Inv ↔ s.Inv := by
  have hp (a : List (Reg16 × Bool)) (t : State) :
      (a.foldl (fun s e => s.setRing g e.1 ((s.ring g e.1).pop 1)) t).Inv ↔ t.Inv :=
    State.inv_foldl (fun _ _ => State.inv_setRing ..) a t
  unfold State.finishCmd
  extract_lets a s1 s2 s3 s4
  have h2 : s2.Inv ↔ s1.Inv := by simp only [s2]; split <;> simp
  have h4 : s4.Inv ↔ s3.Inv := by simp only [s4]; split <;> simp
  rw [State.inv_raiseEvents, State.inv_endSteal, h4]
  exact h2.trans (hp ..)
theorem State.Inv.retireCmd {s : State} (h : s.Inv) (g : Nat) (q : Queue) (x : QCmd) : (s.retireCmd g q x).Inv := by
  unfold State.retireCmd
  extract_lets j t
  have ht : t.Inv := h
  split
  · simpa
  · split
    · next hu => simpa using ht.commitRing hu
    · simpa
@[simp] theorem State.inv_failCmd (s : State) (g : Nat) (q : Queue) (x : QCmd) (e : Exc) : (s.failCmd g q x e).Inv ↔ s.Inv := by
  simp [State.failCmd]
theorem State.Inv.stepResolve {s : State} (h : s.Inv) (g : Nat) (q : Queue) (x : QCmd) (n : Resolving) :
    (s.stepResolve g q x n).Inv := by
  unfold State.stepResolve
  extract_lets part
  split
  · next d _ f b _ _ =>
    split
    · have hr := inv_resolveRow h g part d b n
      dsimp only
      split <;> simpa
    · have hr := inv_endResolve h (s.job g q x) part d f b n
      dsimp only
      split
      · simpa
      · exact hr.retireCmd ..
  · exact h.retireCmd ..

theorem State.Inv.discard {s : State} (h : s.Inv) (xs : List QCmd) : (s.discard xs).Inv := by
  refine State.Inv.foldl h (fun t x ht => State.Inv.foldl ht (fun u y hu => ?_) _) _
  split
  · simpa
  · exact hu.setLine ..
theorem State.Inv.runAgain (g : Nat) (q : Queue) (e : EQueue) (xs : List QCmd) {s : State} (h : s.Inv) :
    (s.runAgain g q e xs).1.Inv := by
  induction xs generalizing s with
  | nil => exact h
  | cons x xs ih =>
    unfold State.runAgain
    extract_lets a r
    have hr : r.s.Inv := State.Inv.runCmd (s := { s with asked := a }) h ..
    split
    · exact hr
    · exact ih hr
theorem State.Inv.rerun {s : State} (h : s.Inv) (g : Nat) (q : Queue) : (s.rerun g q).1.Inv := by
  unfold State.rerun
  extract_lets e
  split
  · exact State.Inv.runAgain _ _ _ _ h
  · exact State.Inv.runAgain _ _ _ _ (h.discard _)
@[simp] theorem State.inv_spoilTiles (s : State) (g : Nat) (ts : List Nat) : (s.spoilTiles g ts).Inv ↔ s.Inv := Iff.rfl
theorem State.Inv.replay {s : State} (h : s.Inv) (g : Nat) (q : Queue) : (s.replay g q).Inv := by
  unfold State.replay
  extract_lets c e bad j written s0 s1 outside s2 c3 s3
  have h1 : s1.Inv := h
  have h2 : s2.Inv := by simp only [s2]; split <;> simpa
  have h3 : s3.Inv := h2
  split
  · exact h
  split
  · simpa
  · have hr := h3.rerun g q
    split
    · exact h
    · next hx => rw [hx] at hr; simpa
    · next hx => rw [hx] at hr; exact hr

/-! ### What a step of an engine answers -/

/-- An answer goes on to a next state that keeps the invariant. -/
def NextInv (o : Host.Outcome State Fault Refusal) : Prop := ∃ t, o = .next t ∧ t.Inv

@[simp] theorem nextInv_next (s : State) : NextInv (.next s) ↔ s.Inv :=
  ⟨fun ⟨_, ht, h⟩ => by cases ht; exact h, fun h => ⟨s, rfl, h⟩⟩

theorem inv_execEngineCommandStart {s : State} (h : s.Inv) (g : Nat) (q : Queue) : NextInv (execEngineCommandStart g q s) := by
  unfold execEngineCommandStart
  split
  · rw [nextInv_next]
    split
    · exact h.startCmd ..
    · exact h
  · simpa
theorem inv_execEngineCommandRetire {s : State} (h : s.Inv) (g : Nat) (q : Queue) :
    NextInv (execEngineCommandRetire g q s) := by
  unfold execEngineCommandRetire
  split
  · split
    · rw [nextInv_next]
      split
      · exact h.stepResolve ..
      · exact h.retireCmd ..
    · simpa
  · simpa
theorem inv_execEngineReplay {s : State} (h : s.Inv) (g : Nat) (q : Queue) : NextInv (execEngineReplay g q s) := by
  unfold execEngineReplay
  rw [nextInv_next]
  split
  · exact h.replay ..
  · exact h
theorem inv_execKatTestRun {s : State} (h : s.Inv) (g : Nat) : NextInv (execKatTestRun g s) := by
  unfold execKatTestRun
  split
  · split
    · split
      · simpa
      · extract_lets j t
        have ht : t.Inv := h
        split <;> simpa
    · simpa
  · simpa
theorem inv_execCommandSteal {s : State} (h : s.Inv) (g k : Nat) : NextInv (execCommandSteal g k s) := by
  unfold execCommandSteal
  extract_lets c
  split
  · split <;> simpa
  · simpa
end Sys2Proof.Machine
end

section
/-! ## The invariant: landing, the collective sequencer and pool entries (O59) -/
namespace Sys2Proof.Machine

/-! ### What lands in C -/

theorem State.Inv.trackAll {g z : Nat} {w : Bool} (vas : List W64) {s t : State} (h : s.Inv)
    (ht : s.trackAll g z w vas = .ok t) : t.Inv := by
  induction vas generalizing s with
  | nil => cases ht; exact h
  | cons va vas ih =>
    unfold State.trackAll at ht
    split at ht
    · cases ht
    · next hu => exact ih (h.track hu) ht
theorem State.Inv.trackLines {g : Nat} {w : Bool} (vas : List W64) {s t : State} (h : s.Inv)
    (ht : s.trackLines g w vas = .ok t) : t.Inv := by
  induction vas generalizing s with
  | nil => cases ht; exact h
  | cons va vas ih =>
    unfold State.trackLines at ht
    split at ht
    · cases ht
    · next hu => exact ih (h.trackLine hu) ht

theorem State.Inv.landLoad {s : State} {g : Nat} {t : Fin 8} {eas : List W64} {x : List W32 × State} (h : s.Inv)
    (hx : s.landLoad g t eas = .ok x) : x.2.Inv := by
  unfold State.landLoad at hx
  split at hx
  · cases hx
  next hu =>
    split at hx
    · cases hx
    · obtain rfl := Except.ok.inj hx; exact State.Inv.trackAll _ h hu
theorem State.Inv.landStore {s u : State} {g : Nat} {t : Fin 8} {xs : List (W64 × W32)} (h : s.Inv)
    (hu : s.landStore g t xs = .ok u) : u.Inv := by
  unfold State.landStore at hu
  split at hu
  · cases hu
  next hv => obtain rfl := Except.ok.inj hu; exact State.Inv.foldl (State.Inv.trackAll _ h hv) (fun _ _ ht => ht.store ..) _
theorem State.Inv.landResidue {s : State} {g : Nat} {t : Fin 8} {n : Nat} {b : W64} {fp : W32} {x : (List W32 × W32) × State}
    (h : s.Inv) (hx : s.landResidue g t n b fp = .ok x) : x.2.Inv := by
  unfold State.landResidue at hx
  extract_lets lines at hx
  split at hx
  · cases hx
  next hu =>
    split at hx
    · cases hx
    · obtain rfl := Except.ok.inj hx; exact State.Inv.trackLines _ h hu

/-- The accesses of a conversion's list keep the invariant: each tracks one entry, until one is refused. -/
theorem State.Inv.trackList {s t : State} {g : Nat} {d : Option Nat} {va : W64} {ks : List (Nat × W64 × Nat)} (h : s.Inv)
    (ht : s.trackList g d va ks = .ok t) : t.Inv := by
  unfold State.trackList at ht
  refine foldl_keeps (fun r : Except Exc State => ∀ u, r = .ok u → u.Inv) _ (fun r x hr u hu => ?_) ks _ (fun u hu => ?_) t ht
  · split at hu
    · next hv => exact (hr _ rfl).track hu
    · cases hu
  · split at hu
    · exact h.track hu
    · cases hu; exact h
theorem State.Inv.convertWrite {s : State} (h : s.Inv) (g : Nat) (d : Option Nat) (n : Nat) (ks : List (Nat × W64 × Nat))
    (ls : List (W64 × List Byte × W32)) : (s.convertWrite g d n ks ls).Inv := by
  unfold State.convertWrite
  extract_lets s1 s2
  have h1 : s1.Inv := State.Inv.foldl h (fun _ _ ht => ht.store ..) _
  clear_value s1
  refine State.Inv.foldl ?_ (fun _ _ ht => ht.setLine ..) _
  simp only [s2]
  split
  · exact h1.store ..
  · exact h1
theorem State.Inv.landConvert {s : State} {g : Nat} {t : Fin 8} {half : Bool} {ls : List W32} {dst ctrl : W64} {fp : W32}
    {x : W32 × State} (h : s.Inv) (hx : s.landConvert g t half ls dst ctrl fp = .ok x) : x.2.Inv := by
  unfold State.landConvert at hx
  split at hx
  · cases hx
  next h1 =>
  split at hx
  · cases hx
  extract_lets w chosen at hx
  split at hx
  · cases hx
  split at hx
  · cases hx
  extract_lets r lines dsts at hx
  split at hx
  · cases hx
  split at hx
  · cases hx
  next h2 =>
  split at hx
  · cases hx
  next h3 =>
  obtain rfl := Except.ok.inj hx
  exact State.Inv.convertWrite (State.Inv.trackLines _ (State.Inv.trackList (State.Inv.trackAll _ h h1) h2) h3) ..

theorem State.Inv.landOne {s : State} (h : s.Inv) (g : Nat) (f : Flight) : (s.landOne g f).1.Inv := by
  unfold State.landOne
  split
  · split
    · next hx => exact h.landLoad hx
    · exact h
  · split
    · next hx => exact h.landResidue hx
    · exact h
  · split
    · next hx => exact h.landStore hx
    · exact h
  · split
    · next hx => exact h.landConvert hx
    · exact h
  · dsimp only
    split
    · exact h
    · split <;> exact h
  all_goals exact h
theorem State.Inv.landEach (g : Nat) (fs : List Flight) {s : State} (h : s.Inv) : (s.landEach g fs).1.Inv := by
  induction fs generalizing s with
  | nil => exact h
  | cons f fs ih => exact ih (h.landOne g f)

/-- A landing cycle keeps the invariant. -/
theorem State.Inv.land {s : State} (h : s.Inv) (g : Nat) : (s.land g).Inv := by
  unfold State.land
  extract_lets c due s1 r c2 s2 s3 fl c3 s4 stage c4 s5
  have h1 : r.1.Inv := State.Inv.landEach _ _ h
  have h2 : s2.Inv := h1
  have h3 : s3.Inv := State.Inv.foldl h2 (fun t f ht => by split <;> simpa) _
  have h5 : s5.Inv := by simp only [s5]; split <;> exact h3
  split
  · exact State.Inv.take (by exact h5) _
  · exact h5
theorem inv_execCStreamLanding {s : State} (h : s.Inv) (g : Nat) : NextInv (execCStreamLanding g s) := by
  unfold execCStreamLanding
  extract_lets t
  have ht : t.Inv := h
  split
  · split
    · simpa
    · simpa using ht.land g
  · simpa

/-! ### The collective sequencer -/

@[simp] theorem State.inv_sendPeer (s : State) (r : Running) (k o : Nat) (bs : List Byte) : (s.sendPeer r k o bs).Inv ↔ s.Inv :=
  Iff.rfl
@[simp] theorem State.inv_mergeExt (s : State) (k n : Nat) (bs : List Byte) : (s.mergeExt k n bs).Inv ↔ s.Inv := by
  simp [State.mergeExt]

theorem inv_putLine {s : State} (h : s.Inv) (r : Running) (i : Nat) : (putLine r i s).s.Inv := by
  refine Ran.inv_with h fun k _ => ?_
  dsimp only
  split
  · exact h
  · refine Ran.inv_with h fun p _ => ?_
    have ht : (s.line k).2.Inv := by simpa
    split
    · exact ht.setAnyLine ..
    · exact ht
theorem inv_zeroLine {s : State} (h : s.Inv) (r : Running) (i : Nat) : (zeroLine r i s).s.Inv := by
  refine Ran.inv_with h fun p _ => ?_
  split
  · exact h.setAnyLine ..
  · exact h
theorem State.Inv.tableAt {s : State} {r : Running} {lo b : Nat} {x : Nat × State} (h : s.Inv)
    (hx : s.tableAt r lo b = .ok x) : x.2.Inv := by
  unfold State.tableAt at hx
  split at hx
  · cases hx
  split at hx
  · split at hx
    · cases hx
    · cases hx; exact h
  · split at hx
    · cases hx
    · split at hx
      · cases hx
      · obtain rfl := Except.ok.inj hx; simpa
theorem State.Inv.fpElem {s : State} {r : Running} {i : Nat} {x : Num × State} (h : s.Inv) (hx : s.fpElem r i = .ok x) :
    x.2.Inv := by
  unfold State.fpElem at hx
  extract_lets z at hx
  split at hx
  · cases hx
  · split at hx
    · cases hx
    · obtain rfl := Except.ok.inj hx; exact (State.inv_load ..).2 h
theorem State.Inv.fpElems {r : Running} (n : Nat) {i : Nat} {s : State} {x : List Num × State} (h : s.Inv)
    (hx : s.fpElems r i n = .ok x) : x.2.Inv := by
  induction n generalizing s i x with
  | zero => cases hx; exact h
  | succ n ih =>
    unfold State.fpElems at hx
    split at hx
    · cases hx
    next hy =>
      split at hx
      · cases hx
      next hz => obtain rfl := Except.ok.inj hx; exact (ih (h.fpElem hy) hz :)
theorem inv_mergeInto {s : State} (h : s.Inv) (r : Running) (b v : Nat) : (mergeInto r b v s).s.Inv := by
  refine Ran.inv_with h fun p _ => ?_
  split
  · exact h
  · split
    · exact h
    · split
      · simpa
      · dsimp only
        split
        · exact h
        · dsimp only; exact h.store ..
theorem inv_maxexpBlock {s : State} (h : s.Inv) (r : Running) (b : Nat) : (maxexpBlock r b s).s.Inv :=
  Ran.inv_with h fun _ hx => inv_mergeInto (State.Inv.fpElems _ h hx) ..
theorem inv_maxexpEntry {s : State} (h : s.Inv) (r : Running) (b : Nat) : (maxexpEntry r b s).s.Inv := by
  refine Ran.inv_with h fun x hx => ?_
  have ht := h.tableAt hx
  dsimp only
  split
  · exact ht
  · exact inv_mergeInto ht ..
theorem inv_stageAdd {s : State} (h : s.Inv) (r : Running) (o : Nat) (n : Int) : (stageAdd r o n s).s.Inv := by
  refine Ran.inv_with h fun p _ => ?_
  split
  · exact h
  · split
    · exact h
    · dsimp only; exact h.store ..
theorem inv_redElems (r : Running) (v i : Nat) (xs : List Num) {s : State} (h : s.Inv) : (redElems r v i xs s).s.Inv := by
  induction xs generalizing i s with
  | nil => exact h
  | cons x xs ih =>
    unfold redElems
    split
    · exact h
    · exact Ran.inv_andThen (inv_stageAdd h ..) fun _ ht => ih _ ht
theorem inv_redBlock {s : State} (h : s.Inv) (r : Running) (b : Nat) : (redBlock r b s).s.Inv := by
  refine Ran.inv_with h fun x hx => ?_
  have ht := h.tableAt hx
  dsimp only
  split
  · exact ht
  · exact Ran.inv_with ht fun y hy => inv_redElems _ _ _ _ (State.Inv.fpElems _ ht hy)
theorem inv_redStage {s : State} (h : s.Inv) (r : Running) (i : Nat) : (redStage r i s).s.Inv := by
  refine Ran.inv_with h fun k _ => ?_
  split
  · exact h
  · exact inv_stageAdd h ..
theorem inv_redInt {s : State} (h : s.Inv) (r : Running) (i : Nat) : (redInt r i s).s.Inv := by
  refine Ran.inv_with h fun k _ => ?_
  dsimp only
  split
  · exact h
  · have ht : (s.load k (dtypeSize r.w.dtype)).2.Inv := by simpa
    refine Ran.inv_with ht fun p _ => ?_
    split
    · exact ht
    · split
      · simpa
      · split
        · exact ht
        · dsimp only; exact ht.store ..

theorem State.Inv.sketchStage {s t : State} {a d : Nat} {ps : List (Nat × Nat)} {cs : List Int} (h : s.Inv)
    (ht : s.sketchStage a d ps cs = .ok t) : t.Inv := by
  unfold State.sketchStage at ht
  extract_lets old isSet base m m1 m2 at ht
  split at ht
  · cases ht
  · obtain rfl := Except.ok.inj ht
    have hm : Memory.wf m = true := Memory.wf_writeN _ _ _ h.1
    have hm1 : Memory.wf m1 = true := by
      simp only [m1]
      split
      · exact hm
      · exact foldl_keeps (fun m => Memory.wf m = true) _
          (fun _ _ hw => Memory.wf_writeN _ _ _ (Memory.wf_writeN _ _ _ hw)) _ _ hm
    exact State.inv_withMem h (foldl_keeps (fun m => Memory.wf m = true) _
      (fun _ _ hw => Memory.wf_writeN _ _ _ hw) _ _ hm1) ..
theorem inv_redSketch {s : State} (h : s.Inv) (r : Running) : (redSketch r s).s.Inv := by
  refine Ran.inv_with h fun x _ => Ran.inv_with h fun p _ => ?_
  split
  · exact h
  · split
    · exact h
    · exact Ran.inv_with h fun _ ht => h.sketchStage ht
theorem inv_convertLine {s : State} (h : s.Inv) (r : Running) (i : Nat) : (convertLine r i s).s.Inv := by
  refine Ran.inv_with h fun x hx => ?_
  have ht := h.tableAt hx
  dsimp only
  split
  · exact ht
  · refine Ran.inv_with ht fun k _ => ?_
    split
    · exact ht
    · refine Ran.inv_with ht fun p _ => ?_
      split
      · dsimp only; exact ht.setLine ..
      · exact ht
theorem inv_convertSketch {s : State} (h : s.Inv) (r : Running) : (convertSketch r s).s.Inv := by
  refine Ran.inv_with h fun x _ => Ran.inv_with h fun p _ => ?_
  split
  · exact h
  · split
    · exact h
    · exact State.Inv.setSat (State.Inv.foldl h (fun _ _ ht => (ht.shWr ..).setSat ..) _) ..

@[simp] theorem State.inv_fireAll (s : State) : s.fireAll.Inv ↔ s.Inv := State.inv_foldl (fun _ _ => State.inv_acquire ..) _ _
@[simp] theorem State.inv_addTc (s : State) (k : Nat) (x : W64) : (s.addTc k x).Inv ↔ s.Inv := by simp [State.addTc]
@[simp] theorem State.inv_holdWork (s : State) (p n : Nat) (r : Request) : (s.holdWork p n r).Inv ↔ s.Inv := Iff.rfl
@[simp] theorem State.inv_failWork (s : State) (p n : Nat) (e : Exc) : (s.failWork p n e).Inv ↔ s.Inv := by simp [State.failWork]

theorem inv_execEntryArm {s : State} (h : s.Inv) (p : Nat) : NextInv (execEntryArm p s) := by
  unfold execEntryArm
  extract_lets q
  split
  · split
    · extract_lets err w s1 t
      clear_value err
      have h1 : s1.Inv := by
        simp only [s1, State.inv_wakeKey]
        split <;> simpa
      simpa [t] using h1
    · simpa
  · simpa

/-- A run of an entry keeps the invariant when what its kind does keeps it. -/
theorem inv_runEntry {s : State} (h : s.Inv) {ok : Work → Bool} {f : Running → State → Ran}
    (hf : ∀ r (t : State), t.Inv → (f r t).s.Inv) (p n : Nat) : NextInv (runEntry ok f p n s) := by
  unfold runEntry
  split
  · split
    · extract_lets r
      have hr : r.s.Inv := hf _ { s with asked := _ } h
      clear_value r
      split <;> simpa
    · simpa
  · simpa
theorem inv_eachTo {f : Nat → State → Ran} (hf : ∀ i (t : State), t.Inv → (f i t).s.Inv) (n : Nat) {s : State} (h : s.Inv) :
    (eachTo n f s).s.Inv := Ran.inv_each hf _ h
theorem inv_execCsqPut {s : State} (h : s.Inv) (p n : Nat) : NextInv (execCsqPut p n s) :=
  inv_runEntry h (fun _ _ ht => inv_eachTo (fun _ _ hu => inv_putLine hu ..) _ ht) ..
theorem inv_execCsqPutredSum {s : State} (h : s.Inv) (p n : Nat) : NextInv (execCsqPutredSum p n s) := by
  refine inv_runEntry h (fun r t ht => ?_) ..
  split_ifs
  · exact inv_eachTo (fun _ _ hu => inv_redBlock hu ..) _ ht
  · exact inv_eachTo (fun _ _ hu => inv_redStage hu ..) _ ht
  · exact inv_redSketch ht ..
  · exact inv_eachTo (fun _ _ hu => inv_redInt hu ..) _ ht
theorem inv_execCsqPutredMax {s : State} (h : s.Inv) (p n : Nat) : NextInv (execCsqPutredMax p n s) :=
  inv_runEntry h (fun _ _ ht => inv_eachTo (fun _ _ hu => inv_redInt hu ..) _ ht) ..
theorem inv_execCsqPutredMin {s : State} (h : s.Inv) (p n : Nat) : NextInv (execCsqPutredMin p n s) :=
  inv_runEntry h (fun _ _ ht => inv_eachTo (fun _ _ hu => inv_redInt hu ..) _ ht) ..
theorem inv_execCsqMaxexp {s : State} (h : s.Inv) (p n : Nat) : NextInv (execCsqMaxexp p n s) := by
  refine inv_runEntry h (fun r t ht => ?_) ..
  split_ifs
  · exact inv_eachTo (fun _ _ hu => inv_maxexpEntry hu ..) _ ht
  · exact inv_eachTo (fun _ _ hu => inv_maxexpBlock hu ..) _ ht
theorem inv_execCsqNotify {s : State} (h : s.Inv) (p n : Nat) : NextInv (execCsqNotify p n s) :=
  inv_runEntry h (fun _ _ ht => ht) ..
theorem inv_execLcopyCopy {s : State} (h : s.Inv) (p n : Nat) : NextInv (execLcopyCopy p n s) :=
  inv_runEntry h (fun _ _ ht => inv_eachTo (fun _ _ hu => inv_putLine hu ..) _ ht) ..
theorem inv_execLcopyConvert {s : State} (h : s.Inv) (p n : Nat) : NextInv (execLcopyConvert p n s) := by
  refine inv_runEntry h (fun r t ht => ?_) ..
  split
  · exact inv_convertSketch ht ..
  · exact inv_eachTo (fun _ _ hu => inv_convertLine hu ..) _ ht
theorem inv_execLcopyZero {s : State} (h : s.Inv) (p n : Nat) : NextInv (execLcopyZero p n s) :=
  inv_runEntry h (fun _ _ ht => inv_eachTo (fun _ _ hu => inv_zeroLine hu ..) _ ht) ..

@[simp] theorem State.inv_entryAdd (s : State) (p q i n : Nat) (x : W64) : (s.entryAdd p q i n x).Inv ↔ s.Inv := by
  unfold State.entryAdd; split <;> simp
@[simp] theorem State.inv_completeAdds (s : State) (p n : Nat) (q : Qp) (w : Work) : (s.completeAdds p n q w).Inv ↔ s.Inv := by
  unfold State.completeAdds
  extract_lets t
  have ht : t.Inv ↔ s.Inv := by simp only [t]; split <;> simp
  split
  · split
    · rw [State.inv_entryAdd, ht]
    · exact ht
  · exact ht
theorem inv_execEntryComplete {s : State} (h : s.Inv) (p n : Nat) : NextInv (execEntryComplete p n s) := by
  unfold execEntryComplete
  extract_lets q
  split
  · split <;> simpa
  · simpa
theorem inv_execEntryFail {s : State} (h : s.Inv) (p n : Nat) : NextInv (execEntryFail p n s) := by
  unfold execEntryFail
  extract_lets q
  split
  · split <;> simpa
  · simpa
theorem inv_execRemoteCounterAdd {s : State} (h : s.Inv) (p n : Nat) (x : W32) : NextInv (execRemoteCounterAdd p n x s) := by
  unfold execRemoteCounterAdd
  split
  · simpa
  · split <;> simpa
theorem inv_execQpResetDone {s : State} (h : s.Inv) (p : Nat) : NextInv (execQpResetDone p s) := by
  unfold execQpResetDone
  extract_lets q
  split <;> simpa

/-! ### Pool entries -/

@[simp] theorem State.inv_dropMarks (s : State) (n : Nat) (e : Entry) : (s.dropMarks n e).Inv ↔ s.Inv := Iff.rfl
@[simp] theorem State.inv_entryRecord (s : State) (n : Nat) (e : Entry) (r : Record) : (s.entryRecord n e r).Inv ↔ s.Inv := Iff.rfl
@[simp] theorem State.inv_budgetRecord (s : State) (n : Nat) (e : Entry) (u : Bool) : (s.budgetRecord n e u).Inv ↔ s.Inv := Iff.rfl
@[simp] theorem State.inv_budgetStop (s : State) (n : Nat) (e : Entry) : (s.budgetStop n e).Inv ↔ s.Inv := Iff.rfl
theorem State.Inv.dispRead {s : State} {p a n : Nat} {x : Nat × State} (h : s.Inv) (hx : s.dispRead p a n = .ok x) :
    x.2.Inv := by
  unfold State.dispRead at hx
  split at hx
  · cases hx
  · split at hx
    · cases hx
    · obtain rfl := Except.ok.inj hx; simpa
end Sys2Proof.Machine
end

section
/-! ## The invariant: bundles, waits and freezes (O59) -/
namespace Sys2Proof.Machine

/-! ### Every word -/

/-- The effect of a word keeps the invariant. -/
theorem inv_wordEffect {s : State} (h : s.Inv) {i : Instr} {x : State → Eff} (hx : wordEffect i = some x) : (x s).Inv := by
  cases i with
  | iopAdd _ _ _ | iopSub _ _ _ | iopAnd _ _ _ | iopOr _ _ _ | iopXor _ _ _ | iopShl _ _ _ | iopShr _ _ _ | iopSra _ _ _
  | iopMin _ _ _ | iopMax _ _ _ | iopMinu _ _ _ | iopMaxu _ _ _ | iopAddw _ _ _ | iopSubw _ _ _ | iopSlt _ _ _
  | iopSltu _ _ _ | bitfExtu _ _ _ | bitfExts _ _ _ | bitfIns _ _ _ | muldivMul _ _ _ | muldivMulh _ _ _
  | muldivMulhu _ _ _ | muldivDiv _ _ _ | muldivDivu _ _ _ | muldivRem _ _ _ | muldivRemu _ _ _ =>
    obtain rfl := Option.some.inj hx
    exact inv_alu h ..
  | iopiAdd _ _ _ | iopiAnd _ _ _ | iopiOr _ _ _ | iopiXor _ _ _ | iopiShl _ _ _ | iopiShr _ _ _ | iopiSra _ _ _
  | iopiAddw _ _ _ | bitfPopc _ _ | bitfClz _ _ | bitfCtz _ _ | bitfBrev _ _ | bitfBswap _ _ =>
    obtain rfl := Option.some.inj hx
    exact inv_alui h ..
  | ihiLo _ _ | ihiH1 _ _ | ihiH2 _ _ | ihiH3 _ _ | ihiLou _ _ | prdTos _ _ | prdRds _ | csrRd _ _ | vsetGet _ _ _ =>
    obtain rfl := Option.some.inj hx
    exact inv_doneS h ..
  | cmpEq _ _ _ | cmpNe _ _ _ | cmpLt _ _ _ | cmpGe _ _ _ | cmpLtu _ _ _ | cmpGeu _ _ _ | cmpTst _ _ _ =>
    obtain rfl := Option.some.inj hx
    exact inv_cmp h ..
  | prdAnd _ _ _ | prdOr _ _ _ | prdXor _ _ _ | prdAndn _ _ _ | prdOrn _ _ _ | prdNor _ _ _ =>
    obtain rfl := Option.some.inj hx
    exact inv_prd h ..
  | prdFrs _ _ | vredAnyp _ _ | vredAllp _ _ =>
    obtain rfl := Option.some.inj hx
    exact inv_doneP h ..
  | prdWrs _ =>
    obtain rfl := Option.some.inj hx
    exact (State.inv_putPreds ..).2 h
  | br _ _ _ =>
    obtain rfl := Option.some.inj hx
    exact inv_xBr h ..
  | jmpR _ =>
    obtain rfl := Option.some.inj hx
    exact inv_jump h _ fun _ => Iff.rfl
  | jmpLink _ _ =>
    obtain rfl := Option.some.inj hx
    exact inv_jump h _ fun _ => State.inv_putS ..
  | loopSp _ _ _ =>
    obtain rfl := Option.some.inj hx
    exact inv_xLoopSp h ..
  | ldsB8 _ _ _ _ | ldsI8 _ _ _ _ | ldsB16 _ _ _ _ | ldsI16 _ _ _ _ | ldsB32 _ _ _ _ | ldsI32 _ _ _ _ | ldsB64 _ _ _ _ =>
    obtain rfl := Option.some.inj hx
    exact inv_load h ..
  | stsB8 _ _ _ _ | stsB16 _ _ _ _ | stsB32 _ _ _ _ | stsB64 _ _ _ _ =>
    obtain rfl := Option.some.inj hx
    exact inv_store h ..
  | csrWr _ _ =>
    obtain rfl := Option.some.inj hx
    exact inv_csrPut h _ _ fun _ => Iff.rfl
  | csrSet _ _ _ | csrClr _ _ _ =>
    obtain rfl := Option.some.inj hx
    exact inv_csrPut h _ _ fun _ => State.inv_putS ..
  | sysNop =>
    obtain rfl := Option.some.inj hx
    exact h
  | sysEnd _ =>
    obtain rfl := Option.some.inj hx
    exact inv_xSysEnd h ..
  | sysTrap _ _ =>
    obtain rfl := Option.some.inj hx
    exact trivial
  | sysWev =>
    obtain rfl := Option.some.inj hx
    exact inv_xSysWev h ..
  | privRd _ _ =>
    obtain rfl := Option.some.inj hx
    exact inv_xPrivRd h ..
  | privWr _ _ =>
    obtain rfl := Option.some.inj hx
    exact inv_xPrivWr h ..
  | privRet =>
    obtain rfl := Option.some.inj hx
    exact inv_xPrivRet h ..
  | privHcall _ =>
    obtain rfl := Option.some.inj hx
    exact inv_xPrivHcall h ..
  | privWfi =>
    obtain rfl := Option.some.inj hx
    exact inv_xPrivWfi h ..
  | privTinv _ _ =>
    obtain rfl := Option.some.inj hx
    exact inv_xPrivTinv h ..
  | ringClaim _ _ _ _ =>
    obtain rfl := Option.some.inj hx
    exact inv_xRingClaim h ..
  | ringCommit _ _ _ _ =>
    obtain rfl := Option.some.inj hx
    exact inv_xRingCommit h ..
  | ringWaitf _ _ _ =>
    obtain rfl := Option.some.inj hx
    exact inv_xRingWaitf h ..
  | ringWaitr _ _ _ =>
    obtain rfl := Option.some.inj hx
    exact inv_xRingWaitr h ..
  | ringPop _ _ _ =>
    obtain rfl := Option.some.inj hx
    exact inv_xRingPop h ..
  | ringCfg _ _ =>
    obtain rfl := Option.some.inj hx
    exact inv_xRingCfg h ..
  | ringRd _ _ =>
    obtain rfl := Option.some.inj hx
    exact inv_xRingRd h ..
  | semAdd _ _ _ _ =>
    obtain rfl := Option.some.inj hx
    exact inv_xSemAdd h ..
  | semWaitge _ _ =>
    obtain rfl := Option.some.inj hx
    exact inv_xSemWaitge h ..
  | semRd _ _ =>
    obtain rfl := Option.some.inj hx
    exact inv_xSemRd h ..
  | gbarArr _ =>
    obtain rfl := Option.some.inj hx
    exact inv_xGbarArr h ..
  | gbarWait _ =>
    obtain rfl := Option.some.inj hx
    exact inv_xGbarWait h ..
  | gbarSync _ =>
    obtain rfl := Option.some.inj hx
    exact inv_xGbarSync h ..
  | ordRel _ =>
    obtain rfl := Option.some.inj hx
    exact inv_fenceRun h _ _ fun _ _ _ => State.inv_fenceRel ..
  | ordAcq _ =>
    obtain rfl := Option.some.inj hx
    exact inv_fenceRun h _ _ fun _ _ _ => State.inv_fenceAcq ..
  | ordFull _ =>
    obtain rfl := Option.some.inj hx
    exact inv_fenceRun h _ _ fun _ _ _ => State.inv_fenceFull ..
  | copyIn _ _ _ _ _ =>
    obtain rfl := Option.some.inj hx
    exact inv_xCopyIn h ..
  | copyOut _ _ _ _ _ =>
    obtain rfl := Option.some.inj hx
    exact inv_xCopyOut h ..
  | copyWt _ _ _ _ _ _ =>
    obtain rfl := Option.some.inj hx
    exact inv_xCopyWt h ..
  | copyMm _ _ _ _ =>
    obtain rfl := Option.some.inj hx
    exact inv_xCopyMm h ..
  | gathFill _ _ _ =>
    obtain rfl := Option.some.inj hx
    exact inv_xGathFill h ..
  | lineRd _ _ =>
    obtain rfl := Option.some.inj hx
    exact inv_xLineRd h ..
  | lineWr _ _ =>
    obtain rfl := Option.some.inj hx
    exact inv_xLineWr h ..
  | lineSet _ _ _ _ =>
    obtain rfl := Option.some.inj hx
    exact inv_xLineSet h ..
  | markTile | accAdd _ _ _ | accZero _ =>
    obtain rfl := Option.some.inj hx
    exact State.inv_enqueue h ..
  | markDrain =>
    obtain rfl := Option.some.inj hx
    exact inv_xMarkDrain h ..
  | mmaRn8 _ _ _ _ _ _ _ _ | mmaRn4 _ _ _ _ _ _ _ _ | mmaRnx _ _ _ _ _ _ _ _ | mmaRny _ _ _ _ _ _ _ _
  | mmaBf16 _ _ _ _ _ _ _ _ =>
    obtain rfl := Option.some.inj hx
    exact inv_mmaIssue h ..
  | accRd _ _ _ | accFlg _ _ =>
    obtain rfl := Option.some.inj hx
    exact inv_doneLaunch h ..
  | accSt _ _ _ _ =>
    obtain rfl := Option.some.inj hx
    exact inv_xAccSt h ..
  | tentMark _ _ =>
    obtain rfl := Option.some.inj hx
    exact inv_xTentMark h ..
  | rslv _ _ _ _ =>
    obtain rfl := Option.some.inj hx
    exact inv_xRslv h ..
  | mkat _ _ =>
    obtain rfl := Option.some.inj hx
    exact inv_xMkat h ..
  | vfpAdd _ _ _ _ | vfpSub _ _ _ _ | vfpMul _ _ _ _ | vfpMin _ _ _ _ | vfpMax _ _ _ _ | vfpAbs _ _ _ | vfpNeg _ _ _
  | vfpCpsgn _ _ _ _ | vfmaFma _ _ _ _ | vfmaFms _ _ _ _ | vfmaFnma _ _ _ _ | vfmaFnms _ _ _ _ | vintAdd _ _ _ _
  | vintSub _ _ _ _ | vintMul _ _ _ _ | vintAnd _ _ _ _ | vintOr _ _ _ _ | vintXor _ _ _ _ | vintAndn _ _ _ _
  | vintShl _ _ _ _ | vintShr _ _ _ _ | vintSra _ _ _ _ | vintMin _ _ _ _ | vintMax _ _ _ _ | vintAdds _ _ _ _
  | vintSubs _ _ _ _ | vintAbs _ _ _ | vintMulh _ _ _ _ | vcmpEq _ _ _ _ | vcmpNe _ _ _ _ | vcmpLt _ _ _ _
  | vcmpLe _ _ _ _ | vcmpGt _ _ _ _ | vcmpGe _ _ _ _ | vcmpUn _ _ _ _ | vcvtF2i _ _ _ | vcvtI2f _ _ _ | vcvtF2h _ _
  | vcvtH2f _ _ | vcvtRint _ _ _ | vredAnd _ _ _ | vredOr _ _ _ | vredXor _ _ _ | vpermSel _ _ _ | vpermShift _ _ _
  | vpermTr _ _ | vsfuRcp _ _ _ | vsfuRsqrt _ _ _ | vsfuSqrt _ _ _ | vsfuDiv _ _ _ _ | vsfuExp _ _ _ | vsfuExp2 _ _ _
  | vsfuLn _ _ _ | vsfuLog2 _ _ _ | vsfuSin _ _ _ | vsfuCos _ _ _ | vsfuTanh _ _ _ | vsfuSigm _ _ _ | vclmLo _ _ _
  | vclmHi _ _ _ | vclmXlo _ _ _ | vclmXhi _ _ _ | vclmBrev _ _ | vselSel _ _ _ | vselSelz _ _ | vsetBcast _ _ _
  | vsetIota _ _ | vsetIrow _ _ | vsetIcol _ _ | vsetPut _ _ _ | routeTopk _ _ _ _ _ =>
    obtain rfl := Option.some.inj hx
    exact inv_doneV h ..
  | vcvtQf _ _ _ _ | vcvtQh _ _ _ _ =>
    obtain rfl := Option.some.inj hx
    exact inv_convert h ..
  | vredSum _ _ _ | vredMax _ _ _ | vredMin _ _ _ | vredSadd _ _ _ | vredSmax _ _ _ =>
    obtain rfl := Option.some.inj hx
    exact inv_reduceRows h ..
  | vmemLd _ _ _ _ =>
    obtain rfl := Option.some.inj hx
    exact inv_xVmemLd h ..
  | vmemSt _ _ _ _ =>
    obtain rfl := Option.some.inj hx
    exact inv_xVmemSt h ..
  | vmemGat _ _ _ _ | vmemSct _ _ _ _ =>
    obtain rfl := Option.some.inj hx
    exact inv_vmemIssue h ..
  | proofRun _ _ =>
    obtain rfl := Option.some.inj hx
    exact inv_xProofRun h ..
  | ptabRd _ _ _ | ptabHrd _ _ _ | ptabCrd _ _ _ =>
    obtain rfl := Option.some.inj hx
    exact inv_returning _ (h.ptRead ..) _
  | ptabWr _ _ _ | ptabHwr _ _ _ | ptabClr _ _ | creelCfg _ _ | creelBias _ _ =>
    obtain rfl := Option.some.inj hx
    exact inv_posted h ..
  | creelOffer _ _ _ =>
    obtain rfl := Option.some.inj hx
    exact inv_xCreelOffer h ..
  | creelDrain _ _ _ =>
    obtain rfl := Option.some.inj hx
    exact inv_xCreelDrain h ..
  | creelRd _ _ =>
    obtain rfl := Option.some.inj hx
    exact inv_returning _ (h.creelWord _) _
  | nmaAddI32 _ _ _ | nmaMinI32 _ _ _ _ | nmaMaxI32 _ _ _ _ | nmaAndI32 _ _ _ | nmaOrI32 _ _ _ | nmaXorI32 _ _ _
  | nmaSwapI32 _ _ _ | nmaCasI32 _ _ _ | nmaAddI64 _ _ _ | nmaMinI64 _ _ _ _ | nmaMaxI64 _ _ _ _ | nmaAndI64 _ _ _
  | nmaOrI64 _ _ _ | nmaXorI64 _ _ _ | nmaSwapI64 _ _ _ | nmaCasI64 _ _ _ | nmaAddF32 _ _ _ | nmaMinF32 _ _ _ =>
    obtain rfl := Option.some.inj hx
    exact inv_nmaForm h ..
  | _ => cases hx

/-- The effect of a word of `Near` keeps the invariant. -/
theorem inv_nearEffect {s : State} (h : s.Inv) (n : Near) : (nearEffect n s).Inv := by
  cases n with
  | nmaMaxF32 _ _ _ | nmaSwapF32 _ _ _ | nmaCasF32 _ _ _ =>
    exact inv_nmaForm h ..
  | nmaLaddF32 _ _ _ _ | nmaLaddI32 _ _ _ _ | nmaLmaxF32 _ _ _ _ =>
    exact inv_nmaList h ..
  | skSeed _ _ | skUpd _ _ _ | skAdd _ _ | skClr _ | ocInit _ _ _ _ | ocIns _ _ _ | ocSettle _ _ | postWbeg _ _
  | postWcom _ | postWabn _ =>
    exact inv_posted h ..
  | skUpdl _ _ _ | skQryl _ _ _ =>
    exact inv_skList h ..
  | skQry _ _ _ =>
    exact inv_xSkQry h ..
  | ocLdt _ _ _ =>
    exact inv_xOcLdt h ..
  | ocLds _ _ _ =>
    exact inv_xOcLds h ..
  | ocFold _ _ =>
    exact inv_xOcFold h ..
  | postTask _ =>
    exact inv_xPostTask h ..
  | postQp _ _ =>
    exact inv_xPostQp h ..
  | postTcadd _ _ _ _ _ | postTcset _ _ _ _ _ =>
    exact inv_tcPost h ..
  | postTcrd _ _ _ _ _ =>
    exact inv_xPostTcrd h ..
  | postTcwait _ _ _ _ _ =>
    exact inv_xPostTcwait h ..
  | postWst _ _ =>
    exact inv_xPostWst h ..

/-- A word runs in its frame: the table of effects agrees with the meaning of every word. -/
theorem exec_of_wordEffect {i : Instr} {x : State → Eff} (hx : wordEffect i = some x) (s : State) :
    exec i s = runWord i x s := by
  cases i <;> simp only [wordEffect, reduceCtorEq, Option.some.injEq] at hx <;> subst hx <;> rfl

theorem inv_runWord {s : State} (h : s.Inv) (i : Instr) {x : State → Eff} (hx : ∀ t : State, t.Inv → (x t).Inv) :
    NextInv (runWord i x s) := ⟨_, rfl, settle_inv h (wordEff_inv h hx)⟩
theorem inv_runNear {s : State} (h : s.Inv) (n : Near) : NextInv (runNear n (nearEffect n) s) :=
  ⟨_, rfl, settle_inv h (wordEff_inv h fun _ ht => inv_nearEffect ht n)⟩

/-! ### Bundles -/

@[simp] theorem State.inv_enterBundle (s : State) (w : W32) : (s.enterBundle w).Inv ↔ s.Inv := by simp [State.enterBundle]

/-- The slots of a bundle that execute keep the invariant. -/
theorem inv_activeSlots {h : W32} {s t : State} {is : List (Nat × Instr)} {x : SlotRun} (hx : x ∈ activeSlots h s is)
    (ht : t.Inv) : (x.at_ t).Inv := by
  obtain ⟨p, -, hp⟩ := List.mem_filterMap.1 hx
  dsimp only at hp
  split at hp
  · obtain rfl := Option.some.inj hp; trivial
  split at hp
  · cases hp
  split at hp
  · cases hp
  next hf =>
    obtain rfl := Option.some.inj hp
    unfold SlotRun.at_
    dsimp only
    split
    · trivial
    · exact inv_wordEffect (by exact ht) hf

/-- Slots that execute one after the other keep the invariant when each does. -/
theorem inv_walkSlots {s : State} (h : s.Inv) (xs : List SlotRun) (c : Option SlotRun) {t : State} (ht : t.Inv)
    (hxs : ∀ x ∈ xs, ∀ u : State, u.Inv → (x.at_ u).Inv) (hc : ∀ x ∈ c, ∀ u : State, u.Inv → (x.at_ u).Inv) :
    (walkSlots s t xs c).2.Inv := by
  induction xs generalizing t c with
  | nil =>
    cases c with
    | none => exact ht
    | some x => exact hc x rfl t ht
  | cons x xs ih =>
    have hx := hxs x (.head _)
    have hxs y (hy : y ∈ xs) := hxs y (.tail _ hy)
    unfold walkSlots
    split
    · have := hx s h
      split
      · exact ih _ ht hxs (fun y hy => by cases hy; exact hx)
      · exact this
    · have := hx t ht
      split
      · next hu => rw [hu] at this; exact ih _ this hxs hc
      · exact this

theorem inv_slotsEff {s : State} (h : s.Inv) {xs : List SlotRun} (hxs : ∀ x ∈ xs, ∀ u : State, u.Inv → (x.at_ u).Inv) :
    (slotsEff s xs).2.Inv := by
  unfold slotsEff
  split
  · trivial
  · exact inv_walkSlots h _ _ h hxs (by simp)

theorem State.Inv.issueBundle {s : State} (h : s.Inv) (g : Nat) (w : W32) (ws : List W32) : (s.issueBundle g w ws).Inv := by
  unfold State.issueBundle
  split
  · exact State.Inv.take (by exact h) _
  · next is _ =>
    extract_lets r
    have hr : r.2.Inv := inv_slotsEff (by simpa) fun _ hx _ ht => inv_activeSlots hx ht
    clear_value r
    split
    · next ht => rw [ht] at hr; exact hr
    · exact settle_inv (by exact h) hr
theorem inv_execBundleIssue {s : State} (h : s.Inv) (w : W32) (ws : List W32) : NextInv (execBundleIssue w ws s) := by
  unfold execBundleIssue
  split
  · simpa using h.issueBundle ..
  · rw [nextInv_next]; exact State.Inv.take (by exact h) _
theorem inv_execUnassignedOpcode {s : State} (h : s.Inv) (w : W32) : NextInv (execUnassignedOpcode w s) := by
  unfold execUnassignedOpcode
  rw [nextInv_next]; exact State.Inv.take (by exact h) _

/-! ### Waits, loops and freezes -/

theorem inv_retry {s : State} (h : s.Inv) (w : Who) : NextInv (s.retry w) := by
  unfold State.retry
  split
  · simpa
  · exact inv_runNear h _
  · split
    · next hx => exact inv_runWord h _ fun _ ht => inv_wordEffect ht hx
    · simpa
  · split
    · simpa using h.issueBundle ..
    · simpa
theorem inv_execWaitSatisfied {s : State} (h : s.Inv) (w : Who) : NextInv (execWaitSatisfied w s) := by
  unfold execWaitSatisfied
  split
  · simpa
  · extract_lets t
    have ht : t.Inv := h
    split
    · rw [nextInv_next]; split <;> simpa
    · exact inv_retry ht w
theorem inv_execLoopIterationEnd {s : State} (h : s.Inv) (w : Who) : NextInv (execLoopIterationEnd w s) := by
  unfold execLoopIterationEnd
  extract_lets q
  rw [nextInv_next]; split <;> simpa
@[simp] theorem State.inv_unfreeze (s : State) (g : Nat) (f : Freeze) : (s.unfreeze g f).Inv ↔ s.Inv := Iff.rfl
theorem inv_thaw {s : State} (h : s.Inv) (g : Nat) (f : Freeze) : NextInv (s.thaw g f) := by
  unfold State.thaw
  extract_lets t
  have ht : t.Inv := h
  split
  · simpa
  · exact inv_retry ht _
theorem inv_execLateResultReady {s : State} (h : s.Inv) (g : Nat) : NextInv (execLateResultReady g s) := by
  unfold execLateResultReady
  split
  · simpa
  · next f _ =>
    split
    · simpa
    · obtain ⟨t, e, ht⟩ := inv_thaw h g f
      rw [e]
      dsimp only
      rw [nextInv_next]
      split
      · exact h
      · exact ht
@[simp] theorem State.inv_goLate (s : State) (g : Nat) (u : Late) : (s.goLate g u).Inv ↔ s.Inv := by
  unfold State.goLate
  extract_lets c
  split
  · split <;> simp
  · rfl
theorem inv_execWatchdog {s : State} (h : s.Inv) (g : Nat) : NextInv (execWatchdog g s) := by
  unfold execWatchdog
  split
  · simpa
  · split
    · simpa
    · extract_lets unit t
      have ht : t.Inv := h
      rw [nextInv_next, State.inv_fill]; exact ht.take _

end Sys2Proof.Machine
end

section
/-! ## The invariant: cycles, admission, the host, the peel and node commands (O59) -/
namespace Sys2Proof.Machine

/-! ### A cycle and the start of a turn -/

@[simp] theorem State.Inv.writeDue {s : State} (h : s.Inv) : s.writeDue.Inv := by
  unfold State.writeDue
  extract_lets ready rest
  exact State.Inv.foldl (by exact h) (fun _ _ ht => ht.writeRecord ..) _
@[simp] theorem State.Inv.tick {s : State} (h : s.Inv) : s.tick.Inv := State.Inv.writeDue (by simpa)
@[simp] theorem State.inv_reach (s : State) (p : Option Spot) : (s.reach p).Inv ↔ s.Inv := by
  unfold State.reach; split <;> rfl
@[simp] theorem State.inv_stepUsed (s : State) (w : Who) : (s.stepUsed w).Inv ↔ s.Inv := by
  unfold State.stepUsed
  split
  · split <;> simp
  · rfl
@[simp] theorem State.inv_askIslands (s : State) (is : List Nat) : (is.foldl State.askIsland s).Inv ↔ s.Inv :=
  State.inv_foldl State.inv_askIsland is s
@[simp] theorem State.inv_takeTurn (s : State) (w : Who) (a : Act) : (s.takeTurn w a).Inv ↔ s.Inv := by
  unfold State.takeTurn
  extract_lets t
  have ht : t.Inv ↔ s.Inv := by simp [t]
  split <;> simp [ht]
@[simp] theorem State.inv_takeEvent (s : State) (i : Instr) : (s.takeEvent i).Inv ↔ s.Inv := by
  unfold State.takeEvent
  extract_lets t
  have ht : t.Inv ↔ s.Inv := by simp [t]
  split
  · split
    · split <;> simp [ht]
    · exact ht
  · simp [ht]
  · exact ht
theorem State.Inv.onTurn {s : State} (h : s.Inv) (w : Who) : (s.onTurn w).Inv := by
  unfold State.onTurn
  extract_lets t
  have ht : t.Inv := h
  split
  · exact ht.tick
  · exact ht

/-! ### Records, releases and retirement -/

@[simp] theorem State.inv_settleReady (s : State) (n : Nat) : (s.settleReady n).Inv ↔ s.Inv := by
  unfold State.settleReady
  split
  · split <;> simp
  · rfl
theorem State.Inv.releaseOne {s t : State} {src p g nid : Nat} {b : Option (Nat × Nat)} (h : s.Inv)
    (ht : s.releaseOne src p g nid b = some t) : t.Inv := by
  unfold State.releaseOne at ht
  split at ht
  · extract_lets u at ht
    have hu : u.Inv := h
    split at ht
    · obtain rfl := Option.some.inj ht; simpa
    · obtain rfl := Option.some.inj ht; simpa
  · split at ht
    · obtain rfl := Option.some.inj ht; simpa
    · cases ht
@[simp] theorem State.inv_dropEntry (s : State) (n : Nat) : (s.dropEntry n).Inv ↔ s.Inv := Iff.rfl
@[simp] theorem State.inv_bindWs (s : State) (p n : Nat) (up : Bool) : (s.bindWs p n up).Inv ↔ s.Inv := s.inv_setPart
@[simp] theorem State.inv_unbindWs (s : State) (e : Entry) : (s.unbindWs e).Inv ↔ s.Inv := by
  unfold State.unbindWs; split <;> simp
@[simp] theorem State.inv_unbindBars (s : State) (n c : Nat) : (s.unbindBars n c).Inv ↔ s.Inv := Iff.rfl
@[simp] theorem State.inv_freeCores (s : State) (n : Nat) (gs : List Nat) : (s.freeCores n gs).Inv ↔ s.Inv := by
  refine State.inv_foldl (fun t g => ?_) gs s
  split
  · split <;> simp
  · rfl
/-- A partition's hidden saves are no part of the invariant. -/
theorem State.Inv.setHidden {s t : State} (h : s.Inv) (ht : t.Inv) (p : Nat) (m : Map Core) :
    (t.setPart p { s.part p with hidden := m }).Inv := ht.setPart p (h.2.2 p)
theorem State.Inv.freeSaves {s : State} (h : s.Inv) (p : Nat) (ks : List Nat) : (s.freeSaves p ks).Inv :=
  State.Inv.foldl h (fun _ _ ht => ht.setHidden (ht.store ..) ..) _
@[simp] theorem State.inv_answer (s : State) (k r : Nat) : (s.answer k r).Inv ↔ s.Inv := by
  unfold State.answer; split <;> simp
theorem State.inv_answers (s : State) (ks : List Nat) (r : Nat) : (ks.foldl (fun s k => s.answer k r) s).Inv ↔ s.Inv :=
  State.inv_foldl (fun _ _ => State.inv_answer ..) ks s
@[simp] theorem State.inv_endPreempt (s : State) (e : Entry) : (s.endPreempt e).Inv ↔ s.Inv := s.inv_answers _ _
@[simp] theorem State.inv_skipNote (s : State) (n : Nat) (e : Entry) (a : Nat) (x : Exc) : (s.skipNote n e a x).Inv ↔ s.Inv := by
  simp [State.skipNote]
@[simp] theorem State.inv_holdRelease (s : State) (n : Nat) (e : Entry) (x : Held) : (s.holdRelease n e x).Inv ↔ s.Inv := Iff.rfl
theorem State.Inv.releaseFrom {n : Nat} {e : Entry} (i left : Nat) {s : State} (h : s.Inv) :
    (s.releaseFrom n e i left).Inv := by
  induction left generalizing i s with
  | zero => simpa [State.releaseFrom]
  | succ left ih =>
    unfold State.releaseFrom
    dsimp only
    split
    · simpa
    · exact ih _ (by simpa)
    · next v t ht =>
      have ht : t.Inv := h.dispRead ht
      have hu : ({ t with asked := none } : State).Inv := ht
      split
      · exact ih _ (by simpa)
      · split
        · next hv => exact ih _ (hu.releaseOne hv)
        · exact hu
theorem State.Inv.finishRetire {s : State} (h : s.Inv) (n : Nat) (e : Entry) : (s.finishRetire n e).Inv := by
  unfold State.finishRetire
  extract_lets free
  have hf (t : State) : (free t).Inv ↔ t.Inv := t.inv_dropEntry n
  split
  · exact State.Inv.releaseFrom _ _ h
  · split
    · split <;> simpa [hf]
    · simpa [hf]
  · exact h
  · split
    · simpa [hf]
    · split
      · next ht => rw [hf]; exact h.releaseOne ht
      · simpa
theorem State.Inv.retire {s : State} (h : s.Inv) (n : Nat) (e : Entry) : (s.retire n e).Inv :=
  State.Inv.finishRetire (by simpa) n e
theorem inv_execNodeRetire {s : State} (h : s.Inv) (n : Nat) : NextInv (execNodeRetire n s) := by
  unfold execNodeRetire
  split
  · rw [nextInv_next]
    split
    · exact h.retire ..
    · exact h
  · simpa
theorem State.Inv.tryHeld {s t : State} {x : Held} (h : s.Inv) (ht : s.tryHeld x = some t) : t.Inv := h.releaseOne ht
theorem inv_execHeldRelease {s : State} (h : s.Inv) : NextInv (execHeldRelease s) := by
  unfold execHeldRelease
  split
  · split
    · simpa using h.finishRetire ..
    · simpa
  · next x _ =>
    extract_lets t y u
    have ht : t.Inv := by
      simp only [t]
      cases hx : s.tryHeld x with
      | none => exact h
      | some v => exact h.tryHeld hx
    have hu : u.Inv := ht
    split
    · simpa using hu.finishRetire ..
    · simpa

/-! ### Admission -/

@[simp] theorem State.inv_carryTask (s : State) (p n : Nat) : (s.carryTask p n).Inv ↔ s.Inv := by simp [State.carryTask]
@[simp] theorem State.inv_popRecord (s : State) (p : Nat) : (s.popRecord p).Inv ↔ s.Inv := s.inv_setPart
@[simp] theorem State.inv_rejectRecord (s : State) (p a : Nat) : (s.rejectRecord p a).Inv ↔ s.Inv := by simp [State.rejectRecord]
@[simp] theorem State.inv_admitNode (s : State) (p : Nat) (r : BitVec 512) (x : W64) : (s.admitNode p r x).Inv ↔ s.Inv := by
  unfold State.admitNode
  extract_lets g nid np e
  split
  · simp
  · split <;> simp
theorem inv_execNodeRecordAdmit {s : State} (h : s.Inv) (p : Nat) : NextInv (execNodeRecordAdmit p s) := by
  unfold execNodeRecordAdmit
  split
  · simpa
  · simpa
  · split
    · simpa
    · split <;> simpa
theorem inv_execReservedKindRecord {s : State} (h : s.Inv) (p : Nat) : NextInv (execReservedKindRecord p s) := by
  unfold execReservedKindRecord
  split
  · rw [nextInv_next]; split <;> simpa
  · simpa
theorem State.Inv.expandList {s : State} {p d : Nat} {x : List (Nat × Nat) × State} (h : s.Inv)
    (hx : s.expandList p d = .ok x) : x.2.Inv := by
  unfold State.expandList at hx
  split at hx
  · cases hx
  split at hx
  · cases hx
  split at hx
  · cases hx
  split at hx
  · cases hx
  · extract_lets runs t at hx
    obtain rfl := Except.ok.inj hx
    exact State.Inv.foldl h (fun _ _ ht => ht.shWr ..) _
theorem State.Inv.expand {s : State} (h : s.Inv) (n : Nat) (e : Entry) : (s.expand n e).Inv := by
  unfold State.expand
  split
  · simpa
  · next ht =>
    have ht := h.expandList ht
    dsimp only
    split
    · exact State.Inv.retire (by simpa) ..
    · simpa
theorem State.Inv.admitTile {s : State} (h : s.Inv) (p : Nat) (r : BitVec 512) (x : W64) : (s.admitTile p r x).Inv := by
  unfold State.admitTile
  split
  · exact h
  · extract_lets n c e t
    have ht : t.Inv := by simpa [t]
    split
    · exact ht.expand ..
    split
    · exact ht.retire ..
    · simpa
theorem inv_execTileRecordAdmit {s : State} (h : s.Inv) (p : Nat) : NextInv (execTileRecordAdmit p s) := by
  unfold execTileRecordAdmit
  split
  · split
    · simpa
    · split
      · simpa
      · simpa using h.admitTile ..
  · simpa
theorem inv_execRunTileDispatch {s : State} (h : s.Inv) (n : Nat) : NextInv (execRunTileDispatch n s) := by
  unfold execRunTileDispatch
  split
  · split
    · split
      · simpa
      · simpa
    · simpa
  · simpa

/-! ### Host and fabric -/

@[simp] theorem State.inv_send (s : State) (m : Sent) : (s.send m).Inv ↔ s.Inv := Iff.rfl
@[simp] theorem State.inv_refuseHost (s : State) (w : Bool) (m : Sent) : (s.refuseHost w m).Inv ↔ s.Inv := by
  unfold State.refuseHost; split <;> rfl
theorem State.Inv.putRuns {s : State} (h : s.Inv) (v : Nat) (rs : List (Nat × Nat)) : (s.putRuns v rs).Inv := by
  induction rs generalizing s v with
  | nil => exact h
  | cons r rs ih => exact ih (h.store ..) _
theorem State.Inv.putAt {s : State} (h : s.Inv) (ks : List Nat) (v : Nat) : (s.putAt ks v).Inv := h.putRuns ..
theorem State.Inv.hostBytes {s : State} (h : s.Inv) (p : Nat) (w : Bool) (ks : List Nat) (d : Nat) :
    (s.hostBytes p w ks d).Inv := by
  unfold State.hostBytes
  extract_lets t
  have ht : t.Inv := (State.inv_foldl State.inv_wakeKey ks s).2 h
  split
  · exact ht.putAt ..
  · split
    · exact ht
    · rw [State.inv_send]; split <;> simpa
@[simp] theorem State.inv_doorbell (s : State) (p : Nat) : (s.doorbell p).Inv ↔ s.Inv := s.inv_setPart
theorem inv_execHostDoorbell {s : State} (h : s.Inv) (p : Nat) : NextInv (execHostDoorbell p s) := by
  unfold execHostDoorbell
  rw [nextInv_next]; split <;> simpa
theorem State.Inv.bar0 {s : State} (h : s.Inv) (p : Nat) (w : Bool) (o z : Nat) (d : W64) : (s.bar0 p w o z d).Inv := by
  unfold State.bar0
  extract_lets b
  split_ifs
  · simpa
  · exact h.hostBytes ..
  · simpa
  · simpa
  · exact h
  · exact h
  · exact h
theorem inv_execHostBar0Access {s : State} (h : s.Inv) (p : Nat) (w : Bool) (o z : Nat) (d : W64) :
    NextInv (execHostBar0Access p w o z d s) := by
  unfold execHostBar0Access
  rw [nextInv_next]
  split
  · simpa
  · exact h.bar0 ..
theorem State.Inv.bar2 {s : State} (h : s.Inv) (p : Nat) (w : Bool) (a : W64) (z : Nat) (d : List Byte) :
    (s.bar2 p w a z d).Inv := by
  unfold State.bar2
  split
  · exact h.hostBytes ..
  · simpa
theorem inv_execHostBar2Access {s : State} (h : s.Inv) (p : Nat) (w : Bool) (a : W64) (z : Nat) (d : List Byte) :
    NextInv (execHostBar2Access p w a z d s) := by
  unfold execHostBar2Access
  rw [nextInv_next]
  split
  · simpa
  · exact h.bar2 ..
@[simp] theorem State.inv_onPort (s : State) (n : Nat) (f : Port → Port) : (s.onPort n f).Inv ↔ s.Inv := Iff.rfl
theorem inv_execDrainFlitSend {s : State} (h : s.Inv) (n : Nat) : NextInv (execDrainFlitSend n s) := by
  unfold execDrainFlitSend
  rw [nextInv_next]; split <;> simpa
theorem inv_execPeerDrainRequest {s : State} (h : s.Inv) (n : Nat) : NextInv (execPeerDrainRequest n s) := by
  unfold execPeerDrainRequest
  rw [nextInv_next]; split <;> simpa
theorem inv_execDrainConfirm {s : State} (h : s.Inv) (n : Nat) : NextInv (execDrainConfirm n s) := by
  unfold execDrainConfirm
  rw [nextInv_next]; split <;> simpa
theorem inv_execFabricTimeout {s : State} (h : s.Inv) (n : Nat) : NextInv (execFabricTimeout n s) := by
  simpa [execFabricTimeout]
theorem inv_execFabricPortUp {s : State} (h : s.Inv) (n : Nat) : NextInv (execFabricPortUp n s) := by
  unfold execFabricPortUp
  dsimp only
  rw [nextInv_next]; split <;> simpa
theorem inv_execFabricPortDown {s : State} (h : s.Inv) (n : Nat) : NextInv (execFabricPortDown n s) := by
  simpa [execFabricPortDown]
theorem inv_execPeerPortReopen {s : State} (h : s.Inv) (n : Nat) : NextInv (execPeerPortReopen n s) := by
  unfold execPeerPortReopen
  rw [nextInv_next]; split <;> simpa
theorem State.Inv.atPeer {s : State} (h : s.Inv) (port p : Nat) (c : Bool) (a : W64) (n : Nat) (w : Bool)
    {f : List Nat → State} (hf : ∀ ks, (f ks).Inv) : (s.atPeer port p c a n w f).Inv := by
  unfold State.atPeer
  split
  · exact hf _
  · simpa
theorem State.Inv.peerUpdate {s : State} (h : s.Inv) (port p : Nat) (c : Bool) (a : W64) (n : Nat) (f : Nat → Except Nat Nat) :
    (s.peerUpdate port p c a n f).Inv := by
  refine h.atPeer _ _ _ _ _ _ fun ks => ?_
  split
  · simpa
  · split
    · exact h.putAt ..
    · simpa
theorem State.Inv.peerLines {s : State} (h : s.Inv) (ks : List Nat) (d : List Byte) (sb : List W32) : (s.peerLines ks d sb).Inv :=
  State.Inv.foldl h (fun _ _ ht => ht.setAnyLine ..) _
theorem State.Inv.peerReq {s : State} (h : s.Inv) (port : Nat) (r : PeerReq) : (s.peerReq port r).Inv := by
  unfold State.peerReq
  split
  · refine h.atPeer _ _ _ _ _ _ fun ks => ?_
    split
    · exact h.peerLines ..
    · exact h.putAt ..
  · exact h.peerUpdate ..
  · exact h.peerUpdate ..
  · exact h.peerUpdate ..
  · refine h.atPeer _ _ _ _ _ _ fun ks => ?_
    dsimp only
    split
    · simpa
    · split
      · next ht => exact h.sketchStage ht
      · simpa
  · refine h.atPeer _ _ _ _ _ _ fun ks => ?_
    split
    · split <;> simpa
    · simpa
theorem inv_execFabricPeerRequest {s : State} (h : s.Inv) (port : Nat) (r : PeerReq) : NextInv (execFabricPeerRequest port r s) := by
  unfold execFabricPeerRequest
  extract_lets p
  split
  · simpa
  · split
    · simpa
    · simpa using h.peerReq ..

/-! ### Copies of a dispatch -/

theorem State.Inv.loadLine {s t : State} {n p g a l : Nat} (h : s.Inv) (ht : s.loadLine n p g a l = .ok t) : t.Inv := by
  unfold State.loadLine at ht
  split at ht
  · cases ht
  · split at ht
    · cases ht
    · extract_lets sb r at ht
      obtain rfl := Except.ok.inj ht
      exact State.Inv.setLine (by simpa [r]) ..
theorem State.Inv.loadLines {n p g : Nat} (k : Nat) {a l : Nat} {s t : State} (h : s.Inv)
    (ht : s.loadLines n p g a l k = .ok t) : t.Inv := by
  induction k generalizing s a l with
  | zero => cases ht; exact h
  | succ k ih =>
    unfold State.loadLines at ht
    split at ht
    · cases ht
    · next hu => exact ih (h.loadLine hu) ht
theorem State.Inv.loadAll {n p g : Nat} (xs : List Load) {s t : State} (h : s.Inv) (ht : s.loadAll n p g xs = .ok t) : t.Inv := by
  induction xs generalizing s with
  | nil => cases ht; exact h
  | cons x xs ih =>
    unfold State.loadAll at ht
    split at ht
    · cases ht
    · next hu => exact ih (State.Inv.loadLines _ h hu) ht
theorem State.Inv.loadGang {n p : Nat} {xs : List Load} (gs : List Nat) {s t : State} (h : s.Inv)
    (ht : s.loadGang n p xs gs = .ok t) : t.Inv := by
  induction gs generalizing s with
  | nil => cases ht; exact h
  | cons g gs ih =>
    unfold State.loadGang at ht
    split at ht
    · cases ht
    · next hu => exact ih (State.Inv.loadAll _ h hu) ht

/-! ### The peel -/

theorem State.Inv.putLines {s : State} (h : s.Inv) (k n : Nat) (bs : List Byte) : (s.putLines k n bs).Inv := by
  induction n generalizing s k bs with
  | zero => exact h
  | succ n ih => exact ih (h.setLine ..) ..
theorem State.Inv.putRegion {s : State} (h : s.Inv) (k : Nat) (bs : List Byte) : (s.putRegion k bs).Inv := h.putLines ..
@[simp] theorem State.inv_endSteals (s : State) (g : Nat) : (s.endSteals g).Inv ↔ s.Inv := Iff.rfl
theorem State.Inv.saveSpad {s : State} (h : s.Inv) (g slot b : Nat) : (s.saveSpad g slot b).Inv := by
  unfold State.saveSpad
  extract_lets bad sides t u
  have ht : t.Inv := State.Inv.foldl h (fun _ _ ht => ht.putRegion ..) _
  have hu : u.Inv := ht.putRegion ..
  exact (State.inv_foldl (fun _ _ => by simp) _ u).2 hu
theorem State.Inv.saveCore {s : State} (h : s.Inv) (n : Nat) (e : Entry) (v r g slot : Nat) : (s.saveCore n e v r g slot).Inv := by
  unfold State.saveCore
  extract_lets base c bytes bars head t u v x
  have ht : t.Inv := h.saveSpad ..
  have hu : u.Inv := State.Inv.foldl ht (fun _ _ ht => ht.putRegion ..) _
  have hv : v.Inv := (hu.putRegion ..).putRegion ..
  exact State.Inv.setPart hv _ (hv.2.2 _)
theorem State.Inv.saveGang {s : State} (h : s.Inv) (n : Nat) (e : Entry) (v : Nat) (ks : List Nat) : (s.saveGang n e v ks).Inv :=
  State.Inv.foldl h (fun _ _ ht => ht.saveCore ..) _
@[simp] theorem State.inv_releaseGang (s : State) (n : Nat) (e : Entry) : (s.releaseGang n e).Inv ↔ s.Inv := by
  simp only [State.releaseGang, State.inv_dropPreloads, State.inv_unbindBars]
  exact State.inv_foldl (fun t g => (t.endSteals g).inv_setCore g _) _ s
@[simp] theorem State.inv_haltUnsaved (s : State) (n : Nat) (e : Entry) : (s.haltUnsaved n e).Inv ↔ s.Inv := by
  simp [State.haltUnsaved]
@[simp] theorem State.inv_noSlots (s : State) (n : Nat) (e : Entry) : (s.noSlots n e).Inv ↔ s.Inv := by
  unfold State.noSlots
  split
  · simp
  · exact State.inv_answers ..
theorem State.Inv.savePeel {s : State} (h : s.Inv) (n : Nat) (e : Entry) : (s.savePeel n e).Inv := by
  unfold State.savePeel
  extract_lets slots running t u e1
  have hu : u.Inv := by
    simp only [u, State.inv_releaseGang, State.inv_releaseCores]; exact h.saveGang ..
  split
  · simpa
  · split
    · exact hu
    · exact (State.inv_answers ..).2 hu
theorem inv_execPeelSave {s : State} (h : s.Inv) (n : Nat) : NextInv (execPeelSave n s) := by
  have hp (e : Entry) : NextInv (.next (if s.peelReady e then s.savePeel n e else s)) := by
    rw [nextInv_next]
    split
    · exact h.savePeel ..
    · exact h
  unfold execPeelSave
  split
  · simpa
  · split
    · simpa
    split
    · split
      · simpa
      split
      · simpa
      · exact hp _
    split
    · exact hp _
    · simpa
theorem State.Inv.restoreCore {s : State} (h : s.Inv) (p slot g : Nat) (f : Nat → Nat) (b : List (Nat × Nat)) :
    (s.restoreCore p slot g f b).Inv :=
  (State.inv_setCore ..).2 (State.Inv.foldl h (fun _ _ ht => ht.setLine ..) _)
theorem State.Inv.restoreGang {s : State} (h : s.Inv) (n : Nat) (e : Entry) (gs ks : List Nat) : (s.restoreGang n e gs ks).Inv := by
  unfold State.restoreGang
  extract_lets f head ps bars cl left t u v
  have ht : t.Inv := State.Inv.foldl h (fun _ _ ht => ht.restoreCore ..) _
  have hu : u.Inv := (State.inv_foldl (fun v _ => v.inv_setCluster _ _) _ t).2 ht
  exact hu.freeSaves ..

/-! ### Node commands -/

/-- A node command keeps the invariant when what it does to its node does. -/
theorem State.Inv.onNode {s : State} (h : s.Inv) (k op : Nat) (tile : Bool) (g nid : Nat) {f : Nat → Entry → State}
    (hf : ∀ n e, (f n e).Inv) : (s.onNode k op tile g nid f).Inv := by
  unfold State.onNode
  split
  · exact h
  · split
    · simpa
    · exact hf ..
theorem inv_execNcmdPreempt {s : State} (h : s.Inv) (k : Nat) (t : Bool) (g n : Nat) : NextInv (execNcmdPreempt k t g n s) := by
  unfold execNcmdPreempt
  rw [nextInv_next]
  refine h.onNode _ _ _ _ _ fun n e => ?_
  split_ifs
  · simpa
  · simpa
  · split
    · exact (State.inv_setHearth (by rfl)).2 h
    · exact h
theorem inv_execNcmdResume {s : State} (h : s.Inv) (k : Nat) (t : Bool) (g n : Nat) : NextInv (execNcmdResume k t g n s) := by
  unfold execNcmdResume
  rw [nextInv_next]
  refine h.onNode _ _ _ _ _ fun n e => ?_
  split_ifs <;> simpa
theorem State.Inv.clearHalted {s : State} (h : s.Inv) (n : Nat) (e : Entry) : (s.clearHalted n e).Inv := by
  refine (State.inv_foldl (fun t g => ?_) e.cores _).2 (h.freeSaves e.part e.saves)
  split
  · split <;> rfl
  · rfl
theorem State.inv_readied {s : State} (h : s.Inv) (n r : Nat) (e : Entry) :
    ({ s.setEntry n e with disp := { (s.setEntry n e).disp with ready := r } } : State).Inv := h
theorem inv_execNcmdRerun {s : State} (h : s.Inv) (k : Nat) (t : Bool) (g n : Nat) : NextInv (execNcmdRerun k t g n s) := by
  unfold execNcmdRerun
  rw [nextInv_next]
  refine h.onNode _ _ _ _ _ fun n e => ?_
  split_ifs
  · simpa
  · exact h
  · exact State.Inv.expand ((State.inv_answer ..).2 (State.inv_readied (h.clearHalted n e) ..)) ..
  · exact (State.inv_answer ..).2 (State.inv_readied (h.clearHalted n e) ..)
theorem inv_execNcmdDiscard {s : State} (h : s.Inv) (k : Nat) (t : Bool) (g n : Nat) : NextInv (execNcmdDiscard k t g n s) := by
  unfold execNcmdDiscard
  rw [nextInv_next]
  refine h.onNode _ _ _ _ _ fun n e => ?_
  split_ifs
  · simpa
  · exact h
  · simpa using h.clearHalted n e
theorem State.Inv.clearCluster {s : State} (h : s.Inv) (c : Nat) : (s.clearCluster c).Inv := by
  unfold State.clearCluster
  exact (State.inv_setCluster ..).2 (State.inv_withMem h (Memory.wf_clearRange _ _ h.1) ..)
theorem inv_execNcmdClear {s : State} (h : s.Inv) (k c : Nat) : NextInv (execNcmdClear k c s) := by
  unfold execNcmdClear
  split
  · split
    · split
      · simpa
      · simpa using h.clearCluster c
    · simpa
  · simpa
theorem inv_execNodeCommandComplete {s : State} (h : s.Inv) (k : Nat) : NextInv (execNodeCommandComplete k s) := by
  unfold execNodeCommandComplete
  split
  · split
    · dsimp only
      rw [nextInv_next]
      refine (State.inv_setPart ?_).2 ((State.inv_setHearth ?_).2 h) <;> rfl
    · simpa
  · simpa
end Sys2Proof.Machine
end

section
/-! ## The invariant: posted operations, the proofer, placing, power and the root core (O59) -/
namespace Sys2Proof.Machine

/-! ### Posted operations -/

theorem State.Inv.listWrite {s : State} (h : s.Inv) (g : Option Nat) (a n v : Nat) : (s.listWrite g a n v).Inv := by
  unfold State.listWrite
  split
  · exact h.shWr ..
  · exact h.store ..
theorem inv_withSketch {s : State} (h : s.Inv) (p : Nat) (a : W64) {f : Sketch → Applied} (hf : ∀ x, (f x).s.Inv) :
    (withSketch s p a f).s.Inv := Applied.inv_with h fun x _ => hf x
theorem inv_withHashes {s : State} (h : s.Inv) (p : Nat) (a : W64) {f : Sketch → Applied} (hf : ∀ x, (f x).s.Inv) :
    (withHashes s p a f).s.Inv := by
  refine inv_withSketch h p a fun x => ?_
  split
  · exact h
  · exact hf x
theorem inv_ptWrite {s : State} (h : s.Inv) (a n v : Nat) : (ptWrite s a n v).s.Inv := by
  unfold ptWrite
  split
  · exact h
  · dsimp only; exact h.shWr ..
@[simp] theorem State.inv_wsRefused (s : State) (g : Option Nat) (p : Posted) : (s.wsRefused g p).Inv ↔ s.Inv := by
  unfold State.wsRefused
  extract_lets n d
  split
  · simp
  · exact State.inv_postTo ..
@[simp] theorem State.inv_addOpSrc (s : State) (p : Posted) (o : Obj) : (s.addOpSrc p o).Inv ↔ s.Inv := by
  unfold State.addOpSrc; split <;> simp
@[simp] theorem State.inv_addSettle (s : State) (p : Posted) (r : Region) (lo hi : Nat) : (s.addSettle p r lo hi).Inv ↔ s.Inv := by
  unfold State.addSettle
  split
  · split <;> simp
  · rfl
@[simp] theorem State.inv_logPosted (s : State) (w : Who) (p : Posted) (xs : List (Nat × Nat)) :
    (s.logPosted w p xs).Inv ↔ s.Inv := State.inv_foldl (fun _ _ => State.inv_logAccess ..) xs s
/-- A weight-set form changes weight sets alone. -/
theorem Part.wsForm_pstate {p q : Part} {op : NearOp} {a b : W64} (h : p.wsForm op a b = some q) : q.pstate = p.pstate := by
  unfold Part.wsForm at h
  extract_lets n w at h
  split at h
  · obtain rfl := Option.some.inj h; rfl
  · obtain rfl := Option.some.inj h; rfl
  · obtain rfl := Option.some.inj h; rfl
  · cases h

/-- What an applied operation leaves keeps the invariant, whether it faults or not. -/
theorem State.Inv.applyOp {s : State} (h : s.Inv) (g : Option Nat) (p : Posted) : (s.applyOp g p).s.Inv := by
  unfold State.applyOp
  extract_lets layer
  split
  · exact h.nmaApply ..
  · exact h.nmaApply ..
  · exact inv_ptWrite h ..
  · exact inv_ptWrite h ..
  · split
    · exact h
    · dsimp only; exact h.ptClear ..
  · exact h.creelConfig ..
  · exact h
  · exact inv_withSketch h _ _ fun x => by dsimp only; exact h.skSeed ..
  · exact inv_withHashes h _ _ fun x => h.skUpdate ..
  · exact inv_withHashes h _ _ fun x => Applied.inv_with h fun i _ => Applied.inv_with h fun v _ => h.skUpdate ..
  · exact inv_withHashes h _ _ fun x => Applied.inv_with h fun i _ => Applied.inv_with h fun v _ => by
      dsimp only; exact h.listWrite ..
  · exact inv_withHashes h _ _ fun x => inv_withHashes h _ _ fun y => h.skAddTo ..
  · exact inv_withSketch h _ _ fun x => by dsimp only; exact h.skClear ..
  · exact Applied.inv_with h fun r _ => h.cellInit ..
  · exact Applied.inv_with h fun r _ => h.cellInsert ..
  · refine Applied.inv_with h fun r _ => ?_
    have hx := h.regionSettle r (bf p.a 16 12) (bf p.a 0 16)
    dsimp only
    split
    · simpa
    · exact hx
  · simpa
  · simpa
  all_goals
    split
    · next hq =>
      refine State.Inv.setPart ?_ _ ((Part.wsForm_pstate hq).trans_le (h.2.2 _))
      split <;> simpa
    · simpa

@[simp] theorem State.inv_setPosted (s : State) (g : Nat) (ps : List Posted) : (s.setPosted g ps).Inv ↔ s.Inv := Iff.rfl
theorem State.Inv.applyCore {s : State} (h : s.Inv) (g n : Nat) : (s.applyCore g n).Inv := by
  unfold State.applyCore
  split
  · exact h
  · next p _ =>
    have hr := h.applyOp (some g) p
    extract_lets r u t
    have hu : u.Inv := (State.inv_logPosted ..).2 hr
    have ht : t.Inv := hu
    split
    · simpa
    · split
      · exact hu
      · split
        · simpa
        · exact ht
theorem State.Inv.applyHearth {s : State} (h : s.Inv) (k n : Nat) : (s.applyHearth k n).Inv := by
  unfold State.applyHearth
  split
  · exact h
  · next p _ =>
    have hr := h.applyOp none p
    extract_lets r y t
    have ht : t.Inv := (State.inv_setHearth (by rfl)).2 hr
    split
    · simpa
    · simpa
@[simp] theorem State.inv_routineFail (s : State) (n : Nat) (e : Entry) (a : Nat) (x : Exc) : (s.routineFail n e a x).Inv ↔ s.Inv := by
  simp [State.routineFail]
theorem State.Inv.applyRoutine {s : State} (h : s.Inv) (n : Nat) : (s.applyRoutine n).Inv := by
  unfold State.applyRoutine
  split
  · exact h
  · split
    · extract_lets a
      split
      · exact h
      · simpa
      · next u ht =>
        have ht := State.Inv.dispRead (by exact h) ht
        dsimp only
        split
        · simpa
        · split
          · simpa
          · split
            · simpa
            · have hr := State.Inv.applyOp (s := { u with asked := none }) ht none
              split
              · simpa using hr _
              · simpa using hr _
    · exact h
theorem inv_execPostedOpApply {s : State} (h : s.Inv) (x : Poster) (n : Nat) : NextInv (execPostedOpApply x n s) := by
  unfold execPostedOpApply
  split
  · rw [nextInv_next]
    split
    · exact h.applyCore ..
    · exact h
  · rw [nextInv_next]
    split
    · exact h.applyHearth ..
    · exact h
  · simpa using h.applyRoutine _

/-! ### The proofer -/

@[simp] theorem State.inv_consumeRows (s : State) (c p b n : Nat) : (s.consumeRows c p b n).Inv ↔ s.Inv := by
  refine State.inv_foldl (fun t i => ?_) _ s
  split
  · split <;> simp
  · rfl
theorem inv_proofRow {s : State} (h : s.Inv) (c : Nat) (p : PCmd) (hd t : Nat) : (proofRow c p hd t s).s.Inv := by
  refine Ran.inv_with h fun xs _ => ?_
  extract_lets s1 s2
  have h2 : s2.Inv := by
    simp only [s2, s1, State.inv_consumeRows]
    split <;> simpa
  exact Ran.inv_with h2 fun es _ => Ran.inv_with h2 fun k _ => by dsimp only; exact h2.store ..
theorem inv_runProof {s : State} (h : s.Inv) (c : Nat) (p : PCmd) : (runProof c p s).s.Inv := by
  unfold runProof
  split
  · exact h
  · refine Ran.inv_with h fun hd _ => ?_
    split
    · exact h
    · exact Ran.inv_each (fun _ _ ht => inv_proofRow ht ..) _ h
@[simp] theorem State.inv_proofFault (s : State) (p : PCmd) (e : Exc) : (s.proofFault p e).Inv ↔ s.Inv := by
  unfold State.proofFault
  split
  · simp
  · split <;> simp
  · rfl
theorem inv_execProoferCommandStart {s : State} (h : s.Inv) (c : Nat) : NextInv (execProoferCommandStart c s) := by
  unfold execProoferCommandStart
  extract_lets x
  split
  · next p ps _ _ =>
    extract_lets r
    have hr : r.s.Inv := inv_runProof (by exact h) ..
    clear_value r
    split <;> simpa
  · simpa
@[simp] theorem State.inv_proofEnd (s : State) (n : Nat) : (s.proofEnd n).Inv ↔ s.Inv := by
  unfold State.proofEnd
  split
  · rfl
  · split <;> simp
theorem inv_execProoferCommandRetire {s : State} (h : s.Inv) (c : Nat) : NextInv (execProoferCommandRetire c s) := by
  unfold execProoferCommandRetire
  split
  · simpa
  · extract_lets y t
    have ht : t.Inv := h
    split
    · rw [nextInv_next]; split <;> simpa
    · simpa
    · simpa

/-! ### Placing -/

/-- The state that a decision leaves keeps the invariant. -/
def Placed.Inv : Placed → Prop
  | .yes s => s.Inv
  | _ => True

@[simp] theorem Placed.inv_no : Placed.no.Inv := trivial
@[simp] theorem Placed.inv_held (r : Request) : (Placed.held r).Inv := trivial
@[simp] theorem Placed.inv_yes (s : State) : (Placed.yes s).Inv ↔ s.Inv := Iff.rfl

@[simp] theorem State.inv_wake (s : State) (i : Nat) : (s.wake i).Inv ↔ s.Inv := by
  unfold State.wake; split <;> simp
@[simp] theorem State.inv_decided (s : State) (n p : Nat) : (s.decided n p).Inv ↔ s.Inv := Iff.rfl
@[simp] theorem State.inv_bindEntry (s : State) (e : Entry) : (s.bindEntry e).1.Inv ↔ s.Inv := by
  unfold State.bindEntry
  extract_lets w
  split <;> simp
@[simp] theorem State.inv_clearMarks (s : State) (gs : List Nat) (d p : Nat) (ws : List (Nat × Nat)) :
    (s.clearMarks gs d p ws).Inv ↔ s.Inv := Iff.rfl
theorem State.Inv.loadCores {n : Nat} {e : Entry} {d : Nat} {ops : List Nat} (gs : List Nat) {s t : State} (h : s.Inv)
    (ht : s.loadCores n e d ops gs = .ok t) : t.Inv := by
  induction gs generalizing s with
  | nil => cases ht; exact h
  | cons g gs ih =>
    unfold State.loadCores at ht
    split at ht
    · cases ht
    · next hu => exact ih (State.Inv.loadAll _ h hu) ht
@[simp] theorem State.inv_consumeMarks (s : State) (n : Nat) (e : Entry) (gs : List Nat) : (s.consumeMarks n e gs).Inv ↔ s.Inv :=
  State.inv_foldl (fun _ _ => State.inv_setCore ..) gs s
@[simp] theorem State.inv_refuseStart (s : State) (n : Nat) (e : Entry) (gs : List Nat) (x : Exc) :
    (s.refuseStart n e gs x).Inv ↔ s.Inv := by simp [State.refuseStart]
@[simp] theorem State.inv_bindBars (s : State) (n c : Nat) (bs : List (Nat × Nat)) : (s.bindBars n c bs).Inv ↔ s.Inv :=
  State.inv_foldl (fun _ _ => State.inv_setCluster ..) bs s
@[simp] theorem State.inv_begin_ (s : State) (n : Nat) (e : Entry) (d : Nat) (ops gs bs : List Nat) :
    (s.begin_ n e d ops gs bs).Inv ↔ s.Inv := by
  simp only [State.begin_, State.inv_setEntry, State.inv_acquireCores]
  rw [State.inv_foldl fun _ _ => State.inv_setCore ..]
  simp
@[simp] theorem State.inv_refuseWs (s : State) (n : Nat) (e : Entry) (gs : List Nat) : (s.refuseWs n e gs).Inv ↔ s.Inv := by
  simp [State.refuseWs]
theorem inv_startOn {s : State} (h : s.Inv) (n : Nat) (e : Entry) (d : Nat) (gs bs : List Nat) : (s.startOn n e d gs bs).Inv := by
  unfold State.startOn
  extract_lets t drop
  have ht : t.Inv := by simpa [t]
  split
  · simpa [drop]
  split
  · trivial
  · simpa [drop]
  split
  · trivial
  · simpa [drop]
  · next hu => simpa using State.Inv.loadCores _ ht hu
theorem State.Inv.resumeOn {s : State} (h : s.Inv) (n : Nat) (e : Entry) (gs bs : List Nat) : (s.resumeOn n e gs bs).Inv := by
  unfold State.resumeOn
  extract_lets t fail u
  have ht : t.Inv := by simpa [t]
  have hu : u.Inv := by simpa [u]
  split
  · exact ht
  split
  · exact ht
  · rw [State.inv_acquireCores]; exact hu.restoreGang ..
theorem inv_startGang {s : State} (h : s.Inv) (n : Nat) (e : Entry) : (s.startGang n e).Inv := by
  unfold State.startGang
  split
  · split
    · exact h.resumeOn ..
    · trivial
  · split
    · trivial
    · split
      · simpa
      · trivial
    · split
      · exact inv_startOn h ..
      · trivial
theorem inv_startProofer {s : State} (h : s.Inv) (n : Nat) (e : Entry) : (s.startProofer n e).Inv := by
  unfold State.startProofer
  split
  · trivial
  · dsimp only
    split
    · trivial
    · simpa
    · next ht => simpa using h.dispRead ht
theorem inv_startRoutine {s : State} (h : s.Inv) (n : Nat) (e : Entry) : (s.startRoutine n e).Inv := by
  unfold State.startRoutine
  split
  · trivial
  · simpa
  · next ht =>
    have ht := h.dispRead ht
    split <;> simpa
theorem inv_start {s : State} (h : s.Inv) (n : Nat) (e : Entry) : (s.start n e).Inv := by
  unfold State.start
  split
  · trivial
  · split
    · exact inv_startGang h ..
    · exact inv_startProofer h ..
    · exact inv_startRoutine h ..
/-- A search for a decision keeps the invariant when each decision does. -/
theorem inv_decideIn {f : State → Nat → Entry → Placed} (hf : ∀ (s : State) n e, s.Inv → (f s n e).Inv) (p : Nat)
    (xs : List (Nat × Entry)) {s : State} (h : s.Inv) : (decideIn f p s xs).2.Inv := by
  induction xs generalizing s with
  | nil => exact h
  | cons x xs ih =>
    obtain ⟨n, e⟩ := x
    have hd := hf { s with asked := e.held } n { e with held := none } h
    unfold decideIn
    split
    · exact ih h
    · exact ih h
    · next ht => rw [ht] at hd; exact hd
theorem inv_decideOver {f : State → Nat → Entry → Placed} (hf : ∀ (s : State) n e, s.Inv → (f s n e).Inv) (ps : List Nat)
    {s : State} (h : s.Inv) : (decideOver f s ps).Inv := by
  induction ps generalizing s with
  | nil => exact h
  | cons p ps ih =>
    have hd := inv_decideIn hf p (s.candidates p) h
    unfold decideOver
    split
    · next ht => rw [ht] at hd; exact hd
    · next ht => rw [ht] at hd; exact ih hd
theorem inv_execDispatch {s : State} (h : s.Inv) : NextInv (execDispatch s) := by
  unfold execDispatch
  rw [nextInv_next]; exact inv_decideOver (fun _ _ _ ht => inv_start ht ..) _ h
theorem inv_execReserving {s : State} (h : s.Inv) (k : Nat) : NextInv (execReserving k s) := by
  unfold execReserving
  extract_lets here can first
  clear_value first
  split
  · simpa
  · split <;> simpa
theorem inv_preloadIn {s : State} (h : s.Inv) (c half n : Nat) (e : Entry) (d : Nat) (ops : List Nat) :
    (s.preloadIn c half n e d ops).Inv := by
  unfold State.preloadIn
  extract_lets gs
  split
  · trivial
  · split
    · trivial
    · next ht =>
      have ht := State.Inv.loadGang _ h ht
      rw [Placed.inv_yes, State.inv_setEntry]
      exact (State.inv_foldl (fun _ _ => State.inv_setCore ..) _ _).2 ht
theorem inv_preloadOn {s : State} (h : s.Inv) (c n : Nat) (e : Entry) : (s.preloadOn c n e).Inv := by
  unfold State.preloadOn
  split
  · trivial
  split
  · trivial
  split
  · trivial
  · next d _ _ ops _ =>
    have hp := inv_preloadIn h c 0 n e d ops
    split
    · next ht => rw [ht] at hp; exact hp
    · exact inv_preloadIn h ..
theorem inv_execPreload {s : State} (h : s.Inv) (c : Nat) : NextInv (execPreload c s) := by
  unfold execPreload
  rw [nextInv_next]; exact inv_decideOver (fun _ _ _ ht => inv_preloadOn ht ..) _ h
theorem inv_execBudget {s : State} (h : s.Inv) (n : Nat) : NextInv (execBudget n s) := by
  unfold execBudget
  split
  · simpa
  · split
    · simpa
    split
    · rw [nextInv_next]; split <;> simpa
    split
    · simpa
    · simpa

/-! ### Power and errors -/

theorem inv_execEvcLate {s : State} (h : s.Inv) : NextInv (execEvcLate s) := by simpa [execEvcLate]
theorem inv_execUnlatchRaise {s : State} (h : s.Inv) : NextInv (execUnlatchRaise s) := by
  unfold execUnlatchRaise; rw [nextInv_next]; split <;> simpa
theorem inv_execUnlatchDrop {s : State} (h : s.Inv) : NextInv (execUnlatchDrop s) := by
  unfold execUnlatchDrop; rw [nextInv_next]; split <;> simpa
theorem State.Inv.clearDie {s : State} (h : s.Inv) (d : Nat) : (s.clearDie d).Inv :=
  State.inv_withMem h (Memory.wf_clearRange _ _ h.1) ..
theorem State.Inv.loseOff {s : State} (h : s.Inv) (i : Nat) : (s.loseOff i).Inv := by
  unfold State.loseOff
  split
  · next c _ =>
    refine (State.inv_foldl (fun t k => ?_) _ _).2 (h.clearCluster c)
    dsimp only
    split <;> simp
  · split
    · exact h.clearDie _
    split
    · exact (State.inv_foldl (fun t n => t.inv_onPort n _) _ s).2 h
    · exact h
theorem State.Inv.startIsland {s : State} (h : s.Inv) (i : Nat) : (s.startIsland i).Inv := (State.inv_setIsland ..).2 (h.loseOff i)
theorem inv_execIslandStart {s : State} (h : s.Inv) : NextInv (execIslandStart s) := by
  unfold execIslandStart
  split
  · rw [nextInv_next]
    split
    · exact h.startIsland _
    · exact h
  · simpa
theorem inv_execCoreGroupStart {s : State} (h : s.Inv) (c : Nat) : NextInv (execCoreGroupStart c s) := by
  unfold execCoreGroupStart
  extract_lets x
  rw [nextInv_next]; split <;> simpa
theorem inv_execIslandWake {s : State} (h : s.Inv) (i : Nat) : NextInv (execIslandWake i s) := by
  unfold execIslandWake; rw [nextInv_next]; split <;> simpa
theorem inv_execCorrectedError {s : State} (h : s.Inv) (b : Bucket) : NextInv (execCorrectedError b s) := by
  unfold execCorrectedError; rw [nextInv_next]; split <;> simpa
theorem inv_execBucketLeak {s : State} (h : s.Inv) : NextInv (execBucketLeak s) := by
  unfold execBucketLeak
  rw [nextInv_next]
  split
  · exact (State.inv_foldl State.inv_leak _ _).2 h
  · exact h
@[simp] theorem State.inv_setMls (s : State) (n v : Nat) : (s.setMls n v).Inv ↔ s.Inv := Iff.rfl
theorem inv_execMemoryLinkFail {s : State} (h : s.Inv) (n : Nat) : NextInv (execMemoryLinkFail n s) := by
  unfold execMemoryLinkFail
  extract_lets v
  rw [nextInv_next]; split <;> simpa
@[simp] theorem State.inv_retrainLink (s : State) (n : Nat) : (s.retrainLink n).Inv ↔ s.Inv := by
  unfold State.retrainLink
  extract_lets v
  split <;> simp
theorem inv_execLaneRetrain {s : State} (h : s.Inv) (k : LinkId) (l : Nat) : NextInv (execLaneRetrain k l s) := by
  unfold execLaneRetrain
  extract_lets b
  rw [nextInv_next]
  split
  · split <;> simpa
  · split <;> simpa
  · simpa
@[simp] theorem State.inv_errorAt (s : State) (x : ErrSite) : (s.errorAt x).Inv ↔ s.Inv := by
  unfold State.errorAt
  split
  · split <;> rfl
  all_goals simp
theorem inv_execUncorrectableError {s : State} (h : s.Inv) (x : ErrSite) : NextInv (execUncorrectableError x s) := by
  unfold execUncorrectableError; rw [nextInv_next]; split <;> simpa

/-! ### The root core -/

@[simp] theorem State.inv_onRoot (s : State) (f : Root → Root) : (s.onRoot f).Inv ↔ s.Inv := Iff.rfl
@[simp] theorem State.inv_identify (s : State) (f : Identity → Identity) : (s.identify f).Inv ↔ s.Inv := Iff.rfl
/-- Hearth cores stand at level H and partitions are EMPTY at reset; memory lists nothing (R285, R332). -/
theorem State.inv_reset : State.reset.Inv := ⟨Memory.wf_reset, fun _ => le_rfl, fun _ => Nat.zero_le 2⟩
theorem State.inv_powerOn (s : State) : s.powerOn.Inv := by
  unfold State.powerOn
  extract_lets r t
  have ht : t.Inv := State.inv_reset
  split
  · exact ht
  · simpa
theorem inv_execPowerOn (s : State) : NextInv (execPowerOn s) := by simp [execPowerOn, State.inv_powerOn]
@[simp] theorem State.inv_applyConfig (s : State) (b : List Byte) : (s.applyConfig b).Inv ↔ s.Inv := Iff.rfl
@[simp] theorem State.inv_runIslands (s : State) (is : List Nat) : (s.runIslands is).Inv ↔ s.Inv :=
  State.inv_foldl (fun _ _ => State.inv_setIsland ..) is s
/-- Training sets the registers of the memory links. -/
theorem State.inv_trained (s : State) (rate : Nat) :
    ((List.range 32).foldl (fun s n => s.setMls n (trainedLink rate n)) s).Inv ↔ s.Inv :=
  State.inv_foldl (fun t n => t.inv_setMls n _) _ s
theorem State.Inv.trainLinks {s t : State} {alt : Bool} (h : s.Inv) (ht : s.trainLinks alt = some t) : t.Inv := by
  have hu := (State.inv_trained s (if alt then 1 else s.cfgField 52 1)).2 h
  simp only [State.trainLinks, Option.ite_none_right_eq_some, Option.some.injEq] at ht
  obtain ⟨-, rfl⟩ := ht
  rw [State.inv_identify]
  exact hu
@[simp] theorem State.inv_markLeftOut (s : State) : s.markLeftOut.Inv ↔ s.Inv := Iff.rfl
theorem State.Inv.stage {s t : State} {im sig : List Byte} {r : Fin 8} (h : s.Inv) (ht : s.stage im sig r = some t) : t.Inv := by
  unfold State.stage at ht
  split at ht
  · obtain rfl := Option.some.inj ht; exact h
  · cases ht
/-- The hypervisor runs at level H (R331). -/
theorem State.Inv.runHypervisor {s : State} (h : s.Inv) (im : List Byte) : (s.runHypervisor im).Inv :=
  State.Inv.foldl (State.inv_withMem h (Memory.wf_writeBytes _ _ h.1) ..) (fun _ _ ht => ht.setHearth _ le_rfl) _
/-- A system image runs at level S (R331). -/
theorem State.Inv.runSystem {s : State} (h : s.Inv) (p : Nat) (im : List Byte) : (s.runSystem p im).Inv :=
  State.Inv.setHearth (State.inv_withMem h (Memory.wf_writeBytes _ _ h.1) ..) _ one_le_two
@[simp] theorem State.inv_leaveOut (s : State) (c : Nat) : (s.leaveOut c).Inv ↔ s.Inv := Iff.rfl
/-- The work of a boot step that finishes keeps the invariant. -/
theorem State.Inv.bootWork {s t : State} {n : Nat} {alt : Bool} {im sig : List Byte} {ok : Bool} (h : s.Inv)
    (ht : s.bootWork n alt im sig ok = some t) : t.Inv := by
  unfold State.bootWork at ht
  extract_lets u ifPassed at ht
  have hu : u.Inv := h
  have hp {v : State} (hv : v.Inv) (hi : ifPassed v = some t) : t.Inv := by
    simp only [ifPassed] at hi
    split at hi
    · cases hi; exact hv
    · cases hi
  split at ht
  · exact hu.stage ht
  · split at ht
    · obtain ⟨v, hv, rfl⟩ := Option.map_eq_some_iff.1 ht; simpa using hu.stage hv
    · cases ht
  · exact hp (by simpa) ht
  · exact hp hu ht
  · split at ht
    · exact hu.trainLinks ht
    · cases ht
  · exact hp hu ht
  · exact hp hu ht
  · obtain ⟨v, hv, rfl⟩ := Option.map_eq_some_iff.1 ht; exact (hu.stage hv).runHypervisor im
  · split at ht
    · obtain rfl := Option.some.inj ht; exact hu
    · exact hp (by simpa) ht
@[simp] theorem State.inv_setBoot (s : State) (n : Nat) (b : Boot) : (s.setBoot n b).Inv ↔ s.Inv := Iff.rfl
@[simp] theorem State.inv_nextStep (s : State) : s.nextStep.Inv ↔ s.Inv := Iff.rfl
theorem State.Inv.bootRecord {s : State} (h : s.Inv) (n : Nat) (im sig : List Byte) (ok : Bool) : (s.bootRecord n im sig ok).Inv := by
  unfold State.bootRecord
  split
  · exact h
  · exact h
  · extract_lets b t
    have ht : t.Inv := h
    split
    · next u hu => exact (ht.bootWork hu : u.Inv)
    · exact ht
theorem inv_execBootStep {s : State} (h : s.Inv) (im sig : List Byte) (ok : Bool) : NextInv (execBootStep im sig ok s) := by
  unfold execBootStep
  extract_lets r
  split
  · simpa
  split
  · simpa using h.bootRecord ..
  · rw [nextInv_next]
    split
    · next ht => exact (h.stage ht).runSystem _ im
    · exact h
theorem inv_execAltClear {s : State} (h : s.Inv) (c : List Byte) : NextInv (execAltClear c s) := by
  unfold execAltClear; split <;> simpa
theorem inv_execDebugToken {s : State} (h : s.Inv) (t : List Byte) : NextInv (execDebugToken t s) := by
  unfold execDebugToken
  split
  · simpa
  · split <;> simpa
theorem State.Inv.onIsland {s : State} (h : s.Inv) (i : Nat) {f : State → State} (hf : ∀ t : State, t.Inv → (f t).Inv) :
    (s.onIsland i f).Inv := by
  unfold State.onIsland
  split
  · exact hf _ (by simpa)
  · exact hf _ h
  · simpa
theorem State.Inv.onCore {s : State} (h : s.Inv) (g : Nat) {f : State → State} (hf : ∀ t : State, t.Inv → (f t).Inv) :
    (s.onCore g f).Inv := by
  unfold State.onCore
  split
  · split
    · exact h.onIsland _ hf
    · simpa
  · simpa
theorem State.Inv.onSave {s : State} (h : s.Inv) (p k o : Nat) {f : Nat → State → State}
    (hf : ∀ n (t : State), t.Inv → (f n t).Inv) : (s.onSave p k o f).Inv := by
  unfold State.onSave
  extract_lets n
  split
  · exact h.onIsland _ (hf n)
  · simpa
@[simp] theorem State.inv_wakeIdle (s : State) (i : Nat) : (s.wakeIdle i).Inv ↔ s.Inv := by
  unfold State.wakeIdle; split <;> simp
@[simp] theorem State.inv_writeSite (s : State) (g : Nat) (x : CoreSite) (v : W64) : (s.writeSite g x v).Inv ↔ s.Inv := by
  unfold State.writeSite; split <;> simp
theorem State.Inv.debugByte {s : State} (h : s.Inv) (k : Nat) : (s.debugByte k).Inv := by
  simpa [State.debugByte]
theorem State.Inv.debug {s : State} (h : s.Inv) (r : DebugReq) : (s.debug r).Inv := by
  unfold State.debug
  split
  · exact h.onCore _ fun _ ht => ht
  · exact h.onCore _ fun _ ht => ht
  · exact h.onCore _ fun _ ht => ht
  · exact h.onCore _ fun _ ht => ht
  · exact h.onCore _ fun _ ht => ht
  · exact h.onCore _ fun _ ht => ht.debugByte _
  · exact h.onCore _ fun _ ht => ht.store ..
  · exact h.onSave _ _ _ fun _ _ ht => ht.debugByte _
  · exact h.onSave _ _ _ fun _ _ ht => ht.store ..
  · split_ifs <;> simpa
  · exact h.onCore _ fun _ ht => ht
  · exact h.onCore _ fun _ ht => by simpa
  · split
    · simpa
    · split <;> simpa
  · simpa
theorem inv_execDebugAccess {s : State} (h : s.Inv) (r : DebugReq) : NextInv (execDebugAccess r s) := by
  unfold execDebugAccess
  simpa using h.debug r
@[simp] theorem State.inv_attest (s : State) (c : Nat) (d : List Byte) : (s.attest c d).Inv ↔ s.Inv := by
  unfold State.attest; split <;> simp

/-! ### Scrubbing and ingest -/

@[simp] theorem State.inv_crcConsume (s : State) (p b n : Nat) : (s.crcConsume p b n).Inv ↔ s.Inv := by
  unfold State.crcConsume
  split
  · split
    · split <;> simp
    · rfl
  · rfl
theorem State.Inv.setQuar {s : State} (h : s.Inv) (k st : Nat) (q : Bool) : (s.setQuar k st q).Inv := h.store ..
@[simp] theorem State.inv_digestNote (s : State) (p u i b d : Nat) : (s.digestNote p u i b d).Inv ↔ s.Inv := Iff.rfl
theorem State.Inv.scrubShard {s : State} (h : s.Inv) (p k e n : Nat) : (s.scrubShard p k e n).Inv := by
  unfold State.scrubShard
  split
  · exact h
  · split
    · exact h
    · rw [State.inv_digestNote]; exact State.Inv.setQuar (by simpa) ..
theorem State.Inv.scrubSlot {s : State} (h : s.Inv) (p k : Nat) : (s.scrubSlot p k).Inv := by
  unfold State.scrubSlot
  extract_lets w
  split
  · exact h
  · exact State.Inv.foldl h (fun _ _ ht => ht.scrubShard ..) _
theorem inv_execScrubPass {s : State} (h : s.Inv) (p : Nat) : NextInv (execScrubPass p s) := by
  unfold execScrubPass
  extract_lets x t
  have ht : t.Inv := State.Inv.foldl h (fun _ _ ht => ht.scrubSlot ..) _
  clear_value t
  split
  · rw [nextInv_next]; exact (State.inv_setPart (by rfl)).2 ht
  · simpa
theorem State.Inv.checkIngest {s : State} (h : s.Inv) (i : Ingest) : (s.checkIngest i).Inv := by
  unfold State.checkIngest
  extract_lets t
  have ht : t.Inv := h
  split
  · simpa
  · split
    · exact ht.setQuar ..
    · rw [State.inv_digestNote]; exact State.Inv.setQuar (by simpa) ..
theorem inv_execIngestCheck {s : State} (h : s.Inv) (p : Nat) : NextInv (execIngestCheck p s) := by
  unfold execIngestCheck
  split
  · simpa using h.checkIngest _
  · simpa

/-! ### Translation units, interrupts and register writes -/

theorem inv_execTranslationWalk {s : State} (h : s.Inv) (u : Unit1) (p : Nat) (a : W64) : NextInv (execTranslationWalk u p a s) := by
  unfold execTranslationWalk
  split
  · split
    · simpa
    · simpa
  · simpa
theorem inv_execTuInvalidation {s : State} (h : s.Inv) (u : Unit1) (k : Nat) : NextInv (execTuInvalidation u k s) := by
  unfold execTuInvalidation
  split
  · split
    · extract_lets t
      have ht : t.Inv := (State.inv_setTlb ..).2 h
      rw [nextInv_next]; exact (State.inv_setHearth (by rfl)).2 ht
    · simpa
  · simpa
/-- An interrupt is taken at level S or H (R286). -/
theorem Hearth.routed_le (x : Hearth) (b : Nat) : x.routed b ≤ 2 := by unfold Hearth.routed; split <;> omega
theorem inv_execInterruptEntry {s : State} (h : s.Inv) (k : Nat) : NextInv (execInterruptEntry k s) := by
  unfold execInterruptEntry
  extract_lets x
  split
  · split
    · rw [nextInv_next]; exact h.setHearth k (by rw [Hearth.enter_lv]; exact Hearth.routed_le ..)
    · simpa
  · simpa
theorem inv_regWrite {s : State} (h : s.Inv) (k n : Nat) (v : W64) : NextInv (regWrite k n v s) := by
  unfold regWrite regStep
  split
  · next ht =>
    split at ht
    · simpa using h.wrReg ht
    · cases ht
  · rw [nextInv_next]; exact State.Inv.take (by exact h) _
end Sys2Proof.Machine
end

section
/-! ## The invariant of every step (O59) -/
namespace Sys2Proof.Machine

/-! ### Every instruction and step -/

theorem inv_word {s : State} (h : s.Inv) {i : Instr} {x : State → Eff} (hx : wordEffect i = some x) : NextInv (exec i s) :=
  exec_of_wordEffect hx s ▸ inv_runWord h i fun _ ht => inv_wordEffect ht hx
theorem inv_attested {s : State} (h : s.Inv) (c : Nat) (d : List Byte) : NextInv (.next (s.attest c d)) := by simpa
/-- A register write under a condition. -/
theorem inv_regWriteIf {s : State} (h : s.Inv) (c : Prop) [Decidable c] (k n : Nat) (v : W64) :
    NextInv (if c then regWrite k n v s else .next s) := by
  split
  · exact inv_regWrite h ..
  · simpa

/-- Every instruction and every step answers a next state that keeps the invariant: no exception stops the model (R18,
R284). -/
theorem inv_exec {s : State} (h : s.Inv) (i : Instr) : NextInv (exec i s) := by
  cases i with
  | nmaMaxF32 a b c => exact inv_runNear h (.nmaMaxF32 a b c)
  | nmaSwapF32 a b c => exact inv_runNear h (.nmaSwapF32 a b c)
  | nmaCasF32 a b c => exact inv_runNear h (.nmaCasF32 a b c)
  | nmaLaddF32 a b c d => exact inv_runNear h (.nmaLaddF32 a b c d)
  | nmaLaddI32 a b c d => exact inv_runNear h (.nmaLaddI32 a b c d)
  | nmaLmaxF32 a b c d => exact inv_runNear h (.nmaLmaxF32 a b c d)
  | skSeed a b => exact inv_runNear h (.skSeed a b)
  | skUpd a b c => exact inv_runNear h (.skUpd a b c)
  | skUpdl a b c => exact inv_runNear h (.skUpdl a b c)
  | skQry a b c => exact inv_runNear h (.skQry a b c)
  | skQryl a b c => exact inv_runNear h (.skQryl a b c)
  | skAdd a b => exact inv_runNear h (.skAdd a b)
  | skClr a => exact inv_runNear h (.skClr a)
  | ocInit a b c d => exact inv_runNear h (.ocInit a b c d)
  | ocIns a b c => exact inv_runNear h (.ocIns a b c)
  | ocLdt a b c => exact inv_runNear h (.ocLdt a b c)
  | ocLds a b c => exact inv_runNear h (.ocLds a b c)
  | ocSettle a b => exact inv_runNear h (.ocSettle a b)
  | ocFold a b => exact inv_runNear h (.ocFold a b)
  | postTask a => exact inv_runNear h (.postTask a)
  | postQp a b => exact inv_runNear h (.postQp a b)
  | postTcadd a b c d e => exact inv_runNear h (.postTcadd a b c d e)
  | postTcset a b c d e => exact inv_runNear h (.postTcset a b c d e)
  | postTcrd a b c d e => exact inv_runNear h (.postTcrd a b c d e)
  | postTcwait a b c d e => exact inv_runNear h (.postTcwait a b c d e)
  | postWbeg a b => exact inv_runNear h (.postWbeg a b)
  | postWcom a => exact inv_runNear h (.postWcom a)
  | postWabn a => exact inv_runNear h (.postWabn a)
  | postWst a b => exact inv_runNear h (.postWst a b)
  | qpctlReset _ | qpctlEnable _ | qpctlDisable _ | partitionStart _ | partitionDestroy _ | cstgWrite _ _
  | scrbWrite _ _ | pptbWrite _ _ | privilegedRegisterWrite _ _ _ | ingtArm _ _ | ingtDisarm _ _ | mbctlAck _
  | mbctlSig _ | evcStart _ | evcUnlatchRequest _ =>
    exact inv_regWrite h ..
  | partitionCreate _ | partitionStop _ | fpsDrain _ _ | fpsReturn _ _ | islandRequestRun _ _ | islandRequestIdle _ _
  | islandRequestOff _ _ =>
    exact inv_regWriteIf h ..
  | spdmGetVersion | spdmGetCapabilities | spdmNegotiateAlgorithms | spdmGetDigests | spdmGetCertificate
  | spdmChallenge _ | spdmGetMeasurements _ =>
    exact inv_attested h ..
  | cStreamLanding _ => exact inv_execCStreamLanding h ..
  | lateResultReady _ => exact inv_execLateResultReady h ..
  | watchdog _ => exact inv_execWatchdog h ..
  | loopIterationEnd _ => exact inv_execLoopIterationEnd h ..
  | waitSatisfied _ => exact inv_execWaitSatisfied h ..
  | engineCommandStart _ _ => exact inv_execEngineCommandStart h ..
  | engineCommandRetire _ _ => exact inv_execEngineCommandRetire h ..
  | engineReplay _ _ => exact inv_execEngineReplay h ..
  | katTestRun _ => exact inv_execKatTestRun h ..
  | commandSteal _ _ => exact inv_execCommandSteal h ..
  | prooferCommandStart _ => exact inv_execProoferCommandStart h ..
  | prooferCommandRetire _ => exact inv_execProoferCommandRetire h ..
  | postedOpApply _ _ => exact inv_execPostedOpApply h ..
  | nodeRecordAdmit _ => exact inv_execNodeRecordAdmit h ..
  | tileRecordAdmit _ => exact inv_execTileRecordAdmit h ..
  | runTileDispatch _ => exact inv_execRunTileDispatch h ..
  | dispatch => exact inv_execDispatch h
  | preload _ => exact inv_execPreload h ..
  | reserving _ => exact inv_execReserving h ..
  | nodeRetire _ => exact inv_execNodeRetire h ..
  | heldRelease => exact inv_execHeldRelease h
  | budget _ => exact inv_execBudget h ..
  | peelSave _ => exact inv_execPeelSave h ..
  | translationWalk _ _ _ => exact inv_execTranslationWalk h ..
  | tuInvalidation _ _ => exact inv_execTuInvalidation h ..
  | entryArm _ => exact inv_execEntryArm h ..
  | csqPut _ _ => exact inv_execCsqPut h ..
  | csqPutredSum _ _ => exact inv_execCsqPutredSum h ..
  | csqPutredMax _ _ => exact inv_execCsqPutredMax h ..
  | csqPutredMin _ _ => exact inv_execCsqPutredMin h ..
  | csqMaxexp _ _ => exact inv_execCsqMaxexp h ..
  | csqNotify _ _ => exact inv_execCsqNotify h ..
  | lcopyCopy _ _ => exact inv_execLcopyCopy h ..
  | lcopyConvert _ _ => exact inv_execLcopyConvert h ..
  | lcopyZero _ _ => exact inv_execLcopyZero h ..
  | entryComplete _ _ => exact inv_execEntryComplete h ..
  | entryFail _ _ => exact inv_execEntryFail h ..
  | remoteCounterAdd _ _ _ => exact inv_execRemoteCounterAdd h ..
  | qpResetDone _ => exact inv_execQpResetDone h ..
  | interruptEntry _ => exact inv_execInterruptEntry h ..
  | ncmdPreempt _ _ _ _ => exact inv_execNcmdPreempt h ..
  | ncmdResume _ _ _ _ => exact inv_execNcmdResume h ..
  | ncmdRerun _ _ _ _ => exact inv_execNcmdRerun h ..
  | ncmdDiscard _ _ _ _ => exact inv_execNcmdDiscard h ..
  | ncmdClear _ _ => exact inv_execNcmdClear h ..
  | nodeCommandComplete _ => exact inv_execNodeCommandComplete h ..
  | scrubPass _ => exact inv_execScrubPass h ..
  | ingestCheck _ => exact inv_execIngestCheck h ..
  | hostDoorbell _ => exact inv_execHostDoorbell h ..
  | hostBar0Access _ _ _ _ _ => exact inv_execHostBar0Access h ..
  | hostBar2Access _ _ _ _ _ => exact inv_execHostBar2Access h ..
  | drainFlitSend _ => exact inv_execDrainFlitSend h ..
  | peerDrainRequest _ => exact inv_execPeerDrainRequest h ..
  | drainConfirm _ => exact inv_execDrainConfirm h ..
  | fabricTimeout _ => exact inv_execFabricTimeout h ..
  | evcLate => exact inv_execEvcLate h
  | unlatchRaise => exact inv_execUnlatchRaise h
  | unlatchDrop => exact inv_execUnlatchDrop h
  | islandStart => exact inv_execIslandStart h
  | coreGroupStart _ => exact inv_execCoreGroupStart h ..
  | islandWake _ => exact inv_execIslandWake h ..
  | correctedError _ => exact inv_execCorrectedError h ..
  | bucketLeak => exact inv_execBucketLeak h
  | memoryLinkFail _ => exact inv_execMemoryLinkFail h ..
  | laneRetrain _ _ => exact inv_execLaneRetrain h ..
  | arbitrationAging _ => exact ⟨_, rfl, h⟩
  | powerOn => exact inv_execPowerOn s
  | bootStep _ _ _ => exact inv_execBootStep h ..
  | debugToken _ => exact inv_execDebugToken h ..
  | altClear _ => exact inv_execAltClear h ..
  | pldmSensorRead _ => exact ⟨_, rfl, h⟩
  | bundleIssue _ _ => exact inv_execBundleIssue h ..
  | unassignedOpcode _ => exact inv_execUnassignedOpcode h ..
  | reservedKindRecord _ => exact inv_execReservedKindRecord h ..
  | fabricPeerRequest _ _ => exact inv_execFabricPeerRequest h ..
  | fabricPortUp _ => exact inv_execFabricPortUp h ..
  | fabricPortDown _ => exact inv_execFabricPortDown h ..
  | peerPortReopen _ => exact inv_execPeerPortReopen h ..
  | uncorrectableError _ => exact inv_execUncorrectableError h ..
  | debugAccess _ => exact inv_execDebugAccess h ..
  | _ => exact inv_word h rfl

/-! ### Every turn -/

theorem inv_runEvent {s : State} (h : s.Inv) (i : Instr) : NextInv (runEvent s i) := by
  unfold runEvent
  split
  · extract_lets t
    have ht : t.Inv := by
      simp only [t]
      split
      · exact h.tick
      · exact h
    exact inv_exec (by simpa) i
  · simpa

theorem inv_afterLanding (w : Who) (i : Instr) {o : Host.Outcome State Fault Refusal} (h : NextInv o) : NextInv (afterLanding w i o) := by
  obtain ⟨t, rfl, ht⟩ := h
  unfold afterLanding
  split
  · next heq => cases heq; simpa
  · next heq => cases heq; simpa
  · simpa

theorem inv_afterTurn {o : Host.Outcome State Fault Refusal} (h : NextInv o) : NextInv (afterTurn o) := by
  obtain ⟨t, rfl, ht⟩ := h
  exact ⟨_, rfl, (State.inv_settleSignal t).2 ht⟩

/-- The turn of a sequencer that the device has. -/
theorem inv_seqTurn {s : State} (h : s.Inv) {w : Who} (hw : whoOk w = true) : NextInv (runTurn s (.seq w)) := by
  have ht := h.onTurn w
  simp only [runTurn, hw, if_true]
  split
  · simpa
  · exact inv_afterLanding _ _ (inv_exec (by simpa) _)
  · rw [nextInv_next]
    refine State.Inv.take ?_ _
    exact (State.inv_takeTurn ..).2 ht

/-- Every turn but that of an absent sequencer answers a next state that keeps the invariant. -/
theorem inv_runTurn {s : State} (h : s.Inv) (t : Turn) (ht : ∀ w, t = .seq w → whoOk w = true) : NextInv (runTurn s t) := by
  cases t with
  | seq w => exact inv_seqTurn h (ht w rfl)
  | event i => exact inv_runEvent h i
  | retry r =>
    simp only [runTurn]
    split
    · exact inv_runEvent h _
    · simpa
  | late g u => simpa [runTurn]
  | tick => simpa [runTurn] using h.tick

/-- A turn of a sequencer that the device does not have is the model's one fault (log 1). -/
theorem runTurn_absent (s : State) {w : Who} (hw : whoOk w = false) : runTurn s (.seq w) = .fault .noSuchSequencer := by
  simp [runTurn, hw]

/-- A turn that goes on keeps the invariant. -/
theorem State.Inv.turned {s u : State} {t : Turn} (h : s.Inv) (hu : afterTurn (runTurn s t) = .next u) : u.Inv := by
  by_cases ht : ∀ w, t = .seq w → whoOk w = true
  · obtain ⟨v, hv, hi⟩ := inv_afterTurn (inv_runTurn h t ht)
    obtain rfl : v = u := by simpa [hv] using hu
    exact hi
  · push Not at ht
    obtain ⟨w, rfl, hw⟩ := ht
    rw [runTurn_absent s (by simpa using hw)] at hu
    cases hu

/-- Settles O59: each state operation keeps the invariant, so each word, step and turn does. -/
theorem stepsKeepTheInvariant : Obligations.StepsKeepTheInvariant := by
  refine ⟨fun i s h => inv_exec h i, fun s t h hst => ?_, fun s ts w ha hw h => ?_, fun s ts w ha hw => ?_⟩
  · unfold step at hst
    split at hst
    · exact State.Inv.turned (by exact h) hst
    · exact State.Inv.turned (by exact h) hst
  · obtain ⟨t, ht, -⟩ := inv_afterTurn (inv_seqTurn (s := { s with agenda := ts }) h hw)
    exact ⟨t, by simpa [step, ha] using ht⟩
  · simp [step, ha, runTurn_absent _ hw, afterTurn]
end Sys2Proof.Machine
end

section
/-! ## Registers and results (O4) -/
namespace Sys2Proof.Machine

/-! ### Registers of a sequencer (R11) -/

theorem Seq.rdS_wrS (q : Seq) (d r : SReg) (x : W64) :
    (q.wrS d x).rdS r = if r = 0 then 0 else if r = d then x else q.rdS r := by
  by_cases hr : r = 0
  · simp [Seq.rdS, hr]
  · by_cases hd : r = d
    · subst hd
      simp [Seq.rdS, Seq.wrS, hr, Vector.get_eq_getElem]
    · have hv : (d : Nat) ≠ r := fun h => hd (Fin.ext h.symm)
      by_cases h0 : d = 0 <;> simp [Seq.rdS, Seq.wrS, hr, hd, h0, Vector.get_eq_getElem]
      exact Vector.getElem_set_ne _ _ hv
theorem Seq.rdP_wrP (q : Seq) (d r : Reg16) (b : Bool) :
    (q.wrP d b).rdP r = if r = 0 then true else if r = d then b else q.rdP r := by
  by_cases hr : r = 0
  · simp [Seq.rdP, hr]
  · by_cases hd : r = d
    · subst hd
      simp [Seq.rdP, Seq.wrP, hr, Vector.get_eq_getElem]
    · have hv : (d : Nat) ≠ r := fun h => hd (Fin.ext h.symm)
      by_cases h0 : d = 0 <;> simp [Seq.rdP, Seq.wrP, hr, hd, h0, Vector.get_eq_getElem]
      exact Vector.getElem_set_ne _ _ hv
@[simp] theorem Seq.rdP_wrS (q : Seq) (d : SReg) (r : Reg16) (x : W64) : (q.wrS d x).rdP r = q.rdP r := by
  unfold Seq.wrS; split <;> rfl
@[simp] theorem Seq.rdS_wrP (q : Seq) (d : Reg16) (r : SReg) (b : Bool) : (q.wrP d b).rdS r = q.rdS r := by
  unfold Seq.wrP; split <;> rfl

/-! ### Results (R21, R25, R162) -/

theorem State.putS_interlocked {s : State} (h : ∀ g, s.cur ≠ .core g .C) (k : Lat) (d : SReg) (x : W64) :
    s.putS k d x = s.setMe (s.me.wrS d x) := by
  unfold State.putS
  split
  · next hc => exact absurd hc (h _)
  · rfl
theorem State.putP_interlocked {s : State} (h : ∀ g, s.cur ≠ .core g .C) (k : Lat) (d : Reg16) (b : Bool) :
    s.putP k d b = s.setMe (s.me.wrP d b) := by
  unfold State.putP
  split
  · next hc => exact absurd hc (h _)
  · rfl
theorem State.putS_c {s : State} {g : Nat} (h : s.cur = .core g .C) (k : Lat) (d : SReg) (x : W64) :
    s.putS k d x = if d = 0 then s else s.launch g k (.sreg d x) := by simp [State.putS, h]
theorem State.putP_c {s : State} {g : Nat} (h : s.cur = .core g .C) (k : Lat) (d : Reg16) (b : Bool) :
    s.putP k d b = if d = 0 then s else s.launch g k (.preg d b) := by simp [State.putP, h]
theorem State.core_launch (s : State) (g : Nat) (k : Lat) (op : Landing) (f : W32) :
    (s.launch g k op f).core g = { s.core g with flight := (s.core g).flight ++
      [{ left := (s.core g).latency k, slot := s.curSlot, pc := s.curAddr, op := op, flags := f }] } := by
  simp [State.launch, Core.launch]

@[simp] theorem State.rs_setMe (s : State) (q : Seq) (r : SReg) : (s.setMe q).rs r = q.rdS r := by simp [State.rs]
@[simp] theorem State.rp_setMe (s : State) (q : Seq) (r : Reg16) : (s.setMe q).rp r = q.rdP r := by simp [State.rp]

/-- Settles O4: outside C the sequencer's register reads the value back; in C the result is launched. -/
theorem resultsReachRegisters : Obligations.ResultsReachRegisters := by
  refine ⟨fun s k d r e p x b h => ?_, fun s g k d e x b h => ?_⟩
  · simp only [State.putS_interlocked h, State.putP_interlocked h, State.rs_setMe, State.rp_setMe, Seq.rdS_wrS, Seq.rdP_wrP,
      Seq.rdP_wrS, Seq.rdS_wrP]
    exact ⟨rfl, rfl, rfl, rfl⟩
  · rw [State.putS_c h, State.putP_c h]
    constructor <;> split <;> simp only [State.core_launch]
end Sys2Proof.Machine
end

section
/-! ## Turns (O58) -/
namespace Sys2Proof.Machine

/-! ### What a word decodes to (R150, R155) -/

/-- A decoder gives only instructions that have a word. -/
def Worded (x : Except DecodeError Instr) : Prop := ∀ i, x = .ok i → hasWord i = true

theorem worded_error (e : DecodeError) : Worded (.error e) := fun _ h => nomatch h
theorem worded_takeIf {i : Instr} (h : hasWord i = true) (m n : Nat) (c : Bool) : Worded (takeIf m n c i) := by
  unfold takeIf
  split
  · intro j hj
    obtain rfl := Except.ok.inj hj
    exact h
  · exact worded_error _

theorem worded_decodeWord (w : Nat) : Worded (decodeWord w) := by
  unfold decodeWord
  split
  any_goals simp only [decIop, decIopi, decIhi, decCmp, decPrd, decBr, decJmp, decLoop, decLds, decSts, decCsr, decBitf,
    decMuldiv, decSys, decPriv, decRing, decSem, decGbar, decOrd, decCopy, decGath, decLine, decMark, decMma, decAcc, decTent,
    decRslv, decMkat, decVfp, decVfma, decVint, decVcmp, decVcvt, decVred, decVperm, decVmem, decVsfu, decVclm, decVsel,
    decVset, decProof, decPtab, decCreel, decRoute, decNma, decNmx, decPost]
  all_goals repeat' split
  any_goals exact worded_takeIf rfl _ _ _
  all_goals exact worded_error _

/-- What a sequencer fetches is an instruction with a word or a bundle. -/
theorem decodeWords_ok {ws rest : List W32} {i : Instr} (h : decodeWords ws = .ok (i, rest)) :
    hasWord i = true ∨ ∃ x xs, i = .bundleIssue x xs := by
  cases ws with
  | nil => cases h
  | cons w ws =>
    simp only [decodeWords] at h
    split at h
    · split at h
      · cases h
        exact .inr ⟨_, _, rfl⟩
      · cases h
    · split at h
      · next hd =>
        cases h
        exact .inl (worded_decodeWord _ _ hd)
      · cases h

/-! ### What a turn comes to -/

/-- Only a landing and a loop's end bring the turn again at once. -/
theorem afterLanding_decoded {ws rest : List W32} {i : Instr} (h : decodeWords ws = .ok (i, rest)) (w : Who)
    (o : Host.Outcome State Fault Refusal) : afterLanding w i o = o := by
  obtain hi | ⟨x, xs, rfl⟩ := decodeWords_ok h
  · unfold afterLanding
    split
    · cases hi
    · cases hi
    · rfl
  · rfl

section
variable {s : State} {w : Who} {ts : List Turn}

theorem step_seq (ha : s.agenda = .seq w :: ts) (hw : whoOk w = true) :
    step s = afterTurn (
      let u := ({ s with agenda := ts } : State).onTurn w
      match u.seqAct w with
      | .idle => .next u
      | .run i => afterLanding w i (exec i (u.takeTurn w (.run i)))
      | .fault slot e => .next ({ u.takeTurn w (.fault slot e) with curSlot := slot, curAddr := (u.seqOf w).pc }.take e)) := by
  simp only [step, ha, runTurn, hw, if_true] <;> rfl
end

/-! ### What decides a turn -/

section
variable {u : State} {w : Who}

theorem seqAct_idle (h : u.canRun w = false) : u.seqAct w = .idle := by simp [State.seqAct, h]
theorem interrupts_calm (h : ∀ n, w = .hearth n → u.takeable n = none) : u.interrupts w = none := by
  cases w with
  | core g q => rfl
  | hearth n => simp [State.interrupts, h n rfl]
theorem seqAct_interrupt {g b : Nat} (h : u.canRun (.hearth g) = true) (hb : u.takeable g = some b) :
    u.seqAct (.hearth g) = .run (.interruptEntry g) := by simp [State.seqAct, h, State.interrupts, hb]
theorem seqAct_wait (h : u.canRun w = true) (hi : u.interrupts w = none) (hq : (u.seqOf w).wait ≠ none ∨ (u.seqOf w).sync ≠ none) :
    u.seqAct w = .run (.waitSatisfied w) := by
  have : ((u.seqOf w).sync.isSome || (u.seqOf w).wait.isSome) = true := by
    simpa [Option.isSome_iff_ne_none, or_comm] using hq
  simp [State.seqAct, h, hi, this]

variable (h : u.canRun w = true) (hi : u.interrupts w = none) (hs : (u.seqOf w).sync = none) (hq : (u.seqOf w).wait = none)
include h hi hs hq

theorem seqAct_landing {g : Nat} (hw : w = .core g .C) (hl : u.landingDue w = true) :
    u.seqAct w = if u.landingWaits g = true then .idle else .run (.cStreamLanding g) := by
  subst hw
  simp [State.seqAct, h, hi, hs, hq, hl]
theorem seqAct_loopEnd (hl : u.landingDue w = false) (ha : (u.seqOf w).loop.active = true)
    (hp : (u.seqOf w).pc = (u.seqOf w).loop.fin) : u.seqAct w = .run (.loopIterationEnd w) := by
  simp [State.seqAct, h, hi, hs, hq, hl, ha, hp]
theorem seqAct_fetch (hl : u.landingDue w = false)
    (hp : (u.seqOf w).loop.active = true → (u.seqOf w).pc ≠ (u.seqOf w).loop.fin) : u.seqAct w = u.fetchInstr w (u.seqOf w) := by
  have : ((u.seqOf w).loop.active && (u.seqOf w).pc == (u.seqOf w).loop.fin) = false := by simpa using hp
  simp [State.seqAct, h, hi, hs, hq, hl, this]
end

theorem fetchInstr_error {s : State} {w : Who} {q : Seq} {e : Exc} (h : s.fetchWord w q.pc = .error e) :
    s.fetchInstr w q = .fault 15 e := by simp [State.fetchInstr, h]
/-- Outside C one word is fetched. -/
theorem fetchInstr_word {s : State} {w : Who} {q : Seq} {x : W32} (hw : ∀ g, w ≠ .core g .C) (h : s.fetchWord w q.pc = .ok x) :
    s.fetchInstr w q = match decodeWords [x] with
      | .ok (i, _) => .run i
      | .error _ => .run (.unassignedOpcode x) := by
  unfold State.fetchInstr
  rw [h]
  dsimp only
  split
  · next g => exact absurd rfl (hw g)
  · rfl
/-- C fetches a header and its slots. -/
theorem fetchInstr_bundle {s : State} {g : Nat} {q : Seq} {x : W32} {xs rest : List W32} {i : Instr}
    (h : s.fetchWord (.core g .C) q.pc = .ok x) (hx : fld x.toNat 26 6 = 63)
    (hl : q.loop.active = true → spanSlot q.pc q.loop.fin (fld x.toNat 20 2) = none)
    (hs : s.fetchWords (.core g .C) (fld x.toNat 20 2 + 1) (q.pc + 4) = .ok xs) (hd : decodeWords (x :: xs) = .ok (i, rest)) :
    s.fetchInstr (.core g .C) q = .run i := by
  have hn : (if q.loop.active = true then spanSlot q.pc q.loop.fin (fld x.toNat 20 2) else none) = none := by
    simpa using hl
  simp only [State.fetchInstr, h, hx, if_true, hn, hs, hd]

/-! ### What the start of a turn keeps -/

/-- A function of a state that the islands' requests, the place in the cycle and C's debugger step leave as it is. -/
theorem State.askIsland_keeps {γ : Type} {p : State → γ} (h : ∀ s n x, p (State.setIsland s n x) = p s) (s : State) (i : Nat) :
    p (s.askIsland i) = p s := by
  unfold State.askIsland
  extract_lets x
  split
  · exact h ..
  · rfl
theorem State.askIslands_keeps {γ : Type} {p : State → γ} (h : ∀ s n x, p (State.setIsland s n x) = p s) (is : List Nat) (s : State) :
    p (is.foldl State.askIsland s) = p s := foldl_fixes p _ (State.askIsland_keeps h) is s

theorem State.seqOf_stepUsed (s : State) (v w : Who) : (s.stepUsed v).seqOf w = s.seqOf w := by
  unfold State.stepUsed
  split
  · next g q =>
    split
    · cases w with
      | hearth n => rfl
      | core k r =>
        by_cases hk : k = g
        · subst hk
          cases r <;> simp [State.seqOf, Core.seq]
        · simp [State.seqOf, hk]
    · rfl
  · rfl
@[simp] theorem State.mem_stepUsed (s : State) (w : Who) : (s.stepUsed w).mem = s.mem := by
  unfold State.stepUsed
  split
  · split <;> rfl
  · rfl
@[simp] theorem State.cur_stepUsed (s : State) (w : Who) : (s.stepUsed w).cur = s.cur := by
  unfold State.stepUsed
  split
  · split <;> rfl
  · rfl
theorem State.reach_keeps {γ : Type} {p : State → γ} (h : ∀ (s : State) n, p { s with pos := n } = p s) (s : State) (x : Option Spot) :
    p (s.reach x) = p s := by
  unfold State.reach
  split
  · exact h ..
  · rfl

/-- The state of a turn before the sequencer's own mark. -/
noncomputable def State.turnBegun (s : State) (w : Who) (a : Act) : State :=
  (s.turnIslands w).foldl State.askIsland ({ s with cur := w }.reach (s.actPlace w a))

theorem State.turnBegun_keeps {γ : Type} {p : State → γ} (hi : ∀ s n x, p (State.setIsland s n x) = p s)
    (hr : ∀ (s : State) n, p { s with pos := n } = p s) (s : State) (w : Who) (a : Act) :
    p (s.turnBegun w a) = p { s with cur := w } := by
  rw [State.turnBegun, State.askIslands_keeps hi, State.reach_keeps hr]
@[simp] theorem State.mem_turnBegun (s : State) (w : Who) (a : Act) : (s.turnBegun w a).mem = s.mem :=
  State.turnBegun_keeps (p := State.mem) (fun _ _ _ => rfl) (fun _ _ => rfl) ..
@[simp] theorem State.cur_turnBegun (s : State) (w : Who) (a : Act) : (s.turnBegun w a).cur = w :=
  State.turnBegun_keeps (p := State.cur) (fun _ _ _ => rfl) (fun _ _ => rfl) ..
@[simp] theorem State.seqOf_turnBegun (s : State) (v w : Who) (a : Act) : (s.turnBegun w a).seqOf v = s.seqOf v := by
  rw [State.turnBegun_keeps (p := (State.seqOf · v))]
  · cases v <;> rfl
  · intro s n x
    cases v <;> rfl
  · intro s n
    cases v <;> rfl

/-- A sequencer with its mark that it has had its instruction of the cycle. -/
def Seq.mark (q : Seq) (b : Bool) : Seq := { q with issued := b }

/-- A turn marks at most that its sequencer has had its instruction of the cycle. -/
theorem State.takeTurn_keeps (s : State) (w : Who) (a : Act) : (s.takeTurn w a).mem = s.mem ∧ (s.takeTurn w a).cur = w ∧
    ((s.takeTurn w a).seqOf w).mark (s.seqOf w).issued = s.seqOf w := by
  unfold State.takeTurn
  extract_lets b
  have hm : b.mem = s.mem := s.mem_turnBegun w a
  have hc : b.cur = w := s.cur_turnBegun w a
  have hq : b.seqOf w = s.seqOf w := s.seqOf_turnBegun w w a
  clear_value b
  split
  · exact ⟨hm, hc, by rw [hq]; rfl⟩
  · exact ⟨hm, hc, by rw [hq]; rfl⟩
  · next g q _ _ =>
    refine ⟨by simpa using hm, by simpa using hc, ?_⟩
    rw [State.seqOf_stepUsed, ← hq]
    cases q <;> simp [State.seqOf, Core.seq, Core.setSeq, Seq.mark]
  · exact ⟨hm, hc, by rw [hq]; rfl⟩

/-- A turn that takes an instruction runs it. -/
theorem step_of_run {s : State} {w : Who} {ts : List Turn} {i : Instr} (ha : s.agenda = .seq w :: ts) (hw : whoOk w = true)
    (hi : (({ s with agenda := ts } : State).onTurn w).seqAct w = .run i) :
    step s = afterTurn (afterLanding w i (exec i ((({ s with agenda := ts } : State).onTurn w).takeTurn w (.run i)))) := by
  rw [step_seq ha hw]
  simp only [hi]
theorem step_of_idle {s : State} {w : Who} {ts : List Turn} (ha : s.agenda = .seq w :: ts) (hw : whoOk w = true)
    (hi : (({ s with agenda := ts } : State).onTurn w).seqAct w = .idle) :
    step s = .next (({ s with agenda := ts } : State).onTurn w).settleSignal := by
  rw [step_seq ha hw]
  simp only [hi]
  rfl
theorem State.onTurn_eq (s : State) (w : Who) : s.onTurn w = { s with asked := (s.seqOf w).held } ∨
    s.onTurn w = ({ s with asked := (s.seqOf w).held } : State).tick := by
  simp only [State.onTurn]
  split
  · exact .inr rfl
  · exact .inl rfl
/-- A sequencer that has had its instruction of the cycle opens the next. -/
theorem State.onTurn_issued {s : State} {w : Who} (h : (s.seqOf w).issued = true)
    (ha : ({ s with asked := (s.seqOf w).held } : State).seqAct w ≠ .idle) :
    s.onTurn w = ({ s with asked := (s.seqOf w).held } : State).tick := by
  have hl : State.seqLate { s with asked := (s.seqOf w).held } w (State.seqAct { s with asked := (s.seqOf w).held } w) = true := by
    have hq : (({ s with asked := (s.seqOf w).held } : State).seqOf w).issued = true := by cases w <;> exact h
    unfold State.seqLate
    split
    · next hi => exact absurd hi ha
    · simp only [hq, Bool.or_true, Bool.true_or]
  simp only [State.onTurn, hl, if_true]
theorem afterTurn_eq (o : Host.Outcome State Fault Refusal) :
    afterTurn o = match o with
      | .next t => .next t.settleSignal
      | o => o := by cases o <;> rfl

/-- Settles O58, by the cases of `seqAct`. -/
theorem turnsRunTheDecodedInstruction : Obligations.TurnsRunTheDecodedInstruction := by
  intro s w ts x xs rest i g b e f now u q turn runs calm free here ha hw
  have hrun (j : Instr) (hj : u.seqAct w = .run j) (hl : ∀ o, afterLanding w j o = o) : runs j := by
    simp only [runs, step_of_run ha hw hj, hl, afterTurn_eq] <;> rfl
  refine ⟨State.onTurn_eq _ w, fun hq hi => State.onTurn_issued hq hi, ?_, fun h => ?_, fun h => ⟨?_, ?_, ?_, ?_, ?_, ?_, ?_⟩⟩
  · obtain ⟨hm, hc, hq⟩ := u.takeTurn_keeps w (.run i)
    exact ⟨hm, hc, fun r => (congrArg (Seq.rdS · r) hq :), fun r => (congrArg (Seq.rdP · r) hq :), (congrArg Seq.pc hq :)⟩
  · exact step_of_idle ha hw (seqAct_idle h)
  · rintro rfl hb
    exact hrun _ (seqAct_interrupt h hb) fun _ => rfl
  · exact fun hc hq => hrun _ (seqAct_wait h (interrupts_calm hc) hq) fun _ => rfl
  · rintro ⟨hc, hs, hq⟩ hwc hl
    have hact := seqAct_landing h (interrupts_calm hc) hs hq hwc hl
    refine ⟨fun hwait => step_of_idle ha hw (hact.trans (if_pos hwait)), fun hwait t ht => ?_⟩
    rw [if_neg (by simp [hwait])] at hact
    rw [step_of_run ha hw hact]
    exact congrArg (fun o => afterTurn (afterLanding w (.cStreamLanding g) o)) ht
  · rintro ⟨hc, hs, hq⟩ hl hact hp t ht
    rw [step_of_run ha hw (seqAct_loopEnd h (interrupts_calm hc) hs hq hl hact hp)]
    exact congrArg (fun o => afterTurn (afterLanding w (.loopIterationEnd w) o)) ht
  · rintro ⟨⟨hc, hs, hq⟩, hl, hp⟩ hf
    rw [step_seq ha hw]
    have hact : u.seqAct w = .fault 15 f := by rw [seqAct_fetch h (interrupts_calm hc) hs hq hl hp, fetchInstr_error hf]
    simp only [u] at hact
    simp only [hact]
    rfl
  · rintro ⟨⟨hc, hs, hq⟩, hl, hp⟩ hnc hf
    have hact := (seqAct_fetch h (interrupts_calm hc) hs hq hl hp).trans (fetchInstr_word hnc hf)
    refine ⟨fun hd => hrun _ (by rw [hact, hd]) (afterLanding_decoded hd w), fun hd => hrun _ (by rw [hact, hd]) fun _ => rfl⟩
  · rintro ⟨⟨hc, hs, hq⟩, hl, hp⟩ rfl hf hx hspan hws hd
    refine hrun _ ?_ (afterLanding_decoded hd _)
    rw [seqAct_fetch h (interrupts_calm hc) hs hq hl hp, fetchInstr_bundle hf hx hspan hws hd]
end Sys2Proof.Machine
end

section
/-! ## Words, and loops (O7) -/
namespace Sys2Proof.Machine

/-! ### Running a word that passes -/

/-- A word that passes comes to what its effect makes of the state in which it begins. -/
theorem exec_passes {i : Instr} {x : State → Eff} {s : State} (hx : wordEffect i = some x) (h : s.passes i = true) :
    exec i s = .next (settle (.word i) s (x (s.begun i))) := by
  rw [exec_of_wordEffect hx, runWord_of_passes x h]
theorem exec_done {i : Instr} {x : State → Eff} {s t : State} (hx : wordEffect i = some x) (h : s.passes i = true)
    (ht : x (s.begun i) = .done t) : exec i s = .next t := by rw [exec_passes hx h, ht, settle_done]
theorem exec_trap {i : Instr} {x : State → Eff} {s : State} {e : Exc} (hx : wordEffect i = some x) (h : s.passes i = true)
    (he : e.holds = none) (ht : x (s.begun i) = .trap e) : Raises i s e := by
  rw [Raises, exec_passes hx h, ht]
  cases e with
  | hold r => cases he
  | fault c a d => rfl
  | caused e u k => rfl
  | trap n v => rfl

/-! ### What the beginning of a word keeps -/

@[simp] theorem State.mem_overwrite (s : State) (ds : List Dest) : (s.overwrite ds).mem = s.mem := by
  unfold State.overwrite
  split
  · rfl
  · split <;> rfl
  · split <;> rfl
@[simp] theorem State.curSlot_overwrite (s : State) (ds : List Dest) : (s.overwrite ds).curSlot = s.curSlot := by
  unfold State.overwrite
  split
  · rfl
  · split <;> rfl
  · split <;> rfl
@[simp] theorem State.mem_begun (s : State) (i : Instr) : (s.begun i).mem = s.mem := by simp [State.begun_eq, State.setMe]
@[simp] theorem State.curSlot_begun (s : State) (i : Instr) : (s.begun i).curSlot = s.curSlot := by
  simp [State.begun_eq, State.setMe]
@[simp] theorem State.mem_setMe (s : State) (q : Seq) : (s.setMe q).mem = s.mem := s.mem_setSeq ..

/-! ### Sequencers in their cores -/

/-- A function of a core that its sequencers leave as it is. -/
theorem State.core_setSeq_keeps {γ : Type} {p : Core → γ} (h : ∀ c q x, p (Core.setSeq c q x) = p c) (s : State) (w : Who) (x : Seq)
    (g : Nat) : p ((s.setSeq w x).core g) = p (s.core g) := by
  cases w with
  | hearth n => rfl
  | core k q =>
    simp only [State.setSeq, State.core_setCore]
    split
    · next hg => rw [h, hg]
    · rfl
theorem Core.setSeq_flight (c : Core) (q : SeqKind) (x : Seq) : (c.setSeq q x).flight = c.flight := by cases q <;> rfl
theorem Core.setSeq_vrot (c : Core) (q : SeqKind) (x : Seq) : (c.setSeq q x).vrot = c.vrot := by cases q <;> rfl
@[simp] theorem State.flight_setSeq (s : State) (w : Who) (x : Seq) (g : Nat) :
    ((s.setSeq w x).core g).flight = (s.core g).flight := State.core_setSeq_keeps Core.setSeq_flight ..
@[simp] theorem State.vrot_setSeq (s : State) (w : Who) (x : Seq) (g : Nat) :
    ((s.setSeq w x).core g).vrot = (s.core g).vrot := State.core_setSeq_keeps Core.setSeq_vrot ..
@[simp] theorem State.flight_setMe (s : State) (x : Seq) (g : Nat) : ((s.setMe x).core g).flight = (s.core g).flight :=
  s.flight_setSeq ..
@[simp] theorem State.flight_overwrite (s : State) (ds : List Dest) (g : Nat) :
    ((s.overwrite ds).core g).flight = (s.core g).flight := by
  unfold State.overwrite
  split
  · rfl
  · split
    · rfl
    · rw [State.core_setCore]
      split
      · next hg => rw [hg]
      · rfl
  · split <;> rfl
@[simp] theorem State.flight_begun (s : State) (i : Instr) (g : Nat) : ((s.begun i).core g).flight = (s.core g).flight := by
  rw [State.begun_eq, State.flight_setMe]
  exact s.flight_overwrite ..

/-- A core's operations in flight and what else is no sequencer of it do not change a sequencer. -/
theorem State.seqOf_setCore_keeps (s : State) (w : Who) (g : Nat) (c : Core) (h : ∀ q, c.seq q = (s.core g).seq q) :
    (s.setCore g c).seqOf w = s.seqOf w := by
  cases w with
  | hearth n => rfl
  | core k q =>
    simp only [State.seqOf, State.core_setCore]
    split
    · next hk => rw [h, hk]
    · rfl

/-! ### Loops (R30, R176, R177) -/

theorem Seq.rdP_stages (q : Seq) (r : Reg16) : q.stages.rdP r = if 8 ≤ r.val then
    decide (r.val - 8 ≤ q.esc.toNat ∧ r.val - 8 ≤ q.loop.t ∧ q.loop.t < r.val - 8 + q.lc.toNat) else q.rdP r := by
  by_cases h : 8 ≤ r.val
  · have h0 : r ≠ 0 := by rintro rfl; simp at h
    simp [Seq.rdP, Seq.stages, h0, h, Vector.get_eq_getElem, Bool.and_assoc]
  · simp [Seq.rdP, Seq.stages, h, Vector.get_eq_getElem]

theorem loopEnd_eq (base : W64) (i : BitVec 12) : loopEnd base i = base + BitVec.ofNat 64 (4 * i.toNat) := by
  unfold loopEnd
  congr 1

/-- LC as `loop.sp` takes it is 0 when the low half of the register is. -/
theorem setWidth_eq_zero (x : W64) : x.setWidth 32 = (0 : W32) ↔ bf x 0 32 = 0 := by
  rw [← BitVec.toNat_inj]
  simp [bf, fld]

/-- The sequencer of `loop.sp` after it, LC and ESC apart from the rest. -/
def Seq.counts (q : Seq) (lc : W32) (esc : BitVec 3) : Seq := { q with lc := lc, esc := esc }

/-- What `loop.sp` comes to where no loop is active (R176). -/
theorem xLoopSp_zero {s : State} {c : Fin 8} {a : SReg} {i : BitVec 12} (hl : s.me.loop.active = false)
    (hz : (s.rs a).setWidth 32 = (0 : W32)) : xLoopSp c a i s =
      .done (s.setMe { s.me.counts ((s.rs a).setWidth 32) (BitVec.ofNat 3 c.val) with pc := loopEnd s.curAddr i }) := by
  simp [xLoopSp, hl, hz, Seq.counts]
/-- The sequencer of a loop that starts. -/
def Seq.starts (q : Seq) (lc : W32) (esc : BitVec 3) (fin : W64) : Seq :=
  { q.counts lc esc with loop := { active := true, first := q.pc, fin := fin, t := 0 } }
theorem xLoopSp_interlocked {s : State} {c : Fin 8} {a : SReg} {i : BitVec 12} (hl : s.me.loop.active = false)
    (hz : (s.rs a).setWidth 32 ≠ (0 : W32)) (hc : ∀ g, s.cur ≠ .core g .C) : xLoopSp c a i s =
      .done (s.setMe (s.me.starts ((s.rs a).setWidth 32) (BitVec.ofNat 3 c.val) (loopEnd s.curAddr i)).stages) := by
  simp only [xLoopSp, hl, Bool.false_eq_true, if_false, hz]
  rfl
theorem xLoopSp_c {s : State} {c : Fin 8} {a : SReg} {i : BitVec 12} {g : Nat} (hl : s.me.loop.active = false)
    (hz : (s.rs a).setWidth 32 ≠ (0 : W32)) (hc : s.cur = .core g .C) : xLoopSp c a i s =
      let t := s.setMe (s.me.starts ((s.rs a).setWidth 32) (BitVec.ofNat 3 c.val) (loopEnd s.curAddr i))
      .done (t.setCore g ((t.core g).launch 1 s.curSlot s.curAddr .stages 0)) := by
  simp only [xLoopSp, hl, Bool.false_eq_true, if_false, hz]
  split
  · next hg =>
    obtain rfl : g = _ := by simpa [hc] using hg
    rfl
  · next hg => exact absurd hc (hg g)

@[simp] theorem State.me_launched (s : State) (g n k : Nat) (a : W64) (op : Landing) (f : W32) :
    (s.setCore g ((s.core g).launch n k a op f)).me = s.me :=
  s.seqOf_setCore_keeps s.cur g _ fun q => by cases q <;> rfl

theorem loopSp_active {s : State} {c : Fin 8} {a : SReg} {i : BitVec 12} (h : s.passes (.loopSp c a i) = true)
    (hl : s.me.loop.active = true) : Raises (.loopSp c a i) s illegal :=
  exec_trap rfl h rfl (by simp [xLoopSp, hl])

/-- The sequencer of a word that begins. -/
def State.meBegun (s : State) : Seq := { s.me with pc := s.nextPc, wait := none, held := none }
theorem State.me_begun_eq (s : State) (i : Instr) : (s.begun i).me = s.meBegun := s.me_begun i

section
variable {s : State} {c : Fin 8} {a : SReg} {i : BitVec 12} (h : s.passes (.loopSp c a i) = true)
  (hl : s.me.loop.active = false)
include h hl

theorem loopSp_zero (hz : (s.rs a).setWidth 32 = (0 : W32)) : exec (.loopSp c a i) s = .next ((s.begun (.loopSp c a i)).setMe
    { s.meBegun.counts ((s.rs a).setWidth 32) (BitVec.ofNat 3 c.val) with pc := loopEnd s.me.pc i }) := by
  have := xLoopSp_zero (s := s.begun (.loopSp c a i)) (c := c) (a := a) (i := i) (by simpa using hl) (by simpa using hz)
  simpa only [State.rs_begun, State.me_begun_eq, State.curAddr_begun] using exec_done rfl h this
theorem loopSp_interlocked (hz : (s.rs a).setWidth 32 ≠ (0 : W32)) (hc : ∀ g, s.cur ≠ .core g .C) :
    exec (.loopSp c a i) s = .next ((s.begun (.loopSp c a i)).setMe
      (s.meBegun.starts ((s.rs a).setWidth 32) (BitVec.ofNat 3 c.val) (loopEnd s.me.pc i)).stages) := by
  have := xLoopSp_interlocked (s := s.begun (.loopSp c a i)) (c := c) (a := a) (i := i) (by simpa using hl) (by simpa using hz)
    (by simpa using hc)
  simpa only [State.rs_begun, State.me_begun_eq, State.curAddr_begun] using exec_done rfl h this
theorem loopSp_c {g : Nat} (hz : (s.rs a).setWidth 32 ≠ (0 : W32)) (hc : s.cur = .core g .C) :
    exec (.loopSp c a i) s =
      let t := (s.begun (.loopSp c a i)).setMe (s.meBegun.starts ((s.rs a).setWidth 32) (BitVec.ofNat 3 c.val) (loopEnd s.me.pc i))
      .next (t.setCore g ((t.core g).launch 1 s.curSlot s.me.pc .stages 0)) := by
  have := xLoopSp_c (s := s.begun (.loopSp c a i)) (c := c) (a := a) (i := i) (by simpa using hl) (by simpa using hz)
    (by simpa using hc)
  simpa only [State.rs_begun, State.me_begun_eq, State.curAddr_begun, State.curSlot_begun] using exec_done rfl h this
end

@[simp] theorem Seq.rdP_starts (q : Seq) (lc : W32) (e : BitVec 3) (f : W64) (r : Reg16) : (q.starts lc e f).rdP r = q.rdP r := rfl
@[simp] theorem Seq.rdS_starts (q : Seq) (lc : W32) (e : BitVec 3) (f : W64) (r : SReg) : (q.starts lc e f).rdS r = q.rdS r := rfl
@[simp] theorem Seq.rdS_stages (q : Seq) (r : SReg) : q.stages.rdS r = q.rdS r := rfl
@[simp] theorem State.rdP_meBegun (s : State) (r : Reg16) : s.meBegun.rdP r = s.rp r := rfl
@[simp] theorem State.rdS_meBegun (s : State) (r : SReg) : s.meBegun.rdS r = s.rs r := rfl

/-- The stage predicates of iteration 0: only that of the first stage (R30). -/
theorem Seq.rdP_stages_starts (q : Seq) {lc : W32} (hz : lc ≠ 0) (e : BitVec 3) (f : W64) {r : Reg16} (hr : 8 ≤ r.val) :
    (q.starts lc e f).stages.rdP r = decide (r.val = 8) := by
  have hlc : 0 < lc.toNat := Nat.pos_of_ne_zero fun h => hz (BitVec.eq_of_toNat_eq h)
  rw [Seq.rdP_stages, if_pos hr, decide_eq_decide]
  simp only [Seq.starts, Seq.counts]
  omega
theorem Seq.rdP_stages_low (q : Seq) {r : Reg16} (hr : r.val < 8) : q.stages.rdP r = q.rdP r := by
  rw [Seq.rdP_stages, if_neg (by omega)]

/-! ### The end of an iteration (R177) -/

/-- The sequencer of the next iteration. -/
def Seq.iterates (q : Seq) : Seq := { q with pc := q.loop.first, loop := { q.loop with t := q.loop.t + 1 } }
/-- The sequencer of a loop that has ended. -/
def Seq.leaves (q : Seq) : Seq := { q with loop := { q.loop with active := false } }
/-- VROT steps in C alone. -/
def State.rotated (s : State) : Who → State
  | .core g .C => s.setCore g { s.core g with vrot := (s.core g).vrot + 1 }
  | _ => s
theorem loopEndStep_eq (s : State) (w : Who) : loopEndStep s w = (s.rotated w).setSeq w
    (if (s.seqOf w).loop.t + 1 < (s.seqOf w).lc.toNat + (s.seqOf w).esc.toNat then (s.seqOf w).iterates.stages
    else (s.seqOf w).leaves) := rfl
@[simp] theorem State.mem_rotated (s : State) (w : Who) : (s.rotated w).mem = s.mem := by
  unfold State.rotated; split <;> rfl
theorem loopEndStep_mem (s : State) (w : Who) : (loopEndStep s w).mem = s.mem := by
  rw [loopEndStep_eq, State.mem_setSeq, State.mem_rotated]
theorem seqOf_loopEndStep (s : State) (w : Who) : (loopEndStep s w).seqOf w =
    if (s.seqOf w).loop.t + 1 < (s.seqOf w).lc.toNat + (s.seqOf w).esc.toNat then (s.seqOf w).iterates.stages
    else (s.seqOf w).leaves := State.seqOf_setSeq_self ..
theorem vrot_loopEndStep (s : State) (w : Who) (g : Nat) :
    ((loopEndStep s w).core g).vrot = if w = .core g .C then (s.core g).vrot + 1 else (s.core g).vrot := by
  rw [loopEndStep_eq, State.vrot_setSeq]
  unfold State.rotated
  split
  · next k =>
    rw [State.core_setCore]
    by_cases hk : g = k
    · simp [hk]
    · rw [if_neg hk, if_neg (by simpa using Ne.symm hk)]
  · next hw => rw [if_neg (hw g)]

/-- Settles O7: `loop.sp` from its effect, an iteration's end from what `loopEndStep` makes of the sequencer. -/
theorem loopControl : Obligations.LoopControl := by
  refine ⟨fun s c a i h => ⟨loopSp_active h, fun hl => ?_⟩, fun s w => ?_⟩
  · have hesc : (BitVec.ofNat 3 c.val).toNat = c.val := by simp
    by_cases hz : (s.rs a).setWidth 32 = (0 : W32)
    · have hb := (setWidth_eq_zero _).1 hz
      refine ⟨_, loopSp_zero h hl hz, by simp [Seq.counts], by simp [Seq.counts], by simp, fun r => ?_, fun r _ => ?_,
        fun _ => ⟨by simp [loopEnd_eq], ?_, fun r => ?_⟩, fun hb' => absurd hb hb'⟩
      · exact (State.rs_setMe ..).trans rfl
      · exact (State.rp_setMe ..).trans rfl
      · rw [State.me_setMe]; exact hl
      · exact (State.rp_setMe ..).trans rfl
    · have hb : bf (s.rs a) 0 32 ≠ 0 := fun hb => hz ((setWidth_eq_zero _).2 hb)
      by_cases hc : ∀ g, s.cur ≠ .core g .C
      · refine ⟨_, loopSp_interlocked h hl hz hc, by rw [State.me_setMe]; rfl, by rw [State.me_setMe]; exact hesc, by simp,
          fun r => by simp, fun r hr => by simp [Seq.rdP_stages_low _ hr], fun hb' => absurd hb' hb, fun _ =>
          ⟨by rw [State.me_setMe]; rfl, by rw [State.me_setMe, ← loopEnd_eq]; rfl, fun _ r hr => ?_, fun g hg => absurd hg (hc g)⟩⟩
        rw [State.rp_setMe, Seq.rdP_stages_starts _ hz _ _ hr]
      · push Not at hc
        obtain ⟨g, hc⟩ := hc
        refine ⟨_, loopSp_c h hl hz hc, ?_⟩
        simp only [State.rs, State.rp, State.me_launched, State.me_setMe]
        refine ⟨rfl, hesc, by simp, fun r => rfl, fun r _ => rfl, fun hb' => absurd hb' hb, fun _ =>
          ⟨rfl, by rw [← loopEnd_eq]; rfl, fun hc' => absurd hc (hc' g), fun k hk => ⟨fun r => rfl, ?_⟩⟩⟩
        obtain rfl : g = k := by simpa [hc] using hk
        simp [Core.launch]
  intro q hrun hact hpc
  refine ⟨loopEndStep s w, by simp [exec, execLoopIterationEnd, hrun, hact, hpc, q], loopEndStep_mem s w, ?_⟩
  rw [seqOf_loopEndStep]
  by_cases hn : q.loop.t + 1 < q.lc.toNat + q.esc.toNat
  · simp only [q, if_pos hn]
    refine ⟨fun r => rfl, rfl, rfl, fun r hr => Seq.rdP_stages_low _ hr, fun _ => ⟨rfl, rfl, fun k hk => ?_⟩,
      fun hge => absurd hn (Nat.not_lt.2 hge), vrot_loopEndStep s w⟩
    have hv : (idx 16 (8 + k)).val = 8 + k := Nat.mod_eq_of_lt (by omega)
    rw [Seq.rdP_stages, if_pos (by omega), decide_eq_decide, hv]
    simp only [Seq.iterates]
    omega
  · simp only [q, if_neg hn]
    exact ⟨fun r => rfl, rfl, rfl, fun r _ => rfl, fun h => absurd h hn, fun _ => ⟨rfl, rfl, fun r => rfl⟩, vrot_loopEndStep s w⟩
end Sys2Proof.Machine
end

section
/-! ## END (O8) -/
namespace Sys2Proof.Machine

/-! ### END in the cycle in which a node halts (R16, R295) -/

theorem xSysEnd_alone (s : State) : xSysEnd false s = .done (s.endSeq s.cur) := by
  unfold xSysEnd
  split <;> rfl
/-- A sequencer that is stopping with its node halts at END. -/
theorem me_endSeq_stopping {s : State} {g : Nat} {q : SeqKind} (hc : s.cur = .core g q) (hq : q ≠ .C) (h : s.me.run = .stopping) :
    (s.endSeq s.cur).me.run = .halted := by
  have he : s.endSeq s.cur = s.setMe s.me.stop := by
    have hr : (s.seqOf s.cur).run = .stopping := h
    unfold State.endSeq
    rw [if_pos hr]
    extract_lets t
    split
    · next hk => rw [hc] at hk; exact absurd (by simpa using hk) fun h : g = _ ∧ q = .C => hq h.2
    · rfl
  rw [he, State.me_setMe, Seq.stop, if_pos (.inr h)]

/-- A core whose node halts in this cycle: K has not yet had its instruction of it. -/
def haltingCore : State := { cur := .core 0 .K, cores := [(0, { k := { run := .stopping } })] }

/-- Refutes O8: an END in the cycle in which the node halts is not executed (R295), so a sequencer that is stopping comes to
stand halted, not ended. -/
theorem not_systemWordsAndFences : ¬ Obligations.SystemWordsAndFences := by
  intro h
  obtain ⟨-, hend, -⟩ := h.1 haltingCore 0 0
  have hp : haltingCore.passes (.sysEnd false) = true := by decide
  obtain ⟨t, ht, hrun, -⟩ := hend hp
  rw [exec_done rfl hp (xSysEnd_alone _)] at ht
  obtain rfl := Host.Outcome.next.inj ht
  have hme : ((haltingCore.begun (.sysEnd false)).endSeq (haltingCore.begun (.sysEnd false)).cur).me.run = .halted :=
    me_endSeq_stopping (g := 0) (q := .K) (by simp; rfl) (by decide) (by simp; decide)
  rw [hme] at hrun
  cases hrun
end Sys2Proof.Machine
end

section
/-! ## Special registers (O12) -/
namespace Sys2Proof.Machine

/-! ### What the beginning of a word keeps of a core -/

/-- What neither a core's sequencers nor its register errors touch. -/
theorem State.core_begun_keeps {γ : Type} {p : Core → γ} (hs : ∀ c q x, p (Core.setSeq c q x) = p c)
    (hr : ∀ (c : Core) e, p { c with regErr := e } = p c) (s : State) (i : Instr) (g : Nat) :
    p ((s.begun i).core g) = p (s.core g) := by
  have ho (ds : List Dest) : p ((s.overwrite ds).core g) = p (s.core g) := by
    unfold State.overwrite
    split
    · rfl
    · split
      · rfl
      · rw [State.core_setCore]
        split
        · next hg => rw [hr, hg]
        · rfl
    · split <;> rfl
  rw [State.begun_eq, State.setMe, State.core_setSeq_keeps hs]
  exact ho _

theorem Core.setSeq_fpcr (c : Core) (q : SeqKind) (x : Seq) : (c.setSeq q x).fpcr = c.fpcr := by cases q <;> rfl
theorem Core.setSeq_vshape (c : Core) (q : SeqKind) (x : Seq) : (c.setSeq q x).vshape = c.vshape := by cases q <;> rfl
theorem Core.setSeq_ctx (c : Core) (q : SeqKind) (x : Seq) : (c.setSeq q x).ctx = c.ctx := by cases q <;> rfl

/-- Special registers read the same at the beginning of a word (R148). -/
theorem csrRead_begun (s : State) (i : Instr) (n : Nat) : csrRead (s.begun i) n = csrRead s n := by
  have hf (g : Nat) := State.core_begun_keeps Core.setSeq_fpcr (fun _ _ => rfl) s i g
  have hv (g : Nat) := State.core_begun_keeps Core.setSeq_vshape (fun _ _ => rfl) s i g
  have hr (g : Nat) := State.core_begun_keeps Core.setSeq_vrot (fun _ _ => rfl) s i g
  have hx (g : Nat) := State.core_begun_keeps Core.setSeq_ctx (fun _ _ => rfl) s i g
  simp only [csrRead, State.cur_begun, State.me_begun, hf, hv, hr, hx]

/-! ### The words (R180) -/

theorem csrPut_fits {n : Nat} {x : W64} (h : csrFits n x = true) (k : State → State) (s : State) :
    csrPut n x k s = .done (k (csrWrite s n x)) := by simp [csrPut, h]
theorem csrPut_refuses {n : Nat} {x : W64} (h : csrFits n x = false) (k : State → State) (s : State) :
    csrPut n x k s = .trap illegal := by simp [csrPut, h]

theorem xCsrWr_begun (s : State) (i : Instr) (a : SReg) (c : BitVec 12) :
    xCsrWr a c (s.begun i) = csrPut c.toNat (s.rs a) id (s.begun i) := by simp [xCsrWr]
theorem xCsrSet_begun (s : State) (i : Instr) (d a : SReg) (c : BitVec 12) : xCsrSet d a c (s.begun i) =
    csrPut c.toNat (csrRead s c.toNat ||| s.rs a) (fun t => t.putS .salu d (csrRead s c.toNat)) (s.begun i) := by
  simp [xCsrSet, csrRead_begun]
theorem xCsrClr_begun (s : State) (i : Instr) (d a : SReg) (c : BitVec 12) : xCsrClr d a c (s.begun i) =
    csrPut c.toNat (csrRead s c.toNat &&& ~~~s.rs a) (fun t => t.putS .salu d (csrRead s c.toNat)) (s.begun i) := by
  simp [xCsrClr, csrRead_begun]

/-- A word of group CSR whose limits are broken raises ILLEGAL, whatever sequencer runs it. -/
theorem csr_illegal {s : State} {i : Instr} {x : State → Eff} (hx : wordEffect i = some x) (hm : majorOf i = 0x0B)
    (h : stateOk 0 i s = false) : Raises i s illegal := by
  have hc : issueCheck 0 i s = some illegal := by simp [issueCheck, groupCheck, hm, h]
  rw [Raises, exec_of_wordEffect hx, runWord, hc]
  rfl

/-- Which sequencers of a core a special register's access is allowed to (R148). -/
theorem csrAllowed_core (g : Nat) (q : SeqKind) (n : Nat) (w : Bool) : csrAllowed (.core g q) n w = true ↔
    n = 2 ∨ n = 3 ∨ (q = .C ∧ (n = 0 ∨ n = 1 ∨ n = 4)) ∨ (w = false ∧ 0x10 ≤ n ∧ n ≤ 0x15) := by
  unfold csrAllowed
  dsimp only
  split <;> simp
  simp only [imp_false] at *
  exact ⟨by assumption, by assumption, fun _ => by omega, fun _ _ => by omega⟩

/-! ### What fits (R148, R45, R192) -/

theorem and_eq_self_iff (x m : W64) : x &&& m = x ↔ x &&& ~~~m = 0 := by
  constructor
  · intro h
    rw [← h, BitVec.and_assoc, BitVec.and_not_self]
    exact BitVec.and_zero
  · intro h
    ext i hi
    have hb : (x[i] && !m[i]) = false := by simpa using congrArg (·[i]) h
    cases hx : x[i] <;> simp_all
theorem csrFits_fpcr (x : W64) : csrFits 0 x = decide (x &&& 0xFFFFFFFFFFFFC0F8 = 0) := by
  have hm : x.toNat &&& fpcrMask = (x &&& 0x3F07).toNat := by rw [BitVec.toNat_and]; rfl
  have hle : (x &&& 0x3F07).toNat ≤ 0x3F07 := by rw [← hm]; exact Nat.and_le_right
  have h := and_eq_self_iff x 0x3F07
  rw [Bool.eq_iff_iff]
  simp only [csrFits, hm, Bool.and_eq_true, decide_eq_true_eq, beq_iff_eq, BitVec.toNat_inj]
  exact ⟨fun hx => h.1 hx.2, fun hx => ⟨by rw [← h.2 hx]; omega, h.2 hx⟩⟩
theorem csrFits_vshape (x : W64) : csrFits 1 x =
    decide (bf x 22 42 = 0 ∧ 1 ≤ bf x 11 11 ∧ 1 ≤ bf x 0 11 ∧ bf x 11 11 * bf x 0 11 ≤ 1024) := by
  have hx := x.isLt
  have h : x.toNat < 2 ^ 32 ∧ fld x.toNat 22 10 = 0 ↔ fld x.toNat 22 42 = 0 := by simp only [fld]; omega
  rw [Bool.eq_iff_iff]
  simp only [csrFits, shapeOk, bf, Bool.and_eq_true, decide_eq_true_eq, beq_iff_eq, Bool.not_eq_true', beq_eq_false_iff_ne,
    Nat.one_le_iff_ne_zero, ← h]
  tauto

/-! ### Writes outside C -/

theorem csrWrite_c {u : State} {g : Nat} (h : u.cur = .core g .C) (n : Nat) (x : W64) : (csrWrite u n x).core g =
    { u.core g with flight := (u.core g).flight ++
      [{ left := 1, slot := u.curSlot, pc := u.curAddr,
         op := .csr n (if n = 0 then x ||| (u.core g).landed.setWidth 64 else x) }] } := by
  simp [csrWrite, h, Core.launch, csrValue]
theorem csrWrite_interlocked {u : State} {g : Nat} {q : SeqKind} (h : u.cur = .core g q) (hq : q ≠ .C) (n : Nat) (x : W64) :
    csrWrite u n x = csrStore u (.core g q) n x := by
  unfold csrWrite
  split
  · next k hk =>
    rw [h] at hk
    exact absurd (by simpa using hk : g = k ∧ q = .C).2 hq
  · rw [h]
/-- LC and ESC are of the sequencer itself. -/
theorem csrWrite_lc {u : State} {g : Nat} {q : SeqKind} (h : u.cur = .core g q) (hq : q ≠ .C) (x : W64) :
    csrWrite u 2 x = u.setMe { u.me with lc := x.setWidth 32 } := by
  rw [csrWrite_interlocked h hq]
  simp only [State.setMe, State.me, h]
  rfl
theorem csrWrite_esc {u : State} {g : Nat} {q : SeqKind} (h : u.cur = .core g q) (hq : q ≠ .C) (x : W64) :
    csrWrite u 3 x = u.setMe { u.me with esc := x.setWidth 3 } := by
  rw [csrWrite_interlocked h hq]
  simp only [State.setMe, State.me, h]
  rfl
theorem csrRead_lc {s : State} {g : Nat} {q : SeqKind} (h : s.cur = .core g q) : csrRead s 2 = s.me.lc.setWidth 64 := by
  simp [csrRead, h]
theorem csrRead_esc {s : State} {g : Nat} {q : SeqKind} (h : s.cur = .core g q) : csrRead s 3 = s.me.esc.setWidth 64 := by
  simp [csrRead, h]

/-- Settles O12. -/
theorem specialRegisterAccess : Obligations.SpecialRegisterAccess := by
  intro s d a c x
  refine ⟨fun h => exec_done rfl h (by rw [xCsrRd, csrRead_begun]), fun hf h => exec_done rfl h ?_, fun hf h => exec_done rfl h ?_,
    fun hf h => exec_done rfl h ?_, fun hf h => exec_trap rfl h rfl ?_, fun hf h => exec_trap rfl h rfl ?_,
    fun hf h => exec_trap rfl h rfl ?_, fun g q hg => ?_, csrFits_fpcr x, csrFits_vshape x, rfl, rfl, rfl, fun g q hg => ?_,
    fun h hh => ?_, fun u g q => ?_, fun u g q hg hq h2 h3 => ?_, fun u g hg => csrWrite_c hg ..⟩
  · rw [xCsrWr_begun, csrPut_fits hf]; rfl
  · rw [xCsrSet_begun, csrPut_fits hf]
  · rw [xCsrClr_begun, csrPut_fits hf]
  · rw [xCsrWr_begun, csrPut_refuses hf]
  · rw [xCsrSet_begun, csrPut_refuses hf]
  · rw [xCsrClr_begun, csrPut_refuses hf]
  · intro k n
    have hme : s.me = k.seq q := by rw [State.me, hg]; rfl
    simp [csrRead, hg, hme, cidOf, corOf, k, n]
  · intro own closed
    refine ⟨fun ho hi => csr_illegal rfl rfl ?_, fun hoc => ?_⟩
    · rw [← Bool.not_eq_true, show stateOk 0 (.csrRd d c) s = csrAllowed s.cur c.toNat false from rfl, hg, csrAllowed_core]
      tauto
    · have hno : (csrAllowed s.cur c.toNat true && csrLoopOk s c.toNat true) = false := by
        rw [Bool.and_eq_false_iff]
        refine hoc.imp (fun ho => ?_) fun hc => ?_
        · rw [← Bool.not_eq_true, hg, csrAllowed_core]
          tauto
        · simp [csrLoopOk, hc.1]
          tauto
      exact ⟨csr_illegal rfl rfl hno, csr_illegal rfl rfl hno, csr_illegal rfl rfl hno⟩
  · have hr : csrAllowed s.cur c.toNat false = false := by rw [hh]; rfl
    have hw : csrAllowed s.cur c.toNat true = false := by rw [hh]; rfl
    exact ⟨csr_illegal rfl rfl hr, csr_illegal rfl rfl (by simp [stateOk, hw]), csr_illegal rfl rfl (by simp [stateOk, hw]),
      csr_illegal rfl rfl (by simp [stateOk, hw])⟩
  · simp [csrStore]
  · rw [csrWrite_lc hg hq, csrWrite_esc hg hq, csrRead_lc (by simpa using hg), csrRead_esc (by simpa using hg)]
    simp only [State.me_setMe]
    refine ⟨trivial, trivial, ?_, ?_⟩
    · apply BitVec.eq_of_toNat_eq
      simp [csrFits] at h2 ⊢
      omega
    · apply BitVec.eq_of_toNat_eq
      simp [csrFits] at h3 ⊢
      omega
end Sys2Proof.Machine
end

section
/-! ## Bundles (O40) -/
namespace Sys2Proof.Machine

/-! ### What a slot's word may come to -/

/-- An effect is no fault after a unit has changed its own state: only the bank units answer so (R113). -/
def Eff.Clean : Eff → Prop
  | .fail _ _ => False
  | _ => True

@[simp] theorem Eff.clean_done (s : State) : (Eff.done s).Clean := trivial
@[simp] theorem Eff.clean_trap (e : Exc) : (Eff.trap e).Clean := trivial
@[simp] theorem Eff.clean_stall : Eff.stall.Clean := trivial
@[simp] theorem Eff.clean_freeze (u : Late) (a : W64) : (Eff.freeze u a).Clean := trivial
@[simp] theorem Eff.clean_ite (c : Prop) [Decidable c] (x y : Eff) : (if c then x else y).Clean ↔ (c → x.Clean) ∧ (¬c → y.Clean) := by
  split <;> simp [*]
theorem Eff.clean_need {α : Type} (x : Except Exc α) {f : α → Eff} (h : ∀ v, (f v).Clean) : (Eff.need x f).Clean := by
  cases x with
  | ok v => exact h v
  | error e => trivial
theorem clean_guardChk (c : Option Exc) {x : Eff} (h : x.Clean) : (guardChk c x).Clean := by
  cases c with
  | none => exact h
  | some e => trivial

/-! Control and special registers. -/

theorem clean_transfer (a : W64) (k : State → State) (s : State) : (transfer a k s).Clean := by
  unfold transfer
  split
  · trivial
  · exact Eff.clean_need _ fun _ => trivial
theorem clean_jump (a : W64) (k : State → State) (s : State) : (jump a k s).Clean := by simp [jump, clean_transfer]
theorem clean_xBr (n : Bool) (p : Reg16) (o : BitVec 21) (s : State) : (xBr n p o s).Clean := by simp [xBr, clean_transfer]
theorem clean_xLoopSp (c : Fin 8) (a : SReg) (i : BitVec 12) (s : State) : (xLoopSp c a i s).Clean := by
  unfold xLoopSp
  extract_lets
  split
  · trivial
  · split
    · trivial
    · split <;> trivial
theorem clean_csrPut (n : Nat) (x : W64) (k : State → State) (s : State) : (csrPut n x k s).Clean := by simp [csrPut]
theorem clean_xSysEnd (g : Bool) (s : State) : (xSysEnd g s).Clean := by
  unfold xSysEnd
  split <;> simp
theorem clean_xSysWev (s : State) : (xSysWev s).Clean := by simp [xSysWev]
theorem clean_fenceRun (sc : Fin 8) (r : Bool) (f : State → Agent → Nat → State) (s : State) : (fenceRun sc r f s).Clean := by
  simp [fenceRun]

/-! Rings, semaphores and barriers. -/

theorem clean_xRingClaim (d : SReg) (a : Reg16) (b : SReg) (m : Bool) (s : State) : (xRingClaim d a b m s).Clean :=
  Eff.clean_need _ fun _ => by simp
theorem clean_xRingCommit (d : SReg) (a : Reg16) (b : SReg) (m : Bool) (s : State) : (xRingCommit d a b m s).Clean := by
  refine Eff.clean_need _ fun v => ?_
  dsimp only
  split
  · trivial
  · split <;> trivial
theorem clean_xRingWaitf (a : Reg16) (b : SReg) (m : Bool) (s : State) : (xRingWaitf a b m s).Clean := by
  unfold xRingWaitf
  split
  · trivial
  · exact Eff.clean_need _ fun _ => by simp
theorem clean_xRingWaitr (a : Reg16) (b : SReg) (m : Bool) (s : State) : (xRingWaitr a b m s).Clean :=
  Eff.clean_need _ fun _ => by simp
theorem clean_xRingPop (a : Reg16) (b : SReg) (m : Bool) (s : State) : (xRingPop a b m s).Clean := by
  unfold xRingPop
  split
  · trivial
  · exact Eff.clean_need _ fun _ => by simp
theorem clean_xRingCfg (a : Reg16) (b : SReg) (s : State) : (xRingCfg a b s).Clean := by simp [xRingCfg]
theorem clean_xSemAdd (d : SReg) (a : Reg16) (b : SReg) (m : Bool) (s : State) : (xSemAdd d a b m s).Clean := by
  unfold xSemAdd
  split
  · split
    · trivial
    · exact Eff.clean_need _ fun _ => trivial
  · trivial
theorem clean_xSemWaitge (a : Reg16) (b : SReg) (s : State) : (xSemWaitge a b s).Clean := by simp [xSemWaitge]
theorem clean_xGbarWait (a : Reg16) (s : State) : (xGbarWait a s).Clean := by simp [xGbarWait]

/-! Vector and matrix words. -/

theorem clean_convert (half : Bool) (d : SReg) (a : VReg) (b : SReg) (t : Fin 8) (s : State) : (convert half d a b t s).Clean := by
  unfold convert
  extract_lets
  split
  · trivial
  · split
    · trivial
    · split
      · trivial
      · split <;> trivial
theorem clean_reduceRows (scan : Bool) (f : Mode → Num → Num → Res) (i : Int → Int → Int) (d a : VReg) (t : Fin 8) (s : State) :
    (reduceRows scan f i d a t s).Clean := by simp [reduceRows]
theorem clean_vmemIssue (z : Nat) (n : Need) (eas : List W64) (op : Landing) (s : State) : (vmemIssue z n eas op s).Clean := by
  unfold vmemIssue
  split <;> trivial
theorem clean_xVmemLd (d : VReg) (a b : SReg) (t : Fin 8) (s : State) : (xVmemLd d a b t s).Clean := by
  simp [xVmemLd, clean_vmemIssue]
theorem clean_xVmemSt (d : VReg) (a b : SReg) (t : Fin 8) (s : State) : (xVmemSt d a b t s).Clean := by
  simp [xVmemSt, clean_vmemIssue]
theorem State.clean_enqueue (s : State) (q : Queue) (cmd : Cmd) (sig : Option Reg16) : (s.enqueue q cmd sig).Clean := by
  unfold State.enqueue
  extract_lets
  split
  · split <;> trivial
  · trivial
theorem clean_mmaIssue (k : Fin 5) (d : TReg) (a b : Reg16) (i j l o r : Bool) (s : State) : (mmaIssue k d a b i j l o r s).Clean := by
  unfold mmaIssue
  extract_lets
  split
  · trivial
  · exact State.clean_enqueue ..
theorem clean_xAccSt (d : Reg16) (a : TReg) (x y : Bool) (s : State) : (xAccSt d a x y s).Clean := by
  simp [xAccSt, State.clean_enqueue]
theorem clean_xMkat (a b : SReg) (s : State) : (xMkat a b s).Clean := by simp [xMkat, State.clean_enqueue]
theorem clean_xProofRun (a : SReg) (g : Bool) (s : State) : (xProofRun a g s).Clean :=
  clean_guardChk _ (Eff.clean_need _ fun _ => by simp)

/-! ### The slots' decoder -/

/-- A decoder gives only instructions with an effect of their own that is clean. -/
def Slotted (x : Except DecodeError Instr) : Prop := ∀ i, x = .ok i → ∃ f, wordEffect i = some f ∧ ∀ s, (f s).Clean

theorem slotted_error (e : DecodeError) : Slotted (.error e) := fun _ h => nomatch h
theorem slotted_takeIf {i : Instr} {f : State → Eff} (h : wordEffect i = some f) (hf : ∀ s, (f s).Clean) (m n : Nat) (c : Bool) :
    Slotted (takeIf m n c i) := by
  unfold takeIf
  split
  · intro j hj
    obtain rfl := Except.ok.inj hj
    exact ⟨f, h, hf⟩
  · exact slotted_error _

theorem slotted_decodeSlot (w : Nat) : Slotted (decodeSlot w) := by
  unfold decodeSlot
  split
  any_goals simp only [decIop, decIopi, decIhi, decCmp, decPrd, decBr, decJmp, decLoop, decCsr, decBitf,
    decMuldiv, decSys, decRing, decSem, decGbar, decOrd, decMma, decAcc, decTent,
    decRslv, decMkat, decVfp, decVfma, decVint, decVcmp, decVcvt, decVred, decVperm, decVmem, decVsfu, decVclm, decVsel,
    decVset, decProof, decRoute]
  all_goals repeat' split
  any_goals exact slotted_error _
  all_goals refine slotted_takeIf rfl (fun s => ?_) _ _ _
  any_goals trivial
  all_goals simp only [xJmpR, xJmpLink, xCsrWr, xCsrSet, xCsrClr, xOrdRel, xOrdFull, xVcvtQf, xVcvtQh, xVredSum, xVredMax,
    xVredMin, xVredSadd, xVredSmax, xVmemGat, xVmemSct, xMmaRn8, xMmaRn4, xMmaRnx, xMmaRny, xMmaBf16, xAccAdd, xAccZero,
    xTentMark, xRslv, clean_xBr, clean_jump, clean_xLoopSp, clean_csrPut, clean_xSysEnd, clean_xSysWev, clean_fenceRun,
    clean_xRingClaim, clean_xRingCommit, clean_xRingWaitf, clean_xRingWaitr, clean_xRingPop, clean_xRingCfg, clean_xSemAdd,
    clean_xSemWaitge, clean_xGbarWait, clean_convert, clean_reduceRows, clean_vmemIssue, clean_xVmemLd, clean_xVmemSt,
    State.clean_enqueue, clean_mmaIssue, clean_xAccSt, clean_xMkat, clean_xProofRun, clean_guardChk]

/-! ### Headers (R150) -/

/-- The header of one slot under profile 1 with guard p, as a number. -/
def soloHeader (p : Reg16) : W32 := BitVec.ofNat 32 (63 * 2 ^ 26 + 2 ^ 22 + p.val * 2 ^ 16)
theorem headNp_solo (p : Reg16) : headNp (soloHeader p) = 1 := by revert p; decide
theorem headN_solo (p : Reg16) : headN (soloHeader p) = 0 := by revert p; decide
theorem headGuard_solo (p : Reg16) : headGuard (soloHeader p) 0 = p := by revert p; decide
theorem headOk_solo (p : Reg16) : headOk (soloHeader p) = true := by revert p; decide

/-- A header outside its limits: reserved bits, the profile, or a guard of a slot that the bundle does not have. -/
theorem headOk_false {h : W32} (hb : bf h 0 4 ≠ 0 ∨ (bf h 22 4 ≠ 1 ∧ bf h 22 4 ≠ 2) ∨ (bf h 20 2 = 0 ∧ bf h 4 12 ≠ 0)) :
    headOk h = false := by
  rw [← Bool.not_eq_true]
  intro hok
  simp only [headOk, headNp, headN, Bool.and_eq_true, Bool.or_eq_true, beq_iff_eq, List.all_eq_true, List.mem_range] at hok
  obtain ⟨⟨h0, hnp⟩, hg⟩ := hok
  obtain hr | hr | ⟨hn, hr⟩ := hb
  · exact hr h0
  · tauto
  · have guard0 (k : Nat) (hk : k < 4) (h1 : 1 ≤ k) : bf h (16 - 4 * k) 4 = 0 := by
      have := (hg k hk).resolve_left fun h => absurd (of_decide_eq_true h) (by omega)
      rw [headGuard, idx, Fin.ext_iff] at this
      have hlt : bf h (16 - 4 * k) 4 < 16 := fld_lt ..
      simpa [Nat.mod_eq_of_lt hlt] using this
    have h1 := guard0 1 (by decide) (by decide)
    have h2 := guard0 2 (by decide) (by decide)
    have h3 := guard0 3 (by decide) (by decide)
    simp only [bf, fld] at h1 h2 h3 hr
    omega

/-! ### The slots of a bundle (R151-R153) -/

theorem classesOk_single (x : Nat × Instr) : classesOk [x] = true := by
  have (c : SlotClass) : ([x].filter fun x => decide (classOf (majorOf x.2) = c)).length ≤ classLimit c :=
    (List.length_filter_le _ _).trans (by cases c <;> simp [classLimit])
  simp only [classesOk, this, decide_true, List.all_eq_true, implies_true]
theorem destsOk_single (x : Nat × Instr) : destsOk [x] = true := by simp [destsOk]
theorem checkBundle_solo {s : State} {p : Reg16} {w : W32} {i : Instr} (hw : decodeSlot w.toNat = .ok i)
    (hi : issueCheck 0 i s = none) : checkBundle (soloHeader p) [w] s = .ok [(0, i)] := by
  simp [checkBundle, headOk_solo, slotsFrom, hw, headN_solo, hi, classesOk_single, destsOk_single]
theorem checkBundle_badHeader {h : W32} (hh : headOk h = false) (ws : List W32) (s : State) : checkBundle h ws s = .error 15 := by
  simp [checkBundle, hh]

/-- A core without register errors reads none. -/
theorem readsError_none {s : State} {g : Nat} {q : SeqKind} (hc : s.cur = .core g q) (hr : (s.core g).regErr = [])
    (xs : List RegSite) : readsError xs s = false := by simp [readsError, hc, hr]

theorem activeSlots_solo_true {s : State} {g : Nat} {p : Reg16} {i : Instr} {f : State → Eff} (hc : s.cur = .core g .C)
    (hr : (s.core g).regErr = []) (hp : s.rp p = true) (hf : wordEffect i = some f) : activeSlots (soloHeader p) s [(0, i)] =
      [{ k := 0, control := decide (classOf (majorOf i) = .control), eff := f }] := by
  simp [activeSlots, headGuard_solo, readsError_none hc hr, hp, hf]
theorem activeSlots_solo_false {s : State} {g : Nat} {p : Reg16} {i : Instr} (hc : s.cur = .core g .C)
    (hr : (s.core g).regErr = []) (hp : s.rp p = false) : activeSlots (soloHeader p) s [(0, i)] = [] := by
  simp [activeSlots, headGuard_solo, readsError_none hc hr, hp]
theorem slotsEff_nil (s : State) : slotsEff s [] = (0, .done s) := rfl
/-- One slot alone: what its word comes to, which as a control slot that waits holds back the bundle. -/
theorem slotsEff_single_done {s t : State} {x : SlotRun} (h : x.at_ s = .done t) : (slotsEff s [x]).2 = .done t := by
  cases hx : x.control <;> simp [slotsEff, hx, h, Eff.waits, walkSlots]
theorem enterBundle_solo {s : State} {g : Nat} (hc : s.cur = .core g .C) (h1 : s.curNp = 1) (p : Reg16) (i : Instr) :
    s.enterBundle (soloHeader p) = s.begun i := by
  have ho : s.overwrite (dests i) = s := by simp [State.overwrite, hc]
  have hn : s.nextPc = s.me.pc + 8 := by simp [State.nextPc, hc]
  have hs : ({ s with curNp := 1 } : State) = s := by rw [← h1]
  rw [State.begun_eq, ho, hn, State.enterBundle, headNp_solo, headN_solo]
  exact congrArg (fun u : State => ({ u with curAddr := s.me.pc } : State).setMe
    { s.me with pc := s.me.pc + 8, wait := none, held := none }) hs

/-! ### A word that completes -/

theorem Seq.stop_run (q : Seq) : q.stop.run ≠ .running := by
  unfold Seq.stop
  split
  · simp
  · next h => exact fun hr => h (.inl hr)
theorem Core.seq_stopSeq (c : Core) (q : SeqKind) : (c.stopSeq q).seq q = (c.seq q).stop := by
  unfold Core.stopSeq
  extract_lets d
  split
  · next hq =>
    subst hq
    rfl
  · exact Core.seq_setSeq_self ..
theorem State.postStop_eq (s : State) (g : Nat) (r : Record) : ∃ d, s.postStop g r = { s with due := d } := by
  unfold State.postStop
  split
  · exact ⟨s.due, rfl⟩
  · extract_lets x
    split
    · split
      · split
        · exact ⟨s.due, rfl⟩
        · exact ⟨_, rfl⟩
      · exact ⟨_, rfl⟩
    · exact ⟨_, rfl⟩
@[simp] theorem State.core_postStop (s : State) (g k : Nat) (r : Record) : (s.postStop g r).core k = s.core k := by
  obtain ⟨d, hd⟩ := s.postStop_eq g r
  rw [hd]
  rfl
/-- Taking a fault on a compute core (R18). -/
theorem State.take_core {s : State} {g : Nat} {q : SeqKind} {e : Exc} (hc : s.cur = .core g q) (he : e.holds = none) :
    s.take e = (((s.traced e).haltNode g).setCore g ((((s.traced e).haltNode g).core g).stopSeq q)).postStop g
      (s.excRecord g q e) := by
  cases e with
  | hold r => cases he
  | fault c a d => simp [State.take, hc]
  | caused k c a d => simp [State.take, hc]
  | trap n v => simp [State.take, hc]
theorem State.cur_untouched : Untouched State.cur := ⟨fun _ _ _ => rfl, fun _ _ _ => rfl, fun _ _ => rfl⟩
@[simp] theorem State.cur_traced (s : State) (e : Exc) : (s.traced e).cur = s.cur := by
  unfold State.traced
  split
  · unfold State.consume
    split <;> rfl
  · split <;> rfl
  · rfl
  · rfl
theorem State.cur_take {s : State} {g : Nat} {q : SeqKind} {e : Exc} (hc : s.cur = .core g q) (he : e.holds = none) :
    (s.take e).cur = s.cur := (State.take_keeps State.cur_untouched e hc he).trans (s.cur_traced e)
/-- A sequencer of a core that takes a fault does not run on (R18). -/
theorem State.take_stops {s : State} {g : Nat} {q : SeqKind} {e : Exc} (hc : s.cur = .core g q) (he : e.holds = none) :
    (s.take e).me.run ≠ .running := by
  rw [State.me, State.cur_take hc he, hc, State.seqOf, State.take_core hc he, State.core_postStop, State.core_setCore, if_pos rfl,
    Core.seq_stopSeq]
  exact Seq.stop_run _
theorem State.me_startFreeze (s : State) (u : Late) (a : W64) : (s.startFreeze u a).me = s.me := by
  unfold State.startFreeze
  split
  · exact s.seqOf_setCore_keeps s.cur _ _ fun q => by cases q <;> rfl
  · rfl
/-- A clean effect of a word after which its sequencer runs and waits for nothing is one that has completed. -/
theorem clean_completes {s t : State} {i : Wait} {g : Nat} {q : SeqKind} {x : Eff} (hx : x.Clean) (hc : s.cur = .core g q)
    (hst : settle i s x = t) (hr : t.me.run = .running) (hw : t.me.wait = none) : x = .done t := by
  cases x with
  | done u => exact congrArg Eff.done hst
  | fail u e => cases hx
  | stall =>
    subst hst
    simp at hw
  | freeze u a =>
    subst hst
    simp [settle, State.me_startFreeze] at hw
  | trap e =>
    subst hst
    cases e with
    | hold r => simp [settle] at hw
    | fault c a d => exact absurd hr (State.take_stops (s := { s with curAddr := s.me.pc }) hc rfl)
    | caused k c a d => exact absurd hr (State.take_stops (s := { s with curAddr := s.me.pc }) hc rfl)
    | trap n v => exact absurd hr (State.take_stops (s := { s with curAddr := s.me.pc }) hc rfl)

/-! ### Bundles -/

/-- A bundle of one slot whose guard is true does what its word does. -/
theorem bundle_solo {s t : State} {g : Nat} {p : Reg16} {w : W32} {i : Instr} (hc : s.cur = .core g .C)
    (hr : (s.core g).regErr = []) (hw : decodeSlot w.toNat = .ok i) (hi : issueCheck 0 i s = none) (hp : s.rp p = true)
    (h0 : s.curSlot = 0) (h1 : s.curNp = 1) (ht : exec i s = .next t) (hrun : t.me.run = .running) (hwait : t.me.wait = none) :
    exec (.bundleIssue (soloHeader p) [w]) s = .next (t.setCore g (t.core g).passCycle) := by
  obtain ⟨f, hf, hclean⟩ := slotted_decodeSlot _ _ hw
  have hpass : s.passes i = true := by simp [State.passes, hi, readsError_none hc hr]
  have hft : f (s.begun i) = .done t := by
    rw [exec_passes hf hpass] at ht
    exact clean_completes (hclean _) hc (Host.Outcome.next.inj ht) hrun hwait
  have hs : ({ s.begun i with curSlot := 0 } : State) = s.begun i := by rw [← h0, ← s.curSlot_begun i]
  have he : (slotsEff (s.enterBundle (soloHeader p)) (activeSlots (soloHeader p) s [(0, i)])).2 = .done t := by
    rw [activeSlots_solo_true hc hr hp hf, enterBundle_solo hc h1 p i]
    exact slotsEff_single_done (by rw [SlotRun.at_, hs]; exact hft)
  simp only [exec, execBundleIssue, hc, State.issueBundle, checkBundle_solo hw hi, he]
/-- With a false guard the bundle only goes on. -/
theorem bundle_guarded {s : State} {g : Nat} {p : Reg16} {w : W32} {i : Instr} (hc : s.cur = .core g .C)
    (hr : (s.core g).regErr = []) (hw : decodeSlot w.toNat = .ok i) (hi : issueCheck 0 i s = none) (hp : s.rp p = false) :
    exec (.bundleIssue (soloHeader p) [w]) s = .next ((s.enterBundle (soloHeader p)).setCore g
      ((s.enterBundle (soloHeader p)).core g).passCycle) := by
  simp only [exec, execBundleIssue, hc, State.issueBundle, checkBundle_solo hw hi, activeSlots_solo_false hc hr hp, slotsEff_nil]
theorem Core.setSeq_v (c : Core) (q : SeqKind) (x : Seq) : (c.setSeq q x).v = c.v := by cases q <;> rfl
/-- A bundle that fails its checks at its header raises ILLEGAL with slot 15. -/
theorem bundle_illegal {s : State} {g : Nat} {h : W32} {ws : List W32} (hc : s.cur = .core g .C)
    (hk : checkBundle h ws s = .error 15) : exec (.bundleIssue h ws) s =
      .next (({ s with curSlot := 15, curAddr := s.me.pc } : State).take illegal) := by
  simp only [exec, execBundleIssue, hc, State.issueBundle, hk]
/-- Two slots with one destination (R22). -/
theorem checkBundle_shared {h w w' : W32} {i j : Instr} {s : State} (hh : headOk h = true) (hw : decodeSlot w.toNat = .ok i)
    (hw' : decodeSlot w'.toNat = .ok j) (hi : issueCheck (headN h) i s = none) (hj : issueCheck (headN h) j s = none)
    (hd : ∃ d ∈ dests i, d ∈ dests j) : checkBundle h [w, w'] s = .error 15 := by
  have hdest : destsOk [(0, i), (1, j)] = false := by
    obtain ⟨d, hdi, hdj⟩ := hd
    rw [← Bool.not_eq_true]
    intro hok
    simp only [destsOk, Bool.and_eq_true, List.all_eq_true] at hok
    simpa [hdj] using hok.1 d hdi
  simp [checkBundle, hh, slotsFrom, hw, hw', hi, hj, hdest]

/-- No other sequencer takes a header (R150). -/
theorem bundle_elsewhere {s : State} (hc : ∀ g, s.cur ≠ .core g .C) (h : W32) (ws : List W32) : exec (.bundleIssue h ws) s =
    .next (({ s with curSlot := 15, curAddr := s.me.pc } : State).take illegal) := by
  change execBundleIssue h ws s = _
  unfold execBundleIssue
  split
  · next hg => exact absurd hg (hc _)
  · rfl
theorem State.me_passCycle (s : State) (g : Nat) : (s.setCore g (s.core g).passCycle).me = s.me :=
  s.seqOf_setCore_keeps s.cur g _ fun q => by cases q <;> rfl
/-- The sequencer of a bundle of one slot that begins. -/
theorem me_enterBundle_solo (s : State) (p : Reg16) : (s.enterBundle (soloHeader p)).me =
    { s.me with pc := s.me.pc + 8, wait := none, held := none } := by
  rw [State.enterBundle, headN_solo, State.me_setMe]
  rfl

/-- Settles O40. -/
theorem bundlesIssue : Obligations.BundlesIssue := by
  intro s t g i j h w w' p hd hd2 at15 cycle
  refine ⟨fun hc hr hw hi => ⟨fun hp h0 h1 ht hrun hwait _ => bundle_solo hc hr hw hi hp h0 h1 ht hrun hwait, fun hp => ?_⟩,
    fun hc hb => bundle_illegal hc (checkBundle_badHeader (headOk_false hb) _ _),
    fun hc hw hw' hi hj hd => ?_, fun hc => bundle_elsewhere hc ..⟩
  · refine ⟨_, bundle_guarded hc hr hw hi hp, ?_⟩
    simp only [State.rs, State.rp, State.me_passCycle, me_enterBundle_solo]
    refine ⟨by rw [State.setCore_mem]; exact State.mem_setSeq .., trivial, fun r => rfl, fun r => rfl, ?_, ?_⟩
    · rw [State.core_setCore, if_pos rfl, Core.passCycle]
      exact congrArg cycle (State.flight_setSeq ..)
    · rw [State.core_setCore, if_pos rfl]
      exact State.core_setSeq_keeps Core.setSeq_v ..
  · have hn : headN hd2 = 1 := by decide
    exact bundle_illegal hc (checkBundle_shared (by decide) hw hw' (by rw [hn]; exact hi) (by rw [hn]; exact hj) hd)
end Sys2Proof.Machine
end

section
/-! ## The watchdog (O41) -/
namespace Sys2Proof.Machine

/-! ### The place that a watchdog's record names (R313) -/

/-- A core of which nothing waits and a landing is due, whose freeze has reached the watchdog's limit. -/
def expiredFreeze : Freeze := { seq := .K, unit := .bank, addr := 0, cycles := 2 ^ 20 }
def expiredCore : State :=
  { cores := [(0, { freeze := some expiredFreeze, flight := [{ left := 0, slot := 0, pc := 0, op := .stages }] })] }

theorem State.curAddr_untouched : Untouched State.curAddr := ⟨fun _ _ _ => rfl, fun _ _ _ => rfl, fun _ _ => rfl⟩
/-- The watchdog's stop leaves the address that it names. -/
theorem curAddr_watchdogStop (s : State) (g : Nat) (q : SeqKind) (a at_ : W64) (d n : Nat) (b : Bucket) :
    ((({ s with free := n, cur := .core g q, curAddr := at_ } : State).take (.fault 0x0C a d)).fill b .watchdog).curAddr = at_ := by
  rw [State.fill_curAddr, State.take_keeps State.curAddr_untouched _ rfl rfl]
  rfl

/-- Refutes O41: where nothing waits, the place of the watchdog's record is tied to `fl` only when `fl` is the operation
that lands. With another `fl` the statement claims every place at once. -/
theorem not_waitsAndFreezes : ¬ Obligations.WaitsAndFreezes := by
  intro h
  obtain ⟨-, -, -, -, -, -, -, hstop⟩ := h expiredCore (.core 0 .K) 0 .K .sysNop 0 [] 0 expiredFreeze
    { left := 1, slot := 0, pc := 0, op := .stages } 0
  have stopsAt (at_ : W64) := (hstop (by decide) (by decide) at_ (fun hw => absurd (by decide) hw)
    (fun _ hf => absurd hf (by decide)) (fun _ hd => absurd hd (by decide))).1 rfl
  have hsame := congrArg State.curAddr (Host.Outcome.next.inj ((stopsAt 0).symm.trans (stopsAt 1)))
  rw [curAddr_watchdogStop, curAddr_watchdogStop] at hsame
  exact absurd hsame (by decide)
end Sys2Proof.Machine
end

section
/-! ## Landings in the C stream (O20) -/
namespace Sys2Proof.Machine

/-! ### What the hazard checker changes (R81) -/

/-- t is s but for the records of the hazard checker. -/
def State.Tracked (s t : State) : Prop := ∃ h, t = { s with hazard := h }

theorem State.Tracked.refl (s : State) : s.Tracked s := ⟨s.hazard, rfl⟩
theorem State.Tracked.trans {s t u : State} (h : s.Tracked t) (h' : t.Tracked u) : s.Tracked u := by
  obtain ⟨a, rfl⟩ := h
  obtain ⟨b, rfl⟩ := h'
  exact ⟨b, rfl⟩
theorem State.Tracked.mem {s t : State} (h : s.Tracked t) : t.mem = s.mem := by obtain ⟨a, rfl⟩ := h; rfl
theorem State.Tracked.core {s t : State} (h : s.Tracked t) (g : Nat) : t.core g = s.core g := by obtain ⟨a, rfl⟩ := h; rfl
theorem State.tracked_meets (s : State) (a : Agent) (xs : List Src) : s.Tracked (s.meets a xs) := by
  unfold State.meets
  split
  · exact ⟨_, rfl⟩
  · exact .refl _
theorem State.tracked_logAccess (s : State) (a : Agent) (k n : Nat) (r w : Bool) (rel : List Src) :
    s.Tracked (s.logAccess a k n r w rel) := by
  unfold State.logAccess
  split
  · extract_lets z t
    have ht : s.Tracked t := by
      simp only [t]
      split
      · exact s.tracked_meets ..
      · exact .refl _
    exact ht.trans ⟨_, rfl⟩
  · exact .refl _
theorem State.tracked_track {s t : State} {g : Nat} {a : Agent} {k n : Nat} {w : Bool} {va : W64}
    (h : s.track g a k n w va = .ok t) : s.Tracked t := by
  unfold State.track at h
  split at h
  · split at h
    · cases h
    · obtain rfl := Except.ok.inj h
      exact s.tracked_logAccess ..
  · obtain rfl := Except.ok.inj h
    exact .refl _
theorem State.tracked_trackAll {g z : Nat} {w : Bool} (vas : List W64) {s t : State} (h : s.trackAll g z w vas = .ok t) :
    s.Tracked t := by
  induction vas generalizing s with
  | nil =>
    obtain rfl := Except.ok.inj h
    exact .refl _
  | cons va vas ih =>
    unfold State.trackAll at h
    split at h
    · cases h
    · next hu => exact (State.tracked_track hu).trans (ih h)
theorem State.tracked_trackLine {s t : State} {g : Nat} {a : Agent} {k : Nat} {w : Bool} {va : W64}
    (h : s.trackLine g a k w va = .ok t) : s.Tracked t := by
  unfold State.trackLine at h
  split at h
  · cases h
  · next hu => exact (State.tracked_track hu).trans (State.tracked_track h)
theorem State.tracked_trackLines {g : Nat} {w : Bool} (vas : List W64) {s t : State} (h : s.trackLines g w vas = .ok t) :
    s.Tracked t := by
  induction vas generalizing s with
  | nil =>
    obtain rfl := Except.ok.inj h
    exact .refl _
  | cons va vas ih =>
    unfold State.trackLines at h
    split at h
    · cases h
    · next hu => exact (State.tracked_trackLine hu).trans (ih h)
theorem State.tracked_foldTrack {g : Nat} {a : Agent} (ks : List (Nat × W64 × Nat)) {s t : State} (r : Except Exc State)
    (hr : ∀ u, r = .ok u → s.Tracked u)
    (h : ks.foldl (fun r x => match r with
      | .ok s => s.track g a x.1 8 true x.2.1
      | .error e => .error e) r = .ok t) : s.Tracked t := by
  induction ks generalizing r with
  | nil => exact hr t h
  | cons x ks ih =>
    refine ih _ (fun u hu => ?_) h
    cases r with
    | ok v => exact (hr v rfl).trans (State.tracked_track hu)
    | error e => cases hu
theorem State.tracked_trackList {s t : State} {g : Nat} {desc : Option Nat} {va : W64} {ks : List (Nat × W64 × Nat)}
    (h : s.trackList g desc va ks = .ok t) : s.Tracked t := by
  unfold State.trackList at h
  extract_lets a first at h
  refine State.tracked_foldTrack ks first (fun u hu => ?_) h
  cases desc with
  | some k => exact State.tracked_track hu
  | none =>
    obtain rfl := Except.ok.inj hu
    exact .refl _

/-! ### What writes to memory leave of the cores -/

/-- A function of a state that writes to memory leave as it is. -/
structure Unwritten {γ : Type} (p : State → γ) : Prop where
  mem : ∀ (s : State) m, p { s with mem := m } = p s
  island : ∀ s n x, p (State.setIsland s n x) = p s
  sent : ∀ (s : State) x, p { s with sent := x } = p s
  due : ∀ (s : State) d, p { s with due := d } = p s
  ingest : ∀ (s : State) x, p { s with ingest := x } = p s
  side : ∀ (s : State) x, p { s with side := x } = p s
  bad : ∀ (s : State) x, p { s with bad := x } = p s

theorem State.cores_unwritten : Unwritten State.cores := ⟨fun _ _ => rfl, fun _ _ _ => rfl, fun _ _ => rfl, fun _ _ => rfl,
  fun _ _ => rfl, fun _ _ => rfl, fun _ _ => rfl⟩

section
variable {γ : Type} {p : State → γ} (h : Unwritten p)
include h

theorem State.wakeKey_keeps (s : State) (k : Nat) : p (s.wakeKey k) = p s := State.askIsland_keeps h.island s _
theorem State.lostWrite_keeps (s : State) (k : Nat) : p (s.lostWrite k) = p s := by
  refine foldl_fixes p _ (fun s n => ?_) _ s
  split
  · rfl
  · exact h.due ..
theorem State.marked_keeps (s : State) (k : Nat) : p (s.marked k) = p s := by
  unfold State.marked
  split
  · rfl
  · exact h.ingest ..
theorem State.store_keeps (s : State) (k n v : Nat) : p (s.store k n v) = p s := by
  obtain h' | h' | h' | h' := s.store_cases k n v
  · rw [h'.2, State.sendExt, h.sent, State.wakeKey_keeps h]
  · rw [h'.2.2.2, State.lostWrite_keeps h, State.wakeKey_keeps h]
  · rw [h'.2.2.2, State.marked_keeps h, h.mem, State.wakeKey_keeps h]
  · rw [h'.2.2, h.mem, State.wakeKey_keeps h]
theorem State.setLine_keeps (s : State) (k : Nat) (bs : List Byte) (sb : W32) : p (s.setLine k bs sb) = p s := by
  have hs (t : State) : p (({ t with mem := Mem.writeBytes t.mem k bs }.setSide k sb).mend k) = p t := by
    rw [State.mend, h.bad, State.setSide, h.side, h.mem]
  unfold State.setLine
  extract_lets t
  have ht : p t = p s := State.wakeKey_keeps h s k
  split
  · rw [State.sendExt, h.sent, ht]
  · split
    · split
      · rw [State.lostWrite_keeps h, ht]
      · rw [State.marked_keeps h, hs, ht]
    · rw [hs, ht]
theorem State.convertWrite_keeps (s : State) (g : Nat) (desc : Option Nat) (count : Nat) (ks : List (Nat × W64 × Nat))
    (lines : List (W64 × List Byte × W32)) : p (s.convertWrite g desc count ks lines) = p s := by
  unfold State.convertWrite
  extract_lets t u
  have ht : p t = p s := foldl_fixes p _ (fun s x => State.store_keeps h ..) ks s
  have hu : p u = p s := by
    cases desc with
    | some k => exact (State.store_keeps h ..).trans ht
    | none => exact ht
  rw [foldl_fixes p _ (fun s x => State.setLine_keeps h ..), hu]
end

/-! ### One operation that lands (R21) -/

theorem landLoad_ok {s u : State} {g : Nat} {t : Fin 8} {eas : List W64} {xs : List W32} (h : s.landLoad g t eas = .ok (xs, u)) :
    s.Tracked u := by
  unfold State.landLoad at h
  split at h
  · cases h
  · next v hv =>
    split at h
    · cases h
    · cases h
      exact State.tracked_trackAll _ hv
theorem landStore_cores {s u : State} {g : Nat} {t : Fin 8} {items : List (W64 × W32)} (h : s.landStore g t items = .ok u) :
    u.cores = s.cores := by
  unfold State.landStore at h
  split at h
  · cases h
  · next v hv =>
    obtain rfl := Except.ok.inj h
    obtain ⟨a, rfl⟩ := State.tracked_trackAll _ hv
    exact foldl_fixes State.cores _ (fun s x => State.store_keeps State.cores_unwritten ..) items _
theorem landConvert_cores {s u : State} {g : Nat} {t : Fin 8} {half : Bool} {lanes : List W32} {dst ctrl : W64} {fp fl : W32}
    (h : s.landConvert g t half lanes dst ctrl fp = .ok (fl, u)) : u.cores = s.cores := by
  unfold State.landConvert at h
  split at h
  · cases h
  next h1 =>
  split at h
  · cases h
  extract_lets w chosen at h
  split at h
  · cases h
  split at h
  · cases h
  extract_lets r lines dsts at h
  split at h
  · cases h
  split at h
  · cases h
  next h2 =>
  split at h
  · cases h
  next h3 =>
  have hu := congrArg (fun x => x.2.cores) (Except.ok.inj h)
  obtain ⟨a, ha⟩ := ((State.tracked_trackAll _ h1).trans (State.tracked_trackList h2)).trans (State.tracked_trackLines _ h3)
  rw [← show _ = u.cores from hu, State.convertWrite_keeps State.cores_unwritten, ha]

/-! ### Register writes of a landed operation -/

theorem State.core_setCore_self (s : State) (g : Nat) (c : Core) : (s.setCore g c).core g = c := by simp
theorem Seq.rdS_wrS_ne (q : Seq) (d : SReg) (v : W64) {y : SReg} (h : y ≠ d) : (q.wrS d v).rdS y = q.rdS y := by
  rw [Seq.rdS_wrS, if_neg h]
  unfold Seq.rdS
  split <;> rfl
theorem Seq.rdP_wrP_ne (q : Seq) (d : Reg16) (b : Bool) {y : Reg16} (h : y ≠ d) : (q.wrP d b).rdP y = q.rdP y := by
  rw [Seq.rdP_wrP, if_neg h]
  unfold Seq.rdP
  by_cases h0 : y = 0 <;> simp [h0]

/-- What a pending register error does not touch. -/
theorem Core.clearErr_eq (c : Core) (hit : RegSite → Bool) : ∃ e, c.clearErr hit = { c with regErr := e } := by
  unfold Core.clearErr
  split
  · exact ⟨c.regErr, rfl⟩
  · exact ⟨_, rfl⟩
/-- The lanes that a landing brings. -/
def Core.landLanes (c : Core) : Option (VReg × List W32) → Core
  | some (r, xs) => (c.setLanes r xs).clearErr fun e => decide (e = RegSite.vector r)
  | none => c
/-- The scalar that a landing brings. -/
def Core.landScalar (c : Core) : Option (SReg × W64) → Core
  | some (d, x) => { c with c := c.c.wrS d x }.clearErr fun e => decide (e = RegSite.scalar d)
  | none => c
/-- The predicates that a landing brings. -/
def Core.landPreds (c : Core) : Landing → Core
  | .preg d b => { c with c := c.c.wrP d b }.clearErr fun e => decide (e = RegSite.pred d)
  | .preds x => { c with c := c.c.wrPreds x }.clearErr fun e => match e with | .pred _ => true | _ => false
  | _ => c
theorem Core.landWrite_eq (c : Core) (l : Landed) :
    c.landWrite l = ((c.landLanes l.lanes).landScalar l.sreg).landPreds l.flight.op := rfl

/-- A function of a core that the writes of predicates and scalars leave as it is. -/
structure Core.Aside {γ : Type} (p : Core → γ) : Prop where
  seq : ∀ (c : Core) q, p { c with c := q } = p c
  err : ∀ (c : Core) e, p { c with regErr := e } = p c
theorem Core.clearErr_keeps {γ : Type} {p : Core → γ} (h : Core.Aside p) (c : Core) (hit : RegSite → Bool) :
    p (c.clearErr hit) = p c := by
  obtain ⟨e, he⟩ := c.clearErr_eq hit
  rw [he, h.err]
@[simp] theorem Core.clearErr_v (c : Core) (hit : RegSite → Bool) : (c.clearErr hit).v = c.v :=
  Core.clearErr_keeps (p := Core.v) ⟨fun _ _ => rfl, fun _ _ => rfl⟩ ..
@[simp] theorem Core.clearErr_c (c : Core) (hit : RegSite → Bool) : (c.clearErr hit).c = c.c := by
  obtain ⟨e, he⟩ := c.clearErr_eq hit
  rw [he]
theorem Core.landWrite_keeps {γ : Type} {p : Core → γ} (h : Core.Aside p) (c : Core) (l : Landed) :
    p (c.landWrite l) = p (c.landLanes l.lanes) := by
  have hs (c : Core) (o : Option (SReg × W64)) : p (c.landScalar o) = p c := by
    unfold Core.landScalar
    split
    · rw [Core.clearErr_keeps h, h.seq]
    · rfl
  rw [Core.landWrite_eq, ← hs (c.landLanes l.lanes) l.sreg]
  unfold Core.landPreds
  split
  · rw [Core.clearErr_keeps h, h.seq]
  · rw [Core.clearErr_keeps h, h.seq]
  · rfl
theorem Core.landWrite_fpcr (c : Core) (l : Landed) : (c.landWrite l).fpcr = c.fpcr := by
  rw [Core.landWrite_keeps (p := Core.fpcr) ⟨fun _ _ => rfl, fun _ _ => rfl⟩]
  unfold Core.landLanes
  split
  · rw [Core.clearErr_keeps (p := Core.fpcr) ⟨fun _ _ => rfl, fun _ _ => rfl⟩]
    rfl
  · rfl
theorem Core.landWrite_flight (c : Core) (l : Landed) : (c.landWrite l).flight = c.flight := by
  rw [Core.landWrite_keeps (p := Core.flight) ⟨fun _ _ => rfl, fun _ _ => rfl⟩]
  unfold Core.landLanes
  split
  · rw [Core.clearErr_keeps (p := Core.flight) ⟨fun _ _ => rfl, fun _ _ => rfl⟩]
    rfl
  · rfl
theorem Core.landWrite_v (c : Core) (l : Landed) : (c.landWrite l).v = (c.landLanes l.lanes).v :=
  Core.landWrite_keeps (p := Core.v) ⟨fun _ _ => rfl, fun _ _ => rfl⟩ ..
theorem Core.landWrite_lanes {c : Core} {l : Landed} {r : VReg} {xs : List W32} (h : l.lanes = some (r, xs)) :
    (c.landWrite l).v.get r = xs ++ (c.v.get r).drop xs.length ∧ ∀ y, y ≠ r → (c.landWrite l).v.get y = c.v.get y := by
  rw [Core.landWrite_v, h, Core.landLanes, Core.clearErr_v]
  refine ⟨by simp [Core.setLanes, Vector.get_eq_getElem], fun y hy => ?_⟩
  have hv : (r : Nat) ≠ y := fun h => hy (Fin.ext h.symm)
  simp only [Core.setLanes, Vector.get_eq_getElem]
  exact Vector.getElem_set_ne _ _ hv
theorem Core.landWrite_noLanes {c : Core} {l : Landed} (h : l.lanes = none) : (c.landWrite l).v = c.v := by
  rw [Core.landWrite_v, h, Core.landLanes]
theorem Core.landWrite_sreg {c : Core} {f : Flight} {d : SReg} {x v : W64} {fl : W32} (h : f.op = .sreg d v) :
    (c.landWrite { flight := f, sreg := some (d, x), flags := fl }).c = c.c.wrS d x := by simp [Core.landWrite, h]
theorem Core.landWrite_preg {c : Core} {f : Flight} {d : Reg16} {b : Bool} {fl : W32} (h : f.op = .preg d b) :
    (c.landWrite { flight := f, flags := fl }).c = c.c.wrP d b := by simp [Core.landWrite, h]

/-! ### A landing cycle of one operation -/

/-- Core g with what stays in flight when the due operations land. -/
def Core.airborne (c : Core) : Core := { c with flight := c.flight.filter fun f => decide (f.left ≠ 0) }
/-- The state in which the due operations of C of core g land. -/
def State.lifted (s : State) (g : Nat) : State := ({ s with cur := .core g .C } : State).setCore g (s.core g).airborne
/-- The flags of a landing cycle. -/
def Core.flagged (c : Core) (fl : W32) : Core := { c.orFlags fl with landed := fl }

@[simp] theorem Core.flagged_c (c : Core) (fl : W32) : (c.flagged fl).c = c.c := rfl
@[simp] theorem Core.flagged_v (c : Core) (fl : W32) : (c.flagged fl).v = c.v := rfl
@[simp] theorem Core.flagged_flight (c : Core) (fl : W32) : (c.flagged fl).flight = c.flight := rfl
@[simp] theorem Core.flagged_fpcr (c : Core) (fl : W32) : (c.flagged fl).fpcr = c.fpcr ||| fl := rfl
@[simp] theorem Core.flagged_landed (c : Core) (fl : W32) : (c.flagged fl).landed = fl := rfl
@[simp] theorem State.core_lifted (s : State) (g : Nat) : (s.lifted g).core g = (s.core g).airborne := by simp [State.lifted]

/-- The special register that a landing writes. -/
def State.landCsr (s : State) (g : Nat) : Landing → State
  | .csr n x => csrStore s (.core g .C) n x
  | _ => s
theorem State.landCsr_fpcr (s : State) (g : Nat) (x : W64) :
    s.landCsr g (.csr 0 x) = s.setCore g { s.core g with fpcr := x.setWidth 32 } := rfl
/-- Whether a landing sets the stage predicates. -/
def Landing.isStages : Landing → Bool
  | .stages => true
  | _ => false
/-- The register writes of a landing cycle. -/
def State.landWrites (s : State) (g : Nat) (due : List Flight) (ls : List Landed) : State :=
  due.foldl (fun s f => s.landCsr g f.op) (s.setCore g ((issueOrder due ls).foldl Core.landWrite (s.core g)))
/-- The flags of a landing cycle ORed into FPCR. -/
def State.landFlags (s : State) (g : Nat) (ls : List Landed) : State :=
  s.setCore g ((s.core g).flagged (ls.foldl (fun fl l => fl ||| l.flags) 0))
/-- The stage predicates after a landing cycle. -/
def State.landStages (s : State) (g : Nat) (due : List Flight) : State :=
  if due.any fun f => f.op.isStages then s.setCore g { s.core g with c := (s.core g).c.stages } else s
/-- The fault of a landing cycle. -/
def State.landFault (s : State) (ls : List Landed) : State :=
  match ls.find? fun l => l.err.isSome with
  | some l => { s with curSlot := l.flight.slot, curAddr := l.flight.pc }.take (l.err.getD illegal)
  | none => s
/-- A landing cycle, part by part. -/
theorem State.land_eq (s : State) (g : Nat) : s.land g =
    let due := (s.core g).flight.filter fun f => f.left == 0
    let r := (s.setCore g { s.core g with flight := (s.core g).flight.filter fun f => !(f.left == 0) }).landEach g
      (due.foldl (fun fs f => insertSlot f fs) [])
    (((r.1.landWrites g due r.2).landFlags g r.2).landStages g due).landFault r.2 := rfl

section
variable {s u : State} {g : Nat} {f : Flight} {l : Landed} (hd : (s.core g).flight.filter (fun f => decide (f.left = 0)) = [f])
include hd

theorem mem_flight : f ∈ (s.core g).flight ∧ f.left = 0 := by
  have : f ∈ (s.core g).flight.filter (fun f => decide (f.left = 0)) := by simp [hd]
  simpa using this
theorem landHeld_any : (s.core g).flight.any (s.core g).landHeld = (s.core g).landHeld f := by
  rw [Bool.eq_iff_iff, List.any_eq_true]
  constructor
  · rintro ⟨x, hx, hh⟩
    have hx0 : x.left = 0 := by
      simp only [Core.landHeld, Bool.and_eq_true, beq_iff_eq] at hh
      exact hh.1
    have : x ∈ [f] := by rw [← hd]; simpa [hx0] using hx
    rwa [List.mem_singleton.1 this] at hh
  · exact fun hh => ⟨f, (mem_flight hd).1, hh⟩
theorem landing_due : (s.core g).flight.any (fun f => f.left == 0) = true :=
  List.any_eq_true.2 ⟨f, (mem_flight hd).1, by simp [(mem_flight hd).2]⟩
theorem landLate_eq : ({ s with cur := .core g .C } : State).landLate g =
    if (s.core g).landHeld f = true then some (.accumulator, 0) else none := by
  rw [← landHeld_any hd]
  rfl
/-- Where what lands is held back, the core freezes on the accumulators. -/
theorem landing_freezes (hh : (s.core g).landHeld f = true) : exec (.cStreamLanding g) s =
    .next (({ s with cur := .core g .C } : State).startFreeze .accumulator 0) := by
  change execCStreamLanding g s = _
  unfold execCStreamLanding
  dsimp only
  rw [show ({ s with cur := .core g .C } : State).core g = s.core g from rfl, if_pos (landing_due hd), landLate_eq hd, if_pos hh]
/-- The landing cycle of one operation. -/
theorem land_one (hl : (s.lifted g).landOne g f = (u, l)) (hf : l.flight = f) (he : l.err = none) (hs : f.op.isStages = false) :
    ({ s with cur := .core g .C } : State).land g =
      (((u.setCore g ((u.core g).landWrite l)).landCsr g f.op).setCore g
        ((((u.setCore g ((u.core g).landWrite l)).landCsr g f.op).core g).flagged l.flags)) := by
  have hdue : (s.core g).flight.filter (fun f => f.left == 0) = [f] := hd
  have hrest : (s.core g).flight.filter (fun f => !(f.left == 0)) = (s.core g).flight.filter fun f => decide (f.left ≠ 0) := by
    refine List.filter_congr fun x _ => ?_
    by_cases h : x.left = 0 <;> simp [h]
  have heach : (s.lifted g).landEach g [f] = (u, [l]) := by simp only [State.landEach, hl]
  have horder : issueOrder [f] [l] = [l] := by simp [issueOrder, hf]
  have hlift : ({ s with cur := .core g .C } : State).setCore g { s.core g with
      flight := (s.core g).flight.filter fun f => !(f.left == 0) } = s.lifted g := by rw [hrest]; rfl
  have hzero : (0 : W32) ||| l.flags = l.flags := by simp
  rw [State.land_eq]
  simp only [show ({ s with cur := .core g .C } : State).core g = s.core g from rfl, hdue, hlift, List.foldl_cons, List.foldl_nil,
    insertSlot, heach, horder, hs, hzero, State.landWrites, State.landFlags, State.landStages, State.landFault, List.any_cons,
    List.any_nil, Bool.or_false, Bool.false_eq_true, if_false, List.find?_cons, List.find?_nil, he, Option.isSome_none]
/-- Where nothing holds it back, one operation lands. -/
theorem landing_one (hh : (s.core g).landHeld f = false) (hl : (s.lifted g).landOne g f = (u, l)) (hf : l.flight = f)
    (he : l.err = none) (hs : f.op.isStages = false) : exec (.cStreamLanding g) s =
    .next (((u.setCore g ((u.core g).landWrite l)).landCsr g f.op).setCore g
      ((((u.setCore g ((u.core g).landWrite l)).landCsr g f.op).core g).flagged l.flags)) := by
  change execCStreamLanding g s = _
  unfold execCStreamLanding
  dsimp only
  rw [show ({ s with cur := .core g .C } : State).core g = s.core g from rfl, if_pos (landing_due hd), landLate_eq hd,
    if_neg (by simp [hh]), ← land_one hd hl hf he hs]
/-- The landing of an operation that writes no special register and reads no tile that is held back. -/
theorem landing_plain (hh : (s.core g).landHeld f = false) (hl : (s.lifted g).landOne g f = (u, l)) (hf : l.flight = f)
    (he : l.err = none) (hs : f.op.isStages = false) (hc : ∀ t : State, t.landCsr g f.op = t) :
    ∃ w, exec (.cStreamLanding g) s = .next w ∧ w.core g = ((u.core g).landWrite l).flagged l.flags ∧ w.mem = u.mem ∧
      w.side = u.side :=
  ⟨_, landing_one hd hh hl hf he hs, by simp [hc], by simp [hc], by simp [hc]⟩
end

theorem Core.landHeld_of_noTile {f : Flight} (h : f.op.tileAt = none) (c : Core) : c.landHeld f = false := by
  simp [Core.landHeld, h]

section
variable {s u : State} {g : Nat} {f : Flight} (hd : (s.core g).flight.filter (fun f => decide (f.left = 0)) = [f])
include hd

theorem landing_sreg {x : SReg} {v : W64} (ho : f.op = .sreg x v) : ∃ w, exec (.cStreamLanding g) s = .next w ∧ w.mem = s.mem ∧
    w.core g = ((s.core g).airborne.landWrite { flight := f, sreg := some (x, v), flags := f.flags }).flagged f.flags := by
  obtain ⟨w, hw, hcore, hmem, -⟩ := landing_plain (u := s.lifted g) (l := { flight := f, sreg := some (x, v), flags := f.flags })
    hd (Core.landHeld_of_noTile (by rw [ho]; rfl) _) (by simp only [State.landOne, ho]) rfl rfl (by rw [ho]; rfl)
    fun t => by rw [ho]; rfl
  exact ⟨w, hw, hmem, by rw [hcore, State.core_lifted]⟩
theorem landing_preg {p : Reg16} {b : Bool} (ho : f.op = .preg p b) : ∃ w, exec (.cStreamLanding g) s = .next w ∧
    w.core g = ((s.core g).airborne.landWrite { flight := f, flags := f.flags }).flagged f.flags := by
  obtain ⟨w, hw, hcore, -, -⟩ := landing_plain (u := s.lifted g) (l := { flight := f, flags := f.flags })
    hd (Core.landHeld_of_noTile (by rw [ho]; rfl) _) (by simp only [State.landOne, ho]) rfl rfl (by rw [ho]; rfl)
    fun t => by rw [ho]; rfl
  exact ⟨w, hw, by rw [hcore, State.core_lifted]⟩
theorem landing_vec {r : VReg} {xs : List W32} (ho : f.op = .vec r xs) : ∃ w, exec (.cStreamLanding g) s = .next w ∧
    w.mem = s.mem ∧
    w.core g = ((s.core g).airborne.landWrite { flight := f, lanes := some (r, xs), flags := f.flags }).flagged f.flags := by
  obtain ⟨w, hw, hcore, hmem, -⟩ := landing_plain (u := s.lifted g) (l := { flight := f, lanes := some (r, xs), flags := f.flags })
    hd (Core.landHeld_of_noTile (by rw [ho]; rfl) _) (by simp only [State.landOne, ho]) rfl rfl (by rw [ho]; rfl)
    fun t => by rw [ho]; rfl
  exact ⟨w, hw, hmem, by rw [hcore, State.core_lifted]⟩
theorem landing_load {r : VReg} {t : Fin 8} {eas : List W64} {xs : List W32} (ho : f.op = .load r t eas)
    (hx : (s.lifted g).landLoad g t eas = .ok (xs, u)) : ∃ w, exec (.cStreamLanding g) s = .next w ∧ w.mem = s.mem ∧
    w.core g = ((s.core g).airborne.landWrite { flight := f, lanes := some (r, xs), flags := f.flags }).flagged f.flags := by
  obtain ⟨w, hw, hcore, hmem, -⟩ := landing_plain (u := u) (l := { flight := f, lanes := some (r, xs), flags := f.flags })
    hd (Core.landHeld_of_noTile (by rw [ho]; rfl) _) (by simp only [State.landOne, ho, hx]) rfl rfl (by rw [ho]; rfl)
    fun t => by rw [ho]; rfl
  have hu := landLoad_ok hx
  exact ⟨w, hw, hmem.trans hu.mem, by rw [hcore, hu.core, State.core_lifted]⟩
theorem landing_store {t : Fin 8} {items : List (W64 × W32)} (ho : f.op = .store t items)
    (hx : (s.lifted g).landStore g t items = .ok u) : ∃ w, exec (.cStreamLanding g) s = .next w ∧ w.mem = u.mem ∧
    w.core g = ((s.core g).airborne.landWrite { flight := f }).flagged 0 := by
  obtain ⟨w, hw, hcore, hmem, -⟩ := landing_plain (u := u) (l := { flight := f })
    hd (Core.landHeld_of_noTile (by rw [ho]; rfl) _) (by simp only [State.landOne, ho, hx]) rfl rfl (by rw [ho]; rfl)
    fun t => by rw [ho]; rfl
  exact ⟨w, hw, hmem, by rw [hcore, State.core, landStore_cores hx, ← State.core, State.core_lifted]⟩
theorem landing_convert {t : Fin 8} {half : Bool} {xs : List W32} {dst ctrl : W64} {fp fl : W32}
    (ho : f.op = .convert t half xs dst ctrl fp) (hx : (s.lifted g).landConvert g t half xs dst ctrl fp = .ok (fl, u)) :
    ∃ w, exec (.cStreamLanding g) s = .next w ∧ w.mem = u.mem ∧ w.side = u.side ∧
    w.core g = ((s.core g).airborne.landWrite { flight := f, flags := fl }).flagged fl := by
  obtain ⟨w, hw, hcore, hmem, hside⟩ := landing_plain (u := u) (l := { flight := f, flags := fl })
    hd (Core.landHeld_of_noTile (by rw [ho]; rfl) _) (by simp only [State.landOne, ho, hx]) rfl rfl (by rw [ho]; rfl)
    fun t => by rw [ho]; rfl
  exact ⟨w, hw, hmem, hside, by rw [hcore, State.core, landConvert_cores hx, ← State.core, State.core_lifted]⟩
theorem landing_fpcr {v : W64} (ho : f.op = .csr 0 v) : ∃ w, exec (.cStreamLanding g) s = .next w ∧
    (w.core g).fpcr = v.setWidth 32 ||| f.flags ∧ (w.core g).v = (s.core g).v := by
  refine ⟨_, landing_one (u := s.lifted g) (l := { flight := f, flags := f.flags }) hd
    (Core.landHeld_of_noTile (by rw [ho]; rfl) _) (by simp only [State.landOne, ho]) rfl rfl (by rw [ho]; rfl), ?_⟩
  rw [ho, State.core_setCore_self, Core.flagged_fpcr, Core.flagged_v, State.landCsr_fpcr, State.core_setCore_self, State.core_setCore_self,
    State.core_lifted]
  exact ⟨rfl, Core.landWrite_noLanes rfl⟩
theorem landHeld_accRd {r : VReg} {tr : TReg} {pt n m : Nat} (ho : f.op = .accRd r tr pt n m) :
    (s.core g).landHeld f = false ↔ ((s.core g).tiles.getD tr.val {}).err = [] ∧
      ∀ y ∈ (s.core g).mq.cmds, y.order < m → tr ∉ y.cmd.writesTiles := by
  simp [Core.landHeld, ho, (mem_flight hd).2, Landing.tileAt, Core.tileBusy]
theorem landing_accRd {r : VReg} {tr : TReg} {pt n m : Nat} (ho : f.op = .accRd r tr pt n m) (hh : (s.core g).landHeld f = false)
    (ht : ((s.core g).tiles.getD tr.val {}).tent = false) (hp : ((s.core g).tiles.getD tr.val {}).poison = false) :
    ∃ w, exec (.cStreamLanding g) s = .next w ∧ w.mem = s.mem ∧ w.core g = ((s.core g).airborne.landWrite
      { flight := f, lanes := some (r, ((s.core g).tiles.getD tr.val {}).part pt n) }).flagged 0 := by
  have htile : (s.lifted g).tile g tr = (s.core g).tiles.getD tr.val {} := by rw [State.tile, State.core_lifted]; rfl
  obtain ⟨w, hw, hcore, hmem, -⟩ := landing_plain (u := s.lifted g)
    (l := { flight := f, lanes := some (r, ((s.core g).tiles.getD tr.val {}).part pt n) }) hd hh
    (by simp [State.landOne, ho, htile, ht, hp]) rfl rfl (by rw [ho]; rfl) fun t => by rw [ho]; rfl
  exact ⟨w, hw, hmem, by rw [hcore, State.core_lifted]⟩
end

theorem Tile.part_of_clean {x : Tile} (ht : x.tent = false) (hp : x.poison = false) (pt n : Nat) :
    x.part pt n = (List.range n).map fun e => if x.cnt = 0 ∧ x.closed = false then 0 else (x.vals[1024 * pt + e]?).getD 0 := by
  refine List.map_congr_left fun e _ => ?_
  by_cases h : x.cnt = 0 ∧ x.closed = false
  · simp [Tile.elem, Tile.values, h, ht, hp]
  · simp only [Tile.elem, Tile.values, ht, hp, and_true, if_neg h]
theorem State.putV_c {s : State} {g : Nat} (h : s.cur = .core g .C) (k : Lat) (d : VReg) (xs : List W32) (fl : W32) :
    s.putV k d (xs, fl) = s.launch g k (.vec (physReg (s.core g).vrot d) xs) fl := by
  simp [State.putV, State.vphys, State.meCore, h]

/-- Settles O20: the one operation that is due lands on the state without it, and its register writes are read back. -/
theorem vectorResultsLand : Obligations.VectorResultsLand := by
  refine ⟨fun s g k d xs fl h => State.putV_c h k d xs fl, ?_⟩
  intro s u g f r x p v b xs t eas items half dst ctrl fp fl tr pt n m c rest bare hd
  refine ⟨fun ho => ?_, fun ho => ?_, fun ho => ?_, fun ho hx => ?_, fun ho hx => ?_, fun ho hx => ?_, landing_fpcr hd, fun ho => ?_⟩
  · obtain ⟨w, hw, hm, hc⟩ := landing_sreg hd ho
    refine ⟨w, hw, hm, ?_⟩
    rw [hc]
    simp only [Core.flagged_c, Core.flagged_v, Core.flagged_flight, Core.flagged_fpcr, Core.landWrite_fpcr, Core.landWrite_flight,
      Core.landWrite_sreg ho]
    exact ⟨rfl, rfl, by simp [Seq.rdS_wrS], fun y hy => Seq.rdS_wrS_ne _ _ _ hy, Core.landWrite_noLanes rfl⟩
  · obtain ⟨w, hw, hc⟩ := landing_preg hd ho
    refine ⟨w, hw, ?_⟩
    rw [hc]
    simp only [Core.flagged_c, Core.flagged_flight, Core.landWrite_flight, Core.landWrite_preg ho]
    exact ⟨rfl, by by_cases hp : p = 0 <;> simp [hp, Seq.rdP_wrP], fun y hy => Seq.rdP_wrP_ne _ _ _ hy⟩
  · obtain ⟨w, hw, hm, hc⟩ := landing_vec hd ho
    refine ⟨w, hw, hm, ?_⟩
    rw [hc]
    simp only [Core.flagged_v, Core.flagged_flight, Core.flagged_fpcr, Core.flagged_landed, Core.landWrite_fpcr,
      Core.landWrite_flight]
    exact ⟨rfl, rfl, trivial, Core.landWrite_lanes rfl⟩
  · obtain ⟨w, hw, hm, hc⟩ := landing_load hd ho hx
    exact ⟨w, hw, hm, by rw [hc]; exact Core.landWrite_lanes rfl⟩
  · obtain ⟨w, hw, hm, hc⟩ := landing_store hd ho hx
    exact ⟨w, hw, hm, by rw [hc]; exact Core.landWrite_noLanes rfl, by rw [hc]; exact Core.landWrite_flight ..⟩
  · obtain ⟨w, hw, hm, hs, hc⟩ := landing_convert hd ho hx
    refine ⟨w, hw, hm, hs, ?_⟩
    rw [hc]
    simp only [Core.flagged_v, Core.flagged_flight, Core.flagged_fpcr, Core.landWrite_fpcr, Core.landWrite_flight]
    exact ⟨Core.landWrite_noLanes rfl, rfl, rfl⟩
  · intro y free
    refine ⟨fun hf => ?_, fun hf ht hp => ?_⟩
    · refine landing_freezes hd ?_
      rw [← Bool.not_eq_false, landHeld_accRd hd ho]
      exact hf
    · obtain ⟨w, hw, hm, hc⟩ := landing_accRd hd ho ((landHeld_accRd hd ho).2 hf) ht hp
      refine ⟨w, hw, hm, ?_⟩
      rw [hc, ← Tile.part_of_clean ht hp]
      have hn : n = (y.part pt n).length := by simp [Tile.part]
      have hl := Core.landWrite_lanes (c := (s.core g).airborne) (l := { flight := f, lanes := some (r, y.part pt n) }) rfl
      rw [← hn] at hl
      exact hl
end Sys2Proof.Machine
end

section
/-! ## Engine errors and the proofer (O39) -/
namespace Sys2Proof.Machine

/-! ### The canonical sum (R43) -/

/-- A span of chunks, added in ascending order. -/
def spanOf (c : W32) (rest : List W32) : W32 := rest.foldl addF32 c
theorem spanSums_nil (n : Nat) : spanSums n [] = [] := by cases n <;> rfl
theorem spanSums_last {n : Nat} {c : W32} {cs : List W32} (h : cs.length ≤ 15) : spanSums (n + 1) (c :: cs) = [spanOf c cs] := by
  simp only [spanSums, List.take_of_length_le h, List.drop_eq_nil_of_le h, spanSums_nil, spanOf]
theorem spanSums_full {n : Nat} {c : W32} {cs : List W32} (h : cs.length = 15) (r : List W32) :
    spanSums (n + 1) (c :: (cs ++ r)) = spanOf c cs :: spanSums n r := by
  simp only [spanSums, List.take_left' h, List.drop_left' h, spanOf]
theorem spanTree_one (n : Nat) (x : W32) : spanTree n [x] = x := by cases n <;> rfl
theorem spanTree_two (n : Nat) (x y : W32) : spanTree (n + 1) [x, y] = addF32 x y := spanTree_one ..
theorem spanTree_three (n : Nat) (x y z : W32) : spanTree (n + 2) [x, y, z] = addF32 (addF32 x y) z := spanTree_two ..
theorem canonicalSum_one (x : W32) {cs : List W32} (h : cs.length ≤ 15) : canonicalSum (x :: cs) = spanOf x cs := by
  rw [canonicalSum, List.length_cons, spanSums_last h, spanTree_one]
theorem canonicalSum_two (x y : W32) {as cs : List W32} (ha : as.length = 15) (hc : cs.length ≤ 15) :
    canonicalSum (x :: as ++ y :: cs) = addF32 (spanOf x as) (spanOf y cs) := by
  have hn : (x :: as ++ y :: cs).length = as.length + cs.length + 2 := by simp; omega
  rw [canonicalSum, hn, List.cons_append, spanSums_full ha, spanSums_last hc, spanTree_two]
theorem canonicalSum_three (x y z : W32) {as bs cs : List W32} (ha : as.length = 15) (hb : bs.length = 15) (hc : cs.length ≤ 15) :
    canonicalSum (x :: as ++ y :: bs ++ z :: cs) = addF32 (addF32 (spanOf x as) (spanOf y bs)) (spanOf z cs) := by
  have hn : (x :: as ++ y :: bs ++ z :: cs).length = as.length + bs.length + cs.length + 3 := by simp; omega
  rw [canonicalSum, hn, List.append_assoc, List.cons_append, spanSums_full ha, List.cons_append, spanSums_full hb, spanSums_last hc,
    spanTree_three]

/-! ### Engine errors that cannot be replayed (R216) -/

@[simp] theorem Core.queue_setQueue (c : Core) (q : Queue) (e : EQueue) : (c.setQueue q e).queue q = e := by cases q <;> rfl
theorem State.post_cores (s : State) (c : Nat) (r : Record) : (s.post c r).cores = s.cores := by
  unfold State.post
  split <;> rfl
/-- Where a window cannot be replayed, its tiles are poisoned and the error is over. -/
theorem State.replay_unreplayable {s : State} {g : Nat} {q : Queue} (he : ((s.core g).queue q).err = true)
    (hc : ((s.core g).queue q).cmds ≠ []) (hu : ((s.core g).queue q).unreplayable = true) : ∃ bad : List Nat,
    (s.replay g q).core g = { (s.core g).setQueue q { (s.core g).queue q with err := false } with
      tiles := (((s.core g).queue q).window.tiles.map (·.1) ++ bad).foldl (fun m t => m.set t (m.getD t {}).spoil)
        ((s.core g).setQueue q { (s.core g).queue q with err := false }).tiles } := by
  unfold State.replay
  extract_lets c e bad j written s0 s1
  rw [if_neg (by simp [e, c, he, hc]), if_pos hu]
  refine ⟨bad.filter fun t => !written.contains t, ?_⟩
  have hcore : s1.core g = (s.core g).setQueue q { (s.core g).queue q with err := false } := State.core_setCore_self ..
  have hnote (u : State) : (j.note u 9 0).core g = u.core g := by
    rw [State.core, Job.note, State.note, State.post_cores, ← State.core]
  rw [hnote, State.spoilTiles, State.core_setCore_self, hcore]
theorem Map.getD_foldl_set_keeps {α : Type} {P : α → Prop} (f : α → α) (d : α) (hf : ∀ x, P (f x)) (ts : List Nat) (m : Map α) {i : Nat}
    (hi : P (m.getD i d)) : P ((ts.foldl (fun m t => m.set t (f (m.getD t d))) m).getD i d) := by
  refine foldl_keeps (fun m : Map α => P (m.getD i d)) _ (fun m t h => ?_) ts m hi
  rw [Map.getD_set]
  split
  · exact hf _
  · exact h
/-- What is made of every unit of a list holds of each of them after. -/
theorem Map.getD_foldl_set {α : Type} {P : α → Prop} (f : α → α) (d : α) (hf : ∀ x, P (f x)) (ts : List Nat) (m : Map α) {i : Nat}
    (hi : i ∈ ts) : P ((ts.foldl (fun m t => m.set t (f (m.getD t d))) m).getD i d) := by
  induction ts generalizing m with
  | nil => simp at hi
  | cons t ts ih =>
    rw [List.foldl_cons]
    by_cases h : i = t
    · refine Map.getD_foldl_set_keeps f d hf ts _ ?_
      rw [h, Map.getD_set_self]
      exact hf _
    · exact ih _ (List.mem_of_ne_of_mem h hi)
theorem engineReplay_unreplayable {s : State} {g : Nat} {q : Queue} (hr : s.engineRuns g q = true)
    (he : ((s.core g).queue q).err = true) (hc : ((s.core g).queue q).cmds ≠ []) (hu : ((s.core g).queue q).unreplayable = true) :
    ∃ t, exec (.engineReplay g q) s = .next t ∧ ((t.core g).queue q).err = false ∧
      ∀ i ∈ ((s.core g).queue q).window.tiles.map (·.1), ((t.core g).tiles.getD i {}).poison = true := by
  obtain ⟨bad, h⟩ := State.replay_unreplayable he hc hu
  refine ⟨s.replay g q, ?_, ?_, fun i hi => ?_⟩
  · change execEngineReplay g q s = _
    rw [execEngineReplay, if_pos hr]
  · rw [h]
    exact congrArg EQueue.err (Core.queue_setQueue (s.core g) q _)
  · rw [h]
    exact Map.getD_foldl_set (P := fun t => t.poison = true) Tile.spoil {} (fun _ => rfl) _ _ (List.mem_append_left _ hi)
theorem engineReplay_calm {s : State} {g : Nat} {q : Queue} (he : ((s.core g).queue q).err = false) (hq : q ≠ .m) :
    exec (.engineReplay g q) s = .next s := by
  have h : s.replay g q = s := by
    unfold State.replay
    cases q with
    | m => exact absurd rfl hq
    | l => simp [he]
    | s => simp [he]
  change execEngineReplay g q s = _
  rw [execEngineReplay, h, ite_self]

/-! ### Known-answer tests (R234) -/

theorem EQueue.update_none (e : EQueue) (n : Nat) : (e.update n fun _ => none).cmds = e.cmds.filter fun y => decide (y.order ≠ n) := by
  rw [EQueue.update, ← List.filterMap_eq_filter]
  refine List.filterMap_congr fun y _ => ?_
  by_cases h : y.order = n <;> simp [Option.guard, h]
/-- The matrix queue without command x, and the event that its leaving raises. -/
def State.katDone (s : State) (g : Nat) (x : QCmd) : State :=
  (s.setQueue g .m ((s.core g).mq.update x.order fun _ => none)).raiseEvents g
theorem State.core_raiseEvents (s : State) (g : Nat) : (s.raiseEvents g).core g = (s.core g).mapSeqs fun q => { q with event := true } :=
  State.core_setCore_self ..
theorem State.katDone_cmds (s : State) (g : Nat) (x : QCmd) :
    ((s.katDone g x).core g).mq.cmds = (s.core g).mq.cmds.filter fun y => decide (y.order ≠ x.order) := by
  rw [State.katDone, State.core_raiseEvents, ← EQueue.update_none, State.setQueue, State.core_setCore_self]
  rfl
theorem State.katDone_event (s : State) (g : Nat) (x : QCmd) (w : SeqKind) : (((s.katDone g x).core g).seq w).event = true := by
  rw [State.katDone, State.core_raiseEvents]
  cases w <;> rfl
theorem katTestRun_eq {s : State} {g n : Nat} {x : QCmd} {sig : W32} (hf : (s.core g).mq.cmds.find? (fun x => x.cmd.isKat) = some x)
    (hx : x.cmd = .mkat n sig) (hr : s.engineRuns g .m = true) (hi : s.matrixIdle g = true) : exec (.katTestRun g) s =
    if katSignature n = sig.toNat then .next (s.katDone g x)
    else .next (((s.katDone g x).imprecise g 5 (s.job g .m x).index x.pc (.fault 0x0A (sig.setWidth 64) (katSignature n))).fill
      (.cluster (cidOf g)) .kat) := by
  change execKatTestRun g s = _
  unfold execKatTestRun
  simp only [hf, hx, hr, hi, Bool.and_self, Bool.not_true, Bool.false_eq_true, if_false, State.katDone]

/-! ### Proofer commands (R242, R243) -/

/-- The cluster's proofer begins its next command. -/
def State.proofTaken (s : State) (c : Nat) (ps : List PCmd) : State :=
  { s with asked := none }.setCluster c { s.cluster c with proofs := ps }
section
variable {s : State} {c : Nat} {p : PCmd} {ps : List PCmd} (hr : (s.cluster c).running = none) (hp : (s.cluster c).proofs = p :: ps)
include hr hp
theorem proofStart_error {e : Exc} {t : State} (h : runProof c p (s.proofTaken c ps) = { s := t, err := some e }) :
    exec (.prooferCommandStart c) s = .next (t.proofFault p e) := by
  change execProoferCommandStart c s = _
  simp only [State.proofTaken, hr] at h
  simp only [execProoferCommandStart, hr, hp, h]
theorem proofStart_done {t : State} (h : runProof c p (s.proofTaken c ps) = { s := t }) :
    exec (.prooferCommandStart c) s = .next (t.setCluster c { t.cluster c with running := some p }) := by
  change execProoferCommandStart c s = _
  simp only [State.proofTaken, hr] at h
  simp only [execProoferCommandStart, hr, hp, h]
end
theorem runProof_misaligned {p : PCmd} (h : p.pred % 32 ≠ 0) (c : Nat) (s : State) :
    runProof c p s = { s := s, err := some (align (w64 p.pred)) } := by
  have ha : p.alignErr = some (align (w64 p.pred)) := by
    simp [PCmd.alignErr, h, firstFault]
  simp only [runProof, State.proofStartErr, ha, orElse, Option.isSome_some, if_true]
theorem Ran.each_chain {f : Nat → State → Ran} {u : Nat → State} (m k : Nat) (h : ∀ i < k + m, f i (u i) = { s := u (i + 1) }) :
    Ran.each f (List.range' k m) (u k) = { s := u (k + m) } := by
  induction m generalizing k with
  | zero => rfl
  | succ m ih =>
    rw [List.range'_succ, Ran.each, h k (by omega)]
    simp only [Ran.andThen, Bool.false_or]
    rw [ih (k + 1) (fun i hi => h i (by omega)), Nat.add_right_comm, Nat.add_assoc]
/-- The state after the rows that a token's scores read. -/
def State.proofRead (s : State) (c : Nat) (p : PCmd) (head i : Nat) : State :=
  (if i = 0 then s.consumeRows c p.part p.gate (fld head 20 13 * p.rowLines) else s).consumeRows c p.part
    (p.input + i * p.rowLines * 256) p.rowLines
theorem proofRow_ok {s : State} {c : Nat} {p : PCmd} {head i k : Nat} {xs : List (Nat × W32)} {es : List Nat}
    (h1 : s.proofScores c p i (List.range (fld head 20 13)) = .ok xs)
    (h2 : (s.proofRead c p head i).predEntries p head ((ranked xs).take (min 16 (fld head 36 4 + fld head 33 3))) = .ok es)
    (h3 : (s.proofRead c p head i).proofReach c p.part { w := true } (p.pred + 32 * i) = .ok k) :
    proofRow c p head i s = { s := (s.proofRead c p head i).store k 32 (predRow es) } := by
  unfold State.proofRead at h2 h3 ⊢
  simp only [proofRow, h1, h2, h3, Ran.with]
theorem runProof_ok {s : State} {c : Nat} {p : PCmd} {head : Nat} {u : Nat → State} (h1 : s.proofStartErr c p = none)
    (h2 : s.engineHeader p.ptb p.layer = .ok head)
    (h3 : s.proofErr c p.part { rd := true } p.gate (fld head 20 13 * p.rowLines) 256 = none) (h0 : u 0 = s)
    (hu : ∀ i < p.tokens, proofRow c p head i (u i) = { s := u (i + 1) }) : runProof c p s = { s := u p.tokens } := by
  simp only [runProof, h1, h2, h3, Ran.with]
  rw [← h0, List.range_eq_range', Ran.each_chain p.tokens 0 (by simpa using hu), Nat.zero_add]
/-- What the retirement of a proofer command leaves of its cluster. -/
def State.proofLeft (s : State) (c : Nat) : State := s.setCluster c { s.cluster c with running := none }
theorem State.tracked_release (s : State) (a : Agent) (n : Nat) (o : Obj) : s.Tracked (s.release a n o) := by
  unfold State.release
  split
  · exact ⟨_, rfl⟩
  · exact .refl _
theorem State.semAddTo_eq (s : State) (a : Agent) (g : Nat) (k : Reg16) (x : W32) (r : Bool) :
    ∃ h, s.semAddTo a g k x r = (({ s with hazard := h } : State).setCore g { s.core g with
      sems := (s.core g).sems.set k.val ((s.core g).sems.get k + x) k.isLt }).raiseEvents g := by
  obtain ⟨h, hh⟩ := s.tracked_release a (a.scopeTo g r) (.sem g k)
  refine ⟨h, ?_⟩
  rw [State.semAddTo, hh]
  rfl
theorem prooferRetire_signal {s : State} {c g : Nat} {p : PCmd} {k : Reg16} (hr : (s.cluster c).running = some p) (hg : p.core = some g)
    (hk : p.sig = some k) : ∃ t, exec (.prooferCommandRetire c) s = .next t ∧ t.mem = s.mem ∧ (t.cluster c).running = none ∧
      (t.core g).sems.get k = (s.core g).sems.get k + 1 := by
  obtain ⟨h, he⟩ := (s.proofLeft c).semAddTo_eq (.proof g p.tag) g k 1 false
  refine ⟨(s.proofLeft c).semAddTo (.proof g p.tag) g k 1 false, ?_, ?_, ?_, ?_⟩
  · change execProoferCommandRetire c s = _
    simp only [execProoferCommandRetire, hr, hg, hk, State.proofLeft]
  · rw [he]; rfl
  · rw [he]
    exact congrArg Cluster.running (s.cluster_setCluster c c _ |>.trans (if_pos rfl))
  · rw [he, State.core_raiseEvents, State.core_setCore_self]
    simp [Core.mapSeqs, State.proofLeft, Vector.get_eq_getElem]
theorem prooferRetire_end {s : State} {c n : Nat} {p : PCmd} {en : Entry} (hr : (s.cluster c).running = some p) (hg : p.core = none)
    (hn : p.entry = some n) (he : s.disp.pool.get? n = some en) : ∃ t, exec (.prooferCommandRetire c) s = .next t ∧ t.mem = s.mem ∧
      (t.cluster c).running = none ∧
      t.disp.pool.get? n = some (if en.overrun then { en with phase := .halted, valid := false, overrun := false }
          else { en with next := en.total }) := by
  have hen : (s.proofLeft c).entry n = some en := he
  have hrun : ((s.proofLeft c).cluster c).running = none := by simp [State.proofLeft]
  refine ⟨(s.proofLeft c).proofEnd n, ?_, ?_⟩
  · change execProoferCommandRetire c s = _
    simp only [execProoferCommandRetire, hr, hg, hn, State.proofLeft]
  · unfold State.proofEnd
    simp only [hen]
    split
    · exact ⟨rfl, hrun, Map.get?_set_self ..⟩
    · exact ⟨rfl, hrun, Map.get?_set_self ..⟩
theorem proofFault_core {s : State} {p : PCmd} {g : Nat} (h : p.core = some g) (e : Exc) : s.proofFault p e = s.imprecise g 6 0 p.pc e := by
  simp only [State.proofFault, h]
theorem proofFault_entry {s : State} {p : PCmd} {n : Nat} {en : Entry} {a : Nat} (h : p.core = none) (hn : p.entry = some n)
    (he : s.disp.pool.get? n = some en) : s.proofFault p (align (w64 a)) =
    (s.setEntry n { en with phase := .halted, valid := false }).entryRecord n en
      { code := 3, unit := 6, addr := a % 2 ^ 64, caddr := p.pc.toNat } := by
  simp only [State.proofFault, h, hn, State.entry, he]
  rfl

/-- Settles O39: each clause is one branch of its unit's step, and the rows of a proofer command follow one another. -/
theorem engineErrorsAndProofer : Obligations.EngineErrorsAndProofer := by
  refine ⟨fun x y z as bs cs ha hb hc => ⟨canonicalSum_one x hc, canonicalSum_two x y ha hc, canonicalSum_three x y z ha hb hc⟩, ?_⟩
  intro s g c q x p ps n sig k a en head u xs es at_ eq
  refine ⟨fun hr he hc hu => engineReplay_unreplayable hr he hc hu, fun he hq => engineReplay_calm he hq, fun hf hx hr hi => ⟨fun hs => ?_, fun hs => ?_⟩,
    fun hr hp => ?_, fun hr hg hk => prooferRetire_signal hr hg hk, fun hr hg hn he => prooferRetire_end hr hg hn he⟩
  · exact ⟨s.katDone g x, by rw [katTestRun_eq hf hx hr hi, if_pos hs], rfl, State.katDone_cmds .., State.katDone_event s g x⟩
  · exact ⟨s.katDone g x, rfl, State.katDone_cmds .., by rw [katTestRun_eq hf hx hr hi, if_neg hs]⟩
  · intro start read
    refine ⟨fun hm ha hg => ?_, fun hm ha hg hn he => ?_, fun h1 h2 h3 h0 hrow => ?_⟩
    · rw [proofStart_error hr hp (runProof_misaligned hm c _), proofFault_core hg, ha]
      rfl
    · rw [proofStart_error hr hp (runProof_misaligned hm c _)]
      exact congrArg Host.Outcome.next (proofFault_entry (s := s.proofTaken c ps) hg hn he)
    · refine proofStart_done hr hp (runProof_ok h1 h2 h3 h0 fun i hi => ?_)
      obtain ⟨hx, hes, hat, hn⟩ := hrow i hi
      have hread : read i = (u i).proofRead c p head i := by cases i <;> rfl
      rw [hread] at hes hat hn
      rw [hn]
      exact proofRow_ok hx hes hat
end Sys2Proof.Machine
end

section
/-! ## Nodes that end (O45) -/
namespace Sys2Proof.Machine

/-! ### Maps of pool entries -/

theorem Map.get?_del_self {α : Type} (m : Map α) (k : Nat) : Map.get? (Map.del m k) k = none := by
  induction m with
  | nil => rfl
  | cons e m ih =>
    by_cases h : e.1 = k
    · simpa [Map.del, h] using ih
    · have hd : Map.del (e :: m) k = e :: Map.del m k := by simp [Map.del, h]
      rw [hd]
      simpa [Map.get?, h] using ih
theorem Map.get?_del_ne {α : Type} (m : Map α) {j k : Nat} (h : j ≠ k) : Map.get? (Map.del m k) j = Map.get? m j := by
  induction m with
  | nil => rfl
  | cons e m ih =>
    by_cases h1 : e.1 = k
    · have hd : Map.del (e :: m) k = Map.del m k := by simp [Map.del, h1]
      rw [hd, ih]
      simp [Map.get?, h1, h.symm]
    · have hd : Map.del (e :: m) k = e :: Map.del m k := by simp [Map.del, h1]
      rw [hd]
      simp only [Map.get?, ih]
/-- Replacing the units of a map one by one. -/
theorem Map.getD_map {α : Type} (f : Nat × α → α) (m : Map α) (k : Nat) (d : α) :
    Map.getD (List.map (fun e => (e.1, f e)) m) k d = match Map.get? m k with | some v => f (k, v) | none => d := by
  induction m with
  | nil => rfl
  | cons e m ih =>
    by_cases h : e.1 = k
    · subst h
      simp [Map.getD, Map.get?]
    · simpa [Map.getD, Map.get?, h] using ih
theorem Map.getD_eq {α : Type} (m : Map α) (k : Nat) (d : α) : Map.getD m k d = (Map.get? m k).getD d := by
  induction m with
  | nil => rfl
  | cons e m ih =>
    by_cases h : e.1 = k <;> simp [Map.getD, Map.get?, h, ih]

/-! ### What the dispatcher's orders change (R76) -/

theorem State.tracked_clearObj (s : State) (o : Obj) : s.Tracked (s.clearObj o) := ⟨_, rfl⟩
theorem State.tracked_copySrcs (s : State) (o o' : Obj) : s.Tracked (s.copySrcs o o') := ⟨_, rfl⟩
theorem State.tracked_foldl {α : Type} (f : State → α → State) (hf : ∀ (s : State) a, s.Tracked (f s a)) (l : List α) (s : State) :
    s.Tracked (l.foldl f s) := foldl_keeps (fun t => s.Tracked t) f (fun t a h => h.trans (hf t a)) l s (.refl s)
theorem State.tracked_releaseCores (s : State) (gs : List Nat) (o : Obj) : s.Tracked (s.releaseCores gs o) := by
  unfold State.releaseCores
  split
  · exact State.tracked_foldl _ (fun s a => s.tracked_release ..) _ s
  · exact .refl _

/-! ### The end of a node (R135) -/

theorem State.unbindBars_bound (s : State) (n c : Nat) (b : Reg16) : (((s.unbindBars n c).cluster c).bars.get b).bound ≠ some n := by
  rw [State.unbindBars, State.cluster_setCluster, if_pos rfl]
  simp only [Vector.get_eq_getElem, Vector.getElem_map]
  split
  · simp
  · assumption
/-- Core g runs nothing of entry n. -/
def State.Left (s : State) (n g : Nat) : Prop := ∀ y, (s.core g).ctx = some y → y.entry ≠ n
theorem State.freeCore_left (s : State) (n g k : Nat) (h : k = g ∨ s.Left n g) :
    (match (s.core k).ctx with
      | some x => if x.entry = n then s.setCore k { s.core k with ctx := none } else s
      | none => s).Left n g := by
  split
  · next x hx =>
    split
    · next hn =>
      intro y hy
      rw [State.core_setCore] at hy
      split at hy
      · cases hy
      · next hg => exact h.elim (fun e => absurd e.symm hg) (fun h => h y hy)
    · next hn =>
      obtain rfl | h := h
      · intro y hy
        obtain rfl := Option.some.inj (hx.symm.trans hy)
        exact hn
      · exact h
  · next hx =>
    obtain rfl | h := h
    · intro y hy
      rw [hx] at hy
      cases hy
    · exact h
theorem State.freeCores_left (n : Nat) (gs : List Nat) {g : Nat} (hg : g ∈ gs) (s : State) : (s.freeCores n gs).Left n g := by
  unfold State.freeCores
  induction gs generalizing s with
  | nil => simp at hg
  | cons k gs ih =>
    rw [List.foldl_cons]
    by_cases h : g ∈ gs
    · exact ih h _
    · have hk : k = g := ((List.mem_cons.1 hg).resolve_right h).symm
      refine foldl_keeps (fun t : State => t.Left n g) _ (fun t k ht => ?_) gs _ ?_
      · exact t.freeCore_left n g k (.inr ht)
      · exact s.freeCore_left n g k (.inl hk)
theorem State.freeCores_eq (s : State) (n : Nat) (gs : List Nat) : ∃ cs, s.freeCores n gs = { s with cores := cs } := by
  refine foldl_keeps (fun t : State => ∃ cs, t = { s with cores := cs }) _ (fun t g h => ?_) gs s ⟨s.cores, rfl⟩
  obtain ⟨cs, rfl⟩ := h
  dsimp only
  split
  · split
    · exact ⟨_, rfl⟩
    · exact ⟨cs, rfl⟩
  · exact ⟨cs, rfl⟩
theorem Ws.settleFree_bound (w : Ws) : w.settleFree.bound = w.bound := by
  unfold Ws.settleFree
  split <;> rfl
theorem Part.wsAt_setWs (p : Part) (n : Nat) (w : Ws) : (p.setWs n w).wsAt n = w := by
  simp [Part.wsAt, Part.setWs, Vector.get_eq_getElem]
theorem State.unbindWs_bound {s : State} {e : Entry} {k : Nat} (h : e.ws = some k) :
    (((s.unbindWs e).part e.part).wsAt k).bound = ((s.part e.part).wsAt k).bound - 1 := by
  simp only [State.unbindWs, h, State.bindWs, Bool.false_eq_true, if_false, State.part_setPart, if_true, Part.wsAt_setWs,
    Ws.settleFree_bound]
theorem State.unbindWs_eq (s : State) (e : Entry) : ∃ ps, s.unbindWs e = { s with parts := ps } := by
  unfold State.unbindWs
  split
  · exact ⟨_, rfl⟩
  · exact ⟨_, rfl⟩
/-- A node with no successors left whose save nobody asks for retires: its entry goes, and the rest is what its parts leave. -/
theorem State.retire_last {s : State} {n : Nat} {e : Entry} (hk : e.kind = .node) (hs : bf e.record 272 16 ≤ e.succ)
    (hp : e.preempt = []) : ∃ h, s.retire n e =
      { ({ (((s.unbindWs e).dropMarks n e).unbindBars n e.cluster) with hazard := h } : State).freeCores n e.cores with
        asked := e.held }.dropEntry n := by
  have hl : e.leftover = 0 := Nat.sub_eq_zero_of_le hs
  obtain ⟨h, hh⟩ := State.tracked_releaseCores (((s.unbindWs e).dropMarks n e).unbindBars n e.cluster) e.cores (.node n)
  refine ⟨h, ?_⟩
  simp only [State.retire, State.endPreempt, hp, List.foldl_nil, hh, State.finishRetire, hk, hl, State.releaseFrom]
theorem nodeRetire_last {s : State} {n : Nat} {e : Entry} (he : s.disp.pool.get? n = some e) (hk : e.kind = .node)
    (hf : s.finished e = true) (hs : bf e.record 272 16 ≤ e.succ) (hp : e.preempt = []) :
    ∃ t, exec (.nodeRetire n) s = .next t ∧ t.disp.pool.get? n = none ∧ t.mem = s.mem ∧
      (∀ g ∈ e.cores, t.Left n g) ∧ (∀ b, ((t.cluster e.cluster).bars.get b).bound ≠ some n) ∧
      ∀ k, e.ws = some k → ((t.part e.part).wsAt k).bound = ((s.part e.part).wsAt k).bound - 1 := by
  obtain ⟨h, hr⟩ := State.retire_last (s := s) (n := n) hk hs hp
  obtain ⟨ps, hps⟩ := s.unbindWs_eq e
  have hb := ((s.unbindWs e).dropMarks n e).unbindBars_bound n e.cluster
  have hw (k : Nat) (hk : e.ws = some k) := State.unbindWs_bound (s := s) hk
  generalize hv : (s.unbindWs e).dropMarks n e = v at hr hb
  have hvm : v.mem = s.mem := by rw [← hv, hps]; rfl
  have hvp : v.parts = (s.unbindWs e).parts := by rw [← hv]; rfl
  obtain ⟨cs, hcs⟩ := State.freeCores_eq ({ v.unbindBars n e.cluster with hazard := h }) n e.cores
  refine ⟨s.retire n e, ?_, ?_, ?_, fun g hg => ?_, fun b => ?_, fun k hk => ?_⟩
  · change execNodeRetire n s = _
    simp only [execNodeRetire, State.entry, he, hf, if_true]
  · rw [hr]
    exact Map.get?_del_self ..
  · rw [hr, hcs]
    exact hvm
  · rw [hr]
    exact State.freeCores_left n e.cores hg _
  · rw [hr, hcs]
    exact hb b
  · rw [← hw k hk, hr, hcs]
    change ((Map.getD v.parts e.part {}).wsAt k).bound = _
    rw [hvp]
    rfl

/-! ### Budgets (R141) -/

theorem budget_gang {s : State} {n : Nat} {e : Entry} (he : s.disp.pool.get? n = some e) (ho : s.overBudget e = true) (ht : e.tgt = 0)
    (hs : s.slotsFor e = true) : exec (.budget n) s = .next (s.setEntry n { e with overrun := true }) := by
  change execBudget n s = _
  simp only [execBudget, State.entry, he, ho, ht, hs, Bool.true_eq_false, if_false, if_true]
theorem budget_proofer {s : State} {n : Nat} {e : Entry} (he : s.disp.pool.get? n = some e) (ho : s.overBudget e = true)
    (ht : e.tgt = 1) (hp : s.proofRuns n e = true) : exec (.budget n) s = .next (s.setEntry n { e with overrun := true }) := by
  change execBudget n s = _
  simp only [execBudget, State.entry, he, ho, ht, hp, Bool.true_eq_false, if_false, one_ne_zero, and_self, if_true]
/-- The commands of entry n that its proofers have not begun are dropped. -/
def State.unproofed (s : State) (n : Nat) : State :=
  { s with clusters := s.clusters.map fun c =>
    (c.1, { c.2 with proofs := c.2.proofs.filter fun p => !(p.entry == some n) }) }
theorem budget_routine {s : State} {n : Nat} {e : Entry} (he : s.disp.pool.get? n = some e) (ho : s.overBudget e = true)
    (ht : e.tgt = 2) : exec (.budget n) s =
    .next (((s.unproofed n).setEntry n { e with phase := .halted, valid := false }).postTo e.part (s.lowCluster e.part)
      { code := 0x0D, unit := 8, cid := s.lowCluster e.part, nv := !e.isTile, graph := e.graph,
        nid := if e.isTile then n else e.nid, detail := 1 }) := by
  have hne : ¬(2 = 1 ∧ s.proofRuns n e = true) := by simp
  change execBudget n s = _
  simp only [execBudget, State.entry, he, ho, ht, Bool.true_eq_false, if_false, two_ne_zero, hne, State.budgetRecord, State.entryRecord,
    State.entryPlace]
  rfl
theorem budget_within {s : State} {n : Nat} {e : Entry} (he : s.disp.pool.get? n = some e) (ho : s.overBudget e = false) :
    exec (.budget n) s = .next s := by
  change execBudget n s = _
  simp only [execBudget, State.entry, he, ho, if_true]

/-! ### A save by the peel (R292, R293) -/

/-- A function of a state that a save leaves as it is. -/
structure Unsaved {γ : Type} (p : State → γ) : Prop extends Unwritten p where
  fills : ∀ (s : State) x, p { s with fills := x } = p s
  free : ∀ (s : State) x, p { s with free := x } = p s
  part : ∀ s n x, p (State.setPart s n x) = p s
theorem State.cores_unsaved : Unsaved State.cores := ⟨State.cores_unwritten, fun _ _ => rfl, fun _ _ => rfl, fun _ _ _ => rfl⟩
theorem State.hearths_unsaved : Unsaved State.hearths := ⟨⟨fun _ _ => rfl, fun _ _ _ => rfl, fun _ _ => rfl, fun _ _ => rfl,
  fun _ _ => rfl, fun _ _ => rfl, fun _ _ => rfl⟩, fun _ _ => rfl, fun _ _ => rfl, fun _ _ _ => rfl⟩
section
variable {γ : Type} {p : State → γ} (h : Unsaved p)
include h
theorem State.putLines_keeps (k n : Nat) (bs : List Byte) (s : State) : p (s.putLines k n bs) = p s := by
  induction n generalizing k bs s with
  | zero => rfl
  | succ n ih => rw [State.putLines, ih, State.setLine_keeps h.toUnwritten]
theorem State.putRegion_keeps (s : State) (k : Nat) (bs : List Byte) : p (s.putRegion k bs) = p s := State.putLines_keeps h ..
theorem State.consume_keeps (s : State) (k : Nat) : p (s.consume k) = p s := by
  unfold State.consume
  split
  · exact (h.fills ..).trans (h.free ..)
  · rfl
theorem State.note_keeps (s : State) (g unit index code : Nat) (pc addr : W64) : p (s.note g unit index code pc addr) = p s := by
  unfold State.note State.post
  split
  · exact h.due ..
  · rfl
theorem State.saveSpad_keeps (s : State) (g slot base : Nat) : p (s.saveSpad g slot base) = p s := by
  unfold State.saveSpad
  extract_lets bad sides t u
  rw [foldl_fixes p _ (fun s i => (State.note_keeps h ..).trans (State.consume_keeps h ..)), State.putRegion_keeps h,
    foldl_fixes p _ (fun s i => State.putRegion_keeps h ..)]
theorem State.saveCore_keeps (s : State) (n : Nat) (e : Entry) (valid rank g slot : Nat) :
    p (s.saveCore n e valid rank g slot) = p s := by
  unfold State.saveCore
  extract_lets base c bytes bars head s1 s2 s3 x
  rw [h.free, h.part, State.putRegion_keeps h, State.putRegion_keeps h, foldl_fixes p _ (fun s r => State.putRegion_keeps h ..),
    State.saveSpad_keeps h]
theorem State.saveGang_keeps (s : State) (n : Nat) (e : Entry) (valid : Nat) (slots : List Nat) :
    p (s.saveGang n e valid slots) = p s := foldl_fixes p _ (fun _ _ => State.saveCore_keeps h ..) _ s
end

/-- Core c runs nothing. -/
def Core.Vacant (c : Core) : Prop := c.ctx = none ∧ ∀ w, (c.seq w).run = .ended
theorem Core.vacant_vacate (c : Core) : c.vacate.Vacant := ⟨rfl, fun w => by cases w <;> rfl⟩
theorem Core.Vacant.steal {c : Core} (h : c.Vacant) (x : Option Nat) : Core.Vacant { c with steal := x } :=
  ⟨h.1, fun w => (congrArg Seq.run (by cases w <;> rfl)).trans (h.2 w)⟩
theorem Core.Vacant.preload {c : Core} (h : c.Vacant) (x : Option (Bool × Nat)) : Core.Vacant { c with preload := x } :=
  ⟨h.1, fun w => (congrArg Seq.run (by cases w <;> rfl)).trans (h.2 w)⟩
theorem State.core_endSteals (s : State) (g k : Nat) : ∃ x, (s.endSteals g).core k = { s.core k with steal := x } := by
  have hm : (s.endSteals g).cores = s.cores.map fun e => (e.1, if e.2.steal = some g then { e.2 with steal := none } else e.2) := by
    refine List.map_congr_left fun e _ => ?_
    split <;> rfl
  rw [State.core, State.core, hm, Map.getD_map, Map.getD_eq]
  cases Map.get? s.cores k with
  | none => exact ⟨none, rfl⟩
  | some c =>
    dsimp only [Option.getD_some]
    split
    · exact ⟨none, rfl⟩
    · exact ⟨c.steal, rfl⟩
theorem State.vacant_endSteals {s : State} {k : Nat} (h : (s.core k).Vacant) (g : Nat) : ((s.endSteals g).core k).Vacant := by
  obtain ⟨x, hx⟩ := s.core_endSteals g k
  rw [hx]
  exact h.steal x
/-- What the loss of a preload leaves true of a core, the return of preloads leaves true of every core. -/
theorem State.core_dropPreloads {P : Core → Prop} (hP : ∀ c, P c → P { c with preload := none }) {s : State} {k : Nat}
    (h : P (s.core k)) (gs : List Nat) : P ((s.dropPreloads gs).core k) := by
  have hp (t : State) (g : Nat) (ht : P (t.core k)) : P ((t.setCore g { t.core g with preload := none }).core k) := by
    rw [State.core_setCore]
    split
    · next hg => exact hP _ (hg ▸ ht)
    · exact ht
  refine foldl_keeps (fun t : State => P (t.core k)) _ (fun t g ht => ?_) gs s h
  dsimp only
  split
  · exact ht
  · split
    · exact hp t g ht
    · exact foldl_keeps (fun t : State => P (t.core k)) _ (fun t g ht => hp t g ht) _ t ht
theorem State.vacant_releaseGang (n : Nat) (e : Entry) {g : Nat} (hg : g ∈ e.cores) (s : State) : ((s.releaseGang n e).core g).Vacant := by
  have hstep (t : State) (k : Nat) (h : k = g ∨ (t.core g).Vacant) :
      (((t.endSteals k).setCore k ((t.endSteals k).core k).vacate).core g).Vacant := by
    rw [State.core_setCore]
    split
    · exact Core.vacant_vacate _
    · next hk => exact State.vacant_endSteals (h.resolve_left fun e => hk e.symm) k
  have hall (gs : List Nat) (hg : g ∈ gs) (t : State) :
      ((gs.foldl (fun s k => (s.endSteals k).setCore k ((s.endSteals k).core k).vacate) t).core g).Vacant := by
    induction gs generalizing t with
    | nil => simp at hg
    | cons k gs ih =>
      rw [List.foldl_cons]
      by_cases h : g ∈ gs
      · exact ih h _
      · have hk : k = g := ((List.mem_cons.1 hg).resolve_right h).symm
        exact foldl_keeps (fun t : State => (t.core g).Vacant) _ (fun t k ht => hstep t k (.inr ht)) gs _ (hstep t k (.inl hk))
  exact State.core_dropPreloads (P := Core.Vacant) (fun c h => h.preload none) (s := State.unbindBars _ n e.cluster) (hall e.cores hg s) _
theorem State.answer_some {s : State} {h : Nat} {c : NCmd} (hc : (s.hearth h).ncmd = some c) (r : Nat) :
    s.answer h r = s.setHearth h { s.hearth h with ncmd := some { c with res := some r } } := by
  simp only [State.answer, hc]
theorem State.dropPreloads_keeps {γ : Type} {p : State → γ} (hc : ∀ s g c, p (State.setCore s g c) = p s)
    (he : ∀ s n e, p (State.setEntry s n e) = p s) (s : State) (gs : List Nat) : p (s.dropPreloads gs) = p s := by
  refine foldl_fixes p _ (fun s g => ?_) gs s
  split
  · rfl
  · split
    · exact hc ..
    · rw [he, foldl_fixes p _ (fun s k => hc ..)]
theorem State.releaseGang_keeps {γ : Type} {p : State → γ} (hc : ∀ (s : State) m, p { s with cores := m } = p s)
    (he : ∀ s n e, p (State.setEntry s n e) = p s) (hl : ∀ s n x, p (State.setCluster s n x) = p s) (s : State) (n : Nat) (e : Entry) :
    p (s.releaseGang n e) = p s := by
  unfold State.releaseGang
  extract_lets t
  have ht : p t = p s := foldl_fixes p _ (fun s g => (hc (s.endSteals g) _).trans (hc ..)) e.cores s
  rw [State.dropPreloads_keeps (fun s g c => hc ..) he, State.unbindBars, hl, ht]
theorem State.hearth_releaseGang (s : State) (n : Nat) (e : Entry) (h : Nat) : (s.releaseGang n e).hearth h = s.hearth h :=
  State.releaseGang_keeps (p := fun s => s.hearth h) (fun _ _ => rfl) (fun _ _ _ => rfl) (fun _ _ _ => rfl) s n e
/-- What the saved node becomes. -/
def Entry.peeled (e : Entry) (slots : List Nat) : Entry :=
  { e with saves := slots, stopped := false, preempt := [], valid := true, waited := e.wait0, phase := .ready, overrun := false
           resume := false, cores := [] }
theorem peelSave_stops {s : State} {n h : Nat} {e : Entry} (he : s.disp.pool.get? n = some e) (ht : e.tgt = 0) (hr : e.phase = .running)
    (hf : s.finished e = false) (hp : e.preempt = [h]) (hs : e.stopped = false) :
    exec (.peelSave n) s = .next (s.setEntry n { e with stopped := true }) := by
  change execPeelSave n s = _
  simp [execPeelSave, State.entry, he, ht, hr, hf, hp, hs]
theorem peelSave_saves {s : State} {n h : Nat} {e : Entry} {c : NCmd} (he : s.disp.pool.get? n = some e) (ht : e.tgt = 0)
    (hr : e.phase = .running) (hf : s.finished e = false) (hp : e.preempt = [h]) (hs : e.stopped = true) (hready : s.peelReady e = true)
    (hl : ((s.freeSlots e.part).take e.gsz).length = e.gsz) (hc : (s.hearth h).ncmd = some c) : ∃ t, exec (.peelSave n) s = .next t ∧
    t.disp.pool.get? n = some (e.peeled ((s.freeSlots e.part).take e.gsz)) ∧ (t.hearth h).ncmd = some { c with res := some 0 } ∧
    ∀ g ∈ e.cores, (t.core g).Vacant := by
  have hexec : exec (.peelSave n) s = .next (s.savePeel n e) := by
    change execPeelSave n s = _
    simp [execPeelSave, State.entry, he, ht, hr, hf, hp, hs, hready]
  obtain ⟨z, hz⟩ := State.tracked_releaseCores (s.saveGang n e 1 ((s.freeSlots e.part).take e.gsz)) e.cores (.node n)
  generalize hv : (({ s.saveGang n e 1 ((s.freeSlots e.part).take e.gsz) with hazard := z } : State).releaseGang n e) = v
  have hsave : s.savePeel n e = (v.setEntry n (e.peeled ((s.freeSlots e.part).take e.gsz))).answer h 0 := by
    rw [← hv, ← hz]
    simp only [State.savePeel, hl, hr, hp, lt_irrefl, if_false, if_true, List.isEmpty_cons, Bool.false_eq_true, decide_true,
      List.foldl_cons, List.foldl_nil]
    rfl
  have hhearth : v.hearth h = s.hearth h := by
    rw [← hv, State.hearth_releaseGang]
    exact congrArg (fun m => Map.getD m h {}) (State.saveGang_keeps State.hearths_unsaved ..)
  have hc' : ((v.setEntry n (e.peeled ((s.freeSlots e.part).take e.gsz))).hearth h).ncmd = some c := by rw [← hc, ← hhearth]; rfl
  refine ⟨_, hexec, ?_, ?_, fun g hg => ?_⟩
  · rw [hsave, State.answer_some hc']
    exact Map.get?_set_self ..
  · rw [hsave, State.answer_some hc', State.hearth_setHearth, if_pos rfl]
  · rw [hsave, State.answer_some hc', ← hv]
    exact State.vacant_releaseGang n e hg _

/-! ### Held releases (R134) -/

theorem State.settleReady_waiting {s : State} {n : Nat} {e : Entry} (he : s.disp.pool.get? n = some e) (hp : e.phase = .waiting)
    (hk : e.kind = .node) (hr : e.remain = 0) : ∃ r k, s.settleReady n =
    { s with disp := { s.disp with pool := s.disp.pool.set n { e with phase := .ready, readyAt := k, waited := 0 }, ready := r } } := by
  refine ⟨s.disp.ready + 1, s.disp.ready, ?_⟩
  simp [State.settleReady, State.entry, he, hp, hk, hr, State.setEntry]
theorem heldRelease_only {s : State} {m : Nat} {r : Held} {x e : Entry} (hh : s.disp.held = [r])
    (hi : s.identity r.part r.graph r.nid = some (m, x)) (hk : x.kind = .node) (hp : x.phase = .waiting) (hr : x.remain = 1)
    (he : s.disp.pool.get? r.entry = some e) (het : e.kind = .tile) (hes : e.succ = 1) (hm : m ≠ r.entry) :
    ∃ t y, exec .heldRelease s = .next t ∧ t.disp.held = [] ∧ t.disp.pool.get? r.entry = none ∧ t.disp.pool.get? m = some y ∧
      y.phase = .ready ∧ y.remain = 0 := by
  obtain ⟨z, hz⟩ := s.tracked_copySrcs (.node r.entry) (.node m)
  generalize hy : ({ x with remain := x.remain - 1, inherit := if x.remain ≤ 0 then x.inherit else joinBinding x.inherit r.bind } :
    Entry) = y
  have hyr : y.remain = 0 := by rw [← hy]; simp [hr]
  have hyk : y.kind = .node := by rw [← hy]; exact hk
  have hyp : y.phase = .waiting := by rw [← hy]; exact hp
  obtain ⟨q, k, hset⟩ := State.settleReady_waiting (s := ({ s with hazard := z } : State).setEntry m y) (n := m) (e := y)
    (Map.get?_set_self ..) hyp hyk hyr
  have htry : s.tryHeld r = some ((({ s with hazard := z } : State).setEntry m y).settleReady m) := by
    unfold State.tryHeld State.releaseOne
    rw [hi]
    dsimp only
    rw [if_neg (by rw [hk]; decide), hz, hy]
  generalize hu : ((({ s with hazard := z } : State).setEntry m y).settleReady m) = u at htry hset
  have hue : u.disp.pool.get? r.entry = some e := by
    rw [hset]
    exact ((Map.get?_set_ne _ _ hm.symm).trans (Map.get?_set_ne _ _ hm.symm)).trans he
  have huh : u.disp.held = [r] := by rw [hset]; exact hh
  have hum : u.disp.pool.get? m = some { y with phase := .ready, readyAt := k, waited := 0 } := by
    rw [hset]
    exact Map.get?_set_self ..
  refine ⟨({ u with disp := { u.disp with held := [] } } : State).dropEntry r.entry, _, ?_, rfl, Map.get?_del_self ..,
    (Map.get?_del_ne _ hm).trans hum, rfl, hyr⟩
  change execHeldRelease s = _
  simp [execHeldRelease, hh, htry, huh, State.entry, hue, State.finishRetire, het, hes]

/-- Settles O45: each clause is one branch of the step it names, on the entry that it concerns. -/
theorem nodesEndAndAreSaved : Obligations.NodesEndAndAreSaved := by
  intro s n m h k e x r c slots
  refine ⟨fun he => ⟨fun hk hf hs hp => ?_, fun hf => ?_, budget_gang he, budget_proofer he, fun ho ht => ?_, budget_within he,
    fun ht hr hf hp => ⟨peelSave_stops he ht hr hf hp, fun hs hready hl hc => ?_⟩⟩,
    fun hh hi hk hp hr he het hes hm => heldRelease_only hh hi hk hp hr he het hes hm⟩
  · obtain ⟨t, ht, hn, hmem, hg, hb, hw⟩ := nodeRetire_last he hk hf hs hp
    exact ⟨t, ht, hn, hmem, hg, hb, hw k⟩
  · change execNodeRetire n s = _
    simp only [execNodeRetire, State.entry, he, hf, Bool.false_eq_true, if_false]
  · exact ⟨(s.unproofed n).setEntry n { e with phase := .halted, valid := false }, Map.get?_set_self .., rfl, budget_routine he ho ht⟩
  · obtain ⟨t, ht, hy, hn, hg⟩ := peelSave_saves he ht hr hf hp hs hready hl hc
    exact ⟨t, _, ht, hy, rfl, rfl, rfl, rfl, rfl, rfl, hn, hg⟩
end Sys2Proof.Machine
end

section
/-! ## Decisions of the dispatcher (O44) -/
namespace Sys2Proof.Machine

/-! ### Decisions of the dispatcher (R17, R138) -/

/-- A decision that is made on the first candidate of the partition whose turn it is. -/
theorem decideOver_first {f : State → Nat → Entry → Placed} {s t : State} {p n : Nat} {e : Entry} {ps : List Nat}
    {cs : List (Nat × Entry)} (hc : s.candidates p = (n, e) :: cs)
    (hf : f { s with asked := e.held } n { e with held := none } = .yes t) :
    decideOver f s (p :: ps) = ({ t with asked := none } : State).decided n p := by
  simp only [decideOver, hc, decideIn, hf]
theorem dispatch_first {s t : State} {p n : Nat} {e : Entry} {ps : List Nat} {cs : List (Nat × Entry)} (ht : s.turns = p :: ps)
    (hc : s.candidates p = (n, e) :: cs) (hf : State.start { s with asked := e.held } n { e with held := none } = .yes t) :
    exec .dispatch s = .next (({ t with asked := none } : State).decided n p) := by
  change execDispatch s = _
  rw [execDispatch, ht, decideOver_first hc hf]
theorem preload_first {s t : State} {c p n : Nat} {e : Entry} {ps : List Nat} {cs : List (Nat × Entry)} (ht : s.turns = p :: ps)
    (hc : s.candidates p = (n, e) :: cs) (hf : State.preloadOn c { s with asked := e.held } n { e with held := none } = .yes t) :
    exec (.preload c) s = .next (({ t with asked := none } : State).decided n p) := by
  change execPreload c s = _
  rw [execPreload, ht, decideOver_first hc hf]
theorem Map.get?_map_keep {α : Type} (f : Nat × α → Nat × α) (hf : ∀ x, (f x).1 = x.1) {n : Nat} (hn : ∀ x, x.1 = n → f x = x)
    (m : Map α) : Map.get? (List.map f m) n = Map.get? m n := by
  induction m with
  | nil => rfl
  | cons e m ih =>
    by_cases h : e.1 = n
    · simp [Map.get?, hn e h, h]
    · have h1 : (f e).1 ≠ n := by rwa [hf]
      simp only [List.map_cons, Map.get?, if_neg h, if_neg h1, ih]
/-- The entry that a decision takes has not waited it. -/
theorem State.decided_entry (s : State) (n p : Nat) : (s.decided n p).disp.pool.get? n = s.disp.pool.get? n := by
  refine Map.get?_map_keep _ (fun x => ?_) (fun x hx => ?_) _
  · split <;> rfl
  · rw [if_neg fun h => h.1 hx]
theorem Entry.tgt_node {e : Entry} (h : e.kind = .node) : e.tgt = bf e.record 24 2 := by simp [Entry.tgt, Entry.isTile, h]
theorem Entry.isTile_node {e : Entry} (h : e.kind = .node) : e.isTile = false := by simp [Entry.isTile, h]

/-! ### A gang starts (R14, R15) -/

@[simp] theorem seqAt_rdS (ent : Nat) (s1 s2 : W64) (r : SReg) :
    (seqAt ent s1 s2).rdS r = if r = 1 then s1 else if r = 2 then s2 else 0 := by
  simp only [Seq.rdS, seqAt, Vector.get_eq_getElem, Vector.getElem_set, Vector.getElem_replicate]
  by_cases h0 : r = 0
  · simp [h0]
  · rw [if_neg h0]
    by_cases h1 : r = 1
    · simp [h1]
    · have hv : ¬1 = r.val := fun h => h1 (Fin.ext h.symm)
      have hw : r = 2 ↔ 2 = r.val := by rw [Fin.ext_iff]; exact eq_comm
      simp only [if_neg h1, if_neg hv, hw]
@[simp] theorem seqAt_rdP (ent : Nat) (s1 s2 : W64) (b : Reg16) : (seqAt ent s1 s2).rdP b = decide (b = 0) := by
  simp [Seq.rdP, seqAt, Vector.get_eq_getElem]
theorem Core.fresh_seq (c : Core) (d : Nat) (x : Ctx) (s1 s2 : W64) (w : SeqKind) :
    (c.fresh d x s1 s2).seq w = seqAt (kEnt d (seqNum w)) s1 s2 := by cases w <;> rfl
theorem kNbar_eq (d : Nat) : kNbar d = fld d 264 5 := by
  unfold kNbar kFlags fld
  omega
/-- Cores of a gang begin, each at its rank. -/
def State.seat (s : State) (f : Nat → Core → Core) (xs : List (Nat × Nat)) : State :=
  xs.foldl (fun s x => s.setCore x.2 (f x.1 (s.core x.2))) s
theorem State.core_seat_out (f : Nat → Core → Core) {g : Nat} (xs : List (Nat × Nat)) (hg : ∀ x ∈ xs, x.2 ≠ g) (s : State) :
    (s.seat f xs).core g = s.core g := by
  induction xs generalizing s with
  | nil => rfl
  | cons x xs ih =>
    rw [State.seat, List.foldl_cons, ← State.seat, ih fun y hy => hg y (List.mem_cons_of_mem _ hy), State.core_setCore,
      if_neg (hg x List.mem_cons_self).symm]
theorem State.core_seat (f : Nat → Core → Core) {x : Nat × Nat} (xs : List (Nat × Nat)) (hn : (xs.map (·.2)).Nodup) (hx : x ∈ xs)
    (s : State) : (s.seat f xs).core x.2 = f x.1 (s.core x.2) := by
  induction xs generalizing s with
  | nil => simp at hx
  | cons y ys ih =>
    rw [List.map_cons, List.nodup_cons] at hn
    rw [State.seat, List.foldl_cons, ← State.seat]
    obtain rfl | hx := List.mem_cons.1 hx
    · rw [State.core_seat_out f ys fun z hz (h : z.2 = x.2) => hn.1 (h ▸ List.mem_map_of_mem hz), State.core_setCore, if_pos rfl]
    · have hne : x.2 ≠ y.2 := fun h => hn.1 (h ▸ List.mem_map_of_mem hx)
      rw [ih hn.2 hx, State.core_setCore, if_neg hne]
theorem State.seat_eq (f : Nat → Core → Core) (xs : List (Nat × Nat)) (s : State) : ∃ cs, s.seat f xs = { s with cores := cs } := by
  refine foldl_keeps (fun t : State => ∃ cs, t = { s with cores := cs }) _ (fun t x h => ?_) xs s ⟨s.cores, rfl⟩
  obtain ⟨cs, rfl⟩ := h
  exact ⟨_, rfl⟩
theorem State.tracked_forget (s : State) (gs : List Nat) : s.Tracked (s.forget gs) := by
  unfold State.forget
  split
  · exact ⟨_, rfl⟩
  · exact ⟨_, rfl⟩
theorem State.tracked_acquire (s : State) (a : Agent) (n : Nat) (o : Obj) : s.Tracked (s.acquire a n o) := by
  have h (xs : List Src) : s.Tracked (s.acquireFrom a n xs) := by
    unfold State.acquireFrom
    split
    · exact ⟨_, rfl⟩
    · exact .refl _
  exact (h _).trans (State.tracked_meets ..)
theorem State.tracked_acquireCores (s : State) (gs : List Nat) (o : Obj) : s.Tracked (s.acquireCores gs o) :=
  (State.tracked_foldl _ (fun _ _ => State.tracked_foldl _ (fun _ _ => State.tracked_acquire ..) _ _) gs s).trans
    (State.tracked_clearObj ..)
theorem State.bindEntry_eq (s : State) (e : Entry) : ∃ ps ws, s.bindEntry e = ({ s with parts := ps }, ws) := by
  unfold State.bindEntry
  extract_lets w
  split
  · exact ⟨_, _, rfl⟩
  · exact ⟨_, _, rfl⟩
theorem State.bindBars_eq (n c : Nat) (bars : List (Nat × Nat)) (s : State) : ∃ cl, s.bindBars n c bars = { s with clusters := cl } := by
  refine foldl_keeps (fun t : State => ∃ cl, t = { s with clusters := cl }) _ (fun t x h => ?_) bars s ⟨s.clusters, rfl⟩
  obtain ⟨cl, rfl⟩ := h
  exact ⟨_, rfl⟩
/-- A core of the gang of entry n as it starts. -/
def Core.seated (e : Entry) (n d : Nat) (bars : List (Nat × Nat)) (ws : Option Nat) (rank : Nat) (c : Core) : Core :=
  c.fresh d (e.context n d rank bars ws) (w64 e.opnd) e.post
/-- Entry n when its gang starts. -/
def Entry.begun (e : Entry) (gs : List Nat) (bars : List (Nat × Nat)) (ws : Option Nat) (ops : List Nat) : Entry :=
  { e with phase := .running, reserving := false, cores := gs, cluster := cidOf (gs.headD 0), bars := bars, ws := ws, preloads := []
           wait0 := e.waited, ops := ops, used := 0, limit := e.budget * 1024, stopped := false, overrun := false }
/-- What starting a gang changes: its cores, its entry, counters and bindings, and the hazard checker's records. -/
theorem State.begin_eq (s : State) (n : Nat) (e : Entry) (d : Nat) (ops gs bs : List Nat) : ∃ ps cl z z' bars ws,
    s.begin_ n e d ops gs bs = ({ (({ s with parts := ps, clusters := cl, hazard := z } : State).seat (Core.seated e n d bars ws)
      ((List.range gs.length).zip gs)) with hazard := z' } : State).setEntry n (e.begun gs bars ws ops) := by
  obtain ⟨z, hz⟩ := s.tracked_forget gs
  obtain ⟨ps, ws, hps⟩ := (s.forget gs).bindEntry_eq e
  let bars := bs.zip ((List.range bs.length).map fun i => kBar d i)
  obtain ⟨cl, hcl⟩ := State.bindBars_eq n (cidOf (gs.headD 0)) bars { s.forget gs with parts := ps }
  have hb : s.begin_ n e d ops gs bs = (((({ s.forget gs with parts := ps } : State).bindBars n (cidOf (gs.headD 0)) bars).seat
      (Core.seated e n d bars ws) ((List.range gs.length).zip gs)).acquireCores gs (.node n)).setEntry n (e.begun gs bars ws ops) := by
    unfold State.begin_
    rw [hps]
    rfl
  rw [hcl, hz] at hb
  obtain ⟨z', hz'⟩ := State.tracked_acquireCores (({ s with parts := ps, clusters := cl, hazard := z } : State).seat
    (Core.seated e n d bars ws) ((List.range gs.length).zip gs)) gs (.node n)
  exact ⟨ps, cl, z, z', bars, ws, hb.trans (congrArg (fun t => State.setEntry t n (e.begun gs bars ws ops)) hz')⟩
/-- The marks of cores, and their preloads, are all that is written before a gang starts. -/
theorem State.marksTaken_eq (s : State) (n : Nat) (e : Entry) (gs : List Nat) (d part : Nat) (ws : List (Nat × Nat)) :
    ∃ cs, (s.consumeMarks n e gs).clearMarks gs d part ws = { s with cores := cs } := by
  have h : ∃ cs, s.consumeMarks n e gs = { s with cores := cs } := by
    refine foldl_keeps (fun t : State => ∃ cs, t = { s with cores := cs }) _ (fun t g h => ?_) gs s ⟨s.cores, rfl⟩
    obtain ⟨cs, rfl⟩ := h
    exact ⟨_, rfl⟩
  obtain ⟨cs, hcs⟩ := h
  rw [hcs]
  exact ⟨_, rfl⟩
/-- What a dispatch of a gang comes to where its place, its operands and its copies are found. -/
theorem startGang_ok {s u : State} {n d : Nat} {e : Entry} {gs bs ops : List Nat} (hk : e.kind = .node) (hs : e.saves = [])
    (hd : s.kernel e.part e.kern = .ok d) (hp : s.placeGang n e (kNbar d) = some (gs, bs))
    (ho : (s.wake (islandOf (cidOf (gs.headD 0)))).operands e.part d e.opnd = .ok ops)
    (hl : (s.wake (islandOf (cidOf (gs.headD 0)))).loadCores n e d ops gs = .ok u) :
    s.startGang n e = .yes (((u.consumeMarks n e gs).clearMarks gs d e.part (declared ops oWrite)).begin_ n e d ops gs bs) := by
  have hw (t : State) : t.tileWsRefused e = false := by simp [State.tileWsRefused, Entry.isTile_node hk]
  have hops (t : State) : t.operandsOf e d = t.operands e.part d e.opnd := if_neg (by rw [hk]; decide)
  simp only [State.startGang, hs, List.isEmpty_nil, Bool.not_true, Bool.false_eq_true, if_false, hd, hp, State.startOn, hw, hops, ho, hl]
theorem start_gang {s : State} {n : Nat} {e : Entry} (hr : s.reservedBy n e = false) (ht : e.tgt = 0) : s.start n e = s.startGang n e := by
  simp only [State.start, hr, ht, Bool.false_eq_true, if_false]
theorem start_routine {s : State} {n : Nat} {e : Entry} (hr : s.reservedBy n e = false) (ht : e.tgt = 2) :
    s.start n e = s.startRoutine n e := by
  simp only [State.start, hr, ht, Bool.false_eq_true, if_false]
/-- A core of a gang that has started. -/
def Core.Started (c : Core) (e : Entry) (n d i : Nat) : Prop :=
  (∀ w, c.seq w = seqAt (kEnt d (seqNum w)) (w64 e.opnd) e.post) ∧
  ∃ bars ws, c.ctx = some (e.context n d i bars ws)
/-- After a dispatch of a gang its entry runs and every core of it stands at its start. -/
theorem begin_started {s : State} {n d : Nat} {e : Entry} {ops gs bs : List Nat} (hn : gs.Nodup) :
    (∃ bars ws, (s.begin_ n e d ops gs bs).disp.pool.get? n = some (e.begun gs bars ws ops)) ∧
    (s.begin_ n e d ops gs bs).disp.count = s.disp.count ∧
    ∀ i g, gs[i]? = some g → ((s.begin_ n e d ops gs bs).core g).Started e n d i := by
  obtain ⟨ps, cl, z, z', bars, ws, hb⟩ := s.begin_eq n e d ops gs bs
  obtain ⟨cs, hcs⟩ := State.seat_eq (Core.seated e n d bars ws) ((List.range gs.length).zip gs)
    ({ s with parts := ps, clusters := cl, hazard := z })
  rw [hb]
  refine ⟨⟨bars, ws, Map.get?_set_self ..⟩, by rw [hcs]; rfl, fun i g hi => ?_⟩
  have hx : (i, g) ∈ (List.range gs.length).zip gs := by
    obtain ⟨hlt, hg⟩ := List.getElem?_eq_some_iff.1 hi
    rw [List.mem_iff_getElem]
    exact ⟨i, by simpa using hlt, by simp [hg]⟩
  have hseat := State.core_seat (Core.seated e n d bars ws) ((List.range gs.length).zip gs) (by
    rw [List.map_snd_zip (by simp)]
    exact hn) hx ({ s with parts := ps, clusters := cl, hazard := z })
  generalize ({ s with parts := ps, clusters := cl, hazard := z } : State).seat (Core.seated e n d bars ws)
    ((List.range gs.length).zip gs) = t at hseat ⊢
  change Core.Started (t.core g) e n d i
  rw [hseat]
  exact ⟨fun w => Core.fresh_seq .., bars, ws, rfl⟩

/-! ### Routines and reservations (R136, R139) -/

theorem startRoutine_ok {s u : State} {n v : Nat} {e : Entry} (hr : s.dispRead e.part e.kern 32 = .ok (v, u)) (hz : fld v 13 243 = 0)
    (h1 : 1 ≤ fld v 0 13) (h2 : fld v 0 13 ≤ 4096) : ∃ (t : State) (ws : Option Nat), s.startRoutine n e = .yes (t.setEntry n { e with
      phase := .running, reserving := false, next := 0, total := fld v 0 13, ws := ws, used := 0, limit := e.budget * 1024 }) := by
  have hok : ¬(fld v 13 243 ≠ 0 ∨ fld v 0 13 = 0 ∨ 4096 < fld v 0 13) := by omega
  refine ⟨(u.bindEntry e).1, (u.bindEntry e).2, ?_⟩
  simp only [State.startRoutine, hr, if_neg hok]
theorem Entry.effective_long {e : Entry} (h : 2 ^ 18 ≤ e.waited) : e.effective = 3 := by
  unfold Entry.effective
  omega
theorem reserving_long {s : State} {n stg : Nat} {e : Entry} (hp : s.disp.pool = [(n, e)]) (hr : e.phase = .ready) (hk : e.kind = .node)
    (hs : bf e.record 28 4 = stg) (ht : bf e.record 24 2 ≤ 1) (hz : e.reserving = false) (hw : 2 ^ 18 ≤ e.waited) :
    exec (.reserving stg) s = .next (s.setEntry n { e with reserving := true }) := by
  have htgt : e.tgt ≤ 1 := by rwa [Entry.tgt_node hk]
  have hw' : 262144 ≤ e.waited := hw
  have heff := Entry.effective_long hw
  change execReserving stg s = _
  unfold execReserving
  simp [hp, hr, hk, recStg, hs, htgt, hz, hw', heff]
theorem reserving_short {s : State} {n stg : Nat} {e : Entry} (hp : s.disp.pool = [(n, e)]) (hz : e.reserving = false)
    (hw : e.waited < 2 ^ 18) : exec (.reserving stg) s = .next s := by
  have hw' : ¬262144 ≤ e.waited := Nat.not_le.2 hw
  change execReserving stg s = _
  unfold execReserving
  simp [hp, hz, hw']

/-! ### Preloads (R142, R143) -/

theorem State.foldl_setCore_all {P : Core → Prop} (f : Core → Core) (hf : ∀ c, P (f c)) (gs : List Nat) {g : Nat} (hg : g ∈ gs) (s : State) :
    P ((gs.foldl (fun s k => s.setCore k (f (s.core k))) s).core g) := by
  have hk (t : State) (k : Nat) (h : k = g ∨ P (t.core g)) : P ((t.setCore k (f (t.core k))).core g) := by
    rw [State.core_setCore]
    split
    · exact hf _
    · next hne => exact h.resolve_left fun e => hne e.symm
  induction gs generalizing s with
  | nil => simp at hg
  | cons k gs ih =>
    rw [List.foldl_cons]
    by_cases h : g ∈ gs
    · exact ih h _
    · have he : k = g := ((List.mem_cons.1 hg).resolve_right h).symm
      exact foldl_keeps (fun t : State => P (t.core g)) _ (fun t k ht => hk t k (.inr ht)) gs _ (hk s k (.inl he))
/-- The cores of cluster c that a gang is preloaded into, in the lower half. -/
def State.preloadCores (s : State) (c : Nat) (e : Entry) (ops : List Nat) : List Nat :=
  (((List.range 128).map (128 * c + ·)).filter fun g => s.preloadable 0 g && windowIn 0 g ops).take e.gsz
/-- A core with the lower half preloaded. -/
def Core.preloaded (n : Nat) (m : Mark) (c : Core) : Core := { c with preload := some (false, n), marks := c.marks.set 0 m }
/-- The mark that a preload leaves. -/
def Entry.mark (e : Entry) (n d : Nat) (ops : List Nat) : Mark :=
  { part := e.part, graph := e.graph, nid := e.markId n, ranges := markRanges d ops }
theorem preloadOn_lower {s u : State} {c n d : Nat} {e : Entry} {ops gs : List Nat} (hk : e.kind = .node) (ht : bf e.record 24 2 = 0)
    (hr : e.phase = .ready) (hs : e.saves = []) (hz : e.reserving = false) (hb : s.reservedBy n e = false) (hc : c ∈ s.clustersFor e)
    (hd : s.kernel e.part e.kern = .ok d) (ho : s.operands e.part d e.opnd = .ok ops) (hin : rangesIn 0 d ops = true)
    (hgs : gs = s.preloadCores c e ops) (hl : gs.length = e.gsz) (hu : s.loadGang n e.part (loadsOf d ops) gs = .ok u) :
    State.preloadOn c s n e = .yes ((gs.foldl (fun s g => s.setCore g ((s.core g).preloaded n (e.mark n d ops))) u).setEntry n
      { e with phase := .preloaded, preloads := gs }) := by
  have hw : s.tileWsRefused e = false := by simp [State.tileWsRefused, Entry.isTile_node hk]
  have hops : s.operandsOf e d = s.operands e.part d e.opnd := if_neg (by rw [hk]; decide)
  have hpre : ¬(e.tgt ≠ 0 ∨ e.phase ≠ .ready ∨ e.saves ≠ [] ∨ e.reserving = true ∨ s.reservedBy n e = true
      ∨ (s.clustersFor e).contains c = false ∨ s.tileWsRefused e = true) := by
    simp [Entry.tgt_node hk, ht, hr, hs, hz, hb, hc, hw]
  have hfit : ¬(rangesIn 0 d ops = false ∨ gs.length < e.gsz) := by simp [hin, hl]
  have hone : s.preloadIn c 0 n e d ops = .yes ((gs.foldl (fun s g => s.setCore g ((s.core g).preloaded n (e.mark n d ops))) u).setEntry n
      { e with phase := .preloaded, preloads := gs }) := by
    unfold State.preloadIn
    extract_lets gs'
    have hgs' : gs' = gs := hgs.symm
    rw [hgs', if_neg hfit, hu]
    rfl
  simp only [State.preloadOn, if_neg hpre, hd, hops, ho, hone]

/-- Settles O44: the decision falls on the first candidate, and what it starts, preloads or reserves is read off the state. -/
theorem dispatchDecisions : Obligations.DispatchDecisions := by
  intro s u p n c d v stg e ps cs gs bs ops lim s0 e0
  refine ⟨fun hturn hcand hres hk => ⟨fun ht hs _ hd hp hn => ?_, fun ht hr hz h1 h2 => ?_⟩,
    fun hturn hcand hres hk ht hr hs hz hc hd ho hin hgs hl hu => ?_,
    fun hp hr hk hs ht hz => ⟨reserving_long hp hr hk hs ht hz, reserving_short hp hz⟩⟩
  all_goals
    have htile : e0.isTile = false := Entry.isTile_node hk
    have htgt : e0.tgt = bf e.record 24 2 := Entry.tgt_node hk
    have hres0 : s0.reservedBy n e0 = false := hres
    have hbudget : e0.budget = bf e.record 288 32 := by simp [Entry.budget, htile, e0]
    have hkern : e0.kern = bf e.record 320 56 := by simp [Entry.kern, htile, e0]
    have hopnd : e0.opnd = bf e.record 384 56 := by simp [Entry.opnd, htile, e0]
    have hgsz : e0.gsz = bf e.record 32 8 := by simp [Entry.gsz, htile, e0]
  · intro s1 ho hl
    rw [← hkern] at hd
    rw [← kNbar_eq] at hp
    rw [← hopnd] at ho
    obtain ⟨⟨bars, ws, hentry⟩, hcount, hcores⟩ := begin_started
      (s := (u.consumeMarks n e0 gs).clearMarks gs d e.part (declared ops oWrite)) (n := n) (d := d) (e := e0) (ops := ops) (bs := bs) hn
    have hstart := startGang_ok (e := e0) hk hs hd hp ho hl
    obtain ⟨cs', hmarks⟩ := u.marksTaken_eq n e0 gs d e.part (declared ops oWrite)
    have hdo := (start_gang hres0 (htgt.trans ht)).trans hstart
    refine ⟨_, e0.begun gs bars ws ops, dispatch_first hturn hcand hdo, ?_, rfl, rfl, rfl, ?_, ?_, rfl, ?_⟩
    · exact (State.decided_entry ..).trans hentry
    · exact congrArg (· * 1024) hbudget
    · change _ + 1 = _
      rw [hcount, hmarks]
    · intro i g hi
      obtain ⟨hseq, bars', ws', hctx⟩ := hcores i g hi
      refine ⟨fun w => ?_, _, hctx, rfl, hgsz, rfl, rfl, rfl⟩
      intro q
      have hq : q = seqAt (kEnt d (seqNum w)) (w64 e0.opnd) e.post := hseq w
      rw [hq, hopnd]
      exact ⟨rfl, rfl, fun r => seqAt_rdS .., fun b => seqAt_rdP ..⟩
  · rw [← hkern] at hr
    obtain ⟨t, ws, hroutine⟩ := startRoutine_ok (n := n) (e := e0) hr hz h1 h2
    have hdo := (start_routine hres0 (htgt.trans ht)).trans hroutine
    refine ⟨_, { e0 with
      phase := .running, reserving := false, next := 0, total := fld v 0 13, ws := ws, used := 0, limit := e0.budget * 1024 },
      dispatch_first hturn hcand hdo, ?_, rfl, rfl, rfl, ?_⟩
    · exact (State.decided_entry ..).trans (Map.get?_set_self ..)
    · exact congrArg (· * 1024) hbudget
  · rw [← hkern] at hd
    rw [← hopnd] at ho
    rw [← hgsz] at hgs hl
    have hlower := preloadOn_lower (s := s0) (n := n) (e := e0) hk ht hr hs hz hres0 hc hd ho hin hgs hl hu
    refine ⟨_, { e0 with phase := .preloaded, preloads := gs }, preload_first hturn hcand hlower, ?_, rfl, rfl, ?_⟩
    · exact (State.decided_entry ..).trans (Map.get?_set_self ..)
    · intro g hg
      have hm : e0.mark n d ops = { part := e.part, graph := e.graph, nid := e.nid, ranges := markRanges d ops } := by
        simp [Entry.mark, Entry.markId, htile, e0]
      rw [← hm]
      exact State.foldl_setCore_all (P := fun c => c.preload = some (false, n) ∧ c.marks.get? 0 = some (e0.mark n d ops))
        (Core.preloaded n (e0.mark n d ops)) (fun c => ⟨rfl, Map.get?_set_self ..⟩) gs hg u
end Sys2Proof.Machine
end

section
/-! ## Faults that halt a node, and their records (O42) -/
namespace Sys2Proof.Machine

/-! ### A halted core (R18, R295) -/

/-- No sequencer of core c runs on; what its C has in flight goes with the cycle, or is gone. -/
def Core.Halted (c : Core) : Prop := (∀ k, (c.seq k).run ≠ .running) ∧ (c.c.run = .stopping ∨ c.flight = [])
theorem Seq.halt_run (q : Seq) : q.halt.run ≠ .running := by
  unfold Seq.halt
  split
  · simp
  · exact Seq.stop_run q
theorem Core.seq_mapSeqs (c : Core) (f : Seq → Seq) (k : SeqKind) : (c.mapSeqs f).seq k = f (c.seq k) := by cases k <;> rfl
theorem Core.halted_halt (c : Core) : c.halt.Halted := by
  unfold Core.halt
  split
  · exact ⟨fun k => by rw [show c.stop.seq k = (c.mapSeqs Seq.stop).seq k by cases k <;> rfl, Core.seq_mapSeqs]; exact Seq.stop_run _,
      .inr rfl⟩
  · extract_lets d
    have hd (k : SeqKind) : (d.seq k).run ≠ .running := by
      rw [show d.seq k = (c.seq k).halt from Core.seq_mapSeqs ..]
      exact Seq.halt_run _
    split
    · next h => exact ⟨hd, .inl h⟩
    · exact ⟨fun k => (congrArg Seq.run (by cases k <;> rfl)).trans_ne (hd k), .inr rfl⟩
theorem Core.Halted.preload {c : Core} (h : c.Halted) (x : Option (Bool × Nat)) : Core.Halted { c with preload := x } :=
  ⟨fun k => (congrArg Seq.run (by cases k <;> rfl)).trans_ne (h.1 k), h.2⟩
theorem Core.seq_stopSeq_ne (c : Core) {q k : SeqKind} (h : k ≠ q) : (c.stopSeq q).seq k = c.seq k := by
  rw [← Core.seq_setSeq_ne c ((c.seq q).stop) h]
  unfold Core.stopSeq
  extract_lets d
  split
  · cases k <;> rfl
  · rfl
theorem Core.Halted.stopSeq {c : Core} (h : c.Halted) (q : SeqKind) : (c.stopSeq q).Halted := by
  refine ⟨fun k => ?_, ?_⟩
  · by_cases hk : k = q
    · rw [hk, Core.seq_stopSeq]
      exact Seq.stop_run _
    · exact (congrArg Seq.run (c.seq_stopSeq_ne hk)).trans_ne (h.1 k)
  · cases q with
    | C => exact .inr rfl
    | K => exact h.2
    | L => exact h.2
    | S => exact h.2
/-- With the cycle a halted core has stopped, and nothing is in flight. -/
theorem Core.Halted.tick {c : Core} (h : c.Halted) : (∀ k, (c.tick.seq k).run ≠ .running ∧ (c.tick.seq k).run ≠ .stopping) ∧
    c.tick.flight = [] := by
  constructor
  · intro k
    have hk : (c.tick.seq k).run = (if (c.seq k).run = .stopping then (c.seq k).stop else c.seq k).run := by cases k <;> rfl
    rw [hk]
    split
    · next hs => simp [Seq.stop, hs]
    · next hs => exact ⟨h.1 k, hs⟩
  · change (if c.c.run = .stopping then [] else c.flight) = []
    split
    · rfl
    · next hs => exact h.2.resolve_left hs
theorem State.halted_haltNode (s : State) (g : Nat) {k : Nat} (hk : k ∈ s.gang g) : ((s.haltNode g).core k).Halted := by
  have h : (((s.haltCores (s.gang g)).dropPreloads (s.gang g)).core k).Halted :=
    State.core_dropPreloads (P := Core.Halted) (fun c h => h.preload none)
      (State.foldl_setCore_all Core.halt Core.halted_halt (s.gang g) hk s) _
  unfold State.haltNode
  extract_lets t
  split
  · split
    · exact h
    · exact h
  · exact h

/-! ### The gang of a halted node -/

/-- What says who runs the node of core g. -/
def State.manned (s : State) (g : Nat) : Option Ctx × (Nat → Option (List Nat)) :=
  ((s.core g).ctx, fun n => (s.disp.pool.get? n).map Entry.cores)
theorem State.gang_congr {s t : State} {g : Nat} (h : t.manned g = s.manned g) : t.gang g = s.gang g := by
  obtain ⟨hc, hp⟩ := Prod.mk.inj h
  unfold State.gang
  rw [hc]
  cases (s.core g).ctx with
  | none => rfl
  | some x =>
    have hx := congrFun hp x.entry
    dsimp only at hx ⊢
    cases hs : s.disp.pool.get? x.entry with
    | none => rw [hs] at hx; simp_all
    | some e =>
      rw [hs] at hx
      obtain ⟨e', he', hcores⟩ := Option.map_eq_some_iff.1 hx
      rw [he']
      dsimp only
      rw [hcores]
theorem State.manned_setCore {s : State} {k : Nat} {c : Core} (h : c.ctx = (s.core k).ctx) (g : Nat) :
    (s.setCore k c).manned g = s.manned g := by
  unfold State.manned
  rw [State.core_setCore]
  split
  · next hk => rw [hk, h]; rfl
  · rfl
theorem State.manned_setEntry {s : State} {n : Nat} {e x : Entry} (h : s.disp.pool.get? n = some x) (hc : e.cores = x.cores) (g : Nat) :
    (s.setEntry n e).manned g = s.manned g := by
  unfold State.manned
  refine congrArg (Prod.mk _) (funext fun m => ?_)
  by_cases hm : m = n
  · rw [hm, h, State.setEntry, Map.get?_set_self, Option.map_some, Option.map_some, hc]
  · rw [State.setEntry, Map.get?_set_ne _ _ hm]
theorem Core.halt_ctx (c : Core) : c.halt.ctx = c.ctx := by
  unfold Core.halt
  split
  · rfl
  · extract_lets d
    split <;> rfl
theorem State.manned_dropPreloads (s : State) (gs : List Nat) (g : Nat) : (s.dropPreloads gs).manned g = s.manned g := by
  refine foldl_fixes (fun t : State => t.manned g) _ (fun t k => ?_) gs s
  split
  · rfl
  · split
    · exact State.manned_setCore (by rfl) g
    · next m _ _ e he =>
      let drop (t : State) : State := e.preloads.foldl (fun s k => s.setCore k { s.core k with preload := none }) t
      have hd : (drop t).manned g = t.manned g := foldl_fixes (fun t : State => t.manned g) _ (fun t k => State.manned_setCore (by rfl) g) _ t
      have hp : (drop t).disp = t.disp := foldl_fixes State.disp _ (fun t k => by rfl) _ t
      exact (State.manned_setEntry (s := drop t) (by rw [hp]; exact he) (by rfl) g).trans hd
theorem State.manned_haltNode (s : State) (g : Nat) : (s.haltNode g).manned g = s.manned g := by
  have hh : (s.haltCores (s.gang g)).manned g = s.manned g :=
    foldl_fixes (fun t : State => t.manned g) _ (fun t k => State.manned_setCore (Core.halt_ctx _) g) _ s
  unfold State.haltNode
  extract_lets t
  have ht : t.manned g = s.manned g := (State.manned_dropPreloads ..).trans hh
  split
  · split
    · next hx e he => exact (State.manned_setEntry he (by rfl) g).trans ht
    · exact ht
  · exact ht

/-! ### The record of a fault that stops a node (R305, R309) -/

theorem Core.stopSeq_ctx (c : Core) (q : SeqKind) : (c.stopSeq q).ctx = c.ctx := by cases q <;> rfl
theorem State.due_haltNode (s : State) (g : Nat) : (s.haltNode g).due = s.due := by
  have h (t : State) (gs : List Nat) : (t.dropPreloads gs).due = t.due :=
    State.dropPreloads_keeps (p := State.due) (fun _ _ _ => rfl) (fun _ _ _ => rfl) t gs
  have hh : (s.haltCores (s.gang g)).due = s.due := foldl_fixes State.due _ (fun t k => by rfl) _ s
  unfold State.haltNode
  extract_lets t
  have ht : t.due = s.due := (h ..).trans hh
  split
  · split
    · exact ht
    · exact ht
  · exact ht
theorem State.parts_untouched : Untouched State.parts := ⟨fun _ _ _ => rfl, fun _ _ _ => rfl, fun _ _ => rfl⟩
theorem State.partOf_congr {s t : State} (h : t.parts = s.parts) (c : Nat) : t.partOf c = s.partOf c := by
  have hp (p : Nat) : t.part p = s.part p := by rw [State.part, h, State.part]
  simp only [State.partOf, State.owns, hp]
/-- The record of core g's node that waits for its queue. -/
def State.dueOf (s : State) (g p : Nat) (r : Record) : Due := { part := p, cluster := cidOf g, record := r, cores := s.gang g }
theorem State.postStop_first {s : State} {g p : Nat} {r : Record} (hp : s.partOf (cidOf g) = some p)
    (hd : (s.due.find? fun d => d.ofSeq g) = none) : (s.postStop g r).due = s.due ++ [s.dueOf g p r] := by
  simp only [State.postStop, hp, hd, ite_self]
  rfl
theorem State.postStop_second {s : State} {g p : Nat} {r : Record} {d : Due} (hp : s.partOf (cidOf g) = some p) (hu : r.unit ≤ 3)
    (hd : (s.due.find? fun d => d.ofSeq g) = some d) : (s.postStop g r).due =
      if unitRank d.record.unit ≤ unitRank r.unit then s.due else s.due.filter (fun d => !d.ofSeq g) ++ [s.dueOf g p r] := by
  simp only [State.postStop, hp, hd, if_pos hu]
  split <;> rfl
section
variable {s : State} {g : Nat} {q : SeqKind} {e : Exc} (hc : s.cur = .core g q) (he : e.holds = none) (ht : s.traced e = s)
include hc he ht
/-- A fault halts every core of its node (R18). -/
theorem State.take_halts {k : Nat} (hk : k ∈ s.gang g) : ((s.take e).core k).Halted := by
  rw [State.take_core hc he, ht, State.core_postStop, State.core_setCore]
  split
  · next hg => exact (s.halted_haltNode g (hg ▸ hk)).stopSeq q
  · exact s.halted_haltNode g hk
/-- The state in which the record of a fault is posted has the node, the records and the owners of before. -/
theorem State.take_posts : ∃ t : State, (s.take e).due = (t.postStop g (s.excRecord g q e)).due ∧ t.due = s.due ∧
    t.gang g = s.gang g ∧ t.parts = s.parts := by
  refine ⟨(s.haltNode g).setCore g (((s.haltNode g).core g).stopSeq q), by rw [State.take_core hc he, ht], s.due_haltNode g, ?_, State.haltNode_keeps State.parts_untouched s g⟩
  exact State.gang_congr ((State.manned_setCore (Core.stopSeq_ctx ..) g).trans (s.manned_haltNode g))
end

/-! ### The end of a cycle (R2, R295, R309) -/

/-- A function of a state that the end of a cycle leaves as it is, beside what counts cycles. -/
structure Settled {γ : Type} (p : State → γ) : Prop extends Unsaved p where
  buckets : ∀ (s : State) x, p { s with buckets := x } = p s
  late : ∀ (s : State) x y, p { s with evict := x, sent := y } = p s
theorem State.cores_settled : Settled State.cores := ⟨State.cores_unsaved, fun _ _ => rfl, fun _ _ _ => rfl⟩
section
variable {γ : Type} {p : State → γ} (h : Settled p)
include h
theorem State.evcLate_keeps (s : State) : p s.evcLate = p s := by
  unfold State.evcLate
  extract_lets x
  split
  · exact h.late ..
  · rfl
theorem State.predict_keeps (s : State) (b : Bucket) (level mark : Nat) : p (s.predict b level mark) = p s := by
  have hf (r : Record) (ps : List Nat) (t : State) : p (ps.foldl (fun s q => s.postTo q (s.lowCluster q) r) t) = p t :=
    foldl_fixes p _ (fun _ _ => h.due ..) ps t
  simp only [State.predict]
  split
  · rw [h.sent, hf, h.free]
  · rw [hf, h.free]
theorem State.settleBucket_keeps (s : State) (b : Bucket) (level : Nat) : p (s.settleBucket b level) = p s := by
  unfold State.settleBucket
  extract_lets x m t
  split
  · exact (State.predict_keeps h ..).trans (h.buckets ..)
  · exact h.buckets ..
theorem State.settleFills_keeps (s : State) : p s.settleFills = p s :=
  (foldl_fixes p _ (fun _ _ => State.settleBucket_keeps h ..) _ _).trans (h.fills ..)
theorem State.queueRead_keeps (s : State) (k n : Nat) : p (s.queueRead k n).2 = p s := by
  unfold State.queueRead
  split
  · exact (h.free _ _).trans (State.consume_keeps h.toUnsaved ..)
  · rfl
theorem State.queueWrite_keeps (s : State) (r : Record) (k n v : Nat) : p (s.queueWrite r k n v) = p s := by
  have hw := State.wakeKey_keeps h.toUnwritten s k
  unfold State.queueWrite
  extract_lets t
  split
  · split
    · exact hw
    · exact (State.lostWrite_keeps h.toUnwritten ..).trans hw
  · exact (State.marked_keeps h.toUnwritten ..).trans ((h.mem ..).trans hw)
theorem State.markPf_keeps (s : State) (n : Nat) (r : Record) (k : Nat) : p (s.markPf n r k) = p s := by
  unfold State.markPf
  split
  · exact h.part ..
  · rfl
theorem State.writeRecord_keeps (s : State) (n c : Nat) (r : Record) : p (s.writeRecord n c r) = p s := by
  unfold State.writeRecord
  generalize hx : s.queueRead (s.faultQueue n c) 8 = x
  have hx : p x.2 = p s := by rw [← hx, State.queueRead_keeps h]
  generalize hy : x.2.queueRead (s.faultQueue n c + 8) 8 = y
  have hy : p y.2 = p s := by rw [← hy, State.queueRead_keeps h, hx]
  generalize hz : y.2.queueRead (s.faultQueue n c + 16) 8 = z
  have hz : p z.2 = p s := by rw [← hz, State.queueRead_keeps h, hy]
  simp only [*]
  split
  · rw [State.markPf_keeps h, State.queueWrite_keeps h, hz]
  · rw [State.markPf_keeps h, State.queueWrite_keeps h, State.queueWrite_keeps h, hy]
theorem State.writeDue_keeps (s : State) : p s.writeDue = p s := by
  unfold State.writeDue
  extract_lets ready rest
  exact (foldl_fixes p _ (fun _ _ => State.writeRecord_keeps h ..) _ _).trans (h.due ..)
end
/-- A cycle passes, before its records are written. -/
def State.counted (s : State) : State :=
  ({ s with
    clock := s.clock + 1
    pos := 0
    islands := s.islands.map fun e => (e.1, e.2.tick (s.clock + 1))
    cores := s.cores.map fun c => (c.1, c.2.tick)
    disp := { s.disp with pool := s.disp.pool.map fun e => (e.1, e.2.tick (s.proofWait e.2)) } } : State).evcLate.settleFills
theorem State.tick_eq (s : State) : s.tick = s.counted.writeDue := rfl
theorem State.core_counted (s : State) (g : Nat) : s.counted.core g = (s.core g).tick := by
  have h : s.counted.cores = s.cores.map fun c => (c.1, c.2.tick) :=
    (State.settleFills_keeps State.cores_settled _).trans (State.evcLate_keeps State.cores_settled _)
  rw [State.core, h, Map.getD_map, State.core, Map.getD_eq]
  cases Map.get? s.cores g with
  | none => rfl
  | some c => rfl
theorem State.core_tick (s : State) (g : Nat) : s.tick.core g = (s.core g).tick := by
  rw [← s.core_counted, State.tick_eq, State.core, State.writeDue_keeps State.cores_settled, ← State.core]
/-- Where no event fills a bucket, a cycle changes only what counts it. -/
theorem State.counted_eq {s : State} (h : s.fills = []) : ∃ c i cs d e x, s.counted =
    { s with clock := c, pos := 0, islands := i, cores := cs, disp := d, evict := e, sent := x, fills := [] } := by
  unfold State.counted State.settleFills State.evcLate
  extract_lets x
  split
  · rw [show _ = [] from h]
    exact ⟨_, _, _, _, _, _, rfl⟩
  · rw [show _ = [] from h]
    exact ⟨_, _, _, _, _, _, rfl⟩

/-! ### Writing a record (R305, R309) -/

theorem State.badIn_sub {s : State} {k k' m n : Nat} (hb : s.badIn k m = false) (hl : s.linkFailed (s.linkOf k') = false) (h1 : k ≤ k')
    (h2 : k' + n ≤ k + m) : s.badIn k' n = false := by
  simp only [State.badIn, Bool.or_eq_false_iff, List.any_eq_false, Bool.and_eq_true, decide_eq_true_eq, not_and] at hb ⊢
  refine ⟨fun w hw hk => ?_, by simp [hl]⟩
  have := hb.1 w hw (by omega)
  omega
theorem State.queueRead_ok {s : State} {k n : Nat} (h : s.badIn k n = false) : s.queueRead k n = (Mem.readN s.mem k n, s) := by
  simp only [State.queueRead, h, Bool.false_eq_true, if_false]
theorem State.wakeKey_eq (s : State) (k : Nat) : ∃ i, s.wakeKey k = { s with islands := i } := by
  unfold State.wakeKey State.askIsland
  extract_lets x
  split
  · exact ⟨_, rfl⟩
  · exact ⟨_, rfl⟩
theorem State.marked_eq (s : State) (k : Nat) : ∃ i, s.marked k = { s with ingest := i } := by
  unfold State.marked
  split
  · exact ⟨_, rfl⟩
  · exact ⟨_, rfl⟩
/-- s after n bytes are written at a key, with what asks of islands and ingest marks come to. -/
def State.written (s : State) (k n v : Nat) (i : Map Island) (g : List Ingest) : State :=
  { s with islands := i, ingest := g, mem := Mem.writeN s.mem k n v }
@[simp] theorem State.written_mem (s : State) (k n v : Nat) (i : Map Island) (g : List Ingest) :
    (s.written k n v i g).mem = Mem.writeN s.mem k n v := rfl
@[simp] theorem State.written_due (s : State) (k n v : Nat) (i : Map Island) (g : List Ingest) : (s.written k n v i g).due = s.due := rfl
theorem State.written_linkFailed (s : State) (k n v : Nat) (i : Map Island) (g : List Ingest) (j : Nat) :
    (s.written k n v i g).linkFailed ((s.written k n v i g).linkOf j) = s.linkFailed (s.linkOf j) := rfl
theorem State.queueWrite_ok {s : State} {r : Record} {k n v : Nat} (h : s.linkFailed (s.linkOf k) = false) :
    ∃ i g, s.queueWrite r k n v = s.written k n v i g := by
  obtain ⟨i, hi⟩ := s.wakeKey_eq k
  obtain ⟨g, hg⟩ := State.marked_eq ({ s with islands := i, mem := Mem.writeN s.mem k n v }) k
  refine ⟨i, g, ?_⟩
  have hl : ({ s with islands := i } : State).linkFailed (({ s with islands := i } : State).linkOf k) = false := h
  unfold State.queueWrite
  rw [hi]
  dsimp only
  rw [if_neg (by rw [hl]; decide)]
  exact hg
@[simp] theorem State.markPf_due (s : State) (p : Nat) (r : Record) (n : Nat) : (s.markPf p r n).due = s.due := by
  unfold State.markPf
  split <;> rfl
/-- Records that cluster c's fault queue in partition p has received and not given up (R308). -/
def State.queued (s : State) (p c : Nat) : Nat :=
  (Mem.readN s.mem (s.faultQueue p c) 8 + 2 ^ 64 - Mem.readN s.mem (s.faultQueue p c + 8) 8) % 2 ^ 64
section
variable {s : State} {p c : Nat} {r : Record} (hb : s.badIn (s.faultQueue p c) 24 = false)
  (hl : ∀ k, s.faultQueue p c ≤ k → k < s.faultQueue p c + 0x10000 → s.linkFailed (s.linkOf k) = false)
include hb hl
theorem State.queueRead_prod : s.queueRead (s.faultQueue p c) 8 = (Mem.readN s.mem (s.faultQueue p c) 8, s) :=
  State.queueRead_ok (State.badIn_sub hb (hl _ (by omega) (by omega)) (by omega) (by omega))
theorem State.queueRead_cons : s.queueRead (s.faultQueue p c + 8) 8 = (Mem.readN s.mem (s.faultQueue p c + 8) 8, s) :=
  State.queueRead_ok (State.badIn_sub hb (hl _ (by omega) (by omega)) (by omega) (by omega))
theorem State.queueRead_count : s.queueRead (s.faultQueue p c + 16) 8 = (Mem.readN s.mem (s.faultQueue p c + 16) 8, s) :=
  State.queueRead_ok (State.badIn_sub hb (hl _ (by omega) (by omega)) (by omega) (by omega))
theorem State.writeRecord_eq : s.writeRecord p c r = if 2040 ≤ s.queued p c then
    (s.queueWrite r (s.faultQueue p c + 16) 8 (Mem.readN s.mem (s.faultQueue p c + 16) 8 + 1)).markPf p r
      ((Mem.readN s.mem (s.faultQueue p c) 8 + 2 ^ 64 - 1) % 2 ^ 64)
    else ((s.queueWrite r (s.faultQueue p c + 256 + 32 * (Mem.readN s.mem (s.faultQueue p c) 8 % 2040)) 32
      (r.bits (Mem.readN s.mem (s.faultQueue p c) 8))).queueWrite r (s.faultQueue p c) 8
      (Mem.readN s.mem (s.faultQueue p c) 8 + 1)).markPf p r (Mem.readN s.mem (s.faultQueue p c) 8) := by
  unfold State.writeRecord
  dsimp only
  rw [State.queueRead_prod hb hl]
  dsimp only
  rw [State.queueRead_cons hb hl, State.queueRead_count hb hl]
  rfl
theorem State.writeRecord_full (hf : 2040 ≤ s.queued p c) : (s.writeRecord p c r).due = s.due ∧ (s.writeRecord p c r).mem =
    Mem.writeN s.mem (s.faultQueue p c + 16) 8 (Mem.readN s.mem (s.faultQueue p c + 16) 8 + 1) := by
  obtain ⟨i, g, hw⟩ := State.queueWrite_ok (r := r) (n := 8) (v := Mem.readN s.mem (s.faultQueue p c + 16) 8 + 1)
    (hl (s.faultQueue p c + 16) (by omega) (by omega))
  rw [State.writeRecord_eq hb hl, if_pos hf, hw, State.markPf_due, State.markPf_mem, State.written_due, State.written_mem]
  exact ⟨rfl, rfl⟩
theorem State.writeRecord_room (hf : ¬2040 ≤ s.queued p c) : (s.writeRecord p c r).due = s.due ∧ (s.writeRecord p c r).mem =
    Mem.writeN (Mem.writeN s.mem (s.faultQueue p c + 256 + 32 * (Mem.readN s.mem (s.faultQueue p c) 8 % 2040)) 32
      (r.bits (Mem.readN s.mem (s.faultQueue p c) 8))) (s.faultQueue p c) 8 (Mem.readN s.mem (s.faultQueue p c) 8 + 1) := by
  have hmod : Mem.readN s.mem (s.faultQueue p c) 8 % 2040 < 2040 := Nat.mod_lt _ (by decide)
  rw [State.writeRecord_eq hb hl, if_neg hf]
  generalize Mem.readN s.mem (s.faultQueue p c) 8 = prod at hmod ⊢
  obtain ⟨i, g, hw⟩ := State.queueWrite_ok (r := r) (n := 32) (v := r.bits prod)
    (hl (s.faultQueue p c + 256 + 32 * (prod % 2040)) (by omega) (by omega))
  have hv := s.written_linkFailed (s.faultQueue p c + 256 + 32 * (prod % 2040)) 32 (r.bits prod) i g (s.faultQueue p c)
  rw [hl _ (by omega) (by omega)] at hv
  obtain ⟨i', g', hw'⟩ := State.queueWrite_ok (r := r) (n := 8) (v := prod + 1) hv
  rw [hw, hw', State.markPf_due, State.markPf_mem, State.written_due, State.written_due, State.written_mem, State.written_mem]
  exact ⟨rfl, rfl⟩
end

/-! ### The fields of a record (R305) -/

theorem text_fields (d n c : Nat) :
    let w := (d ||| (n % 2 ^ 16 * 2 ^ 32) ||| (c % 2 ^ 8 * 2 ^ 56)) % 2 ^ 64
    fld w 56 8 = (c ||| d / 2 ^ 56) % 2 ^ 8 ∧ fld w 0 32 = d % 2 ^ 32 ∧ fld w 32 16 = (n ||| d / 2 ^ 32) % 2 ^ 16 := by
  intro w
  refine ⟨Nat.eq_of_testBit_eq fun i => ?_, Nat.eq_of_testBit_eq fun i => ?_, Nat.eq_of_testBit_eq fun i => ?_⟩
  all_goals
    simp only [w, fld, Nat.testBit_mod_two_pow, Nat.testBit_div_two_pow, Nat.testBit_or, Nat.testBit_mul_two_pow]
    grind
theorem packed_fields {i co ci u nv cl p g a ca w : Nat} (hi : i < 2 ^ 14) (hco : co < 2 ^ 7) (hci : ci < 2 ^ 4) (hu : u < 2 ^ 4)
    (hnv : nv < 2) (hcl : cl < 4) (hp : p < 2 ^ 8) (hg : g < 2 ^ 16) (ha : a < 2 ^ 56) (hca : ca < 2 ^ 56) (hw : w < 2 ^ 64) :
    let r := (i + co * 2 ^ 14 + ci * 2 ^ 21 + u * 2 ^ 25 + nv * 2 ^ 29 + cl * 2 ^ 30 + p * 2 ^ 32 + g * 2 ^ 48 + a * 2 ^ 64
      + ca * 2 ^ 128 + w * 2 ^ 192) % 256 ^ 32
    fld r 248 8 = fld w 56 8 ∧ fld r 30 2 = cl ∧ fld r 25 4 = u ∧ fld r 21 4 = ci ∧ fld r 14 7 = co ∧ fld r 0 14 = i ∧
      fld r 29 1 = nv ∧ fld r 32 8 = p ∧ fld r 40 8 = 0 ∧ fld r 48 16 = g ∧ fld r 64 56 = a ∧ fld r 120 8 = 0 ∧ fld r 128 56 = ca ∧
      fld r 184 8 = 0 ∧ fld r 192 32 = fld w 0 32 ∧ fld r 224 16 = fld w 32 16 := by
  intro r
  simp only [r, fld]
  omega
theorem Record.bits_fields (y : Record) (prod : Nat) :
    let r := y.bits prod % 256 ^ 32
    fld r 248 8 = (y.code ||| y.detail / 2 ^ 56) % 2 ^ 8 ∧ fld r 30 2 = y.cls % 4 ∧ fld r 25 4 = y.unit % 16 ∧
      fld r 21 4 = y.cid % 16 ∧ fld r 14 7 = y.cor % 2 ^ 7 ∧ fld r 0 14 = y.index % 2 ^ 14 ∧
      fld r 29 1 = y.nv.toNat ∧ fld r 32 8 = prod % 256 ∧ fld r 40 8 = 0 ∧ fld r 48 16 = y.graph % 2 ^ 16 ∧
      fld r 64 56 = y.addr % 2 ^ 56 ∧ fld r 120 8 = 0 ∧ fld r 128 56 = y.caddr % 2 ^ 56 ∧ fld r 184 8 = 0 ∧
      fld r 192 32 = y.detail % 2 ^ 32 ∧ fld r 224 16 = (y.nid ||| y.detail / 2 ^ 32) % 2 ^ 16 := by
  obtain ⟨h1, h2, h3⟩ := text_fields y.detail y.nid y.code
  have h := packed_fields (i := y.index % 2 ^ 14) (co := y.cor % 2 ^ 7) (ci := y.cid % 2 ^ 4) (u := y.unit % 2 ^ 4) (nv := y.nv.toNat)
    (cl := y.cls % 4) (p := prod % 2 ^ 8) (g := y.graph % 2 ^ 16) (a := y.addr % 2 ^ 56) (ca := y.caddr % 2 ^ 56)
    (w := (y.detail ||| (y.nid % 2 ^ 16 * 2 ^ 32) ||| (y.code % 2 ^ 8 * 2 ^ 56)) % 2 ^ 64)
    (Nat.mod_lt _ (by decide)) (Nat.mod_lt _ (by decide)) (Nat.mod_lt _ (by decide)) (Nat.mod_lt _ (by decide))
    (Bool.toNat_lt _) (Nat.mod_lt _ (by decide)) (Nat.mod_lt _ (by decide)) (Nat.mod_lt _ (by decide)) (Nat.mod_lt _ (by decide))
    (Nat.mod_lt _ (by decide)) (Nat.mod_lt _ (by decide))
  dsimp only at h h1 h2 h3
  rw [h1, h2, h3] at h
  rw [← Record.bits] at h
  exact h

/-! ### One record at the end of a cycle (R309) -/

theorem State.writeDue_waits {s : State} {d : Due} (hd : s.due = [d]) (hr : s.dueReady d = false) :
    s.writeDue = { s with due := [{ d with now := false }] } := by
  have h1 : [d].filter s.dueReady = [] := by simp [hr]
  have h2 : [d].filter (fun d => !s.dueReady d) = [d] := by simp [hr]
  unfold State.writeDue
  rw [hd, h1, h2]
  rfl
theorem State.writeDue_ready {s : State} {d : Due} (hd : s.due = [d]) (hr : s.dueReady d = true) :
    s.writeDue = ({ s with due := [] } : State).writeRecord d.part d.cluster d.record := by
  have h1 : [d].filter s.dueReady = [d] := by simp [hr]
  have h2 : [d].filter (fun d => !s.dueReady d) = [] := by simp [hr]
  have h3 : [d].foldl (fun l d => insertDue d l) [] = [d] := rfl
  unfold State.writeDue
  extract_lets ready rest
  have hready : ready = [d] := by rw [← h1, ← hd]
  have hrest : rest = [] := by
    simp only [rest]
    rw [hd, h2, List.map_nil]
  rw [hready, hrest, h3, List.foldl_cons, List.foldl_nil]
theorem State.quiet_of_empty {s : State} {g : Nat} (hp : (s.core g).posted = []) (hq : ∀ q, ((s.core g).queue q).cmds = []) :
    s.quiet g = true := by
  have hquiet (q : Queue) : s.queueQuiet g q = true := by simp [State.queueQuiet, EQueue.next, hq]
  simp [State.quiet, hp, hquiet]
theorem State.dueReady_of_empty {s : State} {d : Due} (h : ∀ g ∈ d.cores, (s.core g).posted = [] ∧ ∀ q, ((s.core g).queue q).cmds = []) :
    s.dueReady d = true := List.all_eq_true.2 fun g hg => State.quiet_of_empty (h g hg).1 (h g hg).2
theorem State.dueReady_of_posted {s : State} {d : Due} {g : Nat} (hg : g ∈ d.cores) (h : (s.core g).posted ≠ []) :
    s.dueReady d = false := by
  refine List.all_eq_false.2 ⟨g, hg, ?_⟩
  simp [State.quiet, h]
/-- The state in which the one record of a cycle is written. -/
def State.closing (s : State) : State := { s.counted with due := [] }
theorem State.closing_eq {s : State} (h : s.fills = []) : ∃ c i cs d e x, s.closing =
    { s with clock := c, pos := 0, islands := i, cores := cs, disp := d, evict := e, sent := x, fills := [], due := [] } := by
  obtain ⟨c, i, cs, d, e, x, hx⟩ := State.counted_eq h
  exact ⟨c, i, cs, d, e, x, by rw [State.closing, hx]⟩
theorem State.settleSignal_keeps {γ : Type} {p : State → γ} (h : ∀ (s : State) x, p { s with evict := x } = p s) (s : State) :
    p s.settleSignal = p s := by
  unfold State.settleSignal
  split
  · split
    · exact h ..
    · split
      · exact h ..
      · rfl
  · rfl
theorem State.closing_keeps {s : State} (h : s.fills = []) : s.closing.mem = s.mem ∧ (∀ k n, s.closing.badIn k n = s.badIn k n) ∧
    (∀ k, s.closing.linkFailed (s.closing.linkOf k) = s.linkFailed (s.linkOf k)) ∧ ∀ p c, s.closing.faultQueue p c = s.faultQueue p c := by
  obtain ⟨c, i, cs, d, e, x, hx⟩ := State.closing_eq h
  rw [hx]
  exact ⟨rfl, fun _ _ => rfl, fun _ => rfl, fun _ _ => rfl⟩
theorem step_tick {s : State} {ts : List Turn} (h : s.agenda = .tick :: ts) :
    step s = .next (({ s with agenda := ts } : State).tick).settleSignal := by
  rw [step, h]
  rfl
section
variable {s : State} {d : Due} (hd : s.due = [d]) (hf : s.fills = [])
include hd hf
/-- A record whose cores have posted operations waits. -/
theorem State.tick_waits {g : Nat} (hg : g ∈ d.cores) (hp : (s.core g).posted ≠ []) :
    s.tick.settleSignal.mem = s.mem ∧ s.tick.settleSignal.due = [{ d with now := false }] := by
  obtain ⟨c, i, cs, dd, e, x, hx⟩ := State.counted_eq hf
  have hr : s.counted.dueReady d = false := State.dueReady_of_posted hg (by rw [State.core_counted]; exact hp)
  have hd' : s.counted.due = [d] := by rw [hx]; exact hd
  constructor
  · rw [State.settleSignal_keeps (p := State.mem) (fun _ _ => rfl), State.tick_eq, State.writeDue_waits hd' hr, hx]
  · rw [State.settleSignal_keeps (p := State.due) (fun _ _ => rfl), State.tick_eq, State.writeDue_waits hd' hr]
/-- A record whose cores have nothing left to access is written. -/
theorem State.tick_writes (he : ∀ g ∈ d.cores, (s.core g).posted = [] ∧ ∀ q, ((s.core g).queue q).cmds = []) :
    s.tick.settleSignal.mem = (s.closing.writeRecord d.part d.cluster d.record).mem ∧
    s.tick.settleSignal.due = (s.closing.writeRecord d.part d.cluster d.record).due := by
  obtain ⟨c, i, cs, dd, e, x, hx⟩ := State.counted_eq hf
  have hr : s.counted.dueReady d = true := by
    refine State.dueReady_of_empty fun g hg => ?_
    rw [State.core_counted]
    exact ⟨(he g hg).1, fun q => (congrArg EQueue.cmds (by cases q <;> rfl)).trans ((he g hg).2 q)⟩
  have hd' : s.counted.due = [d] := by rw [hx]; exact hd
  constructor
  · rw [State.settleSignal_keeps (p := State.mem) (fun _ _ => rfl), State.tick_eq, State.writeDue_ready hd' hr, State.closing]
  · rw [State.settleSignal_keeps (p := State.due) (fun _ _ => rfl), State.tick_eq, State.writeDue_ready hd' hr, State.closing]
end
section
variable {m : List Host.Cell} (hwf : Memory.wf m = true) {base slot : Nat} (hs : base + 256 ≤ slot) (bits n : Nat)
include hwf
theorem Mem.read_record_out {a : Nat} (h1 : a < base ∨ base + 8 ≤ a) (h2 : a < slot ∨ slot + 32 ≤ a) :
    Mem.read (Mem.writeN (Mem.writeN m slot 32 bits) base 8 n) a = Mem.read m a := by
  rw [Mem.read_writeN_out _ _ _ _ (Memory.wf_writeN _ _ _ hwf) h1, Mem.read_writeN_out _ _ _ _ hwf h2]
theorem Mem.readN_writeN_word (v : Nat) : Mem.readN (Mem.writeN m base 8 v) base 8 = v % 2 ^ 64 := by
  rw [Mem.readN_writeN _ _ _ hwf]
  norm_num
include hs
/-- A record written before its queue's count reads back. -/
theorem Mem.readN_record : Mem.readN (Mem.writeN (Mem.writeN m slot 32 bits) base 8 n) slot 32 = bits % 256 ^ 32 := by
  rw [← Mem.readN_writeN slot 32 bits hwf]
  exact Mem.readN_congr _ _ fun i hi => Mem.read_writeN_out _ _ _ _ (Memory.wf_writeN _ _ _ hwf) (.inr (by omega))
end
section
variable {s : State} {d : Due} (hd : s.due = [d]) (hf : s.fills = [])
  (he : ∀ g ∈ d.cores, (s.core g).posted = [] ∧ ∀ q, ((s.core g).queue q).cmds = [])
  (hb : s.badIn (s.faultQueue d.part d.cluster) 24 = false)
  (hl : ∀ k, s.faultQueue d.part d.cluster ≤ k → k < s.faultQueue d.part d.cluster + 0x10000 → s.linkFailed (s.linkOf k) = false)
include hd hf he hb hl
theorem State.tick_full (hq : 2040 ≤ s.queued d.part d.cluster) : s.tick.settleSignal.due = [] ∧ s.tick.settleSignal.mem =
    Mem.writeN s.mem (s.faultQueue d.part d.cluster + 16) 8 (Mem.readN s.mem (s.faultQueue d.part d.cluster + 16) 8 + 1) := by
  obtain ⟨hmem, hdue⟩ := State.tick_writes hd hf he
  obtain ⟨hm, hbad, hlink, hqueue⟩ := State.closing_keeps hf
  obtain ⟨h1, h2⟩ := State.writeRecord_full (s := s.closing) (r := d.record) (p := d.part) (c := d.cluster)
    (by rwa [hbad, hqueue]) (by simpa only [hlink, hqueue] using hl) (by rwa [State.queued, hm, hqueue])
  rw [hmem, hdue, h1, h2, hm, hqueue]
  exact ⟨rfl, rfl⟩
theorem State.tick_room (hq : ¬2040 ≤ s.queued d.part d.cluster) : s.tick.settleSignal.due = [] ∧ s.tick.settleSignal.mem =
    Mem.writeN (Mem.writeN s.mem (s.faultQueue d.part d.cluster + 256 +
      32 * (Mem.readN s.mem (s.faultQueue d.part d.cluster) 8 % 2040)) 32
      (d.record.bits (Mem.readN s.mem (s.faultQueue d.part d.cluster) 8))) (s.faultQueue d.part d.cluster) 8
      (Mem.readN s.mem (s.faultQueue d.part d.cluster) 8 + 1) := by
  obtain ⟨hmem, hdue⟩ := State.tick_writes hd hf he
  obtain ⟨hm, hbad, hlink, hqueue⟩ := State.closing_keeps hf
  obtain ⟨h1, h2⟩ := State.writeRecord_room (s := s.closing) (r := d.record) (p := d.part) (c := d.cluster)
    (by rwa [hbad, hqueue]) (by simpa only [hlink, hqueue] using hl) (by rwa [State.queued, hm, hqueue])
  rw [hmem, hdue, h1, h2, hm, hqueue]
  exact ⟨rfl, rfl⟩
end

/-! ### The fault of an unassigned opcode (R155, R156) -/

/-- What an unassigned opcode raises in a sequencer of a compute core. -/
def opcodeExc (q : SeqKind) (w : W32) : Exc := if q = .K ∧ bf w 26 6 = 0x0F then privExc else illegal
/-- The state in which an unassigned opcode is met. -/
def State.atOpcode (s : State) : State := { s with curAddr := s.me.pc, curSlot := 15 }
theorem unassignedOpcode_eq {s : State} {g : Nat} {q : SeqKind} (hc : s.cur = .core g q) (w : W32) :
    exec (.unassignedOpcode w) s = .next (s.atOpcode.take (opcodeExc q w)) := by
  have h : (groupCheck (fld w.toNat 26 6) false s).getD illegal = opcodeExc q w := by
    rw [show fld w.toNat 26 6 = bf w 26 6 from rfl]
    by_cases hm : bf w 26 6 = 0x0F
    · cases q <;> simp [groupCheck, opcodeExc, hc, hm]
    · cases q <;> simp [groupCheck, opcodeExc, hm]
  change execUnassignedOpcode w s = _
  rw [execUnassignedOpcode, h]
  rfl
theorem opcodeExc_holds (q : SeqKind) (w : W32) : (opcodeExc q w).holds = none := by
  unfold opcodeExc
  split <;> rfl
theorem State.traced_opcodeExc (s : State) (q : SeqKind) (w : W32) : s.traced (opcodeExc q w) = s := by
  unfold opcodeExc
  split <;> rfl
theorem State.excRecord_opcode (s : State) (g : Nat) (q : SeqKind) (w : W32) (hs : s.curSlot = 15) :
    s.excRecord g q (opcodeExc q w) = s.nodeRecord g
      { cls := 0, code := if q = .K ∧ bf w 26 6 = 0x0F then 2 else 1, unit := seqNum q,
        index := ((s.core g).ctx.getD {}).grk, addr := 0, caddr := s.curAddr.toNat, detail := if q = .C then 15 else 0 } := by
  by_cases h : q = .K ∧ bf w 26 6 = 0x0F
  · obtain ⟨rfl, hw⟩ := h
    simp [State.excRecord, opcodeExc, hw, Exc.codeAddr, Exc.more]
  · simp [State.excRecord, opcodeExc, h, Exc.codeAddr, Exc.more, hs]
theorem Seq.stop_run_stopping (q : Seq) : q.stop.run ≠ .stopping := by
  unfold Seq.stop
  split
  · simp
  · next h => exact fun hs => h (.inr hs)
/-- The sequencer that takes a fault is stopped (R18). -/
theorem State.take_seq {s : State} {g : Nat} {q : SeqKind} {e : Exc} (hc : s.cur = .core g q) (he : e.holds = none) :
    ∃ x : Seq, ((s.take e).core g).seq q = x.stop := by
  rw [State.take_core hc he, State.core_postStop, State.core_setCore, if_pos rfl, Core.seq_stopSeq]
  exact ⟨_, rfl⟩
theorem State.mem_untouched : Untouched State.mem := ⟨fun _ _ _ => rfl, fun _ _ _ => rfl, fun _ _ => rfl⟩

/-- Settles O42: the fault halts the gang and posts one record, which the end of a cycle writes, counts as lost or keeps. -/
theorem unassignedOpcodesHaltTheNode : Obligations.UnassignedOpcodesHaltTheNode := by
  constructor
  · intro s g p q w code x rank unit new same hc hp
    have he := opcodeExc_holds q w
    have ht := s.atOpcode.traced_opcodeExc q w
    obtain ⟨x', hx'⟩ := State.take_seq (s := s.atOpcode) hc he
    obtain ⟨t', hdue, hold, hgang, hparts⟩ := State.take_posts (s := s.atOpcode) hc he ht
    have hpart : t'.partOf (cidOf g) = some p := (State.partOf_congr hparts _).trans hp
    have hnew : t'.dueOf g p (s.atOpcode.excRecord g q (opcodeExc q w)) = new := by
      rw [State.excRecord_opcode _ g q w rfl, State.dueOf, hgang]
      cases q <;> rfl
    have hunit : (s.atOpcode.excRecord g q (opcodeExc q w)).unit = unit := by
      rw [State.excRecord_opcode _ g q w rfl]
      cases q <;> rfl
    have hle : unit ≤ 3 := by cases q <;> decide
    refine ⟨_, unassignedOpcode_eq hc w, ?_, ?_, ?_, fun k hk n => ?_, fun hf => ?_, fun d hf => ?_⟩
    · have hmem : (s.atOpcode.traced (opcodeExc q w)).mem = s.atOpcode.mem := congrArg State.mem ht
      exact (State.take_keeps (s := s.atOpcode) State.mem_untouched _ hc he).trans hmem
    · rw [hx']
      exact Seq.stop_run x'
    · rw [hx']
      exact Seq.stop_run_stopping x'
    · have hh := State.take_halts (s := s.atOpcode) hc he ht hk
      rw [State.core_tick]
      exact ⟨hh.1 n, (hh.tick.1 n).1, (hh.tick.1 n).2, hh.tick.2⟩
    · rw [hdue, State.postStop_first hpart (by rw [hold]; exact hf), hold, hnew]
      rfl
    · rw [hdue, State.postStop_second hpart (hunit ▸ hle) (by rw [hold]; exact hf), hold, hnew, hunit]
      rfl
  · intro u d ts y base prod cons full rec_ hwf hd hf ha
    refine ⟨_, step_tick ha, fun ⟨g, hg, hp⟩ => State.tick_waits (s := ({ u with agenda := ts })) hd hf hg hp, fun he hl hb => ?_⟩
    have hdue : ({ u with agenda := ts } : State).tick.settleSignal.due = [] := by
      by_cases hq : full
      · exact (State.tick_full (s := ({ u with agenda := ts })) hd hf he hb hl hq).1
      · exact (State.tick_room (s := ({ u with agenda := ts })) hd hf he hb hl hq).1
    refine ⟨hdue, fun hq => ?_, fun hq => ?_⟩
    · have hmem : ({ u with agenda := ts } : State).tick.settleSignal.mem =
        Mem.writeN u.mem (base + 16) 8 (Mem.readN u.mem (base + 16) 8 + 1) :=
        (State.tick_full (s := ({ u with agenda := ts })) hd hf he hb hl hq).2
      rw [hmem]
      exact ⟨Mem.readN_writeN_word hwf _, fun a h => Mem.read_writeN_out _ _ _ _ hwf (by omega)⟩
    · have hmem : ({ u with agenda := ts } : State).tick.settleSignal.mem =
        Mem.writeN (Mem.writeN u.mem rec_ 32 (y.bits prod)) base 8 (prod + 1) :=
        (State.tick_room (s := ({ u with agenda := ts })) hd hf he hb hl hq).2
      rw [hmem]
      refine ⟨Mem.readN_writeN_word (Memory.wf_writeN _ _ _ hwf) _, ?_, fun a h1 h2 => Mem.read_record_out hwf _ _ h1 h2⟩
      rw [Mem.readN_record hwf (by omega)]
      exact Record.bits_fields y prod
end Sys2Proof.Machine
end

section
/-! ## Rounding (O23) -/
namespace Sys2Proof.Machine

/-! ### Rounding to a multiple of a power of two -/

/-- y is the magnitude x of a value of sign `neg` rounded as `rm` says with the unit u; `nx` says whether they differ
(R45, R195). -/
structure Rounded (rm : Nat) (neg : Bool) (x u y : ℚ) (nx : Bool) : Prop where
  near : |y - x| < u
  nearest : rm = 0 → |y - x| ≤ u / 2
  below : rm = 1 ∨ (rm = 2 ∧ neg = true) ∨ (rm = 3 ∧ neg = false) → y ≤ x
  above : (rm = 2 ∧ neg = false) ∨ (rm = 3 ∧ neg = true) → x ≤ y
  exact_iff : nx = false ↔ y = x

theorem Rounded.scale {rm : Nat} {neg nx : Bool} {x u y c : ℚ} (h : Rounded rm neg x u y nx) (hc : 0 < c) :
    Rounded rm neg (x * c) (u * c) (y * c) nx := by
  have habs : |y * c - x * c| = |y - x| * c := by rw [← sub_mul, abs_mul, abs_of_pos hc]
  refine ⟨?_, fun h0 => ?_, fun hb => ?_, fun ha => ?_, ?_⟩
  · rw [habs]
    exact mul_lt_mul_of_pos_right h.near hc
  · rw [habs, mul_div_right_comm]
    exact mul_le_mul_of_nonneg_right (h.nearest h0) hc.le
  · exact mul_le_mul_of_nonneg_right (h.below hb) hc.le
  · exact mul_le_mul_of_nonneg_right (h.above ha) hc.le
  · rw [h.exact_iff, mul_left_inj' hc.ne']

theorem Rounded.refl (rm : Nat) (neg : Bool) (x : ℚ) : Rounded rm neg x 1 x false := by
  constructor <;> simp

/-- Rounding n + f, with a fraction f, to n or to n + 1. -/
theorem rounded_fraction {rm : Nat} {neg up nx : Bool} {n : Nat} {f : ℚ} (hf0 : 0 ≤ f) (hf1 : f < 1)
    (hnear : rm = 0 → if up then 1 / 2 ≤ f else f ≤ 1 / 2)
    (hbelow : rm = 1 ∨ (rm = 2 ∧ neg = true) ∨ (rm = 3 ∧ neg = false) → up = false)
    (habove : (rm = 2 ∧ neg = false) ∨ (rm = 3 ∧ neg = true) → up = false → f = 0)
    (hup : up = true → f ≠ 0) (hnx : nx = false ↔ f = 0) :
    Rounded rm neg (n + f) 1 ((n + up.toNat : Nat) : ℚ) nx := by
  cases up with
  | false =>
    have he : ((n + false.toNat : Nat) : ℚ) - (n + f) = -f := by simp
    refine ⟨?_, fun h => ?_, fun _ => ?_, fun h => ?_, ?_⟩
    · rwa [he, abs_neg, abs_of_nonneg hf0]
    · rw [he, abs_neg, abs_of_nonneg hf0]
      simpa using hnear h
    · simpa using hf0
    · simp [habove h rfl]
    · rw [hnx]
      simp
  | true =>
    have he : ((n + true.toNat : Nat) : ℚ) - (n + f) = 1 - f := by push_cast; simp
    have hpos : 0 < f := lt_of_le_of_ne hf0 (hup rfl).symm
    refine ⟨?_, fun h => ?_, fun h => absurd (hbelow h) (by simp), fun _ => ?_, ?_⟩
    · rw [he, abs_of_pos (by linarith)]
      linarith
    · have := hnear h
      rw [he, abs_of_pos (by linarith)]
      simp only [if_true] at this
      linarith
    · linarith
    · rw [hnx, ← sub_eq_zero (b := (n : ℚ) + f), he]
      exact ⟨fun h => absurd h (hup rfl), fun h => by linarith⟩

/-- What the remainder of a division by 2^k and a fraction d below it say of the fraction they are together. -/
theorem fraction_cases {rem k : Nat} {d : ℚ} (hk : 1 ≤ k) (hrem : rem < 2 ^ k) (hd0 : 0 ≤ d) (hd1 : d < 1) :
    let f : ℚ := (rem + d) / 2 ^ k
    let half := 2 ^ (k - 1)
    0 ≤ f ∧ f < 1 ∧ (f = 0 ↔ rem = 0 ∧ d = 0) ∧ (1 / 2 < f ↔ half < rem ∨ (rem = half ∧ d ≠ 0)) ∧
      (f = 1 / 2 ↔ rem = half ∧ d = 0) := by
  obtain ⟨h, hh, hpow⟩ : ∃ h : Nat, 2 ^ (k - 1) = h ∧ 2 ^ k = 2 * h :=
    ⟨_, rfl, by rw [← pow_succ', Nat.sub_add_cancel hk]⟩
  have hpos : 0 < h := hh ▸ Nat.two_pow_pos _
  have hpq : (0 : ℚ) < h := by exact_mod_cast hpos
  rw [hpow] at hrem
  have hq : (2 : ℚ) ^ k = 2 * h := by exact_mod_cast hpow
  have hr0 : (0 : ℚ) ≤ rem := by positivity
  have hr1 : (rem : ℚ) + 1 ≤ 2 * h := by exact_mod_cast hrem
  have htri : rem < h ∧ (rem : ℚ) + 1 ≤ h ∨ rem = h ∧ (rem : ℚ) = h ∨ h < rem ∧ (h : ℚ) + 1 ≤ rem := by
    obtain h1 | h1 | h1 := lt_trichotomy rem h
    · exact .inl ⟨h1, by exact_mod_cast h1⟩
    · exact .inr (.inl ⟨h1, by exact_mod_cast h1⟩)
    · exact .inr (.inr ⟨h1, by exact_mod_cast h1⟩)
  have hd : d = 0 ∨ 0 < d := hd0.eq_or_lt.imp_left Eq.symm
  intro f half
  have hhalf : half = h := hh
  have hf : f = (rem + d) / (2 * h) := by simp only [f, hq]
  have hzero : f = 0 ↔ (rem : ℚ) + d = 0 := by rw [hf, div_eq_zero_iff]; simp [hpq.ne']
  have hlt : 1 / 2 < f ↔ (h : ℚ) < rem + d := by
    rw [hf, lt_div_iff₀ (by linarith), show 1 / 2 * (2 * (h : ℚ)) = h by ring]
  have heq : f = 1 / 2 ↔ (rem : ℚ) + d = h := by
    rw [hf, div_eq_iff (by linarith), show 1 / 2 * (2 * (h : ℚ)) = h by ring]
  refine ⟨?_, ?_, ?_, ?_, ?_⟩
  · rw [hf]; positivity
  · rw [hf, div_lt_one (by linarith)]; linarith
  · rw [hzero]
    constructor
    · intro h0
      exact ⟨by exact_mod_cast (show (rem : ℚ) = 0 by linarith), by linarith⟩
    · rintro ⟨h0, h1⟩
      simp [h0, h1]
  · rw [hlt, hhalf]
    obtain ⟨h1, h2⟩ | ⟨h1, h2⟩ | ⟨h1, h2⟩ := htri
    · simp only [h1.not_gt, h1.ne, false_and, or_self, iff_false, not_lt]; linarith
    · simp only [h1, lt_self_iff_false, true_and, false_or]
      obtain hd | hd := hd
      · simp [hd]
      · simp [hd, hd.ne']
    · simp only [h1, true_or, iff_true]; linarith
  · rw [heq, hhalf]
    obtain ⟨h1, h2⟩ | ⟨h1, h2⟩ | ⟨h1, h2⟩ := htri
    · simp only [h1.ne, false_and, iff_false]; linarith
    · simp [h1]
    · simp only [h1.ne', false_and, iff_false]; linarith

/-- A magnitude n + (rem + d) / 2^k, rounded by its remainder. -/
theorem rounded_roundsUp {rm : Nat} (neg : Bool) (n : Nat) {rem k : Nat} {d : ℚ} (hrm : rm < 4) (hk : 1 ≤ k)
    (hrem : rem < 2 ^ k) (hd0 : 0 ≤ d) (hd1 : d < 1) :
    Rounded rm neg (n + (rem + d) / 2 ^ k) 1
      ((n + (roundsUp rm neg n rem (2 ^ (k - 1)) (decide (d ≠ 0))).toNat : Nat) : ℚ) (!(rem == 0) || decide (d ≠ 0)) := by
  obtain ⟨hf0, hf1, hzero, hgt, heq⟩ := fraction_cases hk hrem hd0 hd1
  have hnx : (!(rem == 0) || decide (d ≠ 0)) = false ↔ (rem + d) / 2 ^ k = 0 := by rw [hzero]; simp
  generalize (rem + d) / 2 ^ k = f at *
  have hpos : 0 < 2 ^ (k - 1) := Nat.two_pow_pos _
  refine rounded_fraction hf0 hf1 ?_ ?_ ?_ ?_ hnx
  · rintro rfl
    split
    · next h =>
      simp only [roundsUp, Bool.or_eq_true, decide_eq_true_eq, Bool.and_eq_true, beq_iff_eq] at h
      obtain h | ⟨h, h' | -⟩ := h
      · exact (hgt.2 (.inl h)).le
      · exact (hgt.2 (.inr ⟨h, h'⟩)).le
      · by_cases hd : d = 0
        · exact (heq.2 ⟨h, hd⟩).ge
        · exact (hgt.2 (.inr ⟨h, hd⟩)).le
    · next h =>
      simp only [roundsUp, Bool.or_eq_true, decide_eq_true_eq, Bool.and_eq_true, beq_iff_eq] at h
      refine not_lt.1 fun hlt => h ?_
      exact (hgt.1 hlt).imp_right fun ⟨h1, h2⟩ => ⟨h1, .inl h2⟩
  · rintro (rfl | ⟨rfl, rfl⟩ | ⟨rfl, rfl⟩) <;> rfl
  · rintro (⟨rfl, rfl⟩ | ⟨rfl, rfl⟩) h
    · exact hnx.1 (by simpa [roundsUp] using h)
    · exact hnx.1 (by simpa [roundsUp] using h)
  · intro h h0
    obtain ⟨rfl, rfl⟩ := hzero.1 h0
    interval_cases rm
    · simp [roundsUp, hpos.ne] at h
    · simp [roundsUp] at h
    · simp [roundsUp] at h
    · simp [roundsUp] at h

/-- A tie goes to the even multiple. -/
theorem roundsUp_tie {neg : Bool} {n rem k : Nat} {d : ℚ} (hk : 1 ≤ k) (hrem : rem < 2 ^ k) (hd0 : 0 ≤ d) (hd1 : d < 1)
    (h : |((n + (roundsUp 0 neg n rem (2 ^ (k - 1)) (decide (d ≠ 0))).toNat : Nat) : ℚ) - (n + (rem + d) / 2 ^ k)| = 1 / 2) :
    (n + (roundsUp 0 neg n rem (2 ^ (k - 1)) (decide (d ≠ 0))).toNat) % 2 = 0 := by
  obtain ⟨hf0, hf1, hzero, hgt, heq⟩ := fraction_cases hk hrem hd0 hd1
  generalize (rem + d) / 2 ^ k = f at *
  have hhalf : f = 1 / 2 := by
    cases hup : roundsUp 0 neg n rem (2 ^ (k - 1)) (decide (d ≠ 0)) with
    | false =>
      rw [hup] at h
      simpa [abs_of_nonneg hf0] using h
    | true =>
      rw [hup] at h
      have he : ((n + true.toNat : Nat) : ℚ) - (n + f) = 1 - f := by push_cast; simp
      rw [he, abs_of_pos (by linarith)] at h
      linarith
  obtain ⟨h1, h2⟩ := heq.1 hhalf
  have hup : roundsUp 0 neg n rem (2 ^ (k - 1)) (decide (d ≠ 0)) = decide (n % 2 = 1) := by
    simp [roundsUp, h1, h2, beq_eq_decide]
  rw [hup]
  by_cases ho : n % 2 = 1
  · simp [ho]; omega
  · simp [ho]; omega

/-- (m + d) x 2^e in units of 2^q, which cuts off the q - e low bits of m. -/
theorem magnitude_split (m : Nat) (d : ℚ) {e q : Int} (h : ¬q ≤ e) : (m + d) * (2 : ℚ) ^ (e - q) =
    (m / 2 ^ (q - e).toNat : Nat) + ((m % 2 ^ (q - e).toNat : Nat) + d) / 2 ^ (q - e).toNat := by
  have hm : (m : ℚ) = 2 ^ (q - e).toNat * (m / 2 ^ (q - e).toNat : Nat) + (m % 2 ^ (q - e).toNat : Nat) := by
    exact_mod_cast (Nat.div_add_mod m (2 ^ (q - e).toNat)).symm
  rw [show e - q = -((q - e).toNat : Int) by omega, zpow_neg, zpow_natCast]
  field_simp
  rw [hm]
  ring

/-- (m + d) x 2^e as a multiple of 2^q; d is zero where no bit is cut off. -/
theorem rounded_roundAt {rm : Nat} (neg : Bool) (m : Nat) (e q : Int) {d : ℚ} (hrm : rm < 4) (hd0 : 0 ≤ d) (hd1 : d < 1)
    (hq : q ≤ e → d = 0) :
    Rounded rm neg ((m + d) * 2 ^ (e - q)) 1 ((roundAt rm neg m e q (decide (d ≠ 0))).1 : ℚ)
      (roundAt rm neg m e q (decide (d ≠ 0))).2 := by
  unfold roundAt
  split
  · next h =>
    have hx : (m + d) * (2 : ℚ) ^ (e - q) = ((m * 2 ^ (e - q).toNat : Nat) : ℚ) := by
      rw [hq h, add_zero, Nat.cast_mul, Nat.cast_pow, Nat.cast_ofNat, ← zpow_natCast, Int.toNat_of_nonneg (sub_nonneg.2 h)]
    rw [hx]
    simpa [hq h] using Rounded.refl rm neg _
  · next h =>
    have hk : 1 ≤ (q - e).toNat := by omega
    rw [magnitude_split m d h]
    exact rounded_roundsUp neg _ hrm hk (Nat.mod_lt _ (Nat.two_pow_pos _)) hd0 hd1

/-! ### Rounding to a format (R195) -/

theorem ofBits_normal (neg : Bool) {b f : Nat} (hb0 : 1 ≤ b) (hb1 : b ≤ 254) (hf : f < 2 ^ 23) :
    ofBits (neg.toNat * 2 ^ 31 + (b * 2 ^ 23 + f)) = .fin neg (2 ^ 23 + f) (b - 150) := by
  have h1 : fld (neg.toNat * 2 ^ 31 + (b * 2 ^ 23 + f)) 31 1 = neg.toNat := by cases neg <;> simp [fld] <;> omega
  have h2 : fld (neg.toNat * 2 ^ 31 + (b * 2 ^ 23 + f)) 23 8 = b := by cases neg <;> simp [fld] <;> omega
  have h3 : fld (neg.toNat * 2 ^ 31 + (b * 2 ^ 23 + f)) 0 23 = f := by cases neg <;> simp [fld] <;> omega
  simp only [ofBits, h1, h2, h3]
  rw [if_neg (by omega), if_neg (by omega)]
  cases neg <;> rfl

theorem ofBits_subnormal (neg : Bool) {f : Nat} (hf : f < 2 ^ 23) :
    ofBits (neg.toNat * 2 ^ 31 + f) = .fin neg f (-149) := by
  have h1 : fld (neg.toNat * 2 ^ 31 + f) 31 1 = neg.toNat := by cases neg <;> simp [fld] <;> omega
  have h2 : fld (neg.toNat * 2 ^ 31 + f) 23 8 = 0 := by cases neg <;> simp [fld] <;> omega
  have h3 : fld (neg.toNat * 2 ^ 31 + f) 0 23 = f := by cases neg <;> simp [fld] <;> omega
  simp only [ofBits, h1, h2, h3]
  cases neg <;> rfl

/-- The exponent of the last place that a format keeps of m x 2^e (R32, R195). -/
def Mode.ulp (md : Mode) (m : Nat) (e : Int) : Int := max (e + Nat.log2 m) (-126) - md.frac

/-- The magnitude, in units of the last place, that `Mode.round` writes, and whether it is inexact. -/
def Mode.rounded (md : Mode) (neg : Bool) (m : Nat) (e : Int) (sticky : Bool) : Nat × Bool :=
  roundAt md.rm neg m e (md.ulp m e) sticky

theorem Mode.frac_le (md : Mode) : 7 ≤ md.frac ∧ md.frac ≤ 23 := by
  unfold Mode.frac
  split <;> simp

/-- A result without OF is a finite value: the rounded magnitude, with NX as it is inexact. -/
def Res.Holds (r : Res) (neg : Bool) (n : Nat) (q : Int) (nx : Bool) : Prop :=
  fld r.flags 2 1 = 0 → ∃ (m : Nat) (e : Int), ofBits r.bits = .fin neg m e ∧ r.bits < 2 ^ 32 ∧
    (m : ℚ) * 2 ^ e = n * 2 ^ q ∧ (fld r.flags 4 1 = 0 ↔ nx = false)

theorem inexact_flag (nx uf : Bool) : fld ((if nx then fNX else 0) + (if nx && uf then fUF else 0)) 4 1 = 0 ↔ nx = false := by
  cases nx <;> cases uf <;> decide

theorem Res.holds_subnormal {neg nx uf : Bool} {n fr : Nat} (hfr : fr ≤ 23) (hn : n < 2 ^ fr) :
    Res.Holds ⟨neg.toNat * 2 ^ 31 + n * 2 ^ (23 - fr),
      (if nx then fNX else 0) + (if nx && uf then fUF else 0)⟩ neg n (-126 - fr) nx := by
  have hlt : n * 2 ^ (23 - fr) < 2 ^ 23 := by
    calc n * 2 ^ (23 - fr) < 2 ^ fr * 2 ^ (23 - fr) := Nat.mul_lt_mul_of_pos_right hn (Nat.two_pow_pos _)
      _ = 2 ^ 23 := by rw [← pow_add, Nat.add_sub_cancel' hfr]
  refine fun _ => ⟨_, _, ofBits_subnormal neg hlt, ?_, ?_, inexact_flag nx uf⟩
  · cases neg <;> simp <;> omega
  · rw [Nat.cast_mul, Nat.cast_pow, mul_assoc, Nat.cast_ofNat, ← zpow_natCast, ← zpow_add₀ (by norm_num)]
    congr 2
    omega

theorem Res.holds_normal {neg nx uf : Bool} {n fr : Nat} {q : Int} (hfr : fr ≤ 23) (hlo : 2 ^ fr ≤ n) (hhi : n < 2 ^ (fr + 1))
    (hq0 : -126 ≤ q + fr) (hq1 : q + fr ≤ 127) :
    Res.Holds ⟨neg.toNat * 2 ^ 31 + ((q + fr + 127).toNat * 2 ^ fr + (n - 2 ^ fr)) * 2 ^ (23 - fr),
      (if nx then fNX else 0) + (if nx && uf then fUF else 0)⟩ neg n q nx := by
  have hpow : 2 ^ fr * 2 ^ (23 - fr) = 2 ^ 23 := by rw [← pow_add, Nat.add_sub_cancel' hfr]
  have hlt : (n - 2 ^ fr) * 2 ^ (23 - fr) < 2 ^ 23 := by
    calc (n - 2 ^ fr) * 2 ^ (23 - fr) < 2 ^ fr * 2 ^ (23 - fr) :=
        Nat.mul_lt_mul_of_pos_right (by rw [pow_succ] at hhi; omega) (Nat.two_pow_pos _)
      _ = 2 ^ 23 := hpow
  rw [show ((q + fr + 127).toNat * 2 ^ fr + (n - 2 ^ fr)) * 2 ^ (23 - fr) =
    (q + fr + 127).toNat * 2 ^ 23 + (n - 2 ^ fr) * 2 ^ (23 - fr) by rw [add_mul, mul_assoc, hpow]]
  refine fun _ => ⟨_, _, ofBits_normal neg (by omega) (by omega) hlt, ?_, ?_, inexact_flag nx uf⟩
  · have : (q + fr + 127).toNat ≤ 254 := by omega
    cases neg <;> simp <;> omega
  · rw [← hpow, ← add_mul, Nat.add_sub_cancel' hlo, Nat.cast_mul, Nat.cast_pow, mul_assoc, Nat.cast_ofNat, ← zpow_natCast,
      ← zpow_add₀ (by norm_num)]
    congr 2
    omega

theorem Res.Holds.congr {r : Res} {neg nx : Bool} {n n' : Nat} {q q' : Int} (h : r.Holds neg n q nx)
    (hv : (n : ℚ) * 2 ^ q = n' * 2 ^ q') : r.Holds neg n' q' nx := by
  intro hof
  obtain ⟨m, e, hb, hlt, hval, hnx⟩ := h hof
  exact ⟨m, e, hb, hlt, hval.trans hv, hnx⟩

/-- A rounded magnitude of the format's size is what the result's bits hold. -/
theorem Mode.round_holds {md : Mode} (hftz : md.ftz = false) (neg : Bool) (m : Nat) (e : Int) (sticky : Bool)
    (hhi : (md.rounded neg m e sticky).1 ≤ 2 ^ (md.frac + 1))
    (hlo : -126 ≤ e + Nat.log2 m → 2 ^ md.frac ≤ (md.rounded neg m e sticky).1) :
    (md.round neg m e sticky).Holds neg (md.rounded neg m e sticky).1 (md.ulp m e) (md.rounded neg m e sticky).2 := by
  have hfr := md.frac_le.2
  unfold Mode.round
  extract_lets fr top q0 r up n q sgn nx toInf tiny tiny'
  change r.1 ≤ 2 ^ (fr + 1) at hhi
  change -126 ≤ top → 2 ^ fr ≤ r.1 at hlo
  change Res.Holds _ neg r.1 q0 r.2
  have hq0 : q0 = max top (-126) - fr := rfl
  have hcarry : (r.1 < 2 ^ (fr + 1) ∧ n = r.1 ∧ q = q0) ∨ (n = 2 ^ fr ∧ r.1 = 2 ^ fr * 2 ∧ q = q0 + 1) := by
    by_cases hup : 2 ^ (fr + 1) ≤ r.1
    · have he : r.1 = 2 ^ fr * 2 := le_antisymm hhi hup
      exact .inr ⟨by simp only [n, up, decide_eq_true hup, if_true]; omega, he, by simp [q, up, hup]⟩
    · exact .inl ⟨not_le.1 hup, by simp [n, up, hup], by simp [q, up, hup]⟩
  have hval : (n : ℚ) * 2 ^ q = r.1 * 2 ^ q0 := by
    obtain ⟨-, hn, hq⟩ | ⟨hn, hr, hq⟩ := hcarry
    · rw [hn, hq]
    · rw [hn, hr, hq, zpow_add_one₀ (by norm_num)]
      push_cast
      ring
  refine Res.Holds.congr ?_ hval
  split
  · exact fun h => absurd h (show ¬ fld (fOF + fNX) 2 1 = 0 by decide)
  · next hof =>
    split
    · next hsub =>
      have hq : q = -126 - fr := by
        obtain ⟨-, hn, hq⟩ | ⟨hn, -, -⟩ := hcarry
        · have : ¬ -126 ≤ top := fun h => by have := hlo h; omega
          omega
        · omega
      rw [if_neg (by simp [hftz]), hq]
      exact Res.holds_subnormal hfr hsub
    · next hsub =>
      have hnhi : n < 2 ^ (fr + 1) := by
        obtain ⟨hlt, hn, -⟩ | ⟨hn, -, -⟩ := hcarry
        · omega
        · rw [hn, pow_succ]
          have := Nat.two_pow_pos fr
          omega
      exact Res.holds_normal hfr (not_lt.1 hsub) hnhi (by obtain ⟨-, -, h⟩ | ⟨-, -, h⟩ := hcarry <;> omega)
        (not_lt.1 fun h => hof ⟨h, not_lt.1 hsub⟩)

/-- The last place that a format keeps of (m + d) x 2^e is at or above the last bit of m where d is not zero. -/
theorem Mode.ulp_exact {md : Mode} {m : Nat} {e : Int} {d : ℚ} (hd : d = 0 ∨ 2 ^ 30 ≤ m) (h : md.ulp m e ≤ e) : d = 0 := by
  refine hd.resolve_right fun hm => ?_
  have hlog : 30 ≤ Nat.log2 m := (Nat.le_log2 (by omega)).2 hm
  have hfr := md.frac_le.2
  unfold Mode.ulp at h
  omega

/-- The exact value lies below 2^(frac + 1) units of the last place, and at 2^frac of them or above unless subnormal. -/
theorem Mode.ulp_bounds (md : Mode) {m : Nat} (e : Int) {d : ℚ} (hm : m ≠ 0) (hd0 : 0 ≤ d) (hd1 : d < 1) :
    (m + d) * (2 : ℚ) ^ (e - md.ulp m e) < 2 ^ (md.frac + 1) ∧
      (-126 ≤ e + Nat.log2 m → 2 ^ md.frac ≤ (m + d) * (2 : ℚ) ^ (e - md.ulp m e)) := by
  have hlo : (2 : ℚ) ^ Nat.log2 m ≤ m + d := by
    have : (2 : ℚ) ^ Nat.log2 m ≤ m := by exact_mod_cast Nat.log2_self_le hm
    linarith
  have hhi : m + d < (2 : ℚ) ^ (Nat.log2 m + 1) := by
    have : (m : ℚ) + 1 ≤ 2 ^ (Nat.log2 m + 1) := by exact_mod_cast Nat.lt_log2_self (n := m)
    linarith
  have hpos : (0 : ℚ) < 2 ^ (e - md.ulp m e) := by positivity
  constructor
  · calc (m + d) * (2 : ℚ) ^ (e - md.ulp m e) < 2 ^ (Nat.log2 m + 1) * 2 ^ (e - md.ulp m e) :=
        mul_lt_mul_of_pos_right hhi hpos
      _ = 2 ^ ((Nat.log2 m + 1 : Nat) + (e - md.ulp m e)) := by rw [zpow_add₀ (by norm_num), zpow_natCast]
      _ ≤ 2 ^ ((md.frac + 1 : Nat) : Int) := zpow_le_zpow_right₀ (by norm_num) (by unfold Mode.ulp; omega)
      _ = 2 ^ (md.frac + 1) := zpow_natCast _ _
  · intro h
    calc (2 : ℚ) ^ md.frac = 2 ^ ((md.frac : Nat) : Int) := (zpow_natCast _ _).symm
      _ = 2 ^ ((Nat.log2 m : Nat) + (e - md.ulp m e)) := by congr 1; unfold Mode.ulp; omega
      _ = 2 ^ Nat.log2 m * 2 ^ (e - md.ulp m e) := by rw [zpow_add₀ (by norm_num), zpow_natCast]
      _ ≤ (m + d) * 2 ^ (e - md.ulp m e) := mul_le_mul_of_nonneg_right hlo hpos.le

/-- `wr` of R195 of (m + d) x 2^e without FTZ: unless it overflows, the value rounded in units of its last place. -/
theorem Mode.round_rounded {md : Mode} (hftz : md.ftz = false) (hrm : md.rm < 4) (neg : Bool) {m : Nat} (e : Int) {d : ℚ}
    (hm : m ≠ 0) (hd0 : 0 ≤ d) (hd1 : d < 1) (hd : d = 0 ∨ 2 ^ 30 ≤ m)
    (hof : fld (md.round neg m e (decide (d ≠ 0))).flags 2 1 = 0) :
    ∃ (m' : Nat) (e' : Int) (nx : Bool), ofBits (md.round neg m e (decide (d ≠ 0))).bits = .fin neg m' e' ∧
      (md.round neg m e (decide (d ≠ 0))).bits < 2 ^ 32 ∧
      Rounded md.rm neg ((m + d) * 2 ^ e) (2 ^ md.ulp m e) (m' * 2 ^ e') nx ∧
      (fld (md.round neg m e (decide (d ≠ 0))).flags 4 1 = 0 ↔ nx = false) := by
  obtain ⟨hhi, hlo⟩ := md.ulp_bounds e hm hd0 hd1
  have hr := rounded_roundAt neg m e (md.ulp m e) hrm hd0 hd1 (Mode.ulp_exact hd)
  have hnear := abs_lt.1 hr.near
  have hhi' : (md.rounded neg m e (decide (d ≠ 0))).1 ≤ 2 ^ (md.frac + 1) := by
    have : ((md.rounded neg m e (decide (d ≠ 0))).1 : ℚ) < (2 ^ (md.frac + 1) : Nat) + 1 := by
      push_cast
      exact (sub_lt_iff_lt_add'.1 hnear.2).trans (by linarith)
    exact Nat.lt_succ_iff.1 (by exact_mod_cast this)
  have hlo' (h : -126 ≤ e + Nat.log2 m) : 2 ^ md.frac ≤ (md.rounded neg m e (decide (d ≠ 0))).1 := by
    have : ((2 ^ md.frac : Nat) : ℚ) < (md.rounded neg m e (decide (d ≠ 0))).1 + 1 := by
      push_cast
      exact (hlo h).trans_lt (by unfold Mode.rounded; linarith)
    exact Nat.lt_succ_iff.1 (by exact_mod_cast this)
  obtain ⟨m', e', hb, hlt, hval, hnx⟩ := Mode.round_holds hftz neg m e (decide (d ≠ 0)) hhi' hlo' hof
  refine ⟨m', e', _, hb, hlt, ?_, hnx⟩
  have hs := hr.scale (c := 2 ^ md.ulp m e) (by positivity)
  rwa [mul_assoc, ← zpow_add₀ (by norm_num), sub_add_cancel, one_mul, ← Mode.rounded, ← hval] at hs

/-! ### Exact sums, products, quotients and roots (R196, R197, R212) -/

/-- The value (-1)^neg x m x 2^e (R32). -/
def finVal (neg : Bool) (m : Nat) (e : Int) : ℚ := (if neg then -1 else 1) * m * 2 ^ e

theorem finVal_eq (neg : Bool) (m : Nat) (e : Int) : finVal neg m e = if neg then -(m * 2 ^ e : ℚ) else m * 2 ^ e := by
  cases neg <;> simp [finVal]

theorem finVal_not (neg : Bool) (m : Nat) (e : Int) : finVal (!neg) m e = -finVal neg m e := by
  cases neg <;> simp [finVal]

theorem finVal_mul (n1 n2 : Bool) (m1 m2 : Nat) (e1 e2 : Int) :
    finVal (n1 != n2) (m1 * m2) (e1 + e2) = finVal n1 m1 e1 * finVal n2 m2 e2 := by
  simp only [finVal_eq, zpow_add₀ (two_ne_zero (α := ℚ)), Nat.cast_mul]
  cases n1 <;> cases n2 <;> simp <;> ring

theorem scaled_val (neg : Bool) (m : Nat) {e q : Int} (h : q ≤ e) : (scaled neg m e q : ℚ) * 2 ^ q = finVal neg m e := by
  have hpow : (2 : ℚ) ^ (e - q).toNat * 2 ^ q = 2 ^ e := by
    rw [← zpow_natCast, Int.toNat_of_nonneg (sub_nonneg.2 h), ← zpow_add₀ two_ne_zero, sub_add_cancel]
  unfold scaled
  rw [finVal_eq]
  split
  · push_cast
    rw [neg_mul, mul_assoc, hpow]
  · push_cast
    rw [mul_assoc, hpow]

/-- An exact value is a sign and a magnitude. -/
theorem ofScaled_val (v q : Int) (zero : Bool) : ∃ n k, ofScaled v q zero = .fin n k q ∧ finVal n k q = v * 2 ^ q := by
  unfold ofScaled
  split
  · next h => exact ⟨_, _, rfl, by simp [finVal, h]⟩
  · refine ⟨_, _, rfl, ?_⟩
    have habs : (v.natAbs : ℚ) = |(v : ℚ)| := by rw [Nat.cast_natAbs, Int.cast_abs]
    rw [finVal_eq, habs]
    by_cases hv : v < 0
    · have : (v : ℚ) < 0 := by exact_mod_cast hv
      simp [hv, abs_of_neg this]
    · have : (0 : ℚ) ≤ v := by exact_mod_cast not_lt.1 hv
      simp [hv, abs_of_nonneg this]

/-- An exact sum of finite values is finite. -/
theorem Num.add_fin (rm : Nat) (n1 n2 : Bool) (m1 m2 : Nat) (e1 e2 : Int) :
    ∃ n k j, Num.add rm (.fin n1 m1 e1) (.fin n2 m2 e2) = .fin n k j ∧ finVal n k j = finVal n1 m1 e1 + finVal n2 m2 e2 := by
  obtain ⟨n, k, h, hv⟩ := ofScaled_val (scaled n1 m1 e1 (min e1 e2) + scaled n2 m2 e2 (min e1 e2)) (min e1 e2)
    (zeroSign rm n1 n2)
  refine ⟨n, k, _, h, ?_⟩
  rw [hv, Int.cast_add, add_mul, scaled_val _ _ (min_le_left _ _), scaled_val _ _ (min_le_right _ _)]

theorem Num.lt_fin (n1 n2 : Bool) (m1 m2 : Nat) (e1 e2 : Int) :
    Num.lt (.fin n1 m1 e1) (.fin n2 m2 e2) = decide (finVal n1 m1 e1 < finVal n2 m2 e2) := by
  rw [← scaled_val n1 m1 (min_le_left e1 e2), ← scaled_val n2 m2 (min_le_right e1 e2)]
  refine decide_eq_decide.2 ?_
  rw [mul_lt_mul_iff_left₀ (by positivity), Int.cast_lt]

/-- r is v, exact, rounded once: a signed zero, or as `Mode.round` does. -/
def Res.RoundsExact (r : Res) (md : Mode) (v : ℚ) : Prop :=
  ∃ n k j, finVal n k j = v ∧ r = if k = 0 then { bits := if n then 0x80000000 else 0 } else md.round n k j false

theorem Mode.wr_fin (md : Mode) (n : Bool) (k : Nat) (j : Int) : (md.wr (.fin n k j)).RoundsExact md (finVal n k j) :=
  ⟨n, k, j, rfl, by cases n <;> rfl⟩

theorem fpAdd_fin (md : Mode) (n1 n2 : Bool) (m1 m2 : Nat) (e1 e2 : Int) :
    (fpAdd md (.fin n1 m1 e1) (.fin n2 m2 e2)).RoundsExact md (finVal n1 m1 e1 + finVal n2 m2 e2) := by
  obtain ⟨n, k, j, h, hv⟩ := Num.add_fin md.rm n1 n2 m1 m2 e1 e2
  rw [← hv, fpAdd, h]
  exact md.wr_fin n k j

theorem fpSub_fin (md : Mode) (n1 n2 : Bool) (m1 m2 : Nat) (e1 e2 : Int) :
    (fpSub md (.fin n1 m1 e1) (.fin n2 m2 e2)).RoundsExact md (finVal n1 m1 e1 - finVal n2 m2 e2) := by
  rw [sub_eq_add_neg, ← finVal_not]
  exact fpAdd_fin md n1 (!n2) m1 m2 e1 e2

theorem fpMul_fin (md : Mode) (n1 n2 : Bool) (m1 m2 : Nat) (e1 e2 : Int) :
    (fpMul md (.fin n1 m1 e1) (.fin n2 m2 e2)).RoundsExact md (finVal n1 m1 e1 * finVal n2 m2 e2) := by
  rw [← finVal_mul]
  exact md.wr_fin _ _ _

theorem fpFma_fin (md : Mode) (n1 n2 n3 : Bool) (m1 m2 m3 : Nat) (e1 e2 e3 : Int) :
    (fpFma md (.fin n1 m1 e1) (.fin n2 m2 e2) (.fin n3 m3 e3)).RoundsExact md
      (finVal n1 m1 e1 * finVal n2 m2 e2 + finVal n3 m3 e3) := by
  rw [← finVal_mul]
  exact fpAdd_fin md (n1 != n2) n3 (m1 * m2) m3 (e1 + e2) e3

/-- r is rounded from 40 bits or more of the p-th root of v, and whether more follow. -/
def Res.RoundsNear (r : Res) (md : Mode) (n : Bool) (p : Nat) (v : ℚ) : Prop :=
  ∃ (k : Nat) (j : Int) (st : Bool), r = md.round n k j st ∧ 2 ^ 40 ≤ k ∧ ((k : ℚ) * 2 ^ j) ^ p ≤ v ∧
    v < ((k + 1 : ℚ) * 2 ^ j) ^ p ∧ (st = true ↔ ((k : ℚ) * 2 ^ j) ^ p ≠ v)

/-- The bits of a quotient of positive integers. -/
theorem quot_spec {n d : Nat} (hn : n ≠ 0) (hd : d ≠ 0) :
    2 ^ 40 ≤ (quot n d).1 ∧ ((quot n d).1 : ℚ) * 2 ^ (quot n d).2.1 ≤ n / d ∧
      (n : ℚ) / d < ((quot n d).1 + 1) * 2 ^ (quot n d).2.1 ∧
      ((quot n d).2.2 = true ↔ ((quot n d).1 : ℚ) * 2 ^ (quot n d).2.1 ≠ n / d) := by
  have hdq : (0 : ℚ) < d := by exact_mod_cast Nat.pos_of_ne_zero hd
  obtain ⟨k, hk⟩ : ∃ k, k = Nat.log2 d + 41 := ⟨_, rfl⟩
  have hq : quot n d = (n * 2 ^ k / d, -(k : Int), !(n * 2 ^ k % d == 0)) := by rw [quot, hk]
  have h2 : (0 : ℚ) < 2 ^ k := by positivity
  have hdiv : (n : ℚ) * 2 ^ k = d * (n * 2 ^ k / d : Nat) + (n * 2 ^ k % d : Nat) := by
    exact_mod_cast (Nat.div_add_mod (n * 2 ^ k) d).symm
  have hmod : ((n * 2 ^ k % d : Nat) : ℚ) < d := by exact_mod_cast Nat.mod_lt _ (Nat.pos_of_ne_zero hd)
  have hmod0 : (0 : ℚ) ≤ (n * 2 ^ k % d : Nat) := Nat.cast_nonneg _
  rw [hq]
  simp only [zpow_neg, zpow_natCast, ← div_eq_mul_inv]
  refine ⟨?_, ?_, ?_, ?_⟩
  · rw [Nat.le_div_iff_mul_le (Nat.pos_of_ne_zero hd)]
    calc 2 ^ 40 * d ≤ 2 ^ 40 * 2 ^ (Nat.log2 d + 1) := Nat.mul_le_mul_left _ Nat.lt_log2_self.le
      _ = 1 * 2 ^ k := by rw [hk, ← pow_add, one_mul]; congr 1; omega
      _ ≤ n * 2 ^ k := Nat.mul_le_mul_right _ (Nat.pos_of_ne_zero hn)
  · rw [div_le_div_iff₀ h2 hdq]
    linarith
  · rw [div_lt_div_iff₀ hdq h2]
    linarith
  · rw [Ne, div_eq_div_iff h2.ne' hdq.ne', hdiv, mul_comm _ (d : ℚ), left_eq_add, Nat.cast_eq_zero]
    simp

theorem isqrtFrom_spec (x : Nat) : ∀ k r, r * r ≤ x → x < (r + 2 ^ k) * (r + 2 ^ k) →
    isqrtFrom x k r * isqrtFrom x k r ≤ x ∧ x < (isqrtFrom x k r + 1) * (isqrtFrom x k r + 1)
  | 0, r, hlo, hhi => ⟨hlo, hhi⟩
  | k + 1, r, hlo, hhi => by
    rw [isqrtFrom]
    refine isqrtFrom_spec x k _ ?_ ?_
    · split
      · assumption
      · exact hlo
    · split
      · rwa [add_assoc, ← two_mul, ← pow_succ']
      · next h => exact not_le.1 h

theorem isqrt_spec (x : Nat) : isqrt x * isqrt x ≤ x ∧ x < (isqrt x + 1) * (isqrt x + 1) := by
  refine isqrtFrom_spec x _ 0 (by simp) ?_
  calc x < 2 ^ (Nat.log2 x + 1) := Nat.lt_log2_self
    _ ≤ 2 ^ (Nat.log2 x / 2 + 1 + (Nat.log2 x / 2 + 1)) := Nat.pow_le_pow_right (by norm_num) (by omega)
    _ = _ := by rw [pow_add, zero_add]

theorem le_isqrt {x b : Nat} (h : b * b ≤ x) : b ≤ isqrt x := by
  by_contra hlt
  have := Nat.mul_le_mul (not_le.1 hlt) (not_le.1 hlt)
  have := (isqrt_spec x).2
  simp only [Nat.succ_eq_add_one] at *
  omega

/-- A quotient of finite values other than zero. -/
theorem fpDiv_fin (md : Mode) (n1 n2 : Bool) {m1 m2 : Nat} (e1 e2 : Int) (h1 : m1 ≠ 0) (h2 : m2 ≠ 0) :
    (fpDiv md (.fin n1 m1 e1) (.fin n2 m2 e2)).RoundsNear md (n1 != n2) 1 |finVal n1 m1 e1 / finVal n2 m2 e2| := by
  obtain ⟨hbits, hlo, hhi, hst⟩ := quot_spec h1 h2
  have hv : |finVal n1 m1 e1 / finVal n2 m2 e2| = m1 / m2 * 2 ^ (e1 - e2) := by
    have habs (n : Bool) (m : Nat) (e : Int) : |finVal n m e| = m * 2 ^ e := by
      have : (0 : ℚ) ≤ m * 2 ^ e := by positivity
      rw [finVal_eq]
      cases n <;> simp [abs_of_nonneg this]
    rw [abs_div, habs, habs, zpow_sub₀ two_ne_zero, mul_div_mul_comm]
  have hpos : (0 : ℚ) < 2 ^ (e1 - e2) := by positivity
  have hsplit (a : ℚ) : a * 2 ^ (e1 - e2 + (quot m1 m2).2.1) = a * 2 ^ (quot m1 m2).2.1 * 2 ^ (e1 - e2) := by
    rw [zpow_add₀ two_ne_zero]
    ring
  refine ⟨(quot m1 m2).1, e1 - e2 + (quot m1 m2).2.1, (quot m1 m2).2.2, ?_, hbits, ?_, ?_, ?_⟩
  · simp [fpDiv, Num.isNan, h1, h2, Num.sign]
  · rw [pow_one, hv, hsplit]
    exact mul_le_mul_of_nonneg_right hlo hpos.le
  · rw [pow_one, hv, hsplit]
    exact mul_lt_mul_of_pos_right hhi hpos
  · rw [pow_one, hv, hsplit, Ne, mul_left_inj' hpos.ne']
    exact hst

/-- The bits of the root of x x 2^(2j). -/
theorem roundsNear_root {md : Mode} {r : Res} {x : Nat} {st : Bool} {j : Int} {v y : ℚ} (hr : r = md.round false (isqrt x) j st)
    (hx : 2 ^ 80 ≤ x) (hv : v = y * 2 ^ (2 * j)) (hxy : (x : ℚ) ≤ y) (hyx : y < x + 1)
    (hst : st = true ↔ ((isqrt x * isqrt x : Nat) : ℚ) ≠ y) : r.RoundsNear md false 2 v := by
  obtain ⟨hlo, hhi⟩ := isqrt_spec x
  have hloq : ((isqrt x : ℚ)) ^ 2 ≤ x := by rw [sq]; exact_mod_cast hlo
  have hhiq : (x : ℚ) + 1 ≤ ((isqrt x : ℚ) + 1) ^ 2 := by rw [sq]; exact_mod_cast hhi
  have hpos : (0 : ℚ) < 2 ^ (2 * j) := by positivity
  have hsplit (a : ℚ) : (a * 2 ^ j) ^ 2 = a ^ 2 * 2 ^ (2 * j) := by
    rw [mul_pow, ← zpow_natCast ((2 : ℚ) ^ j), ← zpow_mul, mul_comm j]
    rfl
  refine ⟨isqrt x, j, st, hr, le_isqrt hx, ?_, ?_, ?_⟩
  · rw [hsplit, hv]
    exact mul_le_mul_of_nonneg_right (hloq.trans hxy) hpos.le
  · rw [hsplit, hv]
    exact mul_lt_mul_of_pos_right (hyx.trans_le hhiq) hpos
  · rw [hst, hsplit, hv, Ne, Ne, mul_left_inj' hpos.ne', sq, Nat.cast_mul]

theorem fpSqrt_fin (md : Mode) {m : Nat} (e : Int) (hm : m ≠ 0) :
    (fpSqrt md (.fin false m e)).RoundsNear md false 2 (finVal false m e) := by
  obtain ⟨odd, hodd⟩ : ∃ odd, odd = (e % 2).toNat := ⟨_, rfl⟩
  obtain ⟨x, hx⟩ : ∃ x, x = m * 2 ^ (odd + 80) := ⟨_, rfl⟩
  have hround : fpSqrt md (.fin false m e) =
      md.round false (isqrt x) ((e - odd - 80) / 2) (!(isqrt x * isqrt x == x)) := by
    simp [fpSqrt, hm, hx, hodd]
  refine roundsNear_root (x := x) (y := x) hround ?_ ?_ le_rfl (by linarith) ?_
  · calc 2 ^ 80 = 1 * 2 ^ 80 := (one_mul _).symm
      _ ≤ m * 2 ^ (odd + 80) := Nat.mul_le_mul (Nat.pos_of_ne_zero hm) (Nat.pow_le_pow_right (by norm_num) (by omega))
      _ = x := hx.symm
  · rw [show 2 * ((e - odd - 80) / 2) = e - (odd + 80 : Nat) by omega, finVal_eq, hx, zpow_sub₀ two_ne_zero, zpow_natCast]
    push_cast
    field_simp
  · rw [Ne, Nat.cast_inj]
    simp

theorem fpRsqrt_fin (md : Mode) {m : Nat} (e : Int) (hm : m ≠ 0) (hlt : m < 2 ^ 24) :
    (fpRsqrt md (.fin false m e)).RoundsNear md false 2 (1 / finVal false m e) := by
  obtain ⟨odd, hodd⟩ : ∃ odd, odd = (e % 2).toNat := ⟨_, rfl⟩
  obtain ⟨m', hm'⟩ : ∃ m', m' = m * 2 ^ odd := ⟨_, rfl⟩
  have hpos : 0 < m' := hm' ▸ Nat.mul_pos (Nat.pos_of_ne_zero hm) (Nat.two_pow_pos _)
  have hposq : (0 : ℚ) < m' := by exact_mod_cast hpos
  have hround : fpRsqrt md (.fin false m e) = md.round false (isqrt (2 ^ 160 / m')) (-((e - odd + 160) / 2))
      (!(isqrt (2 ^ 160 / m') * isqrt (2 ^ 160 / m') * m' == 2 ^ 160)) := by
    simp [fpRsqrt, hm, hm', hodd]
  have hlo : (m' : ℚ) * (2 ^ 160 / m' : Nat) ≤ 2 ^ 160 := by exact_mod_cast Nat.mul_div_le (2 ^ 160) m'
  have hhi : (2 : ℚ) ^ 160 < m' * ((2 ^ 160 / m' : Nat) + 1) := by
    exact_mod_cast Nat.lt_mul_div_succ (2 ^ 160) hpos
  refine roundsNear_root (x := 2 ^ 160 / m') (y := 2 ^ 160 / m') hround ?_ ?_ ?_ ?_ ?_
  · rw [Nat.le_div_iff_mul_le hpos, hm']
    calc 2 ^ 80 * (m * 2 ^ odd) ≤ 2 ^ 80 * (2 ^ 24 * 2 ^ 1) :=
        Nat.mul_le_mul_left _ (Nat.mul_le_mul hlt.le (Nat.pow_le_pow_right (by norm_num) (by omega)))
      _ ≤ 2 ^ 160 := by norm_num
  · rw [show 2 * -((e - odd + 160) / 2) = odd - (160 : Nat) - e by omega, finVal_eq, hm', zpow_sub₀ two_ne_zero,
      zpow_sub₀ two_ne_zero, zpow_natCast, zpow_natCast]
    push_cast
    field_simp
  · rwa [le_div_iff₀ hposq, mul_comm]
  · rwa [div_lt_iff₀ hposq, mul_comm]
  · rw [Ne, eq_div_iff hposq.ne']
    norm_cast
    simp

/-- Settles O23: the lane holds a multiple of the last place, at the exact value or beside it. -/
theorem roundingStaysWithinOneUnit : Obligations.RoundingStaysWithinOneUnit := by
  intro rm bf16 neg m e hm hrm md val
  constructor
  · intro d hd0 hd1 hd r unit exact hof
    obtain ⟨m', e', nx, hb, hlt, hr, hnx⟩ := Mode.round_rounded (md := md) rfl hrm neg e hm hd0 hd1 hd hof
    have hval : val neg m' e' = if neg then -(m' * 2 ^ e' : ℚ) else m' * 2 ^ e' := finVal_eq neg m' e'
    refine ⟨m', e', hb, hlt, hr.near, hr.nearest, fun h => hr.below (.inl h), fun h => ?_, fun h => ?_, hnx.trans hr.exact_iff⟩
    · rw [hval]
      cases neg with
      | true => exact neg_le_neg (hr.below (.inr (.inl ⟨h, rfl⟩)))
      | false => exact hr.above (.inl ⟨h, rfl⟩)
    · rw [hval]
      cases neg with
      | true => exact neg_le_neg (hr.above (.inr ⟨h, rfl⟩))
      | false => exact hr.below (.inr (.inr ⟨h, rfl⟩))
  · intro n1 n2 n3 m1 m2 m3 e1 e2 e3 a b va vb rounds near
    refine ⟨fpAdd_fin md n1 n2 m1 m2 e1 e2, fpSub_fin md n1 n2 m1 m2 e1 e2, fpMul_fin md n1 n2 m1 m2 e1 e2,
      fpFma_fin md n1 n2 n3 m1 m2 m3 e1 e2 e3, Num.lt_fin n1 n2 m1 m2 e1 e2, fun h1 h2 => fpDiv_fin md n1 n2 e1 e2 h1 h2,
      fun h hn => ?_, fun h hlt hn => ?_⟩
    · subst hn
      exact fpSqrt_fin md e1 h
    · subst hn
      exact fpRsqrt_fin md e1 h hlt
end Sys2Proof.Machine
end

section
/-! ## Conversions (O27) -/
namespace Sys2Proof.Machine

/-! ### What a vector word reads at its beginning (R191-R193) -/

theorem State.meCore_begun (s : State) (i : Instr) : (s.begun i).meCore = s.meCore := by
  simp only [State.meCore, State.cur_begun]
theorem State.fpcr_begun (s : State) (i : Instr) (g : Nat) : ((s.begun i).core g).fpcr = (s.core g).fpcr :=
  State.core_begun_keeps Core.setSeq_fpcr (fun _ _ => rfl) s i g
theorem State.shape_begun (s : State) (i : Instr) : (s.begun i).shape = s.shape := by
  rw [State.shape, State.meCore_begun]
  exact State.core_begun_keeps Core.setSeq_vshape (fun _ _ => rfl) s i s.meCore
theorem State.rv_begun (s : State) (i : Instr) (r : VReg) : (s.begun i).rv r = s.rv r := by
  have hv := State.core_begun_keeps Core.setSeq_v (fun _ _ => rfl) s i s.meCore
  have hr := State.core_begun_keeps Core.setSeq_vrot (fun _ _ => rfl) s i s.meCore
  simp only [State.rv, State.lanesOf, State.vphys, State.shape_begun, State.meCore_begun, hv, hr]
theorem State.mode_begun (s : State) (i : Instr) (t : Fin 8) : (s.begun i).mode t = s.mode t := by
  simp only [State.mode, State.meCore_begun, State.fpcr_begun]

/-! ### Conversions lane by lane (R205) -/

/-- A vector word whose effect applies f to the lanes read at its beginning. -/
theorem gives_lanes {i : Instr} {x : State → Eff} {s : State} {k : Lat} {d a : VReg} {f : State → W32 → Res} {f' : W32 → Res}
    (hx : wordEffect i = some x) (hf : ∀ t, x t = .done (t.putV k d (collect ((t.rv a).map (f t)))))
    (hb : f (s.begun i) = f') :
    GivesV i s k d (collect ((s.rv a).map f')).1 (collect ((s.rv a).map f')).2 := by
  intro h
  refine exec_done hx h ?_
  rw [hf, hb, State.rv_begun]

/-- R195's `wr`, where a NaN raises NV if it signals. -/
theorem fpWrite_eq (md : Mode) (x : Num) : fpWrite md x =
    (match x with | .nan sg => { bits := 0x7FC00000, flags := if sg then 1 else 0 } | v => md.wr v) := by
  cases x <;> rfl

/-- A residue conversion whose addresses lie in this core's scratchpad is put in flight with what it reads at issue (R206). -/
theorem converts_launches {i : Instr} {half : Bool} {d b : SReg} {a : VReg} {t : Fin 8} {s : State}
    (hx : wordEffect i = some (convert half d a b t)) (h : s.passes i = true) (hd : (s.rs d).toNat % 256 = 0)
    (hb : (s.rs b).toNat % 16 = 0)
    (hdst : (s.begun i).ownRange s.meCore (s.rs d) (256 * (shapeN s.shape / (if t = 6 then 256 else 512))) { w := true } = none)
    (hctl : (s.begun i).ownRange s.meCore (s.rs b) 16 { rd := true } = none) :
    exec i s = .next ((s.begun i).launch s.meCore .vcvt (.convert t half (s.rv a) (s.rs d) (s.rs b) (s.core s.meCore).fpcr)) := by
  refine exec_done hx h ?_
  simp only [convert, State.rs_begun, State.meCore_begun, State.shape_begun, State.rv_begun, State.fpcr_begun, hd, hb, hdst,
    hctl, ne_eq, not_true_eq_false, if_false]

theorem vcvtQf_misaligned {d b : SReg} {a : VReg} {t : Fin 8} {s : State} (h : s.passes (.vcvtQf d a b t) = true)
    (hd : (s.rs d).toNat % 256 ≠ 0) : Raises (.vcvtQf d a b t) s (align (s.rs d)) := by
  refine exec_trap (x := xVcvtQf d a b t) rfl h rfl ?_
  simp only [xVcvtQf, convert, State.rs_begun, if_pos hd]

/-! ### Rounding to an integer (R205, R47) -/

/-- The integer k is v, of sign n, rounded under RM (R45). -/
def RoundsTo (rm : Nat) (n : Bool) (v : ℚ) (k : Int) : Prop :=
  if rm = 0 then |(k : ℚ) - v| ≤ 1 / 2 ∧ (|(k : ℚ) - v| = 1 / 2 → k % 2 = 0)
  else if rm = 1 then k = (if n then ⌈v⌉ else ⌊v⌋) else if rm = 2 then k = ⌈v⌉ else k = ⌊v⌋

/-- The integer of a sign and a magnitude. -/
def withSign (n : Bool) (k : Nat) : Int := if n then -(k : Int) else k

theorem Rounded.floor_eq {rm k : Nat} {n nx : Bool} {x : ℚ} (h : Rounded rm n x 1 k nx)
    (hb : rm = 1 ∨ (rm = 2 ∧ n = true) ∨ (rm = 3 ∧ n = false)) : ⌊x⌋ = (k : Int) := by
  have := abs_lt.1 h.near
  rw [Int.floor_eq_iff, Int.cast_natCast]
  exact ⟨h.below hb, by linarith⟩

theorem Rounded.ceil_eq {rm k : Nat} {n nx : Bool} {x : ℚ} (h : Rounded rm n x 1 k nx)
    (ha : (rm = 2 ∧ n = false) ∨ (rm = 3 ∧ n = true)) : ⌈x⌉ = (k : Int) := by
  have := abs_lt.1 h.near
  rw [Int.ceil_eq_iff, Int.cast_natCast]
  exact ⟨by linarith, h.above ha⟩

/-- A tie between two integers goes to the even one. -/
theorem roundAt_tie {neg : Bool} {m : Nat} {e q : Int}
    (h : |((roundAt 0 neg m e q false).1 : ℚ) - m * 2 ^ (e - q)| = 1 / 2) : (roundAt 0 neg m e q false).1 % 2 = 0 := by
  have hr := rounded_roundAt (rm := 0) neg m e q (d := 0) (by norm_num) le_rfl one_pos fun _ => rfl
  unfold roundAt at h ⊢
  split at h
  · next hq =>
    simp only [roundAt, hq, ne_eq, not_true_eq_false, decide_false, if_true, add_zero] at hr
    rw [(hr.exact_iff.1 rfl), sub_self, abs_zero] at h
    norm_num at h
  · next hq =>
    rw [if_neg hq]
    have hk : 1 ≤ (q - e).toNat := by omega
    rw [← add_zero (m : ℚ), magnitude_split m 0 hq] at h
    exact roundsUp_tie (d := 0) hk (Nat.mod_lt _ (Nat.two_pow_pos _)) le_rfl one_pos h

theorem roundAt_roundsTo {rm : Nat} (hrm : rm < 4) (n : Bool) (m : Nat) (e : Int) :
    RoundsTo rm n (finVal n m e) (withSign n (roundAt rm n m e 0 false).1) ∧
      ((roundAt rm n m e 0 false).2 = false ↔ (withSign n (roundAt rm n m e 0 false).1 : ℚ) = finVal n m e) := by
  have hr := rounded_roundAt n m e 0 (d := 0) hrm le_rfl one_pos fun _ => rfl
  simp only [ne_eq, not_true_eq_false, decide_false, add_zero, sub_zero] at hr
  have htie (h0 : rm = 0) (h : |((roundAt rm n m e 0 false).1 : ℚ) - m * 2 ^ e| = 1 / 2) :
      (roundAt rm n m e 0 false).1 % 2 = 0 := by
    subst h0
    exact roundAt_tie (q := 0) (by rwa [sub_zero])
  generalize roundAt rm n m e 0 false = r at *
  have hdiff : |(withSign n r.1 : ℚ) - finVal n m e| = |(r.1 : ℚ) - m * 2 ^ e| := by
    cases n with
    | false => simp [withSign, finVal]
    | true => rw [abs_sub_comm]; simp [withSign, finVal]; ring_nf
  refine ⟨?_, ?_⟩
  · unfold RoundsTo
    split
    · next h0 =>
      rw [hdiff]
      refine ⟨hr.nearest h0, fun h => ?_⟩
      have := htie h0 h
      unfold withSign
      split <;> omega
    · next h0 =>
      split
      · next h1 =>
        have := hr.floor_eq (.inl h1)
        cases n <;> simp [withSign, finVal_eq, Int.ceil_neg, this]
      · next h1 =>
        split
        · next h2 =>
          cases n with
          | false => simp [withSign, finVal_eq, hr.ceil_eq (.inl ⟨h2, rfl⟩)]
          | true => simp [withSign, finVal_eq, Int.ceil_neg, hr.floor_eq (.inr (.inl ⟨h2, rfl⟩))]
        · next h2 =>
          have h3 : rm = 3 := by omega
          cases n with
          | false => simp [withSign, finVal_eq, hr.floor_eq (.inr (.inr ⟨h3, rfl⟩))]
          | true => simp [withSign, finVal_eq, Int.floor_neg, hr.ceil_eq (.inr ⟨h3, rfl⟩)]
  · rw [hr.exact_iff]
    cases n <;> simp [withSign, finVal_eq]

theorem natAbs_withSign (n : Bool) (k : Nat) : (withSign n k).natAbs = k := by cases n <;> simp [withSign]

/-- A finite value as an integer of a type (R205). -/
theorem toInt_fin {rm : Nat} (hrm : rm < 4) (t : Fin 8) (n : Bool) (m : Nat) (e : Int) :
    ∃ k : Int, RoundsTo rm n (finVal n m e) k ∧ toInt rm t (.fin n m e) =
      if iMin t ≤ k ∧ k ≤ iMax t then { bits := (iwr t k).toNat, flags := if (k : ℚ) = finVal n m e then 0 else fNX }
      else { bits := (iwr t (if n then iMin t else iMax t)).toNat, flags := fNV } := by
  obtain ⟨hk, hnx⟩ := roundAt_roundsTo hrm n m e
  refine ⟨_, hk, ?_⟩
  have hflag : (if (roundAt rm n m e 0 false).2 then fNX else 0) =
      if (withSign n (roundAt rm n m e 0 false).1 : ℚ) = finVal n m e then 0 else fNX := by
    cases hr : (roundAt rm n m e 0 false).2 <;> simp [← hnx, hr]
  rw [← hflag]
  rfl

/-- A finite value rounded to an integral one of its format (R205). -/
theorem fpRint_fin {md : Mode} (hrm : md.rm < 4) (n : Bool) (m : Nat) (e : Int) :
    ∃ k : Int, RoundsTo md.rm n (finVal n m e) k ∧ fpRint md (.fin n m e) =
      if (k : ℚ) = finVal n m e then { bits := (md.wr (.fin n m e)).bits }
      else { bits := (md.wr (.fin n k.natAbs 0)).bits, flags := fNX } := by
  obtain ⟨hk, hnx⟩ := roundAt_roundsTo hrm n m e
  refine ⟨_, hk, ?_⟩
  simp only [fpRint, natAbs_withSign]
  cases hr : (roundAt md.rm n m e 0 false).2 <;> simp [← hnx, hr]

/-! ### Lines of scratchpads and shared memory (R53, R54) -/

/-- The key of a line of a scratchpad or of shared memory. -/
def NearLine (k : Nat) : Prop := 2 ^ 52 ≤ k ∧ k < 2 ^ 54 ∧ k % 256 = 0

section
variable {s : State} {k : Nat} (hk : NearLine k) (bs : List Byte) (sb : W32)
include hk

theorem State.setLine_near : s.setLine k bs sb = (({ s.wakeKey k with mem := Mem.writeBytes s.mem k bs } : State).setSide k sb).mend k := by
  obtain ⟨hlo, hhi, -⟩ := hk
  have hext : isExt k = false := by simp [isExt]; omega
  have hdev : isDev k = false := by simp [isDev]; omega
  simp [State.setLine, hext, hdev]
theorem State.mem_setLine_near : (s.setLine k bs sb).mem = Mem.writeBytes s.mem k bs := by
  rw [State.setLine_near hk]
  rfl
theorem State.sideOf_setLine_near (y : Nat) : (s.setLine k bs sb).sideOf y = if y / 256 = k / 256 then sb else s.sideOf y := by
  rw [State.setLine_near hk]
  change Map.getD (if sb = 0 then Map.del (s.wakeKey k).side _ else Map.set (s.wakeKey k).side _ sb) (y / 256) 0 = _
  rw [State.wakeKey_side]
  split
  · next h0 =>
    split
    · next hy => rw [hy, Map.getD_del_self, h0]
    · next hy => rw [Map.getD_del_ne _ _ hy]; rfl
  · rw [Map.getD_set]
    rfl
end

/-- Lines written one after another. -/
def State.setLines (s : State) (n : Nat) (key : Nat → Nat) (bytes : Nat → List Byte) (side : Nat → W32) : State :=
  (List.range n).foldl (fun s i => s.setLine (key i) (bytes i) (side i)) s

/-- Distinct lines written one after another hold what was written, and nothing else has changed. -/
theorem State.setLines_near {s : State} {n : Nat} {key : Nat → Nat} {bytes : Nat → List Byte} (side : Nat → W32)
    (hwf : Memory.wf s.mem = true) (hkey : ∀ i < n, NearLine (key i)) (hlen : ∀ i < n, (bytes i).length = 256)
    (hne : ∀ i < n, ∀ j < n, i ≠ j → key i ≠ key j) :
    Memory.wf (s.setLines n key bytes side).mem = true ∧
      (∀ i < n, ∀ z < 256, Mem.read (s.setLines n key bytes side).mem (key i + z) = (bytes i).getD z 0) ∧
      (∀ i < n, (s.setLines n key bytes side).sideOf (key i) = side i) ∧
      (∀ y, (∀ i < n, y < key i ∨ key i + 256 ≤ y) → Mem.read (s.setLines n key bytes side).mem y = Mem.read s.mem y) ∧
      ∀ y, (∀ i < n, y / 256 ≠ key i / 256) → (s.setLines n key bytes side).sideOf y = s.sideOf y := by
  induction n with
  | zero => exact ⟨hwf, by simp, by simp, fun _ _ => rfl, fun _ _ => rfl⟩
  | succ n ih =>
    obtain ⟨ihwf, ihin, ihside, ihout, ihsides⟩ := ih (fun i hi => hkey i (by omega)) (fun i hi => hlen i (by omega))
      fun i hi j hj => hne i (by omega) j (by omega)
    have hstep : s.setLines (n + 1) key bytes side = (s.setLines n key bytes side).setLine (key n) (bytes n) (side n) := by
      simp only [State.setLines, List.range_succ, List.foldl_append, List.foldl_cons, List.foldl_nil]
    have hn := hkey n (by omega)
    have hapart (i : Nat) (hi : i < n) : key i + 256 ≤ key n ∨ key n + 256 ≤ key i := by
      have := hne i (by omega) n (by omega) (by omega)
      have := (hkey i (by omega)).2.2
      have := hn.2.2
      omega
    have hout (y : Nat) (hy : y < key n ∨ key n + 256 ≤ y) : Mem.read (s.setLines (n + 1) key bytes side).mem y =
        Mem.read (s.setLines n key bytes side).mem y := by
      rw [hstep, State.mem_setLine_near hn, Mem.read_writeBytes_out _ _ _ ihwf (by rwa [hlen n (by omega)])]
    have hsides (y : Nat) : (s.setLines (n + 1) key bytes side).sideOf y =
        if y / 256 = key n / 256 then side n else (s.setLines n key bytes side).sideOf y := by
      rw [hstep, State.sideOf_setLine_near hn]
    refine ⟨?_, fun i hi z hz => ?_, fun i hi => ?_, fun y hy => ?_, fun y hy => ?_⟩
    · rw [hstep, State.mem_setLine_near hn]
      exact Memory.wf_writeBytes _ _ ihwf
    · obtain hi | rfl := Nat.lt_succ_iff_lt_or_eq.1 hi
      · have := hapart i hi
        rw [hout _ (by omega), ihin i hi z hz]
      · rw [hstep, State.mem_setLine_near hn, Mem.read_writeBytes _ _ _ ihwf (by rwa [hlen i (by omega)])]
    · obtain hi | rfl := Nat.lt_succ_iff_lt_or_eq.1 hi
      · have := hapart i hi
        rw [hsides, if_neg (by omega), ihside i hi]
      · rw [hsides, if_pos rfl]
    · rw [hout y (hy n (by omega)), ihout y fun i hi => hy i (by omega)]
    · rw [hsides, if_neg (hy n (by omega)), ihsides y fun i hi => hy i (by omega)]

/-! ### Elements and blocks of an RN8 conversion (R47) -/

/-- The magnitude of an element before it is cut to the greatest; 0 stands for an infinity's. -/
def scaledOf (E : Nat) : Num → Nat
  | .fin _ m e => (scaledMag m e E).1
  | _ => 0
/-- An element's magnitude lies past 127. -/
def outlier8 (E : Nat) (x : Num) : Bool := decide (x = .inf true ∨ x = .inf false ∨ 127 < scaledOf E x)
/-- The value of an element without an outlier list. -/
def value8 (E : Nat) (x : Num) : Int := withSign x.sign (if outlier8 E x then 127 else scaledOf E x)

/-- A conversion without room for an outlier has named none. -/
def Converting.Listless (c : Converting) : Prop := c.cap = 0 ∧ c.entries = []

theorem Converting.append_listless {c : Converting} (hc : c.Listless) (neg : Bool) (bits i : Nat) :
    (c.append 127 neg bits i).1 = withSign neg 127 ∧ (c.append 127 neg bits i).2.Listless := by
  have hfull : ¬ c.count < c.cap := by rw [hc.1]; omega
  rw [Converting.append, if_neg hfull]
  exact ⟨rfl, hc⟩

theorem Converting.elem_listless {c : Converting} (hc : c.Listless) (E : Nat) {x : Num} (hx : x.isNan = false) (bits i : Nat) :
    (c.elem 127 E x bits i).1 = value8 E x ∧ (c.elem 127 E x bits i).2.1 = outlier8 E x ∧
      (c.elem 127 E x bits i).2.2.Listless := by
  have happ (neg : Bool) := Converting.append_listless hc neg bits i
  cases x with
  | nan sg => simp [Num.isNan] at hx
  | inf n =>
    have ho : outlier8 E (.inf n) = true := by cases n <;> simp [outlier8]
    rw [value8, ho]
    exact ⟨(happ n).1, rfl, (happ n).2⟩
  | fin n m e =>
    by_cases hle : (scaledMag m e E).1 ≤ 127
    · have ho : outlier8 E (.fin n m e) = false := by simp [outlier8, scaledOf, hle]
      rw [value8, ho, Converting.elem, if_pos hle]
      exact ⟨rfl, rfl, hc⟩
    · have ho : outlier8 E (.fin n m e) = true := by simpa [outlier8, scaledOf] using hle
      rw [value8, ho, Converting.elem, if_neg hle]
      exact ⟨(happ n).1, rfl, (happ n).2⟩

theorem Converting.elems_listless (E : Nat) : ∀ (xs : List (Num × Nat)) {c : Converting} (i : Nat), c.Listless →
    (∀ x ∈ xs, x.1.isNan = false) → (c.elems 127 E i xs).1 = xs.map (fun x => value8 E x.1) ∧
      (c.elems 127 E i xs).2.1 = xs.any (fun x => outlier8 E x.1) ∧ (c.elems 127 E i xs).2.2.Listless
  | [], _, _, hc, _ => ⟨rfl, rfl, hc⟩
  | x :: xs, c, i, hc, hx => by
    obtain ⟨h1, h2, h3⟩ := Converting.elem_listless hc E (hx x (by simp)) x.2 i
    obtain ⟨t1, t2, t3⟩ := Converting.elems_listless E xs (i + 1) h3 fun y hy => hx y (by simp [hy])
    exact ⟨by rw [Converting.elems, List.map_cons, ← h1, ← t1], by rw [Converting.elems, List.any_cons, ← h2, ← t2], t3⟩

/-- What a block of an RN8 conversion comes to: its values, its scale, and whether it has an outlier. -/
def block8 (E : Nat) (xs : List Num) : List Int × Nat × Bool := (xs.map (value8 E), E, xs.any (outlier8 E))

theorem Converting.block_listless {c : Converting} (hc : c.Listless) (E i : Nat) {xs : List (Num × Nat)}
    (hx : ∀ x ∈ xs, x.1.isNan = false) :
    (c.block 127 (some E) i xs).1 = block8 E (xs.map (·.1)) ∧ (c.block 127 (some E) i xs).2.Listless := by
  have hnan : (xs.any fun x => x.1.isNan) = false := by simpa [List.any_eq_false] using fun a b h => hx (a, b) h
  obtain ⟨h1, h2, h3⟩ := Converting.elems_listless E xs i hc hx
  rw [Converting.block, if_neg (by simp [hnan])]
  refine ⟨?_, h3⟩
  simp only [Option.getD_some, h1, h2, block8, List.map_map, List.any_map]
  rfl

theorem Converting.blocks_listless (E : Nat) : ∀ (n : Nat) {c : Converting} {xs : List (Num × Nat)} (o : Nat), c.Listless →
    (∀ x ∈ xs, x.1.isNan = false) →
    (c.blocks 127 (some E) o n xs).1 = (List.range n).map (fun b => block8 E (((xs.map (·.1)).drop (256 * b)).take 256)) ∧
      (c.blocks 127 (some E) o n xs).2.Listless
  | 0, _, _, _, hc, _ => ⟨rfl, hc⟩
  | n + 1, c, xs, o, hc, hx => by
    obtain ⟨h1, h2⟩ := Converting.block_listless hc E o (xs := xs.take 256) fun x h => hx x (List.mem_of_mem_take h)
    obtain ⟨t1, t2⟩ := Converting.blocks_listless E n (xs := xs.drop 256) (o + 256) h2 fun x h => hx x (List.mem_of_mem_drop h)
    refine ⟨?_, t2⟩
    rw [Converting.blocks, List.range_succ_eq_map, List.map_cons, List.map_map, h1, t1]
    simp only [List.map_take, List.map_drop, List.drop_drop, Nat.mul_zero, List.drop_zero, Function.comp_def, Nat.mul_succ,
      Nat.add_comm]

/-! ### The landing of an RN8 conversion (R206) -/

theorem State.trackAll_unwatched {s : State} (h : s.strictRuns = false) (g z : Nat) (w : Bool) :
    ∀ vas, s.trackAll g z w vas = .ok s
  | [] => rfl
  | va :: vas => by
    have ht : s.track g (.seq (.core g .C)) (vkey g va) z w va = .ok s := by simp [State.track, h]
    rw [State.trackAll, ht]
    exact State.trackAll_unwatched h g z w vas
theorem State.trackLines_unwatched {s : State} (h : s.strictRuns = false) (g : Nat) (w : Bool) :
    ∀ vas, s.trackLines g w vas = .ok s
  | [] => rfl
  | va :: vas => by
    have ht : s.trackLine g (.seq (.core g .C)) (vkey g va) w va = .ok s := by simp [State.trackLine, State.track, h]
    rw [State.trackLines, ht]
    exact State.trackLines_unwatched h g w vas

/-- The bytes of a line of an RN8 conversion. -/
def bytes8 (E : Nat) (xs : List Num) : List Byte := xs.map fun x => BitVec.ofInt 8 (value8 E x)
/-- Its side band. -/
def side8 (E : Nat) (xs : List Num) : W32 := BitVec.ofNat 32 (1 + E * 2 ^ 8 + (xs.any (outlier8 E)).toNat * 2 ^ 24)

theorem rn8Lines_blocks (E n : Nat) (xs : Nat → List Num) : rn8Lines ((List.range n).map fun b => block8 E (xs b)) =
    (List.range n).map fun b => (bytes8 E (xs b), side8 E (xs b)) := by
  have hbyte (v : Int) : BitVec.ofNat 8 (onBits 8 v) = BitVec.ofInt 8 v := by
    refine BitVec.eq_of_toNat_eq ?_
    rw [BitVec.toNat_ofNat, BitVec.toNat_ofInt, onBits]
    omega
  simp only [rn8Lines, List.map_map, Function.comp_def, block8, bytes8, side8, hbyte]

/-- A control word that gives the scale E and names no list (R206). -/
theorem scale_word {w E : Nat} (hw : w % 2 ^ 96 = E) (hE : E < 255) :
    fld w 0 8 = E ∧ fld w 8 1 = 0 ∧ fld w 9 23 = 0 ∧ fld w 32 56 = 0 ∧ fld w 88 8 = 0 := by
  have h {lo n : Nat} (hn : lo + n ≤ 96) : fld w lo n = fld E lo n := by
    have hsplit : w = E + 2 ^ 96 * (w / 2 ^ 96) := by omega
    exact Laws.RoundTrip.fld_of_eq hsplit hn
  refine ⟨(h (by norm_num)).trans ?_, (h (by norm_num)).trans ?_, (h (by norm_num)).trans ?_, (h (by norm_num)).trans ?_,
    (h (by norm_num)).trans ?_⟩ <;> unfold fld <;> omega

/-- Block b of the lanes of a conversion, as they are read. -/
def laneBlock (md : Mode) (lanes : List W32) (b : Nat) : List Num := ((lanes.map md.rd).drop (256 * b)).take 256

theorem vkey_spad (g : Nat) {dst : W64} {b : Nat} (h : dst.toNat + 256 * b < 2 ^ 20) :
    vkey g (dst + w64 (b * 256)) = 2 ^ 52 + g * 2 ^ 20 + dst.toNat + 256 * b := by
  have ha : (dst + w64 (b * 256)).toNat = dst.toNat + 256 * b := by
    rw [w64, BitVec.toNat_add, BitVec.toNat_ofNat]
    omega
  rw [vkey, ha, if_pos h, spadKey]
  ring

theorem State.convertWrite_lines (s : State) (g count n : Nat) (dst : W64) (bytes : Nat → List Byte) (side : Nat → W32) :
    s.convertWrite g none count [] ((packedLines dst n).zip ((List.range n).map fun b => (bytes b, side b))) =
      s.setLines n (fun b => vkey g (dst + w64 (b * 256))) bytes side := by
  rw [packedLines, List.zip_map', State.convertWrite, List.foldl_map]
  rfl

theorem nearLine_spad {g x b : Nat} (hg : g < numCores) (hx : x % 256 = 0) (hb : x + 256 * b < 2 ^ 20) :
    NearLine (2 ^ 52 + g * 2 ^ 20 + x + 256 * b) := by
  unfold numCores at hg
  refine ⟨?_, ?_, ?_⟩ <;> omega

section
variable {s : State} {g : Nat} {lanes : List W32} {dst ctrl : W64} {fp : W32} {E : Nat}

/-- Without a NaN, with a given scale and no list, an RN8 conversion that lands writes its lines and no more (R206). -/
theorem State.landConvert_rn8 (hs : s.strictRuns = false) (hbad : s.badIn (vkey g ctrl) 16 = false)
    (hw : Mem.readN s.mem (vkey g ctrl) 16 % 2 ^ 96 = E) (hE : E < 255)
    (hnan : ∀ x ∈ lanes, ((modeOf fp false).rd x).isNan = false) :
    ∃ fl, s.landConvert g 6 false lanes dst ctrl fp = .ok (fl, s.setLines (lanes.length / 256)
      (fun b => vkey g (dst + w64 (b * 256))) (fun b => bytes8 E (laneBlock (modeOf fp false) lanes b))
      (fun b => side8 E (laneBlock (modeOf fp false) lanes b))) := by
  obtain ⟨h0, h8, h9, h32, h88⟩ := scale_word hw hE
  have hlist : s.convertList g 0 = .ok (none, { count := 0, cap := 0, base := 0 }) := rfl
  have hblocks := Converting.blocks_listless E (lanes.length / 256) (c := { count := 0, cap := 0, base := 0 })
    (xs := lanes.map fun x => ((modeOf fp false).rd x, x.toNat)) (fld (Mem.readN s.mem (vkey g ctrl) 16) 96 32) ⟨rfl, rfl⟩
    (by simpa using hnan)
  have hlanes : (lanes.map fun x => ((modeOf fp false).rd x, x.toNat)).map (·.1) = lanes.map (modeOf fp false).rd := by
    rw [List.map_map]
    rfl
  rw [hlanes] at hblocks
  generalize hr : Converting.blocks _ 127 (some E) _ (lanes.length / 256) _ = r at hblocks
  obtain ⟨hb, -, he⟩ := hblocks
  have hlines : rn8Lines r.1 = (List.range (lanes.length / 256)).map fun b =>
      (bytes8 E (laneBlock (modeOf fp false) lanes b), side8 E (laneBlock (modeOf fp false) lanes b)) := by
    rw [hb]
    exact rn8Lines_blocks E _ (laneBlock (modeOf fp false) lanes)
  refine ⟨flagMask r.2.flags, ?_⟩
  unfold State.landConvert
  rw [State.trackAll_unwatched hs]
  simp only [hbad, h0, h8, h9, h32, h88, hlist, hE.ne, Bool.false_eq_true, if_false, if_true, Nat.reduceBEq, ne_eq, not_true_eq_false,
    false_or, and_false, hr, he, State.entryKeys, State.trackList, List.foldl_nil, State.trackLines_unwatched hs,
    hlines, List.length_map, List.length_range, State.convertWrite_lines]
end

theorem getElem?_laneBlock (md : Mode) (lanes : List W32) (b : Nat) {z : Nat} (hz : z < 256) :
    (laneBlock md lanes b)[z]? = (lanes[256 * b + z]?).map md.rd := by
  rw [laneBlock, List.getElem?_take_of_lt hz, List.getElem?_drop, List.getElem?_map]

theorem length_laneBlock (md : Mode) {lanes : List W32} {b : Nat} (h : b < lanes.length / 256) :
    (laneBlock md lanes b).length = 256 := by
  rw [laneBlock, List.length_take, List.length_drop, List.length_map]
  omega

/-- The byte that an element becomes. -/
theorem value8_eq (E : Nat) (x : Num) : value8 E x =
    (if x.sign then -1 else 1) * ((if outlier8 E x then 127 else scaledOf E x : Nat) : Int) := by
  rw [value8, withSign]
  cases x.sign <;> cases outlier8 E x <;> simp

theorem getD_bytes8 (E : Nat) {md : Mode} {lanes : List W32} {b z : Nat} {x : W32} (hz : z < 256)
    (hx : lanes[256 * b + z]? = some x) :
    (bytes8 E (laneBlock md lanes b)).getD z 0 = BitVec.ofInt 8 (value8 E (md.rd x)) := by
  rw [bytes8, List.getD_eq_getElem?_getD, List.getElem?_map, getElem?_laneBlock _ _ _ hz, hx]
  rfl

/-- A magnitude in units of the last place lies within half of one of the exact one, a tie even (R47). -/
theorem scaledOf_fin (E : Nat) (n : Bool) (m : Nat) (e : Int) :
    |(scaledOf E (.fin n m e) : ℚ) - m * 2 ^ (e + 127 - E)| ≤ 1 / 2 ∧
      (|(scaledOf E (.fin n m e) : ℚ) - m * 2 ^ (e + 127 - E)| = 1 / 2 → scaledOf E (.fin n m e) % 2 = 0) := by
  obtain ⟨hlt, htie⟩ := (roundAt_roundsTo (rm := 0) (by norm_num) false m (e + 127 - E)).1
  simp only [withSign, finVal_eq, Bool.false_eq_true, if_false, Int.cast_natCast] at hlt htie
  exact ⟨hlt, fun h => by exact_mod_cast htie h⟩

theorem any_outlier_iff (E : Nat) (md : Mode) (lanes : List W32) (b : Nat) :
    (laneBlock md lanes b).any (outlier8 E) = true ↔ ∃ z < 256, ∃ x, lanes[256 * b + z]? = some x ∧ outlier8 E (md.rd x) = true := by
  rw [List.any_eq_true]
  constructor
  · rintro ⟨y, hy, ho⟩
    obtain ⟨z, hz, rfl⟩ := List.mem_iff_getElem.1 hy
    have hz' : z < 256 := by
      rw [laneBlock, List.length_take] at hz
      omega
    have hget := getElem?_laneBlock md lanes b hz'
    rw [List.getElem?_eq_getElem hz] at hget
    obtain ⟨x, hx, hxy⟩ := Option.map_eq_some_iff.1 hget.symm
    exact ⟨z, hz', x, hx, by rwa [hxy]⟩
  · rintro ⟨z, hz, x, hx, ho⟩
    have hget := getElem?_laneBlock md lanes b hz
    rw [hx] at hget
    exact ⟨_, List.mem_of_getElem? hget, ho⟩

/-- Settles O27: lane by lane through the rounding of R45, and the lines of a landed RN8 conversion block by block. -/
theorem vectorConversions : Obligations.VectorConversions := by
  intro s d a x y t n m e f32 bf16 gives quiet per converts
  have hrm (b : Bool) : (modeOf (s.core s.meCore).fpcr b).rm < 4 := fld_lt ..
  refine ⟨?_, ?_, ?_, ?_, ?_, ?_, ?_, ?_, ?_, ?_⟩
  · exact gives_lanes (f := fun u x => toInt (u.mode 0).rm t ((u.mode 0).rd x)) rfl (fun _ => rfl)
      (by simp only [State.mode_begun]; rfl)
  · exact gives_lanes (f := fun u x => (u.mode 0).wr (ofScaled (ival t x) 0 false)) rfl (fun _ => rfl)
      (by simp only [State.mode_begun]; rfl)
  · exact gives_lanes (f := fun u x => fpWrite (u.mode 1) ((u.mode 0).rd x)) rfl (fun _ => rfl)
      (by simp only [State.mode_begun, fpWrite_eq]; rfl)
  · exact gives_lanes (f := fun u x => fpWrite (u.mode 0) ((u.mode 1).rd x)) rfl (fun _ => rfl)
      (by simp only [State.mode_begun, fpWrite_eq]; rfl)
  · exact gives_lanes (f := fun u x => fpRint (u.mode t) ((u.mode t).rd x)) rfl (fun _ => rfl)
      (by simp only [State.mode_begun]; rfl)
  · exact fun h hd hb hdst hctl => converts_launches rfl h hd hb hdst hctl
  · exact fun h hd hb hdst hctl => converts_launches rfl h hd hb hdst hctl
  · exact vcvtQf_misaligned
  · intro w lo hi v rounds past
    exact ⟨rfl, rfl, toInt_fin (hrm false) t n m e, rfl, by cases n <;> rfl, fpRint_fin (md := bf16) (hrm true) n m e⟩
  · intro g lanes dst ctrl fp E w md k0 out hwf hs hbad hw hE hlen hdst hroom hg hnan
    obtain ⟨fl, hland⟩ := State.landConvert_rn8 (dst := dst) hs hbad hw hE hnan
    have hkey (b : Nat) (hb : b < lanes.length / 256) : vkey g (dst + w64 (b * 256)) = k0 + 256 * b :=
      vkey_spad g (by omega)
    obtain ⟨-, hbytes, hsides, hout, -⟩ := State.setLines_near (s := s) (n := lanes.length / 256)
      (key := fun b => vkey g (dst + w64 (b * 256))) (bytes := fun b => bytes8 E (laneBlock md lanes b))
      (fun b => side8 E (laneBlock md lanes b)) hwf
      (fun b hb => by rw [hkey b hb]; exact nearLine_spad hg hdst (by omega))
      (fun b hb => by rw [bytes8, List.length_map, length_laneBlock md hb])
      (fun i hi j hj h => by rw [hkey i hi, hkey j hj]; omega)
    refine ⟨fl, _, lanes.map fun x => scaledOf E (md.rd x), hland, fun z hz => hout z fun i hi => ?_, fun j x hx => ?_,
      fun b hb => ⟨(laneBlock md lanes b).any (outlier8 E), ?_, ?_⟩⟩
    · rw [hkey i hi]
      omega
    · have hj : j < lanes.length := (List.getElem?_eq_some_iff.1 hx).1
      have hjb : j / 256 < lanes.length / 256 := by omega
      refine ⟨scaledOf E (md.rd x), by rw [List.getElem?_map, hx]; rfl, fun ng mg ex h => h ▸ scaledOf_fin E ng mg ex, ?_⟩
      have hsplit : k0 + j = vkey g (dst + w64 (j / 256 * 256)) + j % 256 := by rw [hkey _ hjb]; omega
      rw [hsplit, hbytes _ hjb _ (Nat.mod_lt _ (by norm_num)), getD_bytes8 E (x := x) (Nat.mod_lt _ (by norm_num)), value8_eq]
      · rfl
      · rwa [Nat.div_add_mod]
    · rw [← hkey b hb]
      exact hsides b hb
    · rw [any_outlier_iff]
      refine exists_congr fun z => and_congr_right fun _ => exists_congr fun x => ?_
      rw [List.getElem?_map]
      constructor
      · rintro ⟨hx, ho⟩
        exact ⟨_, hx, by rw [hx]; rfl, ho⟩
      · rintro ⟨k, hx, hk, ho⟩
        rw [hx, Option.map_some, Option.some_inj] at hk
        subst hk
        exact ⟨hx, ho⟩
end Sys2Proof.Machine
end

section
/-! ## Rings (O17, O18) -/
namespace Sys2Proof.Machine

/-! ### Words that wait, and what the beginning of a word keeps -/

theorem exec_stall {i : Instr} {x : State → Eff} {s : State} (hx : wordEffect i = some x) (h : s.passes i = true)
    (ht : x (s.begun i) = .stall) : Waits i s := by rw [Waits, exec_passes hx h, ht, settle_stall]

/-- What neither cores nor hearth cores nor the address of the word touch, the beginning of a word keeps. -/
theorem State.begun_keeps {γ : Type} {p : State → γ} (hc : ∀ s g c, p (State.setCore s g c) = p s)
    (hh : ∀ s k c, p (State.setHearth s k c) = p s) (ha : ∀ (s : State) a, p { s with curAddr := a } = p s) (s : State) (i : Instr) :
    p (s.begun i) = p s := by
  have ho (ds : List Dest) : p (s.overwrite ds) = p s := by
    unfold State.overwrite
    split
    · rfl
    · split
      · rfl
      · exact hc ..
    · split
      · rfl
      · exact hh ..
  have hset (t : State) (w : Who) (x : Seq) : p (t.setSeq w x) = p t := by
    cases w with
    | core g q => exact hc ..
    | hearth k => exact hh ..
  rw [State.begun_eq, State.setMe, hset, ha, ho]

@[simp] theorem State.hazard_begun (s : State) (i : Instr) : (s.begun i).hazard = s.hazard :=
  State.begun_keeps (p := State.hazard) (fun _ _ _ => rfl) (fun _ _ _ => rfl) (fun _ _ => rfl) s i

theorem Core.setSeq_rings (c : Core) (q : SeqKind) (x : Seq) : (c.setSeq q x).rings = c.rings := by cases q <;> rfl
theorem Core.setSeq_commands (c : Core) (q : SeqKind) (x : Seq) : (c.setSeq q x).commands = c.commands := by cases q <;> rfl
@[simp] theorem State.ring_begun (s : State) (i : Instr) (g : Nat) (a : Reg16) : (s.begun i).ring g a = s.ring g a := by
  unfold State.ring
  rw [State.core_begun_keeps Core.setSeq_rings (fun _ _ => rfl)]

/-! ### Commands that name a ring (R58, R59) -/

theorem Map.any_of_getD {α : Type} {P : Nat × α → Bool} (m : Map α) {k : Nat} {d : α} (hd : P (k, d) = false)
    (h : P (k, m.getD k d) = true) : List.any m P = true := by
  induction m with
  | nil => simp [Map.getD, hd] at h
  | cons e m ih =>
    rw [List.any_cons, Bool.or_eq_true]
    simp only [Map.getD] at h
    split at h
    · next hk => exact .inl (by rw [show e = (k, e.2) from Prod.ext hk rfl]; exact h)
    · exact .inr (ih h)
/-- Replacing a unit by one that passes a test just when the old one does keeps whether any unit passes. -/
theorem Map.any_set {α : Type} {P : Nat × α → Bool} (m : Map α) {k : Nat} {v d : α} (hd : P (k, d) = false)
    (hv : P (k, v) = P (k, m.getD k d)) : List.any (m.set k v) P = List.any m P := by
  induction m with
  | nil => simpa [Map.set, Map.getD, hd] using hv
  | cons e m ih =>
    obtain ⟨n, w⟩ := e
    by_cases hn : n = k
    · simp_all [Map.set, Map.getD]
    · have hm : P (k, Map.getD m k d) = P (k, v) := by simpa [Map.getD, hn] using hv.symm
      simp only [Map.set, hn, if_false]
      split
      · rw [List.any_cons, List.any_cons, Bool.or_eq_right_iff_imp]
        exact fun h => by rw [Map.any_of_getD m hd (hm.trans h), Bool.or_true]
      · rw [List.any_cons, List.any_cons, ih hm.symm]
/-- A core that is replaced by one with the same commands names the same rings. -/
theorem State.ringBusy_setCore {s : State} {k : Nat} {c : Core} (h : c.commands = (s.core k).commands) (g : Nat) (a : Reg16) :
    (s.setCore k c).ringBusy g a = s.ringBusy g a :=
  Map.any_set (d := ({} : Core)) s.cores rfl (by dsimp only; rw [h]; rfl)
@[simp] theorem State.ringBusy_begun (s : State) (i : Instr) (g : Nat) (a : Reg16) : (s.begun i).ringBusy g a = s.ringBusy g a := by
  have ho (ds : List Dest) : (s.overwrite ds).ringBusy g a = s.ringBusy g a := by
    unfold State.overwrite
    split
    · rfl
    · split
      · rfl
      · exact State.ringBusy_setCore (by rfl) ..
    · split <;> rfl
  have hset (t : State) (w : Who) (x : Seq) : (t.setSeq w x).ringBusy g a = t.ringBusy g a := by
    cases w with
    | core k q => exact State.ringBusy_setCore (Core.setSeq_commands ..) ..
    | hearth k => rfl
  rw [State.begun_eq, State.setMe, hset]
  exact ho _

/-! ### Configuration (R58) -/

/-- A fault that stops a node leaves the rings of every core. -/
theorem State.ring_take {s : State} {g : Nat} {q : SeqKind} {e : Exc} (hc : s.cur = .core g q) (he : e.holds = none) (k : Nat)
    (a : Reg16) : (s.take e).ring k a = (s.traced e).ring k a := by
  have hset (t : State) (j : Nat) (c : Core) (h : c.rings = (t.core j).rings) : (t.setCore j c).ring k a = t.ring k a := by
    unfold State.ring
    rw [State.core_setCore]
    split
    · next hk => rw [h, hk]
    · rfl
  have hhalt (c : Core) : c.halt.rings = c.rings := by
    unfold Core.halt
    split
    · rfl
    · extract_lets d
      split <;> rfl
  have hstop (c : Core) : (c.stopSeq q).rings = c.rings := by
    unfold Core.stopSeq
    extract_lets d
    split
    · exact Core.setSeq_rings ..
    · exact Core.setSeq_rings ..
  have hdrop (t : State) (gs : List Nat) : (t.dropPreloads gs).ring k a = t.ring k a :=
    State.core_dropPreloads (P := fun c => c.rings.get a = t.ring k a) (fun _ h => h) rfl gs
  have hnode (t : State) : (t.haltNode g).ring k a = t.ring k a := by
    have ht : ((t.haltCores (t.gang g)).dropPreloads (t.gang g)).ring k a = t.ring k a :=
      (hdrop ..).trans (foldl_fixes (fun u : State => u.ring k a) _ (fun u j => hset u j _ (hhalt _)) _ t)
    unfold State.haltNode
    extract_lets u
    split
    · split <;> exact ht
    · exact ht
  rw [State.take_core hc he, State.ring, State.core_postStop, ← State.ring, hset _ _ _ (hstop _), hnode]

theorem xRingCfg_begun {s : State} {g : Nat} {q : SeqKind} {i : Instr} (hc : s.cur = .core g q) (a : Reg16) (b : SReg) :
    xRingCfg a b (s.begun i) = if 2 ^ 27 ≤ (s.rs b).toNat ∨ 2 ^ 20 < ({ cfg := s.rs b } : Ring).slotAt ({ cfg := s.rs b } : Ring).n ∨
      (s.ring g a).claimed ≠ (s.ring g a).head ∨ s.ringBusy g a = true then .trap ringExc
    else .done ((s.begun i).setRing g a { cfg := s.rs b }) := by
  have hm : (s.begun i).meCore = g := by rw [State.meCore_begun, State.meCore, hc]
  simp only [xRingCfg, hm, State.rs_begun, State.ring_begun, State.ringBusy_begun]

/-- Settles O17: the conditions of R58 are those under which the word raises RING; a fault leaves every ring. -/
theorem ringConfiguration : Obligations.RingConfiguration := by
  unfold Obligations.RingConfiguration
  intro s g q a b hc hp
  extract_lets w bad
  have hres : bf w 27 37 ≠ 0 ↔ 2 ^ 27 ≤ w.toNat := by
    have := w.isLt
    simp only [bf, fld]
    omega
  have hend : 0xFFFFF < (bf w 0 12 + (bf w 21 6 + 1) * (bf w 12 9 + 1)) * 256 - 1 ↔
      2 ^ 20 < ({ cfg := w } : Ring).slotAt ({ cfg := w } : Ring).n := by
    simp only [Ring.slotAt, Ring.n, Ring.ssz]
    omega
  have hx := xRingCfg_begun (i := .ringCfg a b) hc a b
  constructor
  · intro hbad
    rw [if_pos (by rwa [← hres, ← hend])] at hx
    have hr := exec_trap rfl hp rfl hx
    refine ⟨hr, fun t ht => ?_⟩
    rw [hr] at ht
    obtain rfl := Host.Outcome.next.inj ht
    exact State.ring_take (s := { s with curAddr := s.me.pc }) hc rfl g a
  · intro hok
    rw [if_neg (by rwa [← hres, ← hend])] at hx
    exact exec_done rfl hp hx
end Sys2Proof.Machine
end

section
/-! ## Ring operations (O18) -/
namespace Sys2Proof.Machine

/-! ### Count words (R184) -/

theorem State.countWord_local {s : State} {g : Nat} {q : SeqKind} (hc : s.cur = .core g q) (b : W64) :
    s.countWord b false = if b.toNat < 2 ^ 16 then .ok (b.toNat, g) else .error ringExc := by
  have hm : s.meCore = g := by rw [State.meCore, hc]
  have hb : b.toNat < 2 ^ 16 → bf b 0 16 = b.toNat := fun h => by simp only [bf, fld]; omega
  unfold State.countWord
  by_cases h : b.toNat < 2 ^ 16
  · rw [if_neg (by omega), if_pos h, if_neg (by decide), hb h, hm]
  · rw [if_pos (.inr ⟨rfl, by omega⟩), if_neg h]
theorem State.countWord_large (s : State) {b : W64} (h : 2 ^ 23 ≤ b.toNat) : s.countWord b true = .error ringExc := by
  rw [State.countWord, if_pos (.inl h)]
/-- A count word with REM names the core that the window reaches. -/
theorem State.countWord_remote (s : State) {b : W64} (h : b.toNat < 2 ^ 23) :
    s.countWord b true = (s.windowCore (bf b 16 7)).map fun g => (bf b 0 16, g) := by
  rw [State.countWord, if_neg (by simp; omega), if_pos rfl]
  cases s.windowCore (bf b 16 7) <;> rfl
theorem State.windowCore_own {s : State} {g : Nat} {q : SeqKind} (hc : s.cur = .core g q) {n : Nat} (h : cidOf g * 128 + n = g) :
    s.windowCore n = .ok g := by
  simp only [State.windowCore, State.meCore, hc, h, if_true]
theorem State.windowCore_idle {s : State} {g : Nat} {q : SeqKind} (hc : s.cur = .core g q) {n : Nat} (h : cidOf g * 128 + n ≠ g)
    (hr : s.runsPart (cidOf g * 128 + n) = none) : s.windowCore n = .ok (cidOf g * 128 + n) := by
  simp only [State.windowCore, State.meCore, hc, h, if_false, hr]
theorem State.windowCore_runs {s : State} {g p : Nat} {q : SeqKind} (hc : s.cur = .core g q) {n : Nat} (h : cidOf g * 128 + n ≠ g)
    (hr : s.runsPart (cidOf g * 128 + n) = some p) : s.windowCore n = if p = s.partFor s.cur then .ok (cidOf g * 128 + n)
      else .error (access (BitVec.ofNat 64 (0x1000000 + n * 2 ^ 20))) := by
  simp only [State.windowCore, State.meCore, hc, h, if_false, hr]

/-! ### Changes of a ring -/

@[simp] theorem State.mem_setRing (s : State) (g : Nat) (a : Reg16) (r : Ring) : (s.setRing g a r).mem = s.mem := rfl
theorem State.ring_setRing (s : State) (g : Nat) (a : Reg16) (r : Ring) : (s.setRing g a r).ring g a = r := by
  simp [State.ring, State.setRing, Vector.get_eq_getElem]
theorem State.me_setCore {s : State} {g : Nat} {c : Core} (h : ∀ q, c.seq q = (s.core g).seq q) : (s.setCore g c).me = s.me :=
  s.seqOf_setCore_keeps s.cur g c h
theorem State.me_setRing (s : State) (g : Nat) (a : Reg16) (r : Ring) : (s.setRing g a r).me = s.me :=
  State.me_setCore fun q => by cases q <;> rfl
theorem State.mem_claimRing (s : State) (g : Nat) (a : Reg16) (k : Nat) : (s.claimRing g a k).mem = s.mem := rfl
theorem State.me_claimRing (s : State) (g : Nat) (a : Reg16) (k : Nat) : (s.claimRing g a k).me = s.me :=
  (State.me_setCore fun q => by cases q <;> rfl).trans (s.me_setRing g a _)
theorem State.ring_claimRing (s : State) (g : Nat) (a : Reg16) (k : Nat) : (s.claimRing g a k).ring g a = (s.ring g a).claim k := by
  unfold State.claimRing
  rw [State.ring, State.core_setCore_self]
  exact s.ring_setRing g a _

/-! ### Events (R182) -/

@[simp] theorem State.mem_raiseEvents (s : State) (g : Nat) : (s.raiseEvents g).mem = s.mem := rfl
@[simp] theorem State.cur_raiseEvents (s : State) (g : Nat) : (s.raiseEvents g).cur = s.cur := rfl
theorem State.event_raiseEvents (s : State) (g : Nat) (q : SeqKind) : (((s.raiseEvents g).core g).seq q).event = true := by
  rw [State.core_raiseEvents, Core.seq_mapSeqs]
theorem State.ring_raiseEvents (s : State) (g : Nat) (a : Reg16) : (s.raiseEvents g).ring g a = s.ring g a := by
  rw [State.ring, State.core_raiseEvents]
  rfl
/-- Raising events changes at most the event bit of a sequencer. -/
theorem State.me_raiseEvents (s : State) (g : Nat) : ∃ b, (s.raiseEvents g).me = { s.me with event := b } := by
  unfold State.me State.seqOf
  rw [State.cur_raiseEvents]
  split
  · next k q hc =>
    rw [State.raiseEvents, State.core_setCore]
    split
    · next hk => exact ⟨true, by rw [Core.seq_mapSeqs, hk]⟩
    · exact ⟨_, rfl⟩
  · exact ⟨_, rfl⟩
@[simp] theorem State.rs_raiseEvents (s : State) (g : Nat) (x : SReg) : (s.raiseEvents g).rs x = s.rs x := by
  obtain ⟨b, hb⟩ := s.me_raiseEvents g
  rw [State.rs, hb]
  rfl
theorem State.rs_setRing (s : State) (g : Nat) (a : Reg16) (r : Ring) (x : SReg) : (s.setRing g a r).rs x = s.rs x := by
  rw [State.rs, State.me_setRing, State.rs]
theorem State.Tracked.rs {s t : State} (h : s.Tracked t) (x : SReg) : t.rs x = s.rs x := by obtain ⟨z, rfl⟩ := h; rfl
theorem State.Tracked.ring {s t : State} (h : s.Tracked t) (g : Nat) (a : Reg16) : t.ring g a = s.ring g a := by
  obtain ⟨z, rfl⟩ := h; rfl
theorem State.Tracked.cores {s t : State} (h : s.Tracked t) : t.cores = s.cores := by obtain ⟨z, rfl⟩ := h; rfl

/-- A commit changes the ring, the events of its core and the records of the hazard checker. -/
theorem State.commitRing_eq (s : State) (w : Agent) (g : Nat) (a : Reg16) (t m : Nat) (rem : Bool) {r : Ring}
    (h : (s.ring g a).commit t m = some r) : ∃ u, s.Tracked u ∧ s.commitRing w g a t m rem = some ((u.setRing g a r).raiseEvents g) := by
  unfold State.commitRing
  rw [h]
  refine ⟨_, ?_, rfl⟩
  exact State.tracked_foldl _ (fun v i => (v.tracked_clearObj _).trans (State.tracked_release ..)) _ s
theorem State.commitRing_none (s : State) (w : Agent) (g : Nat) (a : Reg16) (t m : Nat) (rem : Bool)
    (h : (s.ring g a).commit t m = none) : s.commitRing w g a t m rem = none := by simp only [State.commitRing, h]

/-! ### The words (R59, R184) -/

section
variable {s : State} {i : Instr} {g k : Nat} {d b : SReg} {a : Reg16} {m : Bool}

theorem xRingClaim_begun (h : (s.begun i).countWord (s.rs b) m = .ok (k, g)) : xRingClaim d a b m (s.begun i) =
    if k = 0 ∨ (s.ring g a).n < k then .trap ringExc else if (s.ring g a).free < k then .stall
    else .done (((s.begun i).claimRing g a k).putS .salu d (BitVec.ofNat 64 (s.ring g a).claimed)) := by
  simp only [xRingClaim, State.rs_begun, h, Eff.need, State.ring_begun]
theorem xRingCommit_ticket (h : (s.begun i).countWord (s.rs b) m = .ok (k, g)) (hd : 2 ^ 16 ≤ (s.rs d).toNat) :
    xRingCommit d a b m (s.begun i) = .trap ringExc := by
  simp only [xRingCommit, State.rs_begun, h, Eff.need, if_pos hd]
theorem xRingCommit_closed (h : (s.begun i).countWord (s.rs b) m = .ok (k, g)) (hd : (s.rs d).toNat < 2 ^ 16)
    (hc : (s.ring g a).commit (s.rs d).toNat k = none) : xRingCommit d a b m (s.begun i) = .trap ringExc := by
  rw [← State.ring_begun s i] at hc
  simp only [xRingCommit, State.rs_begun, h, Eff.need, if_neg (Nat.not_le.2 hd), State.commitRing_none _ _ _ _ _ _ _ hc]
theorem xRingCommit_open {r : Ring} (h : (s.begun i).countWord (s.rs b) m = .ok (k, g)) (hd : (s.rs d).toNat < 2 ^ 16)
    (hc : (s.ring g a).commit (s.rs d).toNat k = some r) : ∃ u, (s.begun i).Tracked u ∧
    xRingCommit d a b m (s.begun i) = .done ((u.setRing g a r).raiseEvents g) := by
  rw [← State.ring_begun s i] at hc
  obtain ⟨u, hu, hcom⟩ := State.commitRing_eq _ (s.begun i).agent g a _ k m hc
  exact ⟨u, hu, by simp only [xRingCommit, State.rs_begun, h, Eff.need, if_neg (Nat.not_le.2 hd), hcom]⟩
theorem xRingWaitr_begun (h : (s.begun i).countWord (s.rs b) m = .ok (k, g)) : xRingWaitr a b m (s.begun i) =
    if (s.ring g a).n < k then .trap ringExc else if (s.ring g a).free < k then .stall else .done (s.begun i) := by
  simp only [xRingWaitr, State.rs_begun, h, Eff.need, State.ring_begun]
/-- A wait for filled slots that is over acquires from them: that is the hazard checker's. -/
theorem xRingWaitf_begun (h : (s.begun i).countWord (s.rs b) false = .ok (k, g)) : ∃ t, (s.begun i).Tracked t ∧
    xRingWaitf a b false (s.begun i) =
      if (s.ring g a).n < k then .trap ringExc else if (s.ring g a).filled < k then .stall else .done t := by
  simp only [xRingWaitf, State.rs_begun, h, Eff.need, State.ring_begun, Bool.false_eq_true, if_false]
  exact ⟨_, State.tracked_foldl _ (fun v i => State.tracked_acquire ..) (List.range k) (s.begun i), rfl⟩
theorem xRingPop_begun (h : (s.begun i).countWord (s.rs b) false = .ok (k, g)) : xRingPop a b false (s.begun i) =
    if (s.ring g a).filled < k ∨ s.ringBusy g a = true then .trap ringExc
    else .done (((s.begun i).setRing g a ((s.ring g a).pop k)).raiseEvents g) := by
  simp only [xRingPop, State.rs_begun, h, Eff.need, State.ring_begun, State.ringBusy_begun, Bool.false_eq_true, if_false]
theorem xRingRd_begun {q : SeqKind} (hc : s.cur = .core g q) : ∃ t, (s.begun i).Tracked t ∧
    xRingRd d a (s.begun i) = .done (t.putS .salu d (BitVec.ofNat 64 (s.ring g a).word1)) := by
  have hm : (s.begun i).meCore = g := by rw [State.meCore_begun, State.meCore, hc]
  simp only [xRingRd, hm, State.ring_begun]
  exact ⟨_, State.tracked_meets .., rfl⟩
end

section
variable {s : State} {g k : Nat} {d b : SReg} {a : Reg16} {m : Bool}

theorem ringClaim_exec (hp : s.passes (.ringClaim d a b m) = true)
    (h : (s.begun (.ringClaim d a b m)).countWord (s.rs b) m = .ok (k, g)) : let r := s.ring g a
    (k = 0 ∨ r.n < k → Raises (.ringClaim d a b m) s ringExc) ∧
    (1 ≤ k → k ≤ r.n → r.free < k → Waits (.ringClaim d a b m) s) ∧
    (1 ≤ k → k ≤ r.free → ∃ t : State, exec (.ringClaim d a b m) s = .next (t.putS .salu d (BitVec.ofNat 64 r.claimed)) ∧
      t.mem = s.mem ∧ (∀ x, t.rs x = s.rs x) ∧ t.me.pc = s.nextPc ∧
      t.ring g a = { r with claimed := (r.claimed + k) % r.w }) := by
  dsimp only
  have hx := xRingClaim_begun (d := d) (a := a) h
  refine ⟨fun hk => ?_, fun h1 hn hf => ?_, fun h1 hf => ?_⟩
  · rw [if_pos hk] at hx
    exact exec_trap rfl hp rfl hx
  · rw [if_neg (by omega), if_pos hf] at hx
    exact exec_stall rfl hp hx
  · have hn : (s.ring g a).free ≤ (s.ring g a).n := Nat.sub_le ..
    rw [if_neg (by omega), if_neg (by omega)] at hx
    refine ⟨_, exec_done rfl hp hx, ?_, fun x => ?_, ?_, ?_⟩
    · rw [State.mem_claimRing, State.mem_begun]
    · rw [State.rs, State.me_claimRing]
      exact s.rs_begun ..
    · rw [State.me_claimRing, State.me_begun]
    · rw [State.ring_claimRing, State.ring_begun]
      rfl

theorem ringCommit_exec {r' : Ring} (hp : s.passes (.ringCommit d a b m) = true)
    (h : (s.begun (.ringCommit d a b m)).countWord (s.rs b) m = .ok (k, g)) : let r := s.ring g a
    (2 ^ 16 ≤ (s.rs d).toNat → Raises (.ringCommit d a b m) s ringExc) ∧
    ((s.rs d).toNat < 2 ^ 16 → r.commit (s.rs d).toNat k = none → Raises (.ringCommit d a b m) s ringExc) ∧
    ((s.rs d).toNat < 2 ^ 16 → r.commit (s.rs d).toNat k = some r' → ∃ t, exec (.ringCommit d a b m) s = .next t ∧
      t.ring g a = r' ∧ t.mem = s.mem ∧ (∀ x, t.rs x = s.rs x) ∧ ∀ q, ((t.core g).seq q).event = true) := by
  dsimp only
  refine ⟨fun hd => exec_trap rfl hp rfl (xRingCommit_ticket h hd), fun hd hn => exec_trap rfl hp rfl (xRingCommit_closed h hd hn),
    fun hd hc => ?_⟩
  obtain ⟨u, hu, hx⟩ := xRingCommit_open h hd hc
  refine ⟨_, exec_done rfl hp hx, ?_, ?_, fun x => ?_, fun q => State.event_raiseEvents ..⟩
  · rw [State.ring_raiseEvents, State.ring_setRing]
  · rw [State.mem_raiseEvents, State.mem_setRing, hu.mem, State.mem_begun]
  · rw [State.rs_raiseEvents, State.rs_setRing, hu.rs, State.rs_begun]

theorem ringWaitr_exec (hp : s.passes (.ringWaitr a b m) = true)
    (h : (s.begun (.ringWaitr a b m)).countWord (s.rs b) m = .ok (k, g)) : let r := s.ring g a
    (r.n < k → Raises (.ringWaitr a b m) s ringExc) ∧ (k ≤ r.n → r.free < k → Waits (.ringWaitr a b m) s) ∧
    (k ≤ r.n → k ≤ r.free → exec (.ringWaitr a b m) s = .next (s.begun (.ringWaitr a b m))) := by
  dsimp only
  have hx := xRingWaitr_begun (a := a) h
  refine ⟨fun hn => ?_, fun hn hf => ?_, fun hn hf => ?_⟩
  · rw [if_pos hn] at hx
    exact exec_trap rfl hp rfl hx
  · rw [if_neg (by omega), if_pos hf] at hx
    exact exec_stall rfl hp hx
  · rw [if_neg (by omega), if_neg (by omega)] at hx
    exact exec_done rfl hp hx

theorem ringWaitf_exec (hp : s.passes (.ringWaitf a b false) = true)
    (h : (s.begun (.ringWaitf a b false)).countWord (s.rs b) false = .ok (k, g)) : let r := s.ring g a
    (r.n < k → Raises (.ringWaitf a b false) s ringExc) ∧ (k ≤ r.n → r.filled < k → Waits (.ringWaitf a b false) s) ∧
    (k ≤ r.n → k ≤ r.filled → ∃ t, exec (.ringWaitf a b false) s = .next t ∧ t.mem = s.mem ∧
      t.cores = (s.begun (.ringWaitf a b false)).cores) := by
  dsimp only
  obtain ⟨t, ht, hx⟩ := xRingWaitf_begun (a := a) h
  refine ⟨fun hn => ?_, fun hn hf => ?_, fun hn hf => ?_⟩
  · rw [if_pos hn] at hx
    exact exec_trap rfl hp rfl hx
  · rw [if_neg (by omega), if_pos hf] at hx
    exact exec_stall rfl hp hx
  · rw [if_neg (by omega), if_neg (by omega)] at hx
    exact ⟨t, exec_done rfl hp hx, by rw [ht.mem, State.mem_begun], ht.cores⟩

theorem ringPop_exec (hp : s.passes (.ringPop a b false) = true)
    (h : (s.begun (.ringPop a b false)).countWord (s.rs b) false = .ok (k, g)) : let r := s.ring g a
    (r.filled < k ∨ s.ringBusy g a = true → Raises (.ringPop a b false) s ringExc) ∧
    (k ≤ r.filled → s.ringBusy g a = false → ∃ t, exec (.ringPop a b false) s = .next t ∧ t.mem = s.mem ∧
      t.ring g a = { r with head := (r.head + k) % r.w } ∧ ∀ q, ((t.core g).seq q).event = true) := by
  dsimp only
  have hx := xRingPop_begun (a := a) h
  refine ⟨fun hk => ?_, fun hk hb => ?_⟩
  · rw [if_pos hk] at hx
    exact exec_trap rfl hp rfl hx
  · rw [if_neg (by rw [hb]; simpa using hk)] at hx
    refine ⟨_, exec_done rfl hp hx, ?_, ?_, fun q => State.event_raiseEvents ..⟩
    · rw [State.mem_raiseEvents, State.mem_setRing, State.mem_begun]
    · rw [State.ring_raiseEvents, State.ring_setRing]
      rfl

theorem ringRd_exec {q : SeqKind} (hc : s.cur = .core g q) : ∃ t : State,
    Answers (.ringRd d a) s (t.putS .salu d (BitVec.ofNat 64 ((s.ring g a).head + (s.ring g a).tail * 2 ^ 16 +
      (s.ring g a).claimed * 2 ^ 32))) ∧ { t with hazard := s.hazard } = s.begun (.ringRd d a) := by
  obtain ⟨t, ⟨z, ht⟩, hx⟩ := xRingRd_begun (i := .ringRd d a) (d := d) (a := a) hc
  refine ⟨t, fun hp => exec_done rfl hp hx, ?_⟩
  rw [ht, ← s.hazard_begun (.ringRd d a)]
end

/-- Settles O18: count words, then each word by the branch of its meaning that the counts choose. -/
theorem ringOperations : Obligations.RingOperations := by
  unfold Obligations.RingOperations
  refine ⟨fun s g q b hc => ⟨s.countWord_local hc b, fun h => s.countWord_large h, fun h h1 => ?_, fun h h1 hr => ?_,
    fun p h h1 hr => ?_⟩, fun s g k d b a m r' => ⟨ringClaim_exec, ringCommit_exec, ringWaitr_exec, ringWaitf_exec, ringPop_exec,
      fun hp => exec_trap rfl hp rfl rfl, fun hp => exec_trap rfl hp rfl rfl, fun q hc => ringRd_exec hc⟩⟩
  · rw [s.countWord_remote h, State.windowCore_own hc h1]
    rfl
  · rw [s.countWord_remote h, State.windowCore_idle hc h1 hr]
    rfl
  · rw [s.countWord_remote h, State.windowCore_runs hc h1 hr]
    split <;> rfl
end Sys2Proof.Machine
end

section
/-! ## Semaphores and barriers (O19) -/
namespace Sys2Proof.Machine

/-! ### Additions to a semaphore (R61, R182, R185) -/

theorem Core.setSeq_sems (c : Core) (q : SeqKind) (x : Seq) : (c.setSeq q x).sems = c.sems := by cases q <;> rfl
@[simp] theorem State.sems_begun (s : State) (i : Instr) (g : Nat) : ((s.begun i).core g).sems = (s.core g).sems :=
  State.core_begun_keeps Core.setSeq_sems (fun _ _ => rfl) s i g
theorem State.Tracked.me {s t : State} (h : s.Tracked t) : t.me = s.me := by obtain ⟨z, rfl⟩ := h; rfl
theorem State.Tracked.cluster {s t : State} (h : s.Tracked t) (c : Nat) : t.cluster c = s.cluster c := by obtain ⟨z, rfl⟩ := h; rfl

/-- What an addition to a semaphore changes: the semaphore, and the events of its core. -/
theorem State.semAddTo_spec (s : State) (w : Agent) (g : Nat) (a : Reg16) (x : W32) (rem : Bool) : let t := s.semAddTo w g a x rem
    (t.core g).sems.get a = (s.core g).sems.get a + x ∧ (∀ c, c ≠ a → (t.core g).sems.get c = (s.core g).sems.get c) ∧
    (∀ k, ((t.core g).seq k).event = true) ∧ t.mem = s.mem ∧ (∀ r, t.rs r = s.rs r) ∧ ∃ b, t.me = { s.me with event := b } := by
  intro t
  obtain ⟨z, hz⟩ := s.semAddTo_eq w g a x rem
  have hme : (({ s with hazard := z } : State).setCore g { s.core g with
      sems := (s.core g).sems.set a.val ((s.core g).sems.get a + x) a.isLt }).me = s.me :=
    State.me_setCore fun q => by cases q <;> rfl
  have hsems : (t.core g).sems = (s.core g).sems.set a.val ((s.core g).sems.get a + x) a.isLt := by
    simp only [t, hz, State.core_raiseEvents, State.core_setCore_self]
    rfl
  obtain ⟨b, hb⟩ : ∃ b, t.me = { s.me with event := b } := by
    rw [← hme]
    simp only [t, hz]
    exact State.me_raiseEvents ..
  refine ⟨?_, fun c hc => ?_, fun k => ?_, ?_, fun r => ?_, b, hb⟩
  · simp [hsems, Vector.get_eq_getElem]
  · have : a.val ≠ c.val := fun h => hc (Fin.ext h.symm)
    simp [hsems, Vector.get_eq_getElem, this]
  · simp only [t, hz]
    exact State.event_raiseEvents ..
  · simp only [t, hz]
    rfl
  · rw [State.rs, hb]
    rfl

section
variable {s : State} {g : Nat} {q : SeqKind} {d b : SReg} {a : Reg16}

theorem State.meCore_begun_of (hc : s.cur = .core g q) (i : Instr) : (s.begun i).meCore = g := by
  rw [State.meCore_begun, State.meCore, hc]
theorem semAdd_local (hc : s.cur = .core g q) (hp : s.passes (.semAdd d a b false) = true) : let x : W32 := (s.rs b).setWidth 32
    ∃ t, exec (.semAdd d a b false) s = .next t ∧ (t.core g).sems.get a = (s.core g).sems.get a + x ∧
      (∀ c, c ≠ a → (t.core g).sems.get c = (s.core g).sems.get c) ∧ (∀ k, ((t.core g).seq k).event = true) ∧
      t.mem = s.mem ∧ (∀ r, t.rs r = s.rs r) ∧ t.me.pc = s.nextPc := by
  intro x
  have hx : xSemAdd d a b false (s.begun (.semAdd d a b false)) =
      .done ((s.begun (.semAdd d a b false)).semAddTo (s.begun (.semAdd d a b false)).agent g a x false) := by
    simp only [xSemAdd, State.meCore_begun_of hc, State.rs_begun, Bool.false_eq_true, if_false]
    rfl
  obtain ⟨hget, hother, hev, hmem, hrs, e, hme⟩ := State.semAddTo_spec (s.begun (.semAdd d a b false))
    (s.begun (.semAdd d a b false)).agent g a x false
  refine ⟨_, exec_done rfl hp hx, ?_, fun c h => ?_, hev, ?_, fun r => ?_, ?_⟩
  · rw [hget, State.sems_begun]
  · rw [hother c h, State.sems_begun]
  · rw [hmem, State.mem_begun]
  · rw [hrs, State.rs_begun]
  · rw [hme, State.me_begun]
theorem semAdd_window {g' : Nat} (hp : s.passes (.semAdd d a b true) = true) (hd : (s.rs d).toNat < 128)
    (hw : (s.begun (.semAdd d a b true)).windowCore (s.rs d).toNat = .ok g') : let x : W32 := (s.rs b).setWidth 32
    ∃ t, exec (.semAdd d a b true) s = .next t ∧ (t.core g').sems.get a = (s.core g').sems.get a + x ∧
      (∀ k, ((t.core g').seq k).event = true) ∧ t.mem = s.mem ∧ ∀ r, t.rs r = s.rs r := by
  intro x
  have hx : xSemAdd d a b true (s.begun (.semAdd d a b true)) =
      .done ((s.begun (.semAdd d a b true)).semAddTo (s.begun (.semAdd d a b true)).agent g' a x true) := by
    simp only [xSemAdd, State.rs_begun, if_true, if_neg (Nat.not_le.2 hd), hw, Eff.need]
    rfl
  obtain ⟨hget, hother, hev, hmem, hrs, e, hme⟩ := State.semAddTo_spec (s.begun (.semAdd d a b true))
    (s.begun (.semAdd d a b true)).agent g' a x true
  refine ⟨_, exec_done rfl hp hx, ?_, hev, ?_, fun r => ?_⟩
  · rw [hget, State.sems_begun]
  · rw [hmem, State.mem_begun]
  · rw [hrs, State.rs_begun]
theorem semAdd_absent (hp : s.passes (.semAdd d a b true) = true) (hd : 128 ≤ (s.rs d).toNat) :
    Raises (.semAdd d a b true) s (access 0) :=
  exec_trap rfl hp rfl (by simp only [xSemAdd, State.rs_begun, if_true, if_pos hd])
theorem semWaitge_over (hc : s.cur = .core g q) (hp : s.passes (.semWaitge a b) = true)
    (h : ((s.rs b).setWidth 32 : W32).toNat ≤ ((s.core g).sems.get a).toNat) : ∃ t, exec (.semWaitge a b) s = .next t ∧
      t.cores = (s.begun (.semWaitge a b)).cores ∧ t.mem = s.mem := by
  have ht := State.tracked_acquire (s.begun (.semWaitge a b)) (s.begun (.semWaitge a b)).agent 2 (.sem g a)
  refine ⟨_, exec_done rfl hp ?_, ht.cores, by rw [ht.mem, State.mem_begun]⟩
  simp only [xSemWaitge, State.meCore_begun_of hc, State.rs_begun, State.sems_begun, BitVec.le_def, if_pos h]
theorem semWaitge_waits (hc : s.cur = .core g q) (hp : s.passes (.semWaitge a b) = true)
    (h : ((s.core g).sems.get a).toNat < ((s.rs b).setWidth 32 : W32).toNat) : Waits (.semWaitge a b) s := by
  refine exec_stall rfl hp ?_
  simp only [xSemWaitge, State.meCore_begun_of hc, State.rs_begun, State.sems_begun, BitVec.le_def, if_neg (Nat.not_le.2 h)]
theorem semRd_exec (hc : s.cur = .core g q) : ∃ t : State,
    Answers (.semRd d a) s (t.putS .salu d (BitVec.ofNat 64 ((s.core g).sems.get a).toNat)) ∧
      { t with hazard := s.hazard } = s.begun (.semRd d a) := by
  have hx : xSemRd d a (s.begun (.semRd d a)) = .done (((s.begun (.semRd d a)).meets (s.begun (.semRd d a)).agent
      ((s.begun (.semRd d a)).srcs (.sem g a))).putS .salu d (BitVec.ofNat 64 ((s.core g).sems.get a).toNat)) := by
    simp only [xSemRd, State.meCore_begun_of hc, State.sems_begun, BitVec.ofNat_toNat]
  obtain ⟨z, hz⟩ := State.tracked_meets (s.begun (.semRd d a)) (s.begun (.semRd d a)).agent
    ((s.begun (.semRd d a)).srcs (.sem g a))
  refine ⟨_, fun hp => exec_done rfl hp hx, ?_⟩
  rw [hz, ← s.hazard_begun (.semRd d a)]
end

/-! ### Arrivals at a barrier (R62, R186) -/

theorem State.barNo_congr {s t : State} {g : Nat} (h : (t.core g).ctx = (s.core g).ctx) (a : Reg16) : t.barNo g a = s.barNo g a := by
  rw [State.barNo, State.barNo, h]
@[simp] theorem State.barNo_begun (s : State) (i : Instr) (g : Nat) (a : Reg16) : (s.begun i).barNo g a = s.barNo g a :=
  State.barNo_congr (State.core_begun_keeps Core.setSeq_ctx (fun _ _ => rfl) s i g) a
@[simp] theorem State.clusters_begun (s : State) (i : Instr) : (s.begun i).clusters = s.clusters :=
  State.begun_keeps (p := State.clusters) (fun _ _ _ => rfl) (fun _ _ _ => rfl) (fun _ _ => rfl) s i
@[simp] theorem State.cluster_begun (s : State) (i : Instr) (c : Nat) : (s.begun i).cluster c = s.cluster c := by
  rw [State.cluster, State.clusters_begun, State.cluster]
/-- The counter of cluster c that a barrier of core g's node is bound to. -/
def State.barOf (s : State) (g : Nat) (a : Reg16) : Barrier := (s.cluster (cidOf g)).bars.get (s.barNo g a)

/-- A state after an arrival of the executing sequencer of core g: it has seen the phase, its `sync` is y, the counter has the
arrival, and of the rest at most events and the records of the hazard checker have changed. -/
structure State.Arrived (s : State) (g : Nat) (a : Reg16) (y : Option Reg16) (t : State) : Prop where
  me : ∃ b, t.me = { s.me with seen := s.me.seen.set a.val (some (s.barOf g a).phase) a.isLt, event := b, sync := y }
  mem : t.mem = s.mem
  cur : t.cur = s.cur
  ctx : (t.core g).ctx = (s.core g).ctx
  bar : t.barOf g a = (s.barOf g a).arrive

theorem State.Arrived.raiseEvents {s t : State} {g : Nat} {a : Reg16} {y : Option Reg16} (h : s.Arrived g a y t) (k : Nat) :
    s.Arrived g a y (t.raiseEvents k) := by
  obtain ⟨b, hb⟩ := h.me
  obtain ⟨e, he⟩ := t.me_raiseEvents k
  have hctx : ((t.raiseEvents k).core g).ctx = (t.core g).ctx := by
    rw [State.raiseEvents, State.core_setCore]
    split
    · next hk => rw [hk]; rfl
    · rfl
  refine ⟨⟨e, by rw [he, hb]⟩, h.mem, h.cur, hctx.trans h.ctx, ?_⟩
  rw [← h.bar, State.barOf, State.barOf, State.barNo_congr hctx]
  rfl

theorem State.arrived (s : State) (a : Reg16) : s.Arrived s.meCore a s.me.sync (s.arrive a) := by
  unfold State.arrive
  extract_lets g c b bar u x v _ w
  have hu : s.Tracked u := State.tracked_release ..
  have hv : (v.core g).ctx = (s.core g).ctx := by
    rw [← hu.core]
    exact State.core_setSeq_keeps Core.setSeq_ctx ..
  have hvc : v.cluster c = s.cluster c := by
    rw [← hu.cluster]
    simp only [v, State.setMe, State.setSeq]
    split <;> rfl
  have hw : s.Arrived g a s.me.sync w := by
    refine ⟨⟨s.me.event, ?_⟩, ?_, ?_, hv, ?_⟩
    · change v.me = _
      simp only [v, State.me_setMe, x, hu.me]
      rfl
    · change v.mem = _
      rw [State.mem_setMe, hu.mem]
    · change v.cur = _
      obtain ⟨z, hz⟩ := hu
      rw [State.cur_setMe, hz]
    · rw [State.barOf, State.barNo_congr (t := w) (s := s) hv, State.cluster_setCluster, if_pos rfl]
      change ((v.cluster c).bars.set b.val bar.arrive b.isLt).get b = _
      simp [Vector.get_eq_getElem, State.barOf, bar, c, b]
  split
  · exact hw
  · exact foldl_keeps (fun t => s.Arrived g a s.me.sync t) _ (fun t k h => h.raiseEvents k) _ w hw
section
variable {s t : State} {g : Nat} {a : Reg16} {y : Option Reg16} (h : s.Arrived g a y t)
include h
theorem State.Arrived.seen : t.me.seen.get a = some (s.barOf g a).phase := by
  obtain ⟨b, hb⟩ := h.me
  simp [hb, Vector.get_eq_getElem]
theorem State.Arrived.sync : t.me.sync = y := by
  obtain ⟨b, hb⟩ := h.me
  rw [hb]
theorem State.Arrived.pc : t.me.pc = s.me.pc := by
  obtain ⟨b, hb⟩ := h.me
  rw [hb]
theorem State.Arrived.rs (r : SReg) : t.rs r = s.rs r := by
  obtain ⟨b, hb⟩ := h.me
  rw [State.rs, hb]
  rfl
/-- The barrier is done for its own arrival just when that completed the phase. -/
theorem State.Arrived.barDone {q : SeqKind} (hc : s.cur = .core g q) : t.barDone a = decide ((s.barOf g a).p ≤ (s.barOf g a).count + 1) := by
  have hg : t.meCore = g := by rw [State.meCore, h.cur, hc]
  simp only [State.barDone, h.seen, hg, State.phase]
  change (!(t.barOf g a).phase == _) = _
  rw [h.bar, Barrier.arrive]
  split
  · next hp => simp [hp]
  · next hp => simp [hp]
end
theorem State.barOf_begun (s : State) (i : Instr) (g : Nat) (a : Reg16) : (s.begun i).barOf g a = s.barOf g a := by
  rw [State.barOf, State.barNo_begun, State.cluster_begun, State.barOf]

theorem Barrier.arrive_before {x : Barrier} (h : x.count + 1 < x.p) : x.arrive = { x with count := x.count + 1 } :=
  if_neg (Nat.not_le.2 h)
theorem Barrier.arrive_last {x : Barrier} (h : x.p ≤ x.count + 1) : x.arrive = { x with count := 0, phase := x.phase + 1 } := if_pos h
theorem State.Tracked.barAcquire (s : State) (a : Reg16) : s.Tracked (s.barAcquire a) := by
  unfold State.barAcquire
  split
  · exact .refl s
  · exact State.tracked_acquire ..
theorem State.Arrived.tracked {s t u : State} {g : Nat} {a : Reg16} {y : Option Reg16} (h : s.Arrived g a y t) (hu : t.Tracked u) :
    s.Arrived g a y u := by
  obtain ⟨z, rfl⟩ := hu
  exact ⟨h.me, h.mem, h.cur, h.ctx, h.bar⟩
theorem State.barOf_setMe (s : State) (x : Seq) (g : Nat) (a : Reg16) : (s.setMe x).barOf g a = s.barOf g a := by
  have hc : (s.setMe x).cluster (cidOf g) = s.cluster (cidOf g) := by
    simp only [State.setMe, State.setSeq]
    split <;> rfl
  rw [State.barOf, State.barNo_congr (s := s) (t := s.setMe x) (State.core_setSeq_keeps Core.setSeq_ctx ..), hc, State.barOf]
/-- The wait of `gbar.sync` past its word, after its arrival (R189). -/
theorem State.Arrived.awaits {s t : State} {g : Nat} {a : Reg16} {y : Option Reg16} (h : s.Arrived g a y t) (y' : Option Reg16) :
    s.Arrived g a y' (t.setMe { t.me with sync := y' }) := by
  obtain ⟨b, hb⟩ := h.me
  refine ⟨⟨b, by rw [State.me_setMe, hb]⟩, ?_, ?_, ?_, ?_⟩
  · rw [State.mem_setMe, h.mem]
  · rw [State.cur_setMe, h.cur]
  · rw [← h.ctx]
    exact State.core_setSeq_keeps Core.setSeq_ctx ..
  · rw [State.barOf_setMe, h.bar]

section
variable {s : State} {g : Nat} {q : SeqKind} {a : Reg16} {y : Option Reg16}

theorem State.Arrived.bar_begun {t : State} {i : Instr} (h : (s.begun i).Arrived g a y t) :
    (t.cluster (cidOf g)).bars.get (s.barNo g a) = (s.barOf g a).arrive := by
  rw [← s.barOf_begun i, ← h.bar, State.barOf, State.barNo_congr h.ctx, State.barNo_begun]
theorem State.arrived_begun (hc : s.cur = .core g q) (i : Instr) (a : Reg16) : (s.begun i).Arrived g a s.me.sync ((s.begun i).arrive a) := by
  have h := (s.begun i).arrived a
  rwa [State.meCore_begun_of hc, State.me_begun] at h
/-- An arrival's answer in the terms of the statement of R62 and R186. -/
theorem State.Arrived.answer {t : State} {i : Instr} (h : (s.begun i).Arrived g a y t) :
    t.me.seen.get a = some (s.barOf g a).phase ∧ t.mem = s.mem ∧ t.me.pc = s.nextPc ∧ (∀ r, t.rs r = s.rs r) ∧
      ((s.barOf g a).count + 1 < (s.barOf g a).p → (t.cluster (cidOf g)).bars.get (s.barNo g a) =
        { s.barOf g a with count := (s.barOf g a).count + 1 }) ∧
      ((s.barOf g a).p ≤ (s.barOf g a).count + 1 → (t.cluster (cidOf g)).bars.get (s.barNo g a) =
        { s.barOf g a with count := 0, phase := (s.barOf g a).phase + 1 }) := by
  refine ⟨?_, ?_, ?_, fun r => ?_, fun hx => ?_, fun hx => ?_⟩
  · rw [h.seen, State.barOf_begun]
  · rw [h.mem, State.mem_begun]
  · rw [h.pc, State.me_begun]
  · rw [h.rs, State.rs_begun]
  · rw [h.bar_begun, Barrier.arrive_before hx]
  · rw [h.bar_begun, Barrier.arrive_last hx]
theorem gbarArr_exec (hc : s.cur = .core g q) (hp : s.passes (.gbarArr a) = true) :
    ∃ t, exec (.gbarArr a) s = .next t ∧ (s.begun (.gbarArr a)).Arrived g a s.me.sync t :=
  ⟨_, exec_done rfl hp rfl, State.arrived_begun hc ..⟩
theorem gbarSync_last (hc : s.cur = .core g q) (hp : s.passes (.gbarSync a) = true) (hx : (s.barOf g a).p ≤ (s.barOf g a).count + 1) :
    ∃ t, exec (.gbarSync a) s = .next t ∧ (s.begun (.gbarSync a)).Arrived g a s.me.sync t := by
  have h := State.arrived_begun hc (.gbarSync a) a
  have hd : ((s.begun (.gbarSync a)).arrive a).barDone a = true := by
    rw [h.barDone ((State.cur_begun ..).trans hc), State.barOf_begun, decide_eq_true hx]
  refine ⟨_, exec_done rfl hp ?_, h.tracked (.barAcquire _ a)⟩
  simp only [xGbarSync, hd, if_true]
theorem gbarSync_before (hc : s.cur = .core g q) (hp : s.passes (.gbarSync a) = true)
    (hx : (s.barOf g a).count + 1 < (s.barOf g a).p) :
    ∃ t, exec (.gbarSync a) s = .next t ∧ (s.begun (.gbarSync a)).Arrived g a (some a) t := by
  have h := State.arrived_begun hc (.gbarSync a) a
  have hd : ((s.begun (.gbarSync a)).arrive a).barDone a = false := by
    rw [h.barDone ((State.cur_begun ..).trans hc), State.barOf_begun, decide_eq_false (Nat.not_le.2 hx)]
  refine ⟨_, exec_done rfl hp ?_, h.awaits (some a)⟩
  simp only [xGbarSync, hd, Bool.false_eq_true, if_false]

/-! ### Waits for a barrier (R186) -/

/-- A wait is over just when the phase is not the one seen. -/
theorem State.barDone_begun (hc : s.cur = .core g q) (i : Instr) :
    (s.begun i).barDone a = decide (s.me.seen.get a ≠ some (s.barOf g a).phase) := by
  have hph : (s.begun i).phase (s.begun i).meCore a = (s.barOf g a).phase := by
    rw [State.meCore_begun_of hc, ← s.barOf_begun i]
    rfl
  simp only [State.barDone, hph, State.me_begun]
  cases s.me.seen.get a with
  | none => rfl
  | some ph => simp [beq_eq_decide, eq_comm (a := ph)]
theorem gbarWait_over (hc : s.cur = .core g q) (hp : s.passes (.gbarWait a) = true) (hx : s.me.seen.get a ≠ some (s.barOf g a).phase) :
    ∃ t, exec (.gbarWait a) s = .next t ∧ t.cores = (s.begun (.gbarWait a)).cores ∧ t.mem = s.mem ∧ t.clusters = s.clusters := by
  have ht := State.Tracked.barAcquire (s.begun (.gbarWait a)) a
  refine ⟨_, exec_done rfl hp ?_, ht.cores, by rw [ht.mem, State.mem_begun], ?_⟩
  · simp only [xGbarWait, State.barDone_begun hc, decide_eq_true hx, if_true]
  · obtain ⟨z, hz⟩ := ht
    rw [hz, ← s.clusters_begun (.gbarWait a)]
theorem gbarWait_waits (hc : s.cur = .core g q) (hp : s.passes (.gbarWait a) = true) (hx : s.me.seen.get a = some (s.barOf g a).phase) :
    Waits (.gbarWait a) s := by
  refine exec_stall rfl hp ?_
  simp [xGbarWait, State.barDone_begun hc, hx]
end

/-- Settles O19: the words of a semaphore by their cases, those of a barrier by what an arrival leaves behind. -/
theorem semaphoresAndBarriers : Obligations.SemaphoresAndBarriers := by
  unfold Obligations.SemaphoresAndBarriers
  refine ⟨fun s g g' q d b a hc => ⟨semAdd_local hc, semAdd_window, semAdd_absent, semWaitge_over hc, semWaitge_waits hc, semRd_exec hc⟩,
    fun s g q a hc => ⟨fun hp => ?_, fun hp hx => ?_, fun hp hx => ?_, gbarWait_over hc, gbarWait_waits hc⟩⟩
  · obtain ⟨t, ht, h⟩ := gbarArr_exec hc hp
    exact ⟨t, ⟨ht, h.answer⟩, h.sync⟩
  · obtain ⟨t, ht, h⟩ := gbarSync_before hc hp hx
    exact ⟨t, ⟨ht, h.answer⟩, h.sync⟩
  · obtain ⟨t, ht, h⟩ := gbarSync_last hc hp hx
    exact ⟨t, ⟨ht, h.answer⟩, h.sync⟩
end Sys2Proof.Machine
end

section
/-! ## Side bands (O30) -/
namespace Sys2Proof.Machine

@[simp] theorem State.side_begun (s : State) (i : Instr) : (s.begun i).side = s.side :=
  State.begun_keeps (p := State.side) (fun _ _ _ => rfl) (fun _ _ _ => rfl) (fun _ _ => rfl) s i
@[simp] theorem State.sideOf_begun (s : State) (i : Instr) (k : Nat) : (s.begun i).sideOf k = s.sideOf k := by
  rw [State.sideOf, State.side_begun, State.sideOf]
/-- Whether the link of a key has failed, as the beginning of a word finds it. -/
@[simp] theorem State.linkFailed_begun (s : State) (i : Instr) (k : Nat) :
    (s.begun i).linkFailed ((s.begun i).linkOf k) = s.linkFailed (s.linkOf k) :=
  State.begun_keeps (p := fun s => s.linkFailed (s.linkOf k)) (fun _ _ _ => rfl) (fun _ _ _ => rfl) (fun _ _ => rfl) s i

theorem State.tracked_trackMe {s t : State} {k n : Nat} {w : Bool} {va : W64} (h : s.trackMe k n w va = .ok t) : s.Tracked t := by
  unfold State.trackMe at h
  split at h
  · exact State.tracked_track h
  · obtain rfl := Except.ok.inj h
    exact State.tracked_logAccess ..

theorem State.sideOf_setSide (s : State) (k : Nat) (v : W32) (l : Nat) :
    (s.setSide k v).sideOf l = if l / 256 = k / 256 then v else s.sideOf l := by
  change Map.getD (if v = 0 then Map.del s.side _ else Map.set s.side _ v) (l / 256) 0 = _
  split
  · next h0 =>
    split
    · next hl => rw [hl, Map.getD_del_self, h0]
    · next hl => rw [Map.getD_del_ne _ _ hl, State.sideOf]
  · rw [Map.getD_set, State.sideOf]

/-- A side band written where no link has failed: that band, and otherwise at most islands and ingest checks. -/
theorem State.storeSide_eq {s : State} {k : Nat} (hf : isDev k = true → s.linkFailed (s.linkOf k) = false) (v : W32) :
    ∃ i j, s.storeSide k v = ({ s with islands := i, ingest := j } : State).setSide k v := by
  obtain ⟨i, hi⟩ := s.wakeKey_eq k
  have hfail : (isDev k && (s.wakeKey k).linkFailed ((s.wakeKey k).linkOf k)) = false := by
    rw [hi]
    cases hd : isDev k
    · rfl
    · exact hf hd
  simp only [State.storeSide, hfail, Bool.false_eq_true, if_false]
  rw [hi]
  split
  · obtain ⟨j, hj⟩ := State.marked_eq (({ s with islands := i } : State).setSide k v) k
    exact ⟨i, j, hj⟩
  · exact ⟨i, s.ingest, rfl⟩

theorem State.storeSide_spec {s : State} {k : Nat} (hf : isDev k = true → s.linkFailed (s.linkOf k) = false) (v : W32) :
    (∀ l, (s.storeSide k v).sideOf l = if l / 256 = k / 256 then v else s.sideOf l) ∧ (s.storeSide k v).mem = s.mem ∧
      (s.storeSide k v).me = s.me := by
  obtain ⟨i, j, hij⟩ := State.storeSide_eq hf v
  refine ⟨fun l => ?_, ?_, ?_⟩
  · rw [hij, State.sideOf_setSide]
    rfl
  · rw [hij]
    rfl
  · rw [hij]
    rfl

theorem State.sideAt_ok {s : State} {va : W64} {n : Need} {k : Nat} (ha : va.toNat % 256 = 0) (hp : inAperture va.toNat = false)
    (hk : s.resolveFor s.cur va n = .ok k) : s.sideAt va n = .ok k := by
  simp [State.sideAt, ha, hp, hk]

section
variable {s u : State} {d x y : SReg} {k : Nat} (ha : (s.rs x).toNat % 256 = 0) (hp : inAperture (s.rs x).toNat = false)
include ha hp

theorem lineRd_exec (hk : (s.begun (.lineRd d x)).resolveFor s.cur (s.rs x) { rd := true } = .ok k)
    (hu : (s.begun (.lineRd d x)).trackMe (sideLoc k) 16 false (s.rs x) = .ok u)
    (hf : ¬ (isDev k = true ∧ s.linkFailed (s.linkOf k) = true)) :
    ∃ t : State, { t with islands := u.islands } = u ∧ Answers (.lineRd d x) s (t.putS .salu d ((s.sideOf k).setWidth 64)) := by
  have hat : (s.begun (.lineRd d x)).sideAt (s.rs x) { rd := true } = .ok k := State.sideAt_ok ha hp (by rwa [State.cur_begun])
  refine ⟨u.wakeKey k, ?_, fun hpass => exec_done rfl hpass ?_⟩
  · obtain ⟨i, hi⟩ := u.wakeKey_eq k
    rw [hi]
  · simp only [xLineRd, State.rs_begun, hat, Eff.need, hu, State.linkFailed_begun, State.sideOf_begun]
    rw [if_neg (by simpa using hf)]
theorem lineRd_failed (hk : (s.begun (.lineRd d x)).resolveFor s.cur (s.rs x) { rd := true } = .ok k)
    (hu : (s.begun (.lineRd d x)).trackMe (sideLoc k) 16 false (s.rs x) = .ok u)
    (hd : isDev k = true) (hf : s.linkFailed (s.linkOf k) = true) (hpass : s.passes (.lineRd d x) = true) :
    Raises (.lineRd d x) s (uncorrectable k (s.rs x)) := by
  have hat : (s.begun (.lineRd d x)).sideAt (s.rs x) { rd := true } = .ok k := State.sideAt_ok ha hp (by rwa [State.cur_begun])
  refine exec_trap rfl hpass rfl ?_
  simp only [xLineRd, State.rs_begun, hat, Eff.need, hu, State.linkFailed_begun, hd, hf]
  rfl
theorem lineWr_exec (hk : (s.begun (.lineWr x y)).resolveFor s.cur (s.rs x) { w := true } = .ok k)
    (hu : (s.begun (.lineWr x y)).trackMe (sideLoc k) 16 true (s.rs x) = .ok u) (hv : sideValueOk (s.rs y) = true)
    (hf : isDev k = true → s.linkFailed (s.linkOf k) = false) (hpass : s.passes (.lineWr x y) = true) :
    ∃ t, exec (.lineWr x y) s = .next t ∧ t.sideOf k = (s.rs y).setWidth 32 ∧ t.mem = s.mem ∧
      (∀ l, l / 256 ≠ k / 256 → t.sideOf l = s.sideOf l) ∧ t.me.pc = s.nextPc ∧ ∀ r, t.rs r = s.rs r := by
  have hat : (s.begun (.lineWr x y)).sideAt (s.rs x) { w := true } = .ok k := State.sideAt_ok ha hp (by rwa [State.cur_begun])
  have hx : xLineWr x y (s.begun (.lineWr x y)) = .done (u.storeSide k ((s.rs y).setWidth 32)) := by
    simp only [xLineWr, State.rs_begun, hat, Eff.need, hu, hv]
    rfl
  have ht := State.tracked_trackMe hu
  have hfail : isDev k = true → u.linkFailed (u.linkOf k) = false := by
    obtain ⟨z, hz⟩ := ht
    rw [hz]
    exact fun hd => (s.linkFailed_begun (.lineWr x y) k).trans (hf hd)
  have hside (l : Nat) : u.sideOf l = s.sideOf l := by
    obtain ⟨z, hz⟩ := ht
    rw [hz]
    exact s.sideOf_begun (.lineWr x y) l
  obtain ⟨hband, hmem, hme⟩ := State.storeSide_spec hfail ((s.rs y).setWidth 32)
  refine ⟨u.storeSide k ((s.rs y).setWidth 32), exec_done rfl hpass hx, ?_, ?_, fun l hl => ?_, ?_, fun r => ?_⟩
  · rw [hband, if_pos rfl]
  · rw [hmem, ht.mem, State.mem_begun]
  · rw [hband, if_neg hl, hside]
  · rw [hme, ht.me, State.me_begun]
  · rw [State.rs, hme, ht.me, ← s.rs_begun (.lineWr x y), State.rs]
theorem lineWr_format (hk : (s.begun (.lineWr x y)).resolveFor s.cur (s.rs x) { w := true } = .ok k)
    (hv : sideValueOk (s.rs y) = false) (hpass : s.passes (.lineWr x y) = true) : Raises (.lineWr x y) s (format (s.rs x)) := by
  have hat : (s.begun (.lineWr x y)).sideAt (s.rs x) { w := true } = .ok k := State.sideAt_ok ha hp (by rwa [State.cur_begun])
  refine exec_trap rfl hpass rfl ?_
  simp only [xLineWr, State.rs_begun, hat, Eff.need, hv]
  rfl
end
theorem lineRd_misaligned {s : State} {d x : SReg} (ha : (s.rs x).toNat % 256 ≠ 0) (hpass : s.passes (.lineRd d x) = true) :
    Raises (.lineRd d x) s (align (s.rs x)) := by
  refine exec_trap rfl hpass rfl ?_
  simp only [xLineRd, State.sideAt, State.rs_begun, if_pos ha, Eff.need]

/-- Settles O30: both words by where their line lies and whether its link has failed. -/
theorem sideBandWords : Obligations.SideBandWords := by
  unfold Obligations.SideBandWords
  exact fun s u d x y k => ⟨fun ⟨ha, hp, hk, hu⟩ => ⟨lineRd_exec ha hp hk hu, lineRd_failed ha hp hk hu⟩,
    fun ⟨ha, hp, hk, hu⟩ => lineWr_exec ha hp hk hu, fun ⟨ha, hp, hk, _⟩ => lineWr_format ha hp hk, lineRd_misaligned⟩
end Sys2Proof.Machine
end

section
/-! ## Posted operations (O37): a turn, and shared memory -/
namespace Sys2Proof.Machine

/-! ### Bytes of shared memory (R50, R55) -/

/-- n bytes of shared memory from address a. -/
def ShRange (a n : Nat) : Prop := 2 ^ 32 ≤ a ∧ a + n ≤ 2 ^ 32 + 2 ^ 29
/-- Two ranges of bytes have none in common. -/
def Apart (a n b k : Nat) : Prop := a + n ≤ b ∨ b + k ≤ a

theorem ShRange.sub {a n b k : Nat} (h : ShRange a n) (hlo : a ≤ b) (hhi : b + k ≤ a + n) : ShRange b k := by
  unfold ShRange at *
  omega
theorem ShRange.of_sharedOk {s : State} {p a n : Nat} (h : s.sharedOk p a n = true) : ShRange a n := by
  simp only [State.sharedOk, inShared, Bool.and_eq_true, decide_eq_true_eq] at h
  exact h.1
theorem shKey_lower (a : Nat) : 2 ^ 53 ≤ shKey a := by
  unfold shKey sharedKey
  omega
theorem shKey_upper {a n : Nat} (h : ShRange a n) : shKey a + n < 2 ^ 54 := by
  unfold ShRange at h
  unfold shKey sharedKey
  omega
theorem shKey_isExt {a n : Nat} (h : ShRange a n) : isExt (shKey a) = false := by
  have hlo := shKey_lower a
  have hhi := shKey_upper h
  simp [isExt]
  omega
theorem shKey_isDev (a : Nat) : isDev (shKey a) = false := by
  have hlo := shKey_lower a
  simp [isDev]
  omega
theorem shKey_add {a n : Nat} (h : ShRange a n) (i : Nat) : shKey (a + i) = shKey a + i := by
  unfold ShRange at h
  simp only [shKey, sharedKey]
  omega

section
variable {s : State} {a n : Nat} (ha : ShRange a n) (v : Nat)
include ha

theorem State.shWr_eq : ∃ i, s.shWr a n v = { s with islands := i, mem := Mem.writeN s.mem (shKey a) n v } := by
  obtain ⟨i, hi⟩ := s.wakeKey_eq (shKey a)
  refine ⟨i, ?_⟩
  simp only [State.shWr, State.store, shKey_isExt ha, shKey_isDev, Bool.false_eq_true, if_false]
  rw [hi]
theorem State.mem_shWr : (s.shWr a n v).mem = Mem.writeN s.mem (shKey a) n v := by
  obtain ⟨i, hi⟩ := State.shWr_eq (s := s) ha v
  rw [hi]
theorem State.side_shWr : (s.shWr a n v).side = s.side := by
  obtain ⟨i, hi⟩ := State.shWr_eq (s := s) ha v
  rw [hi]
theorem State.cores_shWr : (s.shWr a n v).cores = s.cores := by
  obtain ⟨i, hi⟩ := State.shWr_eq (s := s) ha v
  rw [hi]
end
theorem State.wf_shWr {s : State} (h : Memory.wf s.mem = true) (a n v : Nat) : Memory.wf (s.shWr a n v).mem = true :=
  State.wf_store _ _ _ h

section
variable {s : State} (hwf : Memory.wf s.mem = true) {a n : Nat} (ha : ShRange a n) (v : Nat)
include hwf ha

theorem State.read_shWr_out {x : Nat} (hx : x < shKey a ∨ shKey a + n ≤ x) : Mem.read (s.shWr a n v).mem x = Mem.read s.mem x := by
  rw [State.mem_shWr ha, Mem.read_writeN_out _ _ _ _ hwf hx]
theorem State.shRd_shWr_same : (s.shWr a n v).shRd a n = v % 2 ^ (8 * n) := by
  rw [State.shRd, State.mem_shWr ha, Mem.readN_writeN _ _ _ hwf, pow_mul]
  rfl
theorem State.shRd_shWr_apart {b k : Nat} (hb : 2 ^ 32 ≤ b) (h : Apart a n b k) : (s.shWr a n v).shRd b k = s.shRd b k := by
  refine Mem.readN_congr _ _ fun i hi => State.read_shWr_out hwf ha v ?_
  unfold ShRange at ha
  unfold Apart at h
  simp only [shKey, sharedKey]
  omega
end

/-! ### Numbers in memory -/

theorem Mem.readN_lt (m : List Host.Cell) (k n : Nat) : Mem.readN m k n < 2 ^ (8 * n) := by
  induction n generalizing k with
  | zero => exact Nat.one_pos
  | succ n ih =>
    have := ih (k + 1)
    have := (Mem.read m k).isLt
    rw [Mem.readN, show 8 * (n + 1) = 8 * n + 8 from rfl, pow_add]
    omega
theorem Mem.readN_add (m : List Host.Cell) (k a b : Nat) : Mem.readN m k (a + b) = Mem.readN m k a + 2 ^ (8 * a) * Mem.readN m (k + a) b := by
  induction a generalizing k with
  | zero => simp [Mem.readN]
  | succ a ih =>
    rw [show a + 1 + b = a + b + 1 by omega, Mem.readN, ih, Mem.readN, show 8 * (a + 1) = 8 * a + 8 from rfl, pow_add,
      show k + 1 + a = k + (a + 1) by omega]
    ring

/-! ### One turn -/

theorem Posted.count_eq_one {p : Posted} (h : p.op.isList = false) : p.count = 1 := by
  unfold Posted.count
  split <;> simp_all [NearOp.isList]
theorem Posted.sig_eq_none {p : Posted} (h : p.op.isList = false) : p.sig = none := by
  unfold Posted.sig
  split <;> simp_all [NearOp.isList]
theorem State.tracked_logPosted (s : State) (w : Who) (p : Posted) (l : List (Nat × Nat)) : s.Tracked (s.logPosted w p l) :=
  State.tracked_foldl _ (fun _ _ => State.tracked_logAccess ..) l s

theorem State.core_congr {s t : State} (h : t.cores = s.cores) (g : Nat) : t.core g = s.core g := by rw [State.core, h, State.core]

/-- The two states agree in memory, side bands, creels, counters, partitions and records under way. -/
structure State.Rest (u t : State) : Prop where
  mem : t.mem = u.mem
  side : t.side = u.side
  creels : t.creels = u.creels
  tcs : t.tcs = u.tcs
  parts : t.parts = u.parts
  due : t.due = u.due
theorem State.shRd_congr {u t : State} (h : t.mem = u.mem) (a n : Nat) : t.shRd a n = u.shRd a n := by rw [State.shRd, h, State.shRd]

section
variable {s u : State} {g : Nat} {p : Posted} {ps : List Posted} {v : W64} {e : Exc} (hq : (s.core g).posted = p :: ps)
include hq

/-- A turn that applies an element of the oldest operation. -/
theorem applyCore_ok (h : s.applyOp (some g) p = { s := u, r := .ok v }) (hc : u.cores = s.cores) :
    ∃ w, u.Tracked w ∧ exec (.postedOpApply (.core g) 0) s = .next
      (if p.done + 1 < p.count then w.setPosted g ({ p with done := p.done + 1 } :: ps)
        else p.sig.elim (w.setPosted g ps) fun k => (w.setPosted g ps).semAddTo (p.agent (.core g .K)) g k 1 false) := by
  have hw := u.tracked_logPosted (.core g .K) p (s.opPlaces (some g) p)
  have hu : (u.logPosted (.core g .K) p (s.opPlaces (some g) p)).core g = s.core g := State.core_congr (hw.cores.trans hc) g
  refine ⟨_, hw, ?_⟩
  change Host.Outcome.next (if inTurn (s.core g).posted 0 then s.applyCore g 0 else s) = _
  simp only [State.applyCore, hq, inTurn, List.getElem?_cons_zero, h, hu, without, beq_self_eq_true, Bool.true_or, if_true,
    List.take_zero, List.nil_append, Nat.zero_add, List.drop_one, List.tail_cons, List.set_cons_zero]
  congr 2
  cases p.sig <;> rfl
/-- A turn whose operation fails stops the node, imprecisely. -/
theorem applyCore_error (h : s.applyOp (some g) p = Applied.err u e) (hc : u.cores = s.cores) :
    exec (.postedOpApply (.core g) 0) s =
      .next ((u.setCore g { u.core g with posted := ps }).imprecise g 10 (p.unit e) p.pc e) := by
  have hu : u.core g = s.core g := State.core_congr hc g
  change Host.Outcome.next (if inTurn (s.core g).posted 0 then s.applyCore g 0 else s) = _
  simp only [State.applyCore, hq, inTurn, List.getElem?_cons_zero, h, Applied.err, State.setPosted, hu, without, beq_self_eq_true,
    Bool.true_or, if_true, List.take_zero, List.nil_append, Nat.zero_add, List.drop_one, List.tail_cons]
/-- The turn of an operation that is no list form: the operation leaves the queue, and beside its effect only cores and the records
of the hazard checker change. -/
theorem posted_rest (hl : p.op.isList = false) (h : s.applyOp (some g) p = { s := u, r := .ok v }) (hc : u.cores = s.cores) :
    ∃ t, exec (.postedOpApply (.core g) 0) s = .next t ∧ (t.core g).posted = ps ∧ u.Rest t := by
  obtain ⟨w, ⟨z, rfl⟩, hw⟩ := applyCore_ok hq h hc
  rw [Posted.count_eq_one hl, if_neg (by omega), Posted.sig_eq_none hl] at hw
  refine ⟨_, hw, ?_, ⟨rfl, rfl, rfl, rfl, rfl, rfl⟩⟩
  change ((State.setCore _ g _).core g).posted = ps
  rw [State.core_setCore_self]
end

/-- The state t has the number v in n bytes of shared memory at address a, and else the memory and the side bands of s. -/
structure State.Put (s : State) (a n v : Nat) (t : State) : Prop where
  side : t.side = s.side
  out : ∀ x, x < shKey a ∨ shKey a + n ≤ x → Mem.read t.mem x = Mem.read s.mem x
  val : t.shRd a n = v % 2 ^ (8 * n)
theorem State.put_shWr {s : State} (hwf : Memory.wf s.mem = true) {a n : Nat} (ha : ShRange a n) (v : Nat) : s.Put a n v (s.shWr a n v) :=
  ⟨State.side_shWr ha v, fun _ hx => State.read_shWr_out hwf ha v hx, State.shRd_shWr_same hwf ha v⟩
theorem State.Put.congr {s t w : State} {a n v : Nat} (h : s.Put a n v t) (hm : w.mem = t.mem) (hs : w.side = t.side) : s.Put a n v w :=
  ⟨hs.trans h.side, fun x hx => hm ▸ h.out x hx, (State.shRd_congr hm a n).trans h.val⟩
/-- The turn of an operation that writes one number in shared memory. -/
theorem posted_puts {s : State} {g : Nat} {p : Posted} {ps : List Posted} {v : W64} (hwf : Memory.wf s.mem = true)
    (hq : (s.core g).posted = p :: ps) (hl : p.op.isList = false) {a n x : Nat} (ha : ShRange a n)
    (h : s.applyOp (some g) p = { s := s.shWr a n x, r := .ok v }) :
    ∃ t, exec (.postedOpApply (.core g) 0) s = .next t ∧ (t.core g).posted = ps ∧ s.Put a n x t := by
  obtain ⟨t, ht, hposted, hrest⟩ := posted_rest hq hl h (State.cores_shWr ha x)
  exact ⟨t, ht, hposted, (State.put_shWr hwf ha x).congr hrest.mem hrest.side⟩

/-! ### Atomics (R250, R251) -/

theorem nmaFmt_of {ty f : Nat} (h : f = 0 ∨ (ty = 0 ∧ f = 0x21) ∨ (ty = 2 ∧ f = 0x11)) : nmaFmt ty f = true := by
  obtain rfl | ⟨rfl, rfl⟩ | ⟨rfl, rfl⟩ := h <;> simp [nmaFmt]
/-- The bytes of an atomic's location. -/
def nmaBytes (ty : Nat) : Nat := if ty = 1 then 8 else 4
theorem nmaBytes_pos (ty : Nat) : 1 ≤ nmaBytes ty := by unfold nmaBytes; split <;> decide
theorem State.nmaApply_ok {s : State} {ty ea : Nat} (op : Nat) (us : Bool) (y c : Nat) (hb : s.badIn (shKey ea) (nmaBytes ty) = false)
    (hp : s.poisoned (shKey ea) = false) (hf : nmaFmt ty (s.fmtOf (shKey ea)) = true) : ∃ v, s.nmaApply op ty us ea y c =
      { s := s.shWr ea (nmaBytes ty) (nmaNew op ty us (s.shRd ea (nmaBytes ty)) (y % 2 ^ (8 * nmaBytes ty)) (c % 2 ^ (8 * nmaBytes ty)))
        r := .ok v } := by
  simp only [nmaBytes] at *
  simp only [State.nmaApply, hb, hp, hf]
  exact ⟨_, rfl⟩
theorem State.nmaApply_poisoned {s : State} {ty ea : Nat} (op : Nat) (us : Bool) (y c : Nat)
    (hb : s.badIn (shKey ea) (nmaBytes ty) = false) (hp : s.poisoned (shKey ea) = true) :
    s.nmaApply op ty us ea y c = .err s (poisonExc (w64 ea)) := by
  simp only [nmaBytes] at hb
  simp only [State.nmaApply, hb, hp]
  rfl
theorem w64_toNat (x : W64) : w64 x.toNat = x := by rw [w64, BitVec.ofNat_toNat, BitVec.setWidth_eq]
theorem bf_zero (w : W64) (n : Nat) : bf w 0 n = w.toNat % 2 ^ n := by simp [bf, fld]
theorem Posted.unit_shared (p : Posted) {e : Exc} (h : ShRange e.codeAddr.2.toNat 1) : p.unit e = bankUnit e.codeAddr.2.toNat := by
  have : inShared e.codeAddr.2.toNat 1 = true := by
    simpa [inShared, ShRange] using h
  simp [Posted.unit, this]

section
variable {s : State} {g : Nat} {p : Posted} {ps : List Posted} (hwf : Memory.wf s.mem = true) (hq : (s.core g).posted = p :: ps)
include hq

include hwf in
theorem nma_applies {op ty : Nat} {us : Bool} (hop : p.op = .nma op ty us) (ha : ShRange p.a.toNat (nmaBytes ty))
    (hb : s.badIn (shKey p.a.toNat) (nmaBytes ty) = false) (hp : s.poisoned (shKey p.a.toNat) = false)
    (hf : nmaFmt ty (s.fmtOf (shKey p.a.toNat)) = true) :
    ∃ t, exec (.postedOpApply (.core g) 0) s = .next t ∧ (t.core g).posted = ps ∧ s.Put p.a.toNat (nmaBytes ty)
      (nmaNew op ty us (s.shRd p.a.toNat (nmaBytes ty)) (bf p.b 0 (8 * nmaBytes ty)) (bf p.d 0 (8 * nmaBytes ty))) t := by
  obtain ⟨v, hv⟩ := State.nmaApply_ok op us p.b.toNat p.d.toNat hb hp hf
  have happ : s.applyOp (some g) p = s.nmaApply op ty us p.a.toNat p.b.toNat p.d.toNat := by rw [State.applyOp, hop]
  rw [bf_zero, bf_zero]
  exact posted_puts hwf hq (by rw [hop]; rfl) ha (happ.trans hv)
theorem nma_poisoned {op ty : Nat} {us : Bool} (hop : p.op = .nma op ty us) (ha : ShRange p.a.toNat (nmaBytes ty))
    (hb : s.badIn (shKey p.a.toNat) (nmaBytes ty) = false) (hp : s.poisoned (shKey p.a.toNat) = true) :
    exec (.postedOpApply (.core g) 0) s = .next ((s.setCore g { s.core g with posted := ps }).imprecise g 10 (bankUnit p.a.toNat) p.pc
      (.fault 8 p.a 0)) := by
  have happ : s.applyOp (some g) p = .err s (poisonExc (w64 p.a.toNat)) := by
    rw [State.applyOp, hop]
    exact State.nmaApply_poisoned op us _ _ hb hp
  have hunit : p.unit (poisonExc p.a) = bankUnit p.a.toNat :=
    p.unit_shared (e := poisonExc p.a) (ha.sub le_rfl (Nat.add_le_add_left (nmaBytes_pos ty) _))
  rw [applyCore_error hq happ rfl, w64_toNat, hunit, poisonExc]
end

end Sys2Proof.Machine
end

section
/-! ## Posted operations (O37): list forms, predictor tables and creels -/
namespace Sys2Proof.Machine

/-! ### List forms (R251) -/

theorem State.posted_semAddTo (s : State) (w : Agent) (g : Nat) (a : Reg16) (x : W32) (rem : Bool) :
    ((s.semAddTo w g a x rem).core g).posted = (s.core g).posted := by
  obtain ⟨z, hz⟩ := s.semAddTo_eq w g a x rem
  simp only [hz, State.core_raiseEvents, State.core_setCore_self]
  rfl
theorem State.side_semAddTo (s : State) (w : Agent) (g : Nat) (a : Reg16) (x : W32) (rem : Bool) :
    (s.semAddTo w g a x rem).side = s.side := by
  obtain ⟨z, hz⟩ := s.semAddTo_eq w g a x rem
  rw [hz]
  rfl
/-- The signal of a finished list form, where it has one. -/
theorem State.signal_spec (w : State) (q : Agent) (g : Nat) (sig : Option Reg16) : let t := sig.elim w fun k => w.semAddTo q g k 1 false
    t.mem = w.mem ∧ t.side = w.side ∧ (t.core g).posted = (w.core g).posted ∧
      ∀ k, (t.core g).sems.get k = (w.core g).sems.get k + if sig = some k then 1 else 0 := by
  intro t
  cases sig with
  | none => exact ⟨rfl, rfl, rfl, fun k => by simp [t]⟩
  | some a =>
    obtain ⟨hget, hother, -, hmem, -⟩ := w.semAddTo_spec q g a 1 false
    refine ⟨hmem, State.side_semAddTo .., State.posted_semAddTo .., fun k => ?_⟩
    by_cases hk : k = a
    · rw [hk, if_pos rfl]
      exact hget
    · rw [if_neg fun h => hk (Option.some.inj h).symm, add_zero]
      exact hother k hk
/-- A turn of a list form: its next element, and after the last of them its signal. -/
theorem list_turn {s u : State} {g op ty : Nat} {p : Posted} {ps : List Posted} {xs : List W32} {sig : Option Reg16} {v : W64}
    (hq : (s.core g).posted = p :: ps) (hop : p.op = .list op ty xs sig) (hlen : p.done < xs.length)
    (h : s.applyOp (some g) p = { s := u, r := .ok v }) (hc : u.cores = s.cores) :
    ∃ t, exec (.postedOpApply (.core g) 0) s = .next t ∧ t.mem = u.mem ∧ t.side = u.side ∧
      (t.core g).posted = (if p.done + 1 < xs.length then { p with done := p.done + 1 } :: ps else ps) ∧
      ∀ k, (t.core g).sems.get k = (s.core g).sems.get k + if p.done + 1 = xs.length ∧ sig = some k then 1 else 0 := by
  obtain ⟨w, hw, hexec⟩ := applyCore_ok hq h hc
  have hcore : w.core g = s.core g := State.core_congr (hw.cores.trans hc) g
  have hside : w.side = u.side := by
    obtain ⟨z, hz⟩ := hw
    rw [hz]
  have hset (qs : List Posted) : (w.setPosted g qs).core g = { s.core g with posted := qs } := by
    rw [State.setPosted, State.core_setCore_self, hcore]
  have hcount : p.count = xs.length := by rw [Posted.count, hop]
  have hsig : p.sig = sig := by rw [Posted.sig, hop]
  rw [hcount, hsig] at hexec
  by_cases hd : p.done + 1 < xs.length
  · rw [if_pos hd] at hexec
    refine ⟨_, hexec, hw.mem, hside, ?_, fun k => ?_⟩
    · rw [if_pos hd, hset]
    · rw [hset, if_neg (by omega), add_zero]
  · rw [if_neg hd] at hexec
    obtain ⟨hmem, hsd, hposted, hsems⟩ := (w.setPosted g ps).signal_spec (p.agent (.core g .K)) g sig
    refine ⟨_, hexec, hmem.trans hw.mem, hsd.trans hside, ?_, fun k => ?_⟩
    · rw [if_neg hd, hposted, hset]
    · have hlast : p.done + 1 = xs.length := by omega
      rw [hsems, hset]
      simp [hlast]
theorem list_applies {s : State} {g op ty : Nat} {p : Posted} {ps : List Posted} {xs : List W32} {sig : Option Reg16}
    (hwf : Memory.wf s.mem = true) (hq : (s.core g).posted = p :: ps) (hop : p.op = .list op ty xs sig) (hty : ty ≠ 1)
    (hlen : p.done < xs.length) {e : Nat} (he : e = p.d.toNat + 4 * p.done) (ha : ShRange e 4) (hb : s.badIn (shKey e) 4 = false)
    (hp : s.poisoned (shKey e) = false) (hf : s.fmtOf (shKey e) = 0) :
    ∃ t, exec (.postedOpApply (.core g) 0) s = .next t ∧
      s.Put e 4 (nmaNew op ty false (s.shRd e 4) ((xs[p.done]?).getD 0).toNat 0) t ∧
      (t.core g).posted = (if p.done + 1 < xs.length then { p with done := p.done + 1 } :: ps else ps) ∧
      ∀ k, (t.core g).sems.get k = (s.core g).sems.get k + if p.done + 1 = xs.length ∧ sig = some k then 1 else 0 := by
  have hn : nmaBytes ty = 4 := if_neg hty
  have hy : ((xs[p.done]?).getD 0).toNat % 2 ^ (8 * 4) = ((xs[p.done]?).getD 0).toNat := by
    have := ((xs[p.done]?).getD 0).isLt
    omega
  obtain ⟨v, hv⟩ := State.nmaApply_ok op false ((xs[p.done]?).getD 0).toNat 0 (by rwa [hn]) hp (nmaFmt_of (ty := ty) (.inl hf))
  rw [hn, hy, Nat.zero_mod] at hv
  have happ : s.applyOp (some g) p = s.nmaApply op ty false e ((xs[p.done]?).getD 0).toNat 0 := by
    rw [State.applyOp, hop, he]
  obtain ⟨t, ht, hmem, hside, hposted, hsems⟩ := list_turn hq hop hlen (happ.trans hv) (State.cores_shWr ha _)
  exact ⟨t, ht, (State.put_shWr hwf ha _).congr hmem hside, hposted, hsems⟩

/-! ### Predictor tables (R84, R244) -/

theorem ptWrite_ok {s : State} {a n : Nat} (h : s.bankErr a n = none) (v : Nat) : ptWrite s a n v = { s := s.shWr a n v } := by
  rw [ptWrite, h]

section
variable {s : State} {g : Nat} {p : Posted} {ps : List Posted} (hwf : Memory.wf s.mem = true) (hq : (s.core g).posted = p :: ps)
  (ha : ShRange p.a.toNat ptSize)
include hwf hq ha

theorem ptWr_applies (hop : p.op = .ptWr) (hb : s.bankErr (ptEntry p.a.toNat (selLayer p.b) (selExpert p.b)) 4 = none) :
    ∃ t, exec (.postedOpApply (.core g) 0) s = .next t ∧ (t.core g).posted = ps ∧
      s.Put (ptEntry p.a.toNat (selLayer p.b) (selExpert p.b)) 4 p.d.toNat t := by
  have hl : selLayer p.b < 2 ^ 6 := fld_lt ..
  have he : selExpert p.b < 2 ^ 12 := fld_lt ..
  refine posted_puts (v := 0) hwf hq (by rw [hop]; rfl) (ha.sub ?_ ?_) ?_
  · unfold ptEntry
    omega
  · unfold ptEntry ptSize
    omega
  · rw [State.applyOp, hop]
    exact ptWrite_ok hb _
theorem ptHwr_applies (hop : p.op = .ptHwr) (hb : s.bankErr (ptHead p.a.toNat (selLayer p.b)) 8 = none) :
    ∃ t, exec (.postedOpApply (.core g) 0) s = .next t ∧ (t.core g).posted = ps ∧
      s.Put (ptHead p.a.toNat (selLayer p.b)) 8 p.d.toNat t := by
  have hl : selLayer p.b < 2 ^ 6 := fld_lt ..
  refine posted_puts (v := 0) hwf hq (by rw [hop]; rfl) (ha.sub ?_ ?_) ?_
  · unfold ptHead
    omega
  · unfold ptHead ptSize
    omega
  · rw [State.applyOp, hop]
    exact ptWrite_ok hb _
end

theorem foldl_range_induct {β : Type} {f : β → Nat → β} {b : β} {I : Nat → β → Prop} {N : Nat} (h0 : I 0 b)
    (hs : ∀ n < N, ∀ t, I n t → I (n + 1) (f t n)) : I N ((List.range N).foldl f b) := by
  induction N with
  | zero => exact h0
  | succ N ih =>
    rw [List.range_succ, List.foldl_append]
    exact hs N (by omega) _ (ih fun n hn => hs n (by omega))

/-- A held-fault entry whose first byte has lost its bit 0 (R84). -/
theorem State.shRd_held {s : State} (hwf : Memory.wf s.mem = true) {a : Nat} (ha : ShRange a 16) :
    (s.shWr a 1 (s.shRd a 1 / 2 * 2)).shRd a 16 = s.shRd a 16 / 2 * 2 := by
  have h1 : ShRange a 1 := ha.sub le_rfl (by omega)
  have hadd (t : State) : t.shRd a 16 = t.shRd a 1 + 2 ^ 8 * t.shRd (a + 1) 15 := by
    rw [State.shRd, Mem.readN_add _ _ 1 15, ← shKey_add ha]
    rfl
  have hlt : s.shRd a 1 < 2 ^ 8 := Mem.readN_lt ..
  rw [hadd, hadd, State.shRd_shWr_same hwf h1, State.shRd_shWr_apart hwf h1 _ (by have := ha.1; omega) (.inl (by omega))]
  omega

/-- The state t after the first n held-fault entries of a layer slot have been cleared. -/
structure State.HeldCleared (s : State) (base l n : Nat) (t : State) : Prop where
  wf : Memory.wf t.mem = true
  cores : t.cores = s.cores
  head : ∀ i k, i + k ≤ 16 → t.shRd (ptHead base l + i) k = s.shRd (ptHead base l + i) k
  held : ∀ j < 8, t.shRd (ptHeld base l j) 16 = if j < n then s.shRd (ptHeld base l j) 16 / 2 * 2 else s.shRd (ptHeld base l j) 16
theorem ptHeld_range {base l h : Nat} (hb : ShRange base ptSize) (hl : l < 64) (hh : h < 8) : ShRange (ptHeld base l h) 16 :=
  hb.sub (by unfold ptHeld; omega) (by unfold ptHeld ptSize; omega)
theorem ptHead_range {base l : Nat} (hb : ShRange base ptSize) (hl : l < 64) : ShRange (ptHead base l) 16 :=
  hb.sub (by unfold ptHead; omega) (by unfold ptHead ptSize; omega)

section
variable {s t : State} {base l n : Nat} (hb : ShRange base ptSize) (hl : l < 64)
include hb hl

theorem State.HeldCleared.step (h : s.HeldCleared base l n t) (hn : n < 8) :
    s.HeldCleared base l (n + 1) (t.shWr (ptHeld base l n) 1 (t.shRd (ptHeld base l n) 1 / 2 * 2)) := by
  have hr := ptHeld_range hb hl hn
  have h1 : ShRange (ptHeld base l n) 1 := hr.sub le_rfl (by omega)
  refine ⟨State.wf_shWr h.wf .., (State.cores_shWr h1 _).trans h.cores, fun i k hi => ?_, fun j hj => ?_⟩
  · rw [State.shRd_shWr_apart h.wf h1 _ (by have := (ptHead_range hb hl).1; omega) (.inr (by unfold ptHead ptHeld; omega)), h.head i k hi]
  · by_cases hjn : j = n
    · rw [hjn, State.shRd_held h.wf hr, h.held n hn, if_neg (by omega), if_pos (by omega)]
    · have hapart : Apart (ptHeld base l n) 1 (ptHeld base l j) 16 := by
        unfold Apart ptHeld
        omega
      rw [State.shRd_shWr_apart h.wf h1 _ (ptHeld_range hb hl hj).1 hapart, h.held j hj]
      congr 1
      exact propext (by omega)
theorem State.ptClear_spec (hwf : Memory.wf s.mem = true) : let t := s.ptClear base l
    t.cores = s.cores ∧ t.shRd (ptHead base l) 8 = s.shRd (ptHead base l) 8 - fld (s.shRd (ptHead base l) 8) 49 1 * 2 ^ 49 ∧
      t.shRd (ptHead base l + 8) 8 = 0 ∧ ∀ j < 8, t.shRd (ptHeld base l j) 16 = s.shRd (ptHeld base l j) 16 / 2 * 2 := by
  have hfold : s.HeldCleared base l 8 ((List.range 8).foldl (fun s h =>
      s.shWr (ptHeld base l h) 1 (s.shRd (ptHeld base l h) 1 / 2 * 2)) s) :=
    foldl_range_induct ⟨hwf, rfl, fun _ _ _ => rfl, fun _ _ => rfl⟩ fun n hn t h => h.step hb hl hn
  have hr := ptHead_range hb hl
  have hlo : ShRange (ptHead base l) 8 := hr.sub le_rfl (by omega)
  have hhi : ShRange (ptHead base l + 8) 8 := hr.sub (by omega) (by omega)
  simp only [State.ptClear]
  generalize List.foldl _ s (List.range 8) = u at hfold
  have hhead : u.shRd (ptHead base l) 8 = s.shRd (ptHead base l) 8 := hfold.head 0 8 (by omega)
  have hlt : s.shRd (ptHead base l) 8 < 2 ^ 64 := Mem.readN_lt ..
  have hwf' := State.wf_shWr hfold.wf (ptHead base l) 8 (u.shRd (ptHead base l) 8 - fld (u.shRd (ptHead base l) 8) 49 1 * 2 ^ 49)
  refine ⟨?_, ?_, ?_, fun j hj => ?_⟩
  · rw [State.cores_shWr hhi, State.cores_shWr hlo, hfold.cores]
  · rw [State.shRd_shWr_apart hwf' hhi _ hlo.1 (.inr (by omega)), State.shRd_shWr_same hfold.wf hlo, hhead, Nat.mod_eq_of_lt (by omega)]
  · rw [State.shRd_shWr_same hwf' hhi, Nat.zero_mod]
  · have hheld := ptHeld_range hb hl hj
    have hfar : ptHead base l + 16 ≤ ptHeld base l j := by
      unfold ptHead ptHeld
      omega
    rw [State.shRd_shWr_apart hwf' hhi _ hheld.1 (.inl (by omega)), State.shRd_shWr_apart hfold.wf hlo _ hheld.1 (.inl (by omega)),
      hfold.held j hj, if_pos hj]
end
theorem ptClr_applies {s : State} {g : Nat} {p : Posted} {ps : List Posted} (hwf : Memory.wf s.mem = true)
    (hq : (s.core g).posted = p :: ps) (hb : ShRange p.a.toNat ptSize) (hop : p.op = .ptClr) {l : Nat} (hl : l = selLayer p.b)
    (h1 : s.bankErr (ptHead p.a.toNat l) 16 = none) (h2 : s.bankErr (ptHeld p.a.toNat l 0) 128 = none) :
    ∃ t, exec (.postedOpApply (.core g) 0) s = .next t ∧ (t.core g).posted = ps ∧
      t.shRd (ptHead p.a.toNat l) 8 = s.shRd (ptHead p.a.toNat l) 8 - fld (s.shRd (ptHead p.a.toNat l) 8) 49 1 * 2 ^ 49 ∧
      t.shRd (ptHead p.a.toNat l + 8) 8 = 0 ∧
      ∀ j < 8, t.shRd (ptHeld p.a.toNat l j) 16 = s.shRd (ptHeld p.a.toNat l j) 16 / 2 * 2 := by
  have happ : s.applyOp (some g) p = { s := s.ptClear p.a.toNat l } := by
    simp only [State.applyOp, hop, ← hl, h1, h2, orElse]
    rfl
  have hl64 : l < 64 := hl ▸ fld_lt ..
  obtain ⟨hcores, hlo, hhi, hheld⟩ := State.ptClear_spec (s := s) hb hl64 hwf
  obtain ⟨t, ht, hposted, hrest⟩ := posted_rest hq (by rw [hop]; rfl) happ hcores
  have hrd := State.shRd_congr hrest.mem
  exact ⟨t, ht, hposted, (hrd ..).trans hlo, (hrd ..).trans hhi, fun j hj => (hrd ..).trans (hheld j hj)⟩

/-! ### Creels (R90, R245) -/

theorem State.creel_setCreel (s : State) (k : Nat) (c : Creel) : (s.setCreel k c).creel k = c := Map.getD_set_self ..

section
variable {s : State} {g : Nat} {p : Posted} {ps : List Posted} (hq : (s.core g).posted = p :: ps)
include hq

theorem creelCfg_applies (hop : p.op = .creelCfg) {nd : Nat} (hnd : nd = bf p.b 12 52 * 16)
    (h : nd = 0 ∨ s.sharedOk p.part nd 16 = true) :
    ∃ t, exec (.postedOpApply (.core g) 0) s = .next t ∧ (t.core g).posted = ps ∧ t.mem = s.mem ∧
      t.creel (creelKey p.a) = Creel.mk true (bf p.a 16 12) (bf p.b 0 12 + 1) (s.creel (creelKey p.a)).bias (w64 nd) [] false := by
  have hchk : (!(nd == 0) && !s.sharedOk p.part nd 16) = false := by
    obtain h | h := h <;> simp [h]
  have happ : s.applyOp (some g) p = 
      { s := s.setCreel (creelKey p.a) (.mk true (bf p.a 16 12) (bf p.b 0 12 + 1) (s.creel (creelKey p.a)).bias (w64 nd) [] false) } := by
    simp only [State.applyOp, hop, State.creelConfig, ← hnd, hchk]
    rfl
  obtain ⟨t, ht, hposted, hrest⟩ := posted_rest hq (by rw [hop]; rfl) happ rfl
  refine ⟨t, ht, hposted, hrest.mem, ?_⟩
  rw [State.creel, hrest.creels, ← State.creel, State.creel_setCreel]
theorem creelBias_applies (hop : p.op = .creelBias) :
    ∃ t, exec (.postedOpApply (.core g) 0) s = .next t ∧ (t.core g).posted = ps ∧ t.mem = s.mem ∧
      t.creel (creelKey p.a) = { s.creel (creelKey p.a) with bias := p.b.setWidth 32 } := by
  have happ : s.applyOp (some g) p = { s := s.setCreel (creelKey p.a) { s.creel (creelKey p.a) with bias := p.b.setWidth 32 } } := by
    rw [State.applyOp, hop]
  obtain ⟨t, ht, hposted, hrest⟩ := posted_rest hq (by rw [hop]; rfl) happ rfl
  refine ⟨t, ht, hposted, hrest.mem, ?_⟩
  rw [State.creel, hrest.creels, ← State.creel, State.creel_setCreel]
end
end Sys2Proof.Machine
end

section
/-! ## Posted operations (O37): sketches (R99-R107) -/
namespace Sys2Proof.Machine

/-! ### Descriptors (R99) -/

/-- What a checked sketch has. -/
structure Sketch.Valid (x : Sketch) : Prop where
  d : x.d ≤ 7
  kLow : 10 ≤ x.k
  kHigh : x.k ≤ 22
  base : x.base % 256 = 0
  ctrs : ShRange x.base x.size
  pairs : ShRange x.pairs 128
theorem sketchOk_fields {v : Nat} (h : sketchOk v = true) : fld v 0 3 ≤ 7 ∧ 10 ≤ fld v 8 5 ∧ fld v 8 5 ≤ 22 ∧ fld v 64 64 % 256 = 0 := by
  simp only [sketchOk, Bool.and_eq_true, beq_iff_eq, decide_eq_true_eq] at h
  obtain ⟨⟨⟨⟨⟨⟨-, hlo⟩, hhi⟩, -⟩, hb⟩, -⟩, -⟩ := h
  have : fld v 0 3 < 2 ^ 3 := fld_lt ..
  refine ⟨by omega, hlo, hhi, ?_⟩
  unfold fld at *
  omega
theorem State.sketch_spec {s : State} {part addr : Nat} {x : Sketch} (h : s.sketch part addr = .ok x) : x.addr = addr ∧ x.Valid := by
  unfold State.sketch at h
  split at h
  · cases h
  · extract_lets v y at h
    split at h
    · cases h
    · next hok =>
      split at h
      · cases h
      · next hbase =>
        split at h
        · cases h
        · next hpairs =>
          obtain rfl := Except.ok.inj h
          simp only [Bool.not_eq_true', Bool.not_eq_false, Bool.or_eq_true, not_or] at hok hbase hpairs
          obtain ⟨hd, hlo, hhi, hb⟩ := sketchOk_fields hok
          exact ⟨rfl, hd, hlo, hhi, hb, .of_sharedOk hbase.1, .of_sharedOk hpairs⟩

/-! ### Multiplier pairs (R101) -/

/-- The state t after the first n pairs have been written from a seed. -/
structure State.Seeded (s : State) (x : Sketch) (seed : W64) (n : Nat) (t : State) : Prop where
  wf : Memory.wf t.mem = true
  cores : t.cores = s.cores
  out : ∀ y, y < shKey x.pairs ∨ shKey x.pairs + 16 * x.d ≤ y → Mem.read t.mem y = Mem.read s.mem y
  vals : ∀ j < n, t.shRd (x.pairs + 16 * j) 8 = (mix64 (seed + w64 (2 * j + 1)) ||| 1).toNat ∧
    t.shRd (x.pairs + 16 * j + 8) 8 = (mix64 (seed + w64 (2 * j + 2))).toNat
theorem State.Seeded.step {s t : State} {x : Sketch} (hx : x.Valid) {seed : W64} {n : Nat} (h : s.Seeded x seed n t) (hn : n < x.d) :
    s.Seeded x seed (n + 1) ((t.shWr (x.pairs + 16 * n) 8 (mix64 (seed + w64 (2 * n + 1)) ||| 1).toNat).shWr
      (x.pairs + 16 * n + 8) 8 (mix64 (seed + w64 (2 * n + 2))).toNat) := by
  have hd := hx.d
  have hlow := hx.pairs.1
  have ha : ShRange (x.pairs + 16 * n) 8 := hx.pairs.sub (by omega) (by omega)
  have hb : ShRange (x.pairs + 16 * n + 8) 8 := hx.pairs.sub (by omega) (by omega)
  have hwf := State.wf_shWr h.wf (x.pairs + 16 * n) 8 (mix64 (seed + w64 (2 * n + 1)) ||| 1).toNat
  have hka := shKey_add hx.pairs (16 * n)
  have hkb := shKey_add hx.pairs (16 * n + 8)
  rw [← Nat.add_assoc] at hkb
  refine ⟨State.wf_shWr hwf .., ?_, fun y hy => ?_, fun j hj => ?_⟩
  · rw [State.cores_shWr hb, State.cores_shWr ha, h.cores]
  · rw [State.read_shWr_out hwf hb _ (by omega), State.read_shWr_out h.wf ha _ (by omega), h.out y hy]
  · by_cases hjn : j = n
    · rw [hjn, State.shRd_shWr_apart hwf hb _ ha.1 (.inr (by omega)), State.shRd_shWr_same h.wf ha, State.shRd_shWr_same hwf hb]
      exact ⟨Nat.mod_eq_of_lt (BitVec.isLt _), Nat.mod_eq_of_lt (BitVec.isLt _)⟩
    · obtain ⟨h1, h2⟩ := h.vals j (by omega)
      rw [State.shRd_shWr_apart hwf hb _ (by omega) (.inr (by omega)), State.shRd_shWr_apart h.wf ha _ (by omega) (.inr (by omega)),
        State.shRd_shWr_apart hwf hb _ (by omega) (.inr (by omega)), State.shRd_shWr_apart h.wf ha _ (by omega) (.inr (by omega))]
      exact ⟨h1, h2⟩
theorem State.seeded_skSeed {s : State} {x : Sketch} (hx : x.Valid) (hwf : Memory.wf s.mem = true) (seed : W64) :
    s.Seeded x seed x.d (s.skSeed x seed) :=
  foldl_range_induct ⟨hwf, rfl, fun _ _ => rfl, fun _ h => absurd h (Nat.not_lt_zero _)⟩ fun _ hn _ h => h.step hx hn

/-! ### A cleared sketch (R107) -/

theorem Mem.read_of_readN (m : List Host.Cell) (k n i : Nat) (hi : i < n) : Mem.read m (k + i) = BitVec.ofNat 8 (Mem.readN m k n / 2 ^ (8 * i)) := by
  obtain ⟨r, rfl⟩ : ∃ r, n = i + (1 + r) := ⟨n - i - 1, by omega⟩
  have hlt := Mem.readN_lt m k i
  rw [Mem.readN_add, Nat.add_mul_div_left _ _ (by positivity), Nat.div_eq_of_lt hlt, Nat.zero_add, Nat.add_comm 1 r, Mem.readN]
  apply BitVec.eq_of_toNat_eq
  have := (Mem.read m (k + i)).isLt
  rw [BitVec.toNat_ofNat]
  omega
/-- The SAT bits cleared leave a byte that is zero as it is. -/
theorem clearSat_byte {v i : Nat} (hv : v < 2 ^ 64) (hi : i < 8) (h : BitVec.ofNat 8 (v / 2 ^ (8 * i)) = 0) :
    BitVec.ofNat 8 ((v - fld v 40 7 * 2 ^ 40) / 2 ^ (8 * i)) = 0 := by
  have h' := congrArg BitVec.toNat h
  apply BitVec.eq_of_toNat_eq
  have h0 : (0 : Byte).toNat = 0 := rfl
  rw [h0] at h' ⊢
  simp only [BitVec.toNat_ofNat, fld] at h' ⊢
  interval_cases i <;> omega

/-- What the lines of a sketch are after their side bands have been set. -/
theorem State.sidesSet (s : State) (k n : Nat) : let t := (List.range n).foldl (fun s i => (s.setSide (k + 256 * i) 0x30).mend (k + 256 * i)) s
    t.mem = s.mem ∧ t.cores = s.cores ∧ ∀ i < n, t.sideOf (k + 256 * i) = 0x30 := by
  refine foldl_range_induct (I := fun n (t : State) => t.mem = s.mem ∧ t.cores = s.cores ∧ ∀ i < n, t.sideOf (k + 256 * i) = 0x30)
    ⟨rfl, rfl, fun i h => absurd h (Nat.not_lt_zero _)⟩ fun n _ t ⟨hm, hc, hs⟩ => ⟨hm, hc, fun i hi => ?_⟩
  change (t.setSide (k + 256 * n) 0x30).sideOf (k + 256 * i) = _
  rw [State.sideOf_setSide]
  split
  · rfl
  · next hne => exact hs i (by omega)
theorem State.skClear_spec {s : State} {x : Sketch} (hx : x.Valid) (ha : ShRange x.addr 8) (hwf : Memory.wf s.mem = true) : let t := s.skClear x
    t.cores = s.cores ∧ (∀ b < x.size, Mem.read t.mem (shKey x.base + b) = 0) ∧ (∀ b < x.size, t.sideOf (shKey x.base + b) = 0x30) ∧
      fld (t.shRd x.addr 8) 40 7 = 0 := by
  simp only [State.skClear]
  obtain ⟨hmem, hcores, hside⟩ := State.sidesSet ({ s with mem := Mem.clearRange s.mem (shKey x.base) (shKey x.base + x.size) } : State)
    (shKey x.base) (x.size / 256)
  generalize List.foldl _ _ (List.range (x.size / 256)) = u at hmem hcores hside
  have hwf' : Memory.wf u.mem = true := hmem ▸ Memory.wf_clearRange _ _ hwf
  have hzero (b : Nat) (hb : b < x.size) : Mem.read u.mem (shKey x.base + b) = 0 := by
    rw [hmem, Mem.read_clearRange, if_pos (by omega)]
    rfl
  have hv : u.shRd x.addr 8 < 2 ^ 64 := Mem.readN_lt ..
  have hsize : x.size % 256 = 0 := by
    have hk := hx.kLow
    rw [Sketch.size, show x.k + 2 = 8 + (x.k - 6) by omega, pow_add, Nat.mul_left_comm]
    exact Nat.mul_mod_right 256 _
  refine ⟨?_, fun b hb => ?_, fun b hb => ?_, ?_⟩
  · rw [State.cores_shWr ha, hcores]
  · by_cases hin : shKey x.addr ≤ shKey x.base + b ∧ shKey x.base + b < shKey x.addr + 8
    · obtain ⟨i, hi⟩ : ∃ i, shKey x.base + b = shKey x.addr + i := ⟨shKey x.base + b - shKey x.addr, by omega⟩
      have h0 := hzero b hb
      rw [hi, Mem.read_of_readN _ _ 8 i (by omega)] at h0
      rw [hi, State.mem_shWr ha, Mem.read_writeN _ _ _ _ hwf' (by omega)]
      exact clearSat_byte hv (by omega) h0
    · rw [State.read_shWr_out hwf' ha _ (by omega), hzero b hb]
  · have hkey : shKey x.base % 256 = 0 := by
      have := hx.base
      have := hx.ctrs.1
      unfold shKey sharedKey
      omega
    have hline := hside (b / 256) (by omega)
    rw [State.sideOf, State.side_shWr ha, ← State.sideOf]
    rw [State.sideOf, show (shKey x.base + 256 * (b / 256)) / 256 = (shKey x.base + b) / 256 by omega, ← State.sideOf] at hline
    exact hline
  · rw [State.shRd_shWr_same hwf' ha]
    unfold fld
    omega

section
variable {s : State} {g : Nat} {p : Posted} {ps : List Posted} {x : Sketch} (hwf : Memory.wf s.mem = true)
  (hq : (s.core g).posted = p :: ps) (hx : s.sketch p.part p.a.toNat = .ok x)
include hwf hq hx

theorem skSeed_applies (hop : p.op = .skSeed) :
    ∃ t, exec (.postedOpApply (.core g) 0) s = .next t ∧ (t.core g).posted = ps ∧
      (∀ y, y < shKey x.pairs ∨ shKey x.pairs + 16 * x.d ≤ y → Mem.read t.mem y = Mem.read s.mem y) ∧
      ∀ j < x.d, t.shRd (x.pairs + 16 * j) 8 = (mix64 (p.b + w64 (2 * j + 1)) ||| 1).toNat ∧
        t.shRd (x.pairs + 16 * j + 8) 8 = (mix64 (p.b + w64 (2 * j + 2))).toNat := by
  have h := State.seeded_skSeed (State.sketch_spec hx).2 hwf p.b
  have happ : s.applyOp (some g) p = { s := s.skSeed x p.b } := by
    simp only [State.applyOp, hop, withSketch, hx, Applied.with]
  obtain ⟨t, ht, hposted, hrest⟩ := posted_rest hq (by rw [hop]; rfl) happ h.cores
  refine ⟨t, ht, hposted, fun y hy => ?_, fun j hj => ?_⟩
  · rw [hrest.mem, h.out y hy]
  · rw [State.shRd_congr hrest.mem, State.shRd_congr hrest.mem]
    exact h.vals j hj
theorem skClr_applies (hop : p.op = .skClr) (ha : ShRange p.a.toNat 64) :
    ∃ t, exec (.postedOpApply (.core g) 0) s = .next t ∧ (t.core g).posted = ps ∧
      (∀ b < x.size, Mem.read t.mem (shKey x.base + b) = 0) ∧ (∀ b < x.size, t.sideOf (shKey x.base + b) = 0x30) ∧
      fld (t.shRd p.a.toNat 8) 40 7 = 0 := by
  obtain ⟨haddr, hvalid⟩ := State.sketch_spec hx
  have ha8 : ShRange x.addr 8 := haddr ▸ ha.sub le_rfl (by omega)
  have happ : s.applyOp (some g) p = { s := s.skClear x } := by
    simp only [State.applyOp, hop, withSketch, hx, Applied.with]
  obtain ⟨hcores, hmem, hside, hsat⟩ := State.skClear_spec hvalid ha8 hwf
  obtain ⟨t, ht, hposted, hrest⟩ := posted_rest hq (by rw [hop]; rfl) happ hcores
  refine ⟨t, ht, hposted, fun b hb => ?_, fun b hb => ?_, ?_⟩
  · rw [hrest.mem, hmem b hb]
  · rw [State.sideOf, hrest.side, ← State.sideOf, hside b hb]
  · rw [State.shRd_congr hrest.mem, ← haddr, hsat]
end
end Sys2Proof.Machine
end

section
/-! ## Posted operations (O37): the counters of a sketch (R103, R104, R106) -/
namespace Sys2Proof.Machine

/-! ### Values of counters (R103) -/

/-- A counter as R103 reads it: -2^31 counts as -2^31 + 1. -/
def State.ctrVal (s : State) (a : Nat) : Int := max (-2 ^ 31 + 1) (BitVec.ofNat 32 (s.shRd a 4)).toInt
/-- A value brought into the range of counters. -/
def clampCtr (v : Int) : Int := max (-2 ^ 31 + 1) (min (2 ^ 31 - 1) v)

theorem sextN_eq_toInt {v : Nat} (h : v < 2 ^ 32) : sextN 32 v = (BitVec.ofNat 32 v).toInt := by
  rw [BitVec.toInt_eq_toNat_cond, BitVec.toNat_ofNat, Nat.mod_eq_of_lt h]
  unfold sextN fld
  split <;> split <;> omega
theorem State.ctrRead_eq (s : State) (a : Nat) : s.ctrRead a = (s.ctrVal a, decide (s.shRd a 4 = 2 ^ 31)) := by
  have hlt : s.shRd a 4 < 2 ^ 32 := Mem.readN_lt ..
  simp only [State.ctrRead, State.ctrVal, sextN_eq_toInt hlt, ctrMax]
  rw [BitVec.toInt_eq_toNat_cond, BitVec.toNat_ofNat, Nat.mod_eq_of_lt hlt]
  generalize s.shRd a 4 = v at *
  split <;> split <;> simp <;> omega
theorem satRow_eq (v : Int) : satRow v = (clampCtr v, decide (clampCtr v ≠ v)) := by
  have h : (v < -ctrMax ∨ ctrMax < v) ↔ clampCtr v ≠ v := by
    unfold clampCtr ctrMax
    omega
  have h1 : max (-ctrMax) (min ctrMax v) = clampCtr v := by
    unfold clampCtr ctrMax
    omega
  rw [satRow, h1, ← Bool.decide_or, decide_eq_decide.2 h]
theorem State.ctrVal_of_shRd {t : State} {a : Nat} {v : Int} (h : t.shRd a 4 = (clampCtr v % 2 ^ 32).toNat % 2 ^ (8 * 4)) :
    t.ctrVal a = clampCtr v := by
  rw [State.ctrVal, h, BitVec.toInt_eq_toNat_cond, BitVec.toNat_ofNat]
  have h1 : -2 ^ 31 + 1 ≤ clampCtr v := le_max_left ..
  have h2 : clampCtr v ≤ 2 ^ 31 - 1 := by
    unfold clampCtr
    omega
  split <;> omega
theorem State.ctrVal_congr {s t : State} {a : Nat} (h : t.shRd a 4 = s.shRd a 4) : t.ctrVal a = s.ctrVal a := by
  rw [State.ctrVal, h, State.ctrVal]

/-! ### SAT bits (R99, R103) -/

/-- The state t has further SAT bits set in a descriptor, and nothing else in memory has changed. -/
structure State.SatSet (s : State) (x : Sketch) (bits : Nat) (t : State) : Prop where
  wf : Memory.wf t.mem = true
  cores : t.cores = s.cores
  out : ∀ y, y < shKey x.addr ∨ shKey x.addr + 8 ≤ y → Mem.read t.mem y = Mem.read s.mem y
  sat : ∀ i < 24, (t.shRd x.addr 8).testBit (40 + i) = ((s.shRd x.addr 8).testBit (40 + i) || bits.testBit i)
theorem State.satSet_setSat {s : State} (hwf : Memory.wf s.mem = true) {x : Sketch} (ha : ShRange x.addr 8) (bits : Nat) :
    s.SatSet x bits (s.setSat x bits) := by
  unfold State.setSat
  split
  · next h0 => exact ⟨hwf, rfl, fun _ _ => rfl, fun i _ => by simp [h0]⟩
  · refine ⟨State.wf_shWr hwf .., State.cores_shWr ha _, fun y hy => State.read_shWr_out hwf ha _ hy, fun i hi => ?_⟩
    rw [State.shRd_shWr_same hwf ha, Nat.testBit_mod_two_pow, Nat.testBit_or, Nat.testBit_mul_two_pow]
    simp
    omega

/-! ### Counters written one after another -/

section
variable (s : State) (x : Sketch) (a : Nat → Nat) (v : Nat → Int) (b : Nat → Nat)

/-- The state t after the first n of the counters at `a` have been set to `v`, clamped, with the SAT bits `b`. -/
structure State.CtrsSet (n : Nat) (t : State) : Prop where
  wf : Memory.wf t.mem = true
  cores : t.cores = s.cores
  out : ∀ y, (y < shKey x.addr ∨ shKey x.addr + 8 ≤ y) → (∀ j < n, y < shKey (a j) ∨ shKey (a j) + 4 ≤ y) →
    Mem.read t.mem y = Mem.read s.mem y
  vals : ∀ j < n, t.ctrVal (a j) = clampCtr (v j)
  sat : ∀ i < 24, (t.shRd x.addr 8).testBit (40 + i) = true ↔
    (s.shRd x.addr 8).testBit (40 + i) = true ∨ ∃ j < n, (b j).testBit i = true
/-- Counters in shared memory that have no byte in common, neither with each other nor with the descriptor. -/
structure Sketch.Separate (N : Nat) : Prop where
  desc : ShRange x.addr 8
  ctrs : ∀ j < N, ShRange (a j) 4
  far : ∀ j < N, Apart (a j) 4 x.addr 8
  ne : ∀ i < N, ∀ j < N, i ≠ j → Apart (a i) 4 (a j) 4
end

section
variable {s t : State} {x : Sketch} {a : Nat → Nat} {v : Nat → Int} {b : Nat → Nat} {n N : Nat}

theorem State.CtrsSet.zero (hwf : Memory.wf s.mem = true) : s.CtrsSet x a v b 0 s :=
  ⟨hwf, rfl, fun _ _ _ => rfl, fun _ h => absurd h (Nat.not_lt_zero _), fun i _ => by simp⟩
/-- What lies apart from the descriptor's word and from the counters reads as before. -/
theorem State.CtrsSet.shRd (h : s.CtrsSet x a v b n t) (hs : x.Separate a N) (hn : n ≤ N) {c k : Nat} (hc : 2 ^ 32 ≤ c)
    (hd : Apart c k x.addr 8) (hfar : ∀ j < n, Apart c k (a j) 4) : t.shRd c k = s.shRd c k := by
  have hlow := hs.desc.1
  refine Mem.readN_congr _ _ fun i hi => h.out _ ?_ fun j hj => ?_
  · unfold Apart at hd
    unfold shKey sharedKey
    omega
  · have hj2 := (hs.ctrs j (by omega)).1
    have := hfar j hj
    unfold Apart at this
    unfold shKey sharedKey
    omega
theorem State.CtrsSet.step (h : s.CtrsSet x a v b n t) (hs : x.Separate a N) (hn : n < N) :
    s.CtrsSet x a v b (n + 1) ((t.shWr (a n) 4 (clampCtr (v n) % 2 ^ 32).toNat).setSat x (b n)) := by
  have ha := hs.ctrs n hn
  have hfar := hs.far n hn
  have hput := State.put_shWr h.wf ha (clampCtr (v n) % 2 ^ 32).toNat
  have hcores := (State.cores_shWr (s := t) ha (clampCtr (v n) % 2 ^ 32).toNat).trans h.cores
  have hdesc : (t.shWr (a n) 4 (clampCtr (v n) % 2 ^ 32).toNat).shRd x.addr 8 = t.shRd x.addr 8 :=
    State.shRd_shWr_apart h.wf ha _ hs.desc.1 hfar
  have hset := State.satSet_setSat (State.wf_shWr h.wf (a n) 4 (clampCtr (v n) % 2 ^ 32).toNat) hs.desc (b n)
  have hmid (j : Nat) (hj : j < n) : (t.shWr (a n) 4 (clampCtr (v n) % 2 ^ 32).toNat).shRd (a j) 4 = t.shRd (a j) 4 :=
    State.shRd_shWr_apart h.wf ha _ (hs.ctrs j (by omega)).1 (hs.ne n hn j (by omega) (by omega))
  generalize t.shWr (a n) 4 _ = u at *
  generalize u.setSat x (b n) = w at *
  have hread (j : Nat) (hj : j < N) : w.shRd (a j) 4 = u.shRd (a j) 4 := by
    refine Mem.readN_congr _ _ fun i hi => hset.out _ ?_
    have := hs.far j hj
    have := (hs.ctrs j hj).1
    have := hs.desc.1
    unfold Apart at *
    unfold shKey sharedKey
    omega
  refine ⟨hset.wf, hset.cores.trans hcores, fun y hy hj => ?_, fun j hj => ?_, fun i hi => ?_⟩
  · rw [hset.out y hy, hput.out y (hj n (by omega)), h.out y hy fun j hjn => hj j (by omega)]
  · obtain hjn | rfl : j < n ∨ j = n := by omega
    · rw [State.ctrVal_congr ((hread j (by omega)).trans (hmid j hjn)), h.vals j hjn]
    · exact State.ctrVal_of_shRd ((hread j hn).trans hput.val)
  · rw [hset.sat i hi, hdesc, Bool.or_eq_true, h.sat i hi, or_assoc]
    refine or_congr_right ⟨?_, ?_⟩
    · rintro (⟨j, hj, hb⟩ | hb)
      · exact ⟨j, by omega, hb⟩
      · exact ⟨n, by omega, hb⟩
    · rintro ⟨j, hj, hb⟩
      obtain hjn | rfl : j < n ∨ j = n := by omega
      · exact .inl ⟨j, hjn, hb⟩
      · exact .inr hb
end
end Sys2Proof.Machine
end

section
/-! ## Posted operations (O37): updates and sums of sketches (R104, R106) -/
namespace Sys2Proof.Machine

/-! ### Where counters stand (R99) -/

theorem Sketch.size_eq (x : Sketch) : x.size = x.d * 2 ^ x.k * 4 := by
  rw [Sketch.size, pow_add, ← Nat.mul_assoc]
  rfl
theorem Sketch.ctr_index {x : Sketch} {j col : Nat} (hj : j < x.d) (hc : col < 2 ^ x.k) : j * 2 ^ x.k + col < x.d * 2 ^ x.k := by
  have := Nat.mul_le_mul_right (2 ^ x.k) (Nat.succ_le_of_lt hj)
  rw [Nat.succ_mul] at this
  omega
theorem Sketch.index_inj {K j col j' col' : Nat} (hc : col < K) (hc' : col' < K) (h : j * K + col = j' * K + col') : j = j' ∧ col = col' := by
  have hK : 0 < K := by omega
  have h1 : (K * j + col) / K = (K * j' + col') / K := by rw [Nat.mul_comm K j, Nat.mul_comm K j', h]
  rw [Nat.mul_add_div hK, Nat.mul_add_div hK, Nat.div_eq_of_lt hc, Nat.div_eq_of_lt hc'] at h1
  obtain rfl : j = j' := by omega
  exact ⟨rfl, by omega⟩
theorem Sketch.ctr_apart {x : Sketch} {j col j' col' : Nat} (hc : col < 2 ^ x.k) (hc' : col' < 2 ^ x.k) (h : j ≠ j' ∨ col ≠ col') :
    Apart (x.ctr j col) 4 (x.ctr j' col') 4 := by
  have hne : j * 2 ^ x.k + col ≠ j' * 2 ^ x.k + col' := fun he => by
    obtain ⟨h1, h2⟩ := Sketch.index_inj hc hc' he
    exact h.elim (· h1) (· h2)
  unfold Apart Sketch.ctr
  omega
theorem Apart.sub {a n b k c m : Nat} (h : Apart a n b k) (hlo : b ≤ c) (hhi : c + m ≤ b + k) : Apart a n c m := by
  unfold Apart at *
  omega
theorem Apart.symm {a n b k : Nat} (h : Apart a n b k) : Apart b k a n := Or.symm h
theorem Sketch.ctr_range {x : Sketch} {j col : Nat} (hj : j < x.d) (hc : col < 2 ^ x.k) :
    x.base ≤ x.ctr j col ∧ x.ctr j col + 4 ≤ x.base + x.size := by
  have := Sketch.ctr_index hj hc
  rw [Sketch.size_eq, Sketch.ctr]
  omega
theorem State.skHash_lt (s : State) {x : Sketch} (hk : x.k ≤ 64) (j : Nat) (i : W64) : (s.skHash x j i).1 < 2 ^ x.k := by
  simp only [State.skHash]
  refine Nat.div_lt_of_lt_mul ?_
  rw [← pow_add, show 64 - x.k + x.k = 64 by omega]
  exact Nat.mod_lt _ (by positivity)

/-! ### One update (R104) -/

/-- The counter of row j that an update touches. -/
def State.updAddr (s : State) (x : Sketch) (i : W64) (j : Nat) : Nat := x.ctr j (s.skHash x j i).1
/-- Its exact new value. -/
def State.updVal (s : State) (x : Sketch) (i : W64) (n : Int) (j : Nat) : Int :=
  s.ctrVal (s.updAddr x i j) + if (s.skHash x j i).2 then -n else n
/-- The SAT bit that it sets. -/
def State.updSat (s : State) (x : Sketch) (i : W64) (n : Int) (j : Nat) : Nat :=
  if s.shRd (s.updAddr x i j) 4 = 2 ^ 31 ∨ clampCtr (s.updVal x i n j) ≠ s.updVal x i n j then 2 ^ j else 0
/-- A row of an update. -/
def State.updRow (x : Sketch) (i : W64) (n : Int) (s : State) (j : Nat) : State :=
  let h := s.skHash x j i
  let c := s.ctrRead (x.ctr j h.1)
  let r := satRow (c.1 + (if h.2 then -n else n))
  (s.shWr (x.ctr j h.1) 4 (r.1 % 2 ^ 32).toNat).setSat x (if c.2 || r.2 then 2 ^ j else 0)

theorem State.updRow_eq (s : State) (x : Sketch) (i : W64) (n : Int) (j : Nat) : State.updRow x i n s j =
    (s.shWr (s.updAddr x i j) 4 (clampCtr (s.updVal x i n j) % 2 ^ 32).toNat).setSat x (s.updSat x i n j) := by
  have hsat : (if (decide (s.shRd (s.updAddr x i j) 4 = 2 ^ 31) || decide (clampCtr (s.updVal x i n j) ≠ s.updVal x i n j)) = true
      then 2 ^ j else 0) = s.updSat x i n j := by
    rw [State.updSat, ← Bool.decide_or]
    simp only [decide_eq_true_eq]
  rw [← hsat]
  simp only [State.updRow, State.ctrRead_eq, satRow_eq, State.updAddr, State.updVal]
  rfl
theorem State.updSat_bit (s : State) (x : Sketch) (i : W64) (n : Int) (j m : Nat) : (s.updSat x i n j).testBit m = true ↔
    j = m ∧ (s.shRd (s.updAddr x i j) 4 = 2 ^ 31 ∨ clampCtr (s.updVal x i n j) ≠ s.updVal x i n j) := by
  unfold State.updSat
  split
  · next h => rw [Nat.testBit_two_pow, decide_eq_true_eq, and_iff_left h]
  · next h => exact iff_of_false (by simp) fun hm => h hm.2

section
variable {s t : State} {x : Sketch} {i : W64} {n : Int} (hx : x.Valid)
include hx

/-- While counters are set, the pairs and what they hash to stand. -/
theorem State.CtrsSet.skHash {a : Nat → Nat} {v : Nat → Int} {b : Nat → Nat} {m N : Nat} (h : s.CtrsSet x a v b m t)
    (hs : x.Separate a N) (hm : m ≤ N) (hin : ∀ j < N, x.base ≤ a j ∧ a j + 4 ≤ x.base + x.size)
    (hp : Apart x.pairs 128 x.base x.size) (hpd : Apart x.pairs 128 x.addr 64) {j : Nat} (hj : j < x.d) : t.skHash x j i = s.skHash x j i := by
  have hrd (e : Nat) (he : x.pairs ≤ e ∧ e + 8 ≤ x.pairs + 128) : t.shRd e 8 = s.shRd e 8 := by
    have hsub (c k : Nat) (h : Apart x.pairs 128 c k) : Apart e 8 c k := (h.symm.sub he.1 he.2).symm
    refine h.shRd hs hm (by have := hx.pairs.1; omega) ((hsub _ _ hpd).sub le_rfl (by omega)) fun l hl => ?_
    exact (hsub _ _ hp).sub (hin l (by omega)).1 (hin l (by omega)).2
  have hd7 := hx.d
  simp only [State.skHash, State.pair]
  rw [hrd _ (by omega), hrd _ (by omega)]

variable (hd : ShRange x.addr 64) (hfar : Apart x.addr 64 x.base x.size)
include hd hfar

theorem Sketch.separate_updAddr (s : State) (i : W64) : x.Separate (s.updAddr x i) x.d := by
  have hk : x.k ≤ 64 := hx.kHigh.trans (by norm_num)
  have hrange (j : Nat) (hj : j < x.d) := Sketch.ctr_range hj (s.skHash_lt hk j i)
  refine ⟨hd.sub le_rfl (by omega), fun j hj => ?_, fun j hj => ?_, fun j _ j' _ hne => ?_⟩
  · exact hx.ctrs.sub (hrange j hj).1 (hrange j hj).2
  · exact ((hfar.sub (hrange j hj).1 (hrange j hj).2).symm).sub le_rfl (by omega)
  · exact Sketch.ctr_apart (s.skHash_lt hk j i) (s.skHash_lt hk j' i) (.inl hne)
theorem State.ctrsSet_update (hp : Apart x.pairs 128 x.base x.size) (hpd : Apart x.pairs 128 x.addr 64) (hwf : Memory.wf s.mem = true) :
    s.CtrsSet x (s.updAddr x i) (s.updVal x i n) (s.updSat x i n) x.d ((List.range x.d).foldl (State.updRow x i n) s) := by
  have hs := Sketch.separate_updAddr hx hd hfar s i
  have hk : x.k ≤ 64 := hx.kHigh.trans (by norm_num)
  refine foldl_range_induct (.zero hwf) fun j hj t h => ?_
  have hhash : t.skHash x j i = s.skHash x j i :=
    h.skHash hx hs (by omega) (fun l hl => Sketch.ctr_range hl (s.skHash_lt hk l i)) hp hpd hj
  have haddr : t.updAddr x i j = s.updAddr x i j := by rw [State.updAddr, hhash, State.updAddr]
  have hrd : t.shRd (s.updAddr x i j) 4 = s.shRd (s.updAddr x i j) 4 :=
    h.shRd hs (by omega) (hs.ctrs j hj).1 (hs.far j hj) fun l hl => hs.ne j hj l (by omega) (by omega)
  have hval : t.updVal x i n j = s.updVal x i n j := by rw [State.updVal, haddr, hhash, State.ctrVal_congr hrd, State.updVal]
  have hsat : t.updSat x i n j = s.updSat x i n j := by rw [State.updSat, haddr, hrd, hval, State.updSat]
  rw [State.updRow_eq, haddr, hval, hsat]
  exact h.step hs hj
end

/-! ### The value of an update (R104) -/

theorem skScaled_nan (es : Int) {v : W32} (h : ofBits v.toNat = .nan true ∨ ofBits v.toNat = .nan false) : skScaled es v = none := by
  obtain h | h := h <;> rw [skScaled, h]
/-- The value of a finite update: rounded to the nearest integer, ties to even, and clamped. -/
theorem skScaled_fin (es : Int) {v : W32} {neg : Bool} {m : Nat} {e : Int} (h : ofBits v.toNat = .fin neg m e) :
    ∃ k : Nat, |(k : ℚ) - m * 2 ^ (e + es)| ≤ 1 / 2 ∧ (|(k : ℚ) - m * 2 ^ (e + es)| = 1 / 2 → k % 2 = 0) ∧
      skScaled es v = some (clampCtr (withSign neg k), decide (2 ^ 31 ≤ k)) := by
  have hr := (rounded_roundAt neg m (e + es) 0 (d := 0) (by norm_num : 0 < 4) le_rfl one_pos fun _ => rfl).nearest rfl
  simp only [ne_eq, not_true_eq_false, decide_false, add_zero, sub_zero] at hr
  refine ⟨(roundAt 0 neg m (e + es) 0 false).1, hr, fun ht => roundAt_tie (q := 0) (by rwa [sub_zero]), ?_⟩
  have hall (k : Nat) : decide (clampCtr (withSign neg k) ≠ withSign neg k) = decide (2 ^ 31 ≤ k) := by
    refine decide_eq_decide.2 ?_
    unfold clampCtr withSign
    split <;> omega
  rw [skScaled, h]
  simp only [satRow_eq]
  rw [← hall]
  rfl

/-- The hash of a row before it is cut into column and sign (R102). -/
def State.skMix (s : State) (x : Sketch) (i : W64) (j : Nat) : Nat :=
  (i.toNat ^^^ s.shRd (x.pairs + 16 * j + 8) 8) * s.shRd (x.pairs + 16 * j) 8 % 2 ^ 64
theorem State.skHash_eq (s : State) (x : Sketch) (i : W64) (j : Nat) :
    s.skHash x j i = (s.skMix x i j / 2 ^ (64 - x.k), (s.skMix x i j).testBit (63 - x.k)) := by
  rw [Nat.testBit_eq_decide_div_mod_eq]
  exact Prod.ext rfl (beq_eq_decide ..)
theorem Sketch.allRows_bit (x : Sketch) {j : Nat} (hj : j < x.d) : x.allRows.testBit j = true := by
  rw [Sketch.allRows, Nat.testBit_two_pow_sub_one, decide_eq_true hj]

/-- What an update of a checked sketch with the scaled value n leaves: each row's counter at the hashed column is added to, its
SAT bit set where the sum was cut or the counter held -2^31, or in all rows where the value itself was cut. -/
structure State.Updated (s : State) (x : Sketch) (i : W64) (n : Int) (all : Bool) (t : State) : Prop where
  val : ∀ j < x.d, t.ctrVal (s.updAddr x i j) = clampCtr (s.updVal x i n j)
  sat : ∀ j < x.d, (t.shRd x.addr 8).testBit (40 + j) = true ↔ (s.shRd x.addr 8).testBit (40 + j) = true ∨
    clampCtr (s.updVal x i n j) ≠ s.updVal x i n j ∨ s.shRd (s.updAddr x i j) 4 = 2 ^ 31 ∨ all = true
  other : ∀ j < x.d, ∀ col < 2 ^ x.k, col ≠ (s.skHash x j i).1 → t.shRd (x.ctr j col) 4 = s.shRd (x.ctr j col) 4

/-- The rows of an update in the terms of R102: by the hash of the row, cut into column and sign. -/
theorem State.Updated.row {s t : State} {x : Sketch} {i : W64} {n : Int} {all : Bool} (hupd : s.Updated x i n all t) {j : Nat} (hj : j < x.d) :
    let h := s.skMix x i j
    let a := x.ctr j (h / 2 ^ (64 - x.k))
    let z := s.ctrVal a + if h.testBit (63 - x.k) then -n else n
    t.ctrVal a = clampCtr z ∧ ((t.shRd x.addr 8).testBit (40 + j) = true ↔ (s.shRd x.addr 8).testBit (40 + j) = true ∨
        clampCtr z ≠ z ∨ s.shRd a 4 = 2 ^ 31 ∨ all = true) ∧
      ∀ col < 2 ^ x.k, col ≠ h / 2 ^ (64 - x.k) → t.shRd (x.ctr j col) 4 = s.shRd (x.ctr j col) 4 := by
  intro h a z
  have ha : s.updAddr x i j = a := by rw [State.updAddr, State.skHash_eq]
  have hz : s.updVal x i n j = z := by rw [State.updVal, ha, State.skHash_eq]
  have hval := hupd.val j hj
  have hsat := hupd.sat j hj
  have hother := hupd.other j hj
  rw [ha, hz] at hval hsat
  rw [State.skHash_eq] at hother
  exact ⟨hval, hsat, hother⟩

section
variable {s : State} {x : Sketch} (hx : x.Valid) (hd : ShRange x.addr 64) (hfar : Apart x.addr 64 x.base x.size)
include hx hd hfar

theorem State.updated_skUpdate {i : W64} {v : W32} {n : Int} {all : Bool} (hp : Apart x.pairs 128 x.base x.size)
    (hpd : Apart x.pairs 128 x.addr 64) (hwf : Memory.wf s.mem = true) (hv : skScaled x.es v = some (n, all))
    (herr : s.hashErr x i = none) : ∃ t, s.skUpdate x i v = { s := t } ∧ t.cores = s.cores ∧ s.Updated x i n all t := by
  have hs := Sketch.separate_updAddr hx hd hfar s i
  have hc := State.ctrsSet_update (s := s) (i := i) (n := n) hx hd hfar hp hpd hwf
  have heq : s.skUpdate x i v =
      { s := ((List.range x.d).foldl (State.updRow x i n) s).setSat x (if all then x.allRows else 0) } := by
    simp only [State.skUpdate, hv, herr]
    rfl
  generalize List.foldl _ s _ = u at hc heq
  have hw := State.satSet_setSat hc.wf hs.desc (if all then x.allRows else 0)
  generalize u.setSat x _ = w at hw heq
  have hk : x.k ≤ 64 := hx.kHigh.trans (by norm_num)
  have hread (j : Nat) (hj : j < x.d) (col : Nat) (hcol : col < 2 ^ x.k) : w.shRd (x.ctr j col) 4 = u.shRd (x.ctr j col) 4 := by
    obtain ⟨hlo, hhi⟩ := Sketch.ctr_range hj hcol
    refine Mem.readN_congr _ _ fun l hl => hw.out _ ?_
    have := hx.ctrs.1
    have := hd.1
    unfold Apart at hfar
    unfold shKey sharedKey
    omega
  refine ⟨w, heq, hw.cores.trans hc.cores, fun j hj => ?_, fun j hj => ?_, fun j hj col hcol hne => ?_⟩
  · exact (State.ctrVal_congr (hread j hj _ (s.skHash_lt hk j i))).trans (hc.vals j hj)
  · have hd7 := hx.d
    have hall : (if all then x.allRows else 0).testBit j = all := by
      cases all
      · exact Nat.zero_testBit j
      · exact x.allRows_bit hj
    have hrows : (∃ m < x.d, (s.updSat x i n m).testBit j = true) ↔
        clampCtr (s.updVal x i n j) ≠ s.updVal x i n j ∨ s.shRd (s.updAddr x i j) 4 = 2 ^ 31 := by
      simp only [State.updSat_bit]
      exact ⟨fun ⟨m, _, hm, h⟩ => hm ▸ h.symm, fun h => ⟨j, hj, rfl, h.symm⟩⟩
    rw [hw.sat j (by omega), hall, Bool.or_eq_true, hc.sat j (by omega), hrows, or_assoc, or_assoc]
  · rw [hread j hj col hcol]
    have hrange := Sketch.ctr_range hj hcol
    refine hc.shRd hs le_rfl (hx.ctrs.sub hrange.1 hrange.2).1 ((hfar.sub hrange.1 hrange.2).symm.sub le_rfl (by omega)) fun m _ => ?_
    refine Sketch.ctr_apart hcol (s.skHash_lt hk m i) ?_
    by_cases hjm : j = m
    · exact .inr (hjm ▸ hne)
    · exact .inl hjm
end

section
variable {s : State} {g : Nat} {p : Posted} {ps : List Posted} {x : Sketch} (hwf : Memory.wf s.mem = true)
  (hq : (s.core g).posted = p :: ps) (hsk : s.sketch p.part p.a.toNat = .ok x) (ha : ShRange p.a.toNat 64)
  (hok : s.pairsOk x = none) (hop : p.op = .skUpd)

include hsk hok hop in
theorem applyOp_skUpd : s.applyOp (some g) p = s.skUpdate x p.b (p.d.setWidth 32) := by
  simp only [State.applyOp, hop, withHashes, withSketch, hsk, Applied.with, hok]

include hwf hq hsk ha hok hop

theorem skUpd_nan_applies (hnan : ofBits (bf p.d 0 32) = .nan true ∨ ofBits (bf p.d 0 32) = .nan false) :
    ∃ t, exec (.postedOpApply (.core g) 0) s = .next t ∧ (t.core g).posted = ps ∧
      (∀ j < x.d, (t.shRd x.addr 8).testBit (40 + j) = true) ∧
      ∀ y, y < shKey p.a.toNat ∨ shKey p.a.toNat + 8 ≤ y → Mem.read t.mem y = Mem.read s.mem y := by
  obtain ⟨haddr, hx⟩ := State.sketch_spec hsk
  have hset := State.satSet_setSat (x := x) hwf (haddr ▸ ha.sub le_rfl (by omega)) x.allRows
  have happ : s.applyOp (some g) p = { s := s.setSat x x.allRows } := by
    rw [applyOp_skUpd hsk hok hop, State.skUpdate, skScaled_nan x.es (v := p.d.setWidth 32) (by rwa [BitVec.toNat_setWidth, ← bf_zero])]
  obtain ⟨t, ht, hposted, hrest⟩ := posted_rest hq (by rw [hop]; rfl) happ hset.cores
  refine ⟨t, ht, hposted, fun j hj => ?_, fun y hy => ?_⟩
  · have hd7 := hx.d
    rw [State.shRd_congr hrest.mem, hset.sat j (by omega), x.allRows_bit hj, Bool.or_true]
  · rw [hrest.mem, hset.out y (by rwa [haddr])]
theorem skUpd_fin_applies {neg : Bool} {m : Nat} {e : Int} (hfar : Apart p.a.toNat 64 x.base x.size)
    (hp : Apart x.pairs 128 x.base x.size) (hpd : Apart x.pairs 128 p.a.toNat 64) (herr : s.hashErr x p.b = none)
    (hv : ofBits (bf p.d 0 32) = .fin neg m e) :
    ∃ k : Nat, |(k : ℚ) - m * 2 ^ (e + x.es)| ≤ 1 / 2 ∧ (|(k : ℚ) - m * 2 ^ (e + x.es)| = 1 / 2 → k % 2 = 0) ∧
      ∃ t, exec (.postedOpApply (.core g) 0) s = .next t ∧ (t.core g).posted = ps ∧
        s.Updated x p.b (clampCtr (withSign neg k)) (decide (2 ^ 31 ≤ k)) t := by
  obtain ⟨haddr, hx⟩ := State.sketch_spec hsk
  obtain ⟨k, hnear, htie, hscaled⟩ := skScaled_fin x.es (v := p.d.setWidth 32) (by rwa [BitVec.toNat_setWidth, ← bf_zero])
  obtain ⟨u, hu, hcores, hupd⟩ := State.updated_skUpdate (i := p.b) hx (haddr ▸ ha) (haddr ▸ hfar) hp (haddr ▸ hpd) hwf hscaled herr
  obtain ⟨t, ht, hposted, hrest⟩ := posted_rest hq (by rw [hop]; rfl) ((applyOp_skUpd hsk hok hop).trans hu) hcores
  have hrd := State.shRd_congr hrest.mem
  refine ⟨k, hnear, htie, t, ht, hposted, fun j hj => ?_, fun j hj => ?_, fun j hj col hcol hne => ?_⟩
  · rw [State.ctrVal_congr (hrd ..), hupd.val j hj]
  · rw [hrd, hupd.sat j hj]
  · rw [hrd, hupd.other j hj col hcol hne]
end

/-! ### Sums of sketches (R106) -/

/-- A counter of a sum: the two of one place added. -/
def State.sumRow (src dst : Sketch) (s : State) (n : Nat) : State :=
  let a := s.ctrRead (src.base + 4 * n)
  let b := s.ctrRead (dst.base + 4 * n)
  let r := satRow (a.1 + b.1)
  (s.shWr (dst.base + 4 * n) 4 (r.1 % 2 ^ 32).toNat).setSat dst (if a.2 || b.2 || r.2 then 2 ^ (n / 2 ^ dst.k) else 0)
/-- The exact sum at place n. -/
def State.sumVal (s : State) (src dst : Sketch) (n : Nat) : Int := s.ctrVal (src.base + 4 * n) + s.ctrVal (dst.base + 4 * n)
/-- The SAT bit that place n sets. -/
def State.sumSat (s : State) (src dst : Sketch) (n : Nat) : Nat :=
  if (s.ctrRead (src.base + 4 * n)).2 || (s.ctrRead (dst.base + 4 * n)).2 || (satRow (s.sumVal src dst n)).2 then 2 ^ (n / 2 ^ dst.k) else 0
theorem State.sumRow_eq (s : State) (src dst : Sketch) (n : Nat) : State.sumRow src dst s n =
    (s.shWr (dst.base + 4 * n) 4 (clampCtr (s.sumVal src dst n) % 2 ^ 32).toNat).setSat dst (s.sumSat src dst n) := by
  simp only [State.sumRow, State.sumVal, State.sumSat, State.ctrRead_eq, satRow_eq]
theorem State.ctrRead_congr {s t : State} {a : Nat} (h : t.shRd a 4 = s.shRd a 4) : t.ctrRead a = s.ctrRead a := by
  rw [State.ctrRead, h, State.ctrRead]

section
variable {s : State} {x y : Sketch} (hx : x.Valid) (hy : y.Valid) (hd : ShRange y.addr 64)
  (hyd : Apart y.addr 64 y.base y.size)
include hy hd hyd

theorem Sketch.separate_all : y.Separate (fun n => y.base + 4 * n) (y.d * 2 ^ y.k) := by
  have hsize := y.size_eq
  refine ⟨hd.sub le_rfl (by omega), fun j hj => hy.ctrs.sub (by omega) (by omega), fun j hj => ?_, fun i _ j _ hne => ?_⟩
  · exact ((hyd.sub (c := y.base + 4 * j) (m := 4) (by omega) (by omega)).symm).sub le_rfl (by omega)
  · unfold Apart
    omega
include hx

theorem State.ctrsSet_sum (hsame : x.size = y.size) (hxd : Apart y.addr 64 x.base x.size)
    (hxy : x.base = y.base ∨ Apart x.base x.size y.base y.size)
    (hwf : Memory.wf s.mem = true) : s.CtrsSet y (fun n => y.base + 4 * n) (s.sumVal x y) (s.sumSat x y) (y.d * 2 ^ y.k)
      ((List.range (y.d * 2 ^ y.k)).foldl (State.sumRow x y) s) := by
  have hs := Sketch.separate_all hy hd hyd
  have hsize := y.size_eq
  refine foldl_range_induct (.zero hwf) fun n hn t h => ?_
  have hdst : t.shRd (y.base + 4 * n) 4 = s.shRd (y.base + 4 * n) 4 :=
    h.shRd hs (by omega) (hs.ctrs n hn).1 (hs.far n hn) fun l hl => hs.ne n hn l (by omega) (by omega)
  have hsrc : t.shRd (x.base + 4 * n) 4 = s.shRd (x.base + 4 * n) 4 := by
    obtain hbase | hapart := hxy
    · rwa [hbase]
    · have hin : x.base ≤ x.base + 4 * n ∧ x.base + 4 * n + 4 ≤ x.base + x.size := by omega
      refine h.shRd hs (by omega) (hx.ctrs.sub hin.1 hin.2).1 ((hxd.sub hin.1 hin.2).symm.sub le_rfl (by omega)) fun l hl => ?_
      exact ((hapart.symm.sub hin.1 hin.2).symm).sub (by omega) (by omega)
  have hval : t.sumVal x y n = s.sumVal x y n := by
    rw [State.sumVal, State.ctrVal_congr hsrc, State.ctrVal_congr hdst, State.sumVal]
  have hsat : t.sumSat x y n = s.sumSat x y n := by
    rw [State.sumSat, State.ctrRead_congr hsrc, State.ctrRead_congr hdst, hval, State.sumSat]
  rw [State.sumRow_eq, hval, hsat]
  exact h.step hs hn
end

theorem State.skAddTo_mismatch {s : State} {x y : Sketch} (h : y.d ≠ x.d ∨ y.k ≠ x.k ∨ y.es ≠ x.es) :
    s.skAddTo x y = .err s (.fault 0x0E (w64 y.addr) 0) := by
  have hne : (x.d == y.d && x.k == y.k && x.es == y.es) = false := by
    obtain h | h | h := h <;> simp [h.symm]
  simp only [State.skAddTo, hne, Bool.false_and, Bool.not_false, Bool.true_or, if_true]
theorem State.skAddTo_eq {s : State} {x y : Sketch} (hd : y.d = x.d) (hk : y.k = x.k) (hes : y.es = x.es)
    (hpair : ∀ j < x.d, s.pair x j = s.pair y j) (hxy : x.base = y.base ∨ Apart x.base x.size y.base y.size)
    (herr : ∀ l < x.d * 2 ^ x.k / 64, s.ctrErr (x.base + 256 * l) 256 = none ∧ s.ctrErr (y.base + 256 * l) 256 = none) :
    s.skAddTo x y = { s := ((List.range (y.d * 2 ^ y.k)).foldl (State.sumRow x y) s).setSat y (fld (s.shRd x.addr 8) 40 7) } := by
  have hsame : (x.d == y.d && x.k == y.k && x.es == y.es && (List.range x.d).all fun j => s.pair x j == s.pair y j) = true := by
    simpa [hd, hk, hes] using hpair
  have hmeet : (!(x.base == y.base) && meet x.base x.size y.base y.size) = false := by
    obtain h | h := hxy
    · simp [h]
    · unfold Apart at h
      simp only [Bool.and_eq_false_iff, meet, decide_eq_false_iff_not]
      right
      omega
  have hlines (z : Sketch) (hz : z.size = x.size) : z.size / 256 = x.d * 2 ^ x.k / 64 := by
    rw [hz, x.size_eq]
    omega
  have hyx : y.size = x.size := by rw [Sketch.size, hd, hk, Sketch.size]
  have hnone : (x.lines ++ y.lines).filterMap (s.ctrErr · 256) = [] := by
    rw [List.filterMap_eq_nil_iff]
    intro a ha
    obtain ha | ha := List.mem_append.1 ha
    · obtain ⟨l, hl, rfl⟩ := List.mem_map.1 ha
      exact (herr l (by rwa [List.mem_range, hlines x rfl] at hl)).1
    · obtain ⟨l, hl, rfl⟩ := List.mem_map.1 ha
      exact (herr l (by rwa [List.mem_range, hlines y hyx] at hl)).2
  simp only [State.skAddTo, hsame, hmeet, hnone]
  rfl

section
variable {s : State} {g : Nat} {p : Posted} {ps : List Posted} {x y : Sketch}
  (hq : (s.core g).posted = p :: ps) (hop : p.op = .skAdd) (hsx : s.sketch p.part p.a.toNat = .ok x)
  (hsy : s.sketch p.part p.b.toNat = .ok y) (hox : s.pairsOk x = none) (hoy : s.pairsOk y = none)

include hop hsx hsy hox hoy in
theorem applyOp_skAdd : s.applyOp (some g) p = s.skAddTo x y := by
  simp only [State.applyOp, hop, withHashes, withSketch, hsx, hsy, Applied.with, hox, hoy]

include hq hop hsx hsy hox hoy

theorem skAdd_mismatch (h : y.d ≠ x.d ∨ y.k ≠ x.k ∨ y.es ≠ x.es) :
    exec (.postedOpApply (.core g) 0) s = .next ((s.setCore g { s.core g with posted := ps }).imprecise g 10
      (p.unit (.fault 0x0E p.b 0)) p.pc (.fault 0x0E p.b 0)) := by
  have happ : s.applyOp (some g) p = .err s (.fault 0x0E p.b 0) := by
    rw [applyOp_skAdd hop hsx hsy hox hoy, State.skAddTo_mismatch h, (State.sketch_spec hsy).1, w64_toNat]
  exact applyCore_error hq happ rfl
theorem skAdd_applies (hwf : Memory.wf s.mem = true) (hb : ShRange p.b.toNat 64) (hd : y.d = x.d) (hk : y.k = x.k) (hes : y.es = x.es)
    (hpair : ∀ j < x.d, s.pair x j = s.pair y j) (hxy : x.base = y.base ∨ Apart x.base x.size y.base y.size)
    (hxd : Apart p.b.toNat 64 x.base x.size) (hyd : Apart p.b.toNat 64 y.base y.size)
    (herr : ∀ l < x.d * 2 ^ x.k / 64, s.ctrErr (x.base + 256 * l) 256 = none ∧ s.ctrErr (y.base + 256 * l) 256 = none) :
    ∃ t, exec (.postedOpApply (.core g) 0) s = .next t ∧ (t.core g).posted = ps ∧
      ∀ i < x.d * 2 ^ x.k, t.ctrVal (y.base + 4 * i) = clampCtr (s.ctrVal (x.base + 4 * i) + s.ctrVal (y.base + 4 * i)) := by
  obtain ⟨-, hvx⟩ := State.sketch_spec hsx
  obtain ⟨haddr, hvy⟩ := State.sketch_spec hsy
  rw [← haddr] at hb hxd hyd
  have hs := Sketch.separate_all hvy hb hyd
  have hc := State.ctrsSet_sum hvx hvy hb hyd (by rw [Sketch.size, Sketch.size, hd, hk]) hxd hxy hwf
  have happ := (applyOp_skAdd (g := g) hop hsx hsy hox hoy).trans (State.skAddTo_eq hd hk hes hpair hxy herr)
  generalize List.foldl _ s _ = u at hc happ
  have hw := State.satSet_setSat hc.wf hs.desc (fld (s.shRd x.addr 8) 40 7)
  generalize u.setSat y _ = w at hw happ
  obtain ⟨t, ht, hposted, hrest⟩ := posted_rest hq (by rw [hop]; rfl) happ (hw.cores.trans hc.cores)
  refine ⟨t, ht, hposted, fun i hi => ?_⟩
  rw [← hd, ← hk] at hi
  have hread : t.shRd (y.base + 4 * i) 4 = u.shRd (y.base + 4 * i) 4 := by
    have := hs.far i hi
    have := (hs.ctrs i hi).1
    have := hs.desc.1
    refine (State.shRd_congr hrest.mem _ _).trans (Mem.readN_congr _ _ fun l hl => hw.out _ ?_)
    unfold Apart at *
    unfold shKey sharedKey
    omega
  rw [State.ctrVal_congr hread]
  exact hc.vals i hi
end
end Sys2Proof.Machine
end

section
/-! ## Posted operations (O37): order cells (R108-R114) -/
namespace Sys2Proof.Machine

/-! ### Regions (R109) -/

/-- What a checked region has. -/
structure Region.Valid (r : Region) : Prop where
  id : r.id < 2 ^ 16
  floorx : r.floorx < 2 ^ 48
  count : r.srcs.length ≤ 64
  once : hasTwice (r.srcs.map Prod.fst) = false
theorem State.region_spec {s : State} {addr : Nat} {r : Region} (h : s.region addr = .ok r) : r.addr = addr ∧ r.Valid := by
  unfold State.region at h
  split at h
  · cases h
  · extract_lets v n e2 es at h
    split at h
    · cases h
    · next hfmt =>
      split at h
      · cases h
      · split at h
        · cases h
        · next htwice =>
          obtain rfl := Except.ok.inj h
          simp only [Bool.or_eq_true, not_or, Bool.not_eq_true, decide_eq_false_iff_not] at hfmt htwice
          refine ⟨rfl, fld_lt .., fld_lt .., ?_, ?_⟩
          · simp only [es, List.length_map, List.length_range]
            omega
          · rw [List.map_map]
            exact htwice.2
/-- Where no key stands twice, an element is found by its key. -/
theorem find?_of_hasTwice {α : Type} {f : α → Nat} {l : List α} (h : hasTwice (l.map f) = false) {j : Nat} {e : α}
    (hj : l[j]? = some e) : l.find? (fun x => f x == f e) = some e := by
  induction l generalizing j with
  | nil => simp at hj
  | cons x xs ih =>
    simp only [List.map_cons, hasTwice, Bool.or_eq_false_iff] at h
    cases j with
    | zero =>
      obtain rfl := Option.some.inj hj
      simp
    | succ j =>
      rw [List.getElem?_cons_succ] at hj
      have hne : f x ≠ f e := fun he => by
        have hmem : f x ∈ xs.map f := he ▸ List.mem_map_of_mem (List.mem_of_getElem? hj)
        simp [List.contains_eq_mem, hmem] at h
      rw [List.find?_cons_of_neg (by simpa using hne)]
      exact ih h.2 hj
theorem Region.settled_of {r : Region} (hr : r.Valid) {j src old : Nat} (hj : r.srcs[j]? = some (src, old)) : r.settled src = some old := by
  rw [Region.settled, find?_of_hasTwice (f := Prod.fst) hr.once hj]
  rfl
theorem Region.index_of {r : Region} (hr : r.Valid) {j src old : Nat} (hj : r.srcs[j]? = some (src, old)) : r.index src = some j := by
  have honce : hasTwice (r.srcs.zipIdx.map fun e => e.1.1) = false := by
    rw [← hr.once, ← List.zipIdx_map_fst 0 r.srcs, List.map_map, List.zipIdx_map_fst]
    rfl
  have hat : r.srcs.zipIdx[j]? = some ((src, old), j) := by
    rw [List.getElem?_zipIdx, hj]
    simp
  rw [Region.index, find?_of_hasTwice (f := fun e : (Nat × Nat) × Nat => e.1.1) honce hat]
  rfl

/-! ### A cell initialised (R114) -/

theorem cellInit_eq {s : State} {a : Nat} (hf : s.fmtOf (shKey a) = 0x31) (r : Region) (i : Bool) (v : W32) : s.cellInit a r i v =
    { s := s.shWr a 128 { region := r.id, cflx := r.floorx, poison := false, ovf := false, i32 := i, base := v, hist := [] : Cell }.bits } := by
  simp [State.cellInit, State.cellLine, hf]

/-- The 128 bytes of an empty cell (R114). -/
theorem Region.Valid.cell_lt {r : Region} (hr : r.Valid) (i : Bool) (v : W32) :
    v.toNat + i.toNat * 2 ^ 36 + r.floorx * 2 ^ 64 + r.id * 2 ^ 112 < 2 ^ 128 := by
  have hid := hr.id
  have hfloor := hr.floorx
  have := v.isLt
  have := i.toNat_lt
  omega
theorem lt_two_pow_of_le {x a b : Nat} (h : x < 2 ^ a) (hab : a ≤ b) : x < 2 ^ b := h.trans_le (Nat.pow_le_pow_right Nat.two_pos hab)
theorem ocInit_applies {s : State} {g : Nat} {p : Posted} {ps : List Posted} {r : Region} (hwf : Memory.wf s.mem = true)
    (hq : (s.core g).posted = p :: ps) (hr : s.region p.b.toNat = .ok r) {i : Bool} (hop : p.op = .ocInit i)
    (ha : ShRange p.a.toNat 128) (hf : s.fmtOf (shKey p.a.toNat) = 0x31) :
    ∃ t, exec (.postedOpApply (.core g) 0) s = .next t ∧ (t.core g).posted = ps ∧
      (∀ x, x < shKey p.a.toNat ∨ shKey p.a.toNat + 128 ≤ x → Mem.read t.mem x = Mem.read s.mem x) ∧
      t.shRd p.a.toNat 128 = bf p.d 0 32 + i.toNat * 2 ^ 36 + r.floorx * 2 ^ 64 + r.id * 2 ^ 112 := by
  have hbits : ({ region := r.id, cflx := r.floorx, poison := false, ovf := false, i32 := i, base := p.d.setWidth 32, hist := [] } : Cell).bits =
      (p.d.setWidth 32 : W32).toNat + i.toNat * 2 ^ 36 + r.floorx * 2 ^ 64 + r.id * 2 ^ 112 := by
    simp [Cell.bits]
  have happ : s.applyOp (some g) p = s.cellInit p.a.toNat r i (p.d.setWidth 32) := by
    simp only [State.applyOp, hop, hr, Applied.with]
  rw [cellInit_eq hf, hbits] at happ
  obtain ⟨t, ht, hposted, hput⟩ := posted_puts hwf hq (by rw [hop]; rfl) ha happ
  have hval := hput.val
  have hlt := (State.region_spec hr).2.cell_lt i (p.d.setWidth 32)
  rw [Nat.mod_eq_of_lt (lt_two_pow_of_le hlt (by omega)), BitVec.toNat_setWidth, ← bf_zero] at hval
  exact ⟨t, ht, hposted, hput.out, hval⟩

/-! ### Stamp order (R110) -/

/-- The stamp of a history entry. -/
def Region.stamp (r : Region) (e : Hist) : Nat := r.rel e.step * 2 ^ 12 + e.src
theorem Region.stamp_lt_iff {r : Region} {e f : Hist} (he : e.src < 2 ^ 12) (hf : f.src < 2 ^ 12) :
    (r.rel e.step < r.rel f.step ∨ (r.rel e.step = r.rel f.step ∧ e.src < f.src)) ↔ r.stamp e < r.stamp f := by
  unfold Region.stamp
  omega
/-- An entry is inserted before the first one with a greater stamp. -/
theorem histInsert_split {r : Region} {h : Hist} (hh : h.src < 2 ^ 12) {l : List Hist} (hl : ∀ e ∈ l, e.src < 2 ^ 12) :
    ∃ before after, l = before ++ after ∧ histInsert r h l = before ++ h :: after ∧
      (∀ e ∈ before, ¬ r.stamp h < r.stamp e) ∧ ∀ e, after.head? = some e → r.stamp h < r.stamp e := by
  induction l with
  | nil => exact ⟨[], [], rfl, rfl, by simp, by simp⟩
  | cons x xs ih =>
    have hx := Region.stamp_lt_iff (r := r) hh (hl x (.head _))
    by_cases hlt : r.stamp h < r.stamp x
    · refine ⟨[], x :: xs, rfl, ?_, by simp, fun e he => ?_⟩
      · rw [histInsert, if_pos (hx.2 hlt)]
        rfl
      · obtain rfl := Option.some.inj he
        exact hlt
    · obtain ⟨before, after, hsplit, hins, hbefore, hafter⟩ := ih fun e he => hl e (.tail _ he)
      refine ⟨x :: before, after, by rw [hsplit, List.cons_append], ?_, fun e he => ?_, hafter⟩
      · rw [histInsert, if_neg fun h => hlt (hx.1 h), hins, List.cons_append]
      · obtain rfl | he := List.mem_cons.1 he
        · exact hlt
        · exact hbefore e he

/-! ### An entry inserted (R113) -/

theorem histOf_src (v : Nat) : (histOf v).src < 2 ^ 12 := fld_lt ..
theorem State.openCell_ok {s u : State} {a : Nat} {r : Region} {c : Cell} (h : s.openCell a r = (u, .ok c)) :
    u = s.shWr a 128 c.bits ∧ ∀ e ∈ c.hist, e.src < 2 ^ 12 := by
  have herr {t : State} {e : Exc} (h : (t, (.error e : Except Exc Cell)) = (u, .ok c)) : False := nomatch congrArg Prod.snd h
  unfold State.openCell at h
  split at h
  · exact (herr h).elim
  · extract_lets v c₀ c₁ at h
    split at h
    · exact (herr h).elim
    · split at h
      · exact (herr h).elim
      · split at h
        · exact (herr h).elim
        · obtain ⟨hu, hc⟩ := Prod.mk.inj h
          obtain rfl := Except.ok.inj hc
          refine ⟨hu.symm, fun e he => ?_⟩
          obtain ⟨i, -, rfl⟩ := List.mem_map.1 (List.mem_filter.1 he).1
          exact histOf_src _
theorem opSuits_iff (i : Bool) (n : Nat) : opSuits i n = true ↔ if i then n = 0 ∨ n = 4 else n ≤ 3 := by
  cases i <;> simp [opSuits]

section
variable {s u : State} {a : Nat} {r : Region} {h : Hist} {c : Cell} (ho : s.openCell a r = (u, .ok c)) (hsuit : opSuits c.i32 h.op = true)

/-- The entry's step is not after the floor, is too far after it, or its source has settled it. -/
def Region.late (r : Region) (h : Hist) : Prop :=
  r.rel h.step = 0 ∨ 2 ^ 15 < r.rel h.step ∨ ∃ z, r.settled h.src = some z ∧ r.rel h.step ≤ r.rel z
/-- An entry of that step and source stands in the cell. -/
def Cell.twice (c : Cell) (h : Hist) : Prop := ∃ e ∈ c.hist, e.step = h.step ∧ e.src = h.src

theorem Cell.any_iff_twice (c : Cell) (h : Hist) : (c.hist.any fun x => x.step == h.step && x.src == h.src) = true ↔ c.twice h := by
  simp [Cell.twice]
include ho hsuit

theorem State.cellInsert_late (hl : r.late h) : s.cellInsert a r h = .err u (.fault 0x10 (w64 a) 0) := by
  simp only [State.cellInsert, ho, hsuit, Bool.not_true, Bool.false_eq_true, if_false]
  by_cases h1 : r.rel h.step = 0 ∨ 2 ^ 15 < r.rel h.step
  · rw [if_pos h1]
  · obtain ⟨z, hz, hle⟩ : ∃ z, r.settled h.src = some z ∧ r.rel h.step ≤ r.rel z := by
      obtain h | h | h := hl
      · exact absurd (.inl h) h1
      · exact absurd (.inr h) h1
      · exact h
    rw [if_neg h1]
    simp only [hz, decide_eq_true hle, if_true]
theorem State.cellInsert_timely (hl : ¬ r.late h) : s.cellInsert a r h =
    if c.hist.any fun x => x.step == h.step && x.src == h.src then .err u (.fault 0x11 (w64 a) 0)
    else if c.hist.length = 14 then .err (u.shWr a 128 { c with ovf := true }.bits) (.fault 0x0F (w64 a) 0)
    else { s := u.shWr a 128 { c with hist := histInsert r h c.hist }.bits } := by
  have h1 : ¬ (r.rel h.step = 0 ∨ 2 ^ 15 < r.rel h.step) := fun h' => hl (h'.imp_right .inl)
  simp only [State.cellInsert, ho, hsuit, Bool.not_true, Bool.false_eq_true, if_false, if_neg h1]
  cases hset : r.settled h.src with
  | none => simp only [Bool.false_eq_true, if_false]
  | some z =>
    have hle : ¬ r.rel h.step ≤ r.rel z := fun h' => hl (.inr (.inr ⟨z, hset, h'⟩))
    simp only [decide_eq_false hle, Bool.false_eq_true, if_false]
end

section
variable {s u : State} {g : Nat} {p : Posted} {ps : List Posted} {r : Region} {c : Cell} (hwf : Memory.wf s.mem = true)
  (hq : (s.core g).posted = p :: ps) (hr : s.region p.b.toNat = .ok r) (ha : ShRange p.a.toNat 128) (hop : p.op = .ocIns)
  (ho : s.openCell p.a.toNat r = (u, .ok c)) (hsuit : opSuits c.i32 (histOf p.d.toNat).op = true)

include hr hop in
theorem applyOp_ocIns : s.applyOp (some g) p = s.cellInsert p.a.toNat r (histOf p.d.toNat) := by
  simp only [State.applyOp, hop, hr, Applied.with]

include ha ho in
theorem State.openCell_cores : u.cores = s.cores := by
  rw [(State.openCell_ok ho).1, State.cores_shWr ha]

include hq hr ha hop ho hsuit

theorem ocIns_late (hl : r.late (histOf p.d.toNat)) : exec (.postedOpApply (.core g) 0) s =
    .next ((u.setCore g { u.core g with posted := ps }).imprecise g 10 (p.unit (.fault 0x10 p.a 0)) p.pc (.fault 0x10 p.a 0)) := by
  have happ := (applyOp_ocIns (g := g) hr hop).trans (State.cellInsert_late ho hsuit hl)
  rw [w64_toNat] at happ
  exact applyCore_error hq happ (State.openCell_cores ha ho)
theorem ocIns_twice (hl : ¬ r.late (histOf p.d.toNat)) (ht : c.twice (histOf p.d.toNat)) : exec (.postedOpApply (.core g) 0) s =
    .next ((u.setCore g { u.core g with posted := ps }).imprecise g 10 (p.unit (.fault 0x11 p.a 0)) p.pc (.fault 0x11 p.a 0)) := by
  have happ := (applyOp_ocIns (g := g) hr hop).trans (State.cellInsert_timely ho hsuit hl)
  rw [if_pos ((c.any_iff_twice _).2 ht), w64_toNat] at happ
  exact applyCore_error hq happ (State.openCell_cores ha ho)
theorem ocIns_full (hl : ¬ r.late (histOf p.d.toNat)) (ht : ¬ c.twice (histOf p.d.toNat)) (hlen : c.hist.length = 14) :
    let v := u.shWr p.a.toNat 128 ({ c with ovf := true } : Cell).bits
    exec (.postedOpApply (.core g) 0) s =
      .next ((v.setCore g { v.core g with posted := ps }).imprecise g 10 (p.unit (.fault 0x0F p.a 0)) p.pc (.fault 0x0F p.a 0)) := by
  intro v
  have happ := (applyOp_ocIns (g := g) hr hop).trans (State.cellInsert_timely ho hsuit hl)
  rw [if_neg fun h => ht ((c.any_iff_twice _).1 h), if_pos hlen, w64_toNat] at happ
  exact applyCore_error hq happ ((State.cores_shWr ha _).trans (State.openCell_cores ha ho))
include hwf in
theorem ocIns_applies (hl : ¬ r.late (histOf p.d.toNat)) (ht : ¬ c.twice (histOf p.d.toNat)) (hlen : c.hist.length ≠ 14) :
    ∃ t, exec (.postedOpApply (.core g) 0) s = .next t ∧ (t.core g).posted = ps ∧
      (∀ x, x < shKey p.a.toNat ∨ shKey p.a.toNat + 128 ≤ x → Mem.read t.mem x = Mem.read s.mem x) ∧
      t.shRd p.a.toNat 128 = ({ c with hist := histInsert r (histOf p.d.toNat) c.hist } : Cell).bits % 2 ^ 1024 := by
  have happ := (applyOp_ocIns (g := g) hr hop).trans (State.cellInsert_timely ho hsuit hl)
  rw [if_neg fun h => ht ((c.any_iff_twice _).1 h), if_neg hlen] at happ
  have hfold := State.put_shWr hwf ha c.bits
  have hwf' : Memory.wf u.mem = true := (State.openCell_ok ho).1 ▸ State.wf_shWr hwf ..
  rw [← (State.openCell_ok ho).1] at hfold
  have hput := State.put_shWr hwf' ha ({ c with hist := histInsert r (histOf p.d.toNat) c.hist } : Cell).bits
  obtain ⟨t, hexec, hposted, hrest⟩ := posted_rest hq (by rw [hop]; rfl) happ
    ((State.cores_shWr ha _).trans (State.openCell_cores ha ho))
  refine ⟨t, hexec, hposted, fun x hx => ?_, ?_⟩
  · rw [hrest.mem, hput.out x hx, hfold.out x hx]
  · rw [State.shRd_congr hrest.mem, hput.val, show 8 * 128 = 1024 from rfl]
end

/-! ### A settle (R114) -/

/-- A settled step: written where it is later than the one before. -/
theorem State.regionSettle_eq {s : State} {r : Region} (hr : r.Valid) {j src old step : Nat} (hj : r.srcs[j]? = some (src, old))
    (h1 : 1 ≤ r.rel step) (h2 : r.rel step ≤ 2 ^ 15) : s.regionSettle r src step =
      if r.rel step ≤ r.rel old then { s := s } else { s := s.shWr (r.addr + 16 + 4 * j + 2) 2 step } := by
  simp only [State.regionSettle, Region.index_of hr hj, Region.settled_of hr hj]
  rw [if_neg (by omega)]
theorem State.tracked_addSettle (s : State) (p : Posted) (r : Region) (lo hi : Nat) : s.Tracked (s.addSettle p r lo hi) := by
  unfold State.addSettle
  split
  · split
    · exact .refl s
    · exact ⟨_, rfl⟩
  · exact .refl s
theorem ocSettle_applies {s : State} {g : Nat} {p : Posted} {ps : List Posted} {r : Region} (hwf : Memory.wf s.mem = true)
    (hq : (s.core g).posted = p :: ps) (hr : s.region p.b.toNat = .ok r) (hb : ShRange p.b.toNat 512) (hop : p.op = .ocSettle)
    {j old : Nat} (hj : r.srcs[j]? = some (bf p.a 16 12, old)) (h1 : 1 ≤ r.rel (bf p.a 0 16)) (h2 : r.rel (bf p.a 0 16) ≤ 2 ^ 15) :
    ∃ t, exec (.postedOpApply (.core g) 0) s = .next t ∧ (t.core g).posted = ps ∧
      (∀ x, x < shKey (p.b.toNat + 16 + 4 * j + 2) ∨ shKey (p.b.toNat + 16 + 4 * j + 2) + 2 ≤ x → Mem.read t.mem x = Mem.read s.mem x) ∧
      t.shRd (p.b.toNat + 16 + 4 * j + 2) 2 =
        if r.rel (bf p.a 0 16) ≤ r.rel old then s.shRd (p.b.toNat + 16 + 4 * j + 2) 2 else bf p.a 0 16 := by
  obtain ⟨haddr, hv⟩ := State.region_spec hr
  have hset := State.regionSettle_eq (s := s) hv hj h1 h2
  rw [haddr] at hset
  have hjlt : j < 64 := ((List.getElem?_eq_some_iff.1 hj).1).trans_le hv.count
  have hrange : ShRange (p.b.toNat + 16 + 4 * j + 2) 2 := hb.sub (by omega) (by omega)
  have hstep : bf p.a 0 16 < 2 ^ 16 := fld_lt ..
  have happ (w : State) (hw : s.regionSettle r (bf p.a 16 12) (bf p.a 0 16) = { s := w }) :
      s.applyOp (some g) p = { s := w.addSettle p r old (bf p.a 0 16) } := by
    simp only [State.applyOp, hop, hr, Applied.with, hw, Region.settled_of hv hj]
  by_cases hle : r.rel (bf p.a 0 16) ≤ r.rel old
  · rw [if_pos hle] at hset
    have htr := s.tracked_addSettle p r old (bf p.a 0 16)
    obtain ⟨t, hexec, hposted, hrest⟩ := posted_rest hq (by rw [hop]; rfl) (happ _ hset) htr.cores
    refine ⟨t, hexec, hposted, fun x _ => by rw [hrest.mem, htr.mem], ?_⟩
    rw [if_pos hle]
    exact State.shRd_congr (hrest.mem.trans htr.mem) ..
  · rw [if_neg hle] at hset
    have hput := State.put_shWr hwf hrange (bf p.a 0 16)
    have hcores := State.cores_shWr (s := s) hrange (bf p.a 0 16)
    have happ' := happ _ hset
    generalize s.shWr _ 2 _ = w at hput hcores happ'
    have htr := w.tracked_addSettle p r old (bf p.a 0 16)
    obtain ⟨t, hexec, hposted, hrest⟩ := posted_rest hq (by rw [hop]; rfl) happ' (htr.cores.trans hcores)
    refine ⟨t, hexec, hposted, fun x hx => by rw [hrest.mem, htr.mem, hput.out x hx], ?_⟩
    rw [if_neg hle, State.shRd_congr (hrest.mem.trans htr.mem), hput.val]
    omega
end Sys2Proof.Machine
end

section
/-! ## Posted operations (O37): counters and weight-set slots (R64, R120, R254, R256) -/
namespace Sys2Proof.Machine

/-! ### Trigger counters (R120, R254) -/

theorem State.tracked_addOpSrc (s : State) (p : Posted) (o : Obj) : s.Tracked (s.addOpSrc p o) := by
  unfold State.addOpSrc
  split
  · exact ⟨_, rfl⟩
  · exact .refl s
/-- Entries that a counter lets go on change queue pairs and the records of the hazard checker only. -/
theorem State.fireAll_eq (s : State) : ∃ q z, s.fireAll = { s with qps := q, hazard := z } := by
  unfold State.fireAll
  extract_lets t
  obtain ⟨z, hz⟩ := State.tracked_foldl (fun s (x : Nat × Nat × Nat) => s.acquire (.entry x.1 x.2.1) 3 (.tc x.2.2))
    (fun _ _ => State.tracked_acquire ..) s.firing t
  exact ⟨t.qps, z, hz⟩

section
variable {s : State} {g n : Nat} {p : Posted} {ps : List Posted} (hq : (s.core g).posted = p :: ps)
include hq

theorem tcAdd_applies (hop : p.op = .tcAdd n) :
    ∃ t, exec (.postedOpApply (.core g) 0) s = .next t ∧ (t.core g).posted = ps ∧ t.mem = s.mem ∧ t.tc n = s.tc n + p.d := by
  have happ : s.applyOp (some g) p = { s := (s.addOpSrc p (.tc n)).addTc n p.d } := by rw [State.applyOp, hop]
  obtain ⟨y, hy⟩ := s.tracked_addOpSrc p (.tc n)
  obtain ⟨e, z, hz⟩ := (({ s with hazard := y } : State).setTc n (s.tc n + p.d)).fireAll_eq
  have hu : (s.addOpSrc p (.tc n)).addTc n p.d = { ({ s with hazard := y } : State).setTc n (s.tc n + p.d) with qps := e, hazard := z } := by
    rw [hy, ← hz]
    rfl
  rw [hu] at happ
  obtain ⟨t, ht, hposted, hrest⟩ := posted_rest hq (by rw [hop]; rfl) happ rfl
  refine ⟨t, ht, hposted, hrest.mem, ?_⟩
  rw [State.tc, hrest.tcs]
  exact (State.tc_setTc s n n _).trans (if_pos rfl)
theorem tcSet_applies (hop : p.op = .tcSet n) (j : Nat) :
    ∃ t, exec (.postedOpApply (.core g) 0) s = .next t ∧ (t.core g).posted = ps ∧ t.tc j = if j = n then p.d else s.tc j := by
  have happ : s.applyOp (some g) p = { s := ((s.addOpSrc p (.tc n)).setTc n p.d).fireAll } := by rw [State.applyOp, hop]
  obtain ⟨y, hy⟩ := s.tracked_addOpSrc p (.tc n)
  obtain ⟨e, z, hz⟩ := (({ s with hazard := y } : State).setTc n p.d).fireAll_eq
  rw [hy, hz] at happ
  obtain ⟨t, ht, hposted, hrest⟩ := posted_rest hq (by rw [hop]; rfl) happ rfl
  refine ⟨t, ht, hposted, ?_⟩
  rw [State.tc, hrest.tcs]
  exact State.tc_setTc s n j _
end

/-! ### Weight-set slots (R64, R256) -/

/-- What a slot becomes when another one of its partition becomes current. -/
def Ws.retired (x : Ws) : Ws := if x.state = .current then ({ x with state := .retiring } : Ws).settleFree else x
theorem Ws.retired_eq (x : Ws) : x.retired =
    if x.state ≠ .current then x else { x with state := if x.bound = 0 then .free else .retiring } := by
  unfold Ws.retired Ws.settleFree
  by_cases hc : x.state = .current
  · by_cases hb : x.bound = 0 <;> simp [hc, hb]
  · rw [if_neg hc, if_pos hc]
theorem Part.wsAt_setWs_ne (q : Part) (w : Ws) {n k : Nat} (h : idx 8 k ≠ idx 8 n) : (q.setWs n w).wsAt k = q.wsAt k := by
  have hv : (idx 8 n).val ≠ (idx 8 k).val := fun he => h (Fin.ext he.symm)
  simp only [Part.wsAt, Part.setWs, Vector.get_eq_getElem, Vector.getElem_set_ne _ _ hv]
theorem idx_inj {k n : Nat} (hk : k < 8) (hn : n < 8) (h : k ≠ n) : idx 8 k ≠ idx 8 n := by
  intro he
  have := congrArg Fin.val he
  simp only [idx, Fin.ofNat] at this
  omega

section
variable (q : Part) (a b : W64)

theorem Part.wsForm_beg (h : (q.wsAt (bf b 0 3)).state = .free) : q.wsForm .wsBeg a b = some (q.setWs (bf b 0 3)
    { state := .building, table := a, experts := bf b 16 12 + 1, shards := bf b 32 6 + 1, bound := 0 }) := by
  simp only [Part.wsForm, h]
theorem Part.wsForm_com (h : (q.wsAt (bf b 0 3)).state = .building) : q.wsForm .wsCom a b =
    some (({ q with ws := q.ws.map Ws.retired } : Part).setWs (bf b 0 3) { q.wsAt (bf b 0 3) with state := .current }) := by
  simp only [Part.wsForm, h]
  rfl
theorem Part.wsForm_abn (h : (q.wsAt (bf b 0 3)).state = .building) : q.wsForm .wsAbn a b =
    some (q.setWs (bf b 0 3) { q.wsAt (bf b 0 3) with state := .free }) := by
  simp only [Part.wsForm, h]
theorem Part.wsForm_refused {op : NearOp} (h : (op = .wsBeg ∧ (q.wsAt (bf b 0 3)).state ≠ .free) ∨
    ((op = .wsCom ∨ op = .wsAbn) ∧ (q.wsAt (bf b 0 3)).state ≠ .building)) : q.wsForm op a b = none := by
  simp only [Part.wsForm]
  split <;> simp_all
end

theorem State.post_keeps (s : State) (c : Nat) (r : Record) :
    (s.post c r).cores = s.cores ∧ (s.post c r).mem = s.mem ∧ (s.post c r).parts = s.parts := by
  unfold State.post
  split <;> exact ⟨rfl, rfl, rfl⟩
theorem State.wsRefused_keeps (s : State) (g : Nat) (p : Posted) : (s.wsRefused (some g) p).cores = s.cores ∧
    (s.wsRefused (some g) p).mem = s.mem ∧ (s.wsRefused (some g) p).parts = s.parts := State.post_keeps ..
/-- The NOTE record of a refused form of core g (R344). -/
def State.wsNote (s : State) (g : Nat) (p : Posted) : Record :=
  s.nodeRecord g { cls := 2, code := 5, unit := 0, index := ((s.core g).ctx.getD {}).grk, caddr := p.pc.toNat,
                   detail := bf p.b 0 3 + ((s.part p.part).wsAt (bf p.b 0 3)).state.code * 2 ^ 4 }
theorem State.due_wsRefused {s : State} {g q : Nat} (h : s.partOf (cidOf g) = some q) (p : Posted) :
    (s.wsRefused (some g) p).due = s.due ++ [{ part := q, cluster := cidOf g, record := s.wsNote g p }] := by
  simp only [State.wsRefused, State.note, State.post, h]
  rfl

/-- The three forms that change a weight-set slot. -/
def NearOp.isWs (op : NearOp) : Prop := op = .wsBeg ∨ op = .wsCom ∨ op = .wsAbn

section
variable {s : State} {g : Nat} {p : Posted} {ps : List Posted} (hq : (s.core g).posted = p :: ps)
include hq

theorem ws_applies (hop : p.op.isWs) {q : Part} (hform : (s.part p.part).wsForm p.op p.a p.b = some q) :
    ∃ t, exec (.postedOpApply (.core g) 0) s = .next t ∧ (t.core g).posted = ps ∧ t.mem = s.mem ∧ t.part p.part = q := by
  obtain ⟨w, hw, happ⟩ : ∃ w, s.Tracked w ∧ s.applyOp (some g) p = { s := w.setPart p.part q } := by
    obtain h | h | h := hop
    · rw [h] at hform
      exact ⟨s, .refl s, by simp only [State.applyOp, h, hform]⟩
    · rw [h] at hform
      exact ⟨_, s.tracked_addOpSrc p (.ws p.part (bf p.b 0 3)), by simp only [State.applyOp, h, hform]⟩
    · rw [h] at hform
      exact ⟨s, .refl s, by simp only [State.applyOp, h, hform]⟩
  have hl : p.op.isList = false := by
    obtain h | h | h := hop <;> rw [h] <;> rfl
  obtain ⟨t, ht, hposted, hrest⟩ := posted_rest hq hl happ hw.cores
  refine ⟨t, ht, hposted, hrest.mem.trans hw.mem, ?_⟩
  rw [State.part, hrest.parts]
  exact (State.part_setPart ..).trans (if_pos rfl)
theorem ws_refused (hop : p.op.isWs) (hform : (s.part p.part).wsForm p.op p.a p.b = none) :
    ∃ t, exec (.postedOpApply (.core g) 0) s = .next t ∧ (t.core g).posted = ps ∧ t.mem = s.mem ∧ t.parts = s.parts ∧
      t.due = (s.wsRefused (some g) p).due := by
  have happ : s.applyOp (some g) p = { s := s.wsRefused (some g) p } := by
    obtain h | h | h := hop <;> rw [h] at hform <;> simp only [State.applyOp, h, hform]
  have hl : p.op.isList = false := by
    obtain h | h | h := hop <;> rw [h] <;> rfl
  obtain ⟨hcores, hmem, hparts⟩ := s.wsRefused_keeps g p
  obtain ⟨t, ht, hposted, hrest⟩ := posted_rest hq hl happ hcores
  exact ⟨t, ht, hposted, hrest.mem.trans hmem, hrest.parts.trans hparts, hrest.due⟩
theorem wsBeg_applies (hop : p.op = .wsBeg) (hfree : ((s.part p.part).wsAt (bf p.b 0 3)).state = .free) :
    ∃ t, exec (.postedOpApply (.core g) 0) s = .next t ∧ (t.core g).posted = ps ∧ t.mem = s.mem ∧
      (∀ k, k < 8 → k ≠ bf p.b 0 3 → (t.part p.part).wsAt k = (s.part p.part).wsAt k) ∧ (t.part p.part).wsAt (bf p.b 0 3) =
        { state := .building, table := p.a, experts := bf p.b 16 12 + 1, shards := bf p.b 32 6 + 1, bound := 0 } := by
  obtain ⟨t, ht, hposted, hmem, hpart⟩ := ws_applies hq (.inl hop) (by rw [hop]; exact Part.wsForm_beg _ p.a p.b hfree)
  refine ⟨t, ht, hposted, hmem, fun k hk hne => ?_, ?_⟩
  · rw [hpart, Part.wsAt_setWs_ne _ _ (idx_inj hk (fld_lt ..) hne)]
  · rw [hpart, Part.wsAt_setWs]
theorem wsCom_applies (hop : p.op = .wsCom) (hb : ((s.part p.part).wsAt (bf p.b 0 3)).state = .building) :
    ∃ t, exec (.postedOpApply (.core g) 0) s = .next t ∧ (t.core g).posted = ps ∧ t.mem = s.mem ∧
      (t.part p.part).wsAt (bf p.b 0 3) = { (s.part p.part).wsAt (bf p.b 0 3) with state := .current } ∧
      ∀ k, k < 8 → k ≠ bf p.b 0 3 → (t.part p.part).wsAt k = ((s.part p.part).wsAt k).retired := by
  obtain ⟨t, ht, hposted, hmem, hpart⟩ := ws_applies hq (.inr (.inl hop)) (by rw [hop]; exact Part.wsForm_com _ p.a p.b hb)
  refine ⟨t, ht, hposted, hmem, ?_, fun k hk hne => ?_⟩
  · rw [hpart, Part.wsAt_setWs]
  · rw [hpart, Part.wsAt_setWs_ne _ _ (idx_inj hk (fld_lt ..) hne)]
    simp [Part.wsAt, Vector.get_eq_getElem]
theorem wsAbn_applies (hop : p.op = .wsAbn) (hb : ((s.part p.part).wsAt (bf p.b 0 3)).state = .building) :
    ∃ t, exec (.postedOpApply (.core g) 0) s = .next t ∧ (t.core g).posted = ps ∧ t.mem = s.mem ∧
      (t.part p.part).wsAt (bf p.b 0 3) = { (s.part p.part).wsAt (bf p.b 0 3) with state := .free } ∧
      ∀ k, k < 8 → k ≠ bf p.b 0 3 → (t.part p.part).wsAt k = (s.part p.part).wsAt k := by
  obtain ⟨t, ht, hposted, hmem, hpart⟩ := ws_applies hq (.inr (.inr hop)) (by rw [hop]; exact Part.wsForm_abn _ p.a p.b hb)
  refine ⟨t, ht, hposted, hmem, ?_, fun k hk hne => ?_⟩
  · rw [hpart, Part.wsAt_setWs]
  · rw [hpart, Part.wsAt_setWs_ne _ _ (idx_inj hk (fld_lt ..) hne)]
end
end Sys2Proof.Machine
end

section
/-! ## Posted operations (O37) -/
namespace Sys2Proof.Machine

/-- Settles O37: one clause for each kind of operation, each by the lemma on its turn. -/
theorem postedOperationsApply : Obligations.PostedOperationsApply := by
  unfold Obligations.PostedOperationsApply
  intro s g p ps x y r c u ev at_ ea rd shared keeps leads layer key clamp i32 lost sat apart n w ws hwf hq
  refine ⟨?nma, ?nmaPoison, ?list, ?pt, ?creelCfg, ?creelBias, ?sketch, ?cell, ?settle, ?tcAdd, ?tcSet, ?wsBeg, ?wsCom, ?wsAbn, ?wsRefused⟩
  case nma =>
    intro op ty us hop n ha hb hp hf
    obtain ⟨t, ht, hposted, hput⟩ := nma_applies hwf hq hop ha hb hp (nmaFmt_of hf)
    exact ⟨t, ht, hposted, hput.side, hput.out, hput.val⟩
  case nmaPoison =>
    intro op us hop ha hb hp
    exact nma_poisoned hq hop ha hb hp
  case list =>
    intro op ty xs sig hop hty e hlen ha hb hp hf
    obtain ⟨t, ht, hput, hposted, hsems⟩ := list_applies hwf hq hop hty hlen rfl ha hb hp hf
    exact ⟨t, ht, hput.out, hput.val, hposted, hsems⟩
  case pt =>
    intro ha
    refine ⟨?_, ?_, ?_⟩
    · intro hop e hb
      obtain ⟨t, ht, hposted, hput⟩ := ptWr_applies hwf hq ha hop hb
      refine ⟨t, ht, hposted, ?_, hput.out⟩
      rw [bf_zero]
      exact hput.val
    · intro hop hb
      obtain ⟨t, ht, hposted, hput⟩ := ptHwr_applies hwf hq ha hop hb
      exact ⟨t, ht, hposted, hput.val.trans (Nat.mod_eq_of_lt p.d.isLt), hput.out⟩
    · intro hop h1 h2
      exact ptClr_applies hwf hq ha hop rfl h1 h2
  case creelCfg =>
    intro hop nd h
    exact creelCfg_applies hq hop rfl h
  case creelBias =>
    intro hop
    exact creelBias_applies hq hop
  case sketch =>
    intro hsk ha
    refine ⟨?_, ?_, ?_, ?_⟩
    · intro hop mix
      exact skSeed_applies hwf hq hsk hop
    · intro hop
      exact skClr_applies hwf hq hsk hop ha
    · intro hok hfar hp hpd ctr
      refine ⟨?_, ?_⟩
      · intro hop hnan
        obtain ⟨t, ht, hposted, hsat, hout⟩ := skUpd_nan_applies hwf hq hsk ha hok hop hnan
        exact ⟨t, ht, hposted, hsat, hout⟩
      · intro neg m e hop herr hv v
        obtain ⟨k, hnear, htie, t, ht, hposted, hupd⟩ := skUpd_fin_applies hwf hq hsk ha hok hop hfar hp hpd herr hv
        refine ⟨k, hnear, htie, ?_⟩
        intro d
        refine ⟨t, ht, hposted, ?_⟩
        intro j hj h z
        obtain ⟨hval, hsat, hother⟩ := hupd.row hj
        rw [decide_eq_true_iff] at hsat
        exact ⟨hval, hsat, hother⟩
    · intro hop hsy hb hox hoy
      refine ⟨?_, ?_⟩
      · intro h
        exact skAdd_mismatch hq hop hsk hsy hox hoy h
      · intro hd hk hes hpair hxy hxd hyd herr
        have hsize : y.size = x.d * 2 ^ (x.k + 2) := by rw [Sketch.size, hd, hk]
        exact skAdd_applies hq hop hsk hsy hox hoy hwf hb hd hk hes hpair (by rwa [hsize]) hxd (by rwa [hsize]) herr
  case cell =>
    intro hr ha
    refine ⟨?_, ?_⟩
    · intro i hop hf
      exact ocInit_applies hwf hq hr hop ha hf
    · intro hop ho h stamp late twice stops hsuit
      have hs : opSuits c.i32 h.op = true := (opSuits_iff ..).2 hsuit
      refine ⟨?_, ?_, ?_, ?_⟩
      · intro hl
        exact ocIns_late hq hr ha hop ho hs hl
      · intro hl ht
        exact ocIns_twice hq hr ha hop ho hs hl ht
      · intro hl ht hlen
        exact ocIns_full hq hr ha hop ho hs hl ht hlen
      · intro hl ht hlen
        obtain ⟨t, hexec, hposted, hout, hval⟩ := ocIns_applies hwf hq hr ha hop ho hs hl ht hlen.ne
        obtain ⟨before, after, hsplit, hins, hbefore, hafter⟩ := histInsert_split (r := r) (histOf_src p.d.toNat) (State.openCell_ok ho).2
        rw [hins] at hval
        exact ⟨t, hexec, hposted, hout, before, after, hsplit, hval, hbefore, hafter⟩
  case settle =>
    intro hr hb hop j old hj h1 h2
    exact ocSettle_applies hwf hq hr hb hop hj h1 h2
  case tcAdd =>
    intro n hop
    exact tcAdd_applies hq hop
  case tcSet =>
    intro n j hop
    exact tcSet_applies hq hop j
  case wsBeg =>
    intro hop h
    exact wsBeg_applies hq hop h
  case wsCom =>
    intro hop h
    obtain ⟨t, ht, hposted, hmem, hn, hother⟩ := wsCom_applies hq hop h
    exact ⟨t, ht, hposted, hmem, hn, fun k hk hne => (hother k hk hne).trans (Ws.retired_eq _)⟩
  case wsAbn =>
    intro hop h
    exact wsAbn_applies hq hop h
  case wsRefused =>
    intro h
    have hws : p.op.isWs := by
      obtain ⟨h, -⟩ | ⟨h | h, -⟩ := h
      · exact .inl h
      · exact .inr (.inl h)
      · exact .inr (.inr h)
    obtain ⟨t, ht, hposted, hmem, hparts, hdue⟩ := ws_refused hq hws (Part.wsForm_refused _ p.a p.b h)
    refine ⟨t, ht, hposted, hmem, ?_, ?_⟩
    · intro k
      simp only [ws, State.part, hparts]
    · intro q hpart rank note
      exact hdue.trans (State.due_wsRefused hpart p)
end Sys2Proof.Machine
end

section
/-! ## Commands of the matrix engine (O31) -/
namespace Sys2Proof.Machine

/-! ### What the beginning of a word keeps of the engines' queues -/

theorem Core.setSeq_queue (q : Queue) (c : Core) (k : SeqKind) (x : Seq) : (c.setSeq k x).queue q = c.queue q := by
  cases k <;> rfl
theorem Core.setSeq_order (c : Core) (k : SeqKind) (x : Seq) : (c.setSeq k x).order = c.order := by cases k <;> rfl
theorem Core.setSeq_tiles (c : Core) (k : SeqKind) (x : Seq) : (c.setSeq k x).tiles = c.tiles := by cases k <;> rfl

section
variable (s : State) (i : Instr) (g : Nat)

theorem State.queue_begun (q : Queue) : ((s.begun i).core g).queue q = (s.core g).queue q :=
  State.core_begun_keeps (p := fun c => c.queue q) (Core.setSeq_queue q) (fun _ _ => by cases q <;> rfl) s i g
theorem State.order_begun : ((s.begun i).core g).order = (s.core g).order :=
  State.core_begun_keeps Core.setSeq_order (fun _ _ => rfl) s i g
theorem State.tiles_begun : ((s.begun i).core g).tiles = (s.core g).tiles :=
  State.core_begun_keeps Core.setSeq_tiles (fun _ _ => rfl) s i g
theorem State.rings_begun : ((s.begun i).core g).rings = (s.core g).rings :=
  State.core_begun_keeps Core.setSeq_rings (fun _ _ => rfl) s i g
theorem State.v_begun : ((s.begun i).core g).v = (s.core g).v :=
  State.core_begun_keeps Core.setSeq_v (fun _ _ => rfl) s i g
theorem State.vphys_begun (r : VReg) : (s.begun i).vphys r = s.vphys r := by
  rw [State.vphys, State.meCore_begun, State.core_begun_keeps Core.setSeq_vrot (fun _ _ => rfl), State.vphys]
end

/-! ### A command joins a queue (R214) -/

/-- The core once the command x has joined queue q: the last of it, and the next in command order. -/
def Core.joined (c : Core) (q : Queue) (x : QCmd) : Core :=
  { c with order := c.order + 1 }.setQueue q { c.queue q with cmds := (c.queue q).cmds ++ [x] }

section
variable (c : Core) (q : Queue) (x : QCmd)

theorem Core.queue_joined : (c.joined q x).queue q = { c.queue q with cmds := (c.queue q).cmds ++ [x] } := by simp [Core.joined]
theorem Core.queue_joined_ne {r : Queue} (h : r ≠ q) : (c.joined q x).queue r = c.queue r := by
  cases q <;> cases r <;> simp [Core.joined, Core.queue, Core.setQueue] at h ⊢
theorem Core.order_joined : (c.joined q x).order = c.order + 1 := by cases q <;> rfl
theorem Core.seq_joined (k : SeqKind) : (c.joined q x).seq k = c.seq k := by cases q <;> cases k <;> rfl
theorem Core.tiles_joined : (c.joined q x).tiles = c.tiles := by cases q <;> rfl
theorem Core.rings_joined : (c.joined q x).rings = c.rings := by cases q <;> rfl
theorem Core.sems_joined : (c.joined q x).sems = c.sems := by cases q <;> rfl
theorem Core.v_joined : (c.joined q x).v = c.v := by cases q <;> rfl
end

/-- A release by issue changes the hazard checker's records and nothing else (R77). -/
theorem State.issueTo_eq (s : State) (a c : Agent) (n : Nat) : ∃ z, s.issueTo a c n = { s with hazard := z } := by
  unfold State.issueTo
  split
  · exact ⟨_, rfl⟩
  · exact ⟨s.hazard, rfl⟩

section
variable {s : State} {q : Queue} {cmd : Cmd} {sig : Option Reg16}

/-- A command joins a queue with room: its core changes so, and neither memory nor the executing sequencer does. -/
theorem State.enqueue_room (h : ((s.core s.meCore).queue q).cmds.length < 128) : ∃ t, s.enqueue q cmd sig = .done t ∧
    t.core s.meCore =
      (s.core s.meCore).joined q { order := (s.core s.meCore).order, pc := s.curAddr, cmd := cmd, sig := sig } ∧
    t.me = s.me ∧ t.mem = s.mem ∧ t.side = s.side := by
  simp only [State.enqueue, if_neg (Nat.not_le.2 h)]
  obtain ⟨z, hz⟩ := State.issueTo_eq (s.setCore s.meCore ((s.core s.meCore).joined q
    { order := (s.core s.meCore).order, pc := s.curAddr, cmd := cmd, sig := sig })) s.agent
    (.cmd s.meCore cmd.engine (s.core s.meCore).order) 1
  exact ⟨_, congrArg Eff.done hz, s.core_setCore_self .., s.seqOf_setCore_keeps s.cur _ _ (Core.seq_joined _ q _), rfl, rfl⟩
theorem State.enqueue_full (h : 128 ≤ ((s.core s.meCore).queue q).cmds.length) :
    s.enqueue q cmd sig = if q = .m then .freeze .matrixQueue 0 else .stall := by
  simp only [State.enqueue, if_pos h]
  cases q <;> rfl

/-- A word whose effect is to enqueue a command joins the queue, and waits or freezes its core with a full one. -/
theorem queues_of_enqueue {i : Instr} {x : State → Eff} (hx : wordEffect i = some x)
    (he : x (s.begun i) = (s.begun i).enqueue q cmd sig) : Queues i s q cmd sig := by
  intro hpass
  have hlen : (((s.begun i).core (s.begun i).meCore).queue q).cmds.length = ((s.core s.meCore).queue q).cmds.length := by
    rw [State.queue_begun, State.meCore_begun]
  refine ⟨fun hroom => ?_, fun hfull => ?_⟩
  · obtain ⟨t, ht, hcore, hme, hmem, hside⟩ := State.enqueue_room (cmd := cmd) (sig := sig) (hlen.trans_lt hroom)
    rw [State.meCore_begun, State.order_begun, State.curAddr_begun] at hcore
    refine ⟨t, exec_done hx hpass (he.trans ht), ?_, ?_, fun r hr => ?_, ?_, ?_, ?_, fun r => ?_, fun r => ?_, ?_, ?_, ?_, ?_⟩
    · rw [hcore, Core.queue_joined, State.queue_begun]
    · rw [hcore, Core.order_joined, State.order_begun]
    · rw [hcore, Core.queue_joined_ne _ _ _ hr, State.queue_begun]
    · rw [hme, State.me_begun]
    · rw [hmem, State.mem_begun]
    · rw [hside, State.side_begun]
    · rw [State.rs, hme, ← State.rs, State.rs_begun]
    · rw [State.rp, hme, ← State.rp, State.rp_begun]
    · rw [hcore, Core.tiles_joined, State.tiles_begun]
    · rw [hcore, Core.rings_joined, State.rings_begun]
    · rw [hcore, Core.sems_joined, State.sems_begun]
    · rw [hcore, Core.v_joined, State.v_begun]
  · rw [exec_passes hx hpass, he, State.enqueue_full (hfull.trans_eq hlen.symm)]
    split <;> rfl
end

/-! ### Products (R226) -/

/-- A chunk of a product: the lines of A and those of B in it, and whether an operand in RN4 makes KC even (R226). -/
def mmaChunk : Fin 5 → Nat × Nat × Bool
  | 0 => (32, 128, false)
  | 1 => (16, 64, true)
  | 2 => (32, 64, true)
  | 3 => (16, 128, true)
  | 4 => (64, 256, false)

/-- KC, if it is a number of chunks that a product may have, that of both slots (R226). -/
theorem mmaChunks_eq_some_iff (kind : Fin 5) (o : Bool) (a b kc : Nat) : mmaChunks kind o a b = some kc ↔
    1 ≤ kc ∧ kc ≤ 16 ∧ a - o.toNat = (mmaChunk kind).1 * kc ∧ b = (mmaChunk kind).2.1 * kc ∧
      ((mmaChunk kind).2.2 = true → kc % 2 = 0) := by
  generalize hl : a - o.toNat = la
  fin_cases kind <;> simp [mmaChunks, mmaChunk, aLines, bLines, hl] <;> omega

section
variable {s : State} {ins : Instr} {kind : Fin 5} {d : TReg} {p q : Reg16} {i j k o r : Bool}
  (hx : wordEffect ins = some (mmaIssue kind d p q i j k o r))
include hx

theorem mma_queues {kc : Nat} (h : mmaChunks kind o (s.ring s.meCore p).ssz (s.ring s.meCore q).ssz = some kc) :
    Queues ins s .m (.mma kind d p q i j k o r kc (s.begun ins).curNp) none :=
  queues_of_enqueue hx (by simp only [mmaIssue, State.meCore_begun, State.ring_begun, h])
theorem mma_ring (h : mmaChunks kind o (s.ring s.meCore p).ssz (s.ring s.meCore q).ssz = none) (hpass : s.passes ins = true) :
    Raises ins s ringExc :=
  exec_trap hx hpass rfl (by simp only [mmaIssue, State.meCore_begun, State.ring_begun, h])

/-- What R226 says of one product, whose chunks have `aPer` and `bPer` lines. -/
theorem mma_issues {aPer bPer : Nat} {even : Bool} (hk : mmaChunk kind = (aPer, bPer, even)) (kc : Nat) :
    (1 ≤ kc ∧ kc ≤ 16 ∧ (s.ring s.meCore p).ssz - o.toNat = aPer * kc ∧ (s.ring s.meCore q).ssz = bPer * kc ∧
        (even = true → kc % 2 = 0) →
      Queues ins s .m (.mma kind d p q i j k o r kc (s.begun ins).curNp) none) ∧
    ((∀ n, 1 ≤ n → n ≤ 16 → (s.ring s.meCore p).ssz - o.toNat = aPer * n → (s.ring s.meCore q).ssz = bPer * n →
        even = true ∧ n % 2 = 1) → s.passes ins = true → Raises ins s ringExc) := by
  have hsome (n : Nat) := mmaChunks_eq_some_iff kind o (s.ring s.meCore p).ssz (s.ring s.meCore q).ssz n
  simp only [hk] at hsome
  refine ⟨fun h => mma_queues hx ((hsome kc).2 h), fun hnone => mma_ring hx ?_⟩
  rw [Option.eq_none_iff_forall_ne_some]
  intro n hn
  obtain ⟨h1, h16, ha, hb, heven⟩ := (hsome n).1 hn
  obtain ⟨he, hodd⟩ := hnone n h1 h16 ha hb
  rw [heven he] at hodd
  cases hodd
end

/-! ### Tile reads (R78, R228, R229) -/

theorem accRd_launches (s : State) (v : VReg) (a : TReg) (x : SReg) :
    Answers (.accRd v a x) s ((s.begun (.accRd v a x)).launch s.meCore .accrd
      (.accRd (s.vphys v) a (bf (s.rs x) 0 2) (shapeN s.shape) (s.core s.meCore).order)) := fun hpass =>
  exec_done rfl hpass (by
    rw [xAccRd, State.meCore_begun, State.vphys_begun, State.rs_begun, State.shape_begun, State.order_begun])
theorem accFlg_launches (s : State) (a : TReg) (x : SReg) :
    Answers (.accFlg x a) s ((s.begun (.accFlg x a)).launch s.meCore .accrd (.accFlg x a (s.core s.meCore).order)) :=
  fun hpass => exec_done rfl hpass (by rw [xAccFlg, State.meCore_begun, State.order_begun])

/-! ### Tile writes to a ring, TENT, RSLV and MKAT (R230, R232-R234) -/

section
variable {s : State}

theorem accSt_queues {p : Reg16} {a : TReg} {i j : Bool} (h : (if i then 32 else 64) ≤ (s.ring s.meCore p).ssz) :
    Queues (.accSt p a i j) s .m (.accSt p a i j) none :=
  queues_of_enqueue rfl (by rw [xAccSt, State.meCore_begun, State.ring_begun, if_neg (Nat.not_lt.2 h)])
theorem accSt_ring {p : Reg16} {a : TReg} {i j : Bool} (h : (s.ring s.meCore p).ssz < (if i then 32 else 64))
    (hpass : s.passes (.accSt p a i j) = true) : Raises (.accSt p a i j) s ringExc :=
  exec_trap rfl hpass rfl (by rw [xAccSt, State.meCore_begun, State.ring_begun, if_pos h])

/-- A block passes its check where it is aligned and in reach. -/
theorem State.ownChk_begun_none {i : Instr} {x : SReg} {al n : Nat}
    (h : (s.rs x).toNat % al = 0 ∧ (s.begun i).ownRange s.meCore (s.rs x) n {} = none) :
    (s.begun i).ownChk ((s.begun i).rs x) al n = none := by
  obtain ⟨halign, hrange⟩ := h
  simp only [State.ownChk, State.rs_begun, State.meCore_begun, alignChk, if_pos halign, hrange]
  rfl
theorem State.ownChk_misaligned {a : W64} {al : Nat} (h : a.toNat % al ≠ 0) (n : Nat) : s.ownChk a al n = some (align a) := by
  simp only [State.ownChk, alignChk, if_neg h]
  rfl

theorem tentMark_queues {d : TReg} {x : SReg}
    (h : (s.rs x).toNat % 256 = 0 ∧ (s.begun (.tentMark d x)).ownRange s.meCore (s.rs x) 256 {} = none) :
    Queues (.tentMark d x) s .m (.tent d (s.rs x)) none :=
  queues_of_enqueue rfl (by rw [xTentMark, State.ownChk_begun_none h, State.rs_begun, guardChk])
theorem rslv_queues {d : TReg} {x : SReg} {i j : Bool}
    (h : (s.rs x).toNat % 64 = 0 ∧ (s.begun (.rslv d x i j)).ownRange s.meCore (s.rs x) 64 {} = none) :
    Queues (.rslv d x i j) s .m (.rslv d (s.rs x) i) (if j then some 0 else none) :=
  queues_of_enqueue rfl (by rw [xRslv, State.ownChk_begun_none h, State.rs_begun, guardChk])
theorem rslv_misaligned {d : TReg} {x : SReg} {i j : Bool} (h : (s.rs x).toNat % 64 ≠ 0)
    (hpass : s.passes (.rslv d x i j) = true) : Raises (.rslv d x i j) s (align (s.rs x)) :=
  exec_trap rfl hpass rfl (by rw [xRslv, State.rs_begun, State.ownChk_misaligned h, guardChk])
theorem mkat_queues {x y : SReg} (h : (s.rs x).toNat < 256) :
    Queues (.mkat x y) s .m (.mkat (s.rs x).toNat ((s.rs y).setWidth 32)) none :=
  queues_of_enqueue rfl (by rw [xMkat, State.rs_begun, State.rs_begun, if_neg (Nat.not_le.2 h)])
theorem mkat_illegal {x y : SReg} (h : 256 ≤ (s.rs x).toNat) (hpass : s.passes (.mkat x y) = true) :
    Raises (.mkat x y) s illegal :=
  exec_trap rfl hpass rfl (by rw [xMkat, State.rs_begun, if_pos h])
end

/-- Settles O31: a word whose effect is to enqueue joins the queue; each word's own check decides between that and its fault. -/
theorem matrixCommandsAreQueued : Obligations.MatrixCommandsAreQueued := by
  unfold Obligations.MatrixCommandsAreQueued
  intro s d a b v x y p q i j k o r kc
  exact ⟨mma_issues (kind := 0) rfl rfl kc, mma_issues (kind := 1) rfl rfl kc, mma_issues (kind := 2) rfl rfl kc,
    mma_issues (kind := 3) rfl rfl kc, mma_issues (kind := 4) rfl rfl kc,
    accRd_launches s v a x, accFlg_launches s a x, accSt_queues, accSt_ring,
    queues_of_enqueue rfl rfl, queues_of_enqueue rfl rfl, tentMark_queues, rslv_queues, mkat_queues, mkat_illegal,
    rslv_misaligned⟩
end Sys2Proof.Machine
end

section
/-! ## Predictor tables and creels (O34): posting and returning words -/
namespace Sys2Proof.Machine

/-! ### What the beginning of a word keeps -/

/-- What neither a hearth core's sequencer nor its register errors touch. -/
theorem State.hearth_begun_keeps {γ : Type} {p : Hearth → γ} (hs : ∀ (c : Hearth) x, p { c with seq := x } = p c)
    (hr : ∀ (c : Hearth) e, p { c with regErr := e } = p c) (s : State) (i : Instr) (h : Nat) :
    p ((s.begun i).hearth h) = p (s.hearth h) := by
  have ho (ds : List Dest) : p ((s.overwrite ds).hearth h) = p (s.hearth h) := by
    unfold State.overwrite
    split
    · rfl
    · split <;> rfl
    · split
      · rfl
      · rw [State.hearth_setHearth]
        split
        · next hk => rw [hr, hk]
        · rfl
  have hset (t : State) (w : Who) (x : Seq) : p ((t.setSeq w x).hearth h) = p (t.hearth h) := by
    cases w with
    | core g q => rfl
    | hearth k =>
      simp only [State.setSeq, State.hearth_setHearth]
      split
      · next hk => rw [hs, hk]
      · rfl
  rw [State.begun_eq, State.setMe, hset]
  exact ho _

theorem Core.setSeq_posted (c : Core) (q : SeqKind) (x : Seq) : (c.setSeq q x).posted = c.posted := by cases q <;> rfl

section
variable (s : State) (i : Instr)

@[simp] theorem State.partFor_begun (w : Who) : (s.begun i).partFor w = s.partFor w := by
  cases w with
  | core g q => exact congrArg (fun x => (Option.getD x {}).part) (State.core_begun_keeps Core.setSeq_ctx (fun _ _ => rfl) s i g)
  | hearth h => exact State.hearth_begun_keeps (p := Hearth.hpart) (fun _ _ => rfl) (fun _ _ => rfl) s i h
@[simp] theorem State.postedBy_begun : (s.begun i).postedBy = s.postedBy := by
  unfold State.postedBy
  rw [State.cur_begun]
  split
  · exact State.core_begun_keeps Core.setSeq_posted (fun _ _ => rfl) s i _
  · rfl
  · exact State.hearth_begun_keeps (p := Hearth.posted) (fun _ _ => rfl) (fun _ _ => rfl) s i _
@[simp] theorem State.part_begun (p : Nat) : (s.begun i).part p = s.part p :=
  State.begun_keeps (p := fun t => t.part p) (fun _ _ _ => rfl) (fun _ _ _ => rfl) (fun _ _ => rfl) s i
@[simp] theorem State.islands_begun : (s.begun i).islands = s.islands :=
  State.begun_keeps (p := State.islands) (fun _ _ _ => rfl) (fun _ _ _ => rfl) (fun _ _ => rfl) s i
@[simp] theorem State.creel_begun (k : Nat) : (s.begun i).creel k = s.creel k :=
  State.begun_keeps (p := fun t => t.creel k) (fun _ _ _ => rfl) (fun _ _ _ => rfl) (fun _ _ => rfl) s i
@[simp] theorem State.sharedOk_begun (p a n : Nat) : (s.begun i).sharedOk p a n = s.sharedOk p a n :=
  State.begun_keeps (p := fun t => t.sharedOk p a n) (fun _ _ _ => rfl) (fun _ _ _ => rfl) (fun _ _ => rfl) s i
@[simp] theorem State.bankErr_begun (a n : Nat) : (s.begun i).bankErr a n = s.bankErr a n :=
  State.begun_keeps (p := fun t => t.bankErr a n) (fun _ _ _ => rfl) (fun _ _ _ => rfl) (fun _ _ => rfl) s i
end

/-! ### Posting and returning forms (R237) -/

section
variable {s : State} {i : Instr} {x : State → Eff} (hx : wordEffect i = some x)
include hx

theorem posts_of_posted {op : NearOp} {d a b : W64} {chk : Option Exc} (hchk : chk = none)
    (ht : x (s.begun i) = posted chk op d a b (s.begun i)) : Posts i s op d a b := fun hpass =>
  exec_done hx hpass (by rw [ht, hchk, posted])
theorem answers_of_returning {d : SReg} {f : State → Applied} {u : State} {v : W64} {chk : Option Exc} (hchk : chk = none)
    (ht : x (s.begun i) = returning chk f d (s.begun i)) (hp : s.postedBy = []) (hf : f (s.begun i) = { s := u, r := .ok v }) :
    Answers i s (u.putS .salu d v) := fun hpass =>
  exec_done hx hpass (by
    rw [ht, hchk]
    simp only [returning, State.postedBy_begun, hp, hf]
    rfl)
end

/-- The accesses of an operation change the records of the hazard checker and ask islands to run. -/
theorem State.nearAccess_eq (s : State) (xs : List (Nat × Nat)) : ∃ z j, s.nearAccess xs = { s with hazard := z, islands := j } := by
  refine foldl_keeps (fun t => ∃ z j, t = { s with hazard := z, islands := j }) _ (fun t y ⟨z, j, ht⟩ => ?_) xs s ⟨_, _, rfl⟩
  obtain ⟨k, hk⟩ := t.wakeKey_eq y.1
  obtain ⟨w, hw⟩ := (t.wakeKey y.1).tracked_logAccess t.agent y.1 y.2 true true (t.fences t.agent)
  rw [hw, hk, ht]
  exact ⟨w, k, rfl⟩
theorem Applied.on_ok (u : State) (v : W64) (xs : List (Nat × Nat)) (f : W64 → Bool) :
    ∃ z j, ({ s := u, r := .ok v } : Applied).on xs f = { s := { u with hazard := z, islands := j }, r := .ok v } := by
  simp only [Applied.on]
  split
  · obtain ⟨z, j, h⟩ := u.nearAccess_eq xs
    exact ⟨z, j, by rw [h]⟩
  · exact ⟨_, _, rfl⟩

/-! ### Predictor tables (R84, R244) -/

/-- The word's table is aligned and in the partition's slices, and the reserved bits of its selector are 0. -/
def State.PtOk (s : State) (x w : W64) (head : Bool) : Prop :=
  x.toNat % 256 = 0 ∧ s.sharedOk (s.partFor s.cur) x.toNat ptSize = true ∧ bf w 22 42 = 0 ∧ bf w 12 4 = 0 ∧
    (head = true → bf w 0 12 = 0)
theorem State.PtOk.chk {s : State} {x w : W64} {head : Bool} (h : s.PtOk x w head) (i : Instr) : (s.begun i).ptChk x w head = none := by
  obtain ⟨hal, hsh, hhi, hmid, hexpert⟩ := h
  have hlow : (!head || bf w 0 12 == 0) = true := by
    cases head with
    | false => rfl
    | true => simp [hexpert rfl]
  simp [State.ptChk, State.ptChkIn, State.sharedChkIn, orElse, limit, hal, hsh, hhi, hmid, hlow]

theorem ptRead_ok {s : State} {p n : Nat} (h : s.bankErr p n = none) :
    ptRead p n s = { s := s.nearAccess [(shKey p, n)], r := .ok (w64 (s.shRd p n)) } := by
  rw [ptRead, h]

section
variable {s : State} {d a b : SReg}

/-- A word that reads n bytes of a predictor table. -/
theorem ptab_reads {i : Instr} {x : State → Eff} {head : Bool} {p n : Nat} (hx : wordEffect i = some x)
    (ht : x (s.begun i) = returning ((s.begun i).ptChk (s.rs a) (s.rs b) head) (ptRead p n) d (s.begun i))
    (hok : s.PtOk (s.rs a) (s.rs b) head) (hp : s.postedBy = []) (hb : s.bankErr p n = none) :
    ∃ t : State, Answers i s (t.putS .salu d (w64 (s.shRd p n))) ∧
      { t with hazard := s.hazard, islands := s.islands } = s.begun i := by
  have hread := ptRead_ok ((State.bankErr_begun s i p n).trans hb)
  rw [State.shRd_congr (s.mem_begun i)] at hread
  refine ⟨_, answers_of_returning hx (hok.chk i) ht hp hread, ?_⟩
  obtain ⟨z, j, h⟩ := (s.begun i).nearAccess_eq [(shKey p, n)]
  rw [h, ← State.hazard_begun s i, ← State.islands_begun s i]
theorem ptabWr_posts (hok : s.PtOk (s.rs a) (s.rs b) false) (hd : bf (s.rs d) 32 32 = 0) :
    Posts (.ptabWr d a b) s .ptWr (s.rs d) (s.rs a) (s.rs b) :=
  posts_of_posted rfl (chk := orElse ((s.begun (.ptabWr d a b)).ptChk (s.rs a) (s.rs b) false) (limit (bf (s.rs d) 32 32 == 0)))
    (by rw [hok.chk, hd]; rfl) (by simp only [xPtabWr, State.rs_begun])
theorem ptabHwr_posts (hok : s.PtOk (s.rs a) (s.rs b) true) (hd : ptHeadOk (s.rs d).toNat = true) :
    Posts (.ptabHwr d a b) s .ptHwr (s.rs d) (s.rs a) (s.rs b) :=
  posts_of_posted rfl (chk := orElse ((s.begun (.ptabHwr d a b)).ptChk (s.rs a) (s.rs b) true) (limit (ptHeadOk (s.rs d).toNat)))
    (by rw [hok.chk, hd]; rfl) (by simp only [xPtabHwr, State.rs_begun])
theorem ptabClr_posts (hok : s.PtOk (s.rs a) (s.rs b) true) : Posts (.ptabClr a b) s .ptClr 0 (s.rs a) (s.rs b) :=
  posts_of_posted rfl (hok.chk (.ptabClr a b)) (by simp only [xPtabClr, State.rs_begun])
end

/-! ### Creel words (R245, R246) -/

/-- The creel lies in the partition's slices, and the reserved bits of its word are 0, as are TOKEN and EXPERT where the form
does not use them. -/
def State.CreelOk (s : State) (w : W64) (token expert : Bool) : Prop :=
  bf w 56 8 = 0 ∧ bf w 28 4 = 0 ∧ bf w 14 2 = 0 ∧ (token = true ∨ bf w 32 24 = 0) ∧ (expert = true ∨ bf w 16 12 = 0) ∧
    (s.part (s.partFor s.cur)).pslc.getLsbD (8 * (bf w 3 11 / 512) + bf w 0 3) = true
theorem creelSlice_creelKey (w : W64) : creelSlice (creelKey w) = 8 * (bf w 3 11 / 512) + bf w 0 3 := by
  simp only [creelSlice, creelKey, bf, fld]
  omega
theorem State.CreelOk.chk {s : State} {w : W64} {token expert : Bool} (h : s.CreelOk w token expert) (i : Instr) :
    (s.begun i).creelChk w token expert = none := by
  obtain ⟨h1, h2, h3, htoken, hexpert, hslice⟩ := h
  have ht : (token || bf w 32 24 == 0) = true := by simpa using htoken
  have he : (expert || bf w 16 12 == 0) = true := by simpa using hexpert
  rw [← creelSlice_creelKey] at hslice
  simp [State.creelChk, State.creelChkIn, orElse, limit, h1, h2, h3, ht, he, hslice]

section
variable {s : State} {d a b : SReg}

theorem creelCfg_posts (hok : s.CreelOk (s.rs a) false true) : Posts (.creelCfg a b) s .creelCfg 0 (s.rs a) (s.rs b) :=
  posts_of_posted rfl (hok.chk (.creelCfg a b)) (by simp only [xCreelCfg, State.rs_begun])
theorem creelBias_posts (hok : s.CreelOk (s.rs a) false false) (hb : bf (s.rs b) 32 32 = 0) (hf : fld (bf (s.rs b) 0 32) 23 8 ≠ 255) :
    Posts (.creelBias a b) s .creelBias 0 (s.rs a) (s.rs b) :=
  posts_of_posted rfl (chk := orElse ((s.begun (.creelBias a b)).creelChk (s.rs a) false false)
      (limit (bf (s.rs b) 32 32 == 0 && isFinite (bf (s.rs b) 0 32))))
    (by simp [hok.chk, hb, isFinite, hf, orElse, limit]) (by simp only [xCreelBias, State.rs_begun])
theorem creelRd_gives (hok : s.CreelOk (s.rs a) false false) (hp : s.postedBy = []) {c : Creel} (hc : c = s.creel (creelKey (s.rs a)))
    (hset : c.set = true) : GivesS (.creelRd d a) s .salu d
      (w64 (c.bias.toNat + c.held.length * 2 ^ 32 + 2 ^ 45 + (c.cap - 1) * 2 ^ 48)) := by
  refine answers_of_returning rfl (hok.chk (.creelRd d a)) (f := fun t => t.creelWord (s.rs a))
    (by simp only [xCreelRd, State.rs_begun]) hp ?_
  simp only [State.creelWord, State.creel_begun, ← hc, hset]
  rfl
end

/-! ### Offers (R91, R246) -/

/-- The entry that an offer brings: its token, score and weight. -/
def offered (w b : W64) : W32 × W32 × W32 :=
  (BitVec.ofNat 32 (bf w 32 24), BitVec.ofNat 32 (bf b 0 32), BitVec.ofNat 32 (bf b 32 32))

section
variable {s : State} {w b : W64} {c : Creel} (hc : s.creel (creelKey w) = c) (hset : c.set = true) (hexp : c.expert = bf w 16 12)
  (p : Nat)
include hc hset hexp

theorem State.offer_held (h : ∃ y ∈ c.held, y.1 = (offered w b).1) : s.offer p w b = { s := s, r := .ok 2 } := by
  have hany : (c.held.any fun y => y.1 == (offered w b).1) = true := by simpa using h
  simp only [offered] at hany
  simp [State.offer, hc, hset, hexp, hany]
theorem State.offer_room (h : ∀ y ∈ c.held, y.1 ≠ (offered w b).1) (hroom : c.held.length < c.cap) :
    s.offer p w b = { s := s.setCreel (creelKey w) { c with held := offered w b :: c.held }, r := .ok 0 } := by
  have hany : (c.held.any fun y => y.1 == (offered w b).1) = false := by simpa using h
  simp only [offered] at hany
  simp [State.offer, hc, hset, hexp, hany, hroom, offered]
end

/-- An offer of two numbers, where its unit answers without a notice: bit 0 of its result is 0. -/
theorem creelOffer_answers {s u : State} {d a b : SReg} {v : W64} (hok : s.CreelOk (s.rs a) true true) (hp : s.postedBy = [])
    (hscore : (ofBits (bf (s.rs b) 0 32)).isNan = false) (hweight : (ofBits (bf (s.rs b) 32 32)).isNan = false) (hv : v.getLsbD 0 = false)
    (h : (s.begun (.creelOffer d a b)).offer (s.partFor s.cur) (s.rs a) (s.rs b) = { s := u, r := .ok v }) :
    Answers (.creelOffer d a b) s (u.putS .salu d v) := by
  refine answers_of_returning rfl (chk := orElse ((s.begun (.creelOffer d a b)).creelChk (s.rs a) true true)
      (limit (!isNan (bf (s.rs b) 0 32) && !isNan (bf (s.rs b) 32 32))))
    (f := fun t => (t.offer (t.partFor t.cur) (s.rs a) (s.rs b)).on (t.noticePlaces (s.rs a)) fun v => v.getLsbD 0)
    (by simp [hok.chk, isNan, hscore, hweight, orElse, limit]) (by simp only [xCreelOffer, State.rs_begun]) hp ?_
  simp only [State.partFor_begun, State.cur_begun, h, Applied.on, hv]
  rfl
end Sys2Proof.Machine
end

section
/-! ## Predictor tables and creels (O34): drains -/
namespace Sys2Proof.Machine

/-! ### Entries by rising token (R93) -/

theorem insertToken_eq (e : W32 × W32 × W32) (l : List (W32 × W32 × W32)) :
    insertToken e l = l.orderedInsert (fun x y => x.1 ≤ y.1) e := by
  induction l with
  | nil => rfl
  | cons x xs ih => rw [insertToken, List.orderedInsert_cons, ih]
/-- A creel's entries in the order in which a drain writes them. -/
def Creel.sorted (c : Creel) : List (W32 × W32 × W32) := c.held.foldr insertToken []
theorem Creel.sorted_eq (c : Creel) : c.sorted = c.held.insertionSort fun x y => x.1 ≤ y.1 := by
  unfold Creel.sorted
  induction c.held with
  | nil => rfl
  | cons e l ih => rw [List.foldr_cons, ih, insertToken_eq, List.insertionSort_cons]
theorem Creel.length_sorted (c : Creel) : c.sorted.length = c.held.length := by rw [c.sorted_eq, List.length_insertionSort]
/-- Where tokens differ there is one order of rising tokens. -/
theorem Creel.sorted_of_rising {c : Creel} {es : List (W32 × W32 × W32)} (hperm : es.Perm c.held)
    (hes : es.Pairwise fun x y => x.1 < y.1) : c.sorted = es := by
  have hinj := List.inj_on_of_nodup_map (f := Prod.fst) (l := es) (List.pairwise_map.2 (hes.imp fun h => BitVec.ne_of_lt h))
  have htotal : Std.Total fun x y : W32 × W32 × W32 => x.1 ≤ y.1 := ⟨fun x y => BitVec.le_total x.1 y.1⟩
  have htrans : IsTrans (W32 × W32 × W32) fun x y => x.1 ≤ y.1 := ⟨fun _ _ _ hxy hyz => BitVec.le_trans hxy hyz⟩
  have hsorted := List.pairwise_insertionSort (fun x y : W32 × W32 × W32 => x.1 ≤ y.1) c.held
  have hsame : (c.held.insertionSort fun x y => x.1 ≤ y.1).Perm es := (List.perm_insertionSort _ _).trans hperm.symm
  rw [c.sorted_eq]
  exact hsame.eq_of_pairwise (fun x y hx hy hxy hyx => hinj (hsame.mem_iff.1 hx) hy (BitVec.le_antisymm hxy hyx)) hsorted
    (hes.imp fun h => BitVec.le_of_lt h)

/-! ### The decision list (R93) -/

/-- The state after a list of entries has been written as decisions from address a, the first of them in slot k. -/
def State.writeDecisions (s : State) (a expert k : Nat) (es : List (W32 × W32 × W32)) : State :=
  (es.zipIdx k).foldl (fun s x => s.shWr (a + 16 * x.2) 16 (decisionBits expert x.2 x.1)) s
theorem State.writeDecisions_cons (s : State) (a expert k : Nat) (e : W32 × W32 × W32) (es : List (W32 × W32 × W32)) :
    s.writeDecisions a expert k (e :: es) =
      (s.shWr (a + 16 * k) 16 (decisionBits expert k e)).writeDecisions a expert (k + 1) es := by
  rw [State.writeDecisions, List.zipIdx_cons, List.foldl_cons, State.writeDecisions]
theorem decisionBits_lt {expert slot : Nat} (he : expert < 2 ^ 12) (hs : slot < 2 ^ 28) (e : W32 × W32 × W32) :
    decisionBits expert slot e < 2 ^ (8 * 16) := by
  have := e.2.2.isLt
  unfold decisionBits
  omega
/-- Decisions are written one after another: what lies before the first keeps, and each reads back. -/
theorem State.writeDecisions_spec {a expert : Nat} (he : expert < 2 ^ 12) {es : List (W32 × W32 × W32)} {s : State} {k : Nat}
    (hwf : Memory.wf s.mem = true) (ha : ShRange a (16 * (k + es.length))) :
    (∀ y < shKey a + 16 * k, Mem.read (s.writeDecisions a expert k es).mem y = Mem.read s.mem y) ∧
      ∀ j z, es[j]? = some z → (s.writeDecisions a expert k es).shRd (a + 16 * (k + j)) 16 = decisionBits expert (k + j) z := by
  induction es generalizing s k with
  | nil => exact ⟨fun _ _ => rfl, fun _ _ h => by simp at h⟩
  | cons e es ih =>
    rw [List.length_cons] at ha
    have hr : ShRange (a + 16 * k) 16 := ha.sub (by omega) (by omega)
    have hkey := shKey_add ha (16 * k)
    have hrest : ShRange a (16 * (k + 1 + es.length)) := ha.sub le_rfl (by omega)
    have hput := State.put_shWr hwf hr (decisionBits expert k e)
    obtain ⟨hout, hvals⟩ := ih (State.wf_shWr hwf (a + 16 * k) 16 (decisionBits expert k e)) hrest
    rw [State.writeDecisions_cons]
    generalize s.shWr (a + 16 * k) 16 _ = u at *
    refine ⟨fun y hy => (hout y (by omega)).trans (hput.out y (by omega)), fun j z hz => ?_⟩
    cases j with
    | zero =>
      obtain rfl : e = z := by simpa using hz
      have hk : k < 2 ^ 28 := by
        obtain ⟨hlo, hhi⟩ := ha
        omega
      have hfirst : (u.writeDecisions a expert (k + 1) es).shRd (a + 16 * k) 16 = u.shRd (a + 16 * k) 16 :=
        Mem.readN_congr _ _ fun i hi => hout _ (by omega)
      exact hfirst.trans (hput.val.trans (Nat.mod_eq_of_lt (decisionBits_lt he hk e)))
    | succ j =>
      have hval := hvals j z (by simpa using hz)
      rwa [show k + 1 + j = k + (j + 1) by omega] at hval

/-! ### The word (R93, R247) -/

theorem State.drain_ok {s : State} {p : Nat} {w b : W64} {c : Creel} (hc : s.creel (creelKey w) = c) (hset : c.set = true)
    (h : c.held = [] ∨ s.sharedOk p b.toNat (16 * c.held.length) = true) : s.drain p w b =
      { s := (s.writeDecisions b.toNat c.expert 0 c.sorted).setCreel (creelKey w) { c with held := [] }, r := .ok (w64 c.held.length) } := by
  have hchk : (!(c.held.length == 0) && !s.sharedOk p b.toNat (16 * c.held.length)) = false := by
    obtain h | h := h <;> simp [h]
  have hes : c.held.foldr insertToken [] = c.sorted := rfl
  simp only [State.drain, hc, hset, hes, c.length_sorted, hchk]
  rfl

section
variable {s : State} {d a b : SReg} {c : Creel} (hok : s.CreelOk (s.rs a) false false) (hp : s.postedBy = [])
  (hc : c = s.creel (creelKey (s.rs a))) (hset : c.set = true) (hal : (s.rs b).toNat % 16 = 0)
  (hpass : s.passes (.creelDrain d a b) = true)
include hok hp hc hset hal hpass

/-- A drain gives the number of entries, has written them by rising token and empties the creel. -/
theorem creelDrain_exec (h : c.held = [] ∨ s.sharedOk (s.partFor s.cur) (s.rs b).toNat (16 * c.held.length) = true) :
    ∃ t : State, exec (.creelDrain d a b) s = .next (t.putS .salu d (w64 c.held.length)) ∧ (t.creel (creelKey (s.rs a))).held = [] ∧
      t.mem = ((s.begun (.creelDrain d a b)).writeDecisions (s.rs b).toNat c.expert 0 c.sorted).mem := by
  have hdrain := State.drain_ok (s := s.begun (.creelDrain d a b)) (p := s.partFor s.cur) (b := s.rs b)
    ((State.creel_begun ..).trans hc.symm) hset (by rwa [State.sharedOk_begun])
  generalize hu : State.setCreel _ _ _ = u at hdrain
  obtain ⟨z, j, hon⟩ := Applied.on_ok u (w64 c.held.length) [(shKey (s.rs b).toNat, 16 * c.held.length)] fun v => !(v == 0)
  refine ⟨{ u with hazard := z, islands := j }, answers_of_returning rfl
    (chk := orElse ((s.begun (.creelDrain d a b)).creelChk (s.rs a) false false) (if (s.rs b).toNat % 16 = 0 then none else some (align (s.rs b))))
    (f := fun t => (t.drain (t.partFor t.cur) (s.rs a) (s.rs b)).on
      [(shKey (s.rs b).toNat, 16 * (t.creel (creelKey (s.rs a))).held.length)] fun v => !(v == 0))
    (by simp [hok.chk, hal, orElse]) (by simp only [xCreelDrain, State.rs_begun]) hp ?_ hpass, ?_, ?_⟩
  · simp only [State.partFor_begun, State.cur_begun, State.creel_begun, hdrain, ← hc, hon]
  · rw [← hu]
    exact congrArg Creel.held (State.creel_setCreel ..)
  · rw [← hu]
    rfl
theorem creelDrain_empty (h : c.held = []) : ∃ t : State, exec (.creelDrain d a b) s = .next (t.putS .salu d 0) ∧ t.mem = s.mem ∧
    (t.creel (creelKey (s.rs a))).held = [] := by
  obtain ⟨t, ht, hheld, hmem⟩ := creelDrain_exec hok hp hc hset hal hpass (.inl h)
  have hsorted : c.sorted = [] := by rw [Creel.sorted, h]; rfl
  rw [h] at ht
  exact ⟨t, ht, by rw [hmem, hsorted]; exact State.mem_begun .., hheld⟩
theorem creelDrain_decides (hwf : Memory.wf s.mem = true) (hexp : c.expert < 2 ^ 12)
    (hsh : s.sharedOk (s.partFor s.cur) (s.rs b).toNat (16 * c.held.length) = true) :
    ∃ t : State, exec (.creelDrain d a b) s = .next (t.putS .salu d (w64 c.held.length)) ∧ (t.creel (creelKey (s.rs a))).held = [] ∧
      ∀ es : List (W32 × W32 × W32), es.Perm c.held → es.Pairwise (fun x y => x.1 < y.1) → ∀ j < es.length, ∀ z, es[j]? = some z →
        Mem.readN t.mem (shKey (s.rs b).toNat + 16 * j) 16 = decisionBits c.expert j z := by
  obtain ⟨t, ht, hheld, hmem⟩ := creelDrain_exec hok hp hc hset hal hpass (.inr hsh)
  refine ⟨t, ht, hheld, fun es hperm hes j hj z hz => ?_⟩
  have hr : ShRange (s.rs b).toNat (16 * (0 + es.length)) := by
    rw [Nat.zero_add, hperm.length_eq]
    exact .of_sharedOk hsh
  obtain ⟨-, hvals⟩ := State.writeDecisions_spec hexp (s := s.begun (.creelDrain d a b)) (by rwa [State.mem_begun]) hr
  have hval := hvals j z hz
  rw [Nat.zero_add, State.shRd, shKey_add hr] at hval
  rw [hmem, Creel.sorted_of_rising hperm hes]
  exact hval
end

/-- Settles O34: a word whose checks pass posts its operation or returns what its unit answers; a drain writes the entries in the
one order of rising tokens. -/
theorem predictorAndCreelWords : Obligations.PredictorAndCreelWords := by
  unfold Obligations.PredictorAndCreelWords
  intro s d a b x w part layer ok at_ reads key c creel finite of dr e
  refine ⟨fun hok hp hb => ptab_reads (x := xPtabRd d a b) rfl (by simp only [xPtabRd, State.rs_begun]; rfl) hok hp hb,
    fun hok hp hb => ptab_reads (x := xPtabHrd d a b) rfl (by simp only [xPtabHrd, State.rs_begun]; rfl) hok hp hb,
    fun hok hp hb => ptab_reads (x := xPtabCrd d a b) rfl (by simp only [xPtabCrd, State.rs_begun]; rfl) hok hp hb,
    ptabWr_posts, ptabHwr_posts, ptabClr_posts, creelCfg_posts, creelBias_posts, fun hok hp => creelRd_gives hok hp rfl,
    fun hok hp hscore hweight hset hexp => ?_, fun hok hp hset hal => ?_⟩
  · have hc : (s.begun of).creel key = c := State.creel_begun ..
    exact ⟨fun hheld => creelOffer_answers hok hp hscore hweight rfl (State.offer_held hc hset hexp _ hheld),
      fun hnew hroom => creelOffer_answers hok hp hscore hweight rfl (State.offer_room hc hset hexp _ hnew hroom)⟩
  · exact ⟨fun hheld hpass => creelDrain_empty hok hp rfl hset hal hpass hheld,
      fun hwf hexp hsh hpass => creelDrain_decides hok hp rfl hset hal hpass hwf hexp hsh⟩
end Sys2Proof.Machine
end

section
/-! ## Writes of privileged registers (O50) -/
namespace Sys2Proof.Machine

/-! ### A write at a level that may make it (R285) -/

theorem State.regNumber_of_level {s : State} {h n r w : Nat} (hn : n < 2 ^ 12) (hp : pregLevels n = some (r, w))
    (hl : w ≤ (s.hearth h).lv) : s.regNumber h (w64 n) true = .ok n := by
  have hv : (w64 n).toNat = n := by
    rw [w64, BitVec.toNat_ofNat]
    exact Nat.mod_eq_of_lt (by omega)
  rw [State.regNumber, hv, if_neg (by omega), hp]
  exact if_neg (Nat.not_lt.2 hl)
/-- The step comes to the register's own write. -/
theorem regWrite_of_level {s : State} {h n r w : Nat} (hn : n < 2 ^ 12) (hp : pregLevels n = some (r, w))
    (hl : w ≤ (s.hearth h).lv) (v : W64) : regWrite h n v s = regStep h (s.wrReg h n v) s := by
  rw [regWrite, State.regNumber_of_level hn hp hl]

/-! ### RESET of a queue pair (R119) -/

theorem State.selQp_granted {s : State} {p : Nat} (hq : (s.part p).qpsel < bf (s.part p).pqp 16 11) :
    s.selQp p = .ok (bf (s.part p).pqp 0 10 + (s.part p).qpsel) := if_pos hq
/-- At level S or H, RESET resets the queue pair that QPSEL names. -/
theorem exec_qpctlReset {s : State} {h : Nat} (hl : 1 ≤ (s.hearth h).lv)
    (hq : (s.part (s.hearth h).hpart).qpsel < bf (s.part (s.hearth h).hpart).pqp 16 11) : exec (.qpctlReset h) s =
      .next (s.qpReset (bf (s.part (s.hearth h).hpart).pqp 0 10 + (s.part (s.hearth h).hpart).qpsel)) := by
  have hw : s.wrReg h 0x84D 2 = s.wrQpctl (s.hearth h).hpart 2 := rfl
  change regWrite h 0x84D 2 s = _
  rw [regWrite_of_level (by decide) rfl hl, hw, State.wrQpctl, State.selQp_granted hq]
  rfl
/-- An entry that has failed stays armed until its record is posted (R129), though it has not fired. -/
theorem State.works_qpReset (s : State) (n : Nat) :
    ((s.qpReset n).qp n).works = (s.qp n).works.filter fun w => w.fired || w.fail.isSome := by
  rw [State.qpReset, State.qp_setQp, if_pos rfl]

/-- An entry that failed with FORMAT as it was armed, so that it never fires. -/
def failedEntry : Work := { idx := 0, word := 0, fail := some (6, 0, 0) }
/-- Hearth core 0 at level S acts for partition 0, which has one queue pair, and that one holds a failed entry. -/
def failedQueue : State :=
  { hearths := [(0, { lv := 1 })], parts := [(0, { pqp := 0x10000 })]
    qps := [(0, { state := .on, tail := 1, arm := 1, works := [failedEntry] })] }

/-- Refutes O50: QPCTL RESET keeps an entry that has failed and not fired until its record is posted (R129); the statement
keeps the fired entries alone. -/
theorem not_registerWriteSteps : ¬ Obligations.RegisterWriteSteps := by
  intro h
  have hsel : (failedQueue.part (failedQueue.hearth 0).hpart).qpsel <
      bf (failedQueue.part (failedQueue.hearth 0).hpart).pqp 16 11 := by decide
  obtain ⟨hmay, -⟩ := h failedQueue 0 0 0
  obtain ⟨-, -, -, -, -, -, -, -, -, -, hqp, -⟩ := hmay (by decide)
  obtain ⟨⟨t, ht, -, hreset⟩, -⟩ := hqp hsel
  rw [exec_qpctlReset (by decide) hsel] at ht
  obtain rfl := Host.Outcome.next.inj ht
  have hkept : [failedEntry] = [failedEntry].filter fun w => w.fired :=
    (State.works_qpReset failedQueue 0).symm.trans (congrArg Qp.works hreset)
  exact absurd hkept (by decide)
end Sys2Proof.Machine
end

section
/-! ## Words of `Near`: what executing one comes to -/
namespace Sys2Proof.Machine

/-- The instruction that a sequencer may wait at as a word of `Near`. -/
@[simp] noncomputable def Near.instr : Near → Instr
  | .nmaMaxF32 d a b => .nmaMaxF32 d a b
  | .nmaSwapF32 d a b => .nmaSwapF32 d a b
  | .nmaCasF32 d a b => .nmaCasF32 d a b
  | .nmaLaddF32 d a b g => .nmaLaddF32 d a b g
  | .nmaLaddI32 d a b g => .nmaLaddI32 d a b g
  | .nmaLmaxF32 d a b g => .nmaLmaxF32 d a b g
  | .skSeed a b => .skSeed a b
  | .skUpd d a b => .skUpd d a b
  | .skUpdl a b g => .skUpdl a b g
  | .skQry d a b => .skQry d a b
  | .skQryl a b g => .skQryl a b g
  | .skAdd a b => .skAdd a b
  | .skClr a => .skClr a
  | .ocInit d a b i => .ocInit d a b i
  | .ocIns d a b => .ocIns d a b
  | .ocLdt d a b => .ocLdt d a b
  | .ocLds d a b => .ocLds d a b
  | .ocSettle a b => .ocSettle a b
  | .ocFold d b => .ocFold d b
  | .postTask a => .postTask a
  | .postQp a b => .postQp a b
  | .postTcadd d a b h n => .postTcadd d a b h n
  | .postTcset d a b h n => .postTcset d a b h n
  | .postTcrd d a b h n => .postTcrd d a b h n
  | .postTcwait d a b h n => .postTcwait d a b h n
  | .postWbeg a b => .postWbeg a b
  | .postWcom b => .postWcom b
  | .postWabn b => .postWabn b
  | .postWst d b => .postWst d b

theorem Near.exec_instr (n : Near) (s : State) : exec n.instr s = runNear n (nearEffect n) s := by cases n <;> rfl
theorem Near.major_instr (n : Near) : n.major = majorOf n.instr := by cases n <;> rfl
theorem Near.wf_instr (n : Near) : n.wf = n.instr.wf := by cases n <;> rfl
theorem Near.stateOk_instr (n : Near) (s : State) : stateOk 0 n.instr s = true := by cases n <;> rfl
theorem Near.groupCheck_instr (n : Near) (s : State) : groupCheck n.major n.wf s = issueCheck 0 n.instr s := by
  rw [issueCheck, n.stateOk_instr, Bool.and_true, n.major_instr, n.wf_instr]
theorem Near.sources_instr (n : Near) : n.sources = Machine.sources n.instr := by cases n <;> rfl
theorem Near.dests_instr (n : Near) : n.dests = Machine.dests n.instr := by cases n <;> rfl

section
variable {s : State} {n : Near} (hpass : s.passes n.instr = true)
include hpass

/-- A word of `Near` that passes comes to what its effect makes of the state in which it begins. -/
theorem Near.exec_passes : exec n.instr s = .next (settle (.near n) s (nearEffect n (s.begun n.instr))) := by
  rw [n.exec_instr, runNear_of_passes _ hpass (n.groupCheck_instr s) n.sources_instr n.dests_instr]
theorem Near.exec_done {t : State} (h : nearEffect n (s.begun n.instr) = .done t) : exec n.instr s = .next t := by
  rw [Near.exec_passes hpass, h, settle_done]
theorem Near.exec_stall (h : nearEffect n (s.begun n.instr) = .stall) :
    exec n.instr s = .next (s.setMe { s.me with wait := some (.near n) }) := by
  rw [Near.exec_passes hpass, h, settle_stall]
end

/-- A returning form answers where nothing of its sequencer waits to be applied and its unit finds no fault. -/
theorem returning_done {s u : State} {f : State → Applied} {v : W64} (d : SReg) (hp : s.postedBy = []) (hf : f s = { s := u, r := .ok v }) :
    returning none f d s = .done (u.putS .salu d v) := by
  simp only [returning, hp, hf]
  rfl
end Sys2Proof.Machine
end

section
/-! ## Sketches and order cells (O35): checks at issue and posted forms -/
namespace Sys2Proof.Machine

/-! ### Addresses and lists (R252, R253) -/

/-- An address is aligned, and its range lies in the slices of the partition the sequencer acts for. -/
def State.SharedOk (s : State) (y : W64) (al len : Nat) : Prop :=
  y.toNat % al = 0 ∧ s.sharedOk (s.partFor s.cur) y.toNat len = true

section
variable {s : State} {y : W64} {al len : Nat} (h : s.SharedOk y al len) (i : Instr)
include h

theorem State.SharedOk.chk : (s.begun i).sharedChk y al len = none := by
  obtain ⟨hal, hsh⟩ := h
  simp [State.sharedChk, State.sharedChkIn, hal, hsh]
theorem State.SharedOk.listChk : (s.begun i).listChk y al len = none := by
  obtain ⟨hal, hsh⟩ := h
  simp [State.listChk, State.mySlices, hal, hsh]
end

@[simp] theorem orElse_none (x : Option Exc) : orElse none x = x := rfl
@[simp] theorem limit_true : limit true = none := rfl

/-! ### Posted forms (R252) -/

section
variable {s : State} {d a b : SReg}

theorem skSeed_posts (h : s.SharedOk (s.rs a) 64 64) : Posts (.skSeed a b) s .skSeed 0 (s.rs a) (s.rs b) := fun hpass =>
  Near.exec_done (n := .skSeed a b) hpass (by simp [nearEffect, xSkSeed, State.descChk, h.chk, posted])
theorem skClr_posts (h : s.SharedOk (s.rs a) 64 64) : Posts (.skClr a) s .skClr 0 (s.rs a) 0 := fun hpass =>
  Near.exec_done (n := .skClr a) hpass (by simp [nearEffect, xSkClr, State.descChk, h.chk, posted])
theorem skUpd_posts (h : s.SharedOk (s.rs a) 64 64) (hd : bf (s.rs d) 32 32 = 0) :
    Posts (.skUpd d a b) s .skUpd (s.rs d) (s.rs a) (s.rs b) := fun hpass =>
  Near.exec_done (n := .skUpd d a b) hpass (by simp [nearEffect, xSkUpd, State.descChk, h.chk, hd, posted])
theorem skAdd_posts (ha : s.SharedOk (s.rs a) 64 64) (hb : s.SharedOk (s.rs b) 64 64) :
    Posts (.skAdd a b) s .skAdd 0 (s.rs a) (s.rs b) := fun hpass =>
  Near.exec_done (n := .skAdd a b) hpass (by simp [nearEffect, xSkAdd, State.descChk, ha.chk, hb.chk, posted])
theorem ocInit_posts {g : Bool} (ha : s.SharedOk (s.rs a) 128 128) (hb : s.SharedOk (s.rs b) 256 512) (hd : bf (s.rs d) 32 32 = 0) :
    Posts (.ocInit d a b g) s (.ocInit g) (s.rs d) (s.rs a) (s.rs b) := fun hpass =>
  Near.exec_done (n := .ocInit d a b g) hpass
    (by simp [nearEffect, xOcInit, State.cellChk, State.regionChk, ha.chk, hb.chk, hd, posted])
theorem ocIns_posts (ha : s.SharedOk (s.rs a) 128 128) (hb : s.SharedOk (s.rs b) 256 512) (hd : bf (s.rs d) 60 4 < 5) :
    Posts (.ocIns d a b) s .ocIns (s.rs d) (s.rs a) (s.rs b) := fun hpass =>
  Near.exec_done (n := .ocIns d a b) hpass
    (by simp [nearEffect, xOcIns, State.cellChk, State.regionChk, ha.chk, hb.chk, hd, posted])
theorem ocSettle_posts (hb : s.SharedOk (s.rs b) 256 512) (ha : bf (s.rs a) 28 36 = 0) :
    Posts (.ocSettle a b) s .ocSettle 0 (s.rs a) (s.rs b) := fun hpass =>
  Near.exec_done (n := .ocSettle a b) hpass (by simp [nearEffect, xOcSettle, State.regionChk, hb.chk, ha, posted])
end

/-! ### List forms (R253) -/

/-- The fields of a list block that every list form checks, and its count. -/
def listBlockOk (v : Nat) : Prop :=
  fld v 192 8 = 0 ∧ fld v 128 8 = 0 ∧ fld v 0 32 = 0 ∧ 1 ≤ fld v 32 36 ∧ fld v 32 36 ≤ 2 ^ 20
/-- A list form whose block is good hands its operation to the bank units. -/
theorem skList_done {s u : State} {i : Instr} {a b : SReg} {v : Nat} (query g : Bool) (ha : s.SharedOk (s.rs a) 64 64)
    (hb : (s.rs b).toNat % 32 = 0) (hread : (s.begun i).readOwn (s.rs b) 32 = .ok (v, u)) (hv : listBlockOk v)
    (hidx : s.SharedOk (w64 (fld v 72 56)) 8 (8 * fld v 32 36))
    (hother : s.SharedOk (w64 (if query then fld v 200 56 else fld v 136 56)) 4 (4 * fld v 32 36)) :
    skList query a b g (s.begun i) =
      .done (u.postOp (if query then .skQryl (w64 (fld v 72 56)) (w64 (fld v 200 56)) (fld v 32 36) (sigSem g (fld v 68 4))
        else .skUpdl (w64 (fld v 72 56)) (w64 (fld v 136 56)) (fld v 32 36) (sigSem g (fld v 68 4))) 0 (s.rs a) (s.rs b)) := by
  obtain ⟨h1, h2, h3, hlo, hhi⟩ := hv
  have hfields : (fld v 192 8 == 0 && fld v 128 8 == 0 && fld v 0 32 == 0 && decide (1 ≤ fld v 32 36) && decide (fld v 32 36 ≤ 2 ^ 20)) = true := by
    simp only [h1, h2, h3, hlo, hhi, beq_self_eq_true, decide_true, Bool.and_true]
  simp only [skList, State.rs_begun, State.descChk, ha.chk, orElse_none, if_pos hb, hread, Eff.need, hfields, if_true, hidx.listChk,
    hother.listChk]
  cases query <;> rfl
end Sys2Proof.Machine
end

section
/-! ## Sketches and order cells (O35): estimates -/
namespace Sys2Proof.Machine

/-! ### The middle one of a list (R105) -/

theorem insertInt_eq (v : Int) (l : List Int) : insertInt v l = l.orderedInsert (· ≤ ·) v := by
  induction l with
  | nil => rfl
  | cons x xs ih => rw [insertInt, List.orderedInsert_cons, ih]
theorem foldr_insertInt (l : List Int) : l.foldr insertInt [] = l.insertionSort (· ≤ ·) := by
  induction l with
  | nil => rfl
  | cons x xs ih => rw [List.foldr_cons, ih, insertInt_eq, List.insertionSort_cons]

/-- In a rising list only what stands before an element is less than it, and only what stands after it greater. -/
theorem countP_of_rising {xs ys : List Int} {m : Int} (h : (xs ++ m :: ys).Pairwise (· ≤ ·)) :
    ((xs ++ m :: ys).countP fun z => decide (z < m)) ≤ xs.length ∧ ((xs ++ m :: ys).countP fun z => decide (m < z)) ≤ ys.length := by
  obtain ⟨-, hafter, hbefore⟩ := List.pairwise_append.1 h
  have hlow : ((m :: ys).countP fun z => decide (z < m)) = 0 := List.countP_eq_zero.2 fun z hz => by
    obtain rfl | hz := List.mem_cons.1 hz
    · simp
    · simpa using (List.pairwise_cons.1 hafter).1 z hz
  have hhigh : (xs.countP fun z => decide (m < z)) = 0 := List.countP_eq_zero.2 fun z hz => by
    simpa using hbefore z hz m (.head _)
  rw [List.countP_append, List.countP_append, hlow, hhigh, List.countP_cons_of_neg (by simp)]
  have := List.countP_le_length (p := fun z => decide (z < m)) (l := xs)
  have := List.countP_le_length (p := fun z => decide (m < z)) (l := ys)
  omega
/-- The element in the middle of a sorted list has no more than half of it on either side. -/
theorem middle_of_insertInt {l : List Int} (hl : l ≠ []) : let m := (l.foldr insertInt [])[l.length / 2]?.getD 0
    m ∈ l ∧ (l.countP fun z => decide (z < m)) ≤ l.length / 2 ∧ (l.countP fun z => decide (m < z)) ≤ l.length / 2 := by
  have hperm := List.perm_insertionSort (· ≤ ·) l
  have hrising := List.pairwise_insertionSort (· ≤ ·) l
  have hpos := List.length_pos_iff.2 hl
  rw [foldr_insertInt]
  have hlen := hperm.length_eq
  generalize l.insertionSort (· ≤ ·) = es at *
  have hi : l.length / 2 < es.length := by omega
  have hsplit : es.take (l.length / 2) ++ es[l.length / 2] :: es.drop (l.length / 2 + 1) = es := by
    rw [List.getElem_cons_drop, List.take_append_drop]
  rw [List.getElem?_eq_getElem hi, Option.getD_some]
  obtain ⟨hlow, hhigh⟩ := countP_of_rising (hsplit.symm ▸ hrising)
  rw [hsplit, hperm.countP_eq] at hlow hhigh
  rw [List.length_take] at hlow
  rw [List.length_drop] at hhigh
  exact ⟨hperm.mem_iff.1 (List.getElem_mem hi), by omega, by omega⟩

/-! ### Rounding an estimate (R103, R105) -/

theorem rneScaled_eq (md : Mode) (v e : Int) : rneScaled md v e = BitVec.ofNat 32 (md.wr (.fin (decide (v < 0)) v.natAbs e)).bits := by
  unfold rneScaled Mode.wr
  split
  · next h => subst h; rfl
  · next h => exact congrArg (fun z : Res => BitVec.ofNat 32 z.bits) (if_neg (Int.natAbs_ne_zero.2 h)).symm

theorem State.sketch_d_ne_zero {s : State} {part addr : Nat} {x : Sketch} (h : s.sketch part addr = .ok x) : x.d ≠ 0 := by
  unfold State.sketch at h
  split at h
  · cases h
  · extract_lets v y at h
    split at h
    · cases h
    · next hok =>
      have hd : [3, 5, 7].contains (fld v 0 3) = true := by
        simp only [Bool.not_eq_true', Bool.not_eq_false, sketchOk, Bool.and_eq_true] at hok
        obtain ⟨⟨⟨⟨-, hd⟩, -⟩, -⟩, -⟩ := hok
        exact hd
      split at h
      · cases h
      · split at h
        · cases h
        · obtain rfl := Except.ok.inj h
          rintro (h0 : fld v 0 3 = 0)
          rw [h0] at hd
          cases hd

/-- What row j says of an index: its counter with the row's sign (R105). -/
def State.rowEst (s : State) (x : Sketch) (i : W64) (j : Nat) : Int :=
  (if (s.skMix x i j).testBit (63 - x.k) then -1 else 1) * s.ctrVal (x.ctr j (s.skMix x i j / 2 ^ (64 - x.k)))
theorem State.skEstimate_eq {s : State} {x : Sketch} {i : W64} (h : s.hashErr x i = none) : s.skEstimate x i =
    .ok (rneScaled rneF32 ((((List.range x.d).map (s.rowEst x i)).foldr insertInt [])[x.d / 2]?.getD 0) (-x.es)) := by
  have hrow (j : Nat) : (if (s.skHash x j i).2 then -(s.ctrRead (x.ctr j (s.skHash x j i).1)).1
      else (s.ctrRead (x.ctr j (s.skHash x j i).1)).1) = s.rowEst x i j := by
    rw [State.skHash_eq, State.ctrRead_eq, State.rowEst]
    split
    · exact (neg_one_mul _).symm
    · exact (one_mul _).symm
  rw [State.skEstimate, h]
  simp only [hrow]
/-- A query gives the middle one of the rows' estimates, scaled and rounded. -/
theorem State.skEstimate_middle {s : State} {part addr : Nat} {x : Sketch} {i : W64} (hx : s.sketch part addr = .ok x)
    (h : s.hashErr x i = none) : ∃ m : Int, (∃ j < x.d, s.rowEst x i j = m) ∧
      ((List.range x.d).countP fun j => decide (s.rowEst x i j < m)) ≤ x.d / 2 ∧
      ((List.range x.d).countP fun j => decide (m < s.rowEst x i j)) ≤ x.d / 2 ∧
      s.skEstimate x i = .ok (BitVec.ofNat 32 (rneF32.wr (.fin (decide (m < 0)) m.natAbs (-x.es))).bits) := by
  have hd := State.sketch_d_ne_zero hx
  have hlen : ((List.range x.d).map (s.rowEst x i)).length = x.d := by rw [List.length_map, List.length_range]
  obtain ⟨hmem, hlow, hhigh⟩ := middle_of_insertInt (l := (List.range x.d).map (s.rowEst x i)) (List.ne_nil_of_length_pos (by omega))
  rw [hlen] at hmem hlow hhigh
  rw [List.countP_map] at hlow hhigh
  obtain ⟨j, hj, hm⟩ := List.mem_map.1 hmem
  exact ⟨_, ⟨j, List.mem_range.1 hj, hm⟩, hlow, hhigh, (State.skEstimate_eq h).trans (congrArg _ (rneScaled_eq ..))⟩

/-! ### The word (R252) -/

section
variable (s : State) (i : Instr)

theorem State.sketch_begun (p a : Nat) : (s.begun i).sketch p a = s.sketch p a :=
  State.begun_keeps (p := fun t => t.sketch p a) (fun _ _ _ => rfl) (fun _ _ _ => rfl) (fun _ _ => rfl) s i
theorem State.pairsOk_begun (x : Sketch) : (s.begun i).pairsOk x = s.pairsOk x :=
  State.begun_keeps (p := fun t => t.pairsOk x) (fun _ _ _ => rfl) (fun _ _ _ => rfl) (fun _ _ => rfl) s i
theorem State.skEstimate_begun (x : Sketch) (y : W64) : (s.begun i).skEstimate x y = s.skEstimate x y :=
  State.begun_keeps (p := fun t => t.skEstimate x y) (fun _ _ _ => rfl) (fun _ _ _ => rfl) (fun _ _ => rfl) s i
end

theorem skQry_answers {s : State} {d a b : SReg} {x : Sketch} {e : W32} (ha : s.SharedOk (s.rs a) 64 64) (hp : s.postedBy = [])
    (hx : s.sketch (s.partFor s.cur) (s.rs a).toNat = .ok x) (hpairs : s.pairsOk x = none) (he : s.skEstimate x (s.rs b) = .ok e) :
    ∃ t : State, { t with hazard := s.hazard, islands := s.islands } = s.begun (.skQry d a b) ∧
      Answers (.skQry d a b) s (t.putS .salu d (e.setWidth 64)) := by
  let t := s.begun (.skQry d a b)
  refine ⟨t.nearAccess (t.ctrsAt x (s.rs b)), ?_, fun hpass => Near.exec_done (n := .skQry d a b) hpass ?_⟩
  · obtain ⟨z, j, h⟩ := t.nearAccess_eq (t.ctrsAt x (s.rs b))
    rw [h, ← State.hazard_begun s (.skQry d a b), ← State.islands_begun s (.skQry d a b)]
  · simp only [nearEffect, xSkQry, Near.instr, State.descChk, ha.chk, State.rs_begun]
    refine returning_done d ((State.postedBy_begun ..).trans hp) ?_
    simp only [t, State.partFor_begun, State.cur_begun, State.sketch_begun, State.pairsOk_begun, State.skEstimate_begun, hx, hpairs, he,
      Applied.with]
end Sys2Proof.Machine
end

section
/-! ## Sketches and order cells (O35): loads and folds -/
namespace Sys2Proof.Machine

/-! ### Accesses to a cell (R115) -/

theorem State.nearRead_eq (s : State) (k n : Nat) : ∃ z j, s.nearRead k n = { s with hazard := z, islands := j } := by
  obtain ⟨j, hj⟩ := s.wakeKey_eq k
  obtain ⟨z, hz⟩ := (s.wakeKey k).tracked_logAccess s.agent k n true false (s.fences s.agent)
  exact ⟨z, j, hz.trans (by rw [hj])⟩
theorem State.cellAccess_eq (s : State) (a : W64) (r : Region) : ∃ z j, s.cellAccess a r = { s with hazard := z, islands := j } := by
  obtain ⟨z, j, h⟩ := s.nearRead_eq r.place.1 r.place.2
  obtain ⟨z', j', h'⟩ := (s.nearRead r.place.1 r.place.2).nearAccess_eq [(shKey a.toNat, 128)]
  exact ⟨z', j', by rw [State.cellAccess, h', h]⟩
theorem State.cellAccess_keeps (s : State) (a : W64) (r : Region) :
    { s.cellAccess a r with hazard := s.hazard, islands := s.islands } = s := by
  obtain ⟨z, j, h⟩ := s.cellAccess_eq a r
  rw [h]
theorem State.tracked_acquireRead (s : State) (a : Agent) (n : Nat) (xs : List Src) : s.Tracked (s.acquireRead a n xs) := by
  refine State.Tracked.trans ?_ (State.tracked_meets ..)
  unfold State.acquireFrom
  split
  · exact ⟨_, rfl⟩
  · exact .refl _

/-! ### Loads (R114) -/

/-- A cell operation's addresses are good, nothing of its sequencer waits to be applied, and its region is r. -/
structure State.CellReady (s : State) (i : Instr) (a b : W64) (r : Region) : Prop where
  cell : s.SharedOk a 128 128
  desc : s.SharedOk b 256 512
  idle : s.postedBy = []
  region : (s.begun i).region b.toNat = .ok r

/-- The value over all entries is the history applied to the base. -/
theorem Cell.value_all (c : Cell) : c.value (fun _ => true) = c.hist.foldl histApply c.base := by
  rw [Cell.value, List.filter_true]
theorem ocLdt_answers {s u : State} {d a b : SReg} {r : Region} {c : Cell} (h : s.CellReady (.ocLdt d a b) (s.rs a) (s.rs b) r)
    (ho : ((s.begun (.ocLdt d a b)).cellAccess (s.rs a) r).openCell (s.rs a).toNat r = (u, .ok c)) :
    Answers (.ocLdt d a b) s (u.putS .salu d (cellWord c (c.hist.foldl histApply c.base))) := by
  obtain ⟨hcell, hdesc, hidle, hr⟩ := h
  refine fun hpass => Near.exec_done (n := .ocLdt d a b) hpass ?_
  simp only [nearEffect, xOcLdt, Near.instr, State.cellChk, State.regionChk, hcell.chk, hdesc.chk, State.rs_begun, orElse_none]
  refine returning_done d ((State.postedBy_begun ..).trans hidle) ?_
  simp only [hr, Applied.with, State.cellLoad, ho, Cell.value_all]

section
variable {s u : State} {d a b : SReg} {r : Region} {c : Cell} (h : s.CellReady (.ocLds d a b) (s.rs a) (s.rs b) r)
  (hstep : (s.rs d).toNat < 2 ^ 16) (hwin : r.rel (s.rs d).toNat ≤ 2 ^ 15)
  (ho : (s.begun (.ocLds d a b)).openCell (s.rs a).toNat r = (u, .ok c))
include h hstep hwin ho

/-- A settled load of a step in the window stalls while the watermark is below the step; else it gives the value over the entries up
to the step and acquires. -/
theorem xOcLds_begun : xOcLds d a b (s.begun (.ocLds d a b)) =
    if r.rel r.wm < r.rel (s.rs d).toNat then .stall
    else
      let t := u.cellAccess (s.rs a) r
      .done ((t.acquireRead t.agent 3 ((t.srcs (.region r.addr)).filter (r.brought (s.rs d).toNat))).putS .salu d
        (cellWord c (c.value fun e => decide (r.rel e.step ≤ r.rel (s.rs d).toNat)))) := by
  obtain ⟨hcell, hdesc, hidle, hr⟩ := h
  simp only [xOcLds, State.rs_begun, State.cellChk, State.regionChk, hcell.chk, hdesc.chk, orElse_none, decide_eq_true hstep, limit_true,
    State.postedBy_begun, hidle, List.isEmpty_nil, Bool.not_true, Bool.false_eq_true, if_false, hr, State.cellSettled, ho,
    if_neg (Nat.not_lt.2 hwin)]
theorem ocLds_answers (hwm : r.rel (s.rs d).toNat ≤ r.rel r.wm) : ∃ t : State,
    { t with hazard := u.hazard, islands := u.islands } = u ∧ Answers (.ocLds d a b) s (t.putS .salu d
      (cellWord c ((c.hist.filter fun e => decide (r.rel e.step ≤ r.rel (s.rs d).toNat)).foldl histApply c.base))) := by
  have hx := xOcLds_begun h hstep hwin ho
  rw [if_neg (Nat.not_lt.2 hwm)] at hx
  refine ⟨_, ?_, fun hpass => Near.exec_done (n := .ocLds d a b) hpass hx⟩
  obtain ⟨z, hz⟩ := (u.cellAccess (s.rs a) r).tracked_acquireRead (u.cellAccess (s.rs a) r).agent 3
    (((u.cellAccess (s.rs a) r).srcs (.region r.addr)).filter (r.brought (s.rs d).toNat))
  rw [hz]
  exact u.cellAccess_keeps (s.rs a) r
theorem ocLds_waits (hwm : r.rel r.wm < r.rel (s.rs d).toNat) (hpass : s.passes (.ocLds d a b) = true) :
    exec (.ocLds d a b) s = .next (s.setMe { s.me with wait := some (.near (.ocLds d a b)) }) :=
  Near.exec_stall (n := .ocLds d a b) hpass ((xOcLds_begun h hstep hwin ho).trans (if_pos hwm))
end

/-! ### Folds (R114) -/

/-- The step a fold comes to: the one asked for, or the watermark where that is lower. -/
def Region.foldStep (r : Region) (f : Nat) : Nat := if r.rel f ≤ r.rel r.wm then f else r.wm
/-- A fold of a step in the window gives the step it comes to and moves the floor there. -/
theorem State.regionFold_ok {s : State} {r : Region} {f : Nat} (hwf : Memory.wf s.mem = true) (hr : ShRange (r.addr + 6) 6)
    (h : r.rel f ≤ 2 ^ 15) : ∃ w, s.regionFold r f = { s := w, r := .ok (w64 (r.foldStep f)) } ∧
      w.shRd (r.addr + 6) 6 = (r.floorx + r.rel (r.foldStep f)) % 2 ^ 48 := by
  refine ⟨s.shWr (r.addr + 6) 6 ((r.floorx + r.rel (r.foldStep f)) % 2 ^ 48), ?_, ?_⟩
  · simp only [State.regionFold, if_neg (Nat.not_lt.2 h), Region.foldStep]
  · rw [State.shRd_shWr_same hwf hr, show 8 * 6 = 48 from rfl, Nat.mod_mod]
theorem ocFold_answers {s : State} {d b : SReg} {r : Region} (hb : s.SharedOk (s.rs b) 256 512) (hp : s.postedBy = [])
    (hr : (s.begun (.ocFold d b)).region (s.rs b).toNat = .ok r) (hstep : (s.rs d).toNat < 2 ^ 16)
    (hwin : r.rel (s.rs d).toNat ≤ 2 ^ 15) (hwf : Memory.wf s.mem = true) (hpass : s.passes (.ocFold d b) = true) :
    ∃ t : State, exec (.ocFold d b) s = .next (t.putS .salu d (w64 (r.foldStep (s.rs d).toNat))) ∧
      t.shRd (r.addr + 6) 6 = (r.floorx + r.rel (r.foldStep (s.rs d).toNat)) % 2 ^ 48 := by
  have hrange : ShRange (r.addr + 6) 6 := by
    rw [(State.region_spec hr).1]
    exact (ShRange.of_sharedOk hb.2).sub (by omega) (by omega)
  obtain ⟨w, hfold, hval⟩ := State.regionFold_ok (s := s.begun (.ocFold d b)) (by rwa [State.mem_begun]) hrange hwin
  obtain ⟨z, j, hon⟩ := Applied.on_ok w (w64 (r.foldStep (s.rs d).toNat)) [r.place] fun _ => true
  refine ⟨{ w with hazard := z, islands := j }, Near.exec_done (n := .ocFold d b) hpass ?_, hval⟩
  simp only [nearEffect, xOcFold, Near.instr, State.regionChk, hb.chk, State.rs_begun, decide_eq_true hstep, orElse_none, limit_true]
  refine returning_done d ((State.postedBy_begun ..).trans hp) ?_
  simp only [hr, Applied.with, hfold, hon]

/-- Settles O35: a word whose checks pass posts its operation or returns what its unit answers; the middle one of a query's rows has
no more than half of them on either side. -/
theorem sketchAndCellWords : Obligations.SketchAndCellWords := by
  unfold Obligations.SketchAndCellWords
  intro s u d a b g v x r e c part ok A B D n i1 sig block two word cell good
  refine ⟨fun ha => ⟨skSeed_posts ha, skClr_posts ha⟩, skUpd_posts, skAdd_posts,
    fun ha hb hread h1 h2 h3 hlo hhi hidx hother hpass => Near.exec_done (n := .skUpdl a b g) hpass
      (skList_done false g ha hb hread ⟨h1, h2, h3, hlo, hhi⟩ hidx hother),
    fun ha hb hread h1 h2 h3 hlo hhi hidx hother hpass => Near.exec_done (n := .skQryl a b g) hpass
      (skList_done true g ha hb hread ⟨h1, h2, h3, hlo, hhi⟩ hidx hother),
    skQry_answers, State.skEstimate_middle, fun ⟨ha, hb⟩ => ocInit_posts ha hb, fun ⟨ha, hb⟩ => ocIns_posts ha hb, ocSettle_posts,
    fun t => t.cellAccess_keeps A r, fun ⟨⟨ha, hb⟩, hp, hr⟩ ho => ocLdt_answers ⟨ha, hb, hp, hr⟩ ho,
    fun ⟨⟨ha, hb⟩, hp, hr⟩ hstep hwm hwin ho => ocLds_answers ⟨ha, hb, hp, hr⟩ hstep hwin ho hwm,
    fun ⟨⟨ha, hb⟩, hp, hr⟩ hstep hwm hwin ho hpass => ocLds_waits ⟨ha, hb, hp, hr⟩ hstep hwin ho hwm hpass,
    fun hb hp hr hstep hwin hwf hpass => ocFold_answers hb hp hr hstep hwin hwf hpass⟩
end Sys2Proof.Machine
end
section
/-! ## Posting words (O36): records and work entries -/
namespace Sys2Proof.Machine

/-- A word of `Near` whose effect is a fault raises it. -/
theorem Near.raises {s : State} {n : Near} {e : Exc} (hpass : s.passes n.instr = true) (he : e.holds = none)
    (h : nearEffect n (s.begun n.instr) = .trap e) : Raises n.instr s e := by
  rw [Raises, Near.exec_passes hpass, h]
  cases e with
  | hold r => cases he
  | fault c a d => rfl
  | caused e u k => rfl
  | trap n v => rfl

theorem Eff.need_ok {α : Type} (x : α) (f : α → Eff) : Eff.need (.ok x) f = f x := rfl

/-! ### The 64 bytes of a record or an entry (R254) -/

/-- t is s but for the records of the hazard checker and what islands are asked to run. -/
def State.Noted (s t : State) : Prop := ∃ z j, t = { s with hazard := z, islands := j }

theorem State.Tracked.noted {s t : State} (h : s.Tracked t) : s.Noted t := by
  obtain ⟨z, rfl⟩ := h
  exact ⟨z, s.islands, rfl⟩
theorem State.Noted.trans {s t u : State} (h : s.Noted t) (h' : t.Noted u) : s.Noted u := by
  obtain ⟨z, j, rfl⟩ := h
  obtain ⟨z', j', rfl⟩ := h'
  exact ⟨z', j', rfl⟩
theorem State.noted_readOwn {s u : State} {a : W64} {n v : Nat} (h : s.readOwn a n = .ok (v, u)) : s.Noted u := by
  unfold State.readOwn at h
  split at h
  · cases h
  · split at h
    · cases h
    · extract_lets k at h
      split at h
      · cases h
      · next ht =>
        split at h
        · cases h
        · obtain ⟨-, rfl⟩ := Prod.mk.inj (Except.ok.inj h)
          exact (State.tracked_trackMe ht).noted
theorem State.noted_readBlock {s u : State} {a : W64} {v : Nat} (h : s.readBlock a = .ok (v, u)) : s.Noted u := by
  unfold State.readBlock at h
  split at h
  · split at h
    · cases h
    · obtain ⟨-, rfl⟩ := Prod.mk.inj (Except.ok.inj h)
      exact s.nearRead_eq ..
  · exact State.noted_readOwn h

/-- The state after a sequencer has written n bytes at a place of shared memory, which releases what it did before (R76). -/
def State.blockPosted (s : State) (o : Obj) (dst n v : Nat) : State := (s.release s.agent 3 o).shWr dst n v

section
variable {s u : State} (o : Obj) {dst n : Nat} (v : Nat) (hu : s.Noted u) (hd : s.mySlices dst n = true)
include hu hd

theorem State.blockPosted_eq : ∃ z j, u.blockPosted o dst n v =
    { s with hazard := z, islands := j, mem := Mem.writeN s.mem (shKey dst) n v } := by
  obtain ⟨z, j, rfl⟩ := hu
  obtain ⟨z', ht⟩ := State.tracked_release ({ s with hazard := z, islands := j } : State) s.agent 3 o
  obtain ⟨j', hw⟩ := State.shWr_eq (s := { s with hazard := z', islands := j }) (ShRange.of_sharedOk hd) v
  exact ⟨z', j', (congrArg (fun t => State.shWr t dst n v) ht).trans hw⟩
theorem State.blockPosted_me : (u.blockPosted o dst n v).me = s.me := by
  obtain ⟨z, j, h⟩ := State.blockPosted_eq o v hu hd
  rw [h]
  rfl
theorem State.blockPosted_part (p : Nat) : (u.blockPosted o dst n v).part p = s.part p := by
  obtain ⟨z, j, h⟩ := State.blockPosted_eq o v hu hd
  rw [h]
  rfl
theorem State.blockPosted_read (hwf : Memory.wf s.mem = true) :
    Mem.readN (u.blockPosted o dst n v).mem (shKey dst) n = v % 2 ^ (8 * n) := by
  obtain ⟨z, j, h⟩ := State.blockPosted_eq o v hu hd
  rw [h, pow_mul]
  exact Mem.readN_writeN _ _ _ hwf
end

theorem State.me_setPart (s : State) (n : Nat) (p : Part) : (s.setPart n p).me = s.me := rfl
theorem State.me_setQp (s : State) (n : Nat) (q : Qp) : (s.setQp n q).me = s.me := rfl

/-! ### What the beginning of a word keeps -/

@[simp] theorem State.qp_begun (s : State) (i : Instr) (k : Nat) : (s.begun i).qp k = s.qp k :=
  State.begun_keeps (p := fun t => t.qp k) (fun _ _ _ => rfl) (fun _ _ _ => rfl) (fun _ _ => rfl) s i
@[simp] theorem State.tc_begun (s : State) (i : Instr) (k : Nat) : (s.begun i).tc k = s.tc k :=
  State.begun_keeps (p := fun t => t.tc k) (fun _ _ _ => rfl) (fun _ _ _ => rfl) (fun _ _ => rfl) s i
@[simp] theorem State.mySlices_begun (s : State) (i : Instr) (a n : Nat) : (s.begun i).mySlices a n = s.mySlices a n := by
  rw [State.mySlices, State.cur_begun, State.partFor_begun, State.sharedOk_begun, State.mySlices]

/-! ### post.task (R131) -/

theorem postTask_misplaced {s : State} {a : SReg} {e : Exc} (hpass : s.passes (.postTask a) = true) (he : e.holds = none)
    (hchk : (s.begun (.postTask a)).blockChk (s.rs a) = some e) : Raises (.postTask a) s e :=
  Near.raises (n := .postTask a) hpass he (by simp only [nearEffect, xPostTask, Near.instr, State.rs_begun, hchk, orElse, guardChk]; rfl)

section
variable {s : State} {a : SReg} {p : Part} (hp : s.part (s.partFor s.cur) = p) (hpass : s.passes (.postTask a) = true)
  (hchk : (s.begun (.postTask a)).blockChk (s.rs a) = none) (hslot : s.mySlices (p.rqSlot p.qtail) 64 = true)
include hp hpass hchk hslot

omit hpass in
/-- A record whose address and place are good waits, or is read and joins the queue. -/
theorem xPostTask_begun : xPostTask a (s.begun (.postTask a)) =
    if !s.postedBy.isEmpty || decide (p.rqSlots ≤ p.qtail - p.qhead) then .stall
    else .need ((s.begun (.postTask a)).readBlock (s.rs a)) fun x =>
      let t := x.2.blockPosted (.task (s.partFor s.cur) p.qtail) (p.rqSlot p.qtail) 64 x.1
      .done (t.setPart (s.partFor s.cur) { t.part (s.partFor s.cur) with
        qtail := p.qtail + 1, qpost := p.qpost.set (p.qtail % p.rqSlots) (s.rs a) }) := by
  simp only [xPostTask, State.cur_begun, State.partFor_begun, State.part_begun, hp, State.rs_begun, hchk, State.mySlices_begun, hslot,
    if_true, orElse_none, guardChk, State.postedBy_begun]
  rfl
theorem postTask_waits (hfull : s.postedBy ≠ [] ∨ p.rqSlots ≤ p.qtail - p.qhead) :
    exec (.postTask a) s = .next (s.setMe { s.me with wait := some (.near (.postTask a)) }) :=
  Near.exec_stall (n := .postTask a) hpass ((xPostTask_begun hp hchk hslot).trans (if_pos (by simpa using hfull)))

section
variable (hroom : ¬ (s.postedBy ≠ [] ∨ p.rqSlots ≤ p.qtail - p.qhead))
include hroom

theorem postTask_fails {e : Exc} (he : e.holds = none) (hread : (s.begun (.postTask a)).readBlock (s.rs a) = .error e) :
    Raises (.postTask a) s e :=
  Near.raises (n := .postTask a) hpass he ((xPostTask_begun hp hchk hslot).trans
    ((if_neg (by simpa using hroom)).trans (by rw [hread]; rfl)))
theorem postTask_joins {v : Nat} {u : State} (hwf : Memory.wf s.mem = true)
    (hread : (s.begun (.postTask a)).readBlock (s.rs a) = .ok (v, u)) :
    ∃ t, exec (.postTask a) s = .next t ∧ t.me.pc = s.nextPc ∧ (∀ r, t.rs r = s.rs r) ∧
      (t.part (s.partFor s.cur)).qtail = p.qtail + 1 ∧ (t.part (s.partFor s.cur)).qhead = p.qhead ∧
      Mem.readN t.mem (shKey (p.rqSlot p.qtail)) 64 = v % 2 ^ 512 := by
  have hx := xPostTask_begun hp hchk hslot
  rw [if_neg (by simpa using hroom), hread, Eff.need_ok] at hx
  dsimp only at hx
  have hu := State.noted_readBlock hread
  have hd := (s.mySlices_begun (.postTask a) ..).trans hslot
  have hme := State.blockPosted_me (.task (s.partFor s.cur) p.qtail) v hu hd
  have hpart := State.blockPosted_part (.task (s.partFor s.cur) p.qtail) v hu hd (s.partFor s.cur)
  have hval := State.blockPosted_read (.task (s.partFor s.cur) p.qtail) v hu hd (by rw [State.mem_begun]; exact hwf)
  rw [show 8 * 64 = 512 from rfl] at hval
  rw [State.part_begun, hp] at hpart
  refine ⟨_, Near.exec_done (n := .postTask a) hpass hx, ?_, fun r => ?_, ?_, ?_, ?_⟩
  · rw [State.me_setPart]
    exact (congrArg Seq.pc hme).trans (by rw [State.me_begun])
  · rw [State.rs, State.me_setPart]
    exact (congrArg (fun q : Seq => q.rdS r) hme).trans (s.rs_begun _ r)
  · rw [State.part_setPart, if_pos rfl]
  · simp only [State.part_setPart, if_true, hpart]
  · rw [State.setPart_mem]
    exact hval
end
end

/-! ### post.qp (R118) -/

section
variable {s : State} {a b : SReg} {k : Nat} (hpass : s.passes (.postQp a b) = true)
include hpass

theorem postQp_beyond (h : bf (s.part (s.partFor s.cur)).pqp 16 11 ≤ (s.rs b).toNat) : Raises (.postQp a b) s (access 0) :=
  Near.raises (n := .postQp a b) hpass rfl (by
    simp only [nearEffect, xPostQp, Near.instr, State.cur_begun, State.partFor_begun, State.qpNumber, State.part_begun, State.rs_begun,
      if_neg (Nat.not_lt.2 h)]
    rfl)

section
variable (hn : (s.rs b).toNat < bf (s.part (s.partFor s.cur)).pqp 16 11)
  (hk : k = bf (s.part (s.partFor s.cur)).pqp 0 10 + (s.rs b).toNat) {q : Qp} (hq : s.qp k = q)
include hn hk hq

theorem postQp_inError (h : q.state = .error) : Raises (.postQp a b) s (access 0) :=
  Near.raises (n := .postQp a b) hpass rfl (by
    simp only [nearEffect, xPostQp, Near.instr, State.cur_begun, State.partFor_begun, State.qpNumber, State.part_begun, State.rs_begun,
      if_pos hn, ← hk, Eff.need, State.qp_begun, hq, if_pos h])

variable (hstate : q.state ≠ .error) (hchk : (s.begun (.postQp a b)).blockChk (s.rs a) = none)
  (hplace : s.mySlices (q.place q.tail) 64 = true)
include hstate hchk hplace

omit hpass in
/-- An entry whose address and place are good waits, or is read and joins the ring. -/
theorem xPostQp_begun : xPostQp a b (s.begun (.postQp a b)) =
    if !s.postedBy.isEmpty || decide (q.size ≤ q.tail - q.head) then .stall
    else .need ((s.begun (.postQp a b)).readBlock (s.rs a)) fun x =>
      .done ((x.2.blockPosted (.work k q.tail) (q.place q.tail) 64 x.1).setQp k { q with tail := q.tail + 1 }) := by
  simp only [xPostQp, State.cur_begun, State.partFor_begun, State.qpNumber, State.part_begun, State.rs_begun, if_pos hn, ← hk,
    Eff.need_ok, State.qp_begun, hq, if_neg hstate, hchk, State.mySlices_begun, hplace, if_true, orElse_none, guardChk, State.postedBy_begun]
  rfl
theorem postQp_waits (hfull : s.postedBy ≠ [] ∨ q.size ≤ q.tail - q.head) :
    exec (.postQp a b) s = .next (s.setMe { s.me with wait := some (.near (.postQp a b)) }) :=
  Near.exec_stall (n := .postQp a b) hpass ((xPostQp_begun hn hk hq hstate hchk hplace).trans (if_pos (by simpa using hfull)))

variable (hroom : ¬ (s.postedBy ≠ [] ∨ q.size ≤ q.tail - q.head))
include hroom

theorem postQp_fails {e : Exc} (he : e.holds = none) (hread : (s.begun (.postQp a b)).readBlock (s.rs a) = .error e) :
    Raises (.postQp a b) s e :=
  Near.raises (n := .postQp a b) hpass he ((xPostQp_begun hn hk hq hstate hchk hplace).trans
    ((if_neg (by simpa using hroom)).trans (by rw [hread]; rfl)))
theorem postQp_joins {v : Nat} {u : State} (hwf : Memory.wf s.mem = true)
    (hread : (s.begun (.postQp a b)).readBlock (s.rs a) = .ok (v, u)) :
    ∃ t, exec (.postQp a b) s = .next t ∧ t.me.pc = s.nextPc ∧ (∀ r, t.rs r = s.rs r) ∧ t.qp k = { q with tail := q.tail + 1 } ∧
      Mem.readN t.mem (shKey (q.place q.tail)) 64 = v % 2 ^ 512 := by
  have hx := xPostQp_begun hn hk hq hstate hchk hplace
  rw [if_neg (by simpa using hroom), hread, Eff.need_ok] at hx
  dsimp only at hx
  have hu := State.noted_readBlock hread
  have hd := (s.mySlices_begun (.postQp a b) ..).trans hplace
  have hme := State.blockPosted_me (.work k q.tail) v hu hd
  have hval := State.blockPosted_read (.work k q.tail) v hu hd (by rw [State.mem_begun]; exact hwf)
  rw [show 8 * 64 = 512 from rfl] at hval
  refine ⟨_, Near.exec_done (n := .postQp a b) hpass hx, ?_, fun r => ?_, ?_, ?_⟩
  · rw [State.me_setQp]
    exact (congrArg Seq.pc hme).trans (by rw [State.me_begun])
  · rw [State.rs, State.me_setQp]
    exact (congrArg (fun q : Seq => q.rdS r) hme).trans (s.rs_begun _ r)
  · rw [State.qp_setQp, if_pos rfl]
  · rw [State.setQp_mem]
    exact hval
end
end
end Sys2Proof.Machine
end

section
/-! ## Posting words (O36): trigger counters and weight-set slots -/
namespace Sys2Proof.Machine

/-! ### Trigger counters (R255) -/

theorem State.Tracked.of_begun {s t : State} {i : Instr} (h : (s.begun i).Tracked t) : { t with hazard := s.hazard } = s.begun i := by
  obtain ⟨z, rfl⟩ := h
  rw [← s.hazard_begun i]

/-- A counter form names a counter of the partition's grant: its number among the device's is k. -/
structure State.NamesTc (s : State) (a b : SReg) (h : Fin 4) (ind : Bool) (k : Nat) : Prop where
  small : ind = true → (s.rs a).toNat < 2 ^ 12
  granted : (if ind then (s.rs a).toNat else h.val * 1024 + a.val * 32 + b.val) < bf (s.part (s.partFor s.cur)).ptc 16 13
  number : k = bf (s.part (s.partFor s.cur)).ptc 0 12 + if ind then (s.rs a).toNat else h.val * 1024 + a.val * 32 + b.val

section
variable {s : State} {d a b : SReg} {h : Fin 4} {ind : Bool} {k : Nat} (hn : s.NamesTc a b h ind k)
include hn

theorem State.NamesTc.tcOf (i : Instr) : (s.begun i).tcOf a b h ind = .ok k := by
  obtain ⟨hsmall, hgrant, rfl⟩ := hn
  cases ind with
  | false =>
    simp only [State.tcOf, Bool.false_eq_true, if_false, State.tcNumber, State.cur_begun, State.partFor_begun,
      State.part_begun] at hgrant ⊢
    exact if_pos hgrant
  | true =>
    simp only [State.tcOf, if_true, State.rs_begun, if_neg (Nat.not_le.2 (hsmall rfl)), State.tcNumber, State.cur_begun,
      State.partFor_begun, State.part_begun] at hgrant ⊢
    exact if_pos hgrant
theorem postTcadd_posts : Posts (.postTcadd d a b h ind) s (.tcAdd k) (s.rs d) 0 0 := fun hpass =>
  Near.exec_done (n := .postTcadd d a b h ind) hpass (by simp [nearEffect, xPostTcadd, hn.tcOf, Eff.need_ok])
theorem postTcset_posts : Posts (.postTcset d a b h ind) s (.tcSet k) (s.rs d) 0 0 := fun hpass =>
  Near.exec_done (n := .postTcset d a b h ind) hpass (by simp [nearEffect, xPostTcset, hn.tcOf, Eff.need_ok])
theorem postTcrd_answers (hp : s.postedBy = []) : ∃ t : State, Answers (.postTcrd d a b h ind) s (t.putS .salu d (s.tc k)) ∧
    { t with hazard := s.hazard } = s.begun (.postTcrd d a b h ind) := by
  let t := s.begun (.postTcrd d a b h ind)
  refine ⟨t.meets t.agent (t.srcs (.tc k)), fun hpass => Near.exec_done (n := .postTcrd d a b h ind) hpass ?_,
    (t.tracked_meets ..).of_begun⟩
  simp only [nearEffect, xPostTcrd, Near.instr, hn.tcOf, Eff.need_ok]
  exact returning_done d ((State.postedBy_begun ..).trans hp) (by rw [State.tc_begun])
theorem postTcwait_passes (hp : s.postedBy = []) (hle : s.rs d ≤ s.tc k) :
    ∃ t, Answers (.postTcwait d a b h ind) s t ∧ { t with hazard := s.hazard } = s.begun (.postTcwait d a b h ind) := by
  let t := s.begun (.postTcwait d a b h ind)
  refine ⟨t.acquire t.agent 4 (.tc k), fun hpass => Near.exec_done (n := .postTcwait d a b h ind) hpass ?_,
    (t.tracked_acquire ..).of_begun⟩
  simp only [nearEffect, xPostTcwait, Near.instr, hn.tcOf, Eff.need_ok, State.postedBy_begun, hp, State.tc_begun, State.rs_begun,
    decide_eq_false (BitVec.not_lt.2 hle)]
  rfl
theorem postTcwait_waits (hlt : s.tc k < s.rs d) (hpass : s.passes (.postTcwait d a b h ind) = true) :
    exec (.postTcwait d a b h ind) s = .next (s.setMe { s.me with wait := some (.near (.postTcwait d a b h ind)) }) :=
  Near.exec_stall (n := .postTcwait d a b h ind) hpass (by
    simp only [nearEffect, xPostTcwait, Near.instr, hn.tcOf, Eff.need_ok, State.tc_begun, State.rs_begun, decide_eq_true hlt, Bool.or_true,
      if_true])
end

/-! ### Weight-set slots (R256) -/

/-- The reserved bits of a slot word are 0, and EXM and SHM but in `post.wbeg`. -/
structure SlotWordOk (w : W64) (beg : Bool) : Prop where
  high : bf w 38 26 = 0
  mid : bf w 28 4 = 0
  low : bf w 3 13 = 0
  counts : beg = true ∨ (bf w 32 6 = 0 ∧ bf w 16 12 = 0)
theorem SlotWordOk.chk {w : W64} {beg : Bool} (h : SlotWordOk w beg) : slotWord w beg = none := by
  obtain ⟨h1, h2, h3, h4⟩ := h
  have hc : (beg || (bf w 32 6 == 0 && bf w 16 12 == 0)) = true := by simpa using h4
  simp only [slotWord, h1, h2, h3, hc, beq_self_eq_true, Bool.and_true, limit_true]

section
variable {s : State} {d a b : SReg}

theorem postWbeg_posts (h : SlotWordOk (s.rs b) true) (hal : (s.rs a).toNat % 256 = 0) (hdev : inDevice (s.rs a).toNat = true) :
    Posts (.postWbeg a b) s .wsBeg 0 (s.rs a) (s.rs b) := fun hpass =>
  Near.exec_done (n := .postWbeg a b) hpass (by simp [nearEffect, xPostWbeg, h.chk, hal, hdev, posted])
theorem postWcom_posts (h : SlotWordOk (s.rs b) false) : Posts (.postWcom b) s .wsCom 0 0 (s.rs b) := fun hpass =>
  Near.exec_done (n := .postWcom b) hpass (by simp [nearEffect, xPostWcom, h.chk, posted])
theorem postWabn_posts (h : SlotWordOk (s.rs b) false) : Posts (.postWabn b) s .wsAbn 0 0 (s.rs b) := fun hpass =>
  Near.exec_done (n := .postWabn b) hpass (by simp [nearEffect, xPostWabn, h.chk, posted])
theorem postWst_gives (h : SlotWordOk (s.rs b) false) (hp : s.postedBy = []) {w : Ws}
    (hw : (s.part (s.partFor s.cur)).wsAt (bf (s.rs b) 0 3) = w) :
    GivesS (.postWst d b) s .salu d (w64 (w.state.code + w.bound % 2 ^ 32 * 2 ^ 16)) := fun hpass =>
  Near.exec_done (n := .postWst d b) hpass (by
    simp only [nearEffect, xPostWst, Near.instr, State.rs_begun, h.chk]
    refine returning_done d ((State.postedBy_begun ..).trans hp) ?_
    simp only [State.cur_begun, State.partFor_begun, State.part_begun, State.rs_begun, hw])
end

/-- Settles O36: a word whose checks pass joins its queue, waits for room, posts its operation or returns what its unit answers. -/
theorem postingWords : Obligations.PostingWords := by
  unfold Obligations.PostingWords
  intro s u d a b h ind v k part p rq slot task post q qn place full num names slotOk plain ws code tw
  have hplain (hw : plain) : SlotWordOk (s.rs b) false := ⟨hw.1.1, hw.1.2.1, hw.1.2.2, .inr hw.2⟩
  have hnames (hn : names) : s.NamesTc a b h ind k := ⟨hn.1, hn.2.1, hn.2.2⟩
  refine ⟨fun hpass hchk hslot => ⟨postTask_waits rfl hpass hchk hslot, fun hroom => ⟨fun e he => postTask_fails rfl hpass hchk hslot hroom he,
      postTask_joins rfl hpass hchk hslot hroom⟩⟩,
    fun hpass hn hk => ⟨postQp_inError hpass hn hk rfl, fun hstate hchk hplace => ⟨postQp_waits hpass hn hk rfl hstate hchk hplace,
      fun hroom => ⟨fun e he => postQp_fails hpass hn hk rfl hstate hchk hplace hroom he,
        postQp_joins hpass hn hk rfl hstate hchk hplace hroom⟩⟩⟩,
    postQp_beyond, fun hpass e => postTask_misplaced hpass, fun hn => postTcadd_posts (hnames hn),
    fun hn => postTcset_posts (hnames hn), fun hn => postTcrd_answers (hnames hn), fun hn => postTcwait_passes (hnames hn),
    fun hn => postTcwait_waits (hnames hn), fun ⟨h1, h2, h3⟩ => postWbeg_posts ⟨h1, h2, h3, .inl rfl⟩,
    fun hw => ⟨postWcom_posts (hplain hw), postWabn_posts (hplain hw)⟩, fun hw hp => ?_⟩
  have hcode : code = ws.state.code := by cases hs : ws.state <;> simp only [code, hs] <;> rfl
  rw [hcode]
  exact postWst_gives (hplain hw) hp rfl
end Sys2Proof.Machine
end
section
/-! ## Queue pairs (O47): what fires -/
namespace Sys2Proof.Machine

/-! ### Entries that fire (R121) -/

/-- A queue pair after those of its armed entries have fired whose condition holds. -/
def State.fired (s : State) (n : Nat) (q : Qp) : Qp :=
  match s.qpPart n with
  | some (p, _) => { q with works := q.works.map fun w => if s.mayFire p q w then { w with fired := true } else w }
  | none => q

section
variable (s : State) (n : Nat) (q : Qp)

/-- Firing changes nothing of a queue pair but which of its entries have fired. -/
theorem State.fired_eq :
    ∃ ws, s.fired n q = { q with works := ws } ∧ ∀ y ∈ ws, ∃ w ∈ q.works, ∃ b, y = { w with fired := b } := by
  unfold State.fired
  split
  · refine ⟨_, rfl, fun y hy => ?_⟩
    obtain ⟨w, hw, rfl⟩ := List.mem_map.1 hy
    refine ⟨w, hw, ?_⟩
    split
    · exact ⟨true, rfl⟩
    · exact ⟨w.fired, rfl⟩
  · exact ⟨q.works, rfl, fun y hy => ⟨y, hy, y.fired, rfl⟩⟩
theorem State.head_fired : (s.fired n q).head = q.head := by
  obtain ⟨ws, h, -⟩ := s.fired_eq n q
  rw [h]
theorem State.arm_fired : (s.fired n q).arm = q.arm := by
  obtain ⟨ws, h, -⟩ := s.fired_eq n q
  rw [h]
theorem State.tail_fired : (s.fired n q).tail = q.tail := by
  obtain ⟨ws, h, -⟩ := s.fired_eq n q
  rw [h]
theorem State.idx_fired {i : Nat} (h : ∀ y ∈ q.works, y.idx ≠ i) : ∀ y ∈ (s.fired n q).works, y.idx ≠ i := by
  obtain ⟨ws, hq, hws⟩ := s.fired_eq n q
  rw [hq]
  intro y hy
  obtain ⟨w, hw, b, rfl⟩ := hws y hy
  exact h w hw
/-- An entry that has not fired does so as its condition holds. -/
theorem State.mem_fired {s : State} {n p rel : Nat} {q : Qp} {w : Work} (hp : s.qpPart n = some (p, rel)) (hw : w ∈ q.works)
    (hf : w.fired = false) : { w with fired := s.mayFire p q w } ∈ (s.fired n q).works := by
  simp only [State.fired, hp]
  refine List.mem_map.2 ⟨w, hw, ?_⟩
  split
  · next h => rw [h]
  · next h => rw [Bool.eq_false_of_not_eq_true h, ← hf]
end

theorem State.mayFire_failed (s : State) (p : Nat) (q : Qp) {w : Work} (h : w.fail.isSome = true) : s.mayFire p q w = false := by
  rw [Option.isSome_iff_exists] at h
  obtain ⟨f, hf⟩ := h
  simp [State.mayFire, hf]
/-- Without FENCE an entry fires as its counter has reached the threshold. -/
theorem State.mayFire_threshold {s : State} {p c : Nat} (q : Qp) {w : Work} (hf : w.fired = false) (hfail : w.fail = none)
    (hfence : w.fence = false) (hc : s.tcNumber p (bf w.word 36 12) = .ok c) :
    s.mayFire p q w = decide (bf w.word 64 64 ≤ (s.tc c).toNat) := by
  simp only [State.mayFire, hf, hfail, hfence, hc]
  simp

theorem State.qps_fireAll (s : State) : s.fireAll.qps = s.qps.map fun e => (e.1, s.fired e.1 e.2) := by
  have hq : (s.qps.map fun e => match s.qpPart e.1 with
      | some (p, _) => (e.1, { e.2 with works := e.2.works.map fun w => if s.mayFire p e.2 w then { w with fired := true } else w })
      | none => e) = s.qps.map fun e => (e.1, s.fired e.1 e.2) := by
    refine List.map_congr_left fun e _ => ?_
    unfold State.fired
    split <;> rfl
  unfold State.fireAll
  extract_lets t
  obtain ⟨z, hz⟩ := State.tracked_foldl (fun s (x : Nat × Nat × Nat) => s.acquire (.entry x.1 x.2.1) 3 (.tc x.2.2))
    (fun s x => s.tracked_acquire ..) s.firing t
  rw [hz]
  exact hq
theorem State.qp_fireAll (s : State) (n : Nat) : s.fireAll.qp n = s.fired n (s.qp n) := by
  rw [State.qp, State.qps_fireAll, Map.getD_map (fun e => s.fired e.1 e.2), State.qp, Map.getD_eq]
  cases Map.get? s.qps n with
  | some q => rfl
  | none =>
    change ({} : Qp) = s.fired n {}
    unfold State.fired
    split <;> rfl
@[simp] theorem State.mem_fireAll (s : State) : s.fireAll.mem = s.mem := by
  obtain ⟨q, z, hz⟩ := s.fireAll_eq
  rw [hz]
@[simp] theorem State.tcs_fireAll (s : State) : s.fireAll.tcs = s.tcs := by
  obtain ⟨q, z, hz⟩ := s.fireAll_eq
  rw [hz]
@[simp] theorem State.sent_fireAll (s : State) : s.fireAll.sent = s.sent := by
  obtain ⟨q, z, hz⟩ := s.fireAll_eq
  rw [hz]
@[simp] theorem State.parts_fireAll (s : State) : s.fireAll.parts = s.parts := by
  obtain ⟨q, z, hz⟩ := s.fireAll_eq
  rw [hz]

/-! ### Arming (R121, R122) -/

theorem State.traced_eq (s : State) (e : Exc) : ∃ f g h, s.traced e = { s with free := f, fills := g, sent := h } := by
  unfold State.traced
  split
  · unfold State.consume
    split
    · exact ⟨_, _, _, rfl⟩
    · exact ⟨_, _, _, rfl⟩
  · split
    · exact ⟨_, _, _, rfl⟩
    · exact ⟨_, _, _, rfl⟩
  · exact ⟨_, _, _, rfl⟩
  · exact ⟨_, _, _, rfl⟩

/-- The state in which the CSQ has read the line of the next entry of queue pair n, with the error e of that entry. -/
def State.entryRead (s : State) (n : Nat) (e : Option Exc) : State :=
  ((e.elim s s.traced).wakeKey (shKey ((s.qp n).place (s.qp n).arm))).acquire (.entry n (s.qp n).arm) 3 (.work n (s.qp n).arm)
theorem State.entryRead_eq (s : State) (n : Nat) (e : Option Exc) :
    ∃ f g h i z, s.entryRead n e = { s with free := f, fills := g, sent := h, islands := i, hazard := z } := by
  obtain ⟨f, g, h, hu⟩ : ∃ f g h, e.elim s s.traced = { s with free := f, fills := g, sent := h } := by
    cases e with
    | none => exact ⟨_, _, _, rfl⟩
    | some e => exact s.traced_eq e
  obtain ⟨i, hi⟩ := (e.elim s s.traced).wakeKey_eq (shKey ((s.qp n).place (s.qp n).arm))
  obtain ⟨z, hz⟩ := ((e.elim s s.traced).wakeKey (shKey ((s.qp n).place (s.qp n).arm))).tracked_acquire
    (.entry n (s.qp n).arm) 3 (.work n (s.qp n).arm)
  exact ⟨f, g, h, i, z, by rw [State.entryRead, hz, hi, hu]⟩

/-- The next entry of a queue pair, as it stands in its ring, with the error e. -/
def State.nextEntry (s : State) (n : Nat) (e : Option Exc) : Work :=
  { idx := (s.qp n).arm, word := BitVec.ofNat 512 (Mem.readN s.mem (shKey ((s.qp n).place (s.qp n).arm)) 64)
    fail := e.map Exc.failure }
/-- What is wrong with the next entry of a queue pair: with its line, then with its fields. -/
def State.nextErr (s : State) (p n : Nat) : Option Exc :=
  let k := shKey ((s.qp n).place (s.qp n).arm)
  let a := w64 ((s.qp n).place (s.qp n).arm)
  orElse (s.loadFault k 64 a) (orElse (sideErr (s.sideOf k) a) (s.armErr p (s.nextEntry n none)))

section
variable {s : State} {n p rel : Nat} (hp : s.qpPart n = some (p, rel))
include hp

section
variable (hon : (s.qp n).state = .on) (harm : (s.qp n).arm < (s.qp n).tail) (hok : ∀ y ∈ (s.qp n).works, y.fail = none)
include hon harm hok

/-- The CSQ takes the next entry, with what is wrong with it, and it fires as its condition holds. -/
theorem entryArm_exec {e : Option Exc} (he : s.nextErr p n = e) : exec (.entryArm n) s = .next ((s.entryRead n e).setQp n
    { s.qp n with arm := (s.qp n).arm + 1, works := (s.qp n).works ++ [s.nextEntry n e] }).fireAll := by
  have hgo : (s.qp n).state = .on ∧ (s.qp n).arm < (s.qp n).tail ∧ ((s.qp n).works.any fun w => w.fail.isSome) = false :=
    ⟨hon, harm, List.any_eq_false.2 fun w hw => by simp [hok w hw]⟩
  change execEntryArm n s = _
  subst he
  cases herr : s.nextErr p n with
  | none =>
    simp only [State.nextErr, State.nextEntry, Option.map_none] at herr
    simp only [execEntryArm, hp, if_pos hgo, herr]
    rfl
  | some e =>
    simp only [State.nextErr, State.nextEntry, Option.map_none] at herr
    simp only [execEntryArm, hp, if_pos hgo, herr]
    rfl
theorem entryArm_arms {e : Option Exc} (he : s.nextErr p n = e) : ∃ t y q, exec (.entryArm n) s = .next t ∧ t.mem = s.mem ∧
    (t.qp n).arm = (s.qp n).arm + 1 ∧ (t.qp n).tail = (s.qp n).tail ∧ y ∈ (t.qp n).works ∧
    y = { s.nextEntry n e with fired := s.mayFire p q (s.nextEntry n e) } := by
  obtain ⟨f, g, h, i, z, hread⟩ := s.entryRead_eq n e
  let q : Qp := { s.qp n with arm := (s.qp n).arm + 1, works := (s.qp n).works ++ [s.nextEntry n e] }
  have hqp : (((s.entryRead n e).setQp n q).fireAll).qp n = ((s.entryRead n e).setQp n q).fired n q := by
    rw [State.qp_fireAll, State.qp_setQp, if_pos rfl]
  refine ⟨_, _, q, entryArm_exec hp hon harm hok he, ?_, ?_, ?_, ?_, rfl⟩
  · rw [State.mem_fireAll, hread]
    rfl
  · rw [hqp, State.arm_fired]
  · rw [hqp, State.tail_fired]
  · rw [hqp, hread]
    exact State.mem_fired (s := State.setQp _ n q) hp (List.mem_append_right _ (.head _)) rfl
end

theorem entryArm_idle (h : (s.qp n).state ≠ .on ∨ (s.qp n).tail ≤ (s.qp n).arm) : exec (.entryArm n) s = .next s := by
  have hno : ¬ ((s.qp n).state = .on ∧ (s.qp n).arm < (s.qp n).tail ∧ ((s.qp n).works.any fun w => w.fail.isSome) = false) :=
    fun ⟨hon, harm, _⟩ => h.elim (fun h => h hon) (fun h => absurd harm (Nat.not_lt.2 h))
  change execEntryArm n s = _
  simp only [execEntryArm, hp, if_neg hno]

end

section
variable {s : State} {n k : Nat} {a : W64} (p : Nat) (hk : k = shKey ((s.qp n).place (s.qp n).arm))
  (ha : a = w64 ((s.qp n).place (s.qp n).arm))
include hk ha

/-- A good line leaves the errors of the entry's fields. -/
theorem State.nextErr_fields (hb : s.badIn k 64 = false) (hpo : s.poisoned k = false) (hs : sideErr (s.sideOf k) a = none) :
    s.nextErr p n = s.armErr p (s.nextEntry n none) := by
  simp only [State.nextErr, ← hk, ← ha, State.loadFault, hb, hpo, hs, Bool.false_eq_true, if_false, orElse_none]
/-- An error of the entry's own line comes before those of its fields (log 77). -/
theorem State.nextErr_line {e : Exc}
    (h : s.loadFault k 64 a = some e ∨ (s.loadFault k 64 a = none ∧ sideErr (s.sideOf k) a = some e)) : s.nextErr p n = some e := by
  obtain h | ⟨h, h'⟩ := h
  · simp only [State.nextErr, ← hk, ← ha, h]
    rfl
  · simp only [State.nextErr, ← hk, ← ha, h, h']
    rfl
end
end Sys2Proof.Machine
end

section
/-! ## Queue pairs (O47): completion, failure and reset -/
namespace Sys2Proof.Machine

/-! ### Places that become free (R118, R119) -/

theorem Qp.works_advance (k : Nat) (q : Qp) : (q.advance k).works = q.works := by
  induction k generalizing q with
  | zero => rfl
  | succ k ih =>
    rw [Qp.advance]
    split
    · exact ih _
    · rfl
theorem Qp.cfg_advance (k : Nat) (q : Qp) : (q.advance k).cfg = q.cfg := by
  induction k generalizing q with
  | zero => rfl
  | succ k ih =>
    rw [Qp.advance]
    split
    · exact ih _
    · rfl
theorem Qp.head_le_advance (k : Nat) (q : Qp) : q.head ≤ (q.advance k).head := by
  induction k generalizing q with
  | zero => exact le_rfl
  | succ k ih =>
    rw [Qp.advance]
    split
    · exact (Nat.le_succ q.head).trans (ih { q with head := q.head + 1, free := q.free.filter (· != q.head) })
    · exact le_rfl
theorem Qp.mem_works_update {q : Qp} {i : Nat} {f : Work → Option Work} {y : Work} (h : y ∈ (q.update i f).works) :
    (y.idx ≠ i ∧ y ∈ q.works) ∨ ∃ w ∈ q.works, w.idx = i ∧ f w = some y := by
  obtain ⟨w, hw, hy⟩ := List.mem_filterMap.1 h
  split at hy
  · next hi => exact .inr ⟨w, hw, hi, hy⟩
  · next hi =>
    obtain rfl := Option.some.inj hy
    exact .inl ⟨hi, hw⟩
theorem Qp.idx_finish (q : Qp) (n : Nat) : ∀ y ∈ (q.finish n).works, y.idx ≠ n := by
  intro y hy
  rw [Qp.finish, Qp.works_advance] at hy
  obtain ⟨h, -⟩ | ⟨w, -, -, h⟩ := Qp.mem_works_update hy
  · exact h
  · cases h
/-- The oldest entry of a ring, when it ends, gives up its place. -/
theorem Qp.head_finish {q : Qp} {n : Nat} (h : q.head = n) : n < (q.finish n).head := by
  have hfree : (q.free ++ [n]).contains q.head = true := by simp [h]
  simp only [Qp.finish, Qp.update, List.length_append, List.length_singleton, Qp.advance, if_pos hfree]
  exact lt_of_lt_of_le (h ▸ Nat.lt_succ_self _) (Qp.head_le_advance ..)

/-! ### Additions to counters (R120, R123) -/

/-- t has the memory, the messages and the partitions of s, and the oldest place of each queue pair. -/
structure State.SameRings (s t : State) : Prop where
  mem : t.mem = s.mem
  sent : t.sent = s.sent
  parts : t.parts = s.parts
  head : ∀ n, (t.qp n).head = (s.qp n).head

theorem State.SameRings.refl (s : State) : s.SameRings s := ⟨rfl, rfl, rfl, fun _ => rfl⟩
theorem State.SameRings.trans {s t u : State} (h : s.SameRings t) (h' : t.SameRings u) : s.SameRings u :=
  ⟨h'.mem.trans h.mem, h'.sent.trans h.sent, h'.parts.trans h.parts, fun n => (h'.head n).trans (h.head n)⟩
theorem State.sameRings_addTc (s : State) (k : Nat) (x : W64) : s.SameRings (s.addTc k x) :=
  ⟨by rw [State.addTc, State.mem_fireAll]; rfl, by rw [State.addTc, State.sent_fireAll]; rfl,
    by rw [State.addTc, State.parts_fireAll]; rfl, fun n => by rw [State.addTc, State.qp_fireAll, State.head_fired]; rfl⟩
theorem State.tc_addTc (s : State) (k : Nat) (x : W64) (j : Nat) : (s.addTc k x).tc j = if j = k then s.tc k + x else s.tc j := by
  rw [State.addTc, State.tc, State.tcs_fireAll]
  exact s.tc_setTc k j _
theorem State.tcNumber_congr {s t : State} (h : t.parts = s.parts) (p n : Nat) : t.tcNumber p n = s.tcNumber p n := by
  rw [State.tcNumber, State.part, h, State.tcNumber, State.part]

/-- One addition of a completing entry, if it makes it. -/
theorem State.entryAdd_spec {s : State} {p n k : Nat} (b : Bool) (qp i : Nat) (x : W64) (hk : s.tcNumber p n = .ok k) :
    s.SameRings (if b then s.entryAdd p qp i n x else s) ∧
      ∀ j, (if b then s.entryAdd p qp i n x else s).tc j = s.tc j + if b = true ∧ j = k then x else 0 := by
  cases b with
  | false => exact ⟨.refl s, fun j => by simp⟩
  | true =>
    obtain ⟨z, hz⟩ := s.tracked_release (.entry qp i) 3 (.tc k)
    simp only [if_true, true_and, State.entryAdd, hk, hz]
    refine ⟨State.SameRings.trans (t := { s with hazard := z }) ⟨rfl, rfl, rfl, fun _ => rfl⟩ (State.sameRings_addTc ..),
      fun j => ?_⟩
    rw [State.tc_addTc]
    split
    · next h => rw [h]; rfl
    · exact (BitVec.add_zero _).symm
/-- The additions of an entry of a partition's own queue pair. -/
theorem State.completeAdds_own {s : State} {p n lk rk : Nat} {q : Qp} {w : Work} (hq : q.peer = 0)
    (hl : s.tcNumber p (bf w.word 24 12) = .ok lk) (hr : s.tcNumber p (bf w.word 12 12) = .ok rk) :
    s.SameRings (s.completeAdds p n q w) ∧ ∀ j, (s.completeAdds p n q w).tc j =
      s.tc j + (if w.word.getLsbD 49 = true ∧ j = lk then w64 (bf w.word 384 32) else 0)
        + if w.word.getLsbD 50 = true ∧ j = rk then w64 (bf w.word 416 32) else 0 := by
  have hadds : s.completeAdds p n q w =
      let u := if w.word.getLsbD 49 then s.entryAdd p n w.idx (bf w.word 24 12) (w64 (bf w.word 384 32)) else s
      if w.word.getLsbD 50 then u.entryAdd p n w.idx (bf w.word 12 12) (w64 (bf w.word 416 32)) else u := by
    simp only [State.completeAdds, if_pos hq]
  obtain ⟨hsame, htc⟩ := State.entryAdd_spec (w.word.getLsbD 49) n w.idx (w64 (bf w.word 384 32)) hl
  generalize (if w.word.getLsbD 49 then s.entryAdd p n w.idx (bf w.word 24 12) (w64 (bf w.word 384 32)) else s) = u at *
  obtain ⟨hsame', htc'⟩ := State.entryAdd_spec (w.word.getLsbD 50) n w.idx (w64 (bf w.word 416 32))
    ((State.tcNumber_congr hsame.parts p _).trans hr)
  rw [hadds]
  exact ⟨hsame.trans hsame', fun j => by rw [htc', htc]⟩

/-! ### Completion (R119, R123) -/

section
variable {s : State} {n p rel i : Nat} {w : Work} (hp : s.qpPart n = some (p, rel))
  (hw : ((s.qp n).works.find? fun y => y.idx == i && y.done && y.fail.isNone) = some w)
include hp hw

theorem entryComplete_exec (h : State.remoteErr { s with asked := w.held } p (s.qp n) w = none) :
    exec (.entryComplete n i) s = .next (State.setQp (s.completeAdds p n (s.qp n) w) n
      (((s.completeAdds p n (s.qp n) w).qp n).finish i)).fireAll := by
  change execEntryComplete n i s = _
  simp only [execEntryComplete, hp, hw, h]
/-- An entry of a partition's own queue pair adds to its counters and gives up its place. -/
theorem entryComplete_own {lk rk : Nat} (hq : (s.qp n).peer = 0) (hl : s.tcNumber p (bf w.word 24 12) = .ok lk)
    (hr : s.tcNumber p (bf w.word 12 12) = .ok rk) : ∃ t, exec (.entryComplete n i) s = .next t ∧ t.mem = s.mem ∧ t.sent = s.sent ∧
      (∀ j, t.tc j = s.tc j + (if w.word.getLsbD 49 = true ∧ j = lk then w64 (bf w.word 384 32) else 0)
        + (if w.word.getLsbD 50 = true ∧ j = rk then w64 (bf w.word 416 32) else 0)) ∧
      (∀ y ∈ (t.qp n).works, y.idx ≠ i) ∧ ((s.qp n).head = i → i < (t.qp n).head) := by
  have herr : State.remoteErr { s with asked := w.held } p (s.qp n) w = none := by
    have hr' : State.tcNumber { s with asked := w.held } p (bf w.word 12 12) = .ok rk := hr
    simp only [State.remoteErr, if_pos hq, hr', excOf, ite_self]
  obtain ⟨hsame, htc⟩ := State.completeAdds_own (n := n) hq hl hr
  refine ⟨_, entryComplete_exec hp hw herr, ?_, ?_, fun j => ?_, ?_, fun hhead => ?_⟩
  · rw [State.mem_fireAll]
    exact hsame.mem
  · rw [State.sent_fireAll]
    exact hsame.sent
  · rw [State.tc, State.tcs_fireAll]
    exact htc j
  · rw [State.qp_fireAll, State.qp_setQp, if_pos rfl]
    exact State.idx_fired _ _ _ (Qp.idx_finish _ _)
  · rw [State.qp_fireAll, State.qp_setQp, if_pos rfl, State.head_fired]
    exact Qp.head_finish ((hsame.head n).trans hhead)
/-- An entry of a queue pair to the host sends its addition there. -/
theorem entryComplete_host (hq : (s.qp n).peer = 2) (hl : w.word.getLsbD 49 = false) (hr : w.word.getLsbD 50 = true) :
    ∃ t, exec (.entryComplete n i) s = .next t ∧ t.mem = s.mem ∧ t.tcs = s.tcs ∧
      t.sent = s.sent ++ [.peerCounter n (bf w.word 12 12) (BitVec.ofNat 32 (bf w.word 416 32))] := by
  have herr : State.remoteErr { s with asked := w.held } p (s.qp n) w = none := by
    simp only [State.remoteErr, State.peerReach, hq, hr]
    rfl
  have hadds : s.completeAdds p n (s.qp n) w =
      { s with sent := s.sent ++ [.peerCounter n (bf w.word 12 12) (BitVec.ofNat 32 (bf w.word 416 32))] } := by
    simp only [State.completeAdds, hq, hl, hr, show ¬ (2 = 0) by omega, Bool.false_eq_true, if_false, if_true]
  refine ⟨_, entryComplete_exec hp hw herr, ?_, ?_, ?_⟩
  · rw [State.mem_fireAll, hadds]
    rfl
  · rw [State.tcs_fireAll, hadds]
    rfl
  · rw [State.sent_fireAll, hadds]
    rfl
/-- A counter beyond the grant fails the entry. -/
theorem entryComplete_refused {e : Exc} (hq : (s.qp n).peer = 0) (hr : w.word.getLsbD 50 = true)
    (he : s.tcNumber p (bf w.word 12 12) = .error e) : ∃ t, exec (.entryComplete n i) s = .next t ∧ t.mem = s.mem ∧ t.tcs = s.tcs ∧
      ∀ y ∈ (t.qp n).works, y.idx = i → y.fail = some e.failure := by
  have herr : State.remoteErr { s with asked := w.held } p (s.qp n) w = some e := by
    have he' : State.tcNumber { s with asked := w.held } p (bf w.word 12 12) = .error e := he
    simp [State.remoteErr, hq, hr, he', excOf]
  obtain rfl : e = access 0 := by
    unfold State.tcNumber at he
    extract_lets g at he
    split at he
    · cases he
    · exact (Except.error.inj he).symm
  refine ⟨s.failWork n i (access 0), ?_, rfl, rfl, fun y hy hi => ?_⟩
  · change execEntryComplete n i s = _
    simp only [execEntryComplete, hp, hw, herr]
  · rw [State.failWork, State.qp_setQp, if_pos rfl] at hy
    obtain ⟨h, -⟩ | ⟨x, -, -, hx⟩ := Qp.mem_works_update hy
    · exact absurd hi h
    · rw [← Option.some.inj hx]
end

/-! ### Failure, additions from outside, and reset (R117, R120, R129) -/

/-- A failed entry posts its record and puts its queue pair into ERROR. -/
theorem entryFail_posts {s : State} {n p rel i c m : Nat} {w : Work} {a : W64} (hp : s.qpPart n = some (p, rel))
    (hw : ((s.qp n).works.find? fun y => y.idx == i) = some w) (hf : w.fail = some (c, a, m)) (hon : (s.qp n).state = .on) :
    ∃ u : State, u.mem = s.mem ∧ (u.qp n).state = .error ∧ (∀ y ∈ (u.qp n).works, y.idx ≠ i) ∧
      exec (.entryFail n i) s = .next (u.postTo p (bf (s.qp n).cfg 34 4)
        { code := c, unit := 9, index := rel, cid := bf (s.qp n).cfg 34 4, addr := a.toNat, caddr := (s.qp n).place i
          detail := m + i % (s.qp n).size * 2 ^ 16 }) := by
  have hfail : s.failureOf p (s.qp n) w = some (c, a, m) := by rw [State.failureOf, hf]
  have hexec : exec (.entryFail n i) s = execEntryFail n i s := rfl
  have hcfg : ((s.qp n).finish i).cfg = (s.qp n).cfg := Qp.cfg_advance ..
  simp only [execEntryFail, hp, hw, hfail, hcfg] at hexec
  refine ⟨_, ?_, ?_, ?_, hexec⟩
  · rfl
  · rw [State.qp_setQp, if_pos rfl]
    exact if_pos hon
  · rw [State.qp_setQp, if_pos rfl]
    exact Qp.idx_finish _ _

theorem remoteCounterAdd_adds {s : State} {p n k : Nat} (inc : W32) (hp : (s.part p).pstate ≠ 0) (hk : s.tcNumber p n = .ok k) :
    ∃ t, exec (.remoteCounterAdd p n inc) s = .next t ∧ t.mem = s.mem ∧ t.sent = s.sent ∧
      ∀ j, t.tc j = if j = k then s.tc j + inc.setWidth 64 else s.tc j := by
  have hsame := s.sameRings_addTc k (inc.setWidth 64)
  refine ⟨s.addTc k (inc.setWidth 64), ?_, hsame.mem, hsame.sent, fun j => ?_⟩
  · change execRemoteCounterAdd p n inc s = _
    simp only [execRemoteCounterAdd, if_neg hp, hk]
  · rw [State.tc_addTc]
    split
    · next h => rw [h]
    · rfl
theorem remoteCounterAdd_refused {s : State} {p n : Nat} {e : Exc} (inc : W32) (he : s.tcNumber p n = .error e) :
    exec (.remoteCounterAdd p n inc) s = .next { s with sent := s.sent ++ [.refused] } := by
  change execRemoteCounterAdd p n inc s = _
  simp only [execRemoteCounterAdd, he, ite_self]
theorem qpResetDone_empties {s : State} {n : Nat} (hr : (s.qp n).state = .resetting) (hw : (s.qp n).works = []) :
    ∃ t, exec (.qpResetDone n) s = .next t ∧ t.mem = s.mem ∧ t.qp n = (s.qp n).emptied .off := by
  refine ⟨s.setQp n ((s.qp n).emptied .off), ?_, rfl, ?_⟩
  · change execQpResetDone n s = _
    exact if_pos ⟨hr, by rw [hw]; rfl⟩
  · rw [State.qp_setQp, if_pos rfl]
theorem qpResetDone_idle {s : State} {n : Nat} (h : (s.qp n).state ≠ .resetting ∨ (s.qp n).works ≠ []) :
    exec (.qpResetDone n) s = .next s := by
  change execQpResetDone n s = _
  exact if_neg fun ⟨hr, hw⟩ => h.elim (fun h => h hr) fun h => h (List.isEmpty_iff.1 hw)

/-- Settles O47: the next entry is taken with the first error of its line or its fields; completion, failure and reset each by what
they leave of the ring and the counters. -/
theorem queuePairEntries : Obligations.QueuePairEntries := by
  unfold Obligations.QueuePairEntries
  intro s qp n p rel lk rk c w e a m inc q k x done_ hp
  refine ⟨fun hon harm hok hb hpo hside => ?_, fun hon harm hok herr => ?_, entryArm_idle hp,
    fun hw hq hl hr => entryComplete_own hp hw hq hl hr,
    fun hw => entryComplete_host hp hw, fun hw => entryComplete_refused hp hw, fun hw hf hon => entryFail_posts hp hw hf hon,
    remoteCounterAdd_adds inc, remoteCounterAdd_refused inc, qpResetDone_empties, qpResetDone_idle⟩
  · obtain ⟨t, y, q', ht, hmem, harm', htail, hy, rfl⟩ := entryArm_arms hp hon harm hok (State.nextErr_fields p rfl rfl hb hpo hside)
    refine ⟨t, _, ht, hmem, harm', htail, hy, rfl, rfl, rfl, rfl, fun hnone hfence hc => ?_⟩
    have hnext : (s.nextEntry qp (s.armErr p (s.nextEntry qp none))).fail = none :=
      (congrArg (Option.map Exc.failure) hnone).trans rfl
    exact State.mayFire_threshold q' rfl hnext hfence hc
  · obtain ⟨t, y, q', ht, hmem, harm', -, hy, rfl⟩ := entryArm_arms hp hon harm hok (State.nextErr_line p rfl rfl herr)
    exact ⟨t, _, ht, hmem, harm', hy, rfl, State.mayFire_failed s p q' (w := s.nextEntry qp (some e)) rfl, rfl⟩
end Sys2Proof.Machine
end
section
/-! ## Reads and writes of memory by key (O48, O52) -/
namespace Sys2Proof.Machine

/-! ### Stores and lines -/

/-- A write to the byte of a key reaches this device's memory: the byte is not an external target's, and its link has not failed. -/
def State.Reaches (s : State) (k : Nat) : Prop := isExt k = false ∧ (isDev k = true → s.linkFailed (s.linkOf k) = false)

theorem State.reaches_chunk (s : State) {k : Nat} (hlo : 2 ^ 54 ≤ k) (hhi : k < 2 ^ 60) : s.Reaches k := by
  have hext : isExt k = false := by simp [isExt]; omega
  have hdev : isDev k = false := by simp [isDev]; omega
  exact ⟨hext, fun h => by rw [hdev] at h; cases h⟩
theorem State.reaches_dev {s : State} {k : Nat} (hk : isDev k = true) (hl : s.linkFailed (s.linkOf k) = false) : s.Reaches k := by
  refine ⟨?_, fun _ => hl⟩
  simp [isDev] at hk
  simp [isExt]
  omega
theorem State.reaches_shared (s : State) {a n : Nat} (ha : ShRange a n) : s.Reaches (shKey a) :=
  ⟨shKey_isExt ha, fun h => by rw [shKey_isDev] at h; cases h⟩

section
variable {s : State} {k : Nat} (hk : s.Reaches k)
include hk

/-- A store that reaches memory writes its bytes, asks an island to run and may mark ingest checks. -/
theorem State.store_reaches (n v : Nat) :
    ∃ i g, s.store k n v = { s with islands := i, ingest := g, mem := Mem.writeN s.mem k n v } := by
  obtain ⟨hext, hlink⟩ := hk
  obtain ⟨i, hi⟩ := s.wakeKey_eq k
  obtain ⟨h, -⟩ | ⟨-, hdev, h, -⟩ | ⟨-, -, -, h⟩ | ⟨-, -, h⟩ := s.store_cases k n v
  · rw [hext] at h
    cases h
  · rw [hlink hdev] at h
    cases h
  · obtain ⟨g, hg⟩ := State.marked_eq { s.wakeKey k with mem := Mem.writeN (s.wakeKey k).mem k n v } k
    rw [h, hg, hi]
    exact ⟨i, g, rfl⟩
  · rw [h, hi]
    exact ⟨i, s.ingest, rfl⟩
/-- A line that reaches memory is written with its side band, and takes a pending error away. -/
theorem State.setLine_reaches (bs : List Byte) (sb : W32) : ∃ i g, s.setLine k bs sb =
    (({ s with islands := i, ingest := g, mem := Mem.writeBytes s.mem k bs } : State).setSide k sb).mend k := by
  obtain ⟨hext, hlink⟩ := hk
  obtain ⟨i, hi⟩ := s.wakeKey_eq k
  simp only [State.setLine, hext, Bool.false_eq_true, if_false, hi]
  split
  · next hdev =>
    have hl : State.linkFailed { s with islands := i } (State.linkOf { s with islands := i } k) = false := hlink hdev
    rw [if_neg (Bool.eq_false_iff.1 hl)]
    obtain ⟨g, hg⟩ := State.marked_eq ((({ s with islands := i, mem := Mem.writeBytes s.mem k bs } : State).setSide k sb).mend k) k
    exact ⟨i, g, hg⟩
  · exact ⟨i, s.ingest, rfl⟩
theorem State.mem_setLine (bs : List Byte) (sb : W32) : (s.setLine k bs sb).mem = Mem.writeBytes s.mem k bs := by
  obtain ⟨i, g, h⟩ := State.setLine_reaches hk bs sb
  rw [h]
  rfl
theorem State.sideOf_setLine (bs : List Byte) (sb : W32) : (s.setLine k bs sb).sideOf k = sb := by
  obtain ⟨i, g, h⟩ := State.setLine_reaches hk bs sb
  rw [h]
  exact (State.sideOf_setSide ..).trans (if_pos rfl)
/-- The same of a line that may lie in the chunk buffers, which have no side band. -/
theorem State.mem_setAnyLine (bs : List Byte) (sb : W32) : (s.setAnyLine k bs sb).mem = Mem.writeBytes s.mem k bs := by
  unfold State.setAnyLine
  split
  · rfl
  · exact State.mem_setLine hk bs sb
theorem State.sideOf_setAnyLine (bs : List Byte) (sb : W32) (hc : isChunk k = false) : (s.setAnyLine k bs sb).sideOf k = sb := by
  rw [State.setAnyLine, if_neg (by simp [hc])]
  exact State.sideOf_setLine hk bs sb
end

/-! ### Bytes and numbers -/

theorem Mem.writeN_mod (m : List Host.Cell) (k n v : Nat) : Mem.writeN m k n (v % 2 ^ (8 * n)) = Mem.writeN m k n v := by
  induction n generalizing m k v with
  | zero => rfl
  | succ n ih =>
    have hbyte : BitVec.ofNat 8 (v % 2 ^ (8 * (n + 1))) = BitVec.ofNat 8 v := by
      apply BitVec.eq_of_toNat_eq
      rw [BitVec.toNat_ofNat, BitVec.toNat_ofNat]
      exact Nat.mod_mod_of_dvd _ (pow_dvd_pow 2 (by omega))
    have hrest : v % 2 ^ (8 * (n + 1)) / 256 = v / 256 % 2 ^ (8 * n) := by
      rw [show 8 * (n + 1) = 8 + 8 * n by omega, pow_add]
      exact Nat.mod_mul_right_div_self ..
    rw [Mem.writeN, hbyte, hrest, ih, Mem.writeN]
/-- A number written in two parts. -/
theorem Mem.writeN_add (m : List Host.Cell) (k a b v : Nat) :
    Mem.writeN m k (a + b) v = Mem.writeN (Mem.writeN m k a v) (k + a) b (v / 2 ^ (8 * a)) := by
  induction a generalizing m k v with
  | zero => simp [Mem.writeN]
  | succ a ih =>
    rw [show a + 1 + b = a + b + 1 by omega, Mem.writeN, ih, Mem.writeN, show k + 1 + a = k + (a + 1) by omega, Nat.div_div_eq_div_mul,
      show 256 * 2 ^ (8 * a) = 2 ^ (8 * (a + 1)) by rw [show 8 * (a + 1) = 8 + 8 * a by omega, pow_add]; rfl]
theorem ofBytes_read (m : List Host.Cell) (k n : Nat) : ofBytes ((List.range n).map fun j => Mem.read m (k + j)) = Mem.readN m k n := by
  change ofBytes ((List.range n).map (Mem.read m ∘ (k + ·))) = _
  rw [← List.map_map, ← List.range'_eq_map_range]
  induction n generalizing k with
  | zero => rfl
  | succ n ih => rw [List.range'_succ, List.map_cons, ofBytes, ih, Mem.readN]
/-- Byte j of the number that a list of bytes makes. -/
theorem byte_ofBytes (bs : List Byte) (j : Nat) : BitVec.ofNat 8 (ofBytes bs / 2 ^ (8 * j)) = bs.getD j 0 := by
  induction bs generalizing j with
  | nil => simp [ofBytes]
  | cons b bs ih =>
    have hb := b.isLt
    cases j with
    | zero =>
      apply BitVec.eq_of_toNat_eq
      rw [BitVec.toNat_ofNat]
      simp only [ofBytes, List.getD_cons_zero]
      omega
    | succ j =>
      rw [List.getD_cons_succ, ← ih, ofBytes, show 8 * (j + 1) = 8 + 8 * j by omega, pow_add, ← Nat.div_div_eq_div_mul,
        show (b.toNat + 256 * ofBytes bs) / 2 ^ 8 = ofBytes bs by omega]

theorem State.wakeKeys_eq (s : State) (ks : List Nat) : ∃ i, ks.foldl State.wakeKey s = { s with islands := i } := by
  refine foldl_keeps (fun t => ∃ i, t = { s with islands := i }) State.wakeKey (fun t k ⟨i, ht⟩ => ?_) ks s ⟨s.islands, rfl⟩
  obtain ⟨j, hj⟩ := t.wakeKey_eq k
  exact ⟨j, by rw [hj, ht]⟩

/-! ### Runs of keys (R325, R326) -/

/-- The runs hold the n keys from k on, each once and in order. -/
def CoversFrom : Nat → Nat → List (Nat × Nat) → Prop
  | _, n, [] => n = 0
  | k, n, r :: rs => r.1 = k ∧ 0 < r.2 ∧ r.2 ≤ n ∧ CoversFrom (k + r.2) (n - r.2) rs

theorem coversFrom_runsOf (k n : Nat) : CoversFrom k n (runsOf ((List.range n).map (k + ·))) := by
  rw [← List.range'_eq_map_range]
  induction n generalizing k with
  | zero => rfl
  | succ n ih =>
    have h := ih (k + 1)
    rw [List.range'_succ, runsOf]
    generalize runsOf (List.range' (k + 1) n) = rs at h
    cases rs with
    | nil => exact ⟨rfl, Nat.one_pos, by omega, h⟩
    | cons r rs =>
      obtain ⟨x, m⟩ := r
      obtain ⟨rfl, hpos, hle, hrest⟩ := h
      dsimp only at hpos hle hrest ⊢
      split
      · refine ⟨rfl, Nat.succ_pos _, by omega, ?_⟩
        rwa [show k + (m + 1) = k + 1 + m by omega, Nat.add_sub_add_right]
      · exact ⟨rfl, Nat.one_pos, by omega, rfl, hpos, hle, hrest⟩
/-- Runs written one after another write the number at once. -/
theorem State.putRuns_covers {rs : List (Nat × Nat)} {s : State} {k n : Nat} (v : Nat) (h : CoversFrom k n rs)
    (hk : ∀ j < n, s.Reaches (k + j)) :
    ∃ i g, s.putRuns v rs = { s with islands := i, ingest := g, mem := Mem.writeN s.mem k n v } := by
  induction rs generalizing s k n v with
  | nil =>
    obtain rfl : n = 0 := h
    exact ⟨s.islands, s.ingest, rfl⟩
  | cons r rs ih =>
    obtain ⟨rfl, hpos, hle, hrest⟩ := h
    obtain ⟨i, g, hs⟩ := State.store_reaches (hk 0 (by omega)) r.2 (v % 2 ^ (8 * r.2))
    rw [Nat.add_zero, Mem.writeN_mod] at hs
    obtain ⟨i', g', hrs⟩ := ih (s := { s with islands := i, ingest := g, mem := Mem.writeN s.mem r.1 r.2 v }) (v / 2 ^ (8 * r.2)) hrest
      fun j hj => by
        have := hk (r.2 + j) (by omega)
        rwa [← Nat.add_assoc] at this
    refine ⟨i', g', ?_⟩
    rw [State.putRuns, hs, hrs, ← Mem.writeN_add, Nat.add_sub_cancel' hle]
theorem State.putAt_reaches {s : State} {k n : Nat} (v : Nat) (hk : ∀ j < n, s.Reaches (k + j)) :
    ∃ i g, s.putAt ((List.range n).map (k + ·)) v = { s with islands := i, ingest := g, mem := Mem.writeN s.mem k n v } :=
  State.putRuns_covers v (coversFrom_runsOf k n) hk

/-- t has the bytes `f j` at the n keys from k on, and else the memory of s; side bands keep. -/
structure State.Written (s : State) (k n : Nat) (f : Nat → Byte) (t : State) : Prop where
  side : t.side = s.side
  bytes : ∀ j < n, Mem.read t.mem (k + j) = f j
  out : ∀ j, j < k ∨ k + n ≤ j → Mem.read t.mem j = Mem.read s.mem j

theorem State.written_putAt {s : State} {k n v : Nat} {f : Nat → Byte} (hwf : Memory.wf s.mem = true) (hk : ∀ j < n, s.Reaches (k + j))
    (hf : ∀ j < n, BitVec.ofNat 8 (v / 2 ^ (8 * j)) = f j) : s.Written k n f (s.putAt ((List.range n).map (k + ·)) v) := by
  obtain ⟨i, g, h⟩ := State.putAt_reaches v hk
  rw [h]
  exact ⟨rfl, fun j hj => (Mem.read_writeN k n v j hwf hj).trans (hf j hj), fun j hj => Mem.read_writeN_out k n v j hwf hj⟩
theorem State.readN_putAt {s : State} {k n : Nat} (v : Nat) (hwf : Memory.wf s.mem = true) (hk : ∀ j < n, s.Reaches (k + j)) :
    Mem.readN (s.putAt ((List.range n).map (k + ·)) v).mem k n = v % 2 ^ (8 * n) := by
  obtain ⟨i, g, h⟩ := State.putAt_reaches v hk
  rw [h, Mem.readN_writeN _ _ _ hwf, pow_mul]
  rfl
theorem State.numAt_range (s : State) (k n : Nat) : s.numAt ((List.range n).map (k + ·)) = Mem.readN s.mem k n := by
  rw [State.numAt, List.map_map]
  exact ofBytes_read s.mem k n
end Sys2Proof.Machine
end
section
/-! ## The host and the fabric ports (O52) -/
namespace Sys2Proof.Machine

/-! ### Accesses of the host (R319, R320) -/

/-- The virtual function of a partition is enabled. -/
theorem State.vfOn_iff (s : State) (p : Nat) : s.vfOn p = true ↔ (s.part p).pstate ≠ 0 ∧ bf (s.part p).pvf 0 1 = 1 := by
  simp [State.vfOn]

section
variable {s : State} {p : Nat}

theorem hostDoorbell_on (hv : s.vfOn p = true) : exec (.hostDoorbell p) s = .next (s.setPart p { s.part p with mb := true }) :=
  congrArg Host.Outcome.next (if_pos hv)
theorem hostDoorbell_off (hv : s.vfOn p = false) : exec (.hostDoorbell p) s = .next s :=
  congrArg Host.Outcome.next (if_neg (by simp [hv]))
theorem hostBar0_off (hv : s.vfOn p = false) (w : Bool) (off size : Nat) (d : W64) :
    exec (.hostBar0Access p w off size d) s = .next (s.refuseHost w (.hostError p)) :=
  congrArg Host.Outcome.next (if_pos (by simp [hv]))
theorem hostBar2_off (hv : s.vfOn p = false) (w : Bool) (a : W64) (size : Nat) (data : List Byte) :
    exec (.hostBar2Access p w a size data) s = .next (s.refuseHost w (.hostError p)) :=
  congrArg Host.Outcome.next (if_pos (by simp [hv]))

/-- A read of sound bytes completes with them; it asks islands to run. -/
theorem State.hostBytes_read {ks : List Nat} (hks : ∀ k ∈ ks, s.isBad k = false ∧ s.poisoned k = false) (data : Nat) :
    ∃ i, s.hostBytes p false ks data =
      { s with islands := i, sent := s.sent ++ [.hostRead p (ks.map fun k => Mem.read s.mem k)] } := by
  obtain ⟨i, hi⟩ := s.wakeKeys_eq ks
  have hsound : (ks.find? fun k => !State.sound { s with islands := i } k) = none := List.find?_eq_none.2 fun k hk => by
    have hbad : State.isBad { s with islands := i } k = false := (hks k hk).1
    have hpoison : State.poisoned { s with islands := i } k = false := (hks k hk).2
    simp [State.sound, hbad, hpoison]
  refine ⟨i, ?_⟩
  simp only [State.hostBytes, hi, hsound, Bool.false_eq_true, if_false]
  rfl
/-- A write of bytes that reach memory. -/
theorem State.hostBytes_write {k n v : Nat} {f : Nat → Byte} (hwf : Memory.wf s.mem = true) (hk : ∀ j < n, s.Reaches (k + j))
    (hf : ∀ j < n, BitVec.ofNat 8 (v / 2 ^ (8 * j)) = f j) : s.Written k n f (s.hostBytes p true ((List.range n).map (k + ·)) v) := by
  obtain ⟨i, hi⟩ := s.wakeKeys_eq ((List.range n).map (k + ·))
  simp only [State.hostBytes, hi, if_true]
  obtain ⟨hside, hbytes, hout⟩ := State.written_putAt (s := { s with islands := i }) (f := f) hwf hk hf
  exact ⟨hside, hbytes, hout⟩
end

section
variable {s : State} {p off size : Nat} (hv : s.vfOn p = true)
include hv

/-- An enabled function's access to the first 8 KiB of BAR0. -/
theorem hostBar0_exec (hoff : off < 0x2000) (w : Bool) (d : W64) :
    exec (.hostBar0Access p w off size d) s = .next (s.bar0 p w off size d) :=
  congrArg Host.Outcome.next (if_neg (by simp [hv, hoff]))
theorem hostBar0_badSize (hoff : off < 0x2000) (h : (size ≠ 4 ∧ size ≠ 8) ∨ off % size ≠ 0) (w : Bool) (d : W64) :
    exec (.hostBar0Access p w off size d) s = .next (s.refuseHost w (.completerAbort p)) := by
  rw [hostBar0_exec hv hoff, State.bar0]
  exact congrArg Host.Outcome.next (if_pos h)
theorem hostBar0_doorbell (hz : size = 4 ∨ size = 8) (d : W64) :
    exec (.hostBar0Access p true 0x1000 size d) s = .next (s.setPart p { s.part p with mb := true }) := by
  have h : ¬ ((size ≠ 4 ∧ size ≠ 8) ∨ 0x1000 % size ≠ 0) := by
    obtain rfl | rfl := hz <;> decide
  rw [hostBar0_exec hv (by decide), State.bar0]
  exact congrArg Host.Outcome.next (if_neg h)

section
variable (hoff : off + size ≤ 0x1000) (hz : size = 4 ∨ size = 8) (hal : off % size = 0)
  (hsh : s.sharedOk p ((s.part p).mailbox + off) size = true)
include hoff hz hal hsh

/-- An aligned access to the mailbox is one to the bytes of shared memory behind it. -/
theorem hostBar0_mailbox (w : Bool) (d : W64) : exec (.hostBar0Access p w off size d) s =
    .next (s.hostBytes p w ((List.range size).map (shKey ((s.part p).mailbox + off) + ·)) d.toNat) := by
  have h : ¬ ((size ≠ 4 ∧ size ≠ 8) ∨ off % size ≠ 0) := by omega
  have hkeys : ((List.range size).map fun i => shKey ((s.part p).mailbox + off + i)) =
      (List.range size).map (shKey ((s.part p).mailbox + off) + ·) :=
    List.map_congr_left fun i _ => shKey_add (.of_sharedOk hsh) i
  rw [hostBar0_exec hv (by omega), State.bar0]
  simp only [if_neg h, if_pos (show off < 0x1000 by omega), if_pos hsh, hkeys]
omit hoff hz hal hv in
theorem mailbox_key (j : Nat) :
    2 ^ 53 + (bf (s.part p).pmbx 12 44 * 2 ^ 12 + off + j - 2 ^ 32) = shKey ((s.part p).mailbox + off) + j := by
  rw [← shKey_add (.of_sharedOk hsh), shKey, sharedKey, Part.mailbox]
theorem hostBar0_writes (hwf : Memory.wf s.mem = true) (d : W64) : ∃ t, exec (.hostBar0Access p true off size d) s = .next t ∧
    s.Written (shKey ((s.part p).mailbox + off)) size (fun j => d.extractLsb' (8 * j) 8) t := by
  have hr := ShRange.of_sharedOk hsh
  refine ⟨_, hostBar0_mailbox hv hoff hz hal hsh true d, State.hostBytes_write hwf (fun j hj => ?_) fun j _ => ?_⟩
  · rw [← shKey_add hr]
    exact s.reaches_shared (hr.sub (k := 1) (by omega) (by omega))
  · apply BitVec.eq_of_toNat_eq
    rw [BitVec.toNat_ofNat, BitVec.extractLsb'_toNat, Nat.shiftRight_eq_div_pow]
theorem hostBar0_reads (d : W64) (hks : ∀ j < size, s.isBad (shKey ((s.part p).mailbox + off + j)) = false ∧
    s.poisoned (shKey ((s.part p).mailbox + off + j)) = false) : ∃ t, exec (.hostBar0Access p false off size d) s = .next t ∧
    (t.sent = s.sent ++ [.hostRead p ((List.range size).map fun j => Mem.read s.mem (shKey ((s.part p).mailbox + off + j)))] ∧
      t.mem = s.mem ∧ t.parts = s.parts) := by
  have hadd := shKey_add (ShRange.of_sharedOk hsh)
  obtain ⟨i, hi⟩ := State.hostBytes_read (s := s) (p := p) (ks := (List.range size).map (shKey ((s.part p).mailbox + off) + ·))
    (fun k hk => by
      obtain ⟨j, hj, rfl⟩ := List.mem_map.1 hk
      rw [← hadd]
      exact hks j (List.mem_range.1 hj)) d.toNat
  refine ⟨_, (hostBar0_mailbox hv hoff hz hal hsh false d).trans (congrArg _ hi), ?_, rfl, rfl⟩
  simp only [List.map_map, Function.comp_def, hadd]
end

/-- An enabled function's access within the size of BAR2. -/
theorem hostBar2_exec {a : W64} {size : Nat} (ha : a.toNat + size ≤ s.bar2Size) (w : Bool) (data : List Byte) :
    exec (.hostBar2Access p w a size data) s = .next (s.bar2 p w a size data) :=
  congrArg Host.Outcome.next (if_neg (by simp [hv, ha]))
omit hv in
theorem hostBar2_beyond {a : W64} {size : Nat} (ha : s.bar2Size < a.toNat + size) (w : Bool) (data : List Byte) :
    exec (.hostBar2Access p w a size data) s = .next (s.refuseHost w (.hostError p)) :=
  congrArg Host.Outcome.next (if_pos (by simp [ha]))
theorem hostBar2_reads {a : W64} {size : Nat} {ks : List Nat} (ha : a.toNat + size ≤ s.bar2Size)
    (hk : s.ipaKeys p a.toNat size false = .ok ks) (hks : ∀ k ∈ ks, s.isBad k = false ∧ s.poisoned k = false) (data : List Byte) :
    ∃ t, exec (.hostBar2Access p false a size data) s = .next t ∧
      (t.sent = s.sent ++ [.hostRead p (ks.map fun k => Mem.read s.mem k)] ∧ t.mem = s.mem ∧ t.parts = s.parts) := by
  obtain ⟨i, hi⟩ := State.hostBytes_read (p := p) hks (ofBytes data)
  have hbar : s.bar2 p false a size data = s.hostBytes p false ks (ofBytes data) := by rw [State.bar2, hk]
  exact ⟨_, (hostBar2_exec hv ha false data).trans (congrArg _ (hbar.trans hi)), rfl, rfl, rfl⟩
theorem hostBar2_writes {a : W64} {k : Nat} {data : List Byte} (ha : a.toNat + data.length ≤ s.bar2Size)
    (hwf : Memory.wf s.mem = true) (hdev : isDev (k + data.length) = true)
    (hk : s.ipaKeys p a.toNat data.length true = .ok ((List.range data.length).map (k + ·)))
    (hl : ∀ j < data.length, s.linkFailed (s.linkOf (k + j)) = false) :
    ∃ t, exec (.hostBar2Access p true a data.length data) s = .next t ∧ s.Written k data.length (fun j => data.getD j 0) t := by
  refine ⟨_, hostBar2_exec hv ha true data, ?_⟩
  rw [State.bar2, hk]
  refine State.hostBytes_write hwf (fun j hj => State.reaches_dev ?_ (hl j hj)) fun j _ => byte_ofBytes data j
  simp only [isDev, decide_eq_true_eq] at hdev ⊢
  omega
theorem hostBar2_untranslated {a : W64} {size : Nat} {e : WalkFail} {w : Bool} (ha : a.toNat + size ≤ s.bar2Size)
    (hk : s.ipaKeys p a.toNat size w = .error e) (data : List Byte) : exec (.hostBar2Access p w a size data) s =
      .next ((s.postTo p (s.lowCluster p) { cls := 2, code := 4, unit := 11, cid := s.lowCluster p, addr := a.toNat
                                            detail := e.detail }).refuseHost w (.unsupportedRequest p)) := by
  rw [hostBar2_exec hv ha, State.bar2, hk]
end

/-! ### Ports (R328-R330) -/

section
variable {s : State} {n : Nat}

theorem drainFlitSend_sends (h3 : (s.port n).state = 3) (hf : (s.port n).flit = false) (ho : s.outstanding n = false) :
    ∃ t, exec (.drainFlitSend n) s = .next t ∧ t.port n = { s.port n with flit := true } ∧ t.sent = s.sent ++ [.drain n] :=
  ⟨_, congrArg Host.Outcome.next (if_pos ⟨h3, hf, ho⟩), (s.port_setPort n n _).trans (if_pos rfl), rfl⟩
theorem drainFlitSend_idle (h : (s.port n).state ≠ 3 ∨ s.outstanding n = true) : exec (.drainFlitSend n) s = .next s :=
  congrArg Host.Outcome.next (if_neg fun ⟨h3, _, ho⟩ => h.elim (fun h => h h3) fun h => by rw [ho] at h; cases h)
theorem peerDrainRequest_confirms (h : (s.port n).state = 2 ∨ (s.port n).state = 3) :
    ∃ t, exec (.peerDrainRequest n) s = .next t ∧ t = { s with sent := s.sent ++ [.drainConf n] } :=
  ⟨_, congrArg Host.Outcome.next (if_pos h), rfl⟩
theorem drainConfirm_drains (h3 : (s.port n).state = 3) (hf : (s.port n).flit = true) :
    exec (.drainConfirm n) s = .next (s.setPort n { s.port n with state := 4, conf := true }) :=
  congrArg Host.Outcome.next (if_pos ⟨h3, hf⟩)
theorem drainConfirm_idle (hf : (s.port n).flit = false) : exec (.drainConfirm n) s = .next s :=
  congrArg Host.Outcome.next (if_neg fun ⟨_, h⟩ => by rw [hf] at h; cases h)
theorem fabricPortUp_trains (h : (s.port n).state = 1) : ∃ t, exec (.fabricPortUp n) s = .next t ∧ (t.port n).state = 2 ∧
    1 ≤ (t.port n).lanes ∧ (t.port n).lanes ≤ 8 ∧ (t.port n).drain = (s.port n).drain ∧ t.mem = s.mem := by
  have hlanes := (Config.trained s.free n).1.isLt
  refine ⟨State.setPort { s with free := s.free + 1 } n { s.port n with
    state := 2, lanes := (Config.trained s.free n).1.val + 1, peer := (Config.trained s.free n).2.toNat },
    congrArg Host.Outcome.next (if_pos h), ?_⟩
  rw [State.port_setPort, if_pos rfl]
  exact ⟨rfl, Nat.succ_pos _, hlanes, rfl, rfl⟩
theorem fabricPortUp_idle (h : (s.port n).state ≠ 1) : exec (.fabricPortUp n) s = .next s :=
  congrArg Host.Outcome.next (if_neg h)
theorem fabricPortDown_exec : exec (.fabricPortDown n) s =
    .next (s.setPort n { s.port n with state := 0, lanes := 0, conf := false, flit := false }) := rfl
theorem peerPortReopen_trains (h : (s.port n).state = 4) : exec (.peerPortReopen n) s =
    .next (s.setPort n { s.port n with state := 1, conf := false, flit := false, drain := false }) :=
  congrArg Host.Outcome.next (if_pos h)
end

/-! ### Requests that a port holds (R329) -/

section
variable {s : State} {n k : Nat} (v : W64) (via : Option Tlb)

theorem State.timedOut_of {r : Request} (h : s.fabricLimit < s.clock - r.since) : s.timedOut r = true :=
  decide_eq_true (by omega)
theorem State.portRequest_late {r : Request} (hr : s.askedFor k = some r) (h : s.fabricLimit < s.clock - r.since) :
    s.portRequest n k v via = .error (access v) := by
  simp only [State.portRequest, hr, Option.any_some, State.timedOut_of h, if_true]
/-- A port that is not UP holds a new request. -/
theorem State.portRequest_holds (hr : s.askedFor k = none) (h : (s.port n).state ≠ 2) : s.portRequest n k v via =
    .error (.hold { va := v, key := k, begun := false, via := via, since := s.clock }) := by
  have hstate : ((s.port n).state == 2) = false := by simpa using h
  simp [State.portRequest, hr, h, hstate]
theorem State.portRequest_answers (hr : s.askedFor k = none) (h : (s.port n).state = 2) (hp : Config.peerSlow s.free k = false) :
    s.portRequest n k v via = .ok () := by
  simp [State.portRequest, hr, h, hp]
end

/-- A sequencer whose request is overdue at a port has its turn again. -/
theorem State.retries_seq {s : State} {n g : Nat} {z : Core} {r : Request} (q : SeqKind) (hz : (g, z) ∈ s.cores)
    (hn : extTarget r.key = n) (hr : s.fabricLimit < s.clock - r.since) (hh : (z.seq q).held = some r) :
    Turn.seq (.core g q) ∈ s.retries n := by
  have hover : s.overdue n (z.seq q).held = true := by simp [State.overdue, hh, hn, State.timedOut_of hr]
  have hmem : (q, z.seq q) ∈ [(SeqKind.C, z.c), (.K, z.k), (.L, z.l), (.S, z.st)] := by cases q <;> simp [Core.seq]
  have hcore : Turn.seq (.core g q) ∈ s.coreRetries n g z :=
    List.mem_append_left _ (List.mem_map.2 ⟨(q, z.seq q), List.mem_filter.2 ⟨hmem, hover⟩, rfl⟩)
  exact List.mem_append_left _ (List.mem_append_left _ (List.mem_append_left _ (List.mem_flatMap.2 ⟨_, hz, hcore⟩)))
theorem fabricTimeout_retries (s : State) (n g : Nat) (z : Core) (r : Request) :
    ∃ t, exec (.fabricTimeout n) s = .next t ∧ t.mem = s.mem ∧ t.cores = s.cores ∧
      ((g, z) ∈ s.cores → extTarget r.key = n → s.fabricLimit < s.clock - r.since →
        ∀ q, (z.seq q).held = some r → Turn.seq (.core g q) ∈ t.agenda) :=
  ⟨{ s with agenda := s.retries n ++ s.agenda }, rfl, rfl, rfl,
    fun hz hn hr q hh => List.mem_append_left _ (State.retries_seq q hz hn hr hh)⟩

/-! ### Requests of a peer (R118, R124, R327) -/

/-- A port in service and a partition to which it belongs. -/
def State.Serves (s : State) (n p : Nat) : Prop :=
  ((s.port n).state = 2 ∨ (s.port n).state = 3) ∧ (s.part p).pstate ≠ 0 ∧ (s.part p).pport.getLsbD n = true

section
variable {s : State} {n : Nat} {r : PeerReq}

theorem peerRequest_served (h : s.Serves n (peerReqPart r)) : exec (.fabricPeerRequest n r) s = .next (s.peerReq n r) := by
  obtain ⟨hstate, hpart, hport⟩ := h
  change execFabricPeerRequest n r s = _
  simp only [execFabricPeerRequest]
  rw [if_neg (by omega), if_neg (by simp [hpart, hport])]
theorem peerRequest_refused (h : (s.port n).state = 2)
    (hp : (s.part (peerReqPart r)).pstate = 0 ∨ (s.part (peerReqPart r)).pport.getLsbD n = false) :
    exec (.fabricPeerRequest n r) s = .next (s.send (.peerError n 5)) := by
  change execFabricPeerRequest n r s = _
  simp only [execFabricPeerRequest]
  rw [if_neg (by omega), if_pos hp]
theorem peerRequest_closed (h2 : (s.port n).state ≠ 2) (h3 : (s.port n).state ≠ 3) : exec (.fabricPeerRequest n r) s = .next s := by
  change execFabricPeerRequest n r s = _
  exact if_pos ⟨h2, h3⟩
end

section
variable {s : State} {p off len k : Nat} (hk : s.chunkAt p off len = .ok k)
include hk

theorem State.chunkAt_lower : 2 ^ 54 ≤ k := by
  unfold State.chunkAt at hk
  extract_lets g at hk
  split at hk
  · rw [← Except.ok.inj hk]
    exact Nat.le_add_right ..
  · cases hk
theorem State.chunkAt_reaches {m : Nat} (hc : isChunk (k + m) = true) : ∀ j < m + 8, s.Reaches (k + j) := by
  have hlo := State.chunkAt_lower hk
  simp only [isChunk, Bool.and_eq_true, decide_eq_true_eq] at hc
  exact fun j hj => s.reaches_chunk (by omega) (by omega)
end

section
variable {s : State} {n p k : Nat} {a : W64}

/-- A request for chunk buffers goes on with the keys of its bytes. -/
theorem State.atPeer_chunk {len : Nat} (hk : s.chunkAt p a.toNat len = .ok k) (w : Bool) (f : List Nat → State) :
    s.atPeer n p true a len w f = f ((List.range len).map (k + ·)) := by
  simp only [State.atPeer, State.peerKeys, if_true, hk]
theorem peerWrite_writes {data : List Byte} (hs : s.Serves n p) (hk : s.chunkAt p a.toNat data.length = .ok k)
    (hwf : Memory.wf s.mem = true) (hc : isChunk (k + data.length) = true) :
    ∃ t, exec (.fabricPeerRequest n (.write p true a data [])) s = .next t ∧ s.Written k data.length (fun j => data.getD j 0) t := by
  have hreq : s.peerReq n (.write p true a data []) = s.putAt ((List.range data.length).map (k + ·)) (ofBytes data) := by
    rw [State.peerReq, State.atPeer_chunk hk]
    rfl
  refine ⟨_, (peerRequest_served hs).trans (congrArg _ hreq), State.written_putAt hwf (fun j hj => ?_) fun j _ => byte_ofBytes data j⟩
  exact State.chunkAt_reaches hk hc j (by omega)

section
variable (hk : s.chunkAt p a.toNat 8 = .ok k) (hwf : Memory.wf s.mem = true) (hb : s.badIn k 8 = false) (hc : isChunk k = true)
include hk hwf hb hc

/-- A read-modify-write of 8 bytes of chunk buffers. -/
theorem State.peerUpdate_chunk {f : Nat → Except Nat Nat} {v : Nat} (hf : f (Mem.readN s.mem k 8) = .ok v) :
    Mem.readN (s.peerUpdate n p true a 8 f).mem k 8 = v % 2 ^ 64 := by
  have herr : s.peerLineErr a ((List.range 8).map (k + ·)) = none := by
    change s.reduceErr k 8 a.toNat none = none
    simp [State.reduceErr, hb, hc]
  rw [State.peerUpdate, State.atPeer_chunk hk]
  simp only [herr, State.numAt_range, hf]
  exact State.readN_putAt v hwf fun j hj => State.chunkAt_reaches hk (m := 0) hc j (by omega)
theorem peerAdd64_adds (hs : s.Serves n p) (x : W64) : ∃ t, exec (.fabricPeerRequest n (.add64 p a x)) s = .next t ∧
    Mem.readN t.mem k 8 = (Mem.readN s.mem k 8 + x.toNat) % 2 ^ 64 := by
  have h := State.peerUpdate_chunk (n := n) hk hwf hb hc (f := fun v => .ok ((v + x.toNat) % 2 ^ 64)) rfl
  rw [Nat.mod_mod] at h
  exact ⟨_, peerRequest_served hs, h⟩
theorem peerReduce_adds (hs : s.Serves n p) (x : W64) : ∃ t, exec (.fabricPeerRequest n (.reduce p true a true 0 x)) s = .next t ∧
    Mem.readN t.mem k 8 = (Mem.readN s.mem k 8 + x.toNat) % 2 ^ 64 := by
  have h := State.peerUpdate_chunk (n := n) hk hwf hb hc (f := fun v => .ok (intReduce 0 8 v x.toNat)) rfl
  rw [intReduce, Nat.mod_mod] at h
  have hx : x.toNat % 2 ^ (8 * 8) = x.toNat := Nat.mod_eq_of_lt x.isLt
  refine ⟨_, peerRequest_served hs, ?_⟩
  simp only [State.peerReq, if_true, hx]
  exact h
end

theorem peerRead_answers {size : Nat} (hs : s.Serves n p) (hk : s.chunkAt p a.toNat size = .ok k)
    (hks : ∀ j < size, isChunk (k + j) = true ∧ s.badIn (k + j) 1 = false) :
    ∃ t, exec (.fabricPeerRequest n (.read p true a size)) s = .next t ∧
      t = { s with sent := s.sent ++ [.peerReply n ((List.range size).map fun j => Mem.read s.mem (k + j))] } := by
  have hnone : (((List.range size).map (k + ·)).find? fun x => if isChunk x then s.badIn x 1 else !s.sound x) = none :=
    List.find?_eq_none.2 fun x hx => by
      obtain ⟨j, hj, rfl⟩ := List.mem_map.1 hx
      obtain ⟨hchunk, hbad⟩ := hks j (List.mem_range.1 hj)
      simp [hchunk, hbad]
  refine ⟨_, peerRequest_served hs, ?_⟩
  simp only [State.peerReq, State.atPeer_chunk hk, hnone, State.send, List.map_map, Function.comp_def]
end

/-- Settles O52: each access, port step and request by what it finds of its partition, its port and its bytes. -/
theorem linksAndPorts : Obligations.LinksAndPorts := by
  unfold Obligations.LinksAndPorts
  intro s p n off size k w chb d a ks data x m wf r v via g z q on port refused answers key sent becomes peer serves buffer
  have hon : on → s.vfOn p = true := (s.vfOn_iff p).2
  have hoff : ¬on → s.vfOn p = false := fun h => Bool.eq_false_of_not_eq_true fun hv => h ((s.vfOn_iff p).1 hv)
  refine ⟨fun h => hostDoorbell_on (hon h), fun h => ⟨hostDoorbell_off (hoff h), hostBar0_off (hoff h) .., hostBar2_off (hoff h) ..⟩,
    fun h hz hs hal hsh => ⟨fun hwf => ?_, hostBar0_reads (hon h) hz hs hal hsh d⟩, fun h hz hs => hostBar0_badSize (hon h) hz hs w d,
    fun h hs => hostBar0_doorbell (hon h) hs d, fun h ha hk hks => hostBar2_reads (hon h) ha hk hks data,
    fun h ha hwf hdev hk hl => ?_, fun h ha hk => hostBar2_untranslated (hon h) ha hk data, fun h ha => hostBar2_beyond ha w data,
    drainFlitSend_sends, drainFlitSend_idle, peerDrainRequest_confirms, drainConfirm_drains, drainConfirm_idle,
    State.portRequest_late v via, State.portRequest_holds v via, State.portRequest_answers v via, ?_, fabricPortUp_idle,
    fabricPortUp_trains, fabricPortDown_exec, peerPortReopen_trains, fun hs hk hwf _ hc => ?_,
    fun hs hk hwf hb hc => ⟨peerAdd64_adds hk hwf hb hc hs x, peerReduce_adds hk hwf hb hc hs x⟩, fun hs => peerRead_answers hs,
    fun h2 hp => ⟨_, peerRequest_refused h2 hp, rfl⟩, peerRequest_closed⟩
  · obtain ⟨t, ht, hside, hbytes, hout⟩ := hostBar0_writes (hon h) hz hs hal hsh hwf d
    have hkey : ∀ j, key j = shKey ((s.part p).mailbox + off) + j := mailbox_key hsh
    refine ⟨t, ht, hside, fun j hj => ?_, fun j hj => hout j ?_⟩
    · rw [hkey]
      exact hbytes j hj
    · rwa [hkey, hkey, Nat.add_zero] at hj
  · obtain ⟨t, ht, hside, hbytes, hout⟩ := hostBar2_writes (hon h) ha hwf hdev hk hl
    exact ⟨t, ht, hside, hbytes, hout⟩
  · obtain ⟨t, ht, hmem, hcores, hturn⟩ := fabricTimeout_retries s n g z r
    exact ⟨t, ht, hmem, hcores, fun hz hn hr =>
      ⟨hturn hz hn hr .K, hturn hz hn hr .L, hturn hz hn hr .S, hturn hz hn hr .C⟩⟩
  · obtain ⟨t, ht, -, hbytes, hout⟩ := peerWrite_writes hs hk hwf hc
    exact ⟨t, ht, hbytes, hout⟩
end Sys2Proof.Machine
end
section
/-! ## Numbers of a transfer (O48): signed fields, agreed exponents, bytes of a line -/
namespace Sys2Proof.Machine

/-! ### Signed numbers -/

theorem sextN_of_lt {n v : Nat} (hn : 0 < n) (hv : v < 2 ^ n) : sextN n v = if v < 2 ^ (n - 1) then (v : Int) else v - 2 ^ n := by
  obtain ⟨m, rfl⟩ : ∃ m, n = m + 1 := ⟨n - 1, by omega⟩
  have htop : v / 2 ^ m < 2 := Nat.div_lt_of_lt_mul (by rwa [pow_succ] at hv)
  simp only [sextN, fld, pow_zero, Nat.div_one, Nat.mod_eq_of_lt hv, Nat.add_sub_cancel, pow_one, Nat.mod_eq_of_lt htop]
  by_cases h : v < 2 ^ m
  · rw [Nat.div_eq_of_lt h, if_neg (by omega), if_pos h]
  · rw [if_pos (by have := Nat.div_pos (Nat.le_of_not_lt h) (by positivity); omega), if_neg h]
theorem sextN_toInt {n v : Nat} (hn : 0 < n) (hv : v < 2 ^ n) : sextN n v = (BitVec.ofNat n v).toInt := by
  obtain ⟨m, rfl⟩ : ∃ m, n = m + 1 := ⟨n - 1, by omega⟩
  have hiff : v < 2 ^ (m + 1 - 1) ↔ 2 * v < 2 ^ (m + 1) := by
    rw [Nat.add_sub_cancel, pow_succ]
    omega
  rw [sextN_of_lt hn hv, BitVec.toInt_eq_toNat_cond, BitVec.toNat_ofNat, Nat.mod_eq_of_lt hv]
  simp only [hiff]
  norm_cast

/-! ### Exponent tables (R125-R127) -/

/-- The merge of two entries keeps the greater exponent and the classes of both. -/
theorem mergeEntry_fields (x y : Nat) : mergeEntry x y < 2 ^ 16 ∧ fld (mergeEntry x y) 0 9 = max (fld x 0 9) (fld y 0 9) ∧
    fld (mergeEntry x y) 13 3 = fld x 13 3 ||| fld y 13 3 ∧ fld (mergeEntry x y) 9 4 = 0 := by
  have hexp : max (fld x 0 9) (fld y 0 9) < 2 ^ 9 := max_lt (fld_lt ..) (fld_lt ..)
  have hcls : fld x 13 3 ||| fld y 13 3 < 2 ^ 3 := Nat.or_lt_two_pow (fld_lt ..) (fld_lt ..)
  unfold mergeEntry
  generalize max (fld x 0 9) (fld y 0 9) = a at *
  generalize fld x 13 3 ||| fld y 13 3 = b at *
  unfold fld
  omega

theorem alignedInt_zero {v : Nat} (h : fld v 0 9 = 0) (x : Num) : alignedInt v x = some 0 := by
  cases x with
  | nan g => rfl
  | inf g => rfl
  | fin g m e => exact if_pos (.inr h)
section
variable {v m : Nat} (g : Bool) {e : Int} (hm : m ≠ 0) (hv : fld v 0 9 ≠ 0)
include hm hv

theorem alignedInt_beyond (h : (fld v 0 9 : Int) - 150 < e + Nat.log2 m) : alignedInt v (.fin g m e) = none := by
  simp only [alignedInt, hm, hv, or_self, if_false, expOf]
  exact if_pos h
/-- A value whose last place is not below the unit of the table is aligned without rounding. -/
theorem alignedInt_exact (h : e + Nat.log2 m ≤ (fld v 0 9 : Int) - 150) (h0 : 0 ≤ e + 188 - fld v 0 9) :
    alignedInt v (.fin g m e) = some ((if g then (-1 : Int) else 1) * (m * 2 ^ (e + 188 - fld v 0 9).toNat)) := by
  simp only [alignedInt, hm, hv, or_self, if_false, expOf, if_neg (Int.not_lt.2 h), roundAt, if_pos h0, sub_zero]
  push_cast
  cases g <;> simp
end

/-- Rounding to nearest overflows to an infinity. -/
theorem rneF32_overflow (neg : Bool) (m : Nat) (e : Int) :
    fld (rneF32.round neg m e false).flags 2 1 = 0 ∨ (rneF32.round neg m e false).bits = infBits neg := by
  have hflags : ∀ b c : Bool, fld ((if b then fNX else 0) + (if c then fUF else 0)) 2 1 = 0 := by decide
  unfold Mode.round
  extract_lets fr top q0 r up n q sgn nx toInf tiny tiny'
  split
  · exact .inr rfl
  · left
    split
    · rw [if_neg (by simp [rneF32])]
      exact hflags r.2 (r.2 && tiny)
    · exact hflags r.2 (r.2 && tiny')
theorem rneF32_bits_lt (neg : Bool) {m : Nat} (e : Int) (hm : m ≠ 0) : (rneF32.round neg m e false).bits < 2 ^ 32 := by
  obtain hof | hinf := rneF32_overflow neg m e
  · obtain ⟨-, -, -, -, hlt, -⟩ := Mode.round_rounded (md := rneF32) rfl (by decide) neg e (d := 0) hm le_rfl one_pos (.inl rfl)
      (by simpa using hof)
    simpa using hlt
  · rw [hinf]
    cases neg <;> decide
/-- The value of a sum by the classes of its entry. -/
theorem agreedValue_eq (v : Nat) (x : Int) : agreedValue false v x = if fld v 15 1 = 1 ∨ fld v 13 2 = 3 then 0x7FC00000
    else if fld v 14 1 = 1 then 0x7F800000 else if fld v 13 1 = 1 then 0xFF800000 else if x = 0 then 0
    else (rneF32.round (decide (x < 0)) x.natAbs ((fld v 0 9 : Int) - 188) false).bits := by
  have hboth : fld v 13 2 = 3 ↔ fld v 14 1 = 1 ∧ fld v 13 1 = 1 := by
    unfold fld
    omega
  simp only [agreedValue, hboth, Bool.or_eq_true, Bool.and_eq_true, beq_iff_eq, Bool.false_eq_true, if_false]
  rfl
theorem agreedValue_lt (v : Nat) (x : Int) : agreedValue false v x < 2 ^ 32 := by
  rw [agreedValue_eq]
  split
  · decide
  split
  · decide
  split
  · decide
  split
  · decide
  · next h => exact rneF32_bits_lt _ _ (Int.natAbs_ne_zero.2 h)

/-! ### Bytes of a line -/

theorem length_toBytes (n v : Nat) : (toBytes n v).length = n := by
  induction n generalizing v with
  | zero => rfl
  | succ n ih => rw [toBytes, List.length_cons, ih]
theorem getD_toBytes {n i : Nat} (v : Nat) (hi : i < n) : (toBytes n v).getD i 0 = BitVec.ofNat 8 (v / 2 ^ (8 * i)) := by
  induction n generalizing v i with
  | zero => omega
  | succ n ih =>
    cases i with
    | zero => rw [toBytes, List.getD_cons_zero, Nat.mul_zero, pow_zero, Nat.div_one]
    | succ i => rw [toBytes, List.getD_cons_succ, ih _ (by omega), Nat.div_div_eq_div_mul,
        show 256 * 2 ^ (8 * i) = 2 ^ (8 * (i + 1)) by rw [show 8 * (i + 1) = 8 + 8 * i by omega, pow_add]; rfl]
/-- Byte i of part j of a list made of n parts of c bytes. -/
theorem getD_parts {f : Nat → List Byte} {c : Nat} (hf : ∀ j, (f j).length = c) {n j i : Nat} (hj : j < n) (hi : i < c) :
    ((List.range n).flatMap f).getD (c * j + i) 0 = (f j).getD i 0 := by
  have hlen : ∀ n, ((List.range n).flatMap f).length = c * n := fun n => by
    simp [List.length_flatMap, hf, Nat.mul_comm]
  induction n with
  | zero => omega
  | succ n ih =>
    rw [List.range_succ, List.flatMap_append, List.flatMap_singleton]
    obtain h | rfl := Nat.lt_or_eq_of_le (Nat.le_of_lt_succ hj)
    · rw [List.getD_append _ _ _ _ (by rw [hlen]; nlinarith), ih h]
    · rw [List.getD_append_right _ _ _ _ (by rw [hlen]; omega), hlen, Nat.add_sub_cancel_left]
/-- Bytes that are those of a number read as it. -/
theorem Mem.readN_of_bytes {m : List Host.Cell} {k n v : Nat} (hv : v < 2 ^ (8 * n))
    (h : ∀ i < n, Mem.read m (k + i) = BitVec.ofNat 8 (v / 2 ^ (8 * i))) : Mem.readN m k n = v := by
  have hwf : Memory.wf [] = true := rfl
  rw [Mem.readN_congr k n fun i hi => (h i hi).trans (Mem.read_writeN k n v i hwf hi).symm, Mem.readN_writeN k n v hwf]
  exact Nat.mod_eq_of_lt (by rwa [pow_mul] at hv)
theorem Mem.length_bytes (m : List Host.Cell) (k n : Nat) : (Mem.bytes m k n).length = n := by
  induction n generalizing k with
  | zero => rfl
  | succ n ih => rw [Mem.bytes, List.length_cons, ih]
theorem Mem.getD_bytes (m : List Host.Cell) (k : Nat) {n i : Nat} (hi : i < n) : (Mem.bytes m k n).getD i 0 = Mem.read m (k + i) := by
  induction n generalizing k i with
  | zero => omega
  | succ n ih =>
    cases i with
    | zero => rfl
    | succ i => rw [Mem.bytes, List.getD_cons_succ, ih _ (by omega), show k + 1 + i = k + (i + 1) by omega]
end Sys2Proof.Machine
end
section
/-! ## Transfers of queue pairs (O48) -/
namespace Sys2Proof.Machine

/-! ### States that differ in what a read leaves -/

/-- t has the bytes, the side bands, the pending errors and the links of s. -/
structure State.SameStore (s t : State) : Prop where
  mem : t.mem = s.mem
  side : t.side = s.side
  bad : t.bad = s.bad
  links : t.links = s.links

section
variable {s t u : State} (h : s.SameStore t)

theorem State.SameStore.refl (s : State) : s.SameStore s := ⟨rfl, rfl, rfl, rfl⟩
include h

theorem State.SameStore.trans (h' : t.SameStore u) : s.SameStore u :=
  ⟨h'.mem.trans h.mem, h'.side.trans h.side, h'.bad.trans h.bad, h'.links.trans h.links⟩
theorem State.SameStore.linkFailed (k : Nat) : t.linkFailed (t.linkOf k) = s.linkFailed (s.linkOf k) := by
  have hlink : t.link = s.link := funext fun n => by rw [State.link, State.link, h.links]
  unfold State.linkFailed State.linkOf State.linkMode
  rw [hlink]
theorem State.SameStore.reaches {k : Nat} (hk : s.Reaches k) : t.Reaches k := by
  obtain ⟨hext, hlink⟩ := hk
  exact ⟨hext, fun hdev => (h.linkFailed k).trans (hlink hdev)⟩
theorem State.SameStore.badIn (k n : Nat) : t.badIn k n = s.badIn k n := by
  rw [State.badIn, State.badIn, h.linkFailed, h.bad]
end

theorem State.sameStore_wakeKey (s : State) (k : Nat) : s.SameStore (s.wakeKey k) := by
  obtain ⟨i, hi⟩ := s.wakeKey_eq k
  rw [hi]
  exact ⟨rfl, rfl, rfl, rfl⟩
theorem State.sameStore_load (s : State) (k n : Nat) : s.SameStore (s.load k n).2 := by
  unfold State.load
  split
  · exact (s.sameStore_wakeKey k).trans ⟨rfl, rfl, rfl, rfl⟩
  · exact s.sameStore_wakeKey k
theorem State.load_reaches {s : State} {k : Nat} (hk : s.Reaches k) (n : Nat) : (s.load k n).1 = Mem.readN s.mem k n := by
  rw [State.load_of_not_ext n hk.1]
theorem State.sameStore_fpElem {s t : State} {r : Running} {i : Nat} {x : Num} (h : s.fpElem r i = .ok (x, t)) : s.SameStore t := by
  unfold State.fpElem at h
  extract_lets z at h
  split at h
  · cases h
  · next k _ =>
    split at h
    · cases h
    · rw [← (Prod.mk.inj (Except.ok.inj h)).2]
      exact s.sameStore_load k z
theorem State.sameStore_fpElems {s t : State} {r : Running} {i n : Nat} {xs : List Num} (h : s.fpElems r i n = .ok (xs, t)) :
    s.SameStore t := by
  induction n generalizing s t i xs with
  | zero =>
    rw [← (Prod.mk.inj (Except.ok.inj h)).2]
    exact .refl s
  | succ n ih =>
    rw [State.fpElems] at h
    split at h
    · cases h
    · next x hx =>
      split at h
      · cases h
      · next y hy =>
        rw [← (Prod.mk.inj (Except.ok.inj h)).2]
        exact (State.sameStore_fpElem hx).trans (ih hy)

/-! ### What a fired entry has done -/

theorem eachTo_one {f : Nat → State → Ran} {s t : State} (h : f 0 s = { s := t }) : eachTo 1 f s = { s := t } := by
  change (f 0 s).andThen _ = _
  rw [h]
  rfl

/-- The entry n of queue pair qp as it runs in s. -/
def State.entryAt (s : State) (qp p : Nat) (w : Work) : Running := { n := qp, q := s.qp qp, part := p, w := w }

/-- The state in which it does so: a port that has held its request answers it. -/
def State.asking (s : State) (w : Work) : State := { s with asked := w.held }
theorem State.sameStore_asking (s : State) (w : Work) : s.SameStore (s.asking w) := ⟨rfl, rfl, rfl, rfl⟩

/-- The step i performs an entry's writes, to the len bytes at d; P holds of the state it leaves. -/
def State.Transfers (s : State) (qp n d : Nat) (i : Instr) (len : Nat) (P : State → Prop) : Prop := ∃ t, exec i s = .next t ∧ P t ∧
  (∀ y ∈ (t.qp qp).works, y.idx = n → y.done = true) ∧ ∀ j, j < d ∨ d + len ≤ j → Mem.read t.mem j = Mem.read s.mem j

section
variable {s t : State} {qp n p rel d len : Nat} {w : Work} {i : Instr} {ok : Work → Bool} {f : Running → State → Ran}
  {P : State → Prop} (hp : s.qpPart qp = some (p, rel)) (hw : (s.qp qp).running n = some w)
  (hexec : exec i s = runEntry ok f qp n s) (hok : ok w = true)
  (hf : f (s.entryAt qp p w) (s.asking w) = { s := t })
include hp hw hexec hok hf

/-- An entry that runs without a fault is done. -/
theorem runEntry_transfers (hout : ∀ j, j < d ∨ d + len ≤ j → Mem.read t.mem j = Mem.read s.mem j)
    (hP : ∀ u : State, u.mem = t.mem → (∀ k, u.sideOf k = t.sideOf k) → P u) : s.Transfers qp n d i len P := by
  refine ⟨t.setQp qp ((t.qp qp).update n fun w => some { w with done := true, held := none }), ?_, hP _ rfl fun k => rfl, ?_, hout⟩
  · rw [State.entryAt, State.asking] at hf
    rw [hexec]
    simp only [runEntry, hp, hw, hok, if_true, hf]
  · intro y hy hi
    rw [State.qp_setQp, if_pos rfl] at hy
    obtain ⟨h, -⟩ | ⟨x, -, -, hx⟩ := Qp.mem_works_update hy
    · exact absurd hi h
    · rw [← Option.some.inj hx]
/-- An entry that writes a line. -/
theorem runEntry_line {s' : State} {bs : List Byte} {sb : W32} (hlen : bs.length = len) (hwf : Memory.wf s.mem = true) (hs : s.SameStore s')
    (hd : s.Reaches d) (ht : t = s'.setAnyLine d bs sb)
    (hP : ∀ u : State, (∀ j < len, Mem.read u.mem (d + j) = bs.getD j 0) → (isChunk d = false → u.sideOf d = sb) → P u) :
    s.Transfers qp n d i len P := by
  have hmem : t.mem = Mem.writeBytes s.mem d bs := by rw [ht, State.mem_setAnyLine (hs.reaches hd), hs.mem]
  refine runEntry_transfers hp hw hexec hok hf (fun j hj => ?_) fun u hu hside => hP u (fun j hj => ?_) fun hc => ?_
  · rw [hmem]
    exact Mem.read_writeBytes_out d bs j hwf (by rwa [hlen])
  · rw [hu, hmem]
    exact Mem.read_writeBytes d bs j hwf (by rwa [hlen])
  · rw [hside, ht]
    exact State.sideOf_setAnyLine (hs.reaches hd) bs sb hc
/-- An entry that stores a number. -/
theorem runEntry_number {s' : State} {v : Nat} (hwf : Memory.wf s.mem = true) (hs : s.SameStore s') (hd : s.Reaches d)
    (ht : t = s'.store d len v) (hP : ∀ u : State, Mem.readN u.mem d len = v % 2 ^ (8 * len) → P u) : s.Transfers qp n d i len P := by
  have hmem : t.mem = Mem.writeN s.mem d len v := by
    obtain ⟨j, g, h⟩ := State.store_reaches (hs.reaches hd) len v
    rw [ht, h, hs.mem]
  refine runEntry_transfers hp hw hexec hok hf (fun j hj => ?_) fun u hu _ => hP u ?_
  · rw [hmem]
    exact Mem.read_writeN_out d len v j hwf hj
  · rw [hu, hmem, Mem.readN_writeN d len v hwf, pow_mul]
    rfl
end

/-! ### Lines -/

section
variable {s : State} {r : Running} {k d : Nat}

theorem putLine_here (hsrc : s.fromField r fSrc 0 256 = .ok k) (hdst : s.toField r 0 256 = .ok (.here d)) (hk : isExt k = false)
    (hb : s.isBad k = false) (hside : isChunk k = false → sideErr (s.sideOf k) (w64 (r.w.addr fSrc)) = none) :
    putLine r 0 s = { s := (s.wakeKey k).setAnyLine d (Mem.bytes s.mem k 256) (if isChunk k then 0 else s.sideOf k) } := by
  have hband : s.bandOf k = if isChunk k then 0 else s.sideOf k := by simp only [State.bandOf, hk, Bool.false_eq_true, if_false]
  have herr : sideErr (if isChunk k then 0 else s.sideOf k) (w64 (r.w.addr fSrc)) = none := by
    split
    · rfl
    · next h => exact hside (Bool.eq_false_of_not_eq_true h)
  simp only [putLine, Nat.mul_zero, Nat.add_zero, hsrc, hdst, Ran.with, hb, Bool.false_eq_true, if_false, herr, State.line, hk, hband]
theorem zeroLine_here (hdst : s.toField r 0 256 = .ok (.here d)) :
    zeroLine r 0 s = { s := s.setAnyLine d (List.replicate 256 0) 0 } := by
  simp only [zeroLine, Nat.mul_zero, hdst, Ran.with]

/-! ### Elements and entries of tables -/

theorem redInt_here {z : Nat} (hz : dtypeSize r.w.dtype = z) (hsrc : s.fromField r fSrc 0 z = .ok k)
    (hc : s.reduceErr k z (r.w.addr fSrc) none = none) (hdst : (s.load k z).2.toField r 0 z = .ok (.here d)) (hd : isExt d = false)
    (hc' : (s.load k z).2.reduceErr d z (r.w.addr fDst) none = none) : redInt r 0 s =
      { s := (s.load k z).2.store d z (intReduce r.w.opm z (Mem.readN (s.load k z).2.mem d z) (s.load k z).1) } := by
  simp only [redInt, hz, Nat.mul_zero, Nat.add_zero, hsrc, hdst, Ran.with, hc, hc', hd, Bool.false_eq_true, if_false]
theorem State.tableAt_here {lo : Nat} (hlo : lo ≠ fAux ∨ r.w.chb lo = false ∨ r.q.peer = 0) (hk : s.fromField r lo 0 2 = .ok k)
    (hc : s.reduceErr k 2 (r.w.addr lo) none = none) : s.tableAt r lo 0 = .ok (s.load k 2) := by
  have hpeer (h : lo = fAux) (h' : r.w.chb lo = true) : r.q.peer = 0 := by
    obtain hn | hn | hn := hlo
    · exact absurd h hn
    · rw [h'] at hn
      cases hn
    · exact hn
  have hhost : ¬ (lo = fAux ∧ r.w.chb lo = true ∧ r.q.peer = 2) := fun ⟨h, h', h''⟩ => by
    rw [hpeer h h'] at h''
    cases h''
  have hport : ¬ (lo = fAux ∧ r.w.chb lo = true ∧ r.q.peer ≠ 0) := fun ⟨h, h', h''⟩ => h'' (hpeer h h')
  simp only [State.tableAt, if_neg hhost, if_neg hport, Nat.mul_zero, Nat.add_zero, hk, hc]
theorem mergeInto_here (v : Nat) (hdst : s.toField r 0 2 = .ok (.here d)) (hc : s.reduceErr d 2 (r.w.addr fDst) none = none)
    (hd : isExt d = false) (hok : fld (Mem.readN s.mem d 2) 9 4 = 0) :
    mergeInto r 0 v s = { s := s.store d 2 (mergeEntry (Mem.readN s.mem d 2) v) } := by
  simp [mergeInto, hdst, Ran.with, hc, hd, tableOk, hok]
theorem maxexpEntry_here {v : Nat} (hsrc : s.fromField r fSrc 0 2 = .ok k) (hc : s.reduceErr k 2 (r.w.addr fSrc) none = none)
    (hx : (s.load k 2).1 = v) (hv : fld v 9 4 = 0) : maxexpEntry r 0 s = mergeInto r 0 v (s.load k 2).2 := by
  have htable := State.tableAt_here (lo := fSrc) (.inl (by decide)) hsrc hc
  have hok : tableOk v = true := by rw [tableOk, hv]; rfl
  simp only [maxexpEntry, htable, Ran.with, hx, hok, Bool.not_true, Bool.false_eq_true, if_false]
theorem stageAdd_here (z : Int) (hdst : s.toField r 0 8 = .ok (.here d)) (hb : s.badIn d 8 = false) :
    stageAdd r 0 z s = { s := s.store d 8 (((Mem.readN s.mem d 8 : Int) + z) % 2 ^ 64).toNat } := by
  simp only [stageAdd, hdst, Ran.with, State.sourceErr, hb, Bool.false_eq_true, if_false]
theorem redBlock_here {u : State} {v : Nat} {x : Num} {z : Int} (ht : s.tableAt r fAux 0 = .ok (v, t)) (hv : fld v 9 4 = 0)
    (hlen : r.w.len = 1) (hx : t.fpElems r 0 1 = .ok ([x], u)) (hz : alignedInt v x = some z) {t' : State}
    (hadd : stageAdd r 0 z u = { s := t' }) :
    redBlock r 0 s = { s := t' } := by
  simp [redBlock, ht, Ran.with, tableOk, hv, hlen, hx, redElems, hz, hadd, Ran.andThen]

/-- Word j of a converted line: the value of sum j, and +0 past the end of the entry. -/
def convertWord (m : List Host.Cell) (k len v j : Nat) : Nat :=
  if j < len then agreedValue false v (sextN 64 (Mem.readN m (k + 8 * j) 8)) else 0
/-- A converted line of binary32 elements. -/
def convertBytes (m : List Host.Cell) (k len v : Nat) : List Byte := (List.range 64).flatMap fun j => toBytes 4 (convertWord m k len v j)

theorem convertWord_lt (m : List Host.Cell) (k len v j : Nat) : convertWord m k len v j < 2 ^ 32 := by
  unfold convertWord
  split
  · exact agreedValue_lt ..
  · decide
theorem convertWord_eq (m : List Host.Cell) (k len v j : Nat) : convertWord m k len v j =
    if len ≤ j then 0 else agreedValue false v (BitVec.ofNat 64 (Mem.readN m (k + 8 * j) 8)).toInt := by
  rw [convertWord, sextN_toInt (by decide) (Mem.readN_lt m (k + 8 * j) 8)]
  by_cases h : len ≤ j
  · rw [if_neg (Nat.not_lt.2 h), if_pos h]
  · rw [if_pos (Nat.lt_of_not_le h), if_neg h]
theorem length_convertBytes (m : List Host.Cell) (k len v : Nat) : (convertBytes m k len v).length = 256 := by
  simp [convertBytes, List.length_flatMap, length_toBytes]
theorem getD_convertBytes (m : List Host.Cell) (k len v : Nat) {j i : Nat} (hj : j < 64) (hi : i < 4) :
    (convertBytes m k len v).getD (4 * j + i) 0 = BitVec.ofNat 8 (convertWord m k len v j / 2 ^ (8 * i)) :=
  (getD_parts (fun _ => length_toBytes 4 _) hj hi).trans (getD_toBytes _ hi)
theorem convertLine_here {v : Nat} (hdt : r.w.dtype = 0) (hlen : r.w.len ≤ 64) (ht : s.tableAt r fAux 0 = .ok (v, t)) (hv : fld v 9 4 = 0)
    (hk : t.fromField r fSrc 0 (8 * r.w.len) = .ok k) (hb : t.badIn k (8 * r.w.len) = false) (hdst : t.toField r 0 256 = .ok (.here d)) :
    convertLine r 0 s = { s := t.setLine d (convertBytes t.mem k r.w.len v) 0x11 } := by
  have hbf : (r.w.dtype == 1) = false := by rw [hdt]; rfl
  have hok : tableOk v = true := by rw [tableOk, hv]; rfl
  simp only [convertLine, hbf, Bool.false_eq_true, if_false, Nat.mul_zero, Nat.zero_div, Nat.sub_zero, Nat.min_eq_right hlen, ht,
    Ran.with, hok, Bool.not_true, hk, State.sourceErr, hb, hdst]
  rfl
end

/-! ### Entries of one line or one element -/

theorem State.Transfers.imp {s : State} {qp n d len : Nat} {i : Instr} {P Q : State → Prop} (h : s.Transfers qp n d i len P)
    (hPQ : ∀ t, P t → Q t) : s.Transfers qp n d i len Q := by
  obtain ⟨t, ht, hP, hdone, hout⟩ := h
  exact ⟨t, ht, hPQ t hP, hdone, hout⟩

/-- A reduction of two numbers of n bytes has n bytes. -/
theorem intReduce_lt {n a b : Nat} (opm : Nat) (ha : a < 2 ^ (8 * n)) (hb : b < 2 ^ (8 * n)) : intReduce opm n a b < 2 ^ (8 * n) := by
  unfold intReduce
  split
  · exact Nat.mod_lt _ (Nat.two_pow_pos _)
  · split
    · exact hb
    · exact ha
  · split
    · exact hb
    · exact ha
/-- The entry of an agreed table in this device. -/
theorem State.tableAt_aux {s : State} {qp p ka : Nat} {w : Work} (hpeer : (s.qp qp).peer = 0 ∨ w.chb fAux = false)
    (hk : (s.asking w).fromField (s.entryAt qp p w) fAux 0 2 = .ok ka) (hc : (s.asking w).reduceErr ka 2 (w.addr fAux) none = none)
    (hka : s.Reaches ka) : s.SameStore ((s.asking w).load ka 2).2 ∧
      (s.asking w).tableAt (s.entryAt qp p w) fAux 0 = .ok (Mem.readN s.mem ka 2, ((s.asking w).load ka 2).2) := by
  refine ⟨(s.sameStore_asking w).trans (State.sameStore_load _ ka 2), ?_⟩
  have hx : ((s.asking w).load ka 2).1 = Mem.readN s.mem ka 2 := State.load_reaches ((s.sameStore_asking w).reaches hka) 2
  rw [State.tableAt_here (r := s.entryAt qp p w) (.inr hpeer.symm) hk hc, ← hx]

section
variable {s : State} {qp n p rel k d : Nat} {w : Work} {i : Instr} {ok : Work → Bool} {f : Running → State → Ran}
  (hp : s.qpPart qp = some (p, rel)) (hw : (s.qp qp).running n = some w)
  (hexec : exec i s = runEntry ok f qp n s) (hok : ok w = true) (hwf : Memory.wf s.mem = true) (hd : s.Reaches d)
include hp hw hexec hok hwf hd

theorem copy_transfers (hf : f (s.entryAt qp p w) (s.asking w) = eachTo (w.len / 256) (putLine (s.entryAt qp p w)) (s.asking w))
    (hlen : w.len = 256)
    (hsrc : (s.asking w).fromField (s.entryAt qp p w) fSrc 0 256 = .ok k)
    (hdst : (s.asking w).toField (s.entryAt qp p w) 0 256 = .ok (.here d)) (hk : s.Reaches k) (hb : s.isBad k = false)
    (hside : isChunk k = false → sideErr (s.sideOf k) (w64 (w.addr fSrc)) = none) :
    s.Transfers qp n d i 256 fun t => (∀ j < 256, Mem.read t.mem (d + j) = Mem.read s.mem (k + j)) ∧
      (isChunk d = false → t.sideOf d = if isChunk k then 0 else s.sideOf k) := by
  rw [hlen] at hf
  refine runEntry_line hp hw hexec hok (hf.trans (eachTo_one (putLine_here hsrc hdst hk.1 hb hside))) (Mem.length_bytes ..) hwf
    ((s.sameStore_asking w).trans (State.sameStore_wakeKey _ k)) hd rfl fun u hu hside' => ⟨fun j hj => ?_, hside'⟩
  rw [hu j hj]
  exact Mem.getD_bytes s.mem k hj
theorem zero_transfers (hf : f (s.entryAt qp p w) (s.asking w) = eachTo (w.len / 256) (zeroLine (s.entryAt qp p w)) (s.asking w))
    (hlen : w.len = 256)
    (hdst : (s.asking w).toField (s.entryAt qp p w) 0 256 = .ok (.here d)) :
    s.Transfers qp n d i 256 fun t => (∀ j < 256, Mem.read t.mem (d + j) = 0) ∧ (isChunk d = false → t.sideOf d = 0) := by
  rw [hlen] at hf
  refine runEntry_line hp hw hexec hok (hf.trans (eachTo_one (zeroLine_here hdst))) List.length_replicate hwf (s.sameStore_asking w) hd rfl
    fun u hu hside' => ⟨fun j hj => ?_, hside'⟩
  exact (hu j hj).trans (List.getD_replicate 0 hj)

section
variable (hk : s.Reaches k)
include hk

/-- A reduction of two integers of z bytes. -/
theorem int_transfers {z : Nat} {g : Nat → Nat → Nat} (hz : dtypeSize w.dtype = z) (hlen : w.len = 1)
    (hf : f (s.entryAt qp p w) (s.asking w) = eachTo w.len (redInt (s.entryAt qp p w)) (s.asking w))
    (hg : ∀ a b, a < 2 ^ (8 * z) → b < 2 ^ (8 * z) → intReduce w.opm z a b = g a b)
    (hsrc : (s.asking w).fromField (s.entryAt qp p w) fSrc 0 z = .ok k)
    (hc : (s.asking w).reduceErr k z (w.addr fSrc) none = none)
    (hdst : ((s.asking w).load k z).2.toField (s.entryAt qp p w) 0 z = .ok (.here d))
    (hc' : ((s.asking w).load k z).2.reduceErr d z (w.addr fDst) none = none) :
    s.Transfers qp n d i z fun t => Mem.readN t.mem d z = g (Mem.readN s.mem d z) (Mem.readN s.mem k z) := by
  have hsame := (s.sameStore_asking w).trans (State.sameStore_load _ k z)
  have hx : ((s.asking w).load k z).1 = Mem.readN s.mem k z := State.load_reaches ((s.sameStore_asking w).reaches hk) z
  have ha := Mem.readN_lt s.mem d z
  have hb := Mem.readN_lt s.mem k z
  rw [hlen] at hf
  refine runEntry_number hp hw hexec hok (hf.trans (eachTo_one (redInt_here hz hsrc hc hdst hd.1 hc'))) hwf hsame hd rfl fun u hu => ?_
  rw [hu, hx, hsame.mem, ← hg _ _ ha hb]
  exact Nat.mod_eq_of_lt (intReduce_lt _ ha hb)
theorem maxexp_transfers (hlen : w.len = 1)
    (hf : f (s.entryAt qp p w) (s.asking w) = eachTo w.len (maxexpEntry (s.entryAt qp p w)) (s.asking w))
    (hsrc : (s.asking w).fromField (s.entryAt qp p w) fSrc 0 2 = .ok k)
    (hc : (s.asking w).reduceErr k 2 (w.addr fSrc) none = none)
    (hdst : ((s.asking w).load k 2).2.toField (s.entryAt qp p w) 0 2 = .ok (.here d))
    (hc' : ((s.asking w).load k 2).2.reduceErr d 2 (w.addr fDst) none = none)
    (he : fld (Mem.readN s.mem d 2) 9 4 = 0) (hv : fld (Mem.readN s.mem k 2) 9 4 = 0) :
    s.Transfers qp n d i 2 fun t => Mem.readN t.mem d 2 = mergeEntry (Mem.readN s.mem d 2) (Mem.readN s.mem k 2) := by
  have hsame : s.SameStore ((s.asking w).load k 2).2 :=
    (s.sameStore_asking w).trans (State.sameStore_load _ k 2)
  have hx : ((s.asking w).load k 2).1 = Mem.readN s.mem k 2 := State.load_reaches ((s.sameStore_asking w).reaches hk) 2
  rw [hlen] at hf
  have hentry := (maxexpEntry_here (r := s.entryAt qp p w) hsrc hc hx hv).trans
    (mergeInto_here _ hdst hc' hd.1 (by rw [hsame.mem]; exact he))
  refine runEntry_number hp hw hexec hok (hf.trans (eachTo_one hentry)) hwf hsame hd rfl fun u hu => ?_
  rw [hu, hsame.mem]
  exact Nat.mod_eq_of_lt (mergeEntry_fields ..).1
end

section
variable {ka v : Nat} {t : State} (hsame : s.SameStore t)
  (htable : (s.asking w).tableAt (s.entryAt qp p w) fAux 0 = .ok (v, t)) (hv : fld v 9 4 = 0)
include hsame htable hv

theorem fp_transfers {u : State} {x : Num} {z : Int} (hlen : w.len = 1)
    (hf : f (s.entryAt qp p w) (s.asking w) = eachTo (blocksOf w.len) (redBlock (s.entryAt qp p w)) (s.asking w))
    (hx : t.fpElems (s.entryAt qp p w) 0 1 = .ok ([x], u)) (hz : alignedInt v x = some z)
    (hdst : u.toField (s.entryAt qp p w) 0 8 = .ok (.here d)) (hb : s.badIn d 8 = false) :
    s.Transfers qp n d i 8 fun t => (Mem.readN t.mem d 8 : Int) = (Mem.readN s.mem d 8 + z) % 2 ^ 64 := by
  have hsame' := hsame.trans (State.sameStore_fpElems hx)
  rw [hlen] at hf
  have hadd := stageAdd_here z hdst ((hsame'.badIn d 8).trans hb)
  refine runEntry_number hp hw hexec hok (hf.trans (eachTo_one (redBlock_here htable hv hlen hx hz hadd))) hwf hsame' hd rfl fun u' hu => ?_
  rw [hu, hsame'.mem]
  omega
theorem convert_transfers (hdt : w.dtype = 0) (hpos : 1 ≤ w.len) (hlen : w.len ≤ 64)
    (hf : f (s.entryAt qp p w) (s.asking w) = eachTo ((w.len + 64 - 1) / 64) (convertLine (s.entryAt qp p w)) (s.asking w))
    (hk : t.fromField (s.entryAt qp p w) fSrc 0 (8 * w.len) = .ok k) (hb : s.badIn k (8 * w.len) = false)
    (hdst : t.toField (s.entryAt qp p w) 0 256 = .ok (.here d)) (hc : isChunk d = false) :
    s.Transfers qp n d i 256 fun t => t.sideOf d = 0x11 ∧ ∀ j < 64, Mem.readN t.mem (d + 4 * j) 4 = convertWord s.mem k w.len v j := by
  have hline := convertLine_here (r := s.entryAt qp p w) hdt hlen htable hv hk ((hsame.badIn ..).trans hb) hdst
  rw [hsame.mem] at hline
  rw [show (w.len + 64 - 1) / 64 = 1 by omega] at hf
  have hlen' := length_convertBytes s.mem k w.len v
  refine runEntry_line hp hw hexec hok (hf.trans (eachTo_one hline)) hlen' hwf hsame hd (by rw [State.setAnyLine, hc]; rfl)
    fun u hu hside => ⟨hside hc, fun j hj => ?_⟩
  refine Mem.readN_of_bytes (convertWord_lt ..) fun i hi => ?_
  rw [Nat.add_assoc, hu (4 * j + i) (by omega)]
  exact getD_convertBytes s.mem k w.len v hj hi
end
end

/-! ### The steps of an entry -/

section
variable (qp n : Nat) (s : State)

theorem csqNotify_exec : exec (.csqNotify qp n) s = runEntry (fun w => w.kind == 3) (fun _ s => { s := s }) qp n s := rfl
theorem csqPut_exec : exec (.csqPut qp n) s =
    runEntry (fun w => w.kind == 0) (fun r => eachTo (r.w.len / 256) (putLine r)) qp n s := rfl
theorem lcopyCopy_exec : exec (.lcopyCopy qp n) s =
    runEntry (fun w => w.kind == 4 && w.opm == 0) (fun r => eachTo (r.w.len / 256) (putLine r)) qp n s := rfl
theorem lcopyZero_exec : exec (.lcopyZero qp n) s =
    runEntry (fun w => w.kind == 4 && w.opm == 2) (fun r => eachTo (r.w.len / 256) (zeroLine r)) qp n s := rfl
theorem csqPutredMax_exec : exec (.csqPutredMax qp n) s =
    runEntry (fun w => w.kind == 1 && w.opm == 1) (fun r => eachTo r.w.len (redInt r)) qp n s := rfl
theorem csqPutredMin_exec : exec (.csqPutredMin qp n) s =
    runEntry (fun w => w.kind == 1 && w.opm == 2) (fun r => eachTo r.w.len (redInt r)) qp n s := rfl

/-- What PUTRED SUM does, by the type of its elements. -/
def sumEntry (r : Running) : State → Ran :=
  if r.w.isFp then eachTo (blocksOf r.w.len) (redBlock r) else if r.w.dtype = 6 then eachTo r.w.len (redStage r)
  else if r.w.dtype = 4 then redSketch r else eachTo r.w.len (redInt r)
theorem csqPutredSum_exec : exec (.csqPutredSum qp n) s = runEntry (fun w => w.kind == 1 && w.opm == 0) sumEntry qp n s := rfl
theorem sumEntry_int {r : Running} (h : r.w.dtype = 2 ∨ r.w.dtype = 3) : sumEntry r = eachTo r.w.len (redInt r) := by
  have hfp : ¬ r.w.isFp = true := by
    rw [Work.isFp, decide_eq_true_eq]
    omega
  rw [sumEntry, if_neg hfp, if_neg (by omega), if_neg (by omega)]
theorem sumEntry_fp {r : Running} (h : r.w.dtype = 0) : sumEntry r = eachTo (blocksOf r.w.len) (redBlock r) :=
  if_pos (by rw [Work.isFp, h]; rfl)

/-- What MAXEXP does, over a table or over data. -/
def maxexpRun (r : Running) : State → Ran :=
  if r.w.dtype = 5 then eachTo r.w.len (maxexpEntry r) else eachTo (blocksOf r.w.len) (maxexpBlock r)
theorem csqMaxexp_exec : exec (.csqMaxexp qp n) s = runEntry (fun w => w.kind == 2) maxexpRun qp n s := rfl
theorem maxexpRun_table {r : Running} (h : r.w.dtype = 5) : maxexpRun r = eachTo r.w.len (maxexpEntry r) := if_pos h

/-- What LCOPY convert does, over a sketch or over sums. -/
def convertRun (r : Running) : State → Ran :=
  if r.w.dtype = 4 then convertSketch r
  else eachTo ((r.w.len + (if r.w.dtype = 1 then 128 else 64) - 1) / (if r.w.dtype = 1 then 128 else 64)) (convertLine r)
theorem lcopyConvert_exec : exec (.lcopyConvert qp n) s = runEntry (fun w => w.kind == 4 && w.opm == 1) convertRun qp n s := rfl
theorem convertRun_binary32 {r : Running} (h : r.w.dtype = 0) : convertRun r = eachTo ((r.w.len + 64 - 1) / 64) (convertLine r) := by
  rw [convertRun, if_neg (by omega), if_neg (by omega)]
end

/-- Settles O48: each entry by what its one line or element does to the bytes it writes. -/
theorem queuePairTransfers : Obligations.QueuePairTransfers := by
  unfold Obligations.QueuePairTransfers
  intro s u qp n p rel k d ka w x z q s0 read r size runs reach clean signed copies one e v agreed sum hp hw hwf hd
  have hsize : 0 < 8 * size := by
    simp only [size, dtypeSize]
    split <;> decide
  have hsigned {a : Nat} (ha : a < 2 ^ (8 * size)) : sextN (8 * size) a = signed a := sextN_of_lt hsize ha
  refine ⟨fun hkind => ?_,
    fun hkind hlen hsrc hdst hk => copy_transfers hp hw (csqPut_exec ..) (by simp [hkind]) hwf hd rfl hlen hsrc hdst hk,
    fun hkind hopm hlen hsrc hdst hk => copy_transfers hp hw (lcopyCopy_exec ..) (by simp [hkind, hopm]) hwf hd rfl hlen hsrc hdst hk,
    fun hkind hopm hlen => zero_transfers hp hw (lcopyZero_exec ..) (by simp [hkind, hopm]) hwf hd rfl hlen,
    fun hkind => ⟨fun hopm hlen hdt hsrc hc hdst hc' hk => ?_, fun hopm hlen _ hsrc hc hdst hc' hk => ?_,
      fun hopm hlen _ hsrc hc hdst hc' hk => ?_⟩,
    fun hkind hdt hlen hsrc hc hk hdst hc' he hv => ?_,
    fun hkind hopm hdt hlen hpeer hka hc hreach hv hx hz hdst hb => ?_, ⟨fun g => ⟨rfl, rfl⟩, fun h => alignedInt_zero h x⟩,
    fun g m y hm h0 h => alignedInt_beyond g hm h0 h, fun g m y hm h0 h hlo => alignedInt_exact g hm h0 h hlo,
    fun hkind hopm hdt hlo hhi hpeer hka hc hreach hv hk hb hdst hchunk => ?_⟩
  · exact runEntry_transfers hp hw (csqNotify_exec ..) (by simp [hkind]) rfl (fun _ _ => rfl) fun u hu _ => hu
  · have hf := sumEntry_int (r := s.entryAt qp p w) hdt
    refine int_transfers (g := fun a b => (a + b) % 2 ^ (8 * size)) hp hw (csqPutredSum_exec ..)
      (by simp [hkind, hopm]) hwf hd hk rfl hlen (congrFun hf _) (fun a b _ _ => ?_) hsrc hc hdst hc'
    rw [hopm, intReduce]
  · refine int_transfers (g := fun a b => if signed a < signed b then b else a) hp hw (csqPutredMax_exec ..)
      (by simp [hkind, hopm]) hwf hd hk rfl hlen rfl (fun a b ha hb => ?_) hsrc hc hdst hc'
    rw [hopm, intReduce, hsigned ha, hsigned hb]
  · refine int_transfers (g := fun a b => if signed b < signed a then b else a) hp hw (csqPutredMin_exec ..)
      (by simp [hkind, hopm]) hwf hd hk rfl hlen rfl (fun a b ha hb => ?_) hsrc hc hdst hc'
    simp only [hopm, intReduce, hsigned ha, hsigned hb]
  · have hf := maxexpRun_table (r := s.entryAt qp p w) hdt
    refine (maxexp_transfers hp hw (csqMaxexp_exec ..) (by simp [hkind]) hwf hd hk hlen (congrFun hf _) hsrc hc hdst hc' he hv).imp
      fun t ht => ?_
    rw [ht]
    exact (mergeEntry_fields e v).2
  · have hf := sumEntry_fp (r := s.entryAt qp p w) hdt
    obtain ⟨hsame, htable⟩ := State.tableAt_aux (.inl hpeer) hka hc hreach
    exact fp_transfers hp hw (csqPutredSum_exec ..) (by simp [hkind, hopm]) hwf hd hsame htable hv hlen (congrFun hf _) hx hz hdst hb
  · have hf := convertRun_binary32 (r := s.entryAt qp p w) hdt
    obtain ⟨hsame, htable⟩ := State.tableAt_aux hpeer hka hc hreach
    refine (convert_transfers hp hw (lcopyConvert_exec ..) (by simp [hkind, hopm]) hwf hd hsame htable hv hdt hlo hhi (congrFun hf _) hk hb
      hdst hchunk).imp fun t ⟨hside, hword⟩ => ⟨hside, fun j hj => ?_⟩
    rw [hword j hj, convertWord_eq, agreedValue_eq]
end Sys2Proof.Machine
end
